-- ==== Sys2Proof/Word.lean ====
section
/-! DEFINITION. The word types of the TL-256 and their plainest arithmetic: bytes, 64-bit register values, 128-bit cell
payloads, unit numbers (00 R8), bit-field reads and writes. Every conversion that a test could show wrong stands under
`Machine/` instead. -/

namespace Sys2Proof

/-- One byte. -/
abbrev Byte := BitVec 8
/-- One 64-bit register of control space (19 R590). -/
abbrev Word64 := BitVec 64
/-- The payload of a cell (03 R81). -/
abbrev Payload := BitVec 128

/-- Global engine number, cluster x 8 + engine (00 R8). -/
abbrev EngId := Fin 256
/-- Context number within an engine (03 R62). -/
abbrev CtxId := Fin 32
/-- Cluster number (00 R8). -/
abbrev CluId := Fin 32
/-- Hedge number (00 R8). -/
abbrev HedgeId := Fin 64
/-- Transaction slot number (10 R311). -/
abbrev SlotId := Fin 131072
/-- Host port 0 or 1 (01 R18). -/
abbrev PortId := Fin 2
/-- A host-port function: port x 65 + n, where n = 0 is the PF and n = 1 to 64 the VFs (13 R416). -/
abbrev FnId := Fin 130
/-- Mover block index m (12 Table 12-1). -/
abbrev MovId := Fin 36
/-- Mover channel (12 R382). -/
abbrev ChId := Fin 64
/-- Pacing timer of a mover (12 R400). -/
abbrev TimerId := Fin 16
/-- Memory stop M0 to M7 (01 R20). -/
abbrev StopId := Fin 8
/-- Lock unit, numbered as its HBM channel (10 R320). -/
abbrev UnitId := Fin 64
/-- Thermal sensor (14 R466). -/
abbrev SensorId := Fin 64
/-- Pleach link (17 R543). -/
abbrev LinkId := Fin 4
/-- Storage port (18 R576). -/
abbrev StoragePort := Fin 16
/-- Control core CC0 to CC3 (15 R484). -/
abbrev CoreId := Fin 4
/-- Control-core thread, 2 x core + thread (15 Table 15-8). -/
abbrev ThreadId := Fin 8

/-- The field [hi:lo] of `v`, as a number (00 R5). -/
def bits {n : Nat} (v : BitVec n) (hi lo : Nat) : Nat := v.toNat / 2 ^ lo % 2 ^ (hi + 1 - lo)

/-- Bit `i` of `v`. -/
def bit {n : Nat} (v : BitVec n) (i : Nat) : Bool := v.getLsbD i

/-- A Bool as 0 or 1. -/
def b2n (b : Bool) : Nat := if b then 1 else 0

end Sys2Proof
end

