-- ==== Sys2Proof/Config.lean ====
section
/-! DEFINITION. What one implementation fixes, and the free values. Every constant here has NO BODY: nothing in Lean can
evaluate it, so a statement about it holds for every value (log entries 2, 3 and 7). -/

namespace Sys2Proof.Config

/-- A free value of width `w`, drawn with a counter of State (log 2): a value the spec leaves undefined or unstated. -/
opaque freeValue (w : Nat) : Nat → BitVec w

/-- A free yes or no (18 R566: a PWR_FAIL_N pulse of 5 to 20 ns). -/
opaque freeBool : Nat → Bool

/-- The 64-bit serial number in the fuse bank (15 R490, DHP_SERIAL). -/
opaque serial : BitVec 64

/-- Yumudo's PCI vendor ID (18 R574). -/
opaque vendorId : BitVec 16

/-- GPIO2 to GPIO7 as the configuration store sets them while firmware runs: an input, or an output and its level (18 R585). -/
opaque gpioStore : Nat → Option Bool

/-- The sequencing field [95:81] of microcode ROM word `a` (15 R501); the rest of a microword is private. -/
opaque romSeq : Nat → BitVec 15

/-- The private body [80:0] of microcode ROM word `a`, as the MCMIRROR image of a firmware image holds it (15 R501, R506). -/
opaque romBody : Nat → BitVec 81

/-- Byte `i` of a buffer whose layout the spec keeps private: IDENTIFY and TELEMETRY (13 R446), or of drive blocks after a failed write (12 R394), drawn with State's counter
(log 3). -/
opaque privateByte : Nat → Nat → BitVec 8

/-- The microcode ROM address at which the execution of an opcode begins (15 R501): private to Yumudo. -/
opaque romEntry : Nat → Nat

/-- Whether firmware rounds the fraction `n / d` of an energy account up to a whole µJ (14 R472 states no rounding). -/
opaque roundsUp : Int → Nat → Bool

end Sys2Proof.Config
end

