-- ==== Sys2Proof/Machine/Table.lean ====
section
/-! DEFINITION. Tables of plain data: a list of (key, value) pairs with strictly rising keys in which no value equals what
an unlisted key reads as. Every memory and every numbered group of registers is such a table. -/

namespace Sys2Proof.Machine

/-- A table: (key, value) pairs. -/
abbrev Tab (α : Type) := List (Nat × α)

/-- Read: the listed value, or `d` for a key that is not listed. -/
def tget {α : Type} (d : α) : Tab α → Nat → α
  | [], _ => d
  | (k, v) :: t, i => if i = k then v else tget d t i

/-- Insert or replace, keeping the keys rising. -/
def tput {α : Type} : Tab α → Nat → α → Tab α
  | [], i, v => [(i, v)]
  | (k, w) :: t, i, v =>
    if i < k then (i, v) :: (k, w) :: t else if i = k then (i, v) :: t else (k, w) :: tput t i v

/-- Remove a key. -/
def tdel {α : Type} : Tab α → Nat → Tab α
  | [], _ => []
  | (k, w) :: t, i => if i = k then tdel t i else (k, w) :: tdel t i

/-- Write: a value equal to the default removes the entry, so that equal tables are equal data. -/
def tset {α : Type} [DecidableEq α] (d : α) (t : Tab α) (i : Nat) (v : α) : Tab α :=
  if v = d then tdel t i else tput t i v

/-- Change one entry. -/
def tmod {α : Type} [DecidableEq α] (d : α) (t : Tab α) (i : Nat) (f : α → α) : Tab α := tset d t i (f (tget d t i))

/-- Change every listed entry. -/
def tmap {α : Type} [DecidableEq α] (d : α) : Tab α → (α → α) → Tab α
  | [], _ => []
  | (k, v) :: t, f => if f v = d then tdel (tmap d t f) k else (k, f v) :: tmap d t f

/-- Write a run of consecutive entries. -/
def tsetRun {α : Type} [DecidableEq α] (d : α) (t : Tab α) : Nat → List α → Tab α
  | _, [] => t
  | i, v :: vs => tsetRun d (tset d t i v) (i + 1) vs

/-- Read a run of `n` consecutive entries. -/
def tgetRun {α : Type} (d : α) (t : Tab α) (i n : Nat) : List α := (List.range n).map fun j => tget d t (i + j)

/-- Forget a range of `n` keys from `lo`. -/
def tclear {α : Type} (t : Tab α) (lo n : Nat) : Tab α := t.filter fun kv => kv.1 < lo || lo + n ≤ kv.1

/-- Replace the range of `n` keys from `lo` by those of `src` from `from_`. -/
def tcopy {α : Type} (t : Tab α) (lo n : Nat) (src : Tab α) (from_ : Nat) : Tab α :=
  (src.filter fun kv => from_ ≤ kv.1 && kv.1 < from_ + n).foldl (fun a kv => tput a (kv.1 - from_ + lo) kv.2) (tclear t lo n)

/-- The keys rise strictly from `lo`. -/
def tSorted {α : Type} : Nat → Tab α → Bool
  | _, [] => true
  | lo, (k, _) :: t => lo ≤ k && tSorted (k + 1) t

/-- The canonical form: rising keys and no listed default. -/
def twf {α : Type} [DecidableEq α] (d : α) (t : Tab α) : Bool := tSorted 0 t && t.all fun kv => decide (kv.2 ≠ d)

end Sys2Proof.Machine
end

