-- ==== Sys2Proof/Syntax.lean ====
section
/-! DEFINITION. The commands of the block: one constructor of `Instr` per row of spec/opcode_table.json, with the operands the
row's rule gives it. A command of the engine families names the engine and the context that issues and carries the raw
prefix bytes in front of the opcode (04 R114); a command of the other families names the unit it acts on and what arrives
from outside. -/

namespace Sys2Proof

/-- An issue on an engine: the engine, the context, and the prefix bytes before the escape and the opcode, the key byte of
P.KEY among them (04 R114, R119). -/
structure Iss where
  eng : EngId
  ctx : CtxId
  px : List Byte
  deriving DecidableEq, Repr

/-- Who writes or reads a control-space register (00 R10, 19 R590). -/
inductive Requester where
  /-- A control-core hardware thread, 2 x core + thread. -/
  | thread (t : ThreadId)
  /-- The keeper. -/
  | keeper
  /-- The JTAG port. -/
  | jtag
  deriving DecidableEq, Repr

/-- What an engine-bound message asks for (02 R50, Table 2-4). -/
inductive MsgKind where
  /-- A dispatch of the slot, which loads a FREE context (a RUN or a step of a long operation). -/
  | dispatch (slot : SlotId)
  /-- A wake of the event unit to a slot, with the endpoint's sequence. -/
  | wake (slot : SlotId) (seq : BitVec 32)
  /-- A firmware command delivering a NOTICE of a level, with its kind and its word (08 R246). -/
  | notice (slot : SlotId) (level : Fin 5) (kind : Byte) (word : BitVec 32)
  /-- An end notice of the commit sequencer (10 R327). -/
  | ended (slot : SlotId)
  deriving DecidableEq, Repr

/-- An engine-bound message with the sender's view of the engine's role (02 R50, R51). -/
structure EngMsg where
  eng : EngId
  hedge : HedgeId
  epoch : BitVec 16
  /-- The ao-tick at which it was sent (02 R51). -/
  sent : Word64
  /-- The start sequence of the slot it names when it was sent (Table 2-4). -/
  start : Word64
  /-- How often it has bounced before (Table 2-4). -/
  bounces : Nat
  kind : MsgKind
  deriving DecidableEq, Repr

/-- One thermal or keeper-free reading of a record block on an SSD: its bytes and whether the drive reports bad blocks. -/
structure BlockData where
  bytes : List Byte
  bad : Bool
  deriving DecidableEq, Repr

/-- A migration record: the other device's serial, the hedge there and the hedge here (17 R555, R556). -/
structure MigRec where
  serial : Word64
  there : HedgeId
  here : HedgeId
  deriving DecidableEq, Repr

/-- An identity message (17 R544). -/
structure PeerId where
  serial : Word64
  setid : Word64
  /-- Firmware line and DHP version. -/
  line : BitVec 32
  dhp : BitVec 16
  /-- The serial at the far end of each of its links that is UP. -/
  linkMap : List (Option Word64)
  /-- LEHR_PAIR.LINK and EN. -/
  pairLink : Fin 4
  pairEn : Bool
  /-- Its migration records (17 R556). -/
  prepared : List MigRec
  moved : List MigRec
  deriving DecidableEq, Repr

/-- An endpoint's directory entry (10 Table 10-5). -/
structure Endpoint where
  v : Bool
  rw : Bool
  ext : Bool
  marm : Byte
  evseq : BitVec 32
  addr : BitVec 48
  len : BitVec 17
  app : Payload
  deriving DecidableEq, Repr

/-- A zero entry. -/
abbrev Endpoint.zero : Endpoint :=
  { v := false, rw := false, ext := false, marm := 0, evseq := 0, addr := 0, len := 0, app := 0 }

/-- A registration as a migration carries it: its block (13 Table 13-15), its code-RAM address, its code and its window image. -/
structure MigProg where
  block : List Byte
  at_ : Nat
  image : List Byte
  window : List Byte
  deriving DecidableEq, Repr

/-- What the target of a migration receives (17 Table 17-4). -/
inductive MigMsg where
  /-- The source's serial and hedge, the hedge and VF here, the parameter block, registrations by number, the supervisor image, the table
  blocks with their bytes, and the directory range. -/
  | start (serial : Word64) (there here : HedgeId) (f : FnId) (params : List Byte) (progs : List (Fin 256 × MigProg))
      (super : Option MigProg) (tables : List (List Byte × List Byte)) (dir : List (Nat × Endpoint))
  /-- A page: address, level 1 to 4, permissions, keys, and its bytes other than zero by offset. -/
  | page (va : BitVec 48) (level : Fin 5) (perm : Fin 8) (pkey prkey : Fin 16) (cells : List (Nat × Byte))
  /-- A delta. -/
  | delta (g : Word64) (va : BitVec 48) (bytes : List Byte)
  /-- The hedge's last GCS, and the EVSEQ values of its range. -/
  | final (g : Word64) (evseq : List (Nat × BitVec 32))
  deriving DecidableEq, Repr

/-- Where an uncorrectable error strikes state private to a context (08 R271), or what an execution without END reports
(15 R503). -/
inductive Damage where
  /-- A local. -/
  | loc (n : Fin 16)
  /-- A return-stack entry. -/
  | rse (n : Fin 16)
  /-- A window cell, counted from the bottom of the stack. -/
  | win (i : Fin 4096)
  /-- A microcode ROM word read for the context's instruction. -/
  | ucode (a : Fin 8192)
  /-- A patch-RAM word read for the context's instruction. -/
  | patch (a : Fin 128)
  /-- The code-RAM word that holds this byte address, fetched by the context (16 R521). -/
  | code (a : BitVec 19)
  deriving DecidableEq, Repr

/-- A firmware image as a slot, a buffer or the SPI device holds it (15 R492, R493): its header and its body, bytes past the end of
either list 0. The digests, the signature and the layout of patch sets are outside the model: an image carries what their
verification gives (log 8). -/
structure Img where
  header : List Byte
  body : List Byte
  /-- SHA-384(PUBKEY) = KD[KEYIDX]. -/
  keyOk : Bool
  /-- The signature verifies over the signed message. -/
  sigOk : Bool
  /-- It holds a patch set for MC_ID.ROMVER (15 R506). -/
  patchOk : Bool
  deriving DecidableEq, Repr

/-- What the checks of an image in a buffer find: the key digest, the signature, and a patch set for MC_ID.ROMVER (15 R494, R506; log 8). -/
structure ImgFound where
  keyOk : Bool
  sigOk : Bool
  patchOk : Bool
  deriving DecidableEq, Repr

/-- The image that the bytes of a buffer are: a header of 4,096 bytes, then the body (15 R492). -/
abbrev Img.ofBytes (bs : List Byte) (x : ImgFound) : Img :=
  { header := bs.take 4096, body := bs.drop 4096, keyOk := x.keyOk, sigOk := x.sigOk, patchOk := x.patchOk }

/-- An access of control space: its address and its length in bytes (19 R591). -/
structure RegAccess where
  addr : BitVec 32
  len : Nat
  deriving DecidableEq, Repr

/-- A journal entry of the partner as it arrives: its segment, its place in the segment and its bytes (11 R376). -/
structure MirrorMsg where
  seq : Nat
  i : Fin 1024
  bytes : List Byte
  deriving DecidableEq, Repr

/-- A KICK's channel, and the descriptors that firmware hands over with it: the ring index, control, SRC, DST and AUX (12 R388, R398). -/
structure KickOp where
  ch : ChId
  ds : List (Fin 4096 × Word64 × Word64 × Word64 × Word64)
  deriving DecidableEq, Repr

/-- What a host port's link and its host settle on: FLIT mode, and the powers of two above 128 of Max_Payload_Size and
Max_Read_Request_Size (18 R572; log 75). -/
structure PortSetup where
  flit : Bool
  mps : Fin 6
  mrrs : Fin 6
  deriving DecidableEq, Repr

/-- A drive's memory request: its mover address, its length, and whether it is a write (18 R579). -/
structure DriveReq where
  addr : Word64
  len : Nat
  write : Bool
  deriving DecidableEq, Repr

/-- A header of one CODE segment of 4,096 bytes, with an SVN and FLAGS (15 Table 15-4). -/
abbrev Img.headerOf (svn flags : Byte) : List Byte :=
  [0x46, 0x57, 0x54, 0x4C, 1, 0, 4, svn, 0, 0, 0, 0, 0, 0x10, 0, 0, 0, flags, 1, 0] ++ List.replicate 44 0 ++
    [1, 0, 0, 0, 0, 0, 0, 0, 0, 0x10, 0, 0, 0, 0, 0, 0]

/-- A verifying image of SVN 0. -/
abbrev Img.shipped : Img := { header := Img.headerOf 0 0, body := [], keyOk := true, sigOk := true, patchOk := true }

/-- A slot that holds no image. -/
abbrev Img.blank : Img := { header := [], body := [], keyOk := false, sigOk := false, patchOk := false }

/-- A microcode patch set of a firmware image (15 R506): its level, its match registers as (ROM address, patch word), and its
patch words. -/
structure PatchSet where
  level : Byte
  replaced : List (BitVec 13 × BitVec 7)
  words : List (BitVec 96)
  deriving DecidableEq, Repr

/-- What the controller of a drive reports at step 9: NVMe major version, its namespaces with the capacity in blocks of those with a 4,096-byte
LBA format without metadata, the maximum transfer size in KiB, the I/O queue pairs and their depth, and whether it supports Write Zeroes,
deallocation and FUA (18 R577). -/
structure DriveReport where
  nvme : Nat
  spaces : List (Nat × Option (BitVec 40))
  transfer : Nat
  pairs : Nat
  depth : Nat
  zeroes : Bool
  dealloc : Bool
  fua : Bool
  deriving DecidableEq, Repr

/-- What a start finds from outside (17 R535, R537, R538; 15 R496, R497; 16 R526). -/
structure StartIn where
  /-- Every rail is within tolerance. -/
  rails : Bool
  /-- What the SPI recovery device answers. -/
  spi : Option Img
  /-- Memory stops that train below 9.6 Gb/s: 1 for 7.2, 2 for 4.8. -/
  slow : List (StopId × Fin 3)
  /-- HBM channels that reach no rate. -/
  failed : List UnitId
  /-- Clusters whose march tests or microcode comparison fail. -/
  bad : List CluId
  patches : PatchSet
  /-- Storage ports that the configuration store lists, and those of them whose link trains and whose controller becomes ready in time, with
  what it reports. -/
  listed : List StoragePort
  drives : List (StoragePort × DriveReport)
  /-- Engines that firmware assigns at step 13, with their roles. -/
  lend : List (HedgeId × EngId × Fin 3)
  deriving DecidableEq, Repr

/-- A request to the keeper's fuse bank (15 R490). -/
inductive FuseReq where
  /-- Revoke a key digest. -/
  | revoke (n : Fin 4)
  /-- Raise the security version floor. -/
  | floor (n : Fin 65)
  | debugLock
  /-- Turn a blown fuse back. -/
  | unblow
  deriving DecidableEq, Repr

/-- The commands, in the order of spec/opcode_table.json. -/
inductive Instr where
  /-- NOP (R145). Issues and does nothing for 1 cy. -/
  | nop (x : Iss)
  /-- DUP (R145). Copies the top cell with its tag. -/
  | dup (x : Iss)
  /-- DROP (R145). Discards the top cell. -/
  | drop (x : Iss)
  /-- SWAP (R145). Exchanges the two top cells. -/
  | swap (x : Iss)
  /-- OVER (R145). Copies the second cell to the top. -/
  | over (x : Iss)
  /-- ROT (R145). Rotates the third cell to the top. -/
  | rot (x : Iss)
  /-- NIP (R145). Removes the second cell. -/
  | nip (x : Iss)
  /-- TUCK (R145). Copies the top cell below the second cell. -/
  | tuck (x : Iss)
  /-- PICK (R147). Copies cell n (0-3) to the top; a larger immediate is an encoding fault. -/
  | pick (x : Iss) (imm : Byte)
  /-- DUP2 (R145). Copies the top two cells. -/
  | dup2 (x : Iss)
  /-- DROP2 (R145). Discards the top two cells. -/
  | drop2 (x : Iss)
  /-- LDL (R145). Pushes a copy of local Ln. -/
  | ldl (x : Iss) (n : Fin 16)
  /-- STL (R145). Pops into local Ln, refusing a guarded local at PL2. -/
  | stl (x : Iss) (n : Fin 16)
  /-- PUSHI_S (R146). Pushes an INT from a 1-byte signed immediate. -/
  | pushiS (x : Iss) (imm : BitVec 16)
  /-- PUSHI_L (R146). Pushes an INT from a 4-byte signed immediate. -/
  | pushiL (x : Iss) (imm : BitVec 64)
  /-- PUSHD (R193). Pushes a validity-checked DEC payload from its 16-byte immediate. -/
  | pushd (x : Iss) (imm : Payload)
  /-- PUSHFP (R146). Pushes a FLT from its 8-byte immediate. -/
  | pushfp (x : Iss) (imm : BitVec 64)
  /-- PUSHA (R146). Pushes a CODE cell holding a displacement target. -/
  | pusha (x : Iss) (imm : BitVec 32)
  /-- PUSHTRUE (R146). Pushes BOOL true. -/
  | pushtrue (x : Iss)
  /-- PUSHFALSE (R146). Pushes BOOL false. -/
  | pushfalse (x : Iss)
  /-- PUSHNIL (R146). Pushes NIL. -/
  | pushnil (x : Iss)
  /-- ADD (R143). Polymorphic add in the INT, DEC or FLT form selected by tags. -/
  | add (x : Iss)
  /-- SUB (R143). Polymorphic subtract. -/
  | sub (x : Iss)
  /-- MUL (R143). Polymorphic multiply. -/
  | mul (x : Iss)
  /-- DIV (R156). Polymorphic divide on the binary divider, sequencer or FP divide unit. -/
  | div (x : Iss)
  /-- REM (R156). Polymorphic remainder with the sign of the dividend. -/
  | rem (x : Iss)
  /-- CMP (R163). Pushes -1, 0, +1 or +2 comparing two operands. -/
  | cmp (x : Iss)
  /-- NEG (R155). Polymorphic negate. -/
  | neg (x : Iss)
  /-- ABS (R155). Polymorphic absolute value. -/
  | abs (x : Iss)
  /-- MULI (R209). T-5 integer multiply with a data-dependent count, or 10 cy under STRICT. -/
  | muli (x : Iss)
  /-- AND (R157). Bitwise or logical AND of INT or BOOL operands. -/
  | and (x : Iss)
  /-- OR (R157). Bitwise or logical OR. -/
  | or (x : Iss)
  /-- XOR (R157). Bitwise or logical XOR. -/
  | xor (x : Iss)
  /-- NOT (R157). Bitwise or logical NOT. -/
  | not (x : Iss)
  /-- SHL (R157). Logical shift left of an INT. -/
  | shl (x : Iss)
  /-- SHR (R157). Logical shift right of an INT. -/
  | shr (x : Iss)
  /-- SAR (R157). Arithmetic shift right of an INT. -/
  | sar (x : Iss)
  /-- FADD (R161). Binary64 add of FLT operands only. -/
  | fadd (x : Iss)
  /-- FSUB (R161). Binary64 subtract. -/
  | fsub (x : Iss)
  /-- FMUL (R161). Binary64 multiply. -/
  | fmul (x : Iss)
  /-- FMA (R161). Binary64 fused multiply-add with one rounding. -/
  | fma (x : Iss)
  /-- FDIV (R161). Binary64 divide on the FP divide unit. -/
  | fdiv (x : Iss)
  /-- FSQRT (R161). Binary64 square root on the FP divide unit. -/
  | fsqrt (x : Iss)
  /-- DMUL (R194). Exact 62-digit decimal product pushed as a lo/hi pair. -/
  | dmul (x : Iss)
  /-- DDIV (R196). Decimal truncating divide pushing quotient and remainder in 36 cy. -/
  | ddiv (x : Iss)
  /-- DSHL (R199). Multiplies a DEC by 10^N. -/
  | dshl (x : Iss) (imm : Byte)
  /-- DSHR (R201). Shifts a DEC or decimal pair right with rounding. -/
  | dshr (x : Iss) (imm : Byte)
  /-- DRND (R201). Rounds a DEC at a digit position. -/
  | drnd (x : Iss) (imm : Byte)
  /-- PACK (R205). Converts a zoned decimal field in scratch to a DEC cell. -/
  | pack (x : Iss) (imm : Byte)
  /-- UNPK (R206). Writes a DEC cell into scratch as a zoned field. -/
  | unpk (x : Iss) (imm : Byte)
  /-- DCMP (R203). Compares two DECs leaving both on the stack. -/
  | dcmp (x : Iss)
  /-- TAGOF (R159). Pushes the tag of the top cell as an INT. -/
  | tagof (x : Iss)
  /-- CVTI (R160). Converts to INT. -/
  | cvti (x : Iss)
  /-- CVTD (R160). Converts to DEC. -/
  | cvtd (x : Iss)
  /-- CVTF (R160). Converts to FLT. -/
  | cvtf (x : Iss)
  /-- BR (R105). Unconditional branch with one delay slot, optionally annulling. -/
  | br (x : Iss) (annul : Bool) (imm : BitVec 32)
  /-- BRZ (R165). Branch if zero or false. -/
  | brz (x : Iss) (annul : Bool) (imm : BitVec 32)
  /-- BRNZ (R165). Branch if not zero or false. -/
  | brnz (x : Iss) (annul : Bool) (imm : BitVec 32)
  /-- BRT (R164). Branch on the TYPE and optional SUB of the top cell. -/
  | brt (x : Iss) (annul : Bool) (imm : BitVec 32)
  /-- CALL (R93). Pushes a return address on the return stack and transfers. -/
  | call (x : Iss) (imm : BitVec 32)
  /-- RET (R94). Returns through the return stack, with WRAP or TRAP handling. -/
  | ret (x : Iss)
  /-- CALLM (R97). Calls through a scratch frame saving named locals. -/
  | callm (x : Iss) (imm : BitVec 64)
  /-- RETM (R98). Returns from a CALLM frame restoring locals. -/
  | retm (x : Iss)
  /-- RETI (R268). Checks and restores the entry record, returning from a handler. -/
  | reti (x : Iss)
  /-- CALLX (R166). Calls the address held in a CODE cell. -/
  | callx (x : Iss)
  /-- LD (R134). Loads scratch bytes or a full cell with zero extension. -/
  | ld (x : Iss) (imm : Byte)
  /-- LDS (R134). Loads scratch bytes sign-extended. -/
  | lds (x : Iss) (imm : Byte)
  /-- LDF (R134). Loads 8 bytes as a FLT. -/
  | ldf (x : Iss) (imm : Byte)
  /-- ST (R135). Stores a value narrow or full-cell into scratch. -/
  | st (x : Iss) (imm : Byte)
  /-- XADD (R149). Adds into an 8-byte scratch field returning the old value. -/
  | xadd (x : Iss) (imm : Byte)
  /-- XCHG (R150). Exchanges a value with scratch. -/
  | xchg (x : Iss) (imm : Byte)
  /-- CAS (R150). Compare-and-swap on scratch. -/
  | cas (x : Iss) (imm : Byte)
  /-- RLD (R170). Starts a locked read of a record into scratch and waits. -/
  | rld (x : Iss)
  /-- RST (R171). Appends an entry to the write-set index. -/
  | rst (x : Iss)
  /-- RLOCK (R172). Requests a shared or exclusive lock without data and waits. -/
  | rlock (x : Iss) (imm : Byte)
  /-- RPREF (R172). Starts translation and stage-in of a record's page and waits for acknowledgement. -/
  | rpref (x : Iss)
  /-- COMMIT (R173). Drains the store buffer and hands the write-set index to the commit port. -/
  | commit (x : Iss)
  /-- ABORT (R174). Ends the transaction with ABORTED. -/
  | abort (x : Iss)
  /-- STAGE (R175). Queues an unlocked mover copy between record space and scratch and waits. -/
  | stage (x : Iss)
  /-- WAITEV (R177). Sends a wait on an endpoint to the event unit and waits. -/
  | waitev (x : Iss)
  /-- SIGEV (R178). Sends a signal for an endpoint to the event unit. -/
  | sigev (x : Iss)
  /-- YIELD (R179). Offers the context for parking. -/
  | yield (x : Iss)
  /-- MVST (R224). One execution of a string move of up to 64 bytes. -/
  | mvst (x : Iss)
  /-- MVTR (R226). One execution of a translating string move of up to 32 bytes. -/
  | mvtr (x : Iss)
  /-- CMST (R227). One execution of a string compare of up to 64 pairs. -/
  | cmst (x : Iss)
  /-- SCST (R228). One execution of a string scan of up to 64 bytes. -/
  | scst (x : Iss)
  /-- EDIT (R231). One execution of an edit of up to 32 pattern bytes. -/
  | edit (x : Iss)
  /-- EDMK (R233). One execution of an edit that also marks the floating-symbol column. -/
  | edmk (x : Iss)
  /-- TLI (R237). Looks up a rate table in one 20-cy issue. -/
  | tli (x : Iss)
  /-- SETRM (R180). Sets PSW.RM. -/
  | setrm (x : Iss)
  /-- RDPSW (R180). Pushes the PSW. -/
  | rdpsw (x : Iss)
  /-- SETM (R180). Sets the mask level. -/
  | setm (x : Iss)
  /-- SETKEY (R180). Sets the access key. -/
  | setkey (x : Iss)
  /-- SETFP (R181). Sets FP, FL and the frame base. -/
  | setfp (x : Iss)
  /-- SETG (R182). Sets the guard bit of the top cell. -/
  | setg (x : Iss)
  /-- CLRG (R182). Clears the guard bit of the top cell. -/
  | clrg (x : Iss)
  /-- BUSY_COUNT_ELAPSED (R66). An instruction's count elapses and the context becomes READY. -/
  | busyCountElapsed (e : EngId) (c : CtxId)
  /-- STORE_BUFFER_DRAIN (R109). A store-buffer entry reaches scratch within 4 cy of issue. -/
  | storeBufferDrain (e : EngId)
  /-- EVENT_TAKE (R244). A pending asynchronous event above the mask is taken at a boundary by vectoring. -/
  | eventTake (e : EngId) (c : CtxId)
  /-- NOTICE_DELIVERY (R246). A firmware NOTICE reaches a context and is held pending or refused. -/
  | noticeDelivery (slot : SlotId) (level : Fin 5) (kind : Byte) (word : BitVec 32)
  /-- WATCHDOG (R270). The context's watchdog count passes LIMIT and raises WATCHDOG. -/
  | watchdog (e : EngId) (c : CtxId)
  /-- MACHINE_CHECK (R271). An uncorrectable error in private context state raises MACHINE-CHECK. -/
  | machineCheck (e : EngId) (c : CtxId) (dmg : Damage)
  /-- QUARANTINE_END (R261). Firmware ends a quarantined context's transaction and frees it. -/
  | quarantineEnd (e : EngId) (c : CtxId)
  /-- ENGINE_MESSAGE_ARRIVAL (R50). An engine-bound dispatch, event or command arrives and is accepted or bounced. -/
  | engineMessageArrival (m : EngMsg)
  /-- BOUNCE_DISPOSAL (R53). Firmware redispatches, re-sends or discards a bounced message. -/
  | bounceDisposal (target : EngId)
  /-- RLD_COMPLETE (R170). Record data is written into scratch and the completion cell pushed. -/
  | rldComplete (e : EngId) (c : CtxId)
  /-- RLOCK_COMPLETE (R172). A lock grant or refusal completes an RLOCK. -/
  | rlockComplete (e : EngId) (c : CtxId)
  /-- RPREF_ACK (R172). The prefetch acknowledgement ends an RPREF wait. -/
  | rprefAck (e : EngId) (c : CtxId)
  /-- STAGE_COMPLETE (R413). An engine channel finishes a STAGE and pushes its completion cell. -/
  | stageComplete (e : EngId) (c : CtxId)
  /-- WAITEV_WAKE (R177). A wake message completes a WAITEV with the new sequence. -/
  | waitevWake (slot : SlotId)
  /-- WAITEV_TIMEOUT (R177). A WAITEV interval expires and the wait completes with TIMEOUT. -/
  | waitevTimeout (slot : SlotId)
  /-- COMMIT_OUTCOME (R173). The commit outcome notice frees the context. -/
  | commitOutcome (e : EngId) (c : CtxId)
  /-- ENG_ROLE_WRITE (R44). Firmware writes HEDGE, ROLE and ASSIGNED, advancing EPOCH or refusing an uncleared reassignment. -/
  | engRoleWrite (r : Requester) (e : EngId) (v : Word64)
  /-- ENGINE_CLEAR (R47). Writing ENG_ROLE.CLEAR starts a clear of the engine. -/
  | engineClear (r : Requester) (e : EngId)
  /-- ENGINE_CLEAR_COMPLETE (R47). The clear completes 1,040 cy later and sets CLEAN. -/
  | engineClearComplete (e : EngId)
  /-- ENG_SWIN_WRITE (R79). Writes the supervisor window, ignored if out of range. -/
  | engSwinWrite (r : Requester) (e : EngId) (v : Word64)
  /-- ENG_CPT_WRITE (R223). Writes the code-page table base, ignored if out of range. -/
  | engCptWrite (r : Requester) (e : EngId) (v : Word64)
  /-- ENG_WDOG_WRITE (R273). Writes the watchdog limit only with no resident context, raising 1-9 to 10. -/
  | engWdogWrite (r : Requester) (e : EngId) (v : Word64)
  /-- ENG_CTL_WRITE (R108). Writes STRICT, RSO, LBEN and IDLEGATE. -/
  | engCtlWrite (r : Requester) (e : EngId) (v : Word64)
  /-- CONTEXT_WINDOW_WRITE (R598). Firmware writes a context's state, only while FREE, PARKING or QUARANTINED. -/
  | contextWindowWrite (r : Requester) (e : EngId) (c : CtxId) (off : Fin 128) (v : Word64)
  /-- PARK (R316). Firmware spills a context and writes its parked image. -/
  | park (e : EngId) (c : CtxId)
  /-- UNPARK (R317). Firmware restores a parked slot into a FREE context. -/
  | unpark (slot : SlotId) (e : EngId) (c : CtxId)
  /-- PARK_WAIT_TIMEOUT (R318). A context that cannot park within 1 s during reassignment is ended THROTTLED. -/
  | parkWaitTimeout (e : EngId) (c : CtxId)
  /-- SQ_DOORBELL (R421). A write to DHP_SQDB sets the submission tail. -/
  | sqDoorbell (f : FnId) (v : Word64)
  /-- COMMAND_READ (R422). A submission entry arrives and is checked against EXPHSN. -/
  | commandRead (f : FnId) (bytes : List Byte) (poison : Bool) (fault : Bool)
  /-- SUBMIT_REREAD (R422). A mismatching entry is re-read after 1 us. -/
  | submitReread (f : FnId) (bytes : List Byte) (poison : Bool) (fault : Bool)
  /-- START_BLOCK_DISCARD (R313). A start-sequence block unused for 1 us is discarded. -/
  | startBlockDiscard (b : Fin 3)
  /-- FIRMWARE_DISPATCH (R432). Firmware dispatches a non-fast-path RUN to a GENERAL engine. -/
  | firmwareDispatch (slot : SlotId) (e : EngId) (c : CtxId)
  /-- RUN (R430). Runs a registered program with checked argument cells. -/
  | run (f : FnId) (list : List Byte) (data : List Byte) (st : Byte)
  /-- READ (R434). Reads one record under a shared lock into a host buffer. -/
  | read (f : FnId)
  /-- SIGNAL (R435). Applies a SIGEV to an endpoint from the host. -/
  | signal (f : FnId)
  /-- EPSET (R435). Defines or changes an endpoint and journals it. -/
  | epset (f : FnId)
  /-- MAP (R436). Adds or removes record-space mappings. -/
  | map (f : FnId)
  /-- RESYNC (R444). Reposts history completions and reports the durable watermark. -/
  | resync (f : FnId)
  /-- SCAN (R437). One step of a scan of endpoints into a host buffer. -/
  | scan (f : FnId)
  /-- BULK (R437). One step running argument blocks as transactions. -/
  | bulk (f : FnId) (blocks : List (List Byte))
  /-- CHECKPOINT (R437). One step writing back dirty pages toward a checkpoint watermark. -/
  | checkpoint (f : FnId)
  /-- REBUILD (R519). One step restoring poisoned granules of pages. -/
  | rebuild (f : FnId) (bad : Bool)
  /-- LONG_STEP_TIME_LIMIT (R437). A step's engine time reaches 20 us and the step ends. -/
  | longStepTimeLimit (slot : SlotId)
  /-- TOKEN_EXPIRY (R438). A continuation token unused for 10 s expires and the operation ends. -/
  | tokenExpiry (h : HedgeId) (v : Word64)
  /-- IDENTIFY (R446). Writes identity and capacities to a buffer. -/
  | identify (f : FnId)
  /-- CREATE_HEDGE (R36). Opens a hedge bound to a VF. -/
  | createHedge (f : FnId) (buf : List Byte)
  /-- SET_HEDGE (R448). Changes a hedge's parameters. -/
  | setHedge (f : FnId) (buf : List Byte)
  /-- DESTROY_HEDGE (R61). Closes a hedge and releases its resources in order. -/
  | destroyHedge (f : FnId)
  /-- REGISTER (R449). Registers a transaction program or supervisor image. -/
  | register (f : FnId) (buf : List Byte)
  /-- UNREGISTER (R451). Withdraws a registered program. -/
  | unregister (f : FnId)
  /-- LOAD_TABLE (R452). Loads table bytes and a stock cell into every engine of a hedge. -/
  | loadTable (f : FnId) (buf : List Byte) (src : List Byte)
  /-- TELEMETRY (R446). Writes hedge or device counters to a buffer. -/
  | telemetry (f : FnId)
  /-- FW_UPDATE (R500). Programs and verifies a new image in the idle slot and marks it for trial. -/
  | fwUpdate (f : FnId) (bytes : List Byte) (found : ImgFound)
  /-- RING_ENABLE (R418). EN := 1 opens a function's rings or sets CFGERR. -/
  | ringEnable (f : FnId)
  /-- RING_DISABLE (R419). EN := 0 drains a hedge's rings to DOWN, or downs the admin ring. -/
  | ringDisable (f : FnId)
  /-- SQRESTART (R422). Clears SQERR and resumes submission reading. -/
  | sqrestart (f : FnId)
  /-- CQ_DOORBELL (R421). A write to DHP_CQDB sets the completion head. -/
  | cqDoorbell (f : FnId) (v : Word64)
  /-- EQ_DOORBELL (R421). A write to DHP_EQDB sets the event head. -/
  | eqDoorbell (f : FnId) (v : Word64)
  /-- DHP_CONFIG_WRITE (R604). Writes ring bases, HSN0, RINGCFG or INTCFG under their EN rules. -/
  | dhpConfigWrite (f : FnId) (off : Nat) (len : Nat) (v : Word64)
  /-- FUNCTION_LEVEL_RESET (R40). FLR of a VF aborts ungranted transactions and discards unposted completions. -/
  | functionLevelReset (f : FnId)
  /-- HOST_PORT_RESET (R419). Conventional Reset or DL_Down of a host port drains every hedge on it. -/
  | hostPortReset (p : PortId)
  /-- D3HOT_ENTRY (R575). A transition to D3hot acts on the function's rings as EN := 0. -/
  | d3hotEntry (f : FnId)
  /-- COMPLETION_POST (R33). A completion reaching the front end is posted in GCS order or held. -/
  | completionPost (f : FnId)
  /-- VECTOR0_TIMER (R424). INTCFG.TIME expires and vector 0 is sent. -/
  | vector0Timer (f : FnId)
  /-- LOCK_REQUEST (R326). A lock unit grants, queues and wounds under wound-wait. -/
  | lockRequest (e : EngId) (c : CtxId)
  /-- LOCK_RELEASE (R324). A release frees a slot's locks in a unit, grants waiters and confirms. -/
  | lockRelease (slot : SlotId) (u : UnitId)
  /-- RELEASE_CONFIRM (R324). Confirmations from every unit send the completion and let the slot leave. -/
  | releaseConfirm (slot : SlotId)
  /-- WOUND (R327). The sequencer sets WOUND and sends an end notice, or voids a wound. -/
  | wound (slot : SlotId)
  /-- END_NOTICE (R328). An end notice stops a context or abandons its commit. -/
  | endNotice (slot : SlotId)
  /-- WOUND_RESTART (R329). A wounded transaction with retries left is re-admitted in its slot. -/
  | woundRestart (slot : SlotId)
  /-- COMMIT_VALIDATE (R330). The commit port takes staging blocks and validates and stages each index entry. -/
  | commitValidate (e : EngId) (c : CtxId)
  /-- STAGING_BLOCKS_FREE (R331). Freed staging blocks let a waiting validation proceed. -/
  | stagingBlocksFree (k : CluId)
  /-- COMMIT_ADMISSION (R359). Deltas at the sequencer are refused, wait, or draw a GCS and reserve entries. -/
  | commitAdmission (slot : SlotId)
  /-- THROTTLE_TIMEOUT (R361). A commit waiting beyond TWAIT is refused THROTTLED. -/
  | throttleTimeout (slot : SlotId)
  /-- MEDIA_MARK (R330). A media mark at the sequencer refuses an unsequenced slot with MEDIA. -/
  | mediaMark (slot : SlotId)
  /-- LEHR_ENTRY_WRITE (R352). The controller packs queued deltas and starts an entry write. -/
  | lehrEntryWrite (bad : Fin 3)
  /-- LEHR_ENTRY_DURABLE (R353). An entry's sideband verifies and its transaction may become durable. -/
  | lehrEntryDurable (pos : Fin 8192)
  /-- DELTA_APPLY (R333). A memory stop applies a delta granule by granule. -/
  | deltaApply (slot : SlotId) (st : StopId)
  /-- APPLY_NOTICE (R324). Apply notices from every stop let the Lehr controller send releases. -/
  | applyNotice (slot : SlotId)
  /-- DRAIN_WRITE_COMPLETE (R363). A segment record's SSD write completes and segments are reclaimed in order. -/
  | drainWriteComplete (seg : Nat)
  /-- DRAIN_WRITE_FAIL (R365). A failed or 100 ms-late drain write is retried on the next port or stops the drain. -/
  | drainWriteFail (seg : Nat)
  /-- FLUSH_REQUEST (R364). A pager or checkpoint flush writes the open segment as a partial record. -/
  | flushRequest
  /-- LEHR_FULL_TIMEOUT (R362). FULL held for 10 ms makes firmware treat the journal path as failed. -/
  | lehrFullTimeout
  /-- CHECKPOINT_ADVANCE (R366). Firmware writes back pages and records a new checkpoint in superblocks. -/
  | checkpointAdvance (g : Word64)
  /-- MIRROR_ENTRY (R376). A partner entry arrives and is written as a MIRROR entry and acknowledged. -/
  | mirrorEntry (l : LinkId) (g : Word64) (m : MirrorMsg)
  /-- MIRROR_ACK (R376). A partner acknowledgement lets a paired completion post. -/
  | mirrorAck (g : Word64)
  /-- PAIR_TIMEOUT (R380). An acknowledgement overdue past TMO stalls or falls back to local durability. -/
  | pairTimeout
  /-- LEHR_FENCE (R530). A failed Lehr controller is fenced and recovered over 180 ms. -/
  | lehrFence (ok : Bool)
  /-- JOURNAL_HOLE (R529). An unrecoverable journal position is bridged by a checkpoint. -/
  | journalHole (pos : Fin 8192)
  /-- REPLAY (R372). Firmware replays zone records and the ring to find and apply up to D. -/
  | replay
  /-- RING_REOPEN (R550). The Lehr ring is drained and reset after replay. -/
  | ringReopen (fails : List (Fin 4))
  /-- PAGE_WALK (R283). The walker translates an address through the page tables. -/
  | pageWalk (e : EngId) (c : CtxId)
  /-- MARK_REQUEST (R298). A leaf's memory stop sets A or D by compare-and-swap. -/
  | markRequest (e : EngId) (c : CtxId)
  /-- PAGE_STAGE_IN (R303). The pager stages a page into frames and releases waiting accesses. -/
  | pageStageIn (h : HedgeId) (va : BitVec 48) (bad : Bool)
  /-- PAGE_EVICT (R305). The pager evicts an unpinned resident page. -/
  | pageEvict (h : HedgeId) (va : BitVec 48)
  /-- PAGE_AGE (R306). Firmware clears a page's A bit and invalidates it. -/
  | pageAge (h : HedgeId) (va : BitVec 48)
  /-- TLBINV_PAGE (R307). GO with OP PAGE invalidates one page's translations. -/
  | tlbinvPage (r : Requester) (h : HedgeId) (mask : BitVec 32)
  /-- TLBINV_HEDGE (R307). GO with OP HEDGE invalidates a hedge's translations. -/
  | tlbinvHedge (r : Requester) (h : HedgeId) (mask : BitVec 32)
  /-- TLBINV_FRAME (R307). GO with OP FRAME invalidates translations of one frame. -/
  | tlbinvFrame (r : Requester) (mask : BitVec 32)
  /-- TLBINV_ALL (R307). GO with OP ALL invalidates every translation. -/
  | tlbinvAll (r : Requester) (mask : BitVec 32)
  /-- TLBINV_COMPLETE (R308). Every named cluster completes and BUSY clears. -/
  | tlbinvComplete
  /-- EVENT_UNIT_WAIT (R177). A WAITEV reaches the event unit and completes or is held. -/
  | eventUnitWait (slot : SlotId)
  /-- EVENT_UNIT_SIGNAL (R178). A SIGEV at the event unit increments EVSEQ and wakes waiters. -/
  | eventUnitSignal (slot : SlotId)
  /-- MOVER_SIGNAL (R399). A mover signal acts as a SIGEV and lowers MARM. -/
  | moverSignal (m : MovId) (ch : ChId)
  /-- EVENT_UNIT_DEADLOCK (R346). All live slots unarmed for one ao-tick raises EVENT-DEADLOCK. -/
  | eventUnitDeadlock (h : HedgeId)
  /-- PRUNING_PASS (R347). Every 100 us firmware marks progressing slots and raises or ends deadlocks. -/
  | pruningPass
  /-- KICK (R398). A KICK starts an idle channel or sets KPEND. -/
  | kick (m : MovId) (k : KickOp)
  /-- ABORT_CHANNEL (R407). ABORT stops a channel and writes its residue. -/
  | abortChannel (m : MovId) (ch : ChId)
  /-- RESUME (R402). RESUME restarts a stopped or halted channel at HEAD. -/
  | resume (m : MovId) (ch : ChId)
  /-- RESET_CHANNEL (R417). RESET returns an idle, stopped or halted channel to HEAD 0. -/
  | resetChannel (m : MovId) (ch : ChId)
  /-- HALTCLR (R411). Ends ERR_HALT when drained and restarts the read engine. -/
  | haltclr (m : MovId)
  /-- WDRAW (R400). Withdraws a pacing request until the next period. -/
  | wdraw (m : MovId) (t : TimerId)
  /-- MOV_CHANNEL_CONFIG_WRITE (R415). Writes a channel's base or configuration, enabling or disabling it. -/
  | movChannelConfigWrite (m : MovId) (ch : ChId) (cfg : Bool) (v : Word64)
  /-- DESCRIPTOR_TAKE (R389). A channel takes the descriptor at HEAD and checks it. -/
  | descriptorTake (m : MovId) (ch : ChId)
  /-- BURST_COMPLETE (R403). Read data arrives and the write engine writes it in address order. -/
  | burstComplete (m : MovId) (ch : ChId) (i : Fin 64) (data : List Byte) (poison : Bool)
  /-- NVME_COMPLETION (R394). An NVMe completion ends a block transfer. -/
  | nvmeCompletion (m : MovId) (ch : ChId) (st : BitVec 11)
  /-- DESCRIPTOR_COMPLETE (R395). A channel writes status and acts on INT, SIG and CHAIN. -/
  | descriptorComplete (m : MovId) (ch : ChId)
  /-- PACING_PERIOD (R400). A pacing timer period starts and asserts its request. -/
  | pacingPeriod (m : MovId) (t : TimerId)
  /-- MOVER_TIMEOUT (R408). A host read or NVMe command timer expires and the descriptor ends TIMEOUT. -/
  | moverTimeout (m : MovId) (ch : ChId) (data : List Byte)
  /-- UNEXPECTED_COMPLETION (R409). A late or unmatched completion is discarded and counted. -/
  | unexpectedCompletion (m : MovId) (tag : BitVec 10) (bytes : BitVec 13)
  /-- ERR_HALT (R410). A bus error halts the mover and ends its channels. -/
  | errHalt (m : MovId) (cause : BitVec 3) (kind : BitVec 2) (ch : Option ChId) (addr : Word64)
  /-- TEMP_SAMPLE (R467). A sensor sample updates temperature, thermal limit and heat credit. -/
  | tempSample (k : SensorId) (t : BitVec 11) (valid : Bool)
  /-- THERMAL_STEP_DOWN (R467). Each 100 us at or above 95 C lowers the limit one more point. -/
  | thermalStepDown (n : CluId)
  /-- THERMAL_STEP_UP (R467). Each 1 ms below 93 C raises the limit one point. -/
  | thermalStepUp (n : CluId)
  /-- POWER_CONTROL (R474). Every 100 ao-ticks the power controller lowers or raises points. -/
  | powerControl (w : Nat) (energy : List (CluId × Nat))
  /-- ENERGY_SETTLE (R472). Every 100 ao-ticks firmware settles each hedge's energy credit. -/
  | energySettle (issue : List (CluId × HedgeId × Nat))
  /-- CAPACITY_EVAL (R480). Every 1 ms firmware computes live capacity and effective guarantees. -/
  | capacityEval
  /-- EFFECTIVE_MIN_EVAL (R55). Firmware recomputes effective engine minimums after a change in engines in service. -/
  | effectiveMinEval
  /-- POINT_UP_SWITCH (R464). CCLK switches upward 5 us after the request. -/
  | pointUpSwitch (n : CluId)
  /-- PWR_CCTL_WRITE (R457). Writes a cluster's FLOOR, TARGET, boost and residences. -/
  | pwrCctlWrite (r : Requester) (n : CluId) (v : Word64)
  /-- CLUSTER_C4_ENTRY (R459). OFF with FLOOR 4 places an unassigned cluster in C4. -/
  | clusterC4Entry (n : CluId)
  /-- CLUSTER_C1_ENTRY (R456). A cluster idle for 64 cy enters C1. -/
  | clusterC1Entry (n : CluId)
  /-- CLUSTER_C2_ENTRY (R456). A cluster in C1 with no resident context for T2 enters C2. -/
  | clusterC2Entry (n : CluId)
  /-- CLUSTER_C3_ENTRY (R456). A cluster in C2 for T3 enters C3. -/
  | clusterC3Entry (n : CluId)
  /-- CLUSTER_WAKE (R458). A wake source starts a cluster's wake to C0. -/
  | clusterWake (n : CluId)
  /-- CLUSTER_WAKE_COMPLETE (R458). A cluster finishes waking and delivers held messages. -/
  | clusterWakeComplete (n : CluId)
  /-- VCORE_UNDERVOLT (R564). VDD_CORE 30 mV low for 1 us lowers clusters to point 3 and blocks boost. -/
  | vcoreUndervolt
  /-- PWR_FAIL_ASSERT (R370). PWR_FAIL_N quiesces the sequencer and Lehr. -/
  | pwrFailAssert (ns : Nat)
  /-- PWR_FAIL_RESTART (R567). PWR_FAIL_N high for 10 ms resets the device and restarts. -/
  | pwrFailRestart
  /-- PWR_BRAKE_ASSERT (R473). PWR_BRAKE_N caps every cluster at BRAKEPT. -/
  | pwrBrakeAssert
  /-- PWR_BRAKE_RELEASE (R473). PWR_BRAKE_N deassertion lets clusters rise a point per ms. -/
  | pwrBrakeRelease
  /-- SYS_RST_ASSERT (R536). SYS_RST_N assertion quiesces and resets outside the always-on domain. -/
  | sysRstAssert
  /-- START_SEQUENCE (R537). SYS_RST_N deassertion starts the start sequence. -/
  | startSequence (x : StartIn)
  /-- KEEPER_START (R535). VDD_AO within tolerance starts the keeper, which waits for reset and rails. -/
  | keeperStart
  /-- CRYSTAL_LOSS (R570). A stopped or off-frequency crystal for 10 us acts as PWR_FAIL_N. -/
  | crystalLoss
  /-- BOOT_WATCHDOG (R498). GLB_BOOTOK not written within 8 s makes the keeper reset the device. -/
  | bootWatchdog
  /-- GLB_BOOTOK_WRITE (R498). Firmware confirms start-up, clearing the slot's start count. -/
  | glbBootokWrite (r : Requester) (v : Word64)
  /-- GLB_LOCK_WRITE (R508). Sets GLB_LOCK, locking every LK field. -/
  | glbLockWrite (r : Requester)
  /-- FUSE_REQUEST (R490). The keeper blows fuses on a firmware mailbox request. -/
  | fuseRequest (r : Requester) (q : FuseReq)
  /-- SVN_COMMIT (R498). The keeper carries out a pending SVN commit after the directory rewrite. -/
  | svnCommit
  /-- HEARTBEAT (R491). A control-core thread writes its heartbeat to the keeper mailbox. -/
  | heartbeat (t : ThreadId)
  /-- HEARTBEAT_LOSS (R532). A heartbeat stopped for 100 ms makes the keeper restart the device. -/
  | heartbeatLoss (t : ThreadId)
  /-- KEEPER_LAST_RESORT (R532). A FATAL record or failed NOR line makes the keeper quiesce and restart. -/
  | keeperLastResort (nor : Bool)
  /-- PFLUSH (R489). Writing GLB_CCCTLc.PFLUSH flushes a core's predictors. -/
  | pflush (r : Requester) (c : CoreId)
  /-- MC_PDATA1_WRITE (R507). Stores a patch word and advances MC_PADDR. -/
  | mcPdata1Write (r : Requester) (n : CluId) (v : Word64)
  /-- MC_BROADCAST_WRITE (R597). A write through the MC_ alias reaches all 32 clusters. -/
  | mcBroadcastWrite (r : Requester) (off : Nat) (v : Word64)
  /-- CLUSTER_REMOVAL (R505). Firmware removes a cluster with a microcode error from service within 10 ms. -/
  | clusterRemoval (n : CluId)
  /-- CODERAM_REWRITE (R521). Firmware rewrites a bad code-RAM word within 1 ms. -/
  | coderamRewrite (n : CluId)
  /-- REGISTER_WRITE (R10). A write to a register with no row of its own, under its access codes and lock. -/
  | registerWrite (r : Requester) (a : RegAccess) (v : Word64)
  /-- REGISTER_READ_CLEAR (R11). A read of an RC field returns and clears it. -/
  | registerReadClear (r : Requester) (a : RegAccess)
  /-- PATROL_SCRUB (R520). A memory stop scrubs a granule, correcting or poisoning it. -/
  | patrolScrub (st : StopId) (g : Nat) (found : Fin 3) (own : HedgeId)
  /-- FRAME_RETIRE (R520). Firmware moves a page off a failing frame and retires it. -/
  | frameRetire (fr : Nat)
  /-- CHANNEL_FAIL (R526). A failed HBM channel's frames and locks are retired and pages restored. -/
  | channelFail (u : UnitId)
  /-- ERROR_RECORD_WRITE (R523). The collector writes an error record into the ring. -/
  | errorRecordWrite
  /-- LINK_UP (R543). A pleach link trains and sends its identity message. -/
  | linkUp (l : LinkId) (peer : Word64) (far : Fin 4) (attempts : BitVec 4)
  /-- LINK_BUDGET_EXPIRY (R543). A link not trained within BUDGET becomes ABSENT. -/
  | linkBudgetExpiry (l : LinkId)
  /-- RETRAIN (R543). Writing RETRAIN starts a new series of training attempts. -/
  | retrain (r : Requester) (l : LinkId)
  /-- IDENTITY_MESSAGE (R544). An identity message arrives and is forwarded. -/
  | identityMessage (l : LinkId) (p : PeerId)
  /-- MEMBERSHIP_SETTLE (R545). 50 ms without change settles the membership and elects a leader. -/
  | membershipSettle (epoch : BitVec 32)
  /-- MIGRATION_REQUEST (R552). An MCTP request starts or refuses a hedge migration. -/
  | migrationRequest (h : HedgeId) (x : Word64) (there : HedgeId) (f : FnId) (veto : Fin 6)
  /-- MIGRATION_DRAIN (R553). The source stops reading and sends g_f when no slot remains. -/
  | migrationDrain
  /-- MIGRATION_PREPARED (R553). The target writes PREPARED and acknowledges. -/
  | migrationPrepared
  /-- MIGRATION_MOVED (R555). The source writes MOVED and the target opens the hedge. -/
  | migrationMoved
  /-- SNAPSHOT_REQUEST (R557). An MCTP snapshot request is forwarded to the leader. -/
  | snapshotRequest
  /-- PAUSE (R557). A member stops drawing GCS and replies PAUSED with g_d. -/
  | pause (k : BitVec 32)
  /-- PAUSED (R557). The leader collects PAUSED replies and sends RELEASE. -/
  | paused (x : Word64) (k : BitVec 32) (g : Word64) (done : Bool)
  /-- SNAPSHOT_PAUSE_TIMEOUT (R557). Replies missing after 1 ms abort the snapshot. -/
  | snapshotPauseTimeout
  /-- RELEASE (R557). A member resumes draws and records its cut. -/
  | release (k : BitVec 32) (abort : Bool)
  /-- MCTP_POWER_LIMIT (R471). An MCTP request reads or writes the board power limit. -/
  | mctpPowerLimit (v : Option (BitVec 12))
  /-- MCTP_TELEMETRY (R582). An MCTP request reads telemetry. -/
  | mctpTelemetry
  /-- MCTP_ERROR_LOG (R582). An MCTP request reads the NOR error log. -/
  | mctpErrorLog
  /-- MCTP_CONTROL (R582). An MCTP control message for discovery or EID assignment. -/
  | mctpControl (eid : Option Byte)
  /-- STORAGE_LINK_DOWN (R576). A storage-port link that goes down while running takes the port out of service and its drive is treated as lost. -/
  | storageLinkDown (p : StoragePort)
  /-- PLEACH_LINK_DOWN (R543). A pleach link that was UP goes down, counting toward HELD and unsettling the membership. -/
  | pleachLinkDown (l : LinkId)
  /-- CRYSTAL_RECOVERY (R570). After a crystal loss, the crystal back within 50 ppm for 10 ms releases the device from reset. -/
  | crystalRecovery
  /-- PERST_DEASSERTION (R541). Deassertion of a host port's PERST# starts link training without firmware. -/
  | perstDeassertion (p : PortId) (rate : BitVec 3) (width : BitVec 5) (x : PortSetup)
  /-- D0_RETURN (R575). A function returning from D3hot to D0 keeps its configuration and leaves its rings DOWN. -/
  | d0Return (f : FnId)
  /-- MIRROR_COPY_REQUEST (R550). A partner receives a request for a MIRROR entry and answers from its ring or zones. -/
  | mirrorCopyRequest (l : LinkId) (seq : Nat) (i : Option (Fin 1024))
  /-- MIRROR_COPY_ARRIVAL (R528). A partner's MIRROR copy arriving within 10 ms is written into the segment record, closing the would-be hole. -/
  | mirrorCopyArrival (at_ : Nat × Fin 1024) (bytes : List Byte)
  /-- MIRROR_RECLAIM_NOTICE (R377). The origin reports a segment reclaimed, letting the partner stop retaining its mirror of that segment. -/
  | mirrorReclaimNotice (seq : Nat)
  /-- MIGRATION_COPY_RECEIVE (R553). The target receives a copied page or forwarded delta of a migrating hedge and applies it in order. -/
  | migrationCopyReceive (m : MigMsg)
  /-- ENGINE_LENDING (R54). Firmware lends an engine above the sum of minimums to a hedge by demand, or reclaims it by R46. -/
  | engineLending (h : HedgeId) (e : EngId) (role : Fin 3)
  /-- ALARM_MESSAGE_READ (R513). The management controller reads a queued MCTP alarm message, and the alert deasserts when none remain. -/
  | alarmMessageRead
  /-- MCTP_OTHER_REQUEST (R582). An MCTP request naming an unsupported service receives an error reply and changes nothing. -/
  | mctpOtherRequest (v : Byte)
  /-- OUT_OF_WINDOW_REQUEST (R579). A drive memory request outside every open window is completed as Unsupported Request and counted. -/
  | outOfWindowRequest (p : StoragePort) (q : DriveReq)
  /-- HOST_UNSUPPORTED_REQUEST (R525). A host request to an unimplemented address or function is dropped or completed UR and logged in AER. -/
  | hostUnsupportedRequest (p : PortId) (fn : Fin 65) (write : Bool)
  /-- START_WAIT_TIMEOUT (R535). When SYS_RST_N high and every rail within tolerance have not held within 1 s, the keeper starts nothing and reports over MCTP. -/
  | startWaitTimeout
  deriving DecidableEq, Repr

end Sys2Proof
end

