-- ==== Sys2Proof/Machine/EngineState.lean ====
section
/-! DEFINITION. The state of one record engine and of its 32 contexts, as plain data (03, 02 R43, 07 Table 7-3, 08 Tables 8-7
to 8-9, 09 Table 9-14, 16 Table 16-8, 19 Table 19-5). -/

namespace Sys2Proof.Machine

/-- A cell: tag TYPE, SUB, P, G and a 128-bit payload (03 R81). -/
structure Cell where
  ty : BitVec 4
  sub : BitVec 2
  p : Bool
  g : Bool
  pay : Payload
  deriving DecidableEq, Repr

/-- NIL with zero payload, P = 0, G = 0: what a cleared cell holds (02 Table 2-3). -/
abbrev Cell.nil : Cell := { ty := 0, sub := 0, p := false, g := false, pay := 0 }

/-- Context states (03 Table 3-1). -/
inductive CState where
  | free | ready | busy | held | wait | parking | quarantined
  deriving DecidableEq, Repr

/-- The PSW fields a context keeps; HEDGE and EPOCH are copies of ENG_ROLE (03 R100, 02 R43). -/
structure Psw where
  pl : BitVec 2
  m : BitVec 3
  eh : Bool
  key : BitVec 4
  rm : BitVec 3
  deriving DecidableEq, Repr

/-- The PSW after a clear (03 Table 3-8). -/
abbrev Psw.reset : Psw := { pl := 0, m := 0, eh := false, key := 0, rm := 0 }

/-- The pending-branch item (03 R107). It is valid from the branch until its delay slot completes (log 12). -/
structure PendBr where
  nt : Bool
  ann : Bool
  addr : BitVec 19
  deriving DecidableEq, Repr

/-- A return-stack entry (03 R93). -/
structure RsEntry where
  v : Bool
  addr : BitVec 19
  deriving DecidableEq, Repr

/-- An entry with V = 0. -/
abbrev RsEntry.empty : RsEntry := { v := false, addr := 0 }

/-- The request of an asynchronous instruction (05 R168 to R177). `ref` is the REF cell, `key` the access key of its checks
(05 R176), `pl` the privilege level of the destination's guard check (05 R170). -/
inductive Req where
  | rld (ref : Cell) (key : BitVec 4) (a : Nat) (pl : BitVec 2)
  | rlock (ref : Cell) (key : BitVec 4) (excl : Bool)
  | rpref (ref : Cell) (key : BitVec 4)
  | stage (ref : Cell) (key : BitVec 4) (a : Nat) (out : Bool) (pl : BitVec 2)
  | waitev (ep : BitVec 64) (seq : BitVec 32) (interval : Option Nat)
  | commit (x : Word64) (w0 w : Nat)
  deriving DecidableEq, Repr

/-- How far a request has come outside the engine. -/
inductive Stage where
  /-- On its way to the unit that serves it. -/
  | sent
  /-- Translation: the address of the page to translate next, and the failure found so far (09 R294). -/
  | translate (va : Nat)
  /-- The leaf at this HBM address asks its memory stop for A or D before the page counts as translated (09 R298). -/
  | mark (va pte : Nat)
  /-- A record fault: the pager has the page (09 R302). -/
  | pageFault (va : Nat)
  /-- At the lock unit, not yet taken up (10 R326). -/
  | lock
  /-- Queued at the lock unit (10 R326). -/
  | lockWait
  /-- The data transfer, or the wait for the mover or the event unit. -/
  | data
  /-- The request ended in a failure status, which its completion cell will carry (05 R169). -/
  | failed (status : Byte)
  deriving DecidableEq, Repr

/-- What a completion gave: nothing to push (RPREF), or a completion cell (05 R169). -/
inductive Arrival where
  | plain
  | cell (c : Cell)
  deriving DecidableEq, Repr

/-- The wait register: WHY, the request and its stage, and the completion once it has arrived (03 R74, 08 R264). -/
structure Wait where
  why : BitVec 4
  req : Req
  stage : Stage
  done : Option Arrival
  deriving DecidableEq, Repr

/-- The kinds of iterative unit (03 R69). -/
inductive IterUnit where
  | divider | fdiv | ucode
  deriving DecidableEq, Repr

/-- Where the context stands before an abandonable instruction: what abandonment restores (03 R71). -/
structure Undo where
  unit : IterUnit
  pc : BitVec 19
  depth : BitVec 15
  win : List Cell
  pb : Option PendBr
  ehLeft : Nat
  eh : Bool
  deriving DecidableEq, Repr

/-- A pending NOTICE (08 R246). -/
structure Notice where
  kind : Byte
  word : BitVec 32
  deriving DecidableEq, Repr

/-- The architectural and hardware state of one context (03 Table 3-2, Table 3-3; 08). -/
structure Ctx where
  state : CState
  left : BitVec 8
  slot : SlotId
  pc : BitVec 19
  psw : Psw
  locals : Tab Cell
  osb : BitVec 18
  osl : BitVec 18
  depth : BitVec 15
  /-- The resident cells of the operand stack, top first (03 R86). -/
  win : List Cell
  fp : BitVec 18
  /-- FL, an exclusive bound of at most 0x4_0000 (05 R181). -/
  fl : BitVec 19
  fbase : BitVec 18
  rs : Tab RsEntry
  rsp : BitVec 4
  rsc : BitVec 5
  pb : Option PendBr
  wait : Option Wait
  savedWait : Option Wait
  rescue : Bool
  /-- ENG_XSTn (08 Table 8-7). -/
  xst : Word64
  xr : BitVec 18
  xd : BitVec 3
  df : Bool
  qcause : BitVec 3
  /-- Instructions the handler has still to issue before EH clears (08 R257). -/
  ehLeft : Nat
  wdog : Nat
  notices : Tab (Option Notice)
  /-- A pending EVENT-DEADLOCK: its cause and the endpoint. -/
  evd : Option (Byte × BitVec 32)
  /-- A pending MACHINE-CHECK: its cause and info. -/
  mcheck : Option (Byte × BitVec 32)
  /-- A pending WATCHDOG: the ao-ticks counted. -/
  wdp : Option (BitVec 32)
  undo : Option Undo
  /-- The write of an XADD, XCHG or CAS without P.LOCK, still to come: its form, address and cell (04 R139). -/
  rmw : Option (Byte × Nat × Cell)
  damaged : List Damage
  /-- Correctable errors of its private state, not yet met by a read (16 R514). -/
  soft : List Damage
  /-- Address and target of the last branch taken, when it went backward (03 R103). -/
  lastBack : Option (Nat × Nat)
  /-- The target of a backward branch taken twice in succession, until its delay slot ends the loop's range (03 R103). -/
  arm : Option Nat
  /-- The occupied unit that the HELD context needs (03 R70). -/
  heldOn : Option IterUnit
  /-- Firmware parks the context at this boundary: a YIELD has offered it, and its conditions held (05 R179). -/
  yielded : Bool
  /-- The transaction has ended, or an end notice has come: the context becomes FREE when its count elapses or its outstanding
  request has completed (10 R328). -/
  ending : Bool
  deriving DecidableEq, Repr

/-- A context after reset or a clear: FREE and all zero (03 Table 3-3, 02 Table 2-3). -/
def Ctx.reset : Ctx :=
  { state := .free, left := 0, slot := 0, pc := 0, psw := Psw.reset, locals := [], osb := 0, osl := 0, depth := 0,
    win := [], fp := 0, fl := 0, fbase := 0, rs := [], rsp := 0, rsc := 0, pb := none, wait := none,
    savedWait := none, rescue := false, xst := 0, xr := 0, xd := 0, df := false, qcause := 0, ehLeft := 0, wdog := 0,
    notices := [], evd := none, mcheck := none, wdp := none, undo := none, rmw := none, damaged := [], soft := [], lastBack := none, arm := none,
    heldOn := none, yielded := false, ending := false }

/-- A latent error of a storage granule, not yet met by a read (16 R514). -/
inductive Latent where
  | none | correctable | uncorrectable
  deriving DecidableEq, Repr

/-- A D-TLB or L2 TLB entry (09 R290, Table 9-8): page number and size, frame, the PTE's R, W, X and D, the frame-table
entry, SPEC and the use bit. -/
structure TlbEntry where
  valid : Bool
  hedge : HedgeId
  /-- log2 of the page size: 12, 21 or 30 (09 Table 9-5). -/
  size : Nat
  /-- Page number: the virtual address shifted right by `size`. -/
  page : Nat
  frame : Nat
  r : Bool
  w : Bool
  x : Bool
  dirty : Bool
  fe : BitVec 16
  spec : Bool
  used : Bool
  /-- A parity error, not yet met by a lookup (16 R514). -/
  parity : Bool := false
  deriving DecidableEq, Repr

/-- An invalid entry. -/
abbrev TlbEntry.empty : TlbEntry :=
  { valid := false, hedge := 0, size := 0, page := 0, frame := 0, r := false, w := false, x := false, dirty := false,
    fe := 0, spec := false, used := false }

/-- One record engine. -/
structure Engine where
  /-- ENG_ROLE (02 Table 2-2). -/
  hedge : HedgeId
  role : BitVec 2
  assigned : Bool
  clearing : Bool
  clean : Bool
  lastHedge : HedgeId
  epoch : BitVec 16
  /-- Changes of ENG_ROLE of the last 100 ms, newest first: an ao-tick and how many it saw (02 R51). -/
  roleLog : List (Nat × Nat)
  /-- ENG_CTL (03 Table 3-10). -/
  strict : Bool
  rso : Bool
  lben : Bool
  idlegate : Bool
  /-- ENG_SWIN (03 Table 3-6). -/
  swinBase : BitVec 6
  swinSize : BitVec 5
  /-- ENG_CPT (07 Table 7-3). -/
  cptCount : BitVec 8
  cptBase : BitVec 10
  /-- ENG_WDOG.LIMIT (08 Table 8-9). -/
  wdogLimit : BitVec 16
  /-- ENG_ITLB.V (09 Table 9-14). -/
  itlb : BitVec 16
  /-- ENG_RSCNT (03 Table 3-9). -/
  rsOvf : BitVec 16
  rsUnf : BitVec 16
  /-- ENG_BOUNCE.COUNT (19 Table 19-5). -/
  bounce : BitVec 16
  /-- ENG_ECC (16 Table 16-8). -/
  sce : BitVec 16
  sue : BitVec 16
  xce : BitVec 8
  eccLast : BitVec 18
  /-- Scratch cells by cell number (03 R78). -/
  scratch : Tab Cell
  /-- The written marks of a cell's two 8-byte halves (11 R355). -/
  marks : Tab (Bool × Bool)
  /-- Latent errors of scratch cells (16 R515). -/
  latent : Tab Latent
  /-- The store buffer, oldest first: whole merged cells (03 R109). -/
  sb : List (Nat × Cell)
  /-- The loop buffer: first and last address (03 R103). -/
  loop : Option (Nat × Nat)
  /-- The context occupying each iterative unit (03 R69). -/
  divider : Option CtxId
  fdiv : Option CtxId
  ucode : Option CtxId
  /-- The context that issued last (03 R65). -/
  lastCtx : CtxId
  dtlb : Tab TlbEntry
  dtlbPtr : Fin 32
  /-- A message held in the inbound port while the bounce queue is full (02 R52). -/
  inbox : List EngMsg
  ctxs : Tab Ctx
  deriving DecidableEq, Repr

/-- An engine after reset (02 R45, 03 Tables 3-6, 3-10, 08 Table 8-9). -/
def Engine.reset : Engine :=
  { hedge := 0, role := 0, assigned := false, clearing := false, clean := true, lastHedge := 0, epoch := 0, roleLog := [],
    strict := false, rso := true, lben := true, idlegate := true, swinBase := 0x30, swinSize := 8, cptCount := 0,
    cptBase := 0, wdogLimit := 0x3E8, itlb := 0, rsOvf := 0, rsUnf := 0, bounce := 0, sce := 0, sue := 0, xce := 0,
    eccLast := 0, scratch := [], marks := [], latent := [], sb := [], loop := none, divider := none, fdiv := none,
    ucode := none, lastCtx := 31, dtlb := [], dtlbPtr := 0, inbox := [], ctxs := [] }

end Sys2Proof.Machine
end

