-- ==== Sys2Proof/Machine/TxnState.lean ====
section
/-! DEFINITION. The state of a cluster's shared parts, of the transaction slots and of the error reports, as plain data
(02 R41, 09 R290, 10, 15 Table 15-7, 16 Table 16-4). -/

namespace Sys2Proof.Machine

/-- A microcode match register (15 Table 15-7). -/
structure McMatch where
  v : Bool
  rom : BitVec 13
  padr : BitVec 7
  deriving DecidableEq, Repr

/-- A match register after reset. -/
abbrev McMatch.reset : McMatch := { v := false, rom := 0, padr := 0 }

/-- Cluster power states (14 Table 14-1). -/
inductive PState where
  | c0 | c1 | c2 | c3 | c4
  deriving DecidableEq, Repr

/-- Slot states (10 Table 10-1). -/
inductive SlotState where
  | idle | admitted | resident | parking | parked | unparking | sealing | sequenced | applying | ending | restarting
  deriving DecidableEq, Repr

/-- A staged delta: bytes for a record-space address (11 R355). -/
structure Delta where
  addr : Nat
  bytes : List Byte
  deriving DecidableEq, Repr

/-- An entry of the exclusive-grant list: the record's first byte, the length the REF named, whether the grant found poison,
and what an RLD under the grant recorded: its destination and length (10 R323, 11 R355). -/
structure Grant where
  addr : Nat
  len : Nat
  poison : Bool
  rld : Option (Nat × Nat)
  deriving DecidableEq, Repr

/-- A BULK step under way (13 R437, Table 13-12): the blocks still to run, the index of the next unit, how many blocks the
step has committed and the highest GCS it drew. -/
structure Bulk where
  first : Nat
  unit : Nat
  count : Nat
  addr : Word64
  blocks : List (List Byte)
  committed : Nat
  gcs : Option Word64
  /-- The step's engine time is spent: no further unit starts, and firmware has ended the unit under way (13 R437). -/
  timeUp : Bool
  cut : Bool
  deriving DecidableEq, Repr

/-- What a slot does: a RUN of a registered program, a step of a long operation from unit `next` on, begun by the command `cmd` (13 R437,
R438), or a step of BULK whose units run. -/
inductive Work where
  | run
  | step (cmd : List Byte) (next : Nat)
  | bulk (b : Bulk)
  deriving DecidableEq, Repr

/-- The parked image of a slot: the context, its stack cells and its work area (10 R316). -/
structure Image where
  ctx : Ctx
  stack : List Cell
  work : List Cell
  deriving DecidableEq, Repr

/-- A registration (13 Table 13-15): a transaction program or, with `super`, the supervisor image. `at_` is the code-RAM
address of its first byte, `image` its code bytes, `window` the supervisor-window image. -/
structure Prog where
  super : Bool
  fast : Bool
  retry : BitVec 3
  key : BitVec 4
  rm : BitVec 3
  tmpl : BitVec 12
  caddr : Word64
  clen : Nat
  entry : Nat
  sbase : Nat
  sstride : Nat
  ssize : Nat
  wbase : Nat
  wstride : Nat
  wsize : Nat
  sglmax : Nat
  at_ : Nat
  image : List Byte
  window : List Byte
  deriving DecidableEq, Repr

/-- A transaction slot (10 R311 to R329, Table 10-8). -/
structure Slot where
  state : SlotState
  hedge : HedgeId
  eng : EngId
  ctx : CtxId
  wound : Bool
  sealed : Bool
  retry : BitVec 3
  status : Byte
  /-- The status of an ending detected while a request of the context still completes, or its quarantine lasts (00 R15, 10 R328). -/
  fate : Option Byte
  start : Word64
  /-- The 64-byte command (10 R312). -/
  cmd : List Byte
  /-- The program it runs, as registered at its admission, and the argument cells (13 R430, R451). -/
  prog : Option Prog
  args : List Cell
  /-- The bytes that an SGL delivers into the work area (13 R431). -/
  sgl : List Byte
  work : Work
  /-- The result word of the completion and its detail (05 R173, R174; 13 Table 13-10). -/
  xword : Word64
  detail : Word64
  mediaMark : Bool
  /-- Lock units that hold locks of the slot (10 R324). -/
  mask : BitVec 64
  grants : List Grant
  /-- Index entries validated and staged so far, and the total of their lengths (10 R330 step 3). -/
  checked : Nat
  total : Nat
  deltas : List Delta
  /-- Lehr entries the write set needs (11 R358). -/
  entries : Nat
  /-- Staging blocks held and the cluster that lends them (10 R331). -/
  blocks : Nat
  cluster : CluId
  /-- The commit port waits for staging blocks (10 R331). -/
  stgWait : Bool
  /-- Validation waits for the page at this address (09 R302). -/
  pageWait : Option Nat
  /-- Validation has passed and the deltas stand at the commit sequencer (10 Table 10-3 step 4). -/
  staged : Bool
  /-- The ao-tick since which the commit waits at step 5 under R361 (11 R361). -/
  waitSince : Option Nat
  /-- Its wait under R361 has been counted. -/
  throttled : Bool
  gcs : Option Word64
  /-- Observed GCS of a read-only commit (10 R334). -/
  observed : Option Word64
  /-- Deltas not yet packed into entries, and entries not yet durable (11 R352, R353). -/
  unpacked : Nat
  undurable : Nat
  /-- Mirror acknowledgements outstanding (11 R376). -/
  unacked : Nat
  /-- Memory stops that still have deltas to apply (10 R324). -/
  stops : BitVec 8
  /-- Releases have been sent, and the units that have still to confirm (10 R324). -/
  releasing : Bool
  unitsLeft : BitVec 64
  image : Option Image
  /-- The image waits to unpark: it parked READY, its wait has completed, or an event is pending (10 R317). -/
  runnable : Bool
  deriving DecidableEq, Repr

/-- An idle slot. -/
def Slot.reset : Slot :=
  { state := .idle, hedge := 0, eng := 0, ctx := 0, wound := false, sealed := false, retry := 0, status := 0, fate := none, start := 0,
    cmd := [], prog := none, args := [], sgl := [], work := .run, xword := 0, detail := 0, mediaMark := false, mask := 0, grants := [], checked := 0, total := 0, deltas := [],
    entries := 0, blocks := 0, cluster := 0, stgWait := false, pageWait := none, staged := false, waitSince := none, throttled := false, gcs := none,
    observed := none, unpacked := 0, undurable := 0, unacked := 0, stops := 0, releasing := false, unitsLeft := 0,
    image := none, runnable := false }

/-- An error as its unit detects it, before the collector writes the record (16 Table 16-4). -/
structure ErrRec where
  tick : Word64
  cls : Byte
  sev : Byte
  unit : BitVec 16
  status : Byte
  cause : Byte
  hedge : Option HedgeId
  addr : Option Word64
  slot : Option SlotId
  detail : List Byte
  deriving DecidableEq, Repr

/-- A run of corrected errors of one class and one unit: its first record, that record's place in the ring and its COUNT (16 R523). -/
structure CorrRun where
  cls : Byte
  unit : BitVec 16
  tick : Word64
  at_ : Nat
  first : ErrRec
  count : Nat
  deriving DecidableEq, Repr

end Sys2Proof.Machine
end

