-- ==== Sys2Proof/Machine/HedgeState.lean ====
section
/-! DEFINITION. The state of the host-port functions, of the hedges and of their directory entries, event units and locks, as
plain data (02 Table 2-1, 10 R319 to R348, 13). -/

namespace Sys2Proof.Machine

/-- DHP_HSTAT.STATE (13 Table 13-3). -/
inductive HState where
  | closed | down | ready | draining | closing
  deriving DecidableEq, Repr

/-- DHP_HSTAT.STATE as a number. -/
def HState.code : HState → Nat
  | .closed => 0 | .down => 1 | .ready => 2 | .draining => 3 | .closing => 4

/-- What the GCS field of a completion holds (13 R427). -/
inductive Gk where
  | own | observed | carried | watermark
  deriving DecidableEq, Repr

/-- GK as a number. -/
def Gk.code : Gk → Nat
  | .own => 0 | .observed => 1 | .carried => 2 | .watermark => 3

/-- A completion as it is formed; the phase bit, and the GCS of a carried one, are set when it is posted (13 Table 13-7). -/
structure Compl where
  gk : Gk
  gcs : Word64
  result : Word64
  hsn : BitVec 32
  sqhead : BitVec 16
  status : Byte
  cont : Bool
  rp : Bool
  detail : Word64
  /-- The slot that stays in APPLYING or ENDING until it is posted (13 R423). -/
  slot : Option SlotId
  /-- The completion of a RESYNC, whose posting clears CQSUS and EQSUS (13 R442, R444). -/
  resync : Bool
  /-- Its posting makes the oldest change that this hedge's registrations await take effect (13 R432, R451). -/
  table : Option HedgeId := none
  deriving DecidableEq, Repr

/-- An event (13 Table 13-8). -/
structure Ev where
  kind : BitVec 16
  a : Word64
  b : Word64
  c : BitVec 32
  d : Word64
  deriving DecidableEq, Repr

/-- A command taken up and not yet carried out: its 64 bytes, its start sequence, its slot, and the context reserved for it at the doorbell
(14 R476). A `mute` one posts nothing: its
admin ring has been disabled meanwhile (13 R419). -/
structure Cmd where
  bytes : List Byte
  start : Word64
  slot : Option SlotId
  target : Option (EngId × CtxId)
  /-- It waits for the shared lock of the record with this key (10 R340, R342). -/
  waits : Option Nat
  mute : Bool
  /-- Engines still to be loaded one at a time, and whether the first of them has been taken out (13 R448, R451, R452). -/
  todo : Option (List EngId × Bool) := none
  deriving DecidableEq, Repr

/-- A completion or event write of the last 1 ms (13 R440). -/
structure Sent where
  tick : Word64
  event : Bool
  /-- The GCS of a GK OWN completion, else none. -/
  gcs : Option Word64
  hsn : BitVec 32
  addr : Word64
  deriving DecidableEq, Repr

/-- An MSI-X table entry with its pending bit (13 R416, R424): address, data and the mask bit of its vector control. -/
structure Msix where
  addr : Word64
  data : BitVec 32
  mask : Bool
  pend : Bool
  deriving DecidableEq, Repr

/-- An entry after reset: masked, as PCI Express has it (log 23). -/
abbrev Msix.reset : Msix := { addr := 0, data := 0, mask := true, pend := false }

/-- One function of a host port: a PF or a VF (13 Tables 13-1 to 13-5). -/
structure Fn where
  hedge : Option HedgeId
  state : HState
  cqsus : Bool
  eqsus : Bool
  sqerr : Bool
  cfgerr : Bool
  sqHead : BitVec 16
  expHsn : BitVec 32
  en : Bool
  hsn0 : BitVec 32
  sqBase : BitVec 52
  cqBase : BitVec 52
  eqBase : BitVec 52
  sqLog2 : BitVec 5
  cqLog2 : BitVec 5
  eqLog2 : BitVec 5
  intCnt : BitVec 8
  intTime : BitVec 16
  sqTail : BitVec 16
  cqHead : BitVec 16
  eqHead : BitVec 12
  /-- Device-side indices and phase bits of the completion and event rings (13 R420). -/
  cqTail : BitVec 16
  eqTail : BitVec 12
  cqPhase : Bool
  eqPhase : Bool
  /-- Completions posted since the last vector-0 message (13 R424). -/
  cqSince : Nat
  /-- The ao-tick at which TIME has run out since the first of them; none with TIME = 0 as that one was posted (13 R424, R604). -/
  cqDue : Option Nat
  /-- The MSI-X table: vector 0 for completions and vector 1 for events (13 R416). -/
  vec0 : Msix
  vec1 : Msix
  /-- Events dropped for want of space (13 R425). -/
  evDropped : BitVec 32
  /-- Re-reads made of a mismatching entry, and the HSN last read (13 R422). -/
  reread : Option (Nat × BitVec 32)
  /-- A bus error has hit a read of the submission ring at this address; firmware reports it with the mover's restart (13 R422). -/
  sqFault : Option Word64
  /-- The commands taken up and not yet carried out, oldest first. -/
  cur : List Cmd
  /-- Completions waiting at the front end, oldest first (13 R423). -/
  waiting : List Compl
  /-- Writes of the last 1 ms, oldest first (13 R440). -/
  sent : List Sent
  /-- The CQ_SUSPECT event to post when the rings are next READY (13 R440). -/
  suspect : Option Ev
  /-- Power state D3hot (18 R575). -/
  d3 : Bool
  /-- Ignored and dropped register accesses (13 R417, R421). -/
  drops : BitVec 32
  /-- What the dispatcher chose and reserved at the doorbell for each entry not yet read, none without a candidate (14 R476; log 59). -/
  targets : List (Option (EngId × CtxId))
  /-- The admin ring waits for the device to be READY or FAULTED (13 R418). -/
  opening : Bool
  /-- A migration has stopped reading; it still posts while it drains (17 Table 17-4). -/
  migStop : Bool
  migPost : Bool
  /-- A reset is under way: the registers return to their reset values when STATE is DOWN (19 R599). -/
  flr : Bool
  deriving DecidableEq, Repr

/-- A function after reset (13 Tables 13-2 to 13-5). -/
def Fn.reset : Fn :=
  { hedge := none, state := .closed, cqsus := false, eqsus := false, sqerr := false, cfgerr := false, sqHead := 0,
    expHsn := 0, en := false, hsn0 := 0, sqBase := 0, cqBase := 0, eqBase := 0, sqLog2 := 4, cqLog2 := 4, eqLog2 := 4,
    intCnt := 1, intTime := 0, sqTail := 0, cqHead := 0, eqHead := 0, cqTail := 0, eqTail := 0, cqPhase := true,
    eqPhase := true, cqSince := 0, cqDue := none, vec0 := Msix.reset, vec1 := Msix.reset, evDropped := 0, reread := none, sqFault := none, cur := [], waiting := [], sent := [],
    suspect := none, d3 := false, drops := 0, targets := [], opening := false, migStop := false, migPost := false, flr := false }

/-- The parameter block of a hedge (13 Table 13-14). -/
structure Params where
  emin : Nat
  emax : Nat
  exclusive : Bool
  critical : Bool
  pflush : Bool
  strict : Bool
  rso : Bool
  cb : Nat
  cw : Nat
  warm : Nat
  sres : Nat
  scap : Nat
  dbase : Nat
  dcount : Nat
  locks : Nat
  lquota : Nat
  wdog : BitVec 16
  gcommit : Nat
  swinBase : BitVec 6
  swinSize : BitVec 5
  ghbm : Nat
  cptCount : BitVec 8
  cptBase : BitVec 10
  stockBase : BitVec 18
  stockSlots : Nat
  store : Nat
  deriving DecidableEq, Repr

/-- No parameters: the hedge is not open. -/
def Params.zero : Params :=
  { emin := 0, emax := 0, exclusive := false, critical := false, pflush := false, strict := false, rso := false, cb := 0,
    cw := 0, warm := 0, sres := 0, scap := 0, dbase := 0, dcount := 0, locks := 0, lquota := 0, wdog := 0, gcommit := 0,
    swinBase := 0, swinSize := 0, ghbm := 0, cptCount := 0, cptBase := 0, stockBase := 0, stockSlots := 0, store := 0 }

/-- A loaded table (13 R452). -/
structure LoadedTable where
  kind : Byte
  slot : Nat
  dest : Nat
  bytes : List Byte
  desc : Payload
  deriving DecidableEq, Repr

/-- A hedge's definition in the configuration store (17 R551). -/
structure HedgeDef where
  fn : FnId
  par : Params
  progs : Tab (Option Prog)
  super : Option Prog
  tables : List LoadedTable
  deriving DecidableEq, Repr

/-- A wait at an event unit (10 R344 to R346, 05 R177): oldest arrival first in its list. -/
structure EvWait where
  slot : SlotId
  ep : Nat
  seq : BitVec 32
  /-- The ao-tick at whose boundary the wait expires; none for a NIL t. -/
  expires : Option Nat
  deriving DecidableEq, Repr

/-- A continuation token (13 R438): the operation, its starting command, the next unit, and when it was posted. -/
structure Token where
  value : Word64
  op : Byte
  cmd : List Byte
  next : Nat
  /-- The ao-tick at which its completion was posted; none while it waits. -/
  posted : Option Nat
  expired : Bool
  deriving DecidableEq, Repr

/-- A locked record at its lock unit: holders and waiters with their mode, true for exclusive; waiters in order of start
sequence (10 R320, R326). -/
structure LockRec where
  unit : UnitId
  holders : List (SlotId × Bool)
  waiters : List (SlotId × Bool)
  deriving DecidableEq, Repr

/-- An unlocked record. -/
abbrev LockRec.empty : LockRec := { unit := 0, holders := [], waiters := [] }

/-- One hedge. -/
structure Hedge where
  fn : Option FnId
  par : Params
  /-- Effective engine minimum (02 R55). -/
  effMin : Nat
  /-- Consecutive evaluations that yielded more than the value in force, and the least of their yields, for the effective minimum
  and the two effective guarantees (02 R55, 14 R480). -/
  effRise : Nat × Nat
  /-- PWR_EGn, PWR_ECREDn (14). -/
  ecommit : BitVec 18
  ehbm : BitVec 8
  gRise : Nat × Nat
  hRise : Nat × Nat
  credit : BitVec 32
  /-- LEHR_HQn (11 Table 11-8). -/
  quota : BitVec 14
  used : BitVec 14
  thr : BitVec 16
  waits : BitVec 16
  /-- The present 10 µs window, and the commits admitted in it (11 R361). -/
  windowAt : Nat
  window : Nat
  /-- KEY_PTROOTn (09 Table 9-13). -/
  rootV : Bool
  root : BitVec 32
  progs : Tab (Option Prog)
  super : Option Prog
  /-- Changes of the registered programs whose completions have not been posted, oldest first, and a supervisor image that engines still hold
  (13 R432, R451). -/
  awaited : List (Nat × Option Prog)
  superOld : Option Prog
  tables : List LoadedTable
  /-- The completion history, oldest first (13 R443). -/
  history : List Compl
  /-- The HSN nearest in front whose completion the history has lost, or the one before the first HSN after a reset (13 R444). -/
  dropped : Option (BitVec 32)
  /-- Highest GCS posted (10 R341). -/
  gcsPosted : Word64
  tokens : List Token
  waitList : List EvWait
  /-- Every live slot has been in an unarmed wait since this tick (10 R346). -/
  deadSince : Option Nat
  /-- A deadlock is raised: no further one until a wait completes, a live slot ends or a slot is admitted (10 R346). -/
  deadRaised : Bool
  /-- The slots on which an EVENT-DEADLOCK has been raised (10 R348). -/
  pruned : List SlotId
  /-- Telemetry (05 R178, 09 R300, 08 R265, 13 R417, 02 Table 2-4). -/
  sigDrops : BitVec 32
  prefFails : BitVec 32
  evDiscards : BitVec 32
  wakeDrops : BitVec 32
  /-- Storage blocks of the hedge's allotment in use. -/
  stored : Nat
  /-- The last cluster that the dispatcher chose for the hedge, and the last engine that it chose in each (14 R476). -/
  lastClu : CluId
  lastEng : Tab Nat
  /-- The VF closes once the last transaction has ended: DESTROY_HEDGE is under way (02 R61). -/
  closing : Bool
  /-- The hedge opened under degraded pairing, which its first events tell it (11 R380, 17 R547). -/
  pairTell : Bool
  deriving DecidableEq, Repr

/-- A hedge that is not open. -/
def Hedge.reset : Hedge :=
  { fn := none, par := Params.zero, effMin := 0, effRise := (0, 0), ecommit := 0, ehbm := 0, gRise := (0, 0), hRise := (0, 0),
    credit := 0, quota := 0x2000, used := 0, thr := 0, waits := 0, windowAt := 0, window := 0, rootV := false,
    root := 0, progs := [], super := none, awaited := [], superOld := none, tables := [], history := [], dropped := none, gcsPosted := 0, tokens := [], waitList := [],
    deadSince := none, deadRaised := false, pruned := [], sigDrops := 0, prefFails := 0, evDiscards := 0,
    wakeDrops := 0, stored := 0, lastClu := 31, lastEng := [], closing := false, pairTell := false }

/-- A wait of the hedge has completed, a live slot has ended, or a slot is admitted: a deadlock may be raised again (10 R346). -/
def Hedge.stir (h : Hedge) : Hedge := { h with deadRaised := false, deadSince := none }

/-- The present 10 µs window of a hedge's admissions (11 R361). -/
def Hedge.inWindow (h : Hedge) (tick : Word64) : Nat := if h.windowAt = tick.toNat / 10 then h.window else 0

end Sys2Proof.Machine
end

