-- ==== Sys2Proof/Machine/PlatState.lean ====
section
/-! DEFINITION. The state of the clusters' shared parts, the movers, the Lehr, the keeper, the pleach and the device
registers, as plain data (09, 11, 12, 14 to 19). -/

namespace Sys2Proof.Machine

/-- One cluster's shared parts: code RAM and microcode (15 Table 15-7, 16 Table 16-8), commit port (10 Table 10-10), L2 TLB
(09 Tables 9-8, 9-16), power and heat (14 Tables 14-6, 14-7, 14-10). -/
structure Clu where
  code : Tab Byte
  crbad : BitVec 19
  crbadv : Bool
  /-- Correctable errors not yet met by a read: 16-byte words of code RAM, and microcode words (15 R505, 16 R514). -/
  softCode : List Nat
  softUcode : List Damage
  crce : BitVec 16
  tlbpe : BitVec 16
  pen : Bool
  mcMatch : Tab McMatch
  patch : Tab (BitVec 96)
  mcPaddr : BitVec 7
  mcPd0 : Word64
  mcPd1 : BitVec 32
  patchLvl : Byte
  mcCe : BitVec 16
  mcUe : BitVec 16
  mcOvr : BitVec 16
  mcLast : BitVec 13
  mcLastP : Bool
  stgFree : BitVec 11
  stgCullet : BitVec 16
  stgWaits : BitVec 16
  /-- L2 TLB, by 8 x set + way, and the tree pseudo-LRU bits of each set (09 Table 9-8). -/
  l2 : Tab TlbEntry
  plru : Tab (BitVec 7)
  l2miss : BitVec 16
  walkRst : BitVec 16
  rfault : BitVec 16
  specFill : BitVec 16
  pst : PState
  /-- A wake is under way; messages that arrive meanwhile, in order (14 R458). -/
  waking : Bool
  held : List EngMsg
  floor : BitVec 3
  /-- The FLOOR that firmware holds at 1 for a warm engine, and returns to once the cluster holds none (14 R461). -/
  warmHeld : Option (BitVec 3)
  target : BitVec 3
  boosten : Bool
  t2 : BitVec 16
  t3 : BitVec 16
  point : BitVec 3
  boost : Bool
  throt : Bool
  pcap : BitVec 3
  tlim : BitVec 3
  energy : BitVec 32
  /-- An upward change under way: its target point, and when it was requested (14 R464). -/
  upTo : Option (BitVec 3 × Nat)
  /-- After a brake: the point at its end and that ao-tick (14 R473). -/
  brakeLim : Option (Nat × Nat)
  heat : BitVec 12
  /-- A sample has set the credit band (14 Table 14-7). -/
  sampled : Bool
  /-- The ao-tick at which the present power state was entered (14 Table 14-1). -/
  since : Nat
  /-- Since the last lowering at 95 degrees or more, and below 93 degrees since the last raise (14 Table 14-3). -/
  hotAt : Option Nat
  coolAt : Option Nat
  /-- Both sensors have failed (14 R466). -/
  blind : Bool
  /-- ENERGY of the last window (14 R472). -/
  lastEnergy : Nat
  /-- Firmware has still to remove the cluster after an uncorrectable microcode error: the ROM addresses that failed (15 R505). -/
  failing : Option (List Nat)
  /-- Removed from service: placed in C4 for a failure (15 R505, 02 R55). -/
  removed : Bool
  deriving DecidableEq, Repr

/-- A cluster after reset. -/
def Clu.reset : Clu :=
  { code := [], crbad := 0, crbadv := false, softCode := [], softUcode := [], crce := 0, tlbpe := 0, pen := false, mcMatch := [], patch := [],
    mcPaddr := 0, mcPd0 := 0, mcPd1 := 0, patchLvl := 0, mcCe := 0, mcUe := 0, mcOvr := 0, mcLast := 0, mcLastP := false,
    stgFree := 0x400, stgCullet := 0, stgWaits := 0, l2 := [], plru := [], l2miss := 0, walkRst := 0, rfault := 0,
    specFill := 0, pst := .c0, waking := false, held := [], floor := 3, warmHeld := none, target := 3, boosten := true, t2 := 0x64,
    t3 := 0x3E8, point := 3, boost := false, throt := false, pcap := 4, tlim := 4, energy := 0, upTo := none,
    brakeLim := none, heat := 0, sampled := false, since := 0, hotAt := none, coolAt := none, blind := false, lastEnergy := 0, failing := none, removed := false }

/-- Mover channel states (12 Table 12-18). -/
inductive ChState where
  | disabled | idle | active | paced | paged | stopped | errHalt
  deriving DecidableEq, Repr

/-- STATE code of a channel. -/
def ChState.code : ChState → Nat
  | .disabled => 0 | .idle => 1 | .active => 2 | .paced => 3 | .paged => 4 | .stopped => 5 | .errHalt => 6

/-- A descriptor as the mover fetched it (12 Tables 12-4, 12-5). -/
structure Desc where
  ctrl : Word64
  src : Word64
  dst : Word64
  aux : Word64
  deriving DecidableEq, Repr

/-- A burst that the read engine has issued: the mover address and the place there that it reads, whether that is a COMPARE's destination, the
ao-tick of its issue, whether its data is to be discarded, and the data once it has arrived (12 R403). The burst of a FILL reads nothing and
has address 0. -/
structure Burst where
  a : Word64
  off : Nat
  n : Nat
  dst : Bool
  since : Nat
  stale : Bool
  data : Option (List (Byte × Bool))
  deriving DecidableEq, Repr

/-- A block transfer whose NVMe command was in flight when its mover halted: the descriptor, where it stands, whether its status still
advances HEAD, and the ao-tick of the command (12 R410). -/
structure Orphan where
  d : Desc
  spc : Bool
  at_ : Nat
  advance : Bool
  since : Nat
  deriving DecidableEq, Repr

/-- A mover channel (12 Tables 12-15 to 12-18). `cur` is the descriptor under way, `aborting` an ABORT that waits for a block
transfer, `stages` the contexts whose STAGE an engine channel has queued, oldest first (12 R413). -/
structure Chan where
  log2 : BitVec 4
  addr : BitVec 33
  spc : Bool
  prio : BitVec 2
  maxb : BitVec 5
  hedge : HedgeId
  sigv : Bool
  ept : BitVec 25
  state : ChState
  kpend : Bool
  head : BitVec 12
  last : Byte
  done : Nat
  cur : Option Desc
  /-- The NVMe command of a block transfer has been issued (12 R393). -/
  issued : Bool
  /-- The checks of R389 failed, or the transfer has ended: the status to write and the NVMe status (12 R401). -/
  ended : Option (Byte × BitVec 11)
  poison : Bool
  /-- COMPARE: offset of the first difference found (12 R392). -/
  diff : Option Nat
  aborting : Bool
  stages : List CtxId
  /-- Bytes of the current descriptor for which a burst has been issued, and the bursts in flight or in the buffer, oldest first (12 R403). -/
  next : Nat
  flight : List Burst
  /-- No further burst starts, and the descriptor ends with this status once those issued are written (12 R386, R407). -/
  stopAs : Option Byte
  /-- The record page that a PAGED channel waits for, and whether it is the destination's (12 R386). -/
  fault : Option (HedgeId × Nat × Bool)
  /-- The zero-length read of a BARRIER is under way (12 R395). -/
  flushing : Bool
  /-- The ao-ticks at which the NVMe command was issued and at which the channel became PACED (12 R400, R408). -/
  since : Nat
  heldAt : Nat
  orphan : Option Orphan
  deriving DecidableEq, Repr

/-- A firmware channel after reset. -/
def Chan.reset : Chan :=
  { log2 := 0, addr := 0, spc := false, prio := 0, maxb := 0x10, hedge := 0, sigv := false, ept := 0, state := .disabled,
    kpend := false, head := 0, last := 0, done := 0, cur := none, issued := false, ended := none, poison := false, diff := none,
    aborting := false, stages := [], next := 0, flight := [], stopAs := none, fault := none, flushing := false, since := 0, heldAt := 0,
    orphan := none }

/-- A pacing timer (12 Table 12-14). -/
structure Pacer where
  period : BitVec 16
  quota : Byte
  req : Bool
  left : Byte
  deriving DecidableEq, Repr

/-- A pacing timer after reset. -/
abbrev Pacer.reset : Pacer := { period := 0, quota := 1, req := false, left := 0 }

/-- A mover (12 Tables 12-9 to 12-14). `turns` holds the channel that the read engine served last in each priority (12 R404). -/
structure Mover where
  tmo : BitVec 12
  errhalt : Bool
  intstat : Word64
  evstat : BitVec 3
  errAddr : Word64
  errCause : BitVec 3
  errKind : BitVec 2
  errCh : Option ChId
  unexp : BitVec 16
  unexpTag : BitVec 10
  unexpBytes : BitVec 13
  pts : Tab Pacer
  chans : Tab Chan
  turns : Tab Nat
  deriving DecidableEq, Repr

/-- A mover after reset. -/
def Mover.reset : Mover :=
  { tmo := 0x32, errhalt := false, intstat := 0, evstat := 0, errAddr := 0, errCause := 0, errKind := 0,
    errCh := none, unexp := 0, unexpTag := 0, unexpBytes := 0, pts := [], chans := [], turns := [] }

/-- KIND of a Lehr entry (11 Table 11-1). -/
inductive LKind where
  | packed | head | cont | mirror
  deriving DecidableEq, Repr

/-- An entry position of the ring: payload and sideband (11 R351, Table 11-1), the hedge that its occupancy is charged to
(R361), and whether its payload has an uncorrectable error (16 R528). -/
structure LEntry where
  bytes : List Byte
  valid : Bool
  lap : Bool
  kind : LKind
  hedge : HedgeId
  lost : Bool
  deriving DecidableEq, Repr

/-- An invalid position. -/
def LEntry.empty : LEntry := { bytes := [], valid := false, lap := false, kind := .packed, hedge := 0, lost := false }

/-- A delta queued at the Lehr controller: its slot, the hedge, the record-space address, the bytes and whether it is its
transaction's last (11 R356 to R358). -/
structure QDelta where
  slot : SlotId
  hedge : HedgeId
  gcs : Word64
  addr : Nat
  bytes : List Byte
  last : Bool
  deriving DecidableEq, Repr

/-- An entry write under way: its position and bank, the slots whose deltas it carries, and the origin of a MIRROR entry (11 R351, R352,
R376). -/
structure LWrite where
  pos : Nat
  bank : Nat
  slots : List SlotId
  mirror : Option (LinkId × Word64)
  deriving DecidableEq, Repr

/-- A closed segment: its sequence number, the port of its write once one is issued and the record there, its failures, and whether its
write has completed (11 R363, R365). -/
structure LSeg where
  seq : Nat
  seg : Nat
  port : Option Nat
  at_ : Nat
  fails : Nat
  done : Bool
  deriving DecidableEq, Repr

/-- A partial record to be written: its segment and how many entries it carries, the port and record once its write is issued, its
failures, and whether a later flush request asks for more (11 R364, R365). -/
structure LPart where
  seq : Nat
  seg : Nat
  n : Nat
  port : Option Nat
  at_ : Nat
  fails : Nat
  again : Bool
  deriving DecidableEq, Repr

/-- The superblock of a zone: its two copies, each with C and the sequence number of the segment that holds C + 1, and whether the second
is the one to write next (11 R366). -/
structure ZoneSuper where
  a : Option (Word64 × Nat)
  b : Option (Word64 × Nat)
  second : Bool
  deriving DecidableEq, Repr

/-- A zone without a superblock. -/
abbrev ZoneSuper.none : ZoneSuper := { a := .none, b := .none, second := false }

/-- A mirrored entry: its full GCS, the sequence number of its origin's segment and its place there (11 R376, R377; log 73). -/
structure Mirror where
  gcs : Word64
  seq : Nat
  i : Nat
  bytes : List Byte
  deriving DecidableEq, Repr

/-- A segment record or a partial record in a journal zone: its port and place, and the entries with their positions (11 R363, R364). -/
structure ZoneRec where
  seq : Nat
  port : Nat
  at_ : Nat
  partial_ : Bool
  gbase : Word64
  entries : List LEntry
  deriving DecidableEq, Repr

/-- The Lehr controller and the commit sequencer (11 Tables 11-5 to 11-10, 10 R330 to R332). -/
structure Lehr where
  ring : Tab LEntry
  /-- Anchors by slot: sequence number, segment, GBASE (11 R354). -/
  anchors : Tab (Nat × Nat × Word64)
  twait : BitVec 16
  jlimit : BitVec 16
  low : Bool
  high : Bool
  full : Bool
  pairdeg : Bool
  drstop : Bool
  fenced : Bool
  rot : BitVec 6
  lap : Bool
  wp : BitVec 13
  rp : BitVec 13
  /-- Entries from RP to WP, and entries reserved and not yet written (11). -/
  inRing : Nat
  reserved : Nat
  gcsdur : Word64
  ckpt : Word64
  /-- V, BASE and SIZE of each journal zone (11 Table 11-9). -/
  zones : Tab (Bool × BitVec 36 × BitVec 16)
  pairEn : Bool
  fall : Bool
  link : BitVec 2
  ptmo : BitVec 10
  seg : BitVec 16
  part_ : BitVec 16
  fail : BitVec 16
  pack : BitVec 16
  segSeq : Nat
  queue : List QDelta
  /-- The long delta whose CONT entries are being written, and its bytes still to write (11 R357). -/
  cont : Option (QDelta × List Byte)
  writes : List LWrite
  segs : List LSeg
  /-- The port after the last one used in the rotation (11 R363). -/
  nextPort : Nat
  records : List ZoneRec
  /-- The partial record being written, the next record of each zone's ring, the superblocks by port, and the sequence number of the
  segment that holds C + 1 (11 R363, R364, R366). -/
  part : Option LPart
  zoneNext : Tab Nat
  supers : Tab ZoneSuper
  s0 : Nat
  /-- Commits waiting at step 5, in order (11 R361, R362). -/
  waiting : List SlotId
  /-- Mirrored entries not acknowledged: GCS, slots and the ao-tick of sending (11 R376, R380). -/
  unacked : List (Word64 × List SlotId × Nat)
  /-- Mirror copies kept for the partner, and a partner's entries that wait to be written (11 R377, R378). -/
  mirrors : List Mirror
  mirrorIn : List (LinkId × Mirror)
  /-- Admission is stopped by R380 with FALL = 0. -/
  stalled : Bool
  /-- Draws and entry writes are stopped: a quiesce (11 R370). -/
  quiesced : Bool
  /-- A snapshot pause is in force (17 R557). -/
  paused : Bool
  drawn : Word64
  applied : Word64
  /-- GCS values above `applied` that have applied (10 R350). -/
  appliedSet : List Word64
  /-- Holes being bridged: the top of the GCS range (16 R529), and the positions asked of the partner (16 R528). -/
  holes : List Word64
  asked : List Nat
  /-- FULL and a stopped drain: since when (16 R530); the controller's own failure, and its last reopening. -/
  fullSince : Nat
  stopSince : Nat
  failed : Bool
  reopened : Option Nat
  /-- First and last GCS posted under local durability while pairing is degraded (11 R380). -/
  localFirst : Word64
  localLast : Word64
  /-- From a device reset to the reopening of the ring LEHR_STAT stands at its reset values over what the array holds (11 R372, R381). -/
  asleep : Bool
  /-- The link of the pair that was on at the reset; since when the partner has been asked for records that cannot be read, and what it has
  supplied: segments and places (11 R374). -/
  pairWas : Option LinkId
  askedAt : Option Nat
  got : List (Nat × Nat)
  deriving DecidableEq, Repr

/-- The Lehr after reset, its ring empty. -/
def Lehr.reset : Lehr :=
  { ring := [], anchors := [], twait := 0xC8, jlimit := 0x1000, low := false, high := false, full := false,
    pairdeg := false, drstop := false, fenced := false, rot := 0, lap := false, wp := 0, rp := 0, inRing := 0,
    reserved := 0, gcsdur := 0, ckpt := 0, zones := [], pairEn := false, fall := false, link := 0, ptmo := 0x14,
    seg := 0, part_ := 0, fail := 0, pack := 0, segSeq := 0, queue := [], cont := none, writes := [], segs := [], nextPort := 0,
    records := [], part := none, zoneNext := [], supers := [], s0 := 0, waiting := [], unacked := [], mirrors := [], mirrorIn := [], stalled := false, quiesced := false,
    paused := false, drawn := 0, applied := 0, appliedSet := [], holes := [], asked := [],
    fullSince := 0, stopSince := 0, failed := false, reopened := none, localFirst := 0, localLast := 0, asleep := false,
    pairWas := none, askedAt := none, got := [] }

/-- A boot-directory copy (15 R495). -/
structure BootDir where
  seq : Word64
  pref : Bool
  trial : Bool
  tries : BitVec 2
  valid : Bool
  deriving DecidableEq, Repr

/-- What raises a management alarm (11 Table 11-4, 15 R490, R511, 16 R532). -/
inductive AlarmKind where
  | violation | lehrFull | heartbeat | fatal | norLine | fuse
  deriving DecidableEq, Repr

/-- A management alarm (15 R513): its kind, the ao-tick, and GLB_LVLOG for a violation. -/
structure Alarm where
  kind : AlarmKind
  tick : Word64
  log : Word64
  deriving DecidableEq, Repr

/-- The keeper, its fuses, the NOR and the always-on domain (15 R490 to R500, 16 R532, 17 R535 to R537, 18 R566 to R570). -/
structure Keeper where
  revoke : BitVec 4
  svnf : Nat
  debugLock : Bool
  dir0 : BootDir
  dir1 : BootDir
  imgA : Img
  imgB : Img
  countA : Nat
  countB : Nat
  /-- GLB_BOOTSTAT (15 Table 15-9). -/
  slotB : Bool
  recov : Bool
  trial : Bool
  tries : BitVec 2
  keyidx : BitVec 2
  svn : BitVec 7
  svnfAt : BitVec 7
  svnCommit : Option Nat
  /-- The directory rewrite that a pending SVN commit waits for has completed (15 R498). -/
  dirDone : Bool
  /-- Ticks of the resets under R532 within the hour (16 R532). -/
  resets : List Word64
  heldCores : Bool
  /-- The ao-tick at which the keeper released CC0 T0 (15 R498). -/
  released : Nat
  /-- Each thread's last heartbeat, as its ao-tick plus 1; 0 before the first (15 R491). -/
  beats : Tab Nat
  thermtrip : Bool
  alarms : List Alarm
  alarmsOver : Nat
  alert : Bool
  /-- Keeper running; SYS_RST_N is low; the rails are within tolerance (17 R535). -/
  awake : Bool
  rst : Bool
  rails : Bool
  /-- The keeper starts nothing: its wait of 1 s has run out (17 R535). -/
  gaveUp : Bool
  /-- Steps of Table 17-1 completed, 13 once READY (17 R537). -/
  step : Nat
  failLatched : Bool
  crystalLost : Bool
  /-- The ao-ticks at which PWR_FAIL_N was last recognised and the crystal last lost (18 R567, R570). -/
  failAt : Nat
  crystalAt : Nat
  brake : Bool
  /-- The EID that MCTP discovery assigned (18 R582). -/
  mctpEid : Byte
  bootFail : Bool
  nor : List ErrRec
  norAlarms : List Alarm
  /-- The repair list in the configuration store: cluster and ROM address of each failing microcode word (15 R505). -/
  repair : List (Nat × Nat)
  deriving DecidableEq, Repr

/-- The keeper as State.reset finds it: the start sequence has not begun (17 R535). -/
def Keeper.reset : Keeper :=
  { revoke := 0, svnf := 0, debugLock := false,
    dir0 := { seq := 0, pref := false, trial := false, tries := 0, valid := false },
    dir1 := { seq := 0, pref := false, trial := false, tries := 0, valid := false },
    imgA := Img.shipped, imgB := Img.blank, countA := 0, countB := 0,
    slotB := false, recov := false, trial := false, tries := 0, keyidx := 0, svn := 0, svnfAt := 0, svnCommit := none,
    dirDone := false, resets := [], heldCores := false, released := 0, beats := [], thermtrip := false, alarms := [], alarmsOver := 0,
    alert := false, awake := true, rst := false, rails := true, gaveUp := false, step := 0, failLatched := false, crystalLost := false, failAt := 0, crystalAt := 0,
    brake := false, mctpEid := 0, bootFail := false, nor := [], norAlarms := [], repair := [] }

/-- Pleach link states (17 Table 17-5). -/
inductive LinkState where
  | disabled | training | up | foreign | absent | held
  deriving DecidableEq, Repr

/-- STATE code of a link. -/
def LinkState.code : LinkState → Nat
  | .disabled => 0 | .training => 1 | .up => 2 | .foreign => 3 | .absent => 4 | .held => 5

/-- A pleach link (17 Table 17-5). -/
structure Link where
  en : Bool
  state : LinkState
  attempts : BitVec 4
  drops : BitVec 4
  peerlink : BitVec 2
  peer : Word64
  /-- Times the link has gone down since the membership last settled (17 R543). -/
  downs : Nat
  /-- The ao-tick at which its present series of attempts began (17 R543). -/
  since : Nat
  deriving DecidableEq, Repr

/-- A link after reset. -/
abbrev Link.reset : Link := { en := false, state := .disabled, attempts := 0, drops := 0, peerlink := 0, peer := 0, downs := 0, since := 0 }

/-- The pleach controller (17 Tables 17-5, 17-6). -/
structure Pleach where
  budget : BitVec 12
  setid : Word64
  links : Tab Link
  members : BitVec 5
  seterr : Bool
  settled : Bool
  epoch : BitVec 32
  leader : Word64
  /-- Identity messages held, one per serial (17 R545). -/
  known : List PeerId
  /-- Two devices have reported one serial (17 R546). -/
  clash : Bool
  /-- The ao-tick of the last change of a link's state or of the last new identity message (17 R545). -/
  changed : Nat
  phase : BitVec 2
  role : Bool
  migHedge : HedgeId
  pages : BitVec 48
  /-- Source: the partner, the hedge there, the GCS up to which deltas are forwarded, the hedge's last one so far, and whether g_f has been
  sent (17 R552, R553). -/
  partner : Word64
  partnerHedge : HedgeId
  sentTo : Nat
  gf : Word64
  final : Bool
  /-- Target: the source's record and the definition received, the pages copied with level and leaf, and deltas that wait for their
  page's copy (17 R553). -/
  incoming : Option (MigRec × HedgeDef)
  copied : List (Nat × Nat × Word64)
  early : List Delta
  /-- PREPARED and MOVED records in the configuration store (17 R555, R556). -/
  prepared : List MigRec
  moved : List MigRec
  snapNum : BitVec 32
  snapState : BitVec 2
  snapAbort : Bool
  snapCut : Word64
  /-- The leader's collection: the snapshot number and the ao-tick of its PAUSE, the PAUSED replies, and the members that have
  reached their cut (17 R557, R559). -/
  collecting : Option (BitVec 32 × Nat)
  replies : List (Word64 × Word64)
  reached : List Word64
  /-- Cuts recorded in the configuration store (17 R557). -/
  cuts : List (BitVec 32 × Word64)
  deriving DecidableEq, Repr

/-- The pleach after reset. -/
def Pleach.reset : Pleach :=
  { budget := 0x104, setid := 0, links := [], members := 1, seterr := false, settled := false, epoch := 0, leader := 0,
    known := [], clash := false, changed := 0, phase := 0, role := false, migHedge := 0, pages := 0, partner := 0, partnerHedge := 0,
    sentTo := 0, gf := 0, final := false, incoming := none, copied := [], early := [], prepared := [], moved := [], snapNum := 0,
    snapState := 0, snapAbort := false, snapCut := 0, collecting := none, replies := [], reached := [], cuts := [] }

/-- ERR_MEMCNTk (16 Table 16-8). -/
structure MemCnt where
  ce : BitVec 32
  ue : BitVec 16
  scrub : BitVec 16
  deriving DecidableEq, Repr

/-- ERR_MEMCNTk after reset. -/
abbrev MemCnt.reset : MemCnt := { ce := 0, ue := 0, scrub := 0 }

/-- ERR_PHLOGp, HST_LINKp and HST_DROPp of a host port (16 Table 16-10, 19 Table 19-3), and its SR-IOV and AER state. -/
structure HPort where
  logAddr : Word64
  logFn : BitVec 7
  logV : Bool
  logEvt : Bool
  logHsn : BitVec 32
  rate : BitVec 3
  width : BitVec 5
  l0 : Bool
  flit : Bool
  crs : Bool
  drop : BitVec 32
  vfs : Nat
  /-- Max_Payload_Size and Max_Read_Request_Size in bytes (12 R403). -/
  mps : Nat
  mrrs : Nat
  /-- The function whose ring the front end read last in each of its two classes (14 R477). -/
  turns : Nat × Nat
  /-- AER: Unsupported Request and Completion Timeout reports, by function (16 Table 16-9). -/
  aer : List (Nat × Nat)
  deriving DecidableEq, Repr

/-- A host port after reset. -/
abbrev HPort.reset : HPort :=
  { logAddr := 0, logFn := 0, logV := false, logEvt := false, logHsn := 0, rate := 0, width := 0, l0 := false,
    flit := false, crs := true, drop := 0, vfs := 64, mps := 128, mrrs := 512, turns := (129, 129), aer := [] }

/-- A storage port: its drive is in use, the namespace's capacity in blocks of 4 KiB (12 Table 12-2), its Unsupported Requests (18 R576 to
R579). -/
structure SPort where
  used : Bool
  /-- SPERSTk_N is low (18 R566). -/
  perst : Bool
  blocks : Nat
  urs : BitVec 32
  deriving DecidableEq, Repr

/-- A storage port after reset. -/
abbrev SPort.reset : SPort := { used := false, perst := true, blocks := 0, urs := 0 }

/-- A fuse-bank and device-register group: GLB_, KEY_, PWR_, TMP_ and ERR_ (09, 14, 15, 16). -/
structure Regs where
  lock : Bool
  lockviol : Bool
  lvmore : Bool
  secalm : Bool
  lvAddr : BitVec 32
  lvReq : BitVec 4
  lvSec : Bool
  lvKind : BitVec 2
  lvCount : BitVec 16
  bootok : Bool
  /-- GLB_BOOTOK has been written (00 R10). -/
  bootokW : Bool
  pfbusy : BitVec 4
  pfcount : Tab (BitVec 16)
  slotsel : BitVec 17
  tlbOp : BitVec 3
  tlbHedge : HedgeId
  tlbBusy : Bool
  clmask : BitVec 32
  tlbPage : BitVec 36
  ftbase : BitVec 32
  boosten : Bool
  brakept : BitVec 3
  limit : BitVec 12
  power : BitVec 12
  peak : BitVec 12
  tcool : BitVec 10
  hboost : BitVec 12
  /-- TMP_SENSk: TEMP and VALID. -/
  sens : Tab (BitVec 11 × Bool)
  /-- Boost is blocked until this ao-tick (18 R564). -/
  noBoost : Nat
  /-- Consecutive 100-tick windows with the power at least 16 W below the limit (14 R474). -/
  under : Nat
  rbAddr : BitVec 18
  rbLog2 : BitVec 4
  tail : BitVec 14
  head : BitVec 14
  lost : BitVec 16
  fatal : Bool
  /-- Runs of corrected errors that the collector coalesces (16 R523). -/
  runs : List CorrRun
  memcnt : Tab MemCnt
  deriving DecidableEq, Repr

/-- The device registers after reset. -/
def Regs.reset : Regs :=
  { lock := false, lockviol := false, lvmore := false, secalm := false, lvAddr := 0, lvReq := 0, lvSec := false,
    lvKind := 0, lvCount := 0, bootok := false, bootokW := false, pfbusy := 0, pfcount := [], slotsel := 0, tlbOp := 0, tlbHedge := 0,
    tlbBusy := false, clmask := 0xFFFFFFFF, tlbPage := 0, ftbase := 0xA0000, boosten := true, brakept := 1,
    limit := 0xA00, power := 0, peak := 0, tcool := 0x154, hboost := 0x400, sens := [], noBoost := 0, under := 0,
    rbAddr := 0, rbLog2 := 6, tail := 0, head := 0, lost := 0, fatal := false, runs := [], memcnt := [] }

end Sys2Proof.Machine
end

