-- ==== Sys2Proof/Machine/State.lean ====
section
/-! DEFINITION. The state of the TL-256 as plain data, the state after reset, and the accessors of its numbered parts. -/

namespace Sys2Proof.Machine

/-- Reasons for a fault: none. Nothing the spec describes stops the device: an exception of an engine vectors (08 R250), and
every failure of a unit is a status, an event or a record (16). -/
inductive Fault where
  deriving DecidableEq, Repr

/-- Reasons for a refusal. -/
inductive Refusal where
  /-- Raised by an arm of `exec` whose command has no meaning yet, none at present. Safe. -/
  | notModelled (mnemonic : String)
  deriving DecidableEq, Repr

/-- What a context sends its hedge's event unit (05 R177, R178). -/
inductive EvMsg where
  | wait
  /-- A SIGEV, with the hedge of the context that issued it. -/
  | signal (h : HedgeId) (ep : Word64)
  deriving DecidableEq, Repr

/-- Why the keeper reports that the device has not started (15 R496, 16 R526, R532, 17 R535). -/
inductive BootCause where
  | noImage | conditions | thermtrip | hbmChannel | restarts
  deriving DecidableEq, Repr

/-- An MCTP message that the device sends (18 R582). -/
inductive Mctp where
  /-- An alarm, or the count of those beyond 64 (15 R513). -/
  | alarm (a : Alarm)
  | alarmCount (n : Nat)
  | bootFailure (c : BootCause)
  /-- The board power limit, in 0.125 W (14 R471). -/
  | powerLimit (v : Nat)
  | telemetry (bytes : List Byte)
  | errorLog (records : List ErrRec) (alarms : List Alarm)
  /-- Reply to a migration request: 0 accepted, else the cause (17 R552). -/
  | migration (cause : Nat)
  /-- A hedge that a target holds closed while its source is absent (17 R556). -/
  | heldClosed (h : HedgeId)
  /-- Reply to a snapshot request: its number, or none where no snapshot can run; and the cut vector (17 R557, R559). -/
  | snapshot (n : Option (BitVec 32))
  | cut (n : BitVec 32) (gs : List (Word64 × Word64))
  /-- Reply to a control message: the EID (18 R582). -/
  | control (eid : Byte)
  /-- Error reply to a request that names another service. -/
  | refused (service : Byte)
  deriving DecidableEq, Repr

/-- What the device sends outward. -/
inductive Out where
  /-- A memory write under a function: a completion, an event or data (13 R420). -/
  | host (f : FnId) (addr : Word64) (bytes : List Byte) (poison : Bool)
  /-- An MSI-X message: vector 1 when true, else vector 0 (13 R424). -/
  | msix (f : FnId) (v : Bool)
  /-- A memory read under a function. -/
  | read (f : FnId) (addr : Word64) (len : Nat)
  /-- An NVMe command to a storage port: opcode, first block, bytes (18 Table 18-7). -/
  | nvme (port : Nat) (op : Byte) (block : Nat) (len : Nat) (fua : Bool)
  /-- The admin command Abort, for a command whose timer has expired (18 Table 18-7). -/
  | nvmeAbort (port : Nat)
  /-- An identity message over a pleach link (17 R544). -/
  | identity (l : LinkId) (p : PeerId)
  /-- A mirrored entry and its acknowledgement (11 R376). -/
  | mirror (l : LinkId) (m : Mirror)
  | mirrorAck (l : LinkId) (gcs : Word64)
  /-- A MIRROR copy asked of the partner by segment and place (none asks for the whole segment), or given to it (11 R374, 16 R528). -/
  | copyRequest (l : LinkId) (seq : Nat) (i : Option Nat)
  | copy (l : LinkId) (m : Mirror)
  /-- A segment reclaimed, reported to the partner (11 R377). -/
  | reclaimed (l : LinkId) (seg : Nat)
  /-- Snapshot control: a request forwarded to the leader, PAUSE, PAUSED, RELEASE, and the report that the cut is reached (17 R557,
  R559). -/
  | snapRequest
  | pause (n : BitVec 32)
  | paused (serial : Word64) (n : BitVec 32) (g : Word64)
  | release (n : BitVec 32) (abort : Bool)
  | reached (serial : Word64) (n : BitVec 32)
  /-- Migration: the hedge's definition and its directory range, a page, a delta, g_f with the EVSEQ values, PREPARED, MOVED (17 R553). -/
  | migStart (serial : Word64) (there : HedgeId) (d : HedgeDef) (dir : List (Nat × Endpoint))
  | migPage (va level : Nat) (leaf : Word64) (cells : List (Nat × Byte))
  | migDelta (g : Nat) (addr : Nat) (bytes : List Byte)
  | migFinal (g : Word64) (evseq : List (Nat × BitVec 32))
  | prepared (serial : Word64) (h : HedgeId)
  | moved (serial : Word64) (h : HedgeId)
  /-- An MCTP message (18 R582). -/
  | mctp (m : Mctp)
  /-- What a read of a control-space register returns (19 R590). -/
  | value (addr : BitVec 32) (v : Word64)
  /-- Completion with Unsupported Request: to a drive, or to a host port (16 Table 16-9, 18 R579). -/
  | ur (port : Nat)
  deriving DecidableEq, Repr

/-- A page under eviction: its first frame, D, and the GCS last drawn as its leaf was replaced (09 R305). -/
structure Evict where
  h : HedgeId
  base : Nat
  level : Nat
  frame : Nat
  dirty : Bool
  g : Word64
  deriving DecidableEq, Repr

/-- The TL-256. -/
structure State where
  engines : Tab Engine
  clus : Tab Clu
  slots : Tab Slot
  fns : Tab Fn
  hedges : Tab Hedge
  /-- The endpoint directory, by index (10 R344). -/
  dir : Tab Endpoint
  /-- The lock table, by hedge x 2^48 + ADDR (10 R319). -/
  locks : Tab LockRec
  lehr : Lehr
  movers : Tab Mover
  keeper : Keeper
  pleach : Pleach
  ports : Tab HPort
  sports : Tab SPort
  regs : Regs
  /-- HBM bytes, poisoned granules and latent errors by granule, failed channels, retired frames (16 R514 to R526). -/
  hbm : Tab Byte
  poison : Tab Bool
  hbmLatent : Tab Latent
  chanFailed : Word64
  retired : Tab Bool
  /-- Corrected errors logged per frame (16 R520). -/
  frameErr : Tab (List (Nat × Nat))
  /-- Granules poisoned on each channel, by ao-tick, within the last second (16 R526). -/
  chanUe : Tab (List (Nat × Nat))
  /-- HBM rate of each memory stop in thirty-seconds of the nominal: 32 at full rate (16 R526). -/
  rates : Tab Nat
  ccm : Tab Byte
  /-- Drives, by port x 2^52 + byte (12 R393), and the 32-byte parts that were written with poison (12 R405; log 69). -/
  disk : Tab Byte
  diskPoison : Tab Bool
  /-- Firmware's allocation records: the hedge, address and log2 size of the page whose first frame this is (16 R519). -/
  alloc : Tab (Option (HedgeId × Nat × Nat))
  /-- Frames of the page-table pool in use, with the hedge whose tables they hold (09 R279, 01 Table 1-4). -/
  tables : Tab (Option HedgeId)
  /-- Evictions under way (09 R305). -/
  evicts : List Evict
  /-- Record accesses that wait for their translation, in order of arrival (09 R293). -/
  walkq : List (EngId × CtxId)
  /-- Accesses under translations that the invalidation under way has removed (09 R308). -/
  invWait : List (EngId × CtxId)
  /-- The hedge that the pager served last, per storage port (14 R477). -/
  pagerTurn : Tab HedgeId
  /-- The hedge whose step of a long operation firmware started last (13 R437). -/
  longTurn : HedgeId
  /-- Storage blocks given out so far, per port. -/
  blockNext : Tab Nat
  /-- Durable leaf mappings, by hedge x 2^48 + address: level and PTE (11 R368). -/
  durable : Tab (Nat × Word64)
  /-- Hedge definitions (17 R551). -/
  store : Tab (Option HedgeDef)
  errq : List ErrRec
  /-- Messages on their way to the event units, in order, each with the cluster that sent it (01 R21; 05 R177, R178). -/
  evMsgs : List (CluId × SlotId × EvMsg)
  /-- Lock requests on their way, in order (01 R21). -/
  lockq : List (EngId × CtxId)
  /-- Deltas on their way from the Lehr stop: slot and memory stop, in order (01 R21). -/
  applyq : List (SlotId × StopId)
  /-- Mover signals on their way: channel, hedge and endpoint (12 R399). -/
  movSigs : List ((MovId × ChId) × HedgeId × Nat)
  /-- Wounds and media marks on their way, in order, each with the memory stop that sent it, and end notices (01 R21; 10 R326 to R330). -/
  wounds : List (StopId × SlotId)
  mediaMarks : List (StopId × SlotId)
  endNotices : List EngMsg
  /-- Notices that an engine has refused and returned to firmware, oldest first (08 R246). -/
  refused : List EngMsg
  /-- Wake messages on their way, with the hedge and epoch of their sending (05 R178, 02 R50). -/
  wakes : List EngMsg
  /-- The bounce queue (02 R52). -/
  bounced : List EngMsg
  /-- DHP_DEVSTAT.STATE (13 Table 13-5). -/
  devstat : BitVec 2
  /-- Start sequences: the next block, and next number and numbers left of each holder: front ends 0, 1 and firmware
  dispatch 2 (10 R313). -/
  startNext : Word64
  startBlk : Tab (Word64 × Nat)
  aoTick : Word64
  out : List Out
  /-- The model's counter that free values are drawn with (log 2). -/
  free : Nat
  /-- The commands that wait, first in, first out. -/
  pending : List Instr
  deriving DecidableEq, Repr

/-- The machine right after reset (19 R594; log 4 for the values the spec does not state). -/
def State.reset : State :=
  { engines := [], clus := [], slots := [], fns := [], hedges := [], dir := [], locks := [], lehr := Lehr.reset,
    movers := [], keeper := Keeper.reset, pleach := Pleach.reset, ports := [], sports := [], regs := Regs.reset, hbm := [],
    poison := [], hbmLatent := [], chanFailed := 0, retired := [], frameErr := [], chanUe := [], rates := [], ccm := [], disk := [], diskPoison := [], alloc := [],
    tables := [], evicts := [], walkq := [], invWait := [], pagerTurn := [], longTurn := 63, blockNext := [], durable := [], store := [], errq := [], evMsgs := [], lockq := [], applyq := [], movSigs := [], wounds := [], mediaMarks := [],
    endNotices := [], refused := [], wakes := [], bounced := [], devstat := 0, startNext := 0, startBlk := [], aoTick := 0, out := [], free := 0,
    pending := [] }

/-- Engine `e`. -/
def State.eng (s : State) (e : EngId) : Engine := tget Engine.reset s.engines e.val
/-- Write engine `e`. -/
def State.setEng (s : State) (e : EngId) (v : Engine) : State := { s with engines := tset Engine.reset s.engines e.val v }
/-- Cluster `k`. -/
def State.clu (s : State) (k : CluId) : Clu := tget Clu.reset s.clus k.val
/-- Write cluster `k`. -/
def State.setClu (s : State) (k : CluId) (v : Clu) : State := { s with clus := tset Clu.reset s.clus k.val v }
/-- Slot `n`. -/
def State.slot (s : State) (n : SlotId) : Slot := tget Slot.reset s.slots n.val
/-- Write slot `n`. -/
def State.setSlot (s : State) (n : SlotId) (v : Slot) : State := { s with slots := tset Slot.reset s.slots n.val v }
/-- A function after reset: a PF's admin ring is DOWN, a VF without a hedge reads CLOSED (02 R39, 13 Table 13-3). -/
def fnReset (f : FnId) : Fn := if f.val % 65 = 0 then { Fn.reset with state := .down } else Fn.reset
/-- Function `f`. -/
def State.fn (s : State) (f : FnId) : Fn := tget (fnReset f) s.fns f.val
/-- Write function `f`. -/
def State.setFn (s : State) (f : FnId) (v : Fn) : State := { s with fns := tset (fnReset f) s.fns f.val v }
/-- Hedge `h`. -/
def State.hedge (s : State) (h : HedgeId) : Hedge := tget Hedge.reset s.hedges h.val
/-- Write hedge `h`. -/
def State.setHedge (s : State) (h : HedgeId) (v : Hedge) : State :=
  { s with hedges := tset Hedge.reset s.hedges h.val v }
/-- A mover after reset: its hardware channels are IDLE (12 Tables 12-1, 12-18). -/
def hwChans (m : MovId) : Nat := if m.val < 32 then 8 else 16
/-- Channel `n` of mover `m` after reset. -/
def chanReset (m : MovId) (n : ChId) : Chan := if n.val < hwChans m then { Chan.reset with state := .idle } else Chan.reset
/-- Mover `m`. -/
def State.mover (s : State) (m : MovId) : Mover := tget Mover.reset s.movers m.val
/-- Write mover `m`. -/
def State.setMover (s : State) (m : MovId) (v : Mover) : State := { s with movers := tset Mover.reset s.movers m.val v }
/-- Channel `n` of mover `m`. -/
def State.chan (s : State) (m : MovId) (n : ChId) : Chan := tget (chanReset m n) (s.mover m).chans n.val
/-- Write channel `n` of mover `m`. -/
def State.setChan (s : State) (m : MovId) (n : ChId) (v : Chan) : State :=
  s.setMover m { s.mover m with chans := tset (chanReset m n) (s.mover m).chans n.val v }
/-- Host port `p`. -/
def State.port (s : State) (p : PortId) : HPort := tget HPort.reset s.ports p.val
/-- Write host port `p`. -/
def State.setPort (s : State) (p : PortId) (v : HPort) : State := { s with ports := tset HPort.reset s.ports p.val v }
/-- Storage port `p`. -/
def State.sport (s : State) (p : StoragePort) : SPort := tget SPort.reset s.sports p.val
/-- Write storage port `p`. -/
def State.setSport (s : State) (p : StoragePort) (v : SPort) : State :=
  { s with sports := tset SPort.reset s.sports p.val v }
/-- Pleach link `l`. -/
def State.link (s : State) (l : LinkId) : Link := tget Link.reset s.pleach.links l.val
/-- Write pleach link `l`. -/
def State.setLink (s : State) (l : LinkId) (v : Link) : State :=
  { s with pleach := { s.pleach with links := tset Link.reset s.pleach.links l.val v } }
/-- The device sends `o`. -/
def State.emit (s : State) (o : Out) : State := { s with out := s.out ++ [o] }

/-- The message that `p` asks for, when none of its own class goes ahead of it between the same two stops: `key` names the stops (01
R21). -/
def inTurn {α κ : Type} [DecidableEq κ] (key : α → κ) (p : α → Bool) (l : List α) : Option α :=
  match l.find? p with
  | some m => if (l.takeWhile fun x => !p x).any fun x => decide (key x = key m) then none else some m
  | none => none

end Sys2Proof.Machine
end

