-- ==== Sys2Proof/Machine/Ops.lean ====
section
/-! DEFINITION. The named operations over the storage of one engine: cells, scratch regions, the store buffer, loads and
stores, the operand stack and its window, locals, the return stack. -/

namespace Sys2Proof.Machine

/-! ### Cells -/

/-- TYPE codes (03 Table 3-7). -/
abbrev tyNIL : BitVec 4 := 0
abbrev tyINT : BitVec 4 := 1
abbrev tyDEC : BitVec 4 := 2
abbrev tyFLT : BitVec 4 := 3
abbrev tyCHR : BitVec 4 := 4
abbrev tyREF : BitVec 4 := 5
abbrev tySEQ : BitVec 4 := 6
abbrev tyTIME : BitVec 4 := 7
abbrev tyBOOL : BitVec 4 := 8
abbrev tyCODE : BitVec 4 := 9
abbrev tyRATE : BitVec 4 := 10
abbrev tyERR : BitVec 4 := 11

/-- Highest legal SUB of each TYPE, none for a reserved TYPE (03 Table 3-7, 07 R212, R234). -/
def maxSub (ty : BitVec 4) : Option Nat :=
  match ty.toNat with
  | 0 | 1 | 2 | 3 | 10 | 11 => some 0
  | 4 | 5 | 7 | 8 | 9 => some 1
  | 6 => some 2
  | _ => none

/-- A TYPE and SUB that Table 3-7 allows (03 R81). -/
def wellTyped (ty : BitVec 4) (sub : BitVec 2) : Bool :=
  match maxSub ty with
  | some m => sub.toNat ≤ m
  | none => false

/-- The cell is not malformed (03 R81). -/
def Cell.wellFormed (c : Cell) : Bool := wellTyped c.ty c.sub

/-- The tag byte: TYPE [3:0], SUB [5:4], P [6], G [7] (03 R81). -/
def Cell.tag (c : Cell) : Byte :=
  BitVec.ofNat 8 (c.ty.toNat + 16 * c.sub.toNat + 64 * b2n c.p + 128 * b2n c.g)

/-- payload[63:0] as a signed value (05 R155). -/
def Cell.int (c : Cell) : Int := (c.pay.extractLsb' 0 64).toInt

/-- payload[63:0]. -/
def Cell.lo (c : Cell) : Word64 := c.pay.extractLsb' 0 64

/-- An INT cell of a value taken modulo 2^64 and sign-extended to 128 bits (05 R155). -/
def cellInt (v : Int) (p : Bool := false) : Cell :=
  { ty := tyINT, sub := 0, p := p, g := false, pay := (BitVec.ofInt 64 v).signExtend 128 }

/-- A BOOL cell (05 R146). -/
def cellBool (b : Bool) (p : Bool := false) : Cell :=
  { ty := tyBOOL, sub := if b then 1 else 0, p := p, g := false, pay := 0 }

/-- A FLT cell with its bits in payload[63:0] (03 Table 3-7). -/
def cellFlt (v : Word64) (p : Bool := false) : Cell :=
  { ty := tyFLT, sub := 0, p := p, g := false, pay := v.setWidth 128 }

/-- A DEC cell (06). -/
def cellDec (v : Payload) (p : Bool := false) : Cell := { ty := tyDEC, sub := 0, p := p, g := false, pay := v }

/-- A CODE cell: SUB 0b00 a code address, SUB 0b01 a CALLM frame return (03 Table 3-7). -/
def cellCode (a : BitVec 19) (frame : Bool := false) : Cell :=
  { ty := tyCODE, sub := if frame then 1 else 0, p := false, g := false, pay := a.setWidth 128 }

/-- An ERR cell carrying a status (05 R169). -/
def cellErr (status : Byte) : Cell := { ty := tyERR, sub := 0, p := false, g := false, pay := status.setWidth 128 }

/-- Bytes of a cell in scratch order: byte j is payload[8j+7:8j] (04 R133). -/
def byteOfPay (v : Payload) (j : Nat) : Byte := v.extractLsb' (8 * j) 8

/-- Little-endian bytes as a number (00 R7). -/
def natOfBytes : List Byte → Nat
  | [] => 0
  | b :: bs => b.toNat + 256 * natOfBytes bs

/-- A number as `n` little-endian bytes (00 R7). -/
def bytesOfNat : Nat → Nat → List Byte
  | 0, _ => []
  | n + 1, v => BitVec.ofNat 8 v :: bytesOfNat n (v / 256)

/-- The 16 bytes of a payload in scratch order (04 R133). -/
def bytesOfPay (v : Payload) : List Byte := bytesOfNat 16 v.toNat

/-- A payload from 16 bytes in scratch order (04 R133). -/
def payOfBytes (bs : List Byte) : Payload := BitVec.ofNat 128 (natOfBytes bs)

/-- A payload whose bytes `off` onward are replaced (04 R133). -/
def payPatch (v : Payload) (off : Nat) (bs : List Byte) : Payload :=
  payOfBytes ((bytesOfPay v).take off ++ bs ++ (bytesOfPay v).drop (off + bs.length))

/-- Storage order of a DEC: first byte is payload[127:120] (04 Table 4-8). -/
def decStorage (v : Payload) : Payload := payOfBytes (bytesOfPay v).reverse

/-! ### Scratch regions (03 R78) -/

/-- Number of cells of a scratch. -/
abbrev scratchCells : Nat := 16384
/-- First byte after scratch. -/
abbrev scratchEnd : Nat := 0x40000
/-- First byte of the rescue region (03 Table 3-5). -/
abbrev rescueBase : Nat := 0x38000

/-- Base of the supervisor window (03 Table 3-6). -/
def Engine.swinLo (e : Engine) : Nat := e.swinBase.toNat * 4096

/-- First byte after the supervisor window. -/
def Engine.swinHi (e : Engine) : Nat := (e.swinBase.toNat + e.swinSize.toNat) * 4096

/-- Two ranges [a, a+n) and [lo, hi) have a byte in common. -/
def overlaps (a n lo hi : Nat) : Bool := decide (a < hi) && decide (lo < a + n) && decide (0 < n)

/-- The range [a, a+n) lies in regions open to the PL (03 R78). -/
def Engine.open? (e : Engine) (pl a n : Nat) : Bool :=
  !(decide (1 ≤ pl) && overlaps a n rescueBase scratchEnd) &&
    !(decide (2 ≤ pl) && overlaps a n e.swinLo e.swinHi)

/-- The first address of [a, a+n), in steps of 16 from `a`, that is closed to the PL. -/
def Engine.firstClosed (e : Engine) (pl a n : Nat) : Nat :=
  (((List.range ((n + 15) / 16)).map fun i => a + 16 * i).find? fun b => !e.open? pl b 1).getD a

/-- The general area of Table 3-5: outside the argument areas, the supervisor window and the rescue region. -/
def Engine.general? (e : Engine) (a n : Nat) : Bool :=
  decide (0x800 ≤ a) && decide (a + n ≤ rescueBase) && !overlaps a n e.swinLo e.swinHi

/-! ### Cells of scratch, through the store buffer -/

/-- The newest buffered cell, if the store buffer holds one (03 R109). -/
def sbFind : List (Nat × Cell) → Nat → Option Cell
  | [], _ => none
  | (i, c) :: t, k =>
    match sbFind t k with
    | some d => some d
    | none => if i = k then some c else none

/-- Cell `k` as a load sees it: the newest buffered bytes merged with scratch (03 R109); a cell with an uncorrectable error
reads with P = 1 and its payload as read (16 R517). -/
def Engine.cell (e : Engine) (k : Nat) : Cell :=
  match sbFind e.sb k with
  | some c => c
  | none =>
    if tget Latent.none e.latent k = .uncorrectable then { tget Cell.nil e.scratch k with p := true }
    else tget Cell.nil e.scratch k

/-- Whether a read of cell `k` meets an uncorrectable error in scratch (16 R516, R517). -/
def Engine.bad? (e : Engine) (k : Nat) : Bool :=
  (sbFind e.sb k).isNone && decide (tget Latent.none e.latent k = .uncorrectable)

/-- A tally by ao-tick with what lies within a window before now. -/
def recentTally (tick window : Nat) (l : List (Nat × Nat)) : List (Nat × Nat) := l.filter fun q => decide (tick < q.1 + window)

/-- Its count. -/
def tallied (tick window : Nat) (l : List (Nat × Nat)) : Nat := ((recentTally tick window l).map (·.2)).sum

/-- One more in a tally. -/
def tally (tick window : Nat) (l : List (Nat × Nat)) : List (Nat × Nat) :=
  match recentTally tick window l with
  | (t, n) :: r => if t = tick then (t, n + 1) :: r else (tick, 1) :: (t, n) :: r
  | [] => [(tick, 1)]

/-- Add 1, saturating at all ones. -/
def satInc {w : Nat} (v : BitVec w) : BitVec w := if v = BitVec.allOnes w then v else v + 1

/-- A read of cell `k` meets its latent error: it is counted once, and the engine rewrites the cell (16 R515, R517). -/
def Engine.meet (e : Engine) (k : Nat) : Engine :=
  if (sbFind e.sb k).isSome then e
  else
    match tget Latent.none e.latent k with
    | .none => e
    | .correctable => { e with latent := tset Latent.none e.latent k .none, sce := satInc e.sce }
    | .uncorrectable =>
      { e with
        latent := tset Latent.none e.latent k .none
        scratch := tset Cell.nil e.scratch k { tget Cell.nil e.scratch k with p := true }
        sue := satInc e.sue
        eccLast := BitVec.ofNat 18 (16 * k) }

/-- Meet the errors of several cells. -/
def Engine.meetAll (e : Engine) (ks : List Nat) : Engine := ks.foldl Engine.meet e

/-- Write a cell of scratch whole, with fresh check bits. -/
def Engine.setScratch (e : Engine) (k : Nat) (c : Cell) : Engine :=
  { e with scratch := tset Cell.nil e.scratch k c, latent := tset Latent.none e.latent k .none }

/-- The oldest buffered entry reaches scratch (03 R109). -/
def Engine.drainOne (e : Engine) : Engine :=
  match e.sb with
  | [] => e
  | (k, c) :: t => { e.setScratch k c with sb := t }

/-- The store buffer drains (03 R110). -/
def Engine.drain (e : Engine) : Engine :=
  { e.sb.foldl (fun a kc => a.setScratch kc.1 kc.2) e with sb := [] }

/-- Set the written marks of the halves named (11 R355). -/
def Engine.mark (e : Engine) (k : Nat) (lo hi : Bool) : Engine :=
  let m := tget (false, false) e.marks k
  { e with marks := tset (false, false) e.marks k (m.1 || lo, m.2 || hi) }

/-- A store of a merged cell enters the store buffer; a ninth entry sends the oldest one to scratch (03 R109). -/
def Engine.push (e : Engine) (k : Nat) (c : Cell) : Engine :=
  let e' := if e.sb.length < 8 then e else e.drainOne
  { e' with sb := e'.sb ++ [(k, c)] }

/-- A full-cell store: both halves are written (04 R136, 11 R355). -/
def Engine.storeCell (e : Engine) (k : Nat) (c : Cell) : Engine := (e.push k c).mark k true true

/-- A write past the store buffer, by the spill unit, vectoring, a mover or record data: buffered entries of the cell reach
scratch first, so this write stands (03 R80, R111, 08 R253); it sets the written marks (11 R355). -/
def Engine.writeThrough (e : Engine) (k : Nat) (c : Cell) : Engine :=
  Engine.mark { e.setScratch k c with sb := e.sb.filter fun kc => kc.1 != k } k true true

/-- An RLD fill of a cell: as a write past the store buffer, and it clears the written marks (03 R111, 11 R355). -/
def Engine.rldFill (e : Engine) (k : Nat) (c : Cell) : Engine :=
  { e.setScratch k c with
    sb := e.sb.filter fun kc => kc.1 != k
    marks := tset (false, false) e.marks k (false, false) }

/-- What a narrow store finds against the target's tag (04 Table 4-9): it proceeds, or the tag refuses it. A cell with an
uncorrectable error is not checked (16 R516). -/
def Engine.narrowOk (e : Engine) (nochk : Bool) (k : Nat) : Bool :=
  let t := e.cell k
  e.bad? k || (t.wellFormed && (nochk || !(t.ty = tyCHR || t.ty = tyREF || t.ty = tySEQ || t.ty = tyCODE ||
    t.ty = tyRATE || t.ty = tyERR)))

/-- The cell after a narrow write of bytes at `off`, with the poison of the value written (04 Table 4-9, R137; 16 R516). -/
def Engine.mergeCell (e : Engine) (k off : Nat) (bs : List Byte) (vp : Bool) : Cell :=
  let t := e.cell k
  if e.bad? k then
    let ok := t.wellFormed
    { ty := if ok then t.ty else tyINT, sub := if ok then t.sub else 0, p := true, g := t.g,
      pay := payPatch t.pay off bs }
  else
    let int := t.ty = tyNIL || t.ty = tyBOOL
    { ty := if int then tyINT else t.ty, sub := if int then 0 else t.sub, p := t.p || vp, g := t.g,
      pay := payPatch t.pay off bs }

/-- A narrow store of bytes inside cell `k` through the store buffer. -/
def Engine.storeNarrow (e : Engine) (k off : Nat) (bs : List Byte) (vp : Bool) : Engine :=
  ((e.meet k).push k (e.mergeCell k off bs vp)).mark k (decide (off < 8)) (decide (8 < off + bs.length))

/-- The bytes from scratch address `a`, as loads see them. -/
def Engine.readBytes (e : Engine) (a n : Nat) : List Byte :=
  (List.range n).map fun i => byteOfPay (e.cell ((a + i) / 16)).pay ((a + i) % 16)

/-- The numbers of the cells that [a, a+n) covers. -/
def cellsOf (a n : Nat) : List Nat :=
  if n = 0 then [] else (List.range ((a + n - 1) / 16 - a / 16 + 1)).map fun i => a / 16 + i

/-- Whether any cell that [a, a+n) covers is poisoned. -/
def Engine.anyPoison (e : Engine) (a n : Nat) : Bool := (cellsOf a n).any fun k => (e.cell k).p

/-- Narrow stores of a run of bytes, cell by cell. -/
def Engine.storeBytes (e : Engine) (a : Nat) (bs : List Byte) (vp : Bool) : Engine :=
  (cellsOf a bs.length).foldl
    (fun s k =>
      let lo := if a ≤ 16 * k then 0 else a - 16 * k
      let skip := if a ≤ 16 * k then 16 * k - a else 0
      s.storeNarrow k lo ((bs.drop skip).take (16 - lo)) vp) e

/-! ### The operand stack (03 R86 to R91) -/

/-- The upper bound of a stack or frame region as an address: an 18-bit bound of 0 above a base in the top 64 KiB is the end
of scratch (log 11). -/
def boundOf (lo hi : BitVec 18) : Nat := if hi = 0 ∧ 0x30000 ≤ lo.toNat then scratchEnd else hi.toNat

/-- Size of the region between two 18-bit bounds. -/
def regionSize (lo hi : BitVec 18) : Nat := boundOf lo hi - lo.toNat

/-- Capacity C of the stack in cells (03 R88). -/
def Ctx.capacity (c : Ctx) : Nat := regionSize c.osb c.osl / 16

/-- Scratch cell number of stack cell `i`, counted from the bottom (03 R86). -/
def Ctx.stackSlot (c : Ctx) (i : Nat) : Nat := c.osb.toNat / 16 + i

/-- Stack cell `i` counted from the top: from the window, or the scratch cell it lives in (03 R86, R91). -/
def stackTop (e : Engine) (c : Ctx) (i : Nat) : Cell :=
  match c.win[i]? with
  | some x => x
  | none => e.cell (c.stackSlot (c.depth.toNat - 1 - i))

/-- Pop `p` cells and push `qs`, the last of `qs` on top (05 R142). -/
def Ctx.popPush (c : Ctx) (p : Nat) (qs : List Cell) : Ctx :=
  { c with win := qs.reverse ++ c.win.drop p, depth := BitVec.ofNat 15 (c.depth.toNat - p + qs.length) }

/-- Spill the deepest resident cell to its place (03 R87, R90). -/
def spillOne (e : Engine) (c : Ctx) : Engine × Ctx :=
  match c.win.getLast? with
  | none => (e, c)
  | some x => (e.writeThrough (c.stackSlot (c.depth.toNat - c.win.length)) x, { c with win := c.win.dropLast })

/-- Fill one cell below the window (03 R87, R91). -/
def fillOne (e : Engine) (c : Ctx) : Engine × Ctx :=
  let i := c.depth.toNat - c.win.length - 1
  ((e.meet (c.stackSlot i)), { c with win := c.win ++ [e.cell (c.stackSlot i)] })

/-- The spill unit's work in the cycle after an issue: up to `n` cells, toward a window of 8 (03 R87). -/
def settle : Nat → Engine → Ctx → Engine × Ctx
  | 0, e, c => (e, c)
  | n + 1, e, c =>
    if 8 < c.win.length then settle n (spillOne e c).1 (spillOne e c).2
    else if c.win.length < 8 && c.win.length < c.depth.toNat then settle n (fillOne e c).1 (fillOne e c).2
    else (e, c)

/-- The whole window goes to its region, as vectoring and parking ask (08 R250, 10 R316). -/
def spillAll : Nat → Engine → Ctx → Engine × Ctx
  | 0, e, c => (e, c)
  | n + 1, e, c => if c.win.isEmpty then (e, c) else spillAll n (spillOne e c).1 (spillOne e c).2

/-- Fill the window after it was emptied, as RETI and unparking ask (03 R87): at most 8 cells. -/
def refill : Nat → Engine → Ctx → Engine × Ctx
  | 0, e, c => (e, c)
  | n + 1, e, c => if c.win.length < c.depth.toNat then refill n (fillOne e c).1 (fillOne e c).2 else (e, c)

/-- A stack from `osb` to `osl` is valid for the PL (03 R89). -/
def Engine.stackValid (e : Engine) (pl : Nat) (osb osl : BitVec 18) : Bool :=
  let n := regionSize osb osl
  decide (osb.toNat % 16 = 0) && decide (osl.toNat % 16 = 0) && decide (osb.toNat < boundOf osb osl) &&
    decide (256 ≤ n) && decide (n ≤ 65536) && e.open? pl osb.toNat n

/-! ### Locals and the return stack -/

/-- Local Ln (03 R92). -/
def Ctx.local (c : Ctx) (n : Nat) : Cell := tget Cell.nil c.locals n

/-- Write local Ln. -/
def Ctx.setLocal (c : Ctx) (n : Nat) (v : Cell) : Ctx := { c with locals := tset Cell.nil c.locals n v }

/-- Return-stack entry i (03 R93). -/
def Ctx.rse (c : Ctx) (i : Nat) : RsEntry := tget RsEntry.empty c.rs i

/-- Write a return-stack entry. -/
def Ctx.setRse (c : Ctx) (i : Nat) (v : RsEntry) : Ctx := { c with rs := tset RsEntry.empty c.rs i v }

/-- The PSW as a 64-bit word, with HEDGE and EPOCH copied from ENG_ROLE (03 Table 3-8). -/
def pswWord (e : Engine) (p : Psw) : Word64 :=
  BitVec.ofNat 64 (p.pl.toNat + 2 ^ 4 * p.m.toNat + 2 ^ 7 * b2n p.eh + 2 ^ 8 * p.key.toNat + 2 ^ 12 * p.rm.toNat +
    2 ^ 16 * e.hedge.val + 2 ^ 32 * e.epoch.toNat)

/-! ### Contexts of an engine -/

/-- Context n of an engine. -/
def Engine.ctx (e : Engine) (n : CtxId) : Ctx := tget Ctx.reset e.ctxs n.val

/-- The boundary after the fourth instruction of the handler: EH clears (08 R257). -/
def Ctx.ehBound (c : Ctx) : Ctx := if c.psw.eh && c.ehLeft == 0 then { c with psw := { c.psw with eh := false } } else c

/-- Replace context n. -/
def Engine.setCtx (e : Engine) (n : CtxId) (c : Ctx) : Engine := { e with ctxs := tset Ctx.reset e.ctxs n.val c }

/-- A context is resident when it is not FREE (03 R62). -/
def Engine.anyResident (e : Engine) : Bool := e.ctxs.any fun kc => kc.2.state != .free

end Sys2Proof.Machine
end

