-- ==== Sys2Proof/Machine/Flags.lean ====
section
/-! DEFINITION. The numeric results: the six rounding modes, INT range and saturation (05 R155), packed decimal (06), binary64
(05 R161, R162). Everything is computed exactly on Nat and Int and narrowed once at the end. -/

namespace Sys2Proof.Machine

/-! ### Rounding (05 R161, 06 R200) -/

/-- Whether a kept magnitude grows by one unit: `odd` whether it is odd, `c` the comparison of the dropped part with one half
of a unit, `nz` whether the dropped part is not zero (06 R200; modes as PSW.RM). -/
def roundInc (mode : BitVec 3) (neg odd : Bool) (c : Ordering) (nz : Bool) : Bool :=
  match mode.toNat with
  | 1 => c != .lt
  | 2 => false
  | 3 => nz
  | 4 => nz && neg
  | 5 => nz && !neg
  | _ => c == .gt || (c == .eq && odd)

/-- `v / d` rounded to a whole number (06 R200). -/
def roundDiv (mode : BitVec 3) (neg : Bool) (v d : Nat) : Nat :=
  v / d + b2n (roundInc mode neg (v / d % 2 == 1) (compare (2 * (v % d)) d) (v % d != 0))

/-! ### INT (05 R155) -/

/-- The value lies in the INT range. -/
def intFits (v : Int) : Bool := decide (-(2 ^ 63) ≤ v) && decide (v < 2 ^ 63)

/-- The nearer end of the INT range (05 R155). -/
def intSat (v : Int) : Int := if v < 0 then -(2 ^ 63) else 2 ^ 63 - 1

/-- Length in bits of a magnitude (06 R209). -/
def bitLen (n : Nat) : Nat := if n = 0 then 0 else Nat.log2 n + 1

/-- Count of MULI (06 R209, Table 6-8). -/
def muliCount (strict : Bool) (a b : Int) : Nat :=
  if strict then 10 else 2 + (Nat.min (bitLen a.natAbs) (bitLen b.natAbs) + 7) / 8

/-! ### Packed decimal (06) -/

/-- 10^31: the first magnitude a DEC cell cannot hold (06 R188). -/
abbrev decLimit : Nat := 10 ^ 31

/-- Nibble i of a payload, 0 = payload[127:124] (06 R183, R185). -/
def decNibble (v : Payload) (i : Nat) : Nat := (v.extractLsb' (124 - 4 * i) 4).toNat

/-- Index of the first invalid nibble, if any (06 R183, R185). -/
def decBad (v : Payload) : Option Nat :=
  (List.range 32).find? fun i => if i < 31 then decide (9 < decNibble v i) else decide (decNibble v i < 10)

/-- The magnitude; an invalid digit reads as 9 (06 R186). -/
def decMag (v : Payload) : Nat :=
  (List.range 31).foldl (fun acc i => acc * 10 + Nat.min 9 (decNibble v i)) 0

/-- The sign reads as minus (06 Table 6-1); an invalid sign reads as plus (06 R186). -/
def decMinus (v : Payload) : Bool := decNibble v 31 == 0xB || decNibble v 31 == 0xD

/-- The value of a DEC cell. -/
def decVal (v : Payload) : Int := if decMinus v then -(decMag v : Int) else decMag v

/-- The digits of a magnitude below 10^31 as nibbles [127:4], with a sign nibble. -/
def decPack (sign mag : Nat) : Payload :=
  BitVec.ofNat 128
    (sign + 16 * ((List.range 31).foldl (fun acc i => acc + mag / 10 ^ i % 10 * 16 ^ i) 0))

/-- A DEC result with a preferred sign; a zero carries 0xC (06 R184, R187). -/
def decMake (neg : Bool) (mag : Nat) : Payload := decPack (if neg && mag != 0 then 0xD else 0xC) mag

/-- A DEC result whose zero keeps its sign: conversions and DMUL (05 R160, 06 R194). -/
def decMakeSigned (neg : Bool) (mag : Nat) : Payload := decPack (if neg then 0xD else 0xC) mag

/-! ### Binary64 (05 R161, R162) -/

/-- What a binary64 pattern stands for: a finite value is mag x 2^(exp - 1074). -/
inductive Flt where
  | nan
  | inf (neg : Bool)
  | fin (neg : Bool) (mag : Nat) (exp : Nat)
  deriving DecidableEq, Repr

/-- Read a binary64 pattern. -/
def fltOf (v : Word64) : Flt :=
  let neg := v.toNat / 2 ^ 63 == 1
  let x := v.toNat / 2 ^ 52 % 2048
  let f := v.toNat % 2 ^ 52
  if x = 2047 then (if f = 0 then .inf neg else .nan)
  else if x = 0 then .fin neg f 0 else .fin neg (f + 2 ^ 52) (x - 1)

/-- The canonical quiet NaN (05 R162). -/
abbrev fltNaN : Word64 := 0x7FF8000000000000

/-- An infinity. -/
def fltInf (neg : Bool) : Word64 := if neg then 0xFFF0000000000000 else 0x7FF0000000000000

/-- A zero. -/
def fltZero (neg : Bool) : Word64 := if neg then 0x8000000000000000 else 0

/-- Overflow: an infinity or the largest finite value, as the mode directs (05 R162). -/
def fltOverflow (mode : BitVec 3) (neg : Bool) : Word64 :=
  let big : Word64 := if neg then 0xFFEFFFFFFFFFFFFF else 0x7FEFFFFFFFFFFFFF
  match mode.toNat with
  | 2 => big
  | 4 => if neg then fltInf neg else big
  | 5 => if neg then big else fltInf neg
  | _ => fltInf neg

/-- Round (mag + delta) x 2^exp once, where 0 <= delta < 1 and delta is not zero exactly when `sticky`; a sticky magnitude
has at least 55 bits (05 R161). -/
def fltRound (mode : BitVec 3) (neg : Bool) (mag : Nat) (exp : Int) (sticky : Bool) : Word64 :=
  if mag = 0 && !sticky then fltZero neg
  else
    let q : Int := max (exp + bitLen mag - 53) (-1074)
    let k0 : Nat × Int :=
      if q ≤ exp then (mag * 2 ^ (exp - q).toNat, q)
      else
        let d := 2 ^ (q - exp).toNat
        let r := mag % d
        let c := match compare (2 * r) d with
          | .eq => if sticky then Ordering.gt else .eq
          | o => o
        (mag / d + b2n (roundInc mode neg (mag / d % 2 == 1) c (r != 0 || sticky)), q)
    let k : Nat × Int := if k0.1 = 2 ^ 53 then (2 ^ 52, k0.2 + 1) else k0
    if k.1 < 2 ^ 52 then BitVec.ofNat 64 (2 ^ 63 * b2n neg + k.1)
    else if 971 < k.2 then fltOverflow mode neg
    else BitVec.ofNat 64 (2 ^ 63 * b2n neg + (k.2 + 1075).toNat * 2 ^ 52 + (k.1 - 2 ^ 52))

/-- A finite value scaled by 2^1074, as an integer. -/
def fltScaled (neg : Bool) (mag exp : Nat) : Int := if neg then -((mag * 2 ^ exp : Nat) : Int) else ((mag * 2 ^ exp : Nat) : Int)

/-- Round an exact integer multiple of 2^lsb; `zneg` is the sign of an exact zero. -/
def fltOfScaled (mode : BitVec 3) (v : Int) (lsb : Int) (zneg : Bool) : Word64 :=
  if v = 0 then fltZero zneg else fltRound mode (decide (v < 0)) v.natAbs lsb false

/-- Sign of an exactly zero sum: that of the operands when they agree, else plus, or minus under floor. -/
def zeroSumNeg (mode : BitVec 3) (a b : Bool) : Bool := if a = b then a else mode == 4

/-- a + b (05 R161, R162). -/
def fltAdd (mode : BitVec 3) (a b : Flt) : Word64 :=
  match a, b with
  | .nan, _ => fltNaN
  | _, .nan => fltNaN
  | .inf s, .inf t => if s = t then fltInf s else fltNaN
  | .inf s, .fin _ _ _ => fltInf s
  | .fin _ _ _, .inf t => fltInf t
  | .fin s m x, .fin t n y =>
    fltOfScaled mode (fltScaled s m x + fltScaled t n y) (-1074)
      (if m = 0 && n = 0 then zeroSumNeg mode s t else mode == 4)

/-- Change of sign. -/
def Flt.neg : Flt → Flt
  | .nan => .nan
  | .inf s => .inf !s
  | .fin s m x => .fin (!s) m x

/-- a x b. -/
def fltMul (mode : BitVec 3) (a b : Flt) : Word64 :=
  match a, b with
  | .nan, _ => fltNaN
  | _, .nan => fltNaN
  | .inf s, .inf t => fltInf (s != t)
  | .inf s, .fin t n _ => if n = 0 then fltNaN else fltInf (s != t)
  | .fin s m _, .inf t => if m = 0 then fltNaN else fltInf (s != t)
  | .fin s m x, .fin t n y => fltRound mode (s != t) (m * n) ((x : Int) + y - 2148) false

/-- a x b + c, rounded once. -/
def fltFma (mode : BitVec 3) (a b c : Flt) : Word64 :=
  match a, b, c with
  | .nan, _, _ => fltNaN
  | _, .nan, _ => fltNaN
  | _, _, .nan => fltNaN
  | .fin s m x, .fin t n y, .fin u k z =>
    let p := (if s != t then -((m * n * 2 ^ (x + y) : Nat) : Int) else ((m * n * 2 ^ (x + y) : Nat) : Int))
    fltOfScaled mode (p + fltScaled u k z * 2 ^ 1074) (-2148)
      (if m * n = 0 && k = 0 then zeroSumNeg mode (s != t) u else mode == 4)
  | .fin _ _ _, .fin _ _ _, .inf u => fltInf u
  | .inf s, .inf t, .inf u => if (s != t) = u then fltInf u else fltNaN
  | .inf s, .inf t, .fin _ _ _ => fltInf (s != t)
  | .inf s, .fin t n _, .inf u => if n = 0 then fltNaN else if (s != t) = u then fltInf u else fltNaN
  | .inf s, .fin t n _, .fin _ _ _ => if n = 0 then fltNaN else fltInf (s != t)
  | .fin s m _, .inf t, .inf u => if m = 0 then fltNaN else if (s != t) = u then fltInf u else fltNaN
  | .fin s m _, .inf t, .fin _ _ _ => if m = 0 then fltNaN else fltInf (s != t)

/-- a / b. -/
def fltDiv (mode : BitVec 3) (a b : Flt) : Word64 :=
  match a, b with
  | .nan, _ => fltNaN
  | _, .nan => fltNaN
  | .inf _, .inf _ => fltNaN
  | .inf s, .fin t _ _ => fltInf (s != t)
  | .fin s _ _, .inf t => fltZero (s != t)
  | .fin s m x, .fin t n y =>
    if n = 0 then (if m = 0 then fltNaN else fltInf (s != t))
    else
      let num := m * 2 ^ 120
      fltRound mode (s != t) (num / n) ((x : Int) - y - 120) (num % n != 0)

/-- Integer square root of a number below 4^bits, from the top bit down. -/
def isqrt (n : Nat) : Nat → Nat → Nat
  | 0, r => r
  | b + 1, r => isqrt n b (if (r + 2 ^ b) * (r + 2 ^ b) ≤ n then r + 2 ^ b else r)

/-- The square root. -/
def fltSqrt (mode : BitVec 3) (a : Flt) : Word64 :=
  match a with
  | .nan => fltNaN
  | .inf s => if s then fltNaN else fltInf false
  | .fin s m x =>
    if m = 0 then fltZero s
    else if s then fltNaN
    else
      let e : Int := (x : Int) - 1074
      let odd := b2n (x % 2 == 1)
      let n := m * 2 ^ (120 + odd)
      let r := isqrt n 90 0
      fltRound mode false r ((e - 120 - odd) / 2) (r * r != n)

/-- The exact remainder a - b x trunc(a / b), with the sign of the dividend (05 R162). -/
def fltRem (a b : Flt) : Word64 :=
  match a, b with
  | .nan, _ => fltNaN
  | _, .nan => fltNaN
  | .inf _, _ => fltNaN
  | .fin s m x, .inf _ => fltRound 2 s m ((x : Int) - 1074) false
  | .fin s m x, .fin _ n y =>
    if n = 0 then fltNaN
    else
      let r := m * 2 ^ x % (n * 2 ^ y)
      if r = 0 then fltZero s else fltRound 2 s r (-1074) false

/-- Exact comparison of values scaled by 2^1074; 2 stands for a NaN (05 R163). -/
def ordInt (o : Ordering) : Int := match o with
  | .lt => -1
  | .eq => 0
  | .gt => 1

/-- The value of a binary64, for comparison: none for a NaN; infinities stand beyond every finite value. -/
inductive Ext where
  | ninf
  | val (v : Int)
  | pinf
  deriving DecidableEq, Repr

/-- Scaled value of a binary64. -/
def Flt.ext : Flt → Option Ext
  | .nan => none
  | .inf s => some (if s then .ninf else .pinf)
  | .fin s m x => some (.val (fltScaled s m x))

/-- Order of extended values. -/
def Ext.cmp : Ext → Ext → Ordering
  | .ninf, .ninf => .eq
  | .ninf, _ => .lt
  | _, .ninf => .gt
  | .pinf, .pinf => .eq
  | .pinf, _ => .gt
  | _, .pinf => .lt
  | .val a, .val b => compare a b

/-- The result of CMP on extended values (05 R163). -/
def cmpExt (a b : Option Ext) : Int :=
  match a, b with
  | some x, some y => ordInt (x.cmp y)
  | _, _ => 2

/-- A binary64 rounded to an integer under the mode; none for a NaN or an infinity (05 R160). -/
def fltToInt (mode : BitVec 3) (a : Flt) : Option (Bool × Nat) :=
  match a with
  | .fin s m x => some (s, roundDiv mode s (m * 2 ^ x) (2 ^ 1074))
  | _ => none

/-- An integer rounded to binary64 (05 R160). -/
def fltOfInt (mode : BitVec 3) (v : Int) : Word64 := fltOfScaled mode v 0 false

end Sys2Proof.Machine
end

