-- ==== Sys2Proof/Machine/Operands.lean ====
section
/-! DEFINITION. What an instruction carries and what is checked at issue before its own entry: prefixes, encoding faults,
privilege, operand tags and poison, displacement targets and address forms (04 R114 to R138, 05 R141). -/

namespace Sys2Proof.Machine

/-! ### Faults -/

/-- A synchronous fault: its vector of 08 Table 8-5 and the detail of Table 8-6. -/
structure SFault where
  vec : Byte
  cause : Byte
  opnd : Byte
  info : BitVec 32
  deriving DecidableEq, Repr

/-- ENCODING (08 Table 8-6): the item of R125 and the offset of the first offending byte. -/
def fEnc (item off : Nat) : SFault := ⟨0x01, BitVec.ofNat 8 item, 0, BitVec.ofNat 32 off⟩
/-- PRIVILEGE. -/
def fPriv (cause : Nat) : SFault := ⟨0x02, BitVec.ofNat 8 cause, 0, 0⟩
/-- OPERAND-STACK: 1 underflow, 2 overflow, with DEPTH at issue. -/
def fStk (cause depth : Nat) : SFault := ⟨0x03, BitVec.ofNat 8 cause, 0, BitVec.ofNat 32 depth⟩
/-- TAG of an operand, counted from the top as 0. -/
def fTag (opnd : Nat) : SFault := ⟨0x04, 1, BitVec.ofNat 8 opnd, 0⟩
/-- TAG of a target cell (2) or of a rate-table, record or frame cell (3). -/
def fTagCell (cause addr : Nat) : SFault := ⟨0x04, BitVec.ofNat 8 cause, 0, BitVec.ofNat 32 addr⟩
/-- POISON of an operand; INFO is the scratch address where the value was an address. -/
def fPsn (opnd info : Nat) : SFault := ⟨0x05, 0, BitVec.ofNat 8 opnd, BitVec.ofNat 32 info⟩
/-- KEY: 1 region, 2 guard, 3 code window, 4 key 0, 5 table region. -/
def fKey (cause info : Nat) (opnd : Nat := 0) : SFault := ⟨0x06, BitVec.ofNat 8 cause, BitVec.ofNat 8 opnd, BitVec.ofNat 32 info⟩
/-- SCRATCH-ADDRESS: 1 out of range, 2 misaligned, with A[31:0]. -/
def fAddr (cause : Nat) (a : Int) : SFault := ⟨0x07, BitVec.ofNat 8 cause, 0, BitVec.ofInt 32 a⟩
/-- ARITHMETIC: 1 not representable, 2 zero divisor, 3 conversion without result, 4 amount does not fit the pattern. -/
def fArith (cause : Nat) (opnd : Nat := 0) : SFault := ⟨0x08, BitVec.ofNat 8 cause, BitVec.ofNat 8 opnd, 0⟩
/-- DATA: 1 invalid DEC, 2 zoned byte, 3 descriptor, 4 other operand or field. -/
def fData (cause opnd : Nat) (info : Nat := 0) : SFault := ⟨0x09, BitVec.ofNat 8 cause, BitVec.ofNat 8 opnd, BitVec.ofNat 32 info⟩
/-- RETURN-STACK: 1 overflow, 2 underflow, 3 entry with V = 0; INFO is RSP. -/
def fRs (cause rsp : Nat) : SFault := ⟨0x0A, BitVec.ofNat 8 cause, 0, BitVec.ofNat 32 rsp⟩
/-- FRAME, with the scratch address concerned. -/
def fFrame (cause addr : Nat) : SFault := ⟨0x0B, BitVec.ofNat 8 cause, 0, BitVec.ofNat 32 addr⟩

/-- Refuse with a fault unless the condition holds. -/
def ensure (b : Bool) (f : SFault) : Except SFault Unit := if b then .ok () else .error f

/-! ### Prefixes (04 R117 to R121) -/

/-- A prefix byte with its offset, and its key byte when it is P.KEY. -/
structure PxItem where
  off : Nat
  b : Byte
  key : Option Byte
  deriving DecidableEq, Repr

/-- The prefixes in a run of raw bytes (04 R114, R119). -/
def pxItems : Nat → List Byte → List PxItem
  | _, [] => []
  | o, b :: bs =>
    if b = 0xF5 then
      match bs with
      | [] => [⟨o, b, none⟩]
      | k :: ks => ⟨o, b, some k⟩ :: pxItems (o + 2) ks
    else ⟨o, b, none⟩ :: pxItems (o + 1) bs

/-- The kind of a prefix: the six P.RND bytes are one kind (04 R120). -/
def pxKind (b : Byte) : Nat := if 0xF6 ≤ b.toNat ∧ b.toNat ≤ 0xFB then 0xF6 else b.toNat

/-- Whether a prefix of this byte is present. -/
def hasPx (px : List Byte) (b : Nat) : Bool := (pxItems 0 px).any fun i => pxKind i.b == b

/-- The mode a P.RND byte imposes (04 R118). -/
def pxRnd (px : List Byte) : Option (BitVec 3) :=
  ((pxItems 0 px).find? fun i => pxKind i.b == 0xF6).map fun i => BitVec.ofNat 3 (i.b.toNat - 0xF6)

/-- The alternate key of P.KEY (04 R119). -/
def pxKey (px : List Byte) : Option (BitVec 4) :=
  ((pxItems 0 px).find? fun i => i.b == 0xF5).bind fun i => i.key.map fun k => BitVec.ofNat 4 k.toNat

/-! ### The opcode maps (04 R115, R122) -/

/-- Runs of assigned opcodes: on the escape page, first opcode, and their mnemonics in opcode order (04 Table 4-3). -/
def opcodeMap : List (Bool × Nat × List String) :=
  [ (false, 0x00, ["NOP", "DUP", "DROP", "SWAP", "OVER", "ROT", "NIP", "TUCK", "PICK", "DUP2", "DROP2"]),
    (false, 0x10, List.replicate 16 "LDL"), (false, 0x20, List.replicate 16 "STL"),
    (false, 0x30, ["PUSHI_S", "PUSHI_L", "PUSHD", "PUSHFP", "PUSHA", "PUSHTRUE", "PUSHFALSE", "PUSHNIL"]),
    (false, 0x40, ["ADD", "SUB", "MUL", "DIV", "REM", "CMP", "NEG", "ABS", "MULI", "AND", "OR", "XOR", "NOT", "SHL", "SHR", "SAR"]),
    (false, 0x50, ["FADD", "FSUB", "FMUL", "FMA", "FDIV", "FSQRT"]),
    (false, 0x60, ["DMUL", "DDIV", "DSHL", "DSHR", "DRND", "PACK", "UNPK", "DCMP"]),
    (false, 0x70, ["TAGOF", "CVTI", "CVTD", "CVTF"]),
    (false, 0x80, ["BR", "BR", "BRZ", "BRZ", "BRNZ", "BRNZ", "BRT", "BRT", "CALL", "RET", "CALLM", "RETM", "RETI", "CALLX"]),
    (false, 0x90, ["LD", "LDS", "LDF", "ST"]),
    (false, 0xA0, ["RLD", "RST", "RLOCK", "RPREF", "COMMIT", "ABORT", "STAGE"]), (false, 0xA8, ["WAITEV", "SIGEV", "YIELD"]),
    (false, 0xB0, ["MVST", "MVTR", "CMST", "SCST", "EDIT", "EDMK", "TLI"]),
    (true, 0x00, ["SETRM", "RDPSW", "SETM", "SETKEY", "SETFP", "SETG", "CLRG"]), (true, 0x10, ["XADD", "XCHG", "CAS"]) ]

/-- The mnemonic of an opcode byte on its page; none for a reserved one (04 R115, R122). -/
def opcodeName (esc : Bool) (op : Nat) : Option String :=
  opcodeMap.findSome? fun r => if r.1 == esc && decide (r.2.1 ≤ op) then r.2.2[op - r.2.1]? else none

/-- The offset of a reserved opcode byte that stands after the prefixes in place of the command's own opcode: a command of any engine
family then stands for the issue of that opcode (04 R115; log 61). -/
def reservedAt (px : List Byte) : Option Nat :=
  match (pxItems 0 px).find? fun i => i.b.toNat < 0xF0 || i.b == 0xFF with
  | none => none
  | some i =>
    if i.b == 0xFF then
      match (px.drop (i.off + 1)).head? with
      | some b => if (opcodeName true b.toNat).isNone then some (i.off + 1) else none
      | none => none
    else if (opcodeName false i.b.toNat).isNone then some i.off else none

/-! ### What the opcode maps say of an instruction (03 R106, 04 Tables 4-1, 4-3) -/

/-- Opcode facts: on the escape page; immediate bytes and whether marked W; prefixes allowed; refused in a delay slot; only
at PL0 and PL1; cells popped and pushed (05 R142); how many of the top cells are read (08 R271). -/
structure OpInfo where
  esc : Bool := false
  imm : Nat := 0
  wmark : Bool := false
  cvt : Bool := false
  sat : Bool := false
  lock : Bool := false
  key : Bool := false
  rnd : Bool := false
  delayBad : Bool := false
  priv : Bool := false
  pops : Nat := 0
  pushes : Nat := 0
  reads : Nat := 0
  readsLocals : List Nat := []
  readsRs : Bool := false
  /-- Offset in the immediate of a reserved field or value that is set (04 R125 item 7). -/
  badField : Option Nat := none
  /-- Signed displacement and the offset of its first byte in the immediate (04 R124). -/
  disp : Option (Int × Nat) := none
  deriving DecidableEq, Repr

/-- Immediate bytes, P.WIDE included (04 R123). -/
def OpInfo.immLen (o : OpInfo) (px : List Byte) : Nat := if o.wmark && hasPx px 0xF0 then 2 * o.imm else o.imm

/-- Length of the instruction (04 R114). -/
def OpInfo.len (o : OpInfo) (px : List Byte) : Nat := px.length + b2n o.esc + 1 + o.immLen px

/-- Offset of the immediate. -/
def OpInfo.immOff (o : OpInfo) (px : List Byte) : Nat := px.length + b2n o.esc + 1

/-- Table 4-1 allows the prefix on the opcode; P.WIDE is judged by item 6 of R125 alone. -/
def OpInfo.allows (o : OpInfo) (kind : Nat) : Bool :=
  match kind with
  | 0xF0 => true
  | 0xF1 => o.cvt
  | 0xF2 => true
  | 0xF3 => o.sat
  | 0xF4 => o.lock
  | 0xF5 => o.key
  | 0xF6 => o.rnd
  | _ => true

/-- The first prefix whose kind has stood before (04 R125 item 2). -/
def pxDup : List Nat → List PxItem → Option Nat
  | _, [] => none
  | seen, i :: t => if seen.contains (pxKind i.b) then some i.off else pxDup (pxKind i.b :: seen) t

/-- Target of a displacement, counted from the byte after the instruction (04 R124). -/
def OpInfo.target (o : OpInfo) (px : List Byte) (pc : Nat) : Int :=
  (pc + o.len px : Nat) + (match o.disp with | some d => d.1 | none => 0)

/-- The lowest item of R125 that fails, with the offset of the first offending byte (log 13). -/
def OpInfo.encFault (o : OpInfo) (px : List Byte) (pc : Nat) (inSlot : Bool) : Option SFault :=
  let is := (pxItems 0 px).takeWhile fun i => 0xF0 ≤ i.b.toNat && i.b != 0xFF
  let o := if (reservedAt px).isSome then {} else o
  match is.find? fun i => 0xFC ≤ i.b.toNat with
  | some i => some (fEnc 1 i.off)
  | none =>
  match pxDup [] is with
  | some off => some (fEnc 2 off)
  | none =>
  match is.find? fun i => !o.allows (pxKind i.b) with
  | some i => some (fEnc 3 i.off)
  | none =>
  match reservedAt px with
  | some off => some (fEnc 4 off)
  | none =>
  if 20 < o.len px then some (fEnc 5 20)
  else
  match is.find? fun i => i.b == 0xF0 && !o.wmark with
  | some i => some (fEnc 6 i.off)
  | none =>
  match is.find? fun i => match i.key with | some k => decide (16 ≤ k.toNat) | none => false with
  | some i => some (fEnc 7 (i.off + 1))
  | none =>
  match o.badField with
  | some off => some (fEnc 7 (o.immOff px + off))
  | none =>
  if inSlot && o.delayBad then some (fEnc 8 (px.length + b2n o.esc))
  else
  match o.disp with
  | some d =>
    if o.target px pc < 0 || 0x7FFFF < o.target px pc then some (fEnc 9 (o.immOff px + d.2))
    else if 0x80000 < pc + o.len px then some (fEnc 10 (0x80000 - pc)) else none
  | none => if 0x80000 < pc + o.len px then some (fEnc 10 (0x80000 - pc)) else none

/-- Privilege of the opcode and of its prefixes (04 R126), then key 0 in P.KEY (R119). -/
def OpInfo.privFault (o : OpInfo) (px : List Byte) (pc : Nat) (pl : Nat) : Option SFault :=
  if o.priv && 2 ≤ pl then some (fPriv 1)
  else if hasPx px 0xF2 && 2 ≤ pl then some (fPriv 2)
  else if hasPx px 0xF5 && pl != 1 then some (fPriv 2)
  else if pxKey px == some 0 then some (fKey 4 pc)
  else none

/-- Operand stack (03 R88). -/
def OpInfo.stkFault (o : OpInfo) (c : Ctx) : Option SFault :=
  if c.depth.toNat < o.pops then some (fStk 1 c.depth.toNat)
  else if c.capacity < c.depth.toNat - o.pops + o.pushes then some (fStk 2 c.depth.toNat)
  else none

/-! ### The issue environment and its result -/

/-- What a meaning knows of its issue. -/
structure Env where
  px : List Byte
  n : CtxId
  pc : Nat
  next : Nat
  pl : Nat
  /-- P.NOCHK in force (03 R82). -/
  nochk : Bool
  /-- Rounding mode: P.RND, else PSW.RM (04 R118, 06 R202). -/
  rm : BitVec 3
  sat : Bool
  cvt : Bool
  lockPx : Bool
  deriving DecidableEq, Repr

/-- An instruction that passes its checks: its count, the iterative unit it uses, whether R71 lets it be abandoned, and the
engine and the context after it. -/
structure Done where
  count : Nat
  unit : Option IterUnit := none
  aband : Bool := false
  eng : Engine
  ctx : Ctx

/-- Tag check of operands, nearest the top first (03 R82; log 13): a malformed cell always faults; P.NOCHK suppresses the
instruction's own rule. -/
def tagCheck (nochk : Bool) : List (Nat × Cell × Bool) → Except SFault Unit
  | [] => .ok ()
  | (i, c, ok) :: t => if c.wellFormed && (ok || nochk) then tagCheck nochk t else .error (fTag i)

/-- The cell is an INT. -/
def Cell.isInt (c : Cell) : Bool := c.ty = tyINT
/-- The cell is a REF of a legal SUB. -/
def Cell.isRef (c : Cell) : Bool := c.ty = tyREF

/-! ### Address forms (04 R129 to R132) -/

/-- Width in bytes of WIDTH 0 to 5; a full cell counts 16. -/
def formWidth (f : Byte) : Nat :=
  match bits f 2 0 with
  | 0 => 1 | 1 => 2 | 2 => 4 | 3 => 8 | _ => 16

/-- MODE: 0 plain, 1 .PI, 2 .PD, 3 .X. -/
def formMode (f : Byte) : Nat := bits f 4 3

/-- Scale of .X. -/
def formScale (f : Byte) : Nat := 2 ^ bits f 7 5

/-- A form with reserved fields or values, or one that Table 4-6 does not give the instruction. -/
def formBad (f : Byte) (widths modes : List Nat) : Bool :=
  let w := bits f 2 0
  let m := formMode f
  let sc := bits f 7 5
  !(widths.contains w) || !(modes.contains m) || (if m = 3 then decide (4 < sc) else sc != 0)

/-- The accessed address (04 R131). -/
def formAddr (f : Byte) (a i : Int) : Int :=
  match formMode f with
  | 2 => a - formWidth f
  | 3 => a + i * formScale f
  | _ => a

/-- The INT pushed under .PI and .PD (04 R132). -/
def formNext (f : Byte) (a : Int) : Int := if formMode f = 1 then a + formWidth f else a - formWidth f

/-- Range and alignment (04 R131). -/
def addrCheck (w : Nat) (a : Int) : Except SFault Unit :=
  if a < 0 || (0x3FFFF : Int) - (w - 1) < a then .error (fAddr 1 a)
  else if a % w ≠ 0 then .error (fAddr 2 a)
  else .ok ()

/-- A store of x at its width (04 R135 to R137). -/
def storeAt (e : Engine) (f : Byte) (a : Nat) (x : Cell) : Engine :=
  match bits f 2 0 with
  | 5 => e.storeCell (a / 16) x
  | 4 => e.storeCell (a / 16) (cellDec (decStorage x.pay) x.p)
  | _ => e.storeNarrow (a / 16) (a % 16) ((bytesOfPay x.pay).take (formWidth f)) x.p

/-- The write of a read-modify-write instruction reaches its cell in the cycle after its read (04 R139). -/
def Engine.finishRmw (e : Engine) (n : CtxId) : Engine :=
  match (e.ctx n).rmw with
  | some (f, a, x) => let g := storeAt e f a x; g.setCtx n { g.ctx n with rmw := none }
  | none => e

end Sys2Proof.Machine
end

