-- ==== Sys2Proof/Machine/Vectoring.lean ====
section
/-! DEFINITION. Taking an exception and returning from one: the vector table, the entry record, escalation, the rescue path,
quarantine, default actions (08 R244 to R271) and RETI (08 R268, R269). -/

namespace Sys2Proof.Machine

/-- A fault or event on its way into vectoring; `level` is none for a synchronous fault (08 Table 8-5). -/
structure XEvent where
  vec : Byte
  status : Byte
  cause : Byte
  opnd : Byte
  info : BitVec 32
  level : Option Nat
  deriving DecidableEq, Repr

/-- STATUS of a synchronous fault's vector (08 Table 8-5). -/
def vecStatus (vec : Byte) : Byte :=
  match vec.toNat with
  | 0x02 => 0x05
  | 0x04 => 0x06
  | 0x05 => 0x04
  | 0x06 => 0x05
  | _ => 0x07

/-- The event of a synchronous fault. -/
def SFault.event (f : SFault) : XEvent := ⟨f.vec, vecStatus f.vec, f.cause, f.opnd, f.info, none⟩

/-- The ERR payload of an event (08 R254). -/
def XEvent.pay (v : XEvent) : Payload :=
  BitVec.ofNat 128 (v.status.toNat + 2 ^ 8 * v.vec.toNat + 2 ^ 16 * v.cause.toNat + 2 ^ 24 * v.opnd.toNat +
    2 ^ 32 * v.info.toNat)

/-- The ERR cell pushed to the handler (08 R254). -/
def XEvent.cell (v : XEvent) : Cell := { ty := tyERR, sub := 0, p := false, g := false, pay := v.pay }

/-- ENG_XSTn of an event: VECTOR in [7:0], STATUS in [15:8] (08 Table 8-7). -/
def XEvent.xst (v : XEvent) : Word64 :=
  BitVec.ofNat 64 (v.vec.toNat + 2 ^ 8 * v.status.toNat + 2 ^ 16 * v.cause.toNat + 2 ^ 24 * v.opnd.toNat +
    2 ^ 32 * v.info.toNat)

/-- A vector whose level class is 7 by its vector: 0x18 to 0x1B (08 Table 8-2). -/
def topVec (v : Byte) : Bool := decide (0x18 ≤ v.toNat) && decide (v.toNat ≤ 0x1B)

/-! ### The vector table (08 R248, R249) -/

/-- A vector descriptor (08 Table 8-2). -/
structure Descr where
  handler : BitVec 19
  v : Bool
  pl : BitVec 2
  m : BitVec 3
  nkey : Bool
  keyv : BitVec 4
  rsa : BitVec 18
  osb : BitVec 18
  osl : BitVec 18
  /-- Neither cell has P = 1. -/
  clean : Bool
  /-- Every reserved field is 0. -/
  rsv0 : Bool
  deriving DecidableEq, Repr

/-- Address of entry `v`. -/
def Engine.vecAddr (e : Engine) (v : Byte) : Nat := e.swinLo + 32 * v.toNat

/-- Entry `v` of the table; beyond the window it reads as V = 0 (08 R248). -/
def Engine.descr (e : Engine) (v : Byte) : Descr :=
  let a := e.vecAddr v
  if e.swinHi < a + 32 then
    { handler := 0, v := false, pl := 0, m := 0, nkey := false, keyv := 0, rsa := 0, osb := 0, osl := 0, clean := true,
      rsv0 := true }
  else
    let c0 := e.cell (a / 16)
    let c1 := e.cell (a / 16 + 1)
    { handler := c0.pay.extractLsb' 0 19, v := bit c0.pay 19, pl := c0.pay.extractLsb' 20 2,
      m := c0.pay.extractLsb' 22 3, nkey := bit c0.pay 25, keyv := c0.pay.extractLsb' 28 4,
      rsa := c0.pay.extractLsb' 32 18, osb := c1.pay.extractLsb' 0 18, osl := c1.pay.extractLsb' 18 18,
      clean := !c0.p && !c1.p,
      rsv0 := bits c0.pay 27 26 == 0 && bits c0.pay 127 50 == 0 && bits c1.pay 127 36 == 0 }

/-- The reads of an entry meet the latent errors of its two cells. -/
def Engine.meetDescr (e : Engine) (v : Byte) : Engine :=
  if e.swinHi < e.vecAddr v + 32 then e else (e.meet (e.vecAddr v / 16)).meet (e.vecAddr v / 16 + 1)

/-- The numerically smaller PL (08 R243). -/
def plMin (a b : BitVec 2) : BitVec 2 := if a.toNat ≤ b.toNat then a else b

/-- The interrupted stack lies within the descriptor's: the handler runs above it (08 R251). -/
def handlerStack (d : Descr) (c : Ctx) : Nat × BitVec 18 :=
  if d.osb.toNat ≤ c.osb.toNat ∧ c.osb.toNat < boundOf d.osb d.osl then (c.osb.toNat + 16 * c.depth.toNat, c.osl)
  else (d.osb.toNat, d.osl)

/-- Where the entry record goes (08 R252). -/
def recordAddr (d : Descr) (c : Ctx) : Nat :=
  if c.xd = 0 ∨ c.xr.toNat < d.rsa.toNat ∨ d.rsa.toNat + 1023 < c.xr.toNat then d.rsa.toNat else c.xr.toNat + 256

/-- The first item of R249 that an entry with V = 1 fails; `full` asks for items 5 to 7 as well (08 R249, R258). -/
def Engine.descrFail (e : Engine) (c : Ctx) (vec : Byte) (d : Descr) (full : Bool) : Option Nat :=
  let pl := (plMin d.pl c.psw.pl).toNat
  let st := handlerStack d c
  let x := recordAddr d c
  if !d.clean then some 1
  else if !d.rsv0 || 2 ≤ d.pl.toNat || (d.m = 7 && !topVec vec) then some 2
  else if d.pl = 0 && e.assigned then some 3
  else if d.nkey && pl = 1 && d.keyv = 0 then some 4
  else if !full then none
  else if scratchEnd ≤ st.1 || !e.stackValid pl (BitVec.ofNat 18 st.1) st.2 then some 5
  else if !e.open? pl x 256 || x % 16 ≠ 0 || d.rsa.toNat + 1024 < x + 256 || scratchEnd < x + 256 ||
      overlaps x 256 st.1 (boundOf (BitVec.ofNat 18 st.1) st.2) then some 6
  else if 4 ≤ c.xd.toNat then some 7
  else none

/-! ### The entry record (08 R253, Table 8-3) -/

/-- An INT cell of a record: a 64-bit image, payload[127:64] = 0. -/
def imgCell (v : Nat) : Cell := { ty := tyINT, sub := 0, p := false, g := false, pay := (BitVec.ofNat 64 v).setWidth 128 }

/-- An entry of the return stack as the record holds it. -/
def RsEntry.img (r : RsEntry) : Nat := r.addr.toNat + 2 ^ 31 * b2n r.v

/-- Cell 0, STATE. -/
def recState (c : Ctx) (why : BitVec 4) : Nat :=
  c.pc.toNat + c.rsp.toNat * 2 ^ 43 + c.rsc.toNat * 2 ^ 47 + why.toNat * 2 ^ 39 +
    match c.pb with
    | none => 0
    | some b => 2 ^ 19 + (if b.nt then 0 else b.addr.toNat * 2 ^ 20) + 2 ^ 52 * b2n b.nt + 2 ^ 53 * b2n b.ann

/-- The 16 cells of the entry record; `why` is the saved WHY. -/
def entryRecord (e : Engine) (c : Ctx) (why : BitVec 4) (err : Cell) (rescue dfrec : Bool) : List Cell :=
  [ imgCell (recState c why),
    imgCell (pswWord e c.psw).toNat,
    imgCell (c.osb.toNat + 2 ^ 18 * c.osl.toNat + 2 ^ 36 * c.depth.toNat),
    imgCell (c.fp.toNat + 2 ^ 18 * (c.fl.toNat % 2 ^ 18) + 2 ^ 36 * c.fbase.toNat),
    imgCell (c.xr.toNat + 2 ^ 18 * c.xd.toNat + 2 ^ 21 * b2n rescue + 2 ^ 22 * b2n dfrec) ] ++
  ((List.range 8).map fun i => imgCell ((c.rse (2 * i)).img + 2 ^ 32 * (c.rse (2 * i + 1)).img)) ++
  [err, Cell.nil, Cell.nil]

/-- Write consecutive cells past the store buffer. -/
def Engine.writeCells (e : Engine) : Nat → List Cell → Engine
  | _, [] => e
  | k, c :: cs => (e.writeThrough k c).writeCells (k + 1) cs

/-! ### Vectoring -/

/-- What vectoring came to. -/
inductive VOut where
  /-- The handler starts. -/
  | entered
  /-- The default action End, with the status and the ERR payload, that of an escalation where there was one (08 R262). -/
  | ended (status : Byte) (err : Word64)
  /-- The default action of a NOTICE: discarded. -/
  | discarded
  /-- The context is quarantined (08 R260). -/
  | quarantined
  deriving DecidableEq, Repr

/-- Quarantine: nothing is written to scratch, pending events are discarded (08 R260). -/
def quarantine (c : Ctx) (qcause : BitVec 3) (v : XEvent) : Ctx :=
  { c with
    state := .quarantined, left := 0, qcause := qcause, xst := v.xst, wait := none, savedWait := none, undo := none,
    notices := [], evd := none, mcheck := none, wdp := none }

/-- The wait that stays recorded across a handler: a live wait is saved (08 R264). -/
def Ctx.saveWait (c : Ctx) : Ctx :=
  match c.wait with
  | none => c
  | some w => { c with savedWait := some w, wait := none }

/-- WHY as the entry record saves it: that of a live wait, else that of a wait already saved by an outer handler is not
repeated (08 R264, log 14). -/
def Ctx.whyNow (c : Ctx) : BitVec 4 := match c.wait with | some w => w.why | none => 0

/-- The event is a MACHINE-CHECK, or the rescue of its entry: its taking ends the damage (08 R271). -/
def XEvent.forMcheck (v : XEvent) : Bool := v.vec == 0x18 || (v.vec == 0x1A && v.opnd == 0x18)

/-- Damage that vectoring neither reads nor overwrites: locals and microcode (08 R250, R271). -/
def damageOutlives : Damage → Bool
  | .rse _ => false
  | .win _ => false
  | _ => true

/-- Whether vectoring would read damaged private state of the context: the return stack and the window (08 R271). -/
def Ctx.vectorReads (c : Ctx) (vec : Byte) : Bool := vec != 0x18 && c.damaged.any fun d => !damageOutlives d

/-- Enter a handler: spill, write the record at `x`, load the handler's stack and PSW, push `err` (08 R250). -/
def enterHandler (e : Engine) (n : CtxId) (c : Ctx) (d : Descr) (v : XEvent) (m : BitVec 3) (x : Nat)
    (osb osl : BitVec 18) (rescue : Bool) (count : Nat) : Engine :=
  let dfrec := v.vec == 0x1B && !rescue
  let s := spillAll 16 e c
  let e1 := s.1.writeCells (x / 16) (entryRecord e c c.whyNow v.cell rescue dfrec)
  let c1 := (s.2).saveWait
  e1.setCtx n
    { c1 with
      state := .busy, left := BitVec.ofNat 8 (count - 1)
      psw := { c.psw with pl := plMin d.pl c.psw.pl, m := m, key := if d.nkey then d.keyv else c.psw.key, eh := true }
      ehLeft := 4
      osb := osb, osl := osl, depth := 1, win := [v.cell]
      rs := [], rsp := 0, rsc := 0, pc := d.handler, pb := none
      xr := BitVec.ofNat 18 x, xd := c.xd + 1, df := c.df || dfrec, rescue := c.rescue || rescue
      xst := v.xst, undo := none, damaged := if v.forMcheck then [] else c.damaged.filter damageOutlives }

/-- The rescue path (08 R258): `orig` is the event whose entry failed item `item`. -/
def rescuePath (e : Engine) (n : CtxId) (c : Ctx) (orig : XEvent) (item : Nat) : Engine × VOut :=
  let v : XEvent := ⟨0x1A, orig.status, BitVec.ofNat 8 item, orig.vec, orig.pay.extractLsb' 0 32, some 7⟩
  if c.rescue then (e.setCtx n (quarantine c 2 orig), .quarantined)
  else
    let d := e.descr 0x1A
    if !d.v || (e.descrFail c 0x1A d false).isSome then ((e.meetDescr 0x1A).setCtx n (quarantine c 3 orig), .quarantined)
    else if c.vectorReads orig.vec then (e.setCtx n (quarantine c 4 orig), .quarantined)
    else
      let base := rescueBase + 1024 * n.val
      (enterHandler (e.meetDescr 0x1A) n c d v 7 base (BitVec.ofNat 18 (base + 256)) (BitVec.ofNat 18 (base + 1024)) true 16,
        .entered)

/-- The default action of Table 8-5 for an entry with V = 0 (08 R262). -/
def defaultAction (e : Engine) (n : CtxId) (c : Ctx) (v : XEvent) : Engine × VOut :=
  let c1 := { c with state := .busy, left := 11, xst := v.xst }
  if 0x11 ≤ v.vec.toNat ∧ v.vec.toNat ≤ 0x15 then (e.setCtx n c1, .discarded)
  else (e.setCtx n { c1 with ending := true, wait := none, savedWait := none }, .ended v.status (v.pay.extractLsb' 0 64))

/-- Mask level of the handler (08 R250). -/
def handlerMask (d : Descr) (c : Ctx) (v : XEvent) : BitVec 3 :=
  if topVec v.vec then 7
  else
    match v.level with
    | some l => if d.m.toNat ≤ l then BitVec.ofNat 3 l else d.m
    | none => if d.m.toNat ≤ c.psw.m.toNat then c.psw.m else d.m

/-- Escalation to DOUBLE-FAULT (08 R257). -/
def escalate (v : XEvent) : XEvent := ⟨0x1B, v.status, v.cause, v.vec, v.info, none⟩

/-- Take a fault or an event (08 R250). -/
def vectorTo (e : Engine) (n : CtxId) (v0 : XEvent) : Engine × VOut :=
  let c := e.ctx n
  let esc := v0.level.isNone && (c.psw.m == 7 || c.psw.eh)
  if esc && c.df then (e.setCtx n (quarantine c 1 v0), .quarantined)
  else
    let v := if esc then escalate v0 else v0
    let d := e.descr v.vec
    let e1 := e.meetDescr v.vec
    if !d.v then defaultAction e1 n c v
    else
      match e.descrFail c v.vec d true with
      | some item => rescuePath e1 n c v item
      | none =>
        if c.vectorReads v0.vec then (e.setCtx n (quarantine c 4 v0), .quarantined) else
        let st := handlerStack d c
        (enterHandler e1 n c d v (handlerMask d c v) (recordAddr d c) (BitVec.ofNat 18 st.1) st.2 false 12, .entered)

/-! ### Pending events (08 R244, R245) -/

/-- The pending event of highest level; at level 7 MACHINE-CHECK comes first (08 R245). -/
def Ctx.pendingEvent (c : Ctx) : Option (Nat × XEvent) :=
  match c.mcheck with
  | some (cause, info) => some (7, ⟨0x18, 0x04, cause, 0, info, some 7⟩)
  | none =>
  match c.wdp with
  | some t => some (7, ⟨0x19, 0x03, 0, 0, t, some 7⟩)
  | none =>
  match c.evd with
  | some (cause, ep) => some (6, ⟨0x16, 0x0A, cause, 0, ep, some 6⟩)
  | none =>
    ([5, 4, 3, 2, 1] : List Nat).findSome? fun l =>
      (tget none c.notices l).map fun (w : Notice) =>
        (l, (⟨BitVec.ofNat 8 (0x10 + l), 0, w.kind, 0, w.word, some l⟩ : XEvent))

/-- Remove the event taken. -/
def Ctx.dropEvent (c : Ctx) (l : Nat) (vec : Byte) : Ctx :=
  if vec = 0x18 then { c with mcheck := none }
  else if vec = 0x19 then { c with wdp := none, wdog := 0 }
  else if vec = 0x16 then { c with evd := none }
  else { c with notices := tset none c.notices l none }

/-- Whether an event of the level may be taken now (08 R244, R265). -/
def Ctx.canTake (c : Ctx) (l : Nat) : Bool :=
  decide (c.psw.m.toNat < l) && !c.psw.eh && c.pb.isNone && !c.ending &&
    (c.state == .ready || c.state == .busy || c.state == .held || (c.state == .wait && c.whyNow != 4))

/-- The event the context takes at its next boundary (08 R244, R245). -/
def Ctx.takable (c : Ctx) : Option (Nat × XEvent) :=
  match c.pendingEvent with
  | some (l, v) => if c.canTake l then some (l, v) else none
  | none => none

/-! ### RETI (08 R268, R269) -/

/-- Fields of a record cell. -/
def Cell.fld (c : Cell) (hi lo : Nat) : Nat := bits c.pay hi lo

/-- The checks of item 2 of R268 on the 16 cells. -/
def recordShape (r : Nat → Cell) : Bool :=
  ((List.range 16).all fun i =>
    !(r i).p &&
      (if i = 13 then (r i).ty == tyERR else if 14 ≤ i then (r i).ty == tyNIL && (r i).pay == 0
       else (r i).ty == tyINT && (r i).fld 127 64 == 0)) &&
  (r 0).fld 63 54 == 0 && (r 2).fld 63 51 == 0 && (r 3).fld 63 54 == 0 && (r 4).fld 63 23 == 0 &&
  ((List.range 8).all fun i => (r (5 + i)).fld 30 19 == 0 && (r (5 + i)).fld 62 51 == 0) &&
  (r 13).fld 127 64 == 0 &&
  decide ((r 0).fld 42 39 ≤ 6) &&
  (bit (r 0).pay 19 || (!(bit (r 0).pay 52) && !(bit (r 0).pay 53))) &&
  (!(bit (r 0).pay 53) || bit (r 0).pay 52) && (!(bit (r 0).pay 52) || (r 0).fld 38 20 == 0) &&
  (r 1).fld 3 2 == 0 && (r 1).fld 15 15 == 0 && (r 1).fld 31 22 == 0 && (r 1).fld 63 48 == 0 &&
  (r 1).fld 1 0 != 3 && decide ((r 1).fld 14 12 ≤ 5)

/-- The checks of RETI in the order of R268. -/
def retiCheck (e : Engine) (c : Ctx) : Except SFault Unit := do
  ensure (1 ≤ c.xd.toNat) (fFrame 4 c.xr.toNat)
  let r := fun i => e.cell (c.xr.toNat / 16 + i)
  ensure (recordShape r) (fFrame 3 c.xr.toNat)
  let spl := (r 1).fld 1 0
  ensure (c.psw.pl.toNat ≤ spl && !(c.psw.pl.toNat == 1 && (r 1).fld 6 4 == 7)) (fPriv 5)
  ensure (!(c.psw.pl.toNat == 1 && (r 1).fld 11 8 == 0)) (fKey 4 c.xr.toNat)
  let osb := BitVec.ofNat 18 ((r 2).fld 17 0)
  let osl := BitVec.ofNat 18 ((r 2).fld 35 18)
  ensure ((r 0).fld 51 47 ≤ 16 && e.stackValid spl osb osl && decide ((r 2).fld 50 36 ≤ regionSize osb osl / 16))
    (fFrame 3 c.xr.toNat)

/-- A return-stack entry from its image. -/
def rsOfImg (v : Nat) : RsEntry := { v := v / 2 ^ 31 % 2 == 1, addr := BitVec.ofNat 19 v }

/-- FL from the 18 bits that a record or the context window holds: 0 above a frame base that is not 0 is the end of scratch (log 11). -/
def flOf (fl fbase : BitVec 18) : BitVec 19 := if fl = 0 ∧ fbase ≠ 0 then 0x40000 else fl.setWidth 19

/-- The context that RETI restores (08 R269): the record's fields, the window refilled, a saved wait resumed. -/
def retiCtx (e : Engine) (c : Ctx) : Ctx :=
  let r := fun i => e.cell (c.xr.toNat / 16 + i)
  let s0 := (r 0).pay
  let rsList := (List.range 8).flatMap fun i => [(r (5 + i)).fld 31 0, (r (5 + i)).fld 63 32]
  { c with
    pc := BitVec.ofNat 19 ((r 0).fld 18 0)
    pb := if bit s0 19 then some { nt := bit s0 52, ann := bit s0 53, addr := BitVec.ofNat 19 ((r 0).fld 38 20) } else none
    rsp := BitVec.ofNat 4 ((r 0).fld 46 43), rsc := BitVec.ofNat 5 ((r 0).fld 51 47)
    psw := { pl := BitVec.ofNat 2 ((r 1).fld 1 0), m := BitVec.ofNat 3 ((r 1).fld 6 4), eh := false,
             key := BitVec.ofNat 4 ((r 1).fld 11 8), rm := BitVec.ofNat 3 ((r 1).fld 14 12) }
    ehLeft := 0
    osb := BitVec.ofNat 18 ((r 2).fld 17 0), osl := BitVec.ofNat 18 ((r 2).fld 35 18)
    depth := BitVec.ofNat 15 ((r 2).fld 50 36), win := []
    fp := BitVec.ofNat 18 ((r 3).fld 17 0), fl := flOf (BitVec.ofNat 18 ((r 3).fld 35 18)) (BitVec.ofNat 18 ((r 3).fld 53 36))
    fbase := BitVec.ofNat 18 ((r 3).fld 53 36)
    xr := BitVec.ofNat 18 ((r 4).fld 17 0), xd := BitVec.ofNat 3 ((r 4).fld 20 18)
    rescue := c.rescue && !(bit (r 4).pay 21), df := c.df && !(bit (r 4).pay 22)
    rs := tsetRun RsEntry.empty [] 0 (rsList.map rsOfImg) }

end Sys2Proof.Machine
end

