-- ==== Sys2Proof/Machine/SlotOps.lean ====
section
/-! DEFINITION. Shared operations over slots and contexts: ending a transaction, freeing a context, error reports (10 R314,
R324, R327, R335; 08 R260). -/

namespace Sys2Proof.Machine

/-- Change one engine. -/
def State.modEng (s : State) (e : EngId) (f : Engine → Engine) : State := s.setEng e (f (s.eng e))

/-- Change one context. -/
def State.modCtx (s : State) (e : EngId) (n : CtxId) (f : Ctx → Ctx) : State :=
  s.modEng e fun g => g.setCtx n (f (g.ctx n))

/-- Change one cluster. -/
def State.modClu (s : State) (k : CluId) (f : Clu → Clu) : State := s.setClu k (f (s.clu k))

/-- Change one slot. -/
def State.modSlot (s : State) (n : SlotId) (f : Slot → Slot) : State := s.setSlot n (f (s.slot n))

/-- The cluster of an engine (00 R8). -/
def cluOf (e : EngId) : CluId := ⟨e.val / 8, by have := e.isLt; omega⟩

/-- Engine `w` of a cluster. -/
def engOf (k : CluId) (w : Fin 8) : EngId := ⟨8 * k.val + w.val, by have := k.isLt; have := w.isLt; omega⟩

/-- Add to a counter, saturating at all ones. -/
def satAdd {w : Nat} (v : BitVec w) (n : Nat) : BitVec w :=
  if 2 ^ w ≤ v.toNat + n then BitVec.allOnes w else v + BitVec.ofNat w n

/-- Staging blocks return to the pool; `cullet` counts them as cullet (10 R331, R335). -/
def Clu.giveBlocks (k : Clu) (n : Nat) (cullet : Bool) : Clu :=
  { k with
    stgFree := satAdd k.stgFree n
    stgCullet := if cullet then satAdd k.stgCullet n else k.stgCullet }

/-- A slot that may still end without a GCS (10 R314). -/
def Slot.endable (sl : Slot) : Bool :=
  match sl.state with
  | .admitted | .resident | .parking | .parked | .unparking | .sealing => !sl.sealed && sl.gcs.isNone
  | _ => false

/-- The status with which a transaction ends: the one detected first; a wound stands before what ends it afterwards (00 R15, 10 R327). -/
def Slot.fateOf (sl : Slot) (status : Byte) : Byte := sl.fate.getD (if sl.wound then 0x02 else status)

/-- The transaction ends as a wounded one. -/
def Slot.diesWounded (sl : Slot) (status : Byte) : Bool := sl.wound && sl.fateOf status == 0x02

/-- The slot after its transaction ends without a GCS: RESTARTING when it ends wounded with retries left, else ENDING (10 R324, R327,
R329, Table 10-6). -/
def Slot.ended (sl : Slot) (status : Byte) (x : Word64) : Slot :=
  { sl with
    state := if sl.diesWounded status && sl.retry != 0 then .restarting else .ending
    status := sl.fateOf status
    xword := if sl.fateOf status = status then x else 0
    fate := none
    releasing := true, unitsLeft := sl.mask
    checked := 0, total := 0, deltas := [], entries := 0, blocks := 0, staged := false, stgWait := false, pageWait := none, waitSince := none, throttled := false, runnable := false }

/-- Change one hedge. -/
def State.modHedge (s : State) (h : HedgeId) (f : Hedge → Hedge) : State := s.setHedge h (f (s.hedge h))

/-- The queued lock requests of a slot are withdrawn (10 R328). -/
def LockRec.withdraw (r : LockRec) (n : SlotId) : LockRec := { r with waiters := r.waiters.filter fun w => w.1 != n }

/-- The fill: entries in the ring and entries reserved (11). -/
def Lehr.fill (l : Lehr) : Nat := l.inRing + l.reserved

/-- A commit that waits under R362 does not fit (11 R360, R362). -/
def State.overfull (s : State) : Bool :=
  s.lehr.waiting.any fun n => (s.slot n).waitSince.isNone && decide (8192 < s.lehr.fill + (s.slot n).entries)

/-- FULL clears once no waiting commit needs it (11 R362). -/
def State.unfull (s : State) : State := { s with lehr := { s.lehr with full := s.lehr.full && s.overfull } }

/-- End a slot's transaction without a GCS: its staging blocks return as cullet, its queued requests and event waits are
withdrawn and releases go to its lock units; the slot leaves the commits that wait at step 5. -/
def State.endTxn (s : State) (n : SlotId) (status : Byte) (x : Word64) : State :=
  let sl := s.slot n
  if sl.endable then
    let s1 := (s.modClu sl.cluster fun k => k.giveBlocks sl.blocks true).setSlot n (sl.ended status x)
    let s2 := s1.modHedge sl.hedge fun h =>
      { h.stir with waitList := h.waitList.filter fun w => w.slot != n }
    State.unfull { s2 with
      locks := tmap LockRec.empty s2.locks fun r => r.withdraw n
      lehr := { s2.lehr with waiting := s2.lehr.waiting.filter fun m => m != n } }
  else s

/-- An ending is detected that takes effect later: its status stands (00 R15). -/
def Slot.doomed (sl : Slot) (status : Byte) : Slot := { sl with fate := some (sl.fateOf status) }

/-- A context becomes FREE (03 R62, 08 R259, R266). -/
def Ctx.freed (c : Ctx) : Ctx :=
  { c with
    state := .free, left := 0, wait := none, savedWait := none, pb := none, rescue := false, xd := 0, notices := [],
    evd := none, mcheck := none, wdp := none, undo := none, rmw := none, damaged := [], yielded := false, ending := false,
    psw := { c.psw with eh := false }, ehLeft := 0, soft := [] }

/-- An error is detected: the collector has it to write (16 R523). -/
def State.report (s : State) (r : ErrRec) : State := { s with errq := s.errq ++ [r] }

/-- UNIT of an error record: kind and index (16 Table 16-4). -/
def unitCode (kind idx : Nat) : BitVec 16 := BitVec.ofNat 16 (kind * 4096 + idx)

/-- ENG_XCTXn (08 Table 8-8). -/
def Ctx.xctx (c : Ctx) : Word64 :=
  BitVec.ofNat 64 (c.xr.toNat + 2 ^ 19 * c.xd.toNat + 2 ^ 22 * b2n c.df + 2 ^ 23 * b2n c.psw.eh + 2 ^ 24 * c.qcause.toNat)

/-- The CONTEXT record of a quarantine or a machine check (16 Table 16-5). -/
def contextRecord (s : State) (e : EngId) (c : Ctx) (cause : Byte) : ErrRec :=
  { tick := s.aoTick, cls := 0x02, sev := 1, unit := unitCode 0 e.val, status := c.xst.extractLsb' 8 8, cause := cause,
    hedge := if (s.eng e).assigned then some (s.eng e).hedge else none, addr := none, slot := some c.slot,
    detail := bytesOfNat 8 c.xst.toNat ++ bytesOfNat 8 c.xctx.toNat }

/-- MC_STATn (15 Table 15-7). -/
def Clu.mcStatWord (c : Clu) : Nat :=
  c.mcCe.toNat + 2 ^ 16 * c.mcUe.toNat + 2 ^ 32 * c.mcOvr.toNat + 2 ^ 48 * c.mcLast.toNat + 2 ^ 61 * b2n c.mcLastP

/-- The MICROCODE record of a cluster (16 Table 16-5). -/
def microcodeRecord (s : State) (k : CluId) : ErrRec :=
  { tick := s.aoTick, cls := 0x04, sev := 1, unit := unitCode 1 k.val, status := 0x04, cause := 0, hedge := none, addr := none, slot := none,
    detail := bytesOfNat 8 (s.clu k).mcStatWord }

/-- The CODERAM record of a cluster; the syndrome is private (16 Table 16-5; log 3). -/
def codeRecord (s : State) (k : CluId) : ErrRec :=
  { tick := s.aoTick, cls := 0x03, sev := 1, unit := unitCode 1 k.val, status := 0x04, cause := 0, hedge := none, addr := none, slot := none,
    detail := [Config.privateByte s.free 0] }

/-- Errors of scratch were met since `old`: the engine files a SCRATCH record for what it poisoned, and one for what it corrected; the
syndrome is private (16 R514, Table 16-5; log 3). -/
def State.scratchRecord (s old : State) (e : EngId) : State :=
  let g := s.eng e
  let r : ErrRec :=
    { tick := s.aoTick, cls := 0x01, sev := 1, unit := unitCode 0 e.val, status := 0x04, cause := 0, hedge := some g.hedge
      addr := some (BitVec.ofNat 64 (2 ^ 60 + 2 ^ 50 * (e.val % 8) + g.eccLast.toNat)), slot := none
      detail := [Config.privateByte s.free 0, Config.privateByte s.free 1] }
  let s1 := if g.sue = (old.eng e).sue then s else { s with free := s.free + 1 }.report r
  if g.sce = (old.eng e).sce then s1 else { s1 with free := s1.free + 1 }.report { r with sev := 0, status := 0, addr := none }

/-! ### Iterative units (03 R69, R70) -/

/-- The context that holds an iterative unit. -/
def Engine.unitOf (e : Engine) : IterUnit → Option CtxId
  | .divider => e.divider
  | .fdiv => e.fdiv
  | .ucode => e.ucode

/-- Give an iterative unit to a context or free it. -/
def Engine.setUnit (e : Engine) (u : IterUnit) (v : Option CtxId) : Engine :=
  match u with
  | .divider => { e with divider := v }
  | .fdiv => { e with fdiv := v }
  | .ucode => { e with ucode := v }

/-- The HELD context that R65 chooses among those that need the unit. -/
def Engine.nextHeld (e : Engine) (u : IterUnit) : Option CtxId :=
  ((List.finRange 32).map fun (i : Fin 32) => (⟨(e.lastCtx.val + 1 + i.val) % 32, Nat.mod_lt _ (by decide)⟩ : CtxId)).find?
    fun n => (e.ctx n).state == .held && (e.ctx n).heldOn == some u

/-- A unit that context `n` occupies frees, and is granted to the first HELD context that needs it. -/
def Engine.freeUnit (e : Engine) (n : CtxId) (u : IterUnit) : Engine :=
  if e.unitOf u = some n then
    match e.nextHeld u with
    | some m => (e.setUnit u (some m)).setCtx m { e.ctx m with state := .ready, heldOn := none }
    | none => e.setUnit u none
  else e

/-- Every unit that the context occupies frees. -/
def Engine.freeUnits (e : Engine) (n : CtxId) : Engine := ((e.freeUnit n .divider).freeUnit n .fdiv).freeUnit n .ucode

/-- The status with which a quarantined context's transaction ends: that of ENG_XSTn, or ABORTED when it is OK (08 R261). -/
def Ctx.quarantineStatus (c : Ctx) : Byte := let st : Byte := c.xst.extractLsb' 8 8; if st = 0 then 0x01 else st

/-- Vectoring of a context of an engine, with what the rest of the device learns of it (08 R250, R260, R262). -/
def State.vector (s : State) (e : EngId) (n : CtxId) (v : XEvent) : State :=
  let r := vectorTo ((s.eng e).freeUnits n) n v
  let s1 := (s.setEng e r.1).scratchRecord s e
  match r.2 with
  | .entered => s1
  | .discarded => s1
  | .ended status err =>
    let slot := ((s.eng e).ctx n).slot
    let s2 := s1.endTxn slot status 0
    if (s2.slot slot).state = .ending ∧ (s.slot slot).endable ∧ !(s.slot slot).wound then
      s2.modSlot slot fun sl => { sl with detail := err }
    else s2
  | .quarantined => (s1.modSlot (r.1.ctx n).slot fun sl => sl.doomed (r.1.ctx n).quarantineStatus).report
      (contextRecord s1 e (r.1.ctx n) (((r.1.ctx n).qcause).setWidth 8))

/-- The port's drive is in use: it was brought up, and its link has not gone down since (17 R538, 18 R576). -/
def State.portUp (s : State) (port : Nat) : Bool := (tget SPort.reset s.sports port).used

/-! ### Slow-path work of firmware (02 R52, R60; 15 R489) -/

/-- A predictor flush of core `c`: PFBUSY reads 1 while it runs, and PFCOUNT counts it (15 R489). -/
def State.flushCore (s : State) (c : Nat) : State :=
  { s with regs := { s.regs with
      pfbusy := s.regs.pfbusy ||| BitVec.ofNat 4 (2 ^ c), pfcount := tset 0 s.regs.pfcount c (satInc (tget 0 s.regs.pfcount c)) } }

/-- Work for a hedge with PFLUSH = 1 flushes the predictors of the core that does it, as the thread begins and as it ends; which core
that is is a free value, and the sibling thread runs nothing else, since each command is one piece of work (02 R60; log 57). -/
def State.flushFor (s : State) (h : HedgeId) : State :=
  if (s.hedge h).par.pflush then
    let c := (Config.freeValue 2 s.free).toNat
    { (s.flushCore c).flushCore c with free := s.free + 1 }
  else s

/-- A piece of slow-path work for a hedge: it waits while the bounce queue holds a message (02 R52, R60; log 57). -/
def State.slowPath (s : State) (h : HedgeId) (f : State → State) : State := if s.bounced.isEmpty then f (s.flushFor h) else s

/-- The cluster's mover is halted: parking and unparking wait (12 R412). -/
def State.cluHalted (s : State) (k : CluId) : Bool := (s.mover ⟨k.val, by have := k.isLt; omega⟩).errhalt

/-- Hardware channel `k` + its place of the mover of storage port `port` takes work: its mover is not halted, and it has been resumed (12 R411,
R412). Drain writes go by channels 0 to 7 and the pager's by 8 to 15, one for each port of the mover (log 75). -/
def State.hwOpen (s : State) (port k : Nat) : Bool :=
  let m : MovId := ⟨34 + port / 8 % 2, by omega⟩
  !(s.mover m).errhalt && (s.chan m ⟨(k + port % 8) % 64, Nat.mod_lt _ (by decide)⟩).state != .errHalt

/-- The first element of least key. -/
def leastBy {α : Type} (f : α → Nat) : List α → Option α
  | [] => none
  | a :: t => match leastBy f t with
    | some b => if f b < f a then some b else some a
    | none => some a

end Sys2Proof.Machine
end

