-- ==== Sys2Proof/Machine/Issue.lean ====
section
/-! DEFINITION. Issue of one instruction by one context: who issues (03 R65), the fetch (02 R41, 09 R296, 16 R521), the checks
in the order of 05 R141, iterative units (03 R69, R70), microcode (15 R501 to R503), and what every instruction does to its
context (03 R66, R87, R105 to R107; 08 R257). -/

namespace Sys2Proof.Machine

/-- The context issues or takes an event at its next turn (03 R65, 08 R244); one that firmware parks at this boundary does neither (05
R179). DESIGN CHOICE: between an event's arrival and its taking a HELD or WAIT context keeps its state, as 03 R68 and Table 3-1 say, where
R67 and 08 R244 call it READY from the next cycle (log 62). -/
def Ctx.wants (c : Ctx) : Bool :=
  !c.yielded && (c.state == .ready || ((c.state == .held || c.state == .wait) && c.takable.isSome))

/-- The context waits on an event alone. -/
def Ctx.eventWait (c : Ctx) : Bool :=
  match c.wait with
  | some ⟨_, .waitev .., _, _⟩ => true
  | _ => false

/-- The conditions of R315. -/
def Ctx.parkable (c : Ctx) (p : Prog) : Bool :=
  (c.state == .ready || (c.state == .wait && c.whyNow == 5 && c.eventWait)) && c.xd == 0 && c.savedWait.isNone && !c.ending &&
    decide (16 * c.depth.toNat + p.wsize ≤ 1088)

/-- The context that R65 chooses: the first one at or after the last issuer plus 1 (03 R65). -/
def Engine.nextIssue (e : Engine) : Option CtxId :=
  (List.finRange 32).map (fun (i : Fin 32) => (⟨(e.lastCtx.val + 1 + i.val) % 32, Nat.mod_lt _ (by decide)⟩ : CtxId))
    |>.find? fun n => (e.ctx n).wants

/-- The first address of an instruction that lies in a code region closed to the engine (02 R41, 09 R296). -/
def Engine.fetchClosed (e : Engine) (pc len : Nat) : Option Nat :=
  if !(bit e.itlb (pc / 32768)) then some pc
  else
    let last := pc + len - 1
    if last < 0x80000 && !(bit e.itlb (last / 32768)) then some (last / 32768 * 32768) else none

/-- The instruction's bytes are fetched from the loop buffer (03 R103). -/
def Engine.looped (e : Engine) (pc len : Nat) : Bool :=
  match e.loop with
  | some (lo, hi) => e.lben && decide (lo ≤ pc) && decide (pc + len ≤ hi + 1)
  | none => false

/-- The bad code-RAM word lies under the instruction's bytes (16 R521). -/
def Clu.fetchBad (k : Clu) (pc len : Nat) : Bool :=
  k.crbadv && overlaps pc len (k.crbad.toNat / 16 * 16) (k.crbad.toNat / 16 * 16 + 16)

/-- An instruction of the context reads this item of its private state. -/
def Ctx.damageRead (c : Ctx) (o : OpInfo) (d : Damage) : Bool :=
  match d with
  | .loc n => o.readsLocals.contains n.val
  | .rse n => o.readsRs && n.val == (c.rsp - 1).toNat
  | .win i => c.depth.toNat - o.reads ≤ i.val && i.val < c.depth.toNat
  | _ => false

/-- An instruction would read damaged private state of its context (08 R271). -/
def Ctx.readsDamage (c : Ctx) (o : OpInfo) : Bool := c.damaged.any (c.damageRead o)

/-- The outstanding request of a context, live or saved (08 R266). -/
def Ctx.request? (c : Ctx) : Option Wait :=
  match c.wait with
  | some w => if w.done.isNone then some w else none
  | none =>
    match c.savedWait with
    | some w => if w.done.isNone then some w else none
    | none => none

/-! ### Record accesses that wait for their translation (09 R293) -/

/-- The page that the context's record request translates next. -/
def Ctx.walking (c : Ctx) : Option Nat :=
  match c.request? with
  | some ⟨_, _, .translate va, _⟩ => some (va / 4096)
  | _ => none

/-- Every access that waits for its translation stands in the queue, new ones last. -/
def State.queueWalks (s : State) : State :=
  let here := s.engines.flatMap fun kv => if q : kv.1 < 256 then
      kv.2.ctxs.filterMap fun cv => if r : cv.1 < 32 then (if cv.2.walking.isSome then some ((⟨kv.1, q⟩, ⟨cv.1, r⟩) : EngId × CtxId) else none) else none
    else []
  { s with walkq := (s.walkq.filter fun q => here.contains q) ++ here.filter fun q => !s.walkq.contains q }

/-! ### Microcode (15 R501 to R503) -/

/-- Where the sequencer fetches: ROM or patch RAM. -/
inductive UAddr where
  | rom (a : Nat)
  | patch (a : Nat)
  deriving DecidableEq, Repr

/-- The patch word that replaces a ROM word: the lowest-numbered match register wins (15 R502). -/
def Clu.matchRom (k : Clu) (a : Nat) : Option Nat :=
  ((List.range 16).find? fun i =>
    (tget McMatch.reset k.mcMatch i).v && (tget McMatch.reset k.mcMatch i).rom.toNat == a).map
      fun i => (tget McMatch.reset k.mcMatch i).padr.toNat

/-- The word fetched: its sequencing field, and where it stood (15 R501, R502). -/
def Clu.fetchWord (k : Clu) : UAddr → BitVec 2 × BitVec 13 × UAddr
  | .patch p => ((tget 0 k.patch p).extractLsb' 94 2, (tget 0 k.patch p).extractLsb' 81 13, .patch p)
  | .rom a =>
    match k.matchRom a with
    | some p => ((tget 0 k.patch p).extractLsb' 94 2, (tget 0 k.patch p).extractLsb' 81 13, .patch p)
    | none => ((Config.romSeq a).extractLsb' 13 2, (Config.romSeq a).extractLsb' 0 13, .rom a)

/-- Run the sequencing fields for `n` cycles: none when END is reached, else the last word fetched (15 R503). -/
def Clu.runWords (k : Clu) : Nat → UAddr → Option UAddr
  | 0, at_ => some at_
  | n + 1, at_ =>
    let w := k.fetchWord at_
    match w.1.toNat with
    | 3 => none
    | 1 => k.runWords n (.rom w.2.1.toNat)
    | 2 => k.runWords n (.patch (w.2.1.toNat % 128))
    | _ =>
      match w.2.2 with
      | .patch p => if 127 ≤ p then some (.patch p) else k.runWords n (.patch (p + 1))
      | .rom a => if 8191 ≤ a then some (.rom a) else k.runWords n (.rom (a + 1))

/-- The words that an execution of `n` cycles fetches (15 R501 to R503). -/
def Clu.wordsRead (k : Clu) : Nat → UAddr → List UAddr
  | 0, _ => []
  | n + 1, at_ =>
    let w := k.fetchWord at_
    w.2.2 :: match w.1.toNat with
    | 3 => []
    | 1 => k.wordsRead n (.rom w.2.1.toNat)
    | 2 => k.wordsRead n (.patch (w.2.1.toNat % 128))
    | _ =>
      match w.2.2 with
      | .patch p => if 127 ≤ p then [] else k.wordsRead n (.patch (p + 1))
      | .rom a => if 8191 ≤ a then [] else k.wordsRead n (.rom (a + 1))

/-- An execution of `n` cycles reads a damaged microcode word, after any patch has been applied (08 R271). -/
def Ctx.readsUcode (c : Ctx) (k : Clu) (op n : Nat) : Bool :=
  c.damaged.any fun d => match d with
    | .ucode a => (k.wordsRead n (.rom (Config.romEntry op))).contains (.rom a.val)
    | .patch a => (k.wordsRead n (.rom (Config.romEntry op))).contains (.patch a.val)
    | _ => false

/-- An execution of `n` cycles is an overrun: its last word fetched. With no match register active the ROM as shipped ends
every execution within its count (15 R503; log 15). -/
def Clu.overrun (k : Clu) (op n : Nat) : Option UAddr :=
  if k.pen && (List.range 16).any (fun i => (tget McMatch.reset k.mcMatch i).v) then
    k.runWords n (.rom (Config.romEntry op))
  else none

/-- Address of a word fetched. -/
def UAddr.num : UAddr → Nat
  | .rom a => a
  | .patch a => a

/-- A word fetched from the patch RAM. -/
def UAddr.isPatch : UAddr → Bool
  | .rom _ => false
  | .patch _ => true

/-! ### After the body -/

/-- Where control goes after an instruction: to the next one, or out of a delay slot as the pending branch says (03 R107). -/
def Ctx.after (c : Ctx) (next : Nat) : BitVec 19 :=
  match c.pb with
  | some b => if b.nt then BitVec.ofNat 19 next else b.addr
  | none => BitVec.ofNat 19 next

/-- One more instruction of the entry window has issued (08 R257). -/
def Ctx.ehStep (c : Ctx) : Ctx := if c.psw.eh then { c with ehLeft := c.ehLeft - 1 } else c

/-- The state of a context whose instruction of count `n` has issued (03 R66). -/
def Ctx.busyFor (c : Ctx) (n : Nat) : Ctx :=
  if n ≤ 1 then
    { c.ehBound with
      left := 0
      state := if c.ending then .free else if c.wait.isSome then .wait else .ready
      wdog := if c.wait.isSome then 0 else c.wdog }
  else { c with left := BitVec.ofNat 8 (n - 1), state := .busy }

/-- The engine has issued for a context of hedge `h`: it is no longer clean, and LASTHEDGE names the hedge (02 Table 2-2, 03 R65). -/
def Engine.issued (e : Engine) (n : CtxId) (h : HedgeId) : Engine := { e with lastCtx := n, clean := false, lastHedge := h }

/-- Put an engine and a context after an instruction into place: entry window, BUSY, iterative unit, spill and fill. -/
def finish (e : Engine) (n : CtxId) (h : HedgeId) (c : Ctx) (count : Nat) (unit : Option IterUnit) : Engine :=
  let r := settle 5 e (c.ehStep.busyFor count)
  let e1 := (r.1.setCtx n r.2).issued n h
  match unit with
  | some u => if 1 < count then e1.setUnit u (some n) else e1
  | none => e1

/-- The loop buffer captures a loop of at most 256 bytes when the delay slot of its second taken branch completes (03 R103). -/
def Engine.capture (e : Engine) (c : Ctx) (slotEnd : Nat) : Engine :=
  match c.arm with
  | some t => if c.pb.isSome && e.lben && t < slotEnd && slotEnd - t ≤ 256 then { e with loop := some (t, slotEnd - 1) } else e
  | none => e

/-- The damaged items that an instruction leaves: the cells that it popped or overwrote go, those from stack cell `d` up (08 R271). -/
def Ctx.trimDamage (c : Ctx) (d : Nat) : Ctx :=
  { c with damaged := c.damaged.filter fun x => match x with | .win i => i.val < d | _ => true }

/-- Abandonable state of a context before its instruction (03 R71). -/
def Ctx.undoImage (c : Ctx) (u : IterUnit) : Undo :=
  { unit := u, pc := c.pc, depth := c.depth, win := c.win, pb := c.pb, ehLeft := c.ehLeft, eh := c.psw.eh }

/-- Quarantine a context whose damaged state would be read (08 R271). -/
def State.quarantineDamage (s : State) (e : EngId) (n : CtxId) : State :=
  let c := (s.eng e).ctx n
  let v := match c.mcheck with
    | some (cause, info) => (⟨0x18, 0x04, cause, 0, info, some 7⟩ : XEvent)
    | none => ⟨0x18, 0x04, 0, 0, 0, some 7⟩
  let s1 := s.modCtx e n fun c => quarantine c 4 v
  s1.report (contextRecord s1 e ((s1.eng e).ctx n) 4)

/-- The cluster runs: an engine of a cluster in C1 to C4 issues nothing (14 Table 14-1). -/
def State.running (s : State) (e : EngId) : Bool := (s.clu (cluOf e)).pst == .c0

/-- Whether an instruction of the context may issue now: it is READY, R65 chooses it and no event goes first (log 1). -/
def Engine.mayIssue (e : Engine) (n : CtxId) : Bool :=
  (e.ctx n).state == .ready && e.nextIssue == some n && (e.ctx n).takable.isNone

/-- The checks that come before the entry's own ones (04 R125 to R127, 05 R141 steps 1 and 2). -/
def OpInfo.early (o : OpInfo) (px : List Byte) (c : Ctx) : Option SFault :=
  match o.encFault px c.pc.toNat c.pb.isSome with
  | some f => some f
  | none => o.privFault px c.pc.toNat c.psw.pl.toNat

/-- The environment of a meaning. -/
def OpInfo.env (o : OpInfo) (x : Iss) (c : Ctx) : Env :=
  { px := x.px, n := x.ctx, pc := c.pc.toNat, next := c.pc.toNat + o.len x.px, pl := c.psw.pl.toNat,
    nochk := hasPx x.px 0xF2, rm := (pxRnd x.px).getD c.psw.rm, sat := hasPx x.px 0xF3, cvt := hasPx x.px 0xF1,
    lockPx := hasPx x.px 0xF4 }

/-- The iterative unit that an instruction needs is occupied by another context (03 R69, R70). -/
def Engine.unitTaken (e : Engine) (u : Option IterUnit) (n : CtxId) : Bool :=
  match u with
  | some u => (e.unitOf u).isSome && e.unitOf u != some n
  | none => false

/-- An execution overran its microcode: the context stays BUSY for its count with a machine check pending, and the cluster counts and
records it (15 R503). -/
def State.overran (s : State) (x : Iss) (c : Ctx) (count : Nat) (a : UAddr) : State :=
  let s1 := (s.modClu (cluOf x.eng) fun k =>
      { k with mcOvr := satInc k.mcOvr, mcLast := BitVec.ofNat 13 a.num, mcLastP := a.isPatch }).setEng x.eng
    ((((s.eng x.eng).setCtx x.ctx { c with mcheck := some (6, BitVec.ofNat 32 a.num), state := .busy,
                                           left := BitVec.ofNat 8 (count - 1) }).issued x.ctx (s.slot c.slot).hedge).setUnit .ucode (some x.ctx))
  (s1.report (contextRecord s1 x.eng ((s1.eng x.eng).ctx x.ctx) 6)).report (microcodeRecord s1 (cluOf x.eng))

/-- The context of an answer, with what abandonment would restore (03 R71) and what it leaves of damage and loop capture. -/
def Done.final (d : Done) (o : OpInfo) (c : Ctx) : Ctx :=
  let und := match d.unit with
    | some u => if d.aband then some (c.undoImage u) else none
    | none => none
  { d.ctx.trimDamage (c.depth.toNat - o.pops) with undo := und, arm := if c.pb.isSome then none else d.ctx.arm }

/-- An instruction that has passed its checks takes effect, or waits for its iterative unit, or overruns its microcode. -/
def State.complete (s : State) (x : Iss) (c : Ctx) (o : OpInfo) (op : Nat) (d : Done) (post : State → State) : State :=
  if (s.eng x.eng).unitTaken d.unit x.ctx then
    s.setEng x.eng ((s.eng x.eng).setCtx x.ctx { c with state := .held, heldOn := d.unit })
  else
    match (if d.unit = some .ucode then (s.clu (cluOf x.eng)).overrun op d.count else none) with
    | some a => s.overran x c d.count a
    | none => post (s.setEng x.eng (finish (d.eng.capture c (c.pc.toNat + o.len x.px)) x.ctx (s.slot c.slot).hedge (d.final o c) d.count d.unit))

/-- The repair list takes a ROM address of a cluster (15 R505). -/
def Keeper.repairAt (k : Keeper) (c : CluId) (a : Nat) : Keeper :=
  if k.repair.contains (c.val, a) then k else { k with repair := k.repair ++ [(c.val, a)] }

/-- A correctable error of a microcode word that an execution fetches: it is corrected, counted and recorded, and firmware adds a ROM
address to the repair list (15 R505). -/
def State.ucodeCorrected (s : State) (k : CluId) (d : Damage) : State :=
  let s1 := s.modClu k fun c =>
    { c with
      softUcode := c.softUcode.erase d, mcCe := satInc c.mcCe
      mcLast := match d with | .ucode a => BitVec.ofNat 13 a.val | .patch a => BitVec.ofNat 13 a.val | _ => c.mcLast
      mcLastP := match d with | .patch _ => true | _ => false }
  let s2 := s1.report { microcodeRecord s1 k with sev := 0, status := 0 }
  match d with
  | .ucode a => { s2 with keeper := s2.keeper.repairAt k a.val }
  | _ => s2

/-- The correctable errors among the words that an execution has fetched. -/
def State.ucodeMet (s : State) (k : CluId) (ws : List UAddr) : State :=
  ((s.clu k).softUcode.filter fun d => match d with
    | .ucode a => ws.contains (.rom a.val)
    | .patch a => ws.contains (.patch a.val)
    | _ => false).foldl (fun (t : State) d => t.ucodeCorrected k d) s

/-- A correctable error of a code-RAM word that a fetch meets (16 R514). -/
def State.codeCorrected (s : State) (k : CluId) (w : Nat) : State :=
  let s1 : State := { s with free := s.free + 1 }.modClu k fun c => { c with softCode := c.softCode.erase w, crce := satInc c.crce }
  s1.report { codeRecord s k with sev := 0, status := 0 }

/-- A correctable error of private state that an instruction reads (16 R514). -/
def State.privateCorrected (s : State) (e : EngId) (n : CtxId) (d : Damage) : State :=
  let s1 := s.modEng e fun g => { g.setCtx n { g.ctx n with soft := (g.ctx n).soft.erase d } with xce := satInc g.xce }
  s1.report { contextRecord s1 e ((s1.eng e).ctx n) 0 with sev := 0, status := 0 }

/-- The correctable errors that an issue has met: those of its fetch, and those of the private state that it read once its first checks had
passed (16 R514). -/
def State.corrected (s old : State) (x : Iss) (o : OpInfo) : State :=
  let e := old.eng x.eng
  let c := e.ctx x.ctx
  let k := cluOf x.eng
  let pc := c.pc.toNat
  if !(old.running x.eng && e.mayIssue x.ctx) || (e.fetchClosed pc (o.len x.px)).isSome then s
  else
    let ws := if e.looped pc (o.len x.px) then [] else (old.clu k).softCode.filter fun w => overlaps pc (o.len x.px) (16 * w) (16 * w + 16)
    let s1 := ws.foldl (fun (t : State) w => t.codeCorrected k w) s
    if (o.early x.px c).isNone && (o.stkFault c).isNone && !c.pb.any (fun b => b.nt && b.ann) then
      (c.soft.filter (c.damageRead o)).foldl (fun (t : State) d => t.privateCorrected x.eng x.ctx d) s1
    else s1

/-- One instruction attempts to issue (03 R65 to R70, 05 R141). `op` names its microcode entry; `post` is what the rest of the device
learns of it. -/
def State.attempt (s : State) (x : Iss) (o : OpInfo) (op : Nat) (body : Env → Engine → Ctx → Except SFault Done)
    (post : State → State) : State :=
  let e := s.eng x.eng
  let c := e.ctx x.ctx
  if !(s.running x.eng && e.mayIssue x.ctx) then s
  else
    let s1 := s.setEng x.eng (e.issued x.ctx (s.slot c.slot).hedge)
    match e.fetchClosed c.pc.toNat (o.len x.px) with
    | some a => s1.vector x.eng x.ctx (fKey 3 a).event
    | none =>
    if !e.looped c.pc.toNat (o.len x.px) && (s.clu (cluOf x.eng)).fetchBad c.pc.toNat (o.len x.px) then
      let s2 := s.modCtx x.eng x.ctx fun c => { c with mcheck := some (7, ((s.clu (cluOf x.eng)).crbad).setWidth 32) }
      let s3 := s2.report (contextRecord s2 x.eng c 7)
      if c.psw.m == 7 || c.psw.eh || c.pb.isSome then s3.quarantineDamage x.eng x.ctx else s3
    else
    match o.early x.px c with
    | some f => s1.vector x.eng x.ctx f.event
    | none =>
    match c.pb with
    | some ⟨true, true, _⟩ =>
      s.setEng x.eng (finish e x.ctx (s.slot c.slot).hedge { c with pc := c.after (c.pc.toNat + o.len x.px), pb := none } 1 none)
    | _ =>
    match o.stkFault c with
    | some f => s1.vector x.eng x.ctx f.event
    | none =>
    if c.readsDamage o then s.quarantineDamage x.eng x.ctx
    else
    match body (o.env x c) e { c with pc := c.after (c.pc.toNat + o.len x.px), pb := none } with
    | .error f => s1.vector x.eng x.ctx f.event
    | .ok d =>
      if d.unit = some .ucode && c.readsUcode (s.clu (cluOf x.eng)) op d.count then s.quarantineDamage x.eng x.ctx
      else
        let ws := if d.unit = some .ucode && !(e.unitTaken d.unit x.ctx) then
            (s.clu (cluOf x.eng)).wordsRead d.count (.rom (Config.romEntry op)) else []
        ((s.complete x c o op d post).scratchRecord s x.eng).ucodeMet (cluOf x.eng) ws

/-- Issue one instruction, with the correctable errors that it meets. -/
def State.issue (s : State) (x : Iss) (o : OpInfo) (op : Nat) (body : Env → Engine → Ctx → Except SFault Done)
    (post : State → State) : State :=
  (s.attempt x o op body post).corrected s x o

end Sys2Proof.Machine
end

