-- ==== Sys2Proof/Machine/Stack.lean ====
section
/-! DEFINITION. Stack, local and constant instructions (05 Table 5-1, R145 to R147; PUSHD 06 R193). -/

namespace Sys2Proof.Machine

open Host (Outcome)

/-- The top `n` cells, top first. -/
def topCells (e : Engine) (c : Ctx) (n : Nat) : List Cell := (List.range n).map (stackTop e c)

/-- Every operand is well formed: the tag rule "Any" (03 R82). -/
def anyTags (ops : List Cell) : List (Nat × Cell × Bool) := ops.zipIdx.map fun q => (q.2, q.1, true)

/-- An instruction that only moves cells: it pops `n` and pushes what `f` makes of them, top first in, last on top out. -/
def moveBody (n : Nat) (f : List Cell → List Cell) (v : Env) (e : Engine) (c : Ctx) : Except SFault Done := do
  let ops := topCells e c n
  tagCheck v.nochk (anyTags ops)
  pure { count := 1, eng := e, ctx := c.popPush n (f ops) }

/-- Issue an instruction that only moves cells (05 R145). -/
def moveOp (x : Iss) (n q : Nat) (reads : Nat) (f : List Cell → List Cell) (s : State) : Outcome State Fault Refusal :=
  .next (s.issue x { pops := n, pushes := q, reads := reads } 0 (moveBody n f) id)

/-- NOP (05 R145). -/
def execNop (x : Iss) (s : State) : Outcome State Fault Refusal := moveOp x 0 0 0 (fun _ => []) s

/-- DUP ( a -- a a ). -/
def execDup (x : Iss) (s : State) : Outcome State Fault Refusal :=
  moveOp x 1 2 1 (fun o => match o with | [a] => [a, a] | _ => []) s

/-- DROP ( a -- ). -/
def execDrop (x : Iss) (s : State) : Outcome State Fault Refusal := moveOp x 1 0 0 (fun _ => []) s

/-- SWAP ( a b -- b a ). -/
def execSwap (x : Iss) (s : State) : Outcome State Fault Refusal :=
  moveOp x 2 2 2 (fun o => match o with | [b, a] => [b, a] | _ => []) s

/-- OVER ( a b -- a b a ). -/
def execOver (x : Iss) (s : State) : Outcome State Fault Refusal :=
  moveOp x 2 3 2 (fun o => match o with | [b, a] => [a, b, a] | _ => []) s

/-- ROT ( a b c -- b c a ). -/
def execRot (x : Iss) (s : State) : Outcome State Fault Refusal :=
  moveOp x 3 3 3 (fun o => match o with | [c, b, a] => [b, c, a] | _ => []) s

/-- NIP ( a b -- b ). -/
def execNip (x : Iss) (s : State) : Outcome State Fault Refusal :=
  moveOp x 2 1 1 (fun o => match o with | [b, _] => [b] | _ => []) s

/-- TUCK ( a b -- b a b ). -/
def execTuck (x : Iss) (s : State) : Outcome State Fault Refusal :=
  moveOp x 2 3 2 (fun o => match o with | [b, a] => [b, a, b] | _ => []) s

/-- PICK n ( xn … x0 -- xn … x0 xn ); n above 3 is a reserved value (05 R142, R147). -/
def execPick (x : Iss) (imm : Byte) (s : State) : Outcome State Fault Refusal :=
  let n := imm.toNat
  .next (s.issue x
    { imm := 1, pops := n + 1, pushes := n + 2, reads := n + 1, badField := if 3 < n then some 0 else none } 0
    (moveBody (n + 1) fun o => o.reverse ++ (o.getLast?).toList) id)

/-- DUP2 ( a b -- a b a b ). -/
def execDup2 (x : Iss) (s : State) : Outcome State Fault Refusal :=
  moveOp x 2 4 2 (fun o => match o with | [b, a] => [a, b, a, b] | _ => []) s

/-- DROP2 ( a b -- ). -/
def execDrop2 (x : Iss) (s : State) : Outcome State Fault Refusal := moveOp x 2 0 0 (fun _ => []) s

/-- LDL Ln ( -- x ): a copy of the local with its tag (05 Table 5-1). -/
def execLdl (x : Iss) (n : Fin 16) (s : State) : Outcome State Fault Refusal :=
  .next (s.issue x { pushes := 1, readsLocals := [n.val] } 0
    (fun v e c => do
      tagCheck v.nochk [(0, c.local n.val, true)]
      pure { count := 1, eng := e, ctx := c.popPush 0 [c.local n.val] }) id)

/-- STL Ln ( x -- ): at PL2 a guarded local refuses it (05 Table 5-1, 03 R85). A local overwritten whole is no longer damaged
(08 R271). -/
def execStl (x : Iss) (n : Fin 16) (s : State) : Outcome State Fault Refusal :=
  .next (s.issue x { pops := 1, reads := 1 } 0
    (fun v e c => do
      let a := stackTop e c 0
      tagCheck v.nochk [(0, a, true)]
      ensure (!(v.pl == 2 && (c.local n.val).g)) (fKey 2 0)
      let c1 := (c.setLocal n.val a).popPush 1 []
      pure { count := 1, eng := e, ctx := { c1 with damaged := c1.damaged.filter fun d => d != .loc n } }) id)

/-- An instruction that pushes one constant with P = 0 and G = 0 (05 R146). -/
def pushConst (x : Iss) (o : OpInfo) (k : Env → Cell) (s : State) : Outcome State Fault Refusal :=
  .next (s.issue x { o with pushes := 1 } 0 (fun v e c => pure { count := 1, eng := e, ctx := c.popPush 0 [k v] }) id)

/-- PUSHI.S: an INT of a 1-byte signed immediate, 2 bytes under P.WIDE (04 R123, 05 R146). -/
def execPushiS (x : Iss) (imm : BitVec 16) (s : State) : Outcome State Fault Refusal :=
  pushConst x { imm := 1, wmark := true }
    (fun v => cellInt (if hasPx v.px 0xF0 then imm.toInt else (imm.setWidth 8).toInt)) s

/-- PUSHI.L: an INT of a 4-byte signed immediate, 8 bytes under P.WIDE. -/
def execPushiL (x : Iss) (imm : BitVec 64) (s : State) : Outcome State Fault Refusal :=
  pushConst x { imm := 4, wmark := true }
    (fun v => cellInt (if hasPx v.px 0xF0 then imm.toInt else (imm.setWidth 32).toInt)) s

/-- PUSHD: a DEC of the 16-byte immediate in storage order, checked for validity (06 R193). `imm` is the 16 bytes as they
stand, the first one lowest. -/
def execPushd (x : Iss) (imm : Payload) (s : State) : Outcome State Fault Refusal :=
  .next (s.issue x { imm := 16, pushes := 1 } 0
    (fun _ e c => do
      let d := decStorage imm
      match decBad d with
      | some i => .error (fData 1 0 i)
      | none => pure { count := 1, eng := e, ctx := c.popPush 0 [cellDec d] }) id)

/-- PUSHFP: a FLT of the 8-byte immediate exactly. -/
def execPushfp (x : Iss) (imm : BitVec 64) (s : State) : Outcome State Fault Refusal :=
  pushConst x { imm := 8 } (fun _ => cellFlt imm) s

/-- A displacement of 2 bytes, or 4 under P.WIDE (04 R123). -/
def dispOf (px : List Byte) (imm : BitVec 32) : Int := if hasPx px 0xF0 then imm.toInt else (imm.setWidth 16).toInt

/-- PUSHA: a CODE cell of SUB 0b00 holding the target (04 R124, 05 R146). -/
def execPusha (x : Iss) (imm : BitVec 32) (s : State) : Outcome State Fault Refusal :=
  pushConst x { imm := 2, wmark := true, disp := some (dispOf x.px imm, 0) }
    (fun v => cellCode (BitVec.ofInt 19 (v.next + dispOf v.px imm))) s

/-- PUSHTRUE. -/
def execPushtrue (x : Iss) (s : State) : Outcome State Fault Refusal := pushConst x {} (fun _ => cellBool true) s

/-- PUSHFALSE. -/
def execPushfalse (x : Iss) (s : State) : Outcome State Fault Refusal := pushConst x {} (fun _ => cellBool false) s

/-- PUSHNIL. -/
def execPushnil (x : Iss) (s : State) : Outcome State Fault Refusal := pushConst x {} (fun _ => Cell.nil) s

end Sys2Proof.Machine
end

