-- ==== Sys2Proof/Machine/Arith.lean ====
section
/-! DEFINITION. The polymorphic instructions (05 R143, R152 to R158, R163; 06 R188 to R190), MULI (06 R208 to R210), bitwise
and shift instructions (05 R157), binary64 (05 R161, R162), tags and conversions (05 R159, R160). -/

namespace Sys2Proof.Machine

open Host (Outcome)

/-- The form that runs (05 R143). -/
inductive Form where
  | int | dec | flt
  deriving DecidableEq, Repr

/-- The form of a TYPE, in the rank INT < DEC < FLT (05 R158). -/
def formOf (ty : BitVec 4) : Option Form :=
  if ty = tyINT then some .int else if ty = tyDEC then some .dec else if ty = tyFLT then some .flt else none

/-- The higher-ranked form. -/
def Form.max : Form → Form → Form
  | .flt, _ => .flt
  | _, .flt => .flt
  | .dec, _ => .dec
  | _, .dec => .dec
  | .int, .int => .int

/-- The form of two operands, `b` on top (05 R143, R158). -/
def binForm (cvt : Bool) (a b : Cell) : Form :=
  if cvt then
    match formOf a.ty, formOf b.ty with
    | some x, some y => x.max y
    | some x, none => x
    | none, some y => y
    | none, none => .int
  else (formOf b.ty).getD .int

/-- Tag check of two operands, `b` on top: the same TYPE among INT, DEC and FLT, or any of them under P.CVT. -/
def binTags (v : Env) (a b : Cell) : Except SFault Unit :=
  tagCheck v.nochk
    [(0, b, (formOf b.ty).isSome), (1, a, if v.cvt then (formOf a.ty).isSome else decide (a.ty = b.ty))]

/-- Validity of a cell used as DEC; a poisoned one is not checked (06 R185, R186). -/
def decUse (opnd : Nat) (c : Cell) : Except SFault Unit :=
  if c.p then .ok ()
  else
    match decBad c.pay with
    | some i => .error (fData 1 opnd i)
    | none => .ok ()

/-- Whether an operand of a form is read as DEC. -/
def usesDec (form : Form) (cvt : Bool) (c : Cell) : Bool :=
  match form with
  | .int => false
  | .dec => !(cvt && c.ty = tyINT)
  | .flt => cvt && c.ty = tyDEC

/-- The value of an operand of the DEC form: converted from INT under P.CVT, else its nibbles (05 R143, R158). -/
def asDec (cvt : Bool) (c : Cell) : Int := if cvt && c.ty = tyINT then c.int else decVal c.pay

/-- The value of an operand of the FLT form (05 R143, R158). -/
def asFlt (mode : BitVec 3) (cvt : Bool) (c : Cell) : Flt :=
  if cvt && c.ty = tyINT then fltOf (fltOfInt mode c.int)
  else if cvt && c.ty = tyDEC then fltOf (fltOfInt mode (decVal c.pay))
  else fltOf c.lo

/-- The exact value of an operand of a comparison, scaled by 2^1074; none for a NaN (05 R158, R163). -/
def asExt (form : Form) (cvt : Bool) (c : Cell) : Option Ext :=
  if form = .flt && !(cvt && (c.ty = tyINT || c.ty = tyDEC)) then (fltOf c.lo).ext
  else some (.val ((if form = .int || (cvt && c.ty = tyINT) then c.int else decVal c.pay) * 2 ^ 1074))

/-- An INT result: in range, or saturated, or an arithmetic fault (05 R155). -/
def intResult (sat p : Bool) (r : Int) : Except SFault Cell :=
  if intFits r then .ok (cellInt r p) else if sat then .ok (cellInt (intSat r) p) else .error (fArith 1)

/-- A DEC result: in range, or 31 nines, or an arithmetic fault (06 R188). -/
def decResult (sat p : Bool) (r : Int) : Except SFault Cell :=
  if r.natAbs < decLimit then .ok (cellDec (decMake (decide (r < 0)) r.natAbs) p)
  else if sat then .ok (cellDec (decMake (decide (r < 0)) (decLimit - 1)) p) else .error (fArith 1)

/-- The operations of two operands. -/
inductive BinOp where
  | add | sub | mul | div | rem
  deriving DecidableEq, Repr

/-- Exact result of an INT or DEC form; the divisor is not zero (05 R155, R156; 06 Table 6-2). -/
def BinOp.exact : BinOp → Int → Int → Int
  | .add, a, b => a + b
  | .sub, a, b => a - b
  | .mul, a, b => a * b
  | .div, a, b => a.tdiv b
  | .rem, a, b => a.tmod b

/-- FLT result (05 R161, R162). -/
def BinOp.flt (mode : BitVec 3) : BinOp → Flt → Flt → Word64
  | .add, a, b => fltAdd mode a b
  | .sub, a, b => fltAdd mode a b.neg
  | .mul, a, b => fltMul mode a b
  | .div, a, b => fltDiv mode a b
  | .rem, a, b => fltRem a b

/-- A division. -/
def BinOp.divides (o : BinOp) : Bool := o = .div || o = .rem

/-- Count, unit and abandonment of a form (05 Table 5-3, R153; 06 R190). -/
def BinOp.timing (o : BinOp) (f : Form) : Nat × Option IterUnit × Bool :=
  match o.divides, f with
  | false, .int => (1, none, false)
  | false, .dec => (2, none, false)
  | false, .flt => (3, none, false)
  | true, .int => (20, some .divider, o = .div)
  | true, .dec => (36, some .ucode, true)
  | true, .flt => (if o = .div then 14 else 22, some .fdiv, false)

/-- The result cell of a polymorphic instruction of two operands, `b` on top. DESIGN CHOICE: of two invalid DEC operands the deepest is
reported, as 06 R192 says for Table 6-3; no rule says it for these (log 13). -/
def polyResult (v : Env) (o : BinOp) (form : Form) (a b : Cell) : Except SFault Cell := do
  if usesDec form v.cvt a then decUse 1 a
  if usesDec form v.cvt b then decUse 0 b
  match form with
  | .int =>
    ensure (!(o.divides && b.int == 0) && !(o.divides && a.int == -(2 ^ 63) && b.int == -1)) (fArith 2)
    intResult v.sat (a.p || b.p) (o.exact a.int b.int)
  | .dec =>
    ensure (!(o.divides && asDec v.cvt b == 0)) (fArith 2)
    decResult v.sat (a.p || b.p) (o.exact (asDec v.cvt a) (asDec v.cvt b))
  | .flt => pure (cellFlt (o.flt v.rm (asFlt v.rm v.cvt a) (asFlt v.rm v.cvt b)) (a.p || b.p))

/-- Body of ADD, SUB, MUL, DIV and REM. -/
def polyBody (o : BinOp) (v : Env) (e : Engine) (c : Ctx) : Except SFault Done := do
  let b := stackTop e c 0
  let a := stackTop e c 1
  binTags v a b
  let form := binForm v.cvt a b
  let r ← polyResult v o form a b
  let t := o.timing form
  pure { count := t.1, unit := t.2.1, aband := t.2.2, eng := e, ctx := c.popPush 2 [r] }

/-- Opcode facts of a polymorphic instruction of two operands (04 Table 4-1). -/
def polyInfo (sat : Bool) : OpInfo := { cvt := true, sat := sat, rnd := true, pops := 2, pushes := 1, reads := 2 }

/-- ADD ( a b -- a+b ). -/
def execAdd (x : Iss) (s : State) : Outcome State Fault Refusal := .next (s.issue x (polyInfo true) 0x40 (polyBody .add) id)

/-- SUB ( a b -- a-b ). -/
def execSub (x : Iss) (s : State) : Outcome State Fault Refusal := .next (s.issue x (polyInfo true) 0x41 (polyBody .sub) id)

/-- MUL ( a b -- a×b ). -/
def execMul (x : Iss) (s : State) : Outcome State Fault Refusal := .next (s.issue x (polyInfo true) 0x42 (polyBody .mul) id)

/-- DIV ( a b -- q ): truncation toward zero; INT on the binary divider, DEC on the sequencer, FLT on the divide unit. -/
def execDiv (x : Iss) (s : State) : Outcome State Fault Refusal := .next (s.issue x (polyInfo false) 0x43 (polyBody .div) id)

/-- REM ( a b -- r ): the sign of the dividend. -/
def execRem (x : Iss) (s : State) : Outcome State Fault Refusal := .next (s.issue x (polyInfo false) 0x44 (polyBody .rem) id)

/-- CMP ( a b -- r ): -1, 0, +1, or +2 for a NaN (05 R163). -/
def execCmp (x : Iss) (s : State) : Outcome State Fault Refusal :=
  .next (s.issue x { cvt := true, pops := 2, pushes := 1, reads := 2 } 0x45
    (fun v e c => do
      let b := stackTop e c 0
      let a := stackTop e c 1
      binTags v a b
      let form := binForm v.cvt a b
      if usesDec form v.cvt a then decUse 1 a
      if usesDec form v.cvt b then decUse 0 b
      pure { count := 1, eng := e,
             ctx := c.popPush 2 [cellInt (cmpExt (asExt form v.cvt a) (asExt form v.cvt b)) (a.p || b.p)] }) id)

/-- The result of NEG (`abs` false) or ABS on a cell of a form (05 R155, 06 Table 6-2). -/
def unaryResult (v : Env) (abs : Bool) (form : Form) (a : Cell) : Except SFault Cell := do
  match form with
  | .int => intResult v.sat a.p (if abs then (a.int.natAbs : Int) else -a.int)
  | .dec =>
    decUse 0 a
    decResult v.sat a.p (if abs then ((decVal a.pay).natAbs : Int) else -(decVal a.pay))
  | .flt =>
    pure (cellFlt (match fltOf a.lo with
      | .nan => fltNaN
      | _ => if abs then a.lo &&& 0x7FFFFFFFFFFFFFFF else a.lo ^^^ 0x8000000000000000) a.p)

/-- Issue of NEG or ABS. -/
def unaryOp (x : Iss) (abs : Bool) (op : Nat) (s : State) : Outcome State Fault Refusal :=
  .next (s.issue x { sat := true, pops := 1, pushes := 1, reads := 1 } op
    (fun v e c => do
      let a := stackTop e c 0
      tagCheck v.nochk [(0, a, (formOf a.ty).isSome)]
      let r ← unaryResult v abs ((formOf a.ty).getD .int) a
      pure { count := 1, eng := e, ctx := c.popPush 1 [r] }) id)

/-- NEG ( a -- -a ). -/
def execNeg (x : Iss) (s : State) : Outcome State Fault Refusal := unaryOp x false 0x46 s

/-- ABS ( a -- |a| ). -/
def execAbs (x : Iss) (s : State) : Outcome State Fault Refusal := unaryOp x true 0x47 s

/-- MULI ( a b -- a×b ): the INT form of MUL with a data-dependent count, 10 under STRICT (06 R208 to R210). -/
def execMuli (x : Iss) (s : State) : Outcome State Fault Refusal :=
  .next (s.issue x { sat := true, pops := 2, pushes := 1, reads := 2 } 0x48
    (fun v e c => do
      let b := stackTop e c 0
      let a := stackTop e c 1
      tagCheck v.nochk [(0, b, b.isInt), (1, a, a.isInt)]
      let r ← intResult v.sat (a.p || b.p) (a.int * b.int)
      pure { count := muliCount e.strict a.int b.int, eng := e, ctx := c.popPush 2 [r] }) id)

/-- The truth value of a BOOL (03 Table 3-7). -/
def Cell.truth (c : Cell) : Bool := c.sub == 1

/-- Bitwise instruction of two operands, both INT or both BOOL; under P.NOCHK the top one's TYPE decides (05 R157). -/
def bitOp (x : Iss) (op : Nat) (f : Word64 → Word64 → Word64) (g : Bool → Bool → Bool) (s : State) :
    Outcome State Fault Refusal :=
  .next (s.issue x { pops := 2, pushes := 1, reads := 2 } op
    (fun v e c => do
      let b := stackTop e c 0
      let a := stackTop e c 1
      tagCheck v.nochk [(0, b, b.ty = tyINT || b.ty = tyBOOL), (1, a, a.ty = b.ty)]
      let r := if b.ty = tyBOOL then cellBool (g a.truth b.truth) (a.p || b.p)
        else cellInt (f a.lo b.lo).toInt (a.p || b.p)
      pure { count := 1, eng := e, ctx := c.popPush 2 [r] }) id)

/-- AND. -/
def execAnd (x : Iss) (s : State) : Outcome State Fault Refusal := bitOp x 0x49 (· &&& ·) (· && ·) s

/-- OR. -/
def execOr (x : Iss) (s : State) : Outcome State Fault Refusal := bitOp x 0x4A (· ||| ·) (· || ·) s

/-- XOR. -/
def execXor (x : Iss) (s : State) : Outcome State Fault Refusal := bitOp x 0x4B (· ^^^ ·) (fun p q => p != q) s

/-- NOT ( a -- c ). -/
def execNot (x : Iss) (s : State) : Outcome State Fault Refusal :=
  .next (s.issue x { pops := 1, pushes := 1, reads := 1 } 0x4C
    (fun v e c => do
      let a := stackTop e c 0
      tagCheck v.nochk [(0, a, a.ty = tyINT || a.ty = tyBOOL)]
      let r := if a.ty = tyBOOL then cellBool (!a.truth) a.p else cellInt (~~~a.lo).toInt a.p
      pure { count := 1, eng := e, ctx := c.popPush 1 [r] }) id)

/-- A shift of x by n, 0 to 63 (05 R157). -/
def shiftOp (x : Iss) (op : Nat) (f : Word64 → Nat → Word64) (s : State) : Outcome State Fault Refusal :=
  .next (s.issue x { pops := 2, pushes := 1, reads := 2 } op
    (fun v e c => do
      let n := stackTop e c 0
      let a := stackTop e c 1
      tagCheck v.nochk [(0, n, n.isInt), (1, a, a.isInt)]
      ensure (0 ≤ n.int && n.int ≤ 63) (fData 4 0)
      pure { count := 1, eng := e, ctx := c.popPush 2 [cellInt (f a.lo n.int.toNat).toInt (a.p || n.p)] }) id)

/-- SHL. -/
def execShl (x : Iss) (s : State) : Outcome State Fault Refusal := shiftOp x 0x4D (fun v n => v <<< n) s

/-- SHR. -/
def execShr (x : Iss) (s : State) : Outcome State Fault Refusal := shiftOp x 0x4E (fun v n => v >>> n) s

/-- SAR. -/
def execSar (x : Iss) (s : State) : Outcome State Fault Refusal := shiftOp x 0x4F (fun v n => v.sshiftRight n) s

/-! ### Binary64 (05 Table 5-6) -/

/-- A binary64 instruction of `n` operands, all FLT; `f` takes them deepest first. -/
def fltOp (x : Iss) (n op count : Nat) (unit : Option IterUnit) (f : BitVec 3 → List Flt → Word64) (s : State) :
    Outcome State Fault Refusal :=
  .next (s.issue x { rnd := true, pops := n, pushes := 1, reads := n } op
    (fun v e c => do
      let ops := topCells e c n
      tagCheck v.nochk (ops.zipIdx.map fun q => (q.2, q.1, decide (q.1.ty = tyFLT)))
      let r := f v.rm (ops.reverse.map fun a => fltOf a.lo)
      pure { count := count, unit := unit, eng := e, ctx := c.popPush n [cellFlt r (ops.any (·.p))] }) id)

/-- FADD. -/
def execFadd (x : Iss) (s : State) : Outcome State Fault Refusal :=
  fltOp x 2 0x50 3 none (fun m o => match o with | [a, b] => fltAdd m a b | _ => fltNaN) s

/-- FSUB. -/
def execFsub (x : Iss) (s : State) : Outcome State Fault Refusal :=
  fltOp x 2 0x51 3 none (fun m o => match o with | [a, b] => fltAdd m a b.neg | _ => fltNaN) s

/-- FMUL. -/
def execFmul (x : Iss) (s : State) : Outcome State Fault Refusal :=
  fltOp x 2 0x52 3 none (fun m o => match o with | [a, b] => fltMul m a b | _ => fltNaN) s

/-- FMA ( a b c -- a×b+c ), one rounding. -/
def execFma (x : Iss) (s : State) : Outcome State Fault Refusal :=
  fltOp x 3 0x53 4 none (fun m o => match o with | [a, b, c] => fltFma m a b c | _ => fltNaN) s

/-- FDIV on the floating-point divide unit. -/
def execFdiv (x : Iss) (s : State) : Outcome State Fault Refusal :=
  fltOp x 2 0x54 14 (some .fdiv) (fun m o => match o with | [a, b] => fltDiv m a b | _ => fltNaN) s

/-- FSQRT on the floating-point divide unit. -/
def execFsqrt (x : Iss) (s : State) : Outcome State Fault Refusal :=
  fltOp x 1 0x55 16 (some .fdiv) (fun m o => match o with | [a] => fltSqrt m a | _ => fltNaN) s

/-! ### Tags and conversions (05 R159, R160) -/

/-- TAGOF ( x -- x t ): x stays; t is an INT of the tag, with the P of x (03 R83). -/
def execTagof (x : Iss) (s : State) : Outcome State Fault Refusal :=
  .next (s.issue x { pops := 1, pushes := 2, reads := 1 } 0x70
    (fun v e c => do
      let a := stackTop e c 0
      tagCheck v.nochk [(0, a, true)]
      pure { count := 1, eng := e, ctx := c.popPush 1 [a, cellInt a.tag.toNat a.p] }) id)

/-- The INT of a conversion (05 R160). -/
def toInt (v : Env) (a : Cell) : Except SFault Cell := do
  match formOf a.ty with
  | some .dec =>
    decUse 0 a
    if intFits (decVal a.pay) then pure (cellInt (decVal a.pay) a.p) else .error (fArith 3)
  | some .flt =>
    match fltToInt v.rm (fltOf a.lo) with
    | some (neg, m) =>
      let r : Int := if neg then -(m : Int) else m
      if intFits r then pure (cellInt r a.p) else .error (fArith 3)
    | none => .error (fArith 3)
  | some .int => pure a
  | none => pure (cellInt a.int a.p)

/-- The DEC of a conversion: a preferred sign, a zero keeping the sign of its source (05 R160). -/
def toDec (v : Env) (a : Cell) : Except SFault Cell := do
  match formOf a.ty with
  | some .dec =>
    decUse 0 a
    pure a
  | some .flt =>
    match fltToInt v.rm (fltOf a.lo) with
    | some (neg, m) =>
      if m < decLimit then pure (cellDec (decMakeSigned neg m) a.p) else .error (fArith 3)
    | none => .error (fArith 3)
  | _ => pure (cellDec (decMake (decide (a.int < 0)) a.int.natAbs) a.p)

/-- The FLT of a conversion (05 R160). -/
def toFlt (v : Env) (a : Cell) : Except SFault Cell := do
  match formOf a.ty with
  | some .dec =>
    decUse 0 a
    pure (cellFlt (fltOfInt v.rm (decVal a.pay)) a.p)
  | some .flt => pure a
  | _ => pure (cellFlt (fltOfInt v.rm a.int) a.p)

/-- Issue of a conversion: INT, DEC or FLT accepted. -/
def cvtOp (x : Iss) (op count : Nat) (f : Env → Cell → Except SFault Cell) (s : State) : Outcome State Fault Refusal :=
  .next (s.issue x { rnd := true, pops := 1, pushes := 1, reads := 1 } op
    (fun v e c => do
      let a := stackTop e c 0
      tagCheck v.nochk [(0, a, (formOf a.ty).isSome)]
      let r ← f v a
      pure { count := count, eng := e, ctx := c.popPush 1 [r] }) id)

/-- CVTI. -/
def execCvti (x : Iss) (s : State) : Outcome State Fault Refusal := cvtOp x 0x71 2 toInt s

/-- CVTD. -/
def execCvtd (x : Iss) (s : State) : Outcome State Fault Refusal := cvtOp x 0x72 4 toDec s

/-- CVTF. -/
def execCvtf (x : Iss) (s : State) : Outcome State Fault Refusal := cvtOp x 0x73 3 toFlt s

end Sys2Proof.Machine
end

