-- ==== Sys2Proof/Machine/HostOps.lean ====
section
/-! DEFINITION. Shared operations of the host protocol: completions and events on the rings (13 R420 to R428), slots and start
sequences (10 R312, R313), and what a completion does to its slot (10 Table 10-3 step 9). -/

namespace Sys2Proof.Machine

/-- The slot that a message names. -/
def msgSlot : MsgKind → SlotId
  | .dispatch n => n
  | .wake n _ => n
  | .notice n _ _ _ => n
  | .ended n => n

/-- Change one function. -/
def State.modFn (s : State) (f : FnId) (g : Fn → Fn) : State := s.setFn f (g (s.fn f))

/-- The host port of a function (13 R416). -/
def portOf (f : FnId) : PortId := ⟨f.val / 65, by have := f.isLt; omega⟩

/-- A PF (13 R416). -/
def isPf (f : FnId) : Bool := f.val % 65 == 0

/-- The functions. -/
def allFns : List FnId := List.finRange 130

/-- The hedges that are open. -/
def State.openHedges (s : State) : List HedgeId := (List.finRange 64).filter fun h => (s.hedge h).fn.isSome

/-- The slots that are not IDLE, in ascending order. -/
def State.busySlots (s : State) : List SlotId :=
  s.slots.filterMap fun kv =>
    if h : kv.1 < 131072 then if kv.2.state = .idle then none else some ⟨kv.1, h⟩ else none

/-- The live slots of a hedge (10 R345). -/
def State.liveSlots (s : State) (h : HedgeId) : List SlotId := s.busySlots.filter fun n => (s.slot n).hedge = h

/-! ### Rings (13 R420, R421) -/

/-- The event as the 32 bytes of Table 13-8. -/
def Ev.bytes (v : Ev) (phase : Bool) : List Byte :=
  bytesOfNat 8 v.a.toNat ++ bytesOfNat 8 v.b.toNat ++ bytesOfNat 4 v.c.toNat ++ bytesOfNat 2 v.kind.toNat ++
    [0, BitVec.ofNat 8 (b2n phase)] ++ bytesOfNat 8 v.d.toNat

/-- FLAGS of a completion (13 Table 13-7). -/
def Compl.flags (c : Compl) (phase : Bool) : Byte :=
  BitVec.ofNat 8 (b2n phase + 2 * c.gk.code + 8 * b2n c.cont + 16 * b2n c.rp)

/-- The completion as the 32 bytes of Table 13-7. -/
def Compl.bytes (c : Compl) (phase : Bool) : List Byte :=
  bytesOfNat 8 c.gcs.toNat ++ bytesOfNat 8 c.result.toNat ++ bytesOfNat 4 c.hsn.toNat ++ bytesOfNat 2 c.sqhead.toNat ++
    [c.status, c.flags phase] ++ bytesOfNat 8 c.detail.toNat

/-- One entry always stays empty (13 R421). -/
def Fn.cqRoom (f : Fn) : Bool := (f.cqTail.toNat + 1) % 2 ^ f.cqLog2.toNat != f.cqHead.toNat

/-- One entry of the event ring always stays empty (13 R421). -/
def Fn.eqRoom (f : Fn) : Bool := (f.eqTail.toNat + 1) % 2 ^ f.eqLog2.toNat != f.eqHead.toNat

/-- Writes of the last 1 ms (13 R440). -/
def Fn.recent (f : Fn) (tick : Word64) : List Sent := f.sent.filter fun r => tick.toNat < r.tick.toNat + 1000

/-- The function after an event is written at the tail; the phase bit inverts on each pass (13 R420). -/
def Fn.wroteEvent (f : Fn) (tick : Word64) : Fn :=
  let t := (f.eqTail.toNat + 1) % 2 ^ f.eqLog2.toNat
  { f with
    eqTail := BitVec.ofNat 12 t
    eqPhase := if t = 0 then !f.eqPhase else f.eqPhase
    sent := f.recent tick ++ [⟨tick, true, none, 0, BitVec.ofNat 64 (f.eqBase.toNat * 4096 + 32 * f.eqTail.toNat)⟩] }

/-- Send an MSI-X message, vector 1 when `v`; a masked vector keeps it pending (13 R424, PCI Express). -/
def State.sendMsix (s : State) (f : FnId) (v : Bool) : State :=
  let q := s.fn f
  if v then (if q.vec1.mask then s.setFn f { q with vec1 := { q.vec1 with pend := true } } else s.emit (.msix f true))
  else if q.vec0.mask then s.setFn f { q with vec0 := { q.vec0 with pend := true } } else s.emit (.msix f false)

/-- Write an event and send vector 1 (13 R420, R424). -/
def State.writeEvent (s : State) (f : FnId) (v : Ev) : State :=
  let q := s.fn f
  ((s.emit (.host f (BitVec.ofNat 64 (q.eqBase.toNat * 4096 + 32 * q.eqTail.toNat)) (v.bytes q.eqPhase) false)).setFn f
    (q.wroteEvent s.aoTick)).sendMsix f true

/-- The rings take completions and events: they are READY, or a migration drains them (13 R420, 17 Table 17-4). -/
def Fn.posting (f : Fn) : Bool := f.state == .ready || (f.migPost && f.state == .draining)

/-- Post an event to a function: it is dropped and counted when the ring has no free entry (13 R425). -/
def State.postEvent (s : State) (f : FnId) (v : Ev) : State :=
  let q := s.fn f
  if !q.posting then s
  else if q.eqRoom then s.writeEvent f v
  else s.setFn f { q with evDropped := satInc q.evDropped }

/-- Post an event to a hedge. -/
def State.hedgeEvent (s : State) (h : HedgeId) (v : Ev) : State :=
  match (s.hedge h).fn with
  | some f => s.postEvent f v
  | none => s

/-- Post an event to every open hedge. -/
def State.everyHedge (s : State) (v : Ev) : State := s.openHedges.foldl (fun t h => t.hedgeEvent h v) s

/-- STATE changes other than by a host write: the STATE event goes out while the rings are READY (13 Table 13-9). -/
def State.setHState (s : State) (f : FnId) (st : HState) : State :=
  let ev : Ev := { kind := 8, a := 0, b := 0, c := BitVec.ofNat 32 st.code, d := 0 }
  if st = .ready then (s.modFn f fun q => { q with state := st }).postEvent f ev
  else (s.postEvent f ev).modFn f fun q => { q with state := st }

/-! ### Completions -/

/-- The registers of a function after a reset; CQSUS, EQSUS, SQERR and the bound hedge stay (19 R599). -/
def Fn.regReset (f : Fn) : Fn :=
  { Fn.reset with
    hedge := f.hedge, state := f.state, cqsus := f.cqsus, eqsus := f.eqsus, sqerr := f.sqerr, sqFault := f.sqFault, cur := f.cur
    waiting := f.waiting, sent := f.sent, suspect := f.suspect, d3 := f.d3, drops := f.drops, evDropped := f.evDropped }

/-- A DRAINING function is DOWN once its hedge has no live slot; a reset then takes its registers to their reset values (13 R419,
19 R599). -/
def State.drained (s : State) (f : FnId) : State :=
  let q := s.fn f
  let empty := match q.hedge with
    | some h => (s.liveSlots h).isEmpty
    | none => true
  if q.state == .draining && !q.migPost && empty then s.setFn f { (if q.flr then q.regReset else q) with state := .down, flr := false } else s

/-- A slot becomes IDLE (10 Table 10-1). -/
def State.idleSlot (s : State) (n : SlotId) : State :=
  let h := (s.slot n).hedge
  let s1 := ({ s with refused := s.refused.filter fun m => msgSlot m.kind != n }.modHedge h fun g =>
    { g.stir with pruned := g.pruned.filter fun m => m != n }).setSlot n Slot.reset
  match (s.hedge h).fn with
  | some f => s1.drained f
  | none => s1

/-- The completion history keeps the 16,384 most recently formed completions; the HSN of one that leaves it is remembered (13 R443,
R444). -/
def Hedge.remember (h : Hedge) (c : Compl) : Hedge :=
  match h.history with
  | [] => { h with history := [c] }
  | o :: t =>
    if t.length + 1 < 16384 then { h with history := o :: t ++ [c] } else
      { h with
        history := t ++ [c]
        dropped := some (match h.dropped with | some d => if 0 < (o.hsn - d).toInt then o.hsn else d | none => o.hsn) }

/-- A completion is formed: it is kept in the history and waits at the front end; while the rings are not READY it is
discarded and its slot becomes IDLE at once (13 R419, R443, 02 R40). -/
def State.formed (s : State) (f : FnId) (c : Compl) : State :=
  let q := s.fn f
  let s1 := match q.hedge with
    | some h => s.modHedge h fun g => g.remember c
    | none => s
  if q.posting then s1.modFn f fun q => { q with waiting := q.waiting ++ [c] }
  else match c.slot with
    | some n => s1.idleSlot n
    | none => s1

/-- A completion of a command that used no slot, with GK CARRIED (13 R427). -/
def State.answer (s : State) (f : FnId) (hsn : BitVec 32) (status : Byte) (result detail : Word64) : State :=
  s.formed f { gk := .carried, gcs := 0, result := result, hsn := hsn, sqhead := (s.fn f).sqHead, status := status,
               cont := false, rp := false, detail := detail, slot := none, resync := false }

/-- HSN of a command (13 Table 13-6). -/
def cmdHsn (b : List Byte) : BitVec 32 := BitVec.ofNat 32 (natOfBytes ((b.drop 4).take 4))
/-- A little-endian field of a command or a block. -/
def fieldOf (b : List Byte) (off n : Nat) : Nat := natOfBytes ((b.drop off).take n)
/-- The bytes from `off` are zero. -/
def zeroFrom (b : List Byte) (off n : Nat) : Bool := ((b.drop off).take n).all fun x => x == 0

/-- The GCS that a slot still owes a completion of: its own, or the highest of its BULK step (13 R427). -/
def Slot.owes (sl : Slot) : Option Word64 :=
  match sl.work with
  | .run | .step .. => sl.gcs
  | .bulk b => sl.gcs.or b.gcs

/-- A completion may be posted now: completions with a GCS in GCS order, behind every slot of the hedge that still owes a
lower one (13 R427, 10 R341, 01 R33), and after every mirror acknowledgement (11 R376). -/
def State.postable (s : State) (f : FnId) (c : Compl) : Bool :=
  let owed : List Word64 := match (s.fn f).hedge with
    | some h => (s.liveSlots h).filterMap fun n => if c.slot = some n then none else (s.slot n).owes
    | none => []
  (match c.slot with | some n => (s.slot n).unacked == 0 | none => true) &&
    (c.rp || match c.gk with
      | .own => owed.all fun g => decide (c.gcs.toNat < g.toNat)
      | .observed => owed.all fun g => decide (c.gcs.toNat < g.toNat)
      | _ => true)

/-! ### Slots and start sequences (10 R312, R313) -/

/-- Draw a start sequence from the holder's block, or from the next block of 32. -/
def State.drawStart (s : State) (holder : Nat) : Word64 × State :=
  let b := tget ((0 : Word64), 0) s.startBlk holder
  if b.2 = 0 then
    (s.startNext, { s with startNext := s.startNext + 32, startBlk := tset (0, 0) s.startBlk holder (s.startNext + 1, 31) })
  else
    (b.1, { s with startBlk := tset (0, 0) s.startBlk holder (if b.2 = 1 then (0, 0) else (b.1 + 1, b.2 - 1)) })

/-- What the slot cap and the shared stock say of one more slot for a hedge (10 R312, 02 R57). -/
inductive Room where
  | ok | capped | stall
  deriving DecidableEq, Repr

/-- Slots a hedge holds from the shared stock. -/
def State.fromStock (s : State) (h : HedgeId) : Nat := (s.liveSlots h).length - (s.hedge h).par.sres

/-- Whether a hedge may draw a slot (10 R312). -/
def State.slotRoom (s : State) (h : HedgeId) : Room :=
  let live := (s.liveSlots h).length
  let p := (s.hedge h).par
  if live < p.sres then .ok
  else if p.scap ≤ live then .capped
  else
    let stock := 131072 - (s.openHedges.map fun g => (s.hedge g).par.sres).sum
    if (s.openHedges.map fun g => s.fromStock g).sum < stock then .ok else .stall

/-- The lowest-numbered IDLE slot (log 6). -/
def State.idleSlotNo (s : State) : Option SlotId :=
  ((List.range (s.slots.length + 1)).find? fun i => (tget Slot.reset s.slots i).state == .idle).bind fun i =>
    if h : i < 131072 then some ⟨i, h⟩ else none

/-! ### Advanced Error Reporting (16 R525) -/

/-- The HOSTPORT record of an AER report: the status bit of PCI Express and the header log, which the spec does not lay out (16 Table
16-5; log 3). -/
def portRecord (s : State) (p : PortId) (status : Nat) : ErrRec :=
  { tick := s.aoTick, cls := 0x0E, sev := 1, unit := unitCode 4 p.val, status := 0, cause := 0, hedge := none, addr := none, slot := none,
    detail := bytesOfNat 4 (2 ^ status) ++ (List.range 16).map (Config.privateByte s.free) }

/-- A host port reports an AER condition of a function and files its record. -/
def State.aer (s : State) (p : PortId) (fn : Nat) (status : Nat) : State :=
  let q := s.port p
  let s1 : State := { s with free := s.free + 1 }.setPort p { q with aer := if q.aer.contains (fn, status) then q.aer else q.aer ++ [(fn, status)] }
  s1.report (portRecord s p status)

/-- Bits of the AER uncorrectable error status (PCI Express). -/
abbrev aerPoisoned : Nat := 12
abbrev aerTimeout : Nat := 14
abbrev aerUnexpected : Nat := 16
abbrev aerUnsupported : Nat := 20

end Sys2Proof.Machine
end

