-- ==== Sys2Proof/Machine/Memory.lean ====
section
/-! DEFINITION. HBM and the drives: reads and writes of bytes with poison, the frame table, memory stops, and what an
uncorrectable error does (09 R286, R289; 10 R333; 16 R514 to R520). -/

namespace Sys2Proof.Machine

/-- Bytes of HBM: 144 GiB (01 Table 1-4, 12 Table 12-2). -/
abbrev hbmBytes : Nat := 0x2400000000
/-- First byte after the fixed regions of Table 1-4. -/
abbrev fixedEnd : Nat := 0x100000000
/-- First frame of the page-table pool (01 Table 1-4, 09 worked example). -/
abbrev ptPool : Nat := 0xA4800
/-- Frames of HBM (09 R282). -/
abbrev hbmFrames : Nat := 37748736

/-- The canonical form of a byte memory: addresses strictly rising, and no entry that reads as an unlisted one (log 5). -/
def Memory.wf (m : Tab Byte) : Bool := twf 0 m

/-- HBM channel of a frame, which is also its lock unit's number (09 R289, 10 R320). -/
def chanOf (frame : Nat) : UnitId := ⟨frame % 64, Nat.mod_lt _ (by decide)⟩

/-- Memory stop of an HBM channel (09 R289). -/
def stopOf (u : UnitId) : StopId := ⟨u.val / 8, by have := u.isLt; omega⟩

/-- One HBM byte. -/
def State.hbmByte (s : State) (a : Nat) : Byte := tget 0 s.hbm a

/-- Bytes of HBM. -/
def State.hbmRead (s : State) (a n : Nat) : List Byte := tgetRun 0 s.hbm a n

/-- A little-endian number in HBM. -/
def State.hbmNat (s : State) (a n : Nat) : Nat := natOfBytes (s.hbmRead a n)

/-- The granules that [a, a+n) covers. -/
def granules (a n : Nat) : List Nat := if n = 0 then [] else (List.range ((a + n - 1) / 32 - a / 32 + 1)).map fun i => a / 32 + i

/-- Whether a granule is poisoned; one with an uncorrectable error reads as poisoned (16 R518). -/
def State.granuleBad (s : State) (g : Nat) : Bool :=
  tget false s.poison g || decide (tget Latent.none s.hbmLatent g = .uncorrectable)

/-- Whether a read of [a, a+n) meets poison. -/
def State.readsPoison (s : State) (a n : Nat) : Bool := (granules a n).any fun g => s.granuleBad g

/-- Write bytes; a granule written in full loses its poison, a partly written one keeps it (10 R333, 16 R518). `pz` writes
the granules poisoned (12 R405). -/
def State.hbmWrite (s : State) (a : Nat) (bs : List Byte) (pz : Bool := false) : State :=
  { s with
    hbm := tsetRun 0 s.hbm a bs
    poison := (granules a bs.length).foldl
      (fun t g => if pz then tset false t g true
        else if decide (a ≤ 32 * g) && decide (32 * g + 32 ≤ a + bs.length) then tset false t g false else t) s.poison
    hbmLatent := (granules a bs.length).foldl
      (fun t g => if decide (a ≤ 32 * g) && decide (32 * g + 32 ≤ a + bs.length) then tset Latent.none t g .none else t)
      s.hbmLatent }

/-- Write a little-endian number. -/
def State.hbmPut (s : State) (a n v : Nat) : State := s.hbmWrite a (bytesOfNat n v)

/-- A directory entry as the 64 bytes of Table 10-5. -/
def endpointBytes (d : Endpoint) : List Byte :=
  bytesOfNat 4 (b2n d.v + 2 * b2n d.rw + 4 * b2n d.ext + 256 * d.marm.toNat) ++ bytesOfNat 4 d.evseq.toNat ++ bytesOfNat 8 d.addr.toNat ++
    bytesOfNat 16 d.len.toNat ++ bytesOfNat 16 d.app.toNat ++ bytesOfNat 16 0

/-- Write entry `i` of the endpoint directory, which stands at the start of HBM (01 Table 1-4, 10 R344). -/
def State.putEntry (s : State) (i : Nat) (v : Endpoint) : State :=
  { s with dir := tset Endpoint.zero s.dir i v }.hbmWrite (64 * i) (endpointBytes v)

/-- The directory's bytes in HBM are written from its entries. -/
def State.dirToHbm (s : State) : State := s.dir.foldl (fun (t : State) kv => t.hbmWrite (64 * kv.1) (endpointBytes kv.2)) s

/-- Address of a frame-table entry (09 R286). -/
def State.ftAddr (s : State) (frame : Nat) : Nat := s.regs.ftbase.toNat * 4096 + 2 * frame

/-- Frame-table entry of a frame (09 R286). -/
def State.frameEntry (s : State) (frame : Nat) : BitVec 16 := BitVec.ofNat 16 (s.hbmNat (s.ftAddr frame) 2)

/-- A frame-table entry (09 Table 9-7). -/
def mkFe (h : HedgeId) (key rkey : Nat) (v : Bool) : Nat := h.val + 64 * (key % 16) + 1024 * (rkey % 16) + 16384 * b2n v

/-- Write the frame-table entries of `n` frames. -/
def State.setFrames (s : State) (frame n fe : Nat) : State :=
  (List.range n).foldl (fun t i => t.hbmPut (t.ftAddr (frame + i)) 2 fe) s

/-- The page that a frame holds, from the allocation records: hedge, address and log2 size. -/
def State.pageOf (s : State) (frame : Nat) : Option (HedgeId × Nat × Nat) :=
  match tget none s.alloc frame with
  | some p => some p
  | none =>
    match tget none s.alloc (frame / 512 * 512) with
    | some (h, va, z) => if 21 ≤ z then some (h, va, z) else none
    | none => tget none s.alloc (frame / 262144 * 262144)

/-- Record-space address of an HBM byte, from the allocation records. -/
def State.vaOf (s : State) (a : Nat) : Option (HedgeId × Nat) :=
  (s.pageOf (a / 4096)).map fun p => (p.1, p.2.1 + a % 2 ^ p.2.2)

/-- The slots that hold an exclusive lock on a record that the granule at hedge `h`, address `va` lies in (16 R518). -/
def State.holdersOver (s : State) (h : HedgeId) (va : Nat) : List SlotId :=
  s.busySlots.filter fun n =>
    (s.slot n).hedge == h && (s.slot n).grants.any fun g => decide (g.addr < va / 32 * 32 + 32) && decide (va / 32 * 32 < g.addr + g.len)

/-- A MEDIA event (16 Table 16-2). -/
def mediaEvent (a : Word64) (va kind n : Nat) : Ev :=
  { kind := 9, a := a, b := BitVec.ofNat 64 va, c := BitVec.ofNat 32 kind, d := BitVec.ofNat 64 n }

/-- ERR_MEMCNTk of a stop. -/
def State.memcnt (s : State) (k : StopId) : MemCnt := tget MemCnt.reset s.regs.memcnt k.val

/-- Change ERR_MEMCNTk. -/
def State.modMemcnt (s : State) (k : StopId) (f : MemCnt → MemCnt) : State :=
  { s with regs := { s.regs with memcnt := tset MemCnt.reset s.regs.memcnt k.val (f (s.memcnt k)) } }

/-- 24 hours in ao-ticks. -/
abbrev day : Nat := 86400000000

/-- The HBM record of a granule; its syndrome is private (16 Table 16-5; log 3). -/
def hbmRecord (s : State) (g : Nat) (h : Option HedgeId) (slot : Option SlotId) : ErrRec :=
  { tick := s.aoTick, cls := 0x06, sev := 1, unit := unitCode 2 (stopOf (chanOf (g / 128))).val, status := 0x04, cause := 0,
    hedge := h, addr := some (BitVec.ofNat 64 (2 * 2 ^ 60 + 32 * g)), slot := slot, detail := [BitVec.ofNat 8 (chanOf (g / 128)).val, Config.privateByte s.free 0] }

/-- A memory stop poisons a granule: syndrome, count, record, media marks and the MEDIA event (16 R518). -/
def State.poisonGranule (s : State) (g : Nat) : State :=
  let u := (chanOf (g / 128)).val
  let s1 := ({ s with
    poison := tset false s.poison g true, hbmLatent := tset Latent.none s.hbmLatent g .none, free := s.free + 1
    chanUe := tset [] s.chanUe u (tally s.aoTick.toNat 1000000 (tget [] s.chanUe u)) }).modMemcnt (stopOf (chanOf (g / 128))) fun c => { c with ue := satInc c.ue }
  match s.vaOf (32 * g) with
  | none => s1.report (hbmRecord s g none none)
  | some (h, va) =>
    let hs := s.holdersOver h va
    let s2 := s1.report (hbmRecord s g (some h) hs.head?)
    ({ s2 with mediaMarks := s2.mediaMarks ++ hs.map fun n => (stopOf (chanOf (g / 128)), n) }).hedgeEvent h (mediaEvent s.lehr.drawn va 1 1)

/-- A read of a granule meets its latent error (16 R514, R518, R520). -/
def State.meetGranule (s : State) (g : Nat) : State :=
  match tget Latent.none s.hbmLatent g with
  | .none => s
  | .correctable =>
    (({ s with
        hbmLatent := tset Latent.none s.hbmLatent g .none, free := s.free + 1
        frameErr := tset [] s.frameErr (g / 128) (tally s.aoTick.toNat day (tget [] s.frameErr (g / 128))) }).modMemcnt (stopOf (chanOf (g / 128)))
      fun c => { c with ce := satInc c.ce }).report { hbmRecord s g none none with sev := 0, status := 0 }
  | .uncorrectable => s.poisonGranule g

/-- A read of [a, a+n) meets its latent errors. -/
def State.meetRead (s : State) (a n : Nat) : State := (granules a n).foldl (fun t g => t.meetGranule g) s

/-- Key of a drive byte: port and byte address. -/
def diskAt (port block : Nat) : Nat := port * 2 ^ 52 + block * 4096

/-- Replace `n` bytes of HBM by zeros, in whole granules, and clear their poison. -/
def State.hbmZero (s : State) (a n : Nat) : State :=
  { s with
    hbm := tclear s.hbm a n, poison := tclear s.poison (a / 32) (n / 32)
    hbmLatent := tclear s.hbmLatent (a / 32) (n / 32) }

/-- Copy drive blocks into HBM. DESIGN CHOICE: bytes that were written to the drive with poison come back with it (log 69). -/
def State.diskToHbm (s : State) (port block a n : Nat) : State :=
  { s.hbmZero a n with
    hbm := tcopy s.hbm a n s.disk (diskAt port block)
    poison := tcopy s.poison (a / 32) (n / 32) s.diskPoison (diskAt port block / 32) }

/-- Copy HBM into drive blocks, with the poison of its granules (12 R405). -/
def State.hbmToDisk (s : State) (port block a n : Nat) : State :=
  { s with
    disk := tcopy s.disk (diskAt port block) n s.hbm a
    diskPoison := tcopy s.diskPoison (diskAt port block / 32) (n / 32) s.poison (a / 32) }

/-- Move frames within HBM with their poison (16 R520). -/
def State.hbmMove (s : State) (src dst n : Nat) : State :=
  { s.hbmZero dst n with
    hbm := tcopy s.hbm dst n s.hbm src, poison := tcopy s.poison (dst / 32) (n / 32) s.poison (src / 32) }

end Sys2Proof.Machine
end

