-- ==== Sys2Proof/Machine/Translate.lean ====
section
/-! DEFINITION. Translation of record-space addresses: PTEs, the walk, permissions and storage keys, the TLBs, marks and
invalidation (09 R279 to R308). -/

namespace Sys2Proof.Machine

/-! ### Page-table entries (09 Tables 9-3, 9-4) -/

/-- A PTE. -/
abbrev Pte := BitVec 64

/-- FRAME of a pointer or a resident leaf. -/
def Pte.frame (p : Pte) : Nat := bits p 43 12
/-- BLOCK of a non-resident leaf. -/
def Pte.block (p : Pte) : Nat := bits p 47 12
/-- SSD of a non-resident leaf. -/
def Pte.ssd (p : Pte) : Nat := bits p 51 48
/-- V. -/
def Pte.v (p : Pte) : Bool := bit p 0
/-- RES. -/
def Pte.res (p : Pte) : Bool := bit p 6
/-- R, W and X are all 0. -/
def Pte.noPerm (p : Pte) : Bool := bits p 3 1 == 0
/-- A pointer to the next table. -/
def Pte.pointer (p : Pte) : Bool := p.v && p.noPerm && p.res

/-- log2 of the size of a page at a level (09 Table 9-5). -/
def levelBits (level : Nat) : Nat := 12 + 9 * (level - 1)
/-- Frames of a page at a level. -/
def levelFrames (level : Nat) : Nat := 2 ^ (9 * (level - 1))

/-- A malformed PTE (09 R282). -/
def Pte.malformed (p : Pte) (level : Nat) : Bool :=
  (bit p 2 && !(bit p 1)) ||
    if p.noPerm then
      !p.res || bits p 5 4 != 0 || bits p 9 7 != 0 || bits p 63 44 != 0 || level == 1 ||
        !(decide (ptPool ≤ p.frame) && decide (p.frame < fixedEnd / 4096))
    else if !(bit p 1 || bit p 3) then true
    else if p.res then
      bits p 8 7 != 0 || bits p 63 44 != 0 || level == 4 || p.frame % levelFrames level != 0 ||
        decide (hbmFrames < p.frame + levelFrames level) || decide (p.frame < fixedEnd / 4096)
    else bit p 9 || bits p 63 60 != 0 || p.block % levelFrames level != 0

/-- A non-resident leaf with R, W and X of `perm`, in bits [3:1]. -/
def mkLeaf (perm : Nat) (zero busy : Bool) (block ssd pkey prkey : Nat) : Pte :=
  BitVec.ofNat 64 (1 + 2 * (perm % 8) + 128 * b2n busy + 256 * b2n zero + 2 ^ 12 * (block % 2 ^ 36) + 2 ^ 48 * (ssd % 16) +
    2 ^ 52 * (pkey % 16) + 2 ^ 56 * (prkey % 16))

/-- A resident leaf. -/
def mkResident (perm : Nat) (a d pin : Bool) (frame : Nat) : Pte :=
  BitVec.ofNat 64 (1 + 2 * (perm % 8) + 16 * b2n a + 32 * b2n d + 64 + 512 * b2n pin + 2 ^ 12 * frame)

/-- A pointer. -/
def mkPointer (frame : Nat) : Pte := BitVec.ofNat 64 (1 + 64 + 2 ^ 12 * frame)

/-! ### The walk (09 R283) -/

/-- Where a walk ends. -/
inductive Walk where
  | fail (status : Byte)
  | malformed (p : Pte) (level : Nat)
  | leaf (at_ : Nat) (p : Pte) (level : Nat)
  deriving DecidableEq, Repr

/-- Address of the entry for `va` of the table in frame `t` (09 R279). -/
def pteAddr (t level va : Nat) : Nat := t * 4096 + 8 * (va / 2 ^ levelBits level % 512)

/-- The walk from the table in frame `t` at level `level`, and the entries it read. -/
def State.walkFrom (s : State) (va : Nat) : Nat → Nat → Walk × List Nat
  | 0, _ => (.fail 0x05, [])
  | n + 1, t =>
    let a := pteAddr t (n + 1) va
    let p : Pte := BitVec.ofNat 64 (s.hbmNat a 8)
    if s.readsPoison a 8 then (.fail 0x04, [a])
    else if !p.v then (.fail 0x05, [a])
    else if p.malformed (n + 1) then (.malformed p (n + 1), [a])
    else if p.pointer then
      let r := s.walkFrom va n p.frame
      (r.1, a :: r.2)
    else (.leaf a p (n + 1), [a])

/-- The walk from the hedge's root (09 R283). -/
def State.walk (s : State) (h : HedgeId) (va : Nat) : Walk × List Nat :=
  if (s.hedge h).rootV then s.walkFrom va 4 (s.hedge h).root.toNat else (.fail 0x05, [])

/-- First address of the page at a level. -/
def pageBase (va level : Nat) : Nat := va / 2 ^ levelBits level * 2 ^ levelBits level

/-- The eviction under way of the page at `base` (09 R305). -/
def State.evicting (s : State) (h : HedgeId) (base : Nat) : Option Evict := s.evicts.find? fun v => v.h == h && v.base == base

/-- Physical address of a record byte whose page is resident, or is being evicted: an access that translated before, or a delta, still
reaches its frame (09 R305, R308). -/
def State.phys (s : State) (h : HedgeId) (va : Nat) : Option Nat :=
  match (s.walk h va).1 with
  | .leaf _ p level =>
    if p.res then some (p.frame * 4096 + va % 2 ^ levelBits level)
    else (s.evicting h (pageBase va level)).map fun v => v.frame * 4096 + va % 2 ^ levelBits level
  | _ => none

/-- Split [va, va+n) at 4 KiB boundaries: the first address and length of each part (09 R289). -/
def pageParts (va n : Nat) : List (Nat × Nat) :=
  if n = 0 then []
  else (List.range ((va + n - 1) / 4096 - va / 4096 + 1)).map fun i =>
    let lo := if i = 0 then va else (va / 4096 + i) * 4096
    let hi := min (va + n) ((va / 4096 + i + 1) * 4096)
    (lo, hi - lo)

/-- The record's bytes with the poison of each, where its pages are resident. -/
def State.readRecord (s : State) (h : HedgeId) (va n : Nat) : List (Byte × Bool) :=
  (List.range n).map fun i =>
    match s.phys h (va + i) with
    | some a => (s.hbmByte a, s.granuleBad (a / 32))
    | none => (0, false)

/-- Reads of a record meet latent errors. -/
def State.meetRecord (s : State) (h : HedgeId) (va n : Nat) : State :=
  (pageParts va n).foldl (fun t q => match s.phys h q.1 with | some a => t.meetRead a q.2 | none => t) s

/-- Write bytes of a record where its pages are resident. -/
def State.writeRecord (s : State) (h : HedgeId) (va : Nat) (bs : List Byte) (pz : Bool := false) : State :=
  (pageParts va bs.length).foldl
    (fun t q => match s.phys h q.1 with | some a => t.hbmWrite a ((bs.drop (q.1 - va)).take q.2) pz | none => t) s

/-! ### Intents, permissions and keys (09 Table 9-6, R287) -/

/-- An access: the engine whose D-TLB it uses (none for a mover), the cluster, the hedge, the check key and the intent. -/
structure Access where
  eng : Option EngId
  clu : CluId
  h : HedgeId
  key : BitVec 4
  /-- Needs W and the writer's key. -/
  write : Bool
  /-- Sets D as well as A. -/
  setD : Bool
  /-- A prefetch sets neither and fills with SPEC = 1. -/
  prefetch : Bool
  deriving DecidableEq, Repr

/-- PTE bits needed (09 Table 9-6). -/
def Access.permitted (a : Access) (r w : Bool) : Bool := r && (!a.write || w)

/-- The key check (09 R287). -/
def Access.keyOk (a : Access) (fe : BitVec 16) : Bool :=
  a.key == 0 ||
    (bit fe 14 && !(bit fe 15) && bits fe 5 0 == a.h.val &&
      if a.write then bits fe 9 6 == a.key.toNat
      else bits fe 13 10 == 0 || bits fe 9 6 == a.key.toNat || bits fe 13 10 == a.key.toNat)

/-! ### TLBs (09 R290 to R292) -/

/-- An entry translates `va` of hedge `h`. -/
def TlbEntry.hits (t : TlbEntry) (h : HedgeId) (va : Nat) : Bool := t.valid && t.hedge == h && t.page == va / 2 ^ t.size

/-- Drop the entries that `f` names from a TLB. -/
def tlbDrop (t : Tab TlbEntry) (f : TlbEntry → Bool) : Tab TlbEntry := t.filter fun kv => !f kv.2

/-- Position of a hit in a TLB. -/
def tlbFind (t : Tab TlbEntry) (h : HedgeId) (va : Nat) : Option Nat :=
  (t.find? fun kv => kv.2.hits h va).map (·.1)

/-- Victim of a D-TLB fill: an invalid entry, else a SPEC entry not used since its fill, else the first with its use bit
clear from the rotating pointer (09 Table 9-8). -/
def Engine.dtlbVictim (e : Engine) : Nat :=
  let en := fun i => tget TlbEntry.empty e.dtlb i
  match (List.range 32).find? fun i => !(en i).valid with
  | some i => i
  | none =>
    match (List.range 32).find? fun i => (en i).spec && !(en i).used with
    | some i => i
    | none =>
      match ((List.range 32).map fun i => (e.dtlbPtr.val + i) % 32).find? fun i => !(en i).used with
      | some i => i
      | none => e.dtlbPtr.val

/-- Fill the D-TLB; when every use bit was set, all are cleared first. -/
def Engine.dtlbFill (e : Engine) (t : TlbEntry) : Engine :=
  let full := (List.range 32).all fun i => (tget TlbEntry.empty e.dtlb i).valid && (tget TlbEntry.empty e.dtlb i).used
  let i := e.dtlbVictim
  let d := if full then tmap TlbEntry.empty e.dtlb fun x => { x with used := false } else e.dtlb
  { e with dtlb := tset TlbEntry.empty d i t, dtlbPtr := ⟨(i + 1) % 32, Nat.mod_lt _ (by decide)⟩ }

/-- Set of an L2 TLB entry (09 R292). -/
def l2Set (h : HedgeId) (size va : Nat) : Nat := (va / 2 ^ size % 512) ^^^ (h.val * 8 % 512)

/-- The way that a tree pseudo-LRU of 7 bits names: bit 0 the root, then its children (09 Table 9-8). -/
def plruWay (b : BitVec 7) : Nat :=
  let i := b2n (bit b 0)
  let j := b2n (bit b (1 + i))
  4 * i + 2 * j + b2n (bit b (3 + 2 * i + j))

/-- The tree after a use of `w`: every node on its path points away. -/
def plruUse (b : BitVec 7) (w : Nat) : BitVec 7 :=
  let i := w / 4
  let j := w / 2 % 2
  let put := fun (x : BitVec 7) (n : Nat) (v : Bool) => if v then x ||| BitVec.ofNat 7 (2 ^ n) else x &&& ~~~(BitVec.ofNat 7 (2 ^ n))
  put (put (put b 0 (i == 0)) (1 + i) (j == 0)) (3 + 2 * i + j) (w % 2 == 0)

/-- Fill the L2 TLB. -/
def Clu.l2Fill (k : Clu) (h : HedgeId) (va : Nat) (t : TlbEntry) : Clu :=
  let st := l2Set h t.size va
  let en := fun w => tget TlbEntry.empty k.l2 (8 * st + w)
  let w := match (List.range 8).find? fun w => !(en w).valid with
    | some w => w
    | none => match (List.range 8).find? fun w => (en w).spec with
      | some w => w
      | none => plruWay (tget 0 k.plru st)
  { k with
    l2 := tset TlbEntry.empty k.l2 (8 * st + w) t, plru := tset 0 k.plru st (plruUse (tget 0 k.plru st) w)
    specFill := if t.spec then satInc k.specFill else k.specFill }

/-- An L2 TLB hit uses its way. -/
def Clu.l2Use (k : Clu) (i : Nat) : Clu := { k with plru := tset 0 k.plru (i / 8) (plruUse (tget 0 k.plru (i / 8)) (i % 8)) }

/-- What the translation of one page came to. -/
inductive PageRes where
  | ok
  | fail (status : Byte)
  /-- A record fault (09 R302). -/
  | fault (va : Nat)
  /-- A mark request is needed for the page of `va`, whose leaf is at `pte` (09 R298, R301). -/
  | mark (va pte : Nat)
  deriving DecidableEq, Repr

/-- The leaf's address for a mark request. -/
def State.leafAddr (s : State) (h : HedgeId) (va : Nat) : Nat :=
  match (s.walk h va).1 with
  | .leaf a _ _ => a
  | _ => 0

/-- An access that hits an entry: permission and key first, then the mark that it needs (09 R298, R301). -/
def State.onHit (s : State) (a : Access) (va : Nat) (t : TlbEntry) : PageRes :=
  if !a.permitted t.r t.w || !a.keyOk t.fe then .fail 0x05
  else if !a.prefetch && (t.spec || (a.setD && !t.dirty)) then .mark va (s.leafAddr a.h va)
  else .ok

/-- The WALK record of a malformed PTE, by the cluster's walker (09 R282, 16 Table 16-5). -/
def walkRecord (s : State) (k : CluId) (h : HedgeId) (p : Pte) (level : Nat) : ErrRec :=
  { tick := s.aoTick, cls := 0x08, sev := 1, unit := unitCode 1 k.val, status := 0x05, cause := 0, hedge := some h, addr := none,
    slot := none, detail := bytesOfNat 8 p.toNat ++ [BitVec.ofNat 8 level] }

/-- The leaf after the marks of an access. -/
def Pte.marked (p : Pte) (a : Access) : Pte :=
  if a.prefetch then p else p ||| BitVec.ofNat 64 (16 + (if a.setD then 32 else 0))

/-- A walk's leaf step on a resident leaf: permission, mark, chained frame-table read, TLB fill, key check (09 R283). -/
def State.walkLeaf (s : State) (a : Access) (va at_ : Nat) (p : Pte) (level : Nat) : State × PageRes :=
  if !a.permitted (bit p 1) (bit p 2) then (s, .fail 0x05)
  else
    let p1 := p.marked a
    let s1 := if p1 = p then s else s.hbmPut at_ 8 p1.toNat
    let s2 := s1.meetRead (s1.ftAddr p.frame) 2
    if s1.readsPoison (s1.ftAddr p.frame) 2 then (s2, .fail 0x04)
    else
      let fe := s1.frameEntry p.frame
      let t : TlbEntry :=
        { valid := true, hedge := a.h, size := levelBits level, page := va / 2 ^ levelBits level, frame := p.frame,
          r := bit p 1, w := bit p 2, x := bit p 3, dirty := bit p1 5, fe := fe, spec := a.prefetch, used := !a.prefetch }
      let s3 :=
        if a.prefetch && !a.keyOk fe then s2
        else
          let s4 := s2.modClu a.clu fun k => k.l2Fill a.h va t
          match a.eng with
          | some e => s4.modEng e fun g => g.dtlbFill t
          | none => s4
      (s3, if a.keyOk fe then .ok else .fail 0x05)

/-- The TLB record of an entry with a parity error, which costs nothing but the walk (16 R514, Table 16-5). -/
def tlbRecord (s : State) (k : CluId) (h : HedgeId) (i : Nat) : ErrRec :=
  { tick := s.aoTick, cls := 0x05, sev := 0, unit := unitCode 1 k.val, status := 0, cause := 0, hedge := some h, addr := none, slot := none
    detail := bytesOfNat 4 i }

/-- An entry with a parity error that the lookup meets is invalid and counted, and the access misses it (16 R514). -/
def State.dropParity (s : State) (a : Access) (va : Nat) : State :=
  let f := fun (t : TlbEntry) => t.parity && t.hits a.h va
  let d := match a.eng with | some e => (s.eng e).dtlb | none => []
  let ds := d.filter fun kv => f kv.2
  let ls := if (tlbFind (tlbDrop d f) a.h va).isSome then [] else (s.clu a.clu).l2.filter fun kv => f kv.2
  if ds.isEmpty && ls.isEmpty then s
  else
    let s1 := (ds ++ ls).foldl
      (fun (t : State) kv => (t.modClu a.clu fun k => { k with tlbpe := satInc k.tlbpe }).report (tlbRecord t a.clu a.h kv.1)) s
    let s2 := if ls.isEmpty then s1 else s1.modClu a.clu fun k => { k with l2 := tlbDrop k.l2 f }
    match a.eng with
    | some e => s2.modEng e fun g => { g with dtlb := tlbDrop g.dtlb f }
    | none => s2

/-- Translate one page for an access (09 R283, R291, R295); a prefetch fills the D-TLB with SPEC = 1 and only when its checks pass
(R300). -/
def State.transPage (s : State) (a : Access) (va : Nat) : State × PageRes :=
  let s := s.dropParity a va
  let inD := a.eng.bind fun e => tlbFind (s.eng e).dtlb a.h va
  match a.eng, inD with
  | some e, some i =>
    let t := tget TlbEntry.empty (s.eng e).dtlb i
    (s.modEng e fun g => { g with dtlb := tset TlbEntry.empty g.dtlb i { t with used := t.used || !a.prefetch } }, s.onHit a va t)
  | _, _ =>
    match tlbFind (s.clu a.clu).l2 a.h va with
    | some i =>
      let t := tget TlbEntry.empty (s.clu a.clu).l2 i
      let s1 := s.modClu a.clu fun k => k.l2Use i
      let r := s.onHit a va t
      (match a.eng with
        | some e =>
          if a.prefetch && r != PageRes.ok then s1
          else s1.modEng e fun g => g.dtlbFill { t with spec := t.spec || a.prefetch, used := !a.prefetch }
        | none => s1, r)
    | none =>
      let s1 := s.modClu a.clu fun k => { k with l2miss := satInc k.l2miss }
      let w := s1.walk a.h va
      let s2 := w.2.foldl (fun t x => t.meetRead x 8) s1
      match w.1 with
      | .fail st => (s2, .fail st)
      | .malformed p level => (s2.report (walkRecord s2 a.clu a.h p level), .fail 0x05)
      | .leaf at_ p level => if p.res then s2.walkLeaf a va at_ p level else (s2, .fault va)

/-- The 4 KiB parts that [va, va+n) spans, by their first address inside the range. -/
def spanPages (va n : Nat) : List Nat := (pageParts va n).map (·.1)

/-- The result that stands first: a record fault makes the access wait, then a mark, then MEDIA before KEY (09 R294). -/
def PageRes.join (x y : PageRes) : PageRes :=
  match x, y with
  | .fault a, _ => .fault a
  | _, .fault a => .fault a
  | .mark a p, _ => .mark a p
  | _, .mark a p => .mark a p
  | .fail 0x04, _ => .fail 0x04
  | _, .fail 0x04 => .fail 0x04
  | .fail a, _ => .fail a
  | _, y => y

/-- log2 of the size of the page that a lookup of `va` meets: that of a TLB entry, else that of its leaf. -/
def State.pageBits (s : State) (a : Access) (va : Nat) : Nat :=
  match a.eng.bind fun e => (tlbFind (s.eng e).dtlb a.h va).map fun i => (tget TlbEntry.empty (s.eng e).dtlb i).size with
  | some z => z
  | none =>
    match tlbFind (s.clu a.clu).l2 a.h va with
    | some i => (tget TlbEntry.empty (s.clu a.clu).l2 i).size
    | none => match (s.walk a.h va).1 with
      | .leaf _ _ level => levelBits level
      | _ => 12

/-- Translate the parts of a range in address order, each page once: `upto` is the end of the page translated last (09 R294). -/
def State.transParts (a : Access) : List Nat → Nat → State × PageRes → State × PageRes
  | [], _, r => r
  | p :: t, upto, r =>
    if p < upto then State.transParts a t upto r
    else
      let z := r.1.pageBits a p
      let q := r.1.transPage a p
      State.transParts a t ((p / 2 ^ z + 1) * 2 ^ z) (q.1, r.2.join q.2)

/-- Translate a whole range, page by page in address order (09 R294). -/
def State.transRange (s : State) (a : Access) (va n : Nat) : State × PageRes := State.transParts a (spanPages va n) 0 (s, .ok)

/-! ### Invalidation (09 R307) -/

/-- Drop entries from every TLB of the clusters named. -/
def State.dropTlb (s : State) (mask : BitVec 32) (f : TlbEntry → Bool) : State :=
  { s with
    clus := s.clus |> fun t => (List.finRange 32).foldl
      (fun t (k : CluId) => if bit mask k.val then tset Clu.reset t k.val { tget Clu.reset t k.val with l2 := tlbDrop (tget Clu.reset t k.val).l2 f } else t) t
    engines := tmap Engine.reset s.engines id |> fun t => (List.finRange 256).foldl
      (fun t (e : EngId) =>
        if bit mask (e.val / 8) then tset Engine.reset t e.val { tget Engine.reset t e.val with dtlb := tlbDrop (tget Engine.reset t e.val).dtlb f } else t) t }

/-- The entries that OP PAGE removes. -/
def tlbOfPage (h : HedgeId) (va : Nat) (t : TlbEntry) : Bool := t.hits h va

/-- The entries that OP FRAME removes. -/
def tlbOfFrame (frame : Nat) (t : TlbEntry) : Bool := t.valid && decide (t.frame ≤ frame) && decide (frame < t.frame + 2 ^ (t.size - 12))

/-- A cluster named by an invalidation wakes from C1 or C2; in C3 and C4 its TLBs are already invalid (14 R458). -/
def Clu.wakeForInv (k : Clu) : Clu := if k.pst = .c1 ∨ k.pst = .c2 then { k with waking := true } else k

/-- The clusters that an invalidation names wake. -/
def State.wakeForInv (s : State) (mask : BitVec 32) : State :=
  (List.finRange 32).foldl (fun t k => if bit mask k.val then t.modClu k Clu.wakeForInv else t) s

/-- Firmware's own invalidation in every cluster, through KEY_TLBINV and KEY_TLBADDR: it waits for an earlier one (09 R307; 14 R458). -/
def State.fwInvalidate (s : State) (op : BitVec 3) (h : HedgeId) (page : Nat) (f : TlbEntry → Bool) : State :=
  let s1 := { s with regs := { s.regs with
    tlbOp := op, tlbHedge := if op = 3 then s.regs.tlbHedge else h, tlbPage := BitVec.ofNat 36 page, clmask := BitVec.allOnes 32, tlbBusy := false } }
  (s1.dropTlb (BitVec.allOnes 32) f).wakeForInv (BitVec.allOnes 32)

/-- Firmware invalidates a page. -/
def State.invPage (s : State) (h : HedgeId) (va : Nat) : State := s.fwInvalidate 1 h (va / 4096) (tlbOfPage h va)

/-- Firmware invalidates a hedge. -/
def State.invHedge (s : State) (h : HedgeId) : State := s.fwInvalidate 2 h s.regs.tlbPage.toNat fun t => t.hedge == h

/-- Firmware gives frames their HEDGE, KEY and RKEY, and invalidates each (09 R310). -/
def State.rekey (s : State) (frame n fe : Nat) : State :=
  (s.setFrames frame n fe).fwInvalidate 3 0 (frame + n - 1) fun t =>
    t.valid && decide (t.frame < frame + n) && decide (frame < t.frame + 2 ^ (t.size - 12))

end Sys2Proof.Machine
end

