-- ==== Sys2Proof/Machine/EventOps.lean ====
section
/-! DEFINITION. Shared operations of the events that reach engines: completions, pending events, iterative units, dispatch
into a context and engine-bound messages (02 R50 to R53, 03 R66 to R74, 05 R168, 08 R244 to R247). -/

namespace Sys2Proof.Machine

/-! ### Where a slot's context is -/

/-- The engine and context that hold a slot (10 R314). -/
def State.holder (s : State) (n : SlotId) : Option (EngId × CtxId) :=
  let sl := s.slot n
  let c := (s.eng sl.eng).ctx sl.ctx
  if sl.state ≠ .idle ∧ sl.state ≠ .admitted ∧ sl.state ≠ .parked ∧ c.state ≠ .free ∧ c.slot = n then some (sl.eng, sl.ctx) else none

/-- A context becomes FREE, and its units free; no access of it is outstanding. In C1 the time without a resident context begins anew
(14 R457). -/
def State.freeCtx (s : State) (e : EngId) (n : CtxId) : State :=
  ({ s with invWait := s.invWait.filter fun q => q != (e, n) }.modEng e fun g => (g.setCtx n { (g.ctx n).freed with heldOn := none }).freeUnits n).modClu
    (cluOf e) fun (k : Clu) => if k.pst = PState.c1 then { k with since := s.aoTick.toNat } else k

/-! ### Completions (03 R67, R74; 05 R169; 08 R264) -/

/-- Change the outstanding request. -/
def Ctx.modRequest (c : Ctx) (f : Wait → Wait) : Ctx :=
  match c.wait with
  | some w => { c with wait := some (f w) }
  | none => { c with savedWait := c.savedWait.map f }

/-- WHY of a wait at a stage: PAGE while the pager has the page, else as the record of a RETI or the request gave it (03 Table 3-3, 08
R269). -/
def Wait.whyAt (w : Wait) (st : Stage) : BitVec 4 :=
  match w.req with
  | .rpref .. => w.why
  | .waitev .. => w.why
  | .commit .. => w.why
  | q =>
    match st with
    | .pageFault _ => 3
    | _ => if w.why = 3 then (match q with | .stage .. => 6 | _ => 1) else w.why

/-- The stage of the outstanding request; the WHY of a live wait follows it (03 Table 3-3). -/
def Ctx.setStage (c : Ctx) (st : Stage) : Ctx := c.modRequest fun w => { w with stage := st, why := w.whyAt st }

/-- The completion cell goes on the stack of a context in WAIT, which becomes READY. -/
def Ctx.resume (c : Ctx) (a : Arrival) : Ctx :=
  match a with
  | .plain => { c with wait := none, state := .ready }
  | .cell k => { (c.popPush 0 [k]) with wait := none, state := .ready }

/-- A completion arrives: it ends a live wait, or is recorded while the context vectors or runs a handler. -/
def Ctx.arrive (c : Ctx) (a : Arrival) : Ctx :=
  match c.wait with
  | some w => if c.state = .wait then c.resume a else { c with wait := some { w with done := some a } }
  | none => { c with savedWait := c.savedWait.map fun w => { w with done := some a } }

/-- A context of a cluster whose clock is gated has become READY or may take an event: the cluster wakes (03 R73, 14 Table 14-1). -/
def State.rouse (s : State) (e : EngId) (n : CtxId) : State :=
  if !s.running e && ((s.eng e).ctx n).wants then s.modClu (cluOf e) fun k => { k with waking := true } else s

/-- A completion arrives at a context; one that an end notice has stopped becomes FREE and its slot ends (10 R328). -/
def State.arriveAt (s : State) (e : EngId) (n : CtxId) (a : Arrival) : State :=
  let c := (s.eng e).ctx n
  let s := { s with invWait := s.invWait.filter fun q => q != (e, n) }
  if c.ending then (s.freeCtx e n).endTxn c.slot (s.slot c.slot).status 0
  else if c.state = .quarantined then s
  else (s.modCtx e n fun c => c.arrive a).rouse e n

/-- A completion for a slot's context, or for its parked image, which may then unpark (10 R317). -/
def State.arriveSlot (s : State) (n : SlotId) (a : Arrival) : State :=
  match s.holder n with
  | some (e, c) => s.arriveAt e c a
  | none =>
    if (s.slot n).state = .parked then
      s.modSlot n fun sl => { sl with image := sl.image.map fun m => { m with ctx := m.ctx.arrive a }, runnable := true }
    else s

/-- The request that the slot's context or parked image still waits for. -/
def State.slotRequest (s : State) (n : SlotId) : Option Wait :=
  match s.holder n with
  | some (e, c) => ((s.eng e).ctx c).request?
  | none => (s.slot n).image.bind fun m => if (s.slot n).state = .parked then m.ctx.request? else none

/-- The request completes and is discarded once its transaction has ended; a lock request is withdrawn, and so is an event wait, which
might never complete (10 R328; log 58). A commit ends where it stands. -/
def Wait.moving (w : Wait) : Bool :=
  match w.req with
  | .waitev .. => false
  | .commit .. => false
  | _ => match w.stage with
    | .lock => false
    | .lockWait => false
    | _ => true

/-- A context's transaction is ended from outside with a status: it issues nothing more, and becomes FREE at once, when its
count elapses, or when its outstanding request has completed; a quarantined one stays until QUARANTINE_END (05 R169, 08 R261, 10
R328). -/
def State.stopCtx (s : State) (e : EngId) (n : CtxId) (status : Byte) : State :=
  let c := (s.eng e).ctx n
  match c.request? with
  | some w =>
    if c.state = .quarantined then (s.endTxn c.slot status 0).modCtx e n fun c => { c with ending := true }
    else if w.moving then
      (s.modEng e fun g => (g.setCtx n { c with ending := true, state := .wait, left := 0, wait := some w, savedWait := none }).freeUnits n).modSlot
        c.slot fun sl => sl.doomed status
    else (s.freeCtx e n).endTxn c.slot status 0
  | none =>
    if c.state = .quarantined then (s.endTxn c.slot status 0).modCtx e n fun c => { c with ending := true }
    else if c.state = .busy then (s.modCtx e n fun c => { c with ending := true, wait := none, savedWait := none }).endTxn c.slot status 0
    else (s.freeCtx e n).endTxn c.slot status 0

/-! ### Pending events (03 R71, 08 R244 to R247) -/

/-- An asynchronous event has become pending: an abandonable instruction in progress is abandoned when the context will take
the event (03 R71). -/
def Engine.abandon (e : Engine) (n : CtxId) : Engine :=
  let c := e.ctx n
  match c.undo with
  | none => e
  | some u =>
    let c1 : Ctx :=
      { c with
        state := .ready, left := 0, pc := u.pc, depth := u.depth, win := u.win, pb := u.pb, ehLeft := u.ehLeft
        psw := { c.psw with eh := u.eh }, undo := none }
    if c.state = .busy && c1.takable.isSome then (e.setCtx n c1).freeUnit n u.unit else e

/-- A context holds a slot and takes events. -/
def Ctx.live (c : Ctx) : Bool := c.state != .free && c.state != .quarantined && !c.ending

/-- Make an event pending on a slot's context, or in its parked image, which may then unpark (08 R246, 10 R317). -/
def State.pend (s : State) (n : SlotId) (f : Ctx → Ctx) : State :=
  match s.holder n with
  | some (e, c) =>
    if ((s.eng e).ctx c).live then (s.modEng e fun g => (g.setCtx c (f (g.ctx c))).abandon c).rouse e c else s
  | none =>
    if (s.slot n).state = .parked then
      s.modSlot n fun sl => { sl with image := sl.image.map fun m => { m with ctx := f m.ctx }, runnable := true }
    else s

/-- The context of a slot, resident or parked. -/
def State.ctxOfSlot (s : State) (n : SlotId) : Option Ctx :=
  match s.holder n with
  | some (e, c) => some ((s.eng e).ctx c)
  | none => if (s.slot n).state = .parked then (s.slot n).image.map (·.ctx) else none

/-- A message to the engine under its role as it stands (02 Table 2-4). DESIGN CHOICE: the senders' tables take a new role epoch as the
role changes, of which 05 R178 and 02 R50 say nothing (log 56). -/
def State.msgTo (s : State) (e : EngId) (n : SlotId) (bounces : Nat) (k : MsgKind) : EngMsg :=
  { eng := e, hedge := (s.slot n).hedge, epoch := (s.eng e).epoch, sent := s.aoTick, start := (s.slot n).start,
    bounces := bounces, kind := k }

/-- A NOTICE at a level already pending is refused and returns to firmware (08 R246). -/
def State.notice (s : State) (n : SlotId) (level : Fin 5) (kind : Byte) (word : BitVec 32) : State :=
  match s.ctxOfSlot n with
  | some c =>
    if (tget none c.notices (level.val + 1)).isSome then
      { s with refused := s.refused ++ [s.msgTo (s.slot n).eng n 0 (.notice n level kind word)] }
    else s.pend n fun c => { c with notices := tset none c.notices (level.val + 1) (some { kind := kind, word := word }) }
  | none => s

/-- EVENT-DEADLOCK for a slot, with its cause and the endpoint it waits on (08 R247, 10 R346, R348). -/
def State.deadlock (s : State) (n : SlotId) (cause : Byte) (ep : BitVec 32) : State :=
  s.pend n fun c => { c with evd := some (cause, ep) }

/-! ### Dispatch into a context (03 R92, R94, R101; 05 R168; 08 R270, R272) -/

/-- A context as the dispatcher loads it for a program: the stack holds ( g h ). -/
def loadedCtx (p : Prog) (n : SlotId) (c : CtxId) : Ctx :=
  let osb := p.sbase + p.sstride * c.val
  { Ctx.reset with
    state := .ready, slot := n, pc := BitVec.ofNat 19 (p.at_ + p.entry)
    psw := { pl := 2, m := 0, eh := false, key := p.key, rm := p.rm }
    osb := BitVec.ofNat 18 osb, osl := BitVec.ofNat 18 (osb + p.ssize), depth := 2
    win := [cellInt (p.wbase + p.wstride * c.val), cellInt (64 * c.val)] }

/-- A mover's write into cell `k`: whole, or merged (12 R406). -/
def Engine.moverCell (e : Engine) (k lo : Nat) (bs : List (Byte × Bool)) : Engine :=
  let p := bs.any (·.2)
  if lo = 0 ∧ bs.length = 16 then e.writeThrough k { ty := tyINT, sub := 0, p := p, g := false, pay := payOfBytes (bs.map (·.1)) }
  else
    let e1 := e.meet k
    Engine.mark { e1.setScratch k (e1.mergeCell k lo (bs.map (·.1)) p) with sb := e1.sb.filter fun kc => kc.1 != k } k (decide (lo < 8))
      (decide (8 < lo + bs.length))

/-- A mover's write of a run of scratch bytes. -/
def Engine.moverWrite (e : Engine) (a : Nat) (bs : List (Byte × Bool)) : Engine :=
  (cellsOf a bs.length).foldl
    (fun g k =>
      let lo := if a ≤ 16 * k then 0 else a - 16 * k
      let skip := if a ≤ 16 * k then 16 * k - a else 0
      g.moverCell k lo ((bs.drop skip).take (16 - lo))) e

/-- Load an ADMITTED slot into a FREE context: the argument cells go to the context's argument area, and the
bytes of an SGL to its work area (05 R168, 13 R431). -/
def State.loadRun (s : State) (n : SlotId) (e : EngId) (c : CtxId) : State :=
  match (s.slot n).prog with
  | some p =>
    if (s.slot n).state = .admitted && ((s.eng e).ctx c).state == .free then
      (s.modSlot n fun sl => { sl with state := .resident, eng := e, ctx := c, cluster := cluOf e }).modEng e fun g =>
        (((g.writeCells (4 * c.val) (s.slot n).args).moverWrite (p.wbase + p.wstride * c.val) ((s.slot n).sgl.map fun b => (b, false))).setCtx c { loadedCtx p n c with xst := (g.ctx c).xst })
    else s
  | none => s

/-- The lowest-numbered FREE context of an engine (log 6). -/
def Engine.freeCtx? (e : Engine) : Option CtxId := (List.finRange 32).find? fun n => (e.ctx n).state == .free

/-! ### Engine-bound messages (02 R50 to R53) -/

/-- The engine accepts the message (02 R50, R51). -/
def State.accepts (s : State) (m : EngMsg) : Bool :=
  let e := s.eng m.eng
  e.assigned && m.hedge == e.hedge && m.epoch == e.epoch && decide (s.aoTick.toNat ≤ m.sent.toNat + 100000)

/-- SEQ of SUB 0b10 that a wake delivers (05 R177). -/
def cellSeq (seq : BitVec 32) (h : HedgeId) : Cell :=
  { ty := tySEQ, sub := 2, p := false, g := false, pay := BitVec.ofNat 128 (seq.toNat + 2 ^ 64 * h.val) }

/-- The slot still waits at its event unit. -/
def State.inWaitev (s : State) (n : SlotId) : Bool :=
  match s.slotRequest n with
  | some w => match w.req with | .waitev .. => true | _ => false
  | none => false

/-- An end notice acts: it stops the context or abandons the commit, and has firmware end a parked slot (10 R327, R328). It acts on a
transaction that is still wounded and has not ended. -/
def State.endNow (s : State) (n : SlotId) : State :=
  let sl := s.slot n
  if sl.wound && sl.endable then
    match s.holder n with
    | some (e, c) => if sl.state = .sealing then (s.freeCtx e c).endTxn n 0x02 0 else s.stopCtx e c 0x02
    | none => s.endTxn n 0x02 0
  else s

/-- An accepted message takes effect; one for a transaction that has ended does nothing. -/
def State.deliver (s : State) (m : EngMsg) : State :=
  let n := msgSlot m.kind
  if (s.slot n).start != m.start || (s.slot n).state == .idle then s
  else
    match m.kind with
    | .dispatch n => s.loadRun n m.eng (s.slot n).ctx
    | .wake n seq => if s.inWaitev n then s.arriveSlot n (.cell (cellSeq seq (s.slot n).hedge)) else s
    | .notice n level kind word => s.notice n level kind word
    | .ended n => s.endNow n

/-- A message that is not accepted goes to the bounce queue and is counted, or waits in the engine's inbound port while the
queue is full (02 R50, R52). -/
def State.bounce (s : State) (m : EngMsg) : State :=
  if s.bounced.length < 4096 then
    { s.modEng m.eng fun g => { g with bounce := satInc g.bounce } with bounced := s.bounced ++ [{ m with bounces := m.bounces + 1 }] }
  else s.modEng m.eng fun g => { g with inbox := g.inbox ++ [m] }

/-- A message reaches an engine's inbound port; behind a held message it waits (02 R50, R52). -/
def State.inbound (s : State) (m : EngMsg) : State :=
  if !(s.eng m.eng).inbox.isEmpty then s.modEng m.eng fun g => { g with inbox := g.inbox ++ [m] }
  else if s.accepts m then s.deliver m
  else s.bounce m

/-- A message reaches a cluster: it is held while the cluster wakes, and one that the engine would accept wakes a cluster in
C1 to C3 (14 R458). -/
def State.message (s : State) (m : EngMsg) : State :=
  let k := cluOf m.eng
  let c := s.clu k
  if c.waking then s.setClu k { c with held := c.held ++ [m] }
  else if c.pst ≠ .c0 ∧ s.accepts m then s.setClu k { c with waking := true, held := c.held ++ [m] }
  else s.inbound m

/-- An engine's inbound port takes its held messages again once the bounce queue has space (02 R52). -/
def State.reopenPort (s : State) (e : EngId) : State :=
  (s.eng e).inbox.foldl (fun t m => t.inbound m) (s.modEng e fun g => { g with inbox := [] })

/-! ### Notices of firmware (13 R453, Table 13-17) -/

/-- The engines assigned to a hedge, in ascending order. -/
def State.hedgeEngines (s : State) (h : HedgeId) : List EngId :=
  s.engines.filterMap fun kv => if q : kv.1 < 256 then if kv.2.assigned && kv.2.hedge == h then some ⟨kv.1, q⟩ else none else none

/-- The context of an engine that a notice goes to: the lowest-numbered one that holds a slot and is not in WAIT with WHY COMMIT. -/
def Engine.noticeCtx (e : Engine) : Option CtxId :=
  (List.finRange 32).find? fun n => (e.ctx n).live && !((e.ctx n).state == .wait && (e.ctx n).whyNow == 4)

/-- A NOTICE of a level to every engine of the hedge; its kind is the level's (13 Table 13-17). -/
def State.notify (s : State) (h : HedgeId) (level : Fin 5) (word : BitVec 32) : State :=
  (s.hedgeEngines h).foldl
    (fun (t : State) e => match (t.eng e).noticeCtx with
      | some c =>
        let n := ((t.eng e).ctx c).slot
        t.message (t.msgTo e n 0 (.notice n level (BitVec.ofNat 8 (level.val + 1)) word))
      | none => t) s

end Sys2Proof.Machine
end

