-- ==== Sys2Proof/Machine/ControlOps.lean ====
section
/-! DEFINITION. Shared operations of control space: who reaches it, the log of locked-register violations and management
alarms (00 R10; 15 R508 to R513; 19 R590, R597). -/

namespace Sys2Proof.Machine

/-- The requester reaches control space: JTAG only while the debug-lock fuse is intact (19 R590). -/
def State.reaches (s : State) (r : Requester) : Bool :=
  match r with
  | .jtag => !s.keeper.debugLock
  | _ => true

/-- REQ of GLB_LVLOG (15 Table 15-8). -/
def reqCode : Requester → Nat
  | .thread t => t.val
  | .keeper => 8
  | .jtag => 9

/-- GLB_LVLOG (15 Table 15-8). -/
def Regs.lvlog (r : Regs) : Word64 :=
  BitVec.ofNat 64 (r.lvAddr.toNat + 2 ^ 32 * r.lvReq.toNat + 2 ^ 36 * b2n r.lvSec + 2 ^ 37 * r.lvKind.toNat +
    2 ^ 48 * r.lvCount.toNat)

/-- Raise a management alarm: the alert, a queued message, or the count of those beyond 64, and the NOR log (15 R513). -/
def State.alarm (s : State) (kind : AlarmKind) : State :=
  let a : Alarm := { kind := kind, tick := s.aoTick, log := if kind = .violation then s.regs.lvlog else 0 }
  let k := s.keeper
  { s with
    keeper := { k with
      alert := true, norAlarms := k.norAlarms ++ [a]
      alarms := if k.alarms.length < 64 then k.alarms ++ [a] else k.alarms
      alarmsOver := if k.alarms.length < 64 then k.alarmsOver else k.alarmsOver + 1 } }

/-- KIND of a violation: WO after its first write, LK after GLB_LOCK, ENG_ROLE refused under R44. -/
abbrev kindWO : BitVec 2 := 0
abbrev kindLK : BitVec 2 := 1
abbrev kindRole : BitVec 2 := 2

/-- Log a violation (15 R510, R511). -/
def State.violation (s : State) (r : Requester) (addr : Nat) (sec : Bool) (kind : BitVec 2) : State :=
  let g := s.regs
  let g1 := { g with lvCount := satInc g.lvCount, lockviol := true, secalm := g.secalm || sec }
  let g2 := if g.lockviol then { g1 with lvmore := true }
    else { g1 with lvAddr := BitVec.ofNat 32 addr, lvReq := BitVec.ofNat 4 (reqCode r), lvSec := sec, lvKind := kind }
  if sec then ({ s with regs := g2 }).alarm .violation else { s with regs := g2 }

/-- Base of a cluster's block (19 Table 19-1). -/
def cluBase (k : CluId) : Nat := 0x01000000 + 0x100000 * k.val

/-- Base of an engine's block (19 R597). -/
def engBase (e : EngId) : Nat := cluBase (cluOf e) + 0x10000 + 0x10000 * (e.val % 8)

/-- A context of some engine of the cluster is resident. -/
def State.cluResident (s : State) (k : CluId) : Bool := (List.finRange 8).any fun w => (s.eng (engOf k w)).anyResident

end Sys2Proof.Machine
end

