-- ==== Sys2Proof/Machine/Record.lean ====
section
/-! DEFINITION. Record and event instructions at issue (05 R168 to R179, 09 R274 to R277): each synchronous one has its whole
effect here; each asynchronous one places its context in WAIT with its request (03 R77). -/

namespace Sys2Proof.Machine

open Host (Outcome)

/-! ### REF cells (09 Table 9-1) -/

/-- ADDR of a REF. -/
def refAddr (r : Cell) : Nat := bits r.pay 47 0
/-- LEN of a REF. -/
def refLen (r : Cell) : Nat := bits r.pay 80 64

/-- A REF payload is well formed (09 R275). -/
def refOk (r : Cell) : Bool :=
  bits r.pay 63 53 == 0 && bits r.pay 127 81 == 0 && decide (1 ≤ refLen r) && decide (refLen r ≤ 65536) &&
    decide (refAddr r + refLen r ≤ 2 ^ 48)

/-- The check key (09 R276). -/
def checkKey (v : Env) (c : Ctx) : BitVec 4 := (pxKey v.px).getD c.psw.key

/-- Bytes of the cells that cover `len` bytes from a cell boundary (05 R170). -/
def coverLen (len : Nat) : Nat := 16 * ((len + 15) / 16)

/-- Destination or source cells of RLD and STAGE: aligned, inside scratch, open to the PL (05 R170, R175). -/
def coverCheck (v : Env) (e : Engine) (a : Int) (len opnd : Nat) : Except SFault Unit := do
  ensure (0 ≤ a && a + coverLen len - 1 ≤ 0x3FFFF) (fAddr 1 a)
  ensure (a % 16 == 0) (fAddr 2 a)
  ensure (e.open? v.pl a.toNat (coverLen len)) (fKey 1 (e.firstClosed v.pl a.toNat (coverLen len)) opnd)

/-- An asynchronous instruction while a saved wait is outstanding: a privilege fault (08 R266). DESIGN CHOICE: it stands after the operand
stack and before the tags; R266 gives it no place in 05 R141 (log 65). -/
def noSavedWait (c : Ctx) : Except SFault Unit := ensure c.savedWait.isNone (fPriv 3)

/-- The context after an asynchronous instruction: WAIT follows its count (03 R77). -/
def Ctx.request (c : Ctx) (why : BitVec 4) (r : Req) (st : Stage) : Ctx :=
  { c with wait := some { why := why, req := r, stage := st, done := none } }

/-- RLD ( r a -- c ) (05 R170). -/
def execRld (x : Iss) (s : State) : Outcome State Fault Refusal :=
  .next (s.issue x { key := true, delayBad := true, pops := 2, pushes := 1, reads := 2 } 0
    (fun v e c => do
      noSavedWait c
      let a := stackTop e c 0
      let r := stackTop e c 1
      tagCheck v.nochk [(0, a, a.isInt), (1, r, r.isRef)]
      ensure (!a.p) (fPsn 0 (BitVec.ofInt 32 a.int).toNat)
      ensure (!r.p) (fPsn 1 0)
      ensure (refOk r && refLen r ≤ 4096) (fData 4 1)
      coverCheck v e a.int (refLen r) 0
      pure { count := 5, eng := e,
             ctx := (c.popPush 2 []).request 1 (.rld r (checkKey v c) a.int.toNat c.psw.pl) (.translate (refAddr r)) }) State.queueWalks)

/-- RST ( r a w -- w' ): one entry of the write-set index, through the store buffer (05 R171, 09 R277). -/
def execRst (x : Iss) (s : State) : Outcome State Fault Refusal :=
  .next (s.issue x { key := true, delayBad := true, pops := 3, pushes := 1, reads := 3 } 0
    (fun v e c => do
      let w := stackTop e c 0
      let a := stackTop e c 1
      let r := stackTop e c 2
      tagCheck v.nochk [(0, w, w.isInt), (1, a, a.isInt), (2, r, r.ty = tyREF && r.sub = 1)]
      ensure (!w.p) (fPsn 0 (BitVec.ofInt 32 w.int).toNat)
      ensure (!a.p) (fPsn 1 (BitVec.ofInt 32 a.int).toNat)
      ensure (!r.p) (fPsn 2 0)
      ensure (refOk r) (fData 4 2)
      addrCheck 16 a.int
      addrCheck 32 w.int
      let k := w.int.toNat / 16
      ensure (e.general? w.int.toNat 32) (fKey 1 w.int.toNat)
      ensure (!(v.pl == 2 && (e.cell k).g)) (fKey 2 w.int.toNat)
      ensure (!(v.pl == 2 && (e.cell (k + 1)).g)) (fKey 2 (w.int.toNat + 16))
      let copy := { r with
        pay := BitVec.ofNat 128 (r.pay.toNat - bits r.pay 52 48 * 2 ^ 48 + (checkKey v c).toNat * 2 ^ 48 + 2 ^ 52) }
      pure { count := 2, eng := (e.storeCell k copy).storeCell (k + 1) (cellInt (a.int.toNat % 2 ^ 18)),
             ctx := c.popPush 3 [cellInt (w.int + 32)] }) id)

/-- RLOCK m ( r -- c ) (05 R172): m = 1 asks for an exclusive lock and a REF of SUB 0b01. -/
def execRlock (x : Iss) (imm : Byte) (s : State) : Outcome State Fault Refusal :=
  .next (s.issue x
    { imm := 1, key := true, delayBad := true, pops := 1, pushes := 1, reads := 1,
      badField := if bits imm 7 1 ≠ 0 then some 0 else none } 0
    (fun v e c => do
      noSavedWait c
      let r := stackTop e c 0
      tagCheck v.nochk [(0, r, r.ty = tyREF && (!(bit imm 0) || r.sub = 1))]
      ensure (!r.p) (fPsn 0 0)
      ensure (refOk r) (fData 4 0)
      pure { count := 3, eng := e,
             ctx := (c.popPush 1 []).request 1 (.rlock r (checkKey v c) (bit imm 0)) (.translate (refAddr r)) }) State.queueWalks)

/-- RPREF ( r -- ) (05 R172). -/
def execRpref (x : Iss) (s : State) : Outcome State Fault Refusal :=
  .next (s.issue x { key := true, delayBad := true, pops := 1, reads := 1 } 0
    (fun v e c => do
      noSavedWait c
      let r := stackTop e c 0
      tagCheck v.nochk [(0, r, r.isRef)]
      ensure (!r.p) (fPsn 0 0)
      ensure (refOk r) (fData 4 0)
      pure { count := 2, eng := e,
             ctx := (c.popPush 1 []).request 2 (.rpref r (checkKey v c)) (.translate (refAddr r)) }) State.queueWalks)

/-- The slot of the issuing context. -/
def State.slotOf (s : State) (x : Iss) : SlotId := ((s.eng x.eng).ctx x.ctx).slot

/-- COMMIT ( x w0 w -- ): drains the store buffer and hands the index to the commit port; the slot is SEALING (05 R173, 10
Table 10-3 step 1). DESIGN CHOICE: its data fault names w0, OPND 1, and its key fault reports w0, also where w alone is misaligned (log
66). -/
def execCommit (x : Iss) (s : State) : Outcome State Fault Refusal :=
  .next (s.issue x { delayBad := true, pops := 3, reads := 3 } 0xA4
    (fun v e c => do
      noSavedWait c
      let w := stackTop e c 0
      let w0 := stackTop e c 1
      let r := stackTop e c 2
      tagCheck v.nochk [(0, w, w.isInt), (1, w0, w0.isInt), (2, r, r.isInt)]
      ensure (!w.p) (fPsn 0 (BitVec.ofInt 32 w.int).toNat)
      ensure (!w0.p) (fPsn 1 (BitVec.ofInt 32 w0.int).toNat)
      ensure (w0.int ≤ w.int && w0.int % 32 == 0 && w.int % 32 == 0 && (w.int - w0.int) / 32 ≤ 64) (fData 4 1)
      if w0.int < w.int then
        ensure (0 ≤ w0.int && w0.int ≤ 0x3FFFF) (fAddr 1 w0.int)
        ensure (0 ≤ w.int - 1 && w.int - 1 ≤ 0x3FFFF) (fAddr 1 (w.int - 1))
        ensure (e.general? w0.int.toNat (w.int - w0.int).toNat) (fKey 1 w0.int.toNat)
      pure { count := 5, unit := some .ucode, eng := e.drain,
             ctx := (c.popPush 3 []).request 4 (.commit r.lo w0.int.toNat w.int.toNat) .sent })
    fun t => t.modSlot (s.slotOf x) fun sl => { sl with state := .sealing, cluster := cluOf x.eng })

/-- ABORT ( x -- ): the transaction ends ABORTED with x (05 R174, 08 R266). -/
def execAbort (x : Iss) (s : State) : Outcome State Fault Refusal :=
  .next (s.issue x { delayBad := true, pops := 1, reads := 1 } 0
    (fun v e c => do
      let a := stackTop e c 0
      tagCheck v.nochk [(0, a, a.isInt)]
      pure { count := 2, eng := e, ctx := { (c.popPush 1 []) with ending := true, savedWait := none } })
    fun t => t.endTxn (s.slotOf x) 0x01 (stackTop (s.eng x.eng) ((s.eng x.eng).ctx x.ctx) 0).lo)

/-- The cluster mover of an engine (12 Table 12-1). -/
def stageMover (e : EngId) : MovId := ⟨e.val / 8, by have := e.isLt; omega⟩
/-- Its engine channel. -/
def stageChan (e : EngId) : ChId := ⟨e.val % 8, by omega⟩

/-- STAGE ( r a d -- c ): a copy by the cluster mover, without a lock (05 R175). DESIGN CHOICE: the check of the REF comes before that of
d; 09 R275 gives it no place (log 67). -/
def execStage (x : Iss) (s : State) : Outcome State Fault Refusal :=
  .next (s.issue x { key := true, delayBad := true, pops := 3, pushes := 1, reads := 3 } 0
    (fun v e c => do
      noSavedWait c
      let d := stackTop e c 0
      let a := stackTop e c 1
      let r := stackTop e c 2
      tagCheck v.nochk [(0, d, d.isInt), (1, a, a.isInt), (2, r, r.isRef)]
      ensure (!a.p) (fPsn 1 (BitVec.ofInt 32 a.int).toNat)
      ensure (refOk r) (fData 4 2)
      ensure (d.int == 0 || d.int == 1) (fData 4 0)
      ensure (!(d.int == 1 && v.pl != 0)) (fPriv 1)
      coverCheck v e a.int (refLen r) 1
      pure { count := 4, eng := e.drain,
             ctx := (c.popPush 3 []).request 6 (.stage r (checkKey v c) a.int.toNat (d.int == 1) c.psw.pl)
               (.translate (refAddr r)) })
    fun t => t.queueWalks.setChan (stageMover x.eng) (stageChan x.eng)
      { t.chan (stageMover x.eng) (stageChan x.eng) with
        stages := (t.chan (stageMover x.eng) (stageChan x.eng)).stages.filter (fun n => n != x.ctx) ++ [x.ctx] })

/-- WAITEV ( e s t -- v ): the wait goes to the event unit (05 R177). -/
def execWaitev (x : Iss) (s : State) : Outcome State Fault Refusal :=
  .next (s.issue x { delayBad := true, pops := 3, pushes := 1, reads := 3 } 0
    (fun v e c => do
      noSavedWait c
      let t := stackTop e c 0
      let q := stackTop e c 1
      let ep := stackTop e c 2
      tagCheck v.nochk
        [(0, t, (t.ty = tyTIME && t.sub = 1) || t.ty = tyNIL), (1, q, (q.ty = tySEQ && q.sub = 2) || q.isInt), (2, ep, ep.isInt)]
      ensure (t.ty = tyNIL || decide (t.lo.toNat ≤ 10000000000)) (fData 4 0)
      pure { count := 2, eng := e,
             ctx := (c.popPush 3 []).request 5
               (.waitev ep.lo (q.pay.extractLsb' 0 32) (if t.ty = tyNIL then none else some t.lo.toNat)) .sent })
    fun t => { t with evMsgs := t.evMsgs ++ [(cluOf x.eng, s.slotOf x, .wait)] })

/-- SIGEV ( e -- ): a signal goes to the event unit (05 R178). -/
def execSigev (x : Iss) (s : State) : Outcome State Fault Refusal :=
  .next (s.issue x { pops := 1, reads := 1 } 0
    (fun v e c => do
      let a := stackTop e c 0
      tagCheck v.nochk [(0, a, a.isInt)]
      pure { count := 2, eng := e, ctx := c.popPush 1 [] })
    fun t => { t with
      evMsgs := t.evMsgs ++ [(cluOf x.eng, s.slotOf x, .signal (s.slot (s.slotOf x)).hedge (stackTop (s.eng x.eng) ((s.eng x.eng).ctx x.ctx) 0).lo)] })

/-- Firmware parks a context that yields: the hedge has a parked slot ready to run, the engine no FREE context, and the context may park
(05 R179, 10 R315). -/
def State.yieldParks (s : State) (x : Iss) : Bool :=
  let c := (s.eng x.eng).ctx x.ctx
  (s.slots.any fun kv => kv.2.state == .parked && kv.2.runnable && kv.2.hedge == (s.slot c.slot).hedge) &&
    ((List.finRange 32).all fun n => ((s.eng x.eng).ctx n).state != .free) &&
    match (s.slot c.slot).prog with
    | some p => c.parkable p
    | none => false

/-- YIELD: the context is offered for parking; when R179 has firmware park it, it issues nothing until it is parked (05 R179). -/
def execYield (x : Iss) (s : State) : Outcome State Fault Refusal :=
  .next (s.issue x { delayBad := true } 0 (fun _ e c => pure { count := 1, eng := e, ctx := c })
    fun t => if s.yieldParks x then t.modCtx x.eng x.ctx fun c => { c with yielded := true } else t)

/-! ### System instructions (05 R180 to R182) -/

/-- SETRM ( m -- ). -/
def execSetrm (x : Iss) (s : State) : Outcome State Fault Refusal :=
  .next (s.issue x { esc := true, pops := 1, reads := 1 } 0
    (fun v e c => do
      let a := stackTop e c 0
      tagCheck v.nochk [(0, a, a.isInt)]
      ensure (!a.p) (fPsn 0 0)
      ensure (0 ≤ a.int && a.int ≤ 5) (fData 4 0)
      pure { count := 1, eng := e, ctx := { (c.popPush 1 []) with psw := { c.psw with rm := BitVec.ofInt 3 a.int } } }) id)

/-- RDPSW ( -- p ). -/
def execRdpsw (x : Iss) (s : State) : Outcome State Fault Refusal :=
  .next (s.issue x { esc := true, pushes := 1 } 0
    (fun _ e c => pure { count := 1, eng := e, ctx := c.popPush 0 [cellInt (pswWord e c.psw).toInt] }) id)

/-- SETM ( m -- ) at PL0 and PL1; 7 only at PL0. -/
def execSetm (x : Iss) (s : State) : Outcome State Fault Refusal :=
  .next (s.issue x { esc := true, priv := true, pops := 1, reads := 1 } 0
    (fun v e c => do
      let a := stackTop e c 0
      tagCheck v.nochk [(0, a, a.isInt)]
      ensure (!a.p) (fPsn 0 0)
      ensure (0 ≤ a.int && a.int ≤ 7) (fData 4 0)
      ensure (!(a.int == 7 && v.pl == 1)) (fPriv 4)
      pure { count := 2, eng := e, ctx := { (c.popPush 1 []) with psw := { c.psw with m := BitVec.ofInt 3 a.int } } }) id)

/-- SETKEY ( k -- ) at PL0 and PL1; 0 only at PL0. -/
def execSetkey (x : Iss) (s : State) : Outcome State Fault Refusal :=
  .next (s.issue x { esc := true, priv := true, pops := 1, reads := 1 } 0
    (fun v e c => do
      let a := stackTop e c 0
      tagCheck v.nochk [(0, a, a.isInt)]
      ensure (!a.p) (fPsn 0 0)
      ensure (0 ≤ a.int && a.int ≤ 15) (fData 4 0)
      ensure (!(a.int == 0 && v.pl == 1)) (fKey 4 0)
      pure { count := 1, eng := e, ctx := { (c.popPush 1 []) with psw := { c.psw with key := BitVec.ofInt 4 a.int } } }) id)

/-- SETFP ( fp fl -- ) at PL0 and PL1 (05 R181). -/
def execSetfp (x : Iss) (s : State) : Outcome State Fault Refusal :=
  .next (s.issue x { esc := true, priv := true, pops := 2, reads := 2 } 0
    (fun v e c => do
      let fl := stackTop e c 0
      let fp := stackTop e c 1
      tagCheck v.nochk [(0, fl, fl.isInt), (1, fp, fp.isInt)]
      ensure (!fl.p) (fPsn 0 (BitVec.ofInt 32 fl.int).toNat)
      ensure (!fp.p) (fPsn 1 (BitVec.ofInt 32 fp.int).toNat)
      ensure (0 ≤ fp.int && fp.int < fl.int && fl.int ≤ 0x40000 && fp.int % 16 == 0 && fl.int % 16 == 0 &&
          e.open? v.pl fp.int.toNat (fl.int - fp.int).toNat)
        ⟨0x0B, 5, 0, BitVec.ofInt 32 fp.int⟩
      pure { count := 1, eng := e,
             ctx := { (c.popPush 2 []) with
               fp := BitVec.ofInt 18 fp.int, fl := BitVec.ofInt 19 fl.int, fbase := BitVec.ofInt 18 fp.int } }) id)

/-- SETG and CLRG: the guard bit of the top cell (05 R182). -/
def guardOp (x : Iss) (g : Bool) (s : State) : Outcome State Fault Refusal :=
  .next (s.issue x { esc := true, priv := true, pops := 1, pushes := 1, reads := 1 } 0
    (fun v e c => do
      let a := stackTop e c 0
      tagCheck v.nochk [(0, a, true)]
      pure { count := 1, eng := e, ctx := c.popPush 1 [{ a with g := g }] }) id)

/-- SETG ( x -- x' ). -/
def execSetg (x : Iss) (s : State) : Outcome State Fault Refusal := guardOp x true s

/-- CLRG ( x -- x' ). -/
def execClrg (x : Iss) (s : State) : Outcome State Fault Refusal := guardOp x false s

end Sys2Proof.Machine
end

