-- ==== Sys2Proof/Machine/Pager.lean ====
section
/-! DEFINITION. The walker's requests of contexts, marks, the firmware pager and invalidation (09 R283 to R309). -/

namespace Sys2Proof.Machine

open Host (Outcome)

/-! ### Accesses of contexts (09 Table 9-6) -/

/-- The access of a request, and its range. -/
def reqAccess (e : EngId) (h : HedgeId) : Req → Option (Access × Nat × Nat)
  | .rld r k _ _ => some (⟨some e, cluOf e, h, k, r.sub == 1, false, false⟩, refAddr r, refLen r)
  | .rlock r k x => some (⟨some e, cluOf e, h, k, x, false, false⟩, refAddr r, refLen r)
  | .rpref r k => some (⟨some e, cluOf e, h, k, false, false, true⟩, refAddr r, refLen r)
  | .stage r k _ out _ => some (⟨some e, cluOf e, h, k, out, out, false⟩, refAddr r, refLen r)
  | _ => none

/-- Where a request goes once its range has been translated. -/
def reqNext : Req → Stage
  | .rld .. => .lock
  | .rlock .. => .lock
  | _ => .data

/-- The hedge and page that an access in the queue translates next. -/
def State.walkPage (s : State) (q : EngId × CtxId) : Option (HedgeId × Nat) :=
  let x := (s.eng q.1).ctx q.2
  x.walking.map fun p => ((s.slot x.slot).hedge, p)

/-- The walks that a cluster's walker runs: the first 8 pages of its queue, each once (09 R293). -/
def State.walksOf (s : State) (k : CluId) : List (HedgeId × Nat) :=
  (((s.walkq.filter fun q => cluOf q.1 == k).filterMap s.walkPage).foldl (fun l p => if l.contains p then l else l ++ [p]) []).take 8

/-- Every page of an access hits a TLB. -/
def State.allHit (s : State) (a : Access) (va n : Nat) : Bool :=
  (spanPages va n).all fun p =>
    (a.eng.bind fun e => tlbFind (s.eng e).dtlb a.h p).isSome || (tlbFind (s.clu a.clu).l2 a.h p).isSome

/-- The access hits, or its walk runs, or joins one that runs for the same page and hedge (09 R293). -/
def State.mayWalk (s : State) (e : EngId) (c : CtxId) (a : Access) (va n : Nat) : Bool :=
  s.allHit a va n || match s.walkPage (e, c) with
    | some p => (s.walksOf (cluOf e)).contains p
    | none => false

/-- PAGE_WALK: the range of the context's record request is translated, page by page; a failure waits for the completion, a
record fault hands the access to the pager, a prefetch that fails is counted. A miss waits in its cluster's queue while 8 walks for other
pages run ahead of it (09 R283, R293, R294, R300, R302). -/
def execPageWalk (e : EngId) (c : CtxId) (s0 : State) : Outcome State Fault Refusal :=
  let s := s0.queueWalks
  let x := (s.eng e).ctx c
  let h := (s.slot x.slot).hedge
  .next (match x.request? with
    | some ⟨_, q, .translate _, _⟩ =>
      match reqAccess e h q with
      | some (a, va, n) =>
        if !s.mayWalk e c a va n then s else
        let s := { s with walkq := s.walkq.filter fun q => q != (e, c) }
        let r := s.transRange a va n
        match r.2 with
        | .ok => ({ r.1 with lockq := if reqNext q = Stage.lock then (r.1.lockq.filter fun q => q != (e, c)) ++ [(e, c)] else r.1.lockq }).modCtx e c
            fun x => x.setStage (reqNext q)
        | .fault p => (r.1.modClu (cluOf e) fun k => { k with rfault := satInc k.rfault }).modCtx e c fun x => x.setStage (.pageFault p)
        | .mark p pte => r.1.modCtx e c fun x => x.setStage (.mark p pte)
        | .fail st =>
          if a.prefetch then
            (r.1.modHedge h fun g => { g with prefFails := satInc g.prefFails }).modCtx e c fun x => x.setStage .data
          else r.1.modCtx e c fun x => x.setStage (.failed st)
      | none => s
    | _ => s)

/-! ### Marks (09 R298, R301) -/

/-- Entries of a page after its mark: not SPEC any more, and D as the leaf has it. -/
def State.entriesMarked (s : State) (a : Access) (va : Nat) : State :=
  let f := fun (t : TlbEntry) => if t.hits a.h va then { t with spec := false, dirty := t.dirty || a.setD } else t
  let s1 := s.modClu a.clu fun k => { k with l2 := tmap TlbEntry.empty k.l2 f }
  match a.eng with
  | some e => s1.modEng e fun g => { g with dtlb := tmap TlbEntry.empty g.dtlb f }
  | none => s1

/-- Discard the entries of a page from the requester's TLBs. -/
def State.entriesGone (s : State) (a : Access) (va : Nat) : State :=
  let f := tlbOfPage a.h va
  let s1 := s.modClu a.clu fun k => { k with l2 := tlbDrop k.l2 f }
  match a.eng with
  | some e => s1.modEng e fun g => { g with dtlb := tlbDrop g.dtlb f }
  | none => s1

/-- The entries of a page whose leaf has changed are discarded; the repeated walk step is counted (09 R298, Table 9-16). -/
def State.markStale (s : State) (a : Access) (va : Nat) : State :=
  (s.entriesGone a va).modClu a.clu fun k => { k with walkRst := satInc k.walkRst }

/-- A mark request at the leaf's memory stop: done, or failed with MEDIA; when the leaf has changed, the entries are discarded
and the access walks again. -/
def State.markLeaf (s : State) (a : Access) (va pte : Nat) : State × Bool :=
  if s.readsPoison pte 8 then (((s.meetRead pte 8).entriesGone a va), false)
  else
    match (s.walk a.h va).1 with
    | .leaf at_ p _ =>
      if at_ = pte ∧ p.res then ((s.hbmPut pte 8 (p.marked a).toNat).entriesMarked a va, true)
      else (s.markStale a va, true)
    | _ => (s.markStale a va, true)

/-- The accesses whose mark requests are outstanding for the page of `va`. -/
def State.marking (s : State) (h : HedgeId) (pte : Nat) : List (EngId × CtxId) :=
  s.engines.flatMap fun kv => if q : kv.1 < 256 then
      kv.2.ctxs.filterMap fun cv => if r : cv.1 < 32 then
          match cv.2.request? with
          | some ⟨_, _, .mark _ p, _⟩ => if p = pte ∧ (s.slot cv.2.slot).hedge = h then some (⟨kv.1, q⟩, ⟨cv.1, r⟩) else none
          | _ => none
        else none
    else []

/-- An access that waits for a mark goes on: it translates again, or fails with MEDIA. `d` says that the request set D. -/
def State.markDone (s : State) (e : EngId) (c : CtxId) (ok d : Bool) : State :=
  let x := (s.eng e).ctx c
  match x.request? with
  | some ⟨_, q, .mark va _, _⟩ =>
    match reqAccess e (s.slot x.slot).hedge q with
    | some (a, v0, _) =>
      (if ok then s.entriesMarked { a with setD := d } va else s).modCtx e c fun x => x.setStage (if ok then .translate v0 else .failed 0x04)
    | none => s
  | _ => s

/-- MARK_REQUEST: the leaf's memory stop sets A or D, and the access goes on, with every other demand use of the page that has joined
the request (09 R298, R301). -/
def execMarkRequest (e : EngId) (c : CtxId) (s : State) : Outcome State Fault Refusal :=
  let x := (s.eng e).ctx c
  .next (match x.request? with
    | some ⟨_, q, .mark va pte, _⟩ =>
      match reqAccess e (s.slot x.slot).hedge q with
      | some (a, v0, _) =>
        let r := s.markLeaf a va pte
        let s1 := r.1.modCtx e c fun x => x.setStage (if r.2 then .translate v0 else .failed 0x04)
        ((s1.marking a.h pte).foldl (fun (t : State) q => t.markDone q.1 q.2 r.2 (r.2 && a.setD)) s1).queueWalks
      | none => s
    | _ => s)

/-- Translate a range with the marks it needs made at once: for accesses that are one step of the model. -/
def State.transMarked (a : Access) (va n : Nat) : Nat → State → State × PageRes
  | 0, s => (s, .fail 0x05)
  | f + 1, s =>
    let r := s.transRange a va n
    match r.2 with
    | .mark p pte =>
      let m := r.1.markLeaf a p pte
      if m.2 then State.transMarked a va n f m.1 else (m.1, .fail 0x04)
    | x => (r.1, x)

/-! ### Frames and page tables (09 R279, R286, R304) -/

/-- A run of frames holds no page, no retired frame and none of a failed channel, and lies in HBM. -/
def State.freeRun (s : State) (f n : Nat) : Bool :=
  decide (fixedEnd / 4096 ≤ f) && decide (f + n ≤ hbmFrames) &&
    s.alloc.all (fun kv => match kv.2 with
      | some (_, _, z) => decide (kv.1 + 2 ^ (z - 12) ≤ f) || decide (f + n ≤ kv.1)
      | none => true) &&
    s.retired.all (fun kv => decide (kv.1 < f) || decide (f + n ≤ kv.1)) &&
    (s.chanFailed == 0 || (decide (n = 1) && !bit s.chanFailed (f % 64)))

/-- The least number of a list. -/
def leastOf : List Nat → Option Nat
  | [] => none
  | a :: t => match leastOf t with | some b => some (min a b) | none => some a

/-- Round up to a multiple of `n`. -/
def alignUp (f n : Nat) : Nat := (f + n - 1) / n * n

/-- The lowest-numbered free run of `n` aligned frames (log 6). -/
def State.findFrames (s : State) (n : Nat) : Option Nat :=
  let ends : List Nat := s.alloc.map fun kv => match kv.2 with
    | some (_, _, z) => kv.1 + 2 ^ (z - 12)
    | none => kv.1
  let cands := (fixedEnd / 4096 :: ends ++ s.retired.map fun (kv : Nat × Bool) => kv.1 + 1).map fun f => alignUp f n
  let more := if s.chanFailed = 0 then cands else cands.flatMap fun f => (List.range 64).map fun i => f + i
  leastOf (more.filter fun f => s.freeRun f n)

/-- A frame of the page-table pool for a hedge's tables, zeroed: the lowest-numbered free one; none when the pool is used up (09 R279, 01
Table 1-4; log 6). -/
def State.newTable (s : State) (h : HedgeId) : Option (Nat × State) :=
  (leastOf ((ptPool :: s.tables.map fun kv => kv.1 + 1).filter fun f =>
      decide (f < fixedEnd / 4096) && (tget none s.tables f).isNone)).map fun f =>
    (f, ({ s with tables := tset none s.tables f (some h) }).hbmZero (f * 4096) 4096)

/-- Frames of the page-table pool still free. -/
def State.tablesFree (s : State) : Nat := fixedEnd / 4096 - ptPool - s.tables.length

/-- A hedge's page tables go back to the pool. -/
def State.freeTables (s : State) (h : HedgeId) : State := { s with tables := s.tables.filter fun kv => kv.2 != some h }

/-- The hedge gets an empty root table; unchanged when the pool is used up. -/
def State.newRoot (s : State) (h : HedgeId) : State :=
  match s.newTable h with
  | some r => r.2.modHedge h fun g => { g with rootV := true, root := BitVec.ofNat 32 r.1 }
  | none => s

/-- Write a leaf at `target` level, making the tables above it, as far as the pool has frames (09 R283). -/
def State.installFrom (h : HedgeId) (va target : Nat) (p : Pte) : Nat → Nat → State → State
  | 0, _, s => s
  | n + 1, t, s =>
    let a := pteAddr t (n + 1) va
    if n + 1 = target then s.hbmPut a 8 p.toNat
    else
      let q : Pte := BitVec.ofNat 64 (s.hbmNat a 8)
      if q.v && q.pointer then State.installFrom h va target p n q.frame s
      else
        match s.newTable h with
        | some r => State.installFrom h va target p n r.1 (r.2.hbmPut a 8 (mkPointer r.1).toNat)
        | none => s

/-- Write the leaf of a page of hedge `h`. -/
def State.install (s : State) (h : HedgeId) (va level : Nat) (p : Pte) : State :=
  State.installFrom h va level p 4 (s.hedge h).root.toNat s

/-- The durable mapping of a page (11 R368). -/
def durKey (h : HedgeId) (va : Nat) : Nat := h.val * 2 ^ 48 + va

/-- Record a page's leaf, in its non-resident form. -/
def State.setDurable (s : State) (h : HedgeId) (va level : Nat) (p : Pte) : State :=
  { s with durable := tset (0, 0) s.durable (durKey h va) (level, p) }

/-- The durable mapping that covers an address: the smallest page recorded, and its non-resident leaf. -/
def State.durableLeaf (s : State) (h : HedgeId) (va : Nat) : Option (Nat × Pte) :=
  ([1, 2, 3, 4] : List Nat).findSome? fun l =>
    let e := tget (0, 0) s.durable (durKey h (pageBase va l))
    if e.1 = l then some (l, e.2) else none

/-- Leaf `i` of the 512 into which a non-resident leaf splits (09 R304). -/
def splitLeaf (p : Pte) (level i : Nat) : Pte :=
  mkLeaf (bits p 3 1) (bit p 8) false (p.block + i * levelFrames (level - 1)) p.ssd (bits p 55 52) (bits p 59 56)

/-- LEAF_SPLIT: split a non-resident leaf of 1 GiB or 512 GiB until the address lies in one of 2 MiB (09 R304). -/
def State.splitTo (h : HedgeId) (va : Nat) : Nat → State → State
  | 0, s => s
  | n + 1, s =>
    match (s.walk h va).1 with
    | .leaf at_ p level =>
      if p.res || level < 3 then s
      else
        match s.newTable h with
        | some r =>
          let s1 := (List.range 512).foldl (fun t i => t.hbmPut (r.1 * 4096 + 8 * i) 8 (splitLeaf p level i).toNat) r.2
          State.splitTo h va n (s1.hbmPut at_ 8 (mkPointer r.1).toNat)
        | none => s
    | _ => s

/-! ### The pager -/

/-- Change every context whose slot belongs to hedge `h`. -/
def State.mapCtxs (s : State) (h : HedgeId) (f : Ctx → Ctx) : State :=
  { s with engines := tmap Engine.reset s.engines fun g =>
      { g with ctxs := tmap Ctx.reset g.ctxs fun c => if c.state ≠ .free ∧ (s.slot c.slot).hedge = h then f c else c } }

/-- The page of `size` bytes at `base` contains the address. -/
def inPage (base size va : Nat) : Bool := decide (base ≤ va) && decide (va < base + size)

/-- A context's access after the pager has finished with its page: it walks again, or ends with MEDIA (09 R302, R303). -/
def Ctx.pageDone (base size : Nat) (ok : Bool) (c : Ctx) : Ctx :=
  match c.request? with
  | some ⟨_, q, .pageFault va, _⟩ =>
    if inPage base size va then
      c.setStage (match q with
        | .rpref .. => .data
        | _ => if ok then .translate va else .failed 0x04)
    else c
  | _ => c

/-- Slots whose validation waits for a page of hedge `h`. -/
def State.pageWaiters (s : State) (h : HedgeId) (base size : Nat) : List SlotId :=
  (s.liveSlots h).filter fun n => match (s.slot n).pageWait with
    | some va => inPage base size va
    | none => false

/-- A mover channel that waits for a page goes on, or its descriptor ends with MEDIA (12 R386). -/
def Chan.pageDone (h : HedgeId) (base size : Nat) (ok : Bool) (c : Chan) : Chan :=
  match c.fault with
  | some (g, va, dst) =>
    if g = h ∧ inPage base size va then
      let c1 := { c with state := .active, fault := none }
      if ok then c1
      else if dst then { c1 with flight := (c1.flight.filter (·.data.isNone)).map fun b => { b with stale := true }, ended := some (0x04, 0) }
      else { c1 with stopAs := some (0x04) }
    else c
  | none => c

/-- Every mover channel that waits for a page. -/
def State.chansPageDone (s : State) (h : HedgeId) (base size : Nat) (ok : Bool) : State :=
  { s with movers := s.movers.map fun kv => (kv.1, { kv.2 with chans := kv.2.chans.map fun kc => (kc.1, kc.2.pageDone h base size ok) }) }

/-- Release the accesses that wait for a page; `ok` = the page is resident now. -/
def State.releasePage (s : State) (h : HedgeId) (base size : Nat) (ok : Bool) : State :=
  (s.pageWaiters h base size).foldl
    (fun t n => if ok then t.modSlot n fun sl => { sl with pageWait := none } else t.endTxn n 0x04 0)
    ((s.mapCtxs h fun c => c.pageDone base size ok).chansPageDone h base size ok).queueWalks

/-- Fill a page's frames from its blocks or with zeros (09 R303). -/
def State.fillPage (s : State) (p : Pte) (f size : Nat) : State :=
  if bit p 8 then s.hbmZero (f * 4096) size
  else (s.diskToHbm p.ssd p.block (f * 4096) size).emit (.nvme p.ssd 0x02 p.block size false)

/-- Give a page frames and a resident leaf: the pager's steps 3 to 5 (09 R303). -/
def State.makeResident (s : State) (h : HedgeId) (base level f : Nat) (p : Pte) (pin : Bool) : State :=
  let s1 := (s.fillPage p f (2 ^ levelBits level)).rekey f (levelFrames level) (mkFe h (bits p 55 52) (bits p 59 56) true)
  let s2 := s1.install h base level (mkResident (bits p 3 1) true false pin f)
  { s2.setDurable h base level p with alloc := tset none s2.alloc f (some (h, base, levelBits level)) }

/-- The drive of a leaf's blocks is in use (17 R538, 18 R576). -/
def State.driveUp (s : State) (p : Pte) : Bool := s.portUp p.ssd

/-- A leaf with BUSY set or clear. -/
def Pte.busyAs (p : Pte) (b : Bool) : Pte := if b then p ||| 0x80 else p &&& ~~~0x80#64

/-- Stage a non-resident page in (09 R303). While no frames are free its leaf is BUSY, until an eviction has freed some; a page under
eviction waits for its end. -/
def State.stageIn (s : State) (h : HedgeId) (va : Nat) (bad : Bool) : State :=
  let s0 := State.splitTo h va 2 (s.flushFor h)
  match (s0.walk h va).1 with
  | .leaf at_ q level =>
    let base := pageBase va level
    let size := 2 ^ levelBits level
    let p := q.busyAs false
    if q.res || (s0.evicting h base).isSome then s
    else
      match s0.findFrames (levelFrames level) with
      | none => s0.hbmPut at_ 8 (p.busyAs true).toNat
      | some f =>
        if (bad || !(s0.driveUp p)) && !(bit p 8) then
          ((s0.hbmPut at_ 8 p.toNat).releasePage h base size false).hedgeEvent h (mediaEvent s.lehr.drawn base 3 1)
        else (s0.makeResident h base level f p false).releasePage h base size true
  | _ => s

/-- The record faults that wait for the pager: hedge and address (09 R302). -/
def State.faults? (s : State) : List (HedgeId × Nat) :=
  (s.engines.flatMap fun kv => kv.2.ctxs.filterMap fun cv => match cv.2.request? with
    | some ⟨_, _, .pageFault va, _⟩ => some ((s.slot cv.2.slot).hedge, va)
    | _ => none) ++
  s.slots.filterMap (fun kv => kv.2.pageWait.map fun va => (kv.2.hedge, va)) ++
  s.movers.flatMap fun kv => kv.2.chans.filterMap fun kc => kc.2.fault.map fun q => (q.1, q.2.1)

/-- The storage port of a page's blocks. -/
def State.portOfPage (s : State) (h : HedgeId) (va : Nat) : Nat :=
  match (s.walk h va).1 with
  | .leaf _ p _ => p.ssd
  | _ => 0

/-- A waiting record fault whose stage-in may start on a port: its page is not under eviction. -/
def State.faultOn (s : State) (port : Nat) (q : HedgeId × Nat) : Bool :=
  s.portOfPage q.1 q.2 == port && match (s.walk q.1 q.2).1 with
    | .leaf _ p level => !p.res && (s.evicting q.1 (pageBase q.2 level)).isNone
    | _ => false

/-- The hedge that the pager serves next on a port: round-robin among those with waiting record faults there, so that each of k hedges
has 1/k of the stage-ins started (14 R477). -/
def State.pagerNext (s : State) (port : Nat) : Option HedgeId :=
  let hs := (s.faults?.filter (s.faultOn port)).map (·.1)
  ((List.finRange 64).map fun (i : Fin 64) => (⟨((tget 0 s.pagerTurn port).val + 1 + i.val) % 64, Nat.mod_lt _ (by decide)⟩ : HedgeId)).find? fun h =>
    hs.contains h

/-- A drain write is under way at a storage port (11 R363, R364). -/
def State.drainWrites (s : State) (port : Nat) : Bool :=
  (s.lehr.segs.any fun g => g.port == some port && !g.done) || s.lehr.part.any fun p => p.port == some port

/-- Drain writes are under way at a storage port, and the fill has reached LOW: they stand ahead of its other traffic (11 R364). -/
def State.drainsFirst (s : State) (port : Nat) : Bool := s.lehr.low && s.drainWrites port

/-- The retained journal J in bytes: the segment records from that of C + 1 on (11 R367). -/
def Lehr.journalBytes (l : Lehr) : Nat := 69632 * (l.records.filter fun r => decide (l.s0 ≤ r.seq)).length

/-- The page that an allocation record names is dirty: its leaf. -/
def State.dirtyLeaf (s : State) (h : HedgeId) (va : Nat) : Option (Nat × Pte × Nat) :=
  match (s.walk h va).1 with
  | .leaf at_ p level => if p.res && bit p 5 then some (at_, p, level) else none
  | _ => none

/-- The dirty pages, by hedge and address. -/
def State.dirtyPages (s : State) : List (HedgeId × Nat) :=
  s.alloc.filterMap fun kv => kv.2.bind fun p => if (s.dirtyLeaf p.1 p.2.1).isSome then some (p.1, p.2.1) else none

/-- Write-backs of these dirty pages wait: a drive is lost, or drain writes stand ahead at its port (11 R364). -/
def State.cleaningWaits (s : State) (ps : List (HedgeId × Nat)) : Bool :=
  ps.any fun q =>
    let p : Pte := (tget (0, 0) s.durable (durKey q.1 q.2)).2
    !s.driveUp p || !s.hwOpen p.ssd 8 || s.drainsFirst p.ssd

/-- The retained journal has reached JLIMIT and there are pages to clean: that goes ahead of all other pager work (11 R367). -/
def State.cleaningFirst (s : State) : Bool :=
  decide (s.lehr.jlimit.toNat * 2 ^ 20 ≤ s.lehr.journalBytes) &&
    s.dirtyPages.any fun q =>
      let p : Pte := (tget (0, 0) s.durable (durKey q.1 q.2)).2
      s.driveUp p && s.hwOpen p.ssd 8

/-- A stage-in waits: pages are cleaned first, or its page comes from a port where drain writes go ahead or whose mover is halted (11 R364,
R367; 12 R410). -/
def State.stageWaits (s : State) (h : HedgeId) (va : Nat) : Bool :=
  s.cleaningFirst || match (s.walk h va).1 with
    | .leaf _ p _ => !(bit p 8) && (s.drainsFirst p.ssd || (s.mover ⟨34 + p.ssd / 8 % 2, by omega⟩).errhalt)
    | _ => false

/-- PAGE_STAGE_IN: `bad` = the drive's read fails, and every waiting access ends with MEDIA (09 R303, R304). A stage-in for a waiting record
fault starts in its hedge's turn (14 R477). -/
def execPageStageIn (h : HedgeId) (va : BitVec 48) (bad : Bool) (s : State) : Outcome State Fault Refusal :=
  let port := s.portOfPage h va.toNat
  .next (if s.stageWaits h va.toNat then s
    else if s.faults?.any (fun q => q.1 == h && s.faultOn port q) then
      if s.pagerNext port = some h then { s with pagerTurn := tset 0 s.pagerTurn port h }.stageIn h va.toNat bad else s
    else s.stageIn h va.toNat bad)

/-- A lock is held or queued on a record whose first byte lies in the page (10 R325). -/
def State.pageLocked (s : State) (h : HedgeId) (base size : Nat) : Bool :=
  s.locks.any fun kv => decide (kv.1 / 2 ^ 48 = h.val) && inPage base size (kv.1 % 2 ^ 48)

/-- Write a page's frames to its blocks with FUA and clear D (09 R305). -/
def State.writeBack (s : State) (p : Pte) (f size : Nat) : State :=
  (s.hbmToDisk p.ssd p.block (f * 4096) size).emit (.nvme p.ssd 0x01 p.block size true)

/-- The frames go back to the free stock: V of their frame-table entries clears. -/
def State.freeFrames (s : State) (f n : Nat) : State :=
  let s1 := (List.range n).foldl (fun t i => t.hbmPut (t.ftAddr (f + i)) 2 ((t.frameEntry (f + i)).toNat &&& 0xBFFF)) s
  { s1 with alloc := tset none s1.alloc f none }

/-- The non-resident form of a resident page's leaf: its blocks, its keys, and ZERO cleared once the page is dirty. -/
def State.evictedLeaf (s : State) (h : HedgeId) (base : Nat) (p : Pte) : Pte :=
  let old : Pte := (tget (0, 0) s.durable (durKey h base)).2
  let fe := s.frameEntry p.frame
  mkLeaf (bits p 3 1) (bit old 8 && !(bit p 5)) false old.block old.ssd (bits fe 9 6) (bits fe 13 10)

/-- The journal on the SSDs holds every entry of the ring (09 R305 step 4, 11 R364). -/
def Lehr.journalled (l : Lehr) : Bool :=
  l.queue.isEmpty && l.cont.isNone && l.writes.isEmpty && l.segs.all (·.done) &&
    (l.wp.toNat % 1024 == 0 || l.records.any fun r => r.seq == l.segSeq && r.entries.length == l.wp.toNat % 1024)

/-- An access that has translated reaches the page still (09 R308). -/
def State.reaching (s : State) (h : HedgeId) (base size : Nat) : Bool :=
  s.engines.any fun kv => kv.2.ctxs.any fun cv => (s.slot cv.2.slot).hedge == h && match cv.2.request? with
    | some ⟨_, q, st, _⟩ => (st == .data || st == .lock) && match reqAccess 0 h q with
      | some (a, va, n) => !a.prefetch && decide (va < base + size) && decide (base < va + n)
      | none => false
    | none => false

/-- Steps 1 and 2 of an eviction: the leaf becomes non-resident with BUSY = 1, and the page is invalidated (09 R305). -/
def State.startEvict (s : State) (h : HedgeId) (base at_ level : Nat) (p : Pte) : State :=
  let s1 := (s.hbmPut at_ 8 ((s.evictedLeaf h base p).busyAs true).toNat).invPage h base
  { s1 with evicts := s1.evicts ++ [{ h := h, base := base, level := level, frame := p.frame, dirty := bit p 5, g := s.lehr.drawn }] }

/-- An eviction may end: no lock is held or queued in its page, no access reaches it, every delta up to its GCS is applied and, for a
dirty page, the journal holds them and the drive is there, with no drain write ahead (09 R305 steps 2 to 4, 10 R325, 11 R364). -/
def State.evictDone (s : State) (v : Evict) (q : Pte) : Bool :=
  let size := 2 ^ levelBits v.level
  !s.pageLocked v.h v.base size && !s.reaching v.h v.base size && decide (v.g.toNat ≤ s.lehr.applied.toNat) &&
    (!v.dirty || (s.lehr.journalled && s.driveUp q && s.hwOpen q.ssd 8 && !s.drainsFirst q.ssd))

/-- Steps 3 to 5 of an eviction, when their conditions hold: a dirty page is written back, its frames are freed and BUSY clears (09
R305). -/
def State.finishEvict (s : State) (v : Evict) : State :=
  match (s.walk v.h v.base).1 with
  | .leaf at_ p level =>
    let q := p.busyAs false
    let size := 2 ^ levelBits level
    if p.res || !s.evictDone v q then s
    else
      let s1 := if v.dirty then (s.meetRead (v.frame * 4096) size).writeBack q v.frame size else s
      let s2 := ({ s1 with evicts := s1.evicts.erase v }.freeFrames v.frame (levelFrames level)).hbmPut at_ 8 q.toNat
      s2.setDurable v.h v.base level q
  | _ => { s with evicts := s.evicts.erase v }

/-- PAGE_EVICT: firmware evicts an unpinned resident page in which no lock is held or queued, as far as the steps of R305 may go now; repeated
on a page under eviction it goes on (09 R305, 10 R325; log 35). -/
def execPageEvict (h : HedgeId) (va : BitVec 48) (s : State) : Outcome State Fault Refusal :=
  .next (match (s.walk h va.toNat).1 with
    | .leaf at_ p level =>
      let base := pageBase va.toNat level
      match s.evicting h base with
      | some v => s.finishEvict v
      | none =>
        if p.res && !(bit p 9) && !s.pageLocked h base (2 ^ levelBits level) && !s.cleaningFirst then
          let t := (s.flushFor h).startEvict h base at_ level p
          match t.evicting h base with
          | some v => t.finishEvict v
          | none => t
        else s
    | _ => s)

/-- PAGE_AGE: A clears by compare-and-swap and the page is invalidated (09 R306). -/
def execPageAge (h : HedgeId) (va : BitVec 48) (s : State) : Outcome State Fault Refusal :=
  .next (match (s.walk h va.toNat).1 with
    | .leaf at_ p level =>
      if p.res then
        ((s.flushFor h).hbmPut at_ 8 (p.toNat &&& 0xFFFFFFFFFFFFFFEF)).invPage h (pageBase va.toNat level)
      else s
    | _ => s)

/-! ### Invalidation (09 R307, R308; Table 9-11) -/

/-- An entry of a cluster's TLBs that `f` names translates a page of the range. -/
def State.underEntry (s : State) (e : EngId) (h : HedgeId) (f : TlbEntry → Bool) (va n : Nat) : Bool :=
  (spanPages va n).any fun p =>
    ((s.eng e).dtlb.any fun kv => f kv.2 && kv.2.hits h p) || ((s.clu (cluOf e)).l2.any fun kv => f kv.2 && kv.2.hits h p)

/-- The contexts of the clusters named whose requests stand at a stage, under an entry that is being removed. -/
def State.underInv (s : State) (mask : BitVec 32) (f : TlbEntry → Bool) (at_ : Stage → Bool) : List (EngId × CtxId) :=
  s.engines.flatMap fun kv => if q : kv.1 < 256 then
      if !bit mask (kv.1 / 8) then [] else
      kv.2.ctxs.filterMap fun cv => if r : cv.1 < 32 then
          match cv.2.request? with
          | some ⟨_, w, st, _⟩ =>
            match reqAccess ⟨kv.1, q⟩ (s.slot cv.2.slot).hedge w with
            | some (a, va, n) => if at_ st && s.underEntry ⟨kv.1, q⟩ a.h f va n then some (⟨kv.1, q⟩, ⟨cv.1, r⟩) else none
            | none => none
          | none => none
        else none
    else []

/-- A request has gone out under its translation. -/
def Stage.out : Stage → Bool
  | .lock => true
  | .data => true
  | _ => false

/-- A mark request is under way. -/
def Stage.marks : Stage → Bool
  | .mark .. => true
  | _ => false

/-- A write of KEY_TLBINV with GO: it acts unless BUSY. The accesses that went out under a removed entry hold its completion, and a mark
request under way is repeated (09 R307, R308). -/
def State.invalidate (s : State) (r : Requester) (op : BitVec 3) (h : HedgeId) (mask : BitVec 32) (f : TlbEntry → Bool) : State :=
  if !s.reaches r then s
  else
    let s1 := { s with regs := { s.regs with tlbOp := op, tlbHedge := h, clmask := mask, tlbBusy := true } }
    if s.regs.tlbBusy then s1
    else
      let s2 := { s1 with invWait := s.underInv mask f Stage.out }
      ((s.underInv mask f Stage.marks).foldl (fun (t : State) q => t.modClu (cluOf q.1) fun k => { k with walkRst := satInc k.walkRst })
        (s2.dropTlb mask f)).wakeForInv mask

/-- TLBINV_PAGE: entries of the hedge whose page contains KEY_TLBADDR.PAGE. -/
def execTlbinvPage (r : Requester) (h : HedgeId) (mask : BitVec 32) (s : State) : Outcome State Fault Refusal :=
  .next (s.invalidate r 1 h mask (tlbOfPage h (s.regs.tlbPage.toNat * 4096)))

/-- TLBINV_HEDGE: entries of the hedge. -/
def execTlbinvHedge (r : Requester) (h : HedgeId) (mask : BitVec 32) (s : State) : Outcome State Fault Refusal :=
  .next (s.invalidate r 2 h mask fun t => t.hedge == h)

/-- TLBINV_FRAME: entries whose page contains the frame in KEY_TLBADDR.PAGE[43:12]; HEDGE keeps its value. -/
def execTlbinvFrame (r : Requester) (mask : BitVec 32) (s : State) : Outcome State Fault Refusal :=
  .next (s.invalidate r 3 s.regs.tlbHedge mask (tlbOfFrame (s.regs.tlbPage.toNat % 2 ^ 32)))

/-- TLBINV_ALL: every entry. -/
def execTlbinvAll (r : Requester) (mask : BitVec 32) (s : State) : Outcome State Fault Refusal :=
  .next (s.invalidate r 4 s.regs.tlbHedge mask fun _ => true)

/-- TLBINV_COMPLETE: every named cluster has completed once the accesses that went out under removed entries have been served, and BUSY
clears (09 R308). -/
def execTlbinvComplete (s : State) : Outcome State Fault Refusal :=
  .next (if s.invWait.isEmpty then { s with regs := { s.regs with tlbBusy := false } } else s)

end Sys2Proof.Machine
end

