-- ==== Sys2Proof/Machine/Locks.lean ====
section
/-! DEFINITION. Lock units, wounds and releases (10 R319 to R329). -/

namespace Sys2Proof.Machine

open Host (Outcome)

/-! ### The lock table (10 R319, R320, R322, R326) -/

/-- Key of a record in the lock table. -/
def lockKey (h : HedgeId) (addr : Nat) : Nat := h.val * 2 ^ 48 + addr

/-- The record's locks. -/
def State.lockRec (s : State) (k : Nat) : LockRec := tget LockRec.empty s.locks k

/-- Write the record's locks. -/
def State.setLock (s : State) (k : Nat) (r : LockRec) : State :=
  { s with locks := tset LockRec.empty s.locks k (if r.holders.isEmpty && r.waiters.isEmpty then LockRec.empty else r) }

/-- Entries that a locked record uses in its unit's share (10 R320). -/
def LockRec.entries (r : LockRec) : Nat :=
  if r.holders.isEmpty && r.waiters.isEmpty then 0
  else 1 + (if r.holders.any (·.2) then 0 else (r.holders.length - 1 + 4) / 5) + r.waiters.length

/-- The commands that wait for a shared lock, with the keys of their records: READ and the steps of SCAN (10 R340, R342). -/
def State.readers (s : State) : List (Nat × Word64) :=
  s.fns.flatMap fun kv => kv.2.cur.filterMap fun c => c.waits.map fun k => (k, c.start)

/-- Entries of a hedge in a unit's share, without one record's own holders and waiting slots. -/
def State.unitEntries (s : State) (h : HedgeId) (u : UnitId) (but : Nat) : Nat :=
  (s.locks.filterMap fun kv =>
    if kv.1 / 2 ^ 48 = h.val ∧ kv.1 ≠ but ∧ kv.2.unit = u then some kv.2.entries else none).sum +
  (s.readers.filter fun q => q.1 / 2 ^ 48 == h.val && (s.lockRec q.1).unit == u).length

/-- An older command waits to read the record: an exclusive request waits behind it (10 R326). -/
def State.behindReader (s : State) (k : Nat) (n : SlotId) (excl : Bool) : Bool :=
  excl && s.readers.any fun q => q.1 == k && decide (q.2.toNat < (s.slot n).start.toNat)

/-- Holders of the record that a request of `n` conflicts with (10 R322). -/
def LockRec.conflict (r : LockRec) (n : SlotId) (excl : Bool) : List SlotId :=
  (r.holders.filter fun q => q.1 != n && (excl || q.2)).map (·.1)

/-- The record is held by `n` in the mode or a stronger one. -/
def LockRec.has (r : LockRec) (n : SlotId) (excl : Bool) : Bool := r.holders.any fun q => q.1 == n && (q.2 || !excl)

/-- `n` becomes a holder; an upgrade replaces its shared hold. -/
def LockRec.grant (r : LockRec) (n : SlotId) (excl : Bool) : LockRec :=
  { r with holders := (r.holders.filter fun q => q.1 != n) ++ [(n, excl)], waiters := r.waiters.filter fun q => q.1 != n }

/-- An older transaction has the smaller start sequence (10 R313). -/
def State.older (s : State) (a b : SlotId) : Bool := (s.slot a).start.toNat < (s.slot b).start.toNat

/-- Insert a waiter in order of start sequence. -/
def State.enqueue (s : State) (n : SlotId) (excl : Bool) : List (SlotId × Bool) → List (SlotId × Bool)
  | [] => [(n, excl)]
  | q :: t => if s.older n q.1 then (n, excl) :: q :: t else q :: s.enqueue n excl t

/-- The lock that a request asks for: the record's REF and whether it is exclusive. -/
def reqLock : Req → Option (Cell × Bool)
  | .rld r _ _ _ => some (r, r.sub == 1)
  | .rlock r _ x => some (r, x)
  | _ => none

/-- A granted lock: the unit in the slot's mask, the exclusive-grant entry with the poison the grant found, and the request
goes on to its data (10 R323, R324). -/
def State.granted (s : State) (n : SlotId) (h : HedgeId) (u : UnitId) (r : Cell) (excl : Bool) : State :=
  let poison := (s.readRecord h (refAddr r) (refLen r)).any (·.2)
  let g : Grant := { addr := refAddr r, len := refLen r, poison := poison, rld := none }
  let s1 := s.modSlot n fun sl =>
    { sl with
      mask := sl.mask ||| BitVec.ofNat 64 (2 ^ u.val)
      grants := if excl then (sl.grants.filter fun x => x.addr != g.addr) ++ [g] else sl.grants }
  match s1.holder n with
  | some (e, c) => s1.modCtx e c fun x => x.setStage .data
  | none => s1

/-- The waiters that a release lets in, oldest first, up to one that `stays` (10 R326). -/
def LockRec.letIn (stays : SlotId × Bool → Bool) : Nat → LockRec → List (SlotId × Bool) → List (SlotId × Bool) × LockRec
  | 0, r, acc => (acc, r)
  | f + 1, r, acc =>
    match r.waiters with
    | [] => (acc, r)
    | q :: _ =>
      if (r.conflict q.1 q.2).isEmpty && !stays q then LockRec.letIn stays f (r.grant q.1 q.2) (acc ++ [q]) else (acc, r)

/-- After holders or waiters have left a record, grant what is compatible. -/
def State.regrant (s : State) (k : Nat) (r : LockRec) : State :=
  let q := r.letIn (fun w => s.behindReader k w.1 w.2) r.waiters.length []
  let h : HedgeId := ⟨k / 2 ^ 48 % 64, Nat.mod_lt _ (by decide)⟩
  q.1.foldl
    (fun t w =>
      match (t.slotRequest w.1).bind fun x => reqLock x.req with
      | some (c, x) => t.granted w.1 h r.unit c x
      | none => t)
    (s.setLock k q.2)

/-- Exclusive grants that a slot may hold (10 R323). -/
abbrev maxGrants : Nat := 64

/-- A request at the lock unit (02 R37, 10 R322, R323, R326). -/
def State.lockRequest (s : State) (e : EngId) (c : CtxId) (n : SlotId) (h : HedgeId) (ref : Cell) (excl : Bool) (u : UnitId) : State :=
  let k := lockKey h (refAddr ref)
  let r := { s.lockRec k with unit := u }
  let sl := s.slot n
  let conf := r.conflict n excl
  let ahead := (r.waiters.any fun q => s.older q.1 n) || s.behindReader k n excl
  let next := if conf.isEmpty && !ahead then r.grant n excl else { r with waiters := s.enqueue n excl r.waiters }
  let others := s.unitEntries h u k
  let share := (s.hedge h).par.locks / 64
  if r.has n excl then s.modCtx e c fun x => x.setStage .data
  else if excl && decide (maxGrants ≤ sl.grants.length) then s.modCtx e c fun x => x.setStage (.failed 0x0B)
  else if share < others + next.entries ∧ r.entries < next.entries then s.stopCtx e c 0x0B
  else if conf.isEmpty && !ahead then (s.setLock k next).granted n h u ref excl
  else
    let young := conf.filter fun m => s.older n m
    ({ s.setLock k next with wounds := s.wounds ++ young.map fun m => (stopOf u, m) }).modCtx e c fun x => x.setStage .lockWait

/-- The memory stop that a lock request on its way goes to; none for one that is no longer on its way. -/
def State.lockStop (s : State) (q : EngId × CtxId) : Option StopId :=
  let x := (s.eng q.1).ctx q.2
  match x.request? with
  | some ⟨_, r, .lock, _⟩ => (reqLock r).bind fun c => (s.phys (s.slot x.slot).hedge (refAddr c.1)).map fun a => stopOf (chanOf (a / 4096))
  | _ => none

/-- A lock request of the same cluster to the same memory stop goes ahead (01 R21). -/
def State.lockBehind (s : State) (e : EngId) (c : CtxId) : Bool :=
  (s.lockStop (e, c)).isSome &&
    (s.lockq.takeWhile fun q => q != (e, c)).any fun q => cluOf q.1 == cluOf e && s.lockStop q == s.lockStop (e, c)

/-- LOCK_REQUEST: the request reaches the unit of the record's first byte; a page that has left meanwhile is a record fault
(10 R320, R325, R326). Requests of a cluster to a memory stop arrive in order (01 R21). The request of an ended transaction is withdrawn (10 R328). -/
def execLockRequest (e : EngId) (c : CtxId) (s : State) : Outcome State Fault Refusal :=
  let x := (s.eng e).ctx c
  let h := (s.slot x.slot).hedge
  .next (match x.request? with
    | some ⟨_, q, .lock, _⟩ =>
      if s.lockBehind e c then s else
      let s := { s with lockq := s.lockq.filter fun q => q != (e, c) }
      if x.ending then s.arriveAt e c .plain else
      match reqLock q with
      | some (r, excl) =>
        match s.phys h (refAddr r) with
        | some a => s.lockRequest e c x.slot h r excl (chanOf (a / 4096))
        | none => s.modCtx e c fun x => x.setStage (.pageFault (refAddr r))
      | none => s
    | _ => s)

/-! ### Releases (10 R324) -/

/-- The unit releases every lock of the slot in its share. -/
def State.releaseUnit (s : State) (n : SlotId) (u : UnitId) : State :=
  s.locks.foldl
    (fun t kv =>
      let r := t.lockRec kv.1
      if r.unit = u ∧ r.holders.any (fun q => q.1 == n) then
        t.regrant kv.1 { r with holders := r.holders.filter fun q => q.1 != n }
      else t) s

/-- LOCK_RELEASE: a release reaches a unit of the slot's mask, which grants waiters and confirms (10 R324, R326). -/
def execLockRelease (slot : SlotId) (u : UnitId) (s : State) : Outcome State Fault Refusal :=
  let sl := s.slot slot
  .next (if sl.releasing && bit sl.unitsLeft u.val then
      (s.releaseUnit slot u).modSlot slot fun sl => { sl with unitsLeft := sl.unitsLeft &&& ~~~(BitVec.ofNat 64 (2 ^ u.val)) }
    else s)

/-- The completion of a slot's transaction (13 Table 13-7, R427). -/
def State.slotCompl (s : State) (n : SlotId) : Compl :=
  let sl := s.slot n
  { gk := if sl.gcs.isSome then .own else if sl.observed.isSome then .observed else .carried
    gcs := (sl.gcs.or sl.observed).getD 0
    result := sl.xword
    hsn := cmdHsn sl.cmd, sqhead := 0, status := sl.status, cont := false, rp := false, detail := sl.detail, slot := some n, resync := false }

/-- The completion reaches the front end of the hedge's function (10 Table 10-3 step 9). -/
def State.completeSlot (s : State) (n : SlotId) : State :=
  let h := (s.slot n).hedge
  match (s.hedge h).fn with
  | some f => s.formed f { s.slotCompl n with sqhead := (s.fn f).sqHead }
  | none => s.idleSlot n

end Sys2Proof.Machine
end

