-- ==== Sys2Proof/Machine/Commit.lean ====
section
/-! DEFINITION. Wounds, commit validation and the commit sequencer's step 5 (10 R327, R328, R330 to R335; 11 R355 to R362). -/

namespace Sys2Proof.Machine

open Host (Outcome)

/-! ### Wounds (10 R327, R328) -/

/-- WOUND: a wound on its way reaches the sequencer: it sets WOUND of a live slot and sends an end notice with the slot's hedge and epoch,
or is void for a sealed slot. -/
def execWound (slot : SlotId) (s : State) : Outcome State Fault Refusal :=
  let sl := s.slot slot
  .next (match inTurn (fun q => q.1) (fun q => q.2 == slot) s.wounds with
    | some q =>
      let s1 := { s with wounds := s.wounds.erase q }
      if sl.sealed || sl.state == .idle then s1
      else
        { s1.modSlot slot fun sl => { sl with wound := true } with
          endNotices := s1.endNotices ++ [s1.msgTo sl.eng slot 0 (.ended slot)] }
    | none => s)

/-- END_NOTICE: the earliest end notice on its way to the slot reaches its engine, where it is accepted or bounces, or firmware for a
slot that no context holds (02 R50; 10 R327, R328). -/
def execEndNotice (slot : SlotId) (s : State) : Outcome State Fault Refusal :=
  .next (match inTurn (fun m => cluOf m.eng) (fun m => msgSlot m.kind == slot) s.endNotices with
    | some m =>
      let s1 := { s with endNotices := s.endNotices.erase m }
      if (s1.holder slot).isSome then s1.message m else s1.endNow slot
    | none => s)

/-! ### Deltas (11 R355, R356, R358) -/

/-- Maximal runs of marked 8-byte units among units `i` to `n` of a record, as (first unit, units). -/
def markedRuns (m : Nat → Bool) : Nat → Nat → Nat → List (Nat × Nat)
  | 0, i, run => if run = 0 then [] else [(i - run, run)]
  | f + 1, i, run =>
    if m i then markedRuns m f (i + 1) (run + 1)
    else (if run = 0 then [] else [(i - run, run)]) ++ markedRuns m f (i + 1) 0

/-- The written mark of the 8-byte unit `i` from scratch address `a`. -/
def Engine.unitMark (e : Engine) (a i : Nat) : Bool :=
  let m := tget (false, false) e.marks ((a + 8 * i) / 16)
  if (a + 8 * i) % 16 = 0 then m.1 else m.2

/-- An index entry is trimmable: its grant records an RLD into the same buffer, at least as long (11 R355). -/
def Slot.trimmable (sl : Slot) (r : Cell) (a : Nat) : Bool :=
  sl.grants.any fun g => g.addr == refAddr r && match g.rld with
    | some (b, n) => b == a && decide (refLen r ≤ n)
    | none => false

/-- The deltas of an index entry: the marked runs of a trimmable one, clipped at the record's last byte, else the whole REF. -/
def entryDeltas (e : Engine) (sl : Slot) (r : Cell) (a : Nat) : List Delta :=
  let n := refLen r
  if sl.trimmable r a then
    (markedRuns (e.unitMark a) ((n + 7) / 8) 0 0).map fun q =>
      { addr := refAddr r + 8 * q.1, bytes := e.readBytes (a + 8 * q.1) (min (8 * q.2) (n - 8 * q.1)) }
  else [{ addr := refAddr r, bytes := e.readBytes a n }]

/-- A delta takes the short form (11 R356). -/
def shortDelta (addr len : Nat) : Bool := addr % 8 == 0 && len % 8 == 0 && decide (len ≤ 48)

/-- The entry count E (11 R358). -/
def entryCount (ds : List Delta) : Nat :=
  (ds.map fun d => if shortDelta d.addr d.bytes.length then 1 else 1 + (d.bytes.length - 48 + 63) / 64).sum

/-! ### Validation (10 R330, R331) -/

/-- Staging blocks of an index entry (10 R331). -/
def entryBlocks (n : Nat) : Nat := (n + 16 + 255) / 256

/-- What the checks of an index entry come to, with the state after them. -/
inductive EntryRes where
  | ok (s : State) (ds : List Delta) (len : Nat)
  | fail (s : State) (status : Byte)
  | fault (s : State) (va : Nat)

/-- The checks of the index entry at `w` in the order of R330, and its deltas. -/
def State.indexEntry (s : State) (e : EngId) (n : SlotId) (c : Ctx) (w : Nat) : EntryRes :=
  let g := s.eng e
  let sl := s.slot n
  let r := g.cell (w / 16)
  let q := g.cell (w / 16 + 1)
  let a := bits q.pay 17 0
  let len := refLen r
  let cover := 16 * ((len + 15) / 16)
  if !(r.wellFormed && r.ty == tyREF && r.sub == 1 && q.wellFormed && q.ty == tyINT) then .fail s 0x06
  else if !refOk r then .fail s 0x05
  else if !(decide (a + cover ≤ scratchEnd) && g.open? c.psw.pl.toNat a cover) then .fail s 0x05
  else if r.p || q.p || (cellsOf a len).any fun k => (g.cell k).p then .fail (s.modEng e fun g => g.meetAll (cellsOf a len)) 0x04
  else
    match sl.grants.find? fun x => x.addr == refAddr r with
    | none => .fail s 0x01
    | some gr =>
      if gr.poison then .fail s 0x04
      else
        let akey : BitVec 4 := r.pay.extractLsb' 48 4
        let bound := bit r.pay 52
        if bound && akey == 0 && c.psw.pl != 0 then .fail s 0x05
        else
          let acc : Access := ⟨some e, cluOf e, sl.hedge, if bound then akey else c.psw.key, true, true, false⟩
          let t := State.transMarked acc (refAddr r) len 64 s
          match t.2 with
          | .fail st => .fail t.1 st
          | .fault va => .fault t.1 va
          | _ =>
            let ds := entryDeltas g sl r a
            if 16384 < sl.total + len || 512 < entryCount (sl.deltas ++ ds) then .fail t.1 0x01 else .ok t.1 ds len

/-- Too few blocks are free for an entry: validation waits, and the wait is counted once (10 R331). -/
def State.waitBlocks (s : State) (n : SlotId) (k : CluId) : State :=
  (s.modClu k fun c => { c with stgWaits := if (s.slot n).stgWait then c.stgWaits else satInc c.stgWaits }).modSlot n fun sl =>
    { sl with stgWait := true, cluster := k }

/-- An entry takes its blocks and its bytes are copied into staging (10 R330 step 3, R331). -/
def State.stageEntry (s : State) (n : SlotId) (k : CluId) (ds : List Delta) (len : Nat) : State :=
  (s.modClu k fun c => { c with stgFree := c.stgFree - BitVec.ofNat 11 (entryBlocks len) }).modSlot n fun sl =>
    { sl with
      checked := sl.checked + 1, total := sl.total + len, deltas := sl.deltas ++ ds, blocks := sl.blocks + entryBlocks len, stgWait := false
      cluster := k }

/-- Every entry is staged, and the deltas go to the commit sequencer; a write set whose entries carry no marked byte still has one delta
(10 R330 step 4; 11 R355). -/
def Slot.nowStaged (sl : Slot) (x : Word64) (empty : Bool) : Slot :=
  let ds := if empty then [] else if sl.deltas.isEmpty then [{ addr := 0, bytes := [] }] else sl.deltas
  { sl with deltas := ds, entries := entryCount ds, staged := true, xword := x }

/-- Steps 2 to 4 of the commit of a context, from the first index entry not yet staged on: each entry is checked, then takes its blocks;
too few free blocks, or a record fault, make validation wait where it stands (10 R330, R331; log 70). -/
def State.validate (e : EngId) (n : SlotId) (c : Ctx) (x : Word64) (w0 w : Nat) : Nat → State → State
  | 0, s => s.modSlot n fun sl => sl.nowStaged x (w0 == w)
  | f + 1, s =>
    match s.indexEntry e n c (w0 + 32 * (s.slot n).checked) with
    | .fail t st => t.endTxn n st 0
    | .fault t va => (t.modClu (cluOf e) fun c => { c with rfault := satInc c.rfault }).modSlot n fun sl => { sl with pageWait := some va, cluster := cluOf e }
    | .ok t ds len =>
      if (t.clu (cluOf e)).stgFree.toNat < entryBlocks len then t.waitBlocks n (cluOf e)
      else State.validate e n c x w0 w f (t.stageEntry n (cluOf e) ds len)

/-- Validate the entries of an index that are not yet staged. -/
def State.validateIndex (s : State) (e : EngId) (n : SlotId) (c : Ctx) (x : Word64) (w0 w : Nat) : State :=
  State.validate e n c x w0 w ((w - w0) / 32 - (s.slot n).checked) s

/-- A commit that may validate: in SEALING, not staged, waiting for no page. -/
def Slot.validating (sl : Slot) : Bool := sl.state == .sealing && !sl.staged && sl.pageWait.isNone

/-- COMMIT_VALIDATE: the commit port takes up the context's index (10 R330). -/
def execCommitValidate (e : EngId) (c : CtxId) (s : State) : Outcome State Fault Refusal :=
  let x := (s.eng e).ctx c
  .next (match x.request? with
    | some ⟨_, .commit r w0 w, _, _⟩ =>
      if (s.slot x.slot).validating && !(s.slot x.slot).stgWait && x.state == .wait then s.validateIndex e x.slot x r w0 w else s
    | _ => s)

/-- STAGING_BLOCKS_FREE: the oldest validation that waits for blocks in the cluster tries again (10 R331). -/
def execStagingBlocksFree (k : CluId) (s : State) : Outcome State Fault Refusal :=
  let ws := s.busySlots.filter fun n => (s.slot n).stgWait && (s.slot n).cluster == k && (s.slot n).validating
  .next (match ws.find? fun n => ws.all fun m => m == n || s.older n m with
    | some n =>
      match s.holder n with
      | some (e, c) =>
        match ((s.eng e).ctx c).request? with
        | some ⟨_, .commit r w0 w, _, _⟩ => s.validateIndex e n ((s.eng e).ctx c) r w0 w
        | _ => s
      | none => s
    | none => s)

/-! ### Watermarks (11 R360) -/

/-- LEHR_HIGH to every hedge (13 Table 13-9). -/
def highEvent (s : State) (on : Bool) : Ev := { kind := 1, a := s.lehr.drawn, b := 0, c := BitVec.ofNat 32 (b2n on), d := 0 }

/-- FULL stands while a commit that waits under R362 does not fit; as it is set the management alarm is raised (11 R360, R362). -/
def State.settleFull (s : State) : State :=
  if s.overfull then
    if s.lehr.full then s else { s with lehr := { s.lehr with full := true, fullSince := s.aoTick.toNat } }.alarm .lehrFull
  else s.unfull

/-- LOW, HIGH and FULL follow the fill; a change of HIGH is posted to every hedge, with the level-4 NOTICE (13 Tables 13-9, 13-17). -/
def State.watermarks (s : State) : State :=
  let l := s.lehr
  let f := l.fill
  let high := if 6144 ≤ f then true else if f < 5120 then false else l.high
  let s1 := State.settleFull { s with lehr := { l with low := decide (2048 ≤ f), high := high } }
  if high = l.high then s1
  else s.openHedges.foldl (fun (t : State) h => t.notify h 3 (BitVec.ofNat 32 (b2n high))) (s1.everyHedge (highEvent s high))

/-! ### Step 5 (10 R330, R332, R334; 11 R359, R361, R362) -/

/-- What admission says of a commit of `n` entries: it is admitted, waits under R361, or waits under R362. -/
inductive Admit where
  | yes | throttle | full
  deriving DecidableEq, Repr

/-- Admission of a reservation (11 R361, R362). -/
def State.admission (s : State) (n : SlotId) : Admit :=
  let sl := s.slot n
  let h := s.hedge sl.hedge
  let before := s.lehr.waiting.takeWhile fun m => m != n
  let blockedFull := before.any fun m => (s.slot m).waitSince.isNone
  let blockedThr := before.any fun m => (s.slot m).waitSince.isSome && (s.slot m).hedge == sl.hedge
  if blockedFull || decide (8192 < s.lehr.fill + sl.entries) then .full
  else if blockedThr || decide (h.quota.toNat < h.used.toNat + sl.entries) ||
      (s.lehr.high && decide (h.ecommit.toNat < (h.inWindow s.aoTick + 1) * 100)) then .throttle
  else .yes

/-- The sequencer draws nothing now: a quiesce, a fence, a stalled pair or a snapshot pause (11 R370, R380; 16 R530; 17 R557). -/
def Lehr.held (l : Lehr) : Bool := l.quiesced || l.fenced || l.failed || l.stalled || l.paused

/-- The hedge's occupancy rises through 75 % of its quota: the level-3 NOTICE (13 Table 13-17). -/
def State.quotaNotice (s : State) (h : HedgeId) (before : Nat) : State :=
  let g := s.hedge h
  if 4 * before < 3 * g.quota.toNat ∧ 3 * g.quota.toNat ≤ 4 * g.used.toNat then s.notify h 2 (g.used.setWidth 32) else s

/-- GCS_DRAW: the next GCS, the reservation and SEALED; the deltas join the controller's queue (10 R332, 11 R359). -/
def State.draw (s : State) (n : SlotId) : State :=
  let sl := s.slot n
  let g := s.lehr.drawn + 1
  let last := sl.deltas.length - 1
  let qs : List QDelta := sl.deltas.zipIdx.map fun d =>
    { slot := n, hedge := sl.hedge, gcs := g, addr := d.1.addr, bytes := d.1.bytes, last := d.2 == last }
  let s1 := s.modSlot n fun sl =>
    { sl with state := .sequenced, sealed := true, gcs := some g, waitSince := none, throttled := false, unpacked := sl.deltas.length, undurable := 0 }
  let s2 := s1.modHedge sl.hedge fun h =>
    { h with used := h.used + BitVec.ofNat 14 sl.entries, windowAt := s.aoTick.toNat / 10, window := h.inWindow s.aoTick + 1 }
  (State.watermarks { s2 with lehr := { s2.lehr with
      drawn := g, reserved := s2.lehr.reserved + sl.entries, queue := s2.lehr.queue ++ qs
      waiting := s2.lehr.waiting.filter fun m => m != n } }).quotaNotice sl.hedge (s.hedge sl.hedge).used.toNat

/-- READ_ONLY_COMMIT: the observed GCS, and releases on the path of a transaction without its own (10 R334). -/
def State.readOnly (s : State) (n : SlotId) : State :=
  s.modSlot n fun sl => { sl with state := .applying, observed := some s.lehr.drawn, releasing := true, unitsLeft := sl.mask }

/-- The commit waits at step 5: under R361 with its time and one count, or under R362, to which TWAIT does not apply; what holds it may
change while it waits (11 R361, R362, R380; 16 R530). -/
def State.waitAdmission (s : State) (n : SlotId) (full : Bool) : State :=
  let sl := s.slot n
  let s1 := if s.lehr.waiting.contains n then s else { s with lehr := { s.lehr with waiting := s.lehr.waiting ++ [n] } }
  let s2 := if full then s1.modSlot n fun x => { x with waitSince := none }
    else s1.modSlot n fun x => { x with waitSince := some (x.waitSince.getD s.aoTick.toNat), throttled := true }
  (if full || sl.throttled then s2 else s2.modHedge sl.hedge fun h => { h with waits := satInc h.waits }).settleFull

/-- COMMIT_ADMISSION: the staged commit at step 5 is refused, waits, returns the observed GCS, or draws (10 R330 step 5). -/
def execCommitAdmission (slot : SlotId) (s : State) : Outcome State Fault Refusal :=
  let sl := s.slot slot
  .next (if !(sl.state == .sealing && sl.staged) then s
    else if sl.wound then s.endTxn slot 0x02 0
    else if sl.mediaMark then s.endTxn slot 0x04 0
    else if sl.deltas.isEmpty then (if s.lehr.fenced || s.lehr.failed then s else s.readOnly slot)
    else if s.lehr.held then s.waitAdmission slot true
    else
      match s.admission slot with
      | .yes => s.draw slot
      | .throttle => s.waitAdmission slot false
      | .full => s.waitAdmission slot true)

/-- THROTTLE_TIMEOUT: a commit still waiting under R361 after TWAIT is refused (11 R361). -/
def execThrottleTimeout (slot : SlotId) (s : State) : Outcome State Fault Refusal :=
  let sl := s.slot slot
  .next (match sl.waitSince with
    | some t =>
      if sl.state = .sealing ∧ t + s.lehr.twait.toNat ≤ s.aoTick.toNat then
        (s.endTxn slot 0x0B 0).modHedge sl.hedge fun h => { h with thr := satInc h.thr }
      else s
    | none => s)

/-- MEDIA_MARK: a media mark on its way reaches the sequencer; a commit waiting at step 5 is refused (10 R330). -/
def execMediaMark (slot : SlotId) (s : State) : Outcome State Fault Refusal :=
  let sl := s.slot slot
  .next (match inTurn (fun q => q.1) (fun q => q.2 == slot) s.mediaMarks with
    | some q =>
      let s1 := { s with mediaMarks := s.mediaMarks.erase q }
      if sl.gcs.isSome || !sl.endable then s1
      else if s.lehr.waiting.contains slot then s1.endTxn slot 0x04 0
      else s1.modSlot slot fun sl => { sl with mediaMark := true }
    | none => s)

end Sys2Proof.Machine
end

