-- ==== Sys2Proof/Machine/Decimal.lean ====
section
/-! DEFINITION. The decimal instructions of opcode page 0x60 to 0x67 (06 R191 to R207). -/

namespace Sys2Proof.Machine

open Host (Outcome)

/-- The cell is a DEC. -/
def Cell.isDec (c : Cell) : Bool := decide (c.ty = tyDEC)

/-- DMUL ( a b -- lo hi ): the exact product in two cells, both with its sign, both plus when it is zero (06 R194). -/
def execDmul (x : Iss) (s : State) : Outcome State Fault Refusal :=
  .next (s.issue x { pops := 2, pushes := 2, reads := 2 } 0x60
    (fun v e c => do
      let b := stackTop e c 0
      let a := stackTop e c 1
      tagCheck v.nochk [(0, b, b.isDec), (1, a, a.isDec)]
      decUse 1 a
      decUse 0 b
      let m := decMag a.pay * decMag b.pay
      let neg := m != 0 && (decMinus a.pay != decMinus b.pay)
      let p := a.p || b.p
      pure { count := 2, eng := e,
             ctx := c.popPush 2 [cellDec (decMakeSigned neg (m % decLimit)) p, cellDec (decMakeSigned neg (m / decLimit)) p] })
    id)

/-- DDIV ( a b -- q r ) on the microcode sequencer, abandonable (06 R196, R197). -/
def execDdiv (x : Iss) (s : State) : Outcome State Fault Refusal :=
  .next (s.issue x { pops := 2, pushes := 2, reads := 2 } 0x61
    (fun v e c => do
      let b := stackTop e c 0
      let a := stackTop e c 1
      tagCheck v.nochk [(0, b, b.isDec), (1, a, a.isDec)]
      decUse 1 a
      decUse 0 b
      ensure (decMag b.pay != 0) (fArith 2)
      let q := decMag a.pay / decMag b.pay
      let r := decMag a.pay % decMag b.pay
      let p := a.p || b.p
      pure { count := 36, unit := some .ucode, aband := true, eng := e,
             ctx := c.popPush 2 [cellDec (decMake (decMinus a.pay != decMinus b.pay) q) p,
                                 cellDec (decMake (decMinus a.pay) r) p] }) id)

/-- DSHL n ( d -- d' ): times 10^N (06 R198, R199). -/
def execDshl (x : Iss) (imm : Byte) (s : State) : Outcome State Fault Refusal :=
  .next (s.issue x
    { imm := 1, sat := true, pops := 1, pushes := 1, reads := 1, badField := if bits imm 7 5 ≠ 0 then some 0 else none } 0x62
    (fun v e c => do
      let d := stackTop e c 0
      tagCheck v.nochk [(0, d, d.isDec)]
      decUse 0 d
      let m := decMag d.pay * 10 ^ bits imm 4 0
      let r ← decResult v.sat d.p (if decMinus d.pay then -(m : Int) else m)
      pure { count := 1, eng := e, ctx := c.popPush 1 [r] }) id)

/-- The pair's value: magnitude and sign; a data fault naming hi where the signs differ in class (06 R195). A hi with P = 1 raises none
(R186): the value is then hi × 10^31 + lo as it stands. -/
def pairOf (lo hi : Cell) : Except SFault (Nat × Bool) :=
  if decMag lo.pay != 0 && decMag hi.pay != 0 && decMinus lo.pay != decMinus hi.pay then
    if hi.p then .ok (decMag hi.pay * decLimit - decMag lo.pay, decMinus hi.pay) else .error (fData 4 0)
  else .ok (decMag hi.pay * decLimit + decMag lo.pay, if decMag hi.pay != 0 then decMinus hi.pay else decMinus lo.pay)

/-- The DEC that DSHR and DRND write, or the arithmetic fault of R188 (06 R201). -/
def roundedDec (p neg : Bool) (k : Nat) : Except SFault Cell :=
  if k < decLimit then .ok (cellDec (decMake neg k) p) else .error (fArith 1)

/-- DSHR n ( d -- d' ) or ( lo hi -- d' ): shift right with rounding (06 R198 to R202). -/
def execDshr (x : Iss) (imm : Byte) (s : State) : Outcome State Fault Refusal :=
  let n := bits imm 5 0
  let pair := bit imm 6
  let bad := bit imm 7 || (if pair then n == 63 else decide (31 < n))
  let p := if pair then 2 else 1
  .next (s.issue x { imm := 1, rnd := true, pops := p, pushes := 1, reads := p, badField := if bad then some 0 else none } 0x63
    (fun v e c => do
      let hi := stackTop e c 0
      let lo := stackTop e c 1
      if pair then
        tagCheck v.nochk [(0, hi, hi.isDec), (1, lo, lo.isDec)]
        decUse 1 lo
        decUse 0 hi
        let m ← pairOf lo hi
        let r ← roundedDec (lo.p || hi.p) m.2 (roundDiv v.rm m.2 m.1 (10 ^ n))
        pure { count := 2, eng := e, ctx := c.popPush 2 [r] }
      else
        tagCheck v.nochk [(0, hi, hi.isDec)]
        decUse 0 hi
        let r ← roundedDec hi.p (decMinus hi.pay) (roundDiv v.rm (decMinus hi.pay) (decMag hi.pay) (10 ^ n))
        pure { count := 2, eng := e, ctx := c.popPush 1 [r] }) id)

/-- DRND n ( d -- d' ): round at a digit position (06 R200, R201). -/
def execDrnd (x : Iss) (imm : Byte) (s : State) : Outcome State Fault Refusal :=
  let n := bits imm 4 0
  .next (s.issue x
    { imm := 1, rnd := true, pops := 1, pushes := 1, reads := 1, badField := if bits imm 7 5 ≠ 0 then some 0 else none } 0x64
    (fun v e c => do
      let d := stackTop e c 0
      tagCheck v.nochk [(0, d, d.isDec)]
      decUse 0 d
      let r ← roundedDec d.p (decMinus d.pay) (roundDiv v.rm (decMinus d.pay) (decMag d.pay) (10 ^ n) * 10 ^ n)
      pure { count := 2, eng := e, ctx := c.popPush 1 [r] }) id)

/-- DCMP ( a b -- a b r ) (06 R203). -/
def execDcmp (x : Iss) (s : State) : Outcome State Fault Refusal :=
  .next (s.issue x { pops := 2, pushes := 3, reads := 2 } 0x67
    (fun v e c => do
      let b := stackTop e c 0
      let a := stackTop e c 1
      tagCheck v.nochk [(0, b, b.isDec), (1, a, a.isDec)]
      decUse 1 a
      decUse 0 b
      pure { count := 1, eng := e,
             ctx := c.popPush 2 [a, b, cellInt (ordInt (compare (decVal a.pay) (decVal b.pay))) (a.p || b.p)] }) id)

/-! ### Zoned decimal (06 R204 to R207) -/

/-- Digit bytes, form and length T of a zoned field (06 Table 6-6). -/
def zLen (imm : Byte) : Nat := bits imm 4 0
/-- FORM: 0 DB, 1 AU, 2 AL, 3 AT. -/
def zForm (imm : Byte) : Nat := bits imm 6 5
/-- Length of the field in bytes. -/
def zT (imm : Byte) : Nat := if zForm imm = 1 then zLen imm else zLen imm + 1
/-- Offset of the sign byte, none for AU. -/
def zSignAt (imm : Byte) : Option Nat :=
  match zForm imm with
  | 1 => none
  | 3 => some (zLen imm)
  | _ => some 0
/-- Offset of digit byte `i`, the most significant first. -/
def zDigitAt (imm : Byte) (i : Nat) : Nat := if zForm imm = 0 ∨ zForm imm = 2 then i + 1 else i

/-- A digit byte's digit, none when it is not accepted. -/
def zDigit (form : Nat) (b : Byte) : Option Nat :=
  if form = 0 then (if b.toNat ≤ 9 then some b.toNat else none)
  else if 0x30 ≤ b.toNat ∧ b.toNat ≤ 0x39 then some (b.toNat - 0x30) else none

/-- A sign byte's sign (true for minus), none when it is not accepted. -/
def zSign (form : Nat) (b : Byte) : Option Bool :=
  if form = 0 then (if b = 0 then some false else if b = 1 then some true else none)
  else if b = 0x2B ∨ b = 0x20 then some false else if b = 0x2D then some true else none

/-- The byte at offset `i` of a field is in the accepted set (06 R205). -/
def zAccepts (imm : Byte) (i : Nat) (b : Byte) : Bool :=
  if zSignAt imm = some i then (zSign (zForm imm) b).isSome else (zDigit (zForm imm) b).isSome

/-- Address checks of PACK and UNPK: range, then regions (06 R192, R207). DESIGN CHOICE: INFO of the key fault is the first closed byte
(log 68). -/
def zAddr (v : Env) (e : Engine) (a : Int) (t : Nat) : Except SFault Unit := do
  ensure (0 ≤ a && a + t - 1 ≤ 0x3FFFF) (fAddr 1 a)
  ensure (e.open? v.pl a.toNat t)
    (fKey 1 (((List.range t).find? fun i => !e.open? v.pl (a.toNat + i) 1).getD 0 + a.toNat))

/-- PACK f ( a -- d ) (06 R205). -/
def execPack (x : Iss) (imm : Byte) (s : State) : Outcome State Fault Refusal :=
  .next (s.issue x
    { imm := 1, pops := 1, pushes := 1, reads := 1, badField := if zLen imm = 0 || bit imm 7 then some 0 else none } 0x65
    (fun v e c => do
      let ac := stackTop e c 0
      tagCheck v.nochk [(0, ac, ac.isInt)]
      ensure (!ac.p) (fPsn 0 (BitVec.ofInt 32 ac.int).toNat)
      zAddr v e ac.int (zT imm)
      let a := ac.int.toNat
      let bs := e.readBytes a (zT imm)
      let psn := fun i => (e.cell ((a + i) / 16)).p
      match (List.range (zT imm)).find? fun i => !psn i && !zAccepts imm i (bs.getD i 0) with
      | some i => .error (fData 2 0 i)
      | none =>
        let mag := (List.range (zLen imm)).foldl
          (fun acc i => acc * 10 + (zDigit (zForm imm) (bs.getD (zDigitAt imm i) 0)).getD 9) 0
        let neg := match zSignAt imm with
          | some i => (zSign (zForm imm) (bs.getD i 0)).getD false
          | none => false
        pure { count := 4, eng := e.meetAll (cellsOf a (zT imm)),
               ctx := c.popPush 1 [cellDec (decMake neg mag) (e.anyPoison a (zT imm))] }) id)

/-- The bytes UNPK writes (06 Table 6-6). -/
def zBytes (imm : Byte) (neg : Bool) (mag : Nat) : List Byte :=
  let form := zForm imm
  let ds := (List.range (zLen imm)).map fun i =>
    BitVec.ofNat 8 ((if form = 0 then 0 else 0x30) + mag / 10 ^ (zLen imm - 1 - i) % 10)
  let sg : Byte := if form = 0 then (if neg then 1 else 0) else if neg then 0x2D else 0x2B
  match form with
  | 1 => ds
  | 3 => ds ++ [sg]
  | _ => sg :: ds

/-- Key and tag checks of the target cells of a byte store: guard at PL2, then Table 4-9 (06 R192, R206). -/
def byteTargets (v : Env) (e : Engine) (a n : Nat) : Except SFault Unit := do
  match (cellsOf a n).find? fun k => v.pl == 2 && (e.cell k).g with
  | some k => .error (fKey 2 (16 * k))
  | none => pure ()

/-- The tag check of the target cells (04 Table 4-9). -/
def byteTags (v : Env) (e : Engine) (a n : Nat) : Except SFault Unit :=
  match (cellsOf a n).find? fun k => !e.narrowOk v.nochk k with
  | some k => .error (fTagCell 2 (16 * k))
  | none => .ok ()

/-- UNPK f ( d a -- ) (06 R206). -/
def execUnpk (x : Iss) (imm : Byte) (s : State) : Outcome State Fault Refusal :=
  .next (s.issue x
    { imm := 1, pops := 2, reads := 2, badField := if zLen imm = 0 || bit imm 7 then some 0 else none } 0x66
    (fun v e c => do
      let ac := stackTop e c 0
      let d := stackTop e c 1
      tagCheck v.nochk [(0, ac, ac.isInt), (1, d, d.isDec)]
      ensure (!ac.p) (fPsn 0 (BitVec.ofInt 32 ac.int).toNat)
      decUse 1 d
      zAddr v e ac.int (zT imm)
      let a := ac.int.toNat
      byteTargets v e a (zT imm)
      byteTags v e a (zT imm)
      let mag := decMag d.pay
      ensure (mag < 10 ^ zLen imm && !(zForm imm == 1 && decMinus d.pay && mag != 0)) (fArith 1 1)
      pure { count := 4, eng := e.storeBytes a (zBytes imm (decMinus d.pay && mag != 0) mag) d.p,
             ctx := c.popPush 2 [] }) id)

end Sys2Proof.Machine
end

