-- ==== Sys2Proof/Machine/EngineEvents.lean ====
section
/-! DEFINITION. What reaches the engines' contexts: counts elapsing, events, messages, and the completions of asynchronous
instructions (02 R50 to R53, 03 R66 to R74 and R109, 05 R169 to R177, 08 R244 to R271). -/

namespace Sys2Proof.Machine

open Host (Outcome)

/-! ### Counts and the store buffer -/

/-- What a context whose count has elapsed becomes (03 R66, 08 R262). -/
def Ctx.elapsed (x : Ctx) : Ctx :=
  let c := x.ehBound
  match c.wait with
  | none => { c with state := .ready, left := 0, undo := none }
  | some w =>
    match w.done with
    | some a => { (c.resume a) with left := 0, undo := none }
    | none => { c with state := .wait, left := 0, wdog := 0, undo := none }

/-- BUSY_COUNT_ELAPSED: the context is READY, in WAIT, or FREE at its transaction's end; the write of a read-modify-write
without P.LOCK comes (04 R139); its unit goes to the first HELD context (03 R66, R70). -/
def execBusyCountElapsed (e : EngId) (c : CtxId) (s : State) : Outcome State Fault Refusal :=
  let x := (s.eng e).ctx c
  .next (if x.state ≠ .busy then s
    else if x.ending then (s.modEng e fun g => g.finishRmw c).freeCtx e c
    else s.modEng e fun g => let g := g.finishRmw c; (g.setCtx c (g.ctx c).elapsed).freeUnits c)

/-- STORE_BUFFER_DRAIN (03 R109). -/
def execStoreBufferDrain (e : EngId) (s : State) : Outcome State Fault Refusal := .next (s.modEng e Engine.drainOne)

/-! ### Events (08) -/

/-- Firmware sends a refused NOTICE again once the pending one of its level has been taken (08 R246). -/
def State.resend (s : State) (n : SlotId) : State :=
  match s.refused.find? fun m => match m.kind with
    | .notice k level _ _ => k == n && (match s.ctxOfSlot n with | some c => (tget none c.notices (level.val + 1)).isNone | none => false)
    | _ => false with
  | some m => ({ s with refused := s.refused.erase m }).message { s.msgTo (s.slot n).eng n 0 m.kind with start := m.start }
  | none => s

/-- EVENT_TAKE: the context that R65 chooses takes its pending event of highest level in place of an issue (08 R244, R245); it
waits no longer, and the ao-tick of R346 starts anew. -/
def execEventTake (e : EngId) (c : CtxId) (s : State) : Outcome State Fault Refusal :=
  let g := s.eng e
  .next (match (g.ctx c).takable with
    | some (l, v) =>
      if s.running e ∧ g.nextIssue = some c then
        let h := (s.slot (g.ctx c).slot).hedge
        (((s.setEng e ((g.setCtx c { (g.ctx c).dropEvent l v.vec with heldOn := none }).issued c h)).vector e c v).resend (g.ctx c).slot).modHedge h
          fun q => { q with deadSince := none }
      else s
    | none => s)

/-- NOTICE_DELIVERY: firmware sends a NOTICE of level 1 to 5 to the engine that holds the slot, which accepts it or bounces it, or to its
parked image; it becomes pending, or is refused and returns (02 R50, 08 R246). -/
def execNoticeDelivery (slot : SlotId) (level : Fin 5) (kind : Byte) (word : BitVec 32) (s : State) : Outcome State Fault Refusal :=
  .next (match s.holder slot with
    | some (e, _) => s.message (s.msgTo e slot 0 (.notice slot level kind word))
    | none => s.notice slot level kind word)

/-- WATCHDOG: the count has passed LIMIT; 0 disables (08 R270). -/
def execWatchdog (e : EngId) (c : CtxId) (s : State) : Outcome State Fault Refusal :=
  let g := s.eng e
  let x := g.ctx c
  .next (if x.live && g.wdogLimit != 0 && decide (g.wdogLimit.toNat < x.wdog) && x.state != .wait && x.wdp.isNone then
      s.modEng e fun g => (g.setCtx c { x with wdp := some (BitVec.ofNat 32 x.wdog) }).abandon c
    else s)

/-- CAUSE and INFO of a MACHINE-CHECK (16 Table 16-3); a window cell is counted from the top. -/
def damageCause (d : Damage) (x : Ctx) : Byte × BitVec 32 :=
  match d with
  | .loc n => (1, BitVec.ofNat 32 n.val)
  | .rse n => (2, BitVec.ofNat 32 n.val)
  | .win i => (3, BitVec.ofNat 32 (x.depth.toNat - 1 - i.val))
  | .ucode a => (4, BitVec.ofNat 32 a.val)
  | .patch a => (5, BitVec.ofNat 32 a.val)
  | .code a => (7, a.setWidth 32)

/-- Counters of the cluster that an uncorrectable error in microcode or code RAM sets (15 R505, 16 R521). -/
def Clu.struck (k : Clu) : Damage → Clu
  | .ucode a => { k with mcUe := satInc k.mcUe, mcLast := BitVec.ofNat 13 a.val, mcLastP := false, failing := some (k.failing.getD [] ++ [a.val]) }
  | .patch a => { k with mcUe := satInc k.mcUe, mcLast := BitVec.ofNat 13 a.val, mcLastP := true, failing := some (k.failing.getD []) }
  | .code a => { k with crbad := a, crbadv := true }
  | _ => k

/-- The error strikes something that is there: a cell inside the window (08 R271). -/
def Ctx.strikes (x : Ctx) : Damage → Bool
  | .win i => decide (i.val < x.depth.toNat) && decide (x.depth.toNat ≤ i.val + x.win.length)
  | _ => true

/-- MACHINE_CHECK: an uncorrectable error in state private to the context, in a microcode word of its execution, which is
discarded, or in a code-RAM word that it fetches (08 R271, 15 R505, 16 R521, R522). -/
def execMachineCheck (e : EngId) (c : CtxId) (dmg : Damage) (s : State) : Outcome State Fault Refusal :=
  let x := (s.eng e).ctx c
  .next (if x.live && x.strikes dmg then
      let s1 := s.modClu (cluOf e) fun k => k.struck dmg
      let s2 := s1.modEng e fun g =>
        (g.setCtx c { x with
          mcheck := some (damageCause dmg x), damaged := match dmg with | .code _ => x.damaged | d => x.damaged ++ [d] }).abandon c
      let s3 := s2.report (contextRecord s2 e ((s2.eng e).ctx c) (damageCause dmg x).1)
      match dmg with
      | .ucode _ => s3.report (microcodeRecord s3 (cluOf e))
      | .patch _ => s3.report (microcodeRecord s3 (cluOf e))
      | .code _ => { s3.report (codeRecord s3 (cluOf e)) with free := s3.free + 1 }
      | _ => s3
    else s)

/-- payload[63:0] of the ERR cell that ENG_XSTn records: its first two bytes stand in the other order (08 R254, Table 8-7). -/
def Ctx.errPay (x : Ctx) : Word64 :=
  BitVec.ofNat 64 (bits x.xst 15 8 + 2 ^ 8 * bits x.xst 7 0 + 2 ^ 16 * bits x.xst 63 16)

/-- QUARANTINE_END: firmware ends the transaction with the STATUS of ENG_XSTn, or ABORTED, and frees the context; after
QCAUSE 4 only once the engine has been cleared (08 R261). -/
def execQuarantineEnd (e : EngId) (c : CtxId) (s : State) : Outcome State Fault Refusal :=
  let x := (s.eng e).ctx c
  .next (if x.state ≠ .quarantined then s
    else
      let s1 := if x.ending then s
        else
          let s2 := (s.endTxn x.slot x.quarantineStatus 0).modCtx e c fun x => { x with ending := true }
          if (s.slot x.slot).endable ∧ (s.slot x.slot).fateOf x.quarantineStatus = x.quarantineStatus then s2.modSlot x.slot fun sl => { sl with detail := x.errPay } else s2
      if x.qcause ≠ 4 ∨ (s.eng e).clean then s1.freeCtx e c else s1)

/-! ### Messages (02 R50 to R53) -/

/-- ENGINE_MESSAGE_ARRIVAL: accepted, held while the cluster wakes, or bounced. -/
def execEngineMessageArrival (m : EngMsg) (s : State) : Outcome State Fault Refusal := .next (s.message m)

/-- Disposal of one bounced message (02 Table 2-4). An end notice, of which the table has no row, is sent again under the current role, as a
firmware command is (DESIGN CHOICE, log 58). -/
def State.dispose (s : State) (m : EngMsg) (target : EngId) : State :=
  let n := msgSlot m.kind
  let sl := s.slot n
  let same := sl.state != .idle && sl.start == m.start
  let past := match sl.state with
    | .ending | .restarting | .sequenced | .applying => true
    | _ => !same
  match m.kind with
  | .dispatch _ =>
    if !(same && sl.state == .admitted) then s
    else
      let s := s.flushFor sl.hedge
      let t := s.eng target
      let none? := (List.finRange 256).all fun i => !((s.eng i).assigned && (s.eng i).hedge == sl.hedge)
      if 3 ≤ m.bounces ∨ none? then s.endTxn n 0x09 0
      else if t.assigned && t.hedge == sl.hedge then
        match t.freeCtx? with
        | some c => (s.modSlot n fun sl => { sl with eng := target, ctx := c }).message (s.msgTo target n m.bounces m.kind)
        | none => { s with bounced := s.bounced ++ [m] }
      else { s with bounced := s.bounced ++ [m] }
  | .wake _ seq =>
    if past then s.modHedge m.hedge fun h => { h with wakeDrops := satInc h.wakeDrops }
    else
      match s.holder n with
      | some (e, _) => s.message (s.msgTo e n m.bounces m.kind)
      | none => if s.inWaitev n then s.arriveSlot n (.cell (cellSeq seq sl.hedge)) else s
  | .notice _ level kind word =>
    if !same then s
    else
      match s.holder n with
      | some (e, _) => s.message (s.msgTo e n m.bounces m.kind)
      | none => s.notice n level kind word
  | .ended _ =>
    if past then s
    else
      match s.holder n with
      | some (e, _) => s.message (s.msgTo e n m.bounces m.kind)
      | none => s.endNow n

/-- BOUNCE_DISPOSAL: firmware takes the front of the bounce queue; an inbound port that held messages takes them again. -/
def execBounceDisposal (target : EngId) (s : State) : Outcome State Fault Refusal :=
  .next (match s.bounced with
    | [] => s
    | m :: t =>
      let s1 := ({ s with bounced := t }).dispose m target
      match (List.finRange 256).find? fun e => !(s1.eng e).inbox.isEmpty with
      | some e => s1.reopenPort e
      | none => s1)

/-! ### Completions of asynchronous instructions (05 R169 to R177) -/

/-- A success cell. -/
def cellYes : Cell := cellBool true

/-- The cells that an RLD or STAGE fill writes: INT, P = 1 where a byte's granule is poisoned, zero beyond the record. -/
def fillCells (bs : List (Byte × Bool)) : List Cell :=
  (List.range ((bs.length + 15) / 16)).map fun i =>
    let q := (bs.drop (16 * i)).take 16
    { ty := tyINT, sub := 0, p := q.any (·.2), g := false, pay := payOfBytes (q.map (·.1)) }

/-- Fill cells from cell `k` on, past the store buffer; `clear` clears the written marks, else it sets them. -/
def Engine.fillFrom (e : Engine) (clear : Bool) : Nat → List Cell → Engine
  | _, [] => e
  | k, c :: cs => (if clear then e.rldFill k c else e.writeThrough k c).fillFrom clear (k + 1) cs

/-- A guarded cell among those that [a, a+n) covers (05 R170). -/
def Engine.guarded (e : Engine) (a n : Nat) : Bool := (cellsOf a n).any fun k => (e.cell k).g

/-- The exclusive-grant entry of a record records an RLD made under it (11 R355). -/
def Slot.noteRld (sl : Slot) (r : Cell) (a : Nat) : Slot :=
  { sl with grants := sl.grants.map fun g => if g.addr = refAddr r && r.sub == 1 then { g with rld := some (a, refLen r) } else g }

/-- RLD_COMPLETE: the record's bytes go into scratch and the completion cell is pushed (05 R170). -/
def execRldComplete (e : EngId) (c : CtxId) (s : State) : Outcome State Fault Refusal :=
  let x := (s.eng e).ctx c
  .next (match x.request? with
    | some ⟨_, .rld r _ a pl, .failed st, _⟩ => let _ := (r, a, pl); s.arriveAt e c (.cell (cellErr st))
    | some ⟨_, .rld r _ a pl, .data, _⟩ =>
      if pl = 2 ∧ (s.eng e).guarded a (refLen r) then s.arriveAt e c (.cell (cellErr 0x05))
      else
        let h := (s.slot x.slot).hedge
        let s1 := s.meetRecord h (refAddr r) (refLen r)
        let s2 := s1.modEng e fun g => g.fillFrom true (a / 16) (fillCells (s1.readRecord h (refAddr r) (refLen r)))
        (s2.modSlot x.slot fun sl => sl.noteRld r a).arriveAt e c (.cell cellYes)
    | _ => s)

/-- RLOCK_COMPLETE: a grant or a refusal completes an RLOCK (05 R172). -/
def execRlockComplete (e : EngId) (c : CtxId) (s : State) : Outcome State Fault Refusal :=
  .next (match ((s.eng e).ctx c).request? with
    | some ⟨_, .rlock .., .failed st, _⟩ => s.arriveAt e c (.cell (cellErr st))
    | some ⟨_, .rlock .., .data, _⟩ => s.arriveAt e c (.cell cellYes)
    | _ => s)

/-- RPREF_ACK: the request has been accepted, or the pager has started the stage-in; nothing is pushed (05 R172). -/
def execRprefAck (e : EngId) (c : CtxId) (s : State) : Outcome State Fault Refusal :=
  .next (match ((s.eng e).ctx c).request? with
    | some ⟨_, .rpref .., .data, _⟩ => s.arriveAt e c .plain
    | some ⟨_, .rpref .., .pageFault _, _⟩ => s.arriveAt e c .plain
    | some ⟨_, .rpref .., .failed _, _⟩ => s.arriveAt e c .plain
    | _ => s)

/-- Bytes of scratch cells written to a record, with the poison of each cell (05 R175, 12 R405). -/
def State.scratchToRecord (s : State) (e : EngId) (a : Nat) (h : HedgeId) (va n : Nat) : State :=
  let g := s.eng e
  (cellsOf a n).foldl
    (fun t k => if (g.cell k).p then t.writeRecord h (va + (16 * k - a)) ((g.readBytes (16 * k) 16).take (n - (16 * k - a))) true else t)
    (s.writeRecord h va (g.readBytes a n))

/-- The copy of a STAGE and its status (12 R405, R413). -/
def State.stageCopy (s : State) (e : EngId) (h : HedgeId) (r : Cell) (a : Nat) (out : Bool) (pl : BitVec 2) : State × Byte :=
  let n := refLen r
  if out then
    (((s.modEng e fun g => g.meetAll (cellsOf a n)).scratchToRecord e a h (refAddr r) n),
      if (cellsOf a n).any fun k => ((s.eng e).cell k).p then 0x04 else 0)
  else if pl = 2 ∧ (s.eng e).guarded a n then (s, 0x05)
  else
    let s1 := s.meetRecord h (refAddr r) n
    let bs := s1.readRecord h (refAddr r) n
    (s1.modEng e fun g => g.fillFrom false (a / 16) (fillCells bs), if bs.any (·.2) then 0x04 else 0)

/-- A context's outstanding request is a STAGE. -/
def Ctx.staging (c : Ctx) : Bool :=
  match c.request? with
  | some ⟨_, .stage .., _, _⟩ => true
  | _ => false

/-- The STAGE that an engine channel has under way: the oldest one queued (12 R413). -/
def State.stageHead (s : State) (e : EngId) : Option CtxId :=
  (s.chan (stageMover e) (stageChan e)).stages.find? fun n => ((s.eng e).ctx n).staging

/-- The STAGE of a context leaves the channel's queue. -/
def State.unstage (s : State) (e : EngId) (c : CtxId) : State :=
  let q := s.chan (stageMover e) (stageChan e)
  s.setChan (stageMover e) (stageChan e) { q with stages := q.stages.filter fun n => n != c }

/-- STAGE_COMPLETE: the engine channel has finished the copy (05 R175, 12 R413); in ERR_HALT the queued ones wait (R412). -/
def execStageComplete (e : EngId) (c : CtxId) (s : State) : Outcome State Fault Refusal :=
  let x := (s.eng e).ctx c
  .next (if s.stageHead e != some c || (s.chan (stageMover e) (stageChan e)).state == .errHalt then s
    else match x.request? with
    | some ⟨_, .stage .., .failed st, _⟩ => (s.unstage e c).arriveAt e c (.cell (cellErr st))
    | some ⟨_, .stage r _ a out pl, .data, _⟩ =>
      let q := s.stageCopy e (s.slot x.slot).hedge r a out pl
      (q.1.unstage e c).arriveAt e c (.cell (if q.2 = 0 then cellYes else cellErr q.2))
    | _ => s)

/-- WAITEV_WAKE: the earliest wake message on its way to the slot reaches its engine, or its parked image (05 R177, R178;
02 R50; 10 R317). -/
def execWaitevWake (slot : SlotId) (s : State) : Outcome State Fault Refusal :=
  .next (match inTurn (fun m => cluOf m.eng) (fun m => msgSlot m.kind == slot) s.wakes with
    | some m =>
      if (s.slot slot).state = .parked then ({ s with wakes := s.wakes.erase m }).deliver m else ({ s with wakes := s.wakes.erase m }).message m
    | none => s)

/-- WAITEV_TIMEOUT: the event unit expires the wait, whose completion carries TIMEOUT (05 R177). -/
def execWaitevTimeout (slot : SlotId) (s : State) : Outcome State Fault Refusal :=
  let h := (s.slot slot).hedge
  .next (match (s.hedge h).waitList.find? fun w => w.slot == slot with
    | some w =>
      match w.expires with
      | some t =>
        if t ≤ s.aoTick.toNat then
          (s.modHedge h fun g => { g.stir with waitList := g.waitList.erase w }).arriveSlot slot
            (.cell (cellErr 0x03))
        else s
      | none => s
    | none => s)

/-- Events that a context holds pending. -/
def Ctx.pendingCount (c : Ctx) : Nat := c.notices.length + b2n c.evd.isSome + b2n c.mcheck.isSome + b2n c.wdp.isSome

/-- The context waits for its COMMIT. -/
def Ctx.committing (c : Ctx) : Bool :=
  match c.wait with
  | some ⟨_, .commit .., _, _⟩ => true
  | _ => false

/-- COMMIT_OUTCOME: the outcome notice frees the context; its pending events are discarded and counted (08 R265). -/
def execCommitOutcome (e : EngId) (c : CtxId) (s : State) : Outcome State Fault Refusal :=
  let x := (s.eng e).ctx c
  .next (if x.state = .wait ∧ x.committing ∧ (s.slot x.slot).state ≠ .sealing then
      (s.modHedge (s.eng e).hedge fun h => { h with evDiscards := satAdd h.evDiscards x.pendingCount }).freeCtx e c
    else s)

end Sys2Proof.Machine
end

