-- ==== Sys2Proof/Machine/EngineRegs.lean ====
section
/-! DEFINITION. Registers of an engine that have rows of their own, the engine clear, context windows, parking and unparking
(02 R43 to R48, 03 R79 and R108, 07 R223, 08 R273, 09 R296, 10 R315 to R318, 19 R598). -/

namespace Sys2Proof.Machine

open Host (Outcome)

/-- Change every engine of a cluster. -/
def State.modCluEngines (s : State) (k : CluId) (f : Engine → Engine) : State :=
  (List.finRange 8).foldl (fun t w => t.modEng (engOf k w) f) s

/-- CLEAR starts a clear only with ASSIGNED = 0 and no resident context, or with none but those that QCAUSE 4 holds
quarantined (02 Table 2-2, 08 R261). DESIGN CHOICE: CLEAN reads 0 while a clear runs, also on an engine whose CLEAN was 1, of which
Table 2-2 says nothing (log 56). -/
def Engine.startClear (e : Engine) : Engine :=
  let busy := e.ctxs.any fun kc => kc.2.state != .free && !(kc.2.state == .quarantined && kc.2.qcause == 4)
  if e.assigned || busy then e else { e with clearing := true, clean := false }

/-- Bits 2e and 2e + 1 of the cluster's ENG_ITLB registers clear (09 R296). -/
def Engine.closeWindow (e : Engine) (w : Nat) : Engine := { e with itlb := e.itlb &&& ~~~(BitVec.ofNat 16 (3 * 4 ^ w)) }

/-- A write of [a, a + n) of code RAM invalidates a loop buffer that it overlaps (03 R104). -/
def Engine.dropLoop (e : Engine) (a n : Nat) : Engine :=
  match e.loop with
  | some (x, y) => if overlaps a n x (y + 1) then { e with loop := none } else e
  | none => e

/-- What any write to ENG_ROLE of an engine does, an ignored one too: the loop buffer is invalid, and the engine's window closes in the
cluster's ENG_ITLB registers (03 R104, 09 R296). -/
def State.roleTouched (s : State) (e : EngId) : State :=
  (s.modEng e fun g => { g with loop := none }).modCluEngines (cluOf e) fun x => x.closeWindow (e.val % 8)

/-- Step 4 of R46: CLEAR is written. A cluster below C0 wakes, and the clear runs once it is in C0 (02 R49, 14 R458). -/
def State.startClear (s : State) (e : EngId) : State :=
  let s1 := (s.roleTouched e).modEng e Engine.startClear
  if (s1.eng e).clearing ∧ (s1.clu (cluOf e)).pst ≠ .c0 then s1.modClu (cluOf e) fun k => { k with waking := true } else s1

/-- Firmware may change ENG_ROLE `n` times more: at most 65,535 times in any 100 ms (02 R51). -/
def Engine.mayChange (e : Engine) (tick n : Nat) : Bool := decide (tallied tick 100000 e.roleLog + n ≤ 65535)

/-- A write changes ASSIGNED, HEDGE or ROLE: EPOCH advances (02 Table 2-2, R51). -/
def Engine.changed (e : Engine) (tick : Nat) : Engine :=
  { e with epoch := e.epoch + 1, roleLog := tally tick 100000 e.roleLog }

/-- HEDGE, ROLE and ASSIGNED as written. -/
def Engine.withRole (e : Engine) (h : HedgeId) (role : BitVec 2) (asg : Bool) : Engine :=
  { e with hedge := h, role := role, assigned := asg }

/-- ENGINE_CLEAR: writing ENG_ROLE.CLEAR (02 Table 2-2). -/
def execEngineClear (r : Requester) (e : EngId) (s : State) : Outcome State Fault Refusal :=
  .next (if s.reaches r then s.startClear e else s)

/-- A context after a clear: locals, window, return stack, PSW and rescue flag are zero (02 Table 2-3). -/
def Ctx.cleared (c : Ctx) : Ctx :=
  { c with locals := [], win := [], rs := [], rsp := 0, rsc := 0, soft := [], psw := Psw.reset, rescue := false }

/-- What a clear leaves of an engine (02 Table 2-3). -/
def Engine.cleared (e : Engine) : Engine :=
  { e with
    scratch := [], marks := [], latent := [], sb := [], loop := none, itlb := 0, dtlb := [], clearing := false, clean := true
    ctxs := tmap Ctx.reset e.ctxs Ctx.cleared }

/-- The cluster after the clear of its engine `w`: the home window is zero, and the L2 TLB loses the entries of the last hedge
unless another engine of the cluster serves it (02 Table 2-3). -/
def Clu.clearedFor (k : Clu) (w : Nat) (drop : Option HedgeId) : Clu :=
  let lo := 0x10000 * w
  { k with
    code := tclear k.code lo 0x10000
    crbadv := k.crbadv && !(decide (lo ≤ k.crbad.toNat) && decide (k.crbad.toNat < lo + 0x10000))
    l2 := match drop with
      | some h => k.l2.filter fun kv => kv.2.hedge != h
      | none => k.l2 }

/-- ENGINE_CLEAR_COMPLETE, in C0; the home window is written through, so it leaves no loop buffer that overlaps it (02 R47, R48; 03
R104). -/
def execEngineClearComplete (e : EngId) (s : State) : Outcome State Fault Refusal :=
  let g := s.eng e
  let k := cluOf e
  .next (if g.clearing ∧ (s.clu k).pst = .c0 then
      let shared := (List.finRange 8).any fun w =>
        let i := engOf k w
        i != e && (s.eng i).assigned && (s.eng i).hedge == g.lastHedge
      ((s.modEng e Engine.cleared).modCluEngines k fun x => x.dropLoop (0x10000 * (e.val % 8)) 0x10000).modClu k fun c =>
        c.clearedFor (e.val % 8) (if shared then none else some g.lastHedge)
    else s)

/-- ENG_SWIN_WRITE (03 R79). -/
def execEngSwinWrite (r : Requester) (e : EngId) (v : Word64) (s : State) : Outcome State Fault Refusal :=
  let b := bits v 17 12
  let n := bits v 32 28
  .next (if !s.reaches r || n == 0 || 16 < n || b == 0 || 0x38 < b + n then s
    else s.modEng e fun g => { g with swinBase := BitVec.ofNat 6 b, swinSize := BitVec.ofNat 5 n })

/-- ENG_CPT_WRITE (07 R223). -/
def execEngCptWrite (r : Requester) (e : EngId) (v : Word64) (s : State) : Outcome State Fault Refusal :=
  let n := bits v 7 0
  let b := bits v 17 8
  .next (if !s.reaches r || (n != 0 && (b < 8 || 0x380 < b + n)) then s
    else s.modEng e fun g => { g with cptCount := BitVec.ofNat 8 n, cptBase := BitVec.ofNat 10 b })

/-- ENG_WDOG_WRITE (08 R273). -/
def execEngWdogWrite (r : Requester) (e : EngId) (v : Word64) (s : State) : Outcome State Fault Refusal :=
  let n := bits v 15 0
  .next (if !s.reaches r || (s.eng e).anyResident then s
    else s.modEng e fun g => { g with wdogLimit := BitVec.ofNat 16 (if n != 0 && n < 10 then 10 else n) })

/-- ENG_CTL_WRITE (03 Table 3-10, R104). -/
def execEngCtlWrite (r : Requester) (e : EngId) (v : Word64) (s : State) : Outcome State Fault Refusal :=
  .next (if !s.reaches r then s
    else s.modEng e fun g =>
      { g with strict := bit v 0, rso := bit v 1, lben := bit v 2, idlegate := bit v 3, loop := if bit v 2 then g.loop else none })

/-! ### Context windows (19 R598) -/

/-- A word of a local's 32 bytes: the payload's halves, then the tag in its first byte. -/
def Cell.setWord (c : Cell) (j : Nat) (v : Word64) : Cell :=
  match j with
  | 0 => { c with pay := payPatch c.pay 0 (bytesOfNat 8 v.toNat) }
  | 1 => { c with pay := payPatch c.pay 8 (bytesOfNat 8 v.toNat) }
  | 2 => { c with ty := v.extractLsb' 0 4, sub := v.extractLsb' 4 2, p := bit v 6, g := bit v 7 }
  | _ => c

/-- Write word `off` of a context window; the other bytes are private to firmware. -/
def Ctx.windowWrite (c : Ctx) (off : Nat) (v : Word64) : Ctx :=
  match off with
  | 0 => { c with pc := v.extractLsb' 0 19 }
  | 1 =>
    if bits v 1 0 = 3 ∨ 5 < bits v 14 12 then c
    else { c with psw := { c.psw with
      pl := v.extractLsb' 0 2, m := v.extractLsb' 4 3, key := v.extractLsb' 8 4, rm := v.extractLsb' 12 3 } }
  | 2 => { c with osb := v.extractLsb' 0 18, osl := v.extractLsb' 18 18, depth := v.extractLsb' 36 15, win := [] }
  | 3 => { c with fp := v.extractLsb' 0 18, fl := flOf (v.extractLsb' 18 18) (v.extractLsb' 36 18), fbase := v.extractLsb' 36 18 }
  | off => if 32 ≤ off ∧ off < 96 then c.setLocal ((off - 32) / 4) ((c.local ((off - 32) / 4)).setWord ((off - 32) % 4) v) else c

/-- CONTEXT_WINDOW_WRITE: `off` counts 8-byte words; ignored unless the context is FREE, PARKING or QUARANTINED. -/
def execContextWindowWrite (r : Requester) (e : EngId) (c : CtxId) (off : Fin 128) (v : Word64) (s : State) :
    Outcome State Fault Refusal :=
  let st := ((s.eng e).ctx c).state
  .next (if s.reaches r && (st == .free || st == .parking || st == .quarantined) then
      s.modCtx e c fun x => x.windowWrite off.val v
    else s)

/-! ### Parking (10 R315 to R318) -/

/-- Work area of a context: its first cell and the declared size (05 R168, 10 R315). -/
def Prog.workBase (p : Prog) (c : CtxId) : Nat := p.wbase + p.wstride * c.val

/-- PARK: the store buffer drains, the window is spilled, the image is written and the context becomes FREE (03 R63, R110; 10
R315, R316). A slot parked READY, or with an event pending, may unpark (10 R317). -/
def execPark (e : EngId) (c : CtxId) (s : State) : Outcome State Fault Refusal :=
  let x := (s.eng e).ctx c
  let sl := s.slot x.slot
  .next (match sl.prog with
    | some p =>
      if s.holder x.slot = some (e, c) ∧ sl.state = .resident ∧ x.parkable p ∧ !s.cluHalted (cluOf e) then s.slowPath sl.hedge fun s =>
        let q := spillAll 16 ((s.eng e).drain) x
        let d := x.depth.toNat
        let img : Image :=
          { ctx := { q.2 with yielded := false, heldOn := none }
            stack := (List.range d).map fun i => stackTop (s.eng e) x (d - 1 - i)
            work := (List.range ((p.wsize + 15) / 16)).map fun i => q.1.cell (p.workBase c / 16 + i) }
        ((s.setEng e q.1).modSlot x.slot fun sl =>
            { sl with state := .parked, image := some img, runnable := x.state == .ready || x.pendingEvent.isSome }).freeCtx e c
      else s
    | none => s)

/-- The cluster's code RAM holds the program at its address (10 R317). -/
def Clu.holds (k : Clu) (p : Prog) : Bool := tgetRun 0 k.code p.at_ p.image.length == p.image

/-- PARK_WAIT_TIMEOUT: a context of an engine under reassignment that could not park within 1 s ends THROTTLED (10 R318). -/
def execParkWaitTimeout (e : EngId) (c : CtxId) (s : State) : Outcome State Fault Refusal :=
  let g := s.eng e
  let x := g.ctx c
  .next (match (s.slot x.slot).prog with
    | some p =>
      if !g.assigned && s.holder x.slot == some (e, c) && !x.parkable p && (s.slot x.slot).endable then s.stopCtx e c 0x0B else s
    | none => s)

end Sys2Proof.Machine
end

