-- ==== Sys2Proof/Machine/EventUnits.lean ====
section
/-! DEFINITION. The event units: waits, signals, deadlock and the pruning pass (05 R177, R178; 10 R338, R339, R344 to R348; 12 R399). -/

namespace Sys2Proof.Machine

open Host (Outcome)

/-- Directory entry of endpoint `e` of a hedge (10 R344). -/
def State.endpoint (s : State) (h : HedgeId) (e : Nat) : Endpoint := tget Endpoint.zero s.dir ((s.hedge h).par.dbase + e)

/-- Write the entry of endpoint `e` of a hedge. -/
def State.setEndpoint (s : State) (h : HedgeId) (e : Nat) (v : Endpoint) : State :=
  s.putEntry ((s.hedge h).par.dbase + e) v

/-- Endpoint `e` lies in the hedge's directory range. -/
def State.inRange (s : State) (h : HedgeId) (e : Nat) : Bool := decide (e < (s.hedge h).par.dcount)

/-- The wait for an endpoint takes a place in the unit's list (05 R177). -/
def State.holdWait (s : State) (n : SlotId) (h : HedgeId) (ep : Nat) (seq : BitVec 32) (t : Option Nat) : State :=
  s.modHedge h fun g =>
    { g with waitList := g.waitList ++ [⟨n, ep, seq, t.map fun i => s.aoTick.toNat + 1 + (i + 999) / 1000⟩] }

/-- A WAITEV at the unit: it completes at arrival, or is held (05 R177; 10 R346). -/
def State.waitAt (s : State) (n : SlotId) (ep : BitVec 64) (seq : BitVec 32) (t : Option Nat) : State :=
  let h := (s.slot n).hedge
  let now := fun (v : Cell) => (s.modHedge h Hedge.stir).arriveSlot n (.cell v)
  if !s.inRange h ep.toNat then now (cellErr 0x05)
  else
    let v := (s.endpoint h ep.toNat).evseq
    if v ≠ seq then now (cellSeq v h)
    else if t = some 0 then now (cellErr 0x03)
    else s.holdWait n h ep.toNat seq t

/-- The earliest message of a slot to its event unit, unless another of its cluster goes ahead, and the others (01 R21). -/
def State.takeMsg (s : State) (n : SlotId) : Option EvMsg × State :=
  match inTurn (fun m => m.1) (fun m => m.2.1 == n) s.evMsgs with
  | some m => (some m.2.2, { s with evMsgs := s.evMsgs.erase m })
  | none => (none, s)

/-- EVENT_UNIT_WAIT: the slot's WAITEV reaches the event unit (05 R177). -/
def execEventUnitWait (slot : SlotId) (s : State) : Outcome State Fault Refusal :=
  let r := s.takeMsg slot
  .next (match r.1 with
    | some .wait =>
      match r.2.slotRequest slot with
      | some ⟨_, .waitev ep seq t, _, _⟩ => r.2.waitAt slot ep seq t
      | _ => r.2
    | _ => s)

/-- A SIGEV at the unit: EVSEQ rises and one wake message goes to each slot that waits on the endpoint; out of range it is counted
(05 R178). -/
def State.sigev (s : State) (h : HedgeId) (e : Nat) : State :=
  if !s.inRange h e then s.modHedge h fun g => { g with sigDrops := satInc g.sigDrops }
  else
    let d := s.endpoint h e
    let s1 := s.setEndpoint h e { d with evseq := d.evseq + 1 }
    let ws := (s.hedge h).waitList.filter fun w => w.ep == e
    if ws.isEmpty then s1
    else
      let s2 := s1.modHedge h fun g => { g.stir with waitList := g.waitList.filter fun w => w.ep != e }
      { s2 with wakes := s2.wakes ++ ws.map fun (w : EvWait) => s2.msgTo (s2.slot w.slot).eng w.slot 0 (.wake w.slot (d.evseq + 1)) }

/-- EVENT_UNIT_SIGNAL: a SIGEV of the slot's context reaches the event unit (05 R178). -/
def execEventUnitSignal (slot : SlotId) (s : State) : Outcome State Fault Refusal :=
  let r := s.takeMsg slot
  .next (match r.1 with
    | some (.signal h ep) => r.2.sigev h ep.toNat
    | _ => s)

/-! ### Deadlock (10 R345, R346) -/

/-- A held wait is unarmed: no timer, and its endpoint has EXT = 0 and MARM = 0 (10 R345). -/
def State.unarmed (s : State) (h : HedgeId) (w : EvWait) : Bool :=
  w.expires.isNone && !(s.endpoint h w.ep).ext && (s.endpoint h w.ep).marm == 0

/-- The slot's context waits: in WAIT, its request outstanding. -/
def State.waiting? (s : State) (n : SlotId) : Option Wait :=
  (s.ctxOfSlot n).bind fun c => c.wait.bind fun w => if w.done.isNone && c.state == .wait then some w else none

/-- The unarmed wait of a slot. -/
def State.unarmedWait (s : State) (h : HedgeId) (n : SlotId) : Option EvWait :=
  if (s.waiting? n).isSome then (s.hedge h).waitList.find? fun w => w.slot == n && s.unarmed h w else none

/-- Every live slot of the hedge is in an unarmed wait. -/
def State.allUnarmed (s : State) (h : HedgeId) : Bool :=
  let ls := s.liveSlots h
  !ls.isEmpty && ls.all fun n => (s.unarmedWait h n).isSome

/-- When not every live slot of the hedge is in an unarmed wait, the ao-tick of R346 starts anew. -/
def State.watchDead (s : State) (h : HedgeId) : State := if s.allUnarmed h then s else s.modHedge h fun g => { g with deadSince := none }

/-- EVENT-DEADLOCK on a slot, noted for the pruning pass. -/
def State.raiseDeadlock (s : State) (h : HedgeId) (w : EvWait) (cause : Byte) : State :=
  (s.deadlock w.slot cause (BitVec.ofNat 32 w.ep)).modHedge h fun g =>
    { g with pruned := if g.pruned.contains w.slot then g.pruned else g.pruned ++ [w.slot] }

/-- MOVER_SIGNAL: the earliest signal of a mover channel on its way acts as a SIGEV and lowers MARM by 1 (12 R399). -/
def execMoverSignal (m : MovId) (ch : ChId) (s : State) : Outcome State Fault Refusal :=
  .next (match s.movSigs.find? fun q => q.1 == (m, ch) with
    | some (k, h, e) =>
      let s1 := { s with movSigs := s.movSigs.erase (k, h, e) }
      let s2 := if s1.inRange h e then s1.setEndpoint h e { s1.endpoint h e with marm := (s1.endpoint h e).marm - b2n ((s1.endpoint h e).marm != 0) } else s1
      s2.sigev h e
    | none => s)

/-- EVENT_UNIT_DEADLOCK: the unit tests its hedge; when the condition has held for one full ao-tick it raises EVENT-DEADLOCK on the
slot whose WAITEV came earliest (10 R346). -/
def execEventUnitDeadlock (h : HedgeId) (s : State) : Outcome State Fault Refusal :=
  let g := s.hedge h
  .next (if !s.allUnarmed h then s.watchDead h
    else match g.deadSince with
      | none => s.setHedge h { g with deadSince := some s.aoTick.toNat }
      | some t =>
        if g.deadRaised || decide (s.aoTick.toNat < t + 2) then s
        else match g.waitList with
          | w :: _ => (s.raiseDeadlock h w 1).modHedge h fun g => { g with deadRaised := true }
          | [] => s)

/-! ### The pruning pass (10 R347, R348) -/

/-- The record whose lock a slot's request waits for, and the mode. -/
def State.lockWait? (s : State) (n : SlotId) : Option (LockRec × Bool) :=
  match s.waiting? n with
  | some w =>
    match w.stage, reqLock w.req with
    | .lockWait, some (r, x) => some (s.lockRec (lockKey (s.slot n).hedge (refAddr r)), x)
    | _, _ => none
  | none => none

/-- The transactions that stand ahead of a waiter under R326. -/
def State.ahead (s : State) (n : SlotId) (r : LockRec) (excl : Bool) : List SlotId :=
  r.conflict n excl ++ ((r.waiters.takeWhile fun q => q.1 != n).map (·.1)).filter fun m => s.older m n

/-- A transaction that stands ahead holds nothing up. -/
def State.passes (s : State) (marked : List SlotId) (n : SlotId) : Bool :=
  marked.contains n || (s.slot n).sealed ||
    match (s.slot n).state with
    | .ending | .applying | .restarting => true
    | _ => false

/-- A live slot of the hedge is progressing, given those marked so far. -/
def State.progresses (s : State) (h : HedgeId) (marked : List SlotId) (n : SlotId) : Bool :=
  match s.waiting? n with
  | none => true
  | some _ =>
    match s.lockWait? n with
    | some (r, x) => (s.ahead n r x).all fun m => s.passes marked m
    | none => (s.unarmedWait h n).isNone

/-- Mark until nothing changes. -/
def State.markProgress (s : State) (h : HedgeId) (ls : List SlotId) : Nat → List SlotId → List SlotId
  | 0, m => m
  | f + 1, m => s.markProgress h ls f (ls.filter fun n => m.contains n || s.progresses h m n)

/-- The pass ends a transaction with DEADLOCK (10 R348). -/
def State.prune (s : State) (h : HedgeId) (n : SlotId) : State :=
  (match s.holder n with
    | some (e, c) => s.stopCtx e c 0x0A
    | none => s.endTxn n 0x0A 0).modHedge h fun g => { g with pruned := g.pruned.filter fun m => m != n }

/-- The pass over one hedge. -/
def State.pruneHedge (s : State) (h : HedgeId) : State :=
  let ls := s.liveSlots h
  let m := s.markProgress h ls (ls.length + 1) []
  let s1 := s.modHedge h fun g => { g with pruned := g.pruned.filter fun n => ls.contains n && !m.contains n }
  match (s.hedge h).waitList.filter fun w => (s.unarmedWait h w.slot).isSome with
  | [] => s1
  | w :: _ =>
    if !m.isEmpty then s1
    else match (s1.hedge h).pruned with
      | n :: _ => s1.prune h n
      | [] => s1.raiseDeadlock h w 2

/-- PRUNING_PASS: firmware examines each hedge (10 R347, R348). -/
def execPruningPass (s : State) : Outcome State Fault Refusal := .next (s.openHedges.foldl State.pruneHedge s)

end Sys2Proof.Machine
end

