-- ==== Sys2Proof/Machine/Lehr.lean ====
section
/-! DEFINITION. The Lehr controller: entries, durability, apply, drain, pairing, fencing (11 R351 to R380; 16 R527 to R530). -/

namespace Sys2Proof.Machine

open Host (Outcome)

/-! ### Entries (11 Tables 11-2, 11-3; R357) -/

/-- Pad an entry to 64 bytes. -/
def padEntry (bs : List Byte) : List Byte := bs.take 64 ++ List.replicate (64 - bs.length) 0

/-- The short descriptor and its data. -/
def shortBytes (d : QDelta) : List Byte := bytesOfNat 6 (d.addr / 8 + 2 ^ 45 * (d.bytes.length / 8)) ++ d.bytes

/-- Numbers of the deltas that are their transaction's last, as a bit mask. -/
def endBits : Nat → List QDelta → Nat
  | _, [] => 0
  | i, d :: ds => 2 ^ i * b2n d.last + endBits (i + 1) ds

/-- The header of a PACKED or HEAD entry. -/
def entryHeader (ds : List QDelta) : List Byte :=
  match ds with
  | [] => bytesOfNat 8 0
  | d :: _ => bytesOfNat 8 (ds.length - 1 + 4 * endBits 0 ds + 64 * d.hedge.val + 2 ^ 12 * (d.gcs.toNat % 2 ^ 40))

/-- A PACKED entry. -/
def packedEntry (ds : List QDelta) : List Byte := padEntry (entryHeader ds ++ ds.flatMap shortBytes)

/-- A HEAD entry: the long descriptor and the first 48 bytes. -/
def headEntry (d : QDelta) : List Byte :=
  padEntry (entryHeader [d] ++ bytesOfNat 8 (d.addr + 2 ^ 48 * d.bytes.length) ++ d.bytes.take 48)

/-- The queued deltas that the next PACKED entry takes: one hedge, short, at most four and 56 bytes (11 R357, R358). -/
def packRun (h : HedgeId) : Nat → Nat → List QDelta → List QDelta
  | 0, _, _ => []
  | _, _, [] => []
  | n + 1, room, d :: ds =>
    if d.hedge == h && shortDelta d.addr d.bytes.length && decide (6 + d.bytes.length ≤ room) then
      d :: packRun h n (room - (6 + d.bytes.length)) ds
    else []

/-- Segment of a position. -/
def segOf (p : Nat) : Nat := p / 1024

/-- ANCHOR_WRITE: the anchor of segment sequence number `q` (11 R354). -/
def Lehr.anchor (l : Lehr) (q seg : Nat) : Lehr := { l with anchors := tset (0, 0, 0) l.anchors (q % 64) (q, seg, l.drawn) }

/-- The anchor of the open segment stands before its first entry, and that of the next one when it is half full. -/
def Lehr.anchored (l : Lehr) : Lehr :=
  let p := l.wp.toNat
  if p % 1024 = 0 ∧ (tget (0, 0, 0) l.anchors (l.segSeq % 64)).1 ≠ l.segSeq then l.anchor l.segSeq (segOf p)
  else if p % 1024 = 512 then l.anchor (l.segSeq + 1) ((segOf p + 1) % 8)
  else l

/-- Put an entry at WP and advance it; the pass changes at the end of the ring (11 R352, R369). -/
def Lehr.place (l : Lehr) (bs : List Byte) (kind : LKind) (h : HedgeId) (slots : List SlotId) (mirror : Option (LinkId × Word64)) : Lehr :=
  let p := l.wp.toNat
  let wrap := p == 8191
  { l with
    ring := tset LEntry.empty l.ring p { bytes := bs, valid := false, lap := l.lap, kind := kind, hedge := h, lost := false }
    writes := l.writes ++ [⟨p, (p + l.rot.toNat) % 64, slots, mirror⟩]
    wp := l.wp + 1, inRing := l.inRing + 1
    lap := if wrap then !l.lap else l.lap, rot := if wrap then l.rot + 1 else l.rot
    segSeq := if p % 1024 = 1023 then l.segSeq + 1 else l.segSeq }

/-- The bank of the next position has a write in progress: another one waits (11 R352). -/
def Lehr.bankBusy (l : Lehr) : Bool := l.writes.any fun w => w.bank == (l.wp.toNat + l.rot.toNat) % 64

/-- A transaction's reservation after one of its entries, and after its last delta: positions left over are released (11
R359). -/
def State.packed (s : State) (d : QDelta) (charge : Bool) : State :=
  let sl := s.slot d.slot
  let left := sl.entries - b2n charge
  let back := if d.last then left else 0
  let s1 := s.modSlot d.slot fun sl => { sl with entries := left - back, unpacked := sl.unpacked - 1 }
  let s2 := s1.modHedge d.hedge fun h => { h with used := h.used - BitVec.ofNat 14 back }
  { s2 with lehr := { s2.lehr with reserved := s2.lehr.reserved - b2n charge - back } }

/-- One more entry of the slot is not yet durable. -/
def State.oneMore (s : State) (slots : List SlotId) : State :=
  slots.foldl (fun t n => t.modSlot n fun sl => { sl with undurable := sl.undurable + 1 }) s

/-- Distinct slots of a run of deltas. -/
def slotsOf (ds : List QDelta) : List SlotId := (ds.map (·.slot)).eraseDups

/-- With pairing on, the entry goes over the link as its local write starts at the open segment's place `at_` (11 R376; log 73). -/
def State.mirrorOut (s : State) (at_ : Nat × Nat) (g : Word64) (bs : List Byte) (slots : List SlotId) : State :=
  let l := s.lehr
  if l.pairEn && !l.pairdeg then
    let s1 : State := { s with lehr := { l with unacked := l.unacked ++ [(g, slots, s.aoTick.toNat)] } }
    (slots.foldl (fun (t : State) n => t.modSlot n fun sl => { sl with unacked := sl.unacked + 1 }) s1).emit
      (.mirror ⟨l.link.toNat, by have := l.link.isLt; omega⟩ ⟨g, at_.1, at_.2, bs⟩)
  else s

/-- Sequence number of the open segment and the place in it of the next entry. -/
def Lehr.here (l : Lehr) : Nat × Nat := (l.segSeq, l.wp.toNat % 1024)

/-- A PACKED entry of the run `ds`; the first delta's transaction is charged for the position. -/
def State.writePacked (s : State) (d : QDelta) (ds : List QDelta) : State :=
  let l := s.lehr
  let l1 := l.anchored.place (packedEntry ds) .packed d.hedge (slotsOf ds) none
  let s1 := { s with lehr := { l1 with
    queue := l.queue.drop ds.length, pack := if 1 < ds.length then satInc l.pack else l.pack } }
  let s2 := ds.zipIdx.foldl (fun t q => t.packed q.1 (q.2 == 0)) s1
  (s2.oneMore (slotsOf ds)).mirrorOut s.lehr.here d.gcs (packedEntry ds) (slotsOf ds)

/-- A CONT entry, of up to 64 bytes (11 R357). -/
def State.writeCont (s : State) (d : QDelta) (rest : List Byte) : State :=
  let bs := padEntry (rest.take 64)
  let left := rest.drop 64
  let l := s.lehr.anchored.place bs .cont d.hedge [d.slot] none
  let s1 := { s with lehr := { l with cont := if left.isEmpty then none else some (d, left), reserved := l.reserved - 1 } }
  let s2 := s1.modSlot d.slot fun sl => { sl with entries := sl.entries - 1 }
  let s3 := if left.isEmpty then s2.packed d false else s2
  (s3.oneMore [d.slot]).mirrorOut s.lehr.here d.gcs bs [d.slot]

/-- A HEAD entry; a delta of at most 48 bytes in the long form is complete with it. -/
def State.writeHead (s : State) (d : QDelta) : State :=
  let bs := headEntry d
  let left := d.bytes.drop 48
  let l := s.lehr.anchored.place bs .head d.hedge [d.slot] none
  let s1 := { s with lehr := { l with
    queue := s.lehr.queue.drop 1, cont := if left.isEmpty then none else some (d, left), reserved := l.reserved - 1 } }
  let s2 := s1.modSlot d.slot fun sl => { sl with entries := sl.entries - 1 }
  let s3 := if left.isEmpty then s2.packed d false else s2
  (s3.oneMore [d.slot]).mirrorOut s.lehr.here d.gcs bs [d.slot]

/-- The LEHR record of the controller (16 Table 16-5). -/
def lehrRecord (s : State) (cause : Byte) (pos : Nat) : ErrRec :=
  { tick := s.aoTick, cls := 0x0B, sev := 2, unit := unitCode 6 0, status := 0, cause := cause, hedge := none, addr := none,
    slot := none, detail := bytesOfNat 2 pos ++ bytesOfNat 1 ((pos + s.lehr.rot.toNat) % 64) }

/-- LEHR_ENTRY_WRITE: the next entry is packed and its write starts. `bad` counts its verify mismatches: one is rewritten in
place, a second is a failure of the controller (11 R352, R357, R358; 16 R527, R530). -/
def execLehrEntryWrite (bad : Fin 3) (s : State) : Outcome State Fault Refusal :=
  let l := s.lehr
  .next (if l.quiesced || l.fenced || l.failed || l.bankBusy then s
    else if bad = 2 then ({ s with lehr := { l with failed := true } }).report (lehrRecord s 1 l.wp.toNat)
    else
      match l.cont, l.queue with
      | some (d, rest), _ => (s.writeCont d rest).watermarks
      | none, d :: ds =>
        (if shortDelta d.addr d.bytes.length then s.writePacked d (packRun d.hedge 4 56 (d :: ds)) else s.writeHead d).watermarks
      | none, [] => s)

/-! ### Durability and apply (11 R353; 10 R324, R333; 16 R518) -/

/-- Memory stops that the bytes of a record range lie on. -/
def State.stopsOf (s : State) (h : HedgeId) (va n : Nat) : BitVec 8 :=
  (pageParts va n).foldl
    (fun m q => match s.phys h q.1 with
      | some a => m ||| BitVec.ofNat 8 (2 ^ (stopOf (chanOf (a / 4096))).val)
      | none => m) 0

/-- Memory stops that receive deltas of a slot. -/
def State.deltaStops (s : State) (n : SlotId) : BitVec 8 :=
  (s.slot n).deltas.foldl (fun m d => m ||| s.stopsOf (s.slot n).hedge d.addr d.bytes.length) 0

/-- GLB_GCSAPPLY advances past every GCS that has applied (10 R350). -/
def Lehr.advance : Nat → Lehr → Lehr
  | 0, l => l
  | n + 1, l =>
    if l.appliedSet.contains (l.applied + 1) then
      Lehr.advance n { l with applied := l.applied + 1, appliedSet := l.appliedSet.erase (l.applied + 1) }
    else l

/-- Every delta of the slot has been applied: its staging blocks return and the watermark follows. -/
def State.allApplied (s : State) (n : SlotId) : State :=
  let sl := s.slot n
  let s1 := (s.modClu sl.cluster fun k => k.giveBlocks sl.blocks false).modSlot n fun sl => { sl with blocks := 0 }
  match sl.gcs with
  | some g => { s1 with lehr := Lehr.advance (s1.lehr.appliedSet.length + 1) { s1.lehr with appliedSet := s1.lehr.appliedSet ++ [g] } }
  | none => s1

/-- The last durable GCS: below every GCS still being written (11 R353, R381). -/
def State.durableUpTo (s : State) : Word64 :=
  (s.busySlots.filterMap fun n => if (s.slot n).state = .sequenced then (s.slot n).gcs else none).foldl
    (fun m g => if g.toNat ≤ m.toNat then g - 1 else m) s.lehr.drawn

/-- A transaction whose last entry is durable: its deltas go to the memory stops. -/
def State.nowDurable (s : State) (n : SlotId) : State :=
  let m := s.deltaStops n
  let s1 := s.modSlot n fun sl => { sl with state := .applying, stops := m }
  let s2 := { s1 with
    lehr := { s1.lehr with gcsdur := s1.durableUpTo }
    applyq := s1.applyq ++ ((List.finRange 8).filter fun (st : StopId) => bit m st.val).map fun st => (n, st) }
  if m = 0 then s2.allApplied n else s2

/-- An entry of the slot is durable. -/
def State.entryDurable (s : State) (n : SlotId) : State :=
  let s1 := s.modSlot n fun sl => { sl with undurable := sl.undurable - 1 }
  let sl := s1.slot n
  if sl.state = .sequenced ∧ sl.unpacked = 0 ∧ sl.undurable = 0 then s1.nowDurable n else s1

/-! ### A partner's entries (11 R376 to R378) -/

/-- Write one of the partner's entries as a MIRROR entry. -/
def State.writeMirror (s : State) (k : LinkId) (m : Mirror) : State :=
  let l := s.lehr.anchored.place (padEntry m.bytes) .mirror 0 [] (some (k, m.gcs))
  State.watermarks { s with lehr := { l with mirrors := l.mirrors ++ [{ m with bytes := padEntry m.bytes }] } }

/-- The partner's entries that wait are written in arrival order while the ring takes them: not in a full one, nor while no entry write may
start or the bank is busy. -/
def State.takeMirrors : Nat → State → State
  | 0, s => s
  | f + 1, s =>
    match s.lehr.mirrorIn with
    | q :: rest =>
      if s.lehr.quiesced || s.lehr.fenced || s.lehr.failed || s.lehr.asleep || s.lehr.bankBusy || decide (8192 ≤ s.lehr.fill) then s
      else State.takeMirrors f (State.writeMirror { s with lehr := { s.lehr with mirrorIn := rest } } q.1 q.2)
    | [] => s

/-- As many of them as now go. -/
def State.mirrorsIn (s : State) : State := State.takeMirrors s.lehr.mirrorIn.length s

/-! ### Draining (11 R363 to R367) -/

/-- Records of a zone that a write may not take: those from S0 on, and those of writes under way (11 R366). -/
def Lehr.busyRecords (l : Lehr) (port : Nat) : List Nat :=
  (l.records.filter fun r => r.port == port && decide (l.s0 ≤ r.seq)).map (·.at_) ++
    (l.segs.filter fun g => g.port == some port && !g.done).map (·.at_) ++
    (l.part.filter fun p => p.port == some port).toList.map (·.at_)

/-- The next free record of a zone's ring (11 R363). -/
def Lehr.freeRecord (l : Lehr) (port : Nat) : Option Nat :=
  let z := tget (false, 0, 0) l.zones port
  let n := z.2.2.toNat
  let busy := l.busyRecords port
  if z.1 then ((List.range (min n (busy.length + 1))).map fun i => (tget 0 l.zoneNext port + i) % n).find? fun i => !busy.contains i else none

/-- Places for a new record: the ports from the next of the rotation on that have a drive in use, a hardware channel at work and a free record
(11 R363, 12 R412). -/
def State.freePlaces (s : State) : List (Nat × Nat) :=
  (((List.range 16).map fun i => (s.lehr.nextPort + i) % 16).filter fun p => s.portUp p && s.hwOpen p 0).filterMap fun p => (s.lehr.freeRecord p).map fun i => (p, i)

/-- The place that a segment's record goes to: where its partial record stands, unless a write of it has failed, or the next of the
rotation (11 R364, R365). -/
def State.recordPlace (s : State) (seq fails : Nat) : Option (Nat × Nat) :=
  match if fails = 0 then s.lehr.records.find? fun r => r.seq == seq && r.partial_ && s.portUp r.port else none with
  | some r => some (r.port, r.at_)
  | none => s.freePlaces.head?

/-- First block of a zone's record: the superblock's two copies stand before the records (11 R363, R366; log 72). -/
def Lehr.recordBlock (l : Lehr) (q : Nat × Nat) : Nat := (tget (false, 0, 0) l.zones q.1).2.1.toNat + 2 + 17 * q.2

/-- The write of a record: 68 KiB with FUA; the rotation and the zone's ring go on behind it. -/
def State.nvmeRecord (s : State) (q : Nat × Nat) : State :=
  State.emit { s with lehr := { s.lehr with nextPort := (q.1 + 1) % 16, zoneNext := tset 0 s.lehr.zoneNext q.1 (q.2 + 1) } }
    (.nvme q.1 0x01 (s.lehr.recordBlock q) (68 * 1024) true)

/-- Issue a partial record that has no write yet (11 R364). -/
def State.issuePart (s : State) : State :=
  match s.lehr.part with
  | some p =>
    if p.port.isSome || s.lehr.drstop || s.lehr.quiesced then s
    else
      match s.recordPlace p.seq p.fails with
      | some q => State.nvmeRecord { s with lehr := { s.lehr with part := some { p with port := some q.1, at_ := q.2 } } } q
      | none => s
  | none => s

/-- A partial record of the segment is being written. -/
def Lehr.partUnderway (l : Lehr) (seq : Nat) : Bool := l.part.any fun p => p.seq == seq && p.port.isSome

/-- Issue the closed segments that have no write yet, in order, while zones have free records and the drain runs; a partial record that has
still to be issued gives way to its segment's own (11 R363, R364). -/
def State.issueDrain : Nat → State → State
  | 0, s => s.issuePart
  | f + 1, s =>
    let l := s.lehr
    if l.drstop || l.quiesced then s
    else
      match l.segs.find? fun g => g.port.isNone with
      | none => s.issuePart
      | some g =>
        if l.partUnderway g.seq then s
        else
          match s.recordPlace g.seq g.fails with
          | none => s
          | some q =>
            let segs := l.segs.map fun x => if x.seq = g.seq then { x with port := some q.1, at_ := q.2 } else x
            State.issueDrain f (State.nvmeRecord { s with lehr := { l with segs := segs, part := l.part.filter fun p => p.seq != g.seq } } q)

/-- SEGMENT_CLOSE: the last position of a segment has been written (11 R363). -/
def State.closeSegment (s : State) (p : Nat) : State :=
  let l := s.lehr
  if p % 1024 = 1023 then
    let opened := l.segSeq - (segOf l.wp.toNat + 8 - segOf p) % 8
    State.issueDrain 8 { s with lehr := { l with segs := l.segs ++ [⟨opened, segOf p, none, 0, 0, false⟩] } }
  else s

/-- LEHR_ENTRY_DURABLE: the sideband of the write at `pos` has verified (11 R352, R353, R376). -/
def execLehrEntryDurable (pos : Fin 8192) (s : State) : Outcome State Fault Refusal :=
  let l := s.lehr
  .next (match l.writes.find? fun w => w.pos == pos.val with
    | none => s
    | some w =>
      let s1 := { s with lehr := { l with
        writes := l.writes.erase w, ring := tmod LEntry.empty l.ring pos.val fun x => { x with valid := true } } }
      let s2 := w.slots.foldl State.entryDurable s1
      let s3 := match w.mirror with
        | some (k, g) => s2.emit (.mirrorAck k g)
        | none => s2
      (s3.closeSegment pos.val).mirrorsIn)

/-- A memory stop writes its part of a delta, granule by granule; one left poisoned is reported with the transaction's GCS (10
R333, 16 R518). -/
def State.applyPart (s : State) (h : HedgeId) (g : Word64) (st : StopId) (d : Delta) : State :=
  (pageParts d.addr d.bytes.length).foldl
    (fun t q =>
      match t.phys h q.1 with
      | some a =>
        if stopOf (chanOf (a / 4096)) = st then
          let t1 := (t.meetRead a q.2).hbmWrite a ((d.bytes.drop (q.1 - d.addr)).take q.2)
          let bad := ((granules a q.2).filter fun x => t1.granuleBad x).length
          if bad = 0 then t1 else t1.hedgeEvent h (mediaEvent g (q.1 / 32 * 32) 5 bad)
        else t
      | none => t) s

/-- A commit whose deltas all went to one stop, under a mask that names one unit, beside that stop (10 R324). -/
def Slot.singleStop (sl : Slot) (st : StopId) (stops : BitVec 8) : Bool :=
  stops == BitVec.ofNat 8 (2 ^ st.val) &&
    (List.finRange 64).any fun (u : UnitId) => sl.mask == BitVec.ofNat 64 (2 ^ u.val) && stopOf u == st

/-- DELTA_APPLY: a memory stop applies its deltas of a durable transaction, in the order in which the Lehr stop sent them (01 R21); on the single-stop path the lock unit beside it may
release at once (10 R324, R333). -/
def execDeltaApply (slot : SlotId) (st : StopId) (s : State) : Outcome State Fault Refusal :=
  let sl := s.slot slot
  .next (match sl.gcs with
    | some g =>
      if sl.state = .applying ∧ bit sl.stops st.val ∧ inTurn (fun q => q.2) (fun q => q == (slot, st)) s.applyq = some (slot, st) then
        let s := { s with applyq := s.applyq.erase (slot, st) }
        let s1 := sl.deltas.foldl (fun t d => t.applyPart sl.hedge g st d) s
        let left := sl.stops &&& ~~~(BitVec.ofNat 8 (2 ^ st.val))
        let single := sl.singleStop st (s.deltaStops slot)
        let s2 := s1.modSlot slot fun sl =>
          { sl with stops := left, releasing := single, unitsLeft := if single then sl.mask else sl.unitsLeft }
        if left = 0 then s2.allApplied slot else s2
      else s
    | none => s)

/-- APPLY_NOTICE: with a notice from every stop the controller sends a release to each unit of the mask (10 R324). -/
def execApplyNotice (slot : SlotId) (s : State) : Outcome State Fault Refusal :=
  let sl := s.slot slot
  .next (if sl.state = .applying ∧ sl.gcs.isSome ∧ sl.stops = 0 ∧ !sl.releasing ∧ sl.blocks = 0 ∧ sl.deltas ≠ [] then
      s.modSlot slot fun sl => { sl with releasing := true, unitsLeft := sl.mask, deltas := [] }
    else s)

/-- Entries of a segment. -/
def Lehr.segEntries (l : Lehr) (seg : Nat) : List LEntry := (List.range 1024).map fun i => tget LEntry.empty l.ring (1024 * seg + i)

/-- GBASE of a segment's anchor (11 R354). -/
def Lehr.gbase (l : Lehr) (seq : Nat) : Word64 := (tget (0, 0, 0) l.anchors (seq % 64)).2.2

/-- An entry as its segment record holds it: a lost one with VALID = 0 (16 R529). -/
def LEntry.recorded (e : LEntry) : LEntry := if e.lost then { e with valid := false } else e

/-- A record is written: it replaces the segment's earlier one, and what stood in its place. -/
def Lehr.putRecord (l : Lehr) (r : ZoneRec) : Lehr :=
  { l with records := (l.records.filter fun x => x.seq != r.seq && !(x.port == r.port && x.at_ == r.at_)) ++ [r] }

/-- The full record of a segment (11 R363, R364). -/
def Lehr.record (l : Lehr) (g : LSeg) (port : Nat) : Lehr :=
  l.putRecord ⟨g.seq, port, g.at_, false, l.gbase g.seq, (l.segEntries g.seg).map LEntry.recorded⟩

/-- A partial record: the entries written when it was asked for (11 R364). -/
def Lehr.partRecord (l : Lehr) (p : LPart) (port : Nat) : Lehr :=
  l.putRecord ⟨p.seq, port, p.at_, true, l.gbase p.seq, ((l.segEntries p.seg).take p.n).map LEntry.recorded⟩

/-- A hedge's occupancy falls by its entries of a reclaimed segment (11 R361). -/
def State.uncharge (s : State) (es : List LEntry) : State :=
  (List.finRange 64).foldl
    (fun t h => if (s.hedge h).used = 0 then t else t.modHedge h fun g =>
      { g with used := g.used - BitVec.ofNat 14 (es.filter fun e => e.hedge == h && e.kind != .mirror).length }) s

/-- Reclaim segments in ring order while the oldest one's write has completed (11 R363). -/
def State.reclaim : Nat → State → State
  | 0, s => s
  | f + 1, s =>
    match s.lehr.segs with
    | g :: rest =>
      if g.done then
        let es := s.lehr.segEntries g.seg
        let l := s.lehr
        let s1 := ({ s with lehr := { l with segs := rest, rp := BitVec.ofNat 13 ((l.rp.toNat + 1024) % 8192), inRing := l.inRing - 1024 } }).uncharge es
        let s2 := if l.pairEn then s1.emit (.reclaimed ⟨l.link.toNat, by have := l.link.isLt; omega⟩ g.seq) else s1
        State.reclaim f s2
      else s
    | [] => s

/-- Entries of the open segment that are written: those before the first write still under way. -/
def Lehr.writtenIn (l : Lehr) : Nat :=
  let p := l.wp.toNat
  (l.writes.filter fun w => segOf w.pos == segOf p && decide (w.pos < p)).foldl (fun m w => min m (w.pos % 1024)) (p % 1024)

/-- A flush request: the entries written to the open segment go to a partial record; while one is being written the request stands for
another (11 R364). -/
def State.flush (s : State) : State :=
  let l := s.lehr
  let n := l.writtenIn
  if n = 0 || l.records.any fun r => r.seq == l.segSeq && r.entries.length == n then s
  else match l.part with
    | some p =>
      if p.port.isSome then { s with lehr := { l with part := some { p with again := decide (p.seq ≠ l.segSeq ∨ p.n < n) } } }
      else State.issuePart { s with lehr := { l with part := some { p with seq := l.segSeq, seg := segOf l.wp.toNat, n := n } } }
    | none => State.issuePart { s with lehr := { l with part := some ⟨l.segSeq, segOf l.wp.toNat, n, none, 0, 0, false⟩ } }

/-- FLUSH_REQUEST (11 R364). -/
def execFlushRequest (s : State) : Outcome State Fault Refusal := .next s.flush

/-- The partial record's write has completed (11 R364). -/
def State.partDone (s : State) (p : LPart) (port : Nat) : State :=
  let s1 : State := { s with lehr := { s.lehr.partRecord p port with part := none, part_ := satInc s.lehr.part_ } }
  State.issueDrain 8 (if p.again then s1.flush else s1)

/-- DRAIN_WRITE_COMPLETE: the write of the record of segment `seg` has completed with success (11 R363, R364). -/
def execDrainWriteComplete (seg : Nat) (s : State) : Outcome State Fault Refusal :=
  let l := s.lehr
  .next (match l.part.bind fun p => if p.seq = seg then p.port.map fun q => (p, q) else none with
    | some (p, q) => s.partDone p q
    | none =>
      match l.segs.find? fun g => g.seq == seg && !g.done with
      | some g =>
        match g.port with
        | some p =>
          let l1 := ({ l with segs := l.segs.map (fun (x : LSeg) => if x.seq = seg then { x with done := true } else x), seg := satInc l.seg }).record g p
          (State.issueDrain 8 (State.reclaim 8 { s with lehr := l1 }).watermarks).mirrorsIn
        | none => s
      | none => s)

/-- The drain stops after three failures of one record, or goes on with the next port (11 R365). -/
def State.drainFailed (s : State) (seg fails port : Nat) : State :=
  let l := { s.lehr with fail := satInc s.lehr.fail }
  if 3 ≤ fails then ({ s with lehr := { l with drstop := true, stopSince := s.aoTick.toNat } }).report (lehrRecord s 5 (1024 * seg))
  else State.issueDrain 8 { s with lehr := { l with nextPort := (port + 1) % 16 } }

/-- The write of the record of segment `seg` has failed: it goes to the next port; after three failures the drain stops (11 R365). -/
def State.failDrain (s : State) (seg : Nat) : State :=
  let l := s.lehr
  match l.part.bind fun p => if p.seq = seg then p.port.map fun q => (p, q) else none with
    | some (p, q) => State.drainFailed { s with lehr := { l with part := some { p with port := none, fails := p.fails + 1 } } } p.seg (p.fails + 1) q
    | none =>
      match l.segs.find? fun g => g.seq == seg && !g.done && g.port.isSome with
      | some g =>
        State.drainFailed { s with lehr := { l with segs := l.segs.map fun (x : LSeg) => if x.seq = seg then { x with fails := x.fails + 1, port := none } else x } }
          g.seg (g.fails + 1) (g.port.getD 0)
      | none => s

/-- DRAIN_WRITE_FAIL: a failed or late write of a record (11 R365). -/
def execDrainWriteFail (seg : Nat) (s : State) : Outcome State Fault Refusal := .next (s.failDrain seg)

/-- LEHR_FULL_TIMEOUT: FULL has been set for 10 ms: the journal path has failed (11 R362, 16 R530). -/
def execLehrFullTimeout (s : State) : Outcome State Fault Refusal :=
  let l := s.lehr
  .next (if l.full && decide (l.fullSince + 10000 ≤ s.aoTick.toNat) && !l.failed && !l.fenced then
      ({ s with lehr := { l with failed := true } }).report (lehrRecord s 4 l.wp.toNat)
    else s)

/-! ### Checkpoint (11 R366, R367) -/

/-- A zone's superblock takes C and S0 in the copy whose turn it is (11 R366). -/
def ZoneSuper.put (z : ZoneSuper) (v : Word64 × Nat) : ZoneSuper :=
  if z.second then { z with b := some v, second := false } else { z with a := some v, second := true }

/-- Write the superblock of one zone, with FUA. -/
def State.writeSuper (s : State) (port : Nat) : State :=
  let l := s.lehr
  let z := tget ZoneSuper.none l.supers port
  State.emit { s with lehr := { l with supers := tset ZoneSuper.none l.supers port (z.put (l.ckpt, l.s0)) } }
    (.nvme port 0x01 ((tget (false, 0, 0) l.zones port).2.1.toNat + b2n z.second) 4096 true)

/-- Write the superblock of every active zone. -/
def State.writeSupers (s : State) : State :=
  ((List.range 16).filter fun p => (tget (false, 0, 0) s.lehr.zones p).1 && s.portUp p).foldl State.writeSuper s

/-- LEHR_JZONEk is written: firmware that opens a zone whose drive holds no superblock writes one (11 R366, R381; log 71). -/
def State.setZone (s : State) (port : Nat) (z : Bool × BitVec 36 × BitVec 16) : State :=
  let s1 : State := { s with lehr := { s.lehr with zones := tset (false, 0, 0) s.lehr.zones port z } }
  if z.1 && s.portUp port && tget ZoneSuper.none s.lehr.supers port = ZoneSuper.none then s1.writeSuper port else s1

/-- Write one dirty page back and clear D; its cached translations go, so that the next store sets D again. -/
def State.cleanPage (s : State) (h : HedgeId) (va : Nat) : State :=
  match s.dirtyLeaf h va with
  | some (at_, p, level) =>
    let q := s.evictedLeaf h (pageBase va level) p
    (((s.writeBack q p.frame (2 ^ levelBits level)).setDurable h (pageBase va level) level q).hbmPut at_ 8
      (p.toNat &&& 0xFFFFFFFFFFFFFFDF)).invPage h va
  | none => s

/-- The full GCS of an entry: the least one from GBASE on with its low 40 bits (11 R372). -/
def fullGcs (gbase : Word64) (glo : Nat) : Nat := gbase.toNat + (glo + 2 ^ 40 - gbase.toNat % 2 ^ 40) % 2 ^ 40

/-- GLO of an entry's header. -/
def entryGlo (bs : List Byte) : Nat := natOfBytes (bs.take 8) / 2 ^ 12 % 2 ^ 40

/-- A delta read back from entries: its GCS, hedge, address, bytes and whether it ends its transaction. -/
structure RDelta where
  gcs : Nat
  hedge : HedgeId
  addr : Nat
  bytes : List Byte
  last : Bool
  deriving DecidableEq, Repr

/-- HEDGE of an entry's header. -/
def entryHedge (bs : List Byte) : HedgeId := ⟨natOfBytes (bs.take 8) / 64 % 64, Nat.mod_lt _ (by decide)⟩

/-- END bit `i` of an entry's header. -/
def entryEnd (bs : List Byte) (i : Nat) : Bool := natOfBytes (bs.take 8) / 2 ^ (2 + i) % 2 == 1

/-- The deltas of a PACKED entry from delta `i` on, whose GCS is `g`, at byte `off` (11 R357). -/
def packedDeltas (bs : List Byte) : Nat → Nat → Nat → Nat → List RDelta
  | 0, _, _, _ => []
  | n + 1, i, g, off =>
    let w := natOfBytes ((bs.drop off).take 6)
    let len := 8 * (w / 2 ^ 45 % 8)
    let e := entryEnd bs i
    ⟨g, entryHedge bs, 8 * (w % 2 ^ 45), (bs.drop (off + 6)).take len, e⟩ ::
      packedDeltas bs n (i + 1) (if e then g + 1 else g) (off + 6 + len)

/-- The deltas that a PACKED entry holds, or the first part of a HEAD's. -/
def entryDeltasOf (gbase : Word64) (x : LEntry) : List RDelta :=
  let g := fullGcs gbase (entryGlo x.bytes)
  match x.kind with
  | .packed => packedDeltas x.bytes (natOfBytes (x.bytes.take 1) % 4 + 1) 0 g 8
  | .head =>
    let w := natOfBytes ((x.bytes.drop 8).take 8)
    [⟨g, entryHedge x.bytes, w % 2 ^ 48, (x.bytes.drop 16).take (w / 2 ^ 48 % 2 ^ 15), entryEnd x.bytes 0⟩]
  | _ => []

/-- A run of entries holds a delta of GCS `g`. -/
def holdsGcs (gbase : Word64) (es : List LEntry) (g : Nat) : Bool :=
  es.any fun e => e.valid && (entryDeltasOf gbase e).any fun d => d.gcs == g

/-- The segment that holds C + 1: the first one with a delta of it, else the open one. -/
def Lehr.segWith (l : Lehr) (c : Word64) : Nat :=
  let g := c.toNat + 1
  let rs := l.records.map fun r => (r.seq, holdsGcs r.gbase r.entries g)
  let gs := l.segs.map fun x => (x.seq, holdsGcs (l.gbase x.seq) (l.segEntries x.seg) g)
  (rs ++ gs).foldl (fun m q => if q.2 then min m q.1 else m) l.segSeq

end Sys2Proof.Machine
end

