-- ==== Sys2Proof/Machine/Movers.lean ====
section
/-! DEFINITION. The movers: channels, mover addresses, descriptors, the read engine, the write engine and the buffer (12 R382 to R393, R403
to R406). -/

namespace Sys2Proof.Machine

open Host (Outcome)

/-! ### Channels -/

/-- A hardware channel (12 Table 12-1). -/
def hwChan (m : MovId) (ch : ChId) : Bool := decide (ch.val < hwChans m)

/-- Change a channel. -/
def State.modChan (s : State) (m : MovId) (ch : ChId) (f : Chan → Chan) : State := s.setChan m ch (f (s.chan m ch))

/-- Change a mover. -/
def State.modMover (s : State) (m : MovId) (f : Mover → Mover) : State := s.setMover m (f (s.mover m))

/-- A wake source of a cluster: one in C1 to C3 starts to wake (14 R458). -/
def State.wakeClu (s : State) (k : CluId) : State :=
  let c := s.clu k
  if c.pst = .c1 ∨ c.pst = .c2 ∨ c.pst = .c3 then s.setClu k { c with waking := true } else s

/-- A wake source of the cluster whose mover this is. -/
def State.wakeFor (s : State) (m : MovId) : State := if h : m.val < 32 then s.wakeClu ⟨m.val, h⟩ else s

/-- A KICK as the channel's state takes it (12 R398). -/
def Chan.kick (c : Chan) : Chan :=
  match c.state with
  | .idle => { c with state := .active }
  | .active => { c with kpend := true }
  | .paced => { c with kpend := true }
  | .paged => { c with kpend := true }
  | _ => c

/-! ### Mover addresses (12 Tables 12-2, 12-3) -/

/-- SPACE. -/
def maSpace (a : Word64) : Nat := bits a 63 60
/-- The function of a HOST address (12 Table 12-2). -/
def maFn (a : Word64) : FnId :=
  ⟨(65 * bits a 52 52 + if bit a 59 then 0 else bits a 58 53 + 1) % 130, Nat.mod_lt _ (by decide)⟩
/-- The storage port of a BLOCK address. -/
def maPort (a : Word64) : Nat := bits a 43 40

/-- Table 12-3 for a firmware channel. -/
def spaceOk (m : MovId) (a : Word64) : Bool :=
  let sp := maSpace a
  if m.val < 32 then sp == 1 || sp == 2 || sp == 3 || sp == 6
  else if m.val < 34 then sp == 2 || sp == 6 || sp == 4 && bits a 52 52 == m.val - 32
  else sp == 2 || sp == 6 || sp == 5 && maPort a / 8 == m.val - 34

/-- Bytes of control-complex memory (15 R486). -/
abbrev ccmBytes : Nat := 0x1000000

/-- Reserved fields are 0 and `n` bytes stay inside the space (12 Table 12-2). -/
def State.extentOk (s : State) (a : Word64) (n : Nat) : Bool :=
  match maSpace a with
  | 1 => bits a 49 18 == 0 && bits a 59 53 == 0 && decide (bits a 17 0 + n ≤ scratchEnd)
  | 2 => bits a 59 38 == 0 && decide (bits a 37 0 + n ≤ hbmBytes)
  | 3 => bits a 59 58 == 0 && decide (bits a 47 0 + n ≤ 2 ^ 48)
  | 4 => decide (bits a 51 0 + n ≤ 2 ^ 52)
  | 5 => bits a 59 44 == 0 && decide (bits a 39 0 * 4096 + n ≤ (tget SPort.reset s.sports (maPort a)).blocks * 4096)
  | 6 => bits a 59 32 == 0 && decide (bits a 31 0 + n ≤ ccmBytes)
  | _ => false

/-- A HOST address names an enabled VF, or the PF alone (12 R389). -/
def State.hostOk (s : State) (a : Word64) : Bool :=
  maSpace a != 4 ||
    if bit a 59 then bits a 58 53 == 0
    else decide (bits a 58 53 < (s.port ⟨bits a 52 52 % 2, Nat.mod_lt _ (by decide)⟩).vfs)

/-! ### Descriptors (12 Tables 12-4, 12-5) -/

/-- OP. -/
def Desc.op (d : Desc) : Nat := bits d.ctrl 2 1
/-- LEN. -/
def Desc.len (d : Desc) : Nat := bits d.ctrl 55 32
/-- BARRIER. -/
def Desc.barrier (d : Desc) : Bool := bit d.ctrl 3
/-- CHAIN. -/
def Desc.chain (d : Desc) : Bool := bit d.ctrl 4
/-- PACE. -/
def Desc.pace (d : Desc) : Bool := bit d.ctrl 5
/-- INT. -/
def Desc.int (d : Desc) : Bool := bit d.ctrl 6
/-- LAST. -/
def Desc.last (d : Desc) : Bool := bit d.ctrl 7
/-- SIG. -/
def Desc.sig (d : Desc) : Bool := bit d.ctrl 8
/-- FUA. -/
def Desc.fua (d : Desc) : Bool := bit d.ctrl 9
/-- P16. -/
def Desc.p16 (d : Desc) : Bool := bit d.ctrl 10
/-- GATHER. -/
def Desc.gather (d : Desc) : Bool := bit d.ctrl 11
/-- PTMR. -/
def Desc.ptmr (d : Desc) : TimerId := ⟨bits d.ctrl 15 12 % 16, Nat.mod_lt _ (by decide)⟩
/-- CHN. -/
def Desc.chn (d : Desc) : ChId := ⟨bits d.ctrl 21 16 % 64, Nat.mod_lt _ (by decide)⟩

/-- SRC is an address: not of a FILL. -/
def Desc.hasSrc (d : Desc) : Bool := d.op != 1
/-- A block transfer that reads the drive. -/
def Desc.fromBlock (d : Desc) : Bool := d.hasSrc && maSpace d.src == 5
/-- A block transfer that writes the drive. -/
def Desc.toBlock (d : Desc) : Bool := maSpace d.dst == 5
/-- A block transfer (12 R393). -/
def Desc.block (d : Desc) : Bool := d.fromBlock || d.toBlock

/-- Pattern byte at offset `j` of a FILL (12 R391). -/
def Desc.pattern (d : Desc) (j : Nat) : Byte :=
  let i := j % (if d.p16 then 16 else 8)
  if i < 8 then d.src.extractLsb' (8 * i) 8 else d.aux.extractLsb' (8 * (i - 8)) 8

/-- Bytes of HBM or control-complex memory with their poison. -/
def State.memBytes (s : State) (ccm : Bool) (a n : Nat) : List (Byte × Bool) :=
  (List.range n).map fun i => if ccm then (tget 0 s.ccm (a + i), false) else (s.hbmByte (a + i), s.granuleBad ((a + i) / 32))

/-- Write bytes with their poison into HBM: poisoned granules are written poisoned (12 R405). -/
def State.hbmWriteP (s : State) (a : Nat) (bs : List (Byte × Bool)) : State :=
  let s1 := s.hbmWrite a (bs.map (·.1))
  { s1 with
    poison := bs.zipIdx.foldl (fun (t : Tab Bool) q => if q.1.2 then tset false t ((a + q.2) / 32) true else t) s1.poison }

/-- Write bytes to HBM or control-complex memory. -/
def State.memWrite (s : State) (ccm : Bool) (a : Nat) (bs : List (Byte × Bool)) : State :=
  if ccm then { s with ccm := tsetRun 0 s.ccm a (bs.map (·.1)) } else s.hbmWriteP a bs

/-- An HBM or CCM mover address: whether it names CCM, and the byte. -/
def maMem (a : Word64) : Bool × Nat := if maSpace a = 6 then (true, bits a 31 0) else (false, bits a 37 0)

/-- Address of a channel's descriptor `i`. -/
def Chan.descAt (c : Chan) (i : Nat) : Nat := c.addr.toNat * 32 + 32 * i

/-- A descriptor as read from its ring. -/
def State.readDesc (s : State) (c : Chan) : Desc :=
  let bs := (s.memBytes c.spc (c.descAt c.head.toNat) 32).map (·.1)
  let w := fun i => BitVec.ofNat 64 (natOfBytes ((bs.drop (8 * i)).take 8))
  ⟨w 0, w 1, w 2, w 3⟩

/-- The entries of a gather list until their lengths reach LEN, as (address, length, bytes 12 to 15) (12 R393). -/
def State.gatherList (s : State) (a : Word64) : Nat → Nat → List (Word64 × Nat × Nat)
  | 0, _ => []
  | n + 1, left =>
    let q := maMem a
    let bs := (s.memBytes q.1 q.2 16).map (·.1)
    let len := natOfBytes ((bs.drop 8).take 4)
    (BitVec.ofNat 64 (natOfBytes (bs.take 8)), len, natOfBytes (bs.drop 12)) :: if left ≤ len then [] else s.gatherList (a + 16) n (left - len)

/-- A memory side of a block transfer: HBM or CCM, aligned to 4 KiB. -/
def State.memSide (s : State) (a : Word64) (n : Nat) : Bool := (maSpace a == 2 || maSpace a == 6) && s.extentOk a n && (maMem a).2 % 4096 == 0

/-- The gather list of a block transfer, or its one memory side in the same form. -/
def State.parts (s : State) (d : Desc) : List (Word64 × Nat × Nat) :=
  if d.gather then s.gatherList d.aux 32 d.len else [(if d.fromBlock then d.dst else d.src, d.len, 0)]

/-- The memory segments of a block transfer. -/
def State.segments (s : State) (d : Desc) : List (Word64 × Nat) := (s.parts d).map fun q => (q.1, q.2.1)

/-- The conditions of R393. -/
def State.blockOk (s : State) (d : Desc) : Bool :=
  d.len % 4096 == 0 && decide (4096 ≤ d.len) && decide (d.len ≤ 131072) && d.op != 2 && !(d.fromBlock && d.toBlock) &&
    if d.op = 1 then !d.gather && (List.range 16).all fun j => d.pattern j == 0
    else
      let g := s.parts d
      g.all (fun q => s.memSide q.1 q.2.1 && q.2.1 % 4096 == 0 && q.2.2 == 0) && (g.map (·.2.1)).sum == d.len

/-- The checks of R389. -/
def State.descOk (s : State) (m : MovId) (c : Chan) (d : Desc) : Bool :=
  let gsrc := d.gather && !d.fromBlock
  let gdst := d.gather && d.fromBlock
  let ok := fun (a : Word64) => spaceOk m a && s.extentOk a d.len && s.hostOk a
  d.op != 3 && bits d.ctrl 31 22 == 0 && bits d.ctrl 63 56 == 0 && d.len != 0 &&
    (gsrc || !d.hasSrc || ok d.src) && (gdst || ok d.dst) &&
    (!d.gather || (spaceOk m d.aux && s.memSide (d.aux &&& ~~~(0xFFF#64)) 0)) &&
    (!d.p16 || d.op == 1) && (!d.gather || d.block) && (!d.fua || d.toBlock) &&
    (d.aux == 0 || d.gather || d.op == 1) && (!d.block || s.blockOk d) &&
    !(d.chain && hwChan m d.chn) && !(d.sig && !c.sigv)

/-- Pacing timer `t` of a mover. -/
def Mover.pt (m : Mover) (t : TimerId) : Pacer := tget Pacer.reset m.pts t.val

/-- Write a pacing timer. -/
def Mover.setPt (m : Mover) (t : TimerId) (p : Pacer) : Mover := { m with pts := tset Pacer.reset m.pts t.val p }

/-- A burst may start: not a PACE descriptor, or its timer's request is asserted (12 R400). -/
def Mover.mayStart (m : Mover) (d : Desc) : Bool := !d.pace || (m.pt d.ptmr).req

/-- A burst of a PACE descriptor lowers LEFT; REQ is withdrawn at 0. -/
def Mover.countBurst (m : Mover) (d : Desc) : Mover :=
  if d.pace then
    let p := m.pt d.ptmr
    m.setPt d.ptmr { p with left := p.left - 1, req := p.req && p.left != 1 }
  else m

/-- NVMe opcode of a block transfer: Read, Write or Write Zeroes (12 R393). -/
def Desc.nvmeOp (d : Desc) : Byte := if d.fromBlock then 0x02 else if d.op = 1 then 0x08 else 0x01

/-- The BLOCK address of a block transfer. -/
def Desc.blockAddr (d : Desc) : Word64 := if d.fromBlock then d.src else d.dst

/-! ### Bursts and the buffer (12 R386, R387, R403) -/

/-- Bytes to the end of a 256-byte piece of the device's memories. -/
def room256 (a : Word64) (off : Nat) : Nat := 256 - ((if maSpace a = 1 then bits a 17 0 else bits a 47 0) + off) % 256

/-- Bytes to the end of a 4 KiB piece of host memory. -/
def room4K (a : Word64) (off : Nat) : Nat := 4096 - (bits a 51 0 + off) % 4096

/-- Most bytes of a read burst that begins at a place (12 R387, R403). -/
def State.readRoom (s : State) (a : Word64) (off : Nat) : Nat :=
  if maSpace a = 4 then min (room4K a off) (s.port (portOf (maFn a))).mrrs else room256 a off

/-- Most bytes of a write burst that begins at a place (12 R387, R403). -/
def State.writeRoom (s : State) (a : Word64) (off : Nat) : Nat :=
  if maSpace a = 4 then min (room4K a off) (s.port (portOf (maFn a))).mps else room256 a off

/-- A burst that is still in flight. -/
def Burst.out (b : Burst) : Bool := b.data.isNone

/-- Buffer space of a burst: rounded up to 256 bytes (12 R403). -/
def Burst.space (b : Burst) : Nat := (b.n + 255) / 256 * 256

/-- The bursts of the descriptor under way. -/
def Chan.live (c : Chan) : List Burst := c.flight.filter fun b => !b.stale

/-- A block transfer's NVMe command is in flight. -/
def Chan.blockOut (c : Chan) : Bool := (c.issued && c.cur.isSome && c.ended.isNone) || c.orphan.isSome

/-- Bursts in flight of a channel; an NVMe command counts as one (12 R393, Table 12-18). -/
def Chan.infl (c : Chan) : Nat := (c.flight.filter Burst.out).length + b2n c.blockOut

/-- Bursts in flight of a mover (12 Table 12-10). -/
def Mover.infl (v : Mover) : Nat := (v.chans.map fun kc => kc.2.infl).sum

/-- No burst of the mover is in flight: DRAINED (12 R410, Table 12-10). -/
def Mover.drained (v : Mover) : Bool := v.infl == 0

/-- Buffer space in use. -/
def Mover.reserved (v : Mover) : Nat := (v.chans.map fun kc => (kc.2.flight.map Burst.space).sum).sum

/-- What stands in the buffer is dropped, and what is in flight is discarded as it arrives. -/
def Chan.dropFlight (c : Chan) : Chan := { c with flight := (c.flight.filter Burst.out).map fun b => { b with stale := true } }

/-- The channel has a burst to start. -/
def Chan.wants (c : Chan) : Bool :=
  match c.cur, c.ended, c.stopAs with
  | some d, none, none =>
    (c.state == .active || c.state == .paced) && !c.aborting &&
      if d.block then !c.issued
      else if d.op = 2 then (c.live.isEmpty && decide (c.next < d.len)) || c.live.length == 1
      else decide (c.next < d.len)
  | _, _, _ => false

/-- The next burst of the descriptor: its address, offset and length, and whether it reads a COMPARE's destination. The two sides of a COMPARE
are read in turn, and no burst follows before they are compared (12 R391, R392). -/
def State.nextBurst (s : State) (c : Chan) (d : Desc) : Word64 × Nat × Nat × Bool :=
  let left := d.len - c.next
  if d.op = 1 then (0, c.next, min left (s.writeRoom d.dst c.next), false)
  else if d.op = 2 then
    match c.live with
    | b :: _ => (d.dst, b.off, b.n, true)
    | [] => (d.src, c.next, min left (min (s.readRoom d.src c.next) (s.readRoom d.dst c.next)), false)
  else (d.src, c.next, min left (s.readRoom d.src c.next), false)

/-- A channel under the pacing requests: PACED while it has a burst to start and its timer's request is not asserted; the completion timers of
its bursts stand still meanwhile (12 R400). -/
def Mover.paceChan (v : Mover) (now : Nat) (c : Chan) : Chan :=
  match c.cur with
  | some d =>
    if c.state = .paced then
      if v.mayStart d then
        { c with state := .active, flight := c.flight.map fun b => { b with since := b.since + (now - c.heldAt) }, since := c.since + (now - c.heldAt) }
      else c
    else if c.state = .active ∧ c.wants ∧ !v.mayStart d then { c with state := .paced, heldAt := now }
    else c
  | none => c

/-- The channels of a mover under its pacing requests. -/
def State.pace (s : State) (m : MovId) : State :=
  s.modMover m fun v => { v with chans := v.chans.map fun kc => (kc.1, v.paceChan s.aoTick.toNat kc.2) }

/-! ### The accesses of a burst -/

/-- The engine of a SCRATCH address. -/
def maEng (m : MovId) (a : Word64) : EngId := ⟨(8 * m.val + bits a 52 50) % 256, Nat.mod_lt _ (by decide)⟩
/-- The hedge of a RECORD address. -/
def maHedge (a : Word64) : HedgeId := ⟨bits a 53 48 % 64, Nat.mod_lt _ (by decide)⟩

/-- The access of a RECORD address (12 R386). -/
def maAccess (m : MovId) (a : Word64) (out : Bool) : Access :=
  ⟨none, ⟨m.val % 32, Nat.mod_lt _ (by decide)⟩, maHedge a, BitVec.ofNat 4 (bits a 57 54), out, out, false⟩

/-- Translate the bytes of one side of a burst. -/
def State.maTrans (s : State) (m : MovId) (a : Word64) (off n : Nat) (out : Bool) : State × PageRes :=
  if maSpace a = 3 then State.transMarked (maAccess m a out) (bits a 47 0 + off) n 8 s else (s, .ok)

/-- The cluster mover translates the next page of a RECORD source with the prefetch intent (12 R386). -/
def State.maPrefetch (s : State) (m : MovId) (a : Word64) (off : Nat) : State :=
  let va := ((bits a 47 0 + off) / 4096 + 1) * 4096
  if maSpace a = 3 ∧ (off = 0 ∨ (bits a 47 0 + off) % 4096 = 0) ∧ va < 2 ^ 48 then
    let q := s.transPage { maAccess m a false with prefetch := true } va
    match q.2 with
    | .fail _ => q.1.modHedge (maHedge a) fun g => { g with prefFails := satInc g.prefFails }
    | _ => q.1
  else s

/-- Read `n` bytes at an offset of an address; `data` are those that a HOST read delivers. -/
def State.maRead (s : State) (m : MovId) (a : Word64) (off n : Nat) (data : List Byte) (pz : Bool) : List (Byte × Bool) :=
  match maSpace a with
  | 1 =>
    let g := s.eng (maEng m a)
    (List.range n).map fun i =>
      let b := bits a 17 0 + off + i
      let c := tget Cell.nil g.scratch (b / 16)
      (byteOfPay c.pay (b % 16), c.p || decide (tget Latent.none g.latent (b / 16) = .uncorrectable))
  | 3 => s.readRecord (maHedge a) (bits a 47 0 + off) n
  | 4 => (data.take n).map fun b => (b, pz)
  | 6 => s.memBytes true (bits a 31 0 + off) n
  | _ => s.memBytes false (bits a 37 0 + off) n

/-- A read meets the latent errors of its source. -/
def State.maMeet (s : State) (m : MovId) (a : Word64) (off n : Nat) : State :=
  match maSpace a with
  | 1 => (s.modEng (maEng m a) fun g => g.meetAll (cellsOf (bits a 17 0 + off) n)).scratchRecord s (maEng m a)
  | 2 => s.meetRead (bits a 37 0 + off) n
  | 3 => s.meetRecord (maHedge a) (bits a 47 0 + off) n
  | _ => s

/-- Write bytes at an offset of an address. -/
def State.maWrite (s : State) (m : MovId) (a : Word64) (off : Nat) (bs : List (Byte × Bool)) : State :=
  match maSpace a with
  | 1 => s.modEng (maEng m a) fun g => g.moverWrite (bits a 17 0 + off) bs
  | 3 =>
    let va := bits a 47 0 + off
    (pageParts va bs.length).foldl
      (fun t q => match s.phys (maHedge a) q.1 with | some x => t.hbmWriteP x ((bs.drop (q.1 - va)).take q.2) | none => t) s
  | 4 => s.emit (.host (maFn a) (BitVec.ofNat 64 (bits a 51 0 + off)) (bs.map (·.1)) (bs.any (·.2)))
  | 6 => s.memWrite true (bits a 31 0 + off) bs
  | _ => s.memWrite false (bits a 37 0 + off) bs

/-- The first place where two runs differ. -/
def firstDiff : Nat → List (Byte × Bool) → List (Byte × Bool) → Option Nat
  | _, [], _ => none
  | _, _, [] => none
  | i, x :: xs, y :: ys => if x.1 = y.1 then firstDiff (i + 1) xs ys else some i

/-- The first poisoned place of two runs. -/
def firstPoison : Nat → List (Byte × Bool) → List (Byte × Bool) → Option Nat
  | _, [], _ => none
  | _, _, [] => none
  | i, x :: xs, y :: ys => if x.2 || y.2 then some i else firstPoison (i + 1) xs ys

/-- A channel after both bursts of a COMPARE have arrived (12 R392, R405). -/
def Chan.compared (c : Chan) (d : Desc) (x y : List (Byte × Bool)) : Chan :=
  let n := min x.length y.length
  match firstDiff 0 x y, firstPoison 0 x y with
  | some i, some j =>
    if i < j then { c with done := c.done + i, diff := some (c.done + i), ended := some (0, 0) }
    else { c with done := c.done + j, diff := some (c.done + j), ended := some (0x04, 0) }
  | some i, none => { c with done := c.done + i, diff := some (c.done + i), ended := some (0, 0) }
  | none, some j => { c with done := c.done + j, diff := some (c.done + j), ended := some (0x04, 0) }
  | none, none => { c with done := c.done + n, next := c.next + n, ended := if c.done + n = d.len then some (0, 0) else none }

/-! ### The write engine (12 R395, R403, R405, R406) -/

/-- Write bytes burst by burst, up to where a page of the destination faults or fails: how many bytes were written, and what stopped it. -/
def State.writeRun (m : MovId) (d : Desc) : Nat → State → Nat → List (Byte × Bool) → State × Nat × PageRes
  | 0, s, _, _ => (s, 0, .ok)
  | f + 1, s, off, bs =>
    if bs.isEmpty then (s, 0, .ok)
    else
      let n := min bs.length (s.writeRoom d.dst off)
      let t := s.maTrans m d.dst off n true
      match t.2 with
      | .fault va => (t.1, 0, .fault va)
      | .fail st => (t.1, 0, .fail st)
      | _ =>
        let r := State.writeRun m d f (t.1.maWrite m d.dst off (bs.take n)) (off + n) (bs.drop n)
        (r.1, n + r.2.1, r.2.2)

/-- A channel after the first `k` bytes of its oldest burst have been written. -/
def Chan.wrote (c : Chan) (b : Burst) (bs : List (Byte × Bool)) (k : Nat) : Chan :=
  let rest := if k < bs.length then [{ b with off := b.off + k, n := b.n - k, data := some (bs.drop k) }] else []
  { c with
    done := c.done + k, poison := c.poison || (bs.take k).any (·.2)
    flight := c.flight.filter (·.stale) ++ rest ++ c.live.drop 1 }

/-- A channel waits for a record page (12 R386). -/
def State.pagedOn (s : State) (m : MovId) (ch : ChId) (h : HedgeId) (va : Nat) (dst : Bool) : State :=
  (s.modClu ⟨m.val % 32, Nat.mod_lt _ (by decide)⟩ fun k => { k with rfault := satInc k.rfault }).modChan m ch
    fun c => { c with state := .paged, fault := some (h, va, dst) }

/-- A descriptor whose bursts are all written or compared has ended: OK, MEDIA where poison was carried, or the status that stopped it (12
R401, R405, R407). -/
def Chan.settle (c : Chan) : Chan :=
  match c.cur, c.ended with
  | some d, none =>
    if d.block || !c.live.isEmpty then c
    else if c.done = d.len then { c with ended := some (if c.poison then 0x04 else 0, 0) }
    else match c.stopAs with
      | some st => { c with ended := some (st, 0) }
      | none => c
  | _, _ => c

/-- The two sides of a COMPARE, once both have arrived; when it is to stop, what has arrived is dropped. -/
def Chan.pair (c : Chan) (d : Desc) : Chan :=
  match c.live with
  | [x, y] =>
    match x.data, y.data with
    | some p, some q => { c with flight := c.flight.filter (·.stale) }.compared d p q
    | _, _ => c
  | [x] => if x.data.isSome && c.stopAs.isSome then { c with flight := c.flight.filter (·.stale) } else c
  | _ => c

/-- The write engine takes the bytes of a channel in address order, as far as they have arrived (12 R403). -/
def State.pump (m : MovId) (ch : ChId) : Nat → State → State
  | 0, s => s
  | f + 1, s =>
    let c := s.chan m ch
    match c.cur, c.ended with
    | some d, none =>
      if d.block || c.fault.any (·.2.2) then s
      else if d.op = 2 then s.setChan m ch (c.pair d).settle
      else match c.live with
        | b :: _ =>
          match b.data with
          | some bs =>
            let w := State.writeRun m d bs.length s b.off bs
            let s1 := w.1.modChan m ch fun c => c.wrote b bs w.2.1
            match w.2.2 with
            | .fault va => s1.pagedOn m ch (maHedge d.dst) va true
            | .fail st => s1.modChan m ch fun c => { c.dropFlight with ended := some (st, 0) }
            | _ => State.pump m ch f s1
          | none => s
        | [] => s.setChan m ch c.settle
    | _, _ => s

/-- The channels of a mover that hold anything. -/
def Mover.inUse (v : Mover) : List ChId := v.chans.filterMap fun kc => if h : kc.1 < 64 then some ⟨kc.1, h⟩ else none

/-- The write engine at work on every channel. -/
def State.writeAll (s : State) (m : MovId) : State := (s.mover m).inUse.foldl (fun t n => State.pump m n 65 t) s

/-! ### The read engine (12 R386, R403, R404) -/

/-- A HOST read, as it goes out. -/
def State.hostReadOut (s : State) (a : Word64) (off n : Nat) : State :=
  if maSpace a = 4 then s.emit (.read (maFn a) (BitVec.ofNat 64 (bits a 51 0 + off)) n) else s

/-- Start a channel's next burst: its source is translated, a HOST read goes out, and the buffer space is taken. -/
def State.startBurst (s : State) (m : MovId) (ch : ChId) (d : Desc) : State :=
  let c := s.chan m ch
  let q := s.nextBurst c d
  let out := q.2.2.2
  let s0 := if d.op = 1 || out then s else s.maPrefetch m q.1 q.2.1
  let t := if d.op = 1 then (s0, .ok) else s0.maTrans m q.1 q.2.1 q.2.2.1 out
  match t.2 with
  | .fault va => t.1.pagedOn m ch (maHedge q.1) va false
  | .fail st => t.1.modChan m ch fun c => { c with stopAs := some st }
  | _ =>
    let b : Burst := ⟨q.1, q.2.1, q.2.2.1, out, s.aoTick.toNat, false, none⟩
    ((t.1.modMover m fun v => v.countBurst d).modChan m ch fun c =>
      { c with flight := c.flight ++ [b], next := if d.op = 2 then c.next else c.next + b.n }).hostReadOut b.a b.off b.n

/-- Issue a block transfer's NVMe command (12 R393). -/
def State.issueBlock (s : State) (m : MovId) (ch : ChId) (d : Desc) : State :=
  ((s.modMover m fun v => v.countBurst d).modChan m ch fun c => { c with issued := true, since := s.aoTick.toNat }).emit
    (.nvme (maPort d.blockAddr) d.nvmeOp (bits d.blockAddr 39 0) d.len d.fua)

/-- An engine channel of the mover, which stands at priority 3, has a STAGE whose data moves (12 R404; log 76). -/
def State.stageMoves (s : State) (m : MovId) : Bool :=
  decide (m.val < 32) && (List.range 8).any fun i =>
    match s.stageHead ⟨(8 * m.val + i) % 256, Nat.mod_lt _ (by decide)⟩ with
    | some c => ((s.eng ⟨(8 * m.val + i) % 256, Nat.mod_lt _ (by decide)⟩).ctx c).request?.any fun w => w.stage == .data
    | none => false

/-- The read engine may serve a channel: it has a burst to start and fewer than MAXB in flight, and no drain write goes ahead of it (11 R364,
12 R403). -/
def State.servable (s : State) (m : MovId) (c : Chan) : Bool :=
  c.wants && c.state == .active && c.fault.isNone && decide (c.infl < c.maxb.toNat) && (c.prio == 3 || !s.stageMoves m) &&
    match c.cur with
    | some d => !d.block || !s.drainsFirst (maPort d.blockAddr)
    | none => false

/-- Order of service: by priority, then round-robin behind the channel served last there (12 R404). -/
def Mover.rank (v : Mover) (k : Nat) (c : Chan) : Nat :=
  64 * (3 - c.prio.toNat) + (k + 63 - tget 63 v.turns c.prio.toNat) % 64

/-- The channel that the read engine serves next, with its descriptor; none while 64 bursts are in flight or its buffer space is not free. -/
def State.nextServed (s : State) (m : MovId) : Option (ChId × Desc) :=
  let v := s.mover m
  if v.errhalt || decide (64 ≤ v.infl) then none
  else
    match leastBy (fun (n : ChId) => v.rank n.val (s.chan m n)) (v.inUse.filter fun n => s.servable m (s.chan m n)) with
    | some n =>
      match (s.chan m n).cur with
      | some d =>
        let q := s.nextBurst (s.chan m n) d
        if d.block || decide (v.reserved + (q.2.2.1 + 255) / 256 * 256 ≤ 131072) then some (n, d) else none
      | none => none
    | none => none

/-- The read engine starts bursts as long as it may. -/
def State.serve (m : MovId) : Nat → State → State
  | 0, s => s
  | f + 1, s =>
    match s.nextServed m with
    | some (n, d) =>
      let s1 := s.modMover m fun v => { v with turns := tset 63 v.turns (s.chan m n).prio.toNat n.val }
      State.serve m f ((if d.block then s1.issueBlock m n d else s1.startBurst m n d).pace m)
    | none => s

/-- The mover goes on as far as it can without further data. -/
def State.moverGo (s : State) (m : MovId) : State :=
  if (s.mover m).errhalt then s else (State.serve m 130 ((s.writeAll m).pace m)).writeAll m

end Sys2Proof.Machine
end

