-- ==== Sys2Proof/Machine/MoverCommands.lean ====
section
/-! DEFINITION. The movers' commands: descriptors, burst and block completions, status, timeouts, aborts, ERR_HALT, pacing and
configuration (12 R388, R389, R393 to R402, R407 to R415). -/

namespace Sys2Proof.Machine

open Host (Outcome)

/-! ### Handing descriptors over (12 R388, R398, R399) -/

/-- A descriptor's SIG as its channel sends it. -/
def Chan.signals (c : Chan) (d : Desc) : Bool := d.sig && c.sigv

/-- The channel works on its ring. -/
def Chan.working (c : Chan) : Bool := c.state == .active || c.state == .paced || c.state == .paged

/-- Descriptor `i` of a channel's ring. -/
def State.descAtIx (s : State) (c : Chan) (i : Nat) : Desc := s.readDesc { c with head := BitVec.ofNat 12 i }

/-- The device still owns descriptor `i`: its OWN is 1 while the channel works, or a halted block transfer will write its status there. -/
def State.deviceOwns (s : State) (c : Chan) (i : Nat) : Bool :=
  (bit (s.descAtIx c i).ctrl 0 && c.working) || c.orphan.any fun o => o.at_ == c.descAt i && o.spc == c.spc

/-- Firmware changes an endpoint's MARM through the event unit (12 R399). -/
def State.setMarm (s : State) (h : HedgeId) (e : Nat) (f : Byte → Byte) : State :=
  if s.inRange h e then (s.setEndpoint h e { s.endpoint h e with marm := f (s.endpoint h e).marm }).watchDead h else s

/-- Firmware hands descriptors over in order: it raises MARM for one with SIG, and holds back, with those behind it, one for which MARM stands
at 255 or whose place the device still owns. Where it discards a SIG descriptor it lowers MARM (12 R388, R399). -/
def State.handOver (m : MovId) (ch : ChId) : List (Fin 4096 × Desc) → State → State
  | [], s => s
  | (i, d) :: t, s =>
    let c := s.chan m ch
    let old := s.descAtIx c i.val
    if decide (2 ^ c.log2.toNat ≤ i.val) || s.deviceOwns c i.val then s
    else
      let s1 := if bit old.ctrl 0 && c.signals old then s.setMarm c.hedge c.ept.toNat fun n => n - b2n (n != 0) else s
      let full := c.signals d && s1.inRange c.hedge c.ept.toNat && (s1.endpoint c.hedge c.ept.toNat).marm == 255
      if full then s
      else
        let s2 := if c.signals d then s1.setMarm c.hedge c.ept.toNat (· + 1) else s1
        let w : List Byte := bytesOfNat 8 (d.ctrl ||| 1).toNat ++ bytesOfNat 8 d.src.toNat ++ bytesOfNat 8 d.dst.toNat ++ bytesOfNat 8 d.aux.toNat
        State.handOver m ch t (s2.memWrite c.spc (c.descAt i.val) (w.map fun b => (b, false)))

/-- KICK: firmware hands descriptors over, each with its place in the ring, and kicks the channel (12 R388, R398, R399, R414). -/
def execKick (m : MovId) (k : KickOp) (s : State) : Outcome State Fault Refusal :=
  .next (if hwChan m k.ch then s
    else ((State.handOver m k.ch (k.ds.map fun q => (q.1, ⟨q.2.1, q.2.2.1, q.2.2.2.1, q.2.2.2.2⟩)) s).modChan m k.ch Chan.kick).wakeFor m)

/-- A channel with a new descriptor. -/
def Chan.begin_ (c : Chan) (d : Desc) (bad : Bool) : Chan :=
  { c with
    cur := some d, issued := false, done := 0, poison := false, diff := none, next := 0, stopAs := none, fault := none, flushing := false
    ended := if bad then some (0x07, 0) else none }

/-- DESCRIPTOR_TAKE: an ACTIVE channel reads the descriptor at HEAD and checks it (12 R388, R389, R398). DESIGN CHOICE: none is read ahead of
HEAD (log 74). -/
def execDescriptorTake (m : MovId) (ch : ChId) (s : State) : Outcome State Fault Refusal :=
  let c := s.chan m ch
  .next (if hwChan m ch || c.state != .active || c.cur.isSome || (s.mover m).errhalt then s
    else
      let d := s.readDesc c
      if !(bit d.ctrl 0) then s.setChan m ch (if c.kpend then { c with kpend := false } else { c with state := .idle })
      else (s.setChan m ch (c.begin_ d (!s.descOk m c d))).moverGo m)

/-! ### Bursts (12 R403, R405) -/

/-- Whose bytes a mover address counts in: its space, and there the engine, the hedge or the function (12 Table 12-2). -/
def maPlace (a : Word64) : Nat × Nat :=
  (maSpace a, match maSpace a with | 1 => bits a 52 50 | 3 => bits a 53 48 | 4 => (maFn a).val | _ => 0)

/-- A COPY whose two ranges overlap in one space (12 R390). -/
def Desc.meets (d : Desc) : Bool :=
  let at_ := fun (a : Word64) => if maSpace a = 4 then bits a 51 0 else bits a 47 0
  d.op == 0 && maPlace d.src == maPlace d.dst && overlaps (at_ d.src) d.len (at_ d.dst) (at_ d.dst + d.len)

/-- Free bytes with free poison, drawn from the counter at `k` on (log 2). -/
def freeBytes (k n : Nat) : List (Byte × Bool) := (List.range n).map fun i => (Config.privateByte k i, Config.freeBool (k + i))

/-- A burst of a COPY whose ranges overlap: what it writes, and what its source holds afterwards, is undefined (12 R390). -/
def State.muddled (s : State) (m : MovId) (d : Desc) (off n : Nat) : State × List (Byte × Bool) :=
  let s1 := if maSpace d.src = 4 then s else s.maWrite m d.src off (freeBytes s.free n)
  ({ s1 with free := s1.free + 2 * n }, freeBytes (s1.free + n) n)

/-- The data of a burst as it arrives: pattern bytes, what a HOST read delivers, or what stands at its address. -/
def State.arrived (s : State) (m : MovId) (d : Desc) (b : Burst) (data : List Byte) (pz : Bool) : State × List (Byte × Bool) :=
  if d.op = 1 then (s, (List.range b.n).map fun i => (d.pattern (b.off + i), false))
  else
    let s1 := s.maMeet m b.a b.off b.n
    let s2 := if pz && maSpace b.a == 4 then s1.aer (portOf (maFn b.a)) ((maFn b.a).val % 65) aerPoisoned else s1
    if d.meets then s2.muddled m d b.off b.n else (s2, s1.maRead m b.a b.off b.n data pz)

/-- BURST_COMPLETE: the data of burst `i` among those that the channel has issued arrives: `data` with its EP bit for a HOST read. The write
engine goes on, and the read engine with it. A channel whose page has become resident goes on with the next of these, whatever it names
(12 R386, R403). -/
def execBurstComplete (m : MovId) (ch : ChId) (i : Fin 64) (data : List Byte) (poison : Bool) (s : State) : Outcome State Fault Refusal :=
  let c := s.chan m ch
  .next (match c.flight[i.val]? with
    | none => s.moverGo m
    | some b =>
      if b.data.isSome then s.moverGo m
      else if b.stale then (s.setChan m ch { c with flight := c.flight.eraseIdx i.val }).moverGo m
      else match c.cur with
        | some d =>
          if maSpace b.a = 4 ∧ data.length < b.n then s
          else
            let r := s.arrived m d b data poison
            (r.1.modChan m ch fun c => { c with flight := c.flight.set i.val { b with data := some r.2 } }).moverGo m
        | none => s)

/-! ### Block transfers (12 R393, R394) -/

/-- Blocks whose content is unknown after a failed Write (12 R394): free values. -/
def State.unknownBlocks (s : State) (d : Desc) : State :=
  if d.toBlock then
    { s with
      disk := tsetRun 0 s.disk (diskAt (maPort d.dst) (bits d.dst 39 0)) ((List.range d.len).map (Config.privateByte s.free))
      diskPoison := tclear s.diskPoison (diskAt (maPort d.dst) (bits d.dst 39 0) / 32) (d.len / 32)
      free := s.free + 1 }
  else s

/-- Poison of a run of drive bytes, as written with EP (12 R405; log 69). -/
def State.diskBytes (s : State) (at_ n : Nat) : List (Byte × Bool) :=
  (List.range n).map fun i => (tget 0 s.disk (at_ + i), tget false s.diskPoison ((at_ + i) / 32))

/-- Write drive bytes, with the poison that the storage port returned with them (12 R405). -/
def State.diskWrite (s : State) (at_ : Nat) (bs : List (Byte × Bool)) : State :=
  { s with
    disk := tsetRun 0 s.disk at_ (bs.map (·.1))
    diskPoison := bs.zipIdx.foldl (fun (t : Tab Bool) q => if q.1.2 then tset false t ((at_ + q.2) / 32) true else t)
      (tclear s.diskPoison (at_ / 32) (bs.length / 32)) }

/-- The data of a successful block transfer, and whether poison was carried. -/
def State.blockData (s : State) (d : Desc) : State × Bool :=
  let at_ := diskAt (maPort d.blockAddr) (bits d.blockAddr 39 0)
  if d.op = 1 then ({ s with disk := tclear s.disk at_ d.len, diskPoison := tclear s.diskPoison (at_ / 32) (d.len / 32) }, false)
  else
    let r := (s.segments d).foldl
      (fun (q : State × Nat × Bool) g =>
        let a := maMem g.1
        if d.fromBlock then
          let bs := q.1.diskBytes (at_ + q.2.1) g.2
          (q.1.memWrite a.1 a.2 bs, q.2.1 + g.2, q.2.2 || bs.any (·.2))
        else
          let t := if a.1 then q.1 else q.1.meetRead a.2 g.2
          let bs := t.memBytes a.1 a.2 g.2
          (t.diskWrite (at_ + q.2.1) bs, q.2.1 + g.2, q.2.2 || bs.any (·.2))) (s, 0, false)
    (r.1, r.2.2)

/-- A channel's block transfer ends. -/
def State.endBlock (s : State) (m : MovId) (ch : ChId) (st : Byte) (nvst : BitVec 11) (pz : Bool) (done : Nat) : State :=
  s.modChan m ch fun c => { c with ended := some (st, nvst), poison := pz, done := done }

/-! ### Status (12 R395 to R402, Table 12-7) -/

/-- The status word. -/
def statusWord (d : Desc) (st : Byte) (halt pz : Bool) (nvst : BitVec 11) (residue : Nat) : Nat :=
  bits d.ctrl 7 1 * 2 + 256 * st.toNat + 2 ^ 16 * b2n halt + 2 ^ 17 * b2n pz + 2 ^ 18 * (if d.block then nvst.toNat else 0) +
    2 ^ 32 * residue

/-- RESIDUE of a status (12 R392, R394, R401, R405). -/
def residueOf (d : Desc) (st : Byte) (done : Nat) : Nat := if st = 0 then 0 else if d.block then d.len else d.len - done

/-- The 32 bytes of the status writeback (12 R397): a COMPARE that ran to its end, or to poison, writes its result. -/
def statusBytes (d : Desc) (st : Byte) (nvst : BitVec 11) (halt pz : Bool) (done : Nat) (diff : Option Nat) : List Byte :=
  let aux := if d.op ≠ 2 then d.aux
    else match diff with
      | some i => BitVec.ofNat 64 i
      | none => if st = 0 then BitVec.allOnes 64 else d.aux
  bytesOfNat 8 (statusWord d st halt pz nvst (residueOf d st done)) ++ bytesOfNat 8 d.src.toNat ++ bytesOfNat 8 d.dst.toNat ++
    bytesOfNat 8 aux.toNat

/-- The status of a descriptor is written, HEAD advances, and SIG sends its signal (12 R395, R397, R399). -/
def State.putStatus (s : State) (m : MovId) (ch : ChId) (d : Desc) (st : Byte) (spc : Bool) (at_ : Nat) (advance : Bool) (bs : List Byte) : State :=
  let s1 := s.memWrite spc at_ (bs.map fun b => (b, false))
  let c := s.chan m ch
  let s2 := s1.modChan m ch fun c => { c with
    head := if advance then BitVec.ofNat 12 ((c.head.toNat + 1) % 2 ^ c.log2.toNat) else c.head, last := st }
  if c.signals d then { s2 with movSigs := s2.movSigs ++ [((m, ch), c.hedge, c.ept.toNat)] } else s2

/-- The status of the descriptor under way. -/
def State.writeStatus (s : State) (m : MovId) (ch : ChId) (d : Desc) (st : Byte) (nvst : BitVec 11) (halt : Bool) : State :=
  let c := s.chan m ch
  (s.putStatus m ch d st c.spc (c.descAt c.head.toNat) true (statusBytes d st nvst halt c.poison c.done c.diff)).modChan m ch
    fun c => { c.dropFlight with cur := none, issued := false, ended := none, stopAs := none, fault := none, flushing := false }

/-- A channel raises its interrupt. -/
def Mover.interrupt (v : Mover) (ch : ChId) : Mover := { v with intstat := v.intstat ||| BitVec.ofNat 64 (2 ^ ch.val) }

/-- CHAIN_KICK: a chain kick; one that a DISABLED, STOPPED or halted channel gets is dropped (12 R396). -/
def State.chainKick (s : State) (m : MovId) (ch : ChId) : State :=
  match (s.chan m ch).state with
  | .disabled => s.modMover m fun v => { v with evstat := v.evstat ||| 4 }
  | .stopped => s.modMover m fun v => { v with evstat := v.evstat ||| 4 }
  | .errHalt => s.modMover m fun v => { v with evstat := v.evstat ||| 4 }
  | _ => (s.modChan m ch Chan.kick).wakeFor m

/-- The channel goes on after a status: STOPPED, at the next descriptor, or IDLE after LAST (12 R398, R402). -/
def Chan.after (c : Chan) (d : Desc) (st : Byte) : Chan :=
  if st ≠ 0 ∨ c.aborting then { c with state := .stopped, aborting := false }
  else if d.last then (if c.kpend then { c with kpend := false, state := .active } else { c with state := .idle })
  else { c with state := .active }

/-- The completion of a descriptor in the order of R395. -/
def State.finish (s : State) (m : MovId) (ch : ChId) (d : Desc) (st : Byte) (nvst : BitVec 11) : State :=
  let ab := (s.chan m ch).aborting
  let s1 := (s.writeStatus m ch d st nvst false).modChan m ch fun c => c.after d st
  let s2 := if d.int || st ≠ 0 || ab then s1.modMover m fun v => v.interrupt ch else s1
  if d.chain && st = 0 then s2.chainKick m d.chn else s2

/-- A BARRIER to HOST waits for a zero-length read to the last address written (12 R395). -/
def Chan.mustFlush (c : Chan) (d : Desc) : Bool :=
  d.barrier && maSpace d.dst == 4 && d.op != 2 && !d.block && decide (0 < c.done) && !c.flushing

/-- DESCRIPTOR_COMPLETE: a descriptor that has ended completes: the zero-length read of a BARRIER goes out; once it has completed, with the next
of these, or at once without it, the status is written, and INT, SIG and CHAIN act (12 R395). -/
def execDescriptorComplete (m : MovId) (ch : ChId) (s : State) : Outcome State Fault Refusal :=
  let c := s.chan m ch
  .next (match c.cur, c.ended with
    | some d, some (st, nvst) =>
      if (s.mover m).errhalt then s
      else if c.mustFlush d then
        (s.setChan m ch { c with flushing := true }).emit (.read (maFn d.dst) (BitVec.ofNat 64 (bits d.dst 51 0 + c.done - 1)) 0)
      else (s.finish m ch d st nvst).moverGo m
    | _, _ => s)

/-- A block transfer that was in flight at a halt ends: its status is written (12 R410). -/
def State.endOrphan (s : State) (m : MovId) (ch : ChId) (o : Orphan) (st : Byte) (nvst : BitVec 11) (pz : Bool) : State :=
  (s.modChan m ch fun c => { c with orphan := none }).putStatus m ch o.d st o.spc o.at_ o.advance
    (statusBytes o.d st nvst false pz (if st = 0 || pz then 0 else o.d.len) none)

/-- NVME_COMPLETION: `st` is the NVMe status code type and status code; 0 is success (12 R394). -/
def execNvmeCompletion (m : MovId) (ch : ChId) (st : BitVec 11) (s : State) : Outcome State Fault Refusal :=
  let c := s.chan m ch
  .next (match c.orphan with
    | some o =>
      if st = 0 then
        let r := s.blockData o.d
        r.1.endOrphan m ch o (if r.2 then 0x04 else 0) 0 r.2
      else (s.unknownBlocks o.d).endOrphan m ch o 0x04 st false
    | none =>
      match c.cur with
      | some d =>
        if !c.issued || c.ended.isSome then s
        else if st = 0 then
          let r := s.blockData d
          (r.1.endBlock m ch (if r.2 then 0x04 else 0) 0 r.2 (if r.2 then 0 else d.len)).moverGo m
        else ((s.unknownBlocks d).endBlock m ch 0x04 st false 0).moverGo m
      | none => s)

/-! ### Timeouts, late completions, aborts and resumption (12 R402, R407 to R409) -/

/-- A completion timer that was started at a tick has expired: MOV_CTL.TMO milliseconds have gone by. -/
def State.expired (s : State) (m : MovId) (since : Nat) : Bool := decide (since + 1000 * (s.mover m).tmo.toNat ≤ s.aoTick.toNat)

/-- The bytes of a timed-out HOST read that are kept: up to the last 64-byte boundary received (12 R408). -/
def upTo64 (a : Word64) (off n : Nat) : Nat := (bits a 51 0 + off + n) / 64 * 64 - (bits a 51 0 + off)

/-- The storage port reports a completion timeout of an NVMe command, and aborts the command (12 R408, 16 Table 16-5, 18 R578). -/
def State.blockLate (s : State) (d : Desc) : State :=
  (s.report
    { tick := s.aoTick, cls := 0x0F, sev := 1, unit := unitCode 5 (maPort d.blockAddr), status := 0x03, cause := 0, hedge := none,
      addr := some d.blockAddr, slot := none, detail := bytesOfNat 4 (2 ^ aerTimeout) }).emit (.nvmeAbort (maPort d.blockAddr))

/-- The oldest HOST read of the channel that is in flight, with its place. -/
def Chan.hostOut (c : Chan) : Option (Nat × Burst) :=
  (c.flight.zipIdx.find? fun q => q.1.out && maSpace q.1.a == 4).map fun q => (q.2, q.1)

/-- The bytes of a COPY that are kept when a HOST read of it times out: those of the bursts before it, and the kept part of its own. -/
def State.keepLate (s : State) (m : MovId) (ch : ChId) (d : Desc) (b : Burst) (data : List Byte) : State :=
  let n := upTo64 b.a b.off (min data.length b.n)
  if d.op = 2 || b.off != (s.chan m ch).done then s
  else
    let r := if d.meets then s.muddled m d b.off n else (s, (data.take n).map fun x => (x, false))
    let w := State.writeRun m d n r.1 b.off r.2
    w.1.modChan m ch fun c => { c with done := c.done + w.2.1 }

/-- A HOST read of the channel is late: its descriptor ends TIMEOUT, unless its data was to be discarded; the port reports it (12 R408). -/
def State.lateRead (s : State) (m : MovId) (ch : ChId) (c : Chan) (data : List Byte) : State :=
  match c.hostOut with
  | some (i, b) =>
    if c.state = .paced || !s.expired m b.since then s
    else
      let s1 := s.aer (portOf (maFn b.a)) ((maFn b.a).val % 65) aerTimeout
      match b.stale, c.cur with
      | false, some d =>
        ((s1.keepLate m ch d b data).modChan m ch fun c => { c with flight := c.flight.filter (·.stale), ended := some (0x03, 0) }).moverGo m
      | _, _ => (s1.modChan m ch fun c => { c with flight := c.flight.eraseIdx i }).moverGo m
  | none => s

/-- MOVER_TIMEOUT: the completion timer of the channel's oldest HOST read, of which `data` has arrived, or of its NVMe command has expired
(12 R408). -/
def execMoverTimeout (m : MovId) (ch : ChId) (data : List Byte) (s : State) : Outcome State Fault Refusal :=
  let c := s.chan m ch
  .next (match c.orphan with
    | some o => if s.expired m o.since then ((s.unknownBlocks o.d).endOrphan m ch o 0x03 0 false).blockLate o.d else s
    | none =>
      match c.cur with
      | some d =>
        if d.block then
          if c.issued && c.ended.isNone && s.expired m c.since then (((s.unknownBlocks d).endBlock m ch 0x03 0 false 0).blockLate d).moverGo m else s
        else s.lateRead m ch c data
      | none => s.lateRead m ch c data)

/-- UNEXPECTED_COMPLETION: discarded, counted and recorded; a host port reports it (12 R409, 16 Table 16-9). -/
def execUnexpectedCompletion (m : MovId) (tag : BitVec 10) (bytes : BitVec 13) (s : State) : Outcome State Fault Refusal :=
  let s1 := s.modMover m fun v =>
    { v with unexp := satInc v.unexp, unexpTag := tag, unexpBytes := if 34 ≤ m.val then 0 else bytes, evstat := v.evstat ||| 2 }
  .next (if h : 32 ≤ m.val ∧ m.val < 34 then s1.aer ⟨m.val - 32, by omega⟩ 0 aerUnexpected else s1)

/-- ABORT_CHANNEL (12 R407): an ACTIVE channel completes what it has in flight; one that is PACED or PAGED ends at once. -/
def execAbortChannel (m : MovId) (ch : ChId) (s : State) : Outcome State Fault Refusal :=
  let c := s.chan m ch
  .next (if hwChan m ch || (s.mover m).errhalt then s
    else match c.state with
    | .idle => (s.modChan m ch fun c => { c with state := .stopped }).modMover m fun v => v.interrupt ch
    | .disabled => s
    | .stopped => s
    | .errHalt => s
    | _ =>
      match c.cur with
      | none => (s.modChan m ch fun c => { c with state := .stopped, aborting := false }).modMover m fun v => v.interrupt ch
      | some d =>
        let s1 := s.setChan m ch { c with aborting := true, stopAs := some (c.stopAs.getD 0x0C) }
        match c.ended with
        | some _ => s1
        | none =>
          if d.block && c.issued then s1
          else if d.block then s1.finish m ch d 0x0C 0
          else if c.state = .active then s1.moverGo m
          else (s1.finish m ch d (c.stopAs.getD 0x0C) 0).moverGo m)

/-- RESUME: STOPPED or ERR_HALT to ACTIVE at HEAD; a hardware channel of a system mover takes its work again, and the drain goes on (12 R402,
R411, R414). -/
def execResume (m : MovId) (ch : ChId) (s : State) : Outcome State Fault Refusal :=
  let c := s.chan m ch
  .next (if (s.mover m).errhalt || (decide (m.val < 32) && hwChan m ch) then s
    else if c.state = .stopped ∨ c.state = .errHalt then
      if hwChan m ch then State.issueDrain 8 (s.setChan m ch { c with state := .idle }) else s.setChan m ch { c with state := .active }
    else s)

/-- RESET_CHANNEL (12 Table 12-17): a status still to come of a halted block transfer advances HEAD no more. -/
def execResetChannel (m : MovId) (ch : ChId) (s : State) : Outcome State Fault Refusal :=
  let c := s.chan m ch
  .next (if hwChan m ch then s
    else if c.state = .idle ∨ c.state = .stopped ∨ c.state = .errHalt then
      s.setChan m ch { c with head := 0, kpend := false, state := .idle, orphan := c.orphan.map fun o => { o with advance := false } }
    else s)

/-! ### ERR_HALT (12 R410 to R412) -/

/-- The channels of a mover, in order. -/
def allChans : List ChId := List.finRange 64

/-- An engine channel's STAGE under way ends with RESIDUE (12 R412). -/
def State.haltStage (s : State) (m : MovId) (ch : ChId) : State :=
  if m.val < 32 ∧ ch.val < 8 then
    let e : EngId := ⟨(8 * m.val + ch.val) % 256, Nat.mod_lt _ (by decide)⟩
    match s.stageHead e with
    | some c => (s.unstage e c).arriveAt e c (.cell (cellErr 0x0C))
    | none => s
  else s

/-- The descriptor of a channel under way at a halt: a block transfer in flight goes on by itself, and every other one's status is written: the
one that had ended it already (00 R15), or RESIDUE (12 R410). -/
def State.haltDesc (s : State) (m : MovId) (ch : ChId) (d : Desc) : State :=
  let c := s.chan m ch
  match c.ended, c.stopAs.filter (· != 0x0C) with
  | some (st, nv), _ => if st = 0 ∧ !d.block then s.writeStatus m ch d 0x0C 0 true else s.writeStatus m ch d st nv false
  | none, some st => s.writeStatus m ch d st 0 false
  | none, none =>
    if d.block && c.issued then
      s.setChan m ch { c with cur := none, issued := false, stopAs := none, orphan := some ⟨d, c.spc, c.descAt c.head.toNat, true, c.since⟩ }
    else s.writeStatus m ch d 0x0C 0 true

/-- One channel of a mover enters ERR_HALT: what stands in its buffer is discarded, and what is in flight as it arrives. -/
def State.haltChan (s : State) (m : MovId) (ch : ChId) : State :=
  let s1 := match (s.chan m ch).cur with
    | some d => s.haltDesc m ch d
    | none => s.haltStage m ch
  s1.modChan m ch fun c => { c.dropFlight with state := .errHalt, aborting := false }

/-- The segments whose records, or partial records, are being written through a system mover. -/
def State.drainsOf (s : State) (m : MovId) : List Nat :=
  let via := fun (p : Option Nat) => p.any fun k => 34 + k / 8 == m.val
  (s.lehr.segs.filter fun g => !g.done && via g.port).map (·.seq) ++ (s.lehr.part.toList.filter fun p => via p.port).map (·.seq)

/-- MOV_ERRLOG1 (12 Table 12-12). -/
def Mover.errLog1 (v : Mover) : Nat :=
  v.errCause.toNat + 8 * v.errKind.toNat + match v.errCh with | some c => 32 + 64 * c.val | none => 0

/-- The MOVER record of firmware (16 Table 16-5). -/
def moverRecord (s : State) (m : MovId) : ErrRec :=
  { tick := s.aoTick, cls := 0x0A, sev := 1, unit := unitCode 3 m.val, status := 0, cause := (s.mover m).errCause.setWidth 8, hedge := none
    addr := some (s.mover m).errAddr, slot := none
    detail := bytesOfNat 8 (s.mover m).errAddr.toNat ++ bytesOfNat 8 (s.mover m).errLog1 }

/-- A bus error halts a mover; the first one of a halt is logged (12 R410), and firmware files it. The drain writes under way through SM2 or
SM3 have failed (R412). -/
def State.haltMover (s : State) (m : MovId) (cause : BitVec 3) (kind : BitVec 2) (ch : Option ChId) (addr : Word64) : State :=
  if (s.mover m).errhalt then s
  else
    let s1 := s.modMover m fun v =>
      { v with errhalt := true, evstat := v.evstat ||| 1, errAddr := addr, errCause := cause, errKind := kind, errCh := ch }
    let s2 := allChans.foldl (fun (t : State) n => t.haltChan m n) s1
    (s2.drainsOf m).foldl State.failDrain (s2.report (moverRecord s1 m))

/-- ERR_HALT: a bus error of a mover (12 R410). -/
def execErrHalt (m : MovId) (cause : BitVec 3) (kind : BitVec 2) (ch : Option ChId) (addr : Word64) (s : State) :
    Outcome State Fault Refusal :=
  .next (s.haltMover m cause kind ch addr)

/-- The SQ_FAULT event (13 Table 13-9). -/
def sqFaultEvent (q : Fn) (a : Word64) : Ev := { kind := 7, a := a, b := 0, c := q.sqHead.setWidth 32, d := 0 }

/-- Firmware restarts a system mover: a function whose submission read hit the bus error stays stopped (13 R422). -/
def State.sqFaults (s : State) (p : Nat) : State :=
  allFns.foldl
    (fun (t : State) f => match (t.fn f).sqFault with
      | some a =>
        if (portOf f).val = p then
          (t.modFn f fun q => { q with sqFault := none, sqerr := true }).postEvent f (sqFaultEvent (t.fn f) a)
        else t
      | none => t) s

/-- HALTCLR: with DRAINED = 1 it ends ERR_HALT; engine channels return to IDLE (12 R411). -/
def execHaltclr (m : MovId) (s : State) : Outcome State Fault Refusal :=
  let v := s.mover m
  .next (if v.errhalt && v.drained then
      let s1 := s.setMover m { v with errhalt := false, errAddr := 0, errCause := 0, errKind := 0, errCh := none }
      if m.val < 32 then (List.finRange 8).foldl
        (fun (t : State) n => t.modChan m ⟨n.val, by omega⟩ fun c => { c with state := .idle }) s1
      else if m.val < 34 then s1.sqFaults (m.val - 32) else s1
    else s)

/-! ### Pacing and configuration (12 R400, R415) -/

/-- WDRAW: the pacing request is withdrawn until the next period (12 R400). -/
def execWdraw (m : MovId) (t : TimerId) (s : State) : Outcome State Fault Refusal :=
  .next ((s.modMover m fun v => v.setPt t { v.pt t with left := 0, req := false }).moverGo m)

/-- PACING_PERIOD: at an ao-tick that is a multiple of PERIOD the request is asserted; channels PACED on the timer go on, and the
cluster wakes (12 R400, 20 Table 20-2). -/
def execPacingPeriod (m : MovId) (t : TimerId) (s : State) : Outcome State Fault Refusal :=
  let p := (s.mover m).pt t
  .next (if p.period = 0 ∨ s.aoTick.toNat % p.period.toNat ≠ 0 then s
    else
      let waits := (s.mover m).chans.any fun kc => kc.2.state == .paced && kc.2.cur.any fun d => d.ptmr == t
      let s1 := s.modMover m fun v => v.setPt t { p with left := p.quota, req := true }
      (if waits then s1.wakeFor m else s1).moverGo m)

/-- MOV_CHnBASE from its word; none where a field would leave its range. -/
def Chan.withBase (c : Chan) (v : Word64) : Option Chan :=
  if bits v 3 0 ≤ 12 ∧ bits v 37 5 % 2 ^ bits v 3 0 = 0 then
    some { c with log2 := BitVec.ofNat 4 (bits v 3 0), addr := BitVec.ofNat 33 (bits v 37 5), spc := bit v 40 }
  else none

/-- The fields of MOV_CHnCFG other than EN. -/
def Chan.withCfg (c : Chan) (v : Word64) : Option Chan :=
  if 1 ≤ bits v 8 4 ∧ bits v 8 4 ≤ 16 then
    some { c with
      prio := BitVec.ofNat 2 (bits v 2 1), maxb := BitVec.ofNat 5 (bits v 8 4), hedge := ⟨bits v 21 16 % 64, Nat.mod_lt _ (by decide)⟩
      sigv := bit v 22, ept := BitVec.ofNat 25 (bits v 56 32) }
  else none

/-- MOV_CHANNEL_CONFIG_WRITE: `cfg` = MOV_CHnCFG, else MOV_CHnBASE (12 R414, R415). -/
def execMovChannelConfigWrite (m : MovId) (ch : ChId) (cfg : Bool) (v : Word64) (s : State) : Outcome State Fault Refusal :=
  let c := s.chan m ch
  .next (if hwChan m ch then s
    else if !cfg then
      (match c.withBase v with
      | some c1 => if c.state = .disabled then s.setChan m ch c1 else s
      | none => s)
    else match c.withCfg v with
    | some c1 =>
      if c.state = .disabled then s.setChan m ch (if bit v 0 then { c1 with state := .idle, head := 0 } else c1)
      else if !(bit v 0) && (c.state == .idle || c.state == .stopped) then s.setChan m ch { c with state := .disabled }
      else s
    | none => s)

end Sys2Proof.Machine
end

