-- ==== Sys2Proof/Machine/Power.lean ====
section
/-! DEFINITION. Power states, operating points, heat, energy accounts and guarantees (14; 02 R54, R55; 18 R564; 20 Table 20-2). -/

namespace Sys2Proof.Machine

open Host (Outcome)

/-- The clusters. -/
def allClus : List CluId := List.finRange 32

/-- Hedges with an engine assigned in the cluster. -/
def State.cluHedges (s : State) (k : CluId) : List HedgeId :=
  ((List.finRange 8).filterMap fun w => let g := s.eng (engOf k w); if g.assigned then some g.hedge else none).eraseDups

/-- `n` engines of a list in as few clusters as they allow: those of the clusters `used` already first, then of the cluster that has most
of them (14 R461; log 6). -/
def warmPick (used : List CluId) : Nat → Nat → List EngId → List EngId
  | 0, _, _ => []
  | _, 0, _ => []
  | f + 1, n + 1, es =>
    match leastBy (fun k => if used.contains k then 0 else 9 - (es.filter fun e => cluOf e == k).length) (es.map cluOf) with
    | none => []
    | some k =>
      let g := (es.filter fun e => cluOf e == k).take (n + 1)
      g ++ warmPick used f (n + 1 - g.length) (es.filter fun e => cluOf e != k)

/-- The warm engines of a hedge: WARM of its assigned engines, ROLE FAST first, then GENERAL, in as few clusters as they allow (14 R461).
A floor above the effective minimum is held at it (02 R55). -/
def State.warmEngines (s : State) (h : HedgeId) : List EngId :=
  let es := s.hedgeEngines h
  let n := min (s.hedge h).par.warm (s.hedge h).effMin
  let fast := warmPick [] 32 n (es.filter fun e => (s.eng e).role == 0)
  fast ++ warmPick (fast.map cluOf) 32 (n - fast.length) (es.filter fun e => (s.eng e).role == 1)

/-- The cluster holds a warm engine (14 R462). -/
def State.cluWarm (s : State) (k : CluId) : Bool := (s.cluHedges k).any fun h => (s.warmEngines h).any fun e => cluOf e == k

/-! ### Operating points (14 R463, R464, R470, R473) -/

/-- The thermal limit (14 R466, R467). -/
def Clu.thermal (c : Clu) : Nat := if c.blind then 0 else c.tlim.toNat

/-- The brake's limit: BRAKEPT while asserted; afterwards one point more each 1 ms (14 R473). -/
def State.brakeCap (s : State) (c : Clu) : Nat :=
  if s.keeper.brake then s.regs.brakept.toNat
  else match c.brakeLim with
    | some (p, t) => min 4 (p + (s.aoTick.toNat - t) / 1000)
    | none => 4

/-- The highest point allowed now, without boost (14 R464, R479). -/
def State.unboosted (s : State) (k : CluId) : Nat :=
  let c := s.clu k
  min (min (min c.target.toNat c.thermal) (min (s.brakeCap c) c.pcap.toNat)) 3

/-- The conditions of R470 but the credit. -/
def State.mayBoost (s : State) (k : CluId) : Bool :=
  let c := s.clu k
  s.regs.boosten && c.boosten && c.target == 4 && !c.throt && !s.keeper.brake && decide (s.brakeCap c = 4) &&
    decide (s.regs.noBoost ≤ s.aoTick.toNat) && decide (s.regs.power.toNat + 128 ≤ s.regs.limit.toNat) && c.pcap == 4 &&
    c.thermal == 4 && (s.cluHedges k).all fun h => decide (0 < (s.hedge h).credit.toInt)

/-- Boost is entered at HBOOST and left at 0 or when a condition fails (14 R470). -/
def State.boosts (s : State) (k : CluId) : Bool :=
  let c := s.clu k
  s.mayBoost k && if c.boost then c.heat != 0 else decide (s.regs.hboost.toNat ≤ c.heat.toNat)

/-- The cluster takes the point that R464 gives: down at once, up by a request that POINT_UP_SWITCH completes, whose target a later
request replaces; in C2 to C4 the request waits for the wake. -/
def State.repoint (s : State) (k : CluId) : State :=
  let c := s.clu k
  let b := s.boosts k
  let p := if b then 4 else s.unboosted k
  if c.pst = .c2 ∨ c.pst = .c3 ∨ c.pst = .c4 then s.setClu k { c with boost := b }
  else if p < c.point.toNat then s.setClu k { c with boost := b, point := BitVec.ofNat 3 p, upTo := none }
  else if c.point.toNat < p then
    s.setClu k { c with boost := b, upTo := some (BitVec.ofNat 3 p, match c.upTo with | some q => q.2 | none => s.aoTick.toNat) }
  else s.setClu k { c with boost := b, upTo := none }

/-- Every cluster takes its point. -/
def State.repointAll (s : State) : State := allClus.foldl State.repoint s

/-- POINT_UP_SWITCH: CCLK switches 5 µs after the request (14 R464). -/
def execPointUpSwitch (n : CluId) (s : State) : Outcome State Fault Refusal :=
  let c := s.clu n
  .next (match c.upTo with
    | some (p, t) =>
      if c.pst = .c2 ∨ c.pst = .c3 ∨ c.pst = .c4 ∨ s.aoTick.toNat < t + 5 then s else s.setClu n { c with point := p, upTo := none }
    | none => s)

/-! ### Power states (14 R456 to R460) -/

/-- A context keeps the cluster out of C1: it runs, or has a request other than WAITEV outstanding (14 R458, 03 R73). -/
def Ctx.keepsAwake (c : Ctx) : Bool :=
  match c.state with
  | .free => false
  | .quarantined => false
  | .wait =>
    match c.wait with
    | some w => (match w.req with | .waitev .. => w.done.isSome || c.takable.isSome | _ => true)
    | none => true
  | _ => true

/-- No context of the engine keeps the cluster awake, no clear runs, and it gates its clock (03 R73). -/
def Engine.quiet (e : Engine) : Bool := e.idlegate && !e.clearing && e.ctxs.all fun kc => !kc.2.keepsAwake

/-- A channel of the cluster's mover is in one of the states named. -/
def State.cluChan (s : State) (k : CluId) (f : ChState → Bool) : Bool :=
  (s.mover (stageMover (engOf k 0))).chans.any fun kc => f kc.2.state

/-- The entry condition of C1 holds but for the 64 cy: a PACED or PAGED channel with no burst in flight counts as idle (14 Table 14-1, R458; 20
Table 20-2). -/
def State.cluQuiet (s : State) (k : CluId) : Bool :=
  (List.finRange 8).all (fun w => (s.eng (engOf k w)).quiet) && !s.cluChan k (· == .active) && (s.mover (stageMover (engOf k 0))).drained

/-- CLUSTER_C1_ENTRY: the condition has held for 64 cy (14 R456, R457). -/
def execClusterC1Entry (n : CluId) (s : State) : Outcome State Fault Refusal :=
  let c := s.clu n
  .next (if c.pst = .c0 ∧ !c.waking ∧ c.floor ≠ 0 ∧ s.cluQuiet n then s.setClu n { c with pst := .c1, since := s.aoTick.toNat } else s)

/-- No channel of the mover is ACTIVE, PACED or PAGED: what C2 and deeper ask (20 Table 20-2). -/
def State.moverIdle (s : State) (k : CluId) : Bool := !s.cluChan k fun t => t == .active || t == .paced || t == .paged

/-- CLUSTER_C2_ENTRY: in C1 with no resident context for T2 (14 Table 14-1, R462). -/
def execClusterC2Entry (n : CluId) (s : State) : Outcome State Fault Refusal :=
  let c := s.clu n
  .next (if c.pst = .c1 ∧ !c.waking ∧ 2 ≤ c.floor.toNat ∧ !s.cluResident n ∧ s.moverIdle n ∧ !s.cluWarm n ∧
      c.since + c.t2.toNat ≤ s.aoTick.toNat then
      s.setClu n { c with pst := .c2, since := s.aoTick.toNat }
    else s)

/-- CLUSTER_C3_ENTRY: in C2 for T3 (14 Table 14-1). -/
def execClusterC3Entry (n : CluId) (s : State) : Outcome State Fault Refusal :=
  let c := s.clu n
  .next (if c.pst = .c2 ∧ !c.waking ∧ 3 ≤ c.floor.toNat ∧ c.since + c.t3.toNat ≤ s.aoTick.toNat then
      s.setClu n { c with pst := .c3, since := s.aoTick.toNat }
    else s)

/-- An engine after C3: D-TLB, window, locals and loop buffer are invalid. -/
def Engine.leaveC3 (e : Engine) : Engine :=
  { e with dtlb := [], loop := none, ctxs := tmap Ctx.reset e.ctxs fun c => { c with locals := [], win := [] } }

/-- An engine after C4: scratch is lost, and CLEAN is clear (02 R49); ENG_ITLB stands in the retention island (14 R456). What the lost
storage reads as is the unlisted value (log 5). -/
def Engine.leaveC4 (e : Engine) : Engine :=
  { e.leaveC3 with scratch := [], marks := [], latent := [], sb := [], clean := false }

/-- What leaving a power state loses (14 Table 14-1). -/
def State.leave (s : State) (k : CluId) : State :=
  match (s.clu k).pst with
  | .c3 => (s.modCluEngines k Engine.leaveC3).modClu k fun c => { c with l2 := [], plru := [] }
  | .c4 => (s.modCluEngines k Engine.leaveC4).modClu k fun c => { c with l2 := [], plru := [], code := [] }
  | _ => s

/-- PWR_CCTLn with OFF = 1: C4, when no engine is assigned and no channel works (14 R459). -/
def State.offCluster (s : State) (k : CluId) : State :=
  let c := s.clu k
  if (s.cluHedges k).isEmpty && !s.cluResident k && s.moverIdle k && c.floor == 4 then
    s.setClu k { c with pst := .c4, since := s.aoTick.toNat, waking := false, upTo := none }
  else s

/-- CLUSTER_C4_ENTRY: FLOOR := 4 and OFF := 1 (14 R459). -/
def execClusterC4Entry (n : CluId) (s : State) : Outcome State Fault Refusal :=
  let s1 := s.modClu n fun c => { c with floor := 4 }
  let s2 := s1.offCluster n
  .next (if (s2.clu n).pst = .c4 then s2 else s)

/-- CLUSTER_WAKE: a wake source starts the cluster's wake (14 R455, R458). -/
def execClusterWake (n : CluId) (s : State) : Outcome State Fault Refusal :=
  let c := s.clu n
  .next (if c.pst = .c0 then s else s.setClu n { c with waking := true })

/-- The cluster is in C0; the messages held meanwhile are delivered in order (14 R458, R464). -/
def State.awake (s : State) (k : CluId) : State :=
  let ms := (s.clu k).held
  let s1 := (s.leave k).modClu k fun c => { c with pst := .c0, waking := false, held := [], since := s.aoTick.toNat }
  ms.foldl (fun (t : State) m => t.inbound m) (s1.repoint k)

/-- CLUSTER_WAKE_COMPLETE (14 R458). -/
def execClusterWakeComplete (n : CluId) (s : State) : Outcome State Fault Refusal :=
  .next (if (s.clu n).waking then s.awake n else s)

/-- A power state as its number. -/
def PState.code : PState → Nat
  | .c0 => 0 | .c1 => 1 | .c2 => 2 | .c3 => 3 | .c4 => 4

/-- A FLOOR shallower than the present state wakes the cluster to it at once (14 R457). -/
def State.toFloor (s : State) (k : CluId) : State :=
  let c := s.clu k
  if c.floor.toNat < c.pst.code then
    match c.floor.toNat with
    | 0 => s.awake k
    | 1 => ((s.leave k).modClu k fun c => { c with pst := .c1, since := s.aoTick.toNat }).repoint k
    | 2 => (s.leave k).modClu k fun c => { c with pst := .c2, since := s.aoTick.toNat }
    | _ => (s.leave k).modClu k fun c => { c with pst := .c3, since := s.aoTick.toNat }
  else s

/-- FLOOR as firmware holds it: at 1 or shallower while the cluster holds a warm engine, and back to what it was afterwards (14 R461). -/
def Clu.holdFloor (c : Clu) (warm : Bool) : Clu :=
  match c.warmHeld with
  | some f => if warm then c else { c with floor := f, warmHeld := none }
  | none => if warm && decide (1 < c.floor.toNat) then { c with floor := 1, warmHeld := some c.floor } else c

/-- An assignment, a role or a warm floor has changed: firmware holds the FLOORs that the warm engines ask for (14 R461, R483). -/
def State.holdFloors (s : State) : State :=
  allClus.foldl (fun (t : State) k => (t.modClu k fun c => c.holdFloor (t.cluWarm k)).toFloor k) s

/-- PWR_CCTL_WRITE (14 Table 14-6, R457, R459, R464). Firmware does not make a write of a deeper FLOOR than 1 for a cluster that holds a
warm engine (14 R461, R483; log 78). -/
def execPwrCctlWrite (r : Requester) (n : CluId) (v : Word64) (s : State) : Outcome State Fault Refusal :=
  .next (if !s.reaches r || (decide (1 < bits v 2 0) && s.cluWarm n) || decide (4 < bits v 2 0) || decide (4 < bits v 6 4) || bits v 31 16 == 0 || bits v 47 32 == 0 then s
    else
      let s1 := s.modClu n fun c =>
        { c with
          floor := v.extractLsb' 0 3, target := v.extractLsb' 4 3, boosten := bit v 7, t2 := v.extractLsb' 16 16, t3 := v.extractLsb' 32 16 }
      let s2 := if bit v 3 then s1.offCluster n else s1
      (s2.toFloor n).repoint n)

/-! ### Sensors and heat (14 R466 to R469) -/

/-- A quiesce as on PWR_FAIL_N: the sequencer draws nothing and the controller starts no write (11 R370). -/
def State.quiesce (s : State) : State :=
  { s with lehr := { s.lehr with quiesced := true }, keeper := { s.keeper with failLatched := true, failAt := s.aoTick.toNat } }

/-- TMP_SENSk: TEMP and VALID. -/
def State.sensor (s : State) (k : Nat) : BitVec 11 × Bool := tget (0, false) s.regs.sens k

/-- T_n in quarter-degrees: the higher of the two valid sensors (14 R466). -/
def State.temp (s : State) (k : CluId) : Option Int :=
  let a := s.sensor (2 * k.val)
  let b := s.sensor (2 * k.val + 1)
  match a.2, b.2 with
  | true, true => some (max a.1.toInt b.1.toInt)
  | true, false => some a.1.toInt
  | false, true => some b.1.toInt
  | false, false => none

/-- A lower thermal limit. -/
def Clu.cooler (c : Clu) : Clu := { c with tlim := if c.tlim = 0 then 0 else c.tlim - 1 }

/-- Table 14-3 at a sample of temperature `t`. -/
def Clu.atTemp (c : Clu) (t : Int) (tick : Nat) : Clu :=
  let c1 := if 380 ≤ t then
      (if c.hotAt.isNone then { c.cooler with hotAt := some tick, throt := true } else { c with throt := true })
    else { c with hotAt := none }
  let c2 := if 412 ≤ t then { c1 with tlim := 0 } else c1
  { c2 with coolAt := if t < 372 then (match c2.coolAt with | some x => some x | none => some tick) else none }

/-- H after a sample (14 R469). -/
def Clu.heated (c : Clu) (tcool : Nat) (t : Int) : Clu :=
  { c with sampled := true, heat := BitVec.ofNat 12 (min 4095 (max 0 ((c.heat.toNat : Int) + tcool - t)).toNat) }

/-- The SENSOR record (16 Table 16-5). -/
def sensorRecord (s : State) (k : CluId) : ErrRec :=
  { tick := s.aoTick, cls := 0x10, sev := 1, unit := unitCode 1 k.val, status := 0, cause := 0, hedge := none, addr := none, slot := none,
    detail := [BitVec.ofNat 8 (2 * k.val), BitVec.ofNat 8 (2 * k.val + 1)] }

/-- TEMP_SAMPLE: sensor `k` reads `t` in quarter-degrees, or fails its self-check; the credit follows at the cluster's second sensor
(14 R466 to R469; log 6). THERMAL_TRIP is within. -/
def execTempSample (k : SensorId) (t : BitVec 11) (valid : Bool) (s : State) : Outcome State Fault Refusal :=
  let n : CluId := ⟨k.val / 2, by have := k.isLt; omega⟩
  let s1 := { s with regs := { s.regs with sens := tset (0, false) s.regs.sens k.val (t, valid) } }
  let s2 := match s1.temp n with
    | some x => s1.modClu n fun c =>
        let c1 := { c.atTemp x s.aoTick.toNat with blind := false }
        if k.val % 2 = 1 then c1.heated s.regs.tcool.toNat x else c1
    | none =>
      if (k.val % 2 = 0 && !(s.clu n).sampled) || (s.clu n).blind then s1
      else (s1.modClu n fun c => { c with blind := true }).report (sensorRecord s n)
  let s3 := s2.repoint n
  .next (if valid && decide (420 ≤ t.toInt) then
      (State.quiesce { s3 with keeper := { s3.keeper with thermtrip := true } })
    else s3)

/-- THERMAL_STEP_DOWN: 100 µs more at or above 95 degrees (14 Table 14-3). -/
def execThermalStepDown (n : CluId) (s : State) : Outcome State Fault Refusal :=
  let c := s.clu n
  .next (match c.hotAt with
    | some t =>
      if t + 100 ≤ s.aoTick.toNat then (s.setClu n { c.cooler with hotAt := some s.aoTick.toNat }).repoint n else s
    | none => s)

/-- THERMAL_STEP_UP: 1 ms more below 93 degrees (14 Table 14-3). -/
def execThermalStepUp (n : CluId) (s : State) : Outcome State Fault Refusal :=
  let c := s.clu n
  .next (match c.coolAt with
    | some t =>
      if t + 1000 ≤ s.aoTick.toNat then
        let l := min 4 (c.tlim.toNat + 1)
        (s.setClu n { c with tlim := BitVec.ofNat 3 l, coolAt := some s.aoTick.toNat, throt := if l = 4 then false else c.throt }).repoint n
      else s
    | none => s)

/-! ### The power controller and energy credit (14 R471 to R475) -/

/-- The least energy credit among the hedges of a cluster; one without hedges ranks after the others (log 6). -/
def State.cluCredit (s : State) (k : CluId) : Int := (s.cluHedges k).foldl (fun m h => min m (s.hedge h).credit.toInt) (2 ^ 31)

/-- The rank in which clusters are lowered: boosted, then ordinary, then those that hold a critical hedge's engines (14 R474). -/
def State.rank (s : State) (k : CluId) : Nat :=
  if (s.clu k).boost then 0 else if (s.cluHedges k).any fun h => (s.hedge h).par.critical then 2 else 1

/-- Insert a cluster in the order of lowering. -/
def State.insertClu (s : State) (k : CluId) : List CluId → List CluId
  | [] => [k]
  | j :: t =>
    if s.rank k < s.rank j || (s.rank k == s.rank j && decide (s.cluCredit k < s.cluCredit j)) then k :: j :: t else j :: s.insertClu k t

/-- The clusters in the order of lowering, the lowest-numbered first among equals. -/
def State.lowering (s : State) : List CluId := allClus.foldl (fun l k => s.insertClu k l) []

/-- The power controller lowers a cluster one point. -/
def State.lower (s : State) (k : CluId) : State :=
  s.modClu k fun c => { c with pcap := BitVec.ofNat 3 (min c.pcap.toNat c.point.toNat - 1) }

/-- The power controller raises a cluster one point. -/
def State.raise (s : State) (k : CluId) : State := s.modClu k fun c => { c with pcap := BitVec.ofNat 3 (min 4 (c.pcap.toNat + 1)) }

/-- The meter and the regulators after a window (14 R471). -/
def State.metered (s : State) (w : Nat) (energy : List (CluId × Nat)) : State :=
  let p := BitVec.ofNat 12 (min 4095 w)
  let s1 := { s with regs := { s.regs with
    power := p, peak := if s.regs.peak.toNat < p.toNat then p else s.regs.peak
    under := if w + 128 ≤ s.regs.limit.toNat then s.regs.under + 1 else 0 } }
  let s2 := allClus.foldl (fun (t : State) k => t.modClu k fun c => { c with lastEnergy := 0 }) s1
  energy.foldl (fun (t : State) q => t.modClu q.1 fun c => { c with energy := c.energy + BitVec.ofNat 32 q.2, lastEnergy := c.lastEnergy + q.2 }) s2

/-- POWER_CONTROL: a window of 100 ao-ticks ends, with mean power `w` in 0.125 W and the energy of each cluster in µJ (14 R471, R474). -/
def execPowerControl (w : Nat) (energy : List (CluId × Nat)) (s : State) : Outcome State Fault Refusal :=
  let s1 := s.metered w energy
  let can := fun (k : CluId) => (s1.clu k).pst != .c4 && decide (0 < min (s1.clu k).pcap.toNat (s1.clu k).point.toNat)
  let s2 :=
    if 3040 < w then (allClus.filter can).foldl State.lower s1
    else if s.regs.limit.toNat < w then ((s1.lowering.filter can).take 4).foldl State.lower s1
    else if 10 ≤ s1.regs.under then
      (match (s1.lowering.reverse.find? fun k => decide ((s1.clu k).pcap.toNat < 4)) with
        | some k => s1.raise k
        | none => s1)
    else s1
  .next s2.repointAll

/-- A fraction in whole µJ: the rounding is firmware's (log 7). -/
def roundMicro (n : Int) (d : Nat) : Int :=
  if d = 0 then 0 else n / d + if n % d ≠ 0 ∧ Config.roundsUp n d then 1 else 0

/-- Engines of the cluster assigned to a hedge. -/
def State.cluShare (s : State) (k : CluId) (h : HedgeId) : Nat :=
  ((List.finRange 8).filter fun w => (s.eng (engOf k w)).assigned && (s.eng (engOf k w)).hedge == h).length

/-- The energy of the window that a hedge is charged for; `issue` gives the issue cycles by cluster and hedge (14 R472). -/
def State.spent (s : State) (issue : List (CluId × HedgeId × Nat)) (h : HedgeId) : Int :=
  allClus.foldl
    (fun a k =>
      let qs := issue.filter fun q => q.1 == k
      let all := (qs.map fun q => q.2.2).sum
      let own := ((qs.filter fun q => q.2.1 == h).map fun q => q.2.2).sum
      let e : Int := (s.clu k).lastEnergy
      a + if all = 0 then roundMicro (e * s.cluShare k h) 8 else roundMicro (e * own) all) 0

/-- A hedge's credit after a window in which `avail` µJ x 2 were left over (14 R472). -/
def State.settled (s : State) (issue : List (CluId × HedgeId × Nat)) (avail : Int) (emins : Nat) (h : HedgeId) : State :=
  let g := s.hedge h
  let acc := roundMicro (avail * g.par.emin) (2 * emins)
  let cap := 100 * acc
  let e := g.credit.toInt + acc - s.spent issue h
  s.setHedge h { g with credit := BitVec.ofInt 32 (min cap (max (-cap) e)) }

/-- ENERGY_SETTLE: firmware settles every open hedge's credit for the window that POWER_CONTROL has metered (14 R472). P_avail is
12.5 µJ per 0.125 W of the window, and the clusters' own energy. -/
def execEnergySettle (issue : List (CluId × HedgeId × Nat)) (s : State) : Outcome State Fault Refusal :=
  let clus : Int := (allClus.map fun k => ((s.clu k).lastEnergy : Int)).foldl (· + ·) 0
  let avail : Int := ((s.regs.limit.toNat : Int) - s.regs.power.toNat) * 25 + 2 * clus
  let emins := (s.openHedges.map fun h => (s.hedge h).par.emin).sum
  .next (s.openHedges.foldl (fun (t : State) h => t.settled issue avail emins h) s).repointAll

/-! ### Capacity and guarantees (14 R478 to R481, 02 R55) -/

/-- CCLK at a point in 0.1 GHz (14 Table 14-2). -/
def cclk (p : Nat) : Nat := 8 + 4 * p

/-- The sum of phi_clk's numerator in 0.1 GHz (14 R479). -/
def State.clocks (s : State) : Nat :=
  (allClus.map fun k => if (s.clu k).pst = .c4 ∨ (s.clu k).removed then 0 else cclk (s.unboosted k)).sum

/-- Rate of a memory stop in thirty-seconds of the nominal (16 R526). -/
def State.stopRate (s : State) (k : Nat) : Nat := tget 32 s.rates k

/-- L_b in 1/256 of nominal (14 R479). -/
def State.liveHbm (s : State) : Nat := 8 * (List.range 8).foldl (fun m k => min m (s.stopRate k)) 32

/-- e_h of R480 with L = `ln` / `ld`, S and K. -/
def effective (g : Nat) (critical : Bool) (sum crit ln ld : Nat) : Nat :=
  if sum * ld ≤ ln then g
  else if crit * ld ≤ ln then (if critical then g else g * (ln - crit * ld) / (ld * (sum - crit)))
  else if critical then g * ln / (ld * crit) else 0

/-- A rise waits for ten consecutive evaluations that yield at least the new value; a fall takes effect at once (14 R480). -/
def rising (cur new : Nat) (r : Nat × Nat) : Nat × (Nat × Nat) :=
  if new ≤ cur then (new, (0, 0))
  else
    let least := if r.1 = 0 then new else min r.2 new
    if 10 ≤ r.1 + 1 then (least, (0, 0)) else (cur, (r.1 + 1, least))

/-- A rise that the next evaluation lets take effect: of a hedge just opened or changed (14 R480). -/
abbrev riseNow : Nat × Nat := (9, 2 ^ 64)

/-- The GUARANTEE event (13 Table 13-9). -/
def guaranteeEvent (g : Hedge) : Ev :=
  { kind := 5, a := BitVec.ofNat 64 (1000 * g.ecommit.toNat), b := 0, c := g.ehbm.setWidth 32, d := BitVec.ofNat 64 (g.effMin % 65536) }

/-- A change is told: the GUARANTEE event and the level-5 NOTICE (14 R481, 02 R55). -/
def State.tellGuarantee (s : State) (h : HedgeId) : State :=
  (s.hedgeEvent h (guaranteeEvent (s.hedge h))).notify h 4 ((s.hedge h).ecommit.setWidth 32)

/-- One hedge's effective guarantees at an evaluation. -/
def State.evalHedge (s : State) (h : HedgeId) : State :=
  let hs := s.openHedges
  let sum := fun (f : Hedge → Nat) => (hs.map fun i => f (s.hedge i)).sum
  let crit := fun (f : Hedge → Nat) => ((hs.filter fun i => (s.hedge i).par.critical).map fun i => f (s.hedge i)).sum
  let g := s.hedge h
  let c := rising g.ecommit.toNat
    (effective g.par.gcommit g.par.critical (sum fun x => x.par.gcommit) (crit fun x => x.par.gcommit) (625 * s.clocks) 2) g.gRise
  let b := rising g.ehbm.toNat
    (effective g.par.ghbm g.par.critical (sum fun x => x.par.ghbm) (crit fun x => x.par.ghbm) s.liveHbm 1) g.hRise
  s.setHedge h { g with ecommit := BitVec.ofNat 18 c.1, gRise := c.2, ehbm := BitVec.ofNat 8 b.1, hRise := b.2 }

/-- CAPACITY_EVAL: every 1 ms firmware computes live capacity and the effective guarantees (14 R479 to R481). -/
def execCapacityEval (s : State) : Outcome State Fault Refusal :=
  let s1 := s.openHedges.foldl State.evalHedge s
  .next (s.openHedges.foldl
    (fun (t : State) h =>
      if (s.hedge h).ecommit = (s1.hedge h).ecommit ∧ (s.hedge h).ehbm = (s1.hedge h).ehbm then t else t.tellGuarantee h) s1)

/-- Engines in service (02 R55). -/
def State.inService (s : State) : Nat := 8 * (allClus.filter fun k => !(s.clu k).removed).length

/-- Effective minimums before a hedge left with 0 gets an engine (02 R55). -/
def State.minsOf (s : State) : List (HedgeId × Nat) :=
  let hs := s.openHedges
  let sum := (hs.map fun h => (s.hedge h).par.emin).sum
  let crit := ((hs.filter fun h => (s.hedge h).par.critical).map fun h => (s.hedge h).par.emin).sum
  hs.map fun h => (h, effective (s.hedge h).par.emin (s.hedge h).par.critical sum crit s.inService 1)

/-- The non-critical hedge with the largest effective minimum, the lowest-numbered among equals. -/
def State.largestMin (s : State) (ms : List (HedgeId × Nat)) : Option (HedgeId × Nat) :=
  ms.foldl
    (fun m q => if (s.hedge q.1).par.critical then m
      else match m with
        | some b => if b.2 < q.2 then some q else m
        | none => some q) none

/-- Each hedge left with 0 receives one engine of the largest. DESIGN CHOICE: where no non-critical hedge has more than 1, of which R55
says nothing, it stays at 0 (log 56). -/
def State.fillZero (s : State) : Nat → List (HedgeId × Nat) → List (HedgeId × Nat)
  | 0, ms => ms
  | f + 1, ms =>
    match ms.find? fun q => q.2 == 0, s.largestMin ms with
    | some z, some b =>
      if b.2 ≤ 1 then ms
      else s.fillZero f (ms.map fun q => if q.1 = z.1 then (q.1, 1) else if q.1 = b.1 then (q.1, b.2 - 1) else q)
    | _, _ => ms

/-- The effective minimums of an evaluation. -/
def State.effMins (s : State) : List (HedgeId × Nat) :=
  if s.openHedges.length ≤ s.inService then s.fillZero 64 s.minsOf else s.minsOf

/-- EFFECTIVE_MIN_EVAL (02 R55). -/
def execEffectiveMinEval (s : State) : Outcome State Fault Refusal :=
  let s1 := s.effMins.foldl
    (fun (t : State) q => t.modHedge q.1 fun g => let r := rising g.effMin q.2 g.effRise; { g with effMin := r.1, effRise := r.2 }) s
  .next (s.openHedges.foldl
    (fun (t : State) h => if (s.hedge h).effMin = (s1.hedge h).effMin then t else t.tellGuarantee h) s1.holdFloors)

/-! ### Pins of the supply (14 R473, 18 R564) -/

/-- PWR_BRAKE_ASSERT: every point is at most BRAKEPT and no cluster boosts (14 R473). -/
def execPwrBrakeAssert (s : State) : Outcome State Fault Refusal :=
  .next (State.repointAll { s with keeper := { s.keeper with brake := true } })

/-- PWR_BRAKE_RELEASE: each cluster rises from its point by one every 1 ms (14 R473). -/
def execPwrBrakeRelease (s : State) : Outcome State Fault Refusal :=
  .next (if s.keeper.brake then
      (allClus.foldl (fun (t : State) k => t.modClu k fun c => { c with brakeLim := some (c.point.toNat, s.aoTick.toNat) })
        { s with keeper := { s.keeper with brake := false } }).repointAll
    else s)

/-- The CONTROL record of a supply event or the keeper (16 Table 16-5). -/
def controlRecord (s : State) (sev cause thread : Byte) : ErrRec :=
  { tick := s.aoTick, cls := 0x11, sev := sev, unit := unitCode 9 0, status := 0, cause := cause, hedge := none, addr := none, slot := none,
    detail := [thread] }

/-- The set-point of VDD_CORE in mV: 700, or 10 above the highest cluster voltage of Table 14-2 in use or requested (18 R564). -/
def State.vcoreSet (s : State) : Nat :=
  let top := ((allClus.map s.clu).filter fun c => c.pst != .c4).foldl (fun m c => max m (max c.point.toNat ((c.upTo.map (·.1.toNat)).getD 0))) 0
  ([700, 700, 730, 790, 850] : List Nat).getD top 850

/-- VCORE_UNDERVOLT: clusters above point 3 go to point 3, and boost is blocked for 100 ms (18 R564). -/
def execVcoreUndervolt (s : State) : Outcome State Fault Refusal :=
  .next ((State.repointAll { s with regs := { s.regs with noBoost := s.aoTick.toNat + 100000 } }).report (controlRecord s 0 0 0))

end Sys2Proof.Machine
end

