-- ==== Sys2Proof/Machine/HostRings.lean ====
section
/-! DEFINITION. The rings of the host functions: doorbells, enabling and disabling, resets, configuration writes, and the posting of
completions (13 R416 to R425, R440, R604; 14 R476; 18 R575; 19 R599). -/

namespace Sys2Proof.Machine

open Host (Outcome)

/-! ### Target selection at the doorbell (14 R476) -/

/-- The heat band of a cluster: 0 cool, 1 warm, 2 hot; a hot cluster is no other; 0 before the first sample (14 R469, Table 14-7). -/
def Clu.band (c : Clu) (hboost : Nat) : Nat :=
  if !c.sampled then 0 else if c.heat = 0 ∨ c.throt then 2 else if hboost ≤ c.heat.toNat then 0 else 1

/-- Fabric hops from a host stop to a cluster (01 R22). -/
def hops (p : PortId) (k : CluId) : Nat :=
  let col := 7 * p.val
  (k.val % 8 - col) + (col - k.val % 8) + k.val / 8 + 1

/-- Contexts reserved at doorbells: for entries not yet read, and for commands not yet carried out. -/
def State.reserved (s : State) : List (EngId × CtxId) :=
  s.fns.flatMap fun kv => kv.2.targets.filterMap id ++ kv.2.cur.filterMap (·.target)

/-- The lowest-numbered FREE context of an engine that is not reserved (log 6). -/
def State.freeTarget (s : State) (e : EngId) : Option CtxId :=
  (List.finRange 32).find? fun n => ((s.eng e).ctx n).state == .free && !s.reserved.contains (e, n)

/-- The engines of a hedge in clusters above C4 that a condition allows. -/
def State.engines? (s : State) (h : HedgeId) (ok : EngId → Bool) : List EngId :=
  (s.hedgeEngines h).filter fun e => (s.clu (cluOf e)).pst != .c4 && ok e

/-- The hedge's FAST engines that have a FREE context. -/
def State.fastTargets (s : State) (h : HedgeId) : List (EngId × CtxId) :=
  (s.engines? h fun e => (s.eng e).role == 0).filterMap fun e => (s.freeTarget e).map fun n => (e, n)

/-- The key of R476 for a cluster: power state, heat band, hops, and the place after the last one chosen. -/
def State.targetKey (s : State) (p : PortId) (h : HedgeId) (k : CluId) : Nat :=
  let c := s.clu k
  (((c.pst.code * 4 + c.band s.regs.hboost.toNat) * 32 + hops p k) * 32) + (k.val + 31 - (s.hedge h).lastClu.val) % 32

/-- The best of the candidates by the key of R476: the cluster of least key, and in it the engine next after the last one chosen there;
of several contexts of one engine the first listed (14 R476, R477). -/
def State.bestTarget (s : State) (p : PortId) (h : HedgeId) (cs : List (EngId × CtxId)) : Option (EngId × CtxId) :=
  (leastBy (s.targetKey p h) (allClus.filter fun k => cs.any fun q => cluOf q.1 == k)).bind fun k =>
    leastBy (fun (q : EngId × CtxId) => (q.1.val % 8 + 7 - tget 7 (s.hedge h).lastEng k.val) % 8) (cs.filter fun q => cluOf q.1 == k)

/-- The choice is noted for the hedge's round robin. -/
def State.noteTarget (s : State) (h : HedgeId) (e : EngId) : State :=
  let k := cluOf e
  s.modHedge h fun g => { g with lastClu := k, lastEng := tset 7 g.lastEng k.val (e.val % 8) }

/-- The dispatcher's choice (14 R476): its engine and context, noted for the hedge, with the early wake sent. -/
def State.chooseTarget (s : State) (f : FnId) (h : HedgeId) : Option (EngId × CtxId) × State :=
  match s.bestTarget (portOf f) h (s.fastTargets h) with
  | none => (none, s)
  | some q => (some q, (s.noteTarget h q.1).wakeClu (cluOf q.1))

/-- The choices for `n` entries that a doorbell makes visible: each reserves its context before the next is made. DESIGN CHOICE: the spec
does not say how many choices one doorbell makes; the model makes one for each entry (log 59). -/
def State.chooseTargets (s : State) (f : FnId) (h : HedgeId) : Nat → State
  | 0 => s
  | n + 1 =>
    let r := s.chooseTarget f h
    (r.2.modFn f fun q => { q with targets := q.targets ++ [r.1] }).chooseTargets f h n

/-! ### Doorbells (13 R421, R425; 02 R39) -/

/-- A register write is dropped and counted for the function and its port (02 R39, 13 R417, R421; 19 Table 19-3). -/
def State.dropWrite (s : State) (f : FnId) : State :=
  (s.modFn f fun q => { q with drops := satInc q.drops }).setPort (portOf f)
    { s.port (portOf f) with drop := satInc (s.port (portOf f)).drop }

/-- The DOORBELL event for a value out of range (13 Table 13-9). -/
def doorbellEvent (which : Nat) (v : Word64) : Ev := { kind := 6, a := 0, b := 0, c := BitVec.ofNat 32 which, d := v }

/-- The doorbell registers take writes: the rings are READY and the function is in D0 (13 R421, 18 R575). -/
def Fn.open? (q : Fn) : Bool := q.state == .ready && !q.d3

/-- The completion and event doorbells take writes also while a migration drains the rings. -/
def Fn.openOut (q : Fn) : Bool := q.posting && !q.d3

/-- A write of DHP_SQDB: the front end chooses a target for every entry that it makes visible (13 R421, 14 R476; log 59). -/
def State.sqBell (s : State) (f : FnId) (v : Word64) : State :=
  let q := s.fn f
  if !q.open? then s.dropWrite f
  else if 2 ^ q.sqLog2.toNat ≤ bits v 15 0 then s.postEvent f (doorbellEvent 0 v)
  else
    let s1 := s.setFn f { q with sqTail := v.extractLsb' 0 16 }
    match q.hedge with
    | some h => s1.chooseTargets f h ((bits v 15 0 + 2 ^ q.sqLog2.toNat - q.sqTail.toNat) % 2 ^ q.sqLog2.toNat)
    | none => s1

/-- SQ_DOORBELL. -/
def execSqDoorbell (f : FnId) (v : Word64) (s : State) : Outcome State Fault Refusal := .next (s.sqBell f v)

/-- A write of DHP_CQDB (13 R421). -/
def State.cqBell (s : State) (f : FnId) (v : Word64) : State :=
  let q := s.fn f
  if !q.openOut then s.dropWrite f
  else if 2 ^ q.cqLog2.toNat ≤ bits v 15 0 then s.postEvent f (doorbellEvent 1 v)
  else s.setFn f { q with cqHead := v.extractLsb' 0 16 }

/-- CQ_DOORBELL. -/
def execCqDoorbell (f : FnId) (v : Word64) (s : State) : Outcome State Fault Refusal := .next (s.cqBell f v)

/-- EVENTS_LOST: the first event once space frees says how many were dropped (13 R425). -/
def State.eventsLost (s : State) (f : FnId) : State :=
  let q := s.fn f
  if q.evDropped = 0 ∨ !q.eqRoom then s
  else (s.setFn f { q with evDropped := 0 }).writeEvent f { kind := 4, a := 0, b := 0, c := q.evDropped, d := 0 }

/-- A write of DHP_EQDB (13 R421, R425). -/
def State.eqBell (s : State) (f : FnId) (v : Word64) : State :=
  let q := s.fn f
  if !q.openOut then s.dropWrite f
  else if 2 ^ q.eqLog2.toNat ≤ bits v 11 0 then s.postEvent f (doorbellEvent 2 v)
  else (s.setFn f { q with eqHead := v.extractLsb' 0 12 }).eventsLost f

/-- EQ_DOORBELL. -/
def execEqDoorbell (f : FnId) (v : Word64) (s : State) : Outcome State Fault Refusal := .next (s.eqBell f v)

/-- START_BLOCK_DISCARD: what is left of a holder's block is discarded (10 R313). -/
def execStartBlockDiscard (b : Fin 3) (s : State) : Outcome State Fault Refusal :=
  .next { s with startBlk := tset (0, 0) s.startBlk b.val (0, 0) }

/-! ### Enabling (13 R418) -/

/-- The rings lie below 2^64, and no base is 0. -/
def Fn.basesOk (q : Fn) : Bool :=
  q.sqBase != 0 && q.cqBase != 0 && q.eqBase != 0 &&
    decide (q.sqBase.toNat * 4096 + 64 * 2 ^ q.sqLog2.toNat ≤ 2 ^ 64) &&
    decide (q.cqBase.toNat * 4096 + 32 * 2 ^ q.cqLog2.toNat ≤ 2 ^ 64) &&
    decide (q.eqBase.toNat * 4096 + 32 * 2 ^ q.eqLog2.toNat ≤ 2 ^ 64)

/-- The rings as EN := 1 leaves them. -/
def Fn.enabled (q : Fn) : Fn :=
  { q with
    en := true, cfgerr := false, sqHead := 0, expHsn := q.hsn0, sqTail := 0, cqHead := 0, eqHead := 0, cqTail := 0, eqTail := 0
    cqPhase := true, eqPhase := true, cqSince := 0, cqDue := none, reread := none, targets := [] }

/-- The first event after a suspect ring is READY again is CQ_SUSPECT (13 R440). -/
def State.suspectFirst (s : State) (f : FnId) : State :=
  match (s.fn f).suspect with
  | some v => (s.modFn f fun q => { q with suspect := none }).writeEvent f v
  | none => s

/-- A hedge's completion history begins with the first HSN after it was lost (13 R444, R445). -/
def State.startHistory (s : State) (f : FnId) : State :=
  match (s.fn f).hedge with
  | some h => s.modHedge h fun g => if g.history.isEmpty && g.dropped.isNone then { g with dropped := some ((s.fn f).hsn0 - 1) } else g
  | none => s

/-- A hedge that opened under degraded pairing hears of it once its rings are READY (17 R547). -/
def State.tellPair (s : State) (f : FnId) : State :=
  match (s.fn f).hedge with
  | some h => if (s.hedge h).pairTell then (s.modHedge h fun g => { g with pairTell := false }).postEvent f
      { kind := 2, a := s.lehr.localFirst, b := BitVec.allOnes 64, c := 0, d := 0 } else s
  | none => s

/-- EN := 1 (13 R418); the events after CQ_SUSPECT begin with the count of those dropped before (R425). -/
def State.enable (s : State) (f : FnId) : State :=
  let q := s.fn f
  if q.d3 || q.en then s
  else if q.state = .down ∧ q.basesOk ∧ !(isPf f && s.keeper.bootFail) then
    if isPf f && (s.devstat == 0 || s.devstat == 1) then s.setFn f { q.enabled with opening := true }
    else ((((s.setFn f { q.enabled with state := .ready }).startHistory f).suspectFirst f).eventsLost f).tellPair f
  else s.setFn f { q with cfgerr := true }

/-- RING_ENABLE. -/
def execRingEnable (f : FnId) (s : State) : Outcome State Fault Refusal := .next (s.enable f)

/-! ### Disabling and resets (02 R40; 13 R419, R440; 18 R575; 19 R599) -/

/-- A command that had been taken up ends: its slot ends ABORTED, or its completion is formed so. -/
def State.dropCmd (s : State) (f : FnId) (c : Cmd) : State :=
  match c.slot with
  | some n => s.endTxn n 0x01 0
  | none => s.answer f (cmdHsn c.bytes) 0x01 0 0

/-- A slot of a hedge whose rings run down: it ends ABORTED rather than wounded, and restarts no more (02 R40). -/
def Slot.aborted (sl : Slot) : Slot :=
  if sl.state = .restarting then { sl with state := .ending, status := 0x01 }
  else { sl with fate := if sl.fate = some 0x02 then some 0x01 else some (sl.fate.getD 0x01) }

/-- A transaction that has drawn no GCS is aborted (02 R40). -/
def State.abortSlot (s : State) (n : SlotId) : State :=
  if (s.slot n).endable then
    let s1 := s.modSlot n Slot.aborted
    match s1.holder n with
    | some (e, c) => s1.stopCtx e c 0x01
    | none => s1.endTxn n 0x01 0
  else if (s.slot n).state = .restarting then s.modSlot n Slot.aborted
  else s

/-- A VF's rings run down as R40 states: no completion or event waits any more, and STATE becomes DOWN once no slot is live. -/
def State.drainVf (s : State) (f : FnId) (st : HState) : State :=
  let q := s.fn f
  let s1 := s.setFn f { q with state := st, en := false, cur := [], waiting := [], reread := none, targets := [], migPost := false }
  let s2 := (q.waiting.filterMap (·.slot)).foldl State.idleSlot s1
  let s3 := q.cur.foldl (fun (t : State) c => t.dropCmd f c) s2
  match q.hedge with
  | some h => ((s3.liveSlots h).foldl State.abortSlot s3).drained f
  | none => s3.drained f

/-- The definition of a hedge goes to the configuration store (17 R551). -/
def State.keepDef (s : State) (h : HedgeId) : State :=
  let g := s.hedge h
  let d : Option HedgeDef := g.fn.map fun f => { fn := f, par := g.par, progs := g.progs, super := g.super, tables := g.tables }
  { s with store := tset none s.store h.val d }

/-- The oldest awaited change of a hedge's registered programs takes effect: its completion has been posted, or is discarded (13 R432,
R451). -/
def State.tableChange (s : State) (h : HedgeId) : State :=
  match (s.hedge h).awaited with
  | (n, p) :: t => (s.modHedge h fun g => { g with progs := tset none g.progs n p, awaited := t }).keepDef h
  | [] => s

/-- The admin ring is DOWN at once; commands that still run post nothing, and what they change stands (13 R419). -/
def State.downPf (s : State) (f : FnId) : State :=
  let ws := (s.fn f).waiting
  (ws.filterMap (·.table)).foldl State.tableChange (s.modFn f fun q =>
    { q with state := .down, en := false, opening := false, waiting := [], reread := none, cur := q.cur.map fun c => { c with mute := true } })

/-- EN := 0 (13 R419). -/
def State.disable (s : State) (f : FnId) : State :=
  let q := s.fn f
  if isPf f then s.downPf f else if q.posting then s.drainVf f .draining else s

/-- RING_DISABLE (13 R419). -/
def execRingDisable (f : FnId) (s : State) : Outcome State Fault Refusal := .next (s.disable f)

/-- A reset of one function: as EN := 0, and its registers return to their reset values when STATE is DOWN (19 R599). -/
def State.resetFn (s : State) (f : FnId) : State :=
  if (s.fn f).posting ∧ !isPf f then (s.modFn f fun q => { q with flr := true }).disable f
  else if (s.fn f).state = .draining then s.modFn f fun q => { q with flr := true }
  else (s.disable f).modFn f Fn.regReset

/-- FUNCTION_LEVEL_RESET (02 R40, 13 R419, 19 R599). -/
def execFunctionLevelReset (f : FnId) (s : State) : Outcome State Fault Refusal := .next (s.resetFn f)

/-- The least and greatest of a list. -/
def boundsOf : List Nat → Option (Nat × Nat)
  | [] => none
  | a :: t => match boundsOf t with
    | some (l, h) => some (min a l, max a h)
    | none => some (a, a)

/-- The CQ_SUSPECT event for the writes of the last 1 ms; `x` stands for an HSN when none of them is a completion (13 Table 13-9; log
2). -/
def suspectEvent (ws : List Sent) (x : BitVec 32) : Ev :=
  let cs := ws.filter fun w => !w.event
  let g := (boundsOf (cs.filterMap fun w => w.gcs.map (·.toNat))).getD (0, 0)
  let n := (boundsOf (cs.map fun w => w.hsn.toNat)).getD (x.toNat, x.toNat)
  { kind := 3, a := BitVec.ofNat 64 g.1, b := BitVec.ofNat 64 g.2, c := BitVec.ofNat 32 n.1, d := BitVec.ofNat 64 n.2 }

/-- ERR_PHLOGp takes the oldest such write, unless it holds one (16 Table 16-10). -/
def HPort.log (p : HPort) (f : FnId) (w : Sent) : HPort :=
  if p.logV then p
  else { p with logAddr := w.addr, logFn := BitVec.ofNat 7 (f.val % 65), logV := true, logEvt := w.event, logHsn := w.hsn }

/-- The oldest recent write of a port's functions. -/
def State.oldestSent (s : State) (p : PortId) : Option (FnId × Sent) :=
  allFns.foldl
    (fun m f => if portOf f ≠ p then m
      else match ((s.fn f).recent s.aoTick).head?, m with
        | some w, some (g, v) => if w.tick.toNat < v.tick.toNat then some (f, w) else some (g, v)
        | some w, none => some (f, w)
        | none, m => m) none

/-- CQ_SUSPECT_MARK: a bound function's rings are suspect (13 R419, R440). -/
def State.markSuspect (s : State) (f : FnId) : State :=
  let q := s.fn f
  if q.hedge.isNone || isPf f then s
  else
    { s.setFn f { q with cqsus := true, eqsus := true, suspect := some (suspectEvent (q.recent s.aoTick) (Config.freeValue 32 s.free)) } with
      free := s.free + 1 }

/-- A host port leaves L0: its log, the suspect rings, and every function's rings run down (13 R419, R440; 19 R599). -/
def State.resetPort (s : State) (p : PortId) : State :=
  let fs := allFns.filter fun f => portOf f == p
  let s1 := match s.oldestSent p with
    | some (f, w) => s.setPort p ((s.port p).log f w)
    | none => s
  let s2 := fs.foldl State.markSuspect s1
  let s3 := fs.foldl State.resetFn s2
  s3.setPort p { s3.port p with l0 := false }

/-- HOST_PORT_RESET: Conventional Reset or DL_Down (13 R419, R440; 19 R599). -/
def execHostPortReset (p : PortId) (s : State) : Outcome State Fault Refusal := .next (s.resetPort p)

/-- D3HOT_ENTRY: as EN := 0 (18 R575). -/
def execD3hotEntry (f : FnId) (s : State) : Outcome State Fault Refusal := .next ((s.disable f).modFn f fun q => { q with d3 := true })

/-- D0_RETURN: the configuration stays and the rings are DOWN (18 R575). -/
def execD0Return (f : FnId) (s : State) : Outcome State Fault Refusal := .next (s.modFn f fun q => { q with d3 := false })

/-- SQRESTART := 1 (13 R422). -/
def State.sqRestart (s : State) (f : FnId) : State := s.modFn f fun q => { q with sqerr := false }

/-- SQRESTART. -/
def execSqrestart (f : FnId) (s : State) : Outcome State Fault Refusal := .next (s.sqRestart f)

/-! ### Configuration registers (13 R417, R604) -/

/-- The fields of DHP_RINGCFG are in range. -/
def ringCfgOk (v : Word64) : Bool :=
  decide (4 ≤ bits v 4 0) && decide (bits v 4 0 ≤ 16) && decide (4 ≤ bits v 12 8) && decide (bits v 12 8 ≤ 16) &&
    decide (4 ≤ bits v 20 16) && decide (bits v 20 16 ≤ 12)

/-- A configuration register takes a 64-bit value. -/
def Fn.configWrite (q : Fn) (off : Nat) (v : Word64) : Fn :=
  match off with
  | 0x110 => if q.en then q else { q with sqBase := v.extractLsb' 12 52 }
  | 0x118 => if q.en then q else { q with cqBase := v.extractLsb' 12 52 }
  | 0x120 => if q.en then q else { q with eqBase := v.extractLsb' 12 52 }
  | 0x128 =>
    if q.en || !ringCfgOk v then q
    else { q with sqLog2 := v.extractLsb' 0 5, cqLog2 := v.extractLsb' 8 5, eqLog2 := v.extractLsb' 16 5 }
  | 0x130 => { q with intCnt := if bits v 7 0 = 0 then 1 else v.extractLsb' 0 8, intTime := v.extractLsb' 16 16 }
  | _ => q

/-- Offset of the MSI-X table in BAR0; the pending-bit array stands 0x1000 above it (13 Table 13-1). -/
def msixBase (f : FnId) : Nat := if isPf f then 0x8000 else 0x2000

/-- The 8 bytes of a table entry at 0 or 8: the address, or the data and the vector control. -/
def Msix.word (x : Msix) (at_ : Nat) : Word64 := if at_ = 0 then x.addr else BitVec.ofNat 64 (x.data.toNat + 2 ^ 32 * b2n x.mask)

/-- A write of a table entry, as PCI Express allows it: 4 or 8 bytes at an aligned place. -/
def Msix.write (x : Msix) (at_ len : Nat) (v : Word64) : Msix :=
  if len = 8 then
    if at_ = 0 then { x with addr := v } else { x with data := v.extractLsb' 0 32, mask := bit v 32 }
  else if at_ = 0 then { x with addr := BitVec.ofNat 64 (x.addr.toNat / 2 ^ 32 * 2 ^ 32 + bits v 31 0) }
  else if at_ = 4 then { x with addr := BitVec.ofNat 64 (x.addr.toNat % 2 ^ 32 + 2 ^ 32 * bits v 31 0) }
  else if at_ = 8 then { x with data := v.extractLsb' 0 32 }
  else { x with mask := bit v 0 }

/-- A vector that is no longer masked sends the message that is pending. -/
def State.unmask (s : State) (f : FnId) (v : Bool) : State :=
  let q := s.fn f
  if v then (if q.vec1.pend && !q.vec1.mask then (s.setFn f { q with vec1 := { q.vec1 with pend := false } }).emit (.msix f true) else s)
  else if q.vec0.pend && !q.vec0.mask then (s.setFn f { q with vec0 := { q.vec0 with pend := false } }).emit (.msix f false) else s

/-- A write of the MSI-X table at `at_` from its start. -/
def State.msixWrite (s : State) (f : FnId) (at_ len : Nat) (v : Word64) : State :=
  if at_ < 16 then (s.modFn f fun q => { q with vec0 := q.vec0.write at_ len v }).unmask f false
  else (s.modFn f fun q => { q with vec1 := q.vec1.write (at_ - 16) len v }).unmask f true

/-- A read of the 8 bytes of BAR0 at `off` (13 Tables 13-1 to 13-5); the PF alone has DHP_DEVSTAT and DHP_SERIAL, and an unassigned offset
reads 0 (13 R417). Reads change nothing, and no row of the opcode table stands for one. -/
def State.barRead (s : State) (f : FnId) (off : Nat) : Word64 :=
  let q := s.fn f
  match off with
  | 0x000 => q.sqTail.setWidth 64
  | 0x008 => q.cqHead.setWidth 64
  | 0x010 => q.eqHead.setWidth 64
  | 0x100 =>
    BitVec.ofNat 64 (q.state.code + 2 ^ 8 * b2n q.cqsus + 2 ^ 9 * b2n q.eqsus + 2 ^ 10 * b2n q.sqerr + 2 ^ 11 * b2n q.cfgerr +
      2 ^ 12 * b2n s.lehr.high + 2 ^ 13 * b2n s.lehr.pairdeg + 2 ^ 16 * q.sqHead.toNat + 2 ^ 32 * q.expHsn.toNat)
  | 0x108 => BitVec.ofNat 64 (b2n q.en + 2 ^ 32 * q.hsn0.toNat)
  | 0x110 => BitVec.ofNat 64 (2 ^ 12 * q.sqBase.toNat)
  | 0x118 => BitVec.ofNat 64 (2 ^ 12 * q.cqBase.toNat)
  | 0x120 => BitVec.ofNat 64 (2 ^ 12 * q.eqBase.toNat)
  | 0x128 => BitVec.ofNat 64 (q.sqLog2.toNat + 2 ^ 8 * q.cqLog2.toNat + 2 ^ 16 * q.eqLog2.toNat)
  | 0x130 => BitVec.ofNat 64 (q.intCnt.toNat + 2 ^ 16 * q.intTime.toNat)
  | 0x200 => BitVec.ofNat 64 (0x10040102 + 2 ^ 32 * (q.hedge.elim 0 (·.val)))
  | 0x1000 => if isPf f then s.devstat.setWidth 64 else 0
  | 0x1008 => if isPf f then Config.serial else 0
  | off =>
    let at_ := off - msixBase f
    if off < msixBase f then 0
    else if at_ = 0x1000 then BitVec.ofNat 64 (b2n q.vec0.pend + 2 * b2n q.vec1.pend)
    else if at_ < 32 then (if at_ / 16 = 0 then q.vec0 else q.vec1).word (at_ % 16)
    else 0

/-- A write of DHP_CTL: HSN0 while EN = 0, then SQRESTART, then EN (13 Table 13-4, R604). -/
def State.ctlWrite (s : State) (f : FnId) (v : Word64) : State :=
  let en := (s.fn f).en
  let s1 := if en then s else s.modFn f fun q => { q with hsn0 := v.extractLsb' 32 32 }
  let s2 := if bit v 1 then s1.sqRestart f else s1
  if bit v 0 then s2.enable f else if en then s2.disable f else s2

/-- A write of the 64-bit register at `off`: one to an offset that no register has is dropped and counted (13 R417). -/
def State.barWrite (s : State) (f : FnId) (off : Nat) (v : Word64) : State :=
  match off with
  | 0x000 => s.sqBell f v
  | 0x008 => s.cqBell f v
  | 0x010 => s.eqBell f v
  | 0x108 => s.ctlWrite f v
  | 0x100 => s
  | 0x200 => s
  | 0x1000 => if isPf f then s else s.dropWrite f
  | 0x1008 => if isPf f then s else s.dropWrite f
  | off => if [0x110, 0x118, 0x120, 0x128, 0x130].contains off then s.modFn f fun q => q.configWrite off v else s.dropWrite f

/-- An 8-byte piece of BAR0 that a register has. -/
def barHas (f : FnId) (off : Nat) : Bool :=
  [0x000, 0x008, 0x010, 0x100, 0x108, 0x110, 0x118, 0x120, 0x128, 0x130, 0x200].contains off || (isPf f && (off == 0x1000 || off == 0x1008))

/-- DHP_CONFIG_WRITE: `len` bytes at `off` of BAR0. A 4-byte write to the low half of a register has an upper half of zero; one to the upper
half is ignored; the MSI-X table takes both, and its pending bits none; another access is dropped (13 R416, R417). -/
def execDhpConfigWrite (f : FnId) (off len : Nat) (v : Word64) (s : State) : Outcome State Fault Refusal :=
  .next (if (s.fn f).d3 then s
    else if !(len == 4 || len == 8) || off % len != 0 then s.dropWrite f
    else if msixBase f ≤ off ∧ off < msixBase f + 32 then s.msixWrite f (off - msixBase f) len v
    else if off / 8 * 8 = msixBase f + 0x1000 then s
    else if len = 8 then s.barWrite f off v
    else if off % 8 = 0 then s.barWrite f off (BitVec.ofNat 64 (bits v 31 0))
    else if barHas f (off - 4) then s
    else s.dropWrite f)

/-! ### Posting (13 R420, R423, R424, R427; 11 R380) -/

/-- The GCS of a carried completion as it is posted: the hedge's highest, or GLB_GCSDRAWN on the admin ring (13 R427, R446). -/
def State.carried (s : State) (f : FnId) : Word64 :=
  match (s.fn f).hedge with
  | some h => (s.hedge h).gcsPosted
  | none => s.lehr.drawn

/-- The function after a completion is written at the tail. -/
def Fn.wroteCompl (q : Fn) (tick : Word64) (c : Compl) : Fn :=
  let t := (q.cqTail.toNat + 1) % 2 ^ q.cqLog2.toNat
  let full := decide (q.intCnt.toNat ≤ q.cqSince + 1)
  { q with
    cqTail := BitVec.ofNat 16 t, cqPhase := if t = 0 then !q.cqPhase else q.cqPhase
    cqSince := if full then 0 else q.cqSince + 1, cqDue := if q.cqSince ≠ 0 then q.cqDue else if q.intTime = 0 then none else some (tick.toNat + q.intTime.toNat)
    waiting := q.waiting.erase c
    cqsus := q.cqsus && !c.resync, eqsus := q.eqsus && !c.resync
    sent := q.recent tick ++
      [⟨tick, false, if c.gk = .own then some c.gcs else none, c.hsn, BitVec.ofNat 64 (q.cqBase.toNat * 4096 + 32 * q.cqTail.toNat)⟩] }

/-- What posting a completion changes for its hedge: the highest GCS posted, and when its token was posted (13 R427, R438). -/
def Hedge.posted (g : Hedge) (tick : Word64) (c : Compl) : Hedge :=
  { g with
    gcsPosted := if c.gk = .own ∧ g.gcsPosted.toNat < c.gcs.toNat then c.gcs else g.gcsPosted
    tokens := if c.cont then g.tokens.map fun t => if t.value = c.detail ∧ t.posted.isNone then { t with posted := some tick.toNat } else t
      else g.tokens }

/-- Post one completion. -/
def State.postCompl (s : State) (f : FnId) (c : Compl) : State :=
  let q := s.fn f
  let d := if c.gk = .carried then { c with gcs := s.carried f } else c
  let s1 := (s.emit (.host f (BitVec.ofNat 64 (q.cqBase.toNat * 4096 + 32 * q.cqTail.toNat)) (d.bytes q.cqPhase) false)).setFn f
    (q.wroteCompl s.aoTick c)
  let s2 := if q.intCnt.toNat ≤ q.cqSince + 1 then s1.sendMsix f false else s1
  let s3 := match q.hedge with
    | some h => s2.modHedge h fun g => g.posted s.aoTick c
    | none => s2
  let s4 : State := if s3.lehr.pairdeg ∧ c.gk = .own ∧ s3.lehr.localLast.toNat < c.gcs.toNat then { s3 with lehr := { s3.lehr with localLast := c.gcs } } else s3
  let s5 := match c.table with
    | some h => s4.tableChange h
    | none => s4
  match c.slot with
  | some n => s5.idleSlot n
  | none => s5

/-- A RESYNC has been taken up and runs: the hedge's other completions wait (13 R444). -/
def Fn.resyncing (q : Fn) : Bool := q.cur.any fun c => fieldOf c.bytes 0 1 == 0x06

/-- COMPLETION_POST: the first completion that may be posted, while the ring has a free entry (13 R423, R427). -/
def execCompletionPost (f : FnId) (s : State) : Outcome State Fault Refusal :=
  let q := s.fn f
  .next (if q.posting ∧ q.cqRoom ∧ !q.resyncing then
      match q.waiting.find? fun c => s.postable f c with
      | some c => s.postCompl f c
      | none => s
    else s)

/-- VECTOR0_TIMER: TIME µs after the first completion since the last message (13 R424). -/
def execVector0Timer (f : FnId) (s : State) : Outcome State Fault Refusal :=
  let q := s.fn f
  .next (if q.cqSince ≠ 0 ∧ q.cqDue.any (· ≤ s.aoTick.toNat) then (s.setFn f { q with cqSince := 0 }).sendMsix f false else s)

end Sys2Proof.Machine
end

