-- ==== Sys2Proof/Machine/HostCommands.lean ====
section
/-! DEFINITION. The submission ring and the commands of a hedge that are not long operations: reading and admission, RUN, READ, SIGNAL,
EPSET, MAP and RESYNC (13 R422, R426 to R436, R444; 10 R312, R313). -/

namespace Sys2Proof.Machine

open Host (Outcome)

/-! ### The command's form (13 R426, R429 step 1) -/

/-- OPC. -/
def cmdOp (b : List Byte) : Nat := fieldOf b 0 1
/-- CFLAGS. -/
def cmdFlags (b : List Byte) : Nat := fieldOf b 1 1
/-- PROG. -/
def cmdProg (b : List Byte) : Nat := fieldOf b 2 2
/-- PARAM. -/
def cmdParam (b : List Byte) : Word64 := BitVec.ofNat 64 (fieldOf b 8 8)
/-- SGL, EP, FENCE and REPOST. -/
def cmdSgl (b : List Byte) : Bool := cmdFlags b % 2 == 1
def cmdEp (b : List Byte) : Bool := cmdFlags b / 2 % 2 == 1
def cmdFence (b : List Byte) : Bool := cmdFlags b / 4 % 2 == 1
def cmdRepost (b : List Byte) : Bool := cmdFlags b / 8 % 2 == 1

/-- Only the flags of `mask` are set. -/
def flagsIn (b : List Byte) (mask : Nat) : Bool := cmdFlags b &&& mask == cmdFlags b

/-- A hedge's command: its opcode is defined, its flags are allowed, and every unused byte is 0 (13 Table 13-10). A token's command
ignores its cells (R438). -/
def shapeOk (b : List Byte) : Bool :=
  let p0 := cmdProg b == 0
  let a0 := cmdParam b == 0
  match cmdOp b with
  | 0x01 => flagsIn b 5 && (!cmdSgl b || zeroFrom b 26 6)
  | 0x02 => flagsIn b 6 && p0 && (!cmdEp b || zeroFrom b 20 12) && zeroFrom b 44 20
  | 0x03 => flagsIn b 4 && p0 && zeroFrom b 12 4 && zeroFrom b 16 48
  | 0x04 => flagsIn b 4 && p0 && a0 && fieldOf b 20 1 / 8 == 0 && zeroFrom b 21 11
  | 0x05 => flagsIn b 4 && p0 && a0 && zeroFrom b 22 2 && fieldOf b 32 1 / 64 % 2 == 0 && zeroFrom b 34 30
  | 0x06 => flagsIn b 8 && p0 && zeroFrom b 16 48
  | 0x10 => flagsIn b 4 && p0 && (!a0 || (zeroFrom b 24 8 && zeroFrom b 44 20))
  | 0x11 => flagsIn b 4 && (!a0 || zeroFrom b 28 36)
  | 0x12 => flagsIn b 4 && p0 && (!a0 || zeroFrom b 16 48)
  | 0x13 => flagsIn b 4 && p0 && (!a0 || (zeroFrom b 22 2 && zeroFrom b 32 32))
  | _ => false

/-- An admin command's form (13 Table 13-13). -/
def adminShapeOk (b : List Byte) : Bool :=
  flagsIn b 0 && cmdProg b == 0 && cmdParam b == 0 && zeroFrom b 44 20 &&
    match cmdOp b with
    | 0x81 => zeroFrom b 16 16
    | 0x82 => zeroFrom b 19 13
    | 0x83 => zeroFrom b 17 15
    | 0x84 => zeroFrom b 17 27
    | 0x85 => zeroFrom b 17 15
    | 0x86 => zeroFrom b 17 1 && zeroFrom b 20 24
    | 0x87 => zeroFrom b 17 15
    | 0x88 => zeroFrom b 17 15
    | 0x89 => zeroFrom b 16 16
    | _ => false

/-! ### Argument cells (13 R430, Table 13-11) -/

/-- A REF as a host passes it: AKEY and BOUND are 0 (09 R278). -/
def hostRef (w : Bool) (bs : List Byte) : Cell :=
  let p := natOfBytes bs
  { ty := tyREF, sub := if w then 1 else 0, p := false, g := false, pay := BitVec.ofNat 128 (p - p / 2 ^ 48 % 32 * 2 ^ 48) }

/-- A REF of an endpoint's record. -/
def endpointRef (d : Endpoint) : Cell :=
  { ty := tyREF, sub := if d.rw then 1 else 0, p := false, g := false, pay := BitVec.ofNat 128 (d.addr.toNat + 2 ^ 64 * d.len.toNat) }

/-- The endpoint of an index, defined and inside the hedge's range. -/
def State.defined? (s : State) (h : HedgeId) (i : Nat) : Option Endpoint :=
  if s.inRange h i && (s.endpoint h i).v then some (s.endpoint h i) else none

/-- The cell that code `k` delivers from 16 bytes, or the status that refuses it. -/
def State.argCell (s : State) (h : HedgeId) (k : Nat) (bs : List Byte) : Except Byte Cell :=
  let lo := natOfBytes (bs.take 8)
  let hi0 := zeroFrom bs 8 8
  let plain := fun (ty : BitVec 4) (v : Payload) => ({ ty := ty, sub := 0, p := false, g := false, pay := v } : Cell)
  match k with
  | 0 => if hi0 then .ok (cellInt (BitVec.ofNat 64 lo).toInt) else .error 0x07
  | 1 => .ok (plain tyDEC (payOfBytes bs.reverse))
  | 2 => if hi0 then .ok (plain tyFLT (BitVec.ofNat 128 lo)) else .error 0x07
  | 3 => if refOk (hostRef false bs) then .ok (hostRef false bs) else .error 0x07
  | 4 => if refOk (hostRef true bs) then .ok (hostRef true bs) else .error 0x07
  | 5 =>
    if !zeroFrom bs 4 12 then .error 0x07
    else match s.defined? h (fieldOf bs 0 4) with
      | some d => .ok (endpointRef d)
      | none => .error 0x05
  | 6 => if hi0 then .ok (plain tyTIME (BitVec.ofNat 128 lo)) else .error 0x07
  | _ => if zeroFrom bs 0 16 then .ok Cell.nil else .error 0x07

/-- Cells 1 to 3 under the codes of a template, in order. -/
def State.argCells (s : State) (h : HedgeId) : List (Nat × List Byte) → Except Byte (List Cell)
  | [] => .ok []
  | q :: t =>
    match s.argCell h q.1 q.2 with
    | .error e => .error e
    | .ok c =>
      match s.argCells h t with
      | .error e => .error e
      | .ok cs => .ok (c :: cs)

/-- Cell 0: the header as an INT. -/
def headerCell (b : List Byte) : Cell := { ty := tyINT, sub := 0, p := false, g := false, pay := payOfBytes (b.take 16) }

/-- 16 bytes of a command or block. -/
def cellBytes (b : List Byte) (i : Nat) : List Byte := (b.drop (16 * i)).take 16

/-- The argument cells of a 64-byte command; with SGL cell 1 comes with the data (13 R430, R431). -/
def State.runArgs (s : State) (h : HedgeId) (p : Prog) (b : List Byte) : Except Byte (List Cell) :=
  let k := fun i => bits p.tmpl (4 * i + 3) (4 * i)
  let first : Except Byte (List Cell) :=
    if cmdSgl b then
      if fieldOf b 16 8 % 16 = 0 ∧ 1 ≤ fieldOf b 24 2 ∧ fieldOf b 24 2 ≤ 256 then .ok [cellInt 0] else .error 0x07
    else s.argCells h [(k 0, cellBytes b 1)]
  match first with
  | .error e => .error e
  | .ok c1 =>
    match s.argCells h [(k 1, cellBytes b 2), (k 2, cellBytes b 3)] with
    | .error e => .error e
    | .ok cs => .ok (headerCell b :: c1 ++ cs)

/-- The transaction program that a command names. -/
def Hedge.prog (g : Hedge) (n : Nat) : Option Prog := (tget none g.progs n).bind fun p => if p.super then none else some p

/-! ### Reading and admission (13 R422, R423, R429, R433; 10 R312, R313) -/

/-- Below its cap a hedge has a slot to draw: without one the front end stops reading its ring until a slot frees (10 R312; log 28). -/
def State.slotsLeft (s : State) (h : HedgeId) : Bool := s.slotRoom h != .stall && s.idleSlotNo.isSome

/-- The front end of a port may read: its mover is not halted, and one of its hardware channels has been resumed (12 R411, R412). -/
def State.frontOpen (s : State) (p : PortId) : Bool :=
  let m : MovId := ⟨32 + p.val, by have := p.isLt; omega⟩
  !(s.mover m).errhalt && (List.range 16).any fun n => (s.chan m ⟨n % 64, Nat.mod_lt _ (by decide)⟩).state != .errHalt

/-- The front end may read a function's next entry. -/
def State.readable (s : State) (f : FnId) : Bool :=
  let q := s.fn f
  q.open? && q.hedge.all s.slotsLeft && !q.migStop && !q.sqerr && q.sqFault.isNone && q.sqHead != q.sqTail && decide ((q.waiting.filter fun c => c.slot.isNone).length < 256) &&
    s.frontOpen (portOf f)

/-- The class of a hedge's ring: 0 while its commits of the present 10 µs window lie below its effective commit-rate guarantee, else 1 (14
R477). -/
def State.ringClass (s : State) (h : HedgeId) : Nat := if 100 * (s.hedge h).inWindow s.aoTick < (s.hedge h).ecommit.toNat then 0 else 1

/-- The rings of a port's hedges in a class that have an entry to read. -/
def State.ringsIn (s : State) (p : PortId) (k : Nat) : List FnId :=
  allFns.filter fun f => portOf f == p && !isPf f && s.readable f && (s.fn f).reread.isNone && (s.fn f).hedge.any fun h => s.ringClass h == k

/-- The next in round robin after function `last`. -/
def nextAfter (last : Nat) (fs : List FnId) : Option FnId := leastBy (fun (f : FnId) => (f.val + 129 - last) % 130) fs

/-- The ring that a port's front end reads next: of the first class that has one, round-robin within the class (14 R477). -/
def State.nextRing (s : State) (p : PortId) : Option FnId :=
  (nextAfter (s.port p).turns.1 (s.ringsIn p 0)).or (nextAfter (s.port p).turns.2 (s.ringsIn p 1))

/-- The front end reads the function's next entry now; the admin ring stands outside the classes (14 R477; log 60). -/
def State.mayRead (s : State) (f : FnId) : Bool :=
  s.readable f && (s.fn f).reread.isNone && (isPf f || s.nextRing (portOf f) == some f)

/-- The turn passes on. -/
def State.turned (s : State) (f : FnId) : State :=
  match (s.fn f).hedge with
  | some h =>
    let q := s.port (portOf f)
    s.setPort (portOf f) { q with turns := if s.ringClass h = 0 then (f.val, q.turns.2) else (q.turns.1, f.val) }
  | none => s

/-- An entry is consumed, and what the doorbell reserved for it is released (13 R422, 14 R476). -/
def State.consume (s : State) (f : FnId) : State :=
  s.modFn f fun q =>
    { q with
      sqHead := BitVec.ofNat 16 ((q.sqHead.toNat + 1) % 2 ^ q.sqLog2.toNat), expHsn := q.expHsn + 1, reread := none, targets := q.targets.drop 1 }

/-- A command is taken up: firmware or the dispatcher has it to carry out; `target` is the context reserved for it. -/
def State.accept (s : State) (f : FnId) (b : List Byte) (start : Word64) (slot : Option SlotId) (target : Option (EngId × CtxId) := none) : State :=
  s.modFn f fun q => { q with cur := q.cur ++ [{ bytes := b, start := start, slot := slot, target := target, waits := none, mute := false }] }

/-- A RUN goes on the fast path: its program is registered with FAST = 1, and it has neither SGL nor FENCE (13 R432). -/
def Prog.fastRun (p : Prog) (b : List Byte) : Bool := p.fast && !cmdSgl b && !cmdFence b

/-- A slot is drawn for a command, with the program that it runs and its argument cells (10 R312, R314). -/
def State.admitSlot (s : State) (n : SlotId) (h : HedgeId) (b : List Byte) (start : Word64) (p : Option Prog) (args : List Cell) (w : Work) : State :=
  (s.setSlot n { Slot.reset with
    state := .admitted, hedge := h, retry := p.elim 0 (·.retry), start := start, cmd := b, prog := p, args := args, work := w }).modHedge h Hedge.stir

/-- A RUN whose HSN has matched: its checks, then a slot; without a free one the entry stays in the ring (13 R429, R430; 10 R312). -/
def State.takeRun (s : State) (f : FnId) (h : HedgeId) (b : List Byte) : State :=
  let r := s.drawStart (portOf f).val
  let no := fun (st : Byte) => (r.2.consume f).answer f (cmdHsn b) st 0 0
  match (s.hedge h).prog (cmdProg b) with
  | none => no 0x05
  | some p =>
    match s.runArgs h p b with
    | .error e => no e
    | .ok args =>
      match s.slotRoom h, s.idleSlotNo with
      | .capped, _ => no 0x0B
      | .ok, some n => ((r.2.consume f).admitSlot n h b r.1 (some p) args .run).accept f b r.1 (some n)
          (if p.fastRun b then (s.fn f).targets.head?.join else none)
      | _, _ => s

/-! ### Tokens (13 R438) -/

/-- A token is valid for 10 s from the posting of its completion. -/
def Token.late (t : Token) (tick : Word64) : Bool := t.expired || match t.posted with | some p => decide (p + 10000000 < tick.toNat) | none => false

/-- The starting command and the next unit of the operation that a command starts or continues, or the status that refuses it. -/
def State.operation (s : State) (h : HedgeId) (b : List Byte) : Except Byte (List Byte × Nat) :=
  let v := cmdParam b
  if v = 0 then .ok (b, 0)
  else match (s.hedge h).tokens.find? fun t => t.value == v && t.op.toNat == cmdOp b with
    | some t => if t.late s.aoTick then .error 0x03 else .ok (t.cmd, t.next)
    | none => .error 0x07

/-- The token that a step uses is gone. -/
def State.useToken (s : State) (h : HedgeId) (v : Word64) : State :=
  s.modHedge h fun g => { g with tokens := g.tokens.filter fun t => t.value != v || t.late s.aoTick }

/-- What the checks of a long command find: the status that refuses it, or the command that began its operation, the next unit and the
program that its units run (13 R429 step 2, R438, Table 13-12). -/
def State.longChecks (s : State) (h : HedgeId) (b : List Byte) : Except Byte (List Byte × Nat × Option Prog) :=
  match s.operation h b with
  | .error e => .error e
  | .ok (cmd, i) =>
    match cmdOp b with
    | 0x11 =>
      match (s.hedge h).prog (cmdProg b) with
      | some p => .ok (cmd, i, some p)
      | none => .error 0x05
    | 0x13 => if 2 ^ 48 < fieldOf cmd 16 6 + fieldOf cmd 24 8 then .error 0x07 else .ok (cmd, i, none)
    | _ => .ok (cmd, i, none)

/-- A long command whose HSN has matched: its checks, then a slot for its step; without a free one the entry stays in the ring. A step
after the first runs under a start sequence of firmware's (13 R429, R438; 10 R312, R313). -/
def State.takeLong (s : State) (f : FnId) (h : HedgeId) (b : List Byte) : State :=
  let r := s.drawStart (portOf f).val
  let no := fun (st : Byte) => (r.2.consume f).answer f (cmdHsn b) st 0 0
  match s.longChecks h b with
  | .error e => no e
  | .ok (cmd, i, p) =>
    let q := if cmdParam b = 0 then r else r.2.drawStart 2
    match s.slotRoom h, s.idleSlotNo with
    | .capped, _ => no 0x0B
    | .ok, some n => (((q.2.consume f).useToken h (cmdParam b)).admitSlot n h b q.1 p [] (.step cmd i)).accept f b q.1 (some n)
    | _, _ => s

/-- Every command of the hedge taken up before has ended (13 R444). -/
def State.allEnded (s : State) (f : FnId) (h : HedgeId) : Bool :=
  (s.fn f).cur.isEmpty && (s.liveSlots h).all fun n => (s.fn f).waiting.any fun c => c.slot == some n

/-- Every completion of a lower HSN has been posted (13 R433). -/
def State.allPosted (s : State) (f : FnId) (h : HedgeId) : Bool :=
  (s.fn f).cur.isEmpty && (s.fn f).waiting.isEmpty && (s.liveSlots h).isEmpty

/-- A command of a VF whose HSN has matched. -/
def State.takeVf (s : State) (f : FnId) (h : HedgeId) (b : List Byte) : State :=
  let r := s.drawStart (portOf f).val
  if shapeOk b && cmdFence b && !s.allPosted f h then s
  else if shapeOk b && cmdOp b == 0x06 && !s.allEnded f h then s
  else if !shapeOk b then (r.2.consume f).answer f (cmdHsn b) 0x07 0 0
  else if cmdOp b = 0x01 then s.takeRun f h b
  else if 0x10 ≤ cmdOp b then s.takeLong f h b
  else (r.2.consume f).accept f b r.1 none

/-- A FW_UPDATE is under way. -/
def State.updating (s : State) : Bool := s.fns.any fun kv => kv.2.cur.any fun c => cmdOp c.bytes == 0x89

/-- A command of the admin ring whose HSN has matched; while FAULTED only IDENTIFY, TELEMETRY and FW_UPDATE are accepted (13 R418, R446;
15 R499, R500). -/
def State.takeAdmin (s : State) (f : FnId) (b : List Byte) : State :=
  let no := fun (st : Byte) => (s.consume f).answer f (cmdHsn b) st 0 0
  if !adminShapeOk b then no 0x07
  else if s.devstat = 3 ∧ cmdOp b ≠ 0x81 ∧ cmdOp b ≠ 0x88 ∧ cmdOp b ≠ 0x89 then no 0x07
  else if cmdOp b = 0x89 ∧ s.updating then no 0x0B
  else (s.consume f).accept f b 0 none

/-- A command whose HSN has matched. -/
def State.take (s : State) (f : FnId) (b : List Byte) : State :=
  match (s.fn f).hedge with
  | some h => s.takeVf f h b
  | none => s.takeAdmin f b

/-- Host address of the entry at SQHEAD. -/
def Fn.entryAt (q : Fn) : Word64 := BitVec.ofNat 64 (q.sqBase.toNat * 4096 + 64 * q.sqHead.toNat)

/-- A poisoned entry is reported by AER and treated as a mismatch (16 Table 16-9). -/
def State.entryPoison (s : State) (f : FnId) (poison : Bool) : State := if poison then s.aer (portOf f) (f.val % 65) aerPoisoned else s

/-- A submission read ends in a bus error: it halts the port's system mover, and the hedge's reading stops (13 R422, 12 R410). -/
def State.readFault (s : State) (f : FnId) : State :=
  let q := s.fn f
  ((s.modFn f fun x => { x with sqFault := some q.entryAt, reread := none }).emit (.read f q.entryAt 64)).haltMover
    ⟨32 + (portOf f).val, by have := (portOf f).isLt; omega⟩ 1 0 none
    (BitVec.ofNat 64 (4 * 2 ^ 60 + q.entryAt.toNat % 2 ^ 52 + 2 ^ 52 * (portOf f).val + (if isPf f then 2 ^ 59 else 2 ^ 53 * (f.val % 65 - 1))))

/-- Entries that one read may return: at most 8, as far as TAIL, and neither past the ring's end nor across 4 KiB of host address (13
R422). -/
def Fn.entriesAhead (q : Fn) : Nat :=
  let n := 2 ^ q.sqLog2.toNat
  min 8 (min ((q.sqTail.toNat + n - q.sqHead.toNat) % n) (min (n - q.sqHead.toNat) (64 - q.sqHead.toNat % 64)))

/-- The entries that a read returned, in order: a mismatch is read again and those after it are discarded unused, as they are where the
front end stops reading (13 R422, 10 R312). -/
def State.takeEntries (f : FnId) : Nat → List Byte → State → State
  | 0, _, s => s
  | n + 1, bs, s =>
    if !s.readable f then s
    else if cmdHsn bs = (s.fn f).expHsn then
      let t := s.take f (bs.take 64)
      if (t.fn f).sqHead = (s.fn f).sqHead then t else State.takeEntries f n (bs.drop 64) t
    else s.modFn f fun x => { x with reread := some (0, cmdHsn bs) }

/-- COMMAND_READ: the ring is next in turn, and the entries from SQHEAD on arrive with these bytes, poisoned, or as a bus error; fewer
bytes are a read of fewer entries (13 R422, 14 R477). -/
def execCommandRead (f : FnId) (bytes : List Byte) (poison fault : Bool) (s : State) : Outcome State Fault Refusal :=
  let q := s.fn f
  .next (if !s.mayRead f then s
    else if fault then (s.turned f).readFault f
    else
      let n := max 1 (min q.entriesAhead (bytes.length / 64))
      let s1 := ((s.turned f).entryPoison f poison).emit (.read f q.entryAt (64 * n))
      if !poison ∧ cmdHsn bytes = q.expHsn then
        let t := s1.take f (bytes.take 64)
        if (t.fn f).sqHead = q.sqHead then t else State.takeEntries f (n - 1) (bytes.drop 64) t
      else s1.modFn f fun x => { x with reread := some (0, cmdHsn bytes) })

/-- SUBMIT_REREAD: the mismatching entry is read again; after the third time its HSN is consumed with STALE_SUBMIT (13 R422). -/
def execSubmitReread (f : FnId) (bytes : List Byte) (poison fault : Bool) (s : State) : Outcome State Fault Refusal :=
  let q := s.fn f
  .next (match q.reread with
    | some (n, _) =>
      if !s.readable f then s
      else if fault then s.readFault f
      else
        let s1 := (s.entryPoison f poison).emit (.read f q.entryAt 64)
        if !poison ∧ cmdHsn bytes = q.expHsn then s1.take f (bytes.take 64)
        else if n + 1 < 3 then s1.modFn f fun x => { x with reread := some (n + 1, cmdHsn bytes) }
        else (s1.consume f).answer f q.expHsn 0x08 0 (BitVec.ofNat 64 (cmdHsn bytes).toNat)
    | none => s)

/-! ### Carrying out -/

/-- The oldest command of an opcode that a function has taken up. -/
def Fn.oldest (q : Fn) (op : Nat) : Option Cmd := q.cur.find? fun c => cmdOp c.bytes == op

/-- A command is done with. -/
def State.dropCur (s : State) (f : FnId) (c : Cmd) : State := s.modFn f fun q => { q with cur := q.cur.erase c }

/-- A command without a slot ends: its completion is formed, unless its admin ring has been disabled meanwhile (13 R419). `table`: the
oldest awaited change of that hedge's programs takes effect with the posting, or at once where there is none (13 R432). -/
def State.reply (s : State) (f : FnId) (c : Cmd) (gk : Gk) (gcs : Word64) (status : Byte) (result detail : Word64)
    (table : Option HedgeId := none) : State :=
  let s1 := s.dropCur f c
  if c.mute then table.elim s1 s1.tableChange
  else s1.formed f
    { gk := if status = 0 then gk else .carried, gcs := gcs, result := result, hsn := cmdHsn c.bytes, sqhead := (s.fn f).sqHead
      status := status, cont := false, rp := false, detail := detail, slot := none, resync := false, table := table }

/-- It ends with a status alone. -/
def State.fail (s : State) (f : FnId) (c : Cmd) (status : Byte) : State := s.reply f c .carried 0 status 0 0

/-- Run `g` on the oldest command of an opcode of a function's hedge. -/
def State.withCmd (s : State) (f : FnId) (op : Nat) (g : HedgeId → Cmd → State) : State :=
  match (s.fn f).hedge, (s.fn f).oldest op with
  | some h, some c => g h c
  | _, _ => s

/-- Run `g` on it as slow-path work: firmware carries out every command but a RUN (02 R52, R60; log 57). -/
def State.slowCmd (s : State) (f : FnId) (op : Nat) (g : State → HedgeId → Cmd → State) : State :=
  s.withCmd f op fun h c => s.slowPath h fun t => g t h c

/-! ### RUN (13 R430 to R432) -/

/-- An entry of a gather list: address and length, none when it is not well formed (13 R431). -/
def sglEntry (bs : List Byte) : Option (Word64 × Nat) :=
  let n := fieldOf bs 8 4
  if zeroFrom bs 12 4 && decide (1 ≤ n) && decide (n ≤ 65536) then some (BitVec.ofNat 64 (fieldOf bs 0 8), n) else none

/-- The entries of a gather list. -/
def sglEntries (list : List Byte) (n : Nat) : Option (List (Word64 × Nat)) :=
  (List.range n).foldr (fun i acc => match sglEntry (cellBytes list i), acc with
    | some e, some t => some (e :: t)
    | _, _ => none) (some [])

/-- A RUN with SGL after its list and data have been read: refused, or with the byte total in cell 1 and the data for the work area. -/
def State.sglRun (s : State) (n : SlotId) (p : Prog) (f : FnId) (list data : List Byte) (st : Byte) : State :=
  let b := (s.slot n).cmd
  if st ≠ 0 then s.endTxn n st 0
  else match sglEntries list (fieldOf b 24 2) with
    | none => s.endTxn n 0x07 0
    | some es =>
      let total := (es.map (·.2)).sum
      if p.sglmax < total then s.endTxn n 0x07 0
      else
        let s1 := s.modSlot n fun sl => { sl with args := sl.args.set 1 (cellInt total), sgl := data.take total }
        es.foldl (fun (t : State) e => t.emit (.read f e.1 e.2)) (s1.emit (.read f (BitVec.ofNat 64 (fieldOf b 16 8)) (16 * fieldOf b 24 2)))

/-- The dispatcher sends a slot's transaction to a context of an engine (02 R50). -/
def State.dispatchTo (s : State) (n : SlotId) (e : EngId) (c : CtxId) : State :=
  let s1 := s.modSlot n fun sl => { sl with eng := e, ctx := c }
  s1.message (s1.msgTo e n 0 (.dispatch n))

/-- RUN: the oldest RUN taken up goes on the fast path to the context reserved for it, or to firmware dispatch, which takes its slot in
ADMITTED. With SGL, `list` and
`data` are what the host reads gave, or `st` how they failed (13 R430 to R432). -/
def execRun (f : FnId) (list data : List Byte) (st : Byte) (s : State) : Outcome State Fault Refusal :=
  .next (s.withCmd f 0x01 fun _ c =>
    match c.slot.bind fun n => (s.slot n).prog.map fun p => (n, p) with
    | none => s.dropCur f c
    | some (n, p) =>
      let s1 := s.dropCur f c
      if cmdSgl c.bytes then s1.sglRun n p f list data st
      else match c.target with
        | some q => s1.dispatchTo n q.1 q.2
        | none => s1)

/-- A slot waits for firmware dispatch: ADMITTED, and its command carried out so far. -/
def State.dispatchable (s : State) (n : SlotId) : Bool :=
  let sl := s.slot n
  sl.state == .admitted && match (s.hedge sl.hedge).fn with
    | some f => !((s.fn f).cur.any fun c => c.slot == some n)
    | none => false

/-- A step of a long operation runs on the engine. -/
def State.runsStep (s : State) (e : EngId) : Bool :=
  (List.finRange 32).any fun n =>
    let c := (s.eng e).ctx n
    c.state != .free && match (s.slot c.slot).work with | .bulk _ => true | .run | .step .. => false

/-- The hedge has an engine of ROLE LONG. -/
def State.hasLong (s : State) (h : HedgeId) : Bool := (s.hedgeEngines h).any fun e => (s.eng e).role == 2

/-- Firmware may send the slot to the engine: RUN to GENERAL, one restarted also to FAST, a step to LONG or, without any, GENERAL (13
R432, R437; 10 R329). -/
def State.roleFits (s : State) (sl : Slot) (p : Prog) (e : EngId) : Bool :=
  let r := (s.eng e).role
  match sl.work with
  | .run => r == 1 || (r == 0 && p.fast && sl.retry != p.retry)
  | .bulk _ => !s.runsStep e && (r == 2 || (r == 1 && !s.hasLong sl.hedge))
  | .step .. => false

/-- The host port of a hedge. -/
def State.hedgePort (s : State) (h : HedgeId) : PortId := (s.hedge h).fn.elim 0 portOf

/-- The contexts that firmware dispatch may choose for a slot: one of each engine whose role fits, in clusters that hold the program (13
R432, R437; 10 R329). -/
def State.dispatchTargets (s : State) (sl : Slot) (p : Prog) : List (EngId × CtxId) :=
  (s.engines? sl.hedge fun e => s.roleFits sl p e && (s.clu (cluOf e)).holds p).filterMap fun e => (s.freeTarget e).map fun n => (e, n)

/-- FIRMWARE_DISPATCH: firmware sends the slot to the best of the engines allowed by the key of R476 (13 R432, R437; 14 R477); another
choice is not made. -/
def execFirmwareDispatch (slot : SlotId) (e : EngId) (c : CtxId) (s : State) : Outcome State Fault Refusal :=
  let sl := s.slot slot
  .next (match sl.prog with
    | some p =>
      if s.dispatchable slot && s.bestTarget (s.hedgePort sl.hedge) sl.hedge (s.dispatchTargets sl p) == some (e, c) then
        s.slowPath sl.hedge fun t => (t.noteTarget sl.hedge e).dispatchTo slot e c
      else s
    | none => s)

/-! ### Unparking (10 R317, 14 R477) -/

/-- The contexts that a parked slot may unpark into: its own context number, FREE, on an engine of its hedge whose cluster holds
the program (10 R317). -/
def State.unparkTargets (s : State) (sl : Slot) (p : Prog) : List (EngId × CtxId) :=
  ((s.engines? sl.hedge fun e =>
    ((s.eng e).ctx sl.ctx).state == .free && !s.reserved.contains (e, sl.ctx) && (s.clu (cluOf e)).holds p)).map fun e => (e, sl.ctx)

/-- UNPARK: firmware restores the image into the best of those contexts by the key of R476; a cluster below C0 is woken first (10 R317; 14
R458, R477). -/
def execUnpark (slot : SlotId) (e : EngId) (c : CtxId) (s : State) : Outcome State Fault Refusal :=
  let sl := s.slot slot
  .next (match sl.image, sl.prog with
    | some m, some p =>
      if sl.state = .parked ∧ sl.runnable ∧ s.bestTarget (s.hedgePort sl.hedge) sl.hedge (s.unparkTargets sl p) = some (e, c) then
        s.slowPath sl.hedge fun s =>
          if (s.clu (cluOf e)).pst ≠ .c0 then s.wakeClu (cluOf e) else
          if s.cluHalted (cluOf e) then s else
          let g := s.eng e
          let g1 := ((g.writeCells (4 * c.val) sl.args).writeCells (m.ctx.osb.toNat / 16) m.stack).writeCells (p.workBase c / 16) m.work
          let r := refill 8 g1 m.ctx
          ((s.setEng e (r.1.setCtx c { r.2 with wdog := 0, xst := (g.ctx c).xst })).modSlot slot fun sl =>
            { sl with state := .resident, eng := e, cluster := cluOf e, image := none, runnable := false }).noteTarget sl.hedge e
      else s
    | _, _ => s)

/-! ### READ (13 R434) -/

/-- What firmware's read of a record comes to. -/
inductive FwRead where
  | ok (bytes : List Byte)
  | fail (status : Byte)
  /-- A page is not resident: the read waits. -/
  | wait
  /-- The shared lock of the record is not to be had yet (10 R326). -/
  | locked
  deriving DecidableEq, Repr

/-- How one page stands for firmware's read, with key 0: V = 1 and R = 1, resident. -/
def State.fwPage (s : State) (h : HedgeId) (va : Nat) : FwRead :=
  match (s.walk h va).1 with
  | .leaf _ p _ => if !(bit p 1) then .fail 0x05 else if p.res then .ok [] else .wait
  | .fail st => .fail st
  | .malformed .. => .fail 0x05

/-- The pages of firmware's read of [va, va+n): MEDIA before KEY, and a wait only once no page refuses it. -/
def State.fwPages (s : State) (h : HedgeId) (va n : Nat) : FwRead :=
  let ps := (spanPages va n).map fun a => s.fwPage h a
  if ps.contains (.fail 0x04) then .fail 0x04
  else if ps.any fun p => match p with | .fail _ => true | _ => false then .fail 0x05
  else if ps.contains .wait then .wait
  else .ok []

/-- The unit of a record's lock. -/
def State.unitAt (s : State) (h : HedgeId) (va : Nat) : UnitId := (s.phys h va).elim (s.lockRec (lockKey h va)).unit fun a => chanOf (a / 4096)

/-- The transactions that a command with this start sequence may not pass for a shared lock: an exclusive holder, or an older waiter (10
R326). -/
def State.readBlocked (s : State) (k : Nat) (start : Word64) : Bool :=
  let r := s.lockRec k
  r.holders.any (·.2) || r.waiters.any fun q => decide ((s.slot q.1).start.toNat < start.toNat)

/-- The entries that the command's request adds in its unit go beyond the hedge's share: one to wait; to be granted, one for an unlocked
record, or what another shared holder takes (10 R320). -/
def State.readNoEntry (s : State) (h : HedgeId) (va : Nat) (c : Cmd) : Bool :=
  let k := lockKey h va
  let r := s.lockRec k
  let more := if s.readBlocked k c.start then b2n (c.waits != some k) else if r.holders.isEmpty then 1 else (r.holders.length + 4) / 5 - (r.holders.length + 3) / 5
  decide ((s.hedge h).par.locks / 64 < s.unitEntries h (s.unitAt h va) k + r.entries + more)

/-- Firmware reads a record under a shared lock, for a command with this start sequence (10 R340, 13 R434). -/
def State.lockedRead (s : State) (h : HedgeId) (va n : Nat) (c : Cmd) : FwRead :=
  match s.fwPages h va n with
  | .ok _ =>
    if s.readNoEntry h va c then .fail 0x0B
    else if s.readBlocked (lockKey h va) c.start then .locked
    else
      let bs := s.readRecord h va n
      if bs.any (·.2) then .fail 0x04 else .ok (bs.map (·.1))
  | r => r

/-- A command joins the waiters of a record; it wounds the younger exclusive holder, once (10 R326). -/
def State.joinReaders (s : State) (f : FnId) (h : HedgeId) (c : Cmd) (va : Nat) : State :=
  let k := lockKey h va
  if c.waits = some k then s
  else
    let young := ((s.lockRec k).holders.filter fun q => q.2 && decide (c.start.toNat < (s.slot q.1).start.toNat)).map (·.1)
    { s with wounds := s.wounds ++ young.map fun m => (stopOf (s.unitAt h va), m) }.modFn f fun q =>
      { q with cur := q.cur.map fun x => if x = c then { c with waits := some k } else x }

/-- A command leaves the waiters of a record: those that its read held up are granted (10 R326). -/
def State.leaveReaders (s : State) (c : Cmd) : State :=
  match c.waits with
  | some k => s.regrant k (s.lockRec k)
  | none => s

/-- The record is read: its latent errors are met, and its pages count as accessed (09 Table 9-6). -/
def State.accessed (s : State) (h : HedgeId) (va n : Nat) : State :=
  (spanPages va n).foldl
    (fun (t : State) a => match (t.walk h a).1 with
      | .leaf at_ p _ => if p.res && !(bit p 4) then t.hbmPut at_ 8 (p ||| 0x10).toNat else t
      | _ => t) (s.meetRecord h va n)

/-- READ (13 R434, 10 R340). -/
def execRead (f : FnId) (s : State) : Outcome State Fault Refusal :=
  .next (s.slowCmd f 0x02 fun s h c =>
    let b := c.bytes
    let ep := if cmdEp b then s.defined? h (fieldOf b 16 4) else none
    let ref := match ep with
      | some d => endpointRef d
      | none => hostRef false (cellBytes b 1)
    if cmdEp b && ep.isNone then s.fail f c 0x05
    else if !refOk ref then s.fail f c 0x07
    else
      let head := match ep with | some d => endpointBytes d | none => []
      let n := head.length + refLen ref
      if fieldOf b 40 4 < n then s.fail f c 0x07
      else if s.lehr.drawn.toNat < (cmdParam b).toNat then s.fail f c 0x07
      else if s.lehr.applied.toNat < (cmdParam b).toNat then s
      else
        match s.lockedRead h (refAddr ref) (refLen ref) c with
        | .wait => s
        | .locked => s.joinReaders f h c (refAddr ref)
        | .fail st => ((if st = 0x04 then s.accessed h (refAddr ref) (refLen ref) else s).fail f c st).leaveReaders c
        | .ok bs =>
          (((s.accessed h (refAddr ref) (refLen ref)).emit (.host f (BitVec.ofNat 64 (fieldOf b 32 8)) (head ++ bs) false)).reply f c .observed
            s.lehr.drawn 0 (BitVec.ofNat 64 n) 0).leaveReaders c)

/-! ### SIGNAL and EPSET (13 R435) -/

/-- SIGNAL. -/
def execSignal (f : FnId) (s : State) : Outcome State Fault Refusal :=
  .next (s.slowCmd f 0x03 fun s h c =>
    let e := fieldOf c.bytes 8 4
    match s.defined? h e with
    | some d =>
      if d.ext then (s.sigev h e).reply f c .carried 0 0 (BitVec.ofNat 64 (d.evseq + 1).toNat) 0 else s.fail f c 0x05
    | none => s.fail f c 0x05)

/-- EPSET: EVSEQ and MARM stay, and the entry is journalled (13 R435, 10 R344). -/
def execEpset (f : FnId) (s : State) : Outcome State Fault Refusal :=
  .next (s.slowCmd f 0x04 fun s h c =>
    let e := fieldOf c.bytes 16 4
    let v := fieldOf c.bytes 20 1
    let r := payOfBytes (cellBytes c.bytes 2)
    let raw : Cell := { ty := tyREF, sub := 0, p := false, g := false, pay := r }
    if !s.inRange h e then s.fail f c 0x05
    else if v % 2 = 1 ∧ !(refOk raw && bits r 52 48 == 0) then s.fail f c 0x07
    else
      let d := s.endpoint h e
      ((s.setEndpoint h e { d with
        v := v % 2 == 1, rw := v / 2 % 2 == 1, ext := v / 4 % 2 == 1, addr := r.extractLsb' 0 48, len := r.extractLsb' 64 17
        app := payOfBytes (cellBytes c.bytes 3) }).watchDead h).reply f c .carried 0 0 0 0)

/-! ### MAP (13 R436, 09 R299) -/

/-- The level of a SIZE code; 3 is no size. -/
def mapLevel (z : Nat) : Option Nat := if z < 3 then some (z + 1) else none

/-- A durable page overlaps [va, va+n). -/
def State.anyMapped (s : State) (h : HedgeId) (va n : Nat) : Bool :=
  s.durable.any fun kv =>
    let a := kv.1 % 2 ^ 48
    kv.1 / 2 ^ 48 == h.val && decide (a < va + n) && decide (va < a + 2 ^ levelBits kv.2.1)

/-- A page of the size is mapped at `va`. -/
def State.mappedAt (s : State) (h : HedgeId) (level va : Nat) : Bool := (tget (0, 0) s.durable (durKey h va)).1 == level

/-- Blocks of a drive's namespace (12 Table 12-2). -/
def State.capacity (s : State) (port : Nat) : Nat := (tget SPort.reset s.sports port).blocks

/-- The storage port that `n` new blocks come from: the lowest-numbered one whose drive has them (log 6). -/
def State.blockPort (s : State) (n : Nat) : Option Nat :=
  (List.range 16).find? fun p => s.portUp p && decide (alignUp (tget 0 s.blockNext p) n + n ≤ s.capacity p)

/-- Storage blocks for one page, aligned to its size. -/
def State.takeBlocks (s : State) (h : HedgeId) (level : Nat) : Option (Nat × Nat × State) :=
  let n := levelFrames level
  match s.blockPort n with
  | none => none
  | some p =>
    let b := alignUp (tget 0 s.blockNext p) n
    if (s.hedge h).par.store < (s.hedge h).stored + n then none
    else some (p, b, { s with blockNext := tset 0 s.blockNext p (b + n) }.modHedge h fun g => { g with stored := g.stored + n })

/-- Map one page: non-resident with ZERO = 1, or at once with zero frames when it is pinned. -/
def State.mapPage (s : State) (h : HedgeId) (level va perm pkey prkey : Nat) (pin : Bool) : Option State :=
  match s.takeBlocks h level with
  | none => none
  | some (port, b, s1) =>
    if s1.tablesFree < 3 then none else
    let p := mkLeaf perm true false b port pkey prkey
    if pin then (s1.findFrames (levelFrames level)).map fun fr => s1.makeResident h va level fr p true
    else some ((s1.install h va level p).setDurable h va level p)

/-- Map a run of pages; none when blocks or frames run short. -/
def State.mapPages (h : HedgeId) (level perm pkey prkey : Nat) (pin : Bool) : Nat → Nat → State → Option State
  | 0, _, s => some s
  | n + 1, va, s =>
    match s.mapPage h level va perm pkey prkey pin with
    | some t => State.mapPages h level perm pkey prkey pin n (va + 2 ^ levelBits level) t
    | none => none

/-- Unmap one page: its leaf goes, its translations are invalidated, its frames are freed and its blocks deallocated; accesses that wait
for it walk again. -/
def State.unmapPage (s : State) (h : HedgeId) (level va : Nat) : State :=
  let q : Pte := (tget (0, 0) s.durable (durKey h va)).2
  let size := 2 ^ levelBits level
  let s1 := match (s.walk h va).1 with
    | .leaf at_ p _ =>
      let t := (s.hbmPut at_ 8 0).invPage h va
      if p.res then t.freeFrames p.frame (levelFrames level)
      else match s.evicting h va with
        | some v => { t with evicts := t.evicts.erase v }.freeFrames v.frame (levelFrames level)
        | none => t
    | _ => s
  let s2 := { s1 with durable := tset (0, 0) s1.durable (durKey h va) (0, 0) }.modHedge h fun g => { g with stored := g.stored - levelFrames level }
  (s2.emit (.nvme q.ssd 0x09 q.block size false)).releasePage h va size true

/-- MAP. -/
def execMap (f : FnId) (s : State) : Outcome State Fault Refusal :=
  .next (s.slowCmd f 0x05 fun s h c =>
    let b := c.bytes
    let va := fieldOf b 16 6
    let len := fieldOf b 24 8
    let m := fieldOf b 32 1
    let unmap := m / 128 == 1
    match mapLevel (m / 16 % 4) with
    | none => s.fail f c 0x07
    | some level =>
      let size := 2 ^ levelBits level
      let n := len / size
      let pages := (List.range n).map fun i => va + i * size
      if va % size ≠ 0 ∨ len % size ≠ 0 ∨ 2 ^ 48 < va + len then s.fail f c 0x07
      else if unmap then
        if !pages.all fun a => s.mappedAt h level a then s.fail f c 0x07
        else if pages.any fun a => s.pageLocked h a size then s
        else (pages.foldl (fun (t : State) a => t.unmapPage h level a) s).reply f c .carried 0 0 (BitVec.ofNat 64 n) 0
      else if (m / 2 % 2 == 1 && m % 2 == 0) || fieldOf b 33 1 % 16 == 0 || (level == 3 && m / 8 % 2 == 0) || s.anyMapped h va len then
        s.fail f c 0x07
      else
        match State.mapPages h level (m % 8) (fieldOf b 33 1 % 16) (fieldOf b 33 1 / 16) (m / 8 % 2 == 1) n va s with
        | some t => t.reply f c .carried 0 0 (BitVec.ofNat 64 n) 0
        | none => s.fail f c 0x0B)

/-! ### RESYNC (13 R444) -/

/-- The place of an HSN in a range that begins at `a`. -/
def hsnIn (a x : BitVec 32) : Nat := (x - a).toNat

/-- RESYNC: reposts, its own completion, and the suspect flags clear when it is posted. -/
def execResync (f : FnId) (s : State) : Outcome State Fault Refusal :=
  .next (s.slowCmd f 0x06 fun s h c =>
    let a : BitVec 32 := (cmdParam c.bytes).extractLsb' 0 32
    let range := hsnIn a ((cmdParam c.bytes).extractLsb' 32 32) + 1
    let n := if cmdRepost c.bytes then range else 0
    if 16384 < range then s.fail f c 0x07
    else
      let hist := (s.hedge h).history
      let re := (hist.filter fun x => decide (hsnIn a x.hsn < n)).map fun (x : Compl) => { x with rp := true, slot := none, resync := false }
      let missing := ((List.range n).filter fun i => !(hist.any fun x => hsnIn a x.hsn == i)).length
      let own := cmdHsn c.bytes
      let low : BitVec 32 := match (s.hedge h).dropped with | some d => d + 1 | none => own + 1
      let me : Compl :=
        { gk := .watermark, gcs := s.lehr.gcsdur, result := BitVec.ofNat 64 re.length, hsn := own, sqhead := (s.fn f).sqHead, status := 0
          cont := false, rp := false, detail := BitVec.ofNat 64 (low.toNat + 2 ^ 32 * missing), slot := none, resync := true }
      ((s.dropCur f c).modFn f fun q => { q with waiting := re ++ me :: q.waiting }).modHedge h fun g => g.remember me)

end Sys2Proof.Machine
end

