-- ==== Sys2Proof/Machine/LehrRecovery.lean ====
section
/-! DEFINITION. The Lehr under failures: pairing, fencing, holes, replay and the reopening of the ring (11 R372 to R380, 16
R527 to R530, 17 R550). -/

namespace Sys2Proof.Machine

open Host (Outcome)

/-! ### Pairing (11 R376 to R380) -/

/-- MIRROR_ENTRY: a partner's entry arrives over link `l` with its full GCS, its segment and its place there; it waits while the ring is full
or no entry write may start, and is written as a MIRROR entry in arrival order (11 R376 to R378). -/
def execMirrorEntry (l : LinkId) (g : Word64) (m : MirrorMsg) (s : State) : Outcome State Fault Refusal :=
  .next (if (s.link l).state ≠ .up then s
    else State.mirrorsIn { s with lehr := { s.lehr with mirrorIn := s.lehr.mirrorIn ++ [(l, ⟨g, m.seq, m.i.val, m.bytes⟩)] } })

/-- Remove the first element that `f` names. -/
def takeFirst {α : Type} (f : α → Bool) : List α → Option α × List α
  | [] => (none, [])
  | x :: t => if f x then (some x, t) else let r := takeFirst f t; (r.1, x :: r.2)

/-- One mirror acknowledgement fewer is outstanding for each slot. -/
def State.acked (s : State) (slots : List SlotId) : State :=
  slots.foldl (fun (t : State) n => t.modSlot n fun sl => { sl with unacked := sl.unacked - 1 }) s

/-- MIRROR_ACK: the partner acknowledges an entry of GCS `g` (11 R376). -/
def execMirrorAck (g : Word64) (s : State) : Outcome State Fault Refusal :=
  let r := takeFirst (fun (x : Word64 × List SlotId × Nat) => x.1 == g) s.lehr.unacked
  .next (match r.1 with
    | some x => ({ s with lehr := { s.lehr with unacked := r.2 } }).acked x.2.1
    | none => s)

/-- The PAIR_LOCAL event; `last` is all ones while still degraded (13 Table 13-9). -/
def pairLocal (first last : Word64) : Ev := { kind := 2, a := first, b := last, c := 0, d := 0 }

/-- The pair is lost: admission stops, or under FALL the device goes on with local durability, from the first GCS that it posts so on (11
R380, 17 R547). -/
def State.pairLost (s : State) : State :=
  let l := s.lehr
  if !l.fall then { s with lehr := { l with stalled := true } }
  else if l.pairdeg then s
  else
    let first := match l.unacked with | x :: _ => x.1 | [] => l.gcsdur + 1
    let s1 := l.unacked.foldl (fun (u : State) x => u.acked x.2.1) s
    let s2 := ({ s1 with lehr := { s1.lehr with pairdeg := true, unacked := [], localFirst := first, localLast := first - 1 } }).everyHedge
      (pairLocal first (BitVec.allOnes 64))
    s2.openHedges.foldl (fun (u : State) h => u.notify h 1 (first.setWidth 32)) s2

/-- PAIR_TIMEOUT: the oldest acknowledgement is overdue (11 R380). -/
def execPairTimeout (s : State) : Outcome State Fault Refusal :=
  let l := s.lehr
  .next (match l.unacked with
    | (_, _, t) :: _ => if !l.pairEn || l.pairdeg || decide (s.aoTick.toNat < t + l.ptmo.toNat) then s else s.pairLost
    | [] => s)

/-- A write of LEHR_PAIR restores the pair or clears EN: admission goes on, a degraded pairing ends and the range posted under local
durability goes to the hedges; with EN = 0 no acknowledgement is awaited, with EN = 1 their times start anew (11 R380; log 73). -/
def State.pairWrite (s : State) (v : Word64) : State :=
  if bits v 25 16 = 0 ∨ 1000 < bits v 25 16 then s
  else
    let l := s.lehr
    let s1 : State := { s with lehr := { l with
      pairEn := bit v 0, fall := bit v 1, link := v.extractLsb' 2 2, ptmo := v.extractLsb' 16 10, stalled := false, pairdeg := false
      unacked := if bit v 0 then l.unacked.map fun x => (x.1, x.2.1, s.aoTick.toNat) else [] } }
    let s2 := if bit v 0 then s1 else l.unacked.foldl (fun (u : State) x => u.acked x.2.1) s1
    if l.pairdeg && bit v 0 then s2.everyHedge (pairLocal l.localFirst l.localLast) else s2

/-- MIRROR_COPY_REQUEST: a partner asks over link `l` for the MIRROR entry at a place of its segment, or for all of them; it is answered in
any state after step 9 (17 R550). -/
def execMirrorCopyRequest (l : LinkId) (seq : Nat) (i : Option (Fin 1024)) (s : State) : Outcome State Fault Refusal :=
  .next (if s.keeper.step < 9 then s
    else (s.lehr.mirrors.filter fun m => m.seq == seq && i.all fun j => m.i == j.val).foldl (fun (t : State) m => t.emit (.copy l m)) s)

/-- MIRROR_RECLAIM_NOTICE: the origin has reclaimed a segment; its mirror is kept no longer (11 R377). -/
def execMirrorReclaimNotice (seq : Nat) (s : State) : Outcome State Fault Refusal :=
  .next { s with lehr := { s.lehr with mirrors := s.lehr.mirrors.filter fun m => m.seq != seq } }

/-! ### Journal holes (16 R528, R529) -/

/-- Segments of the ring from RP on, as (sequence number, segment). -/
def Lehr.ringSegs (l : Lehr) : List (Nat × Nat) :=
  let n := (l.inRing + 1023) / 1024
  let last := if l.wp.toNat % 1024 = 0 then l.segSeq - 1 else l.segSeq
  (List.range n).map fun i => (last + 1 + i - n, (l.rp.toNat / 1024 + i) % 8)

/-- The positions of the ring from RP to WP, in ring order. -/
def Lehr.ringRun (l : Lehr) : List Nat := (List.range l.inRing).map fun i => (l.rp.toNat + i) % 8192

/-- Sequence number of the segment that holds a position of the ring. -/
def Lehr.seqAt (l : Lehr) (p : Nat) : Nat := ((l.ringSegs.find? fun q => q.2 == segOf p).map (·.1)).getD l.segSeq

/-- The pair that is on, or was on before the reset whose replay runs (11 R374, 16 R528). -/
def Lehr.pairOn (l : Lehr) : Option LinkId :=
  if l.pairEn then some ⟨l.link.toNat, by have := l.link.isLt; omega⟩ else if l.asleep then l.pairWas else none

/-- MIRROR_COPY_ARRIVAL: the partner's copy of an entry asked for within the last 10 ms replaces the lost one in the ring, or stands for
one whose record cannot be read (11 R374, 16 R528). -/
def execMirrorCopyArrival (at_ : Nat × Fin 1024) (bytes : List Byte) (s : State) : Outcome State Fault Refusal :=
  let l := s.lehr
  .next (match l.ringSegs.find? fun q => q.1 == at_.1 with
    | some q =>
      let p := 1024 * q.2 + at_.2.val
      if l.asked.contains p then
        { s with lehr := { l with
          asked := l.asked.erase p, ring := tmod LEntry.empty l.ring p fun x => { x with bytes := padEntry bytes, lost := false } } }
      else s
    | none => if l.askedAt.isSome && !l.got.contains (at_.1, at_.2.val) then { s with lehr := { l with got := l.got ++ [(at_.1, at_.2.val)] } } else s)

/-- The GCS that the first entry after position `p` bounds a hole by, else the last drawn one. -/
def Lehr.holeTop (l : Lehr) (p : Nat) : Word64 :=
  match (l.ringRun.dropWhile fun q => q != p).drop 1 |>.findSome? fun q =>
      ((entryDeltasOf (l.gbase (l.seqAt q)) (tget LEntry.empty l.ring q)).head?).map (·.gcs) with
  | some g => BitVec.ofNat 64 g
  | none => l.drawn

/-- The HOLE record (16 Table 16-5). -/
def holeRecord (s : State) (pos : Nat) (top : Word64) : ErrRec :=
  { tick := s.aoTick, cls := 0x0D, sev := 2, unit := unitCode 6 0, status := 0, cause := 0, hedge := none, addr := none, slot := none,
    detail := bytesOfNat 2 pos ++ bytesOfNat 8 (s.lehr.ckpt.toNat + 1) ++ bytesOfNat 8 top.toNat }

/-- JOURNAL_HOLE: a valid position of the ring has an uncorrectable error that persists. Firmware first asks the partner while
pairing is on; a position asked for already is a hole: its sideband goes to the segment record invalid, and a checkpoint must pass
the top of its range (16 R528, R529). -/
def execJournalHole (pos : Fin 8192) (s : State) : Outcome State Fault Refusal :=
  let l := s.lehr
  .next (if !(l.ringRun.contains pos.val && (tget LEntry.empty l.ring pos.val).valid) then s
    else match l.pairOn.filter fun _ => !l.asked.contains pos.val with
    | some k => ({ s with lehr := { l with asked := l.asked ++ [pos.val] } }).emit (.copyRequest k (l.seqAt pos.val) (some (pos.val % 1024)))
    | none =>
      let top := l.holeTop pos.val
      ({ s with lehr := { l with
        asked := l.asked.erase pos.val, ring := tmod LEntry.empty l.ring pos.val fun x => { x with lost := true }
        holes := l.holes ++ [top] } }).report (holeRecord s pos.val top))

/-! ### Fencing (16 R530, Table 16-11) -/

/-- Entries that hold queued deltas unpacked: a fence record's own (16 R530). -/
def fenceEntries (d : QDelta) : List LEntry :=
  let e := fun (k : LKind) bs => ({ LEntry.empty with bytes := bs, valid := true, kind := k, hedge := d.hedge } : LEntry)
  if shortDelta d.addr d.bytes.length then [e .packed (packedEntry [d])]
  else e .head (headEntry d) ::
    (List.range ((d.bytes.length - 48 + 63) / 64)).map fun i => e .cont (padEntry (((d.bytes.drop 48).drop (64 * i)).take 64))

/-- The rest of a long delta whose entries were being written. -/
def contEntries (d : QDelta) (rest : List Byte) : List LEntry :=
  (List.range ((rest.length + 63) / 64)).map fun i =>
    { LEntry.empty with bytes := padEntry ((rest.drop (64 * i)).take 64), valid := true, kind := .cont, hedge := d.hedge }

/-- The record of a segment of the ring, cut at WP, before it has a place. -/
def Lehr.ringRecord (l : Lehr) (q : Nat × Nat) : ZoneRec :=
  let n := if q.1 = l.segSeq then l.wp.toNat % 1024 else 1024
  ⟨q.1, 0, 0, false, l.gbase q.1, ((l.segEntries q.2).take n).map LEntry.recorded⟩

/-- Write a record to some places; it replaces the segment's earlier one. -/
def State.placeAt (ps : List (Nat × Nat)) (s : State) (r : ZoneRec) : State :=
  ps.foldl
    (fun (t : State) q => State.nvmeRecord { t with lehr := { t.lehr with
      records := (t.lehr.records.filter fun x => !(x.port == q.1 && x.at_ == q.2)) ++ [{ r with port := q.1, at_ := q.2 }] } } q)
    { s with lehr := { s.lehr with records := s.lehr.records.filter fun x => x.seq != r.seq } }

/-- Write a record to the next `k` zones that have room (16 Table 16-11). -/
def State.placeRecord (k : Nat) (s : State) (r : ZoneRec) : State := s.placeAt (s.freePlaces.take k) r

/-- Write a record after `k` writes of it that have failed, each to the next zone of the rotation, and each counted (11 R365, 17 R550). -/
def State.placeRetried (s : State) (r : ZoneRec) (k : Nat) : State :=
  let ps := s.freePlaces
  State.placeAt ((ps.drop (k % ps.length)).take 1)
    { s with lehr := { s.lehr with fail := (List.range k).foldl (fun c _ => satInc c) s.lehr.fail } } r

/-- An empty ring with a new segment sequence number (16 R530, 17 R550). -/
def Lehr.reopen (l : Lehr) (seq : Nat) : Lehr :=
  { l with
    ring := [], anchors := [], wp := 0, rp := 0, lap := false, inRing := 0, reserved := 0, queue := [], cont := none, writes := [],
    segs := [], part := none, segSeq := seq, asked := [], asleep := false, pairWas := none, askedAt := none, got := [] }

/-- Writes in progress complete. -/
def Lehr.settleWrites (l : Lehr) : Lehr :=
  { l with ring := l.writes.foldl (fun t w => tmod LEntry.empty t w.pos fun x => { x with valid := true }) l.ring, writes := [] }

/-- The fence records: the ring's segments, and the deltas not written to it. -/
def Lehr.fenceRecords (l : Lehr) : List ZoneRec :=
  l.ringSegs.map l.ringRecord ++
    [⟨l.segSeq + 1, 0, 0, false, l.applied,
      (match l.cont with | some (d, rest) => contEntries d rest | none => []) ++ l.queue.flatMap fenceEntries⟩]

/-- The controller has failed by a route of R530. -/
def State.lehrFailed (s : State) : Bool :=
  let l := s.lehr
  l.failed || (l.full && decide (l.fullSince + 10000 ≤ s.aoTick.toNat)) || (l.drstop && decide (l.stopSince + 10000 ≤ s.aoTick.toNat))

/-- The STATE event of every open hedge (13 Table 13-9). -/
def State.stateEvents (s : State) : State :=
  s.openHedges.foldl
    (fun t h => match (t.hedge h).fn with
      | some f => t.postEvent f { kind := 8, a := 0, b := 0, c := BitVec.ofNat 32 (t.fn f).state.code, d := 0 }
      | none => t) s

/-- DHP_DEVSTAT.STATE becomes FAULTED; an admin ring that waits for it opens (13 R418). -/
def State.faulted (s : State) : State :=
  allFns.foldl (fun (t : State) f => if (t.fn f).opening then t.modFn f fun q => { q with state := .ready, opening := false } else t)
    { s with devstat := 3 }

/-- Every drawn GCS becomes durable, and its deltas are on their way to the memory stops (16 Table 16-11). -/
def State.fenceDurable (s : State) : State :=
  s.busySlots.foldl
    (fun (t : State) n =>
      if (t.slot n).state = .sequenced then
        (t.modSlot n fun sl => { sl with unpacked := 0, undurable := 0, entries := 0 }).nowDurable n
      else t) s

/-- LEHR_FENCE: the first of two commands sets FENCED when the controller has failed; the second carries the recovery of Table 16-11
to its end: the fence records go to two zones, for which it waits. `ok` = the array verifies (16 R530). -/
def execLehrFence (ok : Bool) (s : State) : Outcome State Fault Refusal :=
  let l := s.lehr
  .next (if !l.fenced then
      if s.lehrFailed then
        let s1 : State := { s with lehr := { l with failed := true, fenced := true } }
        if l.failed || l.drstop then s1 else s1.report (lehrRecord s 4 l.wp.toNat)
      else s
    else if s.freePlaces.isEmpty then s
    else
      let acks := l.writes.filterMap (·.mirror)
      let l1 := l.settleWrites
      let s1 := (l1.fenceRecords.foldl (State.placeRecord 2) { s with lehr := l1 }).fenceDurable
      let s2 := acks.foldl (fun (t : State) a => t.emit (.mirrorAck a.1 a.2)) s1
      let s3 := State.writeSupers ((List.finRange 64).foldl
        (fun (t : State) h => if (t.hedge h).used = 0 then t else t.modHedge h fun g => { g with used := 0 }) s2)
      let again := match l.reopened with | some t => decide (s.aoTick.toNat < t + 1000000) | none => false
      let l4 := { s3.lehr.reopen (l.segSeq + 2) with gcsdur := l.drawn, full := false, low := false, drstop := false }
      if ok && !again then
        ({ s3 with lehr := { l4 with failed := false, fenced := false, reopened := some s.aoTick.toNat } }).watermarks.mirrorsIn
      else
        let s4 := ({ s3 with lehr := l4 }).faulted.stateEvents
        s4.busySlots.foldl (fun (t : State) n => t.endTxn n 0x0B 0) s4)

/-! ### Replay (11 R372 to R374) -/

/-- Where replay stands in the stream. -/
structure Rp where
  last : Nat
  /-- The deltas of the transaction being gathered. -/
  acc : List RDelta
  /-- A HEAD whose CONT entries are due, with its length. -/
  long : Option (RDelta × Nat)
  /-- The deltas to apply, in order. -/
  out : List RDelta
  /-- Replay has failed at this GCS. -/
  bad : Option Nat

/-- A delta of the stream. -/
def Rp.delta (r : Rp) (d : RDelta) : Rp :=
  if r.bad.isSome || d.gcs ≤ r.last then r
  else if d.gcs = r.last + 1 then
    if d.last then { r with last := d.gcs, acc := [], out := r.out ++ r.acc ++ [d] } else { r with acc := r.acc ++ [d] }
  else { r with bad := some d.gcs }

/-- An entry of the stream, with its segment's GBASE (R373). -/
def Rp.entry (r : Rp) (gbase : Word64) (x : LEntry) : Rp :=
  if x.kind = .mirror then r
  else
    match r.long, x.kind with
    | some (d, n), .cont =>
      let bs := d.bytes ++ x.bytes.take (n - d.bytes.length)
      if bs.length < n then { r with long := some ({ d with bytes := bs }, n) } else { r with long := none }.delta { d with bytes := bs }
    | some (d, _), _ => { r with bad := some d.gcs }
    | none, .cont => r
    | none, .head =>
      match entryDeltasOf gbase x with
      | d :: _ =>
        let n := natOfBytes ((x.bytes.drop 8).take 8) / 2 ^ 48 % 2 ^ 15
        if 48 < n then { r with long := some ({ d with bytes := d.bytes.take 48 }, n) } else r.delta { d with bytes := d.bytes.take n }
      | [] => r
    | none, _ => (entryDeltasOf gbase x).foldl Rp.delta r

/-- The valid run of the ring from RP: it ends at the first position with VALID = 0 or another pass's LAP. -/
def Lehr.validRun (l : Lehr) : List Nat :=
  l.ringRun.takeWhile fun p =>
    let x := tget LEntry.empty l.ring p
    x.valid && x.lap == (if p < l.wp.toNat then l.lap else !l.lap)

/-- Insert a record in segment-number order; one copy of a segment is enough. -/
def insertRec (r : ZoneRec) : List ZoneRec → List ZoneRec
  | [] => [r]
  | x :: t => if r.seq < x.seq then r :: x :: t else if r.seq = x.seq then x :: t else x :: insertRec r t

/-- The first segment that the ring supplies. -/
def Lehr.ringFirst (l : Lehr) : Nat := if l.validRun.isEmpty then l.segSeq + 2 else (l.ringSegs.head?.map (·.1)).getD l.segSeq

/-- The partner has supplied every entry of a record that is this device's own (11 R374). -/
def Lehr.supplied (l : Lehr) (r : ZoneRec) : Bool :=
  r.entries.zipIdx.all fun q => !q.1.valid || q.1.kind == .mirror || l.got.contains (r.seq, q.2)

/-- A record can be read: its drive is in use, or the partner has supplied it (11 R374). -/
def State.readableRec (s : State) (r : ZoneRec) : Bool := s.portUp r.port || s.lehr.supplied r

/-- The stream: the records from S0 on that can be read, then the ring, each entry with its segment's GBASE. Records of segments that the
ring still holds are left to the ring. -/
def State.stream (s : State) (s0 : Nat) : List (Word64 × LEntry) :=
  let l := s.lehr
  let run := l.validRun
  let zs := (l.records.filter fun (r : ZoneRec) => decide (s0 ≤ r.seq) && decide (r.seq < l.ringFirst) && s.readableRec r).foldl
    (fun a r => insertRec r a) []
  (zs.flatMap fun r => (r.entries.filter (·.valid)).map fun e => (r.gbase, e)) ++
    run.map fun p => (l.gbase (l.seqAt p), tget LEntry.empty l.ring p)

/-- The transactions of the stream above C. -/
def State.replayStream (s : State) (c : Word64) (s0 : Nat) : Rp :=
  (s.stream s0).foldl (fun r q => r.entry q.1 q.2) { last := c.toNat, acc := [], long := none, out := [], bad := none }

/-- The page tables of the recorded hedges, rebuilt from the durable mappings, larger pages first (11 R368; log 6). -/
def State.rebuildTables (s : State) : State :=
  let hs := (List.finRange 64).filter fun (h : HedgeId) => (tget none s.store h.val).isSome
  let s1 := hs.foldl (fun (t : State) h => t.newRoot h) s
  ([4, 3, 2, 1] : List Nat).foldl
    (fun (t : State) level =>
      s.durable.foldl
        (fun (u : State) kv =>
          let h : HedgeId := ⟨kv.1 / 2 ^ 48 % 64, Nat.mod_lt _ (by decide)⟩
          let va := kv.1 % 2 ^ 48
          if kv.2.1 = level && (u.hedge h).rootV then (State.splitTo h va (if level < 3 then 2 else 0) u).install h va level kv.2.2 else u) t) s1

/-- Apply a delta: its page is staged into HBM and marked dirty. -/
def State.replayDelta (s : State) (d : RDelta) : State :=
  (pageParts d.addr d.bytes.length).foldl
    (fun (t : State) q =>
      let t1 := t.stageIn d.hedge q.1 false
      match (t1.walk d.hedge q.1).1 with
      | .leaf at_ p level =>
        if p.res then
          (t1.hbmPut at_ 8 (p ||| 0x30).toNat).hbmWrite (p.frame * 4096 + q.1 % 2 ^ levelBits level)
            ((d.bytes.drop (q.1 - d.addr)).take q.2)
        else t1
      | _ => t1) s

/-- The REPLAY record: CAUSE 1 for a gap, with its GCS (16 Table 16-5). -/
def replayRecord (s : State) (g : Nat) : ErrRec :=
  { tick := s.aoTick, cls := 0x0C, sev := 2, unit := unitCode 7 0, status := 0, cause := 1, hedge := none, addr := none, slot := none,
    detail := bytesOfNat 8 g }

/-- The superblock copy with the highest segment number over the zones of the drives in use (11 R372, R374). -/
def State.bestSuper (s : State) : Option (Word64 × Nat) :=
  (((List.range 16).filter s.portUp).flatMap fun p =>
      let z := tget ZoneSuper.none s.lehr.supers p
      z.a.toList ++ z.b.toList).foldl
    (fun m v => match m with
      | some w => if w.2 < v.2 ∨ (w.2 = v.2 ∧ w.1.toNat < v.1.toNat) then some v else m
      | none => some v) none

/-- No zone has ever been opened: there is nothing to replay (log 71). -/
def Lehr.neverZoned (l : Lehr) : Bool := l.supers.isEmpty && l.records.isEmpty && l.validRun.isEmpty

/-- The records from S0 on that no zone it reads holds, and that the ring does not hold (11 R374). -/
def State.unread (s : State) (s0 : Nat) : List ZoneRec :=
  s.lehr.records.filter fun x => decide (s0 ≤ x.seq) && decide (x.seq < s.lehr.ringFirst) && !s.readableRec x &&
    !(s.lehr.records.any fun y => y.seq == x.seq && s.readableRec y)

/-- The holes of the ring's valid run: positions whose payload is lost, mirrored entries apart (16 R528). -/
def Lehr.runHoles (l : Lehr) : List Nat :=
  l.validRun.filter fun p => (tget LEntry.empty l.ring p).lost && (tget LEntry.empty l.ring p).kind != .mirror

/-- The link over which the partner may still supply those records and holes: pairing was on, the link is UP, and it has been asked for less
than 10 ms (11 R374, 16 R528, 17 R550). -/
def State.askingFor (s : State) (s0 : Nat) : Option LinkId :=
  if (s.unread s0).isEmpty && s.lehr.runHoles.isEmpty then none
  else s.lehr.pairOn.filter fun k => (s.link k).state == .up && match s.lehr.askedAt with
    | some t => decide (s.aoTick.toNat < t + 10000)
    | none => true

/-- Ask the partner once for each such segment and each hole. -/
def State.askPartner (s : State) (k : LinkId) (s0 : Nat) : State :=
  let l := s.lehr
  if l.askedAt.isSome then s
  else
    let s1 := (s.unread s0).foldl (fun (t : State) r => t.emit (.copyRequest k r.seq none))
      { s with lehr := { l with askedAt := some s.aoTick.toNat, asked := l.runHoles } }
    l.runHoles.foldl (fun (t : State) p => t.emit (.copyRequest k (l.seqAt p) (some (p % 1024)))) s1

/-- The GCS at which replay fails: no superblock can be read, a record from S0 on can be read nowhere, an unresolved hole lies in the valid
run, or R373. -/
def State.replayFails (s : State) (sb : Option (Word64 × Nat)) (r : Rp) : Option Nat :=
  let l := s.lehr
  let c := sb.elim 0 (·.1.toNat)
  if !((List.range 16).any s.portUp) || (sb.isNone && !l.neverZoned) then some c
  else if !(s.unread (sb.elim 0 (·.2))).isEmpty then some (c + 1)
  else if !l.runHoles.isEmpty then some (r.last + 1)
  else r.bad

/-- REPLAY: step 11 of Table 17-1: complete transactions above C are applied in GCS order, and D goes to the sequencer; while the partner is
asked for records that cannot be read it waits (11 R372 to R374, 10 R350, 17 R540). -/
def execReplay (s : State) : Outcome State Fault Refusal :=
  let sb := s.bestSuper
  let c := sb.elim 0 (·.1)
  let s0 := sb.elim 0 (·.2)
  .next (if s.keeper.step = 10 ∧ s.devstat = 1 ∧ !s.keeper.failLatched then
      match s.askingFor s0 with
      | some k => s.askPartner k s0
      | none =>
        let r := s.replayStream c s0
        match s.replayFails sb r with
        | some g => s.faulted.report (replayRecord s g)
        | none =>
          let s1 := r.out.foldl State.replayDelta s.rebuildTables
          let d : Word64 := BitVec.ofNat 64 r.last
          { s1 with
            lehr := { s1.lehr with drawn := d, applied := d, appliedSet := [], gcsdur := d, ckpt := c, s0 := s0 }
            keeper := { s1.keeper with step := 11 } }
    else s)

/-! ### Reopening (17 R550) -/

/-- RING_REOPEN: step 12: segments that no zone holds are written as full records, and the ring opens empty with a new segment
sequence number. `fails` = how often the write of each of them in turn fails before it succeeds; the start fails at three (17 R540, R550). -/
def execRingReopen (fails : List (Fin 4)) (s : State) : Outcome State Fault Refusal :=
  let l := s.lehr
  let run := l.validRun.length
  let todo := ({ l with inRing := run } : Lehr).ringSegs.filter fun q =>
    !(l.records.any fun (r : ZoneRec) => r.seq == q.1 && !r.partial_)
  .next (if s.keeper.step = 11 ∧ s.devstat = 1 ∧ !s.keeper.failLatched then
      if !todo.isEmpty && ((fails.take todo.length).contains 3 || s.freePlaces.isEmpty) then s.faulted.report (lehrRecord s 5 l.rp.toNat)
      else
        let rs := todo.map fun q =>
          let x := l.ringRecord q
          { x with entries := x.entries.takeWhile fun (e : LEntry) => e.valid || e.lost }
        let s1 := rs.zipIdx.foldl (fun (t : State) q => t.placeRetried q.1 (fails.getD q.2 0).val) s
        let s2 := State.mirrorsIn { s1 with lehr := s1.lehr.reopen (l.segSeq + 1), keeper := { s1.keeper with step := 12 } }
        if l.pairEn then l.ringSegs.foldl (fun (t : State) q => t.emit (.reclaimed ⟨l.link.toNat, by have := l.link.isLt; omega⟩ q.1)) s2 else s2
    else s)

end Sys2Proof.Machine
end

