-- ==== Sys2Proof/Machine/HostLong.lean ====
section
/-! DEFINITION. Long operations with their tokens, the confirmation of releases and the restart of wounded transactions (13 R437 to R439;
16 R519; 10 R324, R329). -/

namespace Sys2Proof.Machine

open Host (Outcome)

/-! ### Tokens and steps (13 R437 to R439) -/

/-- A new token: a free value other than 0 (log 2). -/
def State.newToken (s : State) (h : HedgeId) (op : Nat) (cmd : List Byte) (next : Nat) : Word64 × State :=
  let x := Config.freeValue 64 s.free
  let v := if x = 0 then 1 else x
  let t : Token := { value := v, op := BitVec.ofNat 8 op, cmd := cmd, next := next, posted := none, expired := false }
  (v, State.modHedge { s with free := s.free + 1 } h fun g => { g with tokens := g.tokens ++ [t] })

/-- TOKEN_EXPIRY: a token unused for 10 s (13 R438). -/
def execTokenExpiry (h : HedgeId) (v : Word64) (s : State) : Outcome State Fault Refusal :=
  .next (s.modHedge h fun g => { g with tokens := g.tokens.map fun (t : Token) => if t.value = v ∧ t.late s.aoTick then { t with expired := true } else t })

/-- The hedges with a queued step. -/
def State.stepHedges (s : State) : List HedgeId :=
  s.openHedges.filter fun h => (s.hedge h).fn.any fun f => (s.fn f).cur.any fun c => c.slot.any fun n =>
    match (s.slot n).work with
    | .step .. => true
    | .run | .bulk _ => false

/-- The hedge whose step firmware starts next: queued steps go round-robin among hedges (13 R437). -/
def State.stepNext (s : State) : Option HedgeId := leastBy (fun (h : HedgeId) => (h.val + 63 - s.longTurn.val) % 64) s.stepHedges

/-- Run `g`, on the state with the turn passed on, on the oldest command of a long opcode that a function has taken up, when its hedge is
next: with the slot of its step, the command that began its operation and the next unit. -/
def State.withStep (s : State) (f : FnId) (op : Nat) (g : State → HedgeId → Cmd → SlotId → List Byte → Nat → State) : State :=
  s.withCmd f op fun h c =>
    match c.slot.map fun n => (n, (s.slot n).work) with
    | some (n, .step cmd i) => if s.stepNext = some h then s.slowPath h fun s => g { s with longTurn := h } h c n cmd i else s
    | _ => s

/-- A step's completion: with CONT and a token while work remains; its slot waits for the posting, in APPLYING when the step read as a
read-only transaction (13 R423, R437, R439; 10 R342). -/
def State.stepDone (s : State) (f : FnId) (h : HedgeId) (c : Cmd) (n : SlotId) (cmd : List Byte) (gk : Gk) (gcs : Word64) (status : Byte)
    (result : Nat) (next : Option Nat) : State :=
  let r := match next with
    | some i => s.newToken h (cmdOp c.bytes) cmd i
    | none => (0, s)
  (((r.2.dropCur f c).modSlot n fun x => { x with state := if gk = .observed then .applying else .ending }).formed f
    { gk := if status = 0 then gk else .carried, gcs := gcs, result := BitVec.ofNat 64 result, hsn := cmdHsn c.bytes, sqhead := (s.fn f).sqHead
      status := status, cont := next.isSome, rp := false, detail := r.1, slot := some n, resync := false }).leaveReaders c

/-! ### SCAN (13 Table 13-12) -/

/-- How a scan step stops. -/
inductive ScanStop where
  | done | full | wait
  | locked (va : Nat)
  | fail (status : Byte)
  deriving DecidableEq, Repr

/-- Bytes that pad a record of `n` bytes to 16: the spec does not state them (log 2). -/
def padBytes (k n : Nat) : List Byte := (List.range ((16 - n % 16) % 16)).map fun i => Config.privateByte k i

/-- A scan step from unit `i` on: what it writes, endpoints written, the next unit, how it stops, and the records read. -/
structure Scan where
  out : List Byte
  written : Nat
  next : Nat
  stop : ScanStop
  recs : List (Nat × Nat)

/-- Run units while the buffer has room. -/
def State.scan (s : State) (h : HedgeId) (c : Cmd) (first room : Nat) : Nat → Scan → Scan
  | 0, r => r
  | n + 1, r =>
    let e := first + r.next
    if !s.inRange h e then { r with stop := .fail 0x05 }
    else
      let d := s.endpoint h e
      if !d.v then s.scan h c first room n { r with next := r.next + 1 }
      else
        match s.lockedRead h d.addr.toNat d.len.toNat c with
        | .wait => { r with stop := .wait }
        | .locked => { r with stop := .locked d.addr.toNat }
        | .fail st => { r with stop := .fail st }
        | .ok bs =>
          let o := (endpointBytes d) ++ bs ++ padBytes (s.free + r.next) bs.length
          if room < r.out.length + o.length then { r with stop := .full }
          else s.scan h c first room n
            { r with out := r.out ++ o, written := r.written + 1, next := r.next + 1, recs := r.recs ++ [(d.addr.toNat, d.len.toNat)] }

/-- SCAN: one step. -/
def execScan (f : FnId) (s : State) : Outcome State Fault Refusal :=
  .next (s.withStep f 0x10 fun s h c n cmd i0 =>
    let count := fieldOf cmd 20 4
    let r := s.scan h c (fieldOf cmd 16 4) (fieldOf cmd 40 4) (count - i0) ⟨[], 0, i0, .done, []⟩
    let s1 := r.recs.foldl (fun (t : State) q => t.accessed h q.1 q.2) { s with free := s.free + r.next }
    let s2 := if r.out.isEmpty then s1 else s1.emit (.host f (BitVec.ofNat 64 (fieldOf cmd 32 8)) r.out false)
    let rest := fun (i : Nat) => if i < count then some i else none
    match r.stop with
    | .wait => s
    | .locked va => s.joinReaders f h c va
    | .fail st =>
      if r.next = i0 then s2.stepDone f h c n cmd .carried 0 st 0 (rest (i0 + 1))
      else s2.stepDone f h c n cmd .observed s.lehr.drawn 0 r.written (rest r.next)
    | _ => s2.stepDone f h c n cmd .observed s.lehr.drawn 0 r.written (rest r.next))

/-! ### CHECKPOINT (13 Table 13-12; 11 R364, R366) -/

/-- Pages of a hedge that are dirty. -/
def State.dirtyOf (s : State) (h : HedgeId) : List Nat := (s.dirtyPages.filter fun p => p.1 == h).map (·.2)

/-- CHECKPOINT: one step; dirty pages wait until the journal on the SSDs holds the ring (09 R305 step 4). -/
def execCheckpoint (f : FnId) (s : State) : Outcome State Fault Refusal :=
  .next (s.withStep f 0x12 fun s h c n cmd i0 =>
    let s1 := if i0 = 0 ∧ cmdParam c.bytes = 0 ∧ !s.lehr.journalled then s.flush else s
    if !s1.lehr.journalled || s1.cleaningWaits ((s1.dirtyOf h).take 256 |>.map fun va => (h, va)) || s1.evicts.any (fun v => v.h == h && v.dirty) then s1
    else
      let ps := (s1.dirtyOf h).take 256
      let s2 := ps.foldl (fun (t : State) va => t.cleanPage h va) s1
      if (s2.dirtyOf h).isEmpty then s2.stepDone f h c n cmd .watermark s2.lehr.applied 0 ps.length none
      else s2.stepDone f h c n cmd .carried 0 0 ps.length (some (i0 + ps.length)))

/-! ### REBUILD (16 R519) -/

/-- The poisoned granules of [a, a+n) of HBM. -/
def State.badGranules (s : State) (a n : Nat) : List Nat :=
  let inside := fun (g : Nat) => decide (a ≤ 32 * g) && decide (32 * g < a + n)
  ((s.poison.map (·.1)).filter inside ++ (s.hbmLatent.filter fun kv => kv.2 == .uncorrectable && inside kv.1).map (·.1)).eraseDups

/-- The deltas of the retained journal above the checkpoint that have applied, in GCS order. -/
def State.retained (s : State) : List RDelta :=
  (s.replayStream s.lehr.ckpt s.lehr.s0).out.filter fun d => decide (d.gcs ≤ s.lehr.applied.toNat)

/-- A byte of a record after the deltas of its hedge. -/
def overlay (h : HedgeId) (va : Nat) (ds : List RDelta) (b : Byte) : Byte :=
  ds.foldl (fun x d => if d.hedge = h ∧ d.addr ≤ va ∧ va < d.addr + d.bytes.length then d.bytes.getD (va - d.addr) 0 else x) b

/-- A granule as committed: the page's blocks, or zeros where they were never written, under the retained deltas. -/
def State.rebuilt (s : State) (h : HedgeId) (q : Pte) (base off : Nat) (ds : List RDelta) : List Byte :=
  (List.range 32).map fun j =>
    overlay h (base + off + j) ds (if bit q 8 then 0 else tget 0 s.disk (diskAt q.ssd q.block + off + j))

/-- What the unit of one page comes to: the state, and whether it restored anything; none when its blocks cannot be read. -/
def State.rebuildPage (s : State) (h : HedgeId) (va : Nat) (bad : Bool) : Option (State × Bool) :=
  match (s.walk h va).1 with
  | .leaf _ p level =>
    let base := pageBase va level
    let fa := p.frame * 4096
    let gs := if p.res then s.badGranules fa (2 ^ levelBits level) else []
    let q : Pte := (tget (0, 0) s.durable (durKey h base)).2
    if gs.isEmpty then some (s, false)
    else if bad && !(bit q 8) then none
    else
      let ds := s.retained
      let s1 := gs.foldl (fun (t : State) g => t.hbmWrite (32 * g) (s.rebuilt h q base (32 * g - fa) ds)) s
      let va1 := base + ((leastOf gs).getD 0 * 32 - fa)
      some (s1.hedgeEvent h (mediaEvent s.lehr.drawn va1 2 gs.length), true)
  | _ => some (s, false)

/-- First address after the page of `va`. -/
def State.pageEnd (s : State) (h : HedgeId) (va : Nat) : Nat :=
  match (s.walk h va).1 with
  | .leaf _ _ level => pageBase va level + 2 ^ levelBits level
  | _ => pageBase va 1 + 4096

/-- A step of REBUILD: the state, pages restored, the next address, and whether a unit has failed. -/
structure Rebuild where
  s : State
  restored : Nat
  va : Nat
  failed : Bool

/-- Up to 256 units. -/
def Rebuild.run (h : HedgeId) (bad : Bool) (stop : Nat) : Nat → Rebuild → Rebuild
  | 0, r => r
  | n + 1, r =>
    if stop ≤ r.va then r
    else match r.s.rebuildPage h r.va bad with
      | none => { r with failed := true }
      | some (t, b) => Rebuild.run h bad stop n { r with s := t, restored := r.restored + b2n b, va := r.s.pageEnd h r.va }

/-- REBUILD: one step; `bad` = the storage blocks of a page that it needs cannot be read. It waits for the locks in its range as the pager
does. -/
def execRebuild (f : FnId) (bad : Bool) (s : State) : Outcome State Fault Refusal :=
  .next (s.withStep f 0x13 fun s h c n cmd i0 =>
    let a := fieldOf cmd 16 6
    let stop := a + fieldOf cmd 24 8
    if s.pageLocked h (a + i0) (stop - (a + i0)) then s
    else
      let r := Rebuild.run h bad stop 256 ⟨s, 0, a + i0, false⟩
      let rest := fun (va : Nat) => if va < stop then some (va - a) else none
      if r.failed && r.va == a + i0 then r.s.stepDone f h c n cmd .carried 0 0x04 0 (rest (r.s.pageEnd h r.va))
      else r.s.stepDone f h c n cmd .carried 0 0 r.restored (rest r.va))

/-! ### BULK (13 R437, R439, Table 13-12) -/

/-- The command of a unit: the header of the step and its block. -/
def unitCmd (cmd block : List Byte) : List Byte := (cmd.take 16) ++ block.take 48 ++ List.replicate (48 - block.length) 0

/-- The step of a slot ends: its completion, with a token while units remain. -/
def State.endStep (s : State) (n : SlotId) (b : Bulk) (status : Byte) (result next : Nat) : State :=
  let sl := s.slot n
  match (s.hedge sl.hedge).fn with
  | none => s.idleSlot n
  | some f =>
    let r := if next < b.count then s.newToken sl.hedge 0x11 (sl.cmd.take 16 ++ bytesOfNat 8 b.addr.toNat ++ bytesOfNat 8 b.count ++ List.replicate 32 0) next
      else ((0 : Word64), s)
    let s1 := r.2.modSlot n fun x => { x with state := if x.state = .applying then .applying else .ending, work := .bulk { b with gcs := b.gcs } }
    s1.formed f
      { gk := if status = 0 ∧ b.gcs.isSome then .own else .carried, gcs := b.gcs.getD 0, result := BitVec.ofNat 64 result
        hsn := cmdHsn sl.cmd, sqhead := (s.fn f).sqHead, status := status, cont := decide (next < b.count), rp := false, detail := r.1
        slot := some n, resync := false }

/-- Start the unit at the head of the blocks: its cells pass the template, and firmware draws a start sequence; one that its cells
refuse fails. -/
def State.startUnit (s : State) (n : SlotId) (b : Bulk) : State :=
  let sl := s.slot n
  match sl.prog, b.blocks with
  | some p, blk :: _ =>
    match s.runArgs sl.hedge p (unitCmd sl.cmd blk) with
    | .error st => if b.unit = b.first then s.endStep n b st 0 (b.unit + 1) else s.endStep n b 0 b.committed b.unit
    | .ok args =>
      let r := s.drawStart 2
      r.2.setSlot n { Slot.reset with
        state := .admitted, hedge := sl.hedge, retry := p.retry, start := r.1, cmd := unitCmd sl.cmd blk, prog := some p, args := args
        work := .bulk b, unacked := sl.unacked }
  | _, _ => s.endStep n b 0 b.committed b.unit

/-- BULK: the step starts its first unit in the slot drawn for it; `blocks` are the blocks from that unit on as read from host memory. -/
def execBulk (f : FnId) (blocks : List (List Byte)) (s : State) : Outcome State Fault Refusal :=
  .next (s.withStep f 0x11 fun s h c n cmd i0 =>
    let count := fieldOf cmd 24 4
    let addr : Word64 := BitVec.ofNat 64 (fieldOf cmd 16 8)
    let b : Bulk := { first := i0, unit := i0, count := count, addr := addr, blocks := blocks.take (count - i0), committed := 0, gcs := none,
                      timeUp := false, cut := false }
    if count ≤ i0 then s.stepDone f h c n cmd .carried 0 0 0 none
    else if blocks.isEmpty then s
    else
      (((s.dropCur f c).emit (.read f (addr + BitVec.ofNat 64 (48 * i0)) (48 * b.blocks.length))).modSlot n fun sl =>
        { sl with cmd := unitCmd c.bytes [], work := .bulk b }).startUnit n b)

/-- The rings of a slot's hedge are READY. -/
def State.slotOpen (s : State) (n : SlotId) : Bool :=
  match (s.hedge (s.slot n).hedge).fn with
  | some f => (s.fn f).state == .ready
  | none => false

/-- A unit of BULK has ended and its locks are released. -/
def State.unitDone (s : State) (n : SlotId) (b : Bulk) : State :=
  let sl := s.slot n
  let next := b.unit + 1
  if sl.status = 0 then
    let b1 : Bulk := { b with committed := b.committed + 1, gcs := sl.gcs.or b.gcs, unit := next, blocks := b.blocks.drop 1 }
    if b.timeUp || b1.blocks.isEmpty || !s.slotOpen n then s.endStep n b1 0 b1.committed next else s.startUnit n b1
  else if b.unit = b.first then s.endStep n b (if b.cut then 0x03 else sl.status) 0 next
  else s.endStep n b 0 b.committed b.unit

/-- LONG_STEP_TIME_LIMIT: the step's engine time reaches 20 µs: no further unit starts, and firmware ends one that runs (13 R437). -/
def execLongStepTimeLimit (slot : SlotId) (s : State) : Outcome State Fault Refusal :=
  let sl := s.slot slot
  .next (match sl.work with
    | .run | .step .. => s
    | .bulk b =>
      let b1 : Bulk := { b with timeUp := true }
      match s.holder slot with
      | some (e, c) =>
        if sl.endable && ((s.eng e).ctx c).state != .wait then
          (s.modSlot slot fun x => { x with work := .bulk { b1 with cut := true } }).stopCtx e c 0x01
        else s.modSlot slot fun x => { x with work := .bulk b1 }
      | none =>
        if sl.state = .admitted then
          if b.unit = b.first then s.endStep slot b1 0x03 0 (b.unit + 1) else s.endStep slot b1 0 b.committed b.unit
        else s.modSlot slot fun x => { x with work := .bulk b1 })

/-! ### The end of a transaction (10 R324, R329, Table 10-3 step 9) -/

/-- RELEASE_CONFIRM: every unit of the slot's mask has confirmed its release. -/
def execReleaseConfirm (slot : SlotId) (s : State) : Outcome State Fault Refusal :=
  let sl := s.slot slot
  .next (if sl.releasing ∧ sl.unitsLeft = 0 ∧ sl.blocks = 0 ∧ sl.stops = 0 then
      let s1 := s.modSlot slot fun x => { x with releasing := false, mask := 0, grants := [] }
      match sl.state, sl.work with
      | .restarting, _ => s1
      | _, .run | _, .step .. => s1.completeSlot slot
      | _, .bulk b => s1.unitDone slot b
    else s)

/-- WOUND_RESTART: a wounded transaction with retries left is admitted again, its locks released (10 R329). -/
def execWoundRestart (slot : SlotId) (s : State) : Outcome State Fault Refusal :=
  let sl := s.slot slot
  .next (if sl.state = .restarting ∧ !sl.releasing then s.slowPath sl.hedge fun s =>
      (s.setSlot slot { sl with
        state := .admitted, retry := sl.retry - 1, wound := false, status := 0, xword := 0, detail := 0, mediaMark := false, grants := [], mask := 0
        image := none }).modHedge sl.hedge Hedge.stir
    else s)

end Sys2Proof.Machine
end

