-- ==== Sys2Proof/Machine/Strings.lean ====
section
/-! DEFINITION. String executions and edits (07 R212 to R233): one execution per command. -/

namespace Sys2Proof.Machine

open Host (Outcome)

/-- Replace the field of `len` bits at `lo`. -/
def putBits {n : Nat} (v : BitVec n) (lo len val : Nat) : BitVec n :=
  BitVec.ofNat n (v.toNat - v.toNat / 2 ^ lo % 2 ^ len * 2 ^ lo + val % 2 ^ len * 2 ^ lo)

/-- BASE, LEN, POS of a CHR (07 Table 7-1). -/
def chrBase (c : Cell) : Nat := bits c.pay 17 0
def chrLen (c : Cell) : Nat := bits c.pay 37 19
def chrPos (c : Cell) : Nat := bits c.pay 56 38
/-- Bytes left. -/
def chrLeft (c : Cell) : Nat := chrLen c - chrPos c
/-- Address of the next byte. -/
def chrAt (c : Cell) : Nat := chrBase c + chrPos c
def chrCp (c : Cell) : Nat := bits c.pay 71 64
def chrPad (c : Cell) : Byte := c.pay.extractLsb' 72 8

/-- Well-formedness (07 R213). -/
def chrOk (c : Cell) : Bool :=
  !(bit c.pay 18) && bits c.pay 63 58 == 0 && (if c.sub = 1 then bits c.pay 127 115 == 0 else bits c.pay 127 80 == 0) &&
    decide (chrPos c ≤ chrLen c) && decide (chrBase c + chrLen c ≤ scratchEnd)

/-- A descriptor with a new POS, and PSN set where poison was seen (07 R217). -/
def chrStep (c : Cell) (pos : Nat) (psn : Bool) : Cell :=
  { c with pay := putBits (putBits c.pay 38 19 pos) 57 1 (b2n (psn || bit c.pay 57)) }

/-- Tag rule of a descriptor: P.NOCHK never admits another TYPE or SUB (07 R219). -/
def chrTags (l : List (Nat × Cell × Bool)) : Except SFault Unit := tagCheck false l

/-- A plain string or an edit pattern. -/
def isChr (c : Cell) (sub : BitVec 2) : Bool := c.ty = tyCHR && c.sub = sub

/-- A descriptor used as such: poison, then well-formedness (03 R84, 07 R213). -/
def chrUse (opnd : Nat) (c : Cell) : Except SFault Unit := do
  ensure (!c.p) (fPsn opnd 0)

/-- Well-formedness check (07 R219 step 1). -/
def chrForm (opnd : Nat) (c : Cell) : Except SFault Unit := ensure (chrOk c) (fData 3 opnd)

/-- The code-page index of a descriptor an execution translates through (07 R222). -/
def cpCheck (e : Engine) (opnd : Nat) (c : Cell) : Except SFault Unit :=
  ensure (chrCp c ≤ e.cptCount.toNat) (fData 3 opnd)

/-- Region of the bytes read through a descriptor; a guarded one may lie in the supervisor window at PL2 (07 R214); a table's key fault has
a cause of its own (07 R236, 08 Table 8-6). -/
def readRegion (v : Env) (e : Engine) (opnd : Nat) (c : Cell) (a n : Nat) (cause : Nat := 1) : Except SFault Unit :=
  let pl := if v.pl == 2 && c.g then 1 else v.pl
  ensure (e.open? pl a n) (fKey cause (((List.range n).find? fun i => !e.open? pl (a + i) 1).getD 0 + a) opnd)

/-- Region of the bytes written. -/
def writeRegion (v : Env) (e : Engine) (opnd a n : Nat) : Except SFault Unit :=
  ensure (e.open? v.pl a n) (fKey 1 (((List.range n).find? fun i => !e.open? v.pl (a + i) 1).getD 0 + a) opnd)

/-- Translate a byte through table `cp`; the flag says that the table byte was poisoned (07 R222). -/
def Engine.translate (e : Engine) (cp : Nat) (b : Byte) : Byte × Bool :=
  if cp = 0 then (b, false)
  else
    let a := e.cptBase.toNat * 256 + 256 * (cp - 1) + b.toNat
    (byteOfPay (e.cell (a / 16)).pay (a % 16), (e.cell (a / 16)).p)

/-- A byte of scratch while an execution has already written `done` from `start`: the byte and its poison (07 R225). -/
def byteSeen (e : Engine) (start : Nat) (done : List (Byte × Bool)) (a : Nat) : Byte × Bool :=
  let cell := e.cell (a / 16)
  if start ≤ a ∧ a < start + done.length then
    let q := done.getD (a - start) (0, false)
    (q.1, q.2 || cell.p)
  else (byteOfPay cell.pay (a % 16), cell.p)

/-- The bytes that an execution writes into scratch: a cell written in all its 16 bytes takes its P from them alone
(07 R220). -/
def Engine.storeRun (e : Engine) (a : Nat) (bs : List (Byte × Bool)) : Engine :=
  (cellsOf a bs.length).foldl
    (fun s k =>
      let lo := if a ≤ 16 * k then 0 else a - 16 * k
      let skip := if a ≤ 16 * k then 16 * k - a else 0
      let part := (bs.drop skip).take (16 - lo)
      let m := s.mergeCell k lo (part.map (·.1)) (part.any (·.2))
      let m1 := if part.length = 16 then { m with p := part.any (·.2) } else m
      ((s.meet k).push k m1).mark k (decide (lo < 8)) (decide (8 < lo + part.length))) e

/-- A string execution that does not complete leaves the PC at the instruction (07 R217). -/
def execDone (v : Env) (e : Engine) (c : Ctx) (count pops : Nat) (complete : Bool) (qs : List Cell) : Done :=
  let c1 := c.popPush pops qs
  { count := count, unit := some .ucode, eng := e, ctx := if complete then c1 else { c1 with pc := BitVec.ofNat 19 v.pc } }

/-! ### MVST and MVTR (07 R224 to R226) -/

/-- The bytes of one move: ascending, each read just before it is written; the last component collects poison read through
the source and poison of the table. -/
def moveBytes (e : Engine) (s d : Cell) (cp : Nat) : Nat → Nat → List (Byte × Bool) → Bool → Bool →
    List (Byte × Bool) × Bool × Bool
  | 0, _, acc, ps, pt => (acc, ps, pt)
  | n + 1, j, acc, ps, pt =>
    if chrPos s + j < chrLen s then
      let b := byteSeen e (chrAt d) acc (chrAt s + j)
      let t := e.translate cp b.1
      moveBytes e s d cp n (j + 1) (acc ++ [(t.1, b.2 || t.2)]) (ps || b.2) (pt || t.2)
    else moveBytes e s d cp n (j + 1) (acc ++ [(chrPad d, false)]) ps pt

/-- One execution of MVST (`tr` false, 64 bytes, 6 cy) or MVTR (32 bytes, 10 cy). -/
def moveString (tr : Bool) (v : Env) (e : Engine) (c : Ctx) : Except SFault Done := do
  let d := stackTop e c 0
  let s := stackTop e c 1
  chrTags [(0, d, isChr d 0), (1, s, isChr s 0)]
  chrUse 0 d
  chrUse 1 s
  chrForm 0 d
  chrForm 1 s
  if tr then cpCheck e 0 d
  let w := Nat.min (if tr then 32 else 64) (chrLeft d)
  let rs := Nat.min w (chrLeft s)
  readRegion v e 1 s (chrAt s) rs
  writeRegion v e 0 (chrAt d) w
  byteTargets v e (chrAt d) w
  byteTags v e (chrAt d) w
  let r := moveBytes e s d (if tr then chrCp d else 0) w 0 [] false false
  let s1 := chrStep s (chrPos s + rs) r.2.1
  let d1 := chrStep d (chrPos d + w) r.2.2
  let e1 := (e.meetAll (cellsOf (chrAt s) rs)).storeRun (chrAt d) r.1
  pure (execDone v e1 c (if tr then 10 else 6) 2 (chrPos d + w == chrLen d) [s1, d1])

/-- MVST ( s d -- s' d' ). -/
def execMvst (x : Iss) (s : State) : Outcome State Fault Refusal :=
  .next (s.issue x { delayBad := true, pops := 2, pushes := 2, reads := 2 } 0xB0 (moveString false) id)

/-- MVTR ( s d -- s' d' ). -/
def execMvtr (x : Iss) (s : State) : Outcome State Fault Refusal :=
  .next (s.issue x { delayBad := true, pops := 2, pushes := 2, reads := 2 } 0xB1 (moveString true) id)

/-! ### CMST and SCST (07 R227 to R229) -/

/-- The translated byte of a string at a position, its PAD beyond LEN, with the poison seen. -/
def cmpByte (e : Engine) (s : Cell) (pos : Nat) : Byte × Bool :=
  if pos < chrLen s then
    let cell := e.cell ((chrBase s + pos) / 16)
    let t := e.translate (chrCp s) (byteOfPay cell.pay ((chrBase s + pos) % 16))
    (t.1, cell.p || t.2)
  else e.translate (chrCp s) (chrPad s)

/-- Compare up to `n` pairs: positions reached, poison seen in each, and the result when an unequal pair was met. -/
def cmpPairs (e : Engine) (a b : Cell) : Nat → Nat → Nat → Bool → Bool → Nat × Nat × Bool × Bool × Option Int
  | 0, i, j, p, q => (i, j, p, q, none)
  | n + 1, i, j, p, q =>
    if i = chrLen a ∧ j = chrLen b then (i, j, p, q, none)
    else
      let x := cmpByte e a i
      let y := cmpByte e b j
      if x.1 = y.1 then
        cmpPairs e a b n (if i < chrLen a then i + 1 else i) (if j < chrLen b then j + 1 else j) (p || x.2) (q || y.2)
      else (i, j, p || x.2, q || y.2, some (if x.1.toNat < y.1.toNat then -1 else 1))

/-- CMST ( a b -- a' b' r ). -/
def execCmst (x : Iss) (s : State) : Outcome State Fault Refusal :=
  .next (s.issue x { delayBad := true, pops := 2, pushes := 3, reads := 2 } 0xB2
    (fun v e c => do
      let b := stackTop e c 0
      let a := stackTop e c 1
      chrTags [(0, b, isChr b 0), (1, a, isChr a 0)]
      chrUse 0 b
      chrUse 1 a
      chrForm 0 b
      chrForm 1 a
      cpCheck e 0 b
      cpCheck e 1 a
      let na := Nat.min 64 (chrLeft a)
      let nb := Nat.min 64 (chrLeft b)
      readRegion v e 1 a (chrAt a) na
      readRegion v e 0 b (chrAt b) nb
      let r := cmpPairs e a b 64 (chrPos a) (chrPos b) false false
      let a1 := chrStep a r.1 r.2.2.1
      let b1 := chrStep b r.2.1 r.2.2.2.1
      let res := match r.2.2.2.2 with
        | some k => some k
        | none => if r.1 = chrLen a ∧ r.2.1 = chrLen b then some 0 else none
      let e1 := e.meetAll (cellsOf (chrAt a) na ++ cellsOf (chrAt b) nb)
      match res with
      | some k => pure (execDone v e1 c 6 2 true [a1, b1, cellInt k (bit a1.pay 57 || bit b1.pay 57)])
      | none => pure (execDone v e1 c 6 2 false [a1, b1])) id)

/-- Scan up to `n` bytes: position reached, poison seen, and whether the scan stopped at a byte. -/
def scanBytes (e : Engine) (s : Cell) (want : Byte) (ne : Bool) : Nat → Nat → Bool → Nat × Bool × Bool
  | 0, i, p => (i, p, false)
  | n + 1, i, p =>
    if chrLen s ≤ i then (i, p, false)
    else
      let b := cmpByte e s i
      if (b.1 == want) != ne then (i, p || b.2, true) else scanBytes e s want ne n (i + 1) (p || b.2)

/-- SCST ( s b -- s' f ). -/
def execScst (x : Iss) (s : State) : Outcome State Fault Refusal :=
  .next (s.issue x { delayBad := true, pops := 2, pushes := 2, reads := 2 } 0xB3
    (fun v e c => do
      let b := stackTop e c 0
      let a := stackTop e c 1
      chrTags [(0, b, b.isInt), (1, a, isChr a 0)]
      chrUse 1 a
      ensure (bits b.pay 63 9 == 0) (fData 4 0)
      chrForm 1 a
      cpCheck e 1 a
      let n := Nat.min 64 (chrLeft a)
      readRegion v e 1 a (chrAt a) n
      let r := scanBytes e a (b.pay.extractLsb' 0 8) (bit b.pay 8) 64 (chrPos a) false
      let a1 := chrStep a r.1 r.2.1
      let e1 := e.meetAll (cellsOf (chrAt a) n)
      if r.2.2 || r.1 == chrLen a then
        pure (execDone v e1 c 6 2 true [a1, cellBool r.2.2 (bit a1.pay 57 || b.p)])
      else pure (execDone v e1 c 6 2 false [a1, b])) id)

/-! ### EDIT and EDMK (07 R230 to R233) -/

/-- The running state of an edit, with what has been written and the poison seen. -/
structure Edit where
  digit : Nat
  sig : Bool
  ns : Bool
  mv : Bool
  fs : Bool
  mark : Nat
  out : List (Byte × Bool)
  psn : Bool
  deriving DecidableEq, Repr

/-- One pattern byte (07 R231). `at_` is the address of the next output byte. -/
def Edit.step (t : Edit) (edmk neg dp : Bool) (d : Payload) (fill : Byte) (start : Nat) (c : Byte) (poison : Bool) : Edit :=
  let g := Nat.min 9 (decNibble d t.digit)
  let at_ := start + t.out.length
  let q := poison || dp
  let put := fun (t : Edit) (b : Byte) => { t with out := t.out ++ [(b, q)], psn := t.psn || q }
  let putFill := fun (t : Edit) =>
    let t1 := if edmk && !t.mv then { t with mark := at_, fs := true } else t
    put t1 fill
  if !poison && (c = 0x01 || c = 0x02) then
    let t1 := { t with digit := t.digit + 1 }
    if c = 0x02 || t.sig || g ≠ 0 then
      put { t1 with mv := t1.mv || edmk, sig := true } (BitVec.ofNat 8 (0x30 + g))
    else putFill t1
  else if !poison && c = 0x03 then put t (if neg then 0x2D else 0x2B)
  else if !poison && c = 0x04 then (if neg then put t 0x2D else putFill t)
  else if !poison && c = 0x05 then { t with ns := true }
  else if !poison && c = 0x06 then { t with ns := false }
  else if t.ns then (if neg then put t c else putFill t)
  else if t.sig then put t c
  else putFill t

/-- A pattern byte of a reserved value; a poisoned one is a message byte (07 Table 7-4, R230). -/
def reservedPattern (c : Byte × Bool) : Bool := !c.2 && (c.1 == 0x00 || (7 ≤ c.1.toNat && c.1.toNat ≤ 0x1F))

/-- A digit position (07 R232). -/
def digitByte (c : Byte × Bool) : Bool := !c.2 && (c.1 == 0x01 || c.1 == 0x02)

/-- A section byte, which gives no output. -/
def sectionByte (c : Byte × Bool) : Bool := !c.2 && (c.1 == 0x05 || c.1 == 0x06)

/-- The pattern descriptor after an execution (07 R217). -/
def patternStep (p : Cell) (pos : Nat) (t : Edit) (edmk : Bool) : Cell :=
  let p1 := chrStep p pos t.psn
  let v := putBits (putBits (putBits p1.pay 88 5 t.digit) 93 1 (b2n t.sig)) 113 1 (b2n t.ns)
  { p1 with pay := if edmk then putBits (putBits (putBits v 94 1 (b2n t.mv)) 95 18 t.mark) 114 1 (b2n t.fs) else v }

/-- One execution of EDIT or EDMK: 32 pattern bytes, 20 cy. -/
def editBody (edmk : Bool) (v : Env) (e : Engine) (c : Ctx) : Except SFault Done := do
  let o := stackTop e c 0
  let p := stackTop e c 1
  let d := stackTop e c 2
  chrTags [(0, o, isChr o 0), (1, p, isChr p 1), (2, d, d.isDec)]
  chrUse 0 o
  chrUse 1 p
  chrForm 0 o
  chrForm 1 p
  decUse 2 d
  let n := Nat.min 32 (chrLeft p)
  readRegion v e 1 p (chrAt p) n
  writeRegion v e 0 (chrAt o) (Nat.min n (chrLeft o))
  let pat := (List.range n).map fun i =>
    let a := chrAt p + i
    (byteOfPay (e.cell (a / 16)).pay (a % 16), (e.cell (a / 16)).p)
  let outs := Nat.min (pat.filter fun q => !sectionByte q).length (chrLeft o)
  byteTargets v e (chrAt o) outs
  byteTags v e (chrAt o) outs
  ensure (chrLeft p ≤ chrLeft o) (fData 4 0)
  ensure (!pat.any reservedPattern) (fData 4 1)
  let digit := bits p.pay 92 88
  let k := (pat.filter digitByte).length
  ensure (if n = chrLeft p then k + digit == 31 else decide (k + digit ≤ 31)) (fData 4 1)
  ensure (!(chrPos p == 0 && (List.range digit).any fun i => decNibble d.pay i != 0)) (fArith 4 2)
  let neg := decMinus d.pay && decMag d.pay != 0
  let t0 : Edit :=
    { digit := digit, sig := bit p.pay 93, ns := bit p.pay 113, mv := bit p.pay 94, fs := bit p.pay 114,
      mark := bits p.pay 112 95, out := [], psn := d.p }
  let t := pat.foldl (fun t q => t.step edmk neg d.p d.pay (p.pay.extractLsb' 80 8) (chrAt o) q.1 q.2)
    { t0 with psn := t0.psn || pat.any (·.2) }
  let p1 := patternStep p (chrPos p + n) t edmk
  let o1 := chrStep o (chrPos o + t.out.length) false
  let e1 := (e.meetAll (cellsOf (chrAt p) n)).storeRun (chrAt o) t.out
  if n = chrLeft p then
    let m := if t.mv && t.fs then cellInt t.mark (bit p1.pay 57) else { Cell.nil with p := bit p1.pay 57 }
    pure (execDone v e1 c 20 3 true (if edmk then [p1, o1, m] else [p1, o1]))
  else pure (execDone v e1 c 20 3 false [d, p1, o1])

/-- EDIT ( d p o -- p' o' ). -/
def execEdit (x : Iss) (s : State) : Outcome State Fault Refusal :=
  .next (s.issue x { delayBad := true, pops := 3, pushes := 2, reads := 3 } 0xB4 (editBody false) id)

/-- EDMK ( d p o -- p' o' m ). -/
def execEdmk (x : Iss) (s : State) : Outcome State Fault Refusal :=
  .next (s.issue x { delayBad := true, pops := 3, pushes := 3, reads := 3 } 0xB5 (editBody true) id)

end Sys2Proof.Machine
end

