-- ==== Sys2Proof/Machine/RateTable.lean ====
section
/-! DEFINITION. TLI: the lookup of a rate table (07 R234 to R241). -/

namespace Sys2Proof.Machine

open Host (Outcome)

/-- The fields of a RATE cell (07 Table 7-6). -/
structure Rate where
  base : Nat
  points : Nat
  mode : Nat
  kt : Nat
  vtFlt : Bool
  low : Nat
  high : Nat
  shift : Nat
  deriving DecidableEq, Repr

/-- Read a RATE payload. -/
def rateOf (r : Cell) : Rate :=
  { base := bits r.pay 17 0, points := bits r.pay 30 19 + 1, mode := bits r.pay 33 32, kt := bits r.pay 35 34,
    vtFlt := bit r.pay 36, low := bits r.pay 38 37, high := bits r.pay 40 39, shift := bits r.pay 45 41 }

/-- Well-formedness (07 R234). -/
def rateOk (r : Cell) : Bool :=
  let q := rateOf r
  !(bit r.pay 18) && !(bit r.pay 31) && bits r.pay 127 46 == 0 && q.mode != 3 && q.low != 3 && q.high != 3 &&
    q.base % 16 == 0 && decide (q.base + 32 * (q.points + 1) ≤ scratchEnd) && !(q.mode == 2 && q.kt == 3)

/-- TYPE of keys and of values. -/
def Rate.keyTy (q : Rate) : BitVec 4 := match q.kt with | 0 => tyINT | 1 => tyDEC | 2 => tyFLT | _ => tyTIME
def Rate.valTy (q : Rate) : BitVec 4 := if q.vtFlt then tyFLT else tyDEC

/-- Cell numbers of LO, HI, key j and value j (07 Table 7-7). -/
def Rate.loK (q : Rate) : Nat := q.base / 16
def Rate.hiK (q : Rate) : Nat := q.base / 16 + 1
def Rate.keyK (q : Rate) (j : Nat) : Nat := q.base / 16 + 2 + 2 * j
def Rate.valK (q : Rate) (j : Nat) : Nat := q.base / 16 + 3 + 2 * j

/-- A key or value as a number scaled by 2^1074, none for a NaN (07 R240). -/
def rateNum (ty : BitVec 4) (c : Cell) : Option Ext :=
  if ty = tyINT then some (.val (c.int * 2 ^ 1074))
  else if ty = tyDEC then some (.val (decVal c.pay * 2 ^ 1074))
  else if ty = tyFLT then (fltOf c.lo).ext
  else some (.val ((c.lo.toNat : Int) * 2 ^ 1074))

/-- a < b, false with a NaN. -/
def extLt (a b : Option Ext) : Bool :=
  match a, b with
  | some x, some y => x.cmp y == .lt
  | _, _ => false

/-- a <= b, false with a NaN. -/
def extLe (a b : Option Ext) : Bool :=
  match a, b with
  | some x, some y => x.cmp y != .gt
  | _, _ => false

/-- The binary search (07 R237): the index and the probed keys. -/
def rateSearch (key : Nat → Option Ext) (x : Option Ext) : Nat → Nat → Nat → List Nat → Nat × List Nat
  | 0, lo, hi, ps => (if extLe (key hi) x then hi else lo, ps)
  | n + 1, lo, hi, ps =>
    if 1 < hi - lo then
      let mid := (lo + hi) / 2
      if extLe (key mid) x then rateSearch key x n mid hi (ps ++ [mid]) else rateSearch key x n lo mid (ps ++ [mid])
    else (if extLe (key hi) x then hi else lo, ps)

/-- Where x lies outside the keys. -/
inductive RRange where
  | inside | below | above
  deriving DecidableEq, Repr

/-- What the lookup comes to: the point, the probed keys, the range, and the segment of LINEAR (07 R237, R238). -/
structure Lookup where
  i : Nat
  probes : List Nat
  range : RRange
  fault : Bool
  seg : Option (Nat × Nat)
  deriving DecidableEq, Repr

/-- The procedure of R237 and the segment of R238. -/
def rateLookup (q : Rate) (key : Nat → Option Ext) (x : Option Ext) : Lookup :=
  let n := q.points
  let range := if extLt x (key 0) then RRange.below else if extLt (key (n - 1)) x then .above else .inside
  match range with
  | .inside =>
    let r := rateSearch key x 13 0 (n - 1) []
    { i := r.1, probes := r.2, range := .inside, fault := false,
      seg := if q.mode = 1 ∧ r.1 + 1 < n then some (r.1, r.1 + 1) else none }
  | .below =>
    { i := 0, probes := [], range := .below, fault := q.low == 2,
      seg := if q.low = 1 ∧ q.mode = 1 ∧ 2 ≤ n then some (0, 1) else none }
  | .above =>
    { i := n - 1, probes := [], range := .above, fault := q.high == 2,
      seg := if q.high = 1 ∧ q.mode = 1 ∧ 2 ≤ n then some (n - 2, n - 1) else none }

/-- Round num / den x 2^-1074 to a cell of the value's TYPE; none where a DEC is not representable (07 R238, R239). -/
def rateRound (q : Rate) (mode : BitVec 3) (p : Bool) (num : Int) (den : Nat) : Option Cell :=
  let neg := decide (num < 0)
  if q.vtFlt then
    let m := num.natAbs * 2 ^ 2200
    some (cellFlt (if num = 0 then fltZero false else fltRound mode neg (m / den) (-3274) (m % den != 0)) p)
  else
    let k := roundDiv mode neg num.natAbs (den * 2 ^ 1074)
    if k < decLimit then some (cellDec (decMake neg k) p) else none

/-- A value copied as STEP does: a DEC with its preferred sign, a FLT NaN canonical. -/
def rateCopy (q : Rate) (p : Bool) (c : Cell) : Cell :=
  if q.vtFlt then cellFlt (match fltOf c.lo with | .nan => fltNaN | _ => c.lo) p
  else cellDec (decMake (decMinus c.pay) (decMag c.pay)) p

/-- Clamp a rounded DEC magnitude or a FLT between LO and HI (07 R238). -/
def rateClamp (q : Rate) (p : Bool) (y : Cell) (lo hi : Cell) : Cell :=
  let v := rateNum q.valTy y
  if extLt v (rateNum q.valTy lo) then rateCopy q p lo
  else if extLt (rateNum q.valTy hi) v then rateCopy q p hi else y

/-- The value of CLAMPED as a number scaled by 2^1074 after its one rounding, clamped (07 R238). -/
def rateClamped (q : Rate) (mode : BitVec 3) (p : Bool) (x v : Int) (lo hi : Cell) : Cell :=
  if q.vtFlt then
    match rateRound q mode p (x * v) (10 ^ q.shift * 2 ^ 1074) with
    | some y => rateClamp q p y lo hi
    | none => rateCopy q p lo
  else
    let neg := decide (x * v < 0)
    let k := roundDiv mode neg (x * v).natAbs (10 ^ q.shift * 2 ^ 2148)
    let y : Int := if neg then -(k : Int) else k
    if y < decVal lo.pay then rateCopy q p lo
    else if decVal hi.pay < y then rateCopy q p hi else cellDec (decMake neg k) p

/-- Every touched cell has its TYPE, in the order touched; then every DEC one is valid (07 R241 steps 5 and 6). -/
def touchedTypes (e : Engine) : List (Nat × BitVec 4) → Except SFault Unit
  | [] => .ok ()
  | (k, ty) :: t => if (e.cell k).ty = ty && (e.cell k).wellFormed then touchedTypes e t else .error (fTagCell 3 (16 * k))

def touchedValid (e : Engine) : List (Nat × BitVec 4) → Except SFault Unit
  | [] => .ok ()
  | (k, ty) :: t =>
    if ty = tyDEC && !(e.cell k).p then
      match decBad (e.cell k).pay with
      | some i => .error (fData 1 0 i)
      | none => touchedValid e t
    else touchedValid e t

/-- Body of TLI ( r x -- r y ). `open_` is the free value for a result that the spec does not state: an infinity, or a NaN
key, in the arithmetic of LINEAR or CLAMPED (log 16). -/
def tliBody (open_ : Payload) (v : Env) (e : Engine) (c : Ctx) : Except SFault Done := do
  let x := stackTop e c 0
  let r := stackTop e c 1
  tagCheck v.nochk [(0, x, true), (1, r, r.ty = tyRATE)]
  ensure (!r.p) (fPsn 1 0)
  ensure (rateOk r) (fData 3 1)
  let q := rateOf r
  ensure (v.nochk || x.ty = q.keyTy) (fTag 0)
  if q.kt = 1 then decUse 0 x
  let xv := rateNum q.keyTy x
  ensure xv.isSome (fData 4 0)
  readRegion v e 1 r q.base (32 * (q.points + 1)) 5
  let key := fun j => rateNum q.keyTy (e.cell (q.keyK j))
  let l := rateLookup q key xv
  let segKeys := match l.seg with
    | some (a, b) => [(q.keyK a, q.keyTy), (q.valK a, q.valTy), (q.keyK b, q.keyTy), (q.valK b, q.valTy)]
    | none => []
  let touched := [(q.keyK 0, q.keyTy), (q.keyK (q.points - 1), q.keyTy)] ++ l.probes.map (fun j => (q.keyK j, q.keyTy)) ++
    [(q.valK l.i, q.valTy)] ++ segKeys ++ (if q.mode = 2 then [(q.loK, q.valTy), (q.hiK, q.valTy)] else [])
  touchedTypes e touched
  touchedValid e touched
  ensure (!l.fault) (fData 4 0)
  let p := x.p || touched.any fun t => (e.cell t.1).p
  let num := fun k => rateNum q.valTy (e.cell k)
  let free : Cell := if q.vtFlt then cellFlt (open_.extractLsb' 0 64) p else cellDec open_ p
  let done := fun (y : Cell) =>
    ({ count := 20, unit := some .ucode, eng := e.meetAll (touched.map (·.1)), ctx := c.popPush 2 [r, y] } : Done)
  match l.seg with
  | some (a, b) =>
    ensure (!extLe (key b) (key a)) (fData 4 1)
    match num (q.valK a), num (q.valK b) with
    | none, _ => pure (done (cellFlt fltNaN p))
    | _, none => pure (done (cellFlt fltNaN p))
    | some va, some vb =>
      match xv, key a, key b, va, vb with
      | some (.val X), some (.val ka), some (.val kb), .val wa, .val wb =>
        match rateRound q v.rm p (wa * (kb - ka) + (X - ka) * (wb - wa)) (kb - ka).toNat with
        | some y => pure (done y)
        | none => .error (fArith 1)
      | _, _, _, _, _ => pure (done free)
  | none =>
    if q.mode = 2 then
      let lo := e.cell q.loK
      let hi := e.cell q.hiK
      ensure (!extLt (rateNum q.valTy hi) (rateNum q.valTy lo)) (fData 4 1)
      match num (q.valK l.i), rateNum q.valTy lo, rateNum q.valTy hi with
      | some vi, some _, some _ =>
        match xv, vi with
        | some (.val X), .val w => pure (done (rateClamped q v.rm p X w lo hi))
        | _, _ => pure (done (rateClamp q p free lo hi))
      | _, _, _ => pure (done (cellFlt fltNaN p))
    else pure (done (rateCopy q p (e.cell (q.valK l.i))))

/-- TLI (07 R237): 20 cy on the microcode sequencer. -/
def execTli (x : Iss) (s : State) : Outcome State Fault Refusal :=
  .next (s.issue x { rnd := true, delayBad := true, pops := 2, pushes := 2, reads := 2 } 0xB6
    (tliBody (Config.freeValue 128 s.free)) fun t => { t with free := t.free + 1 })

end Sys2Proof.Machine
end

