-- ==== Sys2Proof/Machine/HostAdmin.lean ====
section
/-! DEFINITION. The commands of the admin ring, and the assignment of engines to hedges (02 R36 to R38, R46, R54, R61; 13 R446 to R452;
14 R475, R478; 15 R495, R500; 17 R551). -/

namespace Sys2Proof.Machine

open Host (Outcome)

/-! ### Shared -/

/-- Run `g` on the oldest command of an opcode of an admin ring, once the bounce queue is empty (02 R52). -/
def State.withAdmin (s : State) (f : FnId) (op : Nat) (g : Cmd → State) : State :=
  match (s.fn f).oldest op with
  | some c => if isPf f && s.bounced.isEmpty then g c else s
  | none => s

/-- The hedge that byte 16 names, when there is one of that number. -/
def cmdHedge (b : List Byte) : Option HedgeId := if q : fieldOf b 16 1 < 64 then some ⟨fieldOf b 16 1, q⟩ else none

/-- The open hedge that byte 16 names. -/
def State.openHedge? (s : State) (b : List Byte) : Option HedgeId :=
  (cmdHedge b).bind fun h => if (s.hedge h).fn.isSome && !(s.hedge h).closing then some h else none

/-- Host address and length of a command's buffer. -/
def cmdBuf (b : List Byte) : Word64 := BitVec.ofNat 64 (fieldOf b 32 8)
def cmdLen (b : List Byte) : Nat := fieldOf b 40 4

/-- An admin command for a hedge, which has read its buffer, ends OK (02 R60). -/
def State.adminDone (s : State) (f : FnId) (c : Cmd) (h : HedgeId) (len : Nat) (result : Word64) (table : Option HedgeId := none) : State :=
  (((s.flushFor h).keepDef h).emit (.read f (cmdBuf c.bytes) len)).reply f c .carried 0 0 result 0 table

/-! ### Parameter blocks (13 R447, 02 Table 2-1) -/

/-- The fields of a parameter block. -/
def paramsOf (b : List Byte) : Params :=
  let fl := fieldOf b 4 1
  let n := fun off len => fieldOf b off len
  { emin := n 0 2, emax := n 2 2, exclusive := fl % 2 == 1, critical := fl / 2 % 2 == 1, pflush := fl / 4 % 2 == 1
    strict := fl / 8 % 2 == 1, rso := fl / 16 % 2 == 1, cb := n 5 1 % 8, cw := n 5 1 / 16 % 8 + 1, warm := n 6 2, sres := n 8 4
    scap := n 12 4, dbase := n 16 4, dcount := n 20 4, locks := n 24 4, lquota := n 28 2, wdog := BitVec.ofNat 16 (n 30 2)
    gcommit := n 32 4, swinBase := BitVec.ofNat 6 (n 36 1), swinSize := BitVec.ofNat 5 (n 37 1), ghbm := n 38 1
    cptCount := BitVec.ofNat 8 (n 40 1), cptBase := BitVec.ofNat 10 (n 41 2), stockBase := BitVec.ofNat 18 (n 44 4)
    stockSlots := n 44 4 / 2 ^ 18, store := n 48 8 }

/-- Reserved bytes and bits of a parameter block. -/
def paramZeros (b : List Byte) : Bool :=
  zeroFrom b 56 72 && zeroFrom b 39 1 && fieldOf b 4 1 / 32 == 0 && fieldOf b 5 1 / 8 % 2 == 0 && fieldOf b 5 1 / 128 == 0 &&
    fieldOf b 36 1 / 64 == 0 && fieldOf b 37 1 / 32 == 0 && fieldOf b 40 4 / 2 ^ 18 == 0

/-- The supervisor window of a hedge's engines. -/
def Params.swinLo (p : Params) : Nat := p.swinBase.toNat * 4096
def Params.swinBytes (p : Params) : Nat := p.swinSize.toNat * 4096

/-- The ranges of Table 2-1 and of the registers the fields go to (03 R79, 07 R223, 11 Table 11-8, 13 Table 13-14). -/
def Params.ranges (p : Params) : Bool :=
  decide (1 ≤ p.emin) && decide (p.emin ≤ 256) && decide (p.emin ≤ p.emax) &&
    (!p.exclusive || (p.emin % 8 == 0 && p.emax % 8 == 0)) && decide (p.warm ≤ p.emin) && decide (p.cb + p.cw ≤ 8) &&
    decide (64 ≤ p.sres) && decide (p.sres ≤ p.scap) && decide (p.scap ≤ 131072) &&
    p.dbase % 4096 == 0 && p.dcount % 4096 == 0 && decide (p.dbase + p.dcount ≤ 2 ^ 25) && p.locks % 4096 == 0 &&
    decide (512 ≤ p.lquota) && decide (p.lquota ≤ 8192) &&
    p.swinSize != 0 && decide (p.swinSize.toNat ≤ 16) && p.swinBase != 0 && decide (p.swinBase.toNat + p.swinSize.toNat ≤ 0x38) &&
    (p.cptCount == 0 || (decide (8 ≤ p.cptBase.toNat) && decide (p.cptBase.toNat + p.cptCount.toNat ≤ 0x380))) &&
    p.stockBase.toNat % 16 == 0 &&
    (p.stockSlots == 0 || (decide (p.swinLo ≤ p.stockBase.toNat) && decide (p.stockBase.toNat + 16 * p.stockSlots ≤ p.swinLo + p.swinBytes)))

/-- Hedges that are not open and yet hold their number, their VF and their share of the sums: the one that a migration brings in, and
those recorded here that are held closed (02 R38, 17 R553, R556). -/
def State.claims (s : State) : List (HedgeId × HedgeDef) :=
  (s.pleach.incoming.map fun q => (q.1.here, q.2)).toList ++ (List.finRange 64).filterMap fun h =>
    if (s.hedge h).fn.isNone then (tget none s.store h.val).map fun d => (h, d) else none

/-- A hedge number is taken, and a VF is (02 R38). -/
def State.numberTaken (s : State) (h : HedgeId) : Bool := (s.hedge h).fn.isSome || s.claims.any fun q => q.1 == h
def State.vfTaken (s : State) (v : FnId) : Bool := (s.fn v).hedge.isSome || s.claims.any fun q => q.2.fn == v

/-- The other hedges' parameters, those of the hedges held closed among them. -/
def State.others (s : State) (h : HedgeId) : List Params :=
  ((s.openHedges.filter fun i => i != h).map fun i => (s.hedge i).par) ++ (s.claims.filter fun q => q.1 != h).map (·.2.par)

/-- Directory ranges are disjoint (02 Table 2-1). -/
def State.dirFree (s : State) (h : HedgeId) (p : Params) : Bool :=
  (s.others h).all fun q => !overlaps p.dbase p.dcount q.dbase (q.dbase + q.dcount) || q.dcount == 0

/-- The sum limits of Table 2-1 and R478 hold with the parameters. -/
def State.sumsOk (s : State) (h : HedgeId) (p : Params) : Bool :=
  let sum := fun (f : Params → Nat) => f p + ((s.others h).map f).sum
  decide (sum (·.emin) ≤ 256) && decide (sum (·.sres) ≤ 131072) && decide (sum (·.locks) ≤ 16777216) &&
    decide (sum (·.gcommit) ≤ 140000) && decide (sum (·.ghbm) ≤ 179)

/-- A parameter block is in range for a hedge. -/
def State.paramBlockOk (s : State) (h : HedgeId) (b : List Byte) : Bool := paramZeros b && (paramsOf b).ranges && s.dirFree h (paramsOf b)

/-! ### Loading an engine (13 R450 to R452, 02 R46, 07 R215) -/

/-- Cells of a rate table: LO, HI, then a key and a value for each point, each with its tag (07 Table 7-7). -/
def rateCell (q : Rate) (i : Nat) (bs : List Byte) : Cell :=
  { ty := if i < 2 then q.valTy else if i % 2 = 0 then q.keyTy else q.valTy, sub := 0, p := false, g := false, pay := payOfBytes bs }

/-- A stock cell: RATE, or CHR of SUB 0b00 or 0b01, guarded (13 R452). -/
def LoadedTable.cell (t : LoadedTable) : Cell :=
  { ty := if t.kind = 0 then tyRATE else tyCHR, sub := if t.kind = 2 then 1 else 0, p := false, g := true, pay := t.desc }

/-- A loaded table's bytes and stock cell go to an engine. -/
def Engine.loadTable (p : Params) (e : Engine) (t : LoadedTable) : Engine :=
  let e1 := if t.kind = 0 then
      (List.range (t.bytes.length / 16)).foldl
        (fun (g : Engine) i => g.writeThrough (t.dest / 16 + i) (rateCell (rateOf t.cell) i (cellBytes t.bytes i))) e
    else e.moverWrite t.dest (t.bytes.map fun b => (b, false))
  if t.kind = 3 then e1 else e1.writeThrough (p.stockBase.toNat / 16 + t.slot) t.cell

/-- An engine's registers, supervisor window and tables, as firmware loads them for a hedge. -/
def Engine.loadHedge (g : Hedge) (e : Engine) : Engine :=
  let p := g.par
  let w := p.wdog.toNat
  let e1 := { e with
    strict := p.strict, rso := p.rso, wdogLimit := BitVec.ofNat 16 (if w != 0 && w < 10 then 10 else w), swinBase := p.swinBase
    swinSize := p.swinSize, cptCount := p.cptCount, cptBase := p.cptBase }
  let e2 := match g.super with
    | some q => e1.moverWrite p.swinLo (q.window.map fun b => (b, false))
    | none => e1
  g.tables.foldl (Engine.loadTable p) e2

/-- The code windows of a hedge. -/
def Params.windows (p : Params) : List Nat := (List.range p.cw).map fun i => p.cb + i

/-- The home engine of a code window in a cluster serves the hedge (02 R41). -/
def State.ownWindow (s : State) (k : CluId) (h : HedgeId) (w : Nat) : Bool :=
  let e := s.eng (engOf k ⟨w % 8, by omega⟩)
  e.assigned && e.hedge == h

/-- Every code window of the hedge is its own in the cluster (13 R450). -/
def State.ownWindows (s : State) (k : CluId) (h : HedgeId) : Bool := (s.hedge h).par.windows.all fun w => s.ownWindow k h w

/-- Firmware opens the hedge's own windows to its engines in a cluster (09 R296). -/
def State.openWindows (s : State) (k : CluId) (h : HedgeId) : State :=
  let m := ((s.hedge h).par.windows.filter fun w => s.ownWindow k h w).foldl (fun (a : Nat) w => a + 3 * 4 ^ w) 0
  s.modCluEngines k fun e => if e.assigned && e.hedge == h then { e with itlb := e.itlb ||| BitVec.ofNat 16 m } else e

/-- A write of code RAM (03 R104). -/
def State.writeCode (s : State) (k : CluId) (at_ : Nat) (bs : List Byte) : State :=
  (s.modClu k fun c => { c with code := tsetRun 0 c.code at_ bs }).modCluEngines k fun e => e.dropLoop at_ bs.length

/-- A program goes to the windows of its hedge in a cluster: what of it lies in a window whose home engine serves another hedge, or
none, waits for the engine's assignment (02 R41, R58). -/
def State.placeCode (s : State) (k : CluId) (h : HedgeId) (p : Prog) : State :=
  ((s.hedge h).par.windows.filter fun w => s.ownWindow k h w).foldl
    (fun (t : State) w =>
      let lo := max p.at_ (0x10000 * w)
      let hi := min (p.at_ + p.image.length) (0x10000 * (w + 1))
      if lo < hi then t.writeCode k lo ((p.image.drop (lo - p.at_)).take (hi - lo)) else t) s

/-- The programs of a hedge: the registered ones, those whose registration's completion has not been posted yet, and its supervisor
image. -/
def Hedge.programs (g : Hedge) : List Prog := g.progs.filterMap (·.2) ++ g.awaited.filterMap (·.2) ++ g.super.toList

/-- The code of a hedge in a cluster. -/
def State.loadCode (s : State) (k : CluId) (h : HedgeId) : State :=
  (s.hedge h).programs.foldl (fun (t : State) p => t.placeCode k h p) s

/-- The clusters that hold engines of a hedge. -/
def State.hedgeClus (s : State) (h : HedgeId) : List CluId := allClus.filter fun k => (s.hedgeEngines h).any fun e => cluOf e == k

/-- Firmware takes the hedge's engines out all at once, changes each, and returns it: EPOCH advances twice. -/
def State.reload (s : State) (h : HedgeId) (f : Engine → Engine) : State :=
  let n := s.aoTick.toNat
  (s.hedgeEngines h).foldl (fun (t : State) e => (t.roleTouched e).modEng e fun g => f ((g.changed n).changed n)) s

/-- No context of an engine of the hedge is resident, and each engine's role may change twice more (02 R51). -/
def State.hedgeQuiet (s : State) (h : HedgeId) : Bool :=
  (s.hedgeEngines h).all fun e => !(s.eng e).anyResident && (s.eng e).mayChange s.aoTick.toNat 2

/-- An engine leaves its hedge: ASSIGNED := 0, EPOCH advances, and its window closes (02 R43, R46; 09 R296). -/
def State.unassign (s : State) (e : EngId) : State :=
  (s.roleTouched e).modEng e fun g => (g.changed s.aoTick.toNat).withRole g.hedge g.role false

/-- An engine out of its hedge for an admin command is changed and returned in its role (13 R448, R451, R452). -/
def State.returnEngine (s : State) (h : HedgeId) (g : Engine → Engine) (e : EngId) : State :=
  ((s.roleTouched e).modEng e fun x => { g ((x.changed s.aoTick.toNat).withRole h x.role true) with itlb := 0 }).openWindows (cluOf e) h

/-- Firmware may take the engine out of the hedge now: its role may change twice more, and where it is home to one of the hedge's code
windows, no engine of the hedge in its cluster runs a context. DESIGN CHOICE: the spec takes steps 1 to 3 of R46 with each engine, and
its window would close under the others (log 77). -/
def State.mayTakeOut (s : State) (h : HedgeId) (e : EngId) : Bool :=
  (s.eng e).mayChange s.aoTick.toNat 2 &&
    (!(s.hedge h).par.windows.contains (e.val % 8) || (s.hedgeEngines h).all fun i => cluOf i != cluOf e || !(s.eng i).anyResident)

/-- The engines of a list, one at a time: taken out of the hedge, changed once no context of it is resident, and returned; an engine that
has left the hedge meanwhile is loaded at its next assignment. With it, the engines left where the first has to wait, and whether it is
out (13 R448, R451, R452). -/
def State.loadEach (h : HedgeId) (g : Engine → Engine) : List EngId → Bool → State → State × Option (List EngId × Bool)
  | [], _, s => (s, none)
  | e :: t, out, s =>
    if !out && !((s.eng e).assigned && (s.eng e).hedge == h) then State.loadEach h g t false s
    else if !out && !s.mayTakeOut h e then (s, some (e :: t, false))
    else
      let s1 := if out then s else s.unassign e
      if (s1.eng e).anyResident then (s1, some (e :: t, true)) else State.loadEach h g t false (s1.returnEngine h g e)

/-- An admin command takes the hedge's engines out one at a time. -/
def State.loading (s : State) (h : HedgeId) : Bool := s.fns.any fun kv => kv.2.cur.any fun c => c.todo.isSome && cmdHedge c.bytes == some h

/-- An engine that an admin command has taken out of its hedge. -/
def State.takenOut (s : State) (e : EngId) : Bool := s.fns.any fun kv => kv.2.cur.any fun c => c.todo.any fun q => q.2 && q.1.head? == some e

/-- An admin command goes on with its engines; when every one is done it ends by `d`. -/
def State.loadOn (s : State) (f : FnId) (c : Cmd) (h : HedgeId) (g : Engine → Engine) (todo : List EngId × Bool) (d : State → State) : State :=
  let r := State.loadEach h g todo.1 todo.2 s
  let s1 := r.1.holdFloors
  match r.2 with
  | none => d s1
  | some q => s1.modFn f fun x => { x with cur := x.cur.map fun y => if y = c then { c with todo := some q } else y }

/-- Firmware assigns an engine to a hedge and loads it (02 R46 steps 5 and 6, 13 R450). -/
def State.assign (s : State) (h : HedgeId) (e : EngId) (role : BitVec 2) : State :=
  let k := cluOf e
  let s1 := (s.roleTouched e).modEng e fun g => (g.changed s.aoTick.toNat).withRole h role true
  ((s1.loadCode k h).modEng e (Engine.loadHedge (s.hedge h))).openWindows k h

/-! ### IDENTIFY and TELEMETRY (13 Table 13-13) -/

/-- Firmware writes a buffer of 4 KiB whose layout is private (log 3). -/
def State.writePrivate (s : State) (f : FnId) (c : Cmd) : State :=
  (State.emit { s with free := s.free + 1 } (.host f (cmdBuf c.bytes) ((List.range 4096).map fun i => Config.privateByte s.free i) false)).reply f c
    .carried 0 0 0 0

/-- IDENTIFY. -/
def execIdentify (f : FnId) (s : State) : Outcome State Fault Refusal :=
  .next (s.withAdmin f 0x81 fun c => if cmdLen c.bytes < 4096 then s.fail f c 0x07 else s.writePrivate f c)

/-- TELEMETRY: of an open hedge, or of the device. -/
def execTelemetry (f : FnId) (s : State) : Outcome State Fault Refusal :=
  .next (s.withAdmin f 0x88 fun c =>
    if cmdLen c.bytes < 4096 ∨ (fieldOf c.bytes 16 1 ≠ 0xFF ∧ (s.openHedge? c.bytes).isNone) then s.fail f c 0x07 else s.writePrivate f c)

/-! ### CREATE_HEDGE, SET_HEDGE, DESTROY_HEDGE -/

/-- The VF that a CREATE_HEDGE names, when it is enabled under SR-IOV. -/
def State.vfNamed (s : State) (b : List Byte) : Option FnId :=
  let p := fieldOf b 17 1
  let v := fieldOf b 18 1
  if q : p < 2 ∧ 1 ≤ v ∧ v ≤ 64 then
    if v ≤ (s.port ⟨p, q.1⟩).vfs then some ⟨65 * p + v, by omega⟩ else none
  else none

/-- A hedge as CREATE_HEDGE opens it; its Lehr counters are registers of the number and stay. DESIGN CHOICE: until its first evaluation its
effective guarantees are its guarantees (log 78). -/
def Hedge.opened (old : Hedge) (f : FnId) (p : Params) (root : Nat) : Hedge :=
  { Hedge.reset with
    fn := some f, par := p, effMin := p.emin, ecommit := BitVec.ofNat 18 p.gcommit, ehbm := BitVec.ofNat 8 p.ghbm
    quota := BitVec.ofNat 14 p.lquota, used := old.used, thr := old.thr, waits := old.waits, rootV := true, root := BitVec.ofNat 32 root }

/-- The effective minimum of a hedge just opened or changed (02 R55). -/
def State.setMin (s : State) (h : HedgeId) : State :=
  s.modHedge h fun x => { x with effMin := (s.effMins.find? fun q => q.1 == h).elim x.par.emin (·.2), effRise := (0, 0) }

/-- CREATE_HEDGE (13 R446, 02 R38); it waits for the number's last Lehr entries to drain (02 R61). -/
def execCreateHedge (f : FnId) (buf : List Byte) (s : State) : Outcome State Fault Refusal :=
  .next (s.withAdmin f 0x82 fun c =>
    match cmdHedge c.bytes, s.vfNamed c.bytes with
    | some h, some v =>
      let p := paramsOf buf
      if cmdLen c.bytes < 128 || !s.paramBlockOk h buf then s.fail f c 0x07
      else if s.numberTaken h || s.vfTaken v then s.fail f c 0x05
      else if !s.sumsOk h p then s.fail f c 0x0B
      else if (s.hedge h).used ≠ 0 then s
      else
        match s.newTable h with
        | some r =>
          ((((r.2.setHedge h ((s.hedge h).opened v p r.1)).invHedge h).setMin h).modFn v fun q =>
            { q with hedge := some h, state := .down }).adminDone f c h 128 0
        | none => s.fail f c 0x0B
    | _, _ => s.fail f c 0x07)

/-- Code in use: the programs, the supervisor image that an engine may still hold, and the programs that live slots still run (13 R451). -/
def State.codeInUse (s : State) (h : HedgeId) : List (Nat × Nat) :=
  ((s.hedge h).programs ++ (s.hedge h).superOld.toList ++ (s.liveSlots h).filterMap fun n => (s.slot n).prog).map fun p => (p.at_, p.image.length)

/-- The lowest place for `n` bytes of code in [lo, hi) (log 6). -/
def placeIn (lo hi n : Nat) (used : List (Nat × Nat)) : Option Nat :=
  leastOf ((lo :: used.map fun u => (u.1 + u.2 + 15) / 16 * 16).filter fun a =>
    decide (lo ≤ a) && decide (a + n ≤ hi) && used.all fun u => !overlaps a n u.1 (u.1 + u.2) || u.2 == 0)

/-- First address of a hedge's code windows, and the one after them. -/
def Params.codeLo (p : Params) : Nat := 0x10000 * p.cb
def Params.codeHi (p : Params) : Nat := 0x10000 * (p.cb + p.cw)

/-- The programs under other code windows, each with its key: one that lies inside stays, the others are placed in turn; none when they
no longer fit (13 R448). -/
def refit (lo hi : Nat) : List (Nat × Prog) → List (Nat × Nat) → Option (List (Nat × Prog))
  | [], _ => some []
  | (i, p) :: t, used =>
    let n := p.image.length
    match if lo ≤ p.at_ ∧ p.at_ + n ≤ hi then some p.at_ else placeIn lo hi n used with
    | none => none
    | some a => (refit lo hi t ((a, n) :: used)).map fun r => (i, { p with at_ := a }) :: r

/-- The hedge's registrations under other parameters; key 256 stands for the supervisor image. -/
def Hedge.refitted (g : Hedge) (p : Params) : Option Hedge :=
  let ps : List (Nat × Prog) := g.progs.filterMap (fun kv => kv.2.map fun q => (kv.1, q)) ++ g.super.toList.map fun q => (256, q)
  let stay := (ps.filter fun q => decide (p.codeLo ≤ q.2.at_) && decide (q.2.at_ + q.2.image.length ≤ p.codeHi)).map fun q =>
    (q.2.at_, q.2.image.length)
  (refit p.codeLo p.codeHi ps stay).map fun r =>
    { g with progs := (r.filter fun q => q.1 != 256).map fun q => (q.1, some q.2), super := (r.find? fun q => q.1 == 256).map (·.2) }

/-- The fields that firmware applies one engine at a time differ (13 R448). -/
def Params.engineFields (p q : Params) : Bool :=
  p.strict == q.strict && p.rso == q.rso && p.wdog == q.wdog && p.swinBase == q.swinBase && p.swinSize == q.swinSize &&
    p.cptCount == q.cptCount && p.cptBase == q.cptBase && p.stockBase == q.stockBase && p.stockSlots == q.stockSlots && p.cb == q.cb &&
    p.cw == q.cw && p.exclusive == q.exclusive

/-- The hedge's code and engines are loaded anew; an engine in a cluster whose windows are no longer all the hedge's own is taken from it
(13 R448, R450). -/
def State.reloadHedge (s : State) (h : HedgeId) : State :=
  let s1 := ((s.hedgeEngines h).filter fun e => !s.ownWindows (cluOf e) h).foldl State.unassign s
  let s2 := (s1.hedgeClus h).foldl (fun (t : State) k => t.loadCode k h) s1
  let s3 := s2.reload h fun e => { Engine.loadHedge (s.hedge h) e with itlb := 0 }
  ((s3.hedgeClus h).foldl (fun (t : State) k => t.openWindows k h) s3).holdFloors

/-- Directory entries outside a range of the hedge are given up as zeros (02 R58, R61). -/
def State.clearDir (s : State) (p q : Params) : State :=
  (s.dir.filter fun kv => decide (p.dbase ≤ kv.1) && decide (kv.1 < p.dbase + p.dcount) &&
      !(decide (q.dbase ≤ kv.1) && decide (kv.1 < q.dbase + q.dcount))).foldl (fun (t : State) kv => t.putEntry kv.1 Endpoint.zero) s

/-- The parameters take effect; a change of the effective minimum is told (02 R55, 13 R448). -/
def State.setParams (s : State) (h : HedgeId) (g : Hedge) (p : Params) : State :=
  let s1 := ((s.clearDir g.par p).setHedge h { g with par := p, quota := BitVec.ofNat 14 p.lquota, gRise := riseNow, hRise := riseNow }).setMin h
  (if (s1.hedge h).effMin = (s.hedge h).effMin then s1 else s1.tellGuarantee h).holdFloors

/-- SET_HEDGE (13 R448). A change of CODE moves the hedge's code, and waits until no slot is live: DESIGN CHOICE (log 77). -/
def execSetHedge (f : FnId) (buf : List Byte) (s : State) : Outcome State Fault Refusal :=
  .next (s.withAdmin f 0x83 fun c =>
    match s.openHedge? c.bytes with
    | none => s.fail f c 0x07
    | some h =>
      let g := s.hedge h
      if let some todo := c.todo then s.loadOn f c h (Engine.loadHedge g) todo fun t => t.adminDone f c h 128 0 else
      let p := paramsOf buf
      let moved := p.dbase != g.par.dbase || p.dcount != g.par.dcount || p.locks != g.par.locks
      let down := match g.fn with | some v => (s.fn v).state == .down | none => true
      let recoded := p.cb != g.par.cb || p.cw != g.par.cw
      if cmdLen c.bytes < 128 || !s.paramBlockOk h buf then s.fail f c 0x07
      else if moved && !(down && (s.liveSlots h).isEmpty) then s.fail f c 0x07
      else if !s.sumsOk h p then s.fail f c 0x0B
      else
        match g.refitted p with
        | none => s.fail f c 0x0B
        | some g1 =>
          if p.engineFields g.par then (s.setParams h g p).adminDone f c h 128 0
          else if s.loading h then s
          else if recoded then
            if s.hedgeQuiet h && (s.liveSlots h).isEmpty && g.awaited.isEmpty then ((s.setParams h g1 p).reloadHedge h).adminDone f c h 128 0 else s
          else
            let s1 := s.setParams h g p
            s1.loadOn f c h (Engine.loadHedge (s1.hedge h)) (s.hedgeEngines h, false) fun t => t.adminDone f c h 128 0)

/-- A hedge's engines leave it and are cleared (02 R46, R61 step 2). -/
def State.releaseEngines (s : State) (h : HedgeId) : State :=
  ((s.hedgeEngines h).foldl (fun (t : State) e => (t.unassign e).startClear e) s).holdFloors

/-- Zero and free every frame of a hedge (02 R61 step 3). -/
def State.zeroFrames (s : State) (h : HedgeId) : State :=
  (s.alloc.filterMap fun kv => match kv.2 with
    | some (i, _, z) => if i = h then some (kv.1, z) else none
    | none => none).foldl (fun (t : State) q => (t.hbmZero (q.1 * 4096) (2 ^ q.2)).freeFrames q.1 (2 ^ (q.2 - 12))) s

/-- The hedge's record pages are released on the drives (02 R61 step 5). -/
def State.deallocate (s : State) (h : HedgeId) : State :=
  let ps := s.durable.filter fun kv => kv.1 / 2 ^ 48 == h.val
  let s1 := ps.foldl (fun (t : State) kv => t.emit (.nvme (Pte.ssd kv.2.2) 0x09 (Pte.block kv.2.2) (2 ^ levelBits kv.2.1) false)) s
  { s1 with durable := s1.durable.filter fun kv => kv.1 / 2 ^ 48 != h.val }

/-- The hedge's resources are released in order, its translations are invalidated and its VF is CLOSED (02 R61, 09 R279, R310). -/
def State.destroyed (s : State) (h : HedgeId) : State :=
  let g := s.hedge h
  let s1 := ((s.releaseEngines h).zeroFrames h).clearDir g.par Params.zero
  let s2 := State.deallocate { s1 with locks := s1.locks.filter fun kv => kv.1 / 2 ^ 48 != h.val } h
  let s3 := ({ (s2.freeTables h) with evicts := s2.evicts.filter fun v => v.h != h }.invHedge h).setHedge h
    { Hedge.reset with used := g.used, quota := g.quota, thr := g.thr, waits := g.waits }
  match g.fn with
  | some v => s3.modFn v fun q => { q with hedge := none, state := .closed }
  | none => s3

/-- DESTROY_HEDGE: the VF closes at once; the rest follows when the last transaction has ended (02 R61). -/
def execDestroyHedge (f : FnId) (s : State) : Outcome State Fault Refusal :=
  .next (s.withAdmin f 0x84 fun c =>
    match (cmdHedge c.bytes).bind fun h => (s.hedge h).fn.map fun v => (h, v) with
    | none => s.fail f c 0x07
    | some (h, v) =>
      let s1 := if (s.hedge h).closing then s
        else (((s.flushFor h).postEvent v { kind := 8, a := 0, b := 0, c := 4, d := 0 }).drainVf v .closing).modHedge h fun g => { g with closing := true }
      if (s1.liveSlots h).isEmpty && s1.hedgeQuiet h && !s1.loading h then ((s1.destroyed h).keepDef h).reply f c .carried 0 0 0 0 else s1)

/-! ### REGISTER and UNREGISTER (13 R449 to R451) -/

/-- Checks 1 and 3 of R449: the bytes that are 0, and the ranges. -/
def regZeros (b : List Byte) : Bool :=
  zeroFrom b 6 2 && zeroFrom b 52 4 && zeroFrom b 68 60 && fieldOf b 2 1 / 16 == 0 && fieldOf b 3 1 / 128 == 0 && fieldOf b 4 2 / 4096 == 0

def regRanges (p : Params) (b : List Byte) : Bool :=
  let kind := fieldOf b 0 1
  let prog := fieldOf b 1 1
  let tmpl := fieldOf b 4 2
  decide (kind < 2) && (if kind = 0 then prog != 0 else prog == 0) && decide (fieldOf b 3 1 / 16 < 6) &&
    decide (tmpl % 16 < 8) && decide (tmpl / 16 % 16 < 8) && decide (tmpl / 256 % 16 < 8) &&
    fieldOf b 8 8 % 16 == 0 && decide (fieldOf b 8 8 + fieldOf b 16 4 ≤ 2 ^ 48) && decide (fieldOf b 48 4 ≤ fieldOf b 44 4) &&
    (if kind = 0 then decide (1 ≤ fieldOf b 16 4) && decide (fieldOf b 20 4 < fieldOf b 16 4)
     else decide (fieldOf b 64 4 ≤ p.swinBytes) && decide (fieldOf b 56 8 + fieldOf b 64 4 ≤ 2 ^ 48))

/-- A registration as its block gives it, its code at `at_`. -/
def progOf (b : List Byte) (at_ : Nat) (image window : List Byte) : Prog :=
  { super := fieldOf b 0 1 == 1, fast := fieldOf b 2 1 % 2 == 1, retry := BitVec.ofNat 3 (fieldOf b 2 1 / 2)
    key := BitVec.ofNat 4 (fieldOf b 3 1), rm := BitVec.ofNat 3 (fieldOf b 3 1 / 16), tmpl := BitVec.ofNat 12 (fieldOf b 4 2)
    caddr := BitVec.ofNat 64 (fieldOf b 8 8), clen := fieldOf b 16 4, entry := if fieldOf b 0 1 = 1 then 0 else fieldOf b 20 4
    sbase := fieldOf b 24 4, sstride := fieldOf b 28 4, ssize := fieldOf b 32 4, wbase := fieldOf b 36 4, wstride := fieldOf b 40 4
    wsize := fieldOf b 44 4, sglmax := fieldOf b 48 4, at_ := at_, image := image, window := window }

/-- The stack region and the work area of a context: first byte and length. -/
def Prog.stackAt (p : Prog) (c : Nat) : Nat × Nat := (p.sbase + p.sstride * c, p.ssize)
def Prog.workAt (p : Prog) (c : Nat) : Nat × Nat := (p.wbase + p.wstride * c, p.wsize)

/-- Two areas overlap. -/
def areasMeet (a b : Nat × Nat) : Bool := overlaps a.1 a.2 b.1 (b.1 + b.2) && decide (0 < b.2)

/-- Check 4 of R449: the stack and work areas of every context. -/
def Hedge.areasOk (g : Hedge) (p : Prog) : Bool :=
  let e := { Engine.reset with swinBase := g.par.swinBase, swinSize := g.par.swinSize }
  (List.range 32).all fun c =>
    let st := p.stackAt c
    let wk := p.workAt c
    decide (st.1 + st.2 ≤ rescueBase) && e.stackValid 2 (BitVec.ofNat 18 st.1) (BitVec.ofNat 18 (st.1 + st.2)) && e.general? wk.1 wk.2 &&
      (List.range 32).all (fun d => !areasMeet wk (p.stackAt d) && (d == c || !areasMeet wk (p.workAt d))) &&
      g.tables.all fun t => !areasMeet wk (t.dest, t.bytes.length)

/-- What firmware finds of the pages of an image: V, R and, for code, X; all resident (13 R449 step 5, 09 R297). -/
def State.imagePages (s : State) (h : HedgeId) (va n : Nat) (code : Bool) : FwRead :=
  let ps := (spanPages va n).map fun a => match (s.walk h a).1 with
    | .leaf _ p _ => if !(bit p 1) || (code && !(bit p 3)) then FwRead.fail 0x05 else if p.res then .ok [] else .wait
    | .fail st => .fail st
    | .malformed .. => .fail 0x05
  if ps.contains (.fail 0x04) then .fail 0x04
  else if ps.any fun p => match p with | .fail _ => true | _ => false then .fail 0x05
  else if ps.contains .wait then .wait
  else
    let bs := s.readRecord h va n
    if bs.any (·.2) then .fail 0x04 else .ok (bs.map (·.1))

/-- The bytes of an image: the code's and the window's. -/
def State.regImages (s : State) (h : HedgeId) (b : List Byte) : Except (Option Byte) (List Byte × List Byte) :=
  let win := fieldOf b 0 1 == 1
  match s.imagePages h (fieldOf b 8 8) (fieldOf b 16 4) true,
        (if win then s.imagePages h (fieldOf b 56 8) (fieldOf b 64 4) false else .ok []) with
  | .ok x, .ok y => .ok (x, y)
  | .fail st, _ => .error (some st)
  | _, .fail st => .error (some st)
  | _, _ => .error none

/-- A transaction program is registered, for the commands whose lookup follows its completion; its code is placed before (13 R450 to R451,
R432). -/
def State.register (s : State) (h : HedgeId) (n : Nat) (p : Prog) : State :=
  let s1 := s.modHedge h fun g => { g with awaited := g.awaited ++ [(n, some p)] }
  (s1.hedgeClus h).foldl (fun (t : State) k => t.placeCode k h p) s1

/-- A supervisor image is registered: its code is placed beside that of the image it replaces, which engines still hold (13 R451). -/
def State.registerSuper (s : State) (h : HedgeId) (p : Prog) : State :=
  let s1 := s.modHedge h fun g => { g with super := some p, superOld := g.super }
  (s1.hedgeClus h).foldl (fun (t : State) k => t.placeCode k h p) s1

/-- An engine takes the window image of its hedge's supervisor image. -/
def Engine.loadSuper (g : Hedge) (e : Engine) : Engine := g.super.elim e fun p => e.moverWrite g.par.swinLo (p.window.map fun b => (b, false))

/-- Every engine of the hedge holds the new image: the old one's code space is free, and RESULT is the new one's place (13 R451). -/
def State.superDone (s : State) (f : FnId) (c : Cmd) (h : HedgeId) : State :=
  (s.modHedge h fun g => { g with superOld := none }).adminDone f c h 128 (BitVec.ofNat 64 ((s.hedge h).super.elim 0 (·.at_)))

/-- The program that the admin commands so far leave a number. -/
def Hedge.lastProg (g : Hedge) (n : Nat) : Option Prog :=
  match g.awaited.reverse.find? fun q => q.1 == n with
  | some q => q.2
  | none => g.prog n

/-- REGISTER (13 R449, R451): RESULT is the code-RAM address of ENTRY. -/
def execRegister (f : FnId) (buf : List Byte) (s : State) : Outcome State Fault Refusal :=
  .next (s.withAdmin f 0x85 fun c =>
    match s.openHedge? c.bytes with
    | none => s.fail f c 0x07
    | some h =>
      let g := s.hedge h
      if let some todo := c.todo then s.loadOn f c h (Engine.loadSuper g) todo fun t => t.superDone f c h else
      let draft := progOf buf 0 [] []
      if cmdLen c.bytes < 128 || !regZeros buf then s.fail f c 0x07
      else if draft.key = 0 then s.fail f c 0x05
      else if !regRanges g.par buf then s.fail f c 0x07
      else if !draft.super && !g.areasOk draft then s.fail f c 0x07
      else
        match s.regImages h buf with
        | .error (some st) => s.fail f c st
        | .error none => s
        | .ok (image, window) =>
          match placeIn g.par.codeLo g.par.codeHi image.length (s.codeInUse h) with
          | none => s.fail f c 0x0B
          | some a =>
            let p := progOf buf a image window
            let s1 := (s.accessed h draft.caddr.toNat draft.clen).accessed h (fieldOf buf 56 8) window.length
            if !p.super then (s1.register h (fieldOf buf 1 1) p).adminDone f c h 128 (BitVec.ofNat 64 (a + p.entry)) (some h)
            else if s.loading h then s
            else
              let s2 := s1.registerSuper h p
              s2.loadOn f c h (Engine.loadSuper (s2.hedge h)) (s.hedgeEngines h, false) fun t => t.superDone f c h)

/-- UNREGISTER (13 R451). -/
def execUnregister (f : FnId) (s : State) : Outcome State Fault Refusal :=
  .next (s.withAdmin f 0x86 fun c =>
    match s.openHedge? c.bytes with
    | none => s.fail f c 0x07
    | some h =>
      let n := fieldOf c.bytes 18 2
      if ((s.hedge h).lastProg n).isNone then s.fail f c 0x05
      else ((s.flushFor h).modHedge h fun g => { g with awaited := g.awaited ++ [(n, none)] }).reply f c .carried 0 0 0 0 (some h))

/-! ### LOAD_TABLE (13 R452) -/

/-- The table that a block and its bytes give. -/
def tableOf (b src : List Byte) : LoadedTable :=
  { kind := BitVec.ofNat 8 (fieldOf b 0 1), slot := fieldOf b 2 2, dest := fieldOf b 4 4, bytes := src.take (fieldOf b 8 4)
    desc := payOfBytes (cellBytes b 2) }

/-- The payload of the stock cell is well formed, with BASE = DEST and a length of LEN (07 R213, R234). -/
def LoadedTable.descOk (t : LoadedTable) (len : Nat) : Bool :=
  if t.kind = 0 then rateOk t.cell && (rateOf t.cell).base == t.dest && 32 * ((rateOf t.cell).points + 1) == len
  else chrOk t.cell && chrBase t.cell == t.dest && chrLen t.cell == len

/-- A code-page table stands at the place of a table of ENG_CPT (07 R222). -/
def Params.codePage (p : Params) (dest : Nat) : Bool :=
  (List.range p.cptCount.toNat).any fun i => dest == 256 * (p.cptBase.toNat + i)

/-- The bytes keep out of the argument areas, the rescue region, the stock and the registered stack and work areas. -/
def Hedge.tablePlace (g : Hedge) (dest len : Nat) : Bool :=
  let a := (dest, len)
  decide (0x800 ≤ dest) && decide (dest + len ≤ rescueBase) && !areasMeet a (g.par.stockBase.toNat, 16 * g.par.stockSlots) &&
    g.programs.all fun p => p.super || (List.range 32).all fun c => !areasMeet a (p.stackAt c) && !areasMeet a (p.workAt c)

/-- A table block passes the checks of R452. -/
def Hedge.tableOk (g : Hedge) (b : List Byte) (t : LoadedTable) : Bool :=
  let len := fieldOf b 8 4
  let slotted := t.kind != 3
  decide (t.kind.toNat < 4) && fieldOf b 1 1 / 2 == 0 && zeroFrom b 12 4 && zeroFrom b 24 8 && zeroFrom b 48 16 &&
    (if slotted then decide (1 ≤ len) && decide (len ≤ 65536) && decide (t.slot < g.par.stockSlots) && t.descOk len
     else len == 256 && g.par.codePage t.dest) &&
    g.tablePlace t.dest len &&
    (fieldOf b 1 1 % 2 == 1 ||
      g.tables.all fun u => !areasMeet (t.dest, len) (u.dest, u.bytes.length) && !(slotted && u.kind != 3 && u.slot == t.slot))

/-- The loaded tables with one more; it replaces the one of its slot, or of its code page. -/
def Hedge.withTable (g : Hedge) (t : LoadedTable) : List LoadedTable :=
  (g.tables.filter fun u => !(if t.kind = 3 then u.kind == 3 && u.dest == t.dest else u.kind != 3 && u.slot == t.slot)) ++ [t]

/-- An engine takes the table loaded last. -/
def Engine.loadNewest (g : Hedge) (e : Engine) : Engine := g.tables.getLast?.elim e (Engine.loadTable g.par e)

/-- LOAD_TABLE: the engines are loaded one at a time. -/
def execLoadTable (f : FnId) (buf src : List Byte) (s : State) : Outcome State Fault Refusal :=
  .next (s.withAdmin f 0x87 fun c =>
    match s.openHedge? c.bytes with
    | none => s.fail f c 0x07
    | some h =>
      let g := s.hedge h
      let t := tableOf buf src
      let done := fun (u : State) => (u.emit (.read f (BitVec.ofNat 64 (fieldOf buf 16 8)) (fieldOf buf 8 4))).adminDone f c h 64 0
      if let some todo := c.todo then s.loadOn f c h (Engine.loadNewest g) todo done else
      if cmdLen c.bytes < 64 || !g.tableOk buf t then s.fail f c 0x07
      else if 0x100000 < ((g.withTable t).map (·.bytes.length)).sum then s.fail f c 0x0B
      else if s.loading h then s
      else
        let g1 : Hedge := { g with tables := g.withTable t }
        (s.setHedge h g1).loadOn f c h (Engine.loadNewest g1) (s.hedgeEngines h, false) done)

/-! ### FW_UPDATE (15 R495, R500) -/

/-- The boot directory in force: the valid copy with the higher SEQ (15 R496). -/
def Keeper.dir (k : Keeper) : Option BootDir :=
  match k.dir0.valid, k.dir1.valid with
  | true, true => some (if k.dir0.seq.toNat < k.dir1.seq.toNat then k.dir1 else k.dir0)
  | true, false => some k.dir0
  | false, true => some k.dir1
  | false, false => none

/-- Firmware rewrites the directory: the older copy, with SEQ one above the newer (15 R495). -/
def Keeper.writeDir (k : Keeper) (pref trial : Bool) (tries : BitVec 2) : Keeper :=
  let d : BootDir := { seq := (k.dir.map (·.seq)).getD 0 + 1, pref := pref, trial := trial, tries := tries, valid := true }
  if k.dir0.valid && (!k.dir1.valid || decide (k.dir1.seq.toNat < k.dir0.seq.toNat)) then { k with dir1 := d } else { k with dir0 := d }

/-- The image of a slot, B when true. -/
def Keeper.img (k : Keeper) (b : Bool) : Img := if b then k.imgB else k.imgA

/-- Fields of an image header (15 Table 15-4). -/
def imgSvn (i : Img) : Nat := fieldOf i.header 0x007 1
def imgBodyLen (i : Img) : Nat := fieldOf i.header 0x00C 4
def imgKeyIdx (i : Img) : Nat := fieldOf i.header 0x010 1
def imgSvnCommit (i : Img) : Bool := fieldOf i.header 0x011 1 % 2 == 1
def imgRecovery (i : Img) : Bool := fieldOf i.header 0x011 1 / 2 % 2 == 1

/-- An entry of SEGTAB: type, body offset, length and CCM destination. -/
structure Seg where
  ty : Nat
  off : Nat
  len : Nat
  dest : Nat

/-- The segments of an image. -/
def imgSegs (i : Img) : List Seg :=
  (List.range (fieldOf i.header 0x012 2)).map fun n =>
    let b := 0x040 + 16 * n
    ⟨fieldOf i.header b 1, fieldOf i.header (b + 4) 4, fieldOf i.header (b + 8) 4, fieldOf i.header (b + 12) 4⟩

/-- A segment entry is in range: inside the body, of a type of Table 15-5, and a DATA segment goes into the 16 MiB of CCM (15 R486). -/
def Seg.ok (g : Seg) (body : Nat) : Bool :=
  decide (1 ≤ g.ty) && decide (g.ty ≤ 5) && decide (g.off + g.len ≤ body) && (if g.ty = 2 then decide (g.dest + g.len ≤ 0x1000000) else g.dest == 0)

/-- The first check of R494: MAGIC, HDRVER, BODYLEN, NSEG and the segment entries. -/
def imgFormat (i : Img) : Bool :=
  fieldOf i.header 0 4 == 0x4C545746 && fieldOf i.header 4 2 == 1 && decide (4096 ≤ imgBodyLen i) && decide (imgBodyLen i ≤ 0x017FF000) &&
    decide (1 ≤ fieldOf i.header 0x012 2) && decide (fieldOf i.header 0x012 2 ≤ 32) && (imgSegs i).all fun g => g.ok (imgBodyLen i)

/-- The DATA segments: CCM destination and bytes (15 R497). -/
def imgData (i : Img) : List (Nat × List Byte) :=
  ((imgSegs i).filter fun g => g.ty == 2).map fun g => (g.dest, (i.body.drop g.off).take g.len)

/-- What R494 finds of an image, in order: DATA or KEY for the check that fails. -/
def Keeper.verify (k : Keeper) (i : Img) (spi : Bool) : Byte :=
  if !imgFormat i then 0x07
  else if decide (3 < imgKeyIdx i) || bit k.revoke (imgKeyIdx i) || !i.keyOk then 0x05
  else if imgSvn i < k.svnf then 0x05
  else if imgRecovery i != spi then 0x07
  else if !i.sigOk then 0x05
  else 0

/-- The image is programmed into a slot, B when true. -/
def Keeper.program (k : Keeper) (b : Bool) (i : Img) : Keeper := if b then { k with imgB := i } else { k with imgA := i }

/-- The start count of a slot (15 R498). -/
def Keeper.count (k : Keeper) (b : Bool) : Nat := if b then k.countB else k.countA
def Keeper.setCount (k : Keeper) (b : Bool) (n : Nat) : Keeper := if b then { k with countB := n } else { k with countA := n }

/-- FW_UPDATE: `bytes` are what the buffer holds, and `found` what the checks of it find. With a recovery image running, slot A is taken
(log 6). -/
def execFwUpdate (f : FnId) (bytes : List Byte) (found : ImgFound) (s : State) : Outcome State Fault Refusal :=
  let img := Img.ofBytes bytes found
  .next (s.withAdmin f 0x89 fun c =>
    let k := s.keeper
    let b := !k.recov && !k.slotB
    if cmdLen c.bytes ≠ 4096 + imgBodyLen img then s.fail f c 0x07
    else
      let s1 := { s with keeper := k.program b img }.emit (.read f (cmdBuf c.bytes) (cmdLen c.bytes))
      let st := k.verify img false
      if st ≠ 0 then s1.fail f c st
      else State.reply { s1 with keeper := ((s1.keeper.writeDir b true 0).setCount b 0) } f c .carried 0 0 0 0)

/-! ### Engine lending (02 R46, R54; 13 R450; 14 R475) -/

/-- ENG_ROLE_WRITE (02 R43, R44). Firmware does not make a write that would be the 65,536th change in 100 ms (02 R51; log 56). -/
def execEngRoleWrite (r : Requester) (e : EngId) (v : Word64) (s : State) : Outcome State Fault Refusal :=
  let g := s.eng e
  let h : HedgeId := ⟨bits v 5 0, by unfold bits; exact Nat.mod_lt _ (by decide)⟩
  let role := v.extractLsb' 6 2
  let asg := bit v 8
  .next (if !s.reaches r then s
    else
      let s1 := s.roleTouched e
      if role == 3 then s1
      else if asg && h != g.lastHedge && !g.clean then s1.violation r (engBase e) true kindRole
      else
        let moved := h != g.hedge || role != g.role || asg != g.assigned
        if moved && !g.mayChange s.aoTick.toNat 1 then s else
        let s2 := s1.modEng e fun g => (if moved then g.changed s.aoTick.toNat else g).withRole h role asg
        (if bit v 9 then s2.startClear e else s2).holdFloors)

/-- Engines assigned to a hedge. -/
def State.engineCount (s : State) (h : HedgeId) : Nat := (s.hedgeEngines h).length

/-- The cluster-exclusive flag lets the hedge take an engine of the cluster (02 Table 2-1). -/
def State.exclusiveOk (s : State) (h : HedgeId) (k : CluId) : Bool :=
  (s.cluHedges k).all fun i => i == h || (!(s.hedge i).par.exclusive && !(s.hedge h).par.exclusive)

/-- The engine's cluster may take the hedge: its code windows are its own, or the engine is the home of one of them and the other homes
are the hedge's or free (13 R450). -/
def State.windowsOk (s : State) (h : HedgeId) (e : EngId) : Bool :=
  let k := cluOf e
  let ws := (s.hedge h).par.windows
  let free := fun (w : Nat) => let g := s.eng (engOf k ⟨w % 8, by omega⟩); !g.assigned
  if ws.contains (e.val % 8) then ws.all fun w => s.ownWindow k h w || free w else ws.all fun w => s.ownWindow k h w

/-- A hedge may be given one more engine: up to its effective minimum always, and beyond it by demand up to its maximum while its credit is
above 0 and every hedge has its effective minimum (02 R54, 14 R475). -/
def State.mayLend (s : State) (h : HedgeId) : Bool :=
  let n := s.engineCount h
  let g := s.hedge h
  g.fn.isSome && !g.closing && decide (n < g.par.emax) &&
    (decide (n < g.effMin) || (s.openHedges.all (fun i => decide ((s.hedge i).effMin ≤ s.engineCount i)) &&
      (decide (n < g.par.emin) || decide (0 < g.credit.toInt))))

/-- The engine may be assigned to the hedge now: it has been cleared, by step 4 of R46, whether or not its hedge changes. -/
def State.assignable (s : State) (h : HedgeId) (e : EngId) : Bool :=
  let g := s.eng e
  let k := s.clu (cluOf e)
  !g.assigned && !s.takenOut e && !g.clearing && g.clean && !g.anyResident && k.pst != .c4 && !k.removed && s.mayLend h &&
    s.exclusiveOk h (cluOf e) && s.windowsOk h e && g.mayChange s.aoTick.toNat 1

/-- The engine is at step 4 of R46: unassigned, its contexts parked, and not clean. -/
def State.unclean (s : State) (e : EngId) : Bool :=
  let g := s.eng e
  !g.assigned && !s.takenOut e && !g.clearing && !g.clean && !g.anyResident && !(s.clu (cluOf e)).removed

/-- A hedge with engines lent beyond its EMIN, and no energy credit (14 R475). -/
def State.indebted (s : State) (h : HedgeId) : Bool := decide ((s.hedge h).par.emin < s.engineCount h) && decide ((s.hedge h).credit.toInt ≤ 0)

/-- While another hedge lacks its effective minimum, engines are reclaimed first from hedges without energy credit (14 R475). -/
def State.reclaimTurn (s : State) (h : HedgeId) : Bool :=
  s.indebted h || !(s.openHedges.any fun i => i != h && s.indebted i) ||
    !(s.openHedges.any fun i => i != h && decide (s.engineCount i < (s.hedge i).effMin))

/-- The engine may be reclaimed: the hedge keeps its effective minimum, and no engine of it in the cluster loses a code window. -/
def State.reclaimable (s : State) (h : HedgeId) (e : EngId) : Bool :=
  let g := s.eng e
  let ws := (s.hedge h).par.windows
  g.assigned && g.hedge == h && decide ((s.hedge h).effMin < s.engineCount h) && s.reclaimTurn h && g.mayChange s.aoTick.toNat 1 &&
    (!ws.contains (e.val % 8) || (s.hedgeEngines h).all fun i => cluOf i != cluOf e || ws.contains (i.val % 8))

/-- ENGINE_LENDING: firmware takes the next step of R46 with an engine: it assigns it to a hedge in a role, starts to reclaim it, or
clears it. -/
def execEngineLending (h : HedgeId) (e : EngId) (role : Fin 3) (s : State) : Outcome State Fault Refusal :=
  .next (if s.assignable h e then (s.assign h e (BitVec.ofNat 2 role.val)).holdFloors else if s.reclaimable h e then (s.unassign e).holdFloors
    else if s.unclean e then s.startClear e else s)

end Sys2Proof.Machine
end

