-- ==== Sys2Proof/Machine/StartUp.lean ====
section
/-! DEFINITION. Power failure, reset, the keeper and the start sequence (11 R370; 14 R468; 15 R490, R491, R496 to R498, R506, R508; 16
R526, R532; 17 R534 to R541, R551; 18 R566 to R570; 19 R594). -/

namespace Sys2Proof.Machine

open Host (Outcome)

/-! ### The device reset (19 R594, 17 R536) -/

/-- What a device reset leaves of the Lehr: the array with its pointers and anchors, the journal zones, the mirror copies kept for the
partner and the link of the pair. Every write already started completes first (11 R370). -/
def Lehr.kept (l : Lehr) : Lehr :=
  let k := l.settleWrites
  { Lehr.reset with
    ring := k.ring, anchors := k.anchors, lap := k.lap, wp := k.wp, rp := k.rp, inRing := k.inRing, segSeq := k.segSeq, records := k.records
    supers := k.supers, zoneNext := k.zoneNext, mirrors := k.mirrors, nextPort := k.nextPort, asleep := true, pairWas := l.pairOn }

/-- What a device reset leaves of the keeper: the always-on domain, the fuses and the NOR. A pending SVN commit is dropped (15 R498). -/
def Keeper.restarted (k : Keeper) (step : Nat) : Keeper :=
  { k with step := step, failLatched := false, svnCommit := none, dirDone := false, beats := [], heldCores := false, bootFail := false }

/-- A device reset: everything outside the always-on domain returns to its reset values. The NOR, the drives, the durable mappings, the
journalled directory entries with EVSEQ 0, and the Lehr array stay (10 R339, R344; 11 R368). -/
def State.deviceReset (s : State) (step : Nat) : State :=
  State.dirToHbm { State.reset with
    dir := tmap Endpoint.zero s.dir fun d => { d with evseq := 0, marm := 0 }
    lehr := s.lehr.kept, keeper := s.keeper.restarted step, disk := s.disk, durable := s.durable, store := s.store
    pleach := { Pleach.reset with prepared := s.pleach.prepared, moved := s.pleach.moved, cuts := s.pleach.cuts, incoming := s.pleach.incoming, copied := s.pleach.copied }
    blockNext := s.blockNext, aoTick := s.aoTick, out := s.out, free := s.free, pending := s.pending }

/-! ### Power failure and reset pins (11 R370, 17 R536, 18 R567, R568) -/

/-- A power failure ends a migration that has not reached MOVED, and aborts a snapshot that waits for its RELEASE (17 R555, R557). -/
def Pleach.cutOff (p : Pleach) : Pleach :=
  { p with phase := 0, role := false, collecting := none, snapAbort := p.snapAbort || p.snapState == 1, snapState := if p.snapState = 1 then 0 else p.snapState }

/-- The device acts as on PWR_FAIL_N. -/
def State.powerFail (s : State) : State := let t := s.quiesce; { t with pleach := t.pleach.cutOff }

/-- PWR_FAIL_ASSERT: PWR_FAIL_N is low for `ns` ns. It is recognised from 20 ns on and ignored below 5; between, either (18 R566; log 2). -/
def execPwrFailAssert (ns : Nat) (s : State) : Outcome State Fault Refusal :=
  .next (if 20 ≤ ns then s.powerFail
    else if ns < 5 then s
    else if Config.freeBool s.free then { s.powerFail with free := s.free + 1 } else { s with free := s.free + 1 })

/-- PWR_FAIL_RESTART: PWR_FAIL_N has been high for 10 ms with every rail within tolerance; the device is reset, and the start sequence runs
from step 2 (18 R567, R568). -/
def execPwrFailRestart (s : State) : Outcome State Fault Refusal :=
  let k := s.keeper
  .next (if k.failLatched && !k.thermtrip && !k.rst && !k.crystalLost && decide (k.failAt + 10000 ≤ s.aoTick.toNat) then s.deviceReset 1 else s)

/-- SYS_RST_ASSERT: a quiesce, then the reset; the keeper waits for the next deassertion (17 R536). -/
def execSysRstAssert (s : State) : Outcome State Fault Refusal :=
  .next (if s.keeper.rst then s
    else
      let t := s.powerFail.deviceReset 0
      { t with keeper := { t.keeper with rst := true, gaveUp := false } })

/-- CRYSTAL_LOSS: as PWR_FAIL_N, and then the device is held in reset (18 R570). -/
def execCrystalLoss (s : State) : Outcome State Fault Refusal :=
  let k := s.keeper
  .next (if k.crystalLost then s
    else
      let t := s.powerFail.deviceReset 0
      { t with keeper := { t.keeper with crystalLost := true, crystalAt := s.aoTick.toNat, failLatched := k.failLatched } })

/-- CRYSTAL_RECOVERY: the crystal has been within 50 ppm for 10 ms; the start sequence runs unless another cause holds the device
(18 R568, R570). -/
def execCrystalRecovery (s : State) : Outcome State Fault Refusal :=
  let k := s.keeper
  .next (if k.crystalLost && decide (k.crystalAt + 10000 ≤ s.aoTick.toNat) then { s with keeper := { k with crystalLost := false, step := if k.failLatched || k.rst then 0 else 1 } } else s)

/-- KEEPER_START: VDD_AO comes within tolerance. The always-on domain starts afresh, and the keeper waits for SYS_RST_N and the rails (17
R535, 14 R454, 15 R498). -/
def execKeeperStart (s : State) : Outcome State Fault Refusal :=
  let k := s.keeper
  let t := s.deviceReset 0
  .next { t with
    aoTick := 0
    keeper := { Keeper.reset with
      revoke := k.revoke, svnf := k.svnf, debugLock := k.debugLock, dir0 := k.dir0, dir1 := k.dir1, imgA := k.imgA, imgB := k.imgB
      nor := k.nor, norAlarms := k.norAlarms, repair := k.repair, rst := true, rails := false } }

/-- START_WAIT_TIMEOUT: the conditions of R535 have not held within 1 s; the keeper starts nothing and reports the cause (17 R535). -/
def execStartWaitTimeout (s : State) : Outcome State Fault Refusal :=
  let k := s.keeper
  .next (if k.awake && k.step == 0 && !k.gaveUp && (k.rst || !k.rails || k.thermtrip) then
      State.emit { s with keeper := { k with gaveUp := true } } (.mctp (.bootFailure (if k.thermtrip then .thermtrip else .conditions)))
    else s)

/-! ### IMAGE_SELECT (15 R496, R497) -/

/-- What the keeper chooses: a slot, B when true, with whether it runs on trial; the recovery image; or none. -/
inductive Choice where
  | slot (b trial : Bool)
  | recovery (i : Img)
  | none
  deriving DecidableEq, Repr

/-- Slot `b` may be tried, and its verification passes. -/
def Keeper.startable (k : Keeper) (b : Bool) : Bool := decide (k.count b < 3) && k.verify (k.img b) false == 0

/-- The keeper's choice, and the keeper with a trial start counted (15 R496). -/
def Keeper.choose (k : Keeper) (spi : Option Img) : Choice × Keeper :=
  let d := k.dir
  let pref := (d.map (·.pref)).getD false
  let trial := (d.map (·.trial)).getD false
  let tries := (d.map (·.tries)).getD 0
  let counted := decide (k.count pref < 3) && trial && tries != 3
  let k1 := if counted then k.writeDir pref true (tries + 1) else k
  if k.startable pref && !(trial && tries == 3) then (.slot pref trial, k1)
  else if k.startable (!pref) then (.slot (!pref) false, k1)
  else match spi with
    | some i => if k.verify i true = 0 then (.recovery i, k1) else (.none, k1)
    | none => (.none, k1)

/-- GLB_BOOTSTAT as the keeper records it before release (15 R497, R512). -/
def Keeper.bootstat (k : Keeper) (i : Img) (b recov trial : Bool) (tick : Word64) : Keeper :=
  { k with
    slotB := b, recov := recov, trial := trial, tries := if trial then (k.dir.map (·.tries)).getD 0 else 0, keyidx := BitVec.ofNat 2 (imgKeyIdx i), svn := BitVec.ofNat 7 (imgSvn i)
    svnfAt := BitVec.ofNat 7 k.svnf, released := tick.toNat, heldCores := false, bootFail := false }

/-! ### The start sequence (17 R537 to R541) -/

/-- The ports once no slot image runs: the PF alone, with TotalVFs 0, and STATE FAULTED (17 Table 17-2). -/
def State.pfOnly (s : State) : State :=
  ({ s with ports := tset HPort.reset (tset HPort.reset s.ports 0 { s.port 0 with vfs := 0, crs := false }) 1 { s.port 1 with vfs := 0, crs := false } }).faulted

/-- Boot failure: the control cores stay in reset, and the keeper reports over MCTP (15 R496, 16 R526). -/
def State.noBoot (s : State) (c : BootCause) : State :=
  (State.pfOnly { s with keeper := { s.keeper with heldCores := true, bootFail := true } }).emit (.mctp (.bootFailure c))

/-- The sequencing field of ROM word `a` in a patch word: a NEXT becomes a ROMJ to the following address (15 R506). -/
def repairWord (a : Nat) : BitVec 96 :=
  let q := Config.romSeq a
  let f : BitVec 15 := if q.extractLsb' 13 2 = 0 then BitVec.ofNat 15 (2 ^ 13 + (a + 1) % 2 ^ 13) else q
  BitVec.ofNat 96 (f.toNat * 2 ^ 81 + (Config.romBody a).toNat)

/-- MICROCODE_LOAD: the patch set, then a match register and a patch word for each repair; none when they do not fit (15 R506). -/
def Clu.loadMicrocode (c : Clu) (p : PatchSet) (repairs : List Nat) : Option Clu :=
  if 16 < p.replaced.length + repairs.length ∨ 128 < p.words.length + repairs.length then none
  else
    let ms : List McMatch := p.replaced.map (fun q => ⟨true, q.1, q.2⟩) ++
      (List.range repairs.length).map fun i => ⟨true, BitVec.ofNat 13 (repairs.getD i 0), BitVec.ofNat 7 (p.words.length + i)⟩
    some { c with
      mcMatch := tsetRun McMatch.reset [] 0 ms, patch := tsetRun 0 [] 0 (p.words ++ repairs.map repairWord), patchLvl := p.level, pen := true }

/-- A cluster that fails at start stays in C4 and is out of service (15 R506, 17 R540). -/
def State.failCluster (s : State) (k : CluId) : State := s.modClu k fun c => { c with pst := .c4, floor := 4, removed := true }

/-- Steps 6 and 7 for one cluster. -/
def State.startCluster (s : State) (i : StartIn) (k : CluId) : State :=
  if i.bad.contains k then s.failCluster k
  else match (s.clu k).loadMicrocode i.patches ((s.keeper.repair.filter fun r => r.1 == k.val).map (·.2)) with
    | some c => s.setClu k c
    | none => s.failCluster k

/-- The STORAGE record of a port that is out of use, with its STATUS (16 Table 16-5). -/
def storageRecord (s : State) (p : StoragePort) : ErrRec :=
  { tick := s.aoTick, cls := 0x0F, sev := 2, unit := unitCode 5 p.val, status := 0, cause := 0, hedge := none, addr := none, slot := none
    detail := [] }

/-- The namespace that firmware uses, by its capacity in blocks: the lowest identifier with a 4,096-byte format (18 R577). -/
def DriveReport.space (d : DriveReport) : Option (BitVec 40) :=
  ((d.spaces.filterMap fun q => q.2.map fun b => (q.1, b)).foldl
    (fun (m : Option (Nat × BitVec 40)) q => match m with
      | some x => if q.1 < x.1 then some q else some x
      | none => some q) none).map (·.2)

/-- The drive's capacity, when its controller reports all that R577 asks for. -/
def DriveReport.usable (d : DriveReport) : Option (BitVec 40) :=
  if 2 ≤ d.nvme && decide (128 ≤ d.transfer) && decide (8 ≤ d.pairs) && decide (256 ≤ d.depth) && d.zeroes && d.dealloc && d.fua then
    DriveReport.space d
  else none

/-- STORAGE_BRINGUP: SPERSTk_N of each listed port is deasserted, and each whose drive comes up and passes R577 is used at this start (17
R538). -/
def State.bringUp (s : State) (i : StartIn) : State :=
  i.listed.foldl
    (fun (t : State) p => match (i.drives.find? fun d => d.1 == p).bind fun d => DriveReport.usable d.2 with
      | some b => t.setSport p { t.sport p with used := true, perst := false, blocks := b.toNat }
      | none => State.report (t.setSport p { t.sport p with perst := false }) (storageRecord t p)) s

/-- Memory stops that train at a fallback rate (16 R526). -/
def State.train (s : State) (i : StartIn) : State :=
  { s with rates := i.slow.foldl (fun t q => tset 32 t q.1.val (8 * (4 - q.2.val))) s.rates }

/-- Steps 3 to 9 of a slot image: it stops at step 4 when a channel has failed, and before GLB_BOOTOK when the image holds no patch set
(15 R506; 16 R526; 17 R540). -/
def State.startSlot (s : State) (i : StartIn) (patchOk : Bool) : State :=
  if !i.failed.isEmpty then s.noBoot .hbmChannel
  else
    let s2 := s.train i
    if !patchOk then { s2 with keeper := { s2.keeper with step := 6 } }
    else
      let s3 := allClus.foldl (fun (t : State) k => t.startCluster i k) s2
      let s4 : State := { s3 with ports := tset HPort.reset (tset HPort.reset s3.ports 0 { s3.port 0 with crs := false }) 1 { s3.port 1 with crs := false } }
      let s5 := s4.bringUp i
      let go (l : Link) : Link := if l.en then { l with state := .training, attempts := 1, since := s5.aoTick.toNat } else l
      { s5 with
        pleach := { s5.pleach with links := tmap Link.reset s5.pleach.links go }
        keeper := { s5.keeper with step := 9 } }

/-- The keeper starts an image: each DATA segment is in CCM, and GLB_BOOTSTAT is recorded (15 R497). -/
def State.release (s : State) (k : Keeper) (i : Img) (b recov trial : Bool) : State :=
  { s with ccm := (imgData i).foldl (fun t q => tsetRun 0 t q.1 q.2) s.ccm, keeper := k.bootstat i b recov trial s.aoTick }

/-- Steps 1 to 9, from the keeper's choice (17 Table 17-1). -/
def State.startUp (s : State) (i : StartIn) : State :=
  let r := s.keeper.choose i.spi
  match r.1 with
  | .slot b trial =>
    let img := s.keeper.img b
    (s.release r.2 img b false trial).startSlot i img.patchOk
  | .recovery img =>
    let t := s.release r.2 img false true false
    State.pfOnly { t with keeper := { t.keeper with step := 3 } }
  | .none => State.noBoot { s with keeper := r.2 } .noImage

/-- A recorded hedge is reopened: its registers, its storage in use and its VF, which is DOWN (17 R551). -/
def State.reopenHedge (s : State) (h : HedgeId) (d : HedgeDef) : State :=
  let g := s.hedge h
  let held := ((s.durable.filter fun kv => kv.1 / 2 ^ 48 == h.val).map fun kv => levelFrames kv.2.1).sum
  (s.setHedge h { g with
    fn := some d.fn, par := d.par, progs := d.progs, super := d.super, tables := d.tables, effMin := d.par.emin
    ecommit := BitVec.ofNat 18 d.par.gcommit, ehbm := BitVec.ofNat 8 d.par.ghbm, quota := BitVec.ofNat 14 d.par.lquota
    stored := held, pairTell := s.lehr.pairdeg }).modFn d.fn fun q => { q with hedge := some h, state := .down }

/-- HEDGE_REOPEN: every recorded hedge, in hedge order; one that a migration holds stays closed (17 R551, R556). -/
def State.reopenHedges (s : State) : State :=
  (List.finRange 64).foldl
    (fun (t : State) h => match tget none s.store h.val with
      | some d => if s.pleach.prepared.any (fun m => m.here == h) || s.pleach.moved.any (fun m => m.here == h) then t else t.reopenHedge h d
      | none => t) s

/-- Step 13: the hedges are reopened with their engines, and STATE becomes READY, as admin rings that wait for it do (13 R418). -/
def State.ready (s : State) (i : StartIn) : State :=
  let lend := (List.finRange 64).flatMap fun h => i.lend.filter fun q => q.1 == h
  let s1 := lend.foldl (fun (t : State) q => if t.assignable q.1 q.2.1 then t.assign q.1 q.2.1 (BitVec.ofNat 2 q.2.2.val) else t) s.reopenHedges
  allFns.foldl (fun (t : State) f => if (t.fn f).opening then t.modFn f fun q => { q with state := .ready, opening := false } else t)
    { s1 with
      devstat := 2, keeper := { s1.keeper with step := 13 }
      lehr := { s1.lehr with localFirst := s1.lehr.gcsdur + 1, localLast := s1.lehr.gcsdur } }

/-- START_SEQUENCE: SYS_RST_N is high. The first of two commands carries out steps 1 to 9 of Table 17-1, when the conditions of R535
hold; the second step 13. GLB_BOOTOK_WRITE, REPLAY and RING_REOPEN are the steps between (17 R535, R537). -/
def execStartSequence (i : StartIn) (s : State) : Outcome State Fault Refusal :=
  let k := s.keeper
  .next (if !k.awake || k.failLatched || k.crystalLost || k.thermtrip || k.gaveUp || k.bootFail then s
    else if k.step ≤ 1 ∧ s.devstat = 0 then
      let s1 : State := { s with keeper := { k with rst := false, rails := i.rails } }
      if i.rails then s1.startUp i else s1
    else if k.step = 12 ∧ s.devstat = 1 then s.ready i
    else s)

/-! ### GLB_BOOTOK, GLB_LOCK and the fuses (15 R490, R498, R508) -/

/-- The pleach part of step 9 is complete: no link is enabled, or none trains and the membership has settled (17 R537, R547). -/
def State.pleachPart (s : State) : Bool :=
  (List.finRange 4).all (fun l => !(s.link l).en) || (s.pleach.settled && (List.finRange 4).all fun l => (s.link l).state != .training)

/-- The keeper after GLB_BOOTOK: the running slot's start count clears, a pending SVN commit is lodged, and the directory prefers the slot
(15 R498). -/
def Keeper.confirmed (k : Keeper) : Keeper :=
  if k.recov then k
  else
    let i := k.img k.slotB
    let k1 := k.setCount k.slotB 0
    let k2 := { k1 with svnCommit := if imgSvnCommit i && decide (k.svnf < imgSvn i) then some (imgSvn i) else none }
    match k.dir with
    | some d => if d.pref = k.slotB ∧ !d.trial then { k2 with dirDone := true } else { k2.writeDir k.slotB false 0 with dirDone := true }
    | none => { (if k.slotB then k2.writeDir true false 0 else k2) with dirDone := true }

/-- GLB_BOOTOK_WRITE: the first write confirms the start-up; firmware's own, at step 9, is step 10, with the commit lodged, GLB_LOCK
set and STATE := REPLAY. A later write is a violation (15 R498, R512; 00 R10). -/
def execGlbBootokWrite (r : Requester) (v : Word64) (s : State) : Outcome State Fault Refusal :=
  .next (if !s.reaches r then s
    else if s.regs.bootokW then s.violation r 0x20 true kindWO
    else
      let s1 : State := { s with regs := { s.regs with bootokW := true, bootok := bit v 0 } }
      if !bit v 0 then s1
      else
        let s2 : State := { s1 with keeper := s.keeper.confirmed }
        match r with
        | .thread _ =>
          if s.keeper.step = 9 ∧ s.pleachPart ∧ !s.keeper.failLatched then
            { s2 with regs := { s2.regs with lock := true }, devstat := 1, keeper := { s2.keeper with step := 10 } }
          else s2
        | _ => s2)

/-- GLB_LOCK_WRITE: LOCK is set; a write of 1 when it is set already has no effect (15 R508). -/
def execGlbLockWrite (r : Requester) (s : State) : Outcome State Fault Refusal :=
  .next (if s.reaches r then { s with regs := { s.regs with lock := true } } else s)

/-- A blow in the direction of a fuse's blown state. -/
def Keeper.blow (k : Keeper) : FuseReq → Keeper
  | .revoke n => { k with revoke := k.revoke ||| BitVec.ofNat 4 (2 ^ n.val) }
  | .floor n => { k with svnf := max k.svnf n.val }
  | .debugLock => { k with debugLock := true }
  | .unblow => k

/-- FUSE_REQUEST: only firmware's requests before GLB_LOCK are carried out; one after it raises a management alarm (15 R490). -/
def execFuseRequest (r : Requester) (q : FuseReq) (s : State) : Outcome State Fault Refusal :=
  .next (match r with
    | .thread _ => if s.regs.lock then s.alarm .fuse else { s with keeper := s.keeper.blow q }
    | _ => s)

/-- SVN_COMMIT: a pending commit is carried out once the directory rewrite has completed (15 R498). -/
def execSvnCommit (s : State) : Outcome State Fault Refusal :=
  let k := s.keeper
  .next (match k.svnCommit with
    | some v => if k.dirDone then { s with keeper := { k with svnf := max k.svnf v, svnCommit := none } } else s
    | none => s)

/-! ### Watchdogs (15 R491, R498; 16 R532, R533) -/

/-- BOOT_WATCHDOG: GLB_BOOTOK has not been written within 8 s of release; the slot's start count rises, and R496 runs again (15 R498). -/
def execBootWatchdog (s : State) : Outcome State Fault Refusal :=
  let k := s.keeper
  .next (if 3 ≤ k.step ∧ k.step ≤ 9 ∧ !s.regs.bootok ∧ !k.recov ∧ !k.bootFail ∧ !k.failLatched ∧ k.released + 8000000 ≤ s.aoTick.toNat then
      let t := s.deviceReset 1
      { t with keeper := t.keeper.setCount k.slotB (k.count k.slotB + 1) }
    else s)

/-- HEARTBEAT: a released thread writes its heartbeat (15 R491). -/
def execHeartbeat (t : ThreadId) (s : State) : Outcome State Fault Refusal :=
  .next (if 3 ≤ s.keeper.step ∧ !s.keeper.heldCores then
      { s with keeper := { s.keeper with beats := tset 0 s.keeper.beats t.val (s.aoTick.toNat + 1) } }
    else s)

/-- The keeper restarts the device: an alarm, a quiesce, the reset and R496; the third restart within one hour is the last (16 R532). -/
def State.lastResort (s : State) (a : AlarmKind) (cause thread : Byte) : State :=
  let s1 := s.alarm a
  let s2 : State := { s1 with keeper := { s1.keeper with nor := s1.keeper.nor ++ [controlRecord s 3 cause thread] } }
  let s3 := s2.powerFail.deviceReset 1
  let recent := (s.keeper.resets.filter fun (x : Word64) => decide (s.aoTick.toNat < x.toNat + 3600000000)) ++ [s.aoTick]
  let s4 : State := { s3 with keeper := { s3.keeper with resets := recent } }
  if 3 ≤ recent.length then s4.noBoot .restarts else s4

/-- HEARTBEAT_LOSS: a heartbeat has stopped for 100 ms (16 R532). -/
def execHeartbeatLoss (t : ThreadId) (s : State) : Outcome State Fault Refusal :=
  let b := tget 0 s.keeper.beats t.val
  .next (if b ≠ 0 ∧ b + 99999 ≤ s.aoTick.toNat then s.lastResort .heartbeat 3 (BitVec.ofNat 8 t.val) else s)

/-- KEEPER_LAST_RESORT: a FATAL record has been written or, with `nor`, a NOR line of the running slot fails uncorrectably; that slot
fails verification from then on (16 R532, R533). -/
def execKeeperLastResort (nor : Bool) (s : State) : Outcome State Fault Refusal :=
  let k := s.keeper
  .next (if nor then
      if 3 ≤ k.step ∧ !k.recov then
        State.lastResort { s with keeper := k.program k.slotB { k.img k.slotB with sigOk := false } } .norLine 4 0
      else s
    else if s.regs.fatal then s.lastResort .fatal 1 0
    else s)

end Sys2Proof.Machine
end

