-- ==== Sys2Proof/Machine/Registers.lean ====
section
/-! DEFINITION. Control space: where each register lies, what a read of it returns, and what a write or a read-and-clear does
(00 R9 to R11; 15 R489, R507 to R512; 16; 19 R590 to R598). -/

namespace Sys2Proof.Machine

open Host (Outcome)

/-- A register of control space (19 Tables 19-2 and 19-4). -/
inductive Reg where
  | glbId | glbLock | glbErr | glbLvlog | glbBootok | glbBootstat | glbCcctl (c : CoreId) | glbSlotsel | glbSlotstat
  | glbGcsdrawn | glbGcsapply
  | keyTlbinv | keyTlbaddr | keyFtbase | keyPtroot (h : HedgeId)
  | lehrCtl | lehrStat | lehrGcsdur | lehrCkpt | lehrPair | lehrDrcnt | lehrHq (h : HedgeId) | lehrJzone (p : StoragePort)
  | pwrAotick | pwrCtl | pwrLimit | pwrMeter | pwrCctl (n : CluId) | pwrCstat (n : CluId) | pwrEcred (h : HedgeId) | pwrEg (h : HedgeId)
  | tmpCtl | tmpSens (k : SensorId) | tmpCred (n : CluId)
  | pchCtl | pchSetid | pchSetstat | pchLeader | pchMig | pchSnap | pchSnapcut | pchLinkctl (l : LinkId) | pchLinkstat (l : LinkId)
  | pchPeer (l : LinkId)
  | errRbase | errRptr | errStat | errMemcnt (k : StopId) | errPhlog0 (p : PortId) | errPhlog1 (p : PortId)
  | hstLink (p : PortId) | hstDrop (p : PortId)
  | movCtl (m : MovId) | movStat (m : MovId) | movIntstat (m : MovId) | movEvstat (m : MovId) | movErrlog0 (m : MovId)
  | movErrlog1 (m : MovId) | movUnexp (m : MovId) | movPt (m : MovId) (t : TimerId) | movBase (m : MovId) (n : ChId)
  | movCfg (m : MovId) (n : ChId) | movChctl (m : MovId) (n : ChId) | movChstat (m : MovId) (n : ChId)
  | cluTlbcnt (n : CluId) | cluStgpool (n : CluId) | cluEcc (n : CluId)
  | mcCtl (n : CluId) | mcPaddr (n : CluId) | mcPdata0 (n : CluId) | mcPdata1 (n : CluId) | mcId (n : CluId) | mcStat (n : CluId)
  | mcMatch (n : CluId) (k : Fin 16)
  | engRole (e : EngId) | engCtl (e : EngId) | engSwin (e : EngId) | engCpt (e : EngId) | engWdog (e : EngId) | engItlb (e : EngId)
  | engRscnt (e : EngId) | engBounce (e : EngId) | engEcc (e : EngId) | engCstat (e : EngId) (c : CtxId) | engXst (e : EngId) (c : CtxId)
  | engXctx (e : EngId) (c : CtxId) | engWindow (e : EngId) (c : CtxId) (w : Fin 128)
  deriving DecidableEq, Repr

/-! ### Addresses (19 R591, R595 to R598) -/

/-- The index of one of `n` registers that lie `stride` bytes apart from `base`. -/
def regIdx (n base stride off : Nat) : Option (Fin n) :=
  if h : base ≤ off ∧ (off - base) % stride = 0 ∧ (off - base) / stride < n then some ⟨(off - base) / stride, h.2.2⟩ else none

/-- The first register that an offset names. -/
def firstReg : List (Option Reg) → Option Reg
  | [] => none
  | some r :: _ => some r
  | none :: t => firstReg t

/-- A single register at an offset. -/
def regAt (at_ : Nat) (r : Reg) (off : Nat) : Option Reg := if off = at_ then some r else none

/-- The GLB_ block. -/
def glbReg (o : Nat) : Option Reg :=
  firstReg [regAt 0 .glbId o, regAt 8 .glbLock o, regAt 0x10 .glbErr o, regAt 0x18 .glbLvlog o, regAt 0x20 .glbBootok o,
    regAt 0x28 .glbBootstat o, (regIdx 4 0x40 8 o).map .glbCcctl, regAt 0x100 .glbSlotsel o, regAt 0x108 .glbSlotstat o,
    regAt 0x110 .glbGcsdrawn o, regAt 0x118 .glbGcsapply o]

/-- The KEY_ block. -/
def keyReg (o : Nat) : Option Reg :=
  firstReg [regAt 0 .keyTlbinv o, regAt 8 .keyTlbaddr o, regAt 0x10 .keyFtbase o, (regIdx 64 0x100 8 o).map .keyPtroot]

/-- The LEHR_ block. -/
def lehrReg (o : Nat) : Option Reg :=
  firstReg [regAt 0 .lehrCtl o, regAt 8 .lehrStat o, regAt 0x10 .lehrGcsdur o, regAt 0x18 .lehrCkpt o, regAt 0x20 .lehrPair o,
    regAt 0x28 .lehrDrcnt o, (regIdx 64 0x100 8 o).map .lehrHq, (regIdx 16 0x400 8 o).map .lehrJzone]

/-- The PWR_ block. -/
def pwrReg (o : Nat) : Option Reg :=
  firstReg [regAt 0 .pwrAotick o, regAt 8 .pwrCtl o, regAt 0x10 .pwrLimit o, regAt 0x18 .pwrMeter o, (regIdx 32 0x100 8 o).map .pwrCctl,
    (regIdx 32 0x200 8 o).map .pwrCstat, (regIdx 64 0x300 8 o).map .pwrEcred, (regIdx 64 0x500 8 o).map .pwrEg]

/-- The TMP_ block. -/
def tmpReg (o : Nat) : Option Reg :=
  firstReg [regAt 0 .tmpCtl o, (regIdx 64 0x100 8 o).map .tmpSens, (regIdx 32 0x300 8 o).map .tmpCred]

/-- The PCH_ block. -/
def pchReg (o : Nat) : Option Reg :=
  firstReg [regAt 0 .pchCtl o, regAt 8 .pchSetid o, regAt 0x10 .pchSetstat o, regAt 0x18 .pchLeader o, regAt 0x20 .pchMig o,
    regAt 0x28 .pchSnap o, regAt 0x30 .pchSnapcut o, (regIdx 4 0x100 8 o).map .pchLinkctl, (regIdx 4 0x120 8 o).map .pchLinkstat,
    (regIdx 4 0x140 8 o).map .pchPeer]

/-- The ERR_ block. -/
def errReg (o : Nat) : Option Reg :=
  firstReg [regAt 0 .errRbase o, regAt 8 .errRptr o, regAt 0x10 .errStat o, (regIdx 8 0x100 8 o).map .errMemcnt,
    (regIdx 2 0x200 16 o).map .errPhlog0, (regIdx 2 0x208 16 o).map .errPhlog1]

/-- The HST_ block. -/
def hstReg (o : Nat) : Option Reg := firstReg [(regIdx 2 0 16 o).map .hstLink, (regIdx 2 8 16 o).map .hstDrop]

/-- A mover's block (12 Table 12-8). -/
def movReg (m : MovId) (o : Nat) : Option Reg :=
  firstReg [regAt 0 (.movCtl m) o, regAt 8 (.movStat m) o, regAt 0x10 (.movIntstat m) o, regAt 0x18 (.movEvstat m) o,
    regAt 0x20 (.movErrlog0 m) o, regAt 0x28 (.movErrlog1 m) o, regAt 0x30 (.movUnexp m) o, (regIdx 16 0x100 8 o).map (.movPt m),
    (regIdx 64 0x1000 32 o).map (.movBase m), (regIdx 64 0x1008 32 o).map (.movCfg m), (regIdx 64 0x1010 32 o).map (.movChctl m),
    (regIdx 64 0x1018 32 o).map (.movChstat m)]

/-- An engine's block. -/
def engReg (e : EngId) (o : Nat) : Option Reg :=
  firstReg [regAt 0 (.engRole e) o, regAt 8 (.engCtl e) o, regAt 0x10 (.engSwin e) o, regAt 0x18 (.engCpt e) o, regAt 0x20 (.engWdog e) o,
    regAt 0x28 (.engItlb e) o, regAt 0x30 (.engRscnt e) o, regAt 0x38 (.engBounce e) o, regAt 0x40 (.engEcc e) o,
    (regIdx 32 0x100 8 o).map (.engCstat e), (regIdx 32 0x200 8 o).map (.engXst e), (regIdx 32 0x300 8 o).map (.engXctx e),
    (regIdx 4096 0x8000 8 o).map fun i => .engWindow e ⟨i.val / 128, by omega⟩ ⟨i.val % 128, by omega⟩]

/-- An MC_ register of a cluster. -/
def mcReg (n : CluId) (o : Nat) : Option Reg :=
  firstReg [regAt 0x1000 (.mcCtl n) o, regAt 0x1008 (.mcPaddr n) o, regAt 0x1010 (.mcPdata0 n) o, regAt 0x1018 (.mcPdata1 n) o,
    regAt 0x1020 (.mcId n) o, regAt 0x1028 (.mcStat n) o, (regIdx 16 0x1100 8 o).map (.mcMatch n)]

/-- A cluster's block. -/
def cluReg (n : CluId) (o : Nat) : Option Reg :=
  if h : 0x10000 ≤ o ∧ (o - 0x10000) / 0x10000 < 8 then engReg (engOf n ⟨(o - 0x10000) / 0x10000, h.2⟩) ((o - 0x10000) % 0x10000)
  else firstReg [regAt 0 (.cluTlbcnt n) o, regAt 8 (.cluStgpool n) o, regAt 0x10 (.cluEcc n) o, mcReg n o]

/-- The register at a control-space address, none where no table assigns one (19 R591). -/
def regOf (a : Nat) : Option Reg :=
  if a % 8 ≠ 0 then none
  else if a < 0x80000 then
    (match a / 0x10000 with
    | 0 => glbReg | 1 => keyReg | 2 => lehrReg | 3 => pwrReg | 4 => tmpReg | 5 => pchReg | 6 => errReg | _ => hstReg) (a % 0x10000)
  else if h : 0x100000 ≤ a ∧ (a - 0x100000) / 0x2000 < 36 then movReg ⟨_, h.2⟩ ((a - 0x100000) % 0x2000)
  else if h : 0x1000000 ≤ a ∧ (a - 0x1000000) / 0x100000 < 32 then cluReg ⟨_, h.2⟩ ((a - 0x1000000) % 0x100000)
  else none

/-- The offset within a cluster block that an address in the MC_ broadcast alias stands for (19 R597). -/
def aliasOff (a : Nat) : Option Nat := if 0x3001000 ≤ a ∧ a < 0x3001180 then some (a - 0x3001000 + 0x1000) else none

/-! ### Reads -/

/-- STATE codes of Table 3-1. -/
def CState.code : CState → Nat
  | .free => 0 | .ready => 1 | .busy => 2 | .held => 3 | .wait => 4 | .parking => 5 | .quarantined => 6

/-- Codes of Table 10-1. -/
def SlotState.code : SlotState → Nat
  | .idle => 0 | .admitted => 1 | .resident => 2 | .parking => 3 | .parked => 4 | .unparking => 5 | .sealing => 6 | .sequenced => 7
  | .applying => 8 | .ending => 9 | .restarting => 10

/-- A register value. -/
abbrev rv (n : Nat) : Word64 := BitVec.ofNat 64 n

/-- GLB_SLOTSTAT of the selected slot (10 Table 10-8). -/
def State.slotstat (s : State) : Nat :=
  let sl := s.slot ⟨s.regs.slotsel.toNat, s.regs.slotsel.isLt⟩
  if sl.state = .idle then 0
  else
    sl.state.code + 2 ^ 4 * sl.hedge.val + 2 ^ 10 * sl.eng.val + 2 ^ 18 * sl.ctx.val + 2 ^ 23 * b2n sl.wound + 2 ^ 24 * b2n sl.sealed +
      2 ^ 25 * sl.retry.toNat + 2 ^ 32 * (if sl.state = .ending then sl.status.toNat else 0) + 2 ^ 40 * (sl.start.toNat % 2 ^ 24)

/-- ENG_CSTATn (03 Table 3-3). -/
def Ctx.cstat (c : Ctx) : Nat :=
  c.state.code + 2 ^ 4 * (if c.state = .wait then c.whyNow.toNat else 0) + 2 ^ 8 * b2n c.rescue + 2 ^ 9 * b2n c.pb.isSome +
    2 ^ 16 * c.slot.val + 2 ^ 40 * (if c.state = .busy then c.left.toNat else 0)

/-- ENG_ROLE (02 Table 2-2). -/
def Engine.roleWord (e : Engine) : Nat :=
  e.hedge.val + 2 ^ 6 * e.role.toNat + 2 ^ 8 * b2n e.assigned + 2 ^ 10 * b2n e.clearing + 2 ^ 11 * b2n e.clean + 2 ^ 16 * e.lastHedge.val +
    2 ^ 32 * e.epoch.toNat

/-- A word of a context window (19 R598): the architectural state; the other words are private to firmware (log 3), `k` draws them. -/
def Ctx.windowRead (e : Engine) (c : Ctx) (jtag : Bool) (k off : Nat) : Nat :=
  match off with
  | 0 => c.pc.toNat
  | 1 => c.psw.pl.toNat + 2 ^ 4 * c.psw.m.toNat + 2 ^ 7 * b2n c.psw.eh + 2 ^ 8 * c.psw.key.toNat + 2 ^ 12 * c.psw.rm.toNat +
      2 ^ 16 * e.hedge.val + 2 ^ 32 * e.epoch.toNat
  | 2 => c.osb.toNat + 2 ^ 18 * c.osl.toNat + 2 ^ 36 * c.depth.toNat
  | 3 => c.fp.toNat + 2 ^ 18 * (c.fl.toNat % 2 ^ 18) + 2 ^ 36 * c.fbase.toNat
  | off =>
    let x := c.local ((off - 32) / 4)
    if 32 ≤ off ∧ off < 96 ∧ (off - 32) % 4 = 0 then x.pay.toNat % 2 ^ 64
    else if 32 ≤ off ∧ off < 96 ∧ (off - 32) % 4 = 1 then x.pay.toNat / 2 ^ 64
    else
      let v := if jtag then 0 else (Config.freeValue 64 k).toNat
      if 32 ≤ off ∧ off < 96 ∧ (off - 32) % 4 = 2 then x.tag.toNat + v / 2 ^ 8 * 2 ^ 8 else v

/-- The STATE of an engine channel with a STAGE at work: PAGED while that waits for a page (12 R413). -/
def State.stageState (s : State) (e : EngId) : ChState :=
  match s.stageHead e with
  | some c => match ((s.eng e).ctx c).request? with
    | some ⟨_, _, .pageFault _, _⟩ => .paged
    | _ => .active
  | none => .idle

/-- A drain write goes by the hardware channel of its port (12 R382; log 75). -/
def State.drainsVia (s : State) (m : MovId) (n : ChId) : Bool :=
  decide (n.val < 8) && s.drainWrites (8 * (m.val - 34) + n.val)

/-- The STATE of a channel: that of a hardware channel shows its work. -/
def State.chanState (s : State) (m : MovId) (n : ChId) : ChState :=
  if (s.chan m n).state ≠ .idle then (s.chan m n).state
  else if m.val < 32 ∧ n.val < 8 then s.stageState ⟨(8 * m.val + n.val) % 256, Nat.mod_lt _ (by decide)⟩
  else if 34 ≤ m.val ∧ s.drainsVia m n then .active
  else .idle

/-- PWR_CSTATn (14 Table 14-7). -/
def State.cstatWord (s : State) (n : CluId) : Nat :=
  let c := s.clu n
  c.pst.code + 2 ^ 3 * c.point.toNat + 2 ^ 6 * b2n c.boost + 2 ^ 7 * b2n c.throt + 2 ^ 8 * b2n (decide (s.brakeCap c < 4)) +
    2 ^ 9 * b2n (s.cluWarm n) + 2 ^ 10 * c.pcap.toNat + 2 ^ 13 * c.thermal + 2 ^ 32 * c.energy.toNat

/-- A pleach link's PCH_LINKSTATl (17 Table 17-5). -/
def Link.stat (l : Link) : Nat := l.state.code + 2 ^ 4 * l.attempts.toNat + 2 ^ 8 * l.drops.toNat + 2 ^ 12 * l.peerlink.toNat

/-- What a read of a register returns (19 Tables 19-2 and 19-4). -/
def State.regRead (s : State) (jtag : Bool) : Reg → Word64
  | .glbId => rv 0x25610
  | .glbLock => rv (b2n s.regs.lock)
  | .glbErr => rv (b2n s.regs.lockviol + 2 * b2n s.regs.lvmore + 4 * b2n s.regs.secalm)
  | .glbLvlog => s.regs.lvlog
  | .glbBootok => rv (b2n s.regs.bootok)
  | .glbBootstat =>
    let k := s.keeper
    rv (b2n k.slotB + 2 * b2n k.recov + 4 * b2n k.trial + 8 * k.tries.toNat + 32 * k.keyidx.toNat + 256 * k.svn.toNat + 2 ^ 16 * k.svnfAt.toNat)
  | .glbCcctl c => rv (2 * b2n (bit s.regs.pfbusy c.val) + 2 ^ 16 * (tget 0 s.regs.pfcount c.val).toNat)
  | .glbSlotsel => rv s.regs.slotsel.toNat
  | .glbSlotstat => rv s.slotstat
  | .glbGcsdrawn => s.lehr.drawn
  | .glbGcsapply => s.lehr.applied
  | .keyTlbinv => rv (s.regs.tlbOp.toNat + 16 * s.regs.tlbHedge.val + 2 ^ 17 * b2n s.regs.tlbBusy + 2 ^ 32 * s.regs.clmask.toNat)
  | .keyTlbaddr => rv (s.regs.tlbPage.toNat * 4096)
  | .keyFtbase => rv (s.regs.ftbase.toNat * 4096)
  | .keyPtroot h => rv (b2n (s.hedge h).rootV + (s.hedge h).root.toNat * 4096)
  | .lehrCtl => rv (s.lehr.twait.toNat + 2 ^ 32 * s.lehr.jlimit.toNat)
  | .lehrStat =>
    let l := if s.lehr.asleep then Lehr.reset else s.lehr
    rv (l.fill + 2 ^ 14 * b2n l.low + 2 ^ 15 * b2n l.high + 2 ^ 16 * b2n l.full + 2 ^ 17 * b2n l.pairdeg + 2 ^ 18 * b2n l.drstop +
      2 ^ 19 * b2n l.fenced + 2 ^ 20 * l.rot.toNat + 2 ^ 26 * b2n l.lap + 2 ^ 32 * l.wp.toNat + 2 ^ 48 * l.rp.toNat)
  | .lehrGcsdur => s.lehr.gcsdur
  | .lehrCkpt => s.lehr.ckpt
  | .lehrPair => rv (b2n s.lehr.pairEn + 2 * b2n s.lehr.fall + 4 * s.lehr.link.toNat + 2 ^ 16 * s.lehr.ptmo.toNat)
  | .lehrDrcnt => rv (s.lehr.seg.toNat + 2 ^ 16 * s.lehr.part_.toNat + 2 ^ 32 * s.lehr.fail.toNat + 2 ^ 48 * s.lehr.pack.toNat)
  | .lehrHq h =>
    let g := s.hedge h
    rv (g.quota.toNat + 2 ^ 16 * g.used.toNat + 2 ^ 32 * g.thr.toNat + 2 ^ 48 * g.waits.toNat)
  | .lehrJzone p =>
    let z := tget (false, 0, 0) s.lehr.zones p.val
    rv (b2n z.1 + 4096 * z.2.1.toNat + 2 ^ 48 * z.2.2.toNat)
  | .pwrAotick => s.aoTick
  | .pwrCtl => rv (b2n s.regs.boosten + 2 * s.regs.brakept.toNat)
  | .pwrLimit => rv s.regs.limit.toNat
  | .pwrMeter => rv (s.regs.power.toNat + 2 ^ 16 * s.regs.peak.toNat)
  | .pwrCctl n =>
    let c := s.clu n
    rv (c.floor.toNat + 16 * c.target.toNat + 128 * b2n c.boosten + 2 ^ 16 * c.t2.toNat + 2 ^ 32 * c.t3.toNat)
  | .pwrCstat n => rv (s.cstatWord n)
  | .pwrEcred h => rv (s.hedge h).credit.toNat
  | .pwrEg h => rv ((s.hedge h).ecommit.toNat + 2 ^ 24 * (s.hedge h).ehbm.toNat)
  | .tmpCtl => rv (s.regs.tcool.toNat + 2 ^ 16 * s.regs.hboost.toNat + 2 ^ 32 * 0x17C + 2 ^ 42 * 0x19C + 2 ^ 52 * 0x1A4)
  | .tmpSens k => rv ((s.sensor k.val).1.toNat + 2 ^ 11 * b2n (s.sensor k.val).2)
  | .tmpCred n => rv ((s.clu n).heat.toNat + 2 ^ 12 * (s.clu n).band s.regs.hboost.toNat)
  | .pchCtl => rv s.pleach.budget.toNat
  | .pchSetid => s.pleach.setid
  | .pchSetstat => rv (s.pleach.members.toNat + 32 * b2n s.pleach.seterr + 64 * b2n s.pleach.settled + 2 ^ 16 * s.pleach.epoch.toNat)
  | .pchLeader => s.pleach.leader
  | .pchMig => rv (s.pleach.phase.toNat + 4 * b2n s.pleach.role + 16 * s.pleach.migHedge.val + 2 ^ 16 * s.pleach.pages.toNat)
  | .pchSnap => rv (s.pleach.snapNum.toNat + 2 ^ 32 * s.pleach.snapState.toNat + 2 ^ 34 * b2n s.pleach.snapAbort)
  | .pchSnapcut => s.pleach.snapCut
  | .pchLinkctl l => rv (b2n (s.link l).en)
  | .pchLinkstat l => rv (s.link l).stat
  | .pchPeer l => (s.link l).peer
  | .errRbase => rv (64 * s.regs.rbAddr.toNat + 2 ^ 24 * s.regs.rbLog2.toNat)
  | .errRptr => rv (s.regs.tail.toNat + 2 ^ 16 * s.regs.head.toNat)
  | .errStat => rv (s.regs.lost.toNat + 2 ^ 16 * b2n s.regs.fatal)
  | .errMemcnt k => rv ((s.memcnt k).ce.toNat + 2 ^ 32 * (s.memcnt k).ue.toNat + 2 ^ 48 * (s.memcnt k).scrub.toNat)
  | .errPhlog0 p => (s.port p).logAddr
  | .errPhlog1 p =>
    let q := s.port p
    rv (q.logFn.toNat + 128 * b2n q.logV + 256 * b2n q.logEvt + 2 ^ 16 * q.logHsn.toNat)
  | .hstLink p =>
    let q := s.port p
    rv (q.rate.toNat + 8 * q.width.toNat + 256 * b2n q.l0 + 512 * b2n q.flit + 1024 * b2n q.crs)
  | .hstDrop p => rv (s.port p).drop.toNat
  | .movCtl m => rv (s.mover m).tmo.toNat
  | .movStat m =>
    let v := s.mover m
    rv (b2n v.errhalt + 2 * b2n v.drained + 2 ^ 8 * ((131072 - v.reserved) / 1024) + 2 ^ 16 * v.infl)
  | .movIntstat m => (s.mover m).intstat
  | .movEvstat m => rv (s.mover m).evstat.toNat
  | .movErrlog0 m => (s.mover m).errAddr
  | .movErrlog1 m => rv (s.mover m).errLog1
  | .movUnexp m => rv ((s.mover m).unexp.toNat + 2 ^ 16 * (s.mover m).unexpTag.toNat + 2 ^ 32 * (s.mover m).unexpBytes.toNat)
  | .movPt m t =>
    let p := (s.mover m).pt t
    rv (p.period.toNat + 2 ^ 16 * p.quota.toNat + 2 ^ 25 * b2n p.req + 2 ^ 32 * p.left.toNat)
  | .movBase m n => let c := s.chan m n; rv (c.log2.toNat + 32 * c.addr.toNat + 2 ^ 40 * b2n c.spc)
  | .movCfg m n =>
    let c := s.chan m n
    if hwChan m n then 0 else rv (b2n (decide (c.state ≠ .disabled)) + 2 * c.prio.toNat + 16 * c.maxb.toNat + 2 ^ 16 * c.hedge.val +
      2 ^ 22 * b2n c.sigv + 2 ^ 32 * c.ept.toNat)
  | .movChctl _ _ => 0
  | .movChstat m n =>
    let c := s.chan m n
    rv ((s.chanState m n).code + 8 * b2n c.kpend + 16 * c.head.toNat + 2 ^ 16 * c.last.toNat + 2 ^ 24 * c.infl + 2 ^ 32 * (c.done % 2 ^ 24))
  | .cluTlbcnt n =>
    let c := s.clu n
    rv (c.l2miss.toNat + 2 ^ 16 * c.walkRst.toNat + 2 ^ 32 * c.rfault.toNat + 2 ^ 48 * c.specFill.toNat)
  | .cluStgpool n => let c := s.clu n; rv (c.stgFree.toNat + 2 ^ 16 * c.stgCullet.toNat + 2 ^ 32 * c.stgWaits.toNat)
  | .cluEcc n => let c := s.clu n; rv (c.crce.toNat + 2 ^ 16 * c.tlbpe.toNat + 2 ^ 32 * c.crbad.toNat + 2 ^ 51 * b2n c.crbadv)
  | .mcCtl n => rv (b2n (s.clu n).pen)
  | .mcPaddr n => rv (s.clu n).mcPaddr.toNat
  | .mcPdata0 n => (s.clu n).mcPd0
  | .mcPdata1 n => rv (s.clu n).mcPd1.toNat
  | .mcId n => rv (3 + 2 ^ 16 * (s.clu n).patchLvl.toNat)
  | .mcStat n => rv (s.clu n).mcStatWord
  | .mcMatch n k => let q := tget McMatch.reset (s.clu n).mcMatch k.val; rv (q.rom.toNat + 2 ^ 13 * b2n q.v + 2 ^ 16 * q.padr.toNat)
  | .engRole e => rv (s.eng e).roleWord
  | .engCtl e => let g := s.eng e; rv (b2n g.strict + 2 * b2n g.rso + 4 * b2n g.lben + 8 * b2n g.idlegate)
  | .engSwin e => rv ((s.eng e).swinBase.toNat * 4096 + 2 ^ 28 * (s.eng e).swinSize.toNat)
  | .engCpt e => rv ((s.eng e).cptCount.toNat + 256 * (s.eng e).cptBase.toNat)
  | .engWdog e => rv (s.eng e).wdogLimit.toNat
  | .engItlb e => rv (s.eng e).itlb.toNat
  | .engRscnt e => rv ((s.eng e).rsOvf.toNat + 2 ^ 16 * (s.eng e).rsUnf.toNat)
  | .engBounce e => rv (s.eng e).bounce.toNat
  | .engEcc e =>
    let g := s.eng e
    rv (g.sce.toNat + 2 ^ 16 * g.sue.toNat + 2 ^ 32 * g.xce.toNat + 2 ^ 46 * g.eccLast.toNat)
  | .engCstat e c => rv ((s.eng e).ctx c).cstat
  | .engXst e c => ((s.eng e).ctx c).xst
  | .engXctx e c => ((s.eng e).ctx c).xctx
  | .engWindow e c w => rv (((s.eng e).ctx c).windowRead (s.eng e) jtag s.free w.val)

/-! ### Reads that clear (00 R9, R11) -/

/-- The state once the RC fields of a register have been read: they are clear, its other fields stay. -/
def State.regClear (s : State) : Reg → State
  | .glbCcctl c => { s with regs := { s.regs with pfcount := tset 0 s.regs.pfcount c.val 0 } }
  | .lehrDrcnt => { s with lehr := { s.lehr with seg := 0, part_ := 0, fail := 0, pack := 0 } }
  | .lehrHq h => s.modHedge h fun g => { g with thr := 0, waits := 0 }
  | .pwrMeter => { s with regs := { s.regs with peak := 0 } }
  | .pchLinkstat l => s.setLink l { s.link l with drops := 0 }
  | .errStat => { s with regs := { s.regs with lost := 0 } }
  | .errMemcnt k => s.modMemcnt k fun c => { c with ce := 0, ue := 0 }
  | .hstDrop p => s.setPort p { s.port p with drop := 0 }
  | .movUnexp m => s.modMover m fun v => { v with unexp := 0 }
  | .cluTlbcnt n => s.modClu n fun c => { c with l2miss := 0, walkRst := 0, rfault := 0, specFill := 0 }
  | .cluStgpool n => s.modClu n fun c => { c with stgCullet := 0, stgWaits := 0 }
  | .cluEcc n => s.modClu n fun c => { c with crce := 0, tlbpe := 0 }
  | .mcStat n => s.modClu n fun c => { c with mcCe := 0, mcUe := 0, mcOvr := 0 }
  | .engRscnt e => s.modEng e fun g => { g with rsOvf := 0, rsUnf := 0 }
  | .engBounce e => s.modEng e fun g => { g with bounce := 0 }
  | .engEcc e => s.modEng e fun g => { g with sce := 0, sue := 0, xce := 0 }
  | _ => s

/-- REGISTER_READ_CLEAR: a read returns the value, then clears the RC fields; one that is no aligned 8-byte read, or of an offset
that no table assigns, returns 0 (00 R11, 19 R591, R592). -/
def execRegisterReadClear (r : Requester) (a : RegAccess) (s : State) : Outcome State Fault Refusal :=
  .next (if !s.reaches r then s
    else match if a.len = 8 then regOf a.addr.toNat else none with
    | none => s.emit (.value a.addr 0)
    | some q => { (s.regClear q).emit (.value a.addr (s.regRead (r == .jtag) q)) with free := s.free + 1 })

/-! ### Writes -/

/-- What a command's meaning leaves, for a register write that acts as that command. -/
def stateOf (s : State) : Outcome State Fault Refusal → State
  | .next t => t
  | _ => s

/-- A write of an LK register: read-only once GLB_LOCK is set, when it is a violation (00 R10, 15 R510). -/
def State.lkWrite (s : State) (r : Requester) (addr : Nat) (sec : Bool) (t : State) : State :=
  if s.regs.lock then s.violation r addr sec kindLK else t

/-- Change the device registers. -/
def State.modRegs (s : State) (f : Regs → Regs) : State := { s with regs := f s.regs }

/-- PFLUSH: a flush of core `c` starts, unless one runs (15 R489). -/
def execPflush (r : Requester) (c : CoreId) (s : State) : Outcome State Fault Refusal :=
  .next (if !s.reaches r || bit s.regs.pfbusy c.val then s
    else s.flushCore c.val)

/-- A write of MC_PDATA1 stores the patch word and advances MC_PADDR modulo 128 (15 R507). -/
def Clu.storePatch (c : Clu) (v : Word64) : Clu :=
  { c with
    mcPd1 := v.extractLsb' 0 32, mcPaddr := c.mcPaddr + 1
    patch := tset 0 c.patch c.mcPaddr.toNat (v.extractLsb' 0 32 ++ c.mcPd0) }

/-- What a write of the MC_ register at an offset changes in a cluster (15 Table 15-7). -/
def Clu.mcWrite (c : Clu) (off : Nat) (v : Word64) : Clu :=
  if off = 0x1000 then { c with pen := bit v 0 }
  else if off = 0x1008 then { c with mcPaddr := v.extractLsb' 0 7 }
  else if off = 0x1010 then { c with mcPd0 := v }
  else if off = 0x1018 then c.storePatch v
  else if off = 0x1020 then { c with patchLvl := v.extractLsb' 16 8 }
  else match regIdx 16 0x1100 8 off with
    | some k => { c with
        mcMatch := tset McMatch.reset c.mcMatch k.val { v := bit v 13, rom := v.extractLsb' 0 13, padr := v.extractLsb' 16 7 } }
    | none => c

/-- The MC_ registers with an LK field, all of the security class (15 R511). -/
def mcLk (off : Nat) : Bool :=
  off == 0x1000 || off == 0x1008 || off == 0x1010 || off == 0x1018 || off == 0x1020 || (regIdx 16 0x1100 8 off).isSome

/-- A cluster applies a write of its MC_ register: with a resident context only MC_ID takes one (15 R507). -/
def State.mcApply (s : State) (n : CluId) (off : Nat) (v : Word64) : State :=
  if s.cluResident n && off != 0x1020 then s else s.modClu n fun c => c.mcWrite off v

/-- A write of one cluster's MC_ register. -/
def State.mcReg (s : State) (r : Requester) (n : CluId) (off : Nat) (v : Word64) : State :=
  if mcLk off then s.lkWrite r (cluBase n + off) true (s.mcApply n off v) else s

/-- MC_PDATA1_WRITE (15 R507). -/
def execMcPdata1Write (r : Requester) (n : CluId) (v : Word64) (s : State) : Outcome State Fault Refusal :=
  .next (if s.reaches r then s.mcReg r n 0x1018 v else s)

/-- MC_BROADCAST_WRITE: every cluster applies the write on its own account; after GLB_LOCK it is one violation, with the alias address
(15 R507, R510; 19 R597). `off` is the register's offset in a cluster block. -/
def execMcBroadcastWrite (r : Requester) (off : Nat) (v : Word64) (s : State) : Outcome State Fault Refusal :=
  .next (if s.reaches r && mcLk off then
      s.lkWrite r (0x3001000 + (off - 0x1000)) true (allClus.foldl (fun (t : State) n => t.mcApply n off v) s)
    else s)

/-- A write of KEY_TLBINV: the operands take their fields, and GO starts the operation (09 R307, Table 9-11). -/
def State.tlbinvWrite (s : State) (r : Requester) (v : Word64) : State :=
  let op := bits v 2 0
  let h : HedgeId := ⟨bits v 9 4 % 64, Nat.mod_lt _ (by decide)⟩
  let mask : BitVec 32 := v.extractLsb' 32 32
  if 4 < op then s
  else
    let s1 := s.modRegs fun g => { g with tlbOp := v.extractLsb' 0 3, tlbHedge := h, clmask := mask }
    if !bit v 16 then s1
    else match op with
      | 1 => stateOf s1 (execTlbinvPage r h mask s1)
      | 2 => stateOf s1 (execTlbinvHedge r h mask s1)
      | 3 => stateOf s1 (execTlbinvFrame r mask s1)
      | 4 => stateOf s1 (execTlbinvAll r mask s1)
      | _ => s1

/-- A write of MOV_PTk; PERIOD = 0 disables the timer, which then asserts nothing (12 R400). -/
def Mover.ptWrite (m : Mover) (t : TimerId) (v : Word64) : Mover :=
  if bits v 23 16 = 0 then m
  else
    let p := m.pt t
    let off := bits v 15 0 == 0 || bit v 24
    m.setPt t { period := v.extractLsb' 0 16, quota := v.extractLsb' 16 8, req := p.req && !off, left := if off then 0 else p.left }

/-- A write of MOV_CHnCTL; bits written together act in the order RESET, RESUME, ABORT, KICK. -/
def State.chctlWrite (s : State) (m : MovId) (n : ChId) (v : Word64) : State :=
  let s1 := if bit v 3 then stateOf s (execResetChannel m n s) else s
  let s2 := if bit v 2 then stateOf s1 (execResume m n s1) else s1
  let s3 := if bit v 1 then stateOf s2 (execAbortChannel m n s2) else s2
  if bit v 0 then stateOf s3 (execKick m ⟨n, []⟩ s3) else s3

/-- A new series of attempts begins at an ao-tick (17 R543). -/
def Link.train (l : Link) (tick : Nat) : Link := { l with state := .training, attempts := 1, since := tick }

/-- A link's state has changed: the membership is unsettled (17 R545). -/
def State.linkChanged (s : State) (l : LinkId) (x : Link) : State :=
  let t := s.setLink l x
  { t with pleach := { t.pleach with settled := false, changed := s.aoTick.toNat } }

/-- RETRAIN starts a new series of attempts on an enabled link that is not UP; one that is HELD stays down for the rest of the start, which
ends with step 13 (17 R543). -/
def execRetrain (r : Requester) (l : LinkId) (s : State) : Outcome State Fault Refusal :=
  let x := s.link l
  .next (if s.reaches r && x.en && decide (9 ≤ s.keeper.step) && x.state != .up && (x.state != .held || s.keeper.step == 13) then
      s.linkChanged l (x.train s.aoTick.toNat)
    else s)

/-- EN of a link as written: from the end of step 8 on, a link with EN = 1 trains (17 R543). -/
def State.linkEnable (s : State) (l : LinkId) (en : Bool) : State :=
  let x := { s.link l with en := en }
  if !en then s.linkChanged l { x with state := .disabled }
  else if 9 ≤ s.keeper.step then s.linkChanged l (x.train s.aoTick.toNat)
  else s.setLink l x

/-- A write of PCH_LINKCTLl: EN is LK, so any write after GLB_LOCK leaves it and is a violation; RETRAIN is W1S (00 R10). -/
def State.linkctlWrite (s : State) (r : Requester) (addr : Nat) (l : LinkId) (v : Word64) : State :=
  let s1 := s.lkWrite r addr false (if bit v 0 = (s.link l).en then s else s.linkEnable l (bit v 0))
  if bit v 1 then stateOf s1 (execRetrain r l s1) else s1

/-- A write of a register under its access codes (00 R9; 19 R592): a register with a row of its own acts as that row, an LK register obeys
GLB_LOCK, and a write that would leave a field out of range changes nothing. -/
def State.regWrite (s : State) (r : Requester) (addr : Nat) (v : Word64) : Reg → State
  | .glbLock => if bit v 0 then stateOf s (execGlbLockWrite r s) else s
  | .glbErr => s.modRegs fun g =>
      { g with
        lockviol := g.lockviol && !bit v 0, lvmore := g.lvmore && !bit v 0 && !bit v 1, secalm := g.secalm && !bit v 2
        lvCount := if bit v 0 then 0 else g.lvCount }
  | .glbBootok => stateOf s (execGlbBootokWrite r v s)
  | .glbCcctl c => if bit v 0 then stateOf s (execPflush r c s) else s
  | .glbSlotsel => s.modRegs fun g => { g with slotsel := v.extractLsb' 0 17 }
  | .keyTlbinv => s.tlbinvWrite r v
  | .keyTlbaddr => s.modRegs fun g => { g with tlbPage := v.extractLsb' 12 36 }
  | .keyFtbase => s.lkWrite r addr true (s.modRegs fun g => { g with ftbase := v.extractLsb' 12 32 })
  | .keyPtroot h => s.modHedge h fun g => { g with rootV := bit v 0, root := v.extractLsb' 12 32 }
  | .lehrCtl =>
    if bits v 15 0 < 10 ∨ 10000 < bits v 15 0 ∨ bits v 47 32 < 256 then s
    else { s with lehr := { s.lehr with twait := v.extractLsb' 0 16, jlimit := v.extractLsb' 32 16 } }
  | .lehrPair => s.pairWrite v
  | .lehrHq h =>
    if bits v 13 0 < 512 ∨ 8192 < bits v 13 0 then s else s.modHedge h fun g => { g with quota := v.extractLsb' 0 14 }
  | .lehrJzone p =>
    if bit v 0 ∧ bits v 63 48 < 16 then s
    else s.setZone p.val (bit v 0, v.extractLsb' 12 36, v.extractLsb' 48 16)
  | .pwrCtl =>
    if 3 < bits v 3 1 then s else State.repointAll (s.modRegs fun g => { g with boosten := bit v 0, brakept := v.extractLsb' 1 3 })
  | .pwrLimit => if bits v 11 0 < 800 ∨ 3040 < bits v 11 0 then s else s.modRegs fun g => { g with limit := v.extractLsb' 0 12 }
  | .pwrCctl n => stateOf s (execPwrCctlWrite r n v s)
  | .pwrEcred h => s.modHedge h fun g => { g with credit := v.extractLsb' 0 32 }
  | .pwrEg h => s.modHedge h fun g => { g with ecommit := v.extractLsb' 0 18, ehbm := v.extractLsb' 24 8 }
  | .tmpCtl =>
    s.lkWrite r addr false (if bits v 9 0 < 240 ∨ 360 < bits v 9 0 ∨ bits v 27 16 = 0 then s
      else s.modRegs fun g => { g with tcool := v.extractLsb' 0 10, hboost := v.extractLsb' 16 12 })
  | .pchCtl =>
    s.lkWrite r addr false (if bits v 11 0 < 25 ∨ 400 < bits v 11 0 then s
      else { s with pleach := { s.pleach with budget := v.extractLsb' 0 12 } })
  | .pchSetid => s.lkWrite r addr false { s with pleach := { s.pleach with setid := v } }
  | .pchLinkctl l => s.linkctlWrite r addr l v
  | .errRbase =>
    s.lkWrite r addr false (if bits v 27 24 < 6 ∨ 14 < bits v 27 24 then s
      else s.modRegs fun g => { g with rbAddr := v.extractLsb' 6 18, rbLog2 := v.extractLsb' 24 4 })
  | .errRptr => s.modRegs fun g => { g with head := v.extractLsb' 16 14 }
  | .errStat => if bit v 16 then s.modRegs fun g => { g with fatal := false } else s
  | .errPhlog1 p => s.setPort p { s.port p with logV := bit v 7 }
  | .movCtl m =>
    if bits v 11 0 = 0 ∨ 4000 < bits v 11 0 then s
    else
      let s1 := s.modMover m fun q => { q with tmo := v.extractLsb' 0 12 }
      if bit v 12 then stateOf s1 (execHaltclr m s1) else s1
  | .movIntstat m => s.modMover m fun q => { q with intstat := q.intstat &&& ~~~v }
  | .movEvstat m => s.modMover m fun q => { q with evstat := q.evstat &&& ~~~(v.extractLsb' 0 3) }
  | .movPt m t => (s.modMover m fun q => q.ptWrite t v).moverGo m
  | .movBase m n => stateOf s (execMovChannelConfigWrite m n false v s)
  | .movCfg m n => stateOf s (execMovChannelConfigWrite m n true v s)
  | .movChctl m n => s.chctlWrite m n v
  | .mcCtl n => s.mcReg r n 0x1000 v
  | .mcPaddr n => s.mcReg r n 0x1008 v
  | .mcPdata0 n => s.mcReg r n 0x1010 v
  | .mcPdata1 n => s.mcReg r n 0x1018 v
  | .mcId n => s.mcReg r n 0x1020 v
  | .mcMatch n k => s.mcReg r n (0x1100 + 8 * k.val) v
  | .engRole e => stateOf s (execEngRoleWrite r e v s)
  | .engCtl e => stateOf s (execEngCtlWrite r e v s)
  | .engSwin e => stateOf s (execEngSwinWrite r e v s)
  | .engCpt e => stateOf s (execEngCptWrite r e v s)
  | .engWdog e => stateOf s (execEngWdogWrite r e v s)
  | .engItlb e => s.modEng e fun g => { g with itlb := v.extractLsb' 0 16 }
  | .engWindow e c w => stateOf s (execContextWindowWrite r e c w v s)
  | _ => s

/-- REGISTER_WRITE: an aligned 8-byte write of control space; one of another size or alignment, or to an offset that no table assigns, is
ignored (00 R10; 15 R508 to R511; 19 R590 to R592). -/
def execRegisterWrite (r : Requester) (a : RegAccess) (v : Word64) (s : State) : Outcome State Fault Refusal :=
  .next (if !s.reaches r || a.len != 8 then s
    else match regOf a.addr.toNat with
    | some q => s.regWrite r a.addr.toNat v q
    | none => match aliasOff a.addr.toNat with
      | some off => if a.addr.toNat % 8 = 0 then stateOf s (execMcBroadcastWrite r off v s) else s
      | none => s)

/-! ### Repairs of a cluster (15 R505, 16 R521) -/

/-- Firmware adds the failing ROM addresses to the repair list (15 R505). -/
def Keeper.repairs (k : Keeper) (n : CluId) (as : List Nat) : Keeper := as.foldl (fun (q : Keeper) a => q.repairAt n a) k

/-- CLUSTER_REMOVAL: firmware unassigns the engines of a cluster that has met an uncorrectable microcode error; once their contexts have
parked or ended, it places the cluster in C4 and counts it as failed (15 R505, 02 R46, 14 R459). -/
def execClusterRemoval (n : CluId) (s : State) : Outcome State Fault Refusal :=
  .next (match (s.clu n).failing with
    | none => s
    | some as =>
      let s1 : State := { s with keeper := s.keeper.repairs n as }
      let s2 := ((List.finRange 8).map (engOf n)).foldl
        (fun (t : State) e => if (t.eng e).assigned && (t.eng e).mayChange s.aoTick.toNat 1 then t.unassign e else t) s1 |>.holdFloors
      if s2.cluResident n || !s2.moverIdle n then s2
      else s2.modClu n fun c => { c with
        floor := 4, pst := .c4, since := s.aoTick.toNat, waking := false, upTo := none, failing := none, removed := true })

/-- The program whose code covers a code-RAM address: registered, or still run by a live slot, of a hedge with an engine in the cluster. -/
def State.codeAt (s : State) (n : CluId) (a : Nat) : Option (HedgeId × Prog) :=
  let ps := (s.cluHedges n).flatMap fun h =>
    ((s.hedge h).programs ++ (s.hedge h).superOld.toList ++ (s.liveSlots h).filterMap fun i => (s.slot i).prog).map fun p => (h, p)
  ps.find? fun q => decide (q.2.at_ ≤ a) && decide (a < q.2.at_ + q.2.image.length)

/-- CODERAM_REWRITE: the bad word is rewritten from the program's code pages, and CRBAD clears; pages that are not readable leave it bad, and
a page that is not resident is waited for (16 R521). -/
def execCoderamRewrite (n : CluId) (s : State) : Outcome State Fault Refusal :=
  let c := s.clu n
  let w := c.crbad.toNat / 16 * 16
  .next (if !c.crbadv then s
    else match s.codeAt n w with
    | none => s
    | some (h, p) =>
      let len := min 16 (p.at_ + p.image.length - w)
      match s.imagePages h (p.caddr.toNat + (w - p.at_)) len true with
      | .ok bs => (s.writeCode n w bs).modClu n fun c => { c with crbadv := false }
      | _ => s)

end Sys2Proof.Machine
end

