-- ==== Sys2Proof/Machine/Errors.lean ====
section
/-! DEFINITION. Patrol scrub, retired frames, failed HBM channels and the error collector (16 R514, R518 to R520, R523, R524, R526). -/

namespace Sys2Proof.Machine

open Host (Outcome)

/-! ### Poison in the fixed regions (01 Table 1-4, 16 R519, R520) -/

/-- First byte of the lock table (01 Table 1-4). -/
abbrev lockTable : Nat := 0x80000000
/-- First byte of the parked-context area: slot n's image is the 2 KiB at this plus 2,048 n (10 R311). -/
abbrev parkedArea : Nat := 0x90000000
/-- First byte after the parked-context area. -/
abbrev parkedEnd : Nat := 0xA0000000

/-- The slots of a hedge, live and unsealed, whose lock-unit mask names a unit; of every hedge when none is named. -/
def State.unitSlots (s : State) (u : UnitId) (h : Option HedgeId) : List SlotId :=
  s.busySlots.filter fun n => (s.slot n).endable && bit (s.slot n).mask u.val && (match h with | some i => (s.slot n).hedge == i | none => true)

/-- Firmware or a unit ends a slot's transaction with MEDIA, wherever it stands. -/
def State.mediaEnd (s : State) (n : SlotId) : State :=
  match s.holder n with
  | some (e, c) => s.stopCtx e c 0x04
  | none => s.endTxn n 0x04 0

/-- The LOCKTABLE record of a lock unit (16 Table 16-5). -/
def lockRecord (s : State) (u : UnitId) (h : Option HedgeId) (n : Nat) : ErrRec :=
  { tick := s.aoTick, cls := 0x09, sev := 1, unit := unitCode 2 (stopOf u).val, status := 0x04, cause := 0, hedge := h, addr := none,
    slot := none, detail := bytesOfNat 4 n }

/-- A lock unit's table share is lost: its unsealed transactions end, and the share is initialised again (16 R520). -/
def State.lockLoss (s : State) (u : UnitId) (h : Option HedgeId) : State :=
  let ns := s.unitSlots u h
  (ns.foldl State.mediaEnd s).report (lockRecord s u h ns.length)

/-- A granule is initialised or restored: its poison goes. -/
def State.mendGranule (s : State) (g : Nat) : State :=
  { s with poison := tset false s.poison g false, hbmLatent := tset Latent.none s.hbmLatent g .none }

/-- The slot whose parked image holds a byte of the parked-context area. -/
def imageSlot (a : Nat) : Option SlotId := if h : parkedArea ≤ a ∧ (a - parkedArea) / 2048 < 131072 then some ⟨_, h.2⟩ else none

/-- A parked slot's transaction ends with MEDIA. -/
def State.imageLoss (s : State) (n : SlotId) : State := if (s.slot n).state = .parked then s.mediaEnd n else s

/-- What a poisoned granule of the first 4 GiB comes to: a lock-table or parked-image granule as R520 says; firmware restores a directory
entry, a frame-table entry or a page table by the next ao-tick (16 R519). `own` is the hedge whose locks the granule holds. -/
def State.fixedLoss (s : State) (g : Nat) (own : HedgeId) : State :=
  let a := 32 * g
  if fixedEnd ≤ a then s
  else if lockTable ≤ a ∧ a < parkedArea then (s.lockLoss (chanOf (g / 128)) (some own)).mendGranule g
  else match imageSlot a with
    | some n => (s.imageLoss n).mendGranule g
    | none => s

/-! ### Patrol scrub -/

/-- The worse of what storage holds and what the scrub finds: 0 nothing, 1 a correctable error, 2 an uncorrectable one. -/
def Latent.worse (l : Latent) (found : Fin 3) : Latent :=
  if l = .uncorrectable ∨ found.val = 2 then .uncorrectable else if l = .correctable ∨ found.val = 1 then .correctable else .none

/-- The last granule that a stop's scrub reads in a pass. -/
def lastGranule (st : StopId) : Nat := (hbmFrames - 64 + 8 * st.val + 7) * 128 + 127

/-- PATROL_SCRUB: stop `st` reads granule `g` and corrects or poisons it; the granule that ends a pass counts the pass. `own` is the hedge
whose locks a lock-table granule holds (16 R514, R518, R520). -/
def execPatrolScrub (st : StopId) (g : Nat) (found : Fin 3) (own : HedgeId) (s : State) : Outcome State Fault Refusal :=
  let u := chanOf (g / 128)
  .next (if stopOf u ≠ st ∨ hbmBytes ≤ 32 * g ∨ bit s.chanFailed u.val then s
    else
      let l := (tget Latent.none s.hbmLatent g).worse found
      let s1 := if tget false s.poison g then s
        else
          let t := State.meetGranule { s with hbmLatent := tset Latent.none s.hbmLatent g l } g
          if l = .uncorrectable then t.fixedLoss g own else t
      if g = lastGranule st then s1.modMemcnt st fun c => { c with scrub := c.scrub + 1 } else s1)

/-! ### Retired frames and failed channels -/

/-- A page moves to fresh frames: its leaf and its allocation record name them, its cached translations go, and V of the old frame-table
entries clears (16 R520). -/
def State.movePage (s : State) (h : HedgeId) (base at_ level : Nat) (p : Pte) (dest : Nat) : State :=
  let size := 2 ^ levelBits level
  let n := levelFrames level
  let s1 := s.hbmMove (p.frame * 4096) (dest * 4096) size
  let s2 := s1.rekey dest n (s.frameEntry p.frame).toNat
  let s3 := s2.hbmPut at_ 8 (mkResident (bits p 3 1) (bit p 4) (bit p 5) (bit p 9) dest).toNat
  let s4 := (s3.invPage h base).freeFrames p.frame n
  { s4 with alloc := tset none s4.alloc dest (some (h, base, levelBits level)) }

/-- The resident page that a frame holds: hedge, address, its leaf's place, the leaf and its level. -/
def State.residentAt (s : State) (fr : Nat) : Option (HedgeId × Nat × Nat × Pte × Nat) :=
  (s.pageOf fr).bind fun q => match (s.walk q.1 q.2.1).1 with
    | .leaf at_ p level => if p.res then some (q.1, pageBase q.2.1 level, at_, p, level) else none
    | _ => none

/-- A frame is failing: 16 corrected errors in 24 hours, or a poisoned granule. -/
def State.failing (s : State) (fr : Nat) : Bool :=
  decide (16 ≤ tallied s.aoTick.toNat day (tget [] s.frameErr fr)) || (List.range 128).any fun i => tget false s.poison (128 * fr + i)

/-- FRAME_RETIRE: a failing frame's page moves to fresh frames, with its poison, and the frame is not allocated again before the next reset; it
waits for free frames. Frames of the fixed regions stay (16 R520). -/
def execFrameRetire (fr : Nat) (s : State) : Outcome State Fault Refusal :=
  .next (if fr < fixedEnd / 4096 ∨ hbmFrames ≤ fr ∨ tget false s.retired fr ∨ !s.failing fr then s
    else
      let s0 := { s with retired := tset false s.retired fr true }
      match s.residentAt fr with
      | none => s0
      | some (h, base, at_, p, level) =>
        match s0.findFrames (levelFrames level) with
        | none => s
        | some fresh => s0.movePage h base at_ level p fresh)

/-- A channel's frames of a page: the granules that are lost with it, as byte addresses of HBM. -/
def lostGranules (u : UnitId) (frame n : Nat) : List Nat :=
  ((List.range n).filter fun i => chanOf (frame + i) == u).flatMap fun i => (List.range 128).map fun j => 128 * (frame + i) + j

/-- A page on a failed channel: a clean one is staged in again to fresh frames, a dirty one is restored from its blocks and the retained journal
and moved; without fresh frames it keeps poisoned granules (16 R526). -/
def State.rescuePage (s : State) (u : UnitId) (fr : Nat) : State :=
  match s.residentAt fr with
  | none => s
  | some (h, base, at_, p, level) =>
    let gs := lostGranules u p.frame (levelFrames level)
    if gs.isEmpty then s
    else
      let s0 := gs.foldl (fun (t : State) g => { t with poison := tset false t.poison g true }) s
      match s.findFrames (levelFrames level) with
      | none => s0
      | some fresh =>
        if bit p 5 then
          let q : Pte := (tget (0, 0) s.durable (durKey h base)).2
          let ds := s.retained
          let fa := p.frame * 4096
          let s1 := gs.foldl (fun (t : State) g => t.hbmWrite (32 * g) (s.rebuilt h q base (32 * g - fa) ds)) s0
          (s1.movePage h base at_ level p fresh).hedgeEvent h
            (mediaEvent s.lehr.drawn (base + ((leastOf gs).getD 0 * 32 - fa)) 2 gs.length)
        else
          let q := s.evictedLeaf h base p
          ((s0.freeFrames p.frame (levelFrames level)).invPage h base).makeResident h base level fresh q (bit p 9)

/-- The lowest-numbered other channel of the stop that has not failed. -/
def State.spareUnit (s : State) (u : UnitId) : Option UnitId :=
  (List.finRange 64).find? fun v => stopOf v == stopOf u && v != u && !bit s.chanFailed v.val

/-- A lock unit's table share goes to another channel of its stop: sealed transactions release there (16 R526). -/
def State.moveLocks (s : State) (u v : UnitId) : State :=
  let su := BitVec.ofNat 64 (2 ^ u.val)
  let sv := BitVec.ofNat 64 (2 ^ v.val)
  let f := fun (m : BitVec 64) => if bit m u.val then (m &&& ~~~su) ||| sv else m
  { s with
    locks := tmap LockRec.empty s.locks fun r => if r.unit = u then { r with unit := v } else r
    slots := tmap Slot.reset s.slots fun sl => { sl with mask := f sl.mask, unitsLeft := f sl.unitsLeft } }

/-- The CHANNEL record of a memory stop; the training result is private (16 Table 16-5; log 3). -/
def channelRecord (s : State) (u : UnitId) : ErrRec :=
  { tick := s.aoTick, cls := 0x07, sev := 2, unit := unitCode 2 (stopOf u).val, status := 0x04, cause := 0, hedge := none, addr := none,
    slot := none, detail := [Config.privateByte s.free 0] }

/-- Channels of a stop that work. -/
def State.liveChans (s : State) (st : StopId) : Nat := ((List.finRange 64).filter fun v => stopOf v == st && !bit s.chanFailed v.val).length

/-- Parked images whose frame lies on a channel. -/
def onChannel (u : UnitId) (n : SlotId) : Bool := chanOf ((parkedArea + 2048 * n.val) / 4096) == u

/-- CHANNEL_FAIL: the channel has poisoned more than 4,096 granules within 1 s (16 R526). -/
def execChannelFail (u : UnitId) (s : State) : Outcome State Fault Refusal :=
  .next (if bit s.chanFailed u.val ∨ tallied s.aoTick.toNat 1000000 (tget [] s.chanUe u.val) ≤ 4096 then s
    else
      let st := stopOf u
      let live := s.liveChans st
      let s1 : State := { s with
        chanFailed := s.chanFailed ||| BitVec.ofNat 64 (2 ^ u.val), free := s.free + 1
        rates := tset 32 s.rates st.val (s.stopRate st.val * (live - 1) / live) }
      let s2 := (s1.report (channelRecord s u)).lockLoss u none
      let s3 := match s2.spareUnit u with
        | some v => s2.moveLocks u v
        | none => s2
      let s4 := (s3.busySlots.filter fun n => onChannel u n).foldl State.imageLoss s3
      (s4.alloc.map (·.1)).foldl (fun (t : State) fr => t.rescuePage u fr) s4)

/-! ### The collector (16 R523, R524) -/

/-- An error record's 64 bytes (16 Table 16-4). -/
def ErrRec.bytes (r : ErrRec) (count : Nat) : List Byte :=
  bytesOfNat 8 r.tick.toNat ++ [r.cls, r.sev] ++ bytesOfNat 2 r.unit.toNat ++ [r.status, r.cause] ++
    bytesOfNat 1 (match r.hedge with | some h => h.val + 128 | none => 0) ++
    bytesOfNat 1 (b2n r.addr.isSome + 2 * b2n r.slot.isSome + 4 * b2n (decide (1 < count))) ++
    bytesOfNat 8 (match r.addr with | some a => a.toNat | none => 0) ++ bytesOfNat 4 (match r.slot with | some n => n.val | none => 0) ++
    bytesOfNat 4 count ++ (r.detail ++ List.replicate 32 0).take 32

/-- CCM address of a record of the ring. -/
def Regs.recordAt (g : Regs) (i : Nat) : Nat := g.rbAddr.toNat * 64 + 64 * i

/-- Write a record of the ring. -/
def State.writeRecordAt (s : State) (i : Nat) (r : ErrRec) (count : Nat) : State :=
  { s with ccm := tsetRun 0 s.ccm (s.regs.recordAt i) (r.bytes count) }

/-- Firmware copies a record of severity CONTAINED or higher to the NOR log; FATAL is noted (16 R523, Table 16-7). -/
def State.copied (s : State) (r : ErrRec) : State :=
  { s with
    keeper := { s.keeper with nor := if r.sev = 0 then s.keeper.nor else s.keeper.nor ++ [r] }
    regs := { s.regs with fatal := s.regs.fatal || r.sev == 3 } }

/-- The run of corrected errors that a record joins: the first record's place and its count so far. -/
def State.runOf (s : State) (r : ErrRec) : Option CorrRun :=
  if r.sev = 0 then s.regs.runs.find? fun q => q.cls == r.cls && q.unit == r.unit && decide (r.tick.toNat ≤ q.tick.toNat + 1000) else none

/-- One record of the collector. -/
def State.collect (s : State) (r : ErrRec) : State :=
  let n := 2 ^ s.regs.rbLog2.toNat
  let t := s.regs.tail.toNat
  match s.runOf r with
  | some q =>
    (s.writeRecordAt q.at_ q.first (q.count + 1)).modRegs fun g =>
      { g with runs := g.runs.map fun x => if x = q then { x with count := x.count + 1 } else x }
  | none =>
    if (t + 1) % n ≠ s.regs.head.toNat % n then
      ((s.writeRecordAt t r 1).copied r).modRegs fun g =>
        { g with
          tail := BitVec.ofNat 14 ((t + 1) % n)
          runs := if r.sev = 0 then (g.runs.filter fun x => !(x.cls == r.cls && x.unit == r.unit)) ++ [⟨r.cls, r.unit, r.tick, t, r, 1⟩] else g.runs }
    else if r.sev = 3 then (s.writeRecordAt ((t + n - 1) % n) r 1).copied r
    else s.modRegs fun g => { g with lost := satInc g.lost }

/-- ERROR_RECORD_WRITE: the collector takes the oldest error that a unit has reported. -/
def execErrorRecordWrite (s : State) : Outcome State Fault Refusal :=
  .next (match s.errq with
    | r :: rest => State.collect { s with errq := rest } r
    | [] => s)

end Sys2Proof.Machine
end

