-- ==== Sys2Proof/Machine/Pleach.lean ====
section
/-! DEFINITION. Pleach links and membership, hedge migration and set-wide snapshots (17 R543 to R559); the checkpoint, which a migration and a
snapshot watch (11 R366, R367). -/

namespace Sys2Proof.Machine

open Host (Outcome)

/-- All links. -/
def allLinks : List LinkId := List.finRange 4

/-- Change the pleach controller. -/
def State.modPleach (s : State) (f : Pleach → Pleach) : State := { s with pleach := f s.pleach }

/-- The links over which messages go: UP, which FOREIGN and HELD ones are not. -/
def State.upLinks (s : State) : List LinkId := allLinks.filter fun l => (s.link l).state == .up

/-- This device's identity message (17 R544). -/
def State.ownId (s : State) : PeerId :=
  { serial := Config.serial, setid := s.pleach.setid, line := 4, dhp := 0x0102
    linkMap := allLinks.map fun l => if (s.link l).state = .up then some (s.link l).peer else none
    pairLink := ⟨s.lehr.link.toNat, s.lehr.link.isLt⟩, pairEn := s.lehr.pairEn, prepared := s.pleach.prepared, moved := s.pleach.moved }

/-- A PLEACH record; the coding of the cause is private (16 Table 16-5; log 3). -/
def pleachRecord (s : State) (l : Nat) : ErrRec :=
  { tick := s.aoTick, cls := 0x12, sev := 1, unit := unitCode 8 l, status := 0, cause := Config.privateByte s.free 0, hedge := none, addr := none
    slot := none, detail := [BitVec.ofNat 8 l, Config.privateByte s.free 1] }

/-- File a PLEACH record. -/
def State.pleachError (s : State) (l : Nat) : State := { s.report (pleachRecord s l) with free := s.free + 1 }

/-! ### Membership (17 R545 to R548) -/

/-- The far ends of a device's UP links: this device's own, or those that its identity message gives. -/
def State.neighbours (s : State) (x : Word64) : List Word64 :=
  if x = Config.serial then s.upLinks.map fun l => (s.link l).peer
  else match s.pleach.known.find? fun p => p.serial == x with
    | some p => p.linkMap.filterMap id
    | none => []

/-- Devices reachable from those of `seen` in at most `n` hops. -/
def State.reach (s : State) : Nat → List Word64 → List Word64
  | 0, seen => seen
  | n + 1, seen => s.reach n (seen ++ seen.flatMap s.neighbours).eraseDups

/-- The membership: the devices reachable over UP links, this one among them. -/
def State.memberSet (s : State) : List Word64 := s.reach (s.pleach.known.length + 1) [Config.serial]

/-- The lowest of some serials. -/
def lowest (d : Word64) (xs : List Word64) : Word64 := xs.foldl (fun m x => if x.toNat < m.toNat then x else m) d

/-- The identity message of a member. -/
def State.idOf (s : State) (x : Word64) : Option PeerId := s.pleach.known.find? fun p => p.serial == x

/-- This device leads the settled membership. -/
def State.leads (s : State) : Bool := s.pleach.settled && !s.pleach.seterr && s.pleach.leader == Config.serial

/-! ### Snapshots: what ends one (17 R557) -/

/-- Draws resume at this member; the snapshot is aborted. -/
def State.snapAborted (s : State) : State :=
  if s.pleach.snapState = 1 then
    { s with
      lehr := { s.lehr with paused := false }
      pleach := { s.pleach with snapState := 0, snapAbort := true } }
  else s

/-- A membership change before the RELEASE aborts a snapshot: the leader says so, and this member draws again. -/
def State.cutShort (s : State) : State :=
  match s.pleach.collecting with
  | some (n, _) => ((s.modPleach fun p => { p with collecting := none, replies := [], reached := [] }).emit (.release n true)).snapAborted
  | none => s.snapAborted

/-! ### Links (17 R543, R544) -/

/-- LINK_UP: a link that trains is UP, and its identity message goes out; one that has gone down more than three times since membership last
settled is HELD. `peer` and `far` are the far end's serial and link number, `attempts` the attempts made. -/
def execLinkUp (l : LinkId) (peer : Word64) (far : Fin 4) (attempts : BitVec 4) (s : State) : Outcome State Fault Refusal :=
  let x := s.link l
  .next (if x.state ≠ .training ∨ s.keeper.step < 9 ∨ s.keeper.failLatched then s
    else if 3 < x.downs then (s.linkChanged l { x with state := .held, attempts := attempts }).cutShort
    else
      let t := (s.linkChanged l { x with state := .up, attempts := attempts, peer := peer, peerlink := BitVec.ofNat 2 far.val }).cutShort
      t.emit (.identity l t.ownId))

/-- LINK_BUDGET_EXPIRY: a link not trained within BUDGET is ABSENT. -/
def execLinkBudgetExpiry (l : LinkId) (s : State) : Outcome State Fault Refusal :=
  let x := s.link l
  .next (if x.state = .training ∧ x.since + 10000 * s.pleach.budget.toNat ≤ s.aoTick.toNat then s.linkChanged l { x with state := .absent } else s)

/-- PLEACH_LINK_DOWN: an UP link goes down and trains again; the drop counts toward HELD, and the membership is unsettled. The budget of this
start still runs from step 8 (17 R543). -/
def execPleachLinkDown (l : LinkId) (s : State) : Outcome State Fault Refusal :=
  let x := s.link l
  .next (if x.state = .up ∨ x.state = .foreign then
      let y := x.train s.aoTick.toNat
      (s.linkChanged l { y with
        drops := satInc x.drops, downs := x.downs + 1, since := if s.keeper.step < 13 then x.since else y.since }).cutShort
    else s)

/-- Two messages of one serial contradict each other: a link of the sender has two far ends, or their sets differ (17 R546). -/
def PeerId.contradicts (p q : PeerId) : Bool :=
  p.setid != q.setid || (p.linkMap.zip q.linkMap).any fun z => match z with
    | (some a, some b) => a != b
    | _ => false

/-- An identity message is held in place of an older one of its serial. -/
def State.hold (s : State) (p : PeerId) : State :=
  let clash := if p.serial = Config.serial then PeerId.contradicts p s.ownId
    else match s.idOf p.serial with
      | some q => PeerId.contradicts p q
      | none => false
  s.modPleach fun x => { x with
    known := if p.serial = Config.serial then x.known else (x.known.filter fun q => q.serial != p.serial) ++ [p]
    clash := x.clash || clash, settled := false, changed := s.aoTick.toNat }

/-- IDENTITY_MESSAGE: a message arrives over link `l`. The far end's own, with another SETID, makes the link FOREIGN; any other that is new is
held and forwarded over the other UP links (17 R544). -/
def execIdentityMessage (l : LinkId) (p : PeerId) (s : State) : Outcome State Fault Refusal :=
  let x := s.link l
  .next (if x.state ≠ .up then s
    else if p.serial = x.peer ∧ p.setid ≠ s.pleach.setid then (s.linkChanged l { x with state := .foreign }).cutShort
    else if s.pleach.known.contains p || p == s.ownId then s
    else
      let t := s.hold p
      (t.upLinks.filter fun k => k != l).foldl (fun (u : State) k => u.emit (.identity k p)) t)

/-! ### Migration: shared parts (17 R551 to R556) -/

/-- The bytes of a page other than zero, by offset: what is resident from HBM, the rest from its blocks; a poisoned granule as it was
committed (17 Table 17-4; log 17). -/
def State.pageCells (s : State) (h : HedgeId) (va level : Nat) (leaf : Pte) : List (Nat × Byte) :=
  let size := 2 ^ levelBits level
  let base : Tab Byte := if bit leaf 8 then [] else tcopy [] 0 size s.disk (diskAt leaf.ssd leaf.block)
  let ds := s.retained
  let t := s.alloc.foldl
    (fun (t : Tab Byte) kv => match kv.2 with
      | some (i, a, z) =>
        if i = h ∧ va ≤ a ∧ a < va + size then
          let u := tcopy t (a - va) (2 ^ z) s.hbm (kv.1 * 4096)
          (s.badGranules (kv.1 * 4096) (2 ^ z)).foldl
            (fun (w : Tab Byte) g =>
              let off := 32 * g - kv.1 * 4096
              tsetRun 0 w (a - va + off) (s.rebuilt h (tget (0, 0) s.durable (durKey h a)).2 a off ds)) u
        else t
      | none => t) base
  t.filter fun kv => kv.2 != 0

/-- The mapped pages of a hedge: address, level and durable leaf; a page inside a larger one goes with it. -/
def State.mapped (s : State) (h : HedgeId) : List (Nat × Nat × Pte) :=
  let ps := (s.durable.filter fun kv => kv.1 / 2 ^ 48 == h.val).map fun kv => (kv.1 % 2 ^ 48, kv.2.1, kv.2.2)
  ps.filter fun q => ps.all fun r => !(decide (q.2.1 < r.2.1) && decide (r.1 ≤ q.1) && decide (q.1 < r.1 + 2 ^ levelBits r.2.1))

/-- A hedge's directory range. -/
def State.dirRange (s : State) (h : HedgeId) : List (Nat × Endpoint) :=
  let p := (s.hedge h).par
  (s.dir.filter fun kv => decide (p.dbase ≤ kv.1) && decide (kv.1 < p.dbase + p.dcount)).map fun kv => (kv.1 - p.dbase, kv.2)

/-- The source forwards, in GCS order, the deltas of the hedge that the journal holds above those already forwarded. -/
def State.forward (s : State) : State :=
  let p := s.pleach
  if p.phase = 0 ∨ p.role ∨ p.final then s
  else
    let ds := s.retained.filter fun d => decide (p.sentTo < d.gcs)
    let own := ds.filter fun d => d.hedge == p.migHedge
    let s1 := own.foldl (fun (t : State) d => t.emit (.migDelta d.gcs d.addr d.bytes)) s
    s1.modPleach fun p => { p with
      sentTo := ds.foldl (fun m d => max m d.gcs) p.sentTo
      gf := own.foldl (fun (m : Word64) d => if m.toNat < d.gcs then BitVec.ofNat 64 d.gcs else m) p.gf }

/-- CHECKPOINT_ADVANCE: firmware writes the dirty pages back, records C = `g` in every superblock and frees the records before
the segment that holds C + 1; a migration's deltas are forwarded first, and a snapshot whose cut is reached is complete (11 R366, R367;
17 R553, R559). A dirty page whose drive is lost, or whose write must let drain writes go ahead, or an eviction that has still to write back,
holds the checkpoint back. -/
def execCheckpointAdvance (g : Word64) (s : State) : Outcome State Fault Refusal :=
  let l := s.lehr
  .next (if !l.asleep && decide (l.ckpt.toNat ≤ g.toNat) && decide (g.toNat ≤ l.applied.toNat) && l.journalled &&
        !s.cleaningWaits s.dirtyPages && !(s.evicts.any fun v => v.dirty) then
      let s1 := s.dirtyPages.foldl (fun t p => t.cleanPage p.1 p.2) s.forward
      let q := l.segWith g
      let done := s1.lehr.holes.filter fun t => decide (t.toNat ≤ g.toNat)
      let s2 := State.writeSupers { s1 with lehr := { s1.lehr with
        ckpt := g, s0 := q, holes := s1.lehr.holes.filter (fun t => decide (g.toNat < t.toNat))
        records := s1.lehr.records.filter fun (r : ZoneRec) => decide (q ≤ r.seq) } }
      let s3 := State.issueDrain 8 (done.foldl (fun t top => t.everyHedge (mediaEvent top 0 4 0)) s2)
      if s3.pleach.snapState = 2 ∧ s3.pleach.snapCut.toNat ≤ g.toNat then
        (s3.modPleach fun p => { p with snapState := 3 }).emit (.reached Config.serial s3.pleach.snapNum)
      else s3
    else s)

/-- The blocks of a partial copy are released, and its directory range; the hedge number is free again (17 R555, 02 R61). -/
def State.discardCopy (s : State) : State :=
  match s.pleach.incoming with
  | some (m, d) =>
    let s1 := s.pleach.copied.foldl
      (fun (t : State) q => t.emit (.nvme (Pte.ssd q.2.2) 0x09 (Pte.block q.2.2) (2 ^ levelBits q.2.1) false)) s
    ((s1.clearDir d.par Params.zero).modHedge m.here fun g => { g with stored := 0, par := Params.zero }).modPleach fun p =>
      { p with incoming := none, copied := [], early := [], phase := 0, final := false, pages := 0 }
  | none => s

/-- The source of a migration that has ended before MOVED keeps its hedge; its rings run down to DOWN (17 R555). -/
def State.keepSource (s : State) : State :=
  let p := s.pleach
  let s1 := s.modPleach fun p => { p with phase := 0, final := false, pages := 0 }
  match (s.hedge p.migHedge).fn with
  | some f => (s1.modFn f fun q => { q with migStop := false, migPost := false }).drained f
  | none => s1

/-- The page tables of one hedge, from its durable mappings. -/
def State.hedgeTables (s : State) (h : HedgeId) : State :=
  (s.mapped h).foldl (fun (t : State) q => t.install h q.1 q.2.1 q.2.2) (s.newRoot h)

/-- The target opens a prepared hedge: VF STATE DOWN, recorded as its own; before step 13, step 13 reopens it (17 Table 17-4, R556). -/
def State.openMoved (s : State) (m : MigRec) : State :=
  let s1 := s.modPleach fun p => { p with prepared := p.prepared.erase m }
  match tget none s.store m.here.val with
  | some d => if s.keeper.step = 13 then (s1.hedgeTables m.here).reopenHedge m.here d else s1
  | none => s1

/-- A prepared copy whose source has not moved is discarded (17 R556). -/
def State.discardPrepared (s : State) (m : MigRec) : State :=
  let s1 := match tget none s.store m.here.val with
    | some d => s.clearDir d.par Params.zero
    | none => s
  let s2 := s1.deallocate m.here
  { s2 with
    store := tset none s2.store m.here.val none
    pleach := { s2.pleach with prepared := s2.pleach.prepared.erase m } }

/-- A target acts on a PREPARED record at a settled membership (17 R556). -/
def State.settlePrepared (s : State) (ms : List Word64) (m : MigRec) : State :=
  match if ms.contains m.serial then s.idOf m.serial else none with
  | some p => if p.moved.any fun q => q.serial == Config.serial && q.there == m.here then s.openMoved m else s.discardPrepared m
  | none => s.emit (.mctp (.heldClosed m.here))

/-- A source acts on a MOVED record: it completes the destruction of a hedge it still holds, and erases the record once the target has acted
(17 R556). -/
def State.settleMoved (s : State) (ms : List Word64) (m : MigRec) : State :=
  let s1 := match tget none s.store m.here.val with
    | some d => if (s.hedge m.here).fn.isNone then
        let t := (s.clearDir d.par Params.zero).deallocate m.here
        { t with store := tset none t.store m.here.val none }
      else s
    | none => s
  match if ms.contains m.serial then s.idOf m.serial else none with
  | some p => if p.prepared.any fun q => q.serial == Config.serial && q.here == m.there then s1
    else s1.modPleach fun x => { x with moved := x.moved.erase m }
  | none => s1

/-- A migration under way whose partner is no member, or which a reset has cut off, ends (17 R555). -/
def State.settleMigration (s : State) (ms : List Word64) : State :=
  let p := s.pleach
  if p.phase ≠ 0 ∧ !p.role then (if ms.contains p.partner then s else s.keepSource)
  else match p.incoming with
    | some (m, _) => if p.phase ≠ 0 ∧ ms.contains m.serial then s else s.discardCopy
    | none => s

/-- The far end of LEHR_PAIR.LINK is a member that names the link back to this device, with EN = 1 (17 R547). -/
def State.pairValid (s : State) (ms : List Word64) : Bool :=
  let x := s.link ⟨s.lehr.link.toNat, s.lehr.link.isLt⟩
  x.state == .up && ms.contains x.peer && match s.idOf x.peer with
    | some p => p.pairEn && (p.linkMap[p.pairLink.val]?).join == some Config.serial
    | none => false

/-- The pairing check of a settled membership (17 R547). -/
def State.checkPair (s : State) (ms : List Word64) : State :=
  let l := s.lehr
  if !l.pairEn then s
  else if s.pairValid ms then { s with lehr := { l with stalled := false } }
  else s.pairLost

/-- A membership that is refused: a set of one, which has no partner (17 R546, R547). -/
def State.refuseSet (s : State) : State :=
  let t := s.modPleach fun p => { p with settled := true, seterr := true, clash := false, members := 1, leader := Config.serial }
  (t.pleachError 0).checkPair [Config.serial]

/-- MEMBERSHIP_SETTLE: 50 ms without change. `epoch` is the set epoch as the leader issues it, where this device does not lead (17 R545 to
R548, R555, R556). -/
def execMembershipSettle (epoch : BitVec 32) (s : State) : Outcome State Fault Refusal :=
  let p := s.pleach
  .next (if p.settled ∨ s.keeper.step < 9 ∨ s.aoTick.toNat < p.changed + 50000 then s
    else
      let ms := s.memberSet
      let s0 := { s with pleach := { p with links := tmap Link.reset p.links fun l => { l with downs := 0 } } }
      if 16 < ms.length ∨ p.clash then s0.refuseSet
      else
        let lead := lowest Config.serial ms
        let s1 := s0.modPleach fun p => { p with
          settled := true, seterr := false, members := BitVec.ofNat 5 ms.length, leader := lead
          epoch := if lead = Config.serial then p.epoch + 1 else epoch }
        let s2 := (s1.checkPair ms).settleMigration ms
        let s3 := s2.pleach.prepared.foldl (fun (t : State) m => t.settlePrepared ms m) s2
        s3.pleach.moved.foldl (fun (t : State) m => t.settleMoved ms m) s3)

/-! ### Migration (17 R552 to R554) -/

/-- An UP link joins this device and another. -/
def State.joined (s : State) (x : Word64) : Option LinkId := s.upLinks.find? fun l => (s.link l).peer == x

/-- The source refuses a migration with a cause: 1 another migration runs, 2 no UP link, 3 the number or VF is bound, 4 a sum would be breached,
5 the target's storage is short (17 R552). -/
def State.refuseMigration (s : State) (x : Word64) (cause : Nat) : State :=
  (s.pleachError ((s.joined x).elim 0 (·.val))).emit (.mctp (.migration cause))

/-- MIGRATION_REQUEST: hedge `h` to the device of serial `x`, as hedge `there` on VF `f` of the target. `veto` is the cause for which the target
would refuse, 0 for none (17 R552); an accepted one enters phase 1, COPY. -/
def execMigrationRequest (h : HedgeId) (x : Word64) (there : HedgeId) (f : FnId) (veto : Fin 6) (s : State) : Outcome State Fault Refusal :=
  let g := s.hedge h
  .next (match g.fn with
    | none => s
    | some _ =>
      if s.keeper.step ≠ 13 ∨ g.closing then s
      else if s.pleach.phase ≠ 0 ∨ s.pleach.incoming.isSome then s.refuseMigration x 1
      else if s.pleach.seterr ∨ (s.joined x).isNone then s.refuseMigration x 2
      else if veto.val ≠ 0 then s.refuseMigration x veto.val
      else
        let g0 := s.lehr.applied
        let ps := s.mapped h
        let s1 := s.emit (.migStart x there { fn := f, par := g.par, progs := g.progs, super := g.super, tables := g.tables } (s.dirRange h))
        let s2 := ps.foldl (fun (t : State) q => t.emit (.migPage q.1 q.2.1 q.2.2 (s.pageCells h q.1 q.2.1 q.2.2))) s1
        (s2.modPleach fun p => { p with
          phase := 1, role := false, migHedge := h, pages := BitVec.ofNat 48 ps.length, partner := x, partnerHedge := there, sentTo := g0.toNat
          gf := g0, final := false }).emit (.mctp (.migration 0)))

/-- Phase 2 begins: VF STATE becomes DRAINING and the submission ring is read no more; admitted commands complete and are posted. -/
def State.startDrain (s : State) (f : FnId) : State :=
  let s1 := if (s.fn f).state = .ready then (s.setHState f .draining).modFn f fun q => { q with migPost := true } else s
  (s1.modFn f fun q => { q with migStop := true }).modPleach fun p => { p with phase := 2 }

/-- MIGRATION_DRAIN: the source stops reading; when no live slot remains, and every completion has been posted, it sends the deltas left, g_f
and the EVSEQ values (17 Table 17-4). -/
def execMigrationDrain (s : State) : Outcome State Fault Refusal :=
  let p := s.pleach
  .next (if p.role ∨ p.final ∨ (p.phase ≠ 1 ∧ p.phase ≠ 2) then s
    else match (s.hedge p.migHedge).fn with
    | none => s
    | some f =>
      let s1 := if p.phase = 1 then s.startDrain f else s
      if (s1.liveSlots p.migHedge).isEmpty && (s1.fn f).cur.isEmpty && (s1.fn f).waiting.isEmpty then
        let s2 := s1.forward
        (s2.emit (.migFinal s2.pleach.gf ((s2.dirRange p.migHedge).map fun q => (q.1, q.2.evseq)))).modPleach fun p => { p with final := true }
      else s1)

/-- A registration as it arrives. -/
def MigProg.prog (m : MigProg) : Prog := progOf m.block m.at_ m.image m.window

/-- The definition that a migration brings. -/
def incomingDef (f : FnId) (params : List Byte) (progs : List (Fin 256 × MigProg)) (super : Option MigProg) (tables : List (List Byte × List Byte)) :
    HedgeDef :=
  { fn := f, par := paramsOf params
    progs := progs.foldl (fun (t : Tab (Option Prog)) q => tset none t q.1.val (some (MigProg.prog q.2))) []
    super := super.map MigProg.prog, tables := tables.map fun q => tableOf q.1 q.2 }

/-- The device may become the target: no migration runs, the number and the VF are free, the number's last Lehr entries have drained, and
the parameters fit (02 R61, 17 R552). -/
def State.mayReceive (s : State) (here : HedgeId) (d : HedgeDef) (params : List Byte) : Bool :=
  s.keeper.step == 13 && s.pleach.phase == 0 && s.pleach.incoming.isNone && !s.pleach.seterr &&
    (s.hedge here).used == 0 && !s.numberTaken here && !s.vfTaken d.fn && !isPf d.fn && s.paramBlockOk here params && s.sumsOk here d.par

/-- The copied page that an address lies in. -/
def Pleach.copiedAt (p : Pleach) (va : Nat) : Option (Nat × Nat × Word64) :=
  p.copied.find? fun q => decide (q.1 ≤ va) && decide (va < q.1 + 2 ^ levelBits q.2.1)

/-- A part of a delta inside one 4 KiB page: it is applied to the page's blocks, or waits for the page's copy. -/
def State.applyCopy (s : State) (d : Delta) : State :=
  match s.pleach.copiedAt d.addr with
  | some (base, _, leaf) =>
    { s with disk := tsetRun 0 s.disk (diskAt (Pte.ssd leaf) (Pte.block leaf) + (d.addr - base)) d.bytes }.emit
      (.nvme (Pte.ssd leaf) 0x01 (Pte.block leaf + (d.addr - base) / 4096) 4096 true)
  | none => s.modPleach fun p => { p with early := p.early ++ [d] }

/-- The parts of a delta by 4 KiB page. -/
def deltaParts (a : Nat) (bs : List Byte) : List Delta := (pageParts a bs.length).map fun q => ⟨q.1, (bs.drop (q.1 - a)).take q.2⟩

/-- A page arrives: it takes blocks of its own, its bytes are written with FUA, and the deltas that waited for it follow in order. -/
def State.pageArrives (s : State) (here : HedgeId) (va level perm pkey prkey : Nat) (cells : List (Nat × Byte)) : State :=
  match s.takeBlocks here level with
  | none => s
  | some (port, b, s1) =>
    let leaf := mkLeaf perm cells.isEmpty false b port pkey prkey
    let s2 := { s1 with disk := cells.foldl (fun (t : Tab Byte) (kv : Nat × Byte) => tset 0 t (diskAt port b + kv.1) kv.2) s1.disk }.emit
      (.nvme port 0x01 b (2 ^ levelBits level) true)
    let s3 := s2.modPleach fun p => { p with copied := p.copied ++ [(va, level, leaf)], pages := p.pages + 1, early := [] }
    s.pleach.early.foldl State.applyCopy s3

/-- A leaf whose blocks a delta has written is no longer ZERO. -/
def State.touched (s : State) (va : Nat) : State :=
  let one (q : Nat × Nat × Word64) : Nat × Nat × Word64 :=
    if q.1 ≤ va ∧ va < q.1 + 2 ^ levelBits q.2.1 then (q.1, q.2.1, q.2.2 &&& ~~~(0x100 : Word64)) else q
  s.modPleach fun p => { p with copied := p.copied.map one }

/-- MIGRATION_COPY_RECEIVE: the target receives the definition, a page, a delta, or g_f with the EVSEQ values (17 Table 17-4). -/
def execMigrationCopyReceive (m : MigMsg) (s : State) : Outcome State Fault Refusal :=
  .next (match m with
    | .start x there here f params progs super tables dir =>
      let d := incomingDef f params progs super tables
      if s.mayReceive here d params then
        let put (t : State) (q : Nat × Endpoint) : State := if q.1 < d.par.dcount then t.putEntry (d.par.dbase + q.1) { q.2 with marm := 0 } else t
        let s1 := dir.foldl put s
        (s1.modHedge here fun g => { g with par := d.par, stored := 0 }).modPleach fun p => { p with
          phase := 1, role := true, migHedge := here, pages := 0, partner := x, partnerHedge := there, final := false
          incoming := some (⟨x, there, here⟩, d), copied := [], early := [] }
      else s
    | .page va level perm pkey prkey cells =>
      match s.pleach.incoming with
      | some (r, _) =>
        if s.pleach.phase = 1 ∧ level.val ≠ 0 ∧ (s.pleach.copiedAt va.toNat).isNone then
          let t := s.pageArrives r.here va.toNat level.val perm.val pkey.val prkey.val cells
          s.pleach.early.foldl (fun (u : State) d => u.touched d.addr) t
        else s
      | none => s
    | .delta _ va bytes =>
      if s.pleach.incoming.isSome && s.pleach.phase == 1 then
        (deltaParts va.toNat bytes).foldl (fun (t : State) d => (t.applyCopy d).touched d.addr) s
      else s
    | .final g evs =>
      match s.pleach.incoming with
      | some (_, d) =>
        if s.pleach.phase = 1 then
          let put (t : State) (q : Nat × BitVec 32) : State :=
            if q.1 < d.par.dcount then t.putEntry (d.par.dbase + q.1) { tget Endpoint.zero t.dir (d.par.dbase + q.1) with evseq := q.2 } else t
          (evs.foldl put s).modPleach fun p => { p with phase := 2, gf := g, final := true }
        else s
      | none => s)

/-- MIGRATION_PREPARED: the target, once every delta up to g_f is applied, records the hedge's mappings durably, writes PREPARED and
acknowledges; at the source the acknowledgement opens phase 3, CUT (17 Table 17-4). -/
def execMigrationPrepared (s : State) : Outcome State Fault Refusal :=
  let p := s.pleach
  .next (if p.phase ≠ 2 ∨ !p.final then s
    else if !p.role then s.modPleach fun p => { p with phase := 3 }
    else match p.incoming with
    | some (m, d) =>
      if !p.early.isEmpty then s
      else
        let s1 := p.copied.foldl (fun (t : State) q => t.setDurable m.here q.1 q.2.1 q.2.2) s
        State.emit { s1 with
          store := tset none s1.store m.here.val (some d)
          pleach := { s1.pleach with phase := 3, prepared := s1.pleach.prepared ++ [m], incoming := none, copied := [] } }
          (.prepared m.serial m.there)
    | none => s)

/-- MIGRATION_MOVED: the source writes MOVED, and its hedge closes and is destroyed; the target, on the notice, opens the hedge. Neither happens
while a snapshot pause is in force (17 Table 17-4, R555, R559). -/
def execMigrationMoved (s : State) : Outcome State Fault Refusal :=
  let p := s.pleach
  .next (if p.phase ≠ 3 ∨ s.lehr.paused then s
    else if p.role then
      match p.prepared.find? fun m => m.here == p.migHedge && m.serial == p.partner with
      | some m => (s.openMoved m).modPleach fun p => { p with phase := 0, pages := 0, final := false }
      | none => s.modPleach fun p => { p with phase := 0 }
    else
      let s1 := (s.modPleach fun p => { p with moved := p.moved ++ [⟨p.partner, p.partnerHedge, p.migHedge⟩], phase := 0, pages := 0, final := false }).emit
        (.moved p.partner p.partnerHedge)
      match (s.hedge p.migHedge).fn with
      | some f =>
        let s2 := s1.setHState f .closing
        (((s2.drainVf f .closing).modFn f fun q => { q with migStop := false }).destroyed p.migHedge).keepDef p.migHedge
      | none => s1)

/-! ### Snapshots (17 R557 to R559) -/

/-- This member pauses: the sequencer draws no GCS, and g_d is the last one drawn. -/
def State.pauseFor (s : State) (n : BitVec 32) : State :=
  { s with
    lehr := { s.lehr with paused := true }
    pleach := { s.pleach with snapNum := n, snapState := 1, snapAbort := false, snapCut := s.lehr.drawn } }

/-- Draws resume; the cut is recorded, and the checkpoint goes to it. -/
def State.releaseCut (s : State) (n : BitVec 32) : State :=
  let done := decide (s.pleach.snapCut.toNat ≤ s.lehr.ckpt.toNat)
  let s1 := { s with
    lehr := { s.lehr with paused := false }
    pleach := { s.pleach with snapState := if done then 3 else 2, cuts := s.pleach.cuts ++ [(n, s.pleach.snapCut)] } }
  if done then s1.emit (.reached Config.serial n) else s1

/-- Every member has replied: the leader releases. -/
def State.collected (s : State) (n : BitVec 32) : State :=
  if s.memberSet.all fun x => s.pleach.replies.any fun q => q.1 == x then
    ((s.modPleach fun p => { p with collecting := none }).emit (.release n false)).releaseCut n
  else s

/-- The next snapshot number. -/
def Pleach.nextSnap (p : Pleach) : BitVec 32 := p.cuts.foldl (fun m q => if m.toNat ≤ q.1.toNat then q.1 + 1 else m) (p.snapNum + 1)

/-- SNAPSHOT_REQUEST: a member forwards the request to the leader; the leader pauses itself and sends PAUSE. -/
def execSnapshotRequest (s : State) : Outcome State Fault Refusal :=
  .next (if !s.pleach.settled ∨ s.pleach.seterr ∨ s.keeper.step ≠ 13 then s.emit (.mctp (.snapshot none))
    else if !s.leads then s.emit .snapRequest
    else if s.pleach.collecting.isSome ∨ s.pleach.snapState = 1 then s.emit (.mctp (.snapshot none))
    else
      let n := s.pleach.nextSnap
      let s1 := (s.emit (.mctp (.snapshot (some n)))).pauseFor n
      let s2 := (s1.modPleach fun p => { p with
        collecting := some (n, s.aoTick.toNat), replies := [(Config.serial, p.snapCut)], reached := [] }).emit (.pause n)
      s2.collected n)

/-- PAUSE: a member stops drawing and replies with g_d; the message goes on over its UP links. -/
def execPause (k : BitVec 32) (s : State) : Outcome State Fault Refusal :=
  .next (if s.leads ∨ (s.pleach.snapNum = k ∧ s.pleach.snapState ≠ 0) then s
    else ((s.pauseFor k).emit (.pause k)).emit (.paused Config.serial k s.lehr.drawn))

/-- The leader has every member's word that its cut is reached: it reports the cut vector (17 R559). -/
def State.reachedAll (s : State) (n : BitVec 32) : State :=
  if s.memberSet.all fun x => s.pleach.reached.contains x then
    (s.modPleach fun p => { p with reached := [] }).emit (.mctp (.cut n s.pleach.replies))
  else s

/-- PAUSED: a member's reply arrives; with `done`, its word that its checkpoint has reached its cut. A reply later than 1 ms counts for
nothing. -/
def execPaused (x : Word64) (k : BitVec 32) (g : Word64) (done : Bool) (s : State) : Outcome State Fault Refusal :=
  .next (if !s.leads then s
    else if done then
      if s.pleach.snapNum = k ∧ s.pleach.collecting.isNone ∧ s.pleach.replies.any (fun q => q.1 == x) then
        (s.modPleach fun p => { p with reached := if p.reached.contains x then p.reached else p.reached ++ [x] }).reachedAll k
      else s
    else match s.pleach.collecting with
    | some (n, t) =>
      if n = k ∧ s.aoTick.toNat ≤ t + 1000 then
        (s.modPleach fun p => { p with replies := (p.replies.filter fun q => q.1 != x) ++ [(x, g)] }).collected n
      else s
    | none => s)

/-- SNAPSHOT_PAUSE_TIMEOUT: a reply is missing 1 ms after the PAUSE. -/
def execSnapshotPauseTimeout (s : State) : Outcome State Fault Refusal :=
  .next (match s.pleach.collecting with
    | some (_, t) => if t + 1000 ≤ s.aoTick.toNat then s.cutShort else s
    | none => s)

/-- RELEASE: a member resumes draws; unless the snapshot is aborted it records its cut. -/
def execRelease (k : BitVec 32) (abort : Bool) (s : State) : Outcome State Fault Refusal :=
  .next (if s.pleach.snapState ≠ 1 ∨ s.pleach.snapNum ≠ k ∨ s.leads then s
    else if abort then (s.emit (.release k abort)).snapAborted
    else (s.emit (.release k abort)).releaseCut k)

end Sys2Proof.Machine
end

