-- ==== Sys2Proof/Machine/External.lean ====
section
/-! DEFINITION. What reaches the device from its ports and its management bus: MCTP requests (18 R581, R582), host-port and storage-port
link events and requests outside every window (16 R525; 17 R541; 18 R572, R576, R579). -/

namespace Sys2Proof.Machine

open Host (Outcome)

/-! ### The management bus (14 R471, 15 R513, 18 R582) -/

/-- MCTP_POWER_LIMIT: a read (no value), or a write, which firmware makes when the value lies in the register's range; the reply is the limit in
force (14 R471). -/
def execMctpPowerLimit (v : Option (BitVec 12)) (s : State) : Outcome State Fault Refusal :=
  let s1 := match v with
    | some x => if 800 ≤ x.toNat ∧ x.toNat ≤ 3040 then s.modRegs fun g => { g with limit := x } else s
    | none => s
  .next (s1.emit (.mctp (.powerLimit s1.regs.limit.toNat)))

/-- MCTP_TELEMETRY: the content of the admin TELEMETRY command, whose layout is not stated (log 3). -/
def execMctpTelemetry (s : State) : Outcome State Fault Refusal :=
  .next ({ s with free := s.free + 1 }.emit (.mctp (.telemetry ((List.range 4096).map fun i => Config.privateByte s.free i))))

/-- MCTP_ERROR_LOG: the error log in NOR, with the alarms appended to it (15 R513). -/
def execMctpErrorLog (s : State) : Outcome State Fault Refusal :=
  .next (s.emit (.mctp (.errorLog s.keeper.nor s.keeper.norAlarms)))

/-- MCTP_CONTROL: endpoint discovery (no EID), or EID assignment; the reply names the EID in force. -/
def execMctpControl (eid : Option Byte) (s : State) : Outcome State Fault Refusal :=
  let s1 : State := match eid with
    | some e => { s with keeper := { s.keeper with mctpEid := e } }
    | none => s
  .next (s1.emit (.mctp (.control s1.keeper.mctpEid)))

/-- MCTP_OTHER_REQUEST: an error reply, and nothing changes. -/
def execMctpOtherRequest (v : Byte) (s : State) : Outcome State Fault Refusal := .next (s.emit (.mctp (.refused v)))

/-- ALARM_MESSAGE_READ: the oldest queued message; after the 64 queued ones, the count of the further alarms. The alert deasserts once none
remains (15 R513). -/
def execAlarmMessageRead (s : State) : Outcome State Fault Refusal :=
  let k := s.keeper
  .next (match k.alarms with
    | a :: rest =>
      State.emit { s with keeper := { k with alarms := rest, alert := !rest.isEmpty || decide (k.alarmsOver ≠ 0) } } (.mctp (.alarm a))
    | [] =>
      if k.alarmsOver ≠ 0 then State.emit { s with keeper := { k with alarmsOver := 0, alert := false } } (.mctp (.alarmCount k.alarmsOver))
      else s)

/-! ### What the device shows to its board and its hosts (18 R574, R583, R585) -/

/-- A sideband pin: an input, or driven high or low. -/
inductive Pin where
  | input
  | drive (high : Bool)
  deriving DecidableEq, Repr

/-- Firmware runs: a control core has been released and none is held (15 R497). -/
def Keeper.running (k : Keeper) : Bool := decide (3 ≤ k.step) && !k.heldCores

/-- GPIO `n`: inputs until firmware runs; then GPIO0 is high while STATE is READY, GPIO1 while it is FAULTED, and the others follow the
configuration store (18 R585). -/
def State.gpio (s : State) (n : Fin 8) : Pin :=
  if !s.keeper.running then .input
  else if n = 0 then .drive (s.devstat == 2)
  else if n = 1 then .drive (s.devstat == 3)
  else match Config.gpioStore n.val with
    | some v => .drive v
    | none => .input

/-- The IDCODE of the test access port (18 R583). -/
def jtagIdcode : BitVec 32 := 0x1025674F

/-- What a function's configuration space reports of its identity; the SR-IOV fields are the PF's (18 R573, R574). -/
structure PciIdent where
  vendor : BitVec 16
  device : BitVec 16
  classCode : BitVec 24
  revision : Byte
  interruptPin : Byte
  totalVfs : Nat
  vfOffset : Nat
  vfStride : Nat
  deriving DecidableEq, Repr

/-- A configuration read of a function's identity; none while its port answers with Configuration Request Retry Status, or of a VF that its port
does not have (17 R541; 18 R573, R574). -/
def State.pciIdent (s : State) (f : FnId) : Option PciIdent :=
  let q := s.port (portOf f)
  if q.crs || decide (q.vfs < f.val % 65) then none
  else some
    { vendor := Config.vendorId, device := if isPf f then 0x0256 else 0x0257, classCode := 0x120000
      revision := (s.regRead false .glbId).setWidth 8, interruptPin := 0
      totalVfs := if isPf f then q.vfs else 0, vfOffset := if isPf f then 1 else 0, vfStride := if isPf f then 1 else 0 }

/-! ### Ports (16 R525, 17 R541, 18 R572, R576, R579) -/

/-- STORAGE_LINK_DOWN: the port leaves service until the next start, and its drive is lost. -/
def execStorageLinkDown (p : StoragePort) (s : State) : Outcome State Fault Refusal :=
  .next (if (s.sport p).used then (s.setSport p { s.sport p with used := false }).report (storageRecord s p) else s)

/-- PERST_DEASSERTION: the port trains its link, at the rate, width and mode that both ends reach, and answers configuration requests with
CRS until step 8 is complete. The host sets Max_Payload_Size and Max_Read_Request_Size to 128 bytes by these powers of two (log 75). -/
def execPerstDeassertion (p : PortId) (rate : BitVec 3) (width : BitVec 5) (x : PortSetup) (s : State) : Outcome State Fault Refusal :=
  .next (if rate = 0 ∨ rate = 7 ∨ !([1, 2, 4, 8, 16].contains width.toNat) then s
    else s.setPort p
      { s.port p with
        rate := rate, width := width, flit := x.flit, l0 := true, mps := 128 * 2 ^ x.mps.val, mrrs := 128 * 2 ^ x.mrrs.val
        crs := decide (s.keeper.step < 8) && s.devstat != 3 })

/-- The block transfers of a storage port whose NVMe commands are in flight, each with its data window open (12 R393). -/
def State.blocksOut (s : State) (p : StoragePort) : List Desc :=
  (s.mover ⟨34 + p.val / 8, by have := p.isLt; omega⟩).chans.flatMap fun kc =>
    ((if kc.2.issued && kc.2.ended.isNone then kc.2.cur.toList else []) ++ kc.2.orphan.toList.map (·.d)).filter fun d => maPort d.blockAddr == p.val

/-- The data windows open at a storage port: those of its block transfers, and the segments of its drain writes (12 R393). -/
def State.windows (s : State) (p : StoragePort) : List (Word64 × Nat) :=
  ((s.blocksOut p).flatMap fun d => if d.op = 1 then [] else s.segments d) ++
    ((s.lehr.segs.filter fun g => g.port == some p.val && !g.done).map fun g => (BitVec.ofNat 64 (7 * 2 ^ 60 + 65536 * g.seg), 65536)) ++
    ((s.lehr.part.toList.filter fun q => q.port == some p.val).map fun q => (BitVec.ofNat 64 (7 * 2 ^ 60 + 65536 * q.seg), 65536))

/-- OUT_OF_WINDOW_REQUEST: a drive's request at a mover address that lies in no open window is completed as Unsupported Request
and counted. A write is posted, so that it gets no completion. One that lies in a window is no such request (18 R579). -/
def execOutOfWindowRequest (p : StoragePort) (q : DriveReq) (s : State) : Outcome State Fault Refusal :=
  let s1 := s.setSport p { s.sport p with urs := satInc (s.sport p).urs }
  .next (if (s.windows p).any fun w => decide (w.1.toNat ≤ q.addr.toNat) && decide (q.addr.toNat + q.len ≤ w.1.toNat + w.2) then s
    else if q.write then s1 else s1.emit (.ur (2 + p.val)))

/-- HOST_UNSUPPORTED_REQUEST: a request to an unimplemented address or function is logged in AER under function `fn`, the PF's where it is
attributable to no VF; a write is dropped, a read is completed with UR. -/
def execHostUnsupportedRequest (p : PortId) (fn : Fin 65) (write : Bool) (s : State) : Outcome State Fault Refusal :=
  let s1 := s.aer p fn.val aerUnsupported
  .next (if write then s1 else s1.emit (.ur p.val))

end Sys2Proof.Machine
end

