-- ==== Sys2Proof/Machine/Flow.lean ====
section
/-! DEFINITION. Branches, calls, CALLM frames and RETI (03 R93 to R99, R105 to R107; 05 R164 to R167; 08 R268, R269). -/

namespace Sys2Proof.Machine

open Host (Outcome)

/-- A branch from `v.pc` with its outcome: the pending-branch item, and the record of backward branches (03 R103, R105,
R107). DESIGN CHOICE: a branch is taken twice in succession when no other taken branch comes between; a pass on which it is not taken,
calls and returns may (log 63). -/
def Ctx.branch (c : Ctx) (v : Env) (taken annul : Bool) (target : Int) : Ctx :=
  let t := target.toNat
  { c with
    pc := BitVec.ofNat 19 v.next
    pb := some { nt := !taken, ann := !taken && annul, addr := if taken then BitVec.ofNat 19 t else 0 }
    lastBack := if taken then (if t ≤ v.pc then some (v.pc, t) else none) else c.lastBack
    arm := if taken && c.lastBack == some (v.pc, t) then some t else none }

/-- Opcode facts of a branch with a displacement. -/
def branchInfo (px : List Byte) (imm : BitVec 32) (pops : Nat) : OpInfo :=
  { imm := 2, wmark := true, delayBad := true, pops := pops, reads := pops, disp := some (dispOf px imm, 0) }

/-- BR and BR.A (03 R105). -/
def execBr (x : Iss) (annul : Bool) (imm : BitVec 32) (s : State) : Outcome State Fault Refusal :=
  .next (s.issue x (branchInfo x.px imm 0) 0
    (fun v e c => pure { count := 1, eng := e, ctx := c.branch v true annul (v.next + dispOf v.px imm) }) id)

/-- BRZ takes its branch on INT 0 or BOOL false, and on no other cell that P.NOCHK lets through (05 R165). -/
def isZero (c : Cell) : Bool := (c.ty == tyINT && c.lo == 0) || (c.ty == tyBOOL && c.sub == 0)

/-- Body of BRZ (`onZero`) and BRNZ. -/
def condBody (onZero annul : Bool) (imm : BitVec 32) (v : Env) (e : Engine) (c : Ctx) : Except SFault Done := do
  let a := stackTop e c 0
  tagCheck v.nochk [(0, a, a.ty = tyINT || a.ty = tyBOOL)]
  ensure (!a.p) (fPsn 0 0)
  pure { count := 1, eng := e,
         ctx := (c.popPush 1 []).branch v (isZero a == onZero) annul (v.next + dispOf v.px imm) }

/-- BRZ and BRZ.A ( c -- ). -/
def execBrz (x : Iss) (annul : Bool) (imm : BitVec 32) (s : State) : Outcome State Fault Refusal :=
  .next (s.issue x (branchInfo x.px imm 1) 0 (condBody true annul imm) id)

/-- BRNZ and BRNZ.A ( c -- ). -/
def execBrnz (x : Iss) (annul : Bool) (imm : BitVec 32) (s : State) : Outcome State Fault Refusal :=
  .next (s.issue x (branchInfo x.px imm 1) 0 (condBody false annul imm) id)

/-- BRT and BRT.A ( x -- x ): the packed immediate of 04 Table 4-4 (05 R164). -/
def execBrt (x : Iss) (annul : Bool) (imm : BitVec 32) (s : State) : Outcome State Fault Refusal :=
  let ty := imm.extractLsb' 0 4
  let disp := (imm.extractLsb' 8 24).toInt
  .next (s.issue x
    { imm := 4, delayBad := true, pops := 1, pushes := 1, reads := 1, disp := some (disp, 1),
      badField := if 12 ≤ ty.toNat || bit imm 7 then some 0 else none } 0
    (fun v e c => do
      let a := stackTop e c 0
      tagCheck v.nochk [(0, a, true)]
      ensure (!a.p) (fPsn 0 0)
      let hit := decide (a.ty = ty) && (!(bit imm 6) || decide (a.sub = imm.extractLsb' 4 2))
      pure { count := 1, eng := e, ctx := c.branch v hit annul (v.next + disp) }) id)

/-- Push a return address: the oldest entry is overwritten under WRAP, the call faults under TRAP (03 R93 to R95). -/
def pushReturn (v : Env) (e : Engine) (c : Ctx) : Except SFault (Engine × Ctx) := do
  ensure (!(e.rso && c.rsc == 16)) (fRs 1 c.rsp.toNat)
  let c1 := c.setRse c.rsp.toNat { v := true, addr := BitVec.ofNat 19 v.next }
  let full := c.rsc.toNat ≥ 16
  pure (if full then { e with rsOvf := satInc e.rsOvf } else e,
    { c1 with
      rsp := c.rsp + 1, rsc := if full then c.rsc else c.rsc + 1
      damaged := c1.damaged.filter fun d => match d with | .rse n => n.val != c.rsp.toNat | _ => true })

/-- CALL (05 R166): no delay slot. -/
def execCall (x : Iss) (imm : BitVec 32) (s : State) : Outcome State Fault Refusal :=
  .next (s.issue x { imm := 2, wmark := true, delayBad := true, disp := some (dispOf x.px imm, 0) } 0
    (fun v e c => do
      let r ← pushReturn v e c
      pure { count := 2, eng := r.1, ctx := { r.2 with pc := BitVec.ofInt 19 (v.next + dispOf v.px imm) } }) id)

/-- CALLX ( t -- ): t a CODE of SUB 0b00 (05 R166). -/
def execCallx (x : Iss) (s : State) : Outcome State Fault Refusal :=
  .next (s.issue x { delayBad := true, pops := 1, reads := 1 } 0
    (fun v e c => do
      let t := stackTop e c 0
      tagCheck v.nochk [(0, t, t.ty = tyCODE && t.sub = 0)]
      ensure (!t.p) (fPsn 0 0)
      ensure (bits t.pay 127 19 == 0) (fData 4 0)
      let r ← pushReturn v e c
      pure { count := 2, eng := r.1, ctx := { (r.2.popPush 1 []) with pc := t.pay.extractLsb' 0 19 } }) id)

/-- RET (03 R93 to R95). -/
def execRet (x : Iss) (s : State) : Outcome State Fault Refusal :=
  .next (s.issue x { delayBad := true, readsRs := true } 0
    (fun _ e c => do
      ensure (!(e.rso && c.rsc == 0)) (fRs 2 c.rsp.toNat)
      let r := c.rse (c.rsp - 1).toNat
      ensure r.v (fRs 3 c.rsp.toNat)
      pure { count := 2,
             eng := if c.rsc = 0 then { e with rsUnf := satInc e.rsUnf } else e,
             ctx := { c with pc := r.addr, rsp := c.rsp - 1, rsc := if c.rsc = 0 then 0 else c.rsc - 1 } }) id)

/-! ### CALLM frames (03 R97 to R99) -/

/-- The locals a mask names, in ascending number. -/
def maskLocals (m : Nat) : List Nat := (List.range 16).filter fun i => m / 2 ^ i % 2 == 1

/-- The cells of a CALLM frame: return address, header, locals, trailer. -/
def frameCells (c : Ctx) (ret : BitVec 19) (mask : Nat) : List Cell :=
  [cellCode ret true, imgCell (c.fp.toNat + 2 ^ 32 * mask)] ++ (maskLocals mask).map c.local ++
    [imgCell (maskLocals mask).length]

/-- Store consecutive full cells through the store buffer. -/
def Engine.storeCells (e : Engine) : Nat → List Cell → Engine
  | _, [] => e
  | k, c :: cs => (e.storeCell k c).storeCells (k + 1) cs

/-- CALLM: mask in [15:0], displacement above it; 10 cy (03 R97, R99). -/
def execCallm (x : Iss) (imm : BitVec 64) (s : State) : Outcome State Fault Refusal :=
  let wide := hasPx x.px 0xF0
  let mask := bits imm 15 0
  let disp := if wide then (imm.extractLsb' 16 32).toInt else (imm.extractLsb' 16 16).toInt
  .next (s.issue x
    { imm := 4, wmark := true, delayBad := true, disp := some (disp, 2), readsLocals := maskLocals mask,
      badField := if wide && bits imm 63 48 ≠ 0 then some 6 else none } 0
    (fun v e c => do
      let n := (maskLocals mask).length + 3
      let fp := c.fp.toNat
      ensure (fp + 16 * n ≤ c.fl.toNat) (fFrame 1 fp)
      ensure (e.open? v.pl fp (16 * n)) (fKey 1 (e.firstClosed v.pl fp (16 * n)))
      match (List.range n).find? fun i => v.pl == 2 && (e.cell (fp / 16 + i)).g with
      | some i => .error (fKey 2 (fp + 16 * i))
      | none =>
        pure { count := 10, eng := e.storeCells (fp / 16) (frameCells c (BitVec.ofNat 19 v.next) mask),
               ctx := { c with fp := BitVec.ofNat 18 (fp + 16 * n), pc := BitVec.ofInt 19 (v.next + disp) } }) id)

/-- Restore locals from consecutive cells. -/
def restoreLocals (e : Engine) (k : Nat) : List Nat → Ctx → Ctx
  | [], c => c
  | n :: ns, c => restoreLocals e (k + 1) ns (c.setLocal n (e.cell k))

/-- RETM: the checks of R99 and R98 in their order, then the restoration (03 R98). DESIGN CHOICE: at PL2 it restores over a guarded
local, since 03 R98 and R99 list no guard check, though R85 forbids PL2 code to change one in place (log 64). -/
def execRetm (x : Iss) (s : State) : Outcome State Fault Refusal :=
  .next (s.issue x { delayBad := true } 0
    (fun v e c => do
      let fp := c.fp.toNat
      let base := c.fbase.toNat
      ensure (base + 16 ≤ fp) (fFrame 2 ((fp + 0x100000000 - 16) % 0x100000000))
      let tr := e.cell ((fp - 16) / 16)
      let n := bits tr.pay 4 0
      ensure (base + 16 * (n + 3) ≤ fp) (fFrame 2 ((fp + 0x100000000 - 16 * (n + 3)) % 0x100000000))
      let b := fp - 16 * (n + 3)
      ensure (e.open? v.pl b (16 * (n + 3))) (fKey 1 (e.firstClosed v.pl b (16 * (n + 3))))
      ensure (tr.isInt && tr.sub = 0 && bits tr.pay 127 5 == 0 && n ≤ 16) (fTagCell 3 (fp - 16))
      let ret := e.cell (b / 16)
      ensure (ret.ty = tyCODE && ret.sub = 1) (fTagCell 3 b)
      let hd := e.cell (b / 16 + 1)
      ensure (hd.isInt && hd.sub = 0) (fTagCell 3 (b + 16))
      let mask := bits hd.pay 47 32
      ensure ((maskLocals mask).length == n) (fTagCell 3 (b + 16))
      ensure (!ret.p) (fPsn 0 b)
      let c1 := restoreLocals e (b / 16 + 2) (maskLocals mask) c
      pure { count := 10, eng := e.meetAll (cellsOf b (16 * (n + 3))),
             ctx := { c1 with
               fp := hd.pay.extractLsb' 0 18, pc := ret.pay.extractLsb' 0 19
               damaged := c1.damaged.filter fun d => match d with
                 | .loc i => !(maskLocals mask).contains i.val
                 | _ => true } }) id)

/-- RETI (08 R268, R269): 12 cy; a saved wait is resumed with the saved WHY, or its completion pushed; a context whose transaction has
ended is FREE when the count elapses. -/
def execReti (x : Iss) (s : State) : Outcome State Fault Refusal :=
  .next (s.issue x { delayBad := true, priv := true } 0
    (fun _ e c => do
      retiCheck e c
      let why := (e.cell (c.xr.toNat / 16)).fld 42 39
      let e1 := e.meetAll (cellsOf c.xr.toNat 256)
      let r := refill 8 e1 (retiCtx e c)
      let c1 := r.2
      let c2 : Ctx :=
        if why = 0 then c1
        else
          match c1.savedWait with
          | none => c1
          | some w =>
            match w.done with
            | none => { c1 with savedWait := none, wait := some { w with why := BitVec.ofNat 4 why } }
            | some .plain => { c1 with savedWait := none }
            | some (.cell k) => { (c1.popPush 0 [k]) with savedWait := none }
      pure { count := 12, eng := r.1, ctx := c2 }) id)

end Sys2Proof.Machine
end

