-- ==== Sys2Proof/Machine/Scratch.lean ====
section
/-! DEFINITION. Scratch loads, stores and atomics (04 R129 to R139, 05 R148 to R151). -/

namespace Sys2Proof.Machine

open Host (Outcome)

/-- Where a scratch access goes: the address and index operands, checked in the order of R138 steps 4 to 7 (04 R138).
`more` is the operands below the address with what the instruction accepts of them. -/
def accessAddr (v : Env) (e : Engine) (c : Ctx) (f : Byte) (more : List (Cell → Bool)) : Except SFault Nat := do
  let x := formMode f == 3
  let top := stackTop e c 0
  let aIdx := if x then 1 else 0
  let a := stackTop e c aIdx
  tagCheck v.nochk
    ((if x then [(0, top, top.isInt)] else []) ++ [(aIdx, a, a.isInt)] ++
      more.zipIdx.map fun q => (aIdx + 1 + q.2, stackTop e c (aIdx + 1 + q.2), q.1 (stackTop e c (aIdx + 1 + q.2))))
  let addr := formAddr f a.int top.int
  ensure (!(x && top.p)) (fPsn 0 (BitVec.ofInt 32 addr).toNat)
  ensure (!a.p) (fPsn aIdx (BitVec.ofInt 32 addr).toNat)
  addrCheck (formWidth f) addr
  ensure (e.open? v.pl addr.toNat (formWidth f)) (fKey 1 addr.toNat aIdx)
  pure addr.toNat

/-- Cells an access pops for its address. -/
def formPops (f : Byte) : Nat := if formMode f = 3 then 2 else 1

/-- Cells .PI and .PD push besides the loaded one (04 Table 4-7). -/
def formPush (f : Byte) (a : Int) : List Cell :=
  if formMode f = 1 ∨ formMode f = 2 then [cellInt (formNext f a)] else []

/-- How an access writes back or loads. -/
inductive LdKind where
  | zero | sign | flt
  deriving DecidableEq, Repr

/-- The cell a load produces (04 Table 4-8, 03 R83). -/
def loadCell (e : Engine) (k : LdKind) (f : Byte) (a : Nat) : Cell :=
  let cell := e.cell (a / 16)
  let w := formWidth f
  match bits f 2 0 with
  | 5 => cell
  | 4 => cellDec (decStorage cell.pay) cell.p
  | _ =>
    let v := cell.pay.toNat / 2 ^ (8 * (a % 16)) % 2 ^ (8 * w)
    match k with
    | .zero => cellInt (BitVec.ofNat 64 v).toInt cell.p
    | .sign => cellInt (if 2 ^ (8 * w - 1) ≤ v then (v : Int) - 2 ^ (8 * w) else v) cell.p
    | .flt => cellFlt (BitVec.ofNat 64 v) cell.p

/-- The INT cell that the address operand held before an access. -/
def addrOf (e : Engine) (c : Ctx) (f : Byte) : Int := (stackTop e c (if formMode f = 3 then 1 else 0)).int

/-- A load (04 R132, R134). -/
def loadOp (x : Iss) (f : Byte) (k : LdKind) (widths : List Nat) (s : State) : Outcome State Fault Refusal :=
  let p := formPops f
  .next (s.issue x
    { imm := 1, pops := p, pushes := 1 + (formPush f 0).length, reads := p,
      badField := if formBad f widths [0, 1, 2, 3] then some 0 else none } 0
    (fun v e c => do
      let a ← accessAddr v e c f []
      pure { count := 1, eng := e.meet (a / 16),
             ctx := c.popPush p (loadCell e k f a :: formPush f (addrOf e c f)) }) id)

/-- LD. -/
def execLd (x : Iss) (imm : Byte) (s : State) : Outcome State Fault Refusal := loadOp x imm .zero [0, 1, 2, 3, 4, 5] s

/-- LDS. -/
def execLds (x : Iss) (imm : Byte) (s : State) : Outcome State Fault Refusal := loadOp x imm .sign [0, 1, 2, 3] s

/-- LDF. -/
def execLdf (x : Iss) (imm : Byte) (s : State) : Outcome State Fault Refusal := loadOp x imm .flt [3] s

/-- The types of x that a store of the width accepts (04 R135). -/
def storeAccepts (f : Byte) (x : Cell) : Bool :=
  match bits f 2 0 with
  | 5 => true
  | 4 => x.isInt == false && x.ty == tyDEC
  | _ => x.ty == tyINT || x.ty == tyFLT

/-- Guard of the target cell at PL2 (04 R138 step 8), then its tag for a narrow store (step 9). -/
def targetCheck (v : Env) (e : Engine) (a : Nat) (narrow : Bool) : Except SFault Unit := do
  ensure (!(v.pl == 2 && (e.cell (a / 16)).g)) (fKey 2 a)
  ensure (!narrow || e.narrowOk v.nochk (a / 16)) (fTagCell 2 (a / 16 * 16))

/-- ST (04 R132, R135). -/
def execSt (x : Iss) (imm : Byte) (s : State) : Outcome State Fault Refusal :=
  let p := formPops imm
  .next (s.issue x
    { imm := 1, pops := p + 1, pushes := (formPush imm 0).length, reads := p + 1,
      badField := if formBad imm [0, 1, 2, 3, 4, 5] [0, 1, 2, 3] then some 0 else none } 0
    (fun v e c => do
      let a ← accessAddr v e c imm [storeAccepts imm]
      targetCheck v e a (decide (bits imm 2 0 < 4))
      pure { count := 1, eng := storeAt e imm a (stackTop e c p), ctx := c.popPush (p + 1) (formPush imm (addrOf e c imm)) })
    id)

/-- The accepted types of an atomic's value: INT or FLT at 8 bytes, any at full-cell width (05 Table 5-2). -/
def atomicAccepts (f : Byte) (x : Cell) : Bool := if bits f 2 0 = 5 then true else x.ty == tyINT || x.ty == tyFLT

/-- The value an atomic pushes: old as LD of the same width loads it (05 R150). -/
def oldCell (e : Engine) (f : Byte) (a : Nat) : Cell := loadCell e .zero f a

/-- Under P.LOCK the store buffer entries of the cell drain first (04 R139). -/
def lockDrain (v : Env) (e : Engine) (k : Nat) : Engine :=
  if v.lockPx then e.sb.foldl (fun a kc => if kc.1 = k then a.setScratch k kc.2 else a)
    { e with sb := e.sb.filter fun kc => kc.1 != k }
  else e

/-- Count of an atomic: 2, and 1 more under P.LOCK (05 Table 5-2). -/
def atomicCount (v : Env) : Nat := if v.lockPx then 3 else 2

/-- A read-modify-write that writes `x`: at once under P.LOCK, else in the cycle after the read, so that a mover's or another context's
write may fall between (04 R112, R139). -/
def rmwDone (v : Env) (e : Engine) (c : Ctx) (f : Byte) (a : Nat) (x : Option Cell) : Done :=
  match x with
  | none => { count := atomicCount v, eng := (lockDrain v e (a / 16)).meet (a / 16), ctx := c }
  | some x =>
    if v.lockPx then { count := atomicCount v, eng := storeAt (lockDrain v e (a / 16)) f a x, ctx := c }
    else { count := atomicCount v, eng := e.meet (a / 16), ctx := { c with rmw := some (f, a, x) } }

/-- XADD ( x a -- old ): adds modulo 2^64; the target is INT or NIL (05 R149). -/
def execXadd (x : Iss) (imm : Byte) (s : State) : Outcome State Fault Refusal :=
  let p := formPops imm
  .next (s.issue x
    { esc := true, imm := 1, lock := true, pops := p + 1, pushes := 1, reads := p + 1,
      badField := if formBad imm [3] [0, 3] then some 0 else none } 0
    (fun v e c => do
      let a ← accessAddr v e c imm [Cell.isInt]
      targetCheck v e a true
      let t := e.cell (a / 16)
      ensure (e.bad? (a / 16) || v.nochk || t.ty = tyINT || t.ty = tyNIL) (fTagCell 2 (a / 16 * 16))
      let old := oldCell e imm a
      let xv := stackTop e c p
      pure (rmwDone v e (c.popPush (p + 1) [old]) imm a (some (cellInt (old.lo + xv.lo).toInt xv.p)))) id)

/-- XCHG ( x a -- old ) (05 R150). -/
def execXchg (x : Iss) (imm : Byte) (s : State) : Outcome State Fault Refusal :=
  let p := formPops imm
  .next (s.issue x
    { esc := true, imm := 1, lock := true, pops := p + 1, pushes := 1, reads := p + 1,
      badField := if formBad imm [3, 5] [0, 3] then some 0 else none } 0
    (fun v e c => do
      let a ← accessAddr v e c imm [atomicAccepts imm]
      targetCheck v e a (decide (bits imm 2 0 = 3))
      pure (rmwDone v e (c.popPush (p + 1) [oldCell e imm a]) imm a (some (stackTop e c p)))) id)

/-- What CAS compares: payload[63:0] at 8 bytes, the whole cell at full width (05 R150). -/
def casEqual (e : Engine) (f : Byte) (a : Nat) (exp : Cell) : Bool :=
  if bits f 2 0 = 5 then decide (e.cell (a / 16) = exp) else (oldCell e f a).lo == exp.lo

/-- CAS ( exp new a -- old ): the guard is checked even when nothing is written (05 R150, R151). -/
def execCas (x : Iss) (imm : Byte) (s : State) : Outcome State Fault Refusal :=
  let p := formPops imm
  .next (s.issue x
    { esc := true, imm := 1, lock := true, pops := p + 2, pushes := 1, reads := p + 2,
      badField := if formBad imm [3, 5] [0, 3] then some 0 else none } 0
    (fun v e c => do
      let a ← accessAddr v e c imm [atomicAccepts imm, atomicAccepts imm]
      targetCheck v e a (decide (bits imm 2 0 = 3))
      pure (rmwDone v e (c.popPush (p + 2) [oldCell e imm a]) imm a
        (if casEqual e imm a (stackTop e c (p + 1)) then some (stackTop e c p) else none))) id)

end Sys2Proof.Machine
end

