-- ==== Sys2Proof/Machine/Dispatch.lean ====
section
/-! DEFINITION. One arm per command: a direct call of its meaning (exec answers everything but the queue). -/

namespace Sys2Proof.Machine

def exec (i : Instr) (s : State) : Host.Outcome State Fault Refusal :=
  match i with
  | .nop x => Sys2Proof.Machine.execNop x s
  | .dup x => Sys2Proof.Machine.execDup x s
  | .drop x => Sys2Proof.Machine.execDrop x s
  | .swap x => Sys2Proof.Machine.execSwap x s
  | .over x => Sys2Proof.Machine.execOver x s
  | .rot x => Sys2Proof.Machine.execRot x s
  | .nip x => Sys2Proof.Machine.execNip x s
  | .tuck x => Sys2Proof.Machine.execTuck x s
  | .pick x imm => Sys2Proof.Machine.execPick x imm s
  | .dup2 x => Sys2Proof.Machine.execDup2 x s
  | .drop2 x => Sys2Proof.Machine.execDrop2 x s
  | .ldl x n => Sys2Proof.Machine.execLdl x n s
  | .stl x n => Sys2Proof.Machine.execStl x n s
  | .pushiS x imm => Sys2Proof.Machine.execPushiS x imm s
  | .pushiL x imm => Sys2Proof.Machine.execPushiL x imm s
  | .pushd x imm => Sys2Proof.Machine.execPushd x imm s
  | .pushfp x imm => Sys2Proof.Machine.execPushfp x imm s
  | .pusha x imm => Sys2Proof.Machine.execPusha x imm s
  | .pushtrue x => Sys2Proof.Machine.execPushtrue x s
  | .pushfalse x => Sys2Proof.Machine.execPushfalse x s
  | .pushnil x => Sys2Proof.Machine.execPushnil x s
  | .add x => Sys2Proof.Machine.execAdd x s
  | .sub x => Sys2Proof.Machine.execSub x s
  | .mul x => Sys2Proof.Machine.execMul x s
  | .div x => Sys2Proof.Machine.execDiv x s
  | .rem x => Sys2Proof.Machine.execRem x s
  | .cmp x => Sys2Proof.Machine.execCmp x s
  | .neg x => Sys2Proof.Machine.execNeg x s
  | .abs x => Sys2Proof.Machine.execAbs x s
  | .muli x => Sys2Proof.Machine.execMuli x s
  | .and x => Sys2Proof.Machine.execAnd x s
  | .or x => Sys2Proof.Machine.execOr x s
  | .xor x => Sys2Proof.Machine.execXor x s
  | .not x => Sys2Proof.Machine.execNot x s
  | .shl x => Sys2Proof.Machine.execShl x s
  | .shr x => Sys2Proof.Machine.execShr x s
  | .sar x => Sys2Proof.Machine.execSar x s
  | .fadd x => Sys2Proof.Machine.execFadd x s
  | .fsub x => Sys2Proof.Machine.execFsub x s
  | .fmul x => Sys2Proof.Machine.execFmul x s
  | .fma x => Sys2Proof.Machine.execFma x s
  | .fdiv x => Sys2Proof.Machine.execFdiv x s
  | .fsqrt x => Sys2Proof.Machine.execFsqrt x s
  | .dmul x => Sys2Proof.Machine.execDmul x s
  | .ddiv x => Sys2Proof.Machine.execDdiv x s
  | .dshl x imm => Sys2Proof.Machine.execDshl x imm s
  | .dshr x imm => Sys2Proof.Machine.execDshr x imm s
  | .drnd x imm => Sys2Proof.Machine.execDrnd x imm s
  | .pack x imm => Sys2Proof.Machine.execPack x imm s
  | .unpk x imm => Sys2Proof.Machine.execUnpk x imm s
  | .dcmp x => Sys2Proof.Machine.execDcmp x s
  | .tagof x => Sys2Proof.Machine.execTagof x s
  | .cvti x => Sys2Proof.Machine.execCvti x s
  | .cvtd x => Sys2Proof.Machine.execCvtd x s
  | .cvtf x => Sys2Proof.Machine.execCvtf x s
  | .br x annul imm => Sys2Proof.Machine.execBr x annul imm s
  | .brz x annul imm => Sys2Proof.Machine.execBrz x annul imm s
  | .brnz x annul imm => Sys2Proof.Machine.execBrnz x annul imm s
  | .brt x annul imm => Sys2Proof.Machine.execBrt x annul imm s
  | .call x imm => Sys2Proof.Machine.execCall x imm s
  | .ret x => Sys2Proof.Machine.execRet x s
  | .callm x imm => Sys2Proof.Machine.execCallm x imm s
  | .retm x => Sys2Proof.Machine.execRetm x s
  | .reti x => Sys2Proof.Machine.execReti x s
  | .callx x => Sys2Proof.Machine.execCallx x s
  | .ld x imm => Sys2Proof.Machine.execLd x imm s
  | .lds x imm => Sys2Proof.Machine.execLds x imm s
  | .ldf x imm => Sys2Proof.Machine.execLdf x imm s
  | .st x imm => Sys2Proof.Machine.execSt x imm s
  | .xadd x imm => Sys2Proof.Machine.execXadd x imm s
  | .xchg x imm => Sys2Proof.Machine.execXchg x imm s
  | .cas x imm => Sys2Proof.Machine.execCas x imm s
  | .rld x => Sys2Proof.Machine.execRld x s
  | .rst x => Sys2Proof.Machine.execRst x s
  | .rlock x imm => Sys2Proof.Machine.execRlock x imm s
  | .rpref x => Sys2Proof.Machine.execRpref x s
  | .commit x => Sys2Proof.Machine.execCommit x s
  | .abort x => Sys2Proof.Machine.execAbort x s
  | .stage x => Sys2Proof.Machine.execStage x s
  | .waitev x => Sys2Proof.Machine.execWaitev x s
  | .sigev x => Sys2Proof.Machine.execSigev x s
  | .yield x => Sys2Proof.Machine.execYield x s
  | .mvst x => Sys2Proof.Machine.execMvst x s
  | .mvtr x => Sys2Proof.Machine.execMvtr x s
  | .cmst x => Sys2Proof.Machine.execCmst x s
  | .scst x => Sys2Proof.Machine.execScst x s
  | .edit x => Sys2Proof.Machine.execEdit x s
  | .edmk x => Sys2Proof.Machine.execEdmk x s
  | .tli x => Sys2Proof.Machine.execTli x s
  | .setrm x => Sys2Proof.Machine.execSetrm x s
  | .rdpsw x => Sys2Proof.Machine.execRdpsw x s
  | .setm x => Sys2Proof.Machine.execSetm x s
  | .setkey x => Sys2Proof.Machine.execSetkey x s
  | .setfp x => Sys2Proof.Machine.execSetfp x s
  | .setg x => Sys2Proof.Machine.execSetg x s
  | .clrg x => Sys2Proof.Machine.execClrg x s
  | .busyCountElapsed e c => Sys2Proof.Machine.execBusyCountElapsed e c s
  | .storeBufferDrain e => Sys2Proof.Machine.execStoreBufferDrain e s
  | .eventTake e c => Sys2Proof.Machine.execEventTake e c s
  | .noticeDelivery slot level kind word => Sys2Proof.Machine.execNoticeDelivery slot level kind word s
  | .watchdog e c => Sys2Proof.Machine.execWatchdog e c s
  | .machineCheck e c dmg => Sys2Proof.Machine.execMachineCheck e c dmg s
  | .quarantineEnd e c => Sys2Proof.Machine.execQuarantineEnd e c s
  | .engineMessageArrival m => Sys2Proof.Machine.execEngineMessageArrival m s
  | .bounceDisposal target => Sys2Proof.Machine.execBounceDisposal target s
  | .rldComplete e c => Sys2Proof.Machine.execRldComplete e c s
  | .rlockComplete e c => Sys2Proof.Machine.execRlockComplete e c s
  | .rprefAck e c => Sys2Proof.Machine.execRprefAck e c s
  | .stageComplete e c => Sys2Proof.Machine.execStageComplete e c s
  | .waitevWake slot => Sys2Proof.Machine.execWaitevWake slot s
  | .waitevTimeout slot => Sys2Proof.Machine.execWaitevTimeout slot s
  | .commitOutcome e c => Sys2Proof.Machine.execCommitOutcome e c s
  | .engRoleWrite r e v => Sys2Proof.Machine.execEngRoleWrite r e v s
  | .engineClear r e => Sys2Proof.Machine.execEngineClear r e s
  | .engineClearComplete e => Sys2Proof.Machine.execEngineClearComplete e s
  | .engSwinWrite r e v => Sys2Proof.Machine.execEngSwinWrite r e v s
  | .engCptWrite r e v => Sys2Proof.Machine.execEngCptWrite r e v s
  | .engWdogWrite r e v => Sys2Proof.Machine.execEngWdogWrite r e v s
  | .engCtlWrite r e v => Sys2Proof.Machine.execEngCtlWrite r e v s
  | .contextWindowWrite r e c off v => Sys2Proof.Machine.execContextWindowWrite r e c off v s
  | .park e c => Sys2Proof.Machine.execPark e c s
  | .unpark slot e c => Sys2Proof.Machine.execUnpark slot e c s
  | .parkWaitTimeout e c => Sys2Proof.Machine.execParkWaitTimeout e c s
  | .sqDoorbell f v => Sys2Proof.Machine.execSqDoorbell f v s
  | .commandRead f bytes poison fault => Sys2Proof.Machine.execCommandRead f bytes poison fault s
  | .submitReread f bytes poison fault => Sys2Proof.Machine.execSubmitReread f bytes poison fault s
  | .startBlockDiscard b => Sys2Proof.Machine.execStartBlockDiscard b s
  | .firmwareDispatch slot e c => Sys2Proof.Machine.execFirmwareDispatch slot e c s
  | .run f list data st => Sys2Proof.Machine.execRun f list data st s
  | .read f => Sys2Proof.Machine.execRead f s
  | .signal f => Sys2Proof.Machine.execSignal f s
  | .epset f => Sys2Proof.Machine.execEpset f s
  | .map f => Sys2Proof.Machine.execMap f s
  | .resync f => Sys2Proof.Machine.execResync f s
  | .scan f => Sys2Proof.Machine.execScan f s
  | .bulk f blocks => Sys2Proof.Machine.execBulk f blocks s
  | .checkpoint f => Sys2Proof.Machine.execCheckpoint f s
  | .rebuild f bad => Sys2Proof.Machine.execRebuild f bad s
  | .longStepTimeLimit slot => Sys2Proof.Machine.execLongStepTimeLimit slot s
  | .tokenExpiry h v => Sys2Proof.Machine.execTokenExpiry h v s
  | .identify f => Sys2Proof.Machine.execIdentify f s
  | .createHedge f buf => Sys2Proof.Machine.execCreateHedge f buf s
  | .setHedge f buf => Sys2Proof.Machine.execSetHedge f buf s
  | .destroyHedge f => Sys2Proof.Machine.execDestroyHedge f s
  | .register f buf => Sys2Proof.Machine.execRegister f buf s
  | .unregister f => Sys2Proof.Machine.execUnregister f s
  | .loadTable f buf src => Sys2Proof.Machine.execLoadTable f buf src s
  | .telemetry f => Sys2Proof.Machine.execTelemetry f s
  | .fwUpdate f bytes found => Sys2Proof.Machine.execFwUpdate f bytes found s
  | .ringEnable f => Sys2Proof.Machine.execRingEnable f s
  | .ringDisable f => Sys2Proof.Machine.execRingDisable f s
  | .sqrestart f => Sys2Proof.Machine.execSqrestart f s
  | .cqDoorbell f v => Sys2Proof.Machine.execCqDoorbell f v s
  | .eqDoorbell f v => Sys2Proof.Machine.execEqDoorbell f v s
  | .dhpConfigWrite f off len v => Sys2Proof.Machine.execDhpConfigWrite f off len v s
  | .functionLevelReset f => Sys2Proof.Machine.execFunctionLevelReset f s
  | .hostPortReset p => Sys2Proof.Machine.execHostPortReset p s
  | .d3hotEntry f => Sys2Proof.Machine.execD3hotEntry f s
  | .completionPost f => Sys2Proof.Machine.execCompletionPost f s
  | .vector0Timer f => Sys2Proof.Machine.execVector0Timer f s
  | .lockRequest e c => Sys2Proof.Machine.execLockRequest e c s
  | .lockRelease slot u => Sys2Proof.Machine.execLockRelease slot u s
  | .releaseConfirm slot => Sys2Proof.Machine.execReleaseConfirm slot s
  | .wound slot => Sys2Proof.Machine.execWound slot s
  | .endNotice slot => Sys2Proof.Machine.execEndNotice slot s
  | .woundRestart slot => Sys2Proof.Machine.execWoundRestart slot s
  | .commitValidate e c => Sys2Proof.Machine.execCommitValidate e c s
  | .stagingBlocksFree k => Sys2Proof.Machine.execStagingBlocksFree k s
  | .commitAdmission slot => Sys2Proof.Machine.execCommitAdmission slot s
  | .throttleTimeout slot => Sys2Proof.Machine.execThrottleTimeout slot s
  | .mediaMark slot => Sys2Proof.Machine.execMediaMark slot s
  | .lehrEntryWrite bad => Sys2Proof.Machine.execLehrEntryWrite bad s
  | .lehrEntryDurable pos => Sys2Proof.Machine.execLehrEntryDurable pos s
  | .deltaApply slot st => Sys2Proof.Machine.execDeltaApply slot st s
  | .applyNotice slot => Sys2Proof.Machine.execApplyNotice slot s
  | .drainWriteComplete seg => Sys2Proof.Machine.execDrainWriteComplete seg s
  | .drainWriteFail seg => Sys2Proof.Machine.execDrainWriteFail seg s
  | .flushRequest => Sys2Proof.Machine.execFlushRequest s
  | .lehrFullTimeout => Sys2Proof.Machine.execLehrFullTimeout s
  | .checkpointAdvance g => Sys2Proof.Machine.execCheckpointAdvance g s
  | .mirrorEntry l g m => Sys2Proof.Machine.execMirrorEntry l g m s
  | .mirrorAck g => Sys2Proof.Machine.execMirrorAck g s
  | .pairTimeout => Sys2Proof.Machine.execPairTimeout s
  | .lehrFence ok => Sys2Proof.Machine.execLehrFence ok s
  | .journalHole pos => Sys2Proof.Machine.execJournalHole pos s
  | .replay => Sys2Proof.Machine.execReplay s
  | .ringReopen fails => Sys2Proof.Machine.execRingReopen fails s
  | .pageWalk e c => Sys2Proof.Machine.execPageWalk e c s
  | .markRequest e c => Sys2Proof.Machine.execMarkRequest e c s
  | .pageStageIn h va bad => Sys2Proof.Machine.execPageStageIn h va bad s
  | .pageEvict h va => Sys2Proof.Machine.execPageEvict h va s
  | .pageAge h va => Sys2Proof.Machine.execPageAge h va s
  | .tlbinvPage r h mask => Sys2Proof.Machine.execTlbinvPage r h mask s
  | .tlbinvHedge r h mask => Sys2Proof.Machine.execTlbinvHedge r h mask s
  | .tlbinvFrame r mask => Sys2Proof.Machine.execTlbinvFrame r mask s
  | .tlbinvAll r mask => Sys2Proof.Machine.execTlbinvAll r mask s
  | .tlbinvComplete => Sys2Proof.Machine.execTlbinvComplete s
  | .eventUnitWait slot => Sys2Proof.Machine.execEventUnitWait slot s
  | .eventUnitSignal slot => Sys2Proof.Machine.execEventUnitSignal slot s
  | .moverSignal m ch => Sys2Proof.Machine.execMoverSignal m ch s
  | .eventUnitDeadlock h => Sys2Proof.Machine.execEventUnitDeadlock h s
  | .pruningPass => Sys2Proof.Machine.execPruningPass s
  | .kick m k => Sys2Proof.Machine.execKick m k s
  | .abortChannel m ch => Sys2Proof.Machine.execAbortChannel m ch s
  | .resume m ch => Sys2Proof.Machine.execResume m ch s
  | .resetChannel m ch => Sys2Proof.Machine.execResetChannel m ch s
  | .haltclr m => Sys2Proof.Machine.execHaltclr m s
  | .wdraw m t => Sys2Proof.Machine.execWdraw m t s
  | .movChannelConfigWrite m ch cfg v => Sys2Proof.Machine.execMovChannelConfigWrite m ch cfg v s
  | .descriptorTake m ch => Sys2Proof.Machine.execDescriptorTake m ch s
  | .burstComplete m ch k data poison => Sys2Proof.Machine.execBurstComplete m ch k data poison s
  | .nvmeCompletion m ch st => Sys2Proof.Machine.execNvmeCompletion m ch st s
  | .descriptorComplete m ch => Sys2Proof.Machine.execDescriptorComplete m ch s
  | .pacingPeriod m t => Sys2Proof.Machine.execPacingPeriod m t s
  | .moverTimeout m ch data => Sys2Proof.Machine.execMoverTimeout m ch data s
  | .unexpectedCompletion m tag bytes => Sys2Proof.Machine.execUnexpectedCompletion m tag bytes s
  | .errHalt m cause kind ch addr => Sys2Proof.Machine.execErrHalt m cause kind ch addr s
  | .tempSample k t valid => Sys2Proof.Machine.execTempSample k t valid s
  | .thermalStepDown n => Sys2Proof.Machine.execThermalStepDown n s
  | .thermalStepUp n => Sys2Proof.Machine.execThermalStepUp n s
  | .powerControl w energy => Sys2Proof.Machine.execPowerControl w energy s
  | .energySettle issue => Sys2Proof.Machine.execEnergySettle issue s
  | .capacityEval => Sys2Proof.Machine.execCapacityEval s
  | .effectiveMinEval => Sys2Proof.Machine.execEffectiveMinEval s
  | .pointUpSwitch n => Sys2Proof.Machine.execPointUpSwitch n s
  | .pwrCctlWrite r n v => Sys2Proof.Machine.execPwrCctlWrite r n v s
  | .clusterC4Entry n => Sys2Proof.Machine.execClusterC4Entry n s
  | .clusterC1Entry n => Sys2Proof.Machine.execClusterC1Entry n s
  | .clusterC2Entry n => Sys2Proof.Machine.execClusterC2Entry n s
  | .clusterC3Entry n => Sys2Proof.Machine.execClusterC3Entry n s
  | .clusterWake n => Sys2Proof.Machine.execClusterWake n s
  | .clusterWakeComplete n => Sys2Proof.Machine.execClusterWakeComplete n s
  | .vcoreUndervolt => Sys2Proof.Machine.execVcoreUndervolt s
  | .pwrFailAssert ns => Sys2Proof.Machine.execPwrFailAssert ns s
  | .pwrFailRestart => Sys2Proof.Machine.execPwrFailRestart s
  | .pwrBrakeAssert => Sys2Proof.Machine.execPwrBrakeAssert s
  | .pwrBrakeRelease => Sys2Proof.Machine.execPwrBrakeRelease s
  | .sysRstAssert => Sys2Proof.Machine.execSysRstAssert s
  | .startSequence x => Sys2Proof.Machine.execStartSequence x s
  | .keeperStart => Sys2Proof.Machine.execKeeperStart s
  | .crystalLoss => Sys2Proof.Machine.execCrystalLoss s
  | .bootWatchdog => Sys2Proof.Machine.execBootWatchdog s
  | .glbBootokWrite r v => Sys2Proof.Machine.execGlbBootokWrite r v s
  | .glbLockWrite r => Sys2Proof.Machine.execGlbLockWrite r s
  | .fuseRequest r q => Sys2Proof.Machine.execFuseRequest r q s
  | .svnCommit => Sys2Proof.Machine.execSvnCommit s
  | .heartbeat t => Sys2Proof.Machine.execHeartbeat t s
  | .heartbeatLoss t => Sys2Proof.Machine.execHeartbeatLoss t s
  | .keeperLastResort nor => Sys2Proof.Machine.execKeeperLastResort nor s
  | .pflush r c => Sys2Proof.Machine.execPflush r c s
  | .mcPdata1Write r n v => Sys2Proof.Machine.execMcPdata1Write r n v s
  | .mcBroadcastWrite r off v => Sys2Proof.Machine.execMcBroadcastWrite r off v s
  | .clusterRemoval n => Sys2Proof.Machine.execClusterRemoval n s
  | .coderamRewrite n => Sys2Proof.Machine.execCoderamRewrite n s
  | .registerWrite r a v => Sys2Proof.Machine.execRegisterWrite r a v s
  | .registerReadClear r a => Sys2Proof.Machine.execRegisterReadClear r a s
  | .patrolScrub st g found own => Sys2Proof.Machine.execPatrolScrub st g found own s
  | .frameRetire fr => Sys2Proof.Machine.execFrameRetire fr s
  | .channelFail u => Sys2Proof.Machine.execChannelFail u s
  | .errorRecordWrite => Sys2Proof.Machine.execErrorRecordWrite s
  | .linkUp l peer far attempts => Sys2Proof.Machine.execLinkUp l peer far attempts s
  | .linkBudgetExpiry l => Sys2Proof.Machine.execLinkBudgetExpiry l s
  | .retrain r l => Sys2Proof.Machine.execRetrain r l s
  | .identityMessage l p => Sys2Proof.Machine.execIdentityMessage l p s
  | .membershipSettle epoch => Sys2Proof.Machine.execMembershipSettle epoch s
  | .migrationRequest h x there f veto => Sys2Proof.Machine.execMigrationRequest h x there f veto s
  | .migrationDrain => Sys2Proof.Machine.execMigrationDrain s
  | .migrationPrepared => Sys2Proof.Machine.execMigrationPrepared s
  | .migrationMoved => Sys2Proof.Machine.execMigrationMoved s
  | .snapshotRequest => Sys2Proof.Machine.execSnapshotRequest s
  | .pause k => Sys2Proof.Machine.execPause k s
  | .paused x k g done => Sys2Proof.Machine.execPaused x k g done s
  | .snapshotPauseTimeout => Sys2Proof.Machine.execSnapshotPauseTimeout s
  | .release k abort => Sys2Proof.Machine.execRelease k abort s
  | .mctpPowerLimit v => Sys2Proof.Machine.execMctpPowerLimit v s
  | .mctpTelemetry => Sys2Proof.Machine.execMctpTelemetry s
  | .mctpErrorLog => Sys2Proof.Machine.execMctpErrorLog s
  | .mctpControl eid => Sys2Proof.Machine.execMctpControl eid s
  | .storageLinkDown p => Sys2Proof.Machine.execStorageLinkDown p s
  | .pleachLinkDown l => Sys2Proof.Machine.execPleachLinkDown l s
  | .crystalRecovery => Sys2Proof.Machine.execCrystalRecovery s
  | .perstDeassertion p rate width x => Sys2Proof.Machine.execPerstDeassertion p rate width x s
  | .d0Return f => Sys2Proof.Machine.execD0Return f s
  | .mirrorCopyRequest l seq k => Sys2Proof.Machine.execMirrorCopyRequest l seq k s
  | .mirrorCopyArrival k bytes => Sys2Proof.Machine.execMirrorCopyArrival k bytes s
  | .mirrorReclaimNotice seq => Sys2Proof.Machine.execMirrorReclaimNotice seq s
  | .migrationCopyReceive m => Sys2Proof.Machine.execMigrationCopyReceive m s
  | .engineLending h e role => Sys2Proof.Machine.execEngineLending h e role s
  | .alarmMessageRead => Sys2Proof.Machine.execAlarmMessageRead s
  | .mctpOtherRequest v => Sys2Proof.Machine.execMctpOtherRequest v s
  | .outOfWindowRequest p q => Sys2Proof.Machine.execOutOfWindowRequest p q s
  | .hostUnsupportedRequest p fn write => Sys2Proof.Machine.execHostUnsupportedRequest p fn write s
  | .startWaitTimeout => Sys2Proof.Machine.execStartWaitTimeout s

end Sys2Proof.Machine
end

