-- ==== Sys2Proof/Decode.lean ====
section
/-! DEFINITION. The command that a word spells. No row of spec/opcode_table.json carries bits: the commands are events and
accesses of the block, not words, so no word spells one. -/

namespace Sys2Proof

/-- The rows of the table give no bits (log 1). -/
def decodeTableWord (_nbits _w : Nat) : Option Instr := none

end Sys2Proof
end

