-- ==== Sys2Proof/Machine/Tick.lean ====
section
/-! DEFINITION. What an ao-tick does of itself when no command waits (14 R454, 08 R270; log 1). -/

namespace Sys2Proof.Machine

/-- The watchdog counts the ao-ticks in which the context holds a slot and is not in WAIT (08 R270). -/
def Ctx.tick (c : Ctx) : Ctx := if c.state = .free ∨ c.state = .wait then c else { c with wdog := c.wdog + 1 }

/-- An engine's contexts count. -/
def Engine.tick (e : Engine) : Engine := { e with ctxs := tmap Ctx.reset e.ctxs Ctx.tick }

/-- Firmware restores the poisoned granules of page tables, frame-table entries and directory entries from its own records, within 1 ms of
the poison; here by the next ao-tick (16 R519; log 47). -/
def State.restoreFixed (s : State) : State :=
  { s with poison := s.poison.filter fun kv => decide (fixedEnd ≤ 32 * kv.1) || (decide (lockTable ≤ 32 * kv.1) && decide (32 * kv.1 < parkedEnd)) }

/-- PWR_AOTICK counts and never wraps in the life of the part (14 R454); the watchdogs count; a predictor flush of 600 core
cycles has ended (15 R489). -/
def tick (s : State) : State :=
  { s.restoreFixed with aoTick := s.aoTick + 1, engines := tmap Engine.reset s.engines Engine.tick, regs := { s.regs with pfbusy := 0 } }

end Sys2Proof.Machine
end

