-- ==== Sys2Proof/Safety.lean ====
section
/-! DEFINITION. What the statements about runs are made of: what software sees of a context, when an instruction issues, what
an instruction leaves alone, and the canonical form of the memories. -/

namespace Sys2Proof.Machine

/-! ### What software sees of a context -/

/-- The cells of the operand stack, top first, wherever each of them lives (03 R86). -/
def stackOf (e : Engine) (c : Ctx) : List Cell := (List.range c.depth.toNat).map (stackTop e c)

/-- The state of a context that its software sees: stack, pc, pending branch, PSW but EH, locals, stack and frame bounds, return
stack, and its outstanding request (03 Table 3-2). -/
structure View where
  stack : List Cell
  pc : BitVec 19
  pb : Option PendBr
  pl : BitVec 2
  m : BitVec 3
  key : BitVec 4
  rm : BitVec 3
  locals : Tab Cell
  osb : BitVec 18
  osl : BitVec 18
  fp : BitVec 18
  fl : BitVec 19
  fbase : BitVec 18
  rs : Tab RsEntry
  rsp : BitVec 4
  rsc : BitVec 5
  wait : Option Wait
  slot : SlotId
  deriving DecidableEq, Repr

/-- The view of a context of an engine. -/
def viewOf (e : Engine) (c : Ctx) : View :=
  { stack := stackOf e c, pc := c.pc, pb := c.pb, pl := c.psw.pl, m := c.psw.m, key := c.psw.key, rm := c.psw.rm, locals := c.locals,
    osb := c.osb, osl := c.osl, fp := c.fp, fl := c.fl, fbase := c.fbase, rs := c.rs, rsp := c.rsp, rsc := c.rsc, wait := c.wait,
    slot := c.slot }

/-- The context that an instruction names. -/
def State.ctxAt (s : State) (x : Iss) : Ctx := (s.eng x.eng).ctx x.ctx

/-- What software of the context that an instruction names sees. -/
def State.view (s : State) (x : Iss) : View := viewOf (s.eng x.eng) (s.ctxAt x)

/-! ### When an instruction issues and passes the checks before its own ones -/

/-- The delay slot of a branch that annuls it (03 R106). -/
def Ctx.annulled (c : Ctx) : Bool :=
  match c.pb with
  | some b => b.nt && b.ann
  | none => false

/-- The instruction meets a correctable error: of code RAM, where it is fetched from there, or of the private state that it reads (16 R514). -/
def State.meetsSoft (s : State) (x : Iss) (o : OpInfo) : Bool :=
  (!(s.eng x.eng).looped (s.ctxAt x).pc.toNat (o.len x.px) &&
      (s.clu (cluOf x.eng)).softCode.any fun w => overlaps (s.ctxAt x).pc.toNat (o.len x.px) (16 * w) (16 * w + 16)) ||
    (s.ctxAt x).soft.any ((s.ctxAt x).damageRead o)

/-- The context issues the instruction now: its cluster runs (14 R457) and it is the one whose turn it is (03 R65); its bytes are fetched (02
R41, 03 R103, 16 R521), and the encoding, privilege and operand-stack checks pass (05 R141 steps 1 to 3); nothing it reads is damaged (08
R271) or has to be corrected (16 R514). -/
def State.issues (s : State) (x : Iss) (o : OpInfo) : Bool :=
  s.running x.eng && (s.eng x.eng).mayIssue x.ctx &&
    ((s.eng x.eng).fetchClosed (s.ctxAt x).pc.toNat (o.len x.px)).isNone &&
    ((s.eng x.eng).looped (s.ctxAt x).pc.toNat (o.len x.px) || !(s.clu (cluOf x.eng)).fetchBad (s.ctxAt x).pc.toNat (o.len x.px)) &&
    (o.early x.px (s.ctxAt x)).isNone && !(s.ctxAt x).annulled && (o.stkFault (s.ctxAt x)).isNone &&
    !(s.ctxAt x).readsDamage o && !s.meetsSoft x o

/-- Where the context goes after an instruction of these facts: to the next one, or out of a delay slot (03 R107). -/
def State.nextPc (s : State) (x : Iss) (o : OpInfo) : BitVec 19 := (s.ctxAt x).after ((s.ctxAt x).pc.toNat + o.len x.px)

/-- What an instruction of these facts knows of its issue. -/
def State.env (s : State) (x : Iss) (o : OpInfo) : Env := o.env x (s.ctxAt x)

/-- The engine of the context that an instruction names, with the instruction issued (03 R65, 02 Table 2-2). -/
def State.issuing (s : State) (x : Iss) : Engine := (s.eng x.eng).issued x.ctx (s.slot (s.ctxAt x).slot).hedge

/-- The context vectors with a synchronous fault of its instruction (08 R250). -/
def State.faults (s : State) (x : Iss) (f : SFault) : State := (s.setEng x.eng (s.issuing x)).vector x.eng x.ctx f.event

/-- An iterative unit is free or the context's own (03 R69), and for the microcode sequencer the execution ends within its count
(15 R503), no damaged word is read (08 R271) and no word has to be corrected (15 R505). -/
def State.unitReady (s : State) (x : Iss) (op : Nat) (u : IterUnit) (count : Nat) : Bool :=
  ((s.eng x.eng).unitOf u == none || (s.eng x.eng).unitOf u == some x.ctx) &&
    (u != .ucode || (((s.clu (cluOf x.eng)).overrun op count).isNone && !(s.ctxAt x).readsUcode (s.clu (cluOf x.eng)) op count &&
      (s.clu (cluOf x.eng)).softUcode.isEmpty))

/-! ### What an instruction leaves alone -/

/-- Scratch cells that the spill unit may write for a context: its stack's (03 R87). -/
def View.ownsCell (v : View) (k : Nat) : Prop := v.osb.toNat / 16 ≤ k ∧ k ≤ v.osb.toNat / 16 + v.stack.length

/-- Nothing but one context of one engine differs: the rest of the device but the error queue, the other engines, the other contexts
of the engine, and its registers. An error of scratch that the access met may be filed, with free bytes in its record (16 R517). -/
structure Quiet (s t : State) (x : Iss) : Prop where
  device : t = { s with engines := t.engines, errq := t.errq, free := t.free }
  filed : s.errq <+: t.errq
  engines : ∀ e, e ≠ x.eng → t.eng e = s.eng e
  contexts : ∀ n, n ≠ x.ctx → (t.eng x.eng).ctx n = (s.eng x.eng).ctx n
  role : (t.eng x.eng).hedge = (s.eng x.eng).hedge ∧ (t.eng x.eng).role = (s.eng x.eng).role ∧
    (t.eng x.eng).assigned = (s.eng x.eng).assigned ∧ (t.eng x.eng).epoch = (s.eng x.eng).epoch ∧
    (t.eng x.eng).clearing = (s.eng x.eng).clearing
  regs : (t.eng x.eng).strict = (s.eng x.eng).strict ∧ (t.eng x.eng).rso = (s.eng x.eng).rso ∧
    (t.eng x.eng).swinBase = (s.eng x.eng).swinBase ∧ (t.eng x.eng).swinSize = (s.eng x.eng).swinSize ∧
    (t.eng x.eng).cptBase = (s.eng x.eng).cptBase ∧ (t.eng x.eng).cptCount = (s.eng x.eng).cptCount ∧
    (t.eng x.eng).wdogLimit = (s.eng x.eng).wdogLimit ∧ (t.eng x.eng).itlb = (s.eng x.eng).itlb ∧
    (t.eng x.eng).dtlb = (s.eng x.eng).dtlb ∧ (t.eng x.eng).inbox = (s.eng x.eng).inbox

/-- Every scratch cell reads as before, but those the context's stack owns and those named. -/
def ScratchKept (s t : State) (x : Iss) (stored : Nat → Prop) : Prop :=
  ∀ k, ¬(t.view x).ownsCell k → ¬stored k → (t.eng x.eng).cell k = (s.eng x.eng).cell k

/-- The instruction does what it does to its own context only: the context's view becomes `v`, and nothing else changes. -/
structure Becomes (s t : State) (x : Iss) (v : View) : Prop where
  view : t.view x = v
  quiet : Quiet s t x
  scratch : ScratchKept s t x fun _ => False

/-- The instruction acts on its own context and writes scratch: the view becomes `v`, its stack too unless a written cell lies in it; the
cells that `w` names hold what it says but where the context's stack owns them, every other cell is kept, and nothing else
changes. -/
structure Writes (s t : State) (x : Iss) (v : View) (w : Nat → Option Cell) : Prop where
  view : { t.view x with stack := v.stack } = v
  depth : (t.view x).stack.length = v.stack.length
  stack : (∀ k, w k ≠ none → ¬v.ownsCell k) → (t.view x).stack = v.stack
  quiet : Quiet s t x
  scratch : ScratchKept s t x fun k => w k ≠ none
  stored : ∀ k c, w k = some c → ¬v.ownsCell k → (t.eng x.eng).cell k = c

/-- The view after an instruction that has only put cells on the stack and gone on. -/
def State.moved (s : State) (x : Iss) (o : OpInfo) (stack : List Cell) : View :=
  { s.view x with stack := stack, pc := s.nextPc x o, pb := none }

/-- The command answers a next state in which it has done `v` to its context and nothing else. -/
def Does (i : Instr) (s : State) (x : Iss) (v : View) : Prop := ∃ t, exec i s = .next t ∧ Becomes s t x v

/-- The command answers a next state that satisfies `P`. -/
def Answers (i : Instr) (s : State) (P : State → Prop) : Prop := ∃ t, exec i s = .next t ∧ P t

/-- The instruction has placed a request that waits for its translation: the context stands in the queue of 09 R293. -/
def Asks (i : Instr) (s : State) (x : Iss) (v : View) : Prop :=
  Answers i s fun t => Becomes s { t with walkq := s.walkq } x v ∧ (x.eng, x.ctx) ∈ t.walkq

/-- A read-modify-write of address `a` under form `f` has left the view `v`: under P.LOCK the cell holds `put`; else the value `c` that it
writes there waits for the cycle after the read (04 R139). -/
def Modifies (i : Instr) (s : State) (x : Iss) (v : View) (f : Byte) (a : Nat) (c put : Cell) : Prop :=
  Answers i s fun t =>
    (hasPx x.px 0xF4 = true → Writes s t x v fun k => if k = a / 16 then some put else none) ∧
    (hasPx x.px 0xF4 = false → Becomes s t x v ∧ (t.ctxAt x).rmw = some (f, a, c))

/-- Consecutive cells from cell `k` on, as a map. -/
def cellsFrom (k : Nat) (l : List Cell) (j : Nat) : Option Cell := if k ≤ j then l[j - k]? else none

/-! ### Commands of the engines' contexts and of the units -/

/-- A completion cell has been pushed and the context is READY (03 R74, 05 R169). -/
def Ctx.completed (x : Ctx) (k : Cell) : Ctx := { x with win := k :: x.win, depth := x.depth + 1, wait := none, state := .ready }

/-- The context is in WAIT for a request of this kind that has come this far, and nothing has ended it. -/
def Ctx.waitsFor (x : Ctx) (r : Req) (st : Stage) : Prop :=
  x.state = .wait ∧ x.ending = false ∧ ∃ why, x.wait = some ⟨why, r, st, none⟩

/-- Nothing of the device differs but engine `e`. -/
structure OnlyEngine (s t : State) (e : EngId) : Prop where
  device : t = { s with engines := t.engines }
  engines : ∀ i, i ≠ e → t.eng i = s.eng i

/-- Of engine `e` nothing differs but context `n`, its iterative units, and contexts that were HELD for one of them. -/
structure OnlyContext (s t : State) (e : EngId) (n : CtxId) : Prop where
  engine : OnlyEngine s t e
  rest : t.eng e = { s.eng e with
    ctxs := (t.eng e).ctxs, divider := (t.eng e).divider, fdiv := (t.eng e).fdiv, ucode := (t.eng e).ucode }
  others : ∀ m, m ≠ n → (t.eng e).ctx m = (s.eng e).ctx m ∨
    (((s.eng e).ctx m).state = .held ∧ (t.eng e).ctx m = { (s.eng e).ctx m with state := .ready, heldOn := none } ∧
      ∃ u, (t.eng e).unitOf u = some m)

/-- Of the functions nothing differs but `f`. -/
def OtherFns (s t : State) (f : FnId) : Prop := ∀ g, g ≠ f → t.fn g = s.fn g

/-- Nothing of the device differs but function `f`, and what the device has sent since. -/
def OnlyFn (s t : State) (f : FnId) (o : List Out) : Prop := t = { s with fns := t.fns, out := s.out ++ o } ∧ OtherFns s t f

/-- An access of function `f` has been dropped, and counted for it and its port (13 R417, R421). -/
def Dropped (s t : State) (f : FnId) : Prop :=
  t.fn f = { s.fn f with drops := satInc (s.fn f).drops } ∧ OtherFns s t f ∧
    t.port (portOf f) = { s.port (portOf f) with drop := satInc (s.port (portOf f)).drop } ∧ t = { s with fns := t.fns, ports := t.ports }

/-- What an event's posting sends: the 32 bytes at the event ring's tail, and vector 1 unless it is masked (13 R420, R424). -/
def Fn.sends (q : Fn) (f : FnId) (v : Ev) : List Out :=
  .host f (BitVec.ofNat 64 (q.eqBase.toNat * 4096 + 32 * q.eqTail.toNat)) (v.bytes q.eqPhase) false :: if q.vec1.mask then [] else [.msix f true]

/-- The function after an event is written at the tail; a masked vector 1 keeps its message pending (13 R420, R424). -/
def Fn.evented (q : Fn) (tick : Word64) : Fn :=
  { q.wroteEvent tick with vec1 := { q.vec1 with pend := q.vec1.mask || q.vec1.pend } }

/-- The completion of a command without a slot (13 Table 13-7). -/
def Cmd.ends (c : Cmd) (q : Fn) (gk : Gk) (gcs : Word64) (status : Byte) (result : Nat) (detail : Word64) : Compl :=
  { gk := gk, gcs := gcs, result := BitVec.ofNat 64 result, hsn := cmdHsn c.bytes, sqhead := q.sqHead, status := status, cont := false
    rp := false, detail := detail, slot := none, resync := false }

/-- A command that is nowhere in progress: its bytes, start sequence and slot, and the context reserved for it. -/
abbrev Cmd.fresh (b : List Byte) (start : Word64) (slot : Option SlotId) (target : Option (EngId × CtxId)) : Cmd :=
  { bytes := b, start := start, slot := slot, target := target, waits := none, mute := false }

/-- The argument cells of a command whose template names integers alone: its header and three 64-bit numbers, the first of them 0 until its
data are gathered when it has SGL (13 R430, R431, Table 13-11). -/
def intArgs (p : Prog) (b : List Byte) : Option (List Cell) :=
  let n := fun i => cellInt (BitVec.ofNat 64 (fieldOf b (16 * i) 8)).toInt
  if p.tmpl = 0 ∧ zeroFrom b 40 8 = true ∧ zeroFrom b 56 8 = true then
    if cmdSgl b then
      if fieldOf b 16 8 % 16 = 0 ∧ 1 ≤ fieldOf b 24 2 ∧ fieldOf b 24 2 ≤ 256 then some [headerCell b, cellInt 0, n 2, n 3] else none
    else if zeroFrom b 24 8 then some [headerCell b, n 1, n 2, n 3]
    else none
  else none

/-- A slot of the hedge is free to be drawn: one of its reserve, or one of the shared stock (10 R312). -/
def State.slotFree (s : State) (h : HedgeId) : Prop :=
  ((s.liveSlots h).length < (s.hedge h).par.sres ∨ s.slotRoom h = .ok) ∧ ∃ n, (s.slot n).state = .idle

/-- Function `f` has done with command `c`, whose completion waits at the front end. -/
def Replied (s t : State) (f : FnId) (c : Cmd) (k : Compl) : Prop :=
  (t.fn f).cur = (s.fn f).cur.erase c ∧ (t.fn f).waiting = (s.fn f).waiting ++ [k]

/-- A command reads the record [va, va+n): its pages are resident and readable, nobody holds its lock exclusively or waits for it, its lock
unit has the entries, and no byte is poisoned (10 R340, 13 R434). -/
def State.recordReads (s : State) (h : HedgeId) (va n : Nat) (c : Cmd) : Prop :=
  (∀ a ∈ spanPages va n, ∃ at_ p level, (s.walk h a).1 = .leaf at_ p level ∧ bit p 1 = true ∧ p.res = true) ∧
    (∀ x ∈ (s.lockRec (lockKey h va)).holders, x.2 = false) ∧ (s.lockRec (lockKey h va)).waiters = [] ∧ s.readNoEntry h va c = false ∧
    ∀ x ∈ s.readRecord h va n, x.2 = false

/-- The image of a registration is in record memory at [va, va+n), resident, readable and, for code, executable, without poison (13 R449, 09
R297). -/
def State.imageAt (s : State) (h : HedgeId) (va n : Nat) (code : Bool) (bs : List Byte) : Prop :=
  (∀ a ∈ spanPages va n, ∃ at_ p level, (s.walk h a).1 = .leaf at_ p level ∧ bit p 1 = true ∧ (code = true → bit p 3 = true) ∧ p.res = true) ∧
    (∀ x ∈ s.readRecord h va n, x.2 = false) ∧ bs = (s.readRecord h va n).map (·.1)

/-- A zone of a drive in use has a free record, and its port takes drain writes (11 R363, 12 R412). -/
def State.zoneRoom (s : State) : Prop := ∃ p, p < 16 ∧ s.portUp p = true ∧ s.hwOpen p 0 = true ∧ (s.lehr.freeRecord p).isSome = true

/-- Of HBM no byte differs but those of [a, a+n). -/
def HbmKept (s t : State) (a n : Nat) : Prop := ∀ i, ¬(a ≤ i ∧ i < a + n) → t.hbmByte i = s.hbmByte i

/-- Of a mover's channels no other than this one is at work. -/
def State.aloneAt (s : State) (m : MovId) (ch : ChId) : Prop :=
  ∀ kc ∈ (s.mover m).chans, kc = (ch.val, s.chan m ch) ∨
    kc.1 ≠ ch.val ∧ kc.2.cur = none ∧ kc.2.flight = [] ∧ kc.2.orphan = none

/-- The mover's read engine serves this channel at once: nothing is in flight or halted there, and no STAGE goes ahead (12 R403, R404). -/
def State.servedNow (s : State) (m : MovId) (ch : ChId) : Prop :=
  let c := s.chan m ch
  s.aloneAt m ch ∧ (s.mover m).errhalt = false ∧ c.flight = [] ∧ c.orphan = none ∧ c.aborting = false ∧ 1 ≤ c.maxb.toNat ∧
    (c.prio = 3 ∨ s.stageMoves m = false)

/-- A channel whose descriptor's status has been written: HEAD has advanced, and what was in flight is discarded as it arrives. -/
def Chan.ended_ (c : Chan) (st : Byte) : Chan :=
  { c with
    head := BitVec.ofNat 12 ((c.head.toNat + 1) % 2 ^ c.log2.toNat), last := st, cur := none, issued := false, ended := none, stopAs := none
    fault := none, flushing := false, aborting := false
    flight := (c.flight.filter fun b => b.data.isNone).map fun b => { b with stale := true } }

/-- A channel that has read a descriptor of which nothing is moved yet. -/
abbrev Chan.starts (c : Chan) (d : Desc) : Chan :=
  { c with
    cur := some d, issued := false, done := 0, poison := false, diff := none, next := 0, stopAs := none, fault := none, flushing := false
    ended := none }

/-- The oldest command of an opcode that the function of hedge `h` has taken up is `c`, and its rings take completions; the bounce queue,
which goes first, is empty (02 R52). -/
def State.doing (s : State) (f : FnId) (op : Nat) (h : HedgeId) (c : Cmd) : Prop :=
  s.bounced = [] ∧ (s.fn f).hedge = some h ∧ (s.fn f).oldest op = some c ∧ c.mute = false ∧ (s.fn f).posting = true

/-- The oldest command of an opcode that an admin ring has taken up is `c`, and the ring takes completions; the bounce queue, which goes first,
is empty (02 R52). -/
def State.adminDoing (s : State) (f : FnId) (op : Nat) (c : Cmd) : Prop :=
  s.bounced = [] ∧ isPf f = true ∧ (s.fn f).hedge = none ∧ (s.fn f).oldest op = some c ∧ c.mute = false ∧ (s.fn f).posting = true

/-! ### The memories -/

/-- HBM, CCM and the drives are in canonical form. -/
def State.memOk (s : State) : Bool := Memory.wf s.hbm && Memory.wf s.ccm && Memory.wf s.disk

end Sys2Proof.Machine
end

