-- ==== Sys2Proof/Certificates/Slice0/Obligations.lean ====
section
/-! DEFINITION. The statements for the provers. -/

open Sys2Proof Sys2Proof.Machine

/-! ## Stack, local and constant instructions -/

/-- 05 R145, R147: each instruction of the stack group turns the stack, top first here, as Table 5-1 states, and does
nothing else. 05 R145, R147: PICK n copies the cell n below the top, for n of 0 to 3; and LDL and STL copy a cell from
and to a local, STL at PL2 to a local that is not guarded. 05 R146, 06 R193: the constants that instructions push, all
with P = 0 and G = 0; a PUSHD immediate is checked. -/
def Obligations.StackLocalAndConstantInstructions : Prop :=
  (∀ (s : State) (x : Iss),
     (s.issues x {} = true → Does (.nop x) s x (s.moved x {} (s.view x).stack)) ∧
     ∀ (a b c : Cell) (r : List Cell), a.wellFormed = true → b.wellFormed = true → c.wellFormed = true →
       (s.issues x { pops := 1, pushes := 2, reads := 1 } = true → (s.view x).stack = a :: r →
         Does (.dup x) s x (s.moved x { pops := 1, pushes := 2, reads := 1 } (a :: a :: r))) ∧
       (s.issues x { pops := 1 } = true → (s.view x).stack = a :: r → Does (.drop x) s x (s.moved x { pops := 1 } r)) ∧
       (s.issues x { pops := 2, pushes := 2, reads := 2 } = true → (s.view x).stack = b :: a :: r →
         Does (.swap x) s x (s.moved x { pops := 2, pushes := 2, reads := 2 } (a :: b :: r))) ∧
       (s.issues x { pops := 2, pushes := 3, reads := 2 } = true → (s.view x).stack = b :: a :: r →
         Does (.over x) s x (s.moved x { pops := 2, pushes := 3, reads := 2 } (a :: b :: a :: r)) ∧
         Does (.tuck x) s x (s.moved x { pops := 2, pushes := 3, reads := 2 } (b :: a :: b :: r))) ∧
       (s.issues x { pops := 3, pushes := 3, reads := 3 } = true → (s.view x).stack = c :: b :: a :: r →
         Does (.rot x) s x (s.moved x { pops := 3, pushes := 3, reads := 3 } (a :: c :: b :: r))) ∧
       (s.issues x { pops := 2, pushes := 1, reads := 1 } = true → (s.view x).stack = b :: a :: r →
         Does (.nip x) s x (s.moved x { pops := 2, pushes := 1, reads := 1 } (b :: r))) ∧
       (s.issues x { pops := 2, pushes := 4, reads := 2 } = true → (s.view x).stack = b :: a :: r →
         Does (.dup2 x) s x (s.moved x { pops := 2, pushes := 4, reads := 2 } (b :: a :: b :: a :: r))) ∧
       (s.issues x { pops := 2 } = true → (s.view x).stack = b :: a :: r → Does (.drop2 x) s x (s.moved x { pops := 2 } r))) ∧
  (∀ (s : State) (x : Iss),
     (∀ (imm : Byte) (l r : List Cell), imm.toNat ≤ 3 → l.length = imm.toNat + 1 → (s.view x).stack = l ++ r →
       (∀ a ∈ l, a.wellFormed = true) →
       s.issues x { imm := 1, pops := imm.toNat + 1, pushes := imm.toNat + 2, reads := imm.toNat + 1 } = true →
       ∃ a, l.getLast? = some a ∧ Does (.pick x imm) s x
         (s.moved x { imm := 1, pops := imm.toNat + 1, pushes := imm.toNat + 2, reads := imm.toNat + 1 } (a :: (l ++ r)))) ∧
     (∀ n : Fin 16, s.issues x { pushes := 1, readsLocals := [n.val] } = true → ((s.ctxAt x).local n.val).wellFormed = true →
       Does (.ldl x n) s x
         (s.moved x { pushes := 1, readsLocals := [n.val] } ((s.ctxAt x).local n.val :: (s.view x).stack))) ∧
     (∀ (n : Fin 16) (a : Cell) (r : List Cell), s.issues x { pops := 1, reads := 1 } = true → (s.view x).stack = a :: r →
       a.wellFormed = true → ((s.view x).pl = 2 → ((s.ctxAt x).local n.val).g = false) →
       Does (.stl x n) s x
         { s.moved x { pops := 1, reads := 1 } r with locals := tset Cell.nil (s.view x).locals n.val a }) ∧
     ∀ (n : Fin 16) (a : Cell) (r : List Cell), s.issues x { pops := 1, reads := 1 } = true → (s.view x).stack = a :: r →
       a.wellFormed = true → (s.view x).pl = 2 → ((s.ctxAt x).local n.val).g = true →
       exec (.stl x n) s = .next (s.faults x (fKey 2 0))) ∧
  (∀ (s : State) (x : Iss),
     (s.issues x { pushes := 1 } = true →
       Does (.pushtrue x) s x (s.moved x { pushes := 1 } (⟨8, 1, false, false, 0⟩ :: (s.view x).stack)) ∧
       Does (.pushfalse x) s x (s.moved x { pushes := 1 } (⟨8, 0, false, false, 0⟩ :: (s.view x).stack)) ∧
       Does (.pushnil x) s x (s.moved x { pushes := 1 } (⟨0, 0, false, false, 0⟩ :: (s.view x).stack))) ∧
     (∀ imm : BitVec 16, s.issues x { imm := 1, wmark := true, pushes := 1 } = true →
       Does (.pushiS x imm) s x (s.moved x { imm := 1, wmark := true, pushes := 1 }
         (⟨1, 0, false, false, if hasPx x.px 0xF0 then imm.signExtend 128 else (imm.setWidth 8).signExtend 128⟩ :: (s.view x).stack))) ∧
     (∀ imm : BitVec 64, s.issues x { imm := 4, wmark := true, pushes := 1 } = true →
       Does (.pushiL x imm) s x (s.moved x { imm := 4, wmark := true, pushes := 1 }
         (⟨1, 0, false, false, if hasPx x.px 0xF0 then imm.signExtend 128 else (imm.setWidth 32).signExtend 128⟩ :: (s.view x).stack))) ∧
     (∀ imm : BitVec 64, s.issues x { imm := 8, pushes := 1 } = true →
       Does (.pushfp x imm) s x (s.moved x { imm := 8, pushes := 1 } (⟨3, 0, false, false, imm.setWidth 128⟩ :: (s.view x).stack))) ∧
     (∀ imm : BitVec 32,
       let o : OpInfo := { imm := 2, wmark := true, disp := some (dispOf x.px imm, 0), pushes := 1 }
       s.issues x o = true →
       Does (.pusha x imm) s x (s.moved x o
         (⟨9, 0, false, false, (BitVec.ofInt 19 (o.target x.px (s.view x).pc.toNat)).setWidth 128⟩ :: (s.view x).stack))) ∧
     ∀ imm : Payload, s.issues x { imm := 16, pushes := 1 } = true →
       (decBad (decStorage imm) = none → Does (.pushd x imm) s x (s.moved x { imm := 16, pushes := 1 }
         (⟨2, 0, false, false, decStorage imm⟩ :: (s.view x).stack))) ∧
       ∀ i, decBad (decStorage imm) = some i → exec (.pushd x imm) s = .next (s.faults x (fData 1 0 i)))

/-! ## Arithmetic -/

/-- 05 R143, R158: each polymorphic instruction of two operands replaces them by the result of the form that their tags
select, for every form, prefix and accepted pair of operands; DIV and REM when their iterative unit is free. 05 R153, R156, R162, 06
R188, R190: DIV and REM of every form in particular, on operands of one TYPE, or of two of INT, DEC and FLT under P.CVT. The INT and the
DEC form give the quotient truncated toward zero and the remainder with the sign of the dividend, and fault on a zero divisor, the INT
form also on -2^63 by -1; the FLT form gives the binary64 quotient and remainder. -/
def Obligations.PolymorphicInstructionsReplaceTheirOperands : Prop :=
  (∀ (s : State) (x : Iss) (i : Instr) (op : BinOp) (code : Nat) (a b c : Cell) (r : List Cell),
    (i, op, code) ∈ [(Instr.add x, BinOp.add, 0x40), (.sub x, .sub, 0x41), (.mul x, .mul, 0x42), (.div x, .div, 0x43), (.rem x, .rem, 0x44)] →
    let o := polyInfo (!op.divides)
    let t := op.timing (binForm (s.env x o).cvt a b)
    s.issues x o = true → (s.view x).stack = b :: a :: r → binTags (s.env x o) a b = .ok () →
    polyResult (s.env x o) op (binForm (s.env x o).cvt a b) a b = .ok c → (∀ u, t.2.1 = some u → s.unitReady x code u t.1 = true) →
    Does i s x (s.moved x o (c :: r))) ∧
  ∀ (s : State) (x : Iss) (a b : Cell) (r : List Cell),
    let o := polyInfo false
    let rm := (s.env x o).rm
    let p := a.p || b.p
    let whole := fun c : Cell => if c.ty = tyINT then c.int else decVal c.pay
    let real := fun c : Cell => if c.ty = tyFLT then fltOf c.lo else fltOf (fltOfInt rm (whole c))
    s.issues x o = true → (s.view x).stack = b :: a :: r → a.sub = 0 → b.sub = 0 →
    (∀ c ∈ [a, b], c.ty = tyINT ∨ c.ty = tyFLT ∨ (c.ty = tyDEC ∧ (c.p = true ∨ decBad c.pay = none))) →
    (a.ty = b.ty ∨ hasPx x.px 0xF1 = true) →
    (a.ty = tyINT → b.ty = tyINT →
      (b.int ≠ 0 → ¬(a.int = -2 ^ 63 ∧ b.int = -1) →
        (s.unitReady x 0x43 .divider 20 = true → Does (.div x) s x (s.moved x o (cellInt (a.int.tdiv b.int) p :: r))) ∧
        (s.unitReady x 0x44 .divider 20 = true → Does (.rem x) s x (s.moved x o (cellInt (a.int.tmod b.int) p :: r)))) ∧
      (b.int = 0 ∨ (a.int = -2 ^ 63 ∧ b.int = -1) →
        exec (.div x) s = .next (s.faults x (fArith 2)) ∧ exec (.rem x) s = .next (s.faults x (fArith 2)))) ∧
    (a.ty = tyDEC ∨ b.ty = tyDEC → a.ty ≠ tyFLT → b.ty ≠ tyFLT →
      let q := (whole a).tdiv (whole b)
      let m := (whole a).tmod (whole b)
      (whole b ≠ 0 →
        (s.unitReady x 0x43 .ucode 36 = true → Does (.div x) s x (s.moved x o (cellDec (decMake (decide (q < 0)) q.natAbs) p :: r))) ∧
        (s.unitReady x 0x44 .ucode 36 = true → Does (.rem x) s x (s.moved x o (cellDec (decMake (decide (m < 0)) m.natAbs) p :: r)))) ∧
      (whole b = 0 → exec (.div x) s = .next (s.faults x (fArith 2)) ∧ exec (.rem x) s = .next (s.faults x (fArith 2)))) ∧
    (a.ty = tyFLT ∨ b.ty = tyFLT →
      (s.unitReady x 0x43 .fdiv 14 = true → Does (.div x) s x (s.moved x o (cellFlt (fltDiv rm (real a) (real b)) p :: r))) ∧
      (s.unitReady x 0x44 .fdiv 22 = true → Does (.rem x) s x (s.moved x o (cellFlt (fltRem (real a) (real b)) p :: r))))

/-- 05 R155: INT operands of ADD, SUB, MUL, NEG, ABS and MULI give the exact result when it is in range, the nearer end
under P.SAT when it is not, and else the arithmetic fault. 05 R155, R162, 06 Table 6-2: NEG and ABS of DEC and FLT
operands; CMP for every form (05 R163). 05 R157: AND, OR, XOR and NOT act bitwise on INT operands and on the truth of
BOOL operands; the shifts take an amount of 0 to 63 and refuse any other. -/
def Obligations.IntegerAndBitwiseResults : Prop :=
  (∀ (s : State) (x : Iss) (i : Instr) (o : OpInfo) (a b : Cell) (r l : List Cell) (v : Int) (p : Bool),
     a.ty = tyINT → a.sub = 0 → b.ty = tyINT → b.sub = 0 →
     (i, o, l, v, p) ∈
       [(Instr.add x, polyInfo true, b :: a :: r, a.int + b.int, a.p || b.p),
        (.sub x, polyInfo true, b :: a :: r, a.int - b.int, a.p || b.p),
        (.mul x, polyInfo true, b :: a :: r, a.int * b.int, a.p || b.p),
        (.muli x, { sat := true, pops := 2, pushes := 1, reads := 2 }, b :: a :: r, a.int * b.int, a.p || b.p),
        (.neg x, { sat := true, pops := 1, pushes := 1, reads := 1 }, a :: r, -a.int, a.p),
        (.abs x, { sat := true, pops := 1, pushes := 1, reads := 1 }, a :: r, (a.int.natAbs : Int), a.p)] →
     s.issues x o = true → (s.view x).stack = l →
     (-2 ^ 63 ≤ v ∧ v < 2 ^ 63 → Does i s x (s.moved x o (cellInt v p :: r))) ∧
     (hasPx x.px 0xF3 = true → v < -2 ^ 63 → Does i s x (s.moved x o (cellInt (-2 ^ 63) p :: r))) ∧
     (hasPx x.px 0xF3 = true → 2 ^ 63 ≤ v → Does i s x (s.moved x o (cellInt (2 ^ 63 - 1) p :: r))) ∧
     (hasPx x.px 0xF3 = false → ¬(-2 ^ 63 ≤ v ∧ v < 2 ^ 63) → exec i s = .next (s.faults x (fArith 1)))) ∧
  (∀ (s : State) (x : Iss) (a b : Cell) (r : List Cell),
     (∀ (i : Instr) (f : Int → Int), (i, f) ∈ [(Instr.neg x, fun v => -v), (.abs x, fun v => (v.natAbs : Int))] →
       s.issues x { sat := true, pops := 1, pushes := 1, reads := 1 } = true → (s.view x).stack = a :: r → a.ty = tyDEC → a.sub = 0 →
       decUse 0 a = .ok () →
       Does i s x (s.moved x { sat := true, pops := 1, pushes := 1, reads := 1 }
         (cellDec (decMake (decide (f (decVal a.pay) < 0)) (f (decVal a.pay)).natAbs) a.p :: r))) ∧
     (∀ (i : Instr) (f : Word64 → Word64),
       (i, f) ∈ [(Instr.neg x, fun v => v ^^^ 0x8000000000000000), (.abs x, fun v => v &&& 0x7FFFFFFFFFFFFFFF)] →
       s.issues x { sat := true, pops := 1, pushes := 1, reads := 1 } = true → (s.view x).stack = a :: r → a.ty = tyFLT → a.sub = 0 →
       Does i s x (s.moved x { sat := true, pops := 1, pushes := 1, reads := 1 }
         (cellFlt (if fltOf a.lo = .nan then 0x7FF8000000000000 else f a.lo) a.p :: r))) ∧
     let o : OpInfo := { cvt := true, pops := 2, pushes := 1, reads := 2 }
     let form := binForm (s.env x o).cvt a b
     s.issues x o = true → (s.view x).stack = b :: a :: r → binTags (s.env x o) a b = .ok () →
     (usesDec form (s.env x o).cvt a = true → decUse 1 a = .ok ()) → (usesDec form (s.env x o).cvt b = true → decUse 0 b = .ok ()) →
     Does (.cmp x) s x (s.moved x o
       (cellInt (match asExt form (s.env x o).cvt a, asExt form (s.env x o).cvt b with
         | some u, some w => ordInt (u.cmp w)
         | _, _ => 2) (a.p || b.p) :: r))) ∧
  (∀ (s : State) (x : Iss) (a b : Cell) (r : List Cell), a.wellFormed = true → b.wellFormed = true →
     (s.issues x { pops := 2, pushes := 1, reads := 2 } = true → (s.view x).stack = b :: a :: r →
       (∀ (i : Instr) (f : Word64 → Word64 → Word64),
         (i, f) ∈ [(Instr.and x, fun p q => p &&& q), (.or x, fun p q => p ||| q), (.xor x, fun p q => p ^^^ q)] →
         a.ty = tyINT → b.ty = tyINT →
         Does i s x (s.moved x { pops := 2, pushes := 1, reads := 2 }
           (⟨1, 0, a.p || b.p, false, (f a.lo b.lo).signExtend 128⟩ :: r))) ∧
       (∀ (i : Instr) (f : Bool → Bool → Bool),
         (i, f) ∈ [(Instr.and x, fun p q => p && q), (.or x, fun p q => p || q), (.xor x, fun p q => p != q)] →
         a.ty = tyBOOL → b.ty = tyBOOL →
         Does i s x (s.moved x { pops := 2, pushes := 1, reads := 2 }
           (⟨8, if f (a.sub == 1) (b.sub == 1) then 1 else 0, a.p || b.p, false, 0⟩ :: r))) ∧
       (∀ (i : Instr) (f : Word64 → Nat → Word64),
         (i, f) ∈ [(Instr.shl x, fun v n => v <<< n), (.shr x, fun v n => v >>> n), (.sar x, fun v n => v.sshiftRight n)] →
         a.ty = tyINT → b.ty = tyINT →
         (0 ≤ b.int ∧ b.int ≤ 63 → Does i s x (s.moved x { pops := 2, pushes := 1, reads := 2 }
           (⟨1, 0, a.p || b.p, false, (f a.lo b.int.toNat).signExtend 128⟩ :: r))) ∧
         (¬(0 ≤ b.int ∧ b.int ≤ 63) → exec i s = .next (s.faults x (fData 4 0))))) ∧
     (s.issues x { pops := 1, pushes := 1, reads := 1 } = true → (s.view x).stack = a :: r →
       (a.ty = tyINT → Does (.not x) s x (s.moved x { pops := 1, pushes := 1, reads := 1 }
         (⟨1, 0, a.p, false, (~~~a.lo).signExtend 128⟩ :: r))) ∧
       (a.ty = tyBOOL → Does (.not x) s x (s.moved x { pops := 1, pushes := 1, reads := 1 }
         (⟨8, if a.sub = 1 then 0 else 1, a.p, false, 0⟩ :: r)))))

/-- 05 R161, Table 5-6: the binary64 instructions on FLT operands, rounded once under P.RND or PSW.RM; FDIV and FSQRT when
the divide unit is free. 06 R194, R196, R199, R201, R203: the decimal instructions on valid DEC operands; a zero
divisor and a result of more than 31 digits fault. -/
def Obligations.Binary64AndDecimalResults : Prop :=
  (∀ (s : State) (x : Iss) (a b c : Cell) (r : List Cell),
     a.ty = tyFLT → a.sub = 0 → b.ty = tyFLT → b.sub = 0 → c.ty = tyFLT → c.sub = 0 →
     (let o : OpInfo := { rnd := true, pops := 2, pushes := 1, reads := 2 }
      let m := (s.env x o).rm
      s.issues x o = true → (s.view x).stack = b :: a :: r →
       Does (.fadd x) s x (s.moved x o (cellFlt (fltAdd m (fltOf a.lo) (fltOf b.lo)) (a.p || b.p) :: r)) ∧
       Does (.fsub x) s x (s.moved x o (cellFlt (fltAdd m (fltOf a.lo) (fltOf b.lo).neg) (a.p || b.p) :: r)) ∧
       Does (.fmul x) s x (s.moved x o (cellFlt (fltMul m (fltOf a.lo) (fltOf b.lo)) (a.p || b.p) :: r)) ∧
       (s.unitReady x 0x54 .fdiv 14 = true →
         Does (.fdiv x) s x (s.moved x o (cellFlt (fltDiv m (fltOf a.lo) (fltOf b.lo)) (a.p || b.p) :: r)))) ∧
     (let o : OpInfo := { rnd := true, pops := 3, pushes := 1, reads := 3 }
      s.issues x o = true → (s.view x).stack = c :: b :: a :: r →
       Does (.fma x) s x (s.moved x o
         (cellFlt (fltFma (s.env x o).rm (fltOf a.lo) (fltOf b.lo) (fltOf c.lo)) (a.p || b.p || c.p) :: r))) ∧
     let o : OpInfo := { rnd := true, pops := 1, pushes := 1, reads := 1 }
     s.issues x o = true → (s.view x).stack = a :: r → s.unitReady x 0x55 .fdiv 16 = true →
       Does (.fsqrt x) s x (s.moved x o (cellFlt (fltSqrt (s.env x o).rm (fltOf a.lo)) a.p :: r))) ∧
  (∀ (s : State) (x : Iss) (a b : Cell) (r : List Cell), a.ty = tyDEC → a.sub = 0 → b.ty = tyDEC → b.sub = 0 →
     decUse 1 a = .ok () → decUse 0 b = .ok () →
     (s.issues x { pops := 2, pushes := 2, reads := 2 } = true → (s.view x).stack = b :: a :: r →
       (let m := decMag a.pay * decMag b.pay
        let neg := decide (m ≠ 0) && (decMinus a.pay != decMinus b.pay)
        Does (.dmul x) s x (s.moved x { pops := 2, pushes := 2, reads := 2 }
         (cellDec (decMakeSigned neg (m / 10 ^ 31)) (a.p || b.p) :: cellDec (decMakeSigned neg (m % 10 ^ 31)) (a.p || b.p) :: r))) ∧
       (decMag b.pay ≠ 0 → s.unitReady x 0x61 .ucode 36 = true →
         Does (.ddiv x) s x (s.moved x { pops := 2, pushes := 2, reads := 2 }
           (cellDec (decMake (decMinus a.pay) (decMag a.pay % decMag b.pay)) (a.p || b.p) ::
             cellDec (decMake (decMinus a.pay != decMinus b.pay) (decMag a.pay / decMag b.pay)) (a.p || b.p) :: r))) ∧
       (decMag b.pay = 0 → exec (.ddiv x) s = .next (s.faults x (fArith 2)))) ∧
     (s.issues x { pops := 2, pushes := 3, reads := 2 } = true → (s.view x).stack = b :: a :: r →
       Does (.dcmp x) s x (s.moved x { pops := 2, pushes := 3, reads := 2 }
         (cellInt (ordInt (compare (decVal a.pay) (decVal b.pay))) (a.p || b.p) :: b :: a :: r))) ∧
     ∀ imm : Byte,
       (let o : OpInfo := { imm := 1, sat := true, pops := 1, pushes := 1, reads := 1 }
        let m := decMag b.pay * 10 ^ imm.toNat
        imm.toNat < 32 → s.issues x o = true → (s.view x).stack = b :: r →
         (m < 10 ^ 31 → Does (.dshl x imm) s x (s.moved x o (cellDec (decMake (decMinus b.pay) m) b.p :: r))) ∧
         (10 ^ 31 ≤ m → hasPx x.px 0xF3 = true →
           Does (.dshl x imm) s x (s.moved x o (cellDec (decMake (decMinus b.pay) (10 ^ 31 - 1)) b.p :: r))) ∧
         (10 ^ 31 ≤ m → hasPx x.px 0xF3 = false → exec (.dshl x imm) s = .next (s.faults x (fArith 1)))) ∧
       (let o : OpInfo := { imm := 1, rnd := true, pops := 1, pushes := 1, reads := 1 }
        let k := roundDiv (s.env x o).rm (decMinus b.pay) (decMag b.pay) (10 ^ imm.toNat)
        imm.toNat < 32 → s.issues x o = true → (s.view x).stack = b :: r →
         Does (.dshr x imm) s x (s.moved x o (cellDec (decMake (decMinus b.pay) k) b.p :: r)) ∧
         (k * 10 ^ imm.toNat < 10 ^ 31 →
           Does (.drnd x imm) s x (s.moved x o (cellDec (decMake (decMinus b.pay) (k * 10 ^ imm.toNat)) b.p :: r))) ∧
         (10 ^ 31 ≤ k * 10 ^ imm.toNat → exec (.drnd x imm) s = .next (s.faults x (fArith 1)))) ∧
       let o : OpInfo := { imm := 1, rnd := true, pops := 2, pushes := 1, reads := 2 }
       imm.toNat / 64 = 1 → imm.toNat ≠ 127 → s.issues x o = true → (s.view x).stack = b :: a :: r →
       ∀ m neg, pairOf a b = .ok (m, neg) →
         (roundDiv (s.env x o).rm neg m (10 ^ (imm.toNat - 64)) < 10 ^ 31 →
           Does (.dshr x imm) s x (s.moved x o
             (cellDec (decMake neg (roundDiv (s.env x o).rm neg m (10 ^ (imm.toNat - 64)))) (a.p || b.p) :: r))) ∧
         (10 ^ 31 ≤ roundDiv (s.env x o).rm neg m (10 ^ (imm.toNat - 64)) → exec (.dshr x imm) s = .next (s.faults x (fArith 1))))

/-- 05 R159, R160: TAGOF pushes the tag byte, and the conversions replace their operand by what R160 gives: a source of the
target TYPE stays as it is, an INT or a valid DEC converts, a FLT is rounded, and a source without a result in range, a NaN, an
infinity and an invalid DEC fault. Where the spec can be read in two ways this rests on the model's reading in log 25. -/
def Obligations.TagsAndConversions : Prop :=
  ∀ (s : State) (x : Iss) (a c : Cell) (r : List Cell), a.wellFormed = true → (s.view x).stack = a :: r →
    (s.issues x { pops := 1, pushes := 2, reads := 1 } = true →
      Does (.tagof x) s x (s.moved x { pops := 1, pushes := 2, reads := 1 }
        (⟨1, 0, a.p, false, BitVec.ofNat 128 (a.ty.toNat + 16 * a.sub.toNat + 64 * a.p.toNat + 128 * a.g.toNat)⟩ :: a :: r))) ∧
    let o : OpInfo := { rnd := true, pops := 1, pushes := 1, reads := 1 }
    let rm := (s.env x o).rm
    let gives := fun (i : Instr) (c : Cell) => Does i s x (s.moved x o (c :: r))
    let fails := fun (i : Instr) (f : SFault) => exec i s = .next (s.faults x f)
    s.issues x o = true →
    (a.ty = tyINT →
      gives (.cvti x) a ∧ gives (.cvtd x) (cellDec (decMake (decide (a.int < 0)) a.int.natAbs) a.p) ∧
      gives (.cvtf x) (cellFlt (fltOfInt rm a.int) a.p)) ∧
    (a.ty = tyDEC →
      (a.p = true ∨ decBad a.pay = none →
        (-2 ^ 63 ≤ decVal a.pay ∧ decVal a.pay < 2 ^ 63 → gives (.cvti x) (cellInt (decVal a.pay) a.p)) ∧
        (¬(-2 ^ 63 ≤ decVal a.pay ∧ decVal a.pay < 2 ^ 63) → fails (.cvti x) (fArith 3)) ∧
        gives (.cvtd x) a ∧ gives (.cvtf x) (cellFlt (fltOfInt rm (decVal a.pay)) a.p)) ∧
      ∀ i, a.p = false → decBad a.pay = some i →
        fails (.cvti x) (fData 1 0 i) ∧ fails (.cvtd x) (fData 1 0 i) ∧ fails (.cvtf x) (fData 1 0 i)) ∧
    (a.ty = tyFLT →
      gives (.cvtf x) a ∧
      (∀ neg mag ex, fltOf a.lo = .fin neg mag ex →
        let m := roundDiv rm neg (mag * 2 ^ ex) (2 ^ 1074)
        let v : Int := if neg = true then -(m : Int) else m
        (-2 ^ 63 ≤ v ∧ v < 2 ^ 63 → gives (.cvti x) (cellInt v a.p)) ∧ (¬(-2 ^ 63 ≤ v ∧ v < 2 ^ 63) → fails (.cvti x) (fArith 3)) ∧
        (m < 10 ^ 31 → gives (.cvtd x) (cellDec (decMakeSigned neg m) a.p)) ∧ (10 ^ 31 ≤ m → fails (.cvtd x) (fArith 3))) ∧
      ((∀ neg mag ex, fltOf a.lo ≠ .fin neg mag ex) → fails (.cvti x) (fArith 3) ∧ fails (.cvtd x) (fArith 3))) ∧
    ((formOf a.ty).isSome ∨ (s.env x o).nochk = true →
      (toInt (s.env x o) a = .ok c → gives (.cvti x) c) ∧ (toDec (s.env x o) a = .ok c → gives (.cvtd x) c) ∧
      (toFlt (s.env x o) a = .ok c → gives (.cvtf x) c))

/-! ## Branches, calls, frames, exceptions -/

/-- 03 R105, R107, 05 R164, R165: a branch leaves its delay slot next, with the target pending when it is taken, and else
NT and, for the annulling form, ANN. Where the spec can be read in two ways this rests on the model's reading in log
12. -/
def Obligations.BranchesLeaveAPendingOutcome : Prop :=
  ∀ (s : State) (x : Iss) (annul : Bool) (imm : BitVec 32),
    let after := fun (o : OpInfo) (taken : Bool) (l : List Cell) =>
      { s.view x with
        stack := l
        pc := BitVec.ofNat 19 ((s.view x).pc.toNat + o.len x.px)
        pb := some (if taken then ⟨false, false, BitVec.ofNat 19 (o.target x.px (s.view x).pc.toNat).toNat⟩ else ⟨true, annul, 0⟩) }
    (s.issues x (branchInfo x.px imm 0) = true →
      Does (.br x annul imm) s x (after (branchInfo x.px imm 0) true (s.view x).stack)) ∧
    ∀ (a : Cell) (r : List Cell), (s.view x).stack = a :: r → a.wellFormed = true → a.p = false →
      (a.ty = tyINT ∨ a.ty = tyBOOL → s.issues x (branchInfo x.px imm 1) = true →
        let zero := decide ((a.ty = tyINT ∧ a.lo = 0) ∨ (a.ty = tyBOOL ∧ a.sub = 0))
        Does (.brz x annul imm) s x (after (branchInfo x.px imm 1) zero r) ∧
        Does (.brnz x annul imm) s x (after (branchInfo x.px imm 1) (!zero) r)) ∧
      let o : OpInfo := { imm := 4, delayBad := true, pops := 1, pushes := 1, reads := 1, disp := some ((imm.extractLsb' 8 24).toInt, 1) }
      s.issues x o = true → (imm.extractLsb' 0 4).toNat < 12 → imm.getLsbD 7 = false →
      Does (.brt x annul imm) s x (after o
        (decide (a.ty = imm.extractLsb' 0 4 ∧ (imm.getLsbD 6 = true → a.sub = imm.extractLsb' 4 2))) (a :: r))

/-- 03 R93 to R95, 05 R166: CALL and CALLX push a return address and transfer; RET returns through the newest entry.
With ENG_CTL.RSO set to TRAP a full or an empty return stack faults instead. 03 R97, R98, R99: CALLM writes its frame
at FP and transfers when the frame fits below FL, lies in open regions and, at PL2, meets no guarded cell; RETM of a
frame that passes the checks restores the named locals, FP and the pc. That RETM restores over a guarded local at PL2
is the model's choice (log 64). Where the spec can be read in two ways this rests on the model's readings in logs 11
and 64. -/
def Obligations.CallsReturnsAndFrames : Prop :=
  (∀ (s : State) (x : Iss),
     let v := s.view x
     let called := fun (o : OpInfo) (target : BitVec 19) (l : List Cell) =>
       { v with
         stack := l, pc := target, pb := none, rsp := v.rsp + 1, rsc := if 16 ≤ v.rsc.toNat then v.rsc else v.rsc + 1
         rs := tset RsEntry.empty v.rs v.rsp.toNat ⟨true, BitVec.ofNat 19 (v.pc.toNat + o.len x.px)⟩ }
     let traps := (s.eng x.eng).rso
     (∀ imm : BitVec 32,
       let o : OpInfo := { imm := 2, wmark := true, delayBad := true, disp := some (dispOf x.px imm, 0) }
       s.issues x o = true →
       (traps = false ∨ v.rsc ≠ 16 → Does (.call x imm) s x (called o (BitVec.ofInt 19 (o.target x.px v.pc.toNat)) v.stack)) ∧
       (traps = true → v.rsc = 16 → exec (.call x imm) s = .next (s.faults x (fRs 1 v.rsp.toNat)))) ∧
     (∀ (a : Cell) (r : List Cell), s.issues x { delayBad := true, pops := 1, reads := 1 } = true → v.stack = a :: r → a.ty = tyCODE →
       a.sub = 0 → a.p = false → a.pay.toNat < 2 ^ 19 → traps = false ∨ v.rsc ≠ 16 →
       Does (.callx x) s x (called { delayBad := true, pops := 1, reads := 1 } (a.pay.extractLsb' 0 19) r)) ∧
     (s.issues x { delayBad := true, readsRs := true } = true →
       (∀ en, tget RsEntry.empty v.rs (v.rsp - 1).toNat = en → en.v = true → traps = false ∨ v.rsc ≠ 0 →
         Does (.ret x) s x { v with pc := en.addr, pb := none, rsp := v.rsp - 1, rsc := if v.rsc = 0 then 0 else v.rsc - 1 }) ∧
       (traps = true → v.rsc = 0 → exec (.ret x) s = .next (s.faults x (fRs 2 v.rsp.toNat))) ∧
       (traps = false ∨ v.rsc ≠ 0 → (tget RsEntry.empty v.rs (v.rsp - 1).toNat).v = false →
         exec (.ret x) s = .next (s.faults x (fRs 3 v.rsp.toNat))))) ∧
  (∀ (s : State) (x : Iss),
     let v := s.view x
     let c := s.ctxAt x
     let e := s.eng x.eng
     (∀ imm : BitVec 64,
       let mask := imm.toNat % 65536
       let disp := if hasPx x.px 0xF0 then (imm.extractLsb' 16 32).toInt else (imm.extractLsb' 16 16).toInt
       let o : OpInfo := { imm := 4, wmark := true, delayBad := true, disp := some (disp, 2), readsLocals := maskLocals mask,
                           badField := if hasPx x.px 0xF0 = true ∧ imm.toNat / 2 ^ 48 ≠ 0 then some 6 else none }
       let n := (maskLocals mask).length + 3
       s.issues x o = true → v.fp.toNat + 16 * n ≤ v.fl.toNat → e.open? v.pl.toNat v.fp.toNat (16 * n) = true →
       (∀ i, i < n → v.pl = 2 → (e.cell (v.fp.toNat / 16 + i)).g = false) →
       Answers (.callm x imm) s fun t =>
         Writes s t x { v with pc := BitVec.ofInt 19 (o.target x.px v.pc.toNat), pb := none, fp := BitVec.ofNat 18 (v.fp.toNat + 16 * n) }
           (cellsFrom (v.fp.toNat / 16)
             ([⟨9, 1, false, false, (BitVec.ofNat 19 (v.pc.toNat + o.len x.px)).setWidth 128⟩,
               ⟨1, 0, false, false, BitVec.ofNat 128 (v.fp.toNat + 2 ^ 32 * mask)⟩] ++
               (maskLocals mask).map (tget Cell.nil v.locals) ++
               [⟨1, 0, false, false, BitVec.ofNat 128 (maskLocals mask).length⟩]))) ∧
     (∀ (b n mask : Nat), s.issues x { delayBad := true } = true → v.fp.toNat = b + 16 * (n + 3) → v.fbase.toNat ≤ b →
       (e.cell ((v.fp.toNat - 16) / 16)).pay = BitVec.ofNat 128 n → n ≤ 16 →
       (e.cell ((v.fp.toNat - 16) / 16)).ty = tyINT → (e.cell ((v.fp.toNat - 16) / 16)).sub = 0 →
       e.open? v.pl.toNat b (16 * (n + 3)) = true →
       (e.cell (b / 16)).ty = tyCODE → (e.cell (b / 16)).sub = 1 → (e.cell (b / 16)).p = false →
       (e.cell (b / 16 + 1)).ty = tyINT → (e.cell (b / 16 + 1)).sub = 0 →
       bits (e.cell (b / 16 + 1)).pay 47 32 = mask → (maskLocals mask).length = n →
       Does (.retm x) s x { v with
         pc := (e.cell (b / 16)).pay.extractLsb' 0 19, pb := none, fp := (e.cell (b / 16 + 1)).pay.extractLsb' 0 18
         locals := (restoreLocals e (b / 16 + 2) (maskLocals mask) c).locals }))

/-- 08 R250 to R254, R257: a synchronous fault that does not escalate, of a context with an entry that passes R249, starts
its handler: PC from the entry, the smaller PL, the ERR cell alone on the handler's stack, an empty return stack, XD
one deeper; the record of the interrupted context stands at the record address. 08 R268, R269: RETI of a record that
passes its checks, with no saved wait, restores what the record holds. Where the spec can be read in two ways this
rests on the model's readings in logs 12 and 14. -/
def Obligations.HandlersAreEnteredAndLeft : Prop :=
  (∀ (s : State) (x : Iss) (f : SFault),
     let c := s.ctxAt x
     let e := s.eng x.eng
     let d := e.descr f.vec
     let r := recordAddr d c
     let w := (s.faults x f).view x
     1 ≤ f.vec.toNat → f.vec.toNat ≤ 0x0B → c.state = .ready → c.psw.m ≠ 7 → c.psw.eh = false → c.vectorReads f.vec = false → d.v = true →
     e.descrFail c f.vec d true = none →
     w.pc = d.handler ∧ w.pl = plMin d.pl c.psw.pl ∧ w.m = (if c.psw.m.toNat < d.m.toNat then d.m else c.psw.m) ∧
     w.key = (if d.nkey then d.keyv else c.psw.key) ∧ w.rm = c.psw.rm ∧ w.pb = none ∧ w.rs = [] ∧ w.rsp = 0 ∧ w.rsc = 0 ∧
     w.stack = [⟨11, 0, false, false,
       BitVec.ofNat 128 ((vecStatus f.vec).toNat + 2 ^ 8 * f.vec.toNat + 2 ^ 16 * f.cause.toNat + 2 ^ 24 * f.opnd.toNat + 2 ^ 32 * f.info.toNat)⟩] ∧
     w.osb.toNat = (handlerStack d c).1 ∧ w.osl = (handlerStack d c).2 ∧ w.locals = c.locals ∧ w.fp = c.fp ∧
     ((s.faults x f).ctxAt x).psw.eh = true ∧ ((s.faults x f).ctxAt x).xd = c.xd + 1 ∧ ((s.faults x f).ctxAt x).xr.toNat = r ∧
     ((s.faults x f).ctxAt x).df = c.df ∧ ((s.faults x f).ctxAt x).left = 11 ∧
     ∀ i, i < 16 → some (((s.faults x f).eng x.eng).cell (r / 16 + i)) = (entryRecord e c c.whyNow f.event.cell false false)[i]?) ∧
  (∀ (s : State) (x : Iss),
     let c := s.ctxAt x
     let e := s.eng x.eng
     let r := fun i => (e.cell (c.xr.toNat / 16 + i)).pay.toNat
     s.issues x { delayBad := true, priv := true } = true → retiCheck e c = .ok () → r 0 / 2 ^ 39 % 16 = 0 →
     Answers (.reti x) s fun t =>
       Becomes s t x { s.view x with
         pc := BitVec.ofNat 19 (r 0)
         pb := if r 0 / 2 ^ 19 % 2 = 1 then some ⟨(r 0 / 2 ^ 52) % 2 == 1, (r 0 / 2 ^ 53) % 2 == 1, BitVec.ofNat 19 (r 0 / 2 ^ 20)⟩ else none
         rsp := BitVec.ofNat 4 (r 0 / 2 ^ 43), rsc := BitVec.ofNat 5 (r 0 / 2 ^ 47)
         pl := BitVec.ofNat 2 (r 1), m := BitVec.ofNat 3 (r 1 / 2 ^ 4), key := BitVec.ofNat 4 (r 1 / 2 ^ 8), rm := BitVec.ofNat 3 (r 1 / 2 ^ 12)
         osb := BitVec.ofNat 18 (r 2), osl := BitVec.ofNat 18 (r 2 / 2 ^ 18)
         stack := (List.range (r 2 / 2 ^ 36 % 2 ^ 15)).map fun i => e.cell (r 2 % 2 ^ 18 / 16 + (r 2 / 2 ^ 36 % 2 ^ 15 - 1 - i))
         fp := BitVec.ofNat 18 (r 3), fl := flOf (BitVec.ofNat 18 (r 3 / 2 ^ 18)) (BitVec.ofNat 18 (r 3 / 2 ^ 36)), fbase := BitVec.ofNat 18 (r 3 / 2 ^ 36)
         rs := (retiCtx e c).rs } ∧
       (t.ctxAt x).psw.eh = false ∧ (t.ctxAt x).xr = BitVec.ofNat 18 (r 4) ∧ (t.ctxAt x).xd = BitVec.ofNat 3 (r 4 / 2 ^ 18))

/-! ## Scratch loads, stores and atomics -/

/-- 04 R129 to R132, R138: where a scratch access goes. An INT address that is in range for the width, aligned to it, and
in a region open to the PL is accessed as it stands (plain and .PI), a width below (.PD), or at the address plus the
scaled index on top (.X); out of range and misaligned, it faults. 04 R132, R134, Table 4-8: LD, LDS and LDF replace
the address by the cell loaded, with the P of the scratch cell; .PI and .PD push the next address above it. 04 R135 to
R138, Table 4-9: ST writes the cell whole, a DEC in storage order, or the low bytes of its payload merged into the
target; no other cell changes. A guarded target at PL2, and for a narrow store a target whose TYPE refuses it, fault. -/
def Obligations.ScratchIsLoadedAndStored : Prop :=
  (∀ (v : Env) (e : Engine) (c : Ctx) (f : Byte) (a i : Cell) (r : List Cell),
     let w := formWidth f
     a.ty = tyINT → a.sub = 0 → a.p = false → i.ty = tyINT → i.sub = 0 → i.p = false →
     ∀ addr : Int,
       ((formMode f = 0 ∨ formMode f = 1) ∧ stackOf e c = a :: r ∧ addr = a.int ∨
         formMode f = 2 ∧ stackOf e c = a :: r ∧ addr = a.int - w ∨
         formMode f = 3 ∧ stackOf e c = i :: a :: r ∧ addr = a.int + i.int * 2 ^ bits f 7 5) →
       (0 ≤ addr → addr + w ≤ 2 ^ 18 → addr % w = 0 → e.open? v.pl addr.toNat w = true → accessAddr v e c f [] = .ok addr.toNat) ∧
       (¬(0 ≤ addr ∧ addr + w ≤ 2 ^ 18) → accessAddr v e c f [] = .error (fAddr 1 addr)) ∧
       (0 ≤ addr → addr + w ≤ 2 ^ 18 → addr % w ≠ 0 → accessAddr v e c f [] = .error (fAddr 2 addr))) ∧
  (∀ (s : State) (x : Iss) (f : Byte) (a : Nat),
     let e := s.eng x.eng
     let o : OpInfo := { imm := 1, pops := formPops f, pushes := 1 + (formPush f 0).length, reads := formPops f }
     let cell := e.cell (a / 16)
     let w := formWidth f
     let v := cell.pay.toNat / 2 ^ (8 * (a % 16)) % 2 ^ (8 * w)
     let st := fun c : Cell => formPush f (addrOf e (s.ctxAt x) f) ++ c :: (s.view x).stack.drop (formPops f)
     s.issues x o = true → accessAddr (s.env x o) e (s.ctxAt x) f [] = .ok a →
     (formBad f [0, 1, 2, 3, 4, 5] [0, 1, 2, 3] = false →
       (bits f 2 0 = 5 → Does (.ld x f) s x (s.moved x o (st cell))) ∧
       (bits f 2 0 = 4 → Does (.ld x f) s x (s.moved x o (st ⟨2, 0, cell.p, false, decStorage cell.pay⟩))) ∧
       (bits f 2 0 < 3 → Does (.ld x f) s x (s.moved x o (st ⟨1, 0, cell.p, false, BitVec.ofNat 128 v⟩))) ∧
       (bits f 2 0 = 3 → Does (.ld x f) s x (s.moved x o (st ⟨1, 0, cell.p, false, (BitVec.ofNat 64 v).signExtend 128⟩)))) ∧
     (formBad f [0, 1, 2, 3] [0, 1, 2, 3] = false →
       Does (.lds x f) s x (s.moved x o (st (cellInt (if v < 2 ^ (8 * w - 1) then (v : Int) else (v : Int) - 2 ^ (8 * w)) cell.p)))) ∧
     (formBad f [3] [0, 1, 2, 3] = false → Does (.ldf x f) s x (s.moved x o (st ⟨3, 0, cell.p, false, BitVec.ofNat 128 v⟩)))) ∧
  (∀ (s : State) (x : Iss) (f : Byte) (a : Nat),
     let e := s.eng x.eng
     let p := formPops f
     let o : OpInfo := { imm := 1, pops := p + 1, pushes := (formPush f 0).length, reads := p + 1 }
     let d := stackTop e (s.ctxAt x) p
     let v := s.moved x o (formPush f (addrOf e (s.ctxAt x) f) ++ (s.view x).stack.drop (p + 1))
     s.issues x o = true → formBad f [0, 1, 2, 3, 4, 5] [0, 1, 2, 3] = false →
     accessAddr (s.env x o) e (s.ctxAt x) f [storeAccepts f] = .ok a →
     ((s.view x).pl ≠ 2 ∨ (e.cell (a / 16)).g = false → bits f 2 0 ≥ 4 ∨ e.narrowOk (s.env x o).nochk (a / 16) = true →
       Answers (.st x f) s fun t =>
         Writes s t x v fun k => if k ≠ a / 16 then none else some
           (match bits f 2 0 with
             | 5 => d
             | 4 => ⟨2, 0, d.p, false, decStorage d.pay⟩
             | _ => e.mergeCell (a / 16) (a % 16) ((bytesOfPay d.pay).take (formWidth f)) d.p)) ∧
     ((s.view x).pl = 2 → (e.cell (a / 16)).g = true → exec (.st x f) s = .next (s.faults x (fKey 2 a))) ∧
     ((s.view x).pl ≠ 2 ∨ (e.cell (a / 16)).g = false → bits f 2 0 < 4 → e.narrowOk (s.env x o).nochk (a / 16) = false →
       exec (.st x f) s = .next (s.faults x (fTagCell 2 (a / 16 * 16)))))

/-- 05 R148 to R151: XADD, XCHG and CAS push the old value of their target and write the sum, the operand, or the new
value when the old one equals what was expected. 04 R139: under P.LOCK the write is part of the instruction; else it follows in the
cycle after the read. -/
def Obligations.AtomicsReadModifyWrite : Prop :=
  ∀ (s : State) (x : Iss) (f : Byte) (a : Nat),
    let e := s.eng x.eng
    let p := formPops f
    let d := stackTop e (s.ctxAt x) p
    let put := fun c : Cell => if bits f 2 0 = 5 then c else e.mergeCell (a / 16) (a % 16) ((bytesOfPay c.pay).take 8) c.p
    let old := oldCell e f a
    (let o : OpInfo := { esc := true, imm := 1, lock := true, pops := p + 1, pushes := 1, reads := p + 1 }
     s.issues x o = true → formBad f [3, 5] [0, 3] = false →
      (bits f 2 0 = 3 → accessAddr (s.env x o) e (s.ctxAt x) f [Cell.isInt] = .ok a → targetCheck (s.env x o) e a true = .ok () →
        (e.bad? (a / 16) = true ∨ (s.env x o).nochk = true ∨ (e.cell (a / 16)).ty = tyINT ∨ (e.cell (a / 16)).ty = tyNIL) →
        Modifies (.xadd x f) s x (s.moved x o (old :: (s.view x).stack.drop (p + 1))) f a (cellInt (old.lo + d.lo).toInt d.p)
          (e.mergeCell (a / 16) (a % 16) (bytesOfNat 8 (old.lo + d.lo).toNat) d.p)) ∧
      (accessAddr (s.env x o) e (s.ctxAt x) f [atomicAccepts f] = .ok a →
        targetCheck (s.env x o) e a (decide (bits f 2 0 = 3)) = .ok () →
        Modifies (.xchg x f) s x (s.moved x o (old :: (s.view x).stack.drop (p + 1))) f a d (put d))) ∧
    let o : OpInfo := { esc := true, imm := 1, lock := true, pops := p + 2, pushes := 1, reads := p + 2 }
    let exp := stackTop e (s.ctxAt x) (p + 1)
    let same := if bits f 2 0 = 5 then e.cell (a / 16) = exp else old.lo = exp.lo
    s.issues x o = true → formBad f [3, 5] [0, 3] = false →
    accessAddr (s.env x o) e (s.ctxAt x) f [atomicAccepts f, atomicAccepts f] = .ok a →
    targetCheck (s.env x o) e a (decide (bits f 2 0 = 3)) = .ok () →
    (same → Modifies (.cas x f) s x (s.moved x o (old :: (s.view x).stack.drop (p + 2))) f a d (put d)) ∧
    (¬same → Does (.cas x f) s x (s.moved x o (old :: (s.view x).stack.drop (p + 2))))

/-! ## Record and event instructions -/

/-- 05 R168 to R172, R177: RLD, RLOCK, RPREF and WAITEV take their operands, place their request and leave the context
waiting with its WHY, those of record space in the queue for translation (09 R293); the wait of WAITEV goes to the event unit. 05 R173 to R175: COMMIT drains the store buffer,
hands its index over and seals the slot; ABORT ends the transaction ABORTED with its word; STAGE drains the store
buffer and queues at the engine's channel of the cluster mover. -/
def Obligations.RecordInstructionsPlaceAndEnd : Prop :=
  (∀ (s : State) (x : Iss) (r : List Cell) (ref : Cell), (s.ctxAt x).savedWait = none →
     (∀ (a : Cell), ref.ty = tyREF → ref.wellFormed = true → ref.p = false → refOk ref = true →
       let o : OpInfo := { key := true, delayBad := true, pops := 2, pushes := 1, reads := 2 }
       s.issues x o = true → (s.view x).stack = a :: ref :: r → a.ty = tyINT → a.sub = 0 → a.p = false → refLen ref ≤ 4096 →
       0 ≤ a.int → a.int + coverLen (refLen ref) ≤ 2 ^ 18 → a.int % 16 = 0 →
       (s.eng x.eng).open? (s.view x).pl.toNat a.int.toNat (coverLen (refLen ref)) = true →
       Asks (.rld x) s x { s.moved x o r with
         wait := some ⟨1, .rld ref ((pxKey x.px).getD (s.view x).key) a.int.toNat (s.view x).pl, .translate (refAddr ref), none⟩ }) ∧
     (ref.ty = tyREF → ref.wellFormed = true → ref.p = false → refOk ref = true → (s.view x).stack = ref :: r →
       (∀ imm : Byte, imm.toNat < 2 → (imm = 1 → ref.sub = 1) →
         s.issues x { imm := 1, key := true, delayBad := true, pops := 1, pushes := 1, reads := 1 } = true →
         Asks (.rlock x imm) s x { s.moved x { imm := 1, key := true, delayBad := true, pops := 1, pushes := 1, reads := 1 } r with
           wait := some ⟨1, .rlock ref ((pxKey x.px).getD (s.view x).key) (imm == 1), .translate (refAddr ref), none⟩ }) ∧
       (s.issues x { key := true, delayBad := true, pops := 1, reads := 1 } = true →
         Asks (.rpref x) s x { s.moved x { key := true, delayBad := true, pops := 1, reads := 1 } r with
           wait := some ⟨2, .rpref ref ((pxKey x.px).getD (s.view x).key), .translate (refAddr ref), none⟩ })) ∧
     ∀ (ep q tm : Cell),
       let o : OpInfo := { delayBad := true, pops := 3, pushes := 1, reads := 3 }
       s.issues x o = true → (s.view x).stack = tm :: q :: ep :: r → ep.ty = tyINT → ep.sub = 0 →
       (q.ty = tySEQ ∧ q.sub = 2 ∨ q.ty = tyINT ∧ q.sub = 0) →
       (tm.ty = tyTIME ∧ tm.sub = 1 ∧ tm.lo.toNat ≤ 10000000000 ∨ tm.ty = tyNIL ∧ tm.sub = 0) →
       Answers (.waitev x) s fun t =>
         t.view x = { s.moved x o r with
           wait := some ⟨5, .waitev ep.lo (q.pay.extractLsb' 0 32) (if tm.ty = tyNIL then none else some tm.lo.toNat), .sent, none⟩ } ∧
         t.evMsgs = s.evMsgs ++ [(cluOf x.eng, (s.view x).slot, .wait)] ∧
         Quiet s { t with evMsgs := s.evMsgs } x) ∧
  (∀ (s : State) (x : Iss) (a b c : Cell) (r : List Cell),
     let n := (s.view x).slot
     (∀ i ∈ [a, b, c], i.ty = tyINT ∧ i.sub = 0) → b.p = false →
     (let o : OpInfo := { delayBad := true, pops := 3, reads := 3 }
      s.issues x o = true → a.p = false → (s.ctxAt x).savedWait = none → (s.view x).stack = a :: b :: c :: r → s.unitReady x 0xA4 .ucode 5 = true →
       b.int ≤ a.int → b.int % 32 = 0 → a.int % 32 = 0 → a.int - b.int ≤ 2048 →
       (b.int < a.int → 0 ≤ b.int ∧ a.int ≤ 2 ^ 18 ∧ (s.eng x.eng).general? b.int.toNat (a.int - b.int).toNat = true) →
       Answers (.commit x) s fun t =>
         t.view x = { s.moved x o r with wait := some ⟨4, .commit c.lo b.int.toNat a.int.toNat, .sent, none⟩ } ∧
         (t.eng x.eng).sb = [] ∧ (t.slot n).state = .sealing ∧ (t.slot n).cluster = cluOf x.eng ∧
         (∀ m, m ≠ n → t.slot m = s.slot m) ∧ (∀ k, ¬(t.view x).ownsCell k → (t.eng x.eng).cell k = (s.eng x.eng).cell k) ∧
         Quiet s { t with slots := s.slots } x) ∧
     (s.issues x { delayBad := true, pops := 1, reads := 1 } = true → (s.view x).stack = a :: r → (s.slot n).endable = true →
       (s.slot n).wound = false → (s.slot n).fate = none →
       Answers (.abort x) s fun t =>
         t.view x = s.moved x { delayBad := true, pops := 1, reads := 1 } r ∧ (t.ctxAt x).ending = true ∧
         (t.slot n).state = .ending ∧ (t.slot n).status = 0x01 ∧ (t.slot n).xword = a.lo ∧ (t.slot n).releasing = true ∧
         (t.slot n).deltas = [] ∧ (∀ m, m ≠ n → t.slot m = s.slot m) ∧ t.hbm = s.hbm ∧ t.dir = s.dir) ∧
     let o : OpInfo := { key := true, delayBad := true, pops := 3, pushes := 1, reads := 3 }
     s.issues x o = true → (s.ctxAt x).savedWait = none →
     ∀ ref : Cell, ref.ty = tyREF → ref.wellFormed = true → refOk ref = true → (s.view x).stack = a :: b :: ref :: r →
       (a.int = 0 ∨ a.int = 1 ∧ (s.view x).pl = 0) → 0 ≤ b.int → b.int + coverLen (refLen ref) ≤ 2 ^ 18 → b.int % 16 = 0 →
       (s.eng x.eng).open? (s.view x).pl.toNat b.int.toNat (coverLen (refLen ref)) = true →
       Answers (.stage x) s fun t =>
         t.view x = { s.moved x o r with
           wait := some ⟨6, .stage ref ((pxKey x.px).getD (s.view x).key) b.int.toNat (a.int == 1) (s.view x).pl, .translate (refAddr ref), none⟩ } ∧
         (t.eng x.eng).sb = [] ∧
         (t.chan (stageMover x.eng) (stageChan x.eng)).stages =
           (s.chan (stageMover x.eng) (stageChan x.eng)).stages.filter (fun m => m != x.ctx) ++ [x.ctx] ∧
         (x.eng, x.ctx) ∈ t.walkq ∧ Quiet s { t with movers := s.movers, walkq := s.walkq } x)

/-- 05 R171, R178, R179: RST writes one index entry of two cells and steps its index; SIGEV sends the signal to the event
unit with its hedge; YIELD has firmware park the context when the hedge has a parked slot ready to run, the engine has no FREE context
and the context may park, and has no effect otherwise. 05 R180 to R182: SETRM, SETM and SETKEY write their PSW field when the value is
one of it, and fault on any other; SETFP writes FP, FL and the frame base, and raises the frame fault on a range that R181 refuses; SETG
and CLRG write the guard bit; RDPSW reads the PSW with HEDGE and EPOCH. -/
def Obligations.IndexSignalAndSystemInstructions : Prop :=
  (∀ (s : State) (x : Iss) (r : List Cell),
     (∀ (w a ref : Cell),
       let e := s.eng x.eng
       let o : OpInfo := { key := true, delayBad := true, pops := 3, pushes := 1, reads := 3 }
       let k := w.int.toNat / 16
       s.issues x o = true → (s.view x).stack = w :: a :: ref :: r → w.ty = tyINT → w.sub = 0 → w.p = false → a.ty = tyINT → a.sub = 0 →
       a.p = false → ref.ty = tyREF → ref.sub = 1 → ref.p = false → refOk ref = true → 0 ≤ a.int → a.int + 16 ≤ 2 ^ 18 → a.int % 16 = 0 →
       0 ≤ w.int → w.int + 32 ≤ 2 ^ 18 → w.int % 32 = 0 → e.general? w.int.toNat 32 = true →
       ((s.view x).pl = 2 → (e.cell k).g = false ∧ (e.cell (k + 1)).g = false) →
       Answers (.rst x) s fun t =>
         Writes s t x (s.moved x o (cellInt (w.int + 32) :: r))
           (cellsFrom k [{ ref with pay := BitVec.ofNat 128 (ref.pay.toNat % 2 ^ 48 + ((pxKey x.px).getD (s.view x).key).toNat * 2 ^ 48 + 2 ^ 52 +
               ref.pay.toNat / 2 ^ 53 * 2 ^ 53) }, cellInt a.int])) ∧
     (∀ a : Cell, s.issues x { pops := 1, reads := 1 } = true → (s.view x).stack = a :: r → a.ty = tyINT → a.sub = 0 →
       Answers (.sigev x) s fun t =>
         t.view x = s.moved x { pops := 1, reads := 1 } r ∧ t.evMsgs = s.evMsgs ++ [(cluOf x.eng, (s.view x).slot, .signal (s.slot (s.view x).slot).hedge a.lo)] ∧
         Quiet s { t with evMsgs := s.evMsgs } x) ∧
     (s.issues x { delayBad := true } = true →
       Answers (.yield x) s fun t =>
         Becomes s t x (s.moved x { delayBad := true } (s.view x).stack) ∧
         ((t.ctxAt x).yielded = true ↔
           (∃ m : SlotId, (s.slot m).state = .parked ∧ (s.slot m).runnable = true ∧ (s.slot m).hedge = (s.slot (s.view x).slot).hedge) ∧
           (∀ n : CtxId, ((s.eng x.eng).ctx n).state ≠ .free) ∧
           ∃ p, (s.slot (s.view x).slot).prog = some p ∧ (s.ctxAt x).parkable p = true))) ∧
  (∀ (s : State) (x : Iss) (a b : Cell) (r : List Cell),
     (s.issues x { esc := true, pops := 1, reads := 1 } = true → (s.view x).stack = a :: r → a.ty = tyINT → a.sub = 0 → a.p = false →
       (0 ≤ a.int ∧ a.int ≤ 5 →
         Does (.setrm x) s x { s.moved x { esc := true, pops := 1, reads := 1 } r with rm := BitVec.ofInt 3 a.int }) ∧
       (¬(0 ≤ a.int ∧ a.int ≤ 5) → exec (.setrm x) s = .next (s.faults x (fData 4 0)))) ∧
     (s.issues x { esc := true, pushes := 1 } = true →
       let v := s.view x
       let g := s.eng x.eng
       Does (.rdpsw x) s x (s.moved x { esc := true, pushes := 1 }
         (cellInt (BitVec.ofNat 64 (v.pl.toNat + 2 ^ 4 * v.m.toNat + 2 ^ 7 * b2n (s.ctxAt x).psw.eh + 2 ^ 8 * v.key.toNat + 2 ^ 12 * v.rm.toNat +
           2 ^ 16 * g.hedge.val + 2 ^ 32 * g.epoch.toNat)).toInt :: v.stack))) ∧
     (let o : OpInfo := { esc := true, priv := true, pops := 1, reads := 1 }
      s.issues x o = true → (s.view x).stack = a :: r → a.ty = tyINT → a.sub = 0 → a.p = false →
       (0 ≤ a.int → a.int ≤ 7 → (a.int = 7 → (s.view x).pl ≠ 1) →
         Does (.setm x) s x { s.moved x o r with m := BitVec.ofInt 3 a.int }) ∧
       (a.int = 7 → (s.view x).pl = 1 → exec (.setm x) s = .next (s.faults x (fPriv 4))) ∧
       (¬(0 ≤ a.int ∧ a.int ≤ 7) → exec (.setm x) s = .next (s.faults x (fData 4 0))) ∧
       (0 ≤ a.int → a.int ≤ 15 → (a.int = 0 → (s.view x).pl ≠ 1) →
         Does (.setkey x) s x { s.moved x o r with key := BitVec.ofInt 4 a.int }) ∧
       (a.int = 0 → (s.view x).pl = 1 → exec (.setkey x) s = .next (s.faults x (fKey 4 0))) ∧
       (¬(0 ≤ a.int ∧ a.int ≤ 15) → exec (.setkey x) s = .next (s.faults x (fData 4 0)))) ∧
     (let o : OpInfo := { esc := true, priv := true, pops := 2, reads := 2 }
      s.issues x o = true → (s.view x).stack = b :: a :: r → a.ty = tyINT → a.sub = 0 → a.p = false → b.ty = tyINT → b.sub = 0 → b.p = false →
       let legal := 0 ≤ a.int ∧ a.int < b.int ∧ b.int ≤ 2 ^ 18 ∧ a.int % 16 = 0 ∧ b.int % 16 = 0 ∧
         (s.eng x.eng).open? (s.view x).pl.toNat a.int.toNat (b.int - a.int).toNat = true
       (legal →
         Does (.setfp x) s x { s.moved x o r with fp := BitVec.ofInt 18 a.int, fl := BitVec.ofInt 19 b.int, fbase := BitVec.ofInt 18 a.int }) ∧
       (¬legal → exec (.setfp x) s = .next (s.faults x (fFrame 5 (BitVec.ofInt 32 a.int).toNat)))) ∧
     let o : OpInfo := { esc := true, priv := true, pops := 1, pushes := 1, reads := 1 }
     s.issues x o = true → (s.view x).stack = a :: r → a.wellFormed = true →
       Does (.setg x) s x (s.moved x o ({ a with g := true } :: r)) ∧ Does (.clrg x) s x (s.moved x o ({ a with g := false } :: r)))

/-! ## Strings, edits and rate tables -/

/-- 07 R217: an execution of MVST, MVTR, EDIT, EDMK or TLI that passes its checks, with the microcode sequencer free,
leaves its context and its engine as its operation makes them, and the rest of the device alone. 07 R219, R230 to R233: EDIT and EDMK of a
valid amount through a pattern without reserved bytes, whose digit positions fit the amount, into an output that has room, lies in open
regions and takes bytes, write what Table 7-4 gives for each of the next 32 pattern bytes and step both descriptors; the execution that
reaches the pattern's end pops the amount and goes on, with EDMK's mark on top. -/
def Obligations.SequencerExecutionsTakeEffect : Prop :=
  (∀ (s : State) (x : Iss) (i : Instr) (o : OpInfo) (op : Nat) (body : Env → Engine → Ctx → Except SFault Done) (d : Done),
    (i, o, op, body) ∈
      [(Instr.mvst x, { delayBad := true, pops := 2, pushes := 2, reads := 2 }, 0xB0, moveString false),
       (.mvtr x, { delayBad := true, pops := 2, pushes := 2, reads := 2 }, 0xB1, moveString true),
       (.edit x, { delayBad := true, pops := 3, pushes := 2, reads := 3 }, 0xB4, editBody false),
       (.edmk x, { delayBad := true, pops := 3, pushes := 3, reads := 3 }, 0xB5, editBody true),
       (.tli x, { rnd := true, delayBad := true, pops := 2, pushes := 2, reads := 2 }, 0xB6, tliBody (Config.freeValue 128 s.free))] →
    s.issues x o = true → body (s.env x o) (s.eng x.eng) { s.ctxAt x with pc := s.nextPc x o, pb := none } = .ok d →
    s.unitReady x op .ucode d.count = true →
    Answers i s fun t =>
      t.view x = viewOf d.eng d.ctx ∧ Quiet s t x ∧
      (∀ k, ¬(t.view x).ownsCell k → (t.eng x.eng).cell k = d.eng.cell k) ∧ (t.eng x.eng).ucode = some x.ctx ∧
      ((t.ctxAt x).state = .busy ∧ (t.ctxAt x).left = BitVec.ofNat 8 (d.count - 1))) ∧
  ∀ (s : State) (x : Iss) (mk : Bool) (d p o : Cell) (r : List Cell),
    let e := s.eng x.eng
    let pl := (s.view x).pl
    let n := Nat.min 32 (chrLeft p)
    let pat := (List.range n).map fun i =>
      (byteOfPay (e.cell ((chrAt p + i) / 16)).pay ((chrAt p + i) % 16), (e.cell ((chrAt p + i) / 16)).p)
    let outs := (pat.filter fun q => !sectionByte q).length
    let digits := bits p.pay 92 88 + (pat.filter digitByte).length
    let neg := decMinus d.pay && decMag d.pay != 0
    let run := pat.foldl (fun t q => t.step mk neg d.p d.pay (p.pay.extractLsb' 80 8) (chrAt o) q.1 q.2)
      { digit := bits p.pay 92 88, sig := bit p.pay 93, ns := bit p.pay 113, mv := bit p.pay 94, fs := bit p.pay 114,
        mark := bits p.pay 112 95, out := [], psn := d.p || pat.any (·.2) }
    let p' := patternStep p (chrPos p + n) run mk
    let o' := chrStep o (chrPos o + outs) false
    let m := if run.mv && run.fs then cellInt run.mark (bit p'.pay 57) else { Cell.nil with p := bit p'.pay 57 }
    let f : OpInfo := { delayBad := true, pops := 3, pushes := if mk = true then 3 else 2, reads := 3 }
    s.issues x f = true → s.unitReady x (if mk = true then 0xB5 else 0xB4) .ucode 20 = true → (s.view x).stack = o :: p :: d :: r →
    o.ty = tyCHR → o.sub = 0 → o.p = false → chrOk o = true → p.ty = tyCHR → p.sub = 1 → p.p = false → chrOk p = true →
    d.ty = tyDEC → d.sub = 0 → (d.p = true ∨ decBad d.pay = none) → chrLeft p ≤ chrLeft o →
    e.open? (if pl = 2 ∧ p.g = true then 1 else pl.toNat) (chrAt p) n = true → e.open? pl.toNat (chrAt o) n = true →
    (∀ k, k ∈ cellsOf (chrAt o) outs → (pl = 2 → (e.cell k).g = false) ∧ e.narrowOk (s.env x f).nochk k = true) →
    (∀ q ∈ pat, reservedPattern q = false) → digits ≤ 31 → (n = chrLeft p → digits = 31) →
    (chrPos p = 0 → ∀ i, i < bits p.pay 92 88 → decNibble d.pay i = 0) →
    Answers (if mk = true then .edmk x else .edit x) s fun t =>
      { t.view x with stack := [] } = { s.view x with
        stack := [], pb := none, pc := if n = chrLeft p then s.nextPc x f else (s.view x).pc } ∧
      ((∀ k, k ∈ cellsOf (chrAt o) outs → ¬(t.view x).ownsCell k) →
        (t.view x).stack = if n = chrLeft p then (if mk = true then [m] else []) ++ o' :: p' :: r else o' :: p' :: d :: r) ∧
      Quiet s t x ∧ ScratchKept s t x (fun k => k ∈ cellsOf (chrAt o) outs) ∧
      ∀ j, j < outs → ¬(t.view x).ownsCell ((chrAt o + j) / 16) →
        some (byteOfPay ((t.eng x.eng).cell ((chrAt o + j) / 16)).pay ((chrAt o + j) % 16)) = (run.out.map (·.1))[j]?

/-- 07 R224, R226: one execution of MVST (64 bytes) or MVTR (32 bytes, translated through the destination's table) between
strings that do not overlap and hold no poison fills the next bytes of the destination from the source, with the
destination's PAD beyond its end, steps both positions, and goes on only when the destination is full. 07 R227 to
R229: CMST of up to 64 pairs pushes its result at the first unequal pair or at both ends, and else leaves the pc; SCST
of up to 64 bytes likewise. 07 R237, R238, STEP: on strictly rising keys, TLI gives the value of the last point whose
key does not exceed x. 06 R204 to R207: PACK of a field in open scratch whose bytes are accepted and unpoisoned pushes
its digits with its sign; UNPK of a valid DEC that fits writes the field's bytes. Where the spec can be read in two
ways this rests on the model's reading in log 16. -/
def Obligations.StringsAndZonedFields : Prop :=
  (∀ (s : State) (x : Iss) (tr : Bool) (d q : Cell) (r : List Cell),
     let o : OpInfo := { delayBad := true, pops := 2, pushes := 2, reads := 2 }
     let e := s.eng x.eng
     let w := Nat.min (if tr then 32 else 64) (chrLen d - chrPos d)
     let n := Nat.min w (chrLen q - chrPos q)
     let cp := if tr then chrCp d else 0
     let from_ := fun j => byteOfPay (e.cell ((chrAt q + j) / 16)).pay ((chrAt q + j) % 16)
     let q' := chrStep q (chrPos q + n) false
     let d' := chrStep d (chrPos d + w) false
     s.issues x o = true → (s.view x).stack = d :: q :: r → d.ty = tyCHR → d.sub = 0 → d.p = false → q.ty = tyCHR → q.sub = 0 → q.p = false →
     chrOk d = true → chrOk q = true → (tr = true → chrCp d ≤ e.cptCount.toNat) →
     readRegion (s.env x o) e 1 q (chrAt q) n = .ok () → writeRegion (s.env x o) e 0 (chrAt d) w = .ok () →
     byteTargets (s.env x o) e (chrAt d) w = .ok () → byteTags (s.env x o) e (chrAt d) w = .ok () →
     (chrAt q + n ≤ chrAt d ∨ chrAt d + w ≤ chrAt q) → e.anyPoison (chrAt q) n = false →
     (∀ j, j < n → (e.translate cp (from_ j)).2 = false) →
     s.unitReady x (if tr then 0xB1 else 0xB0) .ucode (if tr then 10 else 6) = true →
     Answers (if tr then .mvtr x else .mvst x) s fun t =>
       { t.view x with stack := [] } = { s.view x with
         stack := [], pb := none
         pc := if chrPos d + w = chrLen d then s.nextPc x o else (s.view x).pc } ∧
       ((∀ k, k ∈ cellsOf (chrAt d) w → ¬(t.view x).ownsCell k) → (t.view x).stack = d' :: q' :: r) ∧
       ScratchKept s t x (fun k => k ∈ cellsOf (chrAt d) w) ∧
       ∀ j, j < w → ¬(t.view x).ownsCell ((chrAt d + j) / 16) →
         byteOfPay ((t.eng x.eng).cell ((chrAt d + j) / 16)).pay ((chrAt d + j) % 16) =
           if j < n then (e.translate cp (from_ j)).1 else chrPad d) ∧
  (∀ (s : State) (x : Iss) (a b : Cell) (r : List Cell),
     let e := s.eng x.eng
     a.ty = tyCHR → a.sub = 0 → a.p = false → chrOk a = true → chrCp a ≤ e.cptCount.toNat → (s.view x).stack = b :: a :: r →
     (let o : OpInfo := { delayBad := true, pops := 2, pushes := 3, reads := 2 }
      let p := cmpPairs e a b 64 (chrPos a) (chrPos b) false false
      let a' := chrStep a p.1 p.2.2.1
      let b' := chrStep b p.2.1 p.2.2.2.1
      let psn := bit a'.pay 57 || bit b'.pay 57
      s.issues x o = true → s.unitReady x 0xB2 .ucode 6 = true → b.ty = tyCHR → b.sub = 0 → b.p = false → chrOk b = true →
       chrCp b ≤ e.cptCount.toNat → readRegion (s.env x o) e 1 a (chrAt a) (Nat.min 64 (chrLeft a)) = .ok () →
       readRegion (s.env x o) e 0 b (chrAt b) (Nat.min 64 (chrLeft b)) = .ok () →
       (∀ k, p.2.2.2.2 = some k → Does (.cmst x) s x (s.moved x o (cellInt k psn :: b' :: a' :: r))) ∧
       (p.2.2.2.2 = none → p.1 = chrLen a ∧ p.2.1 = chrLen b → Does (.cmst x) s x (s.moved x o (cellInt 0 psn :: b' :: a' :: r))) ∧
       (p.2.2.2.2 = none → ¬(p.1 = chrLen a ∧ p.2.1 = chrLen b) →
         Does (.cmst x) s x { s.view x with stack := b' :: a' :: r, pb := none })) ∧
     let o : OpInfo := { delayBad := true, pops := 2, pushes := 2, reads := 2 }
     let p := scanBytes e a (b.pay.extractLsb' 0 8) (bit b.pay 8) 64 (chrPos a) false
     let a' := chrStep a p.1 p.2.1
     s.issues x o = true → s.unitReady x 0xB3 .ucode 6 = true → b.ty = tyINT → b.sub = 0 → bits b.pay 63 9 = 0 →
     readRegion (s.env x o) e 1 a (chrAt a) (Nat.min 64 (chrLeft a)) = .ok () →
       (p.2.2 = true ∨ p.1 = chrLen a → Does (.scst x) s x (s.moved x o (cellBool p.2.2 (bit a'.pay 57 || b.p) :: a' :: r))) ∧
       (p.2.2 = false → p.1 ≠ chrLen a → Does (.scst x) s x { s.view x with stack := b :: a' :: r, pb := none })) ∧
  (∀ (s : State) (x : Iss) (k q : Cell) (r : List Cell) (j : Nat),
     let o : OpInfo := { rnd := true, delayBad := true, pops := 2, pushes := 2, reads := 2 }
     let e := s.eng x.eng
     let g := rateOf q
     let key := fun i => rateNum g.keyTy (e.cell (g.keyK i))
     s.issues x o = true → s.unitReady x 0xB6 .ucode 20 = true → (s.view x).stack = k :: q :: r →
     q.ty = tyRATE → q.sub = 0 → q.p = false → rateOk q = true → g.mode = 0 → k.ty = g.keyTy → k.wellFormed = true →
     (g.kt = 1 → decUse 0 k = .ok ()) → readRegion (s.env x o) e 1 q g.base (32 * (g.points + 1)) = .ok () →
     (∀ i, i < g.points → (e.cell (g.keyK i)).ty = g.keyTy ∧ (e.cell (g.keyK i)).wellFormed = true ∧ (e.cell (g.keyK i)).p = false ∧
       (g.kt = 1 → decBad (e.cell (g.keyK i)).pay = none) ∧ (e.cell (g.valK i)).ty = g.valTy ∧ (e.cell (g.valK i)).sub = 0 ∧
       (e.cell (g.valK i)).p = false ∧ (g.vtFlt = false → decBad (e.cell (g.valK i)).pay = none)) →
     (∀ i, i + 1 < g.points → extLt (key i) (key (i + 1)) = true) → j < g.points → extLe (key j) (rateNum g.keyTy k) = true →
     (j + 1 < g.points → extLt (rateNum g.keyTy k) (key (j + 1)) = true) →
     (j + 1 = g.points → extLt (key j) (rateNum g.keyTy k) = false) →
     Does (.tli x) s x (s.moved x o (rateCopy g k.p (e.cell (g.valK j)) :: q :: r))) ∧
  (∀ (s : State) (x : Iss) (imm : Byte) (a d : Cell) (r : List Cell),
     let e := s.eng x.eng
     let n := zT imm
     let at_ := a.int.toNat
     imm.toNat < 128 → imm.toNat % 32 ≠ 0 → a.ty = tyINT → a.sub = 0 → a.p = false → 0 ≤ a.int → a.int + n ≤ 2 ^ 18 →
     e.open? (s.view x).pl.toNat at_ n = true →
     (let o : OpInfo := { imm := 1, pops := 1, pushes := 1, reads := 1 }
      let byte := fun i => byteOfPay (e.cell ((at_ + i) / 16)).pay ((at_ + i) % 16)
      s.issues x o = true → (s.view x).stack = a :: r → (∀ i, i < n → zAccepts imm i (byte i) = true) → e.anyPoison at_ n = false →
       Does (.pack x imm) s x (s.moved x o
         (⟨2, 0, false, false, decMake
           (match zSignAt imm with | some i => (zSign (zForm imm) (byte i)).getD false | none => false)
           ((List.range (zLen imm)).foldl (fun acc i => acc * 10 + (zDigit (zForm imm) (byte (zDigitAt imm i))).getD 0) 0)⟩ :: r))) ∧
     let o : OpInfo := { imm := 1, pops := 2, reads := 2 }
     s.issues x o = true → (s.view x).stack = a :: d :: r → d.ty = tyDEC → d.sub = 0 → decUse 1 d = .ok () →
     byteTargets (s.env x o) e at_ n = .ok () → byteTags (s.env x o) e at_ n = .ok () →
     (decMag d.pay < 10 ^ zLen imm → ¬(zForm imm = 1 ∧ decMinus d.pay = true ∧ decMag d.pay ≠ 0) →
       Answers (.unpk x imm) s fun t =>
         ((∀ k, k ∈ cellsOf at_ n → ¬(t.view x).ownsCell k) → t.view x = s.moved x o r) ∧ Quiet s t x ∧
         ScratchKept s t x (fun k => k ∈ cellsOf at_ n) ∧
         ∀ i, i < n → ¬(t.view x).ownsCell ((at_ + i) / 16) →
           some (byteOfPay ((t.eng x.eng).cell ((at_ + i) / 16)).pay ((at_ + i) % 16)) =
             (zBytes imm (decMinus d.pay && decide (decMag d.pay ≠ 0)) (decMag d.pay))[i]?) ∧
     (10 ^ zLen imm ≤ decMag d.pay → exec (.unpk x imm) s = .next (s.faults x (fArith 1 1))))

/-! ## What reaches the contexts -/

/-- 03 R66, R70, R109, 04 R139, 08 R257: when a BUSY count elapses the write of a read-modify-write reaches its cell,
an entry window that has ended clears EH, and the context is READY, or in WAIT with its watchdog count cleared, or
takes the completion that has come meanwhile, or is FREE at its transaction's end; and the oldest entry of the store
buffer reaches scratch without any load seeing a difference. 08 R244 to R247, R250, R262: EVENT_TAKE takes the pending
event of highest level above the mask by vectoring, or by the default action of an entry with V = 0; a NOTICE that its
engine accepts becomes pending, or returns to firmware while one of its level is pending, and one that it does not
accept bounces (02 R50); a watchdog count above LIMIT makes WATCHDOG pending with the count (08 R270). A command whose
conditions do not hold leaves the state as it is: where such a clause stands, that is the model's choice (log 1).
Where the spec can be read in two ways this rests on the model's readings in logs 9 and 62. -/
def Obligations.CountsElapseAndEventsAreTaken : Prop :=
  (∀ (s : State) (e : EngId) (c : CtxId),
     (let g := s.eng e
      let x := g.ctx c
      let y : Ctx := { x with rmw := none, psw := { x.psw with eh := x.psw.eh && x.ehLeft != 0 } }
      x.state = .busy →
       Answers (.busyCountElapsed e c) s fun t =>
         (∀ k, (t.eng e).cell k = (match x.rmw with | some (f, a, w) => storeAt g f a w | none => g).cell k) ∧
         (x.rmw = none → x.ending = false → OnlyContext s t e c) ∧
         t = { s with engines := t.engines, clus := t.clus, invWait := t.invWait } ∧
         (x.ending = true → ((t.eng e).ctx c).state = .free) ∧
         (x.ending = false → x.wait = none → (t.eng e).ctx c = { y with state := .ready, left := 0, undo := none }) ∧
         (∀ w, x.ending = false → x.wait = some w → w.done = none →
           (t.eng e).ctx c = { y with state := .wait, left := 0, wdog := 0, undo := none }) ∧
         (∀ w, x.ending = false → x.wait = some w → w.done = some .plain →
           (t.eng e).ctx c = { y with state := .ready, wait := none, left := 0, undo := none }) ∧
         (∀ w k, x.ending = false → x.wait = some w → w.done = some (.cell k) →
           (t.eng e).ctx c = { y.completed k with left := 0, undo := none })) ∧
     Answers (.storeBufferDrain e) s fun t => OnlyEngine s t e ∧ (t.eng e).sb = (s.eng e).sb.tail ∧
       (t.eng e).ctxs = (s.eng e).ctxs ∧ ∀ k, (t.eng e).cell k = (s.eng e).cell k) ∧
  (∀ (s : State) (e : EngId) (c : CtxId),
     let g := s.eng e
     let x := g.ctx c
     (∀ (l : Nat) (v : XEvent), let d := g.descr v.vec
       let h := (s.slot x.slot).hedge
       let apart := fun t : State => (∀ i, i ≠ e → t.eng i = s.eng i) ∧ s.errq <+: t.errq ∧ (t.hedge h) = { s.hedge h with deadSince := none } ∧
         (∀ i, i ≠ h → t.hedge i = s.hedge i) ∧ t = { s with engines := t.engines, hedges := t.hedges, errq := t.errq, free := t.free }
       x.takable = some (l, v) → s.running e = true → g.nextIssue = some c → x.vectorReads v.vec = false →
       (∀ m ∈ s.refused, msgSlot m.kind ≠ x.slot) →
       (d.v = true → g.descrFail x v.vec d true = none →
         Answers (.eventTake e c) s fun t => let y := (t.eng e).ctx c
           y.state = .busy ∧ y.left = 11 ∧ y.pc = d.handler ∧ y.win = [v.cell] ∧ y.depth = 1 ∧ y.psw.eh = true ∧ y.psw.pl = plMin d.pl x.psw.pl ∧
           y.psw.m = (if topVec v.vec = true then 7 else if d.m.toNat ≤ l then BitVec.ofNat 3 l else d.m) ∧ y.xd = x.xd + 1 ∧
           y.xst = v.xst ∧ y.rs = [] ∧ y.locals = x.locals ∧ (t.eng e).lastCtx = c ∧
           y.mcheck = (if v.vec = 0x18 then none else x.mcheck) ∧ y.wdp = (if v.vec = 0x19 then none else x.wdp) ∧
           y.evd = (if v.vec = 0x16 then none else x.evd) ∧ apart t) ∧
       (d.v = false → v.vec.toNat < 0x16 →
         Answers (.eventTake e c) s fun t => let y := (t.eng e).ctx c
           y.state = .busy ∧ y.left = 11 ∧ y.pc = x.pc ∧ y.win = x.win ∧ y.depth = x.depth ∧ y.psw = x.psw ∧ y.xst = v.xst ∧
           y.notices = tset none x.notices l none ∧ apart t)) ∧
     (∀ (slot : SlotId) (level : Fin 5) (kind : Byte) (word : BitVec 32), s.holder slot = some (e, c) → x.live = true →
       (s.clu (cluOf e)).waking = false → (s.clu (cluOf e)).pst = .c0 → g.inbox = [] →
       let m := s.msgTo e slot 0 (.notice slot level kind word)
       (g.assigned = true → g.hedge = (s.slot slot).hedge →
         (tget none x.notices (level.val + 1) = none →
           Answers (.noticeDelivery slot level kind word) s fun t =>
             ((t.eng e).ctx c).notices = tset none x.notices (level.val + 1) (some ⟨kind, word⟩) ∧ OnlyContext s t e c) ∧
         (tget none x.notices (level.val + 1) ≠ none →
           exec (.noticeDelivery slot level kind word) s = .next { s with refused := s.refused ++ [m] })) ∧
       (¬(g.assigned = true ∧ g.hedge = (s.slot slot).hedge) → s.bounced.length < 4096 →
         exec (.noticeDelivery slot level kind word) s =
           .next { s.setEng e { g with bounce := satInc g.bounce } with bounced := s.bounced ++ [{ m with bounces := 1 }] })) ∧
     (x.live = true → g.wdogLimit ≠ 0 → g.wdogLimit.toNat < x.wdog → x.state ≠ .wait → x.wdp = none →
       Answers (.watchdog e c) s fun t => ((t.eng e).ctx c).wdp = some (BitVec.ofNat 32 x.wdog) ∧ OnlyContext s t e c))

/-- 08 R260, R261, R271: a damaged item makes MACHINE-CHECK pending with its cause and files a CONTEXT record; firmware
ends a quarantined context with the STATUS of ENG_XSTn and the ERR payload, and frees it, after QCAUSE 4 once the
engine is clean. Where the spec can be read in two ways this rests on the model's readings in logs 26 and 33. -/
def Obligations.MachineChecksAndQuarantines : Prop :=
  ∀ (s : State) (e : EngId) (c : CtxId),
    let x := (s.eng e).ctx c
    (∀ d : Damage, x.live = true → x.strikes d = true →
      Answers (.machineCheck e c d) s fun t =>
        ((t.eng e).ctx c).mcheck = some (damageCause d x) ∧
        ((t.eng e).ctx c).damaged = (match d with | .code _ => x.damaged | d => x.damaged ++ [d]) ∧
        s.errq <+: t.errq ∧ (∃ r ∈ t.errq.drop s.errq.length, r.cls = 0x02 ∧ r.slot = some x.slot ∧ r.cause = (damageCause d x).1) ∧
        t = { s with engines := t.engines, clus := t.clus, errq := t.errq, free := t.free }) ∧
    (x.state = .quarantined → (s.slot x.slot).endable = true → (s.slot x.slot).wound = false → x.ending = false →
      let st : Byte := if bits x.xst 15 8 = 0 then 0x01 else x.xst.extractLsb' 8 8
      (s.slot x.slot).fate = none ∨ (s.slot x.slot).fate = some st →
      Answers (.quarantineEnd e c) s fun t =>
        (t.slot x.slot).state = .ending ∧ (t.slot x.slot).status = st ∧
        (t.slot x.slot).detail = x.errPay ∧
        ((t.eng e).ctx c).state = (if x.qcause ≠ 4 ∨ (s.eng e).clean = true then .free else .quarantined))

/-- 02 R50 to R52, 14 R458: a message for an engine in C0 whose port is clear is accepted when HEDGE and EPOCH are the
engine's and it is not older than 100 ms, and else goes to the bounce queue or, with that full, waits in the port; one
for a waking cluster is held, and an accepted one wakes a cluster that sleeps. 02 Table 2-4: firmware takes the front
of the bounce queue; a dispatch of an admitted slot goes to a FREE context of the target, or ends THROTTLED by its
fourth bounce; a wake of a transaction that has ended is counted and discarded, a notice discarded. A command whose
conditions do not hold leaves the state as it is: where such a clause stands, that is the model's choice (log 1).
Where the spec can be read in two ways this rests on the model's readings in logs 9, 56 and 58. -/
def Obligations.MessagesAreDeliveredOrDisposedOf : Prop :=
  (∀ (s : State) (m : EngMsg),
     let g := s.eng m.eng
     let k := s.clu (cluOf m.eng)
     let ok := g.assigned = true ∧ m.hedge = g.hedge ∧ m.epoch = g.epoch ∧ s.aoTick.toNat ≤ m.sent.toNat + 100000
     (k.waking = true →
       exec (.engineMessageArrival m) s = .next (s.setClu (cluOf m.eng) { k with held := k.held ++ [m] })) ∧
     (k.waking = false → k.pst ≠ .c0 → ok →
       exec (.engineMessageArrival m) s = .next (s.setClu (cluOf m.eng) { k with waking := true, held := k.held ++ [m] })) ∧
     (k.waking = false → k.pst = .c0 → g.inbox ≠ [] →
       exec (.engineMessageArrival m) s = .next (s.setEng m.eng { g with inbox := g.inbox ++ [m] })) ∧
     (k.waking = false → k.pst = .c0 → g.inbox = [] →
       (¬ok → s.bounced.length < 4096 → exec (.engineMessageArrival m) s =
         .next { s.setEng m.eng { g with bounce := satInc g.bounce } with bounced := s.bounced ++ [{ m with bounces := m.bounces + 1 }] }) ∧
       (¬ok → 4096 ≤ s.bounced.length → exec (.engineMessageArrival m) s = .next (s.setEng m.eng { g with inbox := [m] })) ∧
       (ok → (s.slot (msgSlot m.kind)).start ≠ m.start → exec (.engineMessageArrival m) s = .next s) ∧
       ∀ (n : SlotId) (p : Prog), let sl := s.slot n
         m.kind = .dispatch n → ok → sl.start = m.start → sl.state = .admitted → sl.prog = some p → (g.ctx sl.ctx).state = .free →
         Answers (.engineMessageArrival m) s fun t => let y := (t.eng m.eng).ctx sl.ctx
           t.slot n = { sl with state := .resident, eng := m.eng, cluster := cluOf m.eng } ∧
           y.state = .ready ∧ y.slot = n ∧ y.pc = BitVec.ofNat 19 (p.at_ + p.entry) ∧ y.psw = ⟨2, 0, false, p.key, p.rm⟩ ∧
           y.locals = [] ∧ y.depth = 2 ∧
           y.win = [cellInt (p.wbase + p.wstride * sl.ctx.val), cellInt (64 * sl.ctx.val)] ∧
           t = { s with engines := t.engines, slots := t.slots })) ∧
  (∀ (s : State) (m : EngMsg) (t : List EngMsg) (target : EngId),
     let n := msgSlot m.kind
     let sl := s.slot n
     s.bounced = m :: t → (∀ e, (s.eng e).inbox = []) →
     (sl.start ≠ m.start → ∀ seq, m.kind = .wake n seq → exec (.bounceDisposal target) s =
       .next (({ s with bounced := t }).modHedge m.hedge fun h => { h with wakeDrops := satInc h.wakeDrops })) ∧
     (sl.start ≠ m.start → (∀ seq, m.kind ≠ .wake n seq) → exec (.bounceDisposal target) s = .next { s with bounced := t }) ∧
     (m.kind = .dispatch n → sl.start = m.start → sl.state = .admitted → 3 ≤ m.bounces → sl.sealed = false → sl.gcs = none → sl.wound = false →
       sl.fate = none →
       Answers (.bounceDisposal target) s fun u => (u.slot n).state = .ending ∧ (u.slot n).status = 0x09 ∧ u.bounced = t) ∧
     ∀ (c : CtxId) (p : Prog), m.kind = .dispatch n → sl.start = m.start → sl.state = .admitted → m.bounces < 3 →
       (s.eng target).assigned = true → (s.eng target).hedge = sl.hedge → (s.eng target).freeCtx? = some c → sl.prog = some p →
       (s.clu (cluOf target)).waking = false → (s.clu (cluOf target)).pst = .c0 →
       Answers (.bounceDisposal target) s fun u =>
         u.slot n = { sl with state := .resident, eng := target, ctx := c, cluster := cluOf target } ∧ u.bounced = t ∧
         ((u.eng target).ctx c).slot = n ∧ ((u.eng target).ctx c).pc = BitVec.ofNat 19 (p.at_ + p.entry))

/-- 05 R169 to R177: what the completion of an asynchronous instruction leaves: for RLD and STAGE inward the record's
bytes in scratch; the completion cell, TRUE, the ERR cell of a failure, or SEQ, pushed (nothing for RPREF), and the
context READY. A cluster whose clock is gated wakes (03 R73, 14 R457). Where the spec can be read in two ways this
rests on the model's readings in logs 34 and 58. -/
def Obligations.CompletionsReachTheirContexts : Prop :=
  ∀ (s : State) (e : EngId) (c : CtxId),
    let x := (s.eng e).ctx c
    let k := s.clu (cluOf e)
    let sync := fun t : State => { t with invWait := t.invWait.filter fun q => q != (e, c) }
    let woken := fun t : State => if k.pst = .c0 ∨ x.yielded = true then t else t.setClu (cluOf e) { k with waking := true }
    let ends := fun (t : State) (f : Ctx → Ctx) => woken ((sync t).modCtx e c f)
    (∀ (r : Cell) (key : BitVec 4) (excl : Bool),
      (x.waitsFor (.rlock r key excl) .data → exec (.rlockComplete e c) s = .next (ends s fun x => x.completed (cellBool true))) ∧
      (∀ st, x.waitsFor (.rlock r key excl) (.failed st) →
        exec (.rlockComplete e c) s = .next (ends s fun x => x.completed (cellErr st)))) ∧
    (∀ (r : Cell) (key : BitVec 4) (st : Stage), (st = .data ∨ (∃ va, st = .pageFault va) ∨ ∃ q, st = .failed q) →
      x.waitsFor (.rpref r key) st → exec (.rprefAck e c) s = .next (ends s fun x => { x with wait := none, state := .ready })) ∧
    (∀ (r : Cell) (key : BitVec 4) (a : Nat) (pl : BitVec 2),
      (∀ st, x.waitsFor (.rld r key a pl) (.failed st) →
        exec (.rldComplete e c) s = .next (ends s fun x => x.completed (cellErr st))) ∧
      (x.waitsFor (.rld r key a pl) .data → pl = 2 → (s.eng e).guarded a (refLen r) = true →
        exec (.rldComplete e c) s = .next (ends s fun x => x.completed (cellErr 0x05))) ∧
      (x.waitsFor (.rld r key a pl) .data → (pl = 2 → (s.eng e).guarded a (refLen r) = false) →
        Answers (.rldComplete e c) s fun t =>
          let h := (s.slot x.slot).hedge
          let m := s.meetRecord h (refAddr r) (refLen r)
          let l := fillCells (m.readRecord h (refAddr r) (refLen r))
          (t.eng e).ctx c = x.completed (cellBool true) ∧
          (∀ j, (t.eng e).cell j = (cellsFrom (a / 16) l j).getD ((s.eng e).cell j)) ∧
          t = { woken (sync m) with engines := t.engines, slots := t.slots } ∧ (∀ i, i ≠ e → t.eng i = s.eng i) ∧
          ∀ i, i ≠ x.slot → t.slot i = s.slot i)) ∧
    (∀ (r : Cell) (key : BitVec 4) (a : Nat) (pl : BitVec 2) (out : Bool) (st : Byte),
      s.stageHead e = some c → (s.chan (stageMover e) (stageChan e)).state ≠ .errHalt → x.waitsFor (.stage r key a out pl) (.failed st) →
        Answers (.stageComplete e c) s fun t => (t.eng e).ctx c = x.completed (cellErr st) ∧
          (∀ j, (t.eng e).cell j = (s.eng e).cell j) ∧ t.hbm = s.hbm) ∧
    (∀ (r : Cell) (key : BitVec 4) (a : Nat) (pl : BitVec 2),
      s.stageHead e = some c → (s.chan (stageMover e) (stageChan e)).state ≠ .errHalt → (pl = 2 → (s.eng e).guarded a (refLen r) = false) →
      x.waitsFor (.stage r key a false pl) .data →
        Answers (.stageComplete e c) s fun t =>
          let h := (s.slot x.slot).hedge
          let b := (s.meetRecord h (refAddr r) (refLen r)).readRecord h (refAddr r) (refLen r)
          (t.eng e).ctx c = x.completed (if b.any (·.2) = true then cellErr 0x04 else cellBool true) ∧
          (∀ j, (t.eng e).cell j = (cellsFrom (a / 16) (fillCells b) j).getD ((s.eng e).cell j)) ∧
          (t.chan (stageMover e) (stageChan e)).stages = (s.chan (stageMover e) (stageChan e)).stages.filter fun n => n != c) ∧
    (∀ (r : Cell) (key : BitVec 4) (a : Nat) (pl : BitVec 2),
      s.stageHead e = some c → (s.chan (stageMover e) (stageChan e)).state ≠ .errHalt → x.waitsFor (.stage r key a true pl) .data →
        Answers (.stageComplete e c) s fun t => (t.eng e).ctx c =
          x.completed (if (cellsOf a (refLen r)).any (fun k => ((s.eng e).cell k).p) = true then cellErr 0x04 else cellBool true)) ∧
    (∀ (slot : SlotId) (m : EngMsg) (ep : Word64) (q seq : BitVec 32) (i : Option Nat), let g := s.eng e
      (∃ l1 l2, s.wakes = l1 ++ m :: l2 ∧ ∀ n ∈ l1, msgSlot n.kind ≠ slot ∧ cluOf n.eng ≠ cluOf e) →
      m.kind = .wake slot seq → m.eng = e → s.holder slot = some (e, c) →
      (s.slot slot).start = m.start → (s.slot slot).state ≠ .idle → (s.slot slot).state ≠ .parked → x.waitsFor (.waitev ep q i) .data →
      k.waking = false → k.pst = .c0 → g.inbox = [] → g.assigned = true → m.hedge = g.hedge → m.epoch = g.epoch → s.aoTick.toNat ≤ m.sent.toNat + 100000 →
        exec (.waitevWake slot) s = .next (ends { s with wakes := s.wakes.erase m } fun x =>
          x.completed ⟨6, 2, false, false, BitVec.ofNat 128 (seq.toNat + 2 ^ 64 * (s.slot slot).hedge.val)⟩)) ∧
    (∀ (slot : SlotId) (w : EvWait) (n : Nat) (ep : Word64) (q : BitVec 32) (i : Option Nat), let h := (s.slot slot).hedge
      (s.hedge h).waitList.find? (fun w => w.slot == slot) = some w → w.expires = some n → n ≤ s.aoTick.toNat →
      s.holder slot = some (e, c) → x.waitsFor (.waitev ep q i) .data →
        exec (.waitevTimeout slot) s = .next (ends (s.modHedge h fun g => { g with
          deadRaised := false, deadSince := none, waitList := g.waitList.erase w }) fun x => x.completed (cellErr 0x03))) ∧
    (∀ (why : BitVec 4) (v : Word64) (a b : Nat) (st : Stage) (d : Option Arrival), x.state = .wait → x.wait = some ⟨why, .commit v a b, st, d⟩ →
      (s.slot x.slot).state ≠ .sealing →
      Answers (.commitOutcome e c) s fun t => let h := (s.eng e).hedge
        ((t.eng e).ctx c).state = .free ∧ (t.hedge h).evDiscards = satAdd (s.hedge h).evDiscards x.pendingCount ∧
        t = { sync s with engines := t.engines, hedges := t.hedges, clus := t.clus } ∧ (∀ i, i ≠ h → t.hedge i = s.hedge i))

/-! ## Engine registers, clears and parking -/

/-- 02 R43, R44, 03 R104, 09 R296: an ENG_ROLE write drops the engine's loop buffer and closes its home window to its
cluster; it sets HEDGE, ROLE and ASSIGNED and advances EPOCH when one of them changes, but an assignment to another
hedge than the last one of an engine that is not CLEAN is only logged as a violation, and ROLE 3 does no more. 02 R51:
firmware makes at most 65,535 changes in 100 ms. 02 R47 to R49: CLEAR begins with ASSIGNED = 0 and no resident
context, waking a cluster that sleeps, and once complete in C0 leaves scratch, locals, windows, return stacks, TLBs
and the home window zero and the engine CLEAN. A command whose conditions do not hold leaves the state as it is: where
such a clause stands, that is the model's choice (log 1). That CLEAN reads 0 while a clear runs is the model's choice
(log 56). Where the spec can be read in two ways this rests on the model's readings in logs 31 and 56. -/
def Obligations.RoleWritesAssignAndClear : Prop :=
  (∀ (s : State) (r : Requester) (e : EngId) (v : Word64),
     let g := s.eng e
     let refused := bit v 8 = true ∧ bits v 5 0 ≠ g.lastHedge.val ∧ g.clean = false
     let same := bits v 5 0 = g.hedge.val ∧ bits v 7 6 = g.role.toNat ∧ bit v 8 = g.assigned
     let touched := fun t : State =>
       (∀ i, i ≠ e → t.eng i = { s.eng i with itlb := (t.eng i).itlb }) ∧
       ∀ (i : EngId) (b : Nat), b < 16 → bit (t.eng i).itlb b =
         (bit (s.eng i).itlb b && !(decide (cluOf i = cluOf e) && decide (b / 2 = e.val % 8)))
     s.reaches r = true →
     (bits v 7 6 = 3 → Answers (.engRoleWrite r e v) s fun t =>
       touched t ∧ t.eng e = { g with loop := none, itlb := (t.eng e).itlb } ∧ t = { s with engines := t.engines }) ∧
     (bits v 7 6 ≠ 3 → refused → Answers (.engRoleWrite r e v) s fun t =>
       touched t ∧ t.eng e = { g with loop := none, itlb := (t.eng e).itlb } ∧
       t = { s.violation r (engBase e) true 2 with engines := t.engines }) ∧
     (bits v 7 6 ≠ 3 → ¬refused → bit v 9 = false → (same ∨ tallied s.aoTick.toNat 100000 g.roleLog < 65535) →
       Answers (.engRoleWrite r e v) s fun t => touched t ∧
         (t.eng e).hedge.val = bits v 5 0 ∧ (t.eng e).role.toNat = bits v 7 6 ∧ (t.eng e).assigned = bit v 8 ∧
         (same → (t.eng e).epoch = g.epoch) ∧ (¬same → (t.eng e).epoch = g.epoch + 1) ∧
         t.eng e = { g with
           hedge := (t.eng e).hedge, role := (t.eng e).role, assigned := (t.eng e).assigned, epoch := (t.eng e).epoch, loop := none
           itlb := (t.eng e).itlb, roleLog := (t.eng e).roleLog } ∧
         t = { s with engines := t.engines, clus := t.clus }) ∧
     (bits v 7 6 ≠ 3 → ¬refused → ¬same → 65535 ≤ tallied s.aoTick.toNat 100000 g.roleLog →
       exec (.engRoleWrite r e v) s = .next s)) ∧
  (∀ (s : State) (r : Requester) (e : EngId),
     let g := s.eng e
     let k := s.clu (cluOf e)
     (s.reaches r = true → g.assigned = false → (∀ kc ∈ g.ctxs, kc.2.state = .free ∨ kc.2.state = .quarantined ∧ kc.2.qcause = 4) →
       Answers (.engineClear r e) s fun t =>
         t.eng e = { g with clearing := true, clean := false, loop := none, itlb := (t.eng e).itlb } ∧
         (k.pst = .c0 → t = { s with engines := t.engines }) ∧
         (k.pst ≠ .c0 → t = { s.setClu (cluOf e) { k with waking := true } with engines := t.engines })) ∧
     (s.reaches r = true → g.assigned = true → g.clearing = false → Answers (.engineClear r e) s fun t =>
       t.eng e = { g with loop := none, itlb := (t.eng e).itlb } ∧ t = { s with engines := t.engines }) ∧
     (g.clearing = true → k.pst = .c0 → Answers (.engineClearComplete e) s fun t => let u := t.eng e
       u = { g with
         scratch := [], marks := [], latent := [], sb := [], loop := none, itlb := 0, dtlb := [], clearing := false, clean := true
         ctxs := u.ctxs } ∧
       (∀ k, u.cell k = Cell.nil) ∧
       (∀ n, u.ctx n = { g.ctx n with
         locals := [], win := [], rs := [], rsp := 0, rsc := 0, soft := [], psw := ⟨0, 0, false, 0, 0⟩, rescue := false }) ∧
       (∀ i, i ≠ e → t.eng i = { s.eng i with loop := (t.eng i).loop } ∧ (cluOf i ≠ cluOf e → t.eng i = s.eng i) ∧
         ∀ lo hi, (t.eng i).loop = some (lo, hi) → cluOf i = cluOf e → 0x10000 * (e.val % 8) + 0x10000 ≤ lo ∨ hi < 0x10000 * (e.val % 8)) ∧
       (∀ a, tget 0 (t.clu (cluOf e)).code a = if 0x10000 * (e.val % 8) ≤ a ∧ a < 0x10000 * (e.val % 8) + 0x10000 then 0
         else tget 0 (s.clu (cluOf e)).code a) ∧
       (∀ k, k ≠ cluOf e → t.clu k = s.clu k) ∧ t = { s with engines := t.engines, clus := t.clus }))

/-- 03 R79, R108, 07 R223, 08 R273, 19 R598: the other engine registers take a legal write, and a context window a write
while its context is FREE, PARKING or QUARANTINED; a write that is out of range, or while a context is resident where
that matters, changes nothing. A command whose conditions do not hold leaves the state as it is: where such a clause
stands, that is the model's choice (log 1). -/
def Obligations.EngineRegistersTakeTheirWrites : Prop :=
  ∀ (s : State) (r : Requester) (e : EngId) (v : Word64),
    let g := s.eng e
    s.reaches r = true →
    ((1 ≤ bits v 32 28 ∧ bits v 32 28 ≤ 16 ∧ 1 ≤ bits v 17 12 ∧ bits v 17 12 + bits v 32 28 ≤ 0x38 →
        exec (.engSwinWrite r e v) s = .next (s.setEng e { g with swinBase := v.extractLsb' 12 6, swinSize := v.extractLsb' 28 5 })) ∧
      (¬(1 ≤ bits v 32 28 ∧ bits v 32 28 ≤ 16 ∧ 1 ≤ bits v 17 12 ∧ bits v 17 12 + bits v 32 28 ≤ 0x38) →
        exec (.engSwinWrite r e v) s = .next s)) ∧
    ((bits v 7 0 = 0 ∨ 8 ≤ bits v 17 8 ∧ bits v 17 8 + bits v 7 0 ≤ 0x380 →
        exec (.engCptWrite r e v) s = .next (s.setEng e { g with cptCount := v.extractLsb' 0 8, cptBase := v.extractLsb' 8 10 })) ∧
      (¬(bits v 7 0 = 0 ∨ 8 ≤ bits v 17 8 ∧ bits v 17 8 + bits v 7 0 ≤ 0x380) → exec (.engCptWrite r e v) s = .next s)) ∧
    ((g.anyResident = false → exec (.engWdogWrite r e v) s = .next (s.setEng e { g with
        wdogLimit := if 1 ≤ bits v 15 0 ∧ bits v 15 0 ≤ 9 then 10 else v.extractLsb' 0 16 })) ∧
      (g.anyResident = true → exec (.engWdogWrite r e v) s = .next s)) ∧
    exec (.engCtlWrite r e v) s = .next (s.setEng e { g with
      strict := bit v 0, rso := bit v 1, lben := bit v 2, idlegate := bit v 3, loop := if bit v 2 then g.loop else none }) ∧
    ∀ (c : CtxId) (off : Fin 128), let x := g.ctx c
      (x.state = .free ∨ x.state = .parking ∨ x.state = .quarantined →
        (off.val = 0 → exec (.contextWindowWrite r e c off v) s = .next (s.setEng e (g.setCtx c { x with pc := v.extractLsb' 0 19 }))) ∧
        (off.val = 1 → bits v 1 0 ≠ 3 → bits v 14 12 ≤ 5 → exec (.contextWindowWrite r e c off v) s = .next (s.setEng e (g.setCtx c { x with
          psw := { x.psw with pl := v.extractLsb' 0 2, m := v.extractLsb' 4 3, key := v.extractLsb' 8 4, rm := v.extractLsb' 12 3 } }))) ∧
        (off.val = 2 → exec (.contextWindowWrite r e c off v) s = .next (s.setEng e (g.setCtx c { x with
          osb := v.extractLsb' 0 18, osl := v.extractLsb' 18 18, depth := v.extractLsb' 36 15, win := [] }))) ∧
        (off.val = 3 → exec (.contextWindowWrite r e c off v) s = .next (s.setEng e (g.setCtx c { x with
          fp := v.extractLsb' 0 18, fbase := v.extractLsb' 36 18
          fl := if bits v 35 18 = 0 ∧ bits v 53 36 ≠ 0 then 0x40000 else BitVec.ofNat 19 (bits v 35 18) }))) ∧
        (32 ≤ off.val → off.val < 96 → exec (.contextWindowWrite r e c off v) s = .next (s.setEng e (g.setCtx c
          (x.setLocal ((off.val - 32) / 4) ((x.local ((off.val - 32) / 4)).setWord ((off.val - 32) % 4) v)))))) ∧
      (¬(x.state = .free ∨ x.state = .parking ∨ x.state = .quarantined) → exec (.contextWindowWrite r e c off v) s = .next s)

/-- 10 R315 to R318: a parkable context's stack, work area and registers go to its image and the context becomes FREE; a
parked slot that may run takes them up again in the same context number of an engine of its hedge that holds its
program, the only such engine or the best by the key of R476; a sleeping cluster is woken first; one that cannot park within 1 s of a
reassignment ends THROTTLED, or will once its request has completed. 02 R52: firmware does neither while the bounce queue holds a message.
02 R60: with PFLUSH = 1 the work flushes a core. Where the spec can be read in two ways this rests on the model's readings in logs 6 and
57. -/
def Obligations.ContextsParkAndUnpark : Prop :=
  ∀ (s : State) (e : EngId) (c : CtxId) (p : Prog),
    let g := s.eng e
    let x := g.ctx c
    let sl := s.slot x.slot
    (s.bounced ≠ [] → exec (.park e c) s = .next s ∧ ∀ slot, exec (.unpark slot e c) s = .next s) ∧
    (sl.prog = some p → s.holder x.slot = some (e, c) → sl.state = .resident → x.parkable p = true → s.bounced = [] →
      s.cluHalted (cluOf e) = false →
      Answers (.park e c) s fun t => ∃ m : Image, t.slot x.slot =
          { sl with state := .parked, image := some m, runnable := x.state == .ready || x.pendingEvent.isSome } ∧
        m.stack = (stackOf g x).reverse ∧
        (∀ i, i < (p.wsize + 15) / 16 → ((∀ j, j ≤ x.depth.toNat → p.workBase c / 16 + i ≠ x.stackSlot j) →
          m.work[i]? = some (g.cell (p.workBase c / 16 + i)))) ∧
        m.ctx.pc = x.pc ∧ m.ctx.psw = x.psw ∧ m.ctx.locals = x.locals ∧ m.ctx.rs = x.rs ∧ m.ctx.rsp = x.rsp ∧ m.ctx.rsc = x.rsc ∧
        m.ctx.wait = x.wait ∧ m.ctx.pb = x.pb ∧ m.ctx.fp = x.fp ∧ m.ctx.osb = x.osb ∧ m.ctx.depth = x.depth ∧ m.ctx.yielded = false ∧
        ((t.eng e).ctx c).state = .free ∧
        t = { s.flushFor sl.hedge with engines := t.engines, slots := t.slots, clus := t.clus, invWait := t.invWait }) ∧
    (∀ (slot : SlotId) (m : Image), let sl := s.slot slot
      sl.prog = some p → sl.image = some m → sl.state = .parked → sl.runnable = true → c = sl.ctx → g.assigned = true → g.hedge = sl.hedge →
      x.state = .free → (e, c) ∉ s.reserved → (s.clu (cluOf e)).holds p = true → s.bounced = [] →
      (∀ i, (s.eng i).assigned = true → (s.eng i).hedge = sl.hedge → i = e) ∨
        s.bestTarget (s.hedgePort sl.hedge) sl.hedge (s.unparkTargets sl p) = some (e, c) →
      ((s.clu (cluOf e)).pst = .c1 ∨ (s.clu (cluOf e)).pst = .c2 ∨ (s.clu (cluOf e)).pst = .c3 →
        exec (.unpark slot e c) s = .next ((s.flushFor sl.hedge).setClu (cluOf e) { s.clu (cluOf e) with waking := true })) ∧
      ((s.clu (cluOf e)).pst = .c0 → s.cluHalted (cluOf e) = false →
        Answers (.unpark slot e c) s fun t => let y := (t.eng e).ctx c
          t.slot slot = { sl with state := .resident, eng := e, cluster := cluOf e, image := none, runnable := false } ∧
          y.state = m.ctx.state ∧ y.pc = m.ctx.pc ∧ y.psw = m.ctx.psw ∧ y.locals = m.ctx.locals ∧ y.rs = m.ctx.rs ∧ y.wait = m.ctx.wait ∧
          y.depth = m.ctx.depth ∧ y.wdog = 0 ∧ y.slot = m.ctx.slot ∧
          (∀ i, i < m.work.length → (t.eng e).cell (p.workBase c / 16 + i) = (m.work[i]?).getD Cell.nil) ∧
          t = { s.flushFor sl.hedge with engines := t.engines, slots := t.slots, hedges := t.hedges })) ∧
    (sl.prog = some p → g.assigned = false → s.holder x.slot = some (e, c) → x.parkable p = false → sl.endable = true → sl.wound = false →
      sl.fate = none → x.state ≠ .quarantined →
      ((∀ w, x.request? = some w → w.moving = false) →
        Answers (.parkWaitTimeout e c) s fun t => (t.slot x.slot).state = .ending ∧ (t.slot x.slot).status = 0x0B ∧
          ((t.eng e).ctx c).state = (if x.state = .busy ∧ x.request? = none then .busy else .free)) ∧
      (∀ w, x.request? = some w → w.moving = true →
        Answers (.parkWaitTimeout e c) s fun t => (t.slot x.slot).fate = some 0x0B ∧ ((t.eng e).ctx c).ending = true ∧
          ((t.eng e).ctx c).state = .wait))

/-! ## Rings of the host functions -/

/-- 13 R421, R425, 14 R476: a doorbell in range sets the tail or head, the submission doorbell choosing for every entry that it makes
visible a FREE context of a FAST engine of the hedge above C4 that is not reserved, where there is one; one out of range posts the
DOORBELL event; one that the rings do not take is dropped and counted; and the first event once the event ring has space again is
EVENTS_LOST with the count of those dropped. 13 R417 to R419, R422, R440, R604, 10 R313: EN := 1 with legal bases makes the rings READY
with cleared indices and the phase bits set, and a suspect ring's first event CQ_SUSPECT; an admin ring enabled while the device starts is
READY later; else CFGERR; EN := 0 takes the rings down; the configuration registers take a write while EN = 0, the MSI-X table takes one
always, and a write of another size, place or offset is dropped and counted. A command whose conditions do not hold leaves the state as it
is: where such a clause stands, that is the model's choice (log 1). One choice of target for each visible entry is the model's choice (log
59). Where the spec can be read in two ways this rests on the model's readings in logs 6 and 23. -/
def Obligations.RingsAreConfiguredAndMoved : Prop :=
  (∀ (s : State) (f : FnId) (v : Word64),
     let q := s.fn f
     (∀ (i : Instr) (which : Nat) (w : Nat) (size : BitVec 5) (open_ : Bool),
       (i, which, w, size, open_) ∈ [(Instr.sqDoorbell f v, 0, bits v 15 0, q.sqLog2, q.open?), (.cqDoorbell f v, 1, bits v 15 0, q.cqLog2, q.openOut),
         (.eqDoorbell f v, 2, bits v 11 0, q.eqLog2, q.openOut)] →
       (open_ = false → Answers i s fun t => Dropped s t f) ∧
       (open_ = true → 2 ^ size.toNat ≤ w →
         let e : Ev := { kind := 6, a := 0, b := 0, c := BitVec.ofNat 32 which, d := v }
         (q.eqRoom = true → Answers i s fun t => t.fn f = q.evented s.aoTick ∧ OnlyFn s t f (q.sends f e)) ∧
         (q.eqRoom = false → Answers i s fun t => t.fn f = { q with evDropped := satInc q.evDropped } ∧ OnlyFn s t f []))) ∧
     (q.open? = true → bits v 15 0 < 2 ^ q.sqLog2.toNat →
       (q.hedge = none → exec (.sqDoorbell f v) s = .next (s.setFn f { q with sqTail := v.extractLsb' 0 16 })) ∧
       (∀ h, q.hedge = some h →
         let may := fun (e : EngId) (x : CtxId) => (s.eng e).assigned = true ∧ (s.eng e).hedge = h ∧ (s.eng e).role = 0 ∧
           ((s.eng e).ctx x).state = .free ∧ (s.clu (cluOf e)).pst ≠ .c4
         Answers (.sqDoorbell f v) s fun t => ∃ cs : List (Option (EngId × CtxId)),
           cs.length = (bits v 15 0 + 2 ^ q.sqLog2.toNat - q.sqTail.toNat) % 2 ^ q.sqLog2.toNat ∧
           t.fn f = { q with sqTail := v.extractLsb' 0 16, targets := q.targets ++ cs } ∧ OtherFns s t f ∧ (cs.filterMap id).Nodup ∧
           (∀ e x, some (e, x) ∈ cs → may e x ∧ (e, x) ∉ s.reserved) ∧ (none ∈ cs → ∀ e x, may e x → (e, x) ∈ t.reserved) ∧
           t = { s with fns := t.fns, hedges := t.hedges, clus := t.clus })) ∧
     (q.openOut = true → bits v 15 0 < 2 ^ q.cqLog2.toNat →
       exec (.cqDoorbell f v) s = .next (s.setFn f { q with cqHead := v.extractLsb' 0 16 })) ∧
     (q.openOut = true → bits v 11 0 < 2 ^ q.eqLog2.toNat → let u : Fn := { q with eqHead := v.extractLsb' 0 12 }
       (q.evDropped = 0 → exec (.eqDoorbell f v) s = .next (s.setFn f u)) ∧
       (q.evDropped ≠ 0 → u.eqRoom = true → Answers (.eqDoorbell f v) s fun t =>
         t.fn f = { u.evented s.aoTick with evDropped := 0 } ∧
         OnlyFn s t f (u.sends f { kind := 4, a := 0, b := 0, c := q.evDropped, d := 0 })))) ∧
  (∀ (s : State) (f : FnId),
     let q := s.fn f
     (q.d3 = false → q.en = false → q.state = .down → q.basesOk = true →
       ((isPf f = true → s.keeper.bootFail = false ∧ (s.devstat = 2 ∨ s.devstat = 3)) →
       (∀ h, q.hedge = some h → (s.hedge h).pairTell = false) →
       Answers (.ringEnable f) s fun t =>
         (t.fn f).state = .ready ∧ (t.fn f).en = true ∧ (t.fn f).cfgerr = false ∧ (t.fn f).sqHead = 0 ∧ (t.fn f).sqTail = 0 ∧ (t.fn f).cqHead = 0 ∧
         (t.fn f).cqTail = 0 ∧ (t.fn f).eqHead = 0 ∧ (t.fn f).cqPhase = true ∧ (t.fn f).expHsn = q.hsn0 ∧ (t.fn f).suspect = none ∧
         (t.fn f).targets = [] ∧ OtherFns s t f ∧
         (q.evDropped = 0 → q.suspect = none → t.out = s.out ∧ (t.fn f).eqTail = 0 ∧ (t.fn f).eqPhase = true) ∧
         (∀ v, q.evDropped = 0 → q.suspect = some v → t.out = s.out ++ ({ q with eqTail := 0, eqPhase := true } : Fn).sends f v)) ∧
       (isPf f = true → s.keeper.bootFail = false → s.devstat = 0 ∨ s.devstat = 1 → Answers (.ringEnable f) s fun t =>
         (t.fn f).opening = true ∧ (t.fn f).en = true ∧ (t.fn f).state = .down ∧ OnlyFn s t f [])) ∧
     (q.d3 = false → q.en = false → q.state ≠ .down ∨ q.basesOk = false ∨ (isPf f = true ∧ s.keeper.bootFail = true) →
       exec (.ringEnable f) s = .next (s.setFn f { q with cfgerr := true })) ∧
     (isPf f = true → (∀ c ∈ q.waiting, c.table = none) → Answers (.ringDisable f) s fun t =>
       (t.fn f).state = .down ∧ (t.fn f).en = false ∧ (t.fn f).waiting = [] ∧ (∀ c ∈ (t.fn f).cur, c.mute = true) ∧ OnlyFn s t f []) ∧
     (isPf f = false → q.posting = true → q.flr = false → q.cur = [] → q.waiting = [] → (∀ h, q.hedge = some h → s.liveSlots h = []) →
       Answers (.ringDisable f) s fun t =>
         t.fn f = { q with state := .down, en := false, reread := none, targets := [], migPost := false } ∧ OnlyFn s t f []) ∧
     (isPf f = false → q.posting = false → exec (.ringDisable f) s = .next s) ∧
     exec (.sqrestart f) s = .next (s.setFn f { q with sqerr := false }) ∧
     ∀ b : Fin 3, exec (.startBlockDiscard b) s = .next { s with startBlk := tset (0, 0) s.startBlk b.val (0, 0) }) ∧
  ∀ (s : State) (f : FnId) (off len : Nat) (v : Word64),
    let q := s.fn f
    let table := if isPf f then 0x8000 else 0x2000
    let named := fun a => a ∈ [0, 8, 0x10, 0x100, 0x108, 0x110, 0x118, 0x120, 0x128, 0x130, 0x200] ∨ (isPf f = true ∧ a ∈ [0x1000, 0x1008])
    q.d3 = false →
    (∀ w : Word64, (len = 8 ∧ w = v ∨ len = 4 ∧ w = BitVec.ofNat 64 (bits v 31 0)) →
      (∀ i, (off, i) ∈ [(0, Instr.sqDoorbell f w), (8, .cqDoorbell f w), (0x10, .eqDoorbell f w)] → exec (.dhpConfigWrite f off len v) s = exec i s) ∧
      (∀ u, (off, u) ∈ [(0x110, { q with sqBase := w.extractLsb' 12 52 }),
          (0x118, { q with cqBase := w.extractLsb' 12 52 }), (0x120, { q with eqBase := w.extractLsb' 12 52 })] →
        exec (.dhpConfigWrite f off len v) s = .next (s.setFn f (if q.en then q else u))) ∧
      (off = 0x108 →
        (bit w 1 = false → bit w 0 = true → exec (.dhpConfigWrite f off len v) s =
          exec (.ringEnable f) (if q.en then s else s.setFn f { q with hsn0 := w.extractLsb' 32 32 })) ∧
        (bit w 1 = false → bit w 0 = false → q.en = true → exec (.dhpConfigWrite f off len v) s = exec (.ringDisable f) s) ∧
        (bit w 1 = false → bit w 0 = false → q.en = false →
          exec (.dhpConfigWrite f off len v) s = .next (s.setFn f { q with hsn0 := w.extractLsb' 32 32 })) ∧
        (bit w 1 = true → bit w 0 = q.en → Answers (.dhpConfigWrite f off len v) s fun t => OnlyFn s t f [] ∧
          t.fn f = { q with sqerr := false, hsn0 := if q.en then q.hsn0 else w.extractLsb' 32 32 })) ∧
      (off = 0x128 → exec (.dhpConfigWrite f off len v) s = .next (s.setFn f (if q.en || !ringCfgOk w then q else
        { q with sqLog2 := w.extractLsb' 0 5, cqLog2 := w.extractLsb' 8 5, eqLog2 := w.extractLsb' 16 5 }))) ∧
      (off = 0x130 → exec (.dhpConfigWrite f off len v) s = .next (s.setFn f
        { q with intCnt := if bits w 7 0 = 0 then 1 else w.extractLsb' 0 8, intTime := w.extractLsb' 16 16 })) ∧
      (off ∈ [0x100, 0x200] ∨ (isPf f = true ∧ off ∈ [0x1000, 0x1008]) → exec (.dhpConfigWrite f off len v) s = .next s)) ∧
    (len = 4 → off % 8 = 4 → named (off - 4) → exec (.dhpConfigWrite f off len v) s = .next s) ∧
    (∀ (second : Bool) (x y : Msix) (a : Nat), x = (if second then q.vec1 else q.vec0) → off = table + (if second then 16 else 0) + a →
      (a, len, y) ∈ [(0, 8, { x with addr := v }), (8, 8, { x with data := v.extractLsb' 0 32, mask := bit v 32 }),
        (0, 4, { x with addr := BitVec.ofNat 64 (x.addr.toNat / 2 ^ 32 * 2 ^ 32 + bits v 31 0) }),
        (4, 4, { x with addr := BitVec.ofNat 64 (x.addr.toNat % 2 ^ 32 + 2 ^ 32 * bits v 31 0) }),
        (8, 4, { x with data := v.extractLsb' 0 32 }), (12, 4, { x with mask := bit v 0 })] →
      Answers (.dhpConfigWrite f off len v) s fun t =>
        let z : Msix := { y with pend := y.pend && y.mask }
        t.fn f = (if second then { q with vec1 := z } else { q with vec0 := z }) ∧
        OnlyFn s t f (if y.pend = true ∧ y.mask = false then [.msix f second] else [])) ∧
    ((len ≠ 4 ∧ len ≠ 8) ∨ off % len ≠ 0 ∨
        (¬named (off / 8 * 8) ∧ ¬(table ≤ off ∧ off < table + 32) ∧ off / 8 * 8 ≠ table + 0x1000) →
      Answers (.dhpConfigWrite f off len v) s fun t => Dropped s t f)

/-- 02 R40, 13 R419, R440, 18 R575, 19 R599: a reset of an idle function takes its rings DOWN and its registers to their
reset values; a host port's reset logs its oldest recent write and marks every bound VF's rings suspect; D3hot takes
the rings down, and D0 gives the registers back; a host port's link comes up with what it negotiated. Where the spec can be read in two
ways this rests on the model's readings in logs 30 and 75. -/
def Obligations.FunctionsResetAndSleep : Prop :=
  ∀ (s : State) (f : FnId),
    let q := s.fn f
    (q.posting = false → q.state ≠ .draining → isPf f = false →
      exec (.functionLevelReset f) s = .next (s.setFn f q.regReset)) ∧
    (isPf f = false → q.posting = true → q.cur = [] → q.waiting = [] → (∀ h, q.hedge = some h → s.liveSlots h = []) →
      Answers (.functionLevelReset f) s fun t =>
        (t.fn f).state = .down ∧ (t.fn f).en = false ∧ (t.fn f).sqBase = 0 ∧ (t.fn f).cqBase = 0 ∧ (t.fn f).eqBase = 0 ∧ (t.fn f).sqLog2 = 4 ∧
        (t.fn f).intCnt = 1 ∧ (t.fn f).hedge = q.hedge ∧ (t.fn f).cqsus = q.cqsus ∧ OnlyFn s t f []) ∧
    (isPf f = true → q.state ≠ .draining → (∀ c ∈ q.waiting, c.table = none) → Answers (.functionLevelReset f) s fun t =>
      (t.fn f).state = .down ∧ (t.fn f).en = false ∧ (t.fn f).sqBase = 0 ∧ OnlyFn s t f []) ∧
    (∀ p : PortId, Answers (.hostPortReset p) s fun t =>
      (t.port p).l0 = false ∧ (∀ g, portOf g = p → isPf g = false → (s.fn g).hedge.isSome = true → (t.fn g).cqsus = true ∧ (t.fn g).eqsus = true) ∧
      (∀ g, portOf g = p → isPf g = true → (s.fn g).state ≠ .draining → (t.fn g).state = .down) ∧
      (∀ g w, s.oldestSent p = some (g, w) → (s.port p).logV = false →
        (t.port p).logV = true ∧ (t.port p).logAddr = w.addr ∧ (t.port p).logHsn = w.hsn ∧ (t.port p).logEvt = w.event)) ∧
    (isPf f = true → (∀ c ∈ q.waiting, c.table = none) → Answers (.d3hotEntry f) s fun t => (t.fn f).d3 = true ∧ (t.fn f).state = .down ∧ (t.fn f).sqBase = q.sqBase ∧ OnlyFn s t f []) ∧
    (isPf f = false → q.posting = false → exec (.d3hotEntry f) s = .next (s.setFn f { q with d3 := true })) ∧
    exec (.d0Return f) s = .next (s.setFn f { q with d3 := false }) ∧
    ∀ (p : PortId) (rate : BitVec 3) (width : BitVec 5) (flit : Bool) (mps mrrs : Fin 6),
      1 ≤ rate.toNat → rate.toNat ≤ 6 → width.toNat ∈ [1, 2, 4, 8, 16] → exec (.perstDeassertion p rate width ⟨flit, mps, mrrs⟩) s =
        .next (s.setPort p { s.port p with
          rate := rate, width := width, flit := flit, l0 := true, crs := decide (s.keeper.step < 8) && s.devstat != 3
          mps := 128 * 2 ^ mps.val, mrrs := 128 * 2 ^ mrrs.val })

/-- 13 R420, R423, R424, R427: the first waiting completion that may be posted goes to the tail of the completion ring
with the ring's phase, sends vector 0 when COUNT have been posted, lets its slot become IDLE, and makes the change of a registration
take effect that awaits it (13 R432, R451); the vector-0 timer sends vector 0 after TIME; a masked vector keeps its message pending (log 23: its mask bit is the family's). -/
def Obligations.CompletionsArePosted : Prop :=
  ∀ (s : State) (f : FnId),
    let q := s.fn f
    (∀ c : Compl, q.posting = true → q.cqRoom = true → q.resyncing = false →
      (q.waiting.find? (fun c => s.postable f c) = some c ∨
        ∃ l, q.waiting = c :: l ∧ c.slot = none ∧ (c.gk = .carried ∨ c.gk = .watermark)) →
      Answers (.completionPost f) s fun t =>
        let d : Compl := if c.gk = .carried then { c with gcs := (match q.hedge with | some h => (s.hedge h).gcsPosted | none => s.lehr.drawn) } else c
        let full := decide (q.intCnt.toNat ≤ q.cqSince + 1)
        t.out = s.out ++ (Out.host f (BitVec.ofNat 64 (q.cqBase.toNat * 4096 + 32 * q.cqTail.toNat)) (d.bytes q.cqPhase) false ::
          if full = true ∧ q.vec0.mask = false then [.msix f false] else []) ∧
        (c.slot = none → (t.fn f).vec0 = { q.vec0 with pend := q.vec0.pend || (full && q.vec0.mask) } ∧ (t.fn f).cqTail.toNat = (q.cqTail.toNat + 1) % 2 ^ q.cqLog2.toNat % 2 ^ 16 ∧ (t.fn f).waiting = q.waiting.erase c ∧
          (t.fn f).cqSince = (if full = true then 0 else q.cqSince + 1)) ∧
        (∀ n, c.slot = some n → t.slot n = Slot.reset) ∧
        (∀ g n p l, c.table = some g → (s.hedge g).awaited = (n, p) :: l →
          tget none (t.hedge g).progs n = p ∧ (t.hedge g).awaited = l) ∧
        ∀ h, q.hedge = some h → (t.hedge h).gcsPosted =
          (if c.gk = .own ∧ (s.hedge h).gcsPosted.toNat < c.gcs.toNat then c.gcs else (s.hedge h).gcsPosted)) ∧
    (∀ due, q.cqSince ≠ 0 → q.cqDue = some due → due ≤ s.aoTick.toNat →
      Answers (.vector0Timer f) s fun t => t.fn f = { q with cqSince := 0, vec0 := { q.vec0 with pend := q.vec0.pend || q.vec0.mask } } ∧
        OnlyFn s t f (if q.vec0.mask then [] else [.msix f false])) ∧
    (q.cqSince = 0 ∨ q.cqDue = none ∨ (∃ due, q.cqDue = some due ∧ s.aoTick.toNat < due) → exec (.vector0Timer f) s = .next s)

/-! ## Host commands -/

/-- 13 R422, R423, R429, R430, R433, R438, 10 R312 to R314: an entry whose HSN matches is consumed and taken up, a RUN
with a slot drawn, its program and its argument cells, a long command with a slot for its step; one that is malformed
is refused with DATA, an unknown program or token or a full cap with its status, and a fenced one waits in the ring;
one whose HSN does not match or that is poisoned is read again, and after the third time consumed with STALE_SUBMIT; a
bus error stops the reading. Where the spec can be read in two ways this rests on the model's readings in logs 6, 19,
20, 28, 60 and 77. -/
def Obligations.SubmissionEntriesAreTakenUp : Prop :=
  ∀ (s : State) (f : FnId) (bytes : List Byte) (i : Instr),
    let q := s.fn f
    let b := bytes.take 64
    let next : BitVec 16 := BitVec.ofNat 16 ((q.sqHead.toNat + 1) % 2 ^ q.sqLog2.toNat)
    let r := s.drawStart (portOf f).val
    let asIs := cmdHsn bytes
    let reads := fun (poison fault : Bool) => (s.mayRead f = true ∧ i = .commandRead f bytes poison fault) ∨
      ((∃ x, q.reread = some x) ∧ s.readable f = true ∧ i = .submitReread f bytes poison fault)
    let took := fun (t : State) => (t.fn f).sqHead = next ∧ (t.fn f).expHsn = q.expHsn + 1 ∧ (t.fn f).reread = none ∧
      t.out = s.out ++ [.read f q.entryAt 64] ∧ OtherFns s t f
    let kept := fun (t : State) => (t.fn f).sqHead = q.sqHead ∧ (t.fn f).expHsn = q.expHsn ∧ (t.fn f).cur = q.cur ∧ (t.fn f).waiting = q.waiting
    let refused := fun (t : State) (st : Byte) => took t ∧ (t.fn f).cur = q.cur ∧ (t.fn f).waiting = q.waiting ++
      [(Cmd.fresh b 0 none none).ends { q with sqHead := next } .carried 0 st 0 0]
    bytes.length = 64 →
    (reads false false → asIs = q.expHsn →
      (∀ h, q.hedge = some h →
        (shapeOk b = false → Answers i s fun t => refused t 0x07) ∧
        (shapeOk b = true → cmdFence b = true → s.allPosted f h = false → Answers i s fun t => kept t ∧ (t.fn f).reread = q.reread) ∧
        (shapeOk b = true → (cmdFence b = true → s.allPosted f h = true) →
          (cmdOp b ∈ [0x02, 0x03, 0x04, 0x05, 0x06] → (cmdOp b = 0x06 → s.allEnded f h = true) → Answers i s fun t => took t ∧
            (t.fn f).cur = q.cur ++ [Cmd.fresh b r.1 none none] ∧ (t.fn f).waiting = q.waiting) ∧
          (∀ p args, cmdOp b = 0x01 → (s.hedge h).prog (cmdProg b) = some p → s.runArgs h p b = .ok args ∨ intArgs p b = some args →
            (s.slotFree h → Answers i s fun t => took t ∧ ∃ n, (s.slot n).state = .idle ∧
              (t.fn f).cur = q.cur ++ [Cmd.fresh b r.1 (some n) (if p.fast && !cmdSgl b && !cmdFence b then q.targets.head?.join else none)] ∧
              t.slot n = { Slot.reset with
                state := .admitted, hedge := h, retry := p.retry, start := r.1, cmd := b, prog := some p, args := args } ∧
              ∀ m, m ≠ n → t.slot m = s.slot m) ∧
            (s.slotRoom h = .capped → Answers i s fun t => refused t 0x0B)) ∧
          (cmdOp b = 0x01 → (s.hedge h).prog (cmdProg b) = none → Answers i s fun t => refused t 0x05) ∧
          (cmdOp b ∈ [0x10, 0x11, 0x12, 0x13] → ∀ (p : Option Prog),
            (cmdOp b = 0x11 → p.isSome = true ∧ (s.hedge h).prog (cmdProg b) = p) → (cmdOp b ≠ 0x11 → p = none) →
            s.slotFree h → ∀ (cmd : List Byte) (first : Nat) (start : Word64),
            (cmdOp b = 0x13 → fieldOf cmd 16 6 + fieldOf cmd 24 8 ≤ 2 ^ 48) →
            (cmdParam b = 0 ∧ cmd = b ∧ first = 0 ∧ start = r.1 ∨
              cmdParam b ≠ 0 ∧ start = (r.2.drawStart 2).1 ∧ ∃ x, (s.hedge h).tokens = [x] ∧ x.value = cmdParam b ∧ x.op.toNat = cmdOp b ∧
                x.late s.aoTick = false ∧ cmd = x.cmd ∧ first = x.next) →
            Answers i s fun t => took t ∧ (t.fn f).waiting = q.waiting ∧ (cmdParam b ≠ 0 → (t.hedge h).tokens = []) ∧
              ∃ n, (s.slot n).state = .idle ∧ (t.fn f).cur = q.cur ++ [Cmd.fresh b start (some n) none] ∧
              t.slot n = { Slot.reset with
                state := .admitted, hedge := h, retry := p.elim 0 (·.retry), start := start, cmd := b, prog := p, work := .step cmd first } ∧
              ∀ m, m ≠ n → t.slot m = s.slot m) ∧
          (cmdOp b ∈ [0x10, 0x11, 0x12, 0x13] → cmdParam b ≠ 0 →
            ((∀ x ∈ (s.hedge h).tokens, x.value = cmdParam b → x.op.toNat ≠ cmdOp b) → Answers i s fun t => refused t 0x07) ∧
            (∀ x, (s.hedge h).tokens = [x] → x.value = cmdParam b → x.op.toNat = cmdOp b → x.late s.aoTick = true →
              Answers i s fun t => refused t 0x03)))) ∧
      (q.hedge = none →
        (adminShapeOk b = true → (s.devstat = 3 → cmdOp b ∈ [0x81, 0x88, 0x89]) → (cmdOp b = 0x89 → s.updating = false) →
          Answers i s fun t => took t ∧ (t.fn f).cur = q.cur ++ [Cmd.fresh b 0 none none]) ∧
        (adminShapeOk b = false → Answers i s fun t => refused t 0x07))) ∧
    (∀ poison, asIs ≠ q.expHsn ∨ poison = true →
      (s.mayRead f = true → Answers (.commandRead f bytes poison false) s fun t => kept t ∧ (t.fn f).reread = some (0, asIs) ∧
        (poison = true → (f.val % 65, aerPoisoned) ∈ (t.port (portOf f)).aer)) ∧
      ∀ n x, q.reread = some (n, x) → s.readable f = true →
        (n < 2 → Answers (.submitReread f bytes poison false) s fun t => kept t ∧ (t.fn f).reread = some (n + 1, asIs)) ∧
        (2 ≤ n → Answers (.submitReread f bytes poison false) s fun t => took t ∧ (t.fn f).cur = q.cur ∧ ∃ k,
          (t.fn f).waiting = q.waiting ++ [k] ∧ k.hsn = q.expHsn ∧ k.status = 0x08 ∧ k.detail = BitVec.ofNat 64 asIs.toNat)) ∧
    (∀ poison, reads poison true → Answers i s fun t => kept t ∧ (t.fn f).sqFault = some q.entryAt ∧ (t.fn f).reread = none)

/-- 13 R430 to R432, R437, 14 R476, R477: a RUN goes to the context reserved for it at its doorbell, or stays ADMITTED for firmware, which
dispatches it to a GENERAL engine, the only one of the hedge or the best by the key of R476; with SGL its cell 1 is the byte total and the
bytes go to the work area, and a failed or malformed gather ends it. 02 R52, R60: firmware dispatches nothing while the bounce queue holds a
message, and with PFLUSH = 1 its work flushes a core. Where the spec can be read in two ways this rests on the model's readings in logs 6,
19, 57 and 59. -/
def Obligations.RunsReachTheirContexts : Prop :=
  ∀ (s : State) (f : FnId) (h : HedgeId) (c : Cmd) (n : SlotId) (p : Prog),
    let q := s.fn f
    let sl := s.slot n
    let on := q.hedge = some h ∧ q.oldest 0x01 = some c ∧ c.slot = some n
    sl.prog = some p → sl.state = .admitted →
    (∀ (e : EngId) (x : CtxId) (list data : List Byte) (st : Byte), let g := s.eng e
      on → cmdSgl c.bytes = false → c.target = some (e, x) → (s.clu (cluOf e)).waking = false →
      (s.clu (cluOf e)).pst = .c0 → g.inbox = [] → g.assigned = true → g.hedge = sl.hedge → (g.ctx x).state = .free →
      Answers (.run f list data st) s fun t =>
        t.slot n = { sl with state := .resident, eng := e, ctx := x, cluster := cluOf e } ∧ ((t.eng e).ctx x).slot = n ∧
        ((t.eng e).ctx x).state = .ready ∧ ((t.eng e).ctx x).pc = BitVec.ofNat 19 (p.at_ + p.entry) ∧
        t.fn f = { q with cur := q.cur.erase c } ∧ OtherFns s t f ∧
        t = { s with fns := t.fns, slots := t.slots, engines := t.engines }) ∧
    (∀ (list data : List Byte) (st : Byte), on → cmdSgl c.bytes = false → c.target = none →
      Answers (.run f list data st) s fun t => t.fn f = { q with cur := q.cur.erase c } ∧ OnlyFn s t f []) ∧
    (∀ (list data : List Byte) (es : List (Word64 × Nat)), on → cmdSgl c.bytes = true → sglEntries list (fieldOf sl.cmd 24 2) = some es →
      (es.map (·.2)).sum ≤ p.sglmax → Answers (.run f list data 0) s fun t =>
        t.slot n = { sl with args := sl.args.set 1 (cellInt (es.map (·.2)).sum), sgl := data.take (es.map (·.2)).sum } ∧
        t.out = s.out ++ (Out.read f (BitVec.ofNat 64 (fieldOf sl.cmd 16 8)) (16 * fieldOf sl.cmd 24 2) :: es.map fun e => .read f e.1 e.2)) ∧
    (∀ (list data : List Byte) (st : Byte), on → cmdSgl c.bytes = true → st ≠ 0 → sl.sealed = false → sl.gcs = none → sl.wound = false →
      sl.fate = none → Answers (.run f list data st) s fun t => (t.slot n).state = .ending ∧ (t.slot n).status = st) ∧
    (∀ (e : EngId) (x : CtxId), let g := s.eng e
      s.bounced = [] → (s.hedge sl.hedge).fn = some f → (∀ c ∈ q.cur, c.slot ≠ some n) →
      g.assigned = true → g.hedge = sl.hedge → (g.ctx x).state = .free → (e, x) ∉ s.reserved →
      (∀ y, y < x → (g.ctx y).state = .free → (e, y) ∈ s.reserved) → s.roleFits sl p e = true →
      (s.clu (cluOf e)).holds p = true → (s.clu (cluOf e)).waking = false → (s.clu (cluOf e)).pst = .c0 → g.inbox = [] →
      (∀ i, (s.eng i).assigned = true → (s.eng i).hedge = sl.hedge → i = e) ∨
        s.bestTarget (s.hedgePort sl.hedge) sl.hedge (s.dispatchTargets sl p) = some (e, x) →
      Answers (.firmwareDispatch n e x) s fun t =>
        t.slot n = { sl with state := .resident, eng := e, ctx := x, cluster := cluOf e } ∧ ((t.eng e).ctx x).slot = n ∧
        ((t.eng e).ctx x).state = .ready ∧ ((t.eng e).ctx x).pc = BitVec.ofNat 19 (p.at_ + p.entry) ∧
        t = { s.flushFor sl.hedge with slots := t.slots, engines := t.engines, hedges := t.hedges }) ∧
    ∀ (e : EngId) (x : CtxId), s.bounced ≠ [] → exec (.firmwareDispatch n e x) s = .next s

/-- 13 R434 to R436, R444, 10 R340: READ takes the record under a shared lock, writes it to the buffer, behind its
endpoint's entry with EP, and returns the observed GCS and the length, or joins the waiters behind an exclusive
holder, which it wounds when it is the older; SIGNAL raises EVSEQ; EPSET writes the endpoint, keeping EVSEQ and MARM;
MAP adds or removes pages; RESYNC reposts the history's completions of its range and returns the durable watermark.
None of these commands and none of the long ones goes on while the bounce queue holds a message (02 R52). Where the
spec can be read in two ways this rests on the model's readings in logs 6, 19, 20, 28, 42 and 57. -/
def Obligations.HedgeCommandsTakeEffect : Prop :=
  ∀ (s : State) (f : FnId) (h : HedgeId) (c : Cmd),
    let q := s.fn f
    let b := c.bytes
    (s.bounced ≠ [] → ∀ i ∈ [Instr.read f, .signal f, .epset f, .map f, .resync f, .scan f, .bulk f [b], .checkpoint f, .rebuild f false],
      exec i s = .next s) ∧
    (∀ (r : Cell) (head : List Byte),
      (cmdEp b = false ∧ r = hostRef false (cellBytes b 1) ∧ head = []) ∨
        (∃ d, cmdEp b = true ∧ s.defined? h (fieldOf b 16 4) = some d ∧ r = endpointRef d ∧ head = endpointBytes d) →
      let n := head.length + refLen r
      s.doing f 0x02 h c → refOk r = true →
      (n ≤ fieldOf b 40 4 → (cmdParam b).toNat ≤ s.lehr.drawn.toNat → (cmdParam b).toNat ≤ s.lehr.applied.toNat →
        (s.recordReads h (refAddr r) (refLen r) c →
          Answers (.read f) s fun t => ∃ o, t.out = s.out ++ o ∧
            o.getLast? = some (.host f (BitVec.ofNat 64 (fieldOf b 32 8)) (head ++ (s.readRecord h (refAddr r) (refLen r)).map (·.1)) false) ∧
            (t.fn f).cur = q.cur.erase c ∧ (t.fn f).waiting = q.waiting ++ [c.ends q .observed s.lehr.drawn 0 n 0]) ∧
        (∀ m, s.lockedRead h (refAddr r) (refLen r) c = .locked → c.waits = none → q.cur = [c] →
          (s.lockRec (lockKey h (refAddr r))).holders = [(m, true)] →
          Answers (.read f) s fun t => t.fn f = { q with cur := [{ c with waits := some (lockKey h (refAddr r)) }] } ∧
            t.wounds = s.wounds ++
              (if c.start.toNat < (s.slot m).start.toNat then [(stopOf (s.unitAt h (refAddr r)), m)] else []) ∧
            t = { s.flushFor h with fns := t.fns, wounds := t.wounds })) ∧
      (fieldOf b 40 4 < n ∨ s.lehr.drawn.toNat < (cmdParam b).toNat → Answers (.read f) s fun t =>
        Replied s t f c (c.ends q .carried 0 0x07 0 0) ∧ t.out = s.out)) ∧
    (∀ d, s.doing f 0x03 h c → s.defined? h (fieldOf b 8 4) = some d →
      (d.ext = true → Answers (.signal f) s fun t => Replied s t f c (c.ends q .carried 0 0 (d.evseq + 1).toNat 0) ∧
        t.endpoint h (fieldOf b 8 4) = { d with evseq := d.evseq + 1 } ∧
        (∀ w ∈ (s.hedge h).waitList, w.ep = fieldOf b 8 4 → ∃ m ∈ t.wakes, m.kind = .wake w.slot (d.evseq + 1)) ∧
        ((t.hedge h).waitList = (s.hedge h).waitList.filter fun w => w.ep != fieldOf b 8 4) ∧
        HbmKept s t (64 * ((s.hedge h).par.dbase + fieldOf b 8 4)) 64) ∧
      (d.ext = false → Answers (.signal f) s fun t => Replied s t f c (c.ends q .carried 0 0x05 0 0) ∧ t.dir = s.dir ∧ t.hbm = s.hbm)) ∧
    (let e := fieldOf b 16 4
     let v := fieldOf b 20 1
     let r := payOfBytes (cellBytes b 2)
     s.doing f 0x04 h c →
     (s.inRange h e = true → (v % 2 = 1 → refOk ⟨5, 0, false, false, r⟩ = true ∧ bits r 52 48 = 0) →
      Answers (.epset f) s fun t => Replied s t f c (c.ends q .carried 0 0 0 0) ∧
        t.endpoint h e = { s.endpoint h e with
          v := v % 2 == 1, rw := v / 2 % 2 == 1, ext := v / 4 % 2 == 1, addr := r.extractLsb' 0 48, len := r.extractLsb' 64 17
          app := payOfBytes (cellBytes b 3) } ∧ HbmKept s t (64 * ((s.hedge h).par.dbase + e)) 64) ∧
     (s.inRange h e = false → Answers (.epset f) s fun t => Replied s t f c (c.ends q .carried 0 0x05 0 0) ∧ t.dir = s.dir ∧ t.hbm = s.hbm)) ∧
    (let va := fieldOf b 16 6
     let m := fieldOf b 32 1
     s.doing f 0x05 h c → m < 128 → m / 16 % 4 = 0 → va % 4096 = 0 → fieldOf b 24 8 = 4096 → va + 4096 ≤ 2 ^ 48 →
     ¬(m / 2 % 2 = 1 ∧ m % 2 = 0) → m / 8 % 2 = 0 → fieldOf b 33 1 % 16 ≠ 0 → s.anyMapped h va 4096 = false →
     ((s.hedge h).stored < (s.hedge h).par.store → 3 ≤ s.tablesFree → ∀ port, port < 16 → s.portUp port = true →
      tget 0 s.blockNext port < s.capacity port → (∀ p, p < port → s.portUp p = false ∨ s.capacity p ≤ tget 0 s.blockNext p) →
      Answers (.map f) s fun t => Replied s t f c (c.ends q .carried 0 0 1 0) ∧
        tget (0, 0) t.durable (durKey h va) =
          (1, mkLeaf (m % 8) true false (tget 0 s.blockNext port) port (fieldOf b 33 1 % 16) (fieldOf b 33 1 / 16)) ∧
        (∀ k, k ≠ durKey h va → tget (0, 0) t.durable k = tget (0, 0) s.durable k) ∧
        tget 0 t.blockNext port = tget 0 s.blockNext port + 1 ∧ (t.hedge h).stored = (s.hedge h).stored + 1) ∧
     ((s.hedge h).par.store ≤ (s.hedge h).stored ∨ (∀ p, p < 16 → s.portUp p = false) ∨ s.tablesFree < 3 →
      Answers (.map f) s fun t => Replied s t f c (c.ends q .carried 0 0x0B 0 0) ∧ t.durable = s.durable)) ∧
    (let va := fieldOf b 16 6
     let m := fieldOf b 32 1
     s.doing f 0x05 h c → 128 ≤ m → m / 16 % 4 = 0 → va % 4096 = 0 → fieldOf b 24 8 = 4096 → va + 4096 ≤ 2 ^ 48 →
     s.mappedAt h 1 va = true → s.pageLocked h va 4096 = false →
      Answers (.map f) s fun t => (t.fn f).cur = q.cur.erase c ∧ tget (0, 0) t.durable (durKey h va) = (0, 0) ∧
        (t.fn f).waiting = q.waiting ++ [c.ends q .carried 0 0 1 0]) ∧
    (let a : BitVec 32 := (cmdParam b).extractLsb' 0 32
     let n := hsnIn a ((cmdParam b).extractLsb' 32 32) + 1
     s.doing f 0x06 h c → n ≤ 16384 → cmdRepost b = true →
      Answers (.resync f) s fun t => ∃ k, k.gk = .watermark ∧ k.gcs = s.lehr.gcsdur ∧ k.status = 0 ∧ k.resync = true ∧ k.hsn = cmdHsn b ∧
        (t.fn f).cur = q.cur.erase c ∧
        (t.fn f).waiting = ((s.hedge h).history.filter fun x => decide (hsnIn a x.hsn < n)).map
            (fun (x : Compl) => { x with rp := true, slot := none, resync := false }) ++ k :: q.waiting ∧
        (t.hedge h).history.getLast? = some k)

/-- 13 R437 to R439, 16 R519, 10 R342: a step, of the hedge whose turn it is, runs in the slot drawn for it. One of
SCAN writes the endpoints and records that fit, one of BULK starts its first unit under a start sequence of
firmware's, one of CHECKPOINT cleans up to 256 dirty pages, one of REBUILD restores the poisoned granules of up to 256
pages; each is completed with CONT and a token while work remains; an unused token expires after 10 s; and a BULK step
ends at 20 µs. Where the spec can be read in two ways this rests on the model's readings in logs 2, 28, 39 and 57. -/
def Obligations.LongOperationsRunInSteps : Prop :=
  ∀ (s : State) (f : FnId) (h : HedgeId) (c : Cmd) (n : SlotId) (cmd : List Byte) (i0 : Nat),
    let q := s.fn f
    let u : State := { s.flushFor h with longTurn := h }
    let more := fun (t : State) (k : Compl) (i : Nat) => k.cont = true ∧
      ∃ x ∈ (t.hedge h).tokens, x.value = k.detail ∧ x.value ≠ 0 ∧ x.op.toNat = cmdOp c.bytes ∧ x.next = i ∧ x.posted = none ∧ x.expired = false
    (c.slot = some n → (s.slot n).work = .step cmd i0 → s.stepHedges = [h] ∨ s.stepNext = some h →
      (let count := fieldOf cmd 20 4
       let base := fieldOf cmd 16 4
       let r := u.scan h c base (fieldOf cmd 40 4) (count - i0) ⟨[], 0, i0, .done, []⟩
       s.doing f 0x10 h c → r.stop = .done ∨ r.stop = .full ∨ (∀ i, i0 ≤ i → i < count → s.inRange h (base + i) = true ∧
          ((s.endpoint h (base + i)).v = true →
            s.recordReads h (s.endpoint h (base + i)).addr.toNat (s.endpoint h (base + i)).len.toNat c)) →
        Answers (.scan f) s fun t => ∃ k o, Replied s t f c k ∧ k.slot = some n ∧ (t.slot n).state = .applying ∧ k.status = 0 ∧ k.gk = .observed ∧
          k.gcs = s.lehr.drawn ∧ k.result = BitVec.ofNat 64 r.written ∧ t.out = s.out ++ o ∧
          (r.out ≠ [] → Out.host f (BitVec.ofNat 64 (fieldOf cmd 32 8)) r.out false ∈ o) ∧
          (count ≤ r.next → k.cont = false) ∧ (r.next < count → more t k r.next)) ∧
      (∀ (p : Prog) (blk : List Byte) (rest : List (List Byte)) (args : List Cell),
        let unit := unitCmd (unitCmd c.bytes []) blk
        let count := fieldOf cmd 24 4
        let addr : Word64 := BitVec.ofNat 64 (fieldOf cmd 16 8)
        let blocks := (blk :: rest).take (count - i0)
        s.doing f 0x11 h c → (s.slot n).prog = some p → (s.slot n).hedge = h → i0 < count →
        s.runArgs h p unit = .ok args ∨ intArgs p unit = some args →
        Answers (.bulk f (blk :: rest)) s fun t =>
          (t.fn f).cur = q.cur.erase c ∧ t.out = s.out ++ [.read f (addr + BitVec.ofNat 64 (48 * i0)) (48 * blocks.length)] ∧
          t.slot n = { Slot.reset with
            state := .admitted, hedge := h, retry := p.retry, start := (s.drawStart 2).1, cmd := unit, prog := some p, args := args
            unacked := (s.slot n).unacked
            work := .bulk { first := i0, unit := i0, count := count, addr := addr, blocks := blocks, committed := 0, gcs := none, timeUp := false
                            cut := false } } ∧
          ∀ m, m ≠ n → t.slot m = s.slot m) ∧
      (s.doing f 0x12 h c → s.lehr.journalled = true → s.dirtyOf h = [] ∨ s.cleaningWaits ((s.dirtyOf h).take 256 |>.map fun va => (h, va)) = false →
        (∀ v ∈ s.evicts, v.h = h → v.dirty = false) →
        Answers (.checkpoint f) s fun t => ∃ k, Replied s t f c k ∧ k.slot = some n ∧ (t.slot n).state = .ending ∧ k.status = 0 ∧
          k.result = BitVec.ofNat 64 (Nat.min 256 (s.dirtyOf h).length) ∧ (s.dirtyOf h = [] → k.cont = false) ∧
          (k.cont = false → k.gk = .watermark ∧ k.gcs = s.lehr.applied) ∧
          (k.cont = true → more t k (i0 + Nat.min 256 (s.dirtyOf h).length))) ∧
      (let a := fieldOf cmd 16 6
       let stop := a + fieldOf cmd 24 8
       let r := Rebuild.run h false stop 256 ⟨u, 0, a + i0, false⟩
       s.doing f 0x13 h c → s.pageLocked h (a + i0) (stop - (a + i0)) = false →
        Answers (.rebuild f false) s fun t => ∃ k, Replied s t f c k ∧ k.slot = some n ∧ (t.slot n).state = .ending ∧ k.status = 0 ∧
          k.result = BitVec.ofNat 64 r.restored ∧ (stop ≤ r.va → k.cont = false) ∧ (r.va < stop → more t k (r.va - a)) ∧
          t.hbm = r.s.hbm ∧ t.poison = r.s.poison)) ∧
    (∀ v : Word64, exec (.tokenExpiry h v) s = .next (s.modHedge h fun g => { g with
      tokens := g.tokens.map fun (t : Token) => if t.value = v ∧ t.late s.aoTick = true then { t with expired := true } else t })) ∧
    ∀ (n : SlotId) (b : Bulk), let sl := s.slot n
      sl.work = .bulk b →
      (∀ e x, s.holder n = some (e, x) → sl.endable = true → sl.wound = false → sl.fate = none → ((s.eng e).ctx x).state = .ready → ((s.eng e).ctx x).request? = none →
        Answers (.longStepTimeLimit n) s fun t => (t.slot n).state = .ending ∧ (t.slot n).status = 0x01 ∧
          (t.slot n).work = .bulk { b with timeUp := true, cut := true } ∧ ((t.eng e).ctx x).state = .free) ∧
      (∀ e x, s.holder n = some (e, x) → ((s.eng e).ctx x).state = .wait →
        exec (.longStepTimeLimit n) s = .next (s.setSlot n { sl with work := .bulk { b with timeUp := true } })) ∧
      (∀ f, sl.state = .admitted → b.unit = b.first → (s.hedge sl.hedge).fn = some f → (s.fn f).posting = true →
        Answers (.longStepTimeLimit n) s fun t => (t.slot n).state = .ending ∧
          ∃ k, (t.fn f).waiting = (s.fn f).waiting ++ [k] ∧ k.status = 0x03 ∧ k.slot = some n)

/-! ## The admin ring -/

/-- 13 R446 to R448, R452, 02 R38, R55, R61, 15 R494, R495, R500: CREATE_HEDGE opens a hedge of a free number for a
free, enabled VF with its parameters and a page-table root; SET_HEDGE changes its parameters; DESTROY_HEDGE gives up
engines, directory, pages and VF; a parameter block out of range is refused with DATA, a taken number or VF with KEY,
a sum beyond its limit with THROTTLED; IDENTIFY and TELEMETRY write their 4 KiB; FW_UPDATE programs the other slot,
verifies it and prefers it on trial. 02 R52: none of them goes on while the bounce queue holds a message. Where the
spec can be read in two ways this rests on the model's readings in logs 3, 6, 8, 20, 53, 57 and 77. -/
def Obligations.AdminCommandsManageHedges : Prop :=
  ∀ (s : State) (f : FnId) (c : Cmd) (buf : List Byte),
    let q := s.fn f
    let b := c.bytes
    let p := paramsOf buf
    let ok := c.ends q .carried 0 0 0 0
    let minOf := fun (t : State) (h : HedgeId) => (t.effMins.find? fun x => x.1 == h).elim p.emin (·.2)
    (s.bounced ≠ [] → ∀ i ∈ [Instr.identify f, .telemetry f, .createHedge f buf, .setHedge f buf, .destroyHedge f, .register f buf, .unregister f],
      exec i s = .next s) ∧
    (∀ (i : Instr) (op : Nat), (i, op) ∈ [(Instr.identify f, 0x81), (.telemetry f, 0x88)] → s.adminDoing f op c →
      (op = 0x88 → fieldOf b 16 1 = 0xFF ∨ (s.openHedge? b).isSome = true) →
      (4096 ≤ cmdLen b → Answers i s fun t => Replied s t f c ok ∧
        ∃ l : List Byte, l.length = 4096 ∧ t.out = s.out ++ [.host f (cmdBuf b) l false]) ∧
      (cmdLen b < 4096 → Answers i s fun t => Replied s t f c (c.ends q .carried 0 0x07 0 0) ∧ t.out = s.out)) ∧
    (∀ h v, s.adminDoing f 0x82 c → cmdHedge b = some h → s.vfNamed b = some v → 128 ≤ cmdLen b →
      let no := fun (st : Byte) (t : State) => Replied s t f c (c.ends q .carried 0 st 0 0) ∧ t.hedges = s.hedges ∧ t.tables = s.tables
      let free := s.numberTaken h = false ∧ s.vfTaken v = false
      (s.paramBlockOk h buf = false → Answers (.createHedge f buf) s (no 0x07)) ∧
      (s.paramBlockOk h buf = true → ¬free → Answers (.createHedge f buf) s (no 0x05)) ∧
      (s.paramBlockOk h buf = true → free → s.sumsOk h p = false → Answers (.createHedge f buf) s (no 0x0B)) ∧
      (s.paramBlockOk h buf = true → free → s.sumsOk h p = true → (s.hedge h).used ≠ 0 → exec (.createHedge f buf) s = .next s) ∧
      (s.paramBlockOk h buf = true → free → s.sumsOk h p = true → (s.hedge h).used = 0 → 0 < s.tablesFree →
        Answers (.createHedge f buf) s fun t => Replied s t f c ok ∧ (t.hedge h).fn = some v ∧ (t.hedge h).par = p ∧
          (t.hedge h).effMin = minOf t h ∧ (t.hedge h).quota = BitVec.ofNat 14 p.lquota ∧ (t.hedge h).rootV = true ∧
          (∃ r, ptPool ≤ r ∧ r < fixedEnd / 4096 ∧ tget none s.tables r = none ∧ tget none t.tables r = some h ∧
            (t.hedge h).root = BitVec.ofNat 32 r) ∧
          (t.fn v).hedge = some h ∧ (t.fn v).state = .down ∧ (tget none t.store h.val).isSome = true ∧
          (∀ i, i ≠ h → t.hedge i = s.hedge i) ∧ (∀ g, g ≠ f → g ≠ v → t.fn g = s.fn g))) ∧
    (∀ h, let g := s.hedge h
      s.adminDoing f 0x83 c → s.openHedge? b = some h → c.todo = none → 128 ≤ cmdLen b → s.paramBlockOk h buf = true →
      p.dbase = g.par.dbase → p.dcount = g.par.dcount → p.locks = g.par.locks →
      (s.sumsOk h p = false → Answers (.setHedge f buf) s fun t => Replied s t f c (c.ends q .carried 0 0x0B 0 0) ∧ t.hedges = s.hedges) ∧
      (s.sumsOk h p = true → (g.refitted p).isSome = true ∨ (g.progs = [] ∧ g.super = none) →
        (p.engineFields g.par = true ∨ (s.hedgeQuiet h = true ∧ s.liveSlots h = [] ∧ s.loading h = false ∧ g.awaited = [])) →
        Answers (.setHedge f buf) s fun t => Replied s t f c ok ∧ (t.hedge h).par = p ∧ (t.hedge h).quota = BitVec.ofNat 14 p.lquota ∧
          (t.hedge h).effMin = minOf t h ∧ (t.hedge h).fn = g.fn ∧ ∀ i, i ≠ h → t.hedge i = s.hedge i)) ∧
    (∀ h v, s.adminDoing f 0x84 c → cmdHedge b = some h → (s.hedge h).fn = some v → isPf v = false → (s.hedge h).closing = false →
      (s.fn v).posting = false → (s.fn v).cur = [] → (s.fn v).waiting = [] → s.liveSlots h = [] → s.hedgeQuiet h = true → s.loading h = false →
      Answers (.destroyHedge f) s fun t => Replied s t f c ok ∧ (t.hedge h).fn = none ∧ (t.hedge h).rootV = false ∧ (t.fn v).hedge = none ∧
        (t.fn v).state = .closed ∧ (∀ e, (s.eng e).assigned = true → (s.eng e).hedge = h → (t.eng e).assigned = false ∧ (t.eng e).clearing = true) ∧
        (∀ i, (s.hedge h).par.dbase ≤ i → i < (s.hedge h).par.dbase + (s.hedge h).par.dcount → tget Endpoint.zero t.dir i = Endpoint.zero) ∧
        (∀ r, tget none t.tables r ≠ some h) ∧
        (∀ va, va < 2 ^ 48 → tget (0, 0) t.durable (durKey h va) = (0, 0)) ∧ tget none t.store h.val = none) ∧
    ∀ (bytes : List Byte) (found : ImgFound), let k := s.keeper
      let img := Img.ofBytes bytes found
      let slotB := !k.recov && !k.slotB
      let keyBad := 3 < imgKeyIdx img ∨ bit k.revoke (imgKeyIdx img) = true ∨ img.keyOk = false
      s.adminDoing f 0x89 c →
      (cmdLen b ≠ 4096 + imgBodyLen img →
        Answers (.fwUpdate f bytes found) s fun t => Replied s t f c (c.ends q .carried 0 0x07 0 0) ∧ t.keeper = k) ∧
      (cmdLen b = 4096 + imgBodyLen img →
        (∀ st, (imgFormat img = false ∧ st = 0x07) ∨ (imgFormat img = true ∧ keyBad ∧ st = 0x05) ∨
            (imgFormat img = true ∧ ¬keyBad ∧ imgSvn img < k.svnf ∧ st = 0x05) ∨
            (imgFormat img = true ∧ ¬keyBad ∧ k.svnf ≤ imgSvn img ∧ imgRecovery img = true ∧ st = 0x07) ∨
            (imgFormat img = true ∧ ¬keyBad ∧ k.svnf ≤ imgSvn img ∧ imgRecovery img = false ∧ img.sigOk = false ∧ st = 0x05) →
          Answers (.fwUpdate f bytes found) s fun t => Replied s t f c (c.ends q .carried 0 st 0 0) ∧ t.keeper = k.program slotB img) ∧
        (imgFormat img = true → ¬keyBad → k.svnf ≤ imgSvn img → imgRecovery img = false → img.sigOk = true →
          Answers (.fwUpdate f bytes found) s fun t => Replied s t f c ok ∧
            t.keeper = ((k.program slotB img).writeDir slotB true 0).setCount slotB 0))

/-- 13 R449 to R452, 02 R46, R54: REGISTER places a program's code in the windows that are the hedge's own in each of its clusters and returns
its entry, and lookups see it once its completion has been posted; a supervisor image replaces the old one engine by engine; UNREGISTER
removes a program as REGISTER adds it; LOAD_TABLE puts a table and its guarded stock cell into each of the hedge's engines; lending assigns a
cleared engine to a hedge, takes one back, or clears it. Where the spec can be read in two ways this rests on the model's readings in logs 6
and 77. -/
def Obligations.ProgramsTablesAndEnginesAreGiven : Prop :=
  ∀ (s : State) (f : FnId) (c : Cmd) (buf : List Byte) (h : HedgeId),
    let q := s.fn f
    let b := c.bytes
    let g := s.hedge h
    let mine := fun e => (s.eng e).assigned = true ∧ (s.eng e).hedge = h
    (∀ image window a, let p := progOf buf a image window
      let placed := fun (t : State) => ∀ e, mine e → ∀ i x, image[i]? = some x → s.ownWindow (cluOf e) h ((a + i) / 0x10000) = true →
        tget 0 (t.clu (cluOf e)).code (a + i) = x
      s.adminDoing f 0x85 c → s.openHedge? b = some h → c.todo = none → 128 ≤ cmdLen b → regZeros buf = true → p.key ≠ 0 →
      regRanges g.par buf = true → s.imageAt h (fieldOf buf 8 8) (fieldOf buf 16 4) true image →
      (p.super = true → s.imageAt h (fieldOf buf 56 8) (fieldOf buf 64 4) false window) → (p.super = false → window = []) →
      (s.codeInUse h = [] ∧ a = g.par.codeLo ∧ a + image.length ≤ g.par.codeHi) ∨
        placeIn g.par.codeLo g.par.codeHi image.length (s.codeInUse h) = some a →
      (p.super = false → g.areasOk (progOf buf 0 [] []) = true →
        Answers (.register f buf) s fun t =>
          Replied s t f c { c.ends q .carried 0 0 (a + p.entry) 0 with table := some h } ∧
          (t.hedge h).awaited = g.awaited ++ [(fieldOf buf 1 1, some p)] ∧ (t.hedge h).progs = g.progs ∧ placed t) ∧
      (p.super = true → s.hedgeQuiet h = true → s.loading h = false →
        Answers (.register f buf) s fun t => Replied s t f c (c.ends q .carried 0 0 a 0) ∧ (t.hedge h).super = some p ∧
          (t.hedge h).superOld = none ∧ placed t ∧ ∀ e, mine e → (t.eng e).assigned = true ∧ (t.eng e).hedge = h)) ∧
    (s.adminDoing f 0x86 c → s.openHedge? b = some h →
      (g.lastProg (fieldOf b 18 2) ≠ none ∨ (g.awaited = [] ∧ g.prog (fieldOf b 18 2) ≠ none) →
        Answers (.unregister f) s fun t => Replied s t f c { c.ends q .carried 0 0 0 0 with table := some h } ∧
          (t.hedge h).awaited = g.awaited ++ [(fieldOf b 18 2, none)] ∧ (t.hedge h).progs = g.progs) ∧
      (g.awaited = [] → g.prog (fieldOf b 18 2) = none → Answers (.unregister f) s fun t =>
        Replied s t f c (c.ends q .carried 0 0x05 0 0) ∧ t.hedges = s.hedges)) ∧
    (∀ src, let tb := tableOf buf src
      s.adminDoing f 0x87 c → s.openHedge? b = some h → c.todo = none → 64 ≤ cmdLen b → g.tableOk buf tb = true →
      ((g.withTable tb).map (·.bytes.length)).sum ≤ 0x100000 → s.hedgeQuiet h = true → s.loading h = false →
      Answers (.loadTable f buf src) s fun t => Replied s t f c (c.ends q .carried 0 0 0 0) ∧ (t.hedge h).tables = g.withTable tb ∧
        ∀ e, mine e → (t.eng e).assigned = true ∧ (t.eng e).hedge = h ∧
          (tb.kind ≠ 3 → (t.eng e).cell (g.par.stockBase.toNat / 16 + tb.slot) = tb.cell) ∧
          (tb.kind = 0 → g.par.stockBase.toNat % 16 = 0 → ∀ i, i < tb.bytes.length / 16 →
            (t.eng e).cell (tb.dest / 16 + i) = rateCell (rateOf tb.cell) i (cellBytes tb.bytes i)) ∧
          (tb.kind ≠ 0 → g.par.stockBase.toNat % 16 = 0 → (t.eng e).readBytes tb.dest tb.bytes.length = tb.bytes)) ∧
    ∀ (e : EngId) (role : Fin 3),
      (s.assignable h e = true → Answers (.engineLending h e role) s fun t =>
        (t.eng e).assigned = true ∧ (t.eng e).hedge = h ∧ (t.eng e).role = BitVec.ofNat 2 role.val ∧ (t.eng e).epoch = (s.eng e).epoch + 1 ∧
        ∀ i, (t.eng i).assigned = (if i = e then true else (s.eng i).assigned)) ∧
      (s.assignable h e = false → s.reclaimable h e = true → Answers (.engineLending h e role) s fun t =>
        (t.eng e).assigned = false ∧ (t.eng e).epoch = (s.eng e).epoch + 1 ∧ ∀ i, i ≠ e → (t.eng i).assigned = (s.eng i).assigned) ∧
      (s.assignable h e = false → s.reclaimable h e = false → s.unclean e = true → Answers (.engineLending h e role) s fun t =>
        (t.eng e).clearing = true ∧ (t.eng e).assigned = false ∧ (t.eng e).epoch = (s.eng e).epoch)

/-! ## Locks, wounds and commits -/

/-- 10 R319 to R329: a request that conflicts with no holder and no older waiter is granted, and the grant goes on the
slot's list and mask; one that conflicts waits in age order and wounds the younger holders; one beyond the unit's
share ends THROTTLED; a release frees the slot's locks at the unit and lets the next waiter in; with every release
confirmed the completion is formed. 10 R327 to R329, 02 R50: a wound marks its slot and sends an end notice, and is
void once the slot is sealed; the notice, where the engine still has its role, frees the context, and the slot
restarts while it has retries left, with WOUND cleared and the same start sequence; it bounces else. 01 R21: of
messages between the same two stops none overtakes another. Where the spec can be read in two ways this rests on the
model's readings in logs 9, 57 and 58. -/
def Obligations.LocksAreGrantedAndWound : Prop :=
  (∀ (s : State) (e : EngId) (c : CtxId) (q : Req) (ref : Cell) (excl : Bool) (a : Nat),
     let x := (s.eng e).ctx c
     let n := x.slot
     let h := (s.slot n).hedge
     let k := lockKey h (refAddr ref)
     let u := chanOf (a / 4096)
     let r := { s.lockRec k with unit := u }
     let others := s.unitEntries h u k
     let share := (s.hedge h).par.locks / 64
     let goes := fun (t : State) (st : Stage) => ∃ w, ((t.eng e).ctx c).wait = some w ∧ w.req = q ∧ w.stage = st ∧ w.done = none
     let only := fun (t : State) => OnlyEngine { s with lockq := t.lockq } t e
     (x.waitsFor q .lock → reqLock q = some (ref, excl) → s.lockBehind e c = false →
       (s.phys h (refAddr ref) = none → Answers (.lockRequest e c) s fun t => goes t (.pageFault (refAddr ref)) ∧ t.locks = s.locks) ∧
       (s.phys h (refAddr ref) = some a → s.holder n = some (e, c) →
         (r.has n excl = true → Answers (.lockRequest e c) s fun t => goes t .data ∧ only t) ∧
         (r.has n excl = false → excl = true → 64 ≤ (s.slot n).grants.length →
           Answers (.lockRequest e c) s fun t => goes t (.failed 0x0B) ∧ only t) ∧
         (r.has n excl = false → (excl = true → (s.slot n).grants.length < 64) →
           let next := r.grant n excl
           r.conflict n excl = [] → (∀ w ∈ r.waiters, s.older w.1 n = false) → s.behindReader k n excl = false →
           (share < others + next.entries → next.entries ≤ r.entries) →
           Answers (.lockRequest e c) s fun t => goes t .data ∧ t.lockRec k = next ∧ (n, excl) ∈ (t.lockRec k).holders ∧ (e, c) ∉ t.lockq ∧
             (t.slot n).mask = (s.slot n).mask ||| BitVec.ofNat 64 (2 ^ u.val) ∧
             (excl = true → ∃ g, (t.slot n).grants.getLast? = some g ∧ g.addr = refAddr ref ∧ g.len = refLen ref ∧
               g.poison = (s.readRecord h (refAddr ref) (refLen ref)).any (·.2)) ∧
             (∀ j, j ≠ k → t.lockRec j = s.lockRec j) ∧ t = { s with locks := t.locks, slots := t.slots, engines := t.engines, lockq := t.lockq }) ∧
         (r.has n excl = false → (excl = true → (s.slot n).grants.length < 64) →
           let next := { r with waiters := s.enqueue n excl r.waiters }
           r.conflict n excl ≠ [] → others + next.entries ≤ share →
           Answers (.lockRequest e c) s fun t => goes t .lockWait ∧ t.lockRec k = next ∧
             t.wounds = s.wounds ++ ((r.conflict n excl).filter fun m => s.older n m).map (fun m => (stopOf u, m)) ∧
             (∀ j, j ≠ k → t.lockRec j = s.lockRec j)) ∧
         (r.has n excl = false → (excl = true → (s.slot n).grants.length < 64) → r.conflict n excl ≠ [] → (s.slot n).endable = true →
           (s.slot n).wound = false → (s.slot n).fate = none → share < others + r.entries + 1 →
           Answers (.lockRequest e c) s fun t => (t.slot n).state = .ending ∧ (t.slot n).status = 0x0B ∧ ((t.eng e).ctx c).state = .free))) ∧
     (∀ (m : SlotId) (v : UnitId), let sl := s.slot m
       sl.releasing = true → bit sl.unitsLeft v.val = true → (∀ j z, (m, z) ∉ (s.lockRec j).waiters) →
       Answers (.lockRelease m v) s fun t =>
         (t.slot m).unitsLeft = sl.unitsLeft &&& ~~~(BitVec.ofNat 64 (2 ^ v.val)) ∧
         (∀ j z, (t.lockRec j).unit = v → (m, z) ∉ (t.lockRec j).holders) ∧
         (∀ j, (s.lockRec j).unit ≠ v → t.lockRec j = s.lockRec j) ∧
         ∀ j w y z, s.lockRec j = ⟨v, [(m, y)], [(w, z)]⟩ → s.behindReader j w z = false → t.lockRec j = ⟨v, [(w, z)], []⟩) ∧
     ∀ (m : SlotId) (f : FnId), let sl := s.slot m
       sl.releasing = true → sl.unitsLeft = 0 → sl.blocks = 0 → sl.stops = 0 → sl.work = .run → sl.state ≠ .restarting →
       (s.hedge sl.hedge).fn = some f → (s.fn f).posting = true →
       Answers (.releaseConfirm m) s fun t => (t.fn f).waiting = (s.fn f).waiting ++ [{ s.slotCompl m with sqhead := (s.fn f).sqHead }] ∧
         t.slot m = { sl with releasing := false, mask := 0, grants := [] } ∧ OtherFns s t f) ∧
  (∀ (s : State) (n : SlotId),
     let sl := s.slot n
     (∀ pre st post, s.wounds = pre ++ (st, n) :: post → (∀ q ∈ pre, q.1 ≠ st ∧ q.2 ≠ n) →
       (sl.sealed = true ∨ sl.state = .idle → exec (.wound n) s = .next { s with wounds := pre ++ post }) ∧
       (sl.sealed = false → sl.state ≠ .idle → Answers (.wound n) s fun t => t.slot n = { sl with wound := true } ∧
         (∃ m, t.endNotices = s.endNotices ++ [m] ∧ m.kind = .ended n ∧ m.eng = sl.eng ∧ m.hedge = sl.hedge ∧ m.epoch = (s.eng sl.eng).epoch) ∧
         t.wounds = pre ++ post ∧ t = { s with wounds := t.wounds, slots := t.slots, endNotices := t.endNotices })) ∧
     (∀ pre m post, s.endNotices = pre ++ m :: post → m.kind = .ended n → (∀ x ∈ pre, cluOf x.eng ≠ cluOf m.eng ∧ msgSlot x.kind ≠ n) →
       let dies := fun (t : State) => (t.slot n).status = 0x02 ∧ (t.slot n).state = (if sl.retry ≠ 0 then .restarting else .ending) ∧
         (t.slot n).releasing = true ∧ t.endNotices = pre ++ post
       (s.holder n = none → sl.wound = true → sl.endable = true → sl.fate = none → Answers (.endNotice n) s dies) ∧
       (∀ e c, s.holder n = some (e, c) → (s.clu (cluOf m.eng)).waking = false → (s.clu (cluOf m.eng)).pst = .c0 → (s.eng m.eng).inbox = [] →
         (s.accepts m = true → sl.start = m.start → sl.state = .resident → sl.wound = true → sl.endable = true → sl.fate = none →
           ((s.eng e).ctx c).request? = none → ((s.eng e).ctx c).state ≠ .busy → ((s.eng e).ctx c).state ≠ .quarantined →
           Answers (.endNotice n) s fun t => dies t ∧ ((t.eng e).ctx c).state = .free) ∧
         (s.accepts m = false → s.bounced.length < 4096 → Answers (.endNotice n) s fun t =>
           t.bounced = s.bounced ++ [{ m with bounces := m.bounces + 1 }] ∧ (t.eng m.eng).bounce = satInc (s.eng m.eng).bounce ∧
           t.slot n = sl ∧ t.endNotices = pre ++ post))) ∧
     (sl.state = .restarting → sl.releasing = false → s.bounced = [] → Answers (.woundRestart n) s fun t =>
       t.slot n = { sl with
         state := .admitted, retry := sl.retry - 1, wound := false, status := 0, xword := 0, detail := 0, mediaMark := false, grants := []
         mask := 0, image := none } ∧ t = { s.flushFor sl.hedge with slots := t.slots, hedges := t.hedges }))

/-- 10 R330 to R335, 11 R355, R358, R361, R362: index entries are checked in turn, each taking its staging blocks; an index whose entries all
validate is staged with its deltas, one that fails ends the transaction with the check's status, and one without blocks waits; a staged
commit draws the next GCS and reserves its entries, returns the observed GCS when it has no deltas, waits under quota or ring space, or is
refused when wounded or marked. Where the spec can be read in two ways this rests on the model's readings in logs 32, 36 and 70. -/
def Obligations.CommitsValidateAndDraw : Prop :=
  ∀ (s : State) (n : SlotId) (e : EngId) (c : CtxId),
    let x := (s.eng e).ctx c
    let sl := s.slot n
    (∀ (i : Instr) (r : Word64) (w0 w : Nat), x.waitsFor (.commit r w0 w) .sent → x.slot = n → sl.validating = true →
      (i = .commitValidate e c ∧ sl.stgWait = false ∨ i = .stagingBlocksFree (cluOf e) ∧ sl.stgWait = true ∧ sl.cluster = cluOf e ∧
        s.holder n = some (e, c) ∧ s.slots = [(n.val, sl)]) →
      let left := (w - w0) / 32 - sl.checked
      let at_ := w0 + 32 * sl.checked
      let k := cluOf e
      let ends := fun (st : Byte) => sl.endable = true → sl.wound = false → sl.fate = none →
        Answers i s fun t => (t.slot n).state = .ending ∧ (t.slot n).status = st
      (w0 = w → Answers i s fun t => t.slot n = { sl with deltas := [], entries := 0, staged := true, xword := r }) ∧
      (1 ≤ left →
        (∀ a b, a = (s.eng e).cell (at_ / 16) → b = (s.eng e).cell (at_ / 16 + 1) →
          ¬(a.wellFormed = true ∧ a.ty = tyREF ∧ a.sub = 1 ∧ b.wellFormed = true ∧ b.ty = tyINT) → ends 0x06) ∧
        (∀ u st, s.indexEntry e n x at_ = .fail u st → ends st) ∧
        (∀ u va, s.indexEntry e n x at_ = .fault u va → Answers i s fun t => t.slot n = { sl with pageWait := some va, cluster := k }) ∧
        ∀ u ds len, s.indexEntry e n x at_ = .ok u ds len →
          ((u.clu k).stgFree.toNat < entryBlocks len → Answers i s fun t => t.slot n = { sl with stgWait := true, cluster := k }) ∧
          (left = 1 → entryBlocks len ≤ (u.clu k).stgFree.toNat → sl.deltas ++ ds ≠ [] →
            Answers i s fun t => (t.slot n).deltas = sl.deltas ++ ds ∧ (t.slot n).entries = entryCount (sl.deltas ++ ds) ∧
              (t.slot n).blocks = sl.blocks + entryBlocks len ∧ (t.slot n).staged = true ∧ (t.slot n).xword = r ∧
              (t.clu k).stgFree = (u.clu k).stgFree - BitVec.ofNat 11 (entryBlocks len)))) ∧
    (sl.state = .sealing → sl.staged = true →
      let g := s.hedge sl.hedge
      let alone := ∀ m ∈ s.lehr.waiting, m = n
      (sl.endable = true → sl.wound = true → sl.fate = none → Answers (.commitAdmission n) s fun t => (t.slot n).status = 0x02) ∧
      (sl.endable = true → sl.wound = false → sl.fate = none → sl.mediaMark = true → Answers (.commitAdmission n) s fun t =>
        (t.slot n).state = .ending ∧ (t.slot n).status = 0x04) ∧
      (sl.wound = false → sl.mediaMark = false → sl.deltas = [] → s.lehr.fenced = false → s.lehr.failed = false →
        exec (.commitAdmission n) s = .next (s.setSlot n { sl with
          state := .applying, observed := some s.lehr.drawn, releasing := true, unitsLeft := sl.mask })) ∧
      (sl.wound = false → sl.mediaMark = false → sl.deltas ≠ [] →
        (s.lehr.held = true → n ∉ s.lehr.waiting → Answers (.commitAdmission n) s fun t => t.lehr.waiting = s.lehr.waiting ++ [n] ∧
          t.slot n = { sl with waitSince := none } ∧ t.lehr.drawn = s.lehr.drawn) ∧
        (s.lehr.held = false →
          (s.admission n = .yes ∨ (alone ∧ s.lehr.fill + sl.entries ≤ 8192 ∧ g.used.toNat + sl.entries ≤ g.quota.toNat ∧
              (s.lehr.high = true → (g.inWindow s.aoTick + 1) * 100 ≤ g.ecommit.toNat)) →
            Answers (.commitAdmission n) s fun t =>
              (t.slot n).state = .sequenced ∧ (t.slot n).sealed = true ∧ (t.slot n).gcs = some (s.lehr.drawn + 1) ∧
              t.lehr.drawn = s.lehr.drawn + 1 ∧ t.lehr.reserved = s.lehr.reserved + sl.entries ∧
              (t.lehr.queue.drop s.lehr.queue.length).map (·.bytes) = sl.deltas.map (·.bytes) ∧
              t.lehr.queue.take s.lehr.queue.length = s.lehr.queue ∧
              (t.hedge sl.hedge).used = g.used + BitVec.ofNat 14 sl.entries) ∧
          (n ∉ s.lehr.waiting →
            (s.admission n = .throttle ∨ (s.lehr.waiting = [] ∧ s.lehr.fill + sl.entries ≤ 8192 ∧ g.quota.toNat < g.used.toNat + sl.entries) →
              Answers (.commitAdmission n) s fun t => t.lehr.waiting = s.lehr.waiting ++ [n] ∧
                (t.slot n).waitSince = some (sl.waitSince.getD s.aoTick.toNat) ∧
                (t.hedge sl.hedge).waits = (if sl.throttled then g.waits else satInc g.waits)) ∧
            (s.admission n = .full ∨ 8192 < s.lehr.fill + sl.entries →
              Answers (.commitAdmission n) s fun t => t.lehr.waiting = s.lehr.waiting ++ [n] ∧ t.slot n = { sl with waitSince := none } ∧
                (8192 < s.lehr.fill + sl.entries → t.lehr.full = true)))))) ∧
    (∀ t0, sl.waitSince = some t0 → sl.state = .sealing → t0 + s.lehr.twait.toNat ≤ s.aoTick.toNat → sl.endable = true → sl.wound = false →
      sl.fate = none → Answers (.throttleTimeout n) s fun t => (t.slot n).state = .ending ∧ (t.slot n).status = 0x0B ∧ n ∉ t.lehr.waiting ∧
        (t.hedge sl.hedge).thr = satInc (s.hedge sl.hedge).thr) ∧
    (∀ pre st post, s.mediaMarks = pre ++ (st, n) :: post → (∀ q ∈ pre, q.1 ≠ st ∧ q.2 ≠ n) → sl.gcs = none → sl.endable = true →
      (n ∈ s.lehr.waiting → sl.wound = false → sl.fate = none → Answers (.mediaMark n) s fun t =>
        (t.slot n).state = .ending ∧ (t.slot n).status = 0x04 ∧ t.mediaMarks = pre ++ post) ∧
      (n ∉ s.lehr.waiting → exec (.mediaMark n) s =
        .next (({ s with mediaMarks := pre ++ post } : State).setSlot n { sl with mediaMark := true })))

/-! ## The Lehr -/

/-- 11 R351 to R358, R376, 10 R324, R333: while its bank is free, the next queued delta goes into an entry at WP: PACKED with those that fit,
HEAD, or CONT, and with pairing on to the partner; a verified write makes its entry valid, and with the last one the transaction applies; each
memory stop writes its deltas in the order in which they were sent to it (01 R21); with all applied, releases follow. A second verify
mismatch fails the controller. -/
def Obligations.EntriesAreWrittenVerifiedAndApplied : Prop :=
  ∀ (s : State),
    let l := s.lehr
    let p := l.wp.toNat
    (l.quiesced = false → l.fenced = false → l.failed = false → (∀ w ∈ l.writes, w.bank ≠ (p + l.rot.toNat) % 64) →
      Answers (.lehrEntryWrite 2) s (fun t => t.lehr = { l with failed := true } ∧ (∃ r, t.errq = s.errq ++ [r] ∧ r.cls = 0x0B ∧ r.sev = 2) ∧
        t = { s with lehr := t.lehr, errq := t.errq }) ∧
      ∀ bad : Fin 3, bad ≠ 2 →
        (∀ d ds, l.cont = none → l.queue = d :: ds → shortDelta d.addr d.bytes.length = true →
          let run := packRun d.hedge 4 56 (d :: ds)
          Answers (.lehrEntryWrite bad) s fun t => t.lehr.wp = l.wp + 1 ∧ t.lehr.inRing = l.inRing + 1 ∧
            tget LEntry.empty t.lehr.ring p = ⟨packedEntry run, false, l.lap, .packed, d.hedge, false⟩ ∧ t.lehr.queue = (d :: ds).drop run.length ∧
            (∃ w, t.lehr.writes = l.writes ++ [w] ∧ w.pos = p ∧ w.bank = (p + l.rot.toNat) % 64 ∧ w.slots = slotsOf run ∧ w.mirror = none) ∧
            (∀ j, j ≠ p → tget LEntry.empty t.lehr.ring j = tget LEntry.empty l.ring j) ∧
            (l.pairEn = false ∨ l.pairdeg = true → t.lehr.unacked = l.unacked) ∧
            (l.pairEn = true → l.pairdeg = false → t.lehr.unacked = l.unacked ++ [(d.gcs, slotsOf run, s.aoTick.toNat)] ∧
              Out.mirror ⟨l.link.toNat, l.link.isLt⟩ ⟨d.gcs, l.segSeq, p % 1024, packedEntry run⟩ ∈ t.out)) ∧
        (∀ d ds, l.cont = none → l.queue = d :: ds → shortDelta d.addr d.bytes.length = false →
          Answers (.lehrEntryWrite bad) s fun t => t.lehr.wp = l.wp + 1 ∧ t.lehr.queue = ds ∧
            tget LEntry.empty t.lehr.ring p = ⟨headEntry d, false, l.lap, .head, d.hedge, false⟩ ∧
            t.lehr.cont = (if d.bytes.length ≤ 48 then none else some (d, d.bytes.drop 48))) ∧
        (∀ d rest, l.cont = some (d, rest) →
          Answers (.lehrEntryWrite bad) s fun t => t.lehr.wp = l.wp + 1 ∧ t.lehr.queue = l.queue ∧
            tget LEntry.empty t.lehr.ring p = ⟨padEntry (rest.take 64), false, l.lap, .cont, d.hedge, false⟩ ∧
            t.lehr.cont = (if rest.length ≤ 64 then none else some (d, rest.drop 64)))) ∧
    (∀ (pos : Fin 8192) (w : LWrite), l.writes.find? (fun w => w.pos == pos.val) = some w → l.mirrorIn = [] →
      (∀ n, w.slots = [n] → w.mirror = none → (s.slot n).state = .sequenced → (s.slot n).unpacked = 0 → (s.slot n).undurable = 1 →
        Answers (.lehrEntryDurable pos) s fun t => (t.slot n).state = .applying ∧ (t.slot n).stops = s.deltaStops n ∧
          t.applyq = s.applyq ++ ((List.finRange 8).filter fun st => bit (s.deltaStops n) st.val).map (fun st => (n, st)) ∧
          (tget LEntry.empty t.lehr.ring pos.val).valid = true ∧ t.lehr.writes = l.writes.erase w) ∧
      (∀ n, w.slots = [n] → w.mirror = none → (s.slot n).unpacked ≠ 0 → Answers (.lehrEntryDurable pos) s fun t =>
        t.slot n = { s.slot n with undurable := (s.slot n).undurable - 1 } ∧ (tget LEntry.empty t.lehr.ring pos.val).valid = true) ∧
      (∀ k g, w.slots = [] → w.mirror = some (k, g) → pos.val % 1024 ≠ 1023 → Answers (.lehrEntryDurable pos) s fun t =>
        t.out = s.out ++ [.mirrorAck k g] ∧ (tget LEntry.empty t.lehr.ring pos.val).valid = true)) ∧
    (∀ (n : SlotId) (st : StopId) (g : Word64) (d : Delta) (va : Nat) (pre post : List (SlotId × StopId)), let sl := s.slot n
      sl.gcs = some g → sl.state = .applying → bit sl.stops st.val = true → s.applyq = pre ++ (n, st) :: post → (∀ q ∈ pre, q.2 ≠ st) →
      sl.deltas = [d] → pageParts d.addr d.bytes.length = [(d.addr, d.bytes.length)] →
      s.phys sl.hedge d.addr = some va → stopOf (chanOf (va / 4096)) = st →
      Answers (.deltaApply n st) s fun t => tgetRun 0 t.hbm va d.bytes.length = d.bytes ∧ HbmKept s t va d.bytes.length ∧
        t.applyq = pre ++ post ∧ (t.slot n).stops = sl.stops &&& ~~~(BitVec.ofNat 8 (2 ^ st.val))) ∧
    ∀ (n : SlotId), let sl := s.slot n
      sl.state = .applying → sl.gcs.isSome = true → sl.stops = 0 → sl.releasing = false → sl.blocks = 0 → sl.deltas ≠ [] →
      exec (.applyNotice n) s = .next (s.setSlot n { sl with releasing := true, unitsLeft := sl.mask, deltas := [] })

/-- 11 R362 to R367, 16 R530: a completed drain write records its segment and lets the oldest written segments go; a
failed one goes to the next port, and a third failure stops the drain; a flush writes what is written of the open segment as a partial
record, once the drain may; FULL for 10 ms fails the controller; a checkpoint advance cleans the dirty pages, records C in the superblock of
every active zone, and frees the records before the segment that holds C + 1. Where the spec can be read in two ways this rests on the
model's readings in logs 6 and 72. -/
def Obligations.SegmentsDrainAndCheckpointsAdvance : Prop :=
  ∀ (s : State),
    let l := s.lehr
    (∀ (g : LSeg) (p : Nat), l.segs.find? (fun x => x.seq == g.seq && !x.done) = some g → g.port = some p →
      (∀ x, l.part = some x → x.seq = g.seq → x.port = none) →
      Answers (.drainWriteComplete g.seq) s fun t =>
        (∃ r ∈ t.lehr.records, r.seq = g.seq ∧ r.port = p ∧ r.at_ = g.at_ ∧ r.partial_ = false ∧
          r.entries = (l.segEntries g.seg).map LEntry.recorded) ∧
        t.lehr.seg = satInc l.seg ∧ (∀ x ∈ t.lehr.segs, x.seq = g.seq → x.done = true) ∧
        (l.segs = [g] → l.mirrorIn = [] → t.lehr.segs = [] ∧ t.lehr.inRing = l.inRing - 1024 ∧
          t.lehr.rp = BitVec.ofNat 13 ((l.rp.toNat + 1024) % 8192))) ∧
    (∀ (x : LPart) (p : Nat), l.part = some x → x.port = some p →
      Answers (.drainWriteComplete x.seq) s (fun t => t.lehr.part_ = satInc l.part_ ∧ (x.again = false → t.lehr.part = none) ∧
        ∃ r ∈ t.lehr.records, r.seq = x.seq ∧ r.port = p ∧ r.at_ = x.at_ ∧ r.partial_ = true ∧
          r.entries = ((l.segEntries x.seg).take x.n).map LEntry.recorded) ∧
      (2 ≤ x.fails → Answers (.drainWriteFail x.seq) s fun t => t.lehr.drstop = true ∧ t.lehr.fail = satInc l.fail) ∧
      (x.fails < 2 → (∀ g ∈ l.segs, g.seq ≠ x.seq) → Answers (.drainWriteFail x.seq) s fun t => t.lehr.drstop = l.drstop ∧
        t.lehr.fail = satInc l.fail ∧ ∃ y, t.lehr.part = some y ∧ y.seq = x.seq ∧ y.fails = x.fails + 1)) ∧
    (∀ (g : LSeg), l.segs.find? (fun x => x.seq == g.seq && !x.done && x.port.isSome) = some g →
      (∀ x, l.part = some x → x.seq = g.seq → x.port = none) →
      (2 ≤ g.fails → Answers (.drainWriteFail g.seq) s fun t => t.lehr.drstop = true ∧ t.lehr.fail = satInc l.fail ∧
        ∃ r, t.errq = s.errq ++ [r] ∧ r.cls = 0x0B ∧ r.cause = 5) ∧
      (g.fails < 2 → Answers (.drainWriteFail g.seq) s fun t => t.lehr.drstop = l.drstop ∧ t.lehr.fail = satInc l.fail ∧
        ∃ x ∈ t.lehr.segs, x.seq = g.seq ∧ x.fails = g.fails + 1)) ∧
    (let n := l.writtenIn
     let asked : LPart := { seq := l.segSeq, seg := segOf l.wp.toNat, n := n, port := none, at_ := 0, fails := 0, again := false }
     (l.wp.toNat % 1024 = 0 → exec .flushRequest s = .next s) ∧
     (n ≠ 0 → l.part = none → (∀ r ∈ l.records, r.seq ≠ l.segSeq) →
       (l.quiesced = true ∨ l.drstop = true → exec .flushRequest s = .next { s with lehr := { l with part := some asked } }) ∧
       (∀ q, l.quiesced = false → l.drstop = false → s.freePlaces.head? = some q → Answers .flushRequest s fun t =>
         t.lehr.part = some { asked with port := some q.1, at_ := q.2 } ∧
         t.out = s.out ++ [.nvme q.1 0x01 (l.recordBlock q) (68 * 1024) true] ∧ t = { s with lehr := t.lehr, out := t.out }))) ∧
    (l.full = true → l.fullSince + 10000 ≤ s.aoTick.toNat → l.failed = false → l.fenced = false →
      Answers .lehrFullTimeout s fun t => t.lehr = { l with failed := true } ∧ ∃ r, t.errq = s.errq ++ [r] ∧ r.cls = 0x0B ∧ r.cause = 4) ∧
    ∀ g : Word64, l.asleep = false → l.ckpt.toNat ≤ g.toNat → g.toNat ≤ l.applied.toNat → l.journalled = true →
      s.dirtyPages = [] ∨ s.cleaningWaits s.dirtyPages = false → (∀ v ∈ s.evicts, v.dirty = false) →
      Answers (.checkpointAdvance g) s fun t => t.lehr.ckpt = g ∧ t.lehr.s0 = l.segWith g ∧
        (∀ p, p < 16 → (tget (false, 0, 0) l.zones p).1 = true → s.portUp p = true →
          tget ZoneSuper.none t.lehr.supers p = (tget ZoneSuper.none l.supers p).put (g, l.segWith g)) ∧
        (∀ r ∈ t.lehr.records, l.segWith g ≤ r.seq) ∧ (∀ x ∈ t.lehr.holes, g.toNat < x.toNat) ∧ t.lehr.gcsdur = l.gcsdur ∧ t.lehr.ring = l.ring

/-- 11 R374, R376 to R380, 16 R528, 17 R550: a partner's entry is written as a MIRROR entry, or waits while the ring is full or takes none, and
is kept until its segment is reclaimed there; an acknowledgement frees the slots it covers; one overdue stops admission, or with FALL degrades
pairing and frees every slot; a copy is asked of and given to the partner. Where the spec can be read in two ways this rests on the model's
reading in log 73. -/
def Obligations.MirroringKeepsThePartnerCurrent : Prop :=
  ∀ (s : State) (g : Word64) (seq : Nat) (i : Fin 1024) (bytes : List Byte),
    let l := s.lehr
    (∀ k : LinkId, (s.link k).state = .up → l.mirrorIn = [] →
      (l.quiesced = false → l.fenced = false → l.failed = false → l.asleep = false → l.fill < 8192 →
        (∀ w ∈ l.writes, w.bank ≠ (l.wp.toNat + l.rot.toNat) % 64) →
        Answers (.mirrorEntry k g ⟨seq, i, bytes⟩) s fun t => t.lehr.mirrors = l.mirrors ++ [⟨g, seq, i.val, padEntry bytes⟩] ∧
          t.lehr.wp = l.wp + 1 ∧ t.lehr.mirrorIn = [] ∧
          tget LEntry.empty t.lehr.ring l.wp.toNat = ⟨padEntry bytes, false, l.lap, .mirror, 0, false⟩ ∧
          ∃ w, t.lehr.writes = l.writes ++ [w] ∧ w.mirror = some (k, g)) ∧
      (l.quiesced = true ∨ l.fenced = true ∨ l.failed = true ∨ l.asleep = true ∨ 8192 ≤ l.fill →
        exec (.mirrorEntry k g ⟨seq, i, bytes⟩) s = .next { s with lehr := { l with mirrorIn := [(k, ⟨g, seq, i.val, bytes⟩)] } })) ∧
    (∀ n a b, l.unacked = a ++ (g, [n], b) :: [] → (∀ x ∈ a, x.1 ≠ g) →
      exec (.mirrorAck g) s = .next (({ s with lehr := { l with unacked := a } }).modSlot n fun sl => { sl with unacked := sl.unacked - 1 })) ∧
    (∀ x n b rest, l.unacked = (x, n, b) :: rest → b + l.ptmo.toNat ≤ s.aoTick.toNat → l.pairEn = true → l.pairdeg = false →
      (l.fall = false → exec .pairTimeout s = .next { s with lehr := { l with stalled := true } }) ∧
      (l.fall = true → Answers .pairTimeout s fun t => t.lehr.pairdeg = true ∧ t.lehr.unacked = [] ∧ t.lehr.localFirst = x)) ∧
    (∀ (k : LinkId) (j : Option (Fin 1024)),
      (s.keeper.step < 9 → exec (.mirrorCopyRequest k seq j) s = .next s) ∧
      (9 ≤ s.keeper.step → exec (.mirrorCopyRequest k seq j) s = .next { s with
        out := s.out ++ (l.mirrors.filter fun m => m.seq == seq && j.all fun j => m.i == j.val).map fun m => .copy k m })) ∧
    (∀ q, l.ringSegs.find? (fun q => q.1 == seq) = some q → 1024 * q.2 + i.val ∈ l.asked →
      Answers (.mirrorCopyArrival (seq, i) bytes) s fun t => let p := 1024 * q.2 + i.val
        (tget LEntry.empty t.lehr.ring p).bytes = padEntry bytes ∧ (tget LEntry.empty t.lehr.ring p).lost = false ∧
        t.lehr.asked = l.asked.erase p) ∧
    ((∀ q ∈ l.ringSegs, q.1 ≠ seq) → l.askedAt.isSome = true → (seq, i.val) ∉ l.got →
      exec (.mirrorCopyArrival (seq, i) bytes) s = .next { s with lehr := { l with got := l.got ++ [(seq, i.val)] } }) ∧
    exec (.mirrorReclaimNotice seq) s = .next { s with lehr := { l with mirrors := l.mirrors.filter fun m => m.seq != seq } }

/-- 11 R372 to R374, 16 R528 to R530, 17 R550: a failed controller is fenced, and its recovery, once a zone has room for its records, makes
every drawn GCS durable, empties the ring and, when the array verifies, runs on; a lost position is asked of the partner, then becomes a hole
that a checkpoint must pass; replay, after the partner has been asked for what cannot be read, leaves the sequencer at the last complete
transaction above C, or fails at the GCS that is missing; then the ring opens empty. Where the spec can be read in two ways this rests on the
model's readings in logs 38, 52 and 71. -/
def Obligations.TheLehrRecovers : Prop :=
  ∀ (s : State),
    let l := s.lehr
    (∀ ok, l.fenced = false → s.lehrFailed = true → Answers (.lehrFence ok) s fun t => t.lehr = { l with failed := true, fenced := true }) ∧
    (l.fenced = true → s.zoneRoom →
      ((∀ x, l.reopened = some x → x + 1000000 ≤ s.aoTick.toNat) → l.mirrorIn = [] → Answers (.lehrFence true) s fun t =>
        t.lehr.fenced = false ∧ t.lehr.failed = false ∧ t.lehr.gcsdur = l.drawn ∧ t.lehr.drawn = l.drawn ∧ t.lehr.inRing = 0 ∧
        t.lehr.wp = 0 ∧ t.lehr.queue = [] ∧ t.lehr.segSeq = l.segSeq + 2 ∧ t.lehr.reopened = some s.aoTick.toNat ∧
        (l.waiting = [] → t.lehr.full = false)) ∧
      Answers (.lehrFence false) s fun t => t.devstat = 3 ∧ t.lehr.fenced = true ∧ t.lehr.gcsdur = l.drawn) ∧
    (∀ ok, l.fenced = true → s.freePlaces = [] → exec (.lehrFence ok) s = .next s) ∧
    (∀ pos : Fin 8192, l.ringRun.contains pos.val = true → (tget LEntry.empty l.ring pos.val).valid = true →
      (∀ k, l.pairOn = some k → pos.val ∉ l.asked → Answers (.journalHole pos) s fun t => t.lehr = { l with asked := l.asked ++ [pos.val] } ∧
        t.out = s.out ++ [.copyRequest k (l.seqAt pos.val) (some (pos.val % 1024))]) ∧
      (l.pairOn = none ∨ pos.val ∈ l.asked → Answers (.journalHole pos) s fun t => (tget LEntry.empty t.lehr.ring pos.val).lost = true ∧
        t.lehr.holes = l.holes ++ [l.holeTop pos.val] ∧ t.lehr.asked = l.asked.erase pos.val ∧
        ∃ r, t.errq = s.errq ++ [r] ∧ r.cls = 0x0D ∧ r.sev = 2)) ∧
    (let sb := s.bestSuper
     let c := sb.elim 0 (·.1)
     let s0 := sb.elim 0 (·.2)
     let r := s.replayStream c s0
     s.keeper.step = 10 → s.devstat = 1 → s.keeper.failLatched = false →
      ((s.askingFor s0 = none ∧ s.replayFails sb r = none) ∨
          (l.supers = [] ∧ l.records = [] ∧ l.inRing = 0 ∧ ∃ p, p < 16 ∧ s.portUp p = true) → Answers .replay s fun t =>
        let d : Word64 := BitVec.ofNat 64 r.last
        t.lehr.drawn = d ∧ t.lehr.applied = d ∧ t.lehr.gcsdur = d ∧ t.lehr.ckpt = c ∧ t.lehr.s0 = s0 ∧ t.keeper.step = 11) ∧
      (∀ k, s.askingFor s0 = some k → l.askedAt = none → Answers .replay s fun t => t.lehr.askedAt = some s.aoTick.toNat ∧ t.keeper = s.keeper ∧
        ∀ x ∈ s.unread s0, Out.copyRequest k x.seq none ∈ t.out) ∧
      (∀ g, s.askingFor s0 = none → s.replayFails sb r = some g → Answers .replay s fun t => t.devstat = 3 ∧ t.keeper.step = 10 ∧
        ∃ e, t.errq = s.errq ++ [e] ∧ e.cls = 0x0C ∧ e.detail = bytesOfNat 8 g)) ∧
    (∀ fails : List (Fin 4), s.keeper.step = 11 → s.devstat = 1 → s.keeper.failLatched = false →
      (l.inRing = 0 ∨ (s.zoneRoom ∧ 3 ∉ fails) → Answers (.ringReopen fails) s fun t => t.keeper.step = 12 ∧ t.lehr.drawn = l.drawn ∧
        (l.mirrorIn = [] → t.lehr.ring = [] ∧ t.lehr.wp = 0 ∧ t.lehr.inRing = 0 ∧ t.lehr.segSeq = l.segSeq + 1)) ∧
      (fails.head? = some 3 → l.records = [] → l.validRun ≠ [] → Answers (.ringReopen fails) s fun t => t.devstat = 3 ∧ t.keeper.step = 11))

/-! ## Paging, invalidation and the event units -/

/-- 09 R283, R291, R293, R298 to R302: a walk lets a request of one page go on when its translation is cached or its
leaf is resident, which sets A (and D) and fills the TLBs; it waits while 8 walks of its cluster stand ahead; it hands
a page that is not resident to the pager; a prefetch that fails is counted; a mark request sets the bits, and its
request and those that joined it walk again. 09 R302 to R306, 11 R364, R367, 14 R477: the pager gives a page that is
not resident frames in its hedge's turn, reads its blocks, and lets the accesses that wait for it walk again, or ends
them with MEDIA when the read fails; without free frames its leaf is BUSY; an eviction makes the leaf not resident and
BUSY and removes its translations, and once nothing reaches the page and its deltas are applied and journalled writes
it back when dirty and frees its frame; aging clears A and removes the translations. A command whose conditions do not
hold leaves the state as it is: where such a clause stands, that is the model's choice (log 1). Where the spec can be
read in two ways this rests on the model's readings in logs 6, 35 and 57. -/
def Obligations.RequestsAndPagesMove : Prop :=
  (∀ (s : State) (e : EngId) (c : CtxId) (q : Req) (a : Access) (va n : Nat),
     let x := (s.eng e).ctx c
     let h := (s.slot x.slot).hedge
     reqAccess e h q = some (a, va, n) →
     (∀ v, x.waitsFor q (.translate v) → spanPages va n = [va] →
       (∀ i, tlbFind (s.eng e).dtlb h va = some i → (∀ kv ∈ (s.eng e).dtlb, kv.2.parity = false) →
         let t := tget TlbEntry.empty (s.eng e).dtlb i
         let only := fun (u : State) => OnlyEngine s { u with walkq := s.walkq, lockq := s.lockq } e ∧ (e, c) ∉ u.walkq
         (a.permitted t.r t.w = true → a.keyOk t.fe = true → (a.prefetch = true ∨ t.spec = false ∧ (a.setD = true → t.dirty = true)) →
           Answers (.pageWalk e c) s fun u => (u.eng e).ctx c = x.setStage (reqNext q) ∧ only u ∧ (reqNext q = .lock → (e, c) ∈ u.lockq)) ∧
         (a.permitted t.r t.w = true → a.keyOk t.fe = true → a.prefetch = false → (t.spec = true ∨ a.setD = true ∧ t.dirty = false) →
           Answers (.pageWalk e c) s fun u => (u.eng e).ctx c = x.setStage (.mark va (s.leafAddr h va)) ∧ only u ∧ u.lockq = s.lockq) ∧
         ((a.keyOk t.fe = false ∨ a.permitted t.r t.w = false) → a.prefetch = false →
           Answers (.pageWalk e c) s fun u => (u.eng e).ctx c = x.setStage (.failed 0x05) ∧ only u ∧ u.lockq = s.lockq)) ∧
       (s.queueWalks.mayWalk e c a va n = false → exec (.pageWalk e c) s = .next s.queueWalks) ∧
       (tlbFind (s.eng e).dtlb h va = none → tlbFind (s.clu (cluOf e)).l2 h va = none → s.queueWalks.mayWalk e c a va n = true →
         (∀ at_ p level, (s.walk h va).1 = .leaf at_ p level → p.res = false →
           Answers (.pageWalk e c) s fun u => (u.eng e).ctx c = x.setStage (.pageFault va) ∧
             (u.clu (cluOf e)).rfault = satInc (s.clu (cluOf e)).rfault ∧ u.hbm = s.hbm) ∧
         (∀ at_ p level, (s.walk h va).1 = .leaf at_ p level → p.res = true → a.permitted (bit p 1) (bit p 2) = true → a.key = 0 →
           s.readsPoison (s.ftAddr p.frame) 2 = false →
           Answers (.pageWalk e c) s fun u => (u.eng e).ctx c = x.setStage (reqNext q) ∧ BitVec.ofNat 64 (u.hbmNat at_ 8) = p.marked a ∧
             (tlbFind (u.eng e).dtlb h va).isSome = true ∧ (tlbFind (u.clu (cluOf e)).l2 h va).isSome = true ∧
             ∀ b, (b < at_ ∨ at_ + 8 ≤ b) → u.hbmByte b = s.hbmByte b) ∧
         (∀ st, (s.walk h va).1 = .fail st →
           (a.prefetch = false → Answers (.pageWalk e c) s fun u => (u.eng e).ctx c = x.setStage (.failed st) ∧ u.hbm = s.hbm) ∧
           (a.prefetch = true → Answers (.pageWalk e c) s fun u => (u.eng e).ctx c = x.setStage .data ∧
             (u.hedge h).prefFails = satInc (s.hedge h).prefFails)))) ∧
     ∀ v pte, x.waitsFor q (.mark v pte) →
       let joined := fun (u : State) (ok : Bool) => ∀ e2 c2 q2 v2 a2 n2 va2, let y := (s.eng e2).ctx c2
         y.waitsFor q2 (.mark v2 pte) → (s.slot y.slot).hedge = h → reqAccess e2 h q2 = some (a2, va2, n2) →
         (u.eng e2).ctx c2 = y.setStage (if ok then .translate va2 else .failed 0x04)
       (∀ p level, s.readsPoison pte 8 = false → (s.walk h v).1 = .leaf pte p level → p.res = true →
         Answers (.markRequest e c) s fun u => (u.eng e).ctx c = x.setStage (.translate va) ∧ BitVec.ofNat 64 (u.hbmNat pte 8) = p.marked a ∧
           joined u true ∧ ∀ b, (b < pte ∨ pte + 8 ≤ b) → u.hbmByte b = s.hbmByte b) ∧
       (s.readsPoison pte 8 = true →
         Answers (.markRequest e c) s fun u => (u.eng e).ctx c = x.setStage (.failed 0x04) ∧ u.hbm = s.hbm ∧ joined u false)) ∧
  (∀ (s : State) (h : HedgeId) (va : BitVec 48) (at_ : Nat) (p : Pte) (level : Nat),
     let base := pageBase va.toNat level
     let size := 2 ^ levelBits level
     (s.walk h va.toNat).1 = .leaf at_ p level →
     (p.res = false → level < 3 → s.evicting h base = none → s.stageWaits h va.toNat = false →
       ((∀ q ∈ s.faults?, q.1 = h → s.faultOn p.ssd q = false) ∨ s.pagerNext p.ssd = some h) →
       let r := p.busyAs false
       let go := fun (t : State) (st : Stage) => ∀ e c why q v, let x := (s.eng e).ctx c
         x.state ≠ .free → (s.slot x.slot).hedge = h → x.request? = some ⟨why, q, .pageFault v, none⟩ → inPage base size v = true →
         (∀ r k, q ≠ .rpref r k) → ((t.eng e).ctx c).request?.map (·.stage) = some (if st = .failed 0x04 then st else .translate v)
       (∀ f bad, s.findFrames (levelFrames level) = some f →
         (bad = false ∧ s.driveUp p = true ∨ bit p 8 = true →
           Answers (.pageStageIn h va bad) s fun t => tget none t.alloc f = some (h, base, levelBits level) ∧
             tget (0, 0) t.durable (durKey h base) = (level, r) ∧ go t .data ∧
             t.out = s.out ++ (if bit p 8 = true then [] else [.nvme p.ssd 0x02 p.block size false])) ∧
         ((bad = true ∨ s.driveUp p = false) → bit p 8 = false →
           Answers (.pageStageIn h va bad) s fun t => BitVec.ofNat 64 (t.hbmNat at_ 8) = r ∧ HbmKept s t at_ 8 ∧ t.alloc = s.alloc ∧
             go t (.failed 0x04))) ∧
       (s.findFrames (levelFrames level) = none → ∀ bad, Answers (.pageStageIn h va bad) s fun t =>
         BitVec.ofNat 64 (t.hbmNat at_ 8) = p.busyAs true ∧ HbmKept s t at_ 8 ∧ t.alloc = s.alloc ∧ t.out = s.out)) ∧
     (s.stageWaits h va.toNat = true → ∀ bad, exec (.pageStageIn h va bad) s = .next s) ∧
     (let gone := fun (t : State) => (∀ e, tlbFind (t.eng e).dtlb h base = none) ∧ ∀ k, tlbFind (t.clu k).l2 h base = none
      p.res = true → s.evicting h base = none →
       (let q := s.evictedLeaf h base p
        let ends := s.reaching h base size = false ∧ s.lehr.drawn.toNat ≤ s.lehr.applied.toNat ∧
          (bit p 5 = true → s.lehr.journalled = true ∧ s.driveUp q = true ∧ s.hwOpen q.ssd 8 = true ∧ s.drainsFirst q.ssd = false)
        bit p 9 = false → s.pageLocked h base size = false → s.cleaningFirst = false →
         (ends → Answers (.pageEvict h va) s fun t => tget none t.alloc p.frame = none ∧ tget (0, 0) t.durable (durKey h base) = (level, q) ∧
           t.out = s.out ++ (if bit p 5 = true then [.nvme q.ssd 0x01 q.block size true] else []) ∧ gone t ∧ t.evicts = s.evicts) ∧
         (¬ends → Answers (.pageEvict h va) s fun t => BitVec.ofNat 64 (t.hbmNat at_ 8) = q.busyAs true ∧ HbmKept s t at_ 8 ∧ gone t ∧
           t.evicts = s.evicts ++ [{ h := h, base := base, level := level, frame := p.frame, dirty := bit p 5, g := s.lehr.drawn }] ∧
           t.alloc = s.alloc ∧ t.out = s.out)) ∧
       ((bit p 9 = true ∨ s.pageLocked h base size = true ∨ s.cleaningFirst = true) → exec (.pageEvict h va) s = .next s) ∧
       Answers (.pageAge h va) s fun t => BitVec.ofNat 64 (t.hbmNat at_ 8) = p &&& ~~~16 ∧ HbmKept s t at_ 8 ∧ gone t) ∧
     ∀ v, p.res = false → s.evicting h base = some v → let r := p.busyAs false
       (s.evictDone v r = true → Answers (.pageEvict h va) s fun t => tget none t.alloc v.frame = none ∧
         tget (0, 0) t.durable (durKey h base) = (level, r) ∧ t.evicts = s.evicts.erase v ∧
         t.out = s.out ++ (if v.dirty = true then [.nvme r.ssd 0x01 r.block size true] else [])) ∧
       (s.evictDone v r = false → exec (.pageEvict h va) s = .next s))

/-- 09 R307, R308, Table 9-11, 14 R458: a write of KEY_TLBINV removes from the clusters that KEY_CLMASK names the entries
of its operation, wakes those in C1 and C2, and sets BUSY, which clears when they have completed, that is when the
accesses that had gone out under those entries are served; while BUSY it removes nothing. A command whose conditions do not hold leaves the state as it is: where such a clause stands, that is
the model's choice (log 1). Where the spec can be read in two ways this rests on the model's reading in log 45. -/
def Obligations.InvalidationsRemoveTranslations : Prop :=
  ∀ (s : State) (r : Requester) (h : HedgeId) (mask : BitVec 32),
    (∀ (i : Instr) (op : BitVec 3) (hd : HedgeId) (f : TlbEntry → Bool),
      (i, op, hd, f) ∈
        [(Instr.tlbinvPage r h mask, (1 : BitVec 3), h, fun t => t.hits h (s.regs.tlbPage.toNat * 4096)),
         (.tlbinvHedge r h mask, 2, h, fun t => t.hedge == h),
         (.tlbinvFrame r mask, 3, s.regs.tlbHedge, tlbOfFrame (s.regs.tlbPage.toNat % 2 ^ 32)),
         (.tlbinvAll r mask, 4, s.regs.tlbHedge, fun _ => true)] →
      let g : Regs := { s.regs with tlbOp := op, tlbHedge := hd, clmask := mask, tlbBusy := true }
      (s.reaches r = true → s.regs.tlbBusy = false → Answers i s fun t => t.regs = g ∧
        (∀ e : EngId, t.eng e = if bit mask (e.val / 8) = true then { s.eng e with dtlb := tlbDrop (s.eng e).dtlb f } else s.eng e) ∧
        (∀ k : CluId, let l := (t.clu k).l2
          l = (if bit mask k.val = true then tlbDrop (s.clu k).l2 f else (s.clu k).l2) ∧
          ((bit mask k.val = true ∧ ((s.clu k).pst = .c1 ∨ (s.clu k).pst = .c2)) → (t.clu k).waking = true) ∧
          { t.clu k with l2 := (s.clu k).l2, waking := (s.clu k).waking, walkRst := (s.clu k).walkRst } = s.clu k) ∧
        t.invWait = s.underInv mask f Stage.out ∧
        t = { s with regs := t.regs, engines := t.engines, clus := t.clus, invWait := t.invWait }) ∧
      (s.reaches r = true → s.regs.tlbBusy = true → exec i s = .next { s with regs := g }) ∧
      (s.reaches r = false → exec i s = .next s)) ∧
    (s.invWait = [] → exec .tlbinvComplete s = .next { s with regs := { s.regs with tlbBusy := false } }) ∧
    (s.invWait ≠ [] → exec .tlbinvComplete s = .next s)

/-- 05 R177, R178, 10 R344 to R348, 12 R399: at its event unit a WAITEV completes when EVSEQ differs from seq or the
range or the interval forbids a wait, and else is held; a SIGEV raises EVSEQ and wakes every holder; a mover's signal
does so and lowers MARM; a deadlock that has held for one full ao-tick is raised on the earliest wait, and the pruning
pass raises it with cause 2, or ends a transaction that it was raised on before. Where the spec can be read in two
ways this rests on the model's readings in logs 9 and 56. -/
def Obligations.EventUnitsWakeAndDetectDeadlock : Prop :=
  ∀ (s : State) (n : SlotId) (e : EngId) (c : CtxId),
    let x := (s.eng e).ctx c
    let h := (s.slot n).hedge
    (∀ pre post k ep seq tm st, s.evMsgs = pre ++ (k, n, .wait) :: post → (∀ q ∈ pre, q.1 ≠ k ∧ q.2.1 ≠ n) →
      s.holder n = some (e, c) → x.waitsFor (.waitev ep seq tm) st →
      let s0 := { s with evMsgs := pre ++ post }
      let v := (s.endpoint h ep.toNat).evseq
      let now := fun (k : Cell) => (s0.modHedge h Hedge.stir).modCtx e c fun x => x.completed k
      ((s.hedge h).par.dcount ≤ ep.toNat → exec (.eventUnitWait n) s = .next (now (cellErr 0x05))) ∧
      (ep.toNat < (s.hedge h).par.dcount →
        (v ≠ seq → exec (.eventUnitWait n) s = .next (now (cellSeq v h))) ∧
        (v = seq → tm = some 0 → exec (.eventUnitWait n) s = .next (now (cellErr 0x03))) ∧
        (v = seq → tm ≠ some 0 → exec (.eventUnitWait n) s = .next (s0.modHedge h fun g =>
          { g with waitList := g.waitList ++ [⟨n, ep.toNat, seq, tm.map fun i => s.aoTick.toNat + 1 + (i + 999) / 1000⟩] })))) ∧
    (∀ pre post k g ep, s.evMsgs = pre ++ (k, n, .signal g ep) :: post → (∀ q ∈ pre, q.1 ≠ k ∧ q.2.1 ≠ n) →
      let ws := (s.hedge g).waitList.filter fun w => w.ep == ep.toNat
      let s0 := { s with evMsgs := pre ++ post }
      ((s.hedge g).par.dcount ≤ ep.toNat →
        exec (.eventUnitSignal n) s = .next (s0.modHedge g fun g => { g with sigDrops := satInc g.sigDrops })) ∧
      (ep.toNat < (s.hedge g).par.dcount → Answers (.eventUnitSignal n) s fun t => let d := s.endpoint g ep.toNat
        t.endpoint g ep.toNat = { d with evseq := d.evseq + 1 } ∧
        (t.hedge g).waitList = ((s.hedge g).waitList.filter fun w => w.ep != ep.toNat) ∧
        (∃ l, t.wakes = s.wakes ++ l ∧ l.map (·.kind) = ws.map fun w => .wake w.slot (d.evseq + 1)) ∧
        t = { s0 with dir := t.dir, hbm := t.hbm, poison := t.poison, hbmLatent := t.hbmLatent, hedges := t.hedges, wakes := t.wakes })) ∧
    (∀ (m : MovId) (ch : ChId) (g : HedgeId) (ep : Nat) r, s.movSigs = ((m, ch), g, ep) :: r → ep < (s.hedge g).par.dcount →
      Answers (.moverSignal m ch) s fun t => let d := s.endpoint g ep
        t.endpoint g ep = { d with evseq := d.evseq + 1, marm := if d.marm = 0 then 0 else d.marm - 1 } ∧ t.movSigs = r) ∧
    (∀ g : HedgeId,
      (s.allUnarmed g = false → Answers (.eventUnitDeadlock g) s fun t => t.hedge g = { s.hedge g with deadSince := none } ∧
        t = { s with hedges := t.hedges }) ∧
      (s.allUnarmed g = true → (s.hedge g).deadSince = none →
        exec (.eventUnitDeadlock g) s = .next (s.setHedge g { s.hedge g with deadSince := some s.aoTick.toNat })) ∧
      (∀ k w l, s.allUnarmed g = true → (s.hedge g).deadSince = some k → k + 2 ≤ s.aoTick.toNat → (s.hedge g).deadRaised = false →
        (s.hedge g).waitList = w :: l → s.holder w.slot = some (e, c) → x.state = .wait → x.ending = false →
        Answers (.eventUnitDeadlock g) s fun t => (t.eng e).ctx c = { x with evd := some (1, BitVec.ofNat 32 w.ep) } ∧
          (t.hedge g).deadRaised = true)) ∧
    ∀ (g : HedgeId) w l, let ls := s.liveSlots g
      let m := s.markProgress g ls (ls.length + 1) []
      let old := (s.hedge g).pruned.filter fun n => ls.contains n && !m.contains n
      s.openHedges = [g] → ((s.hedge g).waitList.filter fun w => (s.unarmedWait g w.slot).isSome) = w :: l →
      (m ≠ [] → exec .pruningPass s = .next (s.setHedge g { s.hedge g with pruned := old })) ∧
      (m = [] → old = [] → s.holder w.slot = some (e, c) → x.state = .wait → x.ending = false →
        Answers .pruningPass s fun t => (t.eng e).ctx c = { x with evd := some (2, BitVec.ofNat 32 w.ep) } ∧ (t.hedge g).pruned = [w.slot]) ∧
      (∀ l2, m = [] → old = n :: l2 → s.holder n = some (e, c) → (s.slot n).endable = true → (s.slot n).fate = none →
        (∀ q, x.request? = some q → q.moving = false) →
        Answers .pruningPass s fun t => (t.slot n).status = (if (s.slot n).wound = true then 0x02 else 0x0A) ∧ (t.slot n).releasing = true)

/-! ## The movers -/

/-- 12 R388, R398, R399: KICK hands descriptors over, raising MARM for one with SIG, or holding it back at 255. R398,
R402, R407, R410 to R412, R414, R415, Table 12-17: what KICK, ABORT, RESUME and RESET do to a channel in each state,
what a write of its configuration sets while it is DISABLED, and how a bus error halts every channel of a mover until
HALTCLR. A command whose conditions do not hold leaves the state as it is: where such a clause stands, that is the
model's choice (log 1). Where the spec can be read in two ways this rests on the model's readings in logs 45, 75 and
76. -/
def Obligations.ChannelCommandsChangeItsState : Prop :=
  ∀ (s : State) (m : MovId) (ch : ChId),
    let c := s.chan m ch
    let v := s.mover m
    (hwChan m ch = false →
      (∀ c', (c.state = .idle ∧ c' = { c with state := .active }) ∨ ((c.state = .active ∨ c.state = .paced ∨ c.state = .paged) ∧ c' = { c with kpend := true }) ∨
          ((c.state = .disabled ∨ c.state = .stopped ∨ c.state = .errHalt) ∧ c' = c) →
        (Answers (.kick m ⟨ch, []⟩) s fun t => t.chan m ch = c' ∧ (∀ n, n ≠ ch → t.chan m n = s.chan m n) ∧ t = { s with movers := t.movers, clus := t.clus }) ∧
        ∀ (i : Fin 4096) (d : Desc), let old := s.descAtIx c i.val
          i.val < 2 ^ c.log2.toNat → (bit old.ctrl 0 = false ∨ c.working = false ∧ (bit old.ctrl 8 = false ∨ c.sigv = false)) → c.orphan = none →
          let put := fun (t : State) => t.chan m ch = c' ∧
            (t.memBytes c.spc (c.descAt i.val) 32).map (·.1) =
              bytesOfNat 8 (d.ctrl ||| 1).toNat ++ bytesOfNat 8 d.src.toNat ++ bytesOfNat 8 d.dst.toNat ++ bytesOfNat 8 d.aux.toNat
          let e := s.endpoint c.hedge c.ept.toNat
          (bit d.ctrl 8 = false ∨ c.sigv = false → Answers (.kick m ⟨ch, [(i, d.ctrl, d.src, d.dst, d.aux)]⟩) s fun t => put t ∧ t.dir = s.dir) ∧
          (bit d.ctrl 8 = true → c.sigv = true → c.ept.toNat < (s.hedge c.hedge).par.dcount →
            (e.marm ≠ 255 → Answers (.kick m ⟨ch, [(i, d.ctrl, d.src, d.dst, d.aux)]⟩) s fun t => put t ∧
              t.endpoint c.hedge c.ept.toNat = { e with marm := e.marm + 1 }) ∧
            (e.marm = 255 → Answers (.kick m ⟨ch, [(i, d.ctrl, d.src, d.dst, d.aux)]⟩) s fun t => t.chan m ch = c' ∧
              t = { s with movers := t.movers, clus := t.clus }))) ∧
      (v.errhalt = false →
        (c.state = .idle ∨ ((c.state = .active ∨ c.state = .paced ∨ c.state = .paged) ∧ c.cur = none) →
          Answers (.abortChannel m ch) s fun t => (t.chan m ch).state = .stopped ∧ (t.mover m).intstat = v.intstat ||| BitVec.ofNat 64 (2 ^ ch.val) ∧
            t = { s with movers := t.movers }) ∧
        (∀ d, (c.state = .active ∨ c.state = .paced ∨ c.state = .paged) → c.cur = some d → c.ended = none → c.stopAs = none →
          (d.block = true → c.issued = true → exec (.abortChannel m ch) s = .next (s.setChan m ch { c with aborting := true, stopAs := some 0x0C })) ∧
          (d.block = true ∧ c.issued = false ∨ d.block = false ∧ c.state ≠ .active ∧ s.aloneAt m ch → Answers (.abortChannel m ch) s fun t =>
            t.chan m ch = { c.ended_ 0x0C with state := .stopped } ∧ (t.mover m).intstat = v.intstat ||| BitVec.ofNat 64 (2 ^ ch.val) ∧
            (t.memBytes c.spc (c.descAt c.head.toNat) 32).map (·.1) = statusBytes d 0x0C 0 false c.poison c.done c.diff) ∧
          (d.block = false → c.state = .active → s.aloneAt m ch → c.flight = [] → c.fault = none → c.done ≠ d.len →
            Answers (.abortChannel m ch) s fun t => t.chan m ch = { c with aborting := true, stopAs := some 0x0C, ended := some (0x0C, 0) } ∧
              t = { s with movers := t.movers })) ∧
        (c.state = .stopped ∨ c.state = .errHalt → exec (.resume m ch) s = .next (s.setChan m ch { c with state := .active }))) ∧
      (c.state = .idle ∨ c.state = .stopped ∨ c.state = .errHalt →
        exec (.resetChannel m ch) s = .next (s.setChan m ch { c with
          head := 0, kpend := false, state := .idle, orphan := c.orphan.map fun o => { o with advance := false } })) ∧
      (∀ w : Word64, c.state = .disabled → bits w 3 0 ≤ 12 → bits w 37 5 % 2 ^ bits w 3 0 = 0 → exec (.movChannelConfigWrite m ch false w) s =
        .next (s.setChan m ch { c with log2 := BitVec.ofNat 4 (bits w 3 0), addr := BitVec.ofNat 33 (bits w 37 5), spc := bit w 40 })) ∧
      (∀ w : Word64, c.state = .disabled → 1 ≤ bits w 8 4 → bits w 8 4 ≤ 16 → Answers (.movChannelConfigWrite m ch true w) s fun t =>
        (t.chan m ch).prio.toNat = bits w 2 1 ∧ (t.chan m ch).maxb.toNat = bits w 8 4 ∧ (t.chan m ch).hedge.val = bits w 21 16 ∧ (t.chan m ch).sigv = bit w 22 ∧
        (t.chan m ch).ept.toNat = bits w 56 32 ∧ (t.chan m ch).state = (if bit w 0 = true then .idle else .disabled)) ∧
      (∀ w : Word64, c.state = .idle ∨ c.state = .stopped → bit w 0 = false → 1 ≤ bits w 8 4 → bits w 8 4 ≤ 16 →
        exec (.movChannelConfigWrite m ch true w) s = .next (s.setChan m ch { c with state := .disabled }))) ∧
    (∀ cause kind n addr,
      (v.errhalt = true → exec (.errHalt m cause kind n addr) s = .next s) ∧
      (v.errhalt = false → Answers (.errHalt m cause kind n addr) s fun t => (t.mover m).errhalt = true ∧ (t.mover m).evstat = v.evstat ||| 1 ∧
        (t.mover m).errAddr = addr ∧ (t.mover m).errCause = cause ∧ (t.mover m).errKind = kind ∧ (t.mover m).errCh = n ∧ (∀ k, (t.chan m k).state = .errHalt) ∧
        (∀ d, c.cur = some d → c.ended = none → c.stopAs = none → s.aloneAt m ch → d.block = false ∨ c.issued = false →
          (t.memBytes c.spc (c.descAt c.head.toNat) 32).map (·.1) = statusBytes d 0x0C 0 true c.poison c.done c.diff) ∧
        ∃ r l, t.errq = s.errq ++ r :: l ∧ r.cls = 0x0A ∧ r.addr = some addr)) ∧
    (v.errhalt = true → v.drained = false → exec (.haltclr m) s = .next s) ∧
    (v.errhalt = true → v.drained = true → Answers (.haltclr m) s fun t => (t.mover m).errhalt = false ∧ (t.mover m).errAddr = 0 ∧ (t.mover m).errCh = none ∧
      (m.val < 32 → ch.val < 8 → t.chan m ch = { c with state := .idle }) ∧ (8 ≤ ch.val → t.chan m ch = c) ∧
      ∀ f a, 32 ≤ m.val → m.val < 34 → (portOf f).val = m.val - 32 → (s.fn f).sqFault = some a → (t.fn f).sqFault = none ∧ (t.fn f).sqerr = true) ∧
    ∀ tag n, Answers (.unexpectedCompletion m tag n) s fun t => (t.mover m).unexp = satInc v.unexp ∧ (t.mover m).unexpTag = tag ∧
      (t.mover m).unexpBytes = (if 34 ≤ m.val then 0 else n) ∧ (t.mover m).evstat = v.evstat ||| 2

/-- 12 R386, R388, R389, R400, R403: an ACTIVE channel takes the descriptor at HEAD, if its OWN bit is 1; one that fails a
check ends with DATA, one that is paced waits for its timer, and else its first burst starts, a record page that is
not resident puts it in PAGED, or a block transfer's command is issued; a timer's request is asserted at a multiple
of its period, when paced channels go on, and withdrawn by WDRAW. 12 R395 to R402, R408, Table 12-7: a BARRIER to a
host reads back first; then the status of a descriptor that has ended replaces its 32 bytes, HEAD advances, SIG and
INT act, the channel stops unless the status is OK, goes on, or after LAST is IDLE; CHAIN kicks. An expired completion
timer ends the descriptor with TIMEOUT. A
command whose conditions do not hold leaves the state as it is: where such a clause stands, that is the model's choice
(log 1). Where the spec can be read in two ways this rests on the model's readings in logs 29, 74 and 76. -/
def Obligations.DescriptorsAreTakenAndCompleted : Prop :=
  (∀ (s : State) (m : MovId) (ch : ChId),
     let c := s.chan m ch
     let d := s.readDesc c
     let n := if d.op = 1 then s.writeRoom d.dst 0 else s.readRoom d.src 0
     (hwChan m ch = false → c.state = .active → c.cur = none → (s.mover m).errhalt = false →
       (bit d.ctrl 0 = false → exec (.descriptorTake m ch) s = .next (s.setChan m ch (if c.kpend then { c with kpend := false } else { c with state := .idle }))) ∧
       (bit d.ctrl 0 = true → s.descOk m c d = false → Answers (.descriptorTake m ch) s fun t =>
         t.chan m ch = { c.starts d with ended := some (0x07, 0) } ∧ (s.aloneAt m ch → t = { s with movers := t.movers })) ∧
       (bit d.ctrl 0 = true → s.descOk m c d = true →
         (Answers (.descriptorTake m ch) s fun t => (t.chan m ch).cur = some d ∧ (t.chan m ch).head = c.head) ∧
         (s.servedNow m ch →
           (d.pace = true → ((s.mover m).pt d.ptmr).req = false → Answers (.descriptorTake m ch) s fun t =>
             t.chan m ch = { c.starts d with state := .paced, heldAt := s.aoTick.toNat } ∧ t = { s with movers := t.movers }) ∧
           (d.pace = false ∨ ((s.mover m).pt d.ptmr).req = true →
             (d.block = false → d.op ≠ 2 → d.len ≤ n → (d.op = 1 ∨ maSpace d.src ≠ 3) → Answers (.descriptorTake m ch) s fun t =>
               t.chan m ch = { c.starts d with
                 next := d.len, flight := [⟨if d.op = 1 then 0 else d.src, 0, d.len, false, s.aoTick.toNat, false, none⟩] } ∧
               t.out = s.out ++ (if d.op ≠ 1 ∧ maSpace d.src = 4 then [.read (maFn d.src) (BitVec.ofNat 64 (bits d.src 51 0)) d.len] else []) ∧
               t = { s with movers := t.movers, out := t.out }) ∧
             (∀ v, d.block = false → d.op = 0 → maSpace d.src = 3 → ((s.maPrefetch m d.src 0).maTrans m d.src 0 (min d.len n) false).2 = .fault v →
               Answers (.descriptorTake m ch) s fun t => t.chan m ch = { c.starts d with state := .paged, fault := some (maHedge d.src, v, false) }) ∧
             (d.block = true → s.drainsFirst (maPort d.blockAddr) = false → Answers (.descriptorTake m ch) s fun t =>
               t.chan m ch = { c.starts d with issued := true, since := s.aoTick.toNat } ∧
               t.out = s.out ++ [.nvme (bits d.blockAddr 43 40) (if d.fromBlock then 0x02 else if d.op = 1 then 0x08 else 0x01) (bits d.blockAddr 39 0) d.len d.fua] ∧
               t = { s with movers := t.movers, out := t.out }))))) ∧
     ∀ tm : TimerId, let p := (s.mover m).pt tm
       let waits := fun (x : Desc) => c.cur = some x ∧ x.pace = true ∧ x.ptmr = tm ∧ c.ended = none ∧ c.stopAs = none ∧ c.fault = none
       (Answers (.wdraw m tm) s fun t => (t.mover m).pt tm = { p with left := 0, req := false } ∧
         ∀ x, s.servedNow m ch → waits x → c.state = .active → c.next < x.len → c.done ≠ x.len → c.issued = false →
           t.chan m ch = { c with state := .paced, heldAt := s.aoTick.toNat }) ∧
       (p.period = 0 ∨ s.aoTick.toNat % p.period.toNat ≠ 0 → exec (.pacingPeriod m tm) s = .next s) ∧
       (p.period ≠ 0 → s.aoTick.toNat % p.period.toNat = 0 → Answers (.pacingPeriod m tm) s fun t =>
         ((∀ kc ∈ (s.mover m).chans, ∀ x, kc.2.cur = some x → x.pace = false ∨ x.ptmr ≠ tm) → (t.mover m).pt tm = { p with left := p.quota, req := true }) ∧
         ∀ x, s.servedNow m ch → waits x → c.state = .paced → x.block = true → c.issued = false → s.drainsFirst (maPort x.blockAddr) = false →
           t.chan m ch = { c with state := .active, issued := true, since := s.aoTick.toNat } ∧
           (t.mover m).pt tm = { p with left := p.quota - 1, req := p.quota != 1 })) ∧
  (∀ (s : State) (m : MovId) (ch : ChId) (d : Desc),
     let c := s.chan m ch
     c.cur = some d → (s.mover m).errhalt = false → s.aloneAt m ch →
     (∀ (st : Byte) (nv : BitVec 11), c.ended = some (st, nv) →
       (c.mustFlush d = true → exec (.descriptorComplete m ch) s =
         .next ((s.setChan m ch { c with flushing := true }).emit (.read (maFn d.dst) (BitVec.ofNat 64 (bits d.dst 51 0 + c.done - 1)) 0))) ∧
       (c.mustFlush d = false → Answers (.descriptorComplete m ch) s fun t =>
         ((t.memBytes c.spc (c.descAt c.head.toNat) 32).map (·.1) = statusBytes d st nv false c.poison c.done c.diff) ∧
         (d.chain = false ∨ d.chn ≠ ch →
           t.chan m ch = { c.ended_ st with
             state := if st ≠ 0 ∨ c.aborting = true then .stopped else if d.last = true ∧ c.kpend = false then .idle else .active
             kpend := if st = 0 ∧ c.aborting = false ∧ d.last = true then false else c.kpend }) ∧
         t.movSigs = s.movSigs ++ (if d.sig = true ∧ c.sigv = true then [((m, ch), c.hedge, c.ept.toNat)] else []) ∧
         (d.int = true ∨ st ≠ 0 ∨ c.aborting = true → (t.mover m).intstat = (s.mover m).intstat ||| BitVec.ofNat 64 (2 ^ ch.val)) ∧
         (d.int = false → st = 0 → c.aborting = false → (t.mover m).intstat = (s.mover m).intstat) ∧
         (d.chain = true → st = 0 → d.chn ≠ ch → t.chan m d.chn = (s.chan m d.chn).kick))) ∧
     (c.ended = none → c.orphan = none → ∀ data : List Byte,
       (d.block = true → c.issued = true →
         (s.expired m c.since = true → Answers (.moverTimeout m ch data) s fun t => (t.chan m ch).ended = some (0x03, 0) ∧
           t.out = s.out ++ [.nvmeAbort (maPort d.blockAddr)] ∧ ∃ r, t.errq = s.errq ++ [r] ∧ r.cls = 0x0F ∧ r.status = 0x03) ∧
         (s.expired m c.since = false → exec (.moverTimeout m ch data) s = .next s)) ∧
       (∀ b, d.block = false → c.state = .active → d.op = 0 → c.flight = [b] → b.data = none → b.stale = false → b.off = c.done → maSpace b.a = 4 →
         maSpace d.dst = 2 → d.meets = false →
         (s.expired m b.since = true → Answers (.moverTimeout m ch data) s fun t =>
           let n := upTo64 b.a c.done (min data.length b.n)
           t.chan m ch = { c with done := c.done + n, flight := [], ended := some (0x03, 0) } ∧ tgetRun 0 t.hbm (bits d.dst 37 0 + c.done) n = data.take n ∧
           ∃ r, t.errq = s.errq ++ [r] ∧ r.cls = 0x0E) ∧
         (s.expired m b.since = false → exec (.moverTimeout m ch data) s = .next s))))

/-- 12 R390 to R395, R403, R405: the data of a burst, once it has arrived, is written to its place of the destination,
poison with it, or compared up to the first difference; the last burst ends the descriptor. Where the ranges of a COPY
overlap, the bytes are free values. An NVMe completion with success moves the blocks, and any other gives MEDIA; one
that a halt left behind gets its status. Where the spec can be read in two ways this rests on the model's readings in
logs 2, 29 and 69. -/
def Obligations.BurstsMoveTheBytes : Prop :=
  ∀ (s : State) (m : MovId) (ch : ChId) (d : Desc) (data : List Byte) (pz : Bool),
    let c := s.chan m ch
    let end_ := fun (k : Nat) (st : Byte) => if k = d.len then some (st, (0 : BitVec 11)) else none
    (c.cur = some d → c.ended = none → c.stopAs = none → c.fault = none → s.aloneAt m ch → (s.mover m).errhalt = false → c.state = .active →
      d.block = false →
      (∀ b, c.flight = [b] → b.stale = false → b.data = none → b.off = c.done → c.next = d.len → d.meets = true → maSpace d.dst = 2 →
        b.n ≤ s.writeRoom d.dst c.done → 0 < b.n → b.a = d.src → Answers (.burstComplete m ch 0 data pz) s fun t => ∃ k,
          let p := c.poison || (freeBytes k b.n).any (·.2)
          t.chan m ch = { c with done := c.done + b.n, poison := p, flight := [], ended := end_ (c.done + b.n) (if p then 0x04 else 0) } ∧
          tgetRun 0 t.hbm (bits d.dst 37 0 + c.done) b.n = (freeBytes k b.n).map (·.1) ∧
          ∀ x, (x < bits d.src 37 0 + c.done ∨ bits d.src 37 0 + c.done + b.n ≤ x) →
            (x < bits d.dst 37 0 + c.done ∨ bits d.dst 37 0 + c.done + b.n ≤ x) → t.hbmByte x = s.hbmByte x) ∧
      (∀ b, c.flight = [b] → b.stale = false → b.data = none → b.off = c.done → c.next = d.len → d.op ≠ 2 → d.meets = false → maSpace d.dst ≠ 3 →
        (maSpace b.a = 4 → b.n ≤ data.length) →
        let r := if d.op = 1 then (List.range b.n).map fun i => (d.pattern (c.done + i), false)
          else (s.maMeet m b.a b.off b.n).maRead m b.a b.off b.n data pz
        let p := c.poison || r.any (·.2)
        Answers (.burstComplete m ch 0 data pz) s fun t =>
          t.chan m ch = { c with done := c.done + b.n, poison := p, flight := [], ended := end_ (c.done + b.n) (if p then 0x04 else 0) } ∧
          (maSpace d.dst = 2 → tgetRun 0 t.hbm (bits d.dst 37 0 + c.done) b.n = r.map (·.1) ∧ HbmKept s t (bits d.dst 37 0 + c.done) b.n) ∧
          (maSpace d.dst = 6 → tgetRun 0 t.ccm (bits d.dst 31 0 + c.done) b.n = r.map (·.1) ∧ t.hbm = s.hbm) ∧
          (maSpace d.dst = 4 → t.hbm = s.hbm ∧ (b.n ≤ s.writeRoom d.dst c.done → 0 < b.n →
            t.out = s.out ++ [.host (maFn d.dst) (BitVec.ofNat 64 (bits d.dst 51 0 + c.done)) (r.map (·.1)) (r.any (·.2))])) ∧
          (maSpace d.dst = 1 → maSpace b.a ≠ 1 ∨ d.op = 1 → b.n ≤ s.writeRoom d.dst c.done → 0 < b.n →
            t.eng (maEng m d.dst) = (s.eng (maEng m d.dst)).moverWrite (bits d.dst 17 0 + c.done) r ∧ t.hbm = s.hbm)) ∧
      (∀ x y u, c.flight = [x, y] → x.stale = false → y.stale = false → x.data = some u → y.data = none → d.op = 2 →
        (maSpace y.a = 4 → y.n ≤ data.length) → let w := (s.maMeet m y.a y.off y.n).maRead m y.a y.off y.n data pz
        (∀ b ∈ u ++ w, b.2 = false) →
        (u.map (·.1) = w.map (·.1) → c.done + y.n = d.len → Answers (.burstComplete m ch 1 data pz) s fun t =>
          t.chan m ch = { c with done := c.done + y.n, next := c.next + y.n, flight := [], ended := some (0, 0) } ∧ t.hbm = s.hbm) ∧
        ∀ i p q, u[i]? = some p → w[i]? = some q → p.1 ≠ q.1 → (u.take i).map (·.1) = (w.take i).map (·.1) →
          Answers (.burstComplete m ch 1 data pz) s fun t =>
            t.chan m ch = { c with done := c.done + i, diff := some (c.done + i), flight := [], ended := some (0, 0) } ∧ t.hbm = s.hbm)) ∧
    (c.cur = some d → c.ended = none → c.orphan = none → s.aloneAt m ch → c.state ≠ .paced →
     d.block = true → c.issued = true →
      let at_ := diskAt (maPort d.blockAddr) (bits d.blockAddr 39 0)
      (∀ st, st ≠ 0 → Answers (.nvmeCompletion m ch st) s fun t => t.chan m ch = { c with ended := some (0x04, st), poison := false, done := 0 } ∧ t.hbm = s.hbm) ∧
      (d.op = 1 → Answers (.nvmeCompletion m ch 0) s fun t => t.chan m ch = { c with ended := some (0, 0), poison := false, done := d.len } ∧
        ∀ i, i < d.len → tget 0 t.disk (at_ + i) = 0) ∧
      (d.op = 0 → d.gather = false → d.fromBlock = true → maSpace d.dst = 2 → (∀ i, tget false s.diskPoison i = false) →
        Answers (.nvmeCompletion m ch 0) s fun t =>
        t.chan m ch = { c with ended := some (0, 0), poison := false, done := d.len } ∧
        (∀ i, i < d.len → t.hbmByte (bits d.dst 37 0 + i) = tget 0 s.disk (at_ + i)) ∧ t.disk = s.disk) ∧
      (d.op = 0 → d.gather = false → d.fromBlock = false → maSpace d.src = 2 → s.readsPoison (bits d.src 37 0) d.len = false →
        Answers (.nvmeCompletion m ch 0) s fun t => t.chan m ch = { c with ended := some (0, 0), poison := false, done := d.len } ∧
        (∀ i, i < d.len → tget 0 t.disk (at_ + i) = s.hbmByte (bits d.src 37 0 + i)) ∧ t.hbm = s.hbm)) ∧
    ∀ o st, c.orphan = some o → st ≠ 0 → Answers (.nvmeCompletion m ch st) s fun t => (t.chan m ch).orphan = none ∧ (t.chan m ch).last = 0x04 ∧
      (t.memBytes o.spc o.at_ 32).map (·.1) = statusBytes o.d 0x04 st false false o.d.len none

/-! ## Power, heat and energy -/

/-- 14 R456 to R459, R462, R464, Table 14-1: when a cluster enters C1 to C4, that a wake ends in C0 without what the state
lost, what a write of PWR_CCTL sets, and that an upward change of point takes effect by its switch. A command whose
conditions do not hold leaves the state as it is: where such a clause stands, that is the model's choice (log 1).
Where the spec can be read in two ways this rests on the model's readings in logs 44 and 78. -/
def Obligations.ClustersEnterAndLeavePowerStates : Prop :=
  ∀ (s : State) (n : CluId),
    let c := s.clu n
    let at_ := fun (p : PState) => s.setClu n { c with pst := p, since := s.aoTick.toNat }
    (c.pst = .c0 → c.waking = false → c.floor ≠ 0 → s.cluQuiet n = true → exec (.clusterC1Entry n) s = .next (at_ .c1)) ∧
    (c.pst ≠ .c0 ∨ c.waking = true ∨ c.floor = 0 ∨ s.cluQuiet n = false → exec (.clusterC1Entry n) s = .next s) ∧
    (c.pst = .c1 → c.waking = false → 2 ≤ c.floor.toNat → s.cluResident n = false → s.moverIdle n = true → s.cluWarm n = false →
      c.since + c.t2.toNat ≤ s.aoTick.toNat → exec (.clusterC2Entry n) s = .next (at_ .c2)) ∧
    (c.pst = .c2 → c.waking = false → 3 ≤ c.floor.toNat → c.since + c.t3.toNat ≤ s.aoTick.toNat → exec (.clusterC3Entry n) s = .next (at_ .c3)) ∧
    (s.cluHedges n = [] → s.cluResident n = false → s.moverIdle n = true → Answers (.clusterC4Entry n) s fun t =>
      t.clu n = { c with floor := 4, pst := .c4, since := s.aoTick.toNat, waking := false, upTo := none } ∧
      (∀ k, k ≠ n → t.clu k = s.clu k) ∧ t = { s with clus := t.clus }) ∧
    (c.pst ≠ .c0 → exec (.clusterWake n) s = .next (s.setClu n { c with waking := true })) ∧ (c.pst = .c0 → exec (.clusterWake n) s = .next s) ∧
    (c.waking = false → exec (.clusterWakeComplete n) s = .next s) ∧
    (c.waking = true → c.held = [] → Answers (.clusterWakeComplete n) s fun t =>
      (t.clu n).pst = .c0 ∧ (t.clu n).waking = false ∧ (t.clu n).l2 = (if c.pst = .c3 ∨ c.pst = .c4 then [] else c.l2) ∧
      (t.clu n).code = (if c.pst = .c4 then [] else c.code) ∧
      (∀ e, t.eng e = if cluOf e = n then (match c.pst with | .c3 => (s.eng e).leaveC3 | .c4 => (s.eng e).leaveC4 | _ => s.eng e) else s.eng e) ∧
      (∀ k, k ≠ n → t.clu k = s.clu k) ∧ t = { s with clus := t.clus, engines := t.engines }) ∧
    (∀ r v, s.reaches r = true → (bits v 2 0 ≤ 1 ∨ s.cluWarm n = false) → bits v 2 0 ≤ 4 → bits v 6 4 ≤ 4 → bits v 31 16 ≠ 0 → bits v 47 32 ≠ 0 → c.held = [] →
      Answers (.pwrCctlWrite r n v) s fun t => let q := t.clu n
        q.floor.toNat = bits v 2 0 ∧ q.target.toNat = bits v 6 4 ∧ q.boosten = bit v 7 ∧ q.t2.toNat = bits v 31 16 ∧ q.t3.toNat = bits v 47 32 ∧
        (bit v 3 = false → q.pst.code = min c.pst.code (bits v 2 0))) ∧
    (∀ r v, s.reaches r = false ∨ 1 < bits v 2 0 ∧ s.cluWarm n = true ∨ 4 < bits v 2 0 ∨ 4 < bits v 6 4 ∨ bits v 31 16 = 0 ∨ bits v 47 32 = 0 → exec (.pwrCctlWrite r n v) s = .next s) ∧
    (∀ p since, c.upTo = some (p, since) →
      ((c.pst = .c0 ∨ c.pst = .c1) → since + 5 ≤ s.aoTick.toNat → exec (.pointUpSwitch n) s = .next (s.setClu n { c with point := p, upTo := none })) ∧
      (c.pst = .c2 ∨ c.pst = .c3 ∨ c.pst = .c4 ∨ s.aoTick.toNat < since + 5 → exec (.pointUpSwitch n) s = .next s)) ∧
    (c.upTo = none → exec (.pointUpSwitch n) s = .next s)

/-- 14 R466 to R470, R473, Table 14-3, 18 R564: a sample at 95 °C or more lowers the cluster's limit, at 103 °C to 0, at
105 °C quiesces the device; two sensors that fail leave the cluster blind; each later step waits its time; and the brake and a sagging supply hold every point down.
A command whose conditions do not hold leaves the state as it is: where such a clause stands, that is the model's
choice (log 1). Where the spec can be read in two ways this rests on the model's reading in log 52. -/
def Obligations.HeatAndTheSupplyLimitThePoints : Prop :=
  ∀ (s : State),
    (∀ (k : SensorId) (v : BitVec 11) (n : CluId), n.val = k.val / 2 → let c := s.clu n
      let o := s.sensor (if k.val % 2 = 0 then k.val + 1 else k.val - 1)
      let x := if o.2 then max v.toInt o.1.toInt else v.toInt
      Answers (.tempSample k v true) s fun t => let q := t.clu n
        t.sensor k.val = (v, true) ∧ q.blind = false ∧
        (380 ≤ x → q.throt = true ∧ q.coolAt = none ∧ q.hotAt.isSome = true) ∧
        (380 ≤ x → x < 412 → c.hotAt = none → q.tlim = (if c.tlim = 0 then 0 else c.tlim - 1) ∧ q.hotAt = some s.aoTick.toNat) ∧
        (380 ≤ x → x < 412 → c.hotAt ≠ none → q.tlim = c.tlim) ∧ (412 ≤ x → q.tlim = 0) ∧
        (x < 380 → q.tlim = c.tlim ∧ q.throt = c.throt ∧ q.hotAt = none) ∧
        (372 ≤ x → q.coolAt = none) ∧ (x < 372 → q.coolAt = some (c.coolAt.getD s.aoTick.toNat)) ∧
        (k.val % 2 = 1 → (q.heat.toNat : Int) = min 4095 (max 0 ((c.heat.toNat : Int) + s.regs.tcool.toNat - x))) ∧
        (k.val % 2 = 0 → q.heat = c.heat) ∧
        (420 ≤ v.toInt → t.keeper.thermtrip = true ∧ t.lehr.quiesced = true) ∧ (v.toInt < 420 → t.keeper = s.keeper ∧ t.lehr = s.lehr)) ∧
    (∀ (k : SensorId) (v : BitVec 11) (n : CluId), n.val = k.val / 2 → let c := s.clu n
      (s.sensor (if k.val % 2 = 0 then k.val + 1 else k.val - 1)).2 = false → c.blind = false → (k.val % 2 = 1 ∨ c.sampled = true) →
      Answers (.tempSample k v false) s fun t => (t.clu n).blind = true ∧ t.sensor k.val = (v, false) ∧ ∃ r, t.errq = s.errq ++ [r] ∧ r.cls = 0x10) ∧
    (∀ (n : CluId) h, let c := s.clu n
      (c.hotAt = some h → h + 100 ≤ s.aoTick.toNat → Answers (.thermalStepDown n) s fun t =>
        (t.clu n).tlim = (if c.tlim = 0 then 0 else c.tlim - 1) ∧ (t.clu n).hotAt = some s.aoTick.toNat) ∧
      (c.hotAt = some h → s.aoTick.toNat < h + 100 → exec (.thermalStepDown n) s = .next s) ∧
      (c.coolAt = some h → h + 1000 ≤ s.aoTick.toNat → Answers (.thermalStepUp n) s fun t =>
        (t.clu n).tlim.toNat = min 4 (c.tlim.toNat + 1) ∧ (t.clu n).coolAt = some s.aoTick.toNat ∧
        (t.clu n).throt = (if 3 ≤ c.tlim.toNat then false else c.throt)) ∧
      (c.coolAt = some h → s.aoTick.toNat < h + 1000 → exec (.thermalStepUp n) s = .next s)) ∧
    (Answers .pwrBrakeAssert s fun t => t.keeper = { s.keeper with brake := true } ∧
      ∀ k, (t.clu k).boost = false ∧ ((s.clu k).pst = .c0 ∨ (s.clu k).pst = .c1 → (t.clu k).point.toNat ≤ s.regs.brakept.toNat)) ∧
    (s.keeper.brake = true → Answers .pwrBrakeRelease s fun t => t.keeper = { s.keeper with brake := false } ∧
      ∀ k, (t.clu k).brakeLim = some ((s.clu k).point.toNat, s.aoTick.toNat)) ∧
    (s.keeper.brake = false → exec .pwrBrakeRelease s = .next s) ∧
    Answers .vcoreUndervolt s fun t => t.regs = { s.regs with noBoost := s.aoTick.toNat + 100000 } ∧ (∃ r, t.errq = s.errq ++ [r] ∧ r.cls = 0x11) ∧
      ∀ k, (t.clu k).boost = false ∧ ((s.clu k).pst = .c0 ∨ (s.clu k).pst = .c1 → (t.clu k).point.toNat ≤ 3)

/-- 14 R471, R472, R474, R479 to R481, 02 R55: the power controller's windows and the energy credits, and how an
effective guarantee or minimum falls at once and rises after ten evaluations. Roundings are firmware's (log 7). Where
the spec can be read in two ways this rests on the model's readings in logs 7, 52 and 56. -/
def Obligations.PowerAndGuaranteesFollowTheWindows : Prop :=
  ∀ (s : State),
    (∀ (w : Nat) (l : List (CluId × Nat)), Answers (.powerControl w l) s fun t =>
      let can := fun (k : CluId) => (s.clu k).pst ≠ .c4 ∧ 0 < min (s.clu k).pcap.toNat (s.clu k).point.toNat
      let lowered := fun (k : CluId) => BitVec.ofNat 3 (min (s.clu k).pcap.toNat (s.clu k).point.toNat - 1)
      t.regs.power.toNat = min 4095 w ∧ t.regs.peak.toNat = max s.regs.peak.toNat (min 4095 w) ∧
      t.regs.under = (if w + 128 ≤ s.regs.limit.toNat then s.regs.under + 1 else 0) ∧
      (3040 < w → ∀ k, (can k → (t.clu k).pcap = lowered k) ∧ (¬can k → (t.clu k).pcap = (s.clu k).pcap)) ∧
      (w ≤ 3040 → s.regs.limit.toNat < w → ∃ ks : List CluId, ks.length ≤ 4 ∧ (ks = [] → ∀ k, ¬can k) ∧
        ∀ k, (k ∈ ks → can k ∧ (t.clu k).pcap = lowered k) ∧ (k ∉ ks → (t.clu k).pcap = (s.clu k).pcap)) ∧
      (w ≤ 3040 → w ≤ s.regs.limit.toNat → t.regs.under < 10 → ∀ k, (t.clu k).pcap = (s.clu k).pcap) ∧
      (∀ k e, l = [(k, e)] → (t.clu k).energy = (s.clu k).energy + BitVec.ofNat 32 e ∧ (t.clu k).lastEnergy = e ∧ ∀ j, j ≠ k → (t.clu j).lastEnergy = 0)) ∧
    (∀ issue : List (CluId × HedgeId × Nat), Answers (.energySettle issue) s fun t => ∀ h ∈ s.openHedges, let g := s.hedge h
      let avail : Int := ((s.regs.limit.toNat : Int) - s.regs.power.toNat) * 25 + 2 * ((List.finRange 32).map fun k => ((s.clu k).lastEnergy : Int)).foldl (· + ·) 0
      let acc := roundMicro (avail * g.par.emin) (2 * (s.openHedges.map fun h => (s.hedge h).par.emin).sum)
      let cap := max 0 (100 * acc)
      t.hedge h = { g with credit := BitVec.ofInt 32 (min cap (max (-cap) (g.credit.toInt + acc - s.spent issue h))) }) ∧
    (Answers .capacityEval s fun t => ∀ h ∈ s.openHedges, let g := s.hedge h
      let sum := (s.openHedges.map fun i => (s.hedge i).par.gcommit).sum
      let crit := ((s.openHedges.filter fun i => (s.hedge i).par.critical).map fun i => (s.hedge i).par.gcommit).sum
      let new := effective g.par.gcommit g.par.critical sum crit (625 * s.clocks) 2
      (new ≤ g.ecommit.toNat → (t.hedge h).ecommit.toNat = new) ∧
      (g.ecommit.toNat < new → g.gRise.1 < 9 → (t.hedge h).ecommit = g.ecommit ∧ (t.hedge h).gRise.1 = g.gRise.1 + 1) ∧
      (g.ecommit.toNat < new → 9 ≤ g.gRise.1 → (t.hedge h).ecommit = BitVec.ofNat 18 (min g.gRise.2 new))) ∧
    Answers .effectiveMinEval s fun t => ∀ h v, (h, v) ∈ s.effMins → let g := s.hedge h
      (v ≤ g.effMin → (t.hedge h).effMin = v) ∧ (g.effMin < v → g.effRise.1 < 9 → (t.hedge h).effMin = g.effMin) ∧
      (g.effMin < v → 9 ≤ g.effRise.1 → (t.hedge h).effMin = min g.effRise.2 v)

/-! ## Power failure, start-up and the keeper -/

/-- 11 R370, 15 R491, R498, 16 R532, 17 R535, R536, 18 R566 to R568, R570, 19 R594: what quiesces the device, what resets
it, and that a reset keeps the drives, the mappings, the Lehr's array, the keeper's fuses and slots and what else log
18 names, and returns all other fields to their reset values. A command whose conditions do not hold leaves the state
as it is: where such a clause stands, that is the model's choice (log 1). Where the spec can be read in two ways this
rests on the model's readings in logs 18, 43 and 81. -/
def Obligations.ResetsKeepWhatIsDurable : Prop :=
  ∀ (s : State),
    let k := s.keeper
    let back := fun (t : State) (step : Nat) =>
      t = { State.reset with
        dir := t.dir, hbm := t.hbm, poison := t.poison, hbmLatent := t.hbmLatent, lehr := t.lehr, keeper := t.keeper, pleach := t.pleach, disk := s.disk, durable := s.durable, store := s.store, blockNext := s.blockNext
        aoTick := s.aoTick, out := t.out, free := s.free, pending := s.pending } ∧
      (∀ i, tget Endpoint.zero t.dir i = { tget Endpoint.zero s.dir i with evseq := 0, marm := 0 }) ∧
      t.lehr.wp = s.lehr.wp ∧ t.lehr.records = s.lehr.records ∧ t.lehr.supers = s.lehr.supers ∧ t.lehr.inRing = s.lehr.inRing ∧ t.lehr.segSeq = s.lehr.segSeq ∧ t.lehr.queue = [] ∧
      t.keeper.step = step ∧ t.keeper.svnf = k.svnf ∧ t.keeper.debugLock = k.debugLock ∧ t.keeper.imgA.header = k.imgA.header ∧
      t.keeper.imgB.header = k.imgB.header
    let quiet := fun (t : State) => t = { s with
      lehr := { s.lehr with quiesced := true }, keeper := { k with failLatched := true, failAt := s.aoTick.toNat }, pleach := s.pleach.cutOff }
    (∀ ns, (20 ≤ ns → Answers (.pwrFailAssert ns) s quiet) ∧ (ns < 5 → exec (.pwrFailAssert ns) s = .next s) ∧
      (5 ≤ ns → ns < 20 → Answers (.pwrFailAssert ns) s fun t => t.free = s.free + 1 ∧ (t = { s with free := t.free } ∨ quiet { t with free := s.free }))) ∧
    (k.failLatched = true → k.thermtrip = false → k.rst = false → k.crystalLost = false →
      (k.failAt + 10000 ≤ s.aoTick.toNat → Answers .pwrFailRestart s fun t => back t 1 ∧ t.keeper.failLatched = false) ∧
      (s.aoTick.toNat < k.failAt + 10000 → exec .pwrFailRestart s = .next s)) ∧
    (k.rst = false → Answers .sysRstAssert s fun t => back t 0 ∧ t.keeper.rst = true ∧ t.out = s.out) ∧ (k.rst = true → exec .sysRstAssert s = .next s) ∧
    (k.crystalLost = false → Answers .crystalLoss s fun t => back t 0 ∧ t.keeper.crystalLost = true) ∧
    (k.crystalLost = true → s.aoTick.toNat < k.crystalAt + 10000 → exec .crystalRecovery s = .next s) ∧
    (k.crystalLost = true → k.crystalAt + 10000 ≤ s.aoTick.toNat → exec .crystalRecovery s = .next { s with keeper := { k with
      crystalLost := false, step := if k.failLatched = true ∨ k.rst = true then 0 else 1 } }) ∧
    (Answers .keeperStart s fun t => t.aoTick = 0 ∧ t.keeper.rst = true ∧ t.keeper.step = 0 ∧ t.keeper.revoke = k.revoke ∧ t.keeper.svnf = k.svnf ∧
      t.keeper.debugLock = k.debugLock ∧ t.keeper.imgA = k.imgA ∧ t.keeper.imgB = k.imgB ∧ t.disk = s.disk ∧ t.durable = s.durable ∧ t.engines = []) ∧
    (k.awake = true → k.step = 0 → k.gaveUp = false → (k.rst = true ∨ k.rails = false ∨ k.thermtrip = true) →
      exec .startWaitTimeout s = .next ({ s with keeper := { k with gaveUp := true } }.emit
        (.mctp (.bootFailure (if k.thermtrip then .thermtrip else .conditions))))) ∧
    (3 ≤ k.step → k.step ≤ 9 → s.regs.bootok = false → k.recov = false → k.bootFail = false → k.failLatched = false → k.released + 8000000 ≤ s.aoTick.toNat →
      Answers .bootWatchdog s fun t => back t 1 ∧ t.keeper.count k.slotB = k.count k.slotB + 1 ∧ t.out = s.out) ∧
    (∀ th : ThreadId, 3 ≤ k.step → k.heldCores = false →
      exec (.heartbeat th) s = .next { s with keeper := { k with beats := tset 0 k.beats th.val (s.aoTick.toNat + 1) } }) ∧
    let recent := (k.resets.filter fun (x : Word64) => decide (s.aoTick.toNat < x.toNat + 3600000000)) ++ [s.aoTick]
    let last := fun (t : State) => t.keeper.alert = true ∧ t.keeper.resets = recent ∧
      (recent.length < 3 → back t 1 ∧ t.out = s.out) ∧ (3 ≤ recent.length → t.keeper.bootFail = true ∧ t.keeper.heldCores = true ∧ t.devstat = 3 ∧
        t.out = s.out ++ [.mctp (.bootFailure .restarts)])
    (∀ th : ThreadId, let b := tget 0 k.beats th.val
      b ≠ 0 → b + 99999 ≤ s.aoTick.toNat → Answers (.heartbeatLoss th) s last) ∧
    (s.regs.fatal = true → Answers (.keeperLastResort false) s last) ∧
    (3 ≤ k.step → k.recov = false → Answers (.keeperLastResort true) s fun t => last t ∧ (t.keeper.img k.slotB).sigOk = false)

/-- 15 R490, R496 to R498, R508, R512, 17 R535, R537 to R541, R551: the start sequence of the image that the keeper
chooses up to step 9, the first write of GLB_BOOTOK, which firmware makes there, step 13, GLB_LOCK, and the fuses. A
command whose conditions do not hold leaves the state as it is: where such a clause stands, that is the model's choice
(log 1). Where the spec can be read in two ways this rests on the model's readings in logs 8 and 54. -/
def Obligations.TheDeviceStarts : Prop :=
  ∀ (s : State),
    let k := s.keeper
    (∀ i : StartIn, k.awake = true → k.failLatched = false → k.crystalLost = false → k.thermtrip = false → k.gaveUp = false → k.bootFail = false →
      (k.step ≤ 1 → s.devstat = 0 →
        (i.rails = false → exec (.startSequence i) s = .next { s with keeper := { k with rst := false, rails := false } }) ∧
        (i.rails = true → let k1 : Keeper := { k with rst := false, rails := true }
          (∀ b trial, (k1.choose i.spi).1 = .slot b trial → i.failed = [] → (k1.img b).patchOk = true →
            Answers (.startSequence i) s fun t => t.keeper.step = 9 ∧ t.keeper.slotB = b ∧ t.keeper.recov = false ∧ t.keeper.trial = trial ∧
              t.keeper.released = s.aoTick.toNat ∧ (∀ p, (t.port p).crs = false) ∧ t.devstat = 0 ∧
              (∀ p d b, p ∈ i.listed → (i.drives.find? fun d => d.1 == p) = some (p, d) → DriveReport.usable d = some b →
                (t.sport p).used = true ∧ (t.sport p).blocks = b.toNat) ∧
              ∀ n : CluId, (n ∈ i.bad → (t.clu n).pst = .c4 ∧ (t.clu n).removed = true) ∧
                (n ∉ i.bad → (∀ r ∈ k.repair, r.1 ≠ n.val) → i.patches.replaced.length ≤ 16 → i.patches.words.length ≤ 128 → (t.clu n).pen = true ∧ (t.clu n).patchLvl = i.patches.level)) ∧
          (∀ b trial, (k1.choose i.spi).1 = .slot b trial → i.failed ≠ [] → Answers (.startSequence i) s fun t =>
            t.keeper.bootFail = true ∧ t.keeper.heldCores = true ∧ t.devstat = 3 ∧ t.out.getLast? = some (.mctp (.bootFailure .hbmChannel))) ∧
          (∀ img, (k1.choose i.spi).1 = .recovery img → Answers (.startSequence i) s fun t => t.keeper.recov = true ∧ t.keeper.step = 3 ∧ t.devstat = 3 ∧
            ∀ p, (t.port p).vfs = 0 ∧ (t.port p).crs = false) ∧
          ((k1.choose i.spi).1 = .none → Answers (.startSequence i) s fun t =>
            t.keeper.bootFail = true ∧ t.devstat = 3 ∧ t.out.getLast? = some (.mctp (.bootFailure .noImage))))) ∧
      (k.step = 12 → s.devstat = 1 → i.lend = [] → Answers (.startSequence i) s fun t => t.devstat = 2 ∧ t.keeper.step = 13 ∧
        ∀ (h : HedgeId) d, tget none s.store h.val = some d → (∀ m ∈ s.pleach.prepared, m.here ≠ h) → (∀ m ∈ s.pleach.moved, m.here ≠ h) →
          (t.hedge h).fn = some d.fn ∧ (t.hedge h).par = d.par ∧ (t.hedge h).progs = d.progs)) ∧
    (∀ r v, s.reaches r = true → s.regs.bootokW = false → bit v 0 = true →
      (∀ th, r = .thread th → k.step = 9 → s.pleachPart = true → k.failLatched = false → Answers (.glbBootokWrite r v) s fun t =>
        t.regs = { s.regs with bootokW := true, bootok := true, lock := true } ∧ t.devstat = 1 ∧ t.keeper.step = 10 ∧
        (k.recov = false → t.keeper.count k.slotB = 0 ∧ t.keeper.dirDone = true ∧
          t.keeper.svnCommit = (if imgSvnCommit (k.img k.slotB) = true ∧ k.svnf < imgSvn (k.img k.slotB) then some (imgSvn (k.img k.slotB)) else none))) ∧
      (k.step ≠ 9 → Answers (.glbBootokWrite r v) s fun t => t.regs = { s.regs with bootokW := true, bootok := true } ∧ t.devstat = s.devstat ∧ t.keeper.step = k.step)) ∧
    (∀ r v, s.reaches r = true → s.regs.bootokW = true → Answers (.glbBootokWrite r v) s fun t => t.regs.lockviol = true ∧ t.regs.secalm = true ∧ t.regs.bootok = s.regs.bootok ∧
      t.keeper.alert = true ∧ t.keeper.step = k.step) ∧
    (∀ r, s.reaches r = true → exec (.glbLockWrite r) s = .next { s with regs := { s.regs with lock := true } }) ∧
    (∀ th q, let r : Requester := .thread th
      (s.regs.lock = true → Answers (.fuseRequest r q) s fun t => t.keeper.alert = true ∧ t.keeper.revoke = k.revoke ∧ t.keeper.svnf = k.svnf ∧
        t.keeper.debugLock = k.debugLock) ∧
      (s.regs.lock = false → exec (.fuseRequest r q) s = .next { s with keeper := match q with
        | .revoke n => { k with revoke := k.revoke ||| BitVec.ofNat 4 (2 ^ n.val) }
        | .floor n => { k with svnf := max k.svnf n.val }
        | .debugLock => { k with debugLock := true }
        | .unblow => k })) ∧
    (∀ v, k.svnCommit = some v → (k.dirDone = true → exec .svnCommit s = .next { s with keeper := { k with svnf := max k.svnf v, svnCommit := none } }) ∧
      (k.dirDone = false → exec .svnCommit s = .next s))

/-! ## Control space -/

/-- 00 R9 to R11, 15 R489, R507 to R511, 16 R521, 19 R590 to R592, R597: a read returns the register's value and clears
its read-to-clear fields; a write sets the fields that can be written, unless it would leave one out of its range, or
the register is locked, which is logged; a broadcast reaches every cluster without a resident context; and a cluster's
bad code word is rewritten. A command whose conditions do not hold leaves the state as it is: where such a clause
stands, that is the model's choice (log 1). Where the spec can be read in two ways this rests on the model's reading
in log 45. -/
def Obligations.ControlSpaceReadsAndWrites : Prop :=
  ∀ (s : State) (r : Requester), s.reaches r = true →
    (∀ (addr : BitVec 32),
      (∀ len, regOf addr.toNat = none ∨ len ≠ 8 → exec (.registerReadClear r ⟨addr, len⟩) s = .next (s.emit (.value addr 0))) ∧
      (∀ q, regOf addr.toNat = some q → Answers (.registerReadClear r ⟨addr, 8⟩) s fun t => t.out = s.out ++ [.value addr (s.regRead (r == .jtag) q)] ∧
        t = { s.regClear q with out := t.out, free := t.free }) ∧
      (∀ len v, len ≠ 8 ∨ regOf addr.toNat = none ∧ aliasOff addr.toNat = none → exec (.registerWrite r ⟨addr, len⟩ v) s = .next s)) ∧
    (∀ (addr : BitVec 32) (v : Word64) (t : State),
      (addr, t) ∈
        [((0x100 : BitVec 32), { s with regs := { s.regs with slotsel := v.extractLsb' 0 17 } }),
         (0x10008, { s with regs := { s.regs with tlbPage := v.extractLsb' 12 36 } }),
         (0x30010, if 800 ≤ bits v 11 0 ∧ bits v 11 0 ≤ 3040 then { s with regs := { s.regs with limit := v.extractLsb' 0 12 } } else s),
         (0x20000, if 10 ≤ bits v 15 0 ∧ bits v 15 0 ≤ 10000 ∧ 256 ≤ bits v 47 32 then
            { s with lehr := { s.lehr with twait := v.extractLsb' 0 16, jlimit := v.extractLsb' 32 16 } } else s),
         (0x60008, { s with regs := { s.regs with head := v.extractLsb' 16 14 } }),
         (0x60010, if bit v 16 = true then { s with regs := { s.regs with fatal := false } } else s)] →
      exec (.registerWrite r ⟨addr, 8⟩ v) s = .next t) ∧
    (∀ (addr : BitVec 32) (v : Word64) (sec : Bool) (t : State),
      (addr, sec, t) ∈
        [((0x10010 : BitVec 32), true, { s with regs := { s.regs with ftbase := v.extractLsb' 12 32 } }),
         (0x50008, false, { s with pleach := { s.pleach with setid := v } }),
         (0x40000, false, if 240 ≤ bits v 9 0 ∧ bits v 9 0 ≤ 360 ∧ bits v 27 16 ≠ 0 then
            { s with regs := { s.regs with tcool := v.extractLsb' 0 10, hboost := v.extractLsb' 16 12 } } else s),
         (0x60000, false, if 6 ≤ bits v 27 24 ∧ bits v 27 24 ≤ 14 then
            { s with regs := { s.regs with rbAddr := v.extractLsb' 6 18, rbLog2 := v.extractLsb' 24 4 } } else s)] →
      (s.regs.lock = false → exec (.registerWrite r ⟨addr, 8⟩ v) s = .next t) ∧
      (s.regs.lock = true → Answers (.registerWrite r ⟨addr, 8⟩ v) s fun t => t.regs.lockviol = true ∧ t.regs.lvCount = satInc s.regs.lvCount ∧
        t.regs.secalm = (s.regs.secalm || sec) ∧ (s.regs.lockviol = false → t.regs.lvAddr = addr ∧ t.regs.lvKind = 1) ∧ t.regs.ftbase = s.regs.ftbase ∧
        t.pleach = s.pleach ∧ (sec = true → t.keeper.alert = true) ∧ (sec = false → t.keeper = s.keeper))) ∧
    (∀ c : CoreId,
      (bit s.regs.pfbusy c.val = false → exec (.pflush r c) s = .next { s with regs := { s.regs with
        pfbusy := s.regs.pfbusy ||| BitVec.ofNat 4 (2 ^ c.val), pfcount := tset 0 s.regs.pfcount c.val (satInc (tget 0 s.regs.pfcount c.val)) } }) ∧
      (bit s.regs.pfbusy c.val = true → exec (.pflush r c) s = .next s)) ∧
    (∀ (n : CluId) (v : Word64), let c := s.clu n
      (s.regs.lock = false → s.cluResident n = false → exec (.mcPdata1Write r n v) s = .next (s.setClu n { c with
        mcPd1 := v.extractLsb' 0 32, mcPaddr := c.mcPaddr + 1, patch := tset 0 c.patch c.mcPaddr.toNat (v.extractLsb' 0 32 ++ c.mcPd0) })) ∧
      (s.regs.lock = false → s.cluResident n = true → exec (.mcPdata1Write r n v) s = .next s) ∧
      (s.regs.lock = true → Answers (.mcPdata1Write r n v) s fun t => t.regs.lockviol = true ∧ t.clus = s.clus ∧ t.keeper.alert = true)) ∧
    (∀ v : Word64,
      (s.regs.lock = false → Answers (.mcBroadcastWrite r 0x1000 v) s fun t => (∀ n, t.clu n = if s.cluResident n = true then s.clu n else { s.clu n with pen := bit v 0 }) ∧
        t = { s with clus := t.clus }) ∧
      (s.regs.lock = false → Answers (.mcBroadcastWrite r 0x1020 v) s fun t => (∀ n, t.clu n = { s.clu n with patchLvl := v.extractLsb' 16 8 }) ∧
        t = { s with clus := t.clus }) ∧
      (s.regs.lock = true → Answers (.mcBroadcastWrite r 0x1000 v) s fun t => t.regs.lvCount = satInc s.regs.lvCount ∧
        (s.regs.lockviol = false → t.regs.lvAddr = 0x3001000) ∧ t.clus = s.clus)) ∧
    (∀ (n : CluId), let c := s.clu n
      (c.failing = none → exec (.clusterRemoval n) s = .next s) ∧
      (∀ l, c.failing = some l → s.cluResident n = false → s.moverIdle n = true → Answers (.clusterRemoval n) s fun t =>
        (t.clu n).pst = .c4 ∧ (t.clu n).removed = true ∧ (t.clu n).failing = none ∧ (∀ e, cluOf e = n → (t.eng e).assigned = false) ∧
        (∀ a ∈ l, (n.val, a) ∈ t.keeper.repair) ∧ ∀ k, k ≠ n → t.clu k = s.clu k) ∧
      (∀ l, c.failing = some l → s.cluResident n = true → Answers (.clusterRemoval n) s fun t => t.clus = s.clus ∧ ∀ e, cluOf e = n → (t.eng e).assigned = false)) ∧
    (∀ (n : CluId), let c := s.clu n
      let w := c.crbad.toNat / 16 * 16
      (c.crbadv = false → exec (.coderamRewrite n) s = .next s) ∧
      ∀ h (p : Prog) bs, c.crbadv = true → s.codeAt n w = some (h, p) →
        s.imageAt h (p.caddr.toNat + (w - p.at_)) (min 16 (p.at_ + p.image.length - w)) true bs →
        Answers (.coderamRewrite n) s fun t => (t.clu n).crbadv = false ∧ tgetRun 0 (t.clu n).code w bs.length = bs ∧ ∀ k, k ≠ n → t.clu k = s.clu k)

/-! ## Errors, ports and the management bus -/

/-- 16 R514, R518, R520, R523, R524, R526: what a stop's scrub does with what it finds, when a frame is retired and
its page moves, what a failed channel takes out of use, and how the collector writes the oldest reported error. A
command whose conditions do not hold leaves the state as it is: where such a clause stands, that is the model's choice
(log 1). Where the spec can be read in two ways this rests on the model's readings in logs 6, 47, 48 and 79. -/
def Obligations.ErrorsAreMetAndRecorded : Prop :=
  ∀ (s : State),
    (∀ (st : StopId) (g : Nat) (own : HedgeId), let u := chanOf (g / 128)
      (stopOf u ≠ st ∨ hbmBytes ≤ 32 * g ∨ bit s.chanFailed u.val = true → ∀ x, exec (.patrolScrub st g x own) s = .next s) ∧
      (stopOf u = st → 32 * g < hbmBytes → bit s.chanFailed u.val = false → tget false s.poison g = false → tget Latent.none s.hbmLatent g = .none →
        (g ≠ lastGranule st → Answers (.patrolScrub st g 0 own) s fun t => t.memcnt st = s.memcnt st ∧ t.poison = s.poison ∧ t.hbm = s.hbm ∧ t.errq = s.errq) ∧
        (g ≠ lastGranule st → Answers (.patrolScrub st g 1 own) s fun t => t.memcnt st = { s.memcnt st with ce := satInc (s.memcnt st).ce } ∧
          tget [] t.frameErr (g / 128) = tally s.aoTick.toNat day (tget [] s.frameErr (g / 128)) ∧ t.poison = s.poison ∧ t.hbm = s.hbm ∧ ∃ r, t.errq = s.errq ++ [r] ∧ r.cls = 0x06 ∧ r.sev = 0) ∧
        (g ≠ lastGranule st → fixedEnd ≤ 32 * g → Answers (.patrolScrub st g 2 own) s fun t => t.memcnt st = { s.memcnt st with ue := satInc (s.memcnt st).ue } ∧
          tget false t.poison g = true ∧ t.hbm = s.hbm ∧ ∃ r, t.errq = s.errq ++ [r] ∧ r.cls = 0x06 ∧ r.sev = 1) ∧
        (g = lastGranule st → Answers (.patrolScrub st g 0 own) s fun t => t.memcnt st = { s.memcnt st with scrub := (s.memcnt st).scrub + 1 }))) ∧
    (∀ (fr : Nat), fixedEnd / 4096 ≤ fr → fr < hbmFrames → tget false s.retired fr = false → s.failing fr = true →
      let s0 := { s with retired := tset false s.retired fr true }
      (s.residentAt fr = none → exec (.frameRetire fr) s = .next s0) ∧
      (∀ h base at_ p level, s.residentAt fr = some (h, base, at_, p, level) →
        (∀ dest, s0.findFrames (levelFrames level) = some dest → Answers (.frameRetire fr) s fun t => tget false t.retired fr = true ∧
          tget none t.alloc dest = some (h, base, levelBits level) ∧ (∀ e, tlbFind (t.eng e).dtlb h base = none) ∧ ∀ k, tlbFind (t.clu k).l2 h base = none) ∧
        (s0.findFrames (levelFrames level) = none → exec (.frameRetire fr) s = .next s))) ∧
    (∀ fr, s.failing fr = false → exec (.frameRetire fr) s = .next s) ∧
    (∀ u : UnitId, let many := tallied s.aoTick.toNat 1000000 (tget [] s.chanUe u.val)
      (bit s.chanFailed u.val = true ∨ many ≤ 4096 → exec (.channelFail u) s = .next s) ∧
      (bit s.chanFailed u.val = false → 4096 < many → Answers (.channelFail u) s fun t => t.chanFailed = s.chanFailed ||| BitVec.ofNat 64 (2 ^ u.val) ∧
        tget 32 t.rates (stopOf u).val = tget 32 s.rates (stopOf u).val * (s.liveChans (stopOf u) - 1) / s.liveChans (stopOf u) ∧
        (∃ r ∈ t.errq, r.cls = 0x07) ∧ ∀ n ∈ s.busySlots, (s.slot n).endable = true → bit (s.slot n).mask u.val = true → s.holder n = none →
          (s.slot n).wound = false → (s.slot n).fate = none → (t.slot n).state = .ending ∧ (t.slot n).status = 0x04)) ∧
    (s.errq = [] → exec .errorRecordWrite s = .next s) ∧
    ∀ (r : ErrRec) q, s.errq = r :: q →
      let n := 2 ^ s.regs.rbLog2.toNat
      let i := s.regs.tail.toNat
      (s.runOf r = none → (i + 1) % n ≠ s.regs.head.toNat % n → Answers .errorRecordWrite s fun t => t.errq = q ∧
        tgetRun 0 t.ccm (s.regs.recordAt i) 64 = r.bytes 1 ∧ t.regs.tail = BitVec.ofNat 14 ((i + 1) % n) ∧ t.regs.fatal = (s.regs.fatal || r.sev == 3) ∧
        t.keeper.nor = (if r.sev = 0 then s.keeper.nor else s.keeper.nor ++ [r])) ∧
      (s.runOf r = none → (i + 1) % n = s.regs.head.toNat % n → r.sev = 3 → Answers .errorRecordWrite s fun t => t.errq = q ∧
        tgetRun 0 t.ccm (s.regs.recordAt ((i + n - 1) % n)) 64 = r.bytes 1 ∧ t.regs.tail = s.regs.tail ∧ t.regs.fatal = true) ∧
      (s.runOf r = none → (i + 1) % n = s.regs.head.toNat % n → r.sev ≠ 3 →
        exec .errorRecordWrite s = .next { s with errq := q, regs := { s.regs with lost := satInc s.regs.lost } }) ∧
      (∀ x, s.runOf r = some x → Answers .errorRecordWrite s fun t => t.errq = q ∧ tgetRun 0 t.ccm (s.regs.recordAt x.at_) 64 = x.first.bytes (x.count + 1) ∧
        t.regs.tail = s.regs.tail ∧ t.keeper = s.keeper)

/-- 14 R471, 15 R513, 16 R525, 17 R541, 18 R573, R574, R576, R579, R581, R582, R585: the replies to management
requests and what they change; the alarms read in order until none remains; what a lost storage port and requests
outside every window leave; what GPIO0 and GPIO1 show, and the identity that a function reports. A command whose
conditions do not hold leaves the state as it is: where such a clause stands, that is the model's choice (log 1).
Where the spec can be read in two ways this rests on the model's readings in logs 51 and 81. -/
def Obligations.PortsAndManagementAnswer : Prop :=
  ∀ (s : State),
    exec (.mctpPowerLimit none) s = .next (s.emit (.mctp (.powerLimit s.regs.limit.toNat))) ∧
    (∀ v : BitVec 12,
      (800 ≤ v.toNat → v.toNat ≤ 3040 → exec (.mctpPowerLimit (some v)) s =
        .next ({ s with regs := { s.regs with limit := v } }.emit (.mctp (.powerLimit v.toNat)))) ∧
      (v.toNat < 800 ∨ 3040 < v.toNat → exec (.mctpPowerLimit (some v)) s = .next (s.emit (.mctp (.powerLimit s.regs.limit.toNat))))) ∧
    Answers .mctpTelemetry s (fun t => ∃ l, l.length = 4096 ∧ t = { s with out := s.out ++ [.mctp (.telemetry l)], free := s.free + 1 }) ∧
    exec .mctpErrorLog s = .next (s.emit (.mctp (.errorLog s.keeper.nor s.keeper.norAlarms))) ∧
    exec (.mctpControl none) s = .next (s.emit (.mctp (.control s.keeper.mctpEid))) ∧
    (∀ e, exec (.mctpControl (some e)) s = .next ({ s with keeper := { s.keeper with mctpEid := e } }.emit (.mctp (.control e)))) ∧
    (∀ v, exec (.mctpOtherRequest v) s = .next (s.emit (.mctp (.refused v)))) ∧
    (∀ a l, s.keeper.alarms = a :: l → Answers .alarmMessageRead s fun t =>
      t.keeper = { s.keeper with alarms := l, alert := !l.isEmpty || decide (s.keeper.alarmsOver ≠ 0) } ∧ t.out = s.out ++ [.mctp (.alarm a)]) ∧
    (s.keeper.alarms = [] → s.keeper.alarmsOver ≠ 0 → Answers .alarmMessageRead s fun t =>
      t.keeper = { s.keeper with alarmsOver := 0, alert := false } ∧ t.out = s.out ++ [.mctp (.alarmCount s.keeper.alarmsOver)]) ∧
    (s.keeper.alarms = [] → s.keeper.alarmsOver = 0 → exec .alarmMessageRead s = .next s) ∧
    (∀ p, ((s.sport p).used = true → Answers (.storageLinkDown p) s fun t => t.sport p = { s.sport p with used := false } ∧
        (∃ r, t.errq = s.errq ++ [r] ∧ r.cls = 0x0F) ∧ t = { s with sports := t.sports, errq := t.errq }) ∧
      ((s.sport p).used = false → exec (.storageLinkDown p) s = .next s)) ∧
    (∀ p (a : Word64) n, let s1 := s.setSport p { s.sport p with urs := satInc (s.sport p).urs }
      ((∀ w ∈ s.windows p, a.toNat < w.1.toNat ∨ w.1.toNat + w.2 < a.toNat + n) →
        exec (.outOfWindowRequest p ⟨a, n, true⟩) s = .next s1 ∧ exec (.outOfWindowRequest p ⟨a, n, false⟩) s = .next (s1.emit (.ur (2 + p.val)))) ∧
      ∀ w x, w ∈ s.windows p → w.1.toNat ≤ a.toNat → a.toNat + n ≤ w.1.toNat + w.2 → exec (.outOfWindowRequest p ⟨a, n, x⟩) s = .next s) ∧
    (s.keeper.running = false → ∀ n, s.gpio n = .input) ∧
    (s.keeper.running = true → s.gpio 0 = .drive (s.devstat == 2) ∧ s.gpio 1 = .drive (s.devstat == 3)) ∧
    (∀ f, (s.port (portOf f)).crs = false → f.val % 65 ≤ (s.port (portOf f)).vfs → ∃ i, s.pciIdent f = some i ∧ i.classCode = 0x120000 ∧
      i.device = (if isPf f then 0x0256 else 0x0257) ∧ i.interruptPin = 0 ∧ (isPf f = true → i.totalVfs = (s.port (portOf f)).vfs)) ∧
    ∀ (p : PortId) (fn : Fin 65) (w : Bool), Answers (.hostUnsupportedRequest p fn w) s fun t => (fn.val, 20) ∈ (t.port p).aer ∧
      (∃ r, t.errq = s.errq ++ [r] ∧ r.cls = 0x0E) ∧ t.out = s.out ++ (if w then [] else [.ur p.val]) ∧ t = { s with ports := t.ports, errq := t.errq, out := t.out, free := s.free + 1 }

/-! ## The pleach -/

/-- 17 R543 to R548: a link trains, comes up with its identity message, is ABSENT when its time is up, and trains again
when it goes down, or is HELD after more than three; a new identity message is held and forwarded; and a membership
that has not changed for 50 ms settles on its members and the lowest serial as leader, or is refused. 17 R557 to R559:
a snapshot pauses every member at its last drawn GCS; when all have replied the leader releases, and each records its
cut; a missing reply, or an abort, ends it without one. A command whose conditions do not hold leaves the state as it
is: where such a clause stands, that is the model's choice (log 1). Where the spec can be read in two ways this rests
on the model's readings in logs 49 and 50. -/
def Obligations.LinksSettleAndSnapshotsCut : Prop :=
  (∀ (s : State) (l : LinkId),
     let x := s.link l
     (∀ peer (far : Fin 4) n, x.state = .training → 9 ≤ s.keeper.step → s.keeper.failLatched = false →
       (x.downs ≤ 3 → Answers (.linkUp l peer far n) s fun t =>
         t.link l = { x with state := .up, attempts := n, peer := peer, peerlink := BitVec.ofNat 2 far.val } ∧ t.pleach.settled = false ∧
         ∃ p, t.out.getLast? = some (.identity l p) ∧ p.serial = Config.serial ∧ p.setid = s.pleach.setid) ∧
       (3 < x.downs → Answers (.linkUp l peer far n) s fun t => t.link l = { x with state := .held, attempts := n } ∧ t.pleach.settled = false)) ∧
     (∀ peer far n, x.state ≠ .training → exec (.linkUp l peer far n) s = .next s) ∧
     (x.state = .training → x.since + 10000 * s.pleach.budget.toNat ≤ s.aoTick.toNat → Answers (.linkBudgetExpiry l) s fun t =>
       t.link l = { x with state := .absent } ∧ t.pleach.settled = false) ∧
     (∀ r, s.reaches r = true → x.en = true → 9 ≤ s.keeper.step → x.state ≠ .up → (x.state ≠ .held ∨ s.keeper.step = 13) → Answers (.retrain r l) s fun t =>
       t.link l = { x with state := .training, attempts := 1, since := s.aoTick.toNat } ∧ t.pleach.settled = false) ∧
     (x.state = .up ∨ x.state = .foreign → Answers (.pleachLinkDown l) s fun t =>
       t.link l = { x with state := .training, attempts := 1, since := if s.keeper.step < 13 then x.since else s.aoTick.toNat, drops := satInc x.drops, downs := x.downs + 1 } ∧ t.pleach.settled = false) ∧
     (∀ p : PeerId, x.state = .up →
       (p.serial = x.peer → p.setid ≠ s.pleach.setid → Answers (.identityMessage l p) s fun t => t.link l = { x with state := .foreign } ∧ t.pleach.settled = false) ∧
       (p.setid = s.pleach.setid → p.serial ≠ Config.serial → p ∉ s.pleach.known → Answers (.identityMessage l p) s fun t =>
         t.pleach.known = (s.pleach.known.filter fun q => q.serial != p.serial) ++ [p] ∧ t.pleach.settled = false ∧ t.pleach.changed = s.aoTick.toNat ∧
         t.out = s.out ++ ((s.upLinks.filter fun k => k != l).map fun k => Out.identity k p)) ∧
       (p.setid = s.pleach.setid → p ∈ s.pleach.known → exec (.identityMessage l p) s = .next s)) ∧
     (∀ epoch, s.pleach.settled = true ∨ s.aoTick.toNat < s.pleach.changed + 50000 → exec (.membershipSettle epoch) s = .next s) ∧
     ∀ epoch, s.pleach.settled = false → 9 ≤ s.keeper.step → s.pleach.changed + 50000 ≤ s.aoTick.toNat → let ms := s.memberSet
       (ms.length ≤ 16 → s.pleach.clash = false → Answers (.membershipSettle epoch) s fun t => let q := t.pleach
         q.settled = true ∧ q.seterr = false ∧ q.members.toNat = ms.length ∧ q.leader = lowest Config.serial ms ∧
         q.epoch = (if lowest Config.serial ms = Config.serial then s.pleach.epoch + 1 else epoch) ∧ ∀ k, (t.link k).downs = 0) ∧
       (16 < ms.length ∨ s.pleach.clash = true → Answers (.membershipSettle epoch) s fun t => let q := t.pleach
         q.settled = true ∧ q.seterr = true ∧ q.members = 1 ∧ q.leader = Config.serial ∧ ∃ r ∈ t.errq, r.cls = 0x12)) ∧
  (∀ (s : State),
     let p := s.pleach
     ((p.settled = false ∨ p.seterr = true ∨ s.keeper.step ≠ 13) → exec .snapshotRequest s = .next (s.emit (.mctp (.snapshot none)))) ∧
     (p.settled = true → p.seterr = false → s.keeper.step = 13 →
       (p.leader ≠ Config.serial → exec .snapshotRequest s = .next (s.emit .snapRequest)) ∧
       (p.leader = Config.serial → p.collecting.isSome = true ∨ p.snapState = 1 → exec .snapshotRequest s = .next (s.emit (.mctp (.snapshot none)))) ∧
       (p.leader = Config.serial → p.collecting = none → p.snapState ≠ 1 →
         ((∃ x ∈ s.memberSet, x ≠ Config.serial) → Answers .snapshotRequest s fun t => t.lehr = { s.lehr with paused := true } ∧
           t.pleach = { p with snapNum := p.nextSnap, snapState := 1, snapAbort := false, snapCut := s.lehr.drawn, collecting := some (p.nextSnap, s.aoTick.toNat)
                               replies := [(Config.serial, s.lehr.drawn)], reached := [] } ∧
           t.out = s.out ++ [.mctp (.snapshot (some p.nextSnap)), .pause p.nextSnap]) ∧
         ((∀ x ∈ s.memberSet, x = Config.serial) → Answers .snapshotRequest s fun t => t.lehr = { s.lehr with paused := false } ∧
           t.pleach.cuts = p.cuts ++ [(p.nextSnap, s.lehr.drawn)] ∧ t.pleach.snapState = (if s.lehr.drawn.toNat ≤ s.lehr.ckpt.toNat then 3 else 2)))) ∧
     (∀ k, s.leads = false → (p.snapNum ≠ k ∨ p.snapState = 0) → Answers (.pause k) s fun t => t.lehr = { s.lehr with paused := true } ∧
       t.pleach = { p with snapNum := k, snapState := 1, snapAbort := false, snapCut := s.lehr.drawn } ∧
       t.out = s.out ++ [.pause k, .paused Config.serial k s.lehr.drawn]) ∧
     (∀ x k g n b, s.leads = true → p.collecting = some (n, b) →
       (n = k → s.aoTick.toNat ≤ b + 1000 → let rs := (p.replies.filter fun q => q.1 != x) ++ [(x, g)]
         ((∃ y ∈ s.memberSet, ∀ q ∈ rs, q.1 ≠ y) → exec (.paused x k g false) s = .next { s with pleach := { p with replies := rs } }) ∧
         ((∀ y ∈ s.memberSet, ∃ q ∈ rs, q.1 = y) → Answers (.paused x k g false) s fun t => t.lehr = { s.lehr with paused := false } ∧
           t.pleach.collecting = none ∧ t.pleach.cuts = p.cuts ++ [(k, p.snapCut)] ∧ .release k false ∈ t.out)) ∧
       (n ≠ k ∨ b + 1000 < s.aoTick.toNat → exec (.paused x k g false) s = .next s)) ∧
     (∀ n b, p.collecting = some (n, b) → b + 1000 ≤ s.aoTick.toNat → Answers .snapshotPauseTimeout s fun t => t.pleach.collecting = none ∧
       t.out = s.out ++ [.release n true] ∧ (p.snapState = 1 → t.lehr = { s.lehr with paused := false } ∧ t.pleach.snapState = 0 ∧ t.pleach.snapAbort = true)) ∧
     (p.collecting = none → exec .snapshotPauseTimeout s = .next s) ∧
     ∀ k, p.snapState = 1 → p.snapNum = k → s.leads = false →
       (Answers (.release k true) s fun t => t.lehr = { s.lehr with paused := false } ∧ t.pleach = { p with snapState := 0, snapAbort := true } ∧
         t.out = s.out ++ [.release k true]) ∧
       Answers (.release k false) s fun t => t.lehr = { s.lehr with paused := false } ∧
         t.pleach = { p with snapState := if p.snapCut.toNat ≤ s.lehr.ckpt.toNat then 3 else 2, cuts := p.cuts ++ [(k, p.snapCut)] } ∧
         t.out = s.out ++ [.release k false] ++ (if p.snapCut.toNat ≤ s.lehr.ckpt.toNat then [.reached Config.serial k] else []))

/-- 17 R552 to R556, Table 17-4: a migration is refused with its cause, or accepted and its pages sent; the source drains;
the target receives, applies and prepares the copy; and with MOVED the source's hedge goes. A command whose conditions
do not hold leaves the state as it is: where such a clause stands, that is the model's choice (log 1). Where the spec
can be read in two ways this rests on the model's reading in log 50. -/
def Obligations.MigrationsMoveAHedge : Prop :=
  ∀ (s : State),
    let p := s.pleach
    (∀ h x there f (veto : Fin 6), (s.hedge h).fn.isSome = true → s.keeper.step = 13 → (s.hedge h).closing = false →
      (∀ cause, (p.phase ≠ 0 ∨ p.incoming.isSome = true) ∧ cause = 1 ∨ p.phase = 0 ∧ p.incoming = none ∧ (p.seterr = true ∨ s.joined x = none) ∧ cause = 2 ∨
          p.phase = 0 ∧ p.incoming = none ∧ p.seterr = false ∧ (s.joined x).isSome = true ∧ veto ≠ 0 ∧ cause = veto.val →
        Answers (.migrationRequest h x there f veto) s fun t => t.out = s.out ++ [.mctp (.migration cause)] ∧ t.pleach = p ∧ ∃ r, t.errq = s.errq ++ [r] ∧ r.cls = 0x12) ∧
      (p.phase = 0 → p.incoming = none → p.seterr = false → (s.joined x).isSome = true → veto = 0 → Answers (.migrationRequest h x there f veto) s fun t =>
        t.pleach = { p with phase := 1, role := false, migHedge := h, pages := BitVec.ofNat 48 (s.mapped h).length, partner := x, partnerHedge := there
                            sentTo := s.lehr.applied.toNat, gf := s.lehr.applied, final := false } ∧
        t = { s with pleach := t.pleach, out := t.out } ∧ t.out.getLast? = some (.mctp (.migration 0)) ∧
        t.out.length = s.out.length + (s.mapped h).length + 2)) ∧
    (∀ f, p.role = false → p.final = false → (s.hedge p.migHedge).fn = some f →
      (p.phase = 1 → s.liveSlots p.migHedge ≠ [] → (s.fn f).state = .ready → Answers .migrationDrain s fun t =>
        t.pleach = { p with phase := 2 } ∧ (t.fn f).state = .draining ∧ (t.fn f).migStop = true ∧ (t.fn f).migPost = true) ∧
      (p.phase = 2 → s.liveSlots p.migHedge = [] → (s.fn f).cur = [] → (s.fn f).waiting = [] → Answers .migrationDrain s fun t =>
        t.pleach.final = true ∧ t.pleach.phase = 2 ∧
        t.out.getLast? = some (.migFinal t.pleach.gf ((s.dirRange p.migHedge).map fun q => (q.1, q.2.evseq))))) ∧
    (∀ x there here f params progs super tables dir, let d := incomingDef f params progs super tables
      s.mayReceive here d params = true → Answers (.migrationCopyReceive (.start x there here f params progs super tables dir)) s fun t =>
        t.pleach.phase = 1 ∧ t.pleach.role = true ∧ t.pleach.migHedge = here ∧ t.pleach.partner = x ∧ t.pleach.incoming = some (⟨x, there, here⟩, d) ∧
        t.pleach.copied = [] ∧ (t.hedge here).par = d.par) ∧
    (∀ rec d va (level : Fin 5) perm pkey prkey cells, p.incoming = some (rec, d) → p.phase = 1 → level ≠ 0 → p.copiedAt va.toNat = none → p.early = [] →
      ∀ port b s1, s.takeBlocks rec.here level.val = some (port, b, s1) →
        Answers (.migrationCopyReceive (.page va level perm pkey prkey cells)) s fun t => t.pleach.pages = s1.pleach.pages + 1 ∧
          t.pleach.copied = s1.pleach.copied ++ [(va.toNat, level.val, mkLeaf perm.val cells.isEmpty false b port pkey.val prkey.val)] ∧
          t.out = s1.out ++ [.nvme port 0x01 b (2 ^ levelBits level.val) true]) ∧
    (∀ g va bytes base lv leaf, p.incoming.isSome = true → p.phase = 1 → pageParts va.toNat bytes.length = [(va.toNat, bytes.length)] →
      (p.copiedAt va.toNat = some (base, lv, leaf) → Answers (.migrationCopyReceive (.delta g va bytes)) s fun t =>
        tgetRun 0 t.disk (diskAt (Pte.ssd leaf) (Pte.block leaf) + (va.toNat - base)) bytes.length = bytes) ∧
      (p.copiedAt va.toNat = none → Answers (.migrationCopyReceive (.delta g va bytes)) s fun t => t.pleach.early = p.early ++ [⟨va.toNat, bytes⟩] ∧ t.disk = s.disk)) ∧
    (∀ g x, p.incoming = some x → p.phase = 1 → Answers (.migrationCopyReceive (.final g [])) s fun t => t.pleach = { p with phase := 2, gf := g, final := true } ∧ t.dir = s.dir) ∧
    (p.phase = 2 → p.final = true →
      (p.role = false → exec .migrationPrepared s = .next { s with pleach := { p with phase := 3 } }) ∧
      (∀ m d, p.role = true → p.incoming = some (m, d) → p.early = [] → Answers .migrationPrepared s fun t =>
        tget none t.store m.here.val = some d ∧ t.pleach = { p with phase := 3, prepared := p.prepared ++ [m], incoming := none, copied := [] } ∧
        t.out = s.out ++ [.prepared m.serial m.there])) ∧
    (p.phase ≠ 3 ∨ s.lehr.paused = true → exec .migrationMoved s = .next s) ∧
    (p.phase = 3 → s.lehr.paused = false →
      (p.role = false → Answers .migrationMoved s fun t => t.pleach.moved = p.moved ++ [⟨p.partner, p.partnerHedge, p.migHedge⟩] ∧ t.pleach.phase = 0 ∧
        .moved p.partner p.partnerHedge ∈ t.out ∧ (t.hedge p.migHedge).fn = none) ∧
      (∀ m, p.role = true → p.prepared.find? (fun m => m.here == p.migHedge && m.serial == p.partner) = some m → Answers .migrationMoved s fun t =>
        t.pleach.phase = 0 ∧ t.pleach.prepared = p.prepared.erase m ∧
        ∀ d, tget none s.store m.here.val = some d → s.keeper.step = 13 → (t.hedge m.here).fn = some d.fn ∧ (t.hedge m.here).par = d.par))

/-! ## The machine as a whole -/

/-- The command at the front of the queue is taken and carried out with the queue's rest: a step is that command's effect
(the row's form of a step, log 1). -/
def Obligations.StepRunsTheFrontCommand : Prop :=
  ∀ (s : State) (c : Instr) (rest : List Instr), s.pending = c :: rest → step s = exec c { s with pending := rest }

/-- With no command waiting a step is an ao-tick, by the model's choice (log 1): PWR_AOTICK counts (14 R454), the watchdog
of a resident context that is not in WAIT counts (08 R270), a predictor flush has ended, firmware has restored what
was poisoned of its fixed structures (16 R519, log 47), and nothing else changes. At
State.reset no command waits, and the memories are in their canonical form (log 5). -/
def Obligations.EmptyQueueTicks : Prop :=
  State.reset.pending = [] ∧ State.reset.memOk = true ∧ ∀ s : State, s.pending = [] →
    ∃ t, step s = .next t ∧ t.aoTick = s.aoTick + 1 ∧
      t = { s with aoTick := t.aoTick, poison := t.poison, engines := t.engines, regs := { s.regs with pfbusy := 0 } } ∧
      (∀ g, tget false t.poison g = (tget false s.poison g && (decide (fixedEnd ≤ 32 * g) || (decide (lockTable ≤ 32 * g) && decide (32 * g < parkedEnd))))) ∧
      ∀ e, t.eng e = { s.eng e with ctxs := (t.eng e).ctxs } ∧
        ∀ n, let c := (s.eng e).ctx n
          (t.eng e).ctx n = { c with wdog := if c.state = .free ∨ c.state = .wait then c.wdog else c.wdog + 1 }

/-- 02 R45, 19 R594 and the reset columns of the register tables: State.reset, and what a device reset leaves of any
state, hold the stated values; every context is FREE, every engine is CLEAN and unassigned, every cluster is in C0. -/
def Obligations.ResetValues : Prop :=
  ∀ (s : State) (n : Nat), ∀ t ∈ [State.reset, s.deviceReset n],
    (∀ e, let g := t.eng e
      g.clean = true ∧ g.assigned = false ∧ g.clearing = false ∧ g.hedge = 0 ∧ g.role = 0 ∧ g.lastHedge = 0 ∧ g.epoch = 0 ∧
        g.strict = false ∧ g.rso = true ∧ g.lben = true ∧ g.idlegate = true ∧ g.swinBase = 0x30 ∧ g.swinSize = 8 ∧
        g.cptCount = 0 ∧ g.cptBase = 0 ∧ g.wdogLimit = 0x3E8 ∧ g.itlb = 0 ∧ g.rsOvf = 0 ∧ g.rsUnf = 0 ∧ g.bounce = 0 ∧
        g.sce = 0 ∧ g.sue = 0 ∧ g.xce = 0 ∧ g.eccLast = 0 ∧
        ∀ c, (g.ctx c).state = .free ∧ (g.ctx c).xst = 0 ∧ (g.ctx c).xr = 0 ∧ (g.ctx c).xd = 0) ∧
    (∀ k, let c := t.clu k
      c.pst = .c0 ∧ c.floor = 3 ∧ c.target = 3 ∧ c.boosten = true ∧ c.t2 = 0x64 ∧ c.t3 = 0x3E8 ∧ c.point = 3 ∧ c.boost = false ∧
        c.throt = false ∧ c.pcap = 4 ∧ c.tlim = 4 ∧ c.energy = 0 ∧ c.stgFree = 0x400 ∧ c.stgCullet = 0 ∧ c.stgWaits = 0 ∧
        c.crbadv = false ∧ c.crce = 0 ∧ c.tlbpe = 0 ∧ c.pen = false ∧ c.patchLvl = 0 ∧ c.mcMatch = [] ∧ c.l2miss = 0 ∧
        c.walkRst = 0 ∧ c.rfault = 0 ∧ c.specFill = 0 ∧ c.heat = 0) ∧
    (∀ m, let v := t.mover m
      v.tmo = 0x32 ∧ v.errhalt = false ∧ v.drained = true ∧ v.intstat = 0 ∧ v.evstat = 0 ∧ v.unexp = 0 ∧ v.pts = []) ∧
    (∀ h, (t.hedge h).quota = 0x2000 ∧ (t.hedge h).thr = 0 ∧ (t.hedge h).ecommit = 0 ∧ (t.hedge h).ehbm = 0 ∧
      (t.hedge h).rootV = false) ∧
    (∀ f, let q := t.fn f
      q.state = (if isPf f then .down else .closed) ∧ q.en = false ∧ q.sqBase = 0 ∧ q.cqBase = 0 ∧ q.eqBase = 0 ∧ q.sqLog2 = 4 ∧
        q.cqLog2 = 4 ∧ q.eqLog2 = 4 ∧ q.intCnt = 1 ∧ q.intTime = 0) ∧
    (∀ n, (t.slot n).state = .idle) ∧
    (∀ l, (t.link l).en = false ∧ (t.link l).state = .disabled ∧ (t.link l).peer = 0) ∧
    t.pleach.budget = 0x104 ∧ t.pleach.members = 1 ∧ t.pleach.seterr = false ∧ t.pleach.settled = false ∧ t.pleach.phase = 0 ∧
    t.lehr.twait = 0xC8 ∧ t.lehr.jlimit = 0x1000 ∧ t.lehr.pairEn = false ∧ t.lehr.fall = false ∧ t.lehr.ptmo = 0x14 ∧
    t.regs.lock = false ∧ t.regs.lockviol = false ∧ t.regs.secalm = false ∧ t.regs.bootok = false ∧ t.regs.clmask = 0xFFFFFFFF ∧
    t.regs.ftbase = 0xA0000 ∧ t.regs.boosten = true ∧ t.regs.brakept = 1 ∧ t.regs.limit = 0xA00 ∧ t.regs.power = 0 ∧
    t.regs.peak = 0 ∧ t.regs.tcool = 0x154 ∧ t.regs.hboost = 0x400 ∧ t.regs.rbLog2 = 6 ∧ t.regs.head = 0 ∧ t.regs.tail = 0 ∧
    t.regs.lost = 0 ∧ t.regs.fatal = false ∧ t.devstat = 0

/-- Every step of every state completes and takes exactly the command at the front: no command ends the run, and none
places or removes a waiting one. The form of the queue is the model's (log 1). -/
def Obligations.EveryStepAnswersAndTakesOneCommand : Prop := ∀ s : State, ∃ t, step s = .next t ∧ t.pending = s.pending.tail

/-- Every step keeps HBM, CCM and the drives in canonical form (the model's memories, log 5): rising addresses, and no
entry that reads as an unlisted one. -/
def Obligations.MemoriesStayCanonical : Prop := ∀ s t : State, s.memOk = true → step s = .next t → t.memOk = true

/-- 15 R508 and R490: GLB_LOCK.LOCK is set by a write that reaches it and by firmware's GLB_BOOTOK write at the end of
step 9, a write of 1 to a set LOCK has no effect, and only a step that returns every device register to its reset
value clears it. No step unblows a fuse: a revoke bit, the version floor and the debug-lock fuse move only in the
direction of their blown states, and while LOCK is set a request changes none of them. A command whose conditions do
not hold leaves the state as it is: where such a clause stands, that is the model's choice (log 1). -/
def Obligations.TheLockAndTheFusesGoOneWay : Prop :=
  (∀ (s : State) (r : Requester), (s.regs.lock = true → exec (.glbLockWrite r) s = .next s) ∧
    (s.reaches r = true → exec (.glbLockWrite r) s = .next { s with regs := { s.regs with lock := true } })) ∧
  (∀ (s : State) (k : ThreadId) (v : Word64), bit v 0 = true → s.regs.bootokW = false → s.keeper.step = 9 → s.pleachPart = true →
    s.keeper.failLatched = false → s.reaches (.thread k) = true →
    Answers (.glbBootokWrite (.thread k) v) s fun t => t.regs.lock = true ∧ t.regs.bootok = true ∧ t.hedges = s.hedges ∧ t.fns = s.fns) ∧
  ∀ s t : State, step s = .next t →
    (s.regs.lock = true → t.regs.lock = false → t.regs = Regs.reset ∧ t.engines = [] ∧ t.clus = [] ∧ t.slots = []) ∧
    (∀ n : Fin 4, s.keeper.revoke[n] = true → t.keeper.revoke[n] = true) ∧ s.keeper.svnf ≤ t.keeper.svnf ∧
    (s.keeper.debugLock = true → t.keeper.debugLock = true) ∧
    (∀ r q, s.regs.lock = true → s.pending.head? = some (.fuseRequest r q) →
      t.keeper.revoke = s.keeper.revoke ∧ t.keeper.svnf = s.keeper.svnf ∧ t.keeper.debugLock = s.keeper.debugLock)

/-- Registers whose fields have ranges are never outside them: ENG_ROLE.ROLE is not 3 (02 Table 2-2), PWR_CCTLn.FLOOR
and TARGET are at most 4 (14 Table 14-6), PWR_LIMIT is of 800 to 3040 (14 R471). -/
def Obligations.RangesAreKept : Prop :=
  ∀ s t : State,
    let legal := fun (u : State) => (∀ e, (u.eng e).role ≠ 3) ∧ (∀ k, (u.clu k).floor ≤ 4 ∧ (u.clu k).target ≤ 4) ∧
      800 ≤ u.regs.limit.toNat ∧ u.regs.limit.toNat ≤ 3040
    legal State.reset ∧ (legal s → step s = .next t → legal t)

/-- 02 R41, 03 R65, R107, 05 R141, 08 R250: an instruction of an engine issues only in the turn that R65 gives its
context, before which its command changes nothing (log 1). The first check that fails raises its fault, and the
context vectors with it and nothing else has happened: a byte outside the open code windows, then the encoding, then
the privilege, then the operand stack. An annulled delay slot passes without effect. Where the spec can be read in two
ways this rests on the model's readings in logs 13, 22 and 61. -/
def Obligations.TheFirstFailedCheckRaisesItsFault : Prop :=
  ∀ (s : State) (x : Iss) (i : Instr) (o : OpInfo),
    (i, o) ∈ [(Instr.nop x, ({} : OpInfo)), (.dup x, { pops := 1, pushes := 2, reads := 1 }), (.drop x, { pops := 1 }),
      (.swap x, { pops := 2, pushes := 2, reads := 2 }), (.over x, { pops := 2, pushes := 3, reads := 2 }),
      (.rot x, { pops := 3, pushes := 3, reads := 3 }), (.add x, polyInfo true), (.sub x, polyInfo true), (.mul x, polyInfo true),
      (.div x, polyInfo false), (.rem x, polyInfo false), (.ret x, { delayBad := true, readsRs := true }),
      (.reti x, { delayBad := true, priv := true }), (.mvst x, { delayBad := true, pops := 2, pushes := 2, reads := 2 }),
      (.yield x, { delayBad := true }), (.setkey x, { esc := true, priv := true, pops := 1, reads := 1 })] →
    let e := s.eng x.eng
    let c := s.ctxAt x
    let open_ := s.running x.eng = true ∧ e.mayIssue x.ctx = true ∧ e.fetchClosed c.pc.toNat (o.len x.px) = none ∧
      (e.looped c.pc.toNat (o.len x.px) = true ∨ (s.clu (cluOf x.eng)).fetchBad c.pc.toNat (o.len x.px) = false) ∧ s.meetsSoft x o = false
    (s.running x.eng = false ∨ e.mayIssue x.ctx = false → exec i s = .next s) ∧
    (∀ a, s.running x.eng = true → e.mayIssue x.ctx = true → e.fetchClosed c.pc.toNat (o.len x.px) = some a → exec i s = .next (s.faults x (fKey 3 a))) ∧
    (∀ f, open_ → o.encFault x.px c.pc.toNat c.pb.isSome = some f → exec i s = .next (s.faults x f)) ∧
    (∀ f, open_ → o.encFault x.px c.pc.toNat c.pb.isSome = none → o.privFault x.px c.pc.toNat c.psw.pl.toNat = some f →
      exec i s = .next (s.faults x f)) ∧
    (open_ → o.early x.px c = none → c.annulled = true → Does i s x { s.view x with pc := s.nextPc x o, pb := none }) ∧
    (∀ f, open_ → o.early x.px c = none → c.annulled = false → o.stkFault c = some f → exec i s = .next (s.faults x f))
end

