-- ==== Sys2Proof/Laws/Table.lean ====
section
/-! SUPPORT. The laws of tables: reading after writing, and that every table operation keeps the canonical form. -/

namespace Sys2Proof.Machine

variable {α : Type}

theorem tSorted_mono {t : Tab α} : ∀ {lo lo' : Nat}, lo' ≤ lo → tSorted lo t = true → tSorted lo' t = true := by
  induction t with
  | nil => intros; rfl
  | cons kv t _ =>
    obtain ⟨k, v⟩ := kv
    intro lo lo' h hs
    simp only [tSorted, Bool.and_eq_true, decide_eq_true_eq] at hs ⊢
    exact ⟨by omega, hs.2⟩

theorem tget_of_sorted (d : α) {t : Tab α} : ∀ {lo i : Nat}, tSorted lo t = true → i < lo → tget d t i = d := by
  induction t with
  | nil => intros; rfl
  | cons kv t ih =>
    obtain ⟨k, v⟩ := kv
    intro lo i hs hi
    simp only [tSorted, Bool.and_eq_true, decide_eq_true_eq] at hs
    simp only [tget]
    rw [if_neg (by omega), ih hs.2 (by omega)]

theorem tget_tput_same (d : α) (t : Tab α) (i : Nat) (v : α) : tget d (tput t i v) i = v := by
  induction t with
  | nil => simp [tput, tget]
  | cons kv t ih =>
    obtain ⟨k, w⟩ := kv
    simp only [tput]
    split
    · simp [tget]
    · split
      · simp [tget]
      · next h1 h2 => simp [tget, h2, ih]

theorem tget_tput_ne (d : α) (t : Tab α) {i j : Nat} (v : α) (h : j ≠ i) : tget d (tput t i v) j = tget d t j := by
  induction t with
  | nil => simp [tput, tget, h]
  | cons kv t ih =>
    obtain ⟨k, w⟩ := kv
    simp only [tput]
    split
    · simp [tget, h]
    · split
      · next _ h2 => subst h2; simp [tget, h]
      · simp only [tget]; split <;> simp_all

theorem tget_tdel_ne (d : α) (t : Tab α) {i j : Nat} (h : j ≠ i) : tget d (tdel t i) j = tget d t j := by
  induction t with
  | nil => rfl
  | cons kv t ih =>
    obtain ⟨k, w⟩ := kv
    simp only [tdel]
    split
    · next h2 => subst h2; simp [tget, h, ih]
    · simp only [tget]; split <;> simp_all

theorem tget_tdel_same (d : α) (t : Tab α) (i : Nat) : tget d (tdel t i) i = d := by
  induction t with
  | nil => rfl
  | cons kv t ih =>
    obtain ⟨k, w⟩ := kv
    simp only [tdel]
    split
    · exact ih
    · next h => simp only [tget]; rw [if_neg h]; exact ih

variable [DecidableEq α]

theorem twf_iff (d : α) (t : Tab α) : twf d t = true ↔ tSorted 0 t = true ∧ ∀ kv ∈ t, kv.2 ≠ d := by
  simp [twf, List.all_eq_true]

/-- A read of the entry written gives the value written. -/
@[simp] theorem tget_tset_same (d : α) (t : Tab α) (i : Nat) (v : α) : tget d (tset d t i v) i = v := by
  unfold tset
  split
  · next e => subst e; exact tget_tdel_same _ t i
  · exact tget_tput_same d t i v

/-- A write leaves every other entry alone, whatever an unlisted key reads as there. -/
theorem tget_tset_ne (d d' : α) (t : Tab α) {i j : Nat} (v : α) (h : j ≠ i) : tget d (tset d' t i v) j = tget d t j := by
  unfold tset
  split
  · exact tget_tdel_ne d t h
  · exact tget_tput_ne d t v h

omit [DecidableEq α] in
theorem tSorted_tput {t : Tab α} {i : Nat} {v : α} : ∀ {lo : Nat}, lo ≤ i → tSorted lo t = true → tSorted lo (tput t i v) = true := by
  induction t with
  | nil => intro lo h _; simp [tput, tSorted, h]
  | cons kv t ih =>
    obtain ⟨k, w⟩ := kv
    intro lo h hs
    simp only [tSorted, Bool.and_eq_true, decide_eq_true_eq] at hs
    simp only [tput]
    split
    · next h1 => simp only [tSorted, Bool.and_eq_true, decide_eq_true_eq]; exact ⟨h, by omega, hs.2⟩
    · split
      · next h2 => subst h2; simp only [tSorted, Bool.and_eq_true, decide_eq_true_eq]; exact ⟨h, hs.2⟩
      · simp only [tSorted, Bool.and_eq_true, decide_eq_true_eq]; exact ⟨hs.1, ih (by omega) hs.2⟩

omit [DecidableEq α] in
theorem mem_tput {t : Tab α} {i : Nat} {v : α} {kv : Nat × α} (h : kv ∈ tput t i v) : kv = (i, v) ∨ kv ∈ t := by
  induction t with
  | nil => simp [tput] at h; exact .inl h
  | cons p t ih =>
    obtain ⟨k, w⟩ := p
    simp only [tput] at h
    split at h
    · simpa using h
    · split at h
      · rcases List.mem_cons.1 h with h | h
        · exact .inl h
        · exact .inr (List.mem_cons_of_mem _ h)
      · rcases List.mem_cons.1 h with h | h
        · exact .inr (h ▸ List.mem_cons_self ..)
        · exact (ih h).imp id (List.mem_cons_of_mem _)

theorem twf_tput {d : α} {t : Tab α} {i : Nat} {v : α} (hv : v ≠ d) (h : twf d t = true) : twf d (tput t i v) = true := by
  rw [twf_iff] at h ⊢
  refine ⟨tSorted_tput (Nat.zero_le _) h.1, fun kv hk => ?_⟩
  rcases mem_tput hk with rfl | hk
  · exact hv
  · exact h.2 _ hk

omit [DecidableEq α] in
theorem tSorted_tdel {t : Tab α} {i : Nat} : ∀ {lo : Nat}, tSorted lo t = true → tSorted lo (tdel t i) = true := by
  induction t with
  | nil => intros; rfl
  | cons kv t ih =>
    obtain ⟨k, w⟩ := kv
    intro lo hs
    simp only [tSorted, Bool.and_eq_true, decide_eq_true_eq] at hs
    simp only [tdel]
    split
    · exact tSorted_mono (by omega) (ih hs.2)
    · simp only [tSorted, Bool.and_eq_true, decide_eq_true_eq]; exact ⟨hs.1, ih hs.2⟩

omit [DecidableEq α] in
theorem mem_tdel {t : Tab α} {i : Nat} {kv : Nat × α} (h : kv ∈ tdel t i) : kv ∈ t := by
  induction t with
  | nil => exact h
  | cons p t ih =>
    obtain ⟨k, w⟩ := p
    simp only [tdel] at h
    split at h
    · exact List.mem_cons_of_mem _ (ih h)
    · rcases List.mem_cons.1 h with h | h
      · exact h ▸ List.mem_cons_self ..
      · exact List.mem_cons_of_mem _ (ih h)

/-- A write keeps the canonical form. -/
theorem twf_tset {d : α} {t : Tab α} (i : Nat) (v : α) (h : twf d t = true) : twf d (tset d t i v) = true := by
  unfold tset
  split
  · rw [twf_iff] at h ⊢
    exact ⟨tSorted_tdel h.1, fun kv hk => h.2 _ (mem_tdel hk)⟩
  · next hv => exact twf_tput hv h

/-- Changing one entry keeps the canonical form. -/
theorem twf_tmod {d : α} {t : Tab α} (i : Nat) (f : α → α) (h : twf d t = true) : twf d (tmod d t i f) = true := twf_tset _ _ h

/-- Writing a run keeps the canonical form. -/
theorem twf_tsetRun {d : α} (vs : List α) : ∀ {t : Tab α} {i : Nat}, twf d t = true → twf d (tsetRun d t i vs) = true := by
  induction vs with
  | nil => intros; assumption
  | cons v vs ih => intro t i h; exact ih (twf_tset i v h)

theorem tSorted_tmap (d : α) (f : α → α) {t : Tab α} : ∀ {lo : Nat}, tSorted lo t = true → tSorted lo (tmap d t f) = true := by
  induction t with
  | nil => intros; rfl
  | cons kv t ih =>
    obtain ⟨k, w⟩ := kv
    intro lo hs
    simp only [tSorted, Bool.and_eq_true, decide_eq_true_eq] at hs
    simp only [tmap]
    split
    · exact tSorted_tdel (tSorted_mono (by omega) (ih hs.2))
    · simp only [tSorted, Bool.and_eq_true, decide_eq_true_eq]; exact ⟨hs.1, ih hs.2⟩

/-- A read after every entry has been changed, where the change keeps the value of an unlisted key. -/
theorem tget_tmap {d : α} (t : Tab α) {f : α → α} (hf : f d = d) (i : Nat) : tget d (tmap d t f) i = f (tget d t i) := by
  induction t with
  | nil => exact hf.symm
  | cons kv t ih =>
    obtain ⟨k, w⟩ := kv
    simp only [tmap]
    by_cases hi : i = k
    · subst hi
      split
      · next h => rw [tget_tdel_same]; simp [tget, h]
      · simp [tget]
    · split
      · rw [tget_tdel_ne _ _ hi, ih]; simp [tget, hi]
      · simp [tget, hi, ih]

/-- Changing every listed entry keeps the canonical form. -/
theorem twf_tmap {d : α} {t : Tab α} (f : α → α) (h : twf d t = true) : twf d (tmap d t f) = true := by
  rw [twf_iff] at h ⊢
  refine ⟨tSorted_tmap d f h.1, ?_⟩
  clear h
  induction t with
  | nil => simp [tmap]
  | cons kv t ih =>
    obtain ⟨k, w⟩ := kv
    simp only [tmap]
    split
    · exact fun kv hk => ih kv (mem_tdel hk)
    · next hn =>
      intro kv hk
      rcases List.mem_cons.1 hk with rfl | hk
      · exact hn
      · exact ih _ hk

omit [DecidableEq α] in
theorem tSorted_filter {t : Tab α} (p : Nat × α → Bool) : ∀ {lo : Nat}, tSorted lo t = true → tSorted lo (t.filter p) = true := by
  induction t with
  | nil => intros; rfl
  | cons kv t ih =>
    obtain ⟨k, w⟩ := kv
    intro lo hs
    simp only [tSorted, Bool.and_eq_true, decide_eq_true_eq] at hs
    simp only [List.filter_cons]
    split
    · simp only [tSorted, Bool.and_eq_true, decide_eq_true_eq]; exact ⟨hs.1, ih hs.2⟩
    · exact tSorted_mono (by omega) (ih hs.2)

/-- Forgetting entries keeps the canonical form. -/
theorem twf_filter {d : α} {t : Tab α} (p : Nat × α → Bool) (h : twf d t = true) : twf d (t.filter p) = true := by
  rw [twf_iff] at h ⊢
  exact ⟨tSorted_filter p h.1, fun kv hk => h.2 _ (List.mem_of_mem_filter hk)⟩

/-- Forgetting a range keeps the canonical form. -/
theorem twf_tclear {d : α} {t : Tab α} (lo n : Nat) (h : twf d t = true) : twf d (tclear t lo n) = true := twf_filter _ h

/-- Copying a range keeps the canonical form. -/
theorem twf_tcopy {d : α} {t src : Tab α} (lo n from_ : Nat) (h : twf d t = true) (hs : twf d src = true) :
    twf d (tcopy t lo n src from_) = true := by
  unfold tcopy
  have hf : ∀ kv ∈ src.filter (fun kv => from_ ≤ kv.1 && kv.1 < from_ + n), kv.2 ≠ d :=
    fun kv hk => ((twf_iff d src).1 hs).2 _ (List.mem_of_mem_filter hk)
  have ht := twf_tclear lo n h
  revert hf ht
  generalize src.filter (fun kv => from_ ≤ kv.1 && kv.1 < from_ + n) = l
  generalize tclear t lo n = u
  intro hf ht
  induction l generalizing u with
  | nil => exact ht
  | cons kv l ih =>
    exact ih _ (fun p hp => hf p (List.mem_cons_of_mem _ hp)) (twf_tput (hf kv (List.mem_cons_self ..)) ht)

end Sys2Proof.Machine
end

