-- ==== Sys2Proof/Laws/State.lean ====
section
/-! SUPPORT. What each update of State leaves alone and what it writes: one lemma per field and per numbered part, true by rfl. -/

namespace Sys2Proof.Machine

variable (s : State)

@[simp] theorem State.setEng_clus (e : EngId) (v : Engine) : (s.setEng e v).clus = s.clus := rfl
@[simp] theorem State.setEng_slots (e : EngId) (v : Engine) : (s.setEng e v).slots = s.slots := rfl
@[simp] theorem State.setEng_fns (e : EngId) (v : Engine) : (s.setEng e v).fns = s.fns := rfl
@[simp] theorem State.setEng_hedges (e : EngId) (v : Engine) : (s.setEng e v).hedges = s.hedges := rfl
@[simp] theorem State.setEng_dir (e : EngId) (v : Engine) : (s.setEng e v).dir = s.dir := rfl
@[simp] theorem State.setEng_locks (e : EngId) (v : Engine) : (s.setEng e v).locks = s.locks := rfl
@[simp] theorem State.setEng_lehr (e : EngId) (v : Engine) : (s.setEng e v).lehr = s.lehr := rfl
@[simp] theorem State.setEng_movers (e : EngId) (v : Engine) : (s.setEng e v).movers = s.movers := rfl
@[simp] theorem State.setEng_keeper (e : EngId) (v : Engine) : (s.setEng e v).keeper = s.keeper := rfl
@[simp] theorem State.setEng_pleach (e : EngId) (v : Engine) : (s.setEng e v).pleach = s.pleach := rfl
@[simp] theorem State.setEng_ports (e : EngId) (v : Engine) : (s.setEng e v).ports = s.ports := rfl
@[simp] theorem State.setEng_sports (e : EngId) (v : Engine) : (s.setEng e v).sports = s.sports := rfl
@[simp] theorem State.setEng_regs (e : EngId) (v : Engine) : (s.setEng e v).regs = s.regs := rfl
@[simp] theorem State.setEng_hbm (e : EngId) (v : Engine) : (s.setEng e v).hbm = s.hbm := rfl
@[simp] theorem State.setEng_poison (e : EngId) (v : Engine) : (s.setEng e v).poison = s.poison := rfl
@[simp] theorem State.setEng_hbmLatent (e : EngId) (v : Engine) : (s.setEng e v).hbmLatent = s.hbmLatent := rfl
@[simp] theorem State.setEng_chanFailed (e : EngId) (v : Engine) : (s.setEng e v).chanFailed = s.chanFailed := rfl
@[simp] theorem State.setEng_retired (e : EngId) (v : Engine) : (s.setEng e v).retired = s.retired := rfl
@[simp] theorem State.setEng_frameErr (e : EngId) (v : Engine) : (s.setEng e v).frameErr = s.frameErr := rfl
@[simp] theorem State.setEng_chanUe (e : EngId) (v : Engine) : (s.setEng e v).chanUe = s.chanUe := rfl
@[simp] theorem State.setEng_rates (e : EngId) (v : Engine) : (s.setEng e v).rates = s.rates := rfl
@[simp] theorem State.setEng_ccm (e : EngId) (v : Engine) : (s.setEng e v).ccm = s.ccm := rfl
@[simp] theorem State.setEng_disk (e : EngId) (v : Engine) : (s.setEng e v).disk = s.disk := rfl
@[simp] theorem State.setEng_diskPoison (e : EngId) (v : Engine) : (s.setEng e v).diskPoison = s.diskPoison := rfl
@[simp] theorem State.setEng_alloc (e : EngId) (v : Engine) : (s.setEng e v).alloc = s.alloc := rfl
@[simp] theorem State.setEng_tables (e : EngId) (v : Engine) : (s.setEng e v).tables = s.tables := rfl
@[simp] theorem State.setEng_evicts (e : EngId) (v : Engine) : (s.setEng e v).evicts = s.evicts := rfl
@[simp] theorem State.setEng_walkq (e : EngId) (v : Engine) : (s.setEng e v).walkq = s.walkq := rfl
@[simp] theorem State.setEng_invWait (e : EngId) (v : Engine) : (s.setEng e v).invWait = s.invWait := rfl
@[simp] theorem State.setEng_pagerTurn (e : EngId) (v : Engine) : (s.setEng e v).pagerTurn = s.pagerTurn := rfl
@[simp] theorem State.setEng_longTurn (e : EngId) (v : Engine) : (s.setEng e v).longTurn = s.longTurn := rfl
@[simp] theorem State.setEng_blockNext (e : EngId) (v : Engine) : (s.setEng e v).blockNext = s.blockNext := rfl
@[simp] theorem State.setEng_durable (e : EngId) (v : Engine) : (s.setEng e v).durable = s.durable := rfl
@[simp] theorem State.setEng_store (e : EngId) (v : Engine) : (s.setEng e v).store = s.store := rfl
@[simp] theorem State.setEng_errq (e : EngId) (v : Engine) : (s.setEng e v).errq = s.errq := rfl
@[simp] theorem State.setEng_evMsgs (e : EngId) (v : Engine) : (s.setEng e v).evMsgs = s.evMsgs := rfl
@[simp] theorem State.setEng_lockq (e : EngId) (v : Engine) : (s.setEng e v).lockq = s.lockq := rfl
@[simp] theorem State.setEng_applyq (e : EngId) (v : Engine) : (s.setEng e v).applyq = s.applyq := rfl
@[simp] theorem State.setEng_movSigs (e : EngId) (v : Engine) : (s.setEng e v).movSigs = s.movSigs := rfl
@[simp] theorem State.setEng_wounds (e : EngId) (v : Engine) : (s.setEng e v).wounds = s.wounds := rfl
@[simp] theorem State.setEng_mediaMarks (e : EngId) (v : Engine) : (s.setEng e v).mediaMarks = s.mediaMarks := rfl
@[simp] theorem State.setEng_endNotices (e : EngId) (v : Engine) : (s.setEng e v).endNotices = s.endNotices := rfl
@[simp] theorem State.setEng_refused (e : EngId) (v : Engine) : (s.setEng e v).refused = s.refused := rfl
@[simp] theorem State.setEng_wakes (e : EngId) (v : Engine) : (s.setEng e v).wakes = s.wakes := rfl
@[simp] theorem State.setEng_bounced (e : EngId) (v : Engine) : (s.setEng e v).bounced = s.bounced := rfl
@[simp] theorem State.setEng_devstat (e : EngId) (v : Engine) : (s.setEng e v).devstat = s.devstat := rfl
@[simp] theorem State.setEng_startNext (e : EngId) (v : Engine) : (s.setEng e v).startNext = s.startNext := rfl
@[simp] theorem State.setEng_startBlk (e : EngId) (v : Engine) : (s.setEng e v).startBlk = s.startBlk := rfl
@[simp] theorem State.setEng_aoTick (e : EngId) (v : Engine) : (s.setEng e v).aoTick = s.aoTick := rfl
@[simp] theorem State.setEng_out (e : EngId) (v : Engine) : (s.setEng e v).out = s.out := rfl
@[simp] theorem State.setEng_free (e : EngId) (v : Engine) : (s.setEng e v).free = s.free := rfl
@[simp] theorem State.setEng_pending (e : EngId) (v : Engine) : (s.setEng e v).pending = s.pending := rfl
@[simp] theorem State.setEng_clu (e : EngId) (v : Engine) (i : CluId) : (s.setEng e v).clu i = s.clu i := rfl
@[simp] theorem State.setEng_slot (e : EngId) (v : Engine) (i : SlotId) : (s.setEng e v).slot i = s.slot i := rfl
@[simp] theorem State.setEng_fn (e : EngId) (v : Engine) (i : FnId) : (s.setEng e v).fn i = s.fn i := rfl
@[simp] theorem State.setEng_hedge (e : EngId) (v : Engine) (i : HedgeId) : (s.setEng e v).hedge i = s.hedge i := rfl
@[simp] theorem State.setEng_mover (e : EngId) (v : Engine) (i : MovId) : (s.setEng e v).mover i = s.mover i := rfl
@[simp] theorem State.setEng_port (e : EngId) (v : Engine) (i : PortId) : (s.setEng e v).port i = s.port i := rfl
@[simp] theorem State.setEng_sport (e : EngId) (v : Engine) (i : StoragePort) : (s.setEng e v).sport i = s.sport i := rfl
@[simp] theorem State.setEng_link (e : EngId) (v : Engine) (i : LinkId) : (s.setEng e v).link i = s.link i := rfl
@[simp] theorem State.setEng_eng_same (e : EngId) (v : Engine) : (s.setEng e v).eng e = v := tget_tset_same _ _ _ _
theorem State.setEng_eng_ne (e : EngId) (v : Engine) (i : EngId) (ne : i ≠ e) : (s.setEng e v).eng i = s.eng i :=
  tget_tset_ne _ _ _ _ (fun e => ne (Fin.ext e))

@[simp] theorem State.setClu_engines (k : CluId) (v : Clu) : (s.setClu k v).engines = s.engines := rfl
@[simp] theorem State.setClu_slots (k : CluId) (v : Clu) : (s.setClu k v).slots = s.slots := rfl
@[simp] theorem State.setClu_fns (k : CluId) (v : Clu) : (s.setClu k v).fns = s.fns := rfl
@[simp] theorem State.setClu_hedges (k : CluId) (v : Clu) : (s.setClu k v).hedges = s.hedges := rfl
@[simp] theorem State.setClu_dir (k : CluId) (v : Clu) : (s.setClu k v).dir = s.dir := rfl
@[simp] theorem State.setClu_locks (k : CluId) (v : Clu) : (s.setClu k v).locks = s.locks := rfl
@[simp] theorem State.setClu_lehr (k : CluId) (v : Clu) : (s.setClu k v).lehr = s.lehr := rfl
@[simp] theorem State.setClu_movers (k : CluId) (v : Clu) : (s.setClu k v).movers = s.movers := rfl
@[simp] theorem State.setClu_keeper (k : CluId) (v : Clu) : (s.setClu k v).keeper = s.keeper := rfl
@[simp] theorem State.setClu_pleach (k : CluId) (v : Clu) : (s.setClu k v).pleach = s.pleach := rfl
@[simp] theorem State.setClu_ports (k : CluId) (v : Clu) : (s.setClu k v).ports = s.ports := rfl
@[simp] theorem State.setClu_sports (k : CluId) (v : Clu) : (s.setClu k v).sports = s.sports := rfl
@[simp] theorem State.setClu_regs (k : CluId) (v : Clu) : (s.setClu k v).regs = s.regs := rfl
@[simp] theorem State.setClu_hbm (k : CluId) (v : Clu) : (s.setClu k v).hbm = s.hbm := rfl
@[simp] theorem State.setClu_poison (k : CluId) (v : Clu) : (s.setClu k v).poison = s.poison := rfl
@[simp] theorem State.setClu_hbmLatent (k : CluId) (v : Clu) : (s.setClu k v).hbmLatent = s.hbmLatent := rfl
@[simp] theorem State.setClu_chanFailed (k : CluId) (v : Clu) : (s.setClu k v).chanFailed = s.chanFailed := rfl
@[simp] theorem State.setClu_retired (k : CluId) (v : Clu) : (s.setClu k v).retired = s.retired := rfl
@[simp] theorem State.setClu_frameErr (k : CluId) (v : Clu) : (s.setClu k v).frameErr = s.frameErr := rfl
@[simp] theorem State.setClu_chanUe (k : CluId) (v : Clu) : (s.setClu k v).chanUe = s.chanUe := rfl
@[simp] theorem State.setClu_rates (k : CluId) (v : Clu) : (s.setClu k v).rates = s.rates := rfl
@[simp] theorem State.setClu_ccm (k : CluId) (v : Clu) : (s.setClu k v).ccm = s.ccm := rfl
@[simp] theorem State.setClu_disk (k : CluId) (v : Clu) : (s.setClu k v).disk = s.disk := rfl
@[simp] theorem State.setClu_diskPoison (k : CluId) (v : Clu) : (s.setClu k v).diskPoison = s.diskPoison := rfl
@[simp] theorem State.setClu_alloc (k : CluId) (v : Clu) : (s.setClu k v).alloc = s.alloc := rfl
@[simp] theorem State.setClu_tables (k : CluId) (v : Clu) : (s.setClu k v).tables = s.tables := rfl
@[simp] theorem State.setClu_evicts (k : CluId) (v : Clu) : (s.setClu k v).evicts = s.evicts := rfl
@[simp] theorem State.setClu_walkq (k : CluId) (v : Clu) : (s.setClu k v).walkq = s.walkq := rfl
@[simp] theorem State.setClu_invWait (k : CluId) (v : Clu) : (s.setClu k v).invWait = s.invWait := rfl
@[simp] theorem State.setClu_pagerTurn (k : CluId) (v : Clu) : (s.setClu k v).pagerTurn = s.pagerTurn := rfl
@[simp] theorem State.setClu_longTurn (k : CluId) (v : Clu) : (s.setClu k v).longTurn = s.longTurn := rfl
@[simp] theorem State.setClu_blockNext (k : CluId) (v : Clu) : (s.setClu k v).blockNext = s.blockNext := rfl
@[simp] theorem State.setClu_durable (k : CluId) (v : Clu) : (s.setClu k v).durable = s.durable := rfl
@[simp] theorem State.setClu_store (k : CluId) (v : Clu) : (s.setClu k v).store = s.store := rfl
@[simp] theorem State.setClu_errq (k : CluId) (v : Clu) : (s.setClu k v).errq = s.errq := rfl
@[simp] theorem State.setClu_evMsgs (k : CluId) (v : Clu) : (s.setClu k v).evMsgs = s.evMsgs := rfl
@[simp] theorem State.setClu_lockq (k : CluId) (v : Clu) : (s.setClu k v).lockq = s.lockq := rfl
@[simp] theorem State.setClu_applyq (k : CluId) (v : Clu) : (s.setClu k v).applyq = s.applyq := rfl
@[simp] theorem State.setClu_movSigs (k : CluId) (v : Clu) : (s.setClu k v).movSigs = s.movSigs := rfl
@[simp] theorem State.setClu_wounds (k : CluId) (v : Clu) : (s.setClu k v).wounds = s.wounds := rfl
@[simp] theorem State.setClu_mediaMarks (k : CluId) (v : Clu) : (s.setClu k v).mediaMarks = s.mediaMarks := rfl
@[simp] theorem State.setClu_endNotices (k : CluId) (v : Clu) : (s.setClu k v).endNotices = s.endNotices := rfl
@[simp] theorem State.setClu_refused (k : CluId) (v : Clu) : (s.setClu k v).refused = s.refused := rfl
@[simp] theorem State.setClu_wakes (k : CluId) (v : Clu) : (s.setClu k v).wakes = s.wakes := rfl
@[simp] theorem State.setClu_bounced (k : CluId) (v : Clu) : (s.setClu k v).bounced = s.bounced := rfl
@[simp] theorem State.setClu_devstat (k : CluId) (v : Clu) : (s.setClu k v).devstat = s.devstat := rfl
@[simp] theorem State.setClu_startNext (k : CluId) (v : Clu) : (s.setClu k v).startNext = s.startNext := rfl
@[simp] theorem State.setClu_startBlk (k : CluId) (v : Clu) : (s.setClu k v).startBlk = s.startBlk := rfl
@[simp] theorem State.setClu_aoTick (k : CluId) (v : Clu) : (s.setClu k v).aoTick = s.aoTick := rfl
@[simp] theorem State.setClu_out (k : CluId) (v : Clu) : (s.setClu k v).out = s.out := rfl
@[simp] theorem State.setClu_free (k : CluId) (v : Clu) : (s.setClu k v).free = s.free := rfl
@[simp] theorem State.setClu_pending (k : CluId) (v : Clu) : (s.setClu k v).pending = s.pending := rfl
@[simp] theorem State.setClu_eng (k : CluId) (v : Clu) (i : EngId) : (s.setClu k v).eng i = s.eng i := rfl
@[simp] theorem State.setClu_slot (k : CluId) (v : Clu) (i : SlotId) : (s.setClu k v).slot i = s.slot i := rfl
@[simp] theorem State.setClu_fn (k : CluId) (v : Clu) (i : FnId) : (s.setClu k v).fn i = s.fn i := rfl
@[simp] theorem State.setClu_hedge (k : CluId) (v : Clu) (i : HedgeId) : (s.setClu k v).hedge i = s.hedge i := rfl
@[simp] theorem State.setClu_mover (k : CluId) (v : Clu) (i : MovId) : (s.setClu k v).mover i = s.mover i := rfl
@[simp] theorem State.setClu_port (k : CluId) (v : Clu) (i : PortId) : (s.setClu k v).port i = s.port i := rfl
@[simp] theorem State.setClu_sport (k : CluId) (v : Clu) (i : StoragePort) : (s.setClu k v).sport i = s.sport i := rfl
@[simp] theorem State.setClu_link (k : CluId) (v : Clu) (i : LinkId) : (s.setClu k v).link i = s.link i := rfl
@[simp] theorem State.setClu_clu_same (k : CluId) (v : Clu) : (s.setClu k v).clu k = v := tget_tset_same _ _ _ _
theorem State.setClu_clu_ne (k : CluId) (v : Clu) (i : CluId) (ne : i ≠ k) : (s.setClu k v).clu i = s.clu i :=
  tget_tset_ne _ _ _ _ (fun e => ne (Fin.ext e))

@[simp] theorem State.setSlot_engines (n : SlotId) (v : Slot) : (s.setSlot n v).engines = s.engines := rfl
@[simp] theorem State.setSlot_clus (n : SlotId) (v : Slot) : (s.setSlot n v).clus = s.clus := rfl
@[simp] theorem State.setSlot_fns (n : SlotId) (v : Slot) : (s.setSlot n v).fns = s.fns := rfl
@[simp] theorem State.setSlot_hedges (n : SlotId) (v : Slot) : (s.setSlot n v).hedges = s.hedges := rfl
@[simp] theorem State.setSlot_dir (n : SlotId) (v : Slot) : (s.setSlot n v).dir = s.dir := rfl
@[simp] theorem State.setSlot_locks (n : SlotId) (v : Slot) : (s.setSlot n v).locks = s.locks := rfl
@[simp] theorem State.setSlot_lehr (n : SlotId) (v : Slot) : (s.setSlot n v).lehr = s.lehr := rfl
@[simp] theorem State.setSlot_movers (n : SlotId) (v : Slot) : (s.setSlot n v).movers = s.movers := rfl
@[simp] theorem State.setSlot_keeper (n : SlotId) (v : Slot) : (s.setSlot n v).keeper = s.keeper := rfl
@[simp] theorem State.setSlot_pleach (n : SlotId) (v : Slot) : (s.setSlot n v).pleach = s.pleach := rfl
@[simp] theorem State.setSlot_ports (n : SlotId) (v : Slot) : (s.setSlot n v).ports = s.ports := rfl
@[simp] theorem State.setSlot_sports (n : SlotId) (v : Slot) : (s.setSlot n v).sports = s.sports := rfl
@[simp] theorem State.setSlot_regs (n : SlotId) (v : Slot) : (s.setSlot n v).regs = s.regs := rfl
@[simp] theorem State.setSlot_hbm (n : SlotId) (v : Slot) : (s.setSlot n v).hbm = s.hbm := rfl
@[simp] theorem State.setSlot_poison (n : SlotId) (v : Slot) : (s.setSlot n v).poison = s.poison := rfl
@[simp] theorem State.setSlot_hbmLatent (n : SlotId) (v : Slot) : (s.setSlot n v).hbmLatent = s.hbmLatent := rfl
@[simp] theorem State.setSlot_chanFailed (n : SlotId) (v : Slot) : (s.setSlot n v).chanFailed = s.chanFailed := rfl
@[simp] theorem State.setSlot_retired (n : SlotId) (v : Slot) : (s.setSlot n v).retired = s.retired := rfl
@[simp] theorem State.setSlot_frameErr (n : SlotId) (v : Slot) : (s.setSlot n v).frameErr = s.frameErr := rfl
@[simp] theorem State.setSlot_chanUe (n : SlotId) (v : Slot) : (s.setSlot n v).chanUe = s.chanUe := rfl
@[simp] theorem State.setSlot_rates (n : SlotId) (v : Slot) : (s.setSlot n v).rates = s.rates := rfl
@[simp] theorem State.setSlot_ccm (n : SlotId) (v : Slot) : (s.setSlot n v).ccm = s.ccm := rfl
@[simp] theorem State.setSlot_disk (n : SlotId) (v : Slot) : (s.setSlot n v).disk = s.disk := rfl
@[simp] theorem State.setSlot_diskPoison (n : SlotId) (v : Slot) : (s.setSlot n v).diskPoison = s.diskPoison := rfl
@[simp] theorem State.setSlot_alloc (n : SlotId) (v : Slot) : (s.setSlot n v).alloc = s.alloc := rfl
@[simp] theorem State.setSlot_tables (n : SlotId) (v : Slot) : (s.setSlot n v).tables = s.tables := rfl
@[simp] theorem State.setSlot_evicts (n : SlotId) (v : Slot) : (s.setSlot n v).evicts = s.evicts := rfl
@[simp] theorem State.setSlot_walkq (n : SlotId) (v : Slot) : (s.setSlot n v).walkq = s.walkq := rfl
@[simp] theorem State.setSlot_invWait (n : SlotId) (v : Slot) : (s.setSlot n v).invWait = s.invWait := rfl
@[simp] theorem State.setSlot_pagerTurn (n : SlotId) (v : Slot) : (s.setSlot n v).pagerTurn = s.pagerTurn := rfl
@[simp] theorem State.setSlot_longTurn (n : SlotId) (v : Slot) : (s.setSlot n v).longTurn = s.longTurn := rfl
@[simp] theorem State.setSlot_blockNext (n : SlotId) (v : Slot) : (s.setSlot n v).blockNext = s.blockNext := rfl
@[simp] theorem State.setSlot_durable (n : SlotId) (v : Slot) : (s.setSlot n v).durable = s.durable := rfl
@[simp] theorem State.setSlot_store (n : SlotId) (v : Slot) : (s.setSlot n v).store = s.store := rfl
@[simp] theorem State.setSlot_errq (n : SlotId) (v : Slot) : (s.setSlot n v).errq = s.errq := rfl
@[simp] theorem State.setSlot_evMsgs (n : SlotId) (v : Slot) : (s.setSlot n v).evMsgs = s.evMsgs := rfl
@[simp] theorem State.setSlot_lockq (n : SlotId) (v : Slot) : (s.setSlot n v).lockq = s.lockq := rfl
@[simp] theorem State.setSlot_applyq (n : SlotId) (v : Slot) : (s.setSlot n v).applyq = s.applyq := rfl
@[simp] theorem State.setSlot_movSigs (n : SlotId) (v : Slot) : (s.setSlot n v).movSigs = s.movSigs := rfl
@[simp] theorem State.setSlot_wounds (n : SlotId) (v : Slot) : (s.setSlot n v).wounds = s.wounds := rfl
@[simp] theorem State.setSlot_mediaMarks (n : SlotId) (v : Slot) : (s.setSlot n v).mediaMarks = s.mediaMarks := rfl
@[simp] theorem State.setSlot_endNotices (n : SlotId) (v : Slot) : (s.setSlot n v).endNotices = s.endNotices := rfl
@[simp] theorem State.setSlot_refused (n : SlotId) (v : Slot) : (s.setSlot n v).refused = s.refused := rfl
@[simp] theorem State.setSlot_wakes (n : SlotId) (v : Slot) : (s.setSlot n v).wakes = s.wakes := rfl
@[simp] theorem State.setSlot_bounced (n : SlotId) (v : Slot) : (s.setSlot n v).bounced = s.bounced := rfl
@[simp] theorem State.setSlot_devstat (n : SlotId) (v : Slot) : (s.setSlot n v).devstat = s.devstat := rfl
@[simp] theorem State.setSlot_startNext (n : SlotId) (v : Slot) : (s.setSlot n v).startNext = s.startNext := rfl
@[simp] theorem State.setSlot_startBlk (n : SlotId) (v : Slot) : (s.setSlot n v).startBlk = s.startBlk := rfl
@[simp] theorem State.setSlot_aoTick (n : SlotId) (v : Slot) : (s.setSlot n v).aoTick = s.aoTick := rfl
@[simp] theorem State.setSlot_out (n : SlotId) (v : Slot) : (s.setSlot n v).out = s.out := rfl
@[simp] theorem State.setSlot_free (n : SlotId) (v : Slot) : (s.setSlot n v).free = s.free := rfl
@[simp] theorem State.setSlot_pending (n : SlotId) (v : Slot) : (s.setSlot n v).pending = s.pending := rfl
@[simp] theorem State.setSlot_eng (n : SlotId) (v : Slot) (i : EngId) : (s.setSlot n v).eng i = s.eng i := rfl
@[simp] theorem State.setSlot_clu (n : SlotId) (v : Slot) (i : CluId) : (s.setSlot n v).clu i = s.clu i := rfl
@[simp] theorem State.setSlot_fn (n : SlotId) (v : Slot) (i : FnId) : (s.setSlot n v).fn i = s.fn i := rfl
@[simp] theorem State.setSlot_hedge (n : SlotId) (v : Slot) (i : HedgeId) : (s.setSlot n v).hedge i = s.hedge i := rfl
@[simp] theorem State.setSlot_mover (n : SlotId) (v : Slot) (i : MovId) : (s.setSlot n v).mover i = s.mover i := rfl
@[simp] theorem State.setSlot_port (n : SlotId) (v : Slot) (i : PortId) : (s.setSlot n v).port i = s.port i := rfl
@[simp] theorem State.setSlot_sport (n : SlotId) (v : Slot) (i : StoragePort) : (s.setSlot n v).sport i = s.sport i := rfl
@[simp] theorem State.setSlot_link (n : SlotId) (v : Slot) (i : LinkId) : (s.setSlot n v).link i = s.link i := rfl
@[simp] theorem State.setSlot_slot_same (n : SlotId) (v : Slot) : (s.setSlot n v).slot n = v := tget_tset_same _ _ _ _
theorem State.setSlot_slot_ne (n : SlotId) (v : Slot) (i : SlotId) (ne : i ≠ n) : (s.setSlot n v).slot i = s.slot i :=
  tget_tset_ne _ _ _ _ (fun e => ne (Fin.ext e))

@[simp] theorem State.setFn_engines (f : FnId) (v : Fn) : (s.setFn f v).engines = s.engines := rfl
@[simp] theorem State.setFn_clus (f : FnId) (v : Fn) : (s.setFn f v).clus = s.clus := rfl
@[simp] theorem State.setFn_slots (f : FnId) (v : Fn) : (s.setFn f v).slots = s.slots := rfl
@[simp] theorem State.setFn_hedges (f : FnId) (v : Fn) : (s.setFn f v).hedges = s.hedges := rfl
@[simp] theorem State.setFn_dir (f : FnId) (v : Fn) : (s.setFn f v).dir = s.dir := rfl
@[simp] theorem State.setFn_locks (f : FnId) (v : Fn) : (s.setFn f v).locks = s.locks := rfl
@[simp] theorem State.setFn_lehr (f : FnId) (v : Fn) : (s.setFn f v).lehr = s.lehr := rfl
@[simp] theorem State.setFn_movers (f : FnId) (v : Fn) : (s.setFn f v).movers = s.movers := rfl
@[simp] theorem State.setFn_keeper (f : FnId) (v : Fn) : (s.setFn f v).keeper = s.keeper := rfl
@[simp] theorem State.setFn_pleach (f : FnId) (v : Fn) : (s.setFn f v).pleach = s.pleach := rfl
@[simp] theorem State.setFn_ports (f : FnId) (v : Fn) : (s.setFn f v).ports = s.ports := rfl
@[simp] theorem State.setFn_sports (f : FnId) (v : Fn) : (s.setFn f v).sports = s.sports := rfl
@[simp] theorem State.setFn_regs (f : FnId) (v : Fn) : (s.setFn f v).regs = s.regs := rfl
@[simp] theorem State.setFn_hbm (f : FnId) (v : Fn) : (s.setFn f v).hbm = s.hbm := rfl
@[simp] theorem State.setFn_poison (f : FnId) (v : Fn) : (s.setFn f v).poison = s.poison := rfl
@[simp] theorem State.setFn_hbmLatent (f : FnId) (v : Fn) : (s.setFn f v).hbmLatent = s.hbmLatent := rfl
@[simp] theorem State.setFn_chanFailed (f : FnId) (v : Fn) : (s.setFn f v).chanFailed = s.chanFailed := rfl
@[simp] theorem State.setFn_retired (f : FnId) (v : Fn) : (s.setFn f v).retired = s.retired := rfl
@[simp] theorem State.setFn_frameErr (f : FnId) (v : Fn) : (s.setFn f v).frameErr = s.frameErr := rfl
@[simp] theorem State.setFn_chanUe (f : FnId) (v : Fn) : (s.setFn f v).chanUe = s.chanUe := rfl
@[simp] theorem State.setFn_rates (f : FnId) (v : Fn) : (s.setFn f v).rates = s.rates := rfl
@[simp] theorem State.setFn_ccm (f : FnId) (v : Fn) : (s.setFn f v).ccm = s.ccm := rfl
@[simp] theorem State.setFn_disk (f : FnId) (v : Fn) : (s.setFn f v).disk = s.disk := rfl
@[simp] theorem State.setFn_diskPoison (f : FnId) (v : Fn) : (s.setFn f v).diskPoison = s.diskPoison := rfl
@[simp] theorem State.setFn_alloc (f : FnId) (v : Fn) : (s.setFn f v).alloc = s.alloc := rfl
@[simp] theorem State.setFn_tables (f : FnId) (v : Fn) : (s.setFn f v).tables = s.tables := rfl
@[simp] theorem State.setFn_evicts (f : FnId) (v : Fn) : (s.setFn f v).evicts = s.evicts := rfl
@[simp] theorem State.setFn_walkq (f : FnId) (v : Fn) : (s.setFn f v).walkq = s.walkq := rfl
@[simp] theorem State.setFn_invWait (f : FnId) (v : Fn) : (s.setFn f v).invWait = s.invWait := rfl
@[simp] theorem State.setFn_pagerTurn (f : FnId) (v : Fn) : (s.setFn f v).pagerTurn = s.pagerTurn := rfl
@[simp] theorem State.setFn_longTurn (f : FnId) (v : Fn) : (s.setFn f v).longTurn = s.longTurn := rfl
@[simp] theorem State.setFn_blockNext (f : FnId) (v : Fn) : (s.setFn f v).blockNext = s.blockNext := rfl
@[simp] theorem State.setFn_durable (f : FnId) (v : Fn) : (s.setFn f v).durable = s.durable := rfl
@[simp] theorem State.setFn_store (f : FnId) (v : Fn) : (s.setFn f v).store = s.store := rfl
@[simp] theorem State.setFn_errq (f : FnId) (v : Fn) : (s.setFn f v).errq = s.errq := rfl
@[simp] theorem State.setFn_evMsgs (f : FnId) (v : Fn) : (s.setFn f v).evMsgs = s.evMsgs := rfl
@[simp] theorem State.setFn_lockq (f : FnId) (v : Fn) : (s.setFn f v).lockq = s.lockq := rfl
@[simp] theorem State.setFn_applyq (f : FnId) (v : Fn) : (s.setFn f v).applyq = s.applyq := rfl
@[simp] theorem State.setFn_movSigs (f : FnId) (v : Fn) : (s.setFn f v).movSigs = s.movSigs := rfl
@[simp] theorem State.setFn_wounds (f : FnId) (v : Fn) : (s.setFn f v).wounds = s.wounds := rfl
@[simp] theorem State.setFn_mediaMarks (f : FnId) (v : Fn) : (s.setFn f v).mediaMarks = s.mediaMarks := rfl
@[simp] theorem State.setFn_endNotices (f : FnId) (v : Fn) : (s.setFn f v).endNotices = s.endNotices := rfl
@[simp] theorem State.setFn_refused (f : FnId) (v : Fn) : (s.setFn f v).refused = s.refused := rfl
@[simp] theorem State.setFn_wakes (f : FnId) (v : Fn) : (s.setFn f v).wakes = s.wakes := rfl
@[simp] theorem State.setFn_bounced (f : FnId) (v : Fn) : (s.setFn f v).bounced = s.bounced := rfl
@[simp] theorem State.setFn_devstat (f : FnId) (v : Fn) : (s.setFn f v).devstat = s.devstat := rfl
@[simp] theorem State.setFn_startNext (f : FnId) (v : Fn) : (s.setFn f v).startNext = s.startNext := rfl
@[simp] theorem State.setFn_startBlk (f : FnId) (v : Fn) : (s.setFn f v).startBlk = s.startBlk := rfl
@[simp] theorem State.setFn_aoTick (f : FnId) (v : Fn) : (s.setFn f v).aoTick = s.aoTick := rfl
@[simp] theorem State.setFn_out (f : FnId) (v : Fn) : (s.setFn f v).out = s.out := rfl
@[simp] theorem State.setFn_free (f : FnId) (v : Fn) : (s.setFn f v).free = s.free := rfl
@[simp] theorem State.setFn_pending (f : FnId) (v : Fn) : (s.setFn f v).pending = s.pending := rfl
@[simp] theorem State.setFn_eng (f : FnId) (v : Fn) (i : EngId) : (s.setFn f v).eng i = s.eng i := rfl
@[simp] theorem State.setFn_clu (f : FnId) (v : Fn) (i : CluId) : (s.setFn f v).clu i = s.clu i := rfl
@[simp] theorem State.setFn_slot (f : FnId) (v : Fn) (i : SlotId) : (s.setFn f v).slot i = s.slot i := rfl
@[simp] theorem State.setFn_hedge (f : FnId) (v : Fn) (i : HedgeId) : (s.setFn f v).hedge i = s.hedge i := rfl
@[simp] theorem State.setFn_mover (f : FnId) (v : Fn) (i : MovId) : (s.setFn f v).mover i = s.mover i := rfl
@[simp] theorem State.setFn_port (f : FnId) (v : Fn) (i : PortId) : (s.setFn f v).port i = s.port i := rfl
@[simp] theorem State.setFn_sport (f : FnId) (v : Fn) (i : StoragePort) : (s.setFn f v).sport i = s.sport i := rfl
@[simp] theorem State.setFn_link (f : FnId) (v : Fn) (i : LinkId) : (s.setFn f v).link i = s.link i := rfl
@[simp] theorem State.setFn_fn_same (f : FnId) (v : Fn) : (s.setFn f v).fn f = v := tget_tset_same _ _ _ _
theorem State.setFn_fn_ne (f : FnId) (v : Fn) (i : FnId) (ne : i ≠ f) : (s.setFn f v).fn i = s.fn i :=
  tget_tset_ne _ _ _ _ (fun e => ne (Fin.ext e))

@[simp] theorem State.setHedge_engines (h : HedgeId) (v : Hedge) : (s.setHedge h v).engines = s.engines := rfl
@[simp] theorem State.setHedge_clus (h : HedgeId) (v : Hedge) : (s.setHedge h v).clus = s.clus := rfl
@[simp] theorem State.setHedge_slots (h : HedgeId) (v : Hedge) : (s.setHedge h v).slots = s.slots := rfl
@[simp] theorem State.setHedge_fns (h : HedgeId) (v : Hedge) : (s.setHedge h v).fns = s.fns := rfl
@[simp] theorem State.setHedge_dir (h : HedgeId) (v : Hedge) : (s.setHedge h v).dir = s.dir := rfl
@[simp] theorem State.setHedge_locks (h : HedgeId) (v : Hedge) : (s.setHedge h v).locks = s.locks := rfl
@[simp] theorem State.setHedge_lehr (h : HedgeId) (v : Hedge) : (s.setHedge h v).lehr = s.lehr := rfl
@[simp] theorem State.setHedge_movers (h : HedgeId) (v : Hedge) : (s.setHedge h v).movers = s.movers := rfl
@[simp] theorem State.setHedge_keeper (h : HedgeId) (v : Hedge) : (s.setHedge h v).keeper = s.keeper := rfl
@[simp] theorem State.setHedge_pleach (h : HedgeId) (v : Hedge) : (s.setHedge h v).pleach = s.pleach := rfl
@[simp] theorem State.setHedge_ports (h : HedgeId) (v : Hedge) : (s.setHedge h v).ports = s.ports := rfl
@[simp] theorem State.setHedge_sports (h : HedgeId) (v : Hedge) : (s.setHedge h v).sports = s.sports := rfl
@[simp] theorem State.setHedge_regs (h : HedgeId) (v : Hedge) : (s.setHedge h v).regs = s.regs := rfl
@[simp] theorem State.setHedge_hbm (h : HedgeId) (v : Hedge) : (s.setHedge h v).hbm = s.hbm := rfl
@[simp] theorem State.setHedge_poison (h : HedgeId) (v : Hedge) : (s.setHedge h v).poison = s.poison := rfl
@[simp] theorem State.setHedge_hbmLatent (h : HedgeId) (v : Hedge) : (s.setHedge h v).hbmLatent = s.hbmLatent := rfl
@[simp] theorem State.setHedge_chanFailed (h : HedgeId) (v : Hedge) : (s.setHedge h v).chanFailed = s.chanFailed := rfl
@[simp] theorem State.setHedge_retired (h : HedgeId) (v : Hedge) : (s.setHedge h v).retired = s.retired := rfl
@[simp] theorem State.setHedge_frameErr (h : HedgeId) (v : Hedge) : (s.setHedge h v).frameErr = s.frameErr := rfl
@[simp] theorem State.setHedge_chanUe (h : HedgeId) (v : Hedge) : (s.setHedge h v).chanUe = s.chanUe := rfl
@[simp] theorem State.setHedge_rates (h : HedgeId) (v : Hedge) : (s.setHedge h v).rates = s.rates := rfl
@[simp] theorem State.setHedge_ccm (h : HedgeId) (v : Hedge) : (s.setHedge h v).ccm = s.ccm := rfl
@[simp] theorem State.setHedge_disk (h : HedgeId) (v : Hedge) : (s.setHedge h v).disk = s.disk := rfl
@[simp] theorem State.setHedge_diskPoison (h : HedgeId) (v : Hedge) : (s.setHedge h v).diskPoison = s.diskPoison := rfl
@[simp] theorem State.setHedge_alloc (h : HedgeId) (v : Hedge) : (s.setHedge h v).alloc = s.alloc := rfl
@[simp] theorem State.setHedge_tables (h : HedgeId) (v : Hedge) : (s.setHedge h v).tables = s.tables := rfl
@[simp] theorem State.setHedge_evicts (h : HedgeId) (v : Hedge) : (s.setHedge h v).evicts = s.evicts := rfl
@[simp] theorem State.setHedge_walkq (h : HedgeId) (v : Hedge) : (s.setHedge h v).walkq = s.walkq := rfl
@[simp] theorem State.setHedge_invWait (h : HedgeId) (v : Hedge) : (s.setHedge h v).invWait = s.invWait := rfl
@[simp] theorem State.setHedge_pagerTurn (h : HedgeId) (v : Hedge) : (s.setHedge h v).pagerTurn = s.pagerTurn := rfl
@[simp] theorem State.setHedge_longTurn (h : HedgeId) (v : Hedge) : (s.setHedge h v).longTurn = s.longTurn := rfl
@[simp] theorem State.setHedge_blockNext (h : HedgeId) (v : Hedge) : (s.setHedge h v).blockNext = s.blockNext := rfl
@[simp] theorem State.setHedge_durable (h : HedgeId) (v : Hedge) : (s.setHedge h v).durable = s.durable := rfl
@[simp] theorem State.setHedge_store (h : HedgeId) (v : Hedge) : (s.setHedge h v).store = s.store := rfl
@[simp] theorem State.setHedge_errq (h : HedgeId) (v : Hedge) : (s.setHedge h v).errq = s.errq := rfl
@[simp] theorem State.setHedge_evMsgs (h : HedgeId) (v : Hedge) : (s.setHedge h v).evMsgs = s.evMsgs := rfl
@[simp] theorem State.setHedge_lockq (h : HedgeId) (v : Hedge) : (s.setHedge h v).lockq = s.lockq := rfl
@[simp] theorem State.setHedge_applyq (h : HedgeId) (v : Hedge) : (s.setHedge h v).applyq = s.applyq := rfl
@[simp] theorem State.setHedge_movSigs (h : HedgeId) (v : Hedge) : (s.setHedge h v).movSigs = s.movSigs := rfl
@[simp] theorem State.setHedge_wounds (h : HedgeId) (v : Hedge) : (s.setHedge h v).wounds = s.wounds := rfl
@[simp] theorem State.setHedge_mediaMarks (h : HedgeId) (v : Hedge) : (s.setHedge h v).mediaMarks = s.mediaMarks := rfl
@[simp] theorem State.setHedge_endNotices (h : HedgeId) (v : Hedge) : (s.setHedge h v).endNotices = s.endNotices := rfl
@[simp] theorem State.setHedge_refused (h : HedgeId) (v : Hedge) : (s.setHedge h v).refused = s.refused := rfl
@[simp] theorem State.setHedge_wakes (h : HedgeId) (v : Hedge) : (s.setHedge h v).wakes = s.wakes := rfl
@[simp] theorem State.setHedge_bounced (h : HedgeId) (v : Hedge) : (s.setHedge h v).bounced = s.bounced := rfl
@[simp] theorem State.setHedge_devstat (h : HedgeId) (v : Hedge) : (s.setHedge h v).devstat = s.devstat := rfl
@[simp] theorem State.setHedge_startNext (h : HedgeId) (v : Hedge) : (s.setHedge h v).startNext = s.startNext := rfl
@[simp] theorem State.setHedge_startBlk (h : HedgeId) (v : Hedge) : (s.setHedge h v).startBlk = s.startBlk := rfl
@[simp] theorem State.setHedge_aoTick (h : HedgeId) (v : Hedge) : (s.setHedge h v).aoTick = s.aoTick := rfl
@[simp] theorem State.setHedge_out (h : HedgeId) (v : Hedge) : (s.setHedge h v).out = s.out := rfl
@[simp] theorem State.setHedge_free (h : HedgeId) (v : Hedge) : (s.setHedge h v).free = s.free := rfl
@[simp] theorem State.setHedge_pending (h : HedgeId) (v : Hedge) : (s.setHedge h v).pending = s.pending := rfl
@[simp] theorem State.setHedge_eng (h : HedgeId) (v : Hedge) (i : EngId) : (s.setHedge h v).eng i = s.eng i := rfl
@[simp] theorem State.setHedge_clu (h : HedgeId) (v : Hedge) (i : CluId) : (s.setHedge h v).clu i = s.clu i := rfl
@[simp] theorem State.setHedge_slot (h : HedgeId) (v : Hedge) (i : SlotId) : (s.setHedge h v).slot i = s.slot i := rfl
@[simp] theorem State.setHedge_fn (h : HedgeId) (v : Hedge) (i : FnId) : (s.setHedge h v).fn i = s.fn i := rfl
@[simp] theorem State.setHedge_mover (h : HedgeId) (v : Hedge) (i : MovId) : (s.setHedge h v).mover i = s.mover i := rfl
@[simp] theorem State.setHedge_port (h : HedgeId) (v : Hedge) (i : PortId) : (s.setHedge h v).port i = s.port i := rfl
@[simp] theorem State.setHedge_sport (h : HedgeId) (v : Hedge) (i : StoragePort) : (s.setHedge h v).sport i = s.sport i := rfl
@[simp] theorem State.setHedge_link (h : HedgeId) (v : Hedge) (i : LinkId) : (s.setHedge h v).link i = s.link i := rfl
@[simp] theorem State.setHedge_hedge_same (h : HedgeId) (v : Hedge) : (s.setHedge h v).hedge h = v := tget_tset_same _ _ _ _
theorem State.setHedge_hedge_ne (h : HedgeId) (v : Hedge) (i : HedgeId) (ne : i ≠ h) : (s.setHedge h v).hedge i = s.hedge i :=
  tget_tset_ne _ _ _ _ (fun e => ne (Fin.ext e))

@[simp] theorem State.setMover_engines (m : MovId) (v : Mover) : (s.setMover m v).engines = s.engines := rfl
@[simp] theorem State.setMover_clus (m : MovId) (v : Mover) : (s.setMover m v).clus = s.clus := rfl
@[simp] theorem State.setMover_slots (m : MovId) (v : Mover) : (s.setMover m v).slots = s.slots := rfl
@[simp] theorem State.setMover_fns (m : MovId) (v : Mover) : (s.setMover m v).fns = s.fns := rfl
@[simp] theorem State.setMover_hedges (m : MovId) (v : Mover) : (s.setMover m v).hedges = s.hedges := rfl
@[simp] theorem State.setMover_dir (m : MovId) (v : Mover) : (s.setMover m v).dir = s.dir := rfl
@[simp] theorem State.setMover_locks (m : MovId) (v : Mover) : (s.setMover m v).locks = s.locks := rfl
@[simp] theorem State.setMover_lehr (m : MovId) (v : Mover) : (s.setMover m v).lehr = s.lehr := rfl
@[simp] theorem State.setMover_keeper (m : MovId) (v : Mover) : (s.setMover m v).keeper = s.keeper := rfl
@[simp] theorem State.setMover_pleach (m : MovId) (v : Mover) : (s.setMover m v).pleach = s.pleach := rfl
@[simp] theorem State.setMover_ports (m : MovId) (v : Mover) : (s.setMover m v).ports = s.ports := rfl
@[simp] theorem State.setMover_sports (m : MovId) (v : Mover) : (s.setMover m v).sports = s.sports := rfl
@[simp] theorem State.setMover_regs (m : MovId) (v : Mover) : (s.setMover m v).regs = s.regs := rfl
@[simp] theorem State.setMover_hbm (m : MovId) (v : Mover) : (s.setMover m v).hbm = s.hbm := rfl
@[simp] theorem State.setMover_poison (m : MovId) (v : Mover) : (s.setMover m v).poison = s.poison := rfl
@[simp] theorem State.setMover_hbmLatent (m : MovId) (v : Mover) : (s.setMover m v).hbmLatent = s.hbmLatent := rfl
@[simp] theorem State.setMover_chanFailed (m : MovId) (v : Mover) : (s.setMover m v).chanFailed = s.chanFailed := rfl
@[simp] theorem State.setMover_retired (m : MovId) (v : Mover) : (s.setMover m v).retired = s.retired := rfl
@[simp] theorem State.setMover_frameErr (m : MovId) (v : Mover) : (s.setMover m v).frameErr = s.frameErr := rfl
@[simp] theorem State.setMover_chanUe (m : MovId) (v : Mover) : (s.setMover m v).chanUe = s.chanUe := rfl
@[simp] theorem State.setMover_rates (m : MovId) (v : Mover) : (s.setMover m v).rates = s.rates := rfl
@[simp] theorem State.setMover_ccm (m : MovId) (v : Mover) : (s.setMover m v).ccm = s.ccm := rfl
@[simp] theorem State.setMover_disk (m : MovId) (v : Mover) : (s.setMover m v).disk = s.disk := rfl
@[simp] theorem State.setMover_diskPoison (m : MovId) (v : Mover) : (s.setMover m v).diskPoison = s.diskPoison := rfl
@[simp] theorem State.setMover_alloc (m : MovId) (v : Mover) : (s.setMover m v).alloc = s.alloc := rfl
@[simp] theorem State.setMover_tables (m : MovId) (v : Mover) : (s.setMover m v).tables = s.tables := rfl
@[simp] theorem State.setMover_evicts (m : MovId) (v : Mover) : (s.setMover m v).evicts = s.evicts := rfl
@[simp] theorem State.setMover_walkq (m : MovId) (v : Mover) : (s.setMover m v).walkq = s.walkq := rfl
@[simp] theorem State.setMover_invWait (m : MovId) (v : Mover) : (s.setMover m v).invWait = s.invWait := rfl
@[simp] theorem State.setMover_pagerTurn (m : MovId) (v : Mover) : (s.setMover m v).pagerTurn = s.pagerTurn := rfl
@[simp] theorem State.setMover_longTurn (m : MovId) (v : Mover) : (s.setMover m v).longTurn = s.longTurn := rfl
@[simp] theorem State.setMover_blockNext (m : MovId) (v : Mover) : (s.setMover m v).blockNext = s.blockNext := rfl
@[simp] theorem State.setMover_durable (m : MovId) (v : Mover) : (s.setMover m v).durable = s.durable := rfl
@[simp] theorem State.setMover_store (m : MovId) (v : Mover) : (s.setMover m v).store = s.store := rfl
@[simp] theorem State.setMover_errq (m : MovId) (v : Mover) : (s.setMover m v).errq = s.errq := rfl
@[simp] theorem State.setMover_evMsgs (m : MovId) (v : Mover) : (s.setMover m v).evMsgs = s.evMsgs := rfl
@[simp] theorem State.setMover_lockq (m : MovId) (v : Mover) : (s.setMover m v).lockq = s.lockq := rfl
@[simp] theorem State.setMover_applyq (m : MovId) (v : Mover) : (s.setMover m v).applyq = s.applyq := rfl
@[simp] theorem State.setMover_movSigs (m : MovId) (v : Mover) : (s.setMover m v).movSigs = s.movSigs := rfl
@[simp] theorem State.setMover_wounds (m : MovId) (v : Mover) : (s.setMover m v).wounds = s.wounds := rfl
@[simp] theorem State.setMover_mediaMarks (m : MovId) (v : Mover) : (s.setMover m v).mediaMarks = s.mediaMarks := rfl
@[simp] theorem State.setMover_endNotices (m : MovId) (v : Mover) : (s.setMover m v).endNotices = s.endNotices := rfl
@[simp] theorem State.setMover_refused (m : MovId) (v : Mover) : (s.setMover m v).refused = s.refused := rfl
@[simp] theorem State.setMover_wakes (m : MovId) (v : Mover) : (s.setMover m v).wakes = s.wakes := rfl
@[simp] theorem State.setMover_bounced (m : MovId) (v : Mover) : (s.setMover m v).bounced = s.bounced := rfl
@[simp] theorem State.setMover_devstat (m : MovId) (v : Mover) : (s.setMover m v).devstat = s.devstat := rfl
@[simp] theorem State.setMover_startNext (m : MovId) (v : Mover) : (s.setMover m v).startNext = s.startNext := rfl
@[simp] theorem State.setMover_startBlk (m : MovId) (v : Mover) : (s.setMover m v).startBlk = s.startBlk := rfl
@[simp] theorem State.setMover_aoTick (m : MovId) (v : Mover) : (s.setMover m v).aoTick = s.aoTick := rfl
@[simp] theorem State.setMover_out (m : MovId) (v : Mover) : (s.setMover m v).out = s.out := rfl
@[simp] theorem State.setMover_free (m : MovId) (v : Mover) : (s.setMover m v).free = s.free := rfl
@[simp] theorem State.setMover_pending (m : MovId) (v : Mover) : (s.setMover m v).pending = s.pending := rfl
@[simp] theorem State.setMover_eng (m : MovId) (v : Mover) (i : EngId) : (s.setMover m v).eng i = s.eng i := rfl
@[simp] theorem State.setMover_clu (m : MovId) (v : Mover) (i : CluId) : (s.setMover m v).clu i = s.clu i := rfl
@[simp] theorem State.setMover_slot (m : MovId) (v : Mover) (i : SlotId) : (s.setMover m v).slot i = s.slot i := rfl
@[simp] theorem State.setMover_fn (m : MovId) (v : Mover) (i : FnId) : (s.setMover m v).fn i = s.fn i := rfl
@[simp] theorem State.setMover_hedge (m : MovId) (v : Mover) (i : HedgeId) : (s.setMover m v).hedge i = s.hedge i := rfl
@[simp] theorem State.setMover_port (m : MovId) (v : Mover) (i : PortId) : (s.setMover m v).port i = s.port i := rfl
@[simp] theorem State.setMover_sport (m : MovId) (v : Mover) (i : StoragePort) : (s.setMover m v).sport i = s.sport i := rfl
@[simp] theorem State.setMover_link (m : MovId) (v : Mover) (i : LinkId) : (s.setMover m v).link i = s.link i := rfl
@[simp] theorem State.setMover_mover_same (m : MovId) (v : Mover) : (s.setMover m v).mover m = v := tget_tset_same _ _ _ _
theorem State.setMover_mover_ne (m : MovId) (v : Mover) (i : MovId) (ne : i ≠ m) : (s.setMover m v).mover i = s.mover i :=
  tget_tset_ne _ _ _ _ (fun e => ne (Fin.ext e))

@[simp] theorem State.setPort_engines (p : PortId) (v : HPort) : (s.setPort p v).engines = s.engines := rfl
@[simp] theorem State.setPort_clus (p : PortId) (v : HPort) : (s.setPort p v).clus = s.clus := rfl
@[simp] theorem State.setPort_slots (p : PortId) (v : HPort) : (s.setPort p v).slots = s.slots := rfl
@[simp] theorem State.setPort_fns (p : PortId) (v : HPort) : (s.setPort p v).fns = s.fns := rfl
@[simp] theorem State.setPort_hedges (p : PortId) (v : HPort) : (s.setPort p v).hedges = s.hedges := rfl
@[simp] theorem State.setPort_dir (p : PortId) (v : HPort) : (s.setPort p v).dir = s.dir := rfl
@[simp] theorem State.setPort_locks (p : PortId) (v : HPort) : (s.setPort p v).locks = s.locks := rfl
@[simp] theorem State.setPort_lehr (p : PortId) (v : HPort) : (s.setPort p v).lehr = s.lehr := rfl
@[simp] theorem State.setPort_movers (p : PortId) (v : HPort) : (s.setPort p v).movers = s.movers := rfl
@[simp] theorem State.setPort_keeper (p : PortId) (v : HPort) : (s.setPort p v).keeper = s.keeper := rfl
@[simp] theorem State.setPort_pleach (p : PortId) (v : HPort) : (s.setPort p v).pleach = s.pleach := rfl
@[simp] theorem State.setPort_sports (p : PortId) (v : HPort) : (s.setPort p v).sports = s.sports := rfl
@[simp] theorem State.setPort_regs (p : PortId) (v : HPort) : (s.setPort p v).regs = s.regs := rfl
@[simp] theorem State.setPort_hbm (p : PortId) (v : HPort) : (s.setPort p v).hbm = s.hbm := rfl
@[simp] theorem State.setPort_poison (p : PortId) (v : HPort) : (s.setPort p v).poison = s.poison := rfl
@[simp] theorem State.setPort_hbmLatent (p : PortId) (v : HPort) : (s.setPort p v).hbmLatent = s.hbmLatent := rfl
@[simp] theorem State.setPort_chanFailed (p : PortId) (v : HPort) : (s.setPort p v).chanFailed = s.chanFailed := rfl
@[simp] theorem State.setPort_retired (p : PortId) (v : HPort) : (s.setPort p v).retired = s.retired := rfl
@[simp] theorem State.setPort_frameErr (p : PortId) (v : HPort) : (s.setPort p v).frameErr = s.frameErr := rfl
@[simp] theorem State.setPort_chanUe (p : PortId) (v : HPort) : (s.setPort p v).chanUe = s.chanUe := rfl
@[simp] theorem State.setPort_rates (p : PortId) (v : HPort) : (s.setPort p v).rates = s.rates := rfl
@[simp] theorem State.setPort_ccm (p : PortId) (v : HPort) : (s.setPort p v).ccm = s.ccm := rfl
@[simp] theorem State.setPort_disk (p : PortId) (v : HPort) : (s.setPort p v).disk = s.disk := rfl
@[simp] theorem State.setPort_diskPoison (p : PortId) (v : HPort) : (s.setPort p v).diskPoison = s.diskPoison := rfl
@[simp] theorem State.setPort_alloc (p : PortId) (v : HPort) : (s.setPort p v).alloc = s.alloc := rfl
@[simp] theorem State.setPort_tables (p : PortId) (v : HPort) : (s.setPort p v).tables = s.tables := rfl
@[simp] theorem State.setPort_evicts (p : PortId) (v : HPort) : (s.setPort p v).evicts = s.evicts := rfl
@[simp] theorem State.setPort_walkq (p : PortId) (v : HPort) : (s.setPort p v).walkq = s.walkq := rfl
@[simp] theorem State.setPort_invWait (p : PortId) (v : HPort) : (s.setPort p v).invWait = s.invWait := rfl
@[simp] theorem State.setPort_pagerTurn (p : PortId) (v : HPort) : (s.setPort p v).pagerTurn = s.pagerTurn := rfl
@[simp] theorem State.setPort_longTurn (p : PortId) (v : HPort) : (s.setPort p v).longTurn = s.longTurn := rfl
@[simp] theorem State.setPort_blockNext (p : PortId) (v : HPort) : (s.setPort p v).blockNext = s.blockNext := rfl
@[simp] theorem State.setPort_durable (p : PortId) (v : HPort) : (s.setPort p v).durable = s.durable := rfl
@[simp] theorem State.setPort_store (p : PortId) (v : HPort) : (s.setPort p v).store = s.store := rfl
@[simp] theorem State.setPort_errq (p : PortId) (v : HPort) : (s.setPort p v).errq = s.errq := rfl
@[simp] theorem State.setPort_evMsgs (p : PortId) (v : HPort) : (s.setPort p v).evMsgs = s.evMsgs := rfl
@[simp] theorem State.setPort_lockq (p : PortId) (v : HPort) : (s.setPort p v).lockq = s.lockq := rfl
@[simp] theorem State.setPort_applyq (p : PortId) (v : HPort) : (s.setPort p v).applyq = s.applyq := rfl
@[simp] theorem State.setPort_movSigs (p : PortId) (v : HPort) : (s.setPort p v).movSigs = s.movSigs := rfl
@[simp] theorem State.setPort_wounds (p : PortId) (v : HPort) : (s.setPort p v).wounds = s.wounds := rfl
@[simp] theorem State.setPort_mediaMarks (p : PortId) (v : HPort) : (s.setPort p v).mediaMarks = s.mediaMarks := rfl
@[simp] theorem State.setPort_endNotices (p : PortId) (v : HPort) : (s.setPort p v).endNotices = s.endNotices := rfl
@[simp] theorem State.setPort_refused (p : PortId) (v : HPort) : (s.setPort p v).refused = s.refused := rfl
@[simp] theorem State.setPort_wakes (p : PortId) (v : HPort) : (s.setPort p v).wakes = s.wakes := rfl
@[simp] theorem State.setPort_bounced (p : PortId) (v : HPort) : (s.setPort p v).bounced = s.bounced := rfl
@[simp] theorem State.setPort_devstat (p : PortId) (v : HPort) : (s.setPort p v).devstat = s.devstat := rfl
@[simp] theorem State.setPort_startNext (p : PortId) (v : HPort) : (s.setPort p v).startNext = s.startNext := rfl
@[simp] theorem State.setPort_startBlk (p : PortId) (v : HPort) : (s.setPort p v).startBlk = s.startBlk := rfl
@[simp] theorem State.setPort_aoTick (p : PortId) (v : HPort) : (s.setPort p v).aoTick = s.aoTick := rfl
@[simp] theorem State.setPort_out (p : PortId) (v : HPort) : (s.setPort p v).out = s.out := rfl
@[simp] theorem State.setPort_free (p : PortId) (v : HPort) : (s.setPort p v).free = s.free := rfl
@[simp] theorem State.setPort_pending (p : PortId) (v : HPort) : (s.setPort p v).pending = s.pending := rfl
@[simp] theorem State.setPort_eng (p : PortId) (v : HPort) (i : EngId) : (s.setPort p v).eng i = s.eng i := rfl
@[simp] theorem State.setPort_clu (p : PortId) (v : HPort) (i : CluId) : (s.setPort p v).clu i = s.clu i := rfl
@[simp] theorem State.setPort_slot (p : PortId) (v : HPort) (i : SlotId) : (s.setPort p v).slot i = s.slot i := rfl
@[simp] theorem State.setPort_fn (p : PortId) (v : HPort) (i : FnId) : (s.setPort p v).fn i = s.fn i := rfl
@[simp] theorem State.setPort_hedge (p : PortId) (v : HPort) (i : HedgeId) : (s.setPort p v).hedge i = s.hedge i := rfl
@[simp] theorem State.setPort_mover (p : PortId) (v : HPort) (i : MovId) : (s.setPort p v).mover i = s.mover i := rfl
@[simp] theorem State.setPort_sport (p : PortId) (v : HPort) (i : StoragePort) : (s.setPort p v).sport i = s.sport i := rfl
@[simp] theorem State.setPort_link (p : PortId) (v : HPort) (i : LinkId) : (s.setPort p v).link i = s.link i := rfl
@[simp] theorem State.setPort_port_same (p : PortId) (v : HPort) : (s.setPort p v).port p = v := tget_tset_same _ _ _ _
theorem State.setPort_port_ne (p : PortId) (v : HPort) (i : PortId) (ne : i ≠ p) : (s.setPort p v).port i = s.port i :=
  tget_tset_ne _ _ _ _ (fun e => ne (Fin.ext e))

@[simp] theorem State.setSport_engines (p : StoragePort) (v : SPort) : (s.setSport p v).engines = s.engines := rfl
@[simp] theorem State.setSport_clus (p : StoragePort) (v : SPort) : (s.setSport p v).clus = s.clus := rfl
@[simp] theorem State.setSport_slots (p : StoragePort) (v : SPort) : (s.setSport p v).slots = s.slots := rfl
@[simp] theorem State.setSport_fns (p : StoragePort) (v : SPort) : (s.setSport p v).fns = s.fns := rfl
@[simp] theorem State.setSport_hedges (p : StoragePort) (v : SPort) : (s.setSport p v).hedges = s.hedges := rfl
@[simp] theorem State.setSport_dir (p : StoragePort) (v : SPort) : (s.setSport p v).dir = s.dir := rfl
@[simp] theorem State.setSport_locks (p : StoragePort) (v : SPort) : (s.setSport p v).locks = s.locks := rfl
@[simp] theorem State.setSport_lehr (p : StoragePort) (v : SPort) : (s.setSport p v).lehr = s.lehr := rfl
@[simp] theorem State.setSport_movers (p : StoragePort) (v : SPort) : (s.setSport p v).movers = s.movers := rfl
@[simp] theorem State.setSport_keeper (p : StoragePort) (v : SPort) : (s.setSport p v).keeper = s.keeper := rfl
@[simp] theorem State.setSport_pleach (p : StoragePort) (v : SPort) : (s.setSport p v).pleach = s.pleach := rfl
@[simp] theorem State.setSport_ports (p : StoragePort) (v : SPort) : (s.setSport p v).ports = s.ports := rfl
@[simp] theorem State.setSport_regs (p : StoragePort) (v : SPort) : (s.setSport p v).regs = s.regs := rfl
@[simp] theorem State.setSport_hbm (p : StoragePort) (v : SPort) : (s.setSport p v).hbm = s.hbm := rfl
@[simp] theorem State.setSport_poison (p : StoragePort) (v : SPort) : (s.setSport p v).poison = s.poison := rfl
@[simp] theorem State.setSport_hbmLatent (p : StoragePort) (v : SPort) : (s.setSport p v).hbmLatent = s.hbmLatent := rfl
@[simp] theorem State.setSport_chanFailed (p : StoragePort) (v : SPort) : (s.setSport p v).chanFailed = s.chanFailed := rfl
@[simp] theorem State.setSport_retired (p : StoragePort) (v : SPort) : (s.setSport p v).retired = s.retired := rfl
@[simp] theorem State.setSport_frameErr (p : StoragePort) (v : SPort) : (s.setSport p v).frameErr = s.frameErr := rfl
@[simp] theorem State.setSport_chanUe (p : StoragePort) (v : SPort) : (s.setSport p v).chanUe = s.chanUe := rfl
@[simp] theorem State.setSport_rates (p : StoragePort) (v : SPort) : (s.setSport p v).rates = s.rates := rfl
@[simp] theorem State.setSport_ccm (p : StoragePort) (v : SPort) : (s.setSport p v).ccm = s.ccm := rfl
@[simp] theorem State.setSport_disk (p : StoragePort) (v : SPort) : (s.setSport p v).disk = s.disk := rfl
@[simp] theorem State.setSport_diskPoison (p : StoragePort) (v : SPort) : (s.setSport p v).diskPoison = s.diskPoison := rfl
@[simp] theorem State.setSport_alloc (p : StoragePort) (v : SPort) : (s.setSport p v).alloc = s.alloc := rfl
@[simp] theorem State.setSport_tables (p : StoragePort) (v : SPort) : (s.setSport p v).tables = s.tables := rfl
@[simp] theorem State.setSport_evicts (p : StoragePort) (v : SPort) : (s.setSport p v).evicts = s.evicts := rfl
@[simp] theorem State.setSport_walkq (p : StoragePort) (v : SPort) : (s.setSport p v).walkq = s.walkq := rfl
@[simp] theorem State.setSport_invWait (p : StoragePort) (v : SPort) : (s.setSport p v).invWait = s.invWait := rfl
@[simp] theorem State.setSport_pagerTurn (p : StoragePort) (v : SPort) : (s.setSport p v).pagerTurn = s.pagerTurn := rfl
@[simp] theorem State.setSport_longTurn (p : StoragePort) (v : SPort) : (s.setSport p v).longTurn = s.longTurn := rfl
@[simp] theorem State.setSport_blockNext (p : StoragePort) (v : SPort) : (s.setSport p v).blockNext = s.blockNext := rfl
@[simp] theorem State.setSport_durable (p : StoragePort) (v : SPort) : (s.setSport p v).durable = s.durable := rfl
@[simp] theorem State.setSport_store (p : StoragePort) (v : SPort) : (s.setSport p v).store = s.store := rfl
@[simp] theorem State.setSport_errq (p : StoragePort) (v : SPort) : (s.setSport p v).errq = s.errq := rfl
@[simp] theorem State.setSport_evMsgs (p : StoragePort) (v : SPort) : (s.setSport p v).evMsgs = s.evMsgs := rfl
@[simp] theorem State.setSport_lockq (p : StoragePort) (v : SPort) : (s.setSport p v).lockq = s.lockq := rfl
@[simp] theorem State.setSport_applyq (p : StoragePort) (v : SPort) : (s.setSport p v).applyq = s.applyq := rfl
@[simp] theorem State.setSport_movSigs (p : StoragePort) (v : SPort) : (s.setSport p v).movSigs = s.movSigs := rfl
@[simp] theorem State.setSport_wounds (p : StoragePort) (v : SPort) : (s.setSport p v).wounds = s.wounds := rfl
@[simp] theorem State.setSport_mediaMarks (p : StoragePort) (v : SPort) : (s.setSport p v).mediaMarks = s.mediaMarks := rfl
@[simp] theorem State.setSport_endNotices (p : StoragePort) (v : SPort) : (s.setSport p v).endNotices = s.endNotices := rfl
@[simp] theorem State.setSport_refused (p : StoragePort) (v : SPort) : (s.setSport p v).refused = s.refused := rfl
@[simp] theorem State.setSport_wakes (p : StoragePort) (v : SPort) : (s.setSport p v).wakes = s.wakes := rfl
@[simp] theorem State.setSport_bounced (p : StoragePort) (v : SPort) : (s.setSport p v).bounced = s.bounced := rfl
@[simp] theorem State.setSport_devstat (p : StoragePort) (v : SPort) : (s.setSport p v).devstat = s.devstat := rfl
@[simp] theorem State.setSport_startNext (p : StoragePort) (v : SPort) : (s.setSport p v).startNext = s.startNext := rfl
@[simp] theorem State.setSport_startBlk (p : StoragePort) (v : SPort) : (s.setSport p v).startBlk = s.startBlk := rfl
@[simp] theorem State.setSport_aoTick (p : StoragePort) (v : SPort) : (s.setSport p v).aoTick = s.aoTick := rfl
@[simp] theorem State.setSport_out (p : StoragePort) (v : SPort) : (s.setSport p v).out = s.out := rfl
@[simp] theorem State.setSport_free (p : StoragePort) (v : SPort) : (s.setSport p v).free = s.free := rfl
@[simp] theorem State.setSport_pending (p : StoragePort) (v : SPort) : (s.setSport p v).pending = s.pending := rfl
@[simp] theorem State.setSport_eng (p : StoragePort) (v : SPort) (i : EngId) : (s.setSport p v).eng i = s.eng i := rfl
@[simp] theorem State.setSport_clu (p : StoragePort) (v : SPort) (i : CluId) : (s.setSport p v).clu i = s.clu i := rfl
@[simp] theorem State.setSport_slot (p : StoragePort) (v : SPort) (i : SlotId) : (s.setSport p v).slot i = s.slot i := rfl
@[simp] theorem State.setSport_fn (p : StoragePort) (v : SPort) (i : FnId) : (s.setSport p v).fn i = s.fn i := rfl
@[simp] theorem State.setSport_hedge (p : StoragePort) (v : SPort) (i : HedgeId) : (s.setSport p v).hedge i = s.hedge i := rfl
@[simp] theorem State.setSport_mover (p : StoragePort) (v : SPort) (i : MovId) : (s.setSport p v).mover i = s.mover i := rfl
@[simp] theorem State.setSport_port (p : StoragePort) (v : SPort) (i : PortId) : (s.setSport p v).port i = s.port i := rfl
@[simp] theorem State.setSport_link (p : StoragePort) (v : SPort) (i : LinkId) : (s.setSport p v).link i = s.link i := rfl
@[simp] theorem State.setSport_sport_same (p : StoragePort) (v : SPort) : (s.setSport p v).sport p = v := tget_tset_same _ _ _ _
theorem State.setSport_sport_ne (p : StoragePort) (v : SPort) (i : StoragePort) (ne : i ≠ p) : (s.setSport p v).sport i = s.sport i :=
  tget_tset_ne _ _ _ _ (fun e => ne (Fin.ext e))

@[simp] theorem State.setLink_engines (l : LinkId) (v : Link) : (s.setLink l v).engines = s.engines := rfl
@[simp] theorem State.setLink_clus (l : LinkId) (v : Link) : (s.setLink l v).clus = s.clus := rfl
@[simp] theorem State.setLink_slots (l : LinkId) (v : Link) : (s.setLink l v).slots = s.slots := rfl
@[simp] theorem State.setLink_fns (l : LinkId) (v : Link) : (s.setLink l v).fns = s.fns := rfl
@[simp] theorem State.setLink_hedges (l : LinkId) (v : Link) : (s.setLink l v).hedges = s.hedges := rfl
@[simp] theorem State.setLink_dir (l : LinkId) (v : Link) : (s.setLink l v).dir = s.dir := rfl
@[simp] theorem State.setLink_locks (l : LinkId) (v : Link) : (s.setLink l v).locks = s.locks := rfl
@[simp] theorem State.setLink_lehr (l : LinkId) (v : Link) : (s.setLink l v).lehr = s.lehr := rfl
@[simp] theorem State.setLink_movers (l : LinkId) (v : Link) : (s.setLink l v).movers = s.movers := rfl
@[simp] theorem State.setLink_keeper (l : LinkId) (v : Link) : (s.setLink l v).keeper = s.keeper := rfl
@[simp] theorem State.setLink_ports (l : LinkId) (v : Link) : (s.setLink l v).ports = s.ports := rfl
@[simp] theorem State.setLink_sports (l : LinkId) (v : Link) : (s.setLink l v).sports = s.sports := rfl
@[simp] theorem State.setLink_regs (l : LinkId) (v : Link) : (s.setLink l v).regs = s.regs := rfl
@[simp] theorem State.setLink_hbm (l : LinkId) (v : Link) : (s.setLink l v).hbm = s.hbm := rfl
@[simp] theorem State.setLink_poison (l : LinkId) (v : Link) : (s.setLink l v).poison = s.poison := rfl
@[simp] theorem State.setLink_hbmLatent (l : LinkId) (v : Link) : (s.setLink l v).hbmLatent = s.hbmLatent := rfl
@[simp] theorem State.setLink_chanFailed (l : LinkId) (v : Link) : (s.setLink l v).chanFailed = s.chanFailed := rfl
@[simp] theorem State.setLink_retired (l : LinkId) (v : Link) : (s.setLink l v).retired = s.retired := rfl
@[simp] theorem State.setLink_frameErr (l : LinkId) (v : Link) : (s.setLink l v).frameErr = s.frameErr := rfl
@[simp] theorem State.setLink_chanUe (l : LinkId) (v : Link) : (s.setLink l v).chanUe = s.chanUe := rfl
@[simp] theorem State.setLink_rates (l : LinkId) (v : Link) : (s.setLink l v).rates = s.rates := rfl
@[simp] theorem State.setLink_ccm (l : LinkId) (v : Link) : (s.setLink l v).ccm = s.ccm := rfl
@[simp] theorem State.setLink_disk (l : LinkId) (v : Link) : (s.setLink l v).disk = s.disk := rfl
@[simp] theorem State.setLink_diskPoison (l : LinkId) (v : Link) : (s.setLink l v).diskPoison = s.diskPoison := rfl
@[simp] theorem State.setLink_alloc (l : LinkId) (v : Link) : (s.setLink l v).alloc = s.alloc := rfl
@[simp] theorem State.setLink_tables (l : LinkId) (v : Link) : (s.setLink l v).tables = s.tables := rfl
@[simp] theorem State.setLink_evicts (l : LinkId) (v : Link) : (s.setLink l v).evicts = s.evicts := rfl
@[simp] theorem State.setLink_walkq (l : LinkId) (v : Link) : (s.setLink l v).walkq = s.walkq := rfl
@[simp] theorem State.setLink_invWait (l : LinkId) (v : Link) : (s.setLink l v).invWait = s.invWait := rfl
@[simp] theorem State.setLink_pagerTurn (l : LinkId) (v : Link) : (s.setLink l v).pagerTurn = s.pagerTurn := rfl
@[simp] theorem State.setLink_longTurn (l : LinkId) (v : Link) : (s.setLink l v).longTurn = s.longTurn := rfl
@[simp] theorem State.setLink_blockNext (l : LinkId) (v : Link) : (s.setLink l v).blockNext = s.blockNext := rfl
@[simp] theorem State.setLink_durable (l : LinkId) (v : Link) : (s.setLink l v).durable = s.durable := rfl
@[simp] theorem State.setLink_store (l : LinkId) (v : Link) : (s.setLink l v).store = s.store := rfl
@[simp] theorem State.setLink_errq (l : LinkId) (v : Link) : (s.setLink l v).errq = s.errq := rfl
@[simp] theorem State.setLink_evMsgs (l : LinkId) (v : Link) : (s.setLink l v).evMsgs = s.evMsgs := rfl
@[simp] theorem State.setLink_lockq (l : LinkId) (v : Link) : (s.setLink l v).lockq = s.lockq := rfl
@[simp] theorem State.setLink_applyq (l : LinkId) (v : Link) : (s.setLink l v).applyq = s.applyq := rfl
@[simp] theorem State.setLink_movSigs (l : LinkId) (v : Link) : (s.setLink l v).movSigs = s.movSigs := rfl
@[simp] theorem State.setLink_wounds (l : LinkId) (v : Link) : (s.setLink l v).wounds = s.wounds := rfl
@[simp] theorem State.setLink_mediaMarks (l : LinkId) (v : Link) : (s.setLink l v).mediaMarks = s.mediaMarks := rfl
@[simp] theorem State.setLink_endNotices (l : LinkId) (v : Link) : (s.setLink l v).endNotices = s.endNotices := rfl
@[simp] theorem State.setLink_refused (l : LinkId) (v : Link) : (s.setLink l v).refused = s.refused := rfl
@[simp] theorem State.setLink_wakes (l : LinkId) (v : Link) : (s.setLink l v).wakes = s.wakes := rfl
@[simp] theorem State.setLink_bounced (l : LinkId) (v : Link) : (s.setLink l v).bounced = s.bounced := rfl
@[simp] theorem State.setLink_devstat (l : LinkId) (v : Link) : (s.setLink l v).devstat = s.devstat := rfl
@[simp] theorem State.setLink_startNext (l : LinkId) (v : Link) : (s.setLink l v).startNext = s.startNext := rfl
@[simp] theorem State.setLink_startBlk (l : LinkId) (v : Link) : (s.setLink l v).startBlk = s.startBlk := rfl
@[simp] theorem State.setLink_aoTick (l : LinkId) (v : Link) : (s.setLink l v).aoTick = s.aoTick := rfl
@[simp] theorem State.setLink_out (l : LinkId) (v : Link) : (s.setLink l v).out = s.out := rfl
@[simp] theorem State.setLink_free (l : LinkId) (v : Link) : (s.setLink l v).free = s.free := rfl
@[simp] theorem State.setLink_pending (l : LinkId) (v : Link) : (s.setLink l v).pending = s.pending := rfl
@[simp] theorem State.setLink_eng (l : LinkId) (v : Link) (i : EngId) : (s.setLink l v).eng i = s.eng i := rfl
@[simp] theorem State.setLink_clu (l : LinkId) (v : Link) (i : CluId) : (s.setLink l v).clu i = s.clu i := rfl
@[simp] theorem State.setLink_slot (l : LinkId) (v : Link) (i : SlotId) : (s.setLink l v).slot i = s.slot i := rfl
@[simp] theorem State.setLink_fn (l : LinkId) (v : Link) (i : FnId) : (s.setLink l v).fn i = s.fn i := rfl
@[simp] theorem State.setLink_hedge (l : LinkId) (v : Link) (i : HedgeId) : (s.setLink l v).hedge i = s.hedge i := rfl
@[simp] theorem State.setLink_mover (l : LinkId) (v : Link) (i : MovId) : (s.setLink l v).mover i = s.mover i := rfl
@[simp] theorem State.setLink_port (l : LinkId) (v : Link) (i : PortId) : (s.setLink l v).port i = s.port i := rfl
@[simp] theorem State.setLink_sport (l : LinkId) (v : Link) (i : StoragePort) : (s.setLink l v).sport i = s.sport i := rfl
@[simp] theorem State.setLink_link_same (l : LinkId) (v : Link) : (s.setLink l v).link l = v := tget_tset_same _ _ _ _
theorem State.setLink_link_ne (l : LinkId) (v : Link) (i : LinkId) (ne : i ≠ l) : (s.setLink l v).link i = s.link i :=
  tget_tset_ne _ _ _ _ (fun e => ne (Fin.ext e))

@[simp] theorem State.emit_engines (o : Out) : (s.emit o).engines = s.engines := rfl
@[simp] theorem State.emit_clus (o : Out) : (s.emit o).clus = s.clus := rfl
@[simp] theorem State.emit_slots (o : Out) : (s.emit o).slots = s.slots := rfl
@[simp] theorem State.emit_fns (o : Out) : (s.emit o).fns = s.fns := rfl
@[simp] theorem State.emit_hedges (o : Out) : (s.emit o).hedges = s.hedges := rfl
@[simp] theorem State.emit_dir (o : Out) : (s.emit o).dir = s.dir := rfl
@[simp] theorem State.emit_locks (o : Out) : (s.emit o).locks = s.locks := rfl
@[simp] theorem State.emit_lehr (o : Out) : (s.emit o).lehr = s.lehr := rfl
@[simp] theorem State.emit_movers (o : Out) : (s.emit o).movers = s.movers := rfl
@[simp] theorem State.emit_keeper (o : Out) : (s.emit o).keeper = s.keeper := rfl
@[simp] theorem State.emit_pleach (o : Out) : (s.emit o).pleach = s.pleach := rfl
@[simp] theorem State.emit_ports (o : Out) : (s.emit o).ports = s.ports := rfl
@[simp] theorem State.emit_sports (o : Out) : (s.emit o).sports = s.sports := rfl
@[simp] theorem State.emit_regs (o : Out) : (s.emit o).regs = s.regs := rfl
@[simp] theorem State.emit_hbm (o : Out) : (s.emit o).hbm = s.hbm := rfl
@[simp] theorem State.emit_poison (o : Out) : (s.emit o).poison = s.poison := rfl
@[simp] theorem State.emit_hbmLatent (o : Out) : (s.emit o).hbmLatent = s.hbmLatent := rfl
@[simp] theorem State.emit_chanFailed (o : Out) : (s.emit o).chanFailed = s.chanFailed := rfl
@[simp] theorem State.emit_retired (o : Out) : (s.emit o).retired = s.retired := rfl
@[simp] theorem State.emit_frameErr (o : Out) : (s.emit o).frameErr = s.frameErr := rfl
@[simp] theorem State.emit_chanUe (o : Out) : (s.emit o).chanUe = s.chanUe := rfl
@[simp] theorem State.emit_rates (o : Out) : (s.emit o).rates = s.rates := rfl
@[simp] theorem State.emit_ccm (o : Out) : (s.emit o).ccm = s.ccm := rfl
@[simp] theorem State.emit_disk (o : Out) : (s.emit o).disk = s.disk := rfl
@[simp] theorem State.emit_diskPoison (o : Out) : (s.emit o).diskPoison = s.diskPoison := rfl
@[simp] theorem State.emit_alloc (o : Out) : (s.emit o).alloc = s.alloc := rfl
@[simp] theorem State.emit_tables (o : Out) : (s.emit o).tables = s.tables := rfl
@[simp] theorem State.emit_evicts (o : Out) : (s.emit o).evicts = s.evicts := rfl
@[simp] theorem State.emit_walkq (o : Out) : (s.emit o).walkq = s.walkq := rfl
@[simp] theorem State.emit_invWait (o : Out) : (s.emit o).invWait = s.invWait := rfl
@[simp] theorem State.emit_pagerTurn (o : Out) : (s.emit o).pagerTurn = s.pagerTurn := rfl
@[simp] theorem State.emit_longTurn (o : Out) : (s.emit o).longTurn = s.longTurn := rfl
@[simp] theorem State.emit_blockNext (o : Out) : (s.emit o).blockNext = s.blockNext := rfl
@[simp] theorem State.emit_durable (o : Out) : (s.emit o).durable = s.durable := rfl
@[simp] theorem State.emit_store (o : Out) : (s.emit o).store = s.store := rfl
@[simp] theorem State.emit_errq (o : Out) : (s.emit o).errq = s.errq := rfl
@[simp] theorem State.emit_evMsgs (o : Out) : (s.emit o).evMsgs = s.evMsgs := rfl
@[simp] theorem State.emit_lockq (o : Out) : (s.emit o).lockq = s.lockq := rfl
@[simp] theorem State.emit_applyq (o : Out) : (s.emit o).applyq = s.applyq := rfl
@[simp] theorem State.emit_movSigs (o : Out) : (s.emit o).movSigs = s.movSigs := rfl
@[simp] theorem State.emit_wounds (o : Out) : (s.emit o).wounds = s.wounds := rfl
@[simp] theorem State.emit_mediaMarks (o : Out) : (s.emit o).mediaMarks = s.mediaMarks := rfl
@[simp] theorem State.emit_endNotices (o : Out) : (s.emit o).endNotices = s.endNotices := rfl
@[simp] theorem State.emit_refused (o : Out) : (s.emit o).refused = s.refused := rfl
@[simp] theorem State.emit_wakes (o : Out) : (s.emit o).wakes = s.wakes := rfl
@[simp] theorem State.emit_bounced (o : Out) : (s.emit o).bounced = s.bounced := rfl
@[simp] theorem State.emit_devstat (o : Out) : (s.emit o).devstat = s.devstat := rfl
@[simp] theorem State.emit_startNext (o : Out) : (s.emit o).startNext = s.startNext := rfl
@[simp] theorem State.emit_startBlk (o : Out) : (s.emit o).startBlk = s.startBlk := rfl
@[simp] theorem State.emit_aoTick (o : Out) : (s.emit o).aoTick = s.aoTick := rfl
@[simp] theorem State.emit_free (o : Out) : (s.emit o).free = s.free := rfl
@[simp] theorem State.emit_pending (o : Out) : (s.emit o).pending = s.pending := rfl
@[simp] theorem State.emit_eng (o : Out) (i : EngId) : (s.emit o).eng i = s.eng i := rfl
@[simp] theorem State.emit_clu (o : Out) (i : CluId) : (s.emit o).clu i = s.clu i := rfl
@[simp] theorem State.emit_slot (o : Out) (i : SlotId) : (s.emit o).slot i = s.slot i := rfl
@[simp] theorem State.emit_fn (o : Out) (i : FnId) : (s.emit o).fn i = s.fn i := rfl
@[simp] theorem State.emit_hedge (o : Out) (i : HedgeId) : (s.emit o).hedge i = s.hedge i := rfl
@[simp] theorem State.emit_mover (o : Out) (i : MovId) : (s.emit o).mover i = s.mover i := rfl
@[simp] theorem State.emit_port (o : Out) (i : PortId) : (s.emit o).port i = s.port i := rfl
@[simp] theorem State.emit_sport (o : Out) (i : StoragePort) : (s.emit o).sport i = s.sport i := rfl
@[simp] theorem State.emit_link (o : Out) (i : LinkId) : (s.emit o).link i = s.link i := rfl

@[simp] theorem State.report_engines (r : ErrRec) : (s.report r).engines = s.engines := rfl
@[simp] theorem State.report_clus (r : ErrRec) : (s.report r).clus = s.clus := rfl
@[simp] theorem State.report_slots (r : ErrRec) : (s.report r).slots = s.slots := rfl
@[simp] theorem State.report_fns (r : ErrRec) : (s.report r).fns = s.fns := rfl
@[simp] theorem State.report_hedges (r : ErrRec) : (s.report r).hedges = s.hedges := rfl
@[simp] theorem State.report_dir (r : ErrRec) : (s.report r).dir = s.dir := rfl
@[simp] theorem State.report_locks (r : ErrRec) : (s.report r).locks = s.locks := rfl
@[simp] theorem State.report_lehr (r : ErrRec) : (s.report r).lehr = s.lehr := rfl
@[simp] theorem State.report_movers (r : ErrRec) : (s.report r).movers = s.movers := rfl
@[simp] theorem State.report_keeper (r : ErrRec) : (s.report r).keeper = s.keeper := rfl
@[simp] theorem State.report_pleach (r : ErrRec) : (s.report r).pleach = s.pleach := rfl
@[simp] theorem State.report_ports (r : ErrRec) : (s.report r).ports = s.ports := rfl
@[simp] theorem State.report_sports (r : ErrRec) : (s.report r).sports = s.sports := rfl
@[simp] theorem State.report_regs (r : ErrRec) : (s.report r).regs = s.regs := rfl
@[simp] theorem State.report_hbm (r : ErrRec) : (s.report r).hbm = s.hbm := rfl
@[simp] theorem State.report_poison (r : ErrRec) : (s.report r).poison = s.poison := rfl
@[simp] theorem State.report_hbmLatent (r : ErrRec) : (s.report r).hbmLatent = s.hbmLatent := rfl
@[simp] theorem State.report_chanFailed (r : ErrRec) : (s.report r).chanFailed = s.chanFailed := rfl
@[simp] theorem State.report_retired (r : ErrRec) : (s.report r).retired = s.retired := rfl
@[simp] theorem State.report_frameErr (r : ErrRec) : (s.report r).frameErr = s.frameErr := rfl
@[simp] theorem State.report_chanUe (r : ErrRec) : (s.report r).chanUe = s.chanUe := rfl
@[simp] theorem State.report_rates (r : ErrRec) : (s.report r).rates = s.rates := rfl
@[simp] theorem State.report_ccm (r : ErrRec) : (s.report r).ccm = s.ccm := rfl
@[simp] theorem State.report_disk (r : ErrRec) : (s.report r).disk = s.disk := rfl
@[simp] theorem State.report_diskPoison (r : ErrRec) : (s.report r).diskPoison = s.diskPoison := rfl
@[simp] theorem State.report_alloc (r : ErrRec) : (s.report r).alloc = s.alloc := rfl
@[simp] theorem State.report_tables (r : ErrRec) : (s.report r).tables = s.tables := rfl
@[simp] theorem State.report_evicts (r : ErrRec) : (s.report r).evicts = s.evicts := rfl
@[simp] theorem State.report_walkq (r : ErrRec) : (s.report r).walkq = s.walkq := rfl
@[simp] theorem State.report_invWait (r : ErrRec) : (s.report r).invWait = s.invWait := rfl
@[simp] theorem State.report_pagerTurn (r : ErrRec) : (s.report r).pagerTurn = s.pagerTurn := rfl
@[simp] theorem State.report_longTurn (r : ErrRec) : (s.report r).longTurn = s.longTurn := rfl
@[simp] theorem State.report_blockNext (r : ErrRec) : (s.report r).blockNext = s.blockNext := rfl
@[simp] theorem State.report_durable (r : ErrRec) : (s.report r).durable = s.durable := rfl
@[simp] theorem State.report_store (r : ErrRec) : (s.report r).store = s.store := rfl
@[simp] theorem State.report_evMsgs (r : ErrRec) : (s.report r).evMsgs = s.evMsgs := rfl
@[simp] theorem State.report_lockq (r : ErrRec) : (s.report r).lockq = s.lockq := rfl
@[simp] theorem State.report_applyq (r : ErrRec) : (s.report r).applyq = s.applyq := rfl
@[simp] theorem State.report_movSigs (r : ErrRec) : (s.report r).movSigs = s.movSigs := rfl
@[simp] theorem State.report_wounds (r : ErrRec) : (s.report r).wounds = s.wounds := rfl
@[simp] theorem State.report_mediaMarks (r : ErrRec) : (s.report r).mediaMarks = s.mediaMarks := rfl
@[simp] theorem State.report_endNotices (r : ErrRec) : (s.report r).endNotices = s.endNotices := rfl
@[simp] theorem State.report_refused (r : ErrRec) : (s.report r).refused = s.refused := rfl
@[simp] theorem State.report_wakes (r : ErrRec) : (s.report r).wakes = s.wakes := rfl
@[simp] theorem State.report_bounced (r : ErrRec) : (s.report r).bounced = s.bounced := rfl
@[simp] theorem State.report_devstat (r : ErrRec) : (s.report r).devstat = s.devstat := rfl
@[simp] theorem State.report_startNext (r : ErrRec) : (s.report r).startNext = s.startNext := rfl
@[simp] theorem State.report_startBlk (r : ErrRec) : (s.report r).startBlk = s.startBlk := rfl
@[simp] theorem State.report_aoTick (r : ErrRec) : (s.report r).aoTick = s.aoTick := rfl
@[simp] theorem State.report_out (r : ErrRec) : (s.report r).out = s.out := rfl
@[simp] theorem State.report_free (r : ErrRec) : (s.report r).free = s.free := rfl
@[simp] theorem State.report_pending (r : ErrRec) : (s.report r).pending = s.pending := rfl
@[simp] theorem State.report_eng (r : ErrRec) (i : EngId) : (s.report r).eng i = s.eng i := rfl
@[simp] theorem State.report_clu (r : ErrRec) (i : CluId) : (s.report r).clu i = s.clu i := rfl
@[simp] theorem State.report_slot (r : ErrRec) (i : SlotId) : (s.report r).slot i = s.slot i := rfl
@[simp] theorem State.report_fn (r : ErrRec) (i : FnId) : (s.report r).fn i = s.fn i := rfl
@[simp] theorem State.report_hedge (r : ErrRec) (i : HedgeId) : (s.report r).hedge i = s.hedge i := rfl
@[simp] theorem State.report_mover (r : ErrRec) (i : MovId) : (s.report r).mover i = s.mover i := rfl
@[simp] theorem State.report_port (r : ErrRec) (i : PortId) : (s.report r).port i = s.port i := rfl
@[simp] theorem State.report_sport (r : ErrRec) (i : StoragePort) : (s.report r).sport i = s.sport i := rfl
@[simp] theorem State.report_link (r : ErrRec) (i : LinkId) : (s.report r).link i = s.link i := rfl

@[simp] theorem State.modEng_eq (e : EngId) (f : _ → _) : s.modEng e f = s.setEng e (f (s.eng e)) := rfl
@[simp] theorem State.modClu_eq (k : CluId) (f : _ → _) : s.modClu k f = s.setClu k (f (s.clu k)) := rfl
@[simp] theorem State.modSlot_eq (n : SlotId) (f : _ → _) : s.modSlot n f = s.setSlot n (f (s.slot n)) := rfl
@[simp] theorem State.modHedge_eq (h : HedgeId) (f : _ → _) : s.modHedge h f = s.setHedge h (f (s.hedge h)) := rfl
@[simp] theorem State.modCtx_eq (e : EngId) (n : CtxId) (f : Ctx → Ctx) :
    s.modCtx e n f = s.setEng e ((s.eng e).setCtx n (f ((s.eng e).ctx n))) := rfl
@[simp] theorem State.emit_out (o : Out) : (s.emit o).out = s.out ++ [o] := rfl
@[simp] theorem State.report_errq (r : ErrRec) : (s.report r).errq = s.errq ++ [r] := rfl

@[simp] theorem Engine.setCtx_ctx_same (e : Engine) (n : CtxId) (c : Ctx) : (e.setCtx n c).ctx n = c := tget_tset_same _ _ _ _
theorem Engine.setCtx_ctx_ne (e : Engine) (n : CtxId) (c : Ctx) (m : CtxId) (ne : m ≠ n) : (e.setCtx n c).ctx m = e.ctx m :=
  tget_tset_ne _ _ _ _ (fun q => ne (Fin.ext q))

/-- A predictor flush for a hedge changes the flush registers and the free counter alone. -/
theorem State.flushFor_frame (h : HedgeId) : s.flushFor h = { s with regs := (s.flushFor h).regs, free := (s.flushFor h).free } := by
  unfold State.flushFor State.flushCore
  split <;> rfl

/-- Without PFLUSH there is none. -/
theorem State.flushFor_off (h : HedgeId) (p : (s.hedge h).par.pflush = false) : s.flushFor h = s := by
  simp [State.flushFor, p]

/-- Slow-path work waits for the bounce queue, and is done behind the hedge's flush otherwise. -/
theorem State.slowPath_cases (h : HedgeId) (f : State → State) :
    (s.bounced ≠ [] ∧ s.slowPath h f = s) ∨ (s.bounced = [] ∧ s.slowPath h f = f (s.flushFor h)) := by
  unfold State.slowPath
  split
  · exact .inr ⟨List.isEmpty_iff.1 ‹_›, rfl⟩
  · exact .inl ⟨fun k => by simp_all, rfl⟩

end Sys2Proof.Machine
end

