-- ==== Sys2Proof/Laws/Stack.lean ====
section
/-! SUPPORT. The operand stack as software sees it: pops and pushes, and that the spill unit never changes it (03 R86 to R91). -/

namespace Sys2Proof.Machine

/-! ### Cells of scratch -/

theorem sbFind_filter_ne (l : List (Nat × Cell)) {k j : Nat} (h : j ≠ k) :
    sbFind (l.filter fun kc => kc.1 != k) j = sbFind l j := by
  induction l with
  | nil => rfl
  | cons p l ih =>
    obtain ⟨i, c⟩ := p
    simp only [List.filter_cons]
    split
    · simp only [sbFind, ih]
    · next hp =>
      have hi : i = k := by simpa using hp
      have hij : ¬i = j := by omega
      simp only [sbFind, ih, if_neg hij]
      cases sbFind l j <;> rfl

theorem sbFind_filter_same (l : List (Nat × Cell)) (k : Nat) : sbFind (l.filter fun kc => kc.1 != k) k = none := by
  induction l with
  | nil => rfl
  | cons p l ih =>
    obtain ⟨i, c⟩ := p
    simp only [List.filter_cons]
    split
    · next hp =>
      have hi : ¬i = k := by simpa using hp
      simp only [sbFind, ih, if_neg hi]
    · exact ih

/-- A cell reads the same in engines that agree on scratch, latent errors and the store buffer. -/
theorem Engine.cell_congr {e f : Engine} (h1 : e.scratch = f.scratch) (h2 : e.latent = f.latent) (h3 : e.sb = f.sb) (k : Nat) :
    e.cell k = f.cell k := by
  simp only [Engine.cell, h1, h2, h3]

@[simp] theorem Engine.mark_cell (e : Engine) (k : Nat) (lo hi : Bool) (j : Nat) : (e.mark k lo hi).cell j = e.cell j := rfl

theorem Engine.writeThrough_cell_same (e : Engine) (k : Nat) (c : Cell) : (e.writeThrough k c).cell k = c := by
  unfold Engine.writeThrough
  rw [Engine.mark_cell]
  simp [Engine.cell, sbFind_filter_same, Engine.setScratch]

theorem Engine.writeThrough_cell_ne (e : Engine) {k j : Nat} (c : Cell) (h : j ≠ k) : (e.writeThrough k c).cell j = e.cell j := by
  unfold Engine.writeThrough
  rw [Engine.mark_cell]
  simp [Engine.cell, sbFind_filter_ne _ h, Engine.setScratch, tget_tset_ne _ _ _ _ h]

/-- Meeting a latent error changes no cell as software reads it. -/
@[simp] theorem Engine.meet_cell (e : Engine) (k j : Nat) : (e.meet k).cell j = e.cell j := by
  unfold Engine.meet
  split
  · rfl
  · next hs =>
    split
    · rfl
    · next hl =>
      by_cases h : j = k
      · subst h; simp [Engine.cell, hl]
      · simp [Engine.cell, tget_tset_ne _ _ _ _ h]
    · next hl =>
      by_cases h : j = k
      · subst h
        have : sbFind e.sb j = none := by simpa using hs
        simp [Engine.cell, hl, this]
      · simp [Engine.cell, tget_tset_ne _ _ _ _ h]

@[simp] theorem Engine.setCtx_cell (e : Engine) (n : CtxId) (c : Ctx) (k : Nat) : (e.setCtx n c).cell k = e.cell k := rfl
@[simp] theorem Engine.issued_cell (e : Engine) (n : CtxId) (h : HedgeId) (k : Nat) : (e.issued n h).cell k = e.cell k := rfl
@[simp] theorem Engine.setUnit_cell (e : Engine) (u : IterUnit) (v : Option CtxId) (k : Nat) : (e.setUnit u v).cell k = e.cell k := by
  cases u <;> rfl
@[simp] theorem Engine.capture_cell (e : Engine) (c : Ctx) (n k : Nat) : (e.capture c n).cell k = e.cell k := by
  unfold Engine.capture; repeat' split
  all_goals rfl

/-! ### Stacks -/

/-- The stack depends on the engine through its cells, and on the context through four fields. -/
theorem stackOf_congr {e f : Engine} {c d : Ctx} (hc : ∀ k, e.cell k = f.cell k) (h1 : c.depth = d.depth) (h2 : c.win = d.win)
    (h3 : c.osb = d.osb) : stackOf e c = stackOf f d := by
  have h : stackTop e c = stackTop f d := by funext i; simp only [stackTop, Ctx.stackSlot, h1, h2, h3, hc]
  simp only [stackOf, h, h1]

theorem stackOf_length (e : Engine) (c : Ctx) : (stackOf e c).length = c.depth.toNat := by simp [stackOf]

theorem stackOf_getElem (e : Engine) (c : Ctx) (i : Nat) (h : i < (stackOf e c).length) : (stackOf e c)[i] = stackTop e c i := by
  simp [stackOf]

/-- The cell at a place of the stack, as instructions read it. -/
theorem stackTop_eq {e : Engine} {c : Ctx} {l : List Cell} (h : stackOf e c = l) {i : Nat} (hi : i < l.length) :
    stackTop e c i = l[i] := by
  subst h; rw [stackOf_getElem]

/-- Popping and pushing. -/
theorem stackOf_popPush (e : Engine) (c : Ctx) (p : Nat) (qs : List Cell) (hp : p ≤ c.depth.toNat)
    (hq : c.depth.toNat - p + qs.length < 2 ^ 15) :
    stackOf e (c.popPush p qs) = qs.reverse ++ (stackOf e c).drop p := by
  have hd : (c.popPush p qs).depth.toNat = c.depth.toNat - p + qs.length := by
    simp only [Ctx.popPush, BitVec.toNat_ofNat]; exact Nat.mod_eq_of_lt hq
  apply List.ext_getElem
  · simp [stackOf_length, hd]; omega
  · intro i h1 h2
    rw [stackOf_length, hd] at h1
    rw [stackOf_getElem]
    by_cases hi : i < qs.length
    · rw [List.getElem_append_left (by simpa using hi)]
      simp only [stackTop, Ctx.popPush]
      rw [List.getElem?_append_left (by simpa using hi), List.getElem?_eq_getElem (by simpa using hi)]
    · rw [List.getElem_append_right (by simp; omega), List.getElem_drop, stackOf_getElem]
      simp only [stackTop, Ctx.popPush, List.length_reverse]
      rw [List.getElem?_append_right (by simp; omega)]
      simp only [List.length_reverse, List.getElem?_drop]
      have e1 : p + (i - qs.length) = p + (i - qs.length) := rfl
      cases hw : c.win[p + (i - qs.length)]? with
      | some x => rfl
      | none =>
        simp only [Ctx.stackSlot, BitVec.toNat_ofNat]
        rw [Nat.mod_eq_of_lt hq]
        congr 2
        omega

theorem spillOne_stackOf (e : Engine) (c : Ctx) : stackOf (spillOne e c).1 (spillOne e c).2 = stackOf e c := by
  unfold spillOne
  split
  · rfl
  · next x hx =>
    have hlen : 0 < c.win.length := by
      cases hw : c.win with
      | nil => simp [hw] at hx
      | cons => simp
    have hlast : c.win[c.win.length - 1]? = some x := by
      rw [List.getLast?_eq_getElem?] at hx; exact hx
    simp only [stackOf]
    apply List.map_congr_left
    intro i hi
    have hi : i < c.depth.toNat := by simpa using hi
    simp only [stackTop, Ctx.stackSlot]
    by_cases h1 : i < c.win.length - 1
    · rw [List.getElem?_dropLast, if_pos h1]
      have h2 : i < c.win.length := by omega
      simp only [List.getElem?_eq_getElem h2]
    · have hn : c.win.dropLast[i]? = none := by rw [List.getElem?_eq_none_iff]; simp; omega
      rw [hn]
      by_cases h2 : i = c.win.length - 1
      · subst h2
        rw [hlast]
        have : c.depth.toNat - 1 - (c.win.length - 1) = c.depth.toNat - c.win.length := by omega
        simp only [this]
        exact Engine.writeThrough_cell_same ..
      · have hn2 : c.win[i]? = none := by rw [List.getElem?_eq_none_iff]; omega
        rw [hn2]
        exact Engine.writeThrough_cell_ne _ _ (by omega)

theorem fillOne_stackOf (e : Engine) (c : Ctx) (h : c.win.length < c.depth.toNat) :
    stackOf (fillOne e c).1 (fillOne e c).2 = stackOf e c := by
  simp only [fillOne, stackOf]
  apply List.map_congr_left
  intro i hi
  simp only [stackTop, Ctx.stackSlot, Engine.meet_cell]
  by_cases h1 : i < c.win.length
  · rw [List.getElem?_append_left h1]
  · rw [List.getElem?_append_right (by omega)]
    have hn : c.win[i]? = none := by rw [List.getElem?_eq_none_iff]; omega
    rw [hn]
    by_cases h2 : i = c.win.length
    · subst h2
      have : c.depth.toNat - c.win.length - 1 = c.depth.toNat - 1 - c.win.length := by omega
      simp [this]
    · have : [e.cell (c.osb.toNat / 16 + (c.depth.toNat - c.win.length - 1))][i - c.win.length]? = none := by
        rw [List.getElem?_eq_none_iff]; simp; omega
      rw [this]

/-- The spill unit changes nothing that software sees. -/
theorem settle_stackOf (n : Nat) : ∀ (e : Engine) (c : Ctx), stackOf (settle n e c).1 (settle n e c).2 = stackOf e c := by
  induction n with
  | zero => intros; rfl
  | succ n ih =>
    intro e c
    unfold settle
    split
    · rw [ih, spillOne_stackOf]
    · split
      · next h => rw [ih, fillOne_stackOf]; simp at h; exact h.2
      · rfl

/-- What the spill unit leaves of a context: all but the window. -/
theorem settle_ctx (n : Nat) : ∀ (e : Engine) (c : Ctx), (settle n e c).2 = { c with win := (settle n e c).2.win } := by
  induction n with
  | zero => intros; rfl
  | succ n ih =>
    intro e c
    unfold settle
    split
    · rw [ih]; unfold spillOne; split <;> rfl
    · split
      · rw [ih]; rfl
      · rfl

/-- Cells outside the context's stack are not the spill unit's. -/
theorem settle_cell (n : Nat) : ∀ (e : Engine) (c : Ctx) (k : Nat),
    ¬(c.osb.toNat / 16 ≤ k ∧ k ≤ c.osb.toNat / 16 + c.depth.toNat) → (settle n e c).1.cell k = e.cell k := by
  induction n with
  | zero => intros; rfl
  | succ n ih =>
    intro e c k hk
    unfold settle
    split
    · have h : (spillOne e c).2.osb = c.osb ∧ (spillOne e c).2.depth = c.depth := by
        unfold spillOne; split <;> exact ⟨rfl, rfl⟩
      rw [ih _ _ k (by rw [h.1, h.2]; exact hk)]
      unfold spillOne
      split
      · rfl
      · exact Engine.writeThrough_cell_ne _ _ (by simp only [Ctx.stackSlot]; omega)
    · split
      · rw [ih _ _ k (by simpa [fillOne] using hk)]; simp [fillOne]
      · rfl

end Sys2Proof.Machine
end

