-- ==== Sys2Proof/Laws/Issue.lean ====
section
/-! SUPPORT. What the issue of an instruction can do: one lemma for an instruction that passes its checks, one for each check that
refuses it (05 R141). -/

namespace Sys2Proof.Machine

/-! ### After the body -/

@[simp] theorem Ctx.ehStep_depth (c : Ctx) : c.ehStep.depth = c.depth := by
  unfold Ctx.ehStep; (repeat' split) <;> rfl
theorem viewOf_ehStep (e : Engine) (c : Ctx) : viewOf e c.ehStep = viewOf e c := by
  unfold Ctx.ehStep; (repeat' split) <;> rfl
theorem viewOf_busyFor (e : Engine) (c : Ctx) (n : Nat) : viewOf e (c.busyFor n) = viewOf e c := by
  unfold Ctx.busyFor Ctx.ehBound; (repeat' split) <;> rfl

theorem viewOf_congr {e f : Engine} (hc : ∀ k, e.cell k = f.cell k) (c : Ctx) : viewOf e c = viewOf f c := by
  have := stackOf_congr (c := c) (d := c) hc rfl rfl rfl
  simp only [viewOf, this]

theorem settle_viewOf (n : Nat) (e : Engine) (c : Ctx) : viewOf (settle n e c).1 (settle n e c).2 = viewOf e c := by
  have h1 := settle_stackOf n e c
  have h2 := settle_ctx n e c
  simp only [viewOf, h1]
  rw [h2]

/-- The engine after `finish`: which fields differ. -/
theorem settle_eng (n : Nat) : ∀ (e : Engine) (c : Ctx), ∃ sc ma la sb sce sue ecc,
    (settle n e c).1 = { e with scratch := sc, marks := ma, latent := la, sb := sb, sce := sce, sue := sue, eccLast := ecc } := by
  induction n with
  | zero => intro e c; exact ⟨_, _, _, _, _, _, _, rfl⟩
  | succ n ih =>
    intro e c
    unfold settle
    split
    · obtain ⟨sc, ma, la, sb, x, y, z, h⟩ := ih (spillOne e c).1 (spillOne e c).2
      rw [h]; unfold spillOne; split <;> exact ⟨_, _, _, _, _, _, _, rfl⟩
    · split
      · obtain ⟨sc, ma, la, sb, x, y, z, h⟩ := ih (fillOne e c).1 (fillOne e c).2
        rw [h]; unfold fillOne Engine.meet; dsimp only; repeat' split
        all_goals exact ⟨_, _, _, _, _, _, _, rfl⟩
      · exact ⟨_, _, _, _, _, _, _, rfl⟩

/-- The registers and the role of an engine, which no instruction's end touches. -/
def SameRegs (e f : Engine) : Prop :=
  (e.hedge = f.hedge ∧ e.role = f.role ∧ e.assigned = f.assigned ∧ e.epoch = f.epoch ∧ e.clearing = f.clearing) ∧
  (e.strict = f.strict ∧ e.rso = f.rso ∧ e.swinBase = f.swinBase ∧ e.swinSize = f.swinSize ∧ e.cptBase = f.cptBase ∧
    e.cptCount = f.cptCount ∧ e.wdogLimit = f.wdogLimit ∧ e.itlb = f.itlb ∧ e.dtlb = f.dtlb ∧ e.inbox = f.inbox)

theorem SameRegs.refl (e : Engine) : SameRegs e e := ⟨⟨rfl, rfl, rfl, rfl, rfl⟩, rfl, rfl, rfl, rfl, rfl, rfl, rfl, rfl, rfl, rfl⟩

theorem SameRegs.trans {e f g : Engine} (h : SameRegs e f) (k : SameRegs f g) : SameRegs e g := by
  obtain ⟨⟨a, b, c, d, e'⟩, a1, a2, a3, a4, a5, a6, a7, a8, a9, a10⟩ := h
  obtain ⟨⟨p, q, r, s, t⟩, p1, p2, p3, p4, p5, p6, p7, p8, p9, p10⟩ := k
  exact ⟨⟨a.trans p, b.trans q, c.trans r, d.trans s, e'.trans t⟩, a1.trans p1, a2.trans p2, a3.trans p3, a4.trans p4, a5.trans p5,
    a6.trans p6, a7.trans p7, a8.trans p8, a9.trans p9, a10.trans p10⟩

theorem SameRegs.setUnit (e : Engine) (u : IterUnit) (v : Option CtxId) : SameRegs (e.setUnit u v) e := by
  cases u <;> exact SameRegs.refl _

@[simp] theorem Engine.setUnit_ctx (e : Engine) (u : IterUnit) (v : Option CtxId) (m : CtxId) : (e.setUnit u v).ctx m = e.ctx m := by
  cases u <;> rfl
@[simp] theorem Engine.issued_ctx (e : Engine) (n m : CtxId) (h : HedgeId) : (e.issued n h).ctx m = e.ctx m := rfl
theorem SameRegs.issued (e : Engine) (n : CtxId) (h : HedgeId) : SameRegs (e.issued n h) e := SameRegs.refl _
theorem SameRegs.setCtx (e : Engine) (n : CtxId) (c : Ctx) : SameRegs (e.setCtx n c) e := SameRegs.refl _

/-- `finish` puts the settled context into place; giving it a unit changes nothing else. -/
theorem finish_cases (e : Engine) (n : CtxId) (h : HedgeId) (c : Ctx) (count : Nat) (u : Option IterUnit) :
    (∀ m, (finish e n h c count u).ctx m =
      ((settle 5 e (c.ehStep.busyFor count)).1.setCtx n (settle 5 e (c.ehStep.busyFor count)).2).ctx m) ∧
    (∀ k, (finish e n h c count u).cell k = (settle 5 e (c.ehStep.busyFor count)).1.cell k) ∧
    SameRegs (finish e n h c count u) (settle 5 e (c.ehStep.busyFor count)).1 := by
  unfold finish
  generalize settle 5 e (c.ehStep.busyFor count) = r
  have hr : SameRegs ((r.1.setCtx n r.2).issued n h) r.1 := (SameRegs.issued _ _ _).trans (SameRegs.setCtx _ _ _)
  dsimp only
  split
  · split
    · exact ⟨fun m => by simp, fun k => by simp, (SameRegs.setUnit _ _ _).trans hr⟩
    · exact ⟨fun m => by simp, fun k => by simp, hr⟩
  · exact ⟨fun m => by simp, fun k => by simp, hr⟩

/-- `finish` leaves the view of the context, the other contexts, the registers, and the cells outside the stack. -/
theorem finish_spec (e : Engine) (n : CtxId) (g : HedgeId) (c : Ctx) (count : Nat) (u : Option IterUnit) :
    viewOf (finish e n g c count u) ((finish e n g c count u).ctx n) = viewOf e c ∧
    (∀ m, m ≠ n → (finish e n g c count u).ctx m = e.ctx m) ∧ SameRegs (finish e n g c count u) e ∧
    (∀ k, ¬(viewOf e c).ownsCell k → (finish e n g c count u).cell k = e.cell k) := by
  obtain ⟨hc, hcell, hregs⟩ := finish_cases e n g c count u
  generalize finish e n g c count u = z0 at *
  obtain ⟨sc, ma, la, sb, x, y, z, h⟩ := settle_eng 5 e (c.ehStep.busyFor count)
  refine ⟨?_, ?_, ?_, ?_⟩
  · rw [viewOf_congr hcell, hc, Engine.setCtx_ctx_same, settle_viewOf, viewOf_busyFor, viewOf_ehStep]
  · intro m hm
    rw [hc, Engine.setCtx_ctx_ne _ _ _ _ hm, h]; rfl
  · refine hregs.trans ?_
    rw [h]; exact SameRegs.refl _
  · intro k hk
    rw [hcell]
    apply settle_cell
    have h1 : (c.ehStep.busyFor count).osb = c.osb := congrArg View.osb ((viewOf_busyFor e _ _).trans (viewOf_ehStep e c))
    have h2 : (c.ehStep.busyFor count).depth = c.depth := by
      rw [← Ctx.ehStep_depth c]; unfold Ctx.busyFor Ctx.ehBound; (repeat' split) <;> rfl
    rw [h1, h2]
    intro hh; apply hk
    simp only [View.ownsCell, viewOf, stackOf_length]
    exact hh

/-! ### Issue -/

/-- A SCRATCH record changes the error queue and the free counter only. -/
theorem scratchRecord_cases (s old : State) (e : EngId) :
    ∃ q f, s.scratchRecord old e = { s with errq := s.errq ++ q, free := f } := by
  unfold State.scratchRecord
  dsimp only
  split <;> split
  · exact ⟨[], s.free, by simp⟩
  · exact ⟨_, _, rfl⟩
  · exact ⟨_, _, rfl⟩
  · exact ⟨_, _, by simp only [State.report, List.append_assoc]; rfl⟩

/-- An issue that meets no correctable error adds nothing (16 R514). -/
theorem corrected_none {s old : State} {x : Iss} {o : OpInfo} (h : old.meetsSoft x o = false) : s.corrected old x o = s := by
  simp only [State.meetsSoft, State.ctxAt, Bool.or_eq_false_iff, Bool.and_eq_false_iff, Bool.not_eq_false'] at h
  obtain ⟨h1, h2⟩ := h
  have hs : (((old.eng x.eng).ctx x.ctx).soft.filter (((old.eng x.eng).ctx x.ctx).damageRead o)) = [] := by
    rw [List.filter_eq_nil_iff]
    intro d hd hh
    rw [List.any_eq_false] at h2
    exact h2 d hd hh
  unfold State.corrected
  dsimp only
  split
  · rfl
  · rcases h1 with h1 | h1
    · rw [h1]; simp [hs]
    · have hw : ((old.clu (cluOf x.eng)).softCode.filter fun w =>
          overlaps ((old.eng x.eng).ctx x.ctx).pc.toNat (o.len x.px) (16 * w) (16 * w + 16)) = [] := by
        rw [List.filter_eq_nil_iff]
        intro d hd hh
        rw [List.any_eq_false] at h1
        exact h1 d hd hh
      rw [hw, hs]
      simp

/-- What `issues` says, one condition at a time. -/
theorem issues_parts {s : State} {x : Iss} {o : OpInfo} (h : s.issues x o = true) :
    (s.running x.eng && (s.eng x.eng).mayIssue x.ctx) = true ∧
      (s.eng x.eng).fetchClosed (s.ctxAt x).pc.toNat (o.len x.px) = none ∧
      (!(s.eng x.eng).looped (s.ctxAt x).pc.toNat (o.len x.px) &&
        (s.clu (cluOf x.eng)).fetchBad (s.ctxAt x).pc.toNat (o.len x.px)) = false ∧
      o.early x.px (s.ctxAt x) = none ∧ (s.ctxAt x).annulled = false ∧ o.stkFault (s.ctxAt x) = none ∧
      (s.ctxAt x).readsDamage o = false ∧ s.meetsSoft x o = false := by
  simp only [State.issues, Bool.and_eq_true, Bool.or_eq_true, Option.isNone_iff_eq_none, Bool.not_eq_eq_eq_not, Bool.not_true] at h
  obtain ⟨⟨⟨⟨⟨⟨⟨⟨h0, h1⟩, h2⟩, h3⟩, h4⟩, h5⟩, h6⟩, h7⟩, h8⟩ := h
  refine ⟨by rw [h0, h1]; rfl, h2, ?_, h4, h5, h6, h7, h8⟩
  rcases h3 with h3 | h3 <;> simp [h3]

/-- An instruction that passes its checks: its body's answer takes effect (05 R141). -/
theorem issue_ok {s : State} {x : Iss} {o : OpInfo} {op : Nat} {body : Env → Engine → Ctx → Except SFault Done}
    {post : State → State} {d : Done} (hr : s.issues x o = true)
    (hb : body (o.env x (s.ctxAt x)) (s.eng x.eng) { s.ctxAt x with pc := s.nextPc x o, pb := none } = .ok d)
    (hd : d.unit = some .ucode → (s.ctxAt x).readsUcode (s.clu (cluOf x.eng)) op d.count = false) :
    ∃ ws, s.issue x o op body post =
      ((s.complete x (s.ctxAt x) o op d post).scratchRecord s x.eng).ucodeMet (cluOf x.eng) ws ∧ (d.unit ≠ some .ucode → ws = []) := by
  obtain ⟨h1, h2, h3, h4, h5, h6, h7, h8⟩ := issues_parts hr
  unfold State.issue
  rw [corrected_none h8]
  unfold State.attempt
  simp only [State.ctxAt, State.nextPc] at *
  rw [h1]
  simp only [Bool.not_true, Bool.false_eq_true, if_false, h2, h3, h4, h6, h7]
  split
  · next a hp => simp [Ctx.annulled, hp] at h5
  · rw [hb]
    simp only
    rw [if_neg]
    · exact ⟨_, rfl, fun hn => by simp [hn]⟩
    · intro hh
      simp only [Bool.and_eq_true, decide_eq_true_eq] at hh
      rw [hd hh.1] at hh
      exact absurd hh.2 (by simp)

/-- The body refuses: the context vectors (05 R141). -/
theorem issue_error {s : State} {x : Iss} {o : OpInfo} {op : Nat} {body : Env → Engine → Ctx → Except SFault Done}
    {post : State → State} {f : SFault} (hr : s.issues x o = true)
    (hb : body (o.env x (s.ctxAt x)) (s.eng x.eng) { s.ctxAt x with pc := s.nextPc x o, pb := none } = .error f) :
    s.issue x o op body post = s.faults x f := by
  obtain ⟨h1, h2, h3, h4, h5, h6, h7, h8⟩ := issues_parts hr
  unfold State.issue
  rw [corrected_none h8]
  unfold State.attempt State.faults State.issuing
  simp only [State.ctxAt, State.nextPc] at *
  rw [h1]
  simp only [Bool.not_true, Bool.false_eq_true, if_false, h2, h3, h4, h6, h7]
  split
  · next a hp => simp [Ctx.annulled, hp] at h5
  · rw [hb]

/-- What `complete` makes of an answer that uses no iterative unit, or a unit that is ready. -/
theorem complete_ok {s : State} {x : Iss} {o : OpInfo} {op : Nat} {d : Done} {post : State → State}
    (hu : ∀ u, d.unit = some u → s.unitReady x op u d.count = true) :
    ∃ (c : Ctx) (h : HedgeId), (∀ e, viewOf e c = viewOf e d.ctx) ∧
      s.complete x (s.ctxAt x) o op d post =
        post (s.setEng x.eng (finish (d.eng.capture (s.ctxAt x) ((s.ctxAt x).pc.toNat + o.len x.px)) x.ctx h c d.count d.unit)) := by
  have hbusy : (s.eng x.eng).unitTaken d.unit x.ctx = false := by
    cases hd : d.unit with
    | none => rfl
    | some u =>
      have := hu u hd
      simp only [State.unitReady, Bool.and_eq_true, Bool.or_eq_true, beq_iff_eq] at this
      rcases this.1 with h | h <;> simp [Engine.unitTaken, h]
  have hov : (if d.unit = some .ucode then (s.clu (cluOf x.eng)).overrun op d.count else none) = none := by
    split
    · next h =>
      have := hu _ h
      simp only [State.unitReady, Bool.and_eq_true, Bool.or_eq_true] at this
      have h2 := this.2
      simp at h2
      exact h2.1.1
    · rfl
  unfold State.complete
  rw [hbusy, hov, if_neg Bool.false_ne_true]
  exact ⟨d.final o (s.ctxAt x), (s.slot (s.ctxAt x).slot).hedge, fun _ => rfl, rfl⟩

/-- A cluster without correctable microcode errors meets none (15 R505). -/
theorem ucodeMet_none {s : State} {k : CluId} {ws : List UAddr} (h : ws = [] ∨ (s.clu k).softUcode = []) : s.ucodeMet k ws = s := by
  unfold State.ucodeMet
  rcases h with h | h
  · subst h
    rw [List.filter_eq_nil_iff.mpr]
    · rfl
    · intro d _; cases d <;> simp
  · rw [h]; rfl

/-- The scratch of an answer, cell by cell, against the engine before. -/
def Keeps (e f : Engine) (stored : Nat → Prop) : Prop :=
  f.ctxs = e.ctxs ∧ SameRegs f e ∧ ∀ k, ¬stored k → f.cell k = e.cell k

theorem Keeps.refl (e : Engine) : Keeps e e fun _ => False := ⟨rfl, SameRegs.refl _, fun _ _ => rfl⟩

/-- The one lemma for instructions that act on their own context and on scratch: the view they leave, and what they keep. -/
theorem issue_quiet {s : State} {x : Iss} {o : OpInfo} {op : Nat} {body : Env → Engine → Ctx → Except SFault Done} {d : Done}
    {stored : Nat → Prop} (hr : s.issues x o = true)
    (hb : body (o.env x (s.ctxAt x)) (s.eng x.eng) { s.ctxAt x with pc := s.nextPc x o, pb := none } = .ok d)
    (hu : ∀ u, d.unit = some u → s.unitReady x op u d.count = true) (hk : Keeps (s.eng x.eng) d.eng stored) :
    (s.issue x o op body id).view x = viewOf d.eng d.ctx ∧ Quiet s (s.issue x o op body id) x ∧
      ScratchKept s (s.issue x o op body id) x stored ∧
      ∀ k, ¬(viewOf d.eng d.ctx).ownsCell k → ((s.issue x o op body id).eng x.eng).cell k = d.eng.cell k := by
  have hd : d.unit = some .ucode →
      (s.ctxAt x).readsUcode (s.clu (cluOf x.eng)) op d.count = false ∧ (s.clu (cluOf x.eng)).softUcode = [] := by
    intro h
    have := hu _ h
    simp only [State.unitReady, Bool.and_eq_true, Bool.or_eq_true] at this
    have h2 := this.2
    simp at h2
    exact ⟨h2.1.2, h2.2⟩
  obtain ⟨c, h0, hc, heq⟩ := complete_ok (s := s) (x := x) (o := o) (op := op) (d := d) (post := id) hu
  obtain ⟨ws, hs, hw⟩ := issue_ok (post := id) (op := op) hr hb fun h => (hd h).1
  rw [heq] at hs
  obtain ⟨q, f, hq⟩ := scratchRecord_cases
    (id (s.setEng x.eng (finish (d.eng.capture (s.ctxAt x) ((s.ctxAt x).pc.toNat + o.len x.px)) x.ctx h0 c d.count d.unit))) s x.eng
  rw [hq, ucodeMet_none] at hs
  swap
  · by_cases h : d.unit = some .ucode
    · exact .inr (hd h).2
    · exact .inl (hw h)
  have hcap : ∀ k, (d.eng.capture (s.ctxAt x) ((s.ctxAt x).pc.toNat + o.len x.px)).cell k = d.eng.cell k := fun k => Engine.capture_cell ..
  have hcapR : SameRegs (d.eng.capture (s.ctxAt x) ((s.ctxAt x).pc.toNat + o.len x.px)) d.eng := by
    unfold Engine.capture; repeat' split
    all_goals exact SameRegs.refl _
  have hcapC : (d.eng.capture (s.ctxAt x) ((s.ctxAt x).pc.toNat + o.len x.px)).ctxs = d.eng.ctxs := by
    unfold Engine.capture; repeat' split
    all_goals rfl
  obtain ⟨f1, f2, f3, f4⟩ := finish_spec (d.eng.capture (s.ctxAt x) ((s.ctxAt x).pc.toNat + o.len x.px)) x.ctx h0 c d.count d.unit
  generalize hE : finish (d.eng.capture (s.ctxAt x) ((s.ctxAt x).pc.toNat + o.len x.px)) x.ctx h0 c d.count d.unit = E at *
  have heng : (s.issue x o op body id).eng x.eng = E := by rw [hs]; exact State.setEng_eng_same ..
  have hview : (s.issue x o op body id).view x = viewOf d.eng d.ctx := by
    unfold State.view State.ctxAt
    rw [heng, f1, hc, viewOf_congr hcap]
  have hown : ∀ k, ¬(viewOf d.eng d.ctx).ownsCell k → E.cell k = d.eng.cell k := by
    intro k hk'
    rw [f4 k, hcap]
    rw [hc, viewOf_congr hcap]; exact hk'
  refine ⟨hview, ?_, ?_, ?_⟩
  · have hreg : SameRegs E (s.eng x.eng) := (f3.trans hcapR).trans hk.2.1
    refine ⟨?_, ?_, ?_, ?_, ?_, ?_⟩
    · rw [hs]; rfl
    · rw [hs]; exact List.prefix_append _ _
    · intro e he; rw [hs]; exact State.setEng_eng_ne _ _ _ _ he
    · intro n hn; rw [heng, f2 n hn]; simp only [Engine.ctx, hcapC, hk.1]
    · rw [heng]; exact hreg.1
    · rw [heng]; exact hreg.2
  · intro k h1 h2
    rw [hview] at h1
    rw [heng, hown k h1]; exact hk.2.2 k h2
  · intro k h1; rw [heng]; exact hown k h1

/-- An instruction that passes the stack check has its operands and room for its results, and DEPTH does not overflow (03 R88). -/
theorem issues_depth {s : State} {x : Iss} {o : OpInfo} (h : s.issues x o = true) :
    o.pops ≤ (s.ctxAt x).depth.toNat ∧ (s.ctxAt x).depth.toNat - o.pops + o.pushes < 2 ^ 15 := by
  have h6 := (issues_parts h).2.2.2.2.2.1
  unfold OpInfo.stkFault at h6
  split at h6
  · cases h6
  · split at h6
    · cases h6
    · have : (s.ctxAt x).capacity ≤ 16384 := by
        unfold Ctx.capacity regionSize boundOf scratchEnd
        have := (s.ctxAt x).osl.isLt
        split <;> omega
      omega

/-- The context that a body receives. -/
def State.bodyCtx (s : State) (x : Iss) (o : OpInfo) : Ctx := { s.ctxAt x with pc := s.nextPc x o, pb := none }

/-- A body reads the operands that the view shows. -/
theorem bodyCtx_stackTop {s : State} {x : Iss} {o : OpInfo} {l : List Cell} (h : (s.view x).stack = l) {i : Nat} (hi : i < l.length) :
    stackTop (s.eng x.eng) (s.bodyCtx x o) i = l[i] := stackTop_eq (e := s.eng x.eng) (c := s.ctxAt x) h hi

/-- An instruction whose body only pops and pushes cells does that and nothing else. -/
theorem does_popPush {i : Instr} {s : State} {x : Iss} {o : OpInfo} {op : Nat} {body : Env → Engine → Ctx → Except SFault Done} {d : Done}
    {qs : List Cell} (hex : exec i s = .next (s.issue x o op body id)) (hi : s.issues x o = true)
    (hb : body (o.env x (s.ctxAt x)) (s.eng x.eng) (s.bodyCtx x o) = .ok d) (he : d.eng = s.eng x.eng)
    (hc : d.ctx = (s.bodyCtx x o).popPush o.pops qs) (hq : o.pushes = qs.length)
    (hu : ∀ u, d.unit = some u → s.unitReady x op u d.count = true) :
    Does i s x (s.moved x o (qs.reverse ++ (s.view x).stack.drop o.pops)) := by
  have hd := issues_depth hi
  obtain ⟨h1, h2, h3, _⟩ := issue_quiet (op := op) (stored := fun _ => False) hi hb hu (by rw [he]; exact Keeps.refl _)
  refine ⟨_, hex, ⟨h1.trans ?_, h2, h3⟩⟩
  rw [he, hc]
  have := stackOf_popPush (s.eng x.eng) (s.bodyCtx x o) o.pops qs hd.1 (hq ▸ hd.2)
  simp only [viewOf, State.moved, State.view, View.mk.injEq, this]
  simp [State.bodyCtx, Ctx.popPush, stackOf, State.ctxAt]
  rfl

end Sys2Proof.Machine
end

