-- ==== Sys2Proof/Laws/Memory.lean ====
section
/-! SUPPORT. The laws of the memories: what a write makes of each byte, and that every operation over them keeps the canonical form. -/

namespace Sys2Proof.Machine

/-- The three memories are in canonical form. -/
theorem memOk_iff (s : State) : s.memOk = true ↔ Memory.wf s.hbm = true ∧ Memory.wf s.ccm = true ∧ Memory.wf s.disk = true := by
  simp [State.memOk, and_assoc]

/-- What leaves the memories alone keeps their form. -/
theorem memOk_congr {s t : State} (h1 : t.hbm = s.hbm) (h2 : t.ccm = s.ccm) (h3 : t.disk = s.disk) : t.memOk = s.memOk := by
  simp [State.memOk, h1, h2, h3]

theorem reset_memOk : State.reset.memOk = true := rfl

/-! ### Bytes written and read -/

/-- A run of entries written reads as the values written, and every other entry reads as before. -/
theorem tget_tsetRun {α : Type} [DecidableEq α] (d : α) (vs : List α) : ∀ (t : Tab α) (i j : Nat),
    tget d (tsetRun d t i vs) j = if i ≤ j ∧ j < i + vs.length then vs.getD (j - i) d else tget d t j := by
  induction vs with
  | nil => intro t i j; simp [tsetRun]
  | cons v vs ih =>
    intro t i j
    rw [tsetRun, ih, List.length_cons]
    by_cases h1 : j = i
    · subst h1
      rw [if_neg (by omega), if_pos (by omega), tget_tset_same]
      simp
    · rw [tget_tset_ne _ _ _ _ h1]
      by_cases h2 : i + 1 ≤ j ∧ j < i + 1 + vs.length
      · rw [if_pos h2, if_pos (by omega)]
        obtain ⟨k, hk⟩ : ∃ k, j - i = k + 1 := ⟨j - i - 1, by omega⟩
        rw [hk, List.getD_cons_succ]
        congr 1; omega
      · rw [if_neg h2, if_neg (by omega)]

/-- A write of HBM bytes reads back, and every other byte reads as before. -/
theorem hbmByte_hbmWrite (s : State) (a : Nat) (bs : List Byte) (pz : Bool) (b : Nat) :
    (s.hbmWrite a bs pz).hbmByte b = if a ≤ b ∧ b < a + bs.length then bs.getD (b - a) 0 else s.hbmByte b :=
  tget_tsetRun 0 bs s.hbm a b

/-! ### The canonical form -/

section
variable {s : State} (h : s.memOk = true)
include h

theorem memOk_hbm {m : Tab Byte} (hm : Memory.wf m = true) : ({ s with hbm := m } : State).memOk = true := by
  rw [memOk_iff] at h ⊢; exact ⟨hm, h.2⟩

theorem memOk_ccm {m : Tab Byte} (hm : Memory.wf m = true) : ({ s with ccm := m } : State).memOk = true := by
  rw [memOk_iff] at h ⊢; exact ⟨h.1, hm, h.2.2⟩

theorem memOk_disk {m : Tab Byte} (hm : Memory.wf m = true) : ({ s with disk := m } : State).memOk = true := by
  rw [memOk_iff] at h ⊢; exact ⟨h.1, h.2.1, hm⟩

theorem hbmWrite_memOk (a : Nat) (bs : List Byte) (pz : Bool) : (s.hbmWrite a bs pz).memOk = true := by
  rw [memOk_iff] at h ⊢; exact ⟨twf_tsetRun bs h.1, h.2⟩

theorem hbmPut_memOk (a n v : Nat) : (s.hbmPut a n v).memOk = true := hbmWrite_memOk h a _ _

theorem hbmZero_memOk (a n : Nat) : (s.hbmZero a n).memOk = true := by
  rw [memOk_iff] at h ⊢; exact ⟨twf_tclear a n h.1, h.2⟩

theorem diskToHbm_memOk (port block a n : Nat) : (s.diskToHbm port block a n).memOk = true := by
  rw [memOk_iff] at h ⊢; exact ⟨twf_tcopy a n _ h.1 h.2.2, h.2⟩

theorem hbmToDisk_memOk (port block a n : Nat) : (s.hbmToDisk port block a n).memOk = true := by
  rw [memOk_iff] at h ⊢; exact ⟨h.1, h.2.1, twf_tcopy _ n a h.2.2 h.1⟩

theorem hbmMove_memOk (src dst n : Nat) : (s.hbmMove src dst n).memOk = true := by
  rw [memOk_iff] at h ⊢; exact ⟨twf_tcopy dst n src h.1 h.1, h.2⟩
end

/-- A fold of operations each of which keeps the form keeps it. -/
theorem foldl_memOk {α : Type} {f : State → α → State} (hf : ∀ s a, s.memOk = true → (f s a).memOk = true) (l : List α) :
    ∀ s : State, s.memOk = true → (l.foldl f s).memOk = true := by
  induction l with
  | nil => exact fun _ h => h
  | cons a l ih => exact fun s h => ih _ (hf s a h)

theorem setFrames_memOk {s : State} (h : s.memOk = true) (frame n fe : Nat) : (s.setFrames frame n fe).memOk = true :=
  foldl_memOk (fun _ _ ht => hbmPut_memOk ht _ _ _) _ s h

/-- A vector's message, or its pending bit, touches the functions and what is sent, nothing else. -/
theorem sendMsix_rest (s : State) (f : FnId) (v : Bool) : ∃ q o, s.sendMsix f v = { s with fns := q, out := o } := by
  rw [State.sendMsix]
  cases v
  · by_cases h : (s.fn f).vec0.mask = true
    · exact ⟨_, s.out, if_pos h⟩
    · exact ⟨s.fns, _, if_neg h⟩
  · by_cases h : (s.fn f).vec1.mask = true
    · exact ⟨_, s.out, if_pos h⟩
    · exact ⟨s.fns, _, if_neg h⟩

/-- Posting an event to a function touches the functions and what is sent, nothing else. -/
theorem postEvent_rest (s : State) (f : FnId) (v : Ev) : ∃ q o, s.postEvent f v = { s with fns := q, out := o } := by
  rw [State.postEvent]
  by_cases h1 : (!(s.fn f).posting) = true
  · exact ⟨s.fns, s.out, if_pos h1⟩
  · by_cases h2 : (s.fn f).eqRoom = true
    · obtain ⟨q, o, h⟩ := sendMsix_rest ((s.emit (.host f (BitVec.ofNat 64 ((s.fn f).eqBase.toNat * 4096 + 32 * (s.fn f).eqTail.toNat))
        (v.bytes (s.fn f).eqPhase) false)).setFn f ((s.fn f).wroteEvent s.aoTick)) f true
      exact ⟨q, o, ((if_neg h1).trans (if_pos h2)).trans h⟩
    · exact ⟨_, _, (if_neg h1).trans (if_neg h2)⟩

/-- Posting an event to a hedge touches the functions and what is sent, nothing else. -/
theorem hedgeEvent_rest (s : State) (h : HedgeId) (v : Ev) : ∃ q o, s.hedgeEvent h v = { s with fns := q, out := o } := by
  unfold State.hedgeEvent
  split
  · exact postEvent_rest s _ v
  · exact ⟨s.fns, s.out, rfl⟩

theorem hedgeEvent_memOk {s : State} (hs : s.memOk = true) (h : HedgeId) (v : Ev) : (s.hedgeEvent h v).memOk = true := by
  obtain ⟨q, o, he⟩ := hedgeEvent_rest s h v
  rw [he]; exact hs

theorem poisonGranule_memOk {s : State} (h : s.memOk = true) (g : Nat) : (s.poisonGranule g).memOk = true := by
  unfold State.poisonGranule
  split
  · exact h
  · apply hedgeEvent_memOk; exact h

theorem meetGranule_memOk {s : State} (h : s.memOk = true) (g : Nat) : (s.meetGranule g).memOk = true := by
  unfold State.meetGranule
  split
  · exact h
  · exact h
  · exact poisonGranule_memOk h g

theorem meetRead_memOk {s : State} (h : s.memOk = true) (a n : Nat) : (s.meetRead a n).memOk = true :=
  foldl_memOk (fun _ g ht => meetGranule_memOk ht g) _ s h

end Sys2Proof.Machine
end

