-- ==== Sys2Proof/WellFormed.lean ====
section
/-! DEFINITION. Which commands the block can be given: the sizes and ranges that the spec gives the operands arriving from outside. What
the machine itself checks, and answers with a fault or a status, is no matter of well-formedness. -/

namespace Sys2Proof

/-- Raw prefix bytes: 0xF0 to 0xFE, each P.KEY (0xF5) with the key byte that follows it (04 R114, R119). -/
def prefixesOk : List Byte → Bool
  | [] => true
  | [b] => decide (0xF0 ≤ b.toNat) && decide (b.toNat ≤ 0xFE) && b != 0xF5
  | b :: k :: rest =>
    if b = 0xF5 then prefixesOk rest else decide (0xF0 ≤ b.toNat) && decide (b.toNat ≤ 0xFE) && prefixesOk (k :: rest)

/-- An issue carries prefix bytes only, or prefixes and a reserved opcode that stands in place of its own (04 R115; log 61). -/
def Iss.wf (x : Iss) : Bool :=
  prefixesOk x.px ||
    match Machine.reservedAt x.px with
    | some off =>
      off + 1 == x.px.length &&
        (prefixesOk (x.px.take off) || (x.px[off - 1]? == some 0xFF && prefixesOk (x.px.take (off - 1))))
    | none => false

/-- A registration in a migration: its block is a REGISTER block (13 Table 13-15). -/
def MigProg.wf (p : MigProg) : Bool := p.block.length == 128

/-- A page of a migration is of level 1 to 4, and its bytes lie in it at rising offsets (17 Table 17-4, 09 Table 9-5). -/
def MigMsg.wf : MigMsg → Bool
  | .start _ _ _ _ params progs super tables _ =>
    params.length == 128 && progs.all (fun p => p.2.wf) && (super.toList.all fun p => p.wf) && tables.all fun t => t.1.length == 64
  | .page va level _ _ _ cells =>
    level != 0 && va.toNat % 4096 == 0 && cells.Pairwise fun a b => a.1 < b.1
  | .delta _ _ bytes => decide (0 < bytes.length) && bytes.length % 8 == 0
  | .final _ _ => true

/-- A start: the SPI device holds a header of 4 KiB (15 R492), a fallback rate is 1 or 2 (16 R526), an engine is assigned once, and the
patch set fits the patch RAM and the match registers (15 R501, R502). -/
def StartIn.wf (x : StartIn) : Bool :=
  (x.spi.all fun i => i.header.length == 4096) && (x.slow.all fun q => q.2 != 0) &&
    decide (x.lend.Pairwise fun a b => a.2.1 ≠ b.2.1) && decide (x.patches.words.length ≤ 128) && decide (x.patches.replaced.length ≤ 16)

/-- The command can be given: a submission read returns 1 to 8 entries of 64 bytes (13 R422), the blocks of CREATE_HEDGE, SET_HEDGE and REGISTER are 128 bytes
and that of LOAD_TABLE 64 (13 Tables 13-14 to 13-16), a table at most 64 KiB (13 Table 13-16), an argument block 48 (13 R437), scatter-list
entries 16 (13 R431), a Lehr entry 64 (11 R351); a configuration write is of 1 to 8 bytes (13 R416), a control-space address
names a 64-bit register (19 R590), a granule and a frame lie in HBM (09 R289). -/
def Instr.wf : Instr → Bool
  | .nop x | .dup x | .drop x | .swap x | .over x | .rot x | .nip x | .tuck x | .pick x _ | .dup2 x | .drop2 x | .ldl x _
  | .stl x _ | .pushiS x _ | .pushiL x _ | .pushd x _ | .pushfp x _ | .pusha x _ | .pushtrue x | .pushfalse x | .pushnil x
  | .add x | .sub x | .mul x | .div x | .rem x | .cmp x | .neg x | .abs x | .muli x | .and x | .or x | .xor x | .not x | .shl x
  | .shr x | .sar x | .fadd x | .fsub x | .fmul x | .fma x | .fdiv x | .fsqrt x | .dmul x | .ddiv x | .dshl x _ | .dshr x _
  | .drnd x _ | .pack x _ | .unpk x _ | .dcmp x | .tagof x | .cvti x | .cvtd x | .cvtf x | .br x _ _ | .brz x _ _ | .brnz x _ _
  | .brt x _ _ | .call x _ | .ret x | .callm x _ | .retm x | .reti x | .callx x | .ld x _ | .lds x _ | .ldf x _ | .st x _
  | .xadd x _ | .xchg x _ | .cas x _ | .rld x | .rst x | .rlock x _ | .rpref x | .commit x | .abort x | .stage x | .waitev x
  | .sigev x | .yield x | .mvst x | .mvtr x | .cmst x | .scst x | .edit x | .edmk x | .tli x | .setrm x | .rdpsw x | .setm x
  | .setkey x | .setfp x | .setg x | .clrg x => x.wf
  | .commandRead _ bytes _ fault => fault || (bytes.length % 64 == 0 && decide (64 ≤ bytes.length) && decide (bytes.length ≤ 512))
  | .submitReread _ bytes _ fault => fault || bytes.length == 64
  | .createHedge _ buf => buf.length == 128
  | .fwUpdate _ bytes _ => decide (4096 ≤ bytes.length)
  | .setHedge _ buf => buf.length == 128
  | .register _ buf => buf.length == 128
  | .loadTable _ buf src => buf.length == 64 && decide (src.length ≤ 0x10000)
  | .bulk _ blocks => blocks.all fun b => b.length == 48
  | .run _ list _ _ => list.length % 16 == 0
  | .dhpConfigWrite _ _ len _ => decide (1 ≤ len) && decide (len ≤ 8)
  | .mirrorEntry _ _ m => m.bytes.length == 64
  | .mirrorCopyArrival _ bytes => bytes.length == 64
  | .engineMessageArrival m => decide (m.bounces ≤ 4)
  | .startSequence x => x.wf
  | .identityMessage _ p => p.linkMap.length == 4
  | .migrationCopyReceive m => m.wf
  | .patrolScrub _ g _ _ => decide (g < 0x120000000)
  | .frameRetire fr => decide (fr < 37748736)
  | .mcBroadcastWrite _ off _ => off % 8 == 0 && decide (0x1000 ≤ off) && decide (off < 0x2000)
  | .registerWrite _ a _ => decide (1 ≤ a.len) && decide (a.len ≤ 8)
  | .registerReadClear _ a => decide (1 ≤ a.len) && decide (a.len ≤ 8)
  | .busyCountElapsed _ _ | .storeBufferDrain _ | .eventTake _ _ | .noticeDelivery _ _ _ _ | .watchdog _ _ | .machineCheck _ _ _
  | .quarantineEnd _ _ | .bounceDisposal _ | .rldComplete _ _ | .rlockComplete _ _ | .rprefAck _ _ | .stageComplete _ _
  | .waitevWake _ | .waitevTimeout _ | .commitOutcome _ _ | .engRoleWrite _ _ _ | .engineClear _ _ | .engineClearComplete _
  | .engSwinWrite _ _ _ | .engCptWrite _ _ _ | .engWdogWrite _ _ _ | .engCtlWrite _ _ _ | .contextWindowWrite _ _ _ _ _
  | .park _ _ | .unpark _ _ _ | .parkWaitTimeout _ _ | .sqDoorbell _ _ | .startBlockDiscard _ | .firmwareDispatch _ _ _ | .read _
  | .signal _ | .epset _ | .map _ | .resync _ | .scan _ | .checkpoint _ | .rebuild _ _ | .longStepTimeLimit _ | .tokenExpiry _ _
  | .identify _ | .destroyHedge _ | .unregister _ | .telemetry _ | .ringEnable _ | .ringDisable _
  | .sqrestart _ | .cqDoorbell _ _ | .eqDoorbell _ _ | .functionLevelReset _ | .hostPortReset _ | .d3hotEntry _
  | .completionPost _ | .vector0Timer _ | .lockRequest _ _ | .lockRelease _ _ | .releaseConfirm _ | .wound _ | .endNotice _
  | .woundRestart _ | .commitValidate _ _ | .stagingBlocksFree _ | .commitAdmission _ | .throttleTimeout _ | .mediaMark _
  | .lehrEntryWrite _ | .lehrEntryDurable _ | .deltaApply _ _ | .applyNotice _ | .drainWriteComplete _ | .drainWriteFail _
  | .flushRequest | .lehrFullTimeout | .checkpointAdvance _ | .mirrorAck _ | .pairTimeout | .lehrFence _ | .journalHole _
  | .replay | .ringReopen _ | .pageWalk _ _ | .markRequest _ _ | .pageStageIn _ _ _ | .pageEvict _ _ | .pageAge _ _
  | .tlbinvPage _ _ _ | .tlbinvHedge _ _ _ | .tlbinvFrame _ _ | .tlbinvAll _ _ | .tlbinvComplete | .eventUnitWait _
  | .eventUnitSignal _ | .moverSignal _ _ | .eventUnitDeadlock _ | .pruningPass | .kick _ _ | .abortChannel _ _ | .resume _ _
  | .resetChannel _ _ | .haltclr _ | .wdraw _ _ | .movChannelConfigWrite _ _ _ _ | .descriptorTake _ _ | .burstComplete _ _ _ _ _
  | .nvmeCompletion _ _ _ | .descriptorComplete _ _ | .pacingPeriod _ _ | .moverTimeout _ _ _ | .unexpectedCompletion _ _ _
  | .errHalt _ _ _ _ _ | .tempSample _ _ _ | .thermalStepDown _ | .thermalStepUp _ | .powerControl _ _ | .energySettle _
  | .capacityEval | .effectiveMinEval | .pointUpSwitch _ | .pwrCctlWrite _ _ _ | .clusterC4Entry _ | .clusterC1Entry _
  | .clusterC2Entry _ | .clusterC3Entry _ | .clusterWake _ | .clusterWakeComplete _ | .vcoreUndervolt | .pwrFailAssert _
  | .pwrFailRestart | .pwrBrakeAssert | .pwrBrakeRelease | .sysRstAssert | .keeperStart | .crystalLoss | .bootWatchdog
  | .glbBootokWrite _ _ | .glbLockWrite _ | .fuseRequest _ _ | .svnCommit | .heartbeat _ | .heartbeatLoss _ | .keeperLastResort _
  | .pflush _ _ | .mcPdata1Write _ _ _ | .clusterRemoval _ | .coderamRewrite _ | .channelFail _ | .errorRecordWrite
  | .linkUp _ _ _ _ | .linkBudgetExpiry _ | .retrain _ _ | .membershipSettle _ | .migrationRequest _ _ _ _ _ | .migrationDrain
  | .migrationPrepared | .migrationMoved | .snapshotRequest | .pause _ | .paused _ _ _ _ | .snapshotPauseTimeout | .release _ _
  | .mctpPowerLimit _ | .mctpTelemetry | .mctpErrorLog | .mctpControl _ | .storageLinkDown _ | .pleachLinkDown _
  | .crystalRecovery | .perstDeassertion _ _ _ _ | .d0Return _ | .mirrorCopyRequest _ _ _ | .mirrorReclaimNotice _
  | .engineLending _ _ _ | .alarmMessageRead | .mctpOtherRequest _ | .outOfWindowRequest _ _ | .hostUnsupportedRequest _ _ _
  | .startWaitTimeout => true

end Sys2Proof
end

