-- ==== Sys2Proof/Tests/Slice0.lean ====
section
/-! SUPPORT. Tests: commands that are not well formed; for each statement, states and operands that meet the hypotheses of each of its
clauses; and results of single commands that the spec states. -/

namespace Sys2Proof.Tests

set_option Elab.async false

open Sys2Proof Sys2Proof.Machine

/-! ### Ill-formed commands -/

/-- A byte that is no prefix, the escape byte, and a P.KEY without its key byte (04 R114, R119). -/
theorem test_wf_prefixes : (Instr.nop ⟨0, 0, [0x40]⟩).wf = false ∧ (Instr.nop ⟨0, 0, [0xFF]⟩).wf = false ∧
    (Instr.nop ⟨0, 0, [0xF5]⟩).wf = false ∧ (Instr.nop ⟨0, 0, [0xF5, 0x03, 0xF3]⟩).wf = true := by decide

/-- Buffers and blocks that are a byte short (13 R422, R431, R437, Tables 13-14 to 13-16; 11 R351). -/
theorem test_wf_lengths : (Instr.commandRead 1 (List.replicate 63 0) false false).wf = false ∧
    (Instr.submitReread 1 (List.replicate 63 0) false false).wf = false ∧ (Instr.createHedge 0 (List.replicate 127 0)).wf = false ∧
    (Instr.setHedge 0 (List.replicate 127 0)).wf = false ∧ (Instr.register 0 (List.replicate 127 0)).wf = false ∧
    (Instr.loadTable 0 (List.replicate 63 0) []).wf = false ∧ (Instr.bulk 1 [List.replicate 47 0]).wf = false ∧
    (Instr.run 1 (List.replicate 15 0) [] 0).wf = false ∧ (Instr.mirrorEntry 0 0 ⟨0, 0, List.replicate 63 0⟩).wf = false ∧
    (Instr.mirrorCopyArrival (0, 0) (List.replicate 63 0)).wf = false ∧ (Instr.commandRead 1 [] false true).wf = true := by decide

/-- Operands outside their ranges (13 R416, 16 R520, 19 R590, R597, 02 Table 2-4). -/
theorem test_wf_ranges : (Instr.dhpConfigWrite 1 0x108 9 0).wf = false ∧ (Instr.patrolScrub 0 0x120000000 0 0).wf = false ∧
    (Instr.frameRetire 37748736).wf = false ∧ (Instr.mcBroadcastWrite .jtag 0x1004 0).wf = false ∧
    (Instr.mcBroadcastWrite .jtag 0x2000 0).wf = false ∧ (Instr.registerWrite .jtag ⟨4, 9⟩ 0).wf = false ∧
    (Instr.registerReadClear .jtag ⟨4, 0⟩).wf = false ∧
    (Instr.engineMessageArrival ⟨0, 0, 0, 0, 0, 5, .wake 0 0⟩).wf = false ∧
    (Instr.frameRetire 37748735).wf = true := by decide

/-- An identity message of three links; a page of level 0; a registration block that is short (17 R544, Table 17-4). -/
theorem test_wf_messages : (Instr.identityMessage 0 ⟨0, 0, 0, 0, [none, none, none], 0, false, [], []⟩).wf = false ∧
    (Instr.migrationCopyReceive (.page 0 0 0 0 0 [])).wf = false ∧ (Instr.migrationCopyReceive (.page 1 1 0 0 0 [])).wf = false ∧
    (Instr.migrationCopyReceive (.page 0 1 0 0 0 [(1, 0), (0, 0)])).wf = false ∧
    (Instr.migrationCopyReceive (.delta 0 0 [])).wf = false ∧
    (Instr.migrationCopyReceive (.start 0 0 0 1 [] [] none [] [])).wf = false ∧
    (Instr.migrationCopyReceive (.final 0 [])).wf = true := by decide

/-- A start with a short header, a rate of 0, an engine assigned twice, or too many patch words (15 R492, R501, 16 R526). -/
theorem test_wf_start :
    let x : StartIn := { rails := true, spi := none, slow := [], failed := [], bad := [], patches := ⟨0, [], []⟩,
                         listed := [], drives := [], lend := [] }
    (Instr.startSequence x).wf = true ∧ (Instr.startSequence { x with spi := some ⟨[], [], true, true, true⟩ }).wf = false ∧
      (Instr.startSequence { x with slow := [(0, 0)] }).wf = false ∧
      (Instr.startSequence { x with lend := [(0, 0, 0), (1, 0, 0)] }).wf = false ∧
      (Instr.startSequence { x with patches := ⟨0, [], List.replicate 129 0⟩ }).wf = false ∧
      (Instr.startSequence { x with patches := ⟨0, List.replicate 17 (0, 0), []⟩ }).wf = false := by decide +kernel

/-! ### Small states -/

/-- An issue by context 0 of engine 0. -/
abbrev tX : Iss := ⟨0, 0, []⟩

/-- An issue with prefix bytes. -/
abbrev tP (px : List Byte) : Iss := ⟨0, 0, px⟩

/-- A READY context at PL1 at address 0x100 with these cells on its stack, top first, in the region 0x1000 to 0x1400. -/
def tCtx (l : List Cell) : Ctx :=
  { Ctx.reset with
    state := .ready, pc := 0x100, osb := 0x1000, osl := 0x1400, win := l, depth := BitVec.ofNat 15 l.length
    psw := { Psw.reset with pl := 1 } }

/-- An assigned engine whose first code region is open, with one context. -/
def tEng (c : Ctx) : Engine := { Engine.reset with assigned := true, itlb := 1, ctxs := [(0, c)] }

/-- The device after reset with that engine as its engine 0. -/
def tSt (c : Ctx) : State := { State.reset with engines := [(0, tEng c)] }

/-- With these cells on the stack. -/
def tS (l : List Cell) : State := tSt (tCtx l)

/-- With these cells on the stack, at PL2. -/
def tU (l : List Cell) : State := tSt { tCtx l with psw := { Psw.reset with pl := 2 } }

/-- An INT cell. -/
abbrev tI (v : Int) : Cell := cellInt v

/-- A DEC cell of an integer. -/
abbrev tD (v : Int) : Cell := cellDec (decMake (decide (v < 0)) v.natAbs)

/-! ### Stack, local and constant instructions -/

theorem met_moves : let s := tS [tI 3, tI 2, tI 1]
    s.issues tX {} = true ∧ s.issues tX { pops := 1, pushes := 2, reads := 1 } = true ∧ s.issues tX { pops := 1 } = true ∧
      s.issues tX { pops := 2, pushes := 2, reads := 2 } = true ∧ s.issues tX { pops := 2, pushes := 3, reads := 2 } = true ∧
      s.issues tX { pops := 3, pushes := 3, reads := 3 } = true ∧ s.issues tX { pops := 2, pushes := 1, reads := 1 } = true ∧
      s.issues tX { pops := 2, pushes := 4, reads := 2 } = true ∧ s.issues tX { pops := 2 } = true ∧
      (s.view tX).stack = [tI 3, tI 2, tI 1] ∧ (tI 3).wellFormed = true ∧ (tI 2).wellFormed = true ∧ (tI 1).wellFormed = true := by decide

theorem met_pick : let s := tS [tI 4, tI 3, tI 2, tI 1]
    (s.view tX).stack = [tI 4, tI 3, tI 2, tI 1] ∧ (∀ a ∈ (s.view tX).stack, a.wellFormed = true) ∧
      s.issues tX { imm := 1, pops := 1, pushes := 2, reads := 1 } = true ∧
      s.issues tX { imm := 1, pops := 4, pushes := 5, reads := 4 } = true := by decide

theorem met_locals : let s := tS [tI 1]
    let u := tSt { tCtx [tI 1] with psw := { Psw.reset with pl := 2 }, locals := [(15, { tI 2 with g := true })] }
    s.issues tX { pushes := 1, readsLocals := [15] } = true ∧ ((s.ctxAt tX).local 15).wellFormed = true ∧
      s.issues tX { pops := 1, reads := 1 } = true ∧ (s.view tX).stack = [tI 1] ∧ (s.view tX).pl ≠ 2 ∧
      u.issues tX { pops := 1, reads := 1 } = true ∧ (u.view tX).stack = [tI 1] ∧ (u.view tX).pl = 2 ∧
      ((u.ctxAt tX).local 0).g = false ∧ ((u.ctxAt tX).local 15).g = true := by decide

theorem met_constants : let s := tS []
    s.issues tX { pushes := 1 } = true ∧ s.issues tX { imm := 1, wmark := true, pushes := 1 } = true ∧
      s.issues (tP [0xF0]) { imm := 1, wmark := true, pushes := 1 } = true ∧
      s.issues tX { imm := 4, wmark := true, pushes := 1 } = true ∧ s.issues tX { imm := 8, pushes := 1 } = true ∧
      s.issues tX { imm := 2, wmark := true, disp := some (dispOf [] 0x10, 0), pushes := 1 } = true ∧
      s.issues tX { imm := 16, pushes := 1 } = true ∧ decBad (decStorage 0x0C000000000000000000000000000000) = none ∧
      decBad (decStorage 0) ≠ none := by decide

/-! ### Arithmetic -/

theorem met_polymorphic : let s := tS [tI (-2), tI 7]
    s.issues tX (polyInfo true) = true ∧ s.issues tX (polyInfo false) = true ∧ (s.view tX).stack = [tI (-2), tI 7] ∧
      binTags (s.env tX (polyInfo true)) (tI 7) (tI (-2)) = .ok () ∧
      polyResult (s.env tX (polyInfo true)) .add .int (tI 7) (tI (-2)) = .ok (tI 5) ∧
      polyResult (s.env tX (polyInfo false)) .div .int (tI 7) (tI (-2)) = .ok (tI (-3)) ∧
      polyResult (s.env tX (polyInfo false)) .rem .int (tI 7) (tI (-2)) = .ok (tI 1) ∧
      binForm false (tI 7) (tI (-2)) = .int ∧ s.unitReady tX 0x43 .divider 20 = true := by decide +kernel

/-- DIV and REM: INT operands, -2^63 by -1, a zero divisor, INT and DEC under P.CVT, DEC by DEC, FLT, FLT and INT under P.CVT. -/
theorem met_quotients : let o := polyInfo false
    let s := tS [tI (-1), tI (-2 ^ 63)]
    let d := tS [tD (-2), tI 7]
    let f := tS [cellFlt 0x4000000000000000, tI 7]
    s.issues tX o = true ∧ (s.view tX).stack = [tI (-1), tI (-2 ^ 63)] ∧ (tI (-2 ^ 63)).int = -2 ^ 63 ∧ (tI (-1)).int = -1 ∧
      s.unitReady tX 0x44 .divider 20 = true ∧ (tS [tI 0, tI 1]).issues tX o = true ∧ (tI 0).int = 0 ∧
      d.issues (tP [0xF1]) o = true ∧ (d.view tX).stack = [tD (-2), tI 7] ∧ hasPx [0xF1] 0xF1 = true ∧ decBad (tD (-2)).pay = none ∧
      decVal (tD (-2)).pay = -2 ∧ d.unitReady tX 0x43 .ucode 36 = true ∧ d.unitReady tX 0x44 .ucode 36 = true ∧
      (tS [tD 0, tD 1]).issues tX o = true ∧ decVal (tD 0).pay = 0 ∧
      f.issues (tP [0xF1]) o = true ∧ (f.view tX).stack = [cellFlt 0x4000000000000000, tI 7] ∧ f.unitReady tX 0x43 .fdiv 14 = true ∧
      f.unitReady tX 0x44 .fdiv 22 = true := by decide +kernel

theorem met_integers : let m := tI (-2 ^ 63)
    let s := tS [tI (-1), m]
    s.issues tX (polyInfo true) = true ∧ s.issues (tP [0xF3]) (polyInfo true) = true ∧ (s.view tX).stack = [tI (-1), m] ∧
      s.issues tX { sat := true, pops := 2, pushes := 1, reads := 2 } = true ∧
      (tS [m]).issues tX { sat := true, pops := 1, pushes := 1, reads := 1 } = true ∧ ((tS [m]).view tX).stack = [m] ∧
      ¬(-2 ^ 63 ≤ m.int + (tI (-1)).int) ∧ -2 ^ 63 ≤ m.int - (tI (-1)).int ∧ 2 ^ 63 ≤ m.int * (tI (-1)).int ∧ 2 ^ 63 ≤ -m.int ∧
      hasPx [0xF3] 0xF3 = true ∧ hasPx [] 0xF3 = false := by decide +kernel

theorem met_unary : let s := tS [tD (-5)]
    let t := tS [cellFlt 0x3FF0000000000000]
    let o : OpInfo := { cvt := true, pops := 2, pushes := 1, reads := 2 }
    let u := tS [tD 5, tD (-5)]
    s.issues tX { sat := true, pops := 1, pushes := 1, reads := 1 } = true ∧ (s.view tX).stack = [tD (-5)] ∧ decUse 0 (tD (-5)) = .ok () ∧
      t.issues tX { sat := true, pops := 1, pushes := 1, reads := 1 } = true ∧ (t.view tX).stack = [cellFlt 0x3FF0000000000000] ∧
      u.issues tX o = true ∧ (u.view tX).stack = [tD 5, tD (-5)] ∧ binTags (u.env tX o) (tD (-5)) (tD 5) = .ok () ∧
      usesDec (binForm (u.env tX o).cvt (tD (-5)) (tD 5)) (u.env tX o).cvt (tD 5) = true ∧ decUse 0 (tD 5) = .ok () ∧
      decUse 1 (tD (-5)) = .ok () := by decide +kernel

theorem met_bitwise : let b : Cell := ⟨8, 1, false, false, 0⟩
    let s := tS [tI 63, tI (-1)]
    let t := tS [b, b]
    let u := tS [tI 64, tI 1]
    s.issues tX { pops := 2, pushes := 1, reads := 2 } = true ∧ (s.view tX).stack = [tI 63, tI (-1)] ∧
      t.issues tX { pops := 2, pushes := 1, reads := 2 } = true ∧ (t.view tX).stack = [b, b] ∧ b.wellFormed = true ∧
      u.issues tX { pops := 2, pushes := 1, reads := 2 } = true ∧ (u.view tX).stack = [tI 64, tI 1] ∧ ¬(tI 64).int ≤ 63 ∧
      s.issues tX { pops := 1, pushes := 1, reads := 1 } = true ∧ t.issues tX { pops := 1, pushes := 1, reads := 1 } = true := by
  decide +kernel

theorem met_binary64 : let a := cellFlt 0x3FF8000000000000
    let s := tS [a, a, a]
    s.issues tX { rnd := true, pops := 2, pushes := 1, reads := 2 } = true ∧
      s.unitReady tX 0x54 .fdiv 14 = true ∧
      s.issues tX { rnd := true, pops := 3, pushes := 1, reads := 3 } = true ∧
      s.issues tX { rnd := true, pops := 1, pushes := 1, reads := 1 } = true ∧
      s.unitReady tX 0x55 .fdiv 16 = true ∧ (s.view tX).stack = [a, a, a] := by
  decide +kernel

theorem met_decimal : let s := tS [tD (-7), tD 99]
    let z := tS [tD 0, tD 1]
    let big := tS [tD (10 ^ 31 - 1)]
    s.issues tX { pops := 2, pushes := 2, reads := 2 } = true ∧ (s.view tX).stack = [tD (-7), tD 99] ∧ decUse 1 (tD 99) = .ok () ∧
      decUse 0 (tD (-7)) = .ok () ∧ decMag (tD (-7)).pay = 7 ∧ s.unitReady tX 0x61 .ucode 36 = true ∧
      z.issues tX { pops := 2, pushes := 2, reads := 2 } = true ∧ decMag (tD 0).pay = 0 ∧
      s.issues tX { pops := 2, pushes := 3, reads := 2 } = true ∧
      s.issues tX { imm := 1, sat := true, pops := 1, pushes := 1, reads := 1 } = true ∧
      big.issues (tP [0xF3]) { imm := 1, sat := true, pops := 1, pushes := 1, reads := 1 } = true ∧
      10 ^ 31 ≤ decMag (tD (10 ^ 31 - 1)).pay * 10 ∧
      big.issues tX { imm := 1, rnd := true, pops := 1, pushes := 1, reads := 1 } = true ∧
      10 ^ 31 ≤ roundDiv 0 false (decMag (tD (10 ^ 31 - 1)).pay) 10 * 10 ∧ (s.env tX { rnd := true }).rm = 0 ∧
      s.issues tX { imm := 1, rnd := true, pops := 2, pushes := 1, reads := 2 } = true ∧
      (pairOf (tD 99) (tD 7)).toOption = some (7 * 10 ^ 31 + 99, false) := by decide +kernel

theorem met_conversions : let s := tS [tI 5]
    let o : OpInfo := { rnd := true, pops := 1, pushes := 1, reads := 1 }
    let dec := tD (10 ^ 30)
    let bad : Cell := ⟨2, 0, false, false, 0⟩
    let flt := cellFlt 0x4004000000000000
    let nan := cellFlt 0x7FF8000000000000
    s.issues tX { pops := 1, pushes := 2, reads := 1 } = true ∧ s.issues tX o = true ∧ (s.view tX).stack = [tI 5] ∧
      (formOf (tI 5).ty).isSome = true ∧ toInt (s.env tX o) (tI 5) = .ok (tI 5) ∧ toDec (s.env tX o) (tI 5) = .ok (tD 5) ∧
      toFlt (s.env tX o) (tI 5) = .ok (cellFlt 0x4014000000000000) ∧
      (tS [tD 5]).issues tX o = true ∧ decBad (tD 5).pay = none ∧ decVal (tD 5).pay = 5 ∧
      (tS [dec]).issues tX o = true ∧ 2 ^ 63 ≤ decVal dec.pay ∧ (tS [bad]).issues tX o = true ∧ (decBad bad.pay).isSome = true ∧
      (tS [flt]).issues tX o = true ∧ fltOf flt.lo = .fin false 5629499534213120 1023 ∧ (tS [nan]).issues tX o = true ∧ fltOf nan.lo = .nan := by
  decide +kernel

/-! ### Branches, calls, frames, exceptions -/

theorem met_branches : let s := tS [tI 0]
    let b : Cell := ⟨8, 1, false, false, 0⟩
    s.issues tX (branchInfo [] 0x10 0) = true ∧ (s.view tX).stack = [tI 0] ∧ s.issues tX (branchInfo [] 0x10 1) = true ∧
      (tS [b]).issues tX (branchInfo [] 0x10 1) = true ∧ ((tS [b]).view tX).stack = [b] ∧ b.wellFormed = true ∧
      s.issues tX { imm := 4, delayBad := true, pops := 1, pushes := 1, reads := 1,
                    disp := some (((0x00001041 : BitVec 32).extractLsb' 8 24).toInt, 1) } = true ∧
      ((0x00001041 : BitVec 32).extractLsb' 0 4).toNat < 12 ∧ (0x00001041 : BitVec 32).getLsbD 7 = false := by decide +kernel

/-- A CODE cell. -/
abbrev tC (a : Nat) : Cell := ⟨9, 0, false, false, BitVec.ofNat 128 a⟩

/-- A context with a full return stack of one valid entry. -/
abbrev tFull : Ctx := { tCtx [tC 0x200] with rs := [(15, ⟨true, 0x180⟩)], rsp := 0, rsc := 16 }

theorem met_calls : let o : OpInfo := { imm := 2, wmark := true, delayBad := true, disp := some (dispOf [] 0x10, 0) }
    (tS [tC 0x200]).issues tX o = true ∧ ((tS [tC 0x200]).view tX).rsc ≠ 16 ∧ ((tS [tC 0x200]).eng 0).rso = true ∧
      (tSt tFull).issues tX o = true ∧ ((tSt tFull).view tX).rsc = 16 ∧
      (tS [tC 0x200]).issues tX { delayBad := true, pops := 1, reads := 1 } = true ∧
      ((tS [tC 0x200]).view tX).stack = [tC 0x200] ∧ (tC 0x200).pay.toNat < 2 ^ 19 ∧
      (tSt tFull).issues tX { delayBad := true, readsRs := true } = true ∧
      (tget RsEntry.empty ((tSt tFull).view tX).rs 15).v = true ∧
      (tS []).issues tX { delayBad := true, readsRs := true } = true ∧ ((tS []).view tX).rsc = 0 ∧
      (tSt { tFull with rs := [] }).issues tX { delayBad := true, readsRs := true } = true := by decide +kernel

/-- A context with frames from 0x2000 to 0x3000. -/
abbrev tFr (fp : BitVec 18) : Ctx := { tCtx [] with fp := fp, fl := 0x3000, fbase := 0x2000, locals := [(0, tI 7), (1, tI 8)] }

/-- One frame of locals 0 and 1 lies at 0x2000. -/
def tFramed : State :=
  { State.reset with
    engines := [(0, { tEng (tFr 0x2050) with
      scratch := [(0x200, ⟨9, 1, false, false, 0x123⟩), (0x201, tI (0x2000 + 2 ^ 32 * 3)), (0x202, tI 5), (0x203, tI 6), (0x204, tI 2)] })] }

theorem met_frames : let s := tSt (tFr 0x2000)
    s.issues tX { imm := 4, wmark := true, delayBad := true, disp := some ((0x10 : BitVec 16).toInt, 2),
                  readsLocals := maskLocals 3 } = true ∧
      (s.view tX).fp.toNat + 16 * 5 ≤ (s.view tX).fl.toNat ∧ (s.eng 0).open? 1 0x2000 80 = true ∧ (maskLocals 3).length = 2 ∧
      (s.view tX).pl = 1 ∧
      tFramed.issues tX { delayBad := true } = true ∧ (tFramed.view tX).fp.toNat = 0x2000 + 16 * 5 ∧
      (tFramed.view tX).fbase.toNat ≤ 0x2000 ∧ ((tFramed.eng 0).cell 0x204).pay = 2 ∧
      (tFramed.eng 0).open? 1 0x2000 80 = true ∧ ((tFramed.eng 0).cell 0x200).ty = tyCODE ∧
      bits ((tFramed.eng 0).cell 0x201).pay 47 32 = 3 := by decide +kernel

/-- The interrupted context's handler for arithmetic faults stands in the vector table at 0x3_0000 (08 Table 8-2). -/
def tHandled (c : Ctx) : State :=
  let v := (fArith 1).vec.toNat
  { State.reset with
    engines := [(0, { tEng c with
      scratch := [(0x3000 + 2 * v, ⟨1, 0, false, false, BitVec.ofNat 128 (0x200 + 2 ^ 19 + 2 ^ 20 + 3 * 2 ^ 22 + 0x31000 * 2 ^ 32)⟩),
        (0x3001 + 2 * v, ⟨1, 0, false, false, BitVec.ofNat 128 (0x31800 + 2 ^ 18 * 0x31C00)⟩)] })] }

theorem met_vectoring : let s := tHandled (tCtx [tI 1])
    let e := s.eng 0
    1 ≤ (fArith 1).vec.toNat ∧ (fArith 1).vec.toNat ≤ 0x0B ∧ (s.ctxAt tX).state = .ready ∧ (s.ctxAt tX).psw.m ≠ 7 ∧
      (s.ctxAt tX).psw.eh = false ∧ (s.ctxAt tX).vectorReads (fArith 1).vec = false ∧ (e.descr (fArith 1).vec).v = true ∧
      e.descrFail (s.ctxAt tX) (fArith 1).vec (e.descr (fArith 1).vec) true = none := by decide +kernel

/-- A handler's context whose entry record stands at 0x3_1000. -/
def tInHandler : State :=
  let c : Ctx := { tCtx [] with pc := 0x200, osb := 0x31800, osl := 0x31C00, xr := 0x31000, xd := 1 }
  let e : Engine := { tEng c with scratch := [(0x100, tI 5)] }
  { State.reset with
    engines := [(0, e.writeCells 0x3100 (entryRecord e { tCtx [] with depth := 1, psw := { Psw.reset with pl := 2, key := 1 } } 0
      (fArith 1).event.cell false false))] }

theorem met_reti : tInHandler.issues tX { delayBad := true, priv := true } = true ∧
    retiCheck (tInHandler.eng 0) (tInHandler.ctxAt tX) = .ok () ∧
    ((tInHandler.eng 0).cell 0x3100).pay.toNat / 2 ^ 39 % 16 = 0 := by decide +kernel

/-! ### Scratch, record and event instructions -/

/-- With these cells of scratch besides. -/
def tM (l : List Cell) (m : List (Nat × Cell)) (pl : BitVec 2 := 1) : State :=
  { State.reset with engines := [(0, { tEng { tCtx l with psw := { Psw.reset with pl := pl } } with scratch := m })] }

theorem met_scratch_addresses : let c := tCtx [tI 2, tI 0x2000]
    let v : Env := (tS []).env tX {}
    stackOf (tEng c) c = [tI 2, tI 0x2000] ∧ formMode 0x9B = 3 ∧ (tI 0x2000).int + (tI 2).int * 2 ^ bits (0x9B : Byte) 7 5 = 0x2020 ∧
      (tEng c).open? v.pl 0x2020 8 = true ∧ formMode 0x13 = 2 ∧
      stackOf (tEng (tCtx [tI 0x40000])) (tCtx [tI 0x40000]) = [tI 0x40000] ∧ ¬((tI 0x40000).int + 8 ≤ 2 ^ 18) ∧
      (tI 0x40000).int - 8 + 8 ≤ 2 ^ 18 ∧ (tI 0x2004).int % (8 : Int) ≠ 0 := by decide +kernel

/-- A field of 8 bytes in the upper half of cell 0x200, and its address on top. -/
def tLd : State := tM [tI 0x2008] [(0x200, ⟨1, 0, false, false, 0xFF22334455667788_1122334455667788⟩)]

theorem met_loads : let o : OpInfo := { imm := 1, pops := 1, pushes := 1, reads := 1 }
    let q : OpInfo := { imm := 1, pops := 1, pushes := 2, reads := 1 }
    tLd.issues tX o = true ∧ tLd.issues tX q = true ∧
      (accessAddr (tLd.env tX o) (tLd.eng 0) (tLd.ctxAt tX) 0x03 []).toOption = some 0x2008 ∧
      (accessAddr (tLd.env tX o) (tLd.eng 0) (tLd.ctxAt tX) 0x00 []).toOption = some 0x2008 ∧
      (accessAddr (tLd.env tX q) (tLd.eng 0) (tLd.ctxAt tX) 0x0B []).toOption = some 0x2008 ∧
      (accessAddr ((tM [tI 0x2000] []).env tX o) ((tM [tI 0x2000] []).eng 0) ((tM [tI 0x2000] []).ctxAt tX) 0x05 []).toOption = some 0x2000 ∧
      formBad 0x0B [0, 1, 2, 3, 4, 5] [0, 1, 2, 3] = false ∧ formBad 0x03 [3] [0, 1, 2, 3] = false ∧
      formBad 0x05 [0, 1, 2, 3, 4, 5] [0, 1, 2, 3] = false := by decide +kernel

theorem met_stores : let o : OpInfo := { imm := 1, pops := 2, pushes := 0, reads := 2 }
    let s := tM [tI 0x2008, tI 5] [(0x200, tI 9)]
    let g := tM [tI 0x2008, tI 5] [(0x200, { tI 9 with g := true })] 2
    let n := tM [tI 0x2008, tI 5] [(0x200, tC 9)]
    s.issues tX o = true ∧ (accessAddr (s.env tX o) (s.eng 0) (s.ctxAt tX) 0x03 [storeAccepts 0x03]).toOption = some 0x2008 ∧
      formBad 0x03 [0, 1, 2, 3, 4, 5] [0, 1, 2, 3] = false ∧ (s.view tX).pl ≠ 2 ∧ (s.eng 0).narrowOk false 0x200 = true ∧
      g.issues tX o = true ∧ (accessAddr (g.env tX o) (g.eng 0) (g.ctxAt tX) 0x03 [storeAccepts 0x03]).toOption = some 0x2008 ∧
      (g.view tX).pl = 2 ∧ ((g.eng 0).cell 0x200).g = true ∧
      n.issues tX o = true ∧ (accessAddr (n.env tX o) (n.eng 0) (n.ctxAt tX) 0x03 [storeAccepts 0x03]).toOption = some 0x2008 ∧
      (n.eng 0).narrowOk false 0x200 = false := by decide +kernel

theorem met_atomics : let s := tM [tI 0x2008, tI 5, tI 0] [(0x200, tI 9)]
    let o : OpInfo := { esc := true, imm := 1, lock := true, pops := 2, pushes := 1, reads := 2 }
    let q : OpInfo := { esc := true, imm := 1, lock := true, pops := 3, pushes := 1, reads := 3 }
    s.issues tX o = true ∧ formBad 0x03 [3, 5] [0, 3] = false ∧
      (accessAddr (s.env tX o) (s.eng 0) (s.ctxAt tX) 0x03 [Cell.isInt]).toOption = some 0x2008 ∧
      targetCheck (s.env tX o) (s.eng 0) 0x2008 true = .ok () ∧ ((s.eng 0).cell 0x200).ty = tyINT ∧
      (accessAddr (s.env tX o) (s.eng 0) (s.ctxAt tX) 0x03 [atomicAccepts 0x03]).toOption = some 0x2008 ∧
      s.issues (tP [0xF4]) o = true ∧ s.issues (tP [0xF4]) q = true ∧ s.issues tX q = true ∧ hasPx [0xF4] 0xF4 = true ∧ hasPx [] 0xF4 = false ∧
      (accessAddr (s.env tX q) (s.eng 0) (s.ctxAt tX) 0x03 [atomicAccepts 0x03, atomicAccepts 0x03]).toOption = some 0x2008 ∧
      targetCheck (s.env tX q) (s.eng 0) 0x2008 true = .ok () ∧
      (oldCell (s.eng 0) 0x03 0x2008).lo = (stackTop (s.eng 0) (s.ctxAt tX) 2).lo ∧
      (oldCell ((tM [tI 0x2008, tI 5, tI 1] [(0x200, tI 9)]).eng 0) 0x03 0x2008).lo ≠ 1 := by decide +kernel

/-- A writable REF of 8 bytes at 0x1000. -/
abbrev tR : Cell := ⟨tyREF, 1, false, false, BitVec.ofNat 128 (0x1000 + 2 ^ 64 * 8)⟩

theorem met_record : let s := tS [tI 0x2000, tR]
    let w := tS [⟨0, 0, false, false, 0⟩, tI 7, tI 3]
    let v := tS [⟨tyTIME, 1, false, false, 10000000000⟩, ⟨tySEQ, 2, false, false, 7⟩, tI 3]
    tR.ty = tyREF ∧ tR.wellFormed = true ∧ refOk tR = true ∧ refLen tR ≤ 4096 ∧ (s.ctxAt tX).savedWait = none ∧
      s.issues tX { key := true, delayBad := true, pops := 2, pushes := 1, reads := 2 } = true ∧ (s.view tX).stack = [tI 0x2000, tR] ∧
      (tI 0x2000).int + coverLen (refLen tR) ≤ 2 ^ 18 ∧ (s.eng 0).open? 1 0x2000 (coverLen (refLen tR)) = true ∧
      (tS [tR]).issues tX { imm := 1, key := true, delayBad := true, pops := 1, pushes := 1, reads := 1 } = true ∧
      ((tS [tR]).view tX).stack = [tR] ∧ (tS [tR]).issues tX { key := true, delayBad := true, pops := 1, reads := 1 } = true ∧
      w.issues tX { delayBad := true, pops := 3, pushes := 1, reads := 3 } = true ∧
      (w.view tX).stack = [⟨0, 0, false, false, 0⟩, tI 7, tI 3] ∧
      v.issues tX { delayBad := true, pops := 3, pushes := 1, reads := 3 } = true ∧
      (v.view tX).stack = [⟨tyTIME, 1, false, false, 10000000000⟩, ⟨tySEQ, 2, false, false, 7⟩, tI 3] := by decide +kernel

/-- The context's transaction, which can end. -/
def tLive (l : List Cell) (pl : BitVec 2 := 1) : State :=
  { tM l [] pl with slots := [(0, { Slot.reset with state := .resident })] }

theorem met_commit : let o : OpInfo := { delayBad := true, pops := 3, reads := 3 }
    let q : OpInfo := { key := true, delayBad := true, pops := 3, pushes := 1, reads := 3 }
    let s := tLive [tI 0x2040, tI 0x2020, tI 9]
    let w := tLive [tI 1, tI 0x2000, tR] 0
    s.issues tX o = true ∧ (s.ctxAt tX).savedWait = none ∧ (s.view tX).stack = [tI 0x2040, tI 0x2020, tI 9] ∧
      s.unitReady tX 0xA4 .ucode 5 = true ∧ (s.eng 0).general? 0x2020 0x20 = true ∧
      s.issues tX { delayBad := true, pops := 1, reads := 1 } = true ∧ (s.slot 0).endable = true ∧ (s.slot 0).wound = false ∧
      w.issues tX q = true ∧ (w.view tX).stack = [tI 1, tI 0x2000, tR] ∧ (w.view tX).pl = 0 ∧
      (w.eng 0).open? 0 0x2000 (coverLen (refLen tR)) = true := by decide +kernel

theorem met_index : let s := tS [tI 0x2020, tI 0x2000, tR]
    s.issues tX { key := true, delayBad := true, pops := 3, pushes := 1, reads := 3 } = true ∧
      (s.view tX).stack = [tI 0x2020, tI 0x2000, tR] ∧ (s.eng 0).general? 0x2020 32 = true ∧ (s.view tX).pl = 1 ∧
      s.issues tX { pops := 1, reads := 1 } = true ∧ s.issues tX { delayBad := true } = true := by decide +kernel

/-- A registered program: fast, two argument cells and no work area. -/
abbrev tYProg : Prog :=
  { super := false, fast := true, retry := 3, key := 0, rm := 0, tmpl := 0, caddr := 0, clen := 0, entry := 0, sbase := 0, sstride := 0,
    ssize := 0, wbase := 0, wstride := 0, wsize := 0, sglmax := 0, at_ := 0, image := [], window := [] }

/-- YIELD where firmware parks the context: no context is FREE and slot 5 is parked and ready to run. -/
def tYield : State :=
  { State.reset with
    slots := [(0, { Slot.reset with state := .resident, prog := some tYProg }), (5, { Slot.reset with state := .parked, runnable := true })]
    engines := [(0, { tEng (tCtx []) with ctxs := (List.finRange 32).map fun i => (i.val, if i = 0 then tCtx [] else { Ctx.reset with state := .wait }) })] }

theorem met_yield : tYield.issues tX { delayBad := true } = true ∧ (tYield.slot 5).state = .parked ∧ (tYield.slot 5).runnable = true ∧
    (tYield.slot 5).hedge = (tYield.slot 0).hedge ∧ (∀ n : CtxId, ((tYield.eng 0).ctx n).state ≠ .free) ∧
    (tYield.slot 0).prog = some tYProg ∧ (tYield.ctxAt tX).parkable tYProg = true := by decide +kernel

theorem met_system : let s := tS [tI 7]
    s.issues tX { esc := true, pops := 1, reads := 1 } = true ∧ (s.view tX).stack = [tI 7] ∧ ¬(tI 7).int ≤ 5 ∧
      (tS [tI 5]).issues tX { esc := true, pops := 1, reads := 1 } = true ∧ s.issues tX { esc := true, pushes := 1 } = true ∧
      s.issues tX { esc := true, priv := true, pops := 1, reads := 1 } = true ∧ (s.view tX).pl = 1 ∧
      (tS [tI 0]).issues tX { esc := true, priv := true, pops := 1, reads := 1 } = true ∧
      (tM [tI 7] [] 0).issues tX { esc := true, priv := true, pops := 1, reads := 1 } = true ∧
      (tS [tI 0x3000, tI 0x2000]).issues tX { esc := true, priv := true, pops := 2, reads := 2 } = true ∧
      ((tS [tI 0x3000, tI 0x2000]).eng 0).open? 1 0x2000 0x1000 = true ∧
      ¬(0 ≤ (tI (-16)).int) ∧ (tS [tI 0x2000, tI (-16)]).issues tX { esc := true, priv := true, pops := 2, reads := 2 } = true ∧
      (tS [tI 16]).issues tX { esc := true, priv := true, pops := 1, reads := 1 } = true ∧ ¬(tI 16).int ≤ 15 ∧
      s.issues tX { esc := true, priv := true, pops := 1, pushes := 1, reads := 1 } = true := by decide +kernel

/-! ### Strings, edits, rate tables and zoned fields -/

/-- A plain string descriptor. -/
abbrev tCh (base len pos : Nat) : Cell :=
  ⟨tyCHR, 0, false, false, BitVec.ofNat 128 (base + 2 ^ 19 * len + 2 ^ 38 * pos + 2 ^ 72 * 0x40)⟩

/-- Bytes "abc" and "abd" at 0x2000 and 0x3000. -/
def tStr (l : List Cell) : State := tM l [(0x200, ⟨tyINT, 0, false, false, 0x636261⟩), (0x300, ⟨tyINT, 0, false, false, 0x646261⟩)]

theorem met_move_string : let o : OpInfo := { delayBad := true, pops := 2, pushes := 2, reads := 2 }
    let d := tCh 0x3000 5 0
    let q := tCh 0x2000 3 0
    let s := tStr [d, q]
    s.issues tX o = true ∧ (s.view tX).stack = [d, q] ∧ chrOk d = true ∧ chrOk q = true ∧ chrCp d ≤ (s.eng 0).cptCount.toNat ∧
      readRegion (s.env tX o) (s.eng 0) 1 q (chrAt q) 3 = .ok () ∧ writeRegion (s.env tX o) (s.eng 0) 0 (chrAt d) 5 = .ok () ∧
      byteTargets (s.env tX o) (s.eng 0) (chrAt d) 5 = .ok () ∧ byteTags (s.env tX o) (s.eng 0) (chrAt d) 5 = .ok () ∧
      chrAt q + 3 ≤ chrAt d ∧ (s.eng 0).anyPoison (chrAt q) 3 = false ∧
      (∀ j : Fin 3, ((s.eng 0).translate 0 (byteOfPay ((s.eng 0).cell ((chrAt q + j.val) / 16)).pay ((chrAt q + j.val) % 16))).2 = false) ∧
      s.unitReady tX 0xB1 .ucode 10 = true ∧ s.unitReady tX 0xB0 .ucode 6 = true := by decide +kernel

theorem met_sequencer : let o : OpInfo := { delayBad := true, pops := 2, pushes := 2, reads := 2 }
    let s := tStr [tCh 0x3000 5 0, tCh 0x2000 3 0]
    s.issues tX o = true ∧
      (match moveString false (s.env tX o) (s.eng 0) { s.ctxAt tX with pc := s.nextPc tX o, pb := none } with
        | .ok d => s.unitReady tX 0xB0 .ucode d.count
        | .error _ => false) = true := by decide +kernel

/-- The last execution of the worked example of 07 R233, and EDMK of a pattern that ends within it. -/
theorem met_edit : let p : Cell := ⟨tyCHR, 1, false, false, 0x3F2A_0000_0000_1000_0220_2000⟩
    let o : Cell := ⟨tyCHR, 0, false, false, 0x1000_0280_2100⟩
    let d := tD (-123456789)
    let s := tM [o, p, d] [(0x204, ⟨tyINT, 0, false, false, 0x52432005⟩)]
    let p1 : Cell := ⟨tyCHR, 1, false, false, 0x1D2A_0000_0000_0000_0020_2000⟩
    let o1 : Cell := ⟨tyCHR, 0, false, false, 0x0280_2100⟩
    let u := tM [o1, p1, tD (-5)] [(0x200, ⟨tyINT, 0, false, false, 0x52430201⟩)]
    s.issues tX { delayBad := true, pops := 3, pushes := 2, reads := 3 } = true ∧ s.unitReady tX 0xB4 .ucode 20 = true ∧
      (s.view tX).stack = [o, p, d] ∧ chrOk o = true ∧ chrOk p = true ∧ chrLeft p = 4 ∧ chrLeft p ≤ chrLeft o ∧ decBad d.pay = none ∧
      (s.eng 0).open? 1 (chrAt p) 4 = true ∧ (s.eng 0).open? 1 (chrAt o) 4 = true ∧ bits p.pay 92 88 = 31 ∧ chrPos p ≠ 0 ∧
      u.issues tX { delayBad := true, pops := 3, pushes := 3, reads := 3 } = true ∧ u.unitReady tX 0xB5 .ucode 20 = true ∧
      (u.view tX).stack = [o1, p1, tD (-5)] ∧ chrOk o1 = true ∧ chrOk p1 = true ∧ chrLeft p1 = 4 ∧ chrPos p1 = 0 ∧ bits p1.pay 92 88 = 29 ∧
      (∀ i : Fin 29, decNibble (tD (-5)).pay i.val = 0) := by decide +kernel

theorem met_compare_string : let o : OpInfo := { delayBad := true, pops := 2, pushes := 3, reads := 2 }
    let q : OpInfo := { delayBad := true, pops := 2, pushes := 2, reads := 2 }
    let s := tStr [tCh 0x3000 3 0, tCh 0x2000 3 0]
    let u := tStr [tCh 0x3000 2 0, tCh 0x2000 2 0]
    let w := tStr [tCh 0x3000 200 0, tCh 0x2000 200 0]
    let f := tStr [tI 0x62, tCh 0x2000 3 0]
    let n := tStr [tI 0x7F, tCh 0x2000 200 0]
    s.issues tX o = true ∧ s.unitReady tX 0xB2 .ucode 6 = true ∧ chrOk (tCh 0x3000 3 0) = true ∧
      readRegion (s.env tX o) (s.eng 0) 1 (tCh 0x2000 3 0) 0x2000 3 = .ok () ∧
      readRegion (s.env tX o) (s.eng 0) 0 (tCh 0x3000 3 0) 0x3000 3 = .ok () ∧
      (cmpPairs (s.eng 0) (tCh 0x2000 3 0) (tCh 0x3000 3 0) 64 0 0 false false).2.2.2.2 = some (-1) ∧
      (cmpPairs (u.eng 0) (tCh 0x2000 2 0) (tCh 0x3000 2 0) 64 0 0 false false).2.2.2.2 = none ∧
      (cmpPairs (u.eng 0) (tCh 0x2000 2 0) (tCh 0x3000 2 0) 64 0 0 false false).1 = 2 ∧
      (cmpPairs (w.eng 0) (tCh 0x2010 200 0) (tCh 0x3010 200 0) 64 0 0 false false).2.2.2.2 = none ∧
      (cmpPairs (w.eng 0) (tCh 0x2010 200 0) (tCh 0x3010 200 0) 64 0 0 false false).1 = 64 ∧
      f.issues tX q = true ∧ f.unitReady tX 0xB3 .ucode 6 = true ∧ bits (tI 0x62).pay 63 9 = 0 ∧
      (scanBytes (f.eng 0) (tCh 0x2000 3 0) 0x62 false 64 0 false).2.2 = true ∧
      (scanBytes (n.eng 0) (tCh 0x2000 200 0) 0x7F false 64 0 false).2.2 = false ∧
      (scanBytes (n.eng 0) (tCh 0x2000 200 0) 0x7F false 64 0 false).1 = 64 := by decide +kernel

/-- A STEP table of two points at 0x2000: INT keys 0 and 10. -/
abbrev tRate : Cell := ⟨tyRATE, 0, false, false, BitVec.ofNat 128 (0x2000 + 2 ^ 19)⟩

/-- The table and an argument. -/
def tTli (k : Int) : State := tM [tI k, tRate] [(0x202, tI 0), (0x203, tD 100), (0x204, tI 10), (0x205, tD 200)]

theorem met_tli : let o : OpInfo := { rnd := true, delayBad := true, pops := 2, pushes := 2, reads := 2 }
    let s := tTli 9
    let g := rateOf tRate
    let key := fun i => rateNum g.keyTy ((s.eng 0).cell (g.keyK i))
    s.issues tX o = true ∧ s.unitReady tX 0xB6 .ucode 20 = true ∧ (s.view tX).stack = [tI 9, tRate] ∧ rateOk tRate = true ∧ g.mode = 0 ∧
      g.keyTy = tyINT ∧ g.points = 2 ∧ readRegion (s.env tX o) (s.eng 0) 1 tRate g.base (32 * 3) = .ok () ∧
      (∀ i : Fin 2, ((s.eng 0).cell (g.keyK i.val)).ty = g.keyTy ∧ ((s.eng 0).cell (g.valK i.val)).ty = g.valTy ∧
        decBad ((s.eng 0).cell (g.valK i.val)).pay = none) ∧
      extLt (key 0) (key 1) = true ∧ extLe (key 0) (rateNum g.keyTy (tI 9)) = true ∧ extLt (rateNum g.keyTy (tI 9)) (key 1) = true ∧
      extLe (key 1) (rateNum g.keyTy (tI 10)) = true ∧ extLt (key 1) (rateNum g.keyTy (tI 10)) = false := by decide +kernel

/-- The field "-12" at 0x2000. -/
def tZone (l : List Cell) : State := tM l [(0x200, ⟨tyINT, 0, false, false, 0x32312D⟩)]

theorem met_zoned : let o : OpInfo := { imm := 1, pops := 1, pushes := 1, reads := 1 }
    let q : OpInfo := { imm := 1, pops := 2, reads := 2 }
    let s := tZone [tI 0x2000]
    let u := tZone [tI 0x2000, tD (-12)]
    let w := tZone [tI 0x2000, tD 100]
    zT 0x42 = 3 ∧ (s.eng 0).open? (s.view tX).pl.toNat 0x2000 3 = true ∧ s.issues tX o = true ∧ (s.view tX).stack = [tI 0x2000] ∧
      (∀ i : Fin 3, zAccepts 0x42 i.val (byteOfPay ((s.eng 0).cell ((0x2000 + i.val) / 16)).pay i.val) = true) ∧
      (s.eng 0).anyPoison 0x2000 3 = false ∧ u.issues tX q = true ∧ (u.view tX).stack = [tI 0x2000, tD (-12)] ∧
      decUse 1 (tD (-12)) = .ok () ∧ byteTargets (u.env tX q) (u.eng 0) 0x2000 3 = .ok () ∧
      byteTags (u.env tX q) (u.eng 0) 0x2000 3 = .ok () ∧ decMag (tD (-12)).pay < 10 ^ zLen 0x42 ∧ zForm 0x42 = 2 ∧
      w.issues tX q = true ∧ 10 ^ zLen 0x42 ≤ decMag (tD 100).pay := by decide +kernel

/-! ### What reaches the contexts -/

/-- A wait for a request at a stage. -/
abbrev tW (c : Ctx) (why : BitVec 4) (r : Req) (st : Stage) : Ctx := { c with state := .wait, wait := some ⟨why, r, st, none⟩ }

theorem met_counts : let c := { tCtx [] with state := .busy }
    let r : Req := .rlock tR 1 false
    (((tSt c).eng 0).ctx 0).state = .busy ∧ c.ending = false ∧ c.wait = none ∧ ({ c with ending := true } : Ctx).ending = true ∧
      ({ c with rmw := some (0x03, 0x2008, tI 7) } : Ctx).rmw = some (0x03, 0x2008, tI 7) ∧
      ({ c with wait := some ⟨1, r, .data, some .plain⟩ } : Ctx).wait = some ⟨1, r, .data, some .plain⟩ ∧
      ({ c with wait := some ⟨1, r, .data, none⟩ } : Ctx).wait = some ⟨1, r, .data, none⟩ ∧
      ({ c with wait := some ⟨1, r, .data, some (.cell (cellBool true))⟩ } : Ctx).wait = some ⟨1, r, .data, some (.cell (cellBool true))⟩ := by
  decide +kernel

/-- Entry `vec` of the vector table is in use. -/
def tVec (vec : Nat) (c : Ctx) : State :=
  { State.reset with
    engines := [(0, { tEng c with
      scratch := [(0x3000 + 2 * vec, ⟨1, 0, false, false, BitVec.ofNat 128 (0x200 + 2 ^ 19 + 2 ^ 20 + 3 * 2 ^ 22 + 0x31000 * 2 ^ 32)⟩),
        (0x3001 + 2 * vec, ⟨1, 0, false, false, BitVec.ofNat 128 (0x31800 + 2 ^ 18 * 0x31C00)⟩)] })] }

/-- A context with a machine check pending, one with a NOTICE of level 3, and the transaction of its slot. -/
abbrev tMc : Ctx := { tCtx [tI 1] with mcheck := some (1, 9) }
abbrev tNote : Ctx := { tCtx [tI 1] with notices := [(3, some ⟨2, 7⟩)] }
def tHeld (c : Ctx) : State := { tSt c with slots := [(0, { Slot.reset with state := .resident })] }

/-- Its engine is no longer assigned. -/
def tun : State := { tHeld tNote with engines := [(0, { tEng tNote with assigned := false })] }

theorem met_events : let s := tVec 0x18 tMc
    let x := (s.eng 0).ctx 0
    let t := tSt tNote
    x.takable = some (7, ⟨0x18, 0x04, 1, 0, 9, some 7⟩) ∧ (s.eng 0).nextIssue = some 0 ∧ ((s.eng 0).descr 0x18).v = true ∧
      (s.eng 0).descrFail x 0x18 ((s.eng 0).descr 0x18) true = none ∧
      ((t.eng 0).ctx 0).takable = some (3, ⟨0x13, 0, 2, 0, 7, some 3⟩) ∧ (t.eng 0).nextIssue = some 0 ∧
      x.vectorReads 0x18 = false ∧ ((t.eng 0).ctx 0).vectorReads 0x13 = false ∧ s.running 0 = true ∧ s.refused = [] ∧ ((t.eng 0).descr 0x13).v = false ∧
      (tHeld tNote).holder 0 = some (0, 0) ∧ ((tHeld tNote).eng 0).assigned = true ∧ ((tHeld tNote).clu 0).pst = .c0 ∧
      ((tHeld tNote).eng 0).inbox = [] ∧ (tun.eng 0).assigned = false ∧ tun.bounced.length < 4096 ∧ tNote.live = true ∧ tget none tNote.notices 5 = none ∧ tget none tNote.notices 3 ≠ none ∧
      (((tSt { tCtx [] with wdog := 1001 }).eng 0).wdogLimit ≠ 0) ∧
      (((tSt { tCtx [] with wdog := 1001 }).eng 0).wdogLimit.toNat < 1001) ∧ (tCtx []).wdp = none := by decide +kernel

theorem met_machine_checks : let c := { tCtx [tI 1] with state := .quarantined, qcause := 4, xst := 0x0400 }
    (tCtx [tI 1]).live = true ∧ (tCtx [tI 1]).strikes (.win 0) = true ∧ (tCtx [tI 1]).strikes (.loc 15) = true ∧ c.ending = false ∧
      ((tHeld c).slot 0).endable = true ∧ ((tHeld c).slot 0).wound = false ∧ ((tHeld c).slot 0).fate = none := by decide +kernel

/-- A registration: 16 bytes of code at 0x100, a stack at 0x1000, a work area at 0x2000. -/
abbrev tProg : Prog :=
  { super := false, fast := true, retry := 1, key := 1, rm := 0, tmpl := 0, caddr := 0x100000, clen := 16, entry := 0, sbase := 0x1000
    sstride := 0x400, ssize := 0x400, wbase := 0x2000, wstride := 0x100, wsize := 0x100, sglmax := 0x100, at_ := 0x100
    image := List.replicate 16 0, window := [] }

/-- A message to engine 0 as it is. -/
abbrev tMsg (k : MsgKind) : EngMsg := ⟨0, 0, 0, 0, 0, 0, k⟩

/-- Engine 0 assigned to hedge 0, all contexts FREE, with slot 0 ADMITTED. -/
def tDisp : State :=
  { State.reset with
    engines := [(0, { Engine.reset with assigned := true })], slots := [(0, { Slot.reset with state := .admitted, prog := some tProg })] }

theorem met_messages : let g := tDisp.eng 0
    let w : State := { tDisp with clus := [(0, { Clu.reset with waking := true })] }
    let z : State := { tDisp with clus := [(0, { Clu.reset with pst := .c2 })] }
    let i : State := { tDisp with engines := [(0, { g with inbox := [tMsg (.wake 0 1)] })] }
    (w.clu (cluOf 0)).waking = true ∧ (z.clu (cluOf 0)).waking = false ∧ (z.clu (cluOf 0)).pst ≠ .c0 ∧ (z.eng 0).assigned = true ∧
      (i.eng 0).inbox ≠ [] ∧ (tDisp.clu (cluOf 0)).pst = .c0 ∧ (tDisp.clu (cluOf 0)).waking = false ∧ g.inbox = [] ∧ g.hedge = 0 ∧
      g.epoch = 0 ∧ tDisp.aoTick.toNat ≤ 100000 ∧ ({ tMsg (.dispatch 0) with epoch := 1 } : EngMsg).epoch ≠ g.epoch ∧
      ({ tMsg (.dispatch 0) with start := 1 } : EngMsg).start ≠ (tDisp.slot 0).start ∧ tDisp.bounced.length < 4096 ∧
      ({ tDisp with bounced := List.replicate 4096 (tMsg (.wake 0 1)) } : State).bounced.length = 4096 ∧
      (tDisp.slot 0).state = .admitted ∧ (tDisp.slot 0).prog = some tProg ∧ (g.ctx 0).state = .free := by decide +kernel

theorem met_bounces : let b := fun (m : EngMsg) => ({ tDisp with bounced := [m] } : State)
    (b (tMsg (.dispatch 0))).bounced = [tMsg (.dispatch 0)] ∧ (∀ e, ((b (tMsg (.dispatch 0))).eng e).inbox = []) ∧
      ({ tMsg (.wake 0 1) with start := 1 } : EngMsg).start ≠ (tDisp.slot 0).start ∧
      ({ tMsg (.dispatch 0) with bounces := 3 } : EngMsg).bounces = 3 ∧ (tDisp.slot 0).sealed = false ∧ (tDisp.slot 0).gcs = none ∧
      (tDisp.slot 0).wound = false ∧ (tDisp.slot 0).fate = none ∧ (tDisp.eng 0).freeCtx? = some 0 := by decide +kernel

/-- A context that waits with a request at a stage, with its transaction. -/
abbrev tWait (why : BitVec 4) (r : Req) (st : Stage) : State := tHeld (tW (tCtx []) why r st)

theorem met_completions : let c := fun (s : State) => (s.eng 0).ctx 0
    let q := fun (s : State) => ({ s with
      movers := [((stageMover 0).val, { Mover.reset with chans := [((stageChan 0).val, { chanReset 0 0 with stages := [0] })] })] } : State)
    let st := tWait 6 (.stage tR 1 0x2000 false 1) .data
    let so := tWait 6 (.stage tR 1 0x2000 true 1) .data
    let wk : State := { tWait 5 (.waitev 3 7 none) .data with wakes := [tMsg (.wake 0 8)] }
    let wt : State := { tWait 5 (.waitev 3 7 none) .data with hedges := [(0, { Hedge.reset with waitList := [⟨0, 3, 7, some 0⟩] })] }
    let cm : State := { tSt (tW (tCtx []) 4 (.commit 0 0 0) .sent) with slots := [(0, { Slot.reset with state := .ending })] }
    (c (tWait 1 (.rlock tR 1 false) .data)).waitsFor (.rlock tR 1 false) .data ∧
      (c (tWait 1 (.rlock tR 1 false) (.failed 5))).waitsFor (.rlock tR 1 false) (.failed 5) ∧
      (c (tWait 2 (.rpref tR 1) (.pageFault 0x1000))).waitsFor (.rpref tR 1) (.pageFault 0x1000) ∧
      (c (tWait 1 (.rld tR 1 0x2000 1) (.failed 5))).waitsFor (.rld tR 1 0x2000 1) (.failed 5) ∧
      (c (tWait 1 (.rld tR 1 0x2000 1) .data)).waitsFor (.rld tR 1 0x2000 1) .data ∧
      ((tM [] [(0x200, { tI 1 with g := true })] 2).eng 0).guarded 0x2000 8 = true ∧
      (q st).stageHead 0 = some 0 ∧ ((q st).chan (stageMover 0) (stageChan 0)).state ≠ .errHalt ∧
      (c (q st)).waitsFor (.stage tR 1 0x2000 false 1) .data ∧ (c (q so)).waitsFor (.stage tR 1 0x2000 true 1) .data ∧
      (q so).stageHead 0 = some 0 ∧
      wk.wakes = [] ++ tMsg (.wake 0 8) :: [] ∧ wk.holder 0 = some (0, 0) ∧
      (c wk).waitsFor (.waitev 3 7 none) .data ∧ (wk.eng 0).assigned = true ∧ (wk.slot 0).state = .resident ∧
      (wt.hedge 0).waitList.find? (fun w => w.slot == 0) = some ⟨0, 3, 7, some 0⟩ ∧ wt.holder 0 = some (0, 0) ∧
      (c cm).state = .wait ∧ (c cm).wait = some ⟨4, .commit 0 0 0, .sent, none⟩ ∧ (cm.slot 0).state ≠ .sealing := by
  refine ⟨⟨rfl, rfl, 1, rfl⟩, ⟨rfl, rfl, 1, rfl⟩, ⟨rfl, rfl, 2, rfl⟩, ⟨rfl, rfl, 1, rfl⟩, ⟨rfl, rfl, 1, rfl⟩, by decide +kernel,
    by decide +kernel, by decide +kernel, ⟨rfl, rfl, 6, rfl⟩, ⟨rfl, rfl, 6, rfl⟩, by decide +kernel, by decide +kernel, by decide +kernel,
    ⟨rfl, rfl, 5, rfl⟩, by decide +kernel⟩

/-! ### Engine registers, clears and parking -/

/-- GLB_LOCK allows a write by CC0 T0. -/
abbrev tT : Requester := .thread 0

theorem met_roles : let s := tDisp
    let full : State := { tDisp with engines := [(0, { tDisp.eng 0 with roleLog := [(0, 65535)] })] }
    s.reaches tT = true ∧ bits (0x1C0 : Word64) 7 6 = 3 ∧ (s.eng 0).clean = true ∧ bits (0x105 : Word64) 7 6 ≠ 3 ∧
      bit (0x105 : Word64) 8 = true ∧ bits (0x105 : Word64) 5 0 ≠ (s.eng 0).lastHedge.val ∧ bit (0x105 : Word64) 9 = false ∧
      ({ s.eng 0 with clean := false } : Engine).clean = false ∧ 65535 ≤ tallied full.aoTick.toNat 100000 (full.eng 0).roleLog ∧
      tallied s.aoTick.toNat 100000 (s.eng 0).roleLog < 65535 := by decide +kernel

theorem met_clears : let s := State.reset
    s.reaches tT = true ∧ (s.eng 0).assigned = false ∧ (∀ kc ∈ (s.eng 0).ctxs, kc.2.state = .free) ∧ (tDisp.eng 0).assigned = true ∧
      (tDisp.eng 0).clearing = false ∧ (s.clu (cluOf 0)).pst = .c0 ∧ ({ Ctx.reset with state := .quarantined, qcause := 4 } : Ctx).qcause = 4 ∧
      (({ s with engines := [(0, { Engine.reset with clearing := true, clean := false })] } : State).eng 0).clearing = true := by
  decide +kernel

theorem met_engine_registers : let s := State.reset
    s.reaches tT = true ∧ bits (0x80030000 : Word64) 32 28 = 8 ∧ bits (0x80030000 : Word64) 17 12 = 0x30 ∧
      bits (0x100038000 : Word64) 32 28 = 16 ∧ ¬(bits (0x100038000 : Word64) 17 12 + 16 ≤ 0x38) ∧
      bits (0x000037F01 : Word64) 7 0 = 1 ∧ bits (0x000037F01 : Word64) 17 8 + 1 ≤ 0x380 ∧ ¬(bits (0x000038001 : Word64) 17 8 + 1 ≤ 0x380) ∧
      (s.eng 0).anyResident = false ∧ ((tS []).eng 0).anyResident = true ∧ ((s.eng 0).ctx 31).state = .free ∧
      ((tS []).ctxAt tX).state = .ready ∧ bits (0x5172 : Word64) 1 0 ≠ 3 ∧ bits (0x5172 : Word64) 14 12 ≤ 5 := by decide +kernel

theorem met_parking : let c := { tCtx [tI 1] with psw := { Psw.reset with pl := 2, key := 1 } }
    let sl : Slot := { Slot.reset with state := .resident, prog := some tProg }
    let s : State := { tSt c with slots := [(0, sl)] }
    let m : Image := { ctx := c, stack := [tI 1], work := [tI 2] }
    let u : State := { tDisp with slots := [(0, { sl with state := .parked, image := some m, runnable := true })] }
    let t : State := { State.reset with
      engines := [(0, { tEng { c with xd := 1 } with assigned := false })], slots := [(0, sl)] }
    s.bounced = [] ∧ s.cluHalted (cluOf 0) = false ∧ (0, 0) ∉ u.reserved ∧ u.bestTarget (u.hedgePort 0) 0 (u.unparkTargets (u.slot 0) tProg) = some (0, 0) ∧
      (u.slot 0).ctx = 0 ∧ u.cluHalted (cluOf 0) = false ∧ ({ u with clus := [(0, { Clu.reset with pst := .c2 })] } : State).bounced = [] ∧
      (t.slot 0).fate = none ∧ ((tW c 1 (.rld tR 1 0x2000 1) .data).request?.any Wait.moving) = true ∧
      (s.slot 0).prog = some tProg ∧ s.holder 0 = some (0, 0) ∧ (s.slot 0).state = .resident ∧ c.parkable tProg = true ∧
      (u.slot 0).image = some m ∧ (u.slot 0).state = .parked ∧ (u.slot 0).runnable = true ∧ (u.eng 0).assigned = true ∧
      ((u.eng 0).ctx 0).state = .free ∧ (u.clu (cluOf 0)).holds tProg = true ∧ (u.clu (cluOf 0)).pst = .c0 ∧
      (t.eng 0).assigned = false ∧ t.holder 0 = some (0, 0) ∧ ((t.eng 0).ctx 0).parkable tProg = false ∧ (t.slot 0).endable = true ∧
      (t.slot 0).wound = false ∧ ((t.eng 0).ctx 0).request? = none := by decide +kernel

/-! ### Rings -/

/-- Function 1, the first VF of host port 0, with hedge 0 bound to it. -/
def tV (q : Fn) : State := { State.reset with fns := [(1, q)], hedges := [(0, { Hedge.reset with fn := some 1 })] }

/-- The rings of that function, DOWN with legal bases, and READY. -/
abbrev tDown : Fn := { Fn.reset with hedge := some 0, state := .down, sqBase := 0x100, cqBase := 0x200, eqBase := 0x300 }
abbrev tReady : Fn := { tDown with state := .ready, en := true }

/-- Engine 0 assigned to hedge 0 besides. -/
def tVe (q : Fn) : State := { tV q with engines := [(0, { Engine.reset with assigned := true })] }

theorem met_doorbells : let s := tV tReady
    let q := s.fn 1
    (State.reset.fn 1).open? = false ∧ (State.reset.fn 1).openOut = false ∧ q.open? = true ∧ q.openOut = true ∧ q.eqRoom = true ∧
      2 ^ q.sqLog2.toNat ≤ bits (16 : Word64) 15 0 ∧ 2 ^ q.cqLog2.toNat ≤ bits (16 : Word64) 15 0 ∧
      2 ^ q.eqLog2.toNat ≤ bits (16 : Word64) 11 0 ∧ bits (15 : Word64) 15 0 < 2 ^ q.sqLog2.toNat ∧
      bits (15 : Word64) 15 0 < 2 ^ q.cqLog2.toNat ∧ bits (15 : Word64) 11 0 < 2 ^ q.eqLog2.toNat ∧ q.hedge = some 0 ∧
      q.evDropped = 0 ∧ (({ State.reset with devstat := 2, fns := [(0, { tReady with hedge := none })] } : State).fn 0).open? = true ∧
      ({ tReady with eqHead := 1 } : Fn).eqRoom = false ∧
      ((tV { tReady with evDropped := 5 }).fn 1).evDropped ≠ 0 ∧ ({ tReady with evDropped := 5, eqHead := 15 } : Fn).eqRoom = true := by decide +kernel

/-- A submission doorbell of three entries finds three FREE contexts of the FAST engine 0; with one of them FREE, one. -/
theorem met_targets : let d : State := { tVe tReady with
      engines := [(0, { Engine.reset with
        assigned := true, ctxs := (List.finRange 32).map fun i => (i.val, if i = 0 then Ctx.reset else { tCtx [] with state := .wait }) })] }
    (tVe tReady).reserved = [] ∧ ((tVe tReady).eng 0).role = 0 ∧ ((tVe tReady).clu (cluOf 0)).pst ≠ .c4 ∧
      (((tVe tReady).sqBell 1 3).fn 1).targets = [some (0, 0), some (0, 1), some (0, 2)] ∧
      ((d.sqBell 1 3).fn 1).targets = [some (0, 0), none, none] ∧ (d.sqBell 1 3).reserved = [(0, 0)] := by decide +kernel

/-- A function after a reset that has made its rings suspect. -/
abbrev tSus : Fn := { tDown with suspect := some { kind := 3, a := 0, b := 0, c := 0, d := 0 } }

theorem met_rings : let s := tV tDown
    let q := s.fn 1
    let p : State := { State.reset with devstat := 2, fns := [(0, { tDown with hedge := none })] }
    q.d3 = false ∧ q.en = false ∧ q.state = .down ∧ q.basesOk = true ∧ isPf 1 = false ∧ (s.hedge 0).pairTell = false ∧
      q.suspect = none ∧ ((tV tSus).fn 1).suspect = some { kind := 3, a := 0, b := 0, c := 0, d := 0 } ∧ (p.fn 0).basesOk = true ∧
      isPf 0 = true ∧ p.keeper.bootFail = false ∧ p.devstat = 2 ∧ (State.reset.fn 1).state ≠ .down ∧ (State.reset.fn 0).basesOk = false ∧
      ((tV tReady).fn 1).posting = true ∧ ((tV tReady).fn 1).flr = false ∧ ((tV tReady).fn 1).cur = [] ∧ ((tV tReady).fn 1).waiting = [] ∧
      ((tV tReady).fn 1).hedge = some 0 ∧ (tV tReady).liveSlots 0 = [] ∧ q.posting = false ∧ (0x12C : Nat) % 8 = 4 ∧
      ({ p with devstat := 1 } : State).devstat = 1 ∧ (0x108 : Nat) % 8 = 0 ∧ bit (0x700000003 : Word64) 1 = true ∧
      (0x2008, 8, ({ Msix.reset with data := 7, mask := false } : Msix)) ∈
        [(0x2008, 8, ({ Msix.reset with data := (7 : Word64).extractLsb' 0 32, mask := bit (7 : Word64) 32 } : Msix))] ∧
      (0x210 : Nat) / 8 * 8 ∉ [0, 8, 0x10, 0x100, 0x108, 0x110, 0x118, 0x120, 0x128, 0x130, 0x200] ∧
      ringCfgOk 0x0C1004 = true ∧ ringCfgOk 0x0D1004 = false := by decide +kernel

theorem met_function_resets : let s := tV tReady
    let w : Sent := ⟨0, false, some 7, 3, 0x1000⟩
    let r := tV { tReady with sent := [w] }
    (State.reset.fn 1).posting = false ∧ (State.reset.fn 1).state ≠ .draining ∧ isPf 1 = false ∧ (s.fn 1).posting = true ∧ (s.fn 1).cur = [] ∧
      (s.fn 1).waiting = [] ∧ s.liveSlots 0 = [] ∧ isPf 0 = true ∧ (State.reset.fn 0).state ≠ .draining ∧ portOf 1 = 0 ∧
      (s.fn 1).hedge.isSome = true ∧ r.oldestSent 0 = some (1, w) ∧ (r.port 0).logV = false ∧ (6 : BitVec 3).toNat ≤ 6 ∧
      (16 : BitVec 5).toNat ∈ [1, 2, 4, 8, 16] := by decide +kernel

/-- A completion that waits at the front end. -/
abbrev tK : Compl :=
  { gk := .own, gcs := 7, result := 0, hsn := 3, sqhead := 0, status := 0, cont := false, rp := false, detail := 0, slot := none, resync := false }

theorem met_posting : let s := tV { tReady with waiting := [tK] }
    let r : State := { tV { tReady with waiting := [{ tK with slot := some 0 }] } with slots := [(0, { Slot.reset with state := .applying, gcs := some 7 })] }
    let c := tV { tReady with waiting := [{ tK with gk := .carried }], cqSince := 1, intCnt := 9, intTime := 2, cqDue := some 2 }
    let a : State := { s with hedges := [(0, { Hedge.reset with fn := some 1, awaited := [(3, some tProg), (4, none)] })] }
    (a.hedge 0).awaited = (3, some tProg) :: [(4, none)] ∧ ({ tK with table := some 0 } : Compl).table = some 0 ∧ tK.slot = none ∧
      (s.fn 1).posting = true ∧ (s.fn 1).cqRoom = true ∧ (s.fn 1).resyncing = false ∧ (s.fn 1).waiting.find? (fun c => s.postable 1 c) = some tK ∧
      (r.fn 1).waiting.find? (fun c => r.postable 1 c) = some { tK with slot := some 0 } ∧
      (c.fn 1).waiting.find? (fun k => c.postable 1 k) = some { tK with gk := .carried } ∧ (c.fn 1).cqSince ≠ 0 ∧ (c.fn 1).cqDue = some 2 ∧
      2 ≤ ({ c with aoTick := 2 } : State).aoTick.toNat := by
  decide +kernel

/-! ### Host commands -/

/-- The 64 bytes of a command with HSN 0: its opcode, flags, program, parameter and cells. -/
def tB (op flags prog param : Nat) (l : List Byte) : List Byte :=
  ([BitVec.ofNat 8 op, BitVec.ofNat 8 flags] ++ bytesOfNat 2 prog ++ bytesOfNat 4 0 ++ bytesOfNat 8 param ++ l ++ List.replicate 48 0).take 64

/-- A command taken up. -/
abbrev tCmd (b : List Byte) : Cmd := { bytes := b, start := 0, slot := none, target := none, waits := none, mute := false }

/-- A registered program whose cells are three NILs. -/
abbrev tNils : Prog := { tProg with tmpl := 0x777 }

/-- The function reads its ring; its hedge has program 1 and may hold 64 slots. -/
def tRun (q : Fn) : State :=
  { tV q with hedges := [(0, { Hedge.reset with fn := some 1, progs := [(1, some tNils)], par := { Params.zero with sres := 64, scap := 64 } })] }

/-- With an entry in its ring. -/
abbrev tRead : Fn := { tReady with sqTail := 1 }

theorem met_submission : let s := tRun tRead
    let b := tB 0x03 0 0 0 []
    let r := tB 0x01 0 1 0 []
    let p : State := { State.reset with devstat := 2, fns := [(0, { tRead with hedge := none })] }
    let k : Token := ⟨77, 0x10, tB 0x10 0 0 0 [], 5, some 0, false⟩
    s.mayRead 1 = true ∧ s.readable 1 = true ∧ b.length = 64 ∧ cmdOp (tB 0x10 0 0 77 []) = 0x10 ∧ shapeOk (tB 0x10 0 0 77 []) = true ∧
      cmdParam (tB 0x10 0 0 77 []) = k.value ∧ k.op.toNat = 0x10 ∧ k.late 0 = false ∧ k.late 10000001 = true ∧
      shapeOk (tB 0x11 0 1 0 (List.replicate 16 0)) = true ∧ (s.liveSlots 0).length < (s.hedge 0).par.sres ∧ (s.slot 0).state = .idle ∧
      ({ s with hedges := [(0, { Hedge.reset with fn := some 1 })] } : State).slotRoom 0 = .capped ∧
      intArgs { tProg with tmpl := 0 } r = some [headerCell r, cellInt 0, cellInt 0, cellInt 0] ∧ p.mayRead 0 = true ∧
      (tB 0x01 0 2 0 []).length = 64 ∧ (s.fn 1).reread = none ∧ cmdHsn b = (s.fn 1).expHsn ∧ (s.fn 1).hedge = some 0 ∧
      shapeOk (tB 0x07 0 0 0 []) = false ∧ shapeOk b = true ∧ cmdOp b ≠ 0x01 ∧ cmdFence b = false ∧ cmdOp (tB 0x06 0 0 0 []) = 0x06 ∧
      shapeOk (tB 0x06 0 0 0 []) = true ∧ s.allEnded 1 0 = true ∧ shapeOk (tB 0x03 4 0 0 []) = true ∧ cmdFence (tB 0x03 4 0 0 []) = true ∧
      s.allPosted 1 0 = true ∧ shapeOk r = true ∧ cmdOp r = 0x01 ∧ (s.hedge 0).prog (cmdProg r) = some tNils ∧
      s.runArgs 0 tNils r = .ok [headerCell r, Cell.nil, Cell.nil, Cell.nil] ∧ s.slotRoom 0 = .ok ∧ s.idleSlotNo = some 0 ∧
      (s.hedge 0).prog (cmdProg (tB 0x01 0 2 0 [])) = none ∧ p.readable 0 = true ∧ (p.fn 0).hedge = none ∧
      adminShapeOk (tB 0x81 0 0 0 []) = true ∧ p.devstat ≠ 3 ∧ cmdOp (tB 0x81 0 0 0 []) ≠ 0x89 := by decide +kernel

theorem met_rereads : let b := tB 0x03 0 0 0 []
    let s := fun (n : Nat) => tV { tRead with reread := some (n, 9), expHsn := 5 }
    (s 1).readable 1 = true ∧ (tV { tRead with expHsn := 5 }).mayRead 1 = true ∧ ((s 1).fn 1).reread = some (1, 9) ∧ cmdHsn b ≠ ((s 1).fn 1).expHsn ∧ ((s 2).fn 1).reread = some (2, 9) ∧
      cmdHsn b ≠ ((tV { tRead with expHsn := 5 }).fn 1).expHsn := by decide +kernel

/-- A RUN taken up with slot 0, whose program's code stands in its cluster. -/
abbrev tRb : List Byte := tB 0x01 0 1 0 []
def tTaken (p : Prog) (b : List Byte) (cur : List Cmd) : State :=
  { tVe { tReady with cur := cur } with slots := [(0, { Slot.reset with state := .admitted, cmd := b, prog := some p })] }

theorem met_runs : let c : Cmd := { tCmd tRb with slot := some 0, target := some (0, 0) }
    let sc : Cmd := { tCmd tRb with slot := some 0 }
    let s := tTaken tProg tRb [c]
    let t := s
    let slow : Prog := { tProg with fast := false }
    let sg := tB 0x01 1 1 0 (bytesOfNat 8 0x8000 ++ bytesOfNat 2 1)
    let list := bytesOfNat 8 0x9000 ++ bytesOfNat 4 2 ++ bytesOfNat 4 0
    let g := tTaken tProg sg [{ tCmd sg with slot := some 0 }]
    let d : State := { tTaken slow tRb [] with engines := [(0, { Engine.reset with assigned := true, role := 1 })] }
    (t.slot 0).prog = some tProg ∧ (t.slot 0).state = .admitted ∧ (t.fn 1).hedge = some 0 ∧ (t.fn 1).oldest 0x01 = some c ∧ cmdSgl c.bytes = false ∧
      c.target = some (0, 0) ∧ sc.target = none ∧ d.bounced = [] ∧ (d.hedge 0).fn = some 1 ∧
      (∀ k ∈ (d.fn 1).cur, k.slot ≠ some 0) ∧ (0, 0) ∉ d.reserved ∧ d.bestTarget (d.hedgePort 0) 0 (d.dispatchTargets (d.slot 0) slow) = some (0, 0) ∧ (t.clu (cluOf 0)).waking = false ∧ (t.clu (cluOf 0)).pst = .c0 ∧
      (t.eng 0).inbox = [] ∧ (t.eng 0).assigned = true ∧ (t.eng 0).hedge = (t.slot 0).hedge ∧ ((t.eng 0).ctx 0).state = .free ∧ slow.fast = false ∧
      (g.slot 0).fate = none ∧ (g.fn 1).oldest 0x01 = some { tCmd sg with slot := some 0 } ∧ cmdSgl sg = true ∧
      sglEntries list (fieldOf (g.slot 0).cmd 24 2) = some [(0x9000, 2)] ∧ 2 ≤ tProg.sglmax ∧ (g.slot 0).sealed = false ∧ (g.slot 0).gcs = none ∧
      (g.slot 0).wound = false ∧ (d.slot 0).prog = some slow ∧ d.roleFits (d.slot 0) slow 0 = true ∧
      (d.clu (cluOf 0)).holds slow = true := by decide +kernel

/-- A hedge of a VF with directory range, slots, one engine and a root of page tables, and one record page at 0x8000. -/
abbrev tPar : Params :=
  { Params.zero with
    emin := 1, emax := 1, sres := 64, scap := 64, dcount := 4096, locks := 4096, lquota := 512, swinBase := 0x20, swinSize := 1, cw := 1, cptCount := 1
    cptBase := 8, stockBase := 0x20000, stockSlots := 1, store := 8 }
abbrev tH : Hedge := { Hedge.reset with fn := some 1, par := tPar, effMin := 1, rootV := true, root := BitVec.ofNat 32 ptPool }
def tPg (s : State) : State := State.install { s with tables := [(ptPool, some 0)] } 0 0x8000 1 (mkResident 7 true true false (fixedEnd / 4096))

/-- The VF with commands taken up. -/
def tDo (cur : List Cmd) : State := tPg { tVe { tReady with cur := cur } with hedges := [(0, tH)] }

/-- Endpoint 5: writable, external, at 0x8000, 8 bytes. -/
abbrev tEp : Endpoint := { Endpoint.zero with v := true, rw := true, ext := true, addr := 0x8000, len := 8, evseq := 9 }

/-- Commands of the hedge: READ of 0x8000, SIGNAL and EPSET of endpoint 5, MAP and UNMAP of 0x9000, RESYNC. -/
def tRdB : List Byte := tB 0x02 0 0 0 (bytesOfNat 8 0x8000 ++ bytesOfNat 8 8 ++ bytesOfNat 8 0x77000 ++ bytesOfNat 4 8)
def tSgB : List Byte := tB 0x03 0 0 5 []
def tEpB : List Byte := tB 0x04 0 0 0 (bytesOfNat 4 5 ++ [7] ++ bytesOfNat 11 0 ++ bytesOfNat 8 0x8000 ++ bytesOfNat 8 8)
def tMpB (m : Nat) : List Byte := tB 0x05 0 0 0 (bytesOfNat 8 0x9000 ++ bytesOfNat 8 0x1000 ++ [BitVec.ofNat 8 m, 1])
def tRsB : List Byte := tB 0x06 8 0 (2 + 2 ^ 32 * 4) []

theorem met_hedge_commands : let d := fun (op : Nat) (b : List Byte) => (cmdOp b == op) && ((tDo [tCmd b]).fn 1).oldest op == some (tCmd b)
    let s := tDo []
    let t : State := { s with dir := [(5, tEp)] }
    let u : State := { s with sports := [(0, { SPort.reset with used := true, blocks := 100 })] }
    let m : State := { u with durable := [(durKey 0 0x9000, (1, 7))] }
    let k : State := { s with locks := [(lockKey 0 0x8000, ⟨0, [(7, true)], []⟩)], slots := [(7, { Slot.reset with start := 5 })] }
    d 0x02 tRdB = true ∧ d 0x03 tSgB = true ∧ d 0x04 tEpB = true ∧ d 0x05 (tMpB 3) = true ∧ d 0x05 (tMpB 0x83) = true ∧
      d 0x06 tRsB = true ∧ (s.fn 1).posting = true ∧ (s.fn 1).hedge = some 0 ∧ cmdEp tRdB = false ∧ refOk (hostRef false (cellBytes tRdB 1)) = true ∧
      refLen (hostRef false (cellBytes tRdB 1)) ≤ fieldOf tRdB 40 4 ∧ (cmdParam tRdB).toNat ≤ s.lehr.drawn.toNat ∧
      s.lockedRead 0 0x8000 8 (tCmd tRdB) = .ok (List.replicate 8 0) ∧ s.readNoEntry 0 0x8000 (tCmd tRdB) = false ∧
      k.lockedRead 0 0x8000 8 (tCmd tRdB) = .locked ∧ (k.lockRec (lockKey 0 0x8000)).holders = [(7, true)] ∧ (s.lockRec (lockKey 0 0x8000)).waiters = [] ∧ t.defined? 0 (fieldOf tSgB 8 4) = some tEp ∧ tEp.ext = true ∧
      s.inRange 0 (fieldOf tEpB 16 4) = true ∧ fieldOf tEpB 20 1 % 2 = 1 ∧
      refOk ⟨5, 0, false, false, payOfBytes (cellBytes tEpB 2)⟩ = true ∧ bits (payOfBytes (cellBytes tEpB 2)) 52 48 = 0 ∧
      fieldOf (tMpB 3) 16 6 = 0x9000 ∧ fieldOf (tMpB 3) 24 8 = 4096 ∧ fieldOf (tMpB 3) 32 1 = 3 ∧ fieldOf (tMpB 3) 33 1 % 16 ≠ 0 ∧
      s.anyMapped 0 0x9000 4096 = false ∧ (u.hedge 0).stored < (u.hedge 0).par.store ∧ 3 ≤ u.tablesFree ∧ u.portUp 0 = true ∧
      tget 0 u.blockNext 0 < u.capacity 0 ∧ (∀ p, p < 16 → s.portUp p = false) ∧ 128 ≤ fieldOf (tMpB 0x83) 32 1 ∧
      fieldOf (tMpB 0x83) 32 1 / 16 % 4 = 0 ∧ m.mappedAt 0 1 0x9000 = true ∧ m.pageLocked 0 0x9000 4096 = false ∧ cmdRepost tRsB = true ∧
      hsnIn ((cmdParam tRsB).extractLsb' 0 32) ((cmdParam tRsB).extractLsb' 32 32) + 1 = 3 := by decide +kernel

/-- Steps: SCAN of endpoints 5 and 6 into 0 bytes, BULK of one unit, CHECKPOINT, REBUILD of one page. -/
def tScB : List Byte := tB 0x10 0 0 0 (bytesOfNat 4 5 ++ bytesOfNat 4 2 ++ bytesOfNat 8 0 ++ bytesOfNat 8 0x77000 ++ bytesOfNat 4 0)
def tBkB : List Byte := tB 0x11 0 1 0 (bytesOfNat 8 0x77000 ++ bytesOfNat 4 1)
def tCkB : List Byte := tB 0x12 0 0 0 []
def tRbB : List Byte := tB 0x13 0 0 0 (bytesOfNat 8 0x8000 ++ bytesOfNat 8 0x1000)

/-- A slot in a BULK step of two units, its second under way. -/
def tStep (u : Nat) (state : SlotState) : Slot :=
  { Slot.reset with state := state, work := .bulk { first := 0, unit := u, count := 2, addr := 0, blocks := [[]], committed := u, gcs := none, timeUp := false, cut := false } }

/-- A function with a step taken up, in slot 3. -/
abbrev tStepCmd (b : List Byte) : Cmd := { tCmd b with slot := some 3 }
def tStepIn (b : List Byte) : State :=
  { tDo [tStepCmd b] with
    dir := [(5, tEp)]
    slots := [(3, { Slot.reset with state := .admitted, cmd := b, prog := if cmdOp b = 0x11 then some tNils else none, work := .step b 0 })] }

theorem met_long_operations : let s := tStepIn tScB
    let p : State := { tStepIn tBkB with hedges := [(0, { tH with progs := [(1, some tNils)] })] }
    let on := fun (b : List Byte) => ((tStepIn b).slot 3).work == .step b 0 && ((tStepIn b).fn 1).oldest (cmdOp b) == some (tStepCmd b) &&
      (tStepIn b).stepHedges == [0]
    let r := fun (first room n : Nat) => (s.scan 0 (tStepCmd tScB) first room n ⟨[], 0, 0, .done, []⟩).stop
    let c := fun (w : CState) => ({ tSt { tCtx [] with state := w } with slots := [(0, tStep 0 .resident)] } : State)
    let a : State := { tV tReady with slots := [(0, tStep 0 .admitted)] }
    on tScB = true ∧ on tBkB = true ∧ on tCkB = true ∧ on tRbB = true ∧ r 5 0 2 = .full ∧ r 6 0 1 = .done ∧ (p.slot 3).prog = some tNils ∧ 0 < fieldOf tBkB 24 4 ∧
      p.runArgs 0 tNils (unitCmd (unitCmd tBkB []) (List.replicate 48 0)) = .ok [headerCell tBkB, Cell.nil, Cell.nil, Cell.nil] ∧
      s.lehr.journalled = true ∧ fieldOf tRbB 16 6 + fieldOf tRbB 24 8 ≤ 2 ^ 48 ∧ s.pageLocked 0 0x8000 0x1000 = false ∧
      (c .ready).holder 0 = some (0, 0) ∧ ((c .ready).slot 0).endable = true ∧ ((c .ready).slot 0).wound = false ∧
      (((c .ready).eng 0).ctx 0).state = .ready ∧ (((c .ready).eng 0).ctx 0).request? = none ∧ (c .wait).holder 0 = some (0, 0) ∧
      (((c .wait).eng 0).ctx 0).state = .wait ∧ (a.slot 0).state = .admitted ∧ (a.hedge (a.slot 0).hedge).fn = some 1 ∧ (a.fn 1).posting = true := by
  decide +kernel

/-! ### The admin ring -/

/-- The admin ring of host port 0 with a command taken up, on a state. -/
def tAd (s : State) (b : List Byte) : State :=
  { s with fns := tset Fn.reset s.fns 0 { tReady with hedge := none, cur := [tCmd b] } }

/-- An admin command for hedge 0 and VF 1 with a buffer of 4 KiB. -/
abbrev tAc (op : Nat) : List Byte := tB op 0 0 0 ([0, 0, 1, 0] ++ bytesOfNat 12 0 ++ bytesOfNat 8 0x77000 ++ bytesOfNat 4 4096)

/-- A parameter block with the fields of `tPar`; one with LQUOTA 0. -/
def tPb (lquota : Nat) : List Byte :=
  bytesOfNat 2 1 ++ bytesOfNat 2 1 ++ [0, 0] ++ bytesOfNat 2 0 ++ bytesOfNat 4 64 ++ bytesOfNat 4 64 ++ bytesOfNat 4 0 ++ bytesOfNat 4 4096 ++ bytesOfNat 4 4096 ++
    bytesOfNat 2 lquota ++ bytesOfNat 2 0 ++ bytesOfNat 4 0 ++ [0x20, 1, 0, 0, 1] ++ bytesOfNat 3 8 ++ bytesOfNat 4 (0x20000 + 2 ^ 18) ++ bytesOfNat 8 8 ++
    List.replicate 72 0

theorem met_admin : let s := tAd State.reset (tAc 0x82)
    let o := tAd (tDo []) (tAc 0x83)
    let d := tAd { tV tDown with hedges := [(0, tH)] } (tAc 0x84)
    let n : State := { tAd { State.reset with hedges := [(3, { tH with fn := some 5, par := { tPar with sres := 131072, dbase := 4096 } })] } (tAc 0x82) with
      bounced := [⟨0, 0, 7, 0, 0, 0, .dispatch 3⟩] }
    let w : Img := { Img.shipped with sigOk := false }
    let ad := fun (t : State) (op : Nat) => isPf 0 && (t.fn 0).hedge == none && (t.fn 0).oldest op == some (tCmd (tAc op)) && (t.fn 0).posting
    ad s 0x82 = true ∧ ad o 0x83 = true ∧ ad d 0x84 = true ∧ ad (tAd State.reset (tAc 0x81)) 0x81 = true ∧ ad (tAd State.reset (tAc 0x89)) 0x89 = true ∧
      4096 ≤ cmdLen (tAc 0x81) ∧ fieldOf (tB 0x88 0 0 0 [0xFF]) 16 1 = 0xFF ∧ cmdHedge (tAc 0x82) = some 0 ∧ s.vfNamed (tAc 0x82) = some 1 ∧
      (tPb 512).length = 128 ∧ paramsOf (tPb 512) = tPar ∧ s.paramBlockOk 0 (tPb 0) = false ∧ s.paramBlockOk 0 (tPb 512) = true ∧
      s.numberTaken 0 = false ∧ s.vfTaken 1 = false ∧ 0 < s.tablesFree ∧ n.sumsOk 0 tPar = false ∧ n.numberTaken 3 = true ∧ n.bounced ≠ [] ∧ s.sumsOk 0 tPar = true ∧ (s.hedge 0).used = 0 ∧ o.openHedge? (tAc 0x83) = some 0 ∧
      o.paramBlockOk 0 (tPb 512) = true ∧ o.sumsOk 0 tPar = true ∧ ((o.hedge 0).refitted tPar).isSome = true ∧ tPar.engineFields (o.hedge 0).par = true ∧
      o.hedgeQuiet 0 = true ∧ o.liveSlots 0 = [] ∧ (d.hedge 0).fn = some 1 ∧ isPf 1 = false ∧ (d.hedge 0).closing = false ∧
      (d.fn 1).posting = false ∧ (d.fn 1).cur = [] ∧ (d.fn 1).waiting = [] ∧ d.liveSlots 0 = [] ∧ d.hedgeQuiet 0 = true ∧
      d.loading 0 = false ∧ imgFormat Img.shipped = true ∧ imgBodyLen Img.shipped = 4096 ∧ imgKeyIdx Img.shipped = 0 ∧ bit s.keeper.revoke 0 = false ∧
      s.keeper.svnf ≤ imgSvn Img.shipped ∧ imgRecovery Img.shipped = false ∧ imgFormat Img.blank = false ∧ w.sigOk = false ∧ imgFormat w = true := by decide +kernel

/-- A registration: 16 bytes of code from 0x8000; kind 0 as program 1, kind 1 as the supervisor image. -/
def tRg (kind : Nat) : List Byte :=
  [BitVec.ofNat 8 kind, BitVec.ofNat 8 (1 - kind), 1, 1] ++ bytesOfNat 2 0x777 ++ bytesOfNat 2 0 ++ bytesOfNat 8 0x8000 ++ bytesOfNat 4 16 ++ bytesOfNat 4 0 ++
    bytesOfNat 4 0x8000 ++ bytesOfNat 4 0x100 ++ bytesOfNat 4 0x100 ++ bytesOfNat 4 0x10000 ++ bytesOfNat 4 0x100 ++ bytesOfNat 4 0x100 ++ List.replicate 80 0

/-- A table of 256 bytes: kind 3 a code page, kind 1 a string in slot 0, both at 0x800. -/
def tTb (kind : Nat) : List Byte :=
  [BitVec.ofNat 8 kind, 0] ++ bytesOfNat 2 0 ++ bytesOfNat 4 0x800 ++ bytesOfNat 4 256 ++ bytesOfNat 4 0 ++ bytesOfNat 8 0x77000 ++ bytesOfNat 8 0 ++
    bytesOfNat 16 (0x800 + 2 ^ 19 * 256) ++ List.replicate 16 0

theorem met_programs : let s := tAd (tDo []) (tAc 0x85)
    let z : List Byte := List.replicate 16 0
    let u := tAd { tDo [] with hedges := [(0, { tH with progs := [(256, some tProg)] })] } (tAc 0x86)
    let c := fun (b : Bool) => ({ State.reset with hedges := [(0, tH)], engines := [(0, { Engine.reset with clean := b })] } : State)
    s.openHedge? (tAc 0x85) = some 0 ∧ 128 ≤ cmdLen (tAc 0x85) ∧ regZeros (tRg 0) = true ∧ (progOf (tRg 0) 0 [] []).key ≠ 0 ∧
      regRanges (s.hedge 0).par (tRg 0) = true ∧ (progOf (tRg 0) 0 [] []).super = false ∧ (s.hedge 0).areasOk (progOf (tRg 0) 0 [] []) = true ∧
      s.regImages 0 (tRg 0) = .ok (z, []) ∧ s.codeInUse 0 = [] ∧ (s.hedge 0).awaited = [] ∧ s.loading 0 = false ∧ placeIn (s.hedge 0).par.codeLo (s.hedge 0).par.codeHi 16 (s.codeInUse 0) = some 0 ∧
      regZeros (tRg 1) = true ∧ regRanges (s.hedge 0).par (tRg 1) = true ∧ (progOf (tRg 1) 0 [] []).super = true ∧
      s.regImages 0 (tRg 1) = .ok (z, []) ∧ s.hedgeQuiet 0 = true ∧ (u.hedge 0).prog (fieldOf (tAc 0x86) 18 2) = none ∧
      (u.hedge 0).prog (fieldOf (tB 0x86 0 0 0 [0, 0, 0, 1]) 18 2) ≠ none ∧
      (s.hedge 0).tableOk (tTb 3) (tableOf (tTb 3) []) = true ∧ (s.hedge 0).tableOk (tTb 1) (tableOf (tTb 1) z) = true ∧
      (((s.hedge 0).withTable (tableOf (tTb 1) z)).map (·.bytes.length)).sum ≤ 0x100000 ∧
      (c true).assignable 0 0 = true ∧ (c false).assignable 0 0 = false ∧ (c false).reclaimable 0 0 = false ∧ (c false).unclean 0 = true ∧
      ({ tDo [] with hedges := [(0, { tH with effMin := 0 })] } : State).assignable 0 0 = false ∧
      ({ tDo [] with hedges := [(0, { tH with effMin := 0 })] } : State).reclaimable 0 0 = true := by decide +kernel

/-! ### Locks, wounds and commits -/

/-- A writable REF of the record at 0x8000, and its key and unit in the lock table. -/
abbrev tRf : Cell := ⟨tyREF, 1, false, false, BitVec.ofNat 128 (0x8000 + 2 ^ 64 * 8)⟩
abbrev tKey : Nat := lockKey 0 0x8000
abbrev tUnit : UnitId := chanOf (fixedEnd / 4096)

/-- A context that asks for that record exclusively, in slot 0, with these locks; slot 7 is younger. -/
def tLk (n : Nat) (sl : Slot) (l : Tab LockRec) : State :=
  { tPg { tWait 1 (.rlock tRf 1 true) .lock with hedges := [(0, { tH with par := { tPar with locks := n } })] } with
    slots := [(0, sl), (7, { Slot.reset with state := .resident, start := 9 })], locks := l }
abbrev tRes : Slot := { Slot.reset with state := .resident }

theorem met_locks : let s := tLk 4096 tRes []
    let h := tLk 4096 tRes [(tKey, ⟨tUnit, [(0, true)], []⟩)]
    let g := tLk 4096 { tRes with grants := List.replicate 64 ⟨0, 8, false, none⟩ } []
    let q := tLk 4096 tRes [(tKey, ⟨tUnit, [(7, true)], []⟩)]
    let z := tLk 0 tRes [(tKey, ⟨tUnit, [(7, true)], []⟩)]
    let r := fun (t : State) => { t.lockRec tKey with unit := tUnit }
    reqLock (.rlock tRf 1 true) = some (tRf, true) ∧ (tWait 1 (.rlock tRf 1 true) .lock).phys 0 0x8000 = none ∧
      s.phys 0 0x8000 = some fixedEnd ∧ s.holder 0 = some (0, 0) ∧ (r h).has 0 true = true ∧ (r g).has 0 true = false ∧
      64 ≤ (g.slot 0).grants.length ∧ (r s).has 0 true = false ∧ (s.slot 0).grants.length < 64 ∧ (r s).conflict 0 true = [] ∧
      (r s).waiters = [] ∧ s.unitEntries 0 tUnit tKey + ((r s).grant 0 true).entries ≤ (s.hedge 0).par.locks / 64 ∧
      (r q).has 0 true = false ∧ (r q).conflict 0 true ≠ [] ∧
      q.unitEntries 0 tUnit tKey + ({ r q with waiters := q.enqueue 0 true (r q).waiters } : LockRec).entries ≤ (q.hedge 0).par.locks / 64 ∧
      (z.slot 0).endable = true ∧ (z.slot 0).wound = false ∧
      (z.hedge 0).par.locks / 64 < z.unitEntries 0 tUnit tKey + (r z).entries + 1 := by decide +kernel

theorem met_lock_waits : ((tLk 4096 tRes []).eng 0).ctx 0 |>.waitsFor (.rlock tRf 1 true) .lock := ⟨rfl, rfl, 1, rfl⟩

/-- A slot that releases its locks, on the unit of one record that slot 7 waits for. -/
def tRel (sl : Slot) : State := { tV tReady with slots := [(0, sl)], locks := [(tKey, ⟨tUnit, [(0, true)], [(7, false)]⟩)] }
abbrev tEnds : Slot := { Slot.reset with state := .ending, releasing := true, unitsLeft := BitVec.ofNat 64 (2 ^ tUnit.val) }

theorem met_releases : let s := tRel tEnds
    let c : State := { tV tReady with slots := [(0, { tEnds with unitsLeft := 0 })] }
    let n : EngMsg := ⟨0, 0, 0, 0, 0, 0, .ended 0⟩
    let w := fun (sl : Slot) => ({ tHeld (tCtx []) with slots := [(0, sl)], wounds := [(0, 0)], endNotices := [n] } : State)
    (s.slot 0).releasing = true ∧ bit (s.slot 0).unitsLeft tUnit.val = true ∧ (∀ kv ∈ s.locks, ∀ z, (0, z) ∉ kv.2.waiters) ∧
      s.lockRec tKey = ⟨tUnit, [(0, true)], [(7, false)]⟩ ∧ (c.slot 0).releasing = true ∧ (c.slot 0).unitsLeft = 0 ∧ (c.slot 0).blocks = 0 ∧
      (c.slot 0).stops = 0 ∧ (c.slot 0).work = .run ∧ (c.slot 0).state ≠ .restarting ∧ (c.hedge 0).fn = some 1 ∧ (c.fn 1).posting = true ∧
      (w tRes).wounds = [(0, 0)] ∧ n.kind = .ended 0 ∧ (w tRes).accepts n = true ∧ (w tRes).accepts { n with epoch := 4 } = false ∧ ({ tRes with sealed := true } : Slot).sealed = true ∧ tRes.sealed = false ∧ tRes.endable = true ∧
      (w { tRes with wound := true }).endNotices = [n] ∧ ({ tRes with wound := true } : Slot).endable = true ∧
      (w { tRes with wound := true }).holder 0 = some (0, 0) ∧ (((w tRes).eng 0).ctx 0).request? = none ∧ (((w tRes).eng 0).ctx 0).state ≠ .busy ∧
      ({ tRes with state := .parked, wound := true } : Slot).endable = true := by decide +kernel

/-- A context in COMMIT whose index at 0x2000 names the record at 0x8000 and the buffer at 0x2100; w0 and w are its ends. -/
def tCmt (w0 w : Nat) (sl : Slot) : State :=
  { tPg { tVe tReady with hedges := [(0, tH)], engines := [(0, { tEng (tW (tCtx []) 4 (.commit 9 w0 w) .sent) with
      scratch := [(0x200, tRf), (0x201, tI 0x2100), (0x210, tI 5)] })] } with slots := [(0, sl)] }
abbrev tSl : Slot := { Slot.reset with state := .sealing, grants := [⟨0x8000, 8, false, none⟩] }

/-- What validation of the one entry comes to: its blocks and whether it has deltas, or the status. -/
def tVal (s : State) : Nat × Bool × Byte :=
  match s.indexEntry 0 0 ((s.eng 0).ctx 0) 0x2000 with
  | .ok _ ds len => (entryBlocks len, !ds.isEmpty, 0)
  | .fail _ st => (0, false, st)
  | .fault _ _ => (0, false, 0xFF)

theorem met_validation : let s := tCmt 0x2000 0x2020 tSl
    let f : State := { s with slots := [(0, { tSl with grants := [] })] }
    (s.slot 0).validating = true ∧ (s.slot 0).stgWait = false ∧ tVal s = (1, true, 0) ∧ 1 ≤ (s.clu (cluOf 0)).stgFree.toNat ∧
      tVal { s with clus := [(0, { Clu.reset with stgFree := 0 })] } = (1, true, 0) ∧ tVal f = (0, false, 1) ∧
      ({ tSl with stgWait := true } : Slot).validating = true ∧ (tCmt 0x2000 0x2020 { tSl with stgWait := true }).holder 0 = some (0, 0) ∧
      (f.slot 0).endable = true ∧ (f.slot 0).wound = false ∧ (f.slot 0).fate = none ∧ (tI 1).ty ≠ tyREF := by decide +kernel

theorem met_commit_waits : (((tCmt 0 0 tSl).eng 0).ctx 0).waitsFor (.commit 9 0 0) .sent ∧
    (((tCmt 0x2000 0x2020 tSl).eng 0).ctx 0).waitsFor (.commit 9 0x2000 0x2020) .sent := ⟨⟨rfl, rfl, 4, rfl⟩, ⟨rfl, rfl, 4, rfl⟩⟩

/-- A staged commit of one delta at step 5, with the Lehr as given. -/
abbrev tSt5 : Slot := { tSl with staged := true, deltas := [⟨0x8000, List.replicate 8 1⟩], entries := 1 }
def tAdm (sl : Slot) (l : Lehr) : State := { tV tReady with slots := [(0, sl)], lehr := l }

theorem met_admission : let s := tAdm tSt5 Lehr.reset
    (s.slot 0).state = .sealing ∧ (s.slot 0).staged = true ∧ (s.slot 0).endable = true ∧ s.lehr.held = false ∧ s.admission 0 = .yes ∧
      s.lehr.fenced = false ∧ s.lehr.failed = false ∧ ({ tSt5 with deltas := [] } : Slot).deltas = [] ∧ 0 ∉ s.lehr.waiting ∧
      ({ s with hedges := [(0, { Hedge.reset with quota := 0 })] } : State).admission 0 = .throttle ∧
      (tAdm tSt5 { Lehr.reset with inRing := 8192 }).admission 0 = .full ∧ 8192 < ({ Lehr.reset with inRing := 8192 } : Lehr).fill + 1 ∧
      (tAdm tSt5 { Lehr.reset with stalled := true }).lehr.held = true ∧ s.lehr.fill + 1 ≤ 8192 ∧ (s.hedge 0).used.toNat + 1 ≤ (s.hedge 0).quota.toNat ∧
      0 + s.lehr.twait.toNat ≤ ({ s with aoTick := 200 } : State).aoTick.toNat ∧ (s.slot 0).gcs = none := by decide +kernel

/-! ### The Lehr -/

/-- A delta in the controller's queue: of slot 0, `n` bytes at 0x8000. -/
abbrev tQ (n : Nat) : QDelta := ⟨0, 0, 7, 0x8000, List.replicate n 1, true⟩

/-- The Lehr as given, with slot 0 SEQUENCED. -/
def tLe (l : Lehr) : State := { tV tReady with lehr := l, slots := [(0, { Slot.reset with state := .sequenced, gcs := some 7, undurable := 1 })] }

theorem met_entries : let s := tLe { Lehr.reset with queue := [tQ 8, tQ 60] }
    let w : LWrite := ⟨5, 5, [0], none⟩
    let m : LWrite := ⟨5, 5, [], some (1, 9)⟩
    s.lehr.quiesced = false ∧ s.lehr.fenced = false ∧ s.lehr.failed = false ∧ s.lehr.cont = none ∧ s.lehr.queue = tQ 8 :: [tQ 60] ∧
      shortDelta (tQ 8).addr (tQ 8).bytes.length = true ∧ shortDelta (tQ 60).addr (tQ 60).bytes.length = false ∧
      ((tLe { Lehr.reset with writes := [w] }).lehr.writes.find? fun w => w.pos == (5 : Fin 8192).val) = some w ∧
      ((tLe { Lehr.reset with writes := [m] }).lehr.writes.find? fun w => w.pos == (5 : Fin 8192).val) = some m ∧
      (s.slot 0).state = .sequenced ∧ (s.slot 0).unpacked = 0 ∧ (s.slot 0).undurable = 1 ∧ s.lehr.mirrorIn = [] ∧
      (∀ w ∈ s.lehr.writes, w.bank ≠ (s.lehr.wp.toNat + s.lehr.rot.toNat) % 64) := by decide +kernel

/-- Slot 0 APPLYING one delta to the page at 0x8000. -/
def tApp (sl : Slot) : State := { tPg { tV tReady with hedges := [(0, tH)] } with slots := [(0, sl)] }
abbrev tApl : Slot := { Slot.reset with state := .applying, gcs := some 7, stops := 1, deltas := [⟨0x8000, List.replicate 8 1⟩] }

theorem met_apply : let s := tApp tApl
    s.phys 0 0x8000 = some fixedEnd ∧ stopOf (chanOf (fixedEnd / 4096)) = 0 ∧ bit (s.slot 0).stops (0 : StopId).val = true ∧
      pageParts 0x8000 8 = [(0x8000, 8)] ∧ (s.slot 0).state = .applying ∧ (s.slot 0).gcs.isSome = true ∧ (s.slot 0).releasing = false ∧
      (s.slot 0).blocks = 0 ∧ (s.slot 0).deltas ≠ [] := by decide +kernel

/-- Drives 0 and 1 in use, each with a journal zone. -/
def tDr (l : Lehr) : State :=
  { tV tReady with
    lehr := { l with zones := [(0, (true, 0x1000, 4)), (1, (true, 0x2000, 4))] }
    sports := [(0, { SPort.reset with used := true }), (1, { SPort.reset with used := true })] }

theorem met_drain : let g : LSeg := ⟨3, 3, some 1, 5, 2, false⟩
    let x : LPart := ⟨4, 4, 3, some 1, 6, 1, false⟩
    let s := tDr { Lehr.reset with segs := [g], inRing := 1024, rp := 3072, wp := 4096 }
    let f := tDr { Lehr.reset with full := true }
    s.lehr.segs.find? (fun x => x.seq == g.seq && !x.done) = some g ∧ s.lehr.segs.find? (fun x => x.seq == g.seq && !x.done && x.port.isSome) = some g ∧
      s.lehr.segs = [g] ∧ ({ g with fails := 1 } : LSeg).fails < 2 ∧ ((5 : BitVec 13).toNat % 1024 ≠ 0) ∧
      (tDr { Lehr.reset with wp := 5 }).freePlaces.head? = some (0, 0) ∧ (tDr { Lehr.reset with part := some x }).lehr.part = some x ∧ x.fails < 2 ∧
      ({ Lehr.reset with wp := 5, inRing := 5 } : Lehr).writtenIn ≠ 0 ∧ f.lehr.full = true ∧
      f.lehr.fullSince + 10000 ≤ ({ f with aoTick := 10000 } : State).aoTick.toNat ∧ (tDr { Lehr.reset with applied := 9 }).lehr.journalled = true ∧
      (tDr Lehr.reset).dirtyPages = [] ∧ (0 : Nat) ≤ (4 : Word64).toNat ∧ (4 : Word64).toNat ≤ (9 : Word64).toNat := by decide +kernel

theorem met_mirrors : let s := State.reset
    let u : State := { s with pleach := { s.pleach with links := [(1, { Link.reset with state := .up })] } }
    let a : State := { s with lehr := { s.lehr with unacked := [(3, [0], 0), (9, [0], 0)], pairEn := true }, aoTick := 20 }
    let m : State := { s with lehr := { s.lehr with mirrors := [⟨9, 4, 7, [1]⟩], asked := [5], inRing := 6, wp := 6, segSeq := 4 }, keeper := { s.keeper with step := 9 } }
    (u.link 1).state = .up ∧ u.lehr.fill < 8192 ∧ a.lehr.unacked = [(3, [0], 0)] ++ (9, [0], 0) :: [] ∧ (∀ x ∈ [((3 : Word64), [(0 : SlotId)], 0)], x.1 ≠ 9) ∧
      0 + a.lehr.ptmo.toNat ≤ a.aoTick.toNat ∧ a.lehr.pairdeg = false ∧ a.lehr.fall = false ∧ 9 ≤ m.keeper.step ∧
      m.lehr.ringSegs = [(4, 0)] ∧ (5 : Nat) ∈ m.lehr.asked ∧ u.lehr.mirrorIn = [] ∧ u.lehr.asleep = false ∧ a.lehr.pairEn = true ∧
      (∀ w ∈ u.lehr.writes, w.bank ≠ (u.lehr.wp.toNat + u.lehr.rot.toNat) % 64) := by decide +kernel

theorem met_recovery : let s := State.reset
    let f : State := { s with lehr := { s.lehr with failed := true } }
    let e : LEntry := { LEntry.empty with valid := true }
    let h : State := { s with lehr := { s.lehr with inRing := 3, wp := 3, ring := [(1, e)], pairEn := true } }
    let p : State := { tDr Lehr.reset with keeper := { s.keeper with step := 10 }, devstat := 1 }
    let z := fun (l : Lehr) => ({ p with lehr := l, pleach := { s.pleach with links := [(1, { Link.reset with state := .up })] } } : State)
    let q := z { p.lehr with supers := [(0, ⟨some (3, 2), none, true⟩)], records := [⟨2, 0, 1, false, 1, []⟩] }
    let l : Lehr := { q.lehr with segSeq := 12, records := [⟨2, 5, 1, false, 1, [e]⟩] }
    let a := z { l with pairEn := true, link := 1 }
    let n := z l
    let r : State := { z { p.lehr with inRing := 3, wp := 3, ring := [(0, e), (1, e), (2, e)] } with keeper := { s.keeper with step := 11 } }
    f.lehr.fenced = false ∧ f.lehrFailed = true ∧ s.lehr.reopened = none ∧ h.lehr.ringRun.contains (1 : Fin 8192).val = true ∧
      (tget LEntry.empty h.lehr.ring (1 : Fin 8192).val).valid = true ∧ h.lehr.pairOn = some 0 ∧ (1 : Fin 8192).val ∉ h.lehr.asked ∧
      p.keeper.step = 10 ∧ p.devstat = 1 ∧ p.keeper.failLatched = false ∧ p.lehr.supers = [] ∧ p.lehr.records = [] ∧ p.lehr.inRing = 0 ∧ p.portUp 0 = true ∧
      q.bestSuper = some (3, 2) ∧ q.askingFor 2 = none ∧ q.replayFails q.bestSuper (q.replayStream 3 2) = none ∧ a.askingFor 2 = some 1 ∧ a.lehr.askedAt = none ∧
      n.askingFor 2 = none ∧ n.replayFails n.bestSuper (n.replayStream 3 2) = some 4 ∧ r.keeper.step = 11 ∧ r.lehr.inRing ≠ 0 ∧ r.lehr.validRun ≠ [] ∧
      p.portUp 0 = true ∧ p.hwOpen 0 0 = true ∧ (p.lehr.freeRecord 0).isSome = true ∧ ({ p with sports := [] } : State).freePlaces = [] := by decide +kernel

/-! ### Paging -/

/-- A context that asks for the record at 0x8000 with key 0, its request at a stage; the leaf of the page as given. -/
abbrev tAsk : Req := .rlock tRf 0 true
def tWk (q : Req) (st : Stage) (p : Pte) : State :=
  State.install { tWait 1 q st with hedges := [(0, tH)], tables := [(ptPool, some 0)] } 0 0x8000 1 p

/-- A resident leaf, one that is not resident with zero contents, and one with blocks on drive 3. -/
abbrev tIn : Pte := mkResident 7 false false false (fixedEnd / 4096)
abbrev tZero : Pte := mkLeaf 7 true false 0x10 3 1 0
abbrev tOut : Pte := mkLeaf 7 false false 0x10 3 1 0
abbrev tAcc : Access := ⟨some 0, 0, 0, 0, true, false, false⟩

/-- With a translation of the page in the D-TLB. -/
abbrev tEnt : TlbEntry :=
  { TlbEntry.empty with valid := true, hedge := 0, size := 12, page := 8, frame := fixedEnd / 4096, r := true, w := true, x := true, used := true }
def tHit (t : TlbEntry) : State := { tWait 1 tAsk (.translate 0x8000) with engines := [(0, { tEng (tW (tCtx []) 1 tAsk (.translate 0x8000)) with dtlb := [(0, t)] })] }

theorem met_walks : let s := tWk tAsk (.translate 0x8000)
    let at_ : Nat := match ((s tIn).walk 0 0x8000).1 with | .leaf a _ _ => a | _ => 0
    reqAccess 0 0 tAsk = some (tAcc, 0x8000, 8) ∧ spanPages 0x8000 8 = [0x8000] ∧ tlbFind ((tHit tEnt).eng 0).dtlb 0 0x8000 = some 0 ∧
      tAcc.permitted tEnt.r tEnt.w = true ∧ tAcc.keyOk tEnt.fe = true ∧ tEnt.spec = false ∧ tAcc.setD = false ∧ tAcc.prefetch = false ∧
      tlbFind ((tHit { tEnt with spec := true }).eng 0).dtlb 0 0x8000 = some 0 ∧
      (reqAccess 0 0 (.rlock tRf 3 true)).isSome = true ∧ ({ tAcc with key := 3 } : Access).keyOk tEnt.fe = false ∧
      tlbFind ((s tIn).eng 0).dtlb 0 0x8000 = none ∧ tlbFind ((s tIn).clu (cluOf 0)).l2 0 0x8000 = none ∧
      ((s tIn).walk 0 0x8000).1 = .leaf at_ tIn 1 ∧ tIn.res = true ∧ ((s tZero).walk 0 0x8000).1 = .leaf at_ tZero 1 ∧ tZero.res = false ∧
      tAcc.permitted (bit tIn 1) (bit tIn 2) = true ∧ tAcc.key = 0 ∧ (s tIn).readsPoison ((s tIn).ftAddr tIn.frame) 2 = false ∧
      ((tWait 1 tAsk (.translate 0x8000)).walk 0 0x8000).1 = .fail 0x05 ∧
      reqAccess 0 0 (.rpref tRf 0) = some ({ tAcc with write := false, prefetch := true }, 0x8000, 8) ∧
      (s tIn).readsPoison at_ 8 = false ∧ ({ s tIn with poison := [(at_ / 32, true)] } : State).readsPoison at_ 8 = true := by decide +kernel

theorem met_walk_waits : ((tWk tAsk (.translate 0x8000) tIn).eng 0).ctx 0 |>.waitsFor tAsk (.translate 0x8000) := ⟨rfl, rfl, 1, rfl⟩

/-- The page of 0x8000 with a record of its frame. -/
def tPage (p : Pte) : State := { tWk tAsk (.pageFault 0x8000) p with alloc := if p.res then [(fixedEnd / 4096, some (0, 0x8000, 12))] else [] }

theorem met_pages : let at_ : Nat := match ((tPage tIn).walk 0 0x8000).1 with | .leaf a _ _ => a | _ => 0
    let pin : Pte := mkResident 7 true false true (fixedEnd / 4096)
    let v := fun (d : Bool) (g : Word64) => ({ tPage (tOut ||| 0x80) with
      evicts := [{ h := 0, base := 0x8000, level := 1, frame := fixedEnd / 4096, dirty := d, g := g }] } : State)
    ((tPage tZero).walk 0 0x8000).1 = .leaf at_ tZero 1 ∧ (tPage tZero).findFrames (levelFrames 1) = some (fixedEnd / 4096) ∧ bit tZero 8 = true ∧
      ((tPage tOut).walk 0 0x8000).1 = .leaf at_ tOut 1 ∧ bit tOut 8 = false ∧ ((tPage tOut).findFrames 1).isSome = true ∧
      ((tPage tIn).walk 0 0x8000).1 = .leaf at_ tIn 1 ∧ (tPage tIn).pageLocked 0 0x8000 4096 = false ∧ (tPage tIn).cleaningFirst = false ∧ bit tIn 9 = false ∧
      (tPage tIn).reaching 0 0x8000 4096 = false ∧ (tPage tIn).evicting 0 0x8000 = none ∧ bit tIn 5 = false ∧
      ((tPage pin).walk 0 0x8000).1 = .leaf at_ pin 1 ∧ pin.res = true ∧ bit pin 9 = true ∧ (tPage tZero).stageWaits 0 0x8000 = false ∧ (tPage tZero).pagerNext tZero.ssd = some 0 ∧
      ((v false 0).walk 0 0x8000).1 = .leaf at_ (tOut ||| 0x80) 1 ∧ ((v false 0).evicting 0 0x8000).isSome = true ∧
      (v false 0).evictDone { h := 0, base := 0x8000, level := 1, frame := fixedEnd / 4096, dirty := false, g := 0 } tOut = true ∧
      (v false 3).evictDone { h := 0, base := 0x8000, level := 1, frame := fixedEnd / 4096, dirty := false, g := 3 } tOut = false ∧
      (((tPage tZero).eng 0).ctx 0).state ≠ .free ∧ ((tPage tZero).slot (((tPage tZero).eng 0).ctx 0).slot).hedge = 0 ∧
      (((tPage tZero).eng 0).ctx 0).request? = some ⟨1, tAsk, .pageFault 0x8000, none⟩ ∧ inPage 0x8000 4096 0x8000 = true := by decide +kernel

theorem met_invalidations : let s := State.reset
    s.reaches tT = true ∧ s.regs.tlbBusy = false ∧ ({ s.regs with tlbBusy := true } : Regs).tlbBusy = true ∧
      ({ s with keeper := { s.keeper with debugLock := true } } : State).reaches .jtag = false := by decide +kernel

/-! ### The event units -/

/-- A context in WAITEV on endpoint 5, sequence number 9, and its hedge with a directory range. -/
def tEv (t : Option Nat) (d : Endpoint) (ws : List EvWait) : State :=
  { tWait 5 (.waitev 5 9 t) .data with
    hedges := [(0, { tH with waitList := ws })], dir := [(5, d)], evMsgs := [(0, 0, .wait)] }

theorem met_event_units : let s := tEv none { tEp with ext := false } []
    let g : State := { s with evMsgs := [(0, 0, .signal 0 5)] }
    let m : State := { s with movSigs := [((32, 20), 0, 5)] }
    let u := fun (k : Option Nat) => ({ tEv none { tEp with ext := false } [⟨0, 5, 9, none⟩] with
      hedges := [(0, { tH with waitList := [⟨0, 5, 9, none⟩], deadSince := k })], aoTick := 4 } : State)
    s.evMsgs = [(0, 0, .wait)] ∧ s.holder 0 = some (0, 0) ∧ ¬((s.hedge 0).par.dcount ≤ (5 : Word64).toNat) ∧
      (State.reset.hedge 0).par.dcount ≤ (5 : Word64).toNat ∧ (s.endpoint 0 (5 : Word64).toNat).evseq = 9 ∧
      ((tEv none { tEp with evseq := 8 } []).endpoint 0 (5 : Word64).toNat).evseq ≠ 9 ∧ g.evMsgs = [(0, 0, .signal 0 5)] ∧
      m.movSigs = [((32, 20), 0, 5)] ∧ 5 < (m.hedge 0).par.dcount ∧ s.allUnarmed 0 = false ∧ (u none).allUnarmed 0 = true ∧
      ((u none).hedge 0).deadSince = none ∧ ((u (some 2)).hedge 0).deadSince = some 2 ∧ 2 + 2 ≤ (u (some 2)).aoTick.toNat ∧
      ((u (some 2)).hedge 0).deadRaised = false ∧ ((u (some 2)).hedge 0).waitList = [⟨0, 5, 9, none⟩] ∧ (u (some 2)).holder 0 = some (0, 0) ∧
      (((u (some 2)).eng 0).ctx 0).state = .wait ∧ (((u (some 2)).eng 0).ctx 0).ending = false := by decide +kernel

theorem met_pruning : let u := fun (l : List SlotId) (d : Endpoint) => ({ tEv none d [⟨0, 5, 9, none⟩] with
      hedges := [(0, { tH with waitList := [⟨0, 5, 9, none⟩], pruned := l })] } : State)
    let s := u [] { tEp with ext := false }
    let p := u [0] { tEp with ext := false }
    let v : State := { s with slots := [(0, { Slot.reset with state := .resident }), (3, { Slot.reset with state := .admitted })] }
    s.openHedges = [0] ∧ ((s.hedge 0).waitList.filter fun w => (s.unarmedWait 0 w.slot).isSome) = [⟨0, 5, 9, none⟩] ∧
      s.markProgress 0 (s.liveSlots 0) ((s.liveSlots 0).length + 1) [] = [] ∧ ((s.hedge 0).pruned.filter fun n => (s.liveSlots 0).contains n) = [] ∧
      v.openHedges = [0] ∧ ((v.hedge 0).waitList.filter fun w => (v.unarmedWait 0 w.slot).isSome) = [⟨0, 5, 9, none⟩] ∧
      v.markProgress 0 (v.liveSlots 0) ((v.liveSlots 0).length + 1) [] ≠ [] ∧
      ((p.hedge 0).pruned.filter fun n => (p.liveSlots 0).contains n) = [0] ∧ p.holder 0 = some (0, 0) ∧ (p.slot 0).endable = true := by decide +kernel

theorem met_event_waits : (((tEv none tEp []).eng 0).ctx 0).waitsFor (.waitev 5 9 none) .data ∧
    (((tEv (some 0) tEp []).eng 0).ctx 0).waitsFor (.waitev 5 9 (some 0)) .data := ⟨⟨rfl, rfl, 5, rfl⟩, ⟨rfl, rfl, 5, rfl⟩⟩

/-! ### The movers -/

/-- Channel 20 of the system mover of host port 0, its ring at 0 in control-complex memory, with these bytes there. -/
def tMv (c : Chan) (ccm : Tab Byte) : State := { State.reset with movers := [(32, { Mover.reset with chans := [(20, c)] })], ccm := ccm }
abbrev tChn (st : ChState) : Chan := { Chan.reset with log2 := 4, spc := true, state := st }

/-- A descriptor: OWN, its operation and flags, 16 bytes from control-complex memory to HBM. -/
abbrev tDs (ctrl : Nat) (src dst : Nat) : Desc := ⟨BitVec.ofNat 64 (1 + ctrl + 16 * 2 ^ 32), BitVec.ofNat 64 src, BitVec.ofNat 64 dst, 0⟩
abbrev tCp : Desc := tDs 0 0x6000000000001000 0x2000000000002000

/-- Its bytes in the ring. -/
def tRing (d : Desc) : Tab Byte := tsetRun 0 [] 0 (bytesOfNat 8 d.ctrl.toNat ++ bytesOfNat 8 d.src.toNat ++ bytesOfNat 8 d.dst.toNat ++ bytesOfNat 8 d.aux.toNat)

/-- A 4 KiB transfer from drive 3 of a storage mover to HBM at 0x2000, and back. -/
abbrev tBk (out : Bool) : Desc :=
  ⟨BitVec.ofNat 64 (1 + 4096 * 2 ^ 32), if out then 0x2000000000002000 else 0x5000030000000001, if out then 0x5000030000000001 else 0x2000000000002000, 0⟩
/-- A burst of 16 bytes from control-complex memory in flight. -/
abbrev tBo : Burst := ⟨0x6000000000001000, 0, 16, false, 0, false, none⟩
def tSm (c : Chan) : State :=
  { State.reset with
    movers := [(34, { Mover.reset with chans := [(20, c)] })], ccm := tRing (tBk false), sports := [(3, { SPort.reset with used := true, blocks := 100 })] }

theorem met_channels : let s := fun (st : ChState) => tMv (tChn st) []
    let h : State := { State.reset with movers := [(32, { Mover.reset with errhalt := true, chans := [(20, { tChn .errHalt with flight := [tBo] })] })] }
    let w : Word64 := 4 + 2 ^ 4 * 2 ^ 5 + 2 ^ 40
    let x : Word64 := 1 + 2 ^ 4 * 3
    hwChan 32 20 = false ∧ ((s .idle).chan 32 20).state = .idle ∧ ((s .active).chan 32 20).cur = none ∧ ((s .idle).mover 32).errhalt = false ∧
      tCp.block = false ∧ (0 : Nat) < tCp.len ∧ (tBk false).block = true ∧ bits w 3 0 ≤ 12 ∧ bits w 37 5 % 2 ^ bits w 3 0 = 0 ∧ 1 ≤ bits x 8 4 ∧
      bits x 8 4 ≤ 16 ∧ bit (0x30 : Word64) 0 = false ∧ 1 ≤ bits (0x30 : Word64) 8 4 ∧ (h.mover 32).errhalt = true ∧ (h.mover 32).drained = false ∧
      Mover.reset.drained = true := by decide +kernel

theorem met_kick_hands_over : let s := fun (a : Byte) => ({ tMv { tChn .idle with sigv := true, ept := 5 } [] with
      hedges := [(0, tH)], dir := [(5, { tEp with marm := a })] } : State)
    let c := (s 7).chan 32 20
    (0 : Nat) < 2 ^ c.log2.toNat ∧ bit ((s 7).descAtIx c 0).ctrl 0 = false ∧ c.orphan = none ∧ bit (0x101 : Word64) 8 = true ∧ bit (1 : Word64) 8 = false ∧
      c.sigv = true ∧ c.ept.toNat < ((s 7).hedge c.hedge).par.dcount ∧ ((s 7).endpoint 0 5).marm ≠ 255 ∧ ((s 255).endpoint 0 5).marm = 255 := by
  decide +kernel

theorem met_descriptors : let s := tMv (tChn .active) (tRing tCp)
    let b := tMv (tChn .active) (tRing { tCp with dst := 0 })
    let p := tMv (tChn .active) (tRing (tDs 0x20 0x6000000000001000 0x2000000000002000))
    let k := tSm (tChn .active)
    let t : State := { State.reset with movers := [(32, { Mover.reset with pts := [(0, { Pacer.reset with period := 5, quota := 3 })] })], aoTick := 10 }
    (s.chan 32 20).state = .active ∧ (s.chan 32 20).cur = none ∧ bit ((tMv (tChn .active) []).readDesc (tChn .active)).ctrl 0 = false ∧
      s.readDesc (s.chan 32 20) = tCp ∧ bit tCp.ctrl 0 = true ∧ s.descOk 32 (s.chan 32 20) tCp = true ∧ tCp.pace = false ∧
      b.descOk 32 (b.chan 32 20) (b.readDesc (b.chan 32 20)) = false ∧ (p.readDesc (p.chan 32 20)).pace = true ∧
      p.descOk 32 (p.chan 32 20) (p.readDesc (p.chan 32 20)) = true ∧ ((p.mover 32).pt (p.readDesc (p.chan 32 20)).ptmr).req = false ∧
      k.readDesc (k.chan 34 20) = tBk false ∧ k.descOk 34 (k.chan 34 20) (tBk false) = true ∧ (tBk false).pace = false ∧
      ((State.reset.mover 32).pt 0).period = 0 ∧ ((t.mover 32).pt 0).period ≠ 0 ∧ t.aoTick.toNat % ((t.mover 32).pt 0).period.toNat = 0 := by decide +kernel

/-- A COPY in HBM whose ranges overlap, and its burst. -/
abbrev tOv : Desc := tDs 0 0x2000000000001000 0x2000000000001008
theorem met_overlap : let s := tMv { Chan.reset with log2 := 4, spc := true, state := .active, cur := some tOv, flight := [{ tBo with a := tOv.src }], next := 16 } []
    tOv.meets = true ∧ tCp.meets = false ∧ maSpace tOv.dst = 2 ∧ (16 : Nat) ≤ s.writeRoom tOv.dst (s.chan 32 20).done ∧ tOv.block = false ∧
      (s.chan 32 20).next = tOv.len := by decide +kernel

/-- A channel with a descriptor under way. -/
abbrev tRun1 (d : Desc) (e : Option (Byte × BitVec 11)) : Chan := { tChn .active with cur := some d, ended := e }

theorem alone_of {s : State} {m : MovId} {ch : ChId} {c : Chan} (h : (s.mover m).chans = [(ch.val, c)]) (k : s.chan m ch = c) : s.aloneAt m ch := by
  intro kc hk
  rw [h] at hk
  exact .inl ((List.mem_singleton.1 hk).trans (by rw [k]))

theorem met_served : (tMv (tChn .active) (tRing tCp)).servedNow 32 20 ∧ (tSm (tChn .active)).servedNow 34 20 :=
  ⟨⟨alone_of rfl rfl, by decide +kernel⟩, ⟨alone_of rfl rfl, by decide +kernel⟩⟩

theorem met_completed_descriptors : let s := tMv (tRun1 tCp (some (0, 0))) []
    let d := tDs 0x110 0x6000000000001000 0x2000000000002000
    let h := tDs 0 0x4000000000001000 0x2000000000002000
    let b := tDs 8 0x6000000000001000 0x4000000000002000
    let l := fun (c : Chan) => ({ tMv c [] with aoTick := 0xF0000000 } : State)
    (s.chan 32 20).cur = some tCp ∧ (s.chan 32 20).state ≠ .errHalt ∧ (s.chan 32 20).ended = some (0, 0) ∧ tCp.chain = false ∧ tCp.int = false ∧
      (s.chan 32 20).mustFlush tCp = false ∧ ({ tRun1 b (some (0, 0)) with done := 16 } : Chan).mustFlush b = true ∧
      (s.chan 32 20).aborting = false ∧ d.chain = true ∧ d.sig = true ∧ d.chn ≠ 20 ∧ ((tMv (tRun1 tCp none) []).chan 32 20).ended = none ∧ h.op = 0 ∧
      maSpace h.src = 4 ∧ maSpace h.dst = 2 ∧ (l (tRun1 h none)).expired 32 0 = true ∧ s.expired 32 0 = false := by decide +kernel

theorem met_bursts : let s := tMv { tRun1 tCp none with flight := [tBo], next := 16 } []
    let p := tDs 0x20 0x6000000000001000 0x2000000000002000
    let c := tDs 4 0x6000000000001000 0x6000000000002000
    let f := { tWk tAsk (.pageFault 0x8000) tZero with movers := [(1, { Mover.reset with chans := [(20, tChn .active)] })] }
    let r : Desc := tDs 0 0x3000000000008000 0x2000000000002000
    let o : Chan := { tChn .idle with orphan := some ⟨tBk false, true, 64, true, 0⟩ }
    tCp.block = false ∧ (s.chan 32 20).flight = [tBo] ∧ (s.chan 32 20).next = tCp.len ∧ tBo.off = (s.chan 32 20).done ∧ p.pace = true ∧
      maSpace tCp.src = 6 ∧ maSpace tCp.dst = 2 ∧ tCp.op = 0 ∧ hwChan 1 20 = false ∧ maSpace r.src = 3 ∧ maSpace r.dst ≠ 3 ∧
      ((f.maPrefetch 1 r.src 0).maTrans 1 r.src 0 16 false).2 = .fault 0x8000 ∧ c.op = 2 ∧
      (∀ b ∈ s.maRead 32 c.src 0 16 [] false ++ s.maRead 32 c.dst 0 16 [] false, b.2 = false) ∧
      (s.maRead 32 c.src 0 16 [] false).map (·.1) = (s.maRead 32 c.dst 0 16 [] false).map (·.1) ∧
      (({ s with ccm := [(0x1003, 7)] } : State).maRead 32 c.src 0 16 [] false)[3]? = some (7, false) ∧ (tBk false).op = 0 ∧ (tBk false).gather = false ∧
      (tBk false).fromBlock = true ∧ maSpace (tBk false).dst = 2 ∧ (tBk true).fromBlock = false ∧ maSpace (tBk true).src = 2 ∧
      State.reset.readsPoison (bits (tBk true).src 37 0) (tBk true).len = false ∧ (tDs 2 0 0x5000030000000001).block = true ∧ o.orphan.isSome = true := by
  decide +kernel

/-! ### Power -/

/-- Cluster 0 as given, 2,000 ao-ticks after reset. -/
def tCl (c : Clu) : State := { State.reset with clus := [(0, c)], aoTick := 2000 }
abbrev tCp3 (p : PState) : Clu := { Clu.reset with pst := p }
abbrev tUp : Clu := { tCp3 .c4 with waking := true, code := [(0, 1)] }

theorem met_power_states : let s := fun (p : PState) => tCl (tCp3 p)
    let v : Word64 := 3 + 2 * 2 ^ 4 + 2 ^ 16 * 9 + 2 ^ 32 * 9
    ((s .c0).clu 0).pst = .c0 ∧ ((s .c0).clu 0).waking = false ∧ ((s .c0).clu 0).floor ≠ 0 ∧ (s .c0).cluQuiet 0 = true ∧ ((s .c3).clu 0).pst ≠ .c0 ∧
      2 ≤ ((s .c1).clu 0).floor.toNat ∧ (s .c1).cluResident 0 = false ∧ (s .c1).moverIdle 0 = true ∧ (s .c1).cluWarm 0 = false ∧
      ((s .c1).clu 0).since + ((s .c1).clu 0).t2.toNat ≤ (s .c1).aoTick.toNat ∧ 3 ≤ ((s .c2).clu 0).floor.toNat ∧
      ((s .c2).clu 0).since + ((s .c2).clu 0).t3.toNat ≤ (s .c2).aoTick.toNat ∧ (s .c0).cluHedges 0 = [] ∧ ((s .c0).clu 0).waking = false ∧
      ((tCl tUp).clu 0).waking = true ∧ ((tCl tUp).clu 0).held = [] ∧ (s .c0).reaches tT = true ∧ bits v 2 0 ≤ 4 ∧ bits v 6 4 ≤ 4 ∧ bits v 31 16 ≠ 0 ∧
      bits v 47 32 ≠ 0 ∧ 4 < bits (7 : Word64) 2 0 ∧ ((tCl { Clu.reset with upTo := some (4, 0) }).clu 0).upTo = some (4, 0) ∧ 0 + 5 ≤ (tCl Clu.reset).aoTick.toNat ∧
      (tCl Clu.reset).aoTick.toNat < 1999 + 5 ∧ ((s .c0).clu 0).upTo = none := by
  decide +kernel

theorem met_heat : let h := tCl { Clu.reset with hotAt := some 10, coolAt := some 10 }
    let w := tCl { Clu.reset with hotAt := some 1999, coolAt := some 1999 }
    let n : CluId := 0
    n.val = (1 : SensorId).val / 2 ∧ (380 : BitVec 11).toInt = 380 ∧ (412 : BitVec 11).toInt = 412 ∧ (420 : BitVec 11).toInt = 420 ∧ ((-4 : BitVec 11).toInt < 372) ∧
      ((tCl Clu.reset).clu 0).hotAt = none ∧ (h.clu 0).hotAt ≠ none ∧ 10 + 1000 ≤ h.aoTick.toNat ∧ w.aoTick.toNat < 1999 + 100 ∧
      ({ h with keeper := { h.keeper with brake := true } } : State).keeper.brake = true ∧ h.keeper.brake = false ∧
      (({ h with regs := { Regs.reset with sens := [(0, (0, false))] } } : State).sensor 0).2 = false ∧
      ((tCl { Clu.reset with sampled := true }).clu 0).blind = false ∧ ((tCl { Clu.reset with sampled := true }).clu 0).sampled = true := by decide +kernel

/-- Hedge 0 open, with this committed guarantee and these registers. -/
def tGd (g : Nat) (e : Nat × Nat) : State :=
  { State.reset with hedges := [(0, { tH with par := { tPar with gcommit := g, emin := 100 }, gRise := e, effRise := e })] }

theorem met_windows : let s := tGd 50 (9, 50)
    let new := effective 50 false 50 0 (625 * s.clocks) 2
    s.openHedges = [0] ∧ (0 : HedgeId) ∈ s.openHedges ∧ (3041 : Nat) > 3040 ∧ s.regs.limit.toNat < 3000 ∧ (2432 + 128 ≤ s.regs.limit.toNat) ∧
      (∃ k : CluId, (s.clu k).pst ≠ .c4 ∧ 0 < min (s.clu k).pcap.toNat (s.clu k).point.toNat) ∧ (s.hedge 0).ecommit.toNat < new ∧ 9 ≤ (s.hedge 0).gRise.1 ∧
      ((tGd 50 (3, 50)).hedge 0).gRise.1 < 9 ∧ effective 0 false 0 0 (625 * s.clocks) 2 ≤ ((tGd 0 (0, 0)).hedge 0).ecommit.toNat ∧ s.effMins ≠ [] := by decide +kernel

/-! ### Power failure, start-up and the keeper -/

def tKp (k : Keeper) : State := { State.reset with keeper := k, aoTick := 9000000 }

theorem met_resets : let k := Keeper.reset
    let f := tKp { k with failLatched := true }
    let b := tKp { k with step := 5, beats := [(2, 7)] }
    let r : List Word64 := [8999998, 8999999]
    f.keeper.failLatched = true ∧ f.keeper.thermtrip = false ∧ f.keeper.rst = false ∧ f.keeper.crystalLost = false ∧
      ({ k with crystalLost := true } : Keeper).crystalLost = true ∧ ({ k with rst := true } : Keeper).rst = true ∧ k.awake = true ∧ k.step = 0 ∧ k.gaveUp = false ∧
      3 ≤ b.keeper.step ∧ b.keeper.step ≤ 9 ∧ b.regs.bootok = false ∧ b.keeper.recov = false ∧ b.keeper.bootFail = false ∧
      b.keeper.released + 8000000 ≤ b.aoTick.toNat ∧ b.keeper.heldCores = false ∧ tget 0 b.keeper.beats 2 = 7 ∧ 7 + 99999 ≤ b.aoTick.toNat ∧
      ((r.filter fun (x : Word64) => decide (b.aoTick.toNat < x.toNat + 3600000000)) ++ [b.aoTick]).length = 3 ∧
      ({ b.regs with fatal := true } : Regs).fatal = true := by decide +kernel

/-- What a start finds when nothing is wrong, but for one cluster and the rails and SPI as given; and a channel that fails. -/
def tIns (rails : Bool) (spi : Option Img) (bad : List UnitId) : StartIn := ⟨rails, spi, [], bad, [3], ⟨7, [], []⟩, [], [], []⟩

theorem met_starts : let k := Keeper.reset
    let e : Keeper := { k with imgA := Img.blank }
    let rec_ : Img := { Img.shipped with header := Img.headerOf 0 2 }
    let l : State := { tKp { k with step := 12 } with devstat := 1 }
    let g : State := tKp { k with step := 9, svnCommit := some 3, dirDone := true }
    k.awake = true ∧ k.failLatched = false ∧ k.crystalLost = false ∧ k.thermtrip = false ∧ k.gaveUp = false ∧ k.bootFail = false ∧ k.step ≤ 1 ∧
      State.reset.devstat = 0 ∧ (k.choose none).1 = .slot false false ∧ (k.img false).patchOk = true ∧ (e.choose (some rec_)).1 = .recovery rec_ ∧
      (e.choose none).1 = .none ∧ (3 : CluId) ∈ (tIns true none []).bad ∧ (4 : CluId) ∉ (tIns true none []).bad ∧ (∀ r ∈ k.repair, r.1 ≠ 4) ∧
      (tIns true none []).patches.words.length ≤ 128 ∧ l.keeper.step = 12 ∧ l.devstat = 1 ∧ (tIns true none []).lend = [] ∧ g.reaches tT = true ∧
      g.regs.bootokW = false ∧ bit (1 : Word64) 0 = true ∧ g.pleachPart = true ∧ ({ g.regs with bootokW := true } : Regs).bootokW = true ∧
      ({ g.regs with lock := true } : Regs).lock = true ∧ g.keeper.svnCommit = some 3 ∧ g.keeper.dirDone = true ∧ k.dirDone = false := by decide +kernel

/-! ### Control space -/

/-- Cluster 0 with a bad code word in the image of a program at 0x8000. -/
def tCr : State :=
  { tDo [] with
    hedges := [(0, { tH with progs := [(256, some { tProg with caddr := 0x8000, at_ := 0, image := List.replicate 16 0 })] })]
    engines := [(0, { Engine.reset with assigned := true })], clus := [(0, { Clu.reset with crbad := 4, crbadv := true })] }

theorem met_control_space : let s := State.reset
    let f : State := { s with clus := [(0, { Clu.reset with failing := some [5] })] }
    let w := fun (a : Nat) => 240 ≤ a ∧ a ≤ 360
    s.reaches tT = true ∧ regOf (3 : BitVec 32).toNat = none ∧ aliasOff (3 : BitVec 32).toNat = none ∧ (regOf (0x100 : BitVec 32).toNat).isSome = true ∧
      bits (800 : Word64) 11 0 = 800 ∧ bits (3041 : Word64) 11 0 = 3041 ∧ w 240 ∧ ¬w 361 ∧ s.regs.lock = false ∧
      ({ s.regs with lock := true } : Regs).lock = true ∧ bit s.regs.pfbusy (1 : CoreId).val = false ∧ bit (2 : BitVec 4) (1 : CoreId).val = true ∧
      s.cluResident 0 = false ∧ (tHeld (tCtx [])).cluResident 0 = true ∧ (s.clu 0).failing = none ∧ (f.clu 0).failing = some [5] ∧ f.moverIdle 0 = true ∧
      (tCr.clu 0).crbadv = true ∧ (tCr.codeAt 0 0).isSome = true ∧ tCr.imagePages 0 0x8000 16 true = .ok (List.replicate 16 0) := by decide +kernel

/-! ### Errors, ports and the management bus -/

abbrev tErr (sev : Byte) : ErrRec := ⟨0, 0x06, sev, 3, 0, 0, none, none, none, []⟩
def tEr (l : List ErrRec) (g : Regs) : State := { State.reset with errq := l, regs := g }

/-- The record ring of 64 entries, full. -/
abbrev tRingFull : Regs := { Regs.reset with tail := 63 }

theorem met_errors : let f : State := { tPage tIn with poison := [(fixedEnd / 32 + 3, true)] }
    let o : State := { f with alloc := [] }
    let g := fixedEnd / 32 + 3
    stopOf (chanOf (g / 128)) = 0 ∧ 32 * g < hbmBytes ∧ g ≠ lastGranule 0 ∧ stopOf (chanOf (lastGranule 3 / 128)) = 3 ∧ 32 * lastGranule 3 < hbmBytes ∧
      bit State.reset.chanFailed 5 = false ∧ tallied 10 1000000 (tget [] State.reset.chanUe 5) ≤ 4096 ∧
      4096 < tallied 10 1000000 (tget [] ({ State.reset with chanUe := [(5, [(0, 5000)])] } : State).chanUe 5) ∧ tget false State.reset.poison g = false ∧ tget Latent.none State.reset.hbmLatent g = .none ∧ bit (32 : BitVec 64) 5 = true ∧ fixedEnd ≤ 32 * g ∧
      f.failing (fixedEnd / 4096) = true ∧ o.residentAt (fixedEnd / 4096) = none ∧ (f.residentAt (fixedEnd / 4096)).isSome = true ∧
      (f.findFrames 1).isSome = true ∧ f.failing (fixedEnd / 4096 + 1) = false ∧ (tEr [] Regs.reset).errq = [] ∧
      (tEr [tErr 1] Regs.reset).runOf (tErr 1) = none ∧ (63 + 1) % 2 ^ tRingFull.rbLog2.toNat = tRingFull.head.toNat % 2 ^ tRingFull.rbLog2.toNat ∧
      ((tEr [tErr 0] { Regs.reset with runs := [⟨6, 3, 0, 0, tErr 0, 1⟩] }).runOf (tErr 0)).isSome = true := by decide +kernel

theorem met_management : let k : Keeper := { Keeper.reset with alarms := [⟨.fuse, 1, 2⟩], alarmsOver := 3 }
    800 ≤ (3040 : BitVec 12).toNat ∧ (799 : BitVec 12).toNat < 800 ∧ 3040 < (3041 : BitVec 12).toNat ∧ k.alarms = [⟨.fuse, 1, 2⟩] ∧
      ({ k with alarms := [] } : Keeper).alarmsOver ≠ 0 ∧ Keeper.reset.alarms = [] ∧ Keeper.reset.alarmsOver = 0 ∧
      (({ State.reset with sports := [(3, { SPort.reset with used := true, blocks := 100 })] } : State).sport 3).used = true ∧ (State.reset.sport 3).used = false := by decide +kernel

/-- A block transfer from drive 3 under way: its window takes the blocks' requests and no others. -/
def tWin : State :=
  { State.reset with movers := [(34, { Mover.reset with chans := [(20, { tRun1 (tBk false) none with issued := true })] })]
                     keeper := { Keeper.reset with step := 13 }, devstat := 2, ports := [(0, { HPort.reset with crs := false, vfs := 5 })] }
theorem met_windows_and_pins : tWin.windows 3 = [(0x2000000000002000, 4096)] ∧ State.reset.windows 3 = [] ∧ tWin.keeper.running = true ∧
    State.reset.keeper.running = false ∧ (tWin.port (portOf 5)).crs = false ∧ (5 : FnId).val % 65 ≤ (tWin.port (portOf 5)).vfs := by decide +kernel

/-! ### The pleach -/

/-- The device with link 1 as given, at a step of the start sequence, 3 s after reset. -/
def tLn (l : Link) (step : Nat) : State :=
  { State.reset with pleach := { Pleach.reset with links := [(1, l)] }, keeper := { Keeper.reset with step := step }, aoTick := 3000000 }
abbrev tLs (st : LinkState) : Link := { Link.reset with en := true, state := st, peer := 7 }

/-- The identity message of the device of a serial, in this device's set or not. -/
abbrev tPeer (x set : Word64) : PeerId := ⟨x, set, 4, 0x0102, [], 0, false, [], []⟩

/-- No peer is known and no link is UP: this device is its only member. -/
theorem alone {s : State} (h : s.pleach.known = []) (u : s.upLinks = []) : s.memberSet = [Config.serial] := by
  simp [State.memberSet, State.reach, State.neighbours, h, u]; rfl

/-- Some serial is another's. -/
theorem other_serial : Config.serial + 1 ≠ Config.serial := by
  intro h; have := congrArg (· - Config.serial) h; simp at this

theorem met_links : let s := fun (st : LinkState) => tLn (tLs st) 13
    let d : State := tLn { tLs .training with downs := 4 } 9
    let k : State := { s .up with pleach := { (s .up).pleach with known := [tPeer 7 0] } }
    (((s .training).link 1).state = .training ∧ 9 ≤ (s .training).keeper.step ∧ (s .training).keeper.failLatched = false ∧ ((s .training).link 1).downs ≤ 3 ∧
      3 < (d.link 1).downs ∧ ((s .up).link 1).state ≠ .training ∧
      ((s .training).link 1).since + 10000 * (s .training).pleach.budget.toNat ≤ (s .training).aoTick.toNat ∧ (s .absent).reaches tT = true ∧
      ((s .absent).link 1).en = true ∧ ((s .absent).link 1).state ≠ .up ∧ ((s .held).link 1).state = .held ∧ (s .held).keeper.step = 13 ∧
      (tPeer 7 0).serial = ((s .up).link 1).peer ∧ (tPeer 7 1).setid ≠ (s .up).pleach.setid ∧ (tPeer 7 0).setid = (s .up).pleach.setid ∧
      tPeer 7 0 ∉ (s .up).pleach.known ∧ tPeer 7 0 ∈ k.pleach.known ∧ (s .up).pleach.settled = false ∧
      (s .up).pleach.changed + 50000 ≤ (s .up).aoTick.toNat ∧ (s .up).pleach.clash = false) ∧
    (tPeer (Config.serial + 1) 0).serial ≠ Config.serial ∧ (s .absent).memberSet.length ≤ 16 :=
  ⟨by decide +kernel, other_serial, by rw [alone rfl (by decide +kernel)]; decide⟩

/-- The settled device in this pleach. -/
def tSet (p : Pleach) : State := { tLn (tLs .absent) 13 with pleach := { p with settled := true } }

theorem met_snapshots : let p := Pleach.reset
    let s := tSet { p with leader := Config.serial }
    let c := tSet { p with collecting := some (1, 2999000), snapState := 1, snapNum := 5 }
    let k := tSet { p with leader := Config.serial + 1 }
    (State.reset.pleach.settled = false ∧ s.pleach.settled = true ∧ s.pleach.seterr = false ∧ s.keeper.step = 13 ∧ c.pleach.collecting.isSome = true ∧
      s.pleach.collecting = none ∧ s.pleach.snapState ≠ 1 ∧ State.reset.leads = false ∧ s.pleach.snapNum ≠ 5 ∧ c.pleach.collecting = some (1, 2999000) ∧
      c.aoTick.toNat ≤ 2999000 + 1000 ∧ 2999000 + 1000 ≤ c.aoTick.toNat ∧ 2998999 + 1000 < c.aoTick.toNat ∧ c.pleach.snapState = 1) ∧
    k.pleach.leader ≠ Config.serial ∧ s.pleach.leader = Config.serial ∧ (∀ x ∈ s.memberSet, x = Config.serial) ∧ s.leads = true ∧ k.leads = false :=
  ⟨by decide +kernel, other_serial, rfl, by rw [alone rfl (by decide +kernel)]; simp, by simp [State.leads, tSet, Pleach.reset],
    by simp [State.leads, tSet]⟩

/-- This device with a peer that is UP on link 1, whose membership holds both. -/
def tTwo : State := { tLn { tLs .up with peer := Config.serial + 1 } 13 with pleach := { Pleach.reset with links := [(1, { tLs .up with peer := Config.serial + 1 })], settled := true, leader := Config.serial } }

theorem met_two_members : Config.serial + 1 ∈ tTwo.memberSet := by
  have u : tTwo.upLinks = [1] := by decide +kernel
  have l : (tTwo.link 1).peer = Config.serial + 1 := rfl
  simp [State.memberSet, State.reach, State.neighbours, u, l, show tTwo.pleach.known = [] from rfl]

/-- Hedge 0, with VF 1 READY, at step 13, its target the device of serial 7 on link 1. -/
def tMg (p : Pleach) : State :=
  { tDo [] with pleach := { p with links := [(1, tLs .up)] }, keeper := { Keeper.reset with step := 13 } }

/-- The target's copy: hedge 3, from hedge 4 of the device of serial 7. -/
abbrev tInc : MigRec × HedgeDef := (⟨7, 4, 3⟩, ⟨2, tPar, [], none, []⟩)
def tTg (p : Pleach) : State :=
  { State.reset with pleach := { p with phase := 1, role := true, migHedge := 3, partner := 7, incoming := some tInc }, hedges := [(3, { Hedge.reset with par := tPar })], sports := [(3, { SPort.reset with used := true, blocks := 100 })], keeper := { Keeper.reset with step := 13 } }

theorem met_migrations : let p := Pleach.reset
    let s := tMg p
    let m := tMg { p with phase := 1 }
    let l := { m with slots := [(0, { Slot.reset with state := .resident })] }
    let d := tMg { p with phase := 2 }
    let r : State := { State.reset with keeper := { Keeper.reset with step := 13 } }
    let t := tTg p
    let c : Nat × Nat × Word64 := (0x8000, 1, mkLeaf 7 false false 5 3 1 0)
    (s.hedge 0).fn = some 1 ∧ s.keeper.step = 13 ∧ (s.hedge 0).closing = false ∧ s.pleach.phase = 0 ∧ s.pleach.incoming = none ∧ s.pleach.seterr = false ∧
      (s.joined 7).isSome = true ∧ s.joined 8 = none ∧ m.pleach.phase ≠ 0 ∧ s.pleach.role = false ∧ s.pleach.final = false ∧ l.liveSlots 0 ≠ [] ∧
      (l.fn 1).state = .ready ∧ d.liveSlots 0 = [] ∧ (d.fn 1).cur = [] ∧ (d.fn 1).waiting = [] ∧
      r.mayReceive 3 (incomingDef 2 (tPb 512) [] none []) (tPb 512) = true ∧ t.pleach.incoming = some tInc ∧ t.pleach.phase = 1 ∧
      t.pleach.copiedAt 0x8000 = none ∧ t.pleach.early = [] ∧ (t.takeBlocks 3 1).isSome = true ∧ pageParts 0x8000 8 = [(0x8000, 8)] ∧
      ({ t.pleach with copied := [c] } : Pleach).copiedAt 0x8000 = some c ∧ ({ d.pleach with final := true } : Pleach).final = true ∧
      t.pleach.role = true ∧ ({ p with phase := 3 } : Pleach).phase = 3 ∧ State.reset.lehr.paused = false ∧
      [(⟨7, 4, 3⟩ : MigRec)].find? (fun m => m.here == 3 && m.serial == 7) = some ⟨7, 4, 3⟩ := by decide +kernel

/-! ### The machine as a whole -/

/-- At a context that may not issue, outside its windows, with a prefix that the form does not take, at a privilege it does not have, in a slot that is annulled, and at
an empty operand stack. -/
theorem met_checks : let i : OpInfo := { pops := 1, pushes := 2, reads := 1 }
    let s := tS [tI 1]
    let u := tU [tI 1]
    let a := tSt { tCtx [tI 1] with pb := some ⟨true, true, 0⟩ }
    let o := tSt { tCtx [tI 1] with pc := 0x8000 }
    let d := tSt { tCtx [tI 1] with pb := some ⟨false, false, 0⟩ }
    (State.reset.eng tX.eng).mayIssue tX.ctx = false ∧ (s.eng tX.eng).mayIssue tX.ctx = true ∧ (o.eng tX.eng).mayIssue tX.ctx = true ∧
      (o.eng tX.eng).fetchClosed (o.ctxAt tX).pc.toNat (i.len tX.px) = some 0x8000 ∧ (s.eng tX.eng).fetchClosed (s.ctxAt tX).pc.toNat (i.len tX.px) = none ∧
      (s.clu (cluOf tX.eng)).fetchBad (s.ctxAt tX).pc.toNat (i.len tX.px) = false ∧ (d.eng tX.eng).mayIssue tX.ctx = true ∧
      (({ delayBad := true, readsRs := true } : OpInfo).encFault tX.px (d.ctxAt tX).pc.toNat (d.ctxAt tX).pb.isSome).isSome = true ∧
      (({ esc := true, priv := true, pops := 1, reads := 1 } : OpInfo).encFault tX.px (u.ctxAt tX).pc.toNat (u.ctxAt tX).pb.isSome) = none ∧
      (({ esc := true, priv := true, pops := 1, reads := 1 } : OpInfo).privFault tX.px (u.ctxAt tX).pc.toNat (u.ctxAt tX).psw.pl.toNat).isSome = true ∧
      i.early tX.px (a.ctxAt tX) = none ∧ (a.ctxAt tX).annulled = true ∧ i.early tX.px (s.ctxAt tX) = none ∧ (s.ctxAt tX).annulled = false ∧
      (i.stkFault ((tS []).ctxAt tX)).isSome = true := by decide +kernel

/-- The state after reset meets the premises of the invariants, and a command waits in this one. -/
theorem met_whole : let s : State := { State.reset with pending := [.glbLockWrite tT, .pwrBrakeRelease] }
    let r := State.reset.regs
    State.reset.memOk = true ∧ s.memOk = true ∧ s.pending = .glbLockWrite tT :: [.pwrBrakeRelease] ∧ State.reset.pending = [] ∧ s.reaches tT = true ∧
      ({ r with lock := true } : Regs).lock = true ∧ (0xB : BitVec 4)[(3 : Fin 4)] = true ∧
      (∀ e, (s.eng e).role ≠ 3) ∧ (∀ k, (s.clu k).floor ≤ 4 ∧ (s.clu k).target ≤ 4) ∧ 800 ≤ r.limit.toNat ∧ r.limit.toNat ≤ 3040 ∧
      ({ s with pending := [.fuseRequest tT (.floor 4)] } : State).pending.head? = some (.fuseRequest tT (.floor 4)) := by decide +kernel

/-! ### The spec's worked examples -/

/-- The state an outcome goes on with. -/
def goesOn (o : Host.Outcome State Fault Refusal) (s : State) : State := match o with | .next t => t | _ => s

/-- The stack and what is left of its count, after a command of context 0 on this stack. -/
def after (i : Instr) (l : List Cell) : List Cell × BitVec 8 :=
  let t := goesOn (exec i (tS l)) (tS l)
  ((t.view tX).stack, ((t.eng 0).ctx 0).left)

abbrev tDc (n : Nat) : Cell := ⟨tyDEC, 0, false, false, BitVec.ofNat 128 n⟩

/-- 06, a 2.5 % fee: DMUL of 10.60 and 0.025, the top of the result the high half, for the sale and for the refund. -/
theorem test_dmul_fee : (after (.dmul tX) [tDc 0x25C, tDc 0x1060C]).1 = [tDc 0xC, tDc 0x26500C] ∧
    (after (.dmul tX) [tDc 0x25C, tDc 0x1060D]).1 = [tDc 0xD, tDc 0x26500D] := by decide +kernel

/-- 06, the same: DSHR.P 3 under half-even, half-up, floor and ceiling. -/
theorem test_dshr_fee :
    let f := fun (rm : BitVec 3) (l : List Cell) => let s := tSt { tCtx l with psw := { Psw.reset with pl := 1, rm := rm } }
      ((goesOn (exec (.dshr tX 0x43) s) s).view tX).stack
    let a := [tDc 0xC, tDc 0x26500C]
    let b := [tDc 0xD, tDc 0x26500D]
    f 0 a = [tDc 0x26C] ∧ f 1 a = [tDc 0x27C] ∧ f 0 b = [tDc 0x26D] ∧ f 1 b = [tDc 0x27D] ∧ f 4 b = [tDc 0x27D] ∧ f 5 b = [tDc 0x26D] := by decide +kernel

/-- 06, three shares of 100.00 and of −100.00: quotient and remainder, in 36 cy. -/
theorem test_ddiv_shares : after (.ddiv tX) [tDc 0x3C, tDc 0x10000C] = ([tDc 0x1C, tDc 0x3333C], 35) ∧
    (after (.ddiv tX) [tDc 0x3C, tDc 0x10000D]).1 = [tDc 0x1D, tDc 0x3333D] := by decide +kernel

/-- 06, the counts of MULI: 1,000 × 70,000 in 4 cy, −1 × 2^40 in 3 cy. -/
theorem test_muli_counts : after (.muli tX) [tI 70000, tI 1000] = ([tI 70000000], 3) ∧ after (.muli tX) [tI (2 ^ 40), tI (-1)] = ([tI (-2 ^ 40)], 2) := by
  decide +kernel

/-- 07 Table 7-8, an acquirer's fee: TLI on 57.30, 4.20 and 250.00, r left on the stack below y. -/
theorem test_tli_fee :
    let r : Cell := ⟨10, 0, false, true, 0x0000000000000000000008460011_0000⟩
    let t : Tab Cell := (List.range 8).map fun i => (0x1000 + i, tDc ([0x5C, 0x300C, 0xC, 0x80C, 0x1000C, 0x120C, 0x10000C, 0x150C].getD i 0))
    let s := fun (x : Nat) => ({ State.reset with engines := [(0, { tEng (tCtx [tDc x, r]) with scratch := t })] } : State)
    let f := fun (x : Nat) => ((goesOn (exec (.tli tX) (s x)) (s x)).view tX).stack
    f 0x5730C = [tDc 0x69C, r] ∧ f 0x420C = [tDc 0x5C, r] ∧ f 0x25000C = [tDc 0x300C, r] := by decide +kernel

/-- The EDIT of 07 Table 7-5 as it issues: the pattern at 0x2000, with FILL `*`, and the output area at 0x2100. -/
def tEdit : State :=
  let pat : List Byte := List.replicate 52 0x20 ++ [1, 0x2C, 1, 1, 1, 0x2C, 1, 1, 2, 0x2E, 1, 1, 5, 0x20, 0x43, 0x52]
  let p : Cell := ⟨tyCHR, 1, false, true, 0x162A0000000000000_2202000⟩
  let o : Cell := ⟨tyCHR, 0, false, false, 0x2802100⟩
  let c : Nat → Cell := fun i => ⟨1, 0, false, false, BitVec.ofNat 128 (natOfBytes ((pat.drop (16 * i)).take 16))⟩
  { State.reset with
    engines := [(0, { tEng (tCtx [o, p, tDc 0x123456789D]) with scratch := [(0x200, c 0), (0x201, c 1), (0x202, c 2), (0x203, c 3), (0x204, c 4)] })] }

/-- 07 Table 7-5, the first execution: the descriptors move on by 32 bytes, and asterisks stand at 0x2100 to 0x211F. -/
theorem test_edit_first :
    ((goesOn (exec (.edit tX) tEdit) tEdit).view tX).stack.map (·.pay.toNat) =
      [0x00000000000000000000080002802100, 0x00000000162A00000000080002202000, 0x123456789D] := by decide +kernel

/-- 11, the entry of the reference debit: its header and its descriptor. -/
theorem test_debit_entry :
    let b := packedEntry [⟨0, 5, 0x129F000A40, 0x7A3C12345688, List.replicate 16 7, true⟩]
    b.length = 64 ∧ natOfBytes (b.take 8) = 0x000129F000A40144 ∧ natOfBytes ((b.drop 8).take 6) = 0x4F4782468AD1 ∧ (b.drop 14).take 16 = List.replicate 16 7 := by
  decide +kernel
end Sys2Proof.Tests
end

section
/-! The values that reset leaves (02 R45, 19 R594). A state whose numbered tables are empty reads the reset value at every
number, so the obligation is two facts: both states of it are of that form, and the reset values are the stated ones. -/

namespace Sys2Proof.Machine

/-- What State.reset and a device reset have in common: every numbered group, the links of the pleach with it, is an empty
table, and the parts that keep nothing the obligation speaks of are at their reset values. -/
structure State.AsReset (t : State) : Prop where
  engines : t.engines = []
  clus : t.clus = []
  movers : t.movers = []
  hedges : t.hedges = []
  fns : t.fns = []
  slots : t.slots = []
  links : t.pleach.links = []
  pleach : t.pleach.budget = 0x104 ∧ t.pleach.members = 1 ∧ t.pleach.seterr = false ∧ t.pleach.settled = false ∧ t.pleach.phase = 0
  lehr : t.lehr.twait = 0xC8 ∧ t.lehr.jlimit = 0x1000 ∧ t.lehr.pairEn = false ∧ t.lehr.fall = false ∧ t.lehr.ptmo = 0x14
  regs : t.regs = Regs.reset
  devstat : t.devstat = 0

/-! ### Both states are as after reset -/

/-- Writing HBM bytes touches the bytes, the poison and the latent errors of HBM, nothing else. -/
theorem hbmWrite_rest (s : State) (a : Nat) (bs : List Byte) (pz : Bool) :
    ∃ m p q, s.hbmWrite a bs pz = { s with hbm := m, poison := p, hbmLatent := q } := ⟨_, _, _, rfl⟩

/-- Writing directory entries to HBM, one after another, touches nothing outside HBM. -/
theorem foldl_hbmWrite_rest (l : List (Nat × Endpoint)) : ∀ s : State,
    ∃ m p q, l.foldl (fun (t : State) kv => t.hbmWrite (64 * kv.1) (endpointBytes kv.2)) s =
      { s with hbm := m, poison := p, hbmLatent := q } := by
  induction l with
  | nil => exact fun s => ⟨s.hbm, s.poison, s.hbmLatent, rfl⟩
  | cons kv l ih =>
    intro s
    obtain ⟨_, _, _, h⟩ := hbmWrite_rest s (64 * kv.1) (endpointBytes kv.2) false
    obtain ⟨m, p, q, h'⟩ := ih (s.hbmWrite (64 * kv.1) (endpointBytes kv.2))
    exact ⟨m, p, q, by rw [List.foldl_cons, h', h]⟩

/-- The directory's bytes in HBM are all that `dirToHbm` changes. -/
theorem dirToHbm_rest (s : State) : ∃ m p q, s.dirToHbm = { s with hbm := m, poison := p, hbmLatent := q } :=
  foldl_hbmWrite_rest s.dir s

theorem dirToHbm_asReset {s : State} (h : s.AsReset) : s.dirToHbm.AsReset := by
  obtain ⟨m, p, q, he⟩ := dirToHbm_rest s
  rw [he]
  exact ⟨h.engines, h.clus, h.movers, h.hedges, h.fns, h.slots, h.links, h.pleach, h.lehr, h.regs, h.devstat⟩

theorem reset_asReset : State.reset.AsReset where
  engines := rfl
  clus := rfl
  movers := rfl
  hedges := rfl
  fns := rfl
  slots := rfl
  links := rfl
  pleach := ⟨rfl, rfl, rfl, rfl, rfl⟩
  lehr := ⟨rfl, rfl, rfl, rfl, rfl⟩
  regs := rfl
  devstat := rfl

/-- A device reset keeps the Lehr array, the drives, the directory and the migrations prepared or moved, and no part named above. -/
theorem deviceReset_asReset (s : State) (n : Nat) : (s.deviceReset n).AsReset :=
  dirToHbm_asReset
    { engines := rfl, clus := rfl, movers := rfl, hedges := rfl, fns := rfl, slots := rfl, links := rfl
      pleach := ⟨rfl, rfl, rfl, rfl, rfl⟩, lehr := ⟨rfl, rfl, rfl, rfl, rfl⟩, regs := rfl, devstat := rfl }

/-! ### What such a state reads at every number -/

section
variable {t : State} (h : t.AsReset)
include h

theorem State.AsReset.eng_eq (e : EngId) : t.eng e = Engine.reset := by rw [State.eng, h.engines]; rfl
theorem State.AsReset.clu_eq (k : CluId) : t.clu k = Clu.reset := by rw [State.clu, h.clus]; rfl
theorem State.AsReset.mover_eq (m : MovId) : t.mover m = Mover.reset := by rw [State.mover, h.movers]; rfl
theorem State.AsReset.hedge_eq (g : HedgeId) : t.hedge g = Hedge.reset := by rw [State.hedge, h.hedges]; rfl
theorem State.AsReset.fn_eq (f : FnId) : t.fn f = fnReset f := by rw [State.fn, h.fns]; rfl
theorem State.AsReset.slot_eq (n : SlotId) : t.slot n = Slot.reset := by rw [State.slot, h.slots]; rfl
theorem State.AsReset.link_eq (l : LinkId) : t.link l = Link.reset := by rw [State.link, h.links]; rfl
end

/-- Every context of an engine after reset is a context after reset. -/
theorem reset_ctx (c : CtxId) : Engine.reset.ctx c = Ctx.reset := rfl

/-- A mover after reset has nothing in flight. -/
theorem reset_drained : Mover.reset.drained = true := rfl

/-- A function after reset differs from Fn.reset in its state alone, and only when it is a PF (13 Table 13-3). -/
theorem fnReset_eq (f : FnId) : fnReset f = { Fn.reset with state := if isPf f then .down else .closed } := by
  by_cases hf : f.val % 65 = 0
  · simp [fnReset, isPf, hf]
  · simp [fnReset, isPf, hf, Fn.reset]

/-- Settles O55: both states are as after reset, so each group reads its reset value at every number. -/
theorem resetValues : Obligations.ResetValues := by
  unfold Obligations.ResetValues
  intro s n t ht
  have h : t.AsReset := by
    obtain rfl | rfl : t = State.reset ∨ t = s.deviceReset n := by simpa using ht
    · exact reset_asReset
    · exact deviceReset_asReset s n
  refine ⟨fun e => ?_, fun k => ?_, fun m => ?_, fun g => ?_, fun f => ?_, fun j => ?_, fun l => ?_, ?_⟩
  · rw [h.eng_eq]
    simp only [reset_ctx]
    simp [Engine.reset, Ctx.reset]
  · rw [h.clu_eq]
    simp [Clu.reset]
  · rw [h.mover_eq]
    simp only [reset_drained]
    simp [Mover.reset]
  · rw [h.hedge_eq]
    simp [Hedge.reset]
  · rw [h.fn_eq, fnReset_eq]
    simp [Fn.reset]
  · rw [h.slot_eq]
    rfl
  · rw [h.link_eq]
    simp
  · obtain ⟨hbudget, hmembers, hseterr, hsettled, hphase⟩ := h.pleach
    obtain ⟨htwait, hjlimit, hpair, hfall, hptmo⟩ := h.lehr
    rw [h.regs]
    simp [hbudget, hmembers, hseterr, hsettled, hphase, htwait, hjlimit, hpair, hfall, hptmo, h.devstat, Regs.reset]

end Sys2Proof.Machine
end

section
/-! Instructions whose whole effect is on their own context: what the operand checks let through, and what an answer of the
body makes of the device (05 R141 to R145). The families below rest on these. -/

namespace Sys2Proof.Machine


/-! ### Operand checks -/

@[simp] theorem ok_bind {ε α β : Type} (a : α) (f : α → Except ε β) : (Except.ok a >>= f) = f a := rfl
@[simp] theorem error_bind {ε α β : Type} (e : ε) (f : α → Except ε β) : ((Except.error e : Except ε α) >>= f) = .error e := rfl
@[simp] theorem pure_eq_ok {ε α : Type} (a : α) : (pure a : Except ε α) = .ok a := rfl
@[simp] theorem ensure_true (f : SFault) : ensure true f = .ok () := rfl
@[simp] theorem ensure_false (f : SFault) : ensure false f = .error f := rfl

/-- Operands that are well formed and of an accepted type pass (03 R82). -/
theorem tagCheck_ok (nochk : Bool) : ∀ l : List (Nat × Cell × Bool), (∀ q ∈ l, q.2.1.wellFormed = true ∧ q.2.2 = true) →
    tagCheck nochk l = .ok ()
  | [], _ => rfl
  | (i, c, ok) :: l, h => by
    obtain ⟨hc, hok⟩ := h (i, c, ok) List.mem_cons_self
    simp only at hc hok
    simp [tagCheck, hc, hok, tagCheck_ok nochk l fun q hq => h q (List.mem_cons_of_mem _ hq)]

theorem tagCheck_one {nochk ok : Bool} {i : Nat} {c : Cell} (hw : c.wellFormed = true) (hok : ok = true) :
    tagCheck nochk [(i, c, ok)] = .ok () := tagCheck_ok _ _ (by simp [hw, hok])

/-- A legal TYPE with SUB 0 is well formed (03 Table 3-7). -/
theorem wellFormed_of_sub_zero {a : Cell} (hs : a.sub = 0) (ht : (maxSub a.ty).isSome = true) : a.wellFormed = true := by
  obtain ⟨m, hm⟩ := Option.isSome_iff_exists.1 ht
  simp [Cell.wellFormed, wellTyped, hm, hs]

/-! ### Answers -/

theorem Keeps.cell {e f : Engine} {p : Nat → Prop} {k : Nat} (h : Keeps e f p) (hk : ¬p k) : f.cell k = e.cell k := by
  obtain ⟨-, -, hcells⟩ := h
  exact hcells k hk

section
variable {i : Instr} {s : State} {x : Iss} {o : OpInfo} {op : Nat} {body : Env → Engine → Ctx → Except SFault Done}

/-- An answer without an iterative unit that stores nothing does what it says to the context, and nothing else. -/
theorem issue_becomes (hi : s.issues x o = true) {n : Nat} {g : Engine} {c : Ctx} {v : View}
    (hb : body (s.env x o) (s.eng x.eng) (s.bodyCtx x o) = .ok { count := n, eng := g, ctx := c })
    (hk : Keeps (s.eng x.eng) g fun _ => False) (hv : viewOf (s.eng x.eng) c = v) : Becomes s (s.issue x o op body id) x v := by
  obtain ⟨hview, hquiet, hkept, -⟩ := issue_quiet (op := op) hi hb (fun _ h => nomatch h) hk
  exact ⟨hview.trans ((viewOf_congr (fun k => hk.cell not_false) c).trans hv), hquiet, hkept⟩

variable (hex : exec i s = .next (s.issue x o op body id)) (hi : s.issues x o = true)
include hex hi

/-- An answer without an iterative unit that leaves the engine alone does what it says to the context, and nothing else. -/
theorem does_view {n : Nat} {c : Ctx} {v : View}
    (hb : body (s.env x o) (s.eng x.eng) (s.bodyCtx x o) = .ok { count := n, eng := s.eng x.eng, ctx := c })
    (hv : viewOf (s.eng x.eng) c = v) : Does i s x v := ⟨_, hex, issue_becomes hi hb (Keeps.refl _) hv⟩

/-- An instruction that replaces its operands by these cells, the last one on top. -/
theorem does_cells {n : Nat} {qs : List Cell}
    (hb : body (s.env x o) (s.eng x.eng) (s.bodyCtx x o) =
      .ok { count := n, eng := s.eng x.eng, ctx := (s.bodyCtx x o).popPush o.pops qs })
    (hq : o.pushes = qs.length) {after : List Cell} (ha : qs.reverse ++ (s.view x).stack.drop o.pops = after) :
    Does i s x (s.moved x o after) :=
  ha ▸ does_popPush hex hi hb rfl rfl hq fun _ h => nomatch h

/-- A body that refuses vectors the context (05 R141, 08 R250). -/
theorem exec_faults {f : SFault} (hb : body (s.env x o) (s.eng x.eng) (s.bodyCtx x o) = .error f) :
    exec i s = .next (s.faults x f) := by
  rw [hex, issue_error hi hb]
end

/-- The view of a body's context after pops and pushes (05 R142). -/
theorem viewOf_popPush {s : State} {x : Iss} {o : OpInfo} (hi : s.issues x o = true) {qs : List Cell} (hq : o.pushes = qs.length) :
    viewOf (s.eng x.eng) ((s.bodyCtx x o).popPush o.pops qs) = s.moved x o (qs.reverse ++ (s.view x).stack.drop o.pops) := by
  obtain ⟨hp, hlt⟩ := issues_depth hi
  have h := stackOf_popPush (s.eng x.eng) (s.bodyCtx x o) o.pops qs hp (hq ▸ hlt)
  simp only [viewOf, h]
  rfl

end Sys2Proof.Machine
end

section
/-! Stack, local and constant instructions (05 Table 5-1, R145 to R147): those that only move cells, those that push one constant,
and STL. -/

namespace Sys2Proof.Machine

/-- The operands of an instruction are the top of the stack that its context shows. -/
theorem topCells_bodyCtx {s : State} {x : Iss} {o : OpInfo} {l r : List Cell} (hs : (s.view x).stack = l ++ r) :
    topCells (s.eng x.eng) (s.bodyCtx x o) l.length = l := by
  apply List.ext_getElem (by simp [topCells])
  intro i h1 h2
  have hi : i < (l ++ r).length := by simp; omega
  simp [topCells, bodyCtx_stackTop hs hi, List.getElem_append_left h2]

/-- Operands of any type, all of them well formed. -/
theorem tagCheck_anyTags {nochk : Bool} {l : List Cell} (h : ∀ a ∈ l, a.wellFormed = true) : tagCheck nochk (anyTags l) = .ok () := by
  apply tagCheck_ok
  intro q hq
  obtain ⟨⟨c, n⟩, hc, rfl⟩ := List.mem_map.1 hq
  exact ⟨h c (List.fst_mem_of_mem_zipIdx hc), rfl⟩

/-- An instruction that takes the operands `l`, top first, and puts `f l` in their place, its last cell on top (05 R145). -/
theorem does_move {i : Instr} {s : State} {x : Iss} {o : OpInfo} {f : List Cell → List Cell}
    (hex : exec i s = .next (s.issue x o 0 (moveBody o.pops f) id)) (hi : s.issues x o = true) {l r : List Cell}
    (hl : o.pops = l.length) (hs : (s.view x).stack = l ++ r) (hw : ∀ a ∈ l, a.wellFormed = true) (hq : o.pushes = (f l).length)
    {after : List Cell} (ha : (f l).reverse ++ r = after) : Does i s x (s.moved x o after) := by
  have hb : moveBody o.pops f (s.env x o) (s.eng x.eng) (s.bodyCtx x o) =
      .ok { count := 1, eng := s.eng x.eng, ctx := (s.bodyCtx x o).popPush o.pops (f l) } := by
    unfold moveBody
    simp only [hl, topCells_bodyCtx hs, tagCheck_anyTags hw, ok_bind]
    rfl
  exact does_cells hex hi hb hq (by rw [hl, hs, List.drop_left, ha])

/-- An instruction that pushes one constant (05 R146). -/
theorem does_push {i : Instr} {s : State} {x : Iss} {o : OpInfo} {k : Env → Cell} {c : Cell}
    (hex : exec i s = .next (s.issue x o 0 (fun v e c => pure { count := 1, eng := e, ctx := c.popPush 0 [k v] }) id))
    (hi : s.issues x o = true) (hp : o.pops = 0) (hq : o.pushes = 1) (hk : k (s.env x o) = c) :
    Does i s x (s.moved x o (c :: (s.view x).stack)) :=
  does_cells (n := 1) (qs := [c]) hex hi (by rw [← hk, hp]; rfl) hq (by rw [hp]; rfl)

/-- A signed value of at most 64 bits as an INT cell (05 R155). -/
theorem cellInt_toInt {w : Nat} (hw : w ≤ 64) (b : BitVec w) (p : Bool) :
    cellInt b.toInt p = ⟨1, 0, p, false, b.signExtend 128⟩ := by
  have : (b.signExtend 64).signExtend 128 = b.signExtend 128 := by
    apply BitVec.eq_of_toInt_eq
    rw [BitVec.toInt_signExtend_of_le (by omega), BitVec.toInt_signExtend_of_le hw, BitVec.toInt_signExtend_of_le (by omega)]
  simp only [cellInt, Cell.mk.injEq, true_and]
  exact this

/-- The INT of a signed immediate, `n` bits of it unless P.WIDE gives it whole (04 R123, 05 R146). -/
theorem cellInt_ofImm {w n : Nat} (hw : w ≤ 64) (hn : n ≤ 64) (imm : BitVec w) (wide : Bool) :
    cellInt (if wide then imm.toInt else (imm.setWidth n).toInt) =
      ⟨1, 0, false, false, if wide then imm.signExtend 128 else (imm.setWidth n).signExtend 128⟩ := by
  cases wide
  · exact cellInt_toInt hn _ _
  · exact cellInt_toInt hw _ _

/-- PICK of a cell that the stack holds (05 R147). -/
theorem execPick_eq {x : Iss} {imm : Byte} (h : imm.toNat ≤ 3) (s : State) :
    execPick x imm s = .next (s.issue x { imm := 1, pops := imm.toNat + 1, pushes := imm.toNat + 2, reads := imm.toNat + 1 } 0
      (moveBody (imm.toNat + 1) fun l => l.reverse ++ l.getLast?.toList) id) := by
  simp [execPick, Nat.not_lt.2 h]

@[simp] theorem State.bodyCtx_local (s : State) (x : Iss) (o : OpInfo) (n : Nat) : (s.bodyCtx x o).local n = (s.ctxAt x).local n := rfl
@[simp] theorem State.env_pl (s : State) (x : Iss) (o : OpInfo) : (s.env x o).pl = (s.view x).pl.toNat := rfl
@[simp] theorem toNat_beq_two (pl : BitVec 2) : (pl.toNat == 2) = decide (pl = 2) := by revert pl; decide

/-- STL leaves its operand in the local; the rest of what software sees is as after a pop (05 Table 5-1). -/
theorem viewOf_setLocal (e : Engine) (c : Ctx) (n p : Nat) (a : Cell) (qs : List Cell) (l : List Damage) :
    viewOf e { (c.setLocal n a).popPush p qs with damaged := l } =
      { viewOf e (c.popPush p qs) with locals := tset Cell.nil c.locals n a } := rfl

/-- Settles O1: the stack group and PICK rearrange their operands, the others push one cell, and STL writes its local. -/
theorem stackLocalAndConstantInstructions : Obligations.StackLocalAndConstantInstructions := by
  unfold Obligations.StackLocalAndConstantInstructions
  refine ⟨fun s x => ⟨fun hi => ?_, fun a b c r ha hb hc => ?_⟩, fun s x => ⟨?_, ?_, ?_, ?_⟩, fun s x => ⟨?_, ?_, ?_, ?_, ?_, ?_⟩⟩
  · exact does_move rfl hi (l := []) rfl rfl (by simp) rfl rfl
  · have h1 : ∀ k ∈ [a], k.wellFormed = true := by simp [ha]
    have h2 : ∀ k ∈ [b, a], k.wellFormed = true := by simp [ha, hb]
    have h3 : ∀ k ∈ [c, b, a], k.wellFormed = true := by simp [ha, hb, hc]
    refine ⟨fun hi hs => ?_, fun hi hs => ?_, fun hi hs => ?_, fun hi hs => ⟨?_, ?_⟩, fun hi hs => ?_, fun hi hs => ?_,
      fun hi hs => ?_, fun hi hs => ?_⟩
    · exact does_move rfl hi rfl hs h1 rfl rfl
    · exact does_move rfl hi rfl hs h1 rfl rfl
    · exact does_move rfl hi rfl hs h2 rfl rfl
    · exact does_move rfl hi rfl hs h2 rfl rfl
    · exact does_move rfl hi rfl hs h2 rfl rfl
    · exact does_move rfl hi rfl hs h3 rfl rfl
    · exact does_move rfl hi rfl hs h2 rfl rfl
    · exact does_move rfl hi rfl hs h2 rfl rfl
    · exact does_move rfl hi rfl hs h2 rfl rfl
  · intro imm l r h3 hl hs hw hi
    have hne : l ≠ [] := fun h => by simp [h] at hl
    refine ⟨l.getLast hne, List.getLast?_eq_some_getLast hne, ?_⟩
    refine does_move (i := .pick x imm) (execPick_eq h3 s) hi hl.symm hs hw ?_ ?_
    · simp [hl, List.getLast?_eq_some_getLast hne]
    · simp [List.getLast?_eq_some_getLast hne]
  · intro n hi hw
    exact does_cells (n := 1) (qs := [(s.ctxAt x).local n.val]) rfl hi (by simp [tagCheck, hw]) rfl rfl
  · intro n a r hi hs hw hg
    have ha : stackTop (s.eng x.eng) (s.bodyCtx x { pops := 1, reads := 1 }) 0 = a := bodyCtx_stackTop hs (by simp)
    have hok : (!(decide ((s.view x).pl = 2) && ((s.ctxAt x).local n.val).g)) = true := by
      simpa [imp_iff_not_or] using hg
    apply does_view (i := .stl x n) rfl hi
    · simp only [tagCheck, hw, ha, hok, State.env_pl, toNat_beq_two, State.bodyCtx_local, ok_bind, ensure_true,
        Bool.true_or, Bool.true_and, if_true]
      rfl
    · rw [viewOf_setLocal, viewOf_popPush (qs := []) hi rfl, hs]
      rfl
  · intro n a r hi hs hw hpl hg
    have ha : stackTop (s.eng x.eng) (s.bodyCtx x { pops := 1, reads := 1 }) 0 = a := bodyCtx_stackTop hs (by simp)
    exact exec_faults rfl hi (by simp [tagCheck, hw, ha, hpl, hg])
  · exact fun hi => ⟨does_push rfl hi rfl rfl rfl, does_push rfl hi rfl rfl rfl, does_push rfl hi rfl rfl rfl⟩
  · exact fun imm hi => does_push rfl hi rfl rfl (cellInt_ofImm (by simp) (by simp) imm _)
  · exact fun imm hi => does_push rfl hi rfl rfl (cellInt_ofImm (by simp) (by simp) imm _)
  · exact fun imm hi => does_push rfl hi rfl rfl rfl
  · exact fun imm hi => does_push rfl hi rfl rfl rfl
  · intro imm hi
    refine ⟨fun hv => ?_, fun i hv => ?_⟩
    · exact does_cells (i := .pushd x imm) (n := 1) (qs := [cellDec (decStorage imm)]) rfl hi (by simp [hv]) rfl rfl
    · exact exec_faults rfl hi (by simp [hv])

end Sys2Proof.Machine
end

section
/-! Integer, unary, comparison, bitwise and shift results (05 R155, R157, R162, R163, 06 Table 6-2): each family puts one result in
the place of its operands. -/

namespace Sys2Proof.Machine

@[simp] theorem State.env_sat (s : State) (x : Iss) (o : OpInfo) : (s.env x o).sat = hasPx x.px 0xF3 := rfl
@[simp] theorem State.env_cvt (s : State) (x : Iss) (o : OpInfo) : (s.env x o).cvt = hasPx x.px 0xF1 := rfl

theorem intFits_iff (v : Int) : intFits v = true ↔ -2 ^ 63 ≤ v ∧ v < 2 ^ 63 := by simp [intFits]

/-- An instruction that puts the INT result of the exact value `v` in its operands' place: in range, saturated, or refused (05 R155). -/
theorem intResult_settles {i : Instr} {s : State} {x : Iss} {o : OpInfo} {op n : Nat} {body : Env → Engine → Ctx → Except SFault Done}
    {v : Int} {p : Bool} {r : List Cell} (hex : exec i s = .next (s.issue x o op body id)) (hi : s.issues x o = true)
    (hb : body (s.env x o) (s.eng x.eng) (s.bodyCtx x o) = (intResult (hasPx x.px 0xF3) p v >>= fun c =>
      .ok { count := n, eng := s.eng x.eng, ctx := (s.bodyCtx x o).popPush o.pops [c] }))
    (hq : o.pushes = 1) (hr : (s.view x).stack.drop o.pops = r) :
    (-2 ^ 63 ≤ v ∧ v < 2 ^ 63 → Does i s x (s.moved x o (cellInt v p :: r))) ∧
    (hasPx x.px 0xF3 = true → v < -2 ^ 63 → Does i s x (s.moved x o (cellInt (-2 ^ 63) p :: r))) ∧
    (hasPx x.px 0xF3 = true → 2 ^ 63 ≤ v → Does i s x (s.moved x o (cellInt (2 ^ 63 - 1) p :: r))) ∧
    (hasPx x.px 0xF3 = false → ¬(-2 ^ 63 ≤ v ∧ v < 2 ^ 63) → exec i s = .next (s.faults x (fArith 1))) := by
  have hdoes : ∀ c, intResult (hasPx x.px 0xF3) p v = .ok c → Does i s x (s.moved x o (c :: r)) := by
    intro c hc
    rw [hc] at hb
    exact does_cells hex hi hb hq (by rw [hr]; rfl)
  have hout : ¬(-2 ^ 63 ≤ v ∧ v < 2 ^ 63) → intFits v = false :=
    fun h => Bool.eq_false_iff.2 fun hf => h ((intFits_iff v).1 hf)
  refine ⟨fun h => hdoes _ ?_, fun hs h => hdoes _ ?_, fun hs h => hdoes _ ?_, fun hs h => ?_⟩
  · simp [intResult, (intFits_iff v).2 h]
  · simp [intResult, hout (by omega), hs, intSat, show v < 0 by omega]
  · simp [intResult, hout (by omega), hs, intSat, show ¬v < 0 by omega]
  · apply exec_faults hex hi
    rw [hb, intResult, hout h, hs]
    rfl

theorem wellFormed_int {a : Cell} (ht : a.ty = tyINT) (hs : a.sub = 0) : a.wellFormed = true :=
  wellFormed_of_sub_zero hs (by rw [ht]; rfl)

theorem formOf_int {a : Cell} (h : a.ty = tyINT) : formOf a.ty = some .int := by rw [h]; rfl
theorem formOf_dec {a : Cell} (h : a.ty = tyDEC) : formOf a.ty = some .dec := by rw [h]; rfl
theorem formOf_flt {a : Cell} (h : a.ty = tyFLT) : formOf a.ty = some .flt := by rw [h]; rfl

/-- Two INT operands run the INT form, under P.CVT or not (05 R143, R158). -/
theorem binForm_int {cvt : Bool} {a b : Cell} (ha : a.ty = tyINT) (hb : b.ty = tyINT) : binForm cvt a b = .int := by
  cases cvt <;> simp [binForm, formOf_int ha, formOf_int hb, Form.max]

theorem binTags_int {v : Env} {a b : Cell} (ha : a.ty = tyINT) (has : a.sub = 0) (hb : b.ty = tyINT) (hbs : b.sub = 0) :
    binTags v a b = .ok () :=
  tagCheck_ok _ _ (by simp [wellFormed_int ha has, wellFormed_int hb hbs, formOf_int hb, ha.trans hb.symm])

/-- The body of ADD, SUB and MUL on INT operands is the INT result of the exact value (05 R155). -/
theorem polyBody_int {op : BinOp} (hop : op.divides = false) {v : Env} {e : Engine} {c : Ctx} {a b : Cell} (hb : stackTop e c 0 = b)
    (ha : stackTop e c 1 = a) (hat : a.ty = tyINT) (has : a.sub = 0) (hbt : b.ty = tyINT) (hbs : b.sub = 0) :
    polyBody op v e c = (intResult v.sat (a.p || b.p) (op.exact a.int b.int) >>= fun r =>
      .ok { count := 1, eng := e, ctx := c.popPush 2 [r] }) := by
  simp [polyBody, polyResult, ha, hb, binTags_int hat has hbt hbs, binForm_int hat hbt, usesDec, hop, BinOp.timing]

/-- A decimal magnitude has at most 31 digits, since an invalid digit reads as 9 (06 R186, R188). -/
theorem decMag_lt (v : Payload) : decMag v < decLimit := by
  have h : ∀ n, (List.range n).foldl (fun acc i => acc * 10 + Nat.min 9 (decNibble v i)) 0 < 10 ^ n := by
    intro n
    induction n with
    | zero => simp
    | succ n ih =>
      rw [List.range_succ, List.foldl_append, List.foldl_cons, List.foldl_nil, Nat.pow_succ]
      have : Nat.min 9 (decNibble v n) ≤ 9 := Nat.min_le_left _ _
      omega
  exact h 31

theorem decVal_natAbs (v : Payload) : (decVal v).natAbs = decMag v := by
  unfold decVal
  split <;> simp

/-- A DEC result of at most 31 digits stands (06 R188). -/
theorem decResult_ok {sat p : Bool} {v : Int} (h : v.natAbs < decLimit) :
    decResult sat p v = .ok (cellDec (decMake (decide (v < 0)) v.natAbs) p) := by
  rw [decResult, if_pos h]

theorem wellFormed_dec {a : Cell} (ht : a.ty = tyDEC) (hs : a.sub = 0) : a.wellFormed = true :=
  wellFormed_of_sub_zero hs (by rw [ht]; rfl)
theorem wellFormed_flt {a : Cell} (ht : a.ty = tyFLT) (hs : a.sub = 0) : a.wellFormed = true :=
  wellFormed_of_sub_zero hs (by rw [ht]; rfl)

section
variable {i : Instr} {s : State} {x : Iss} {a b : Cell} {r : List Cell}

/-- NEG or ABS whose result is known (05 R155, 06 Table 6-2). -/
theorem does_unary {abs : Bool} {op : Nat} {c : Cell} (hex : exec i s = unaryOp x abs op s)
    (hi : s.issues x { sat := true, pops := 1, pushes := 1, reads := 1 } = true) (hs : (s.view x).stack = a :: r)
    {form : Form} (hf : formOf a.ty = some form) (hw : a.wellFormed = true)
    (hc : unaryResult (s.env x { sat := true, pops := 1, pushes := 1, reads := 1 }) abs form a = .ok c) :
    Does i s x (s.moved x { sat := true, pops := 1, pushes := 1, reads := 1 } (c :: r)) :=
  does_cells (n := 1) (qs := [c]) hex hi (by simp [bodyCtx_stackTop hs, tagCheck, hw, hf, hc]) rfl (by rw [hs]; rfl)

/-- A bitwise instruction of two INT operands (05 R157). -/
theorem does_bits {op : Nat} {f : Word64 → Word64 → Word64} {g : Bool → Bool → Bool} (hex : exec i s = bitOp x op f g s)
    (hi : s.issues x { pops := 2, pushes := 1, reads := 2 } = true) (hs : (s.view x).stack = b :: a :: r)
    (hwa : a.wellFormed = true) (hwb : b.wellFormed = true) (hat : a.ty = tyINT) (hbt : b.ty = tyINT) :
    Does i s x (s.moved x { pops := 2, pushes := 1, reads := 2 } (⟨1, 0, a.p || b.p, false, (f a.lo b.lo).signExtend 128⟩ :: r)) := by
  rw [← cellInt_toInt (by simp)]
  exact does_cells (n := 1) (qs := [cellInt (f a.lo b.lo).toInt (a.p || b.p)]) hex hi
    (by simp [bodyCtx_stackTop hs, tagCheck, hwa, hwb, hat, hbt]) rfl (by rw [hs]; rfl)

/-- A bitwise instruction of two BOOL operands (05 R157). -/
theorem does_truth {op : Nat} {f : Word64 → Word64 → Word64} {g : Bool → Bool → Bool} (hex : exec i s = bitOp x op f g s)
    (hi : s.issues x { pops := 2, pushes := 1, reads := 2 } = true) (hs : (s.view x).stack = b :: a :: r)
    (hwa : a.wellFormed = true) (hwb : b.wellFormed = true) (hat : a.ty = tyBOOL) (hbt : b.ty = tyBOOL) :
    Does i s x (s.moved x { pops := 2, pushes := 1, reads := 2 } (cellBool (g a.truth b.truth) (a.p || b.p) :: r)) :=
  does_cells (n := 1) (qs := [cellBool (g a.truth b.truth) (a.p || b.p)]) hex hi
    (by simp [bodyCtx_stackTop hs, tagCheck, hwa, hwb, hat, hbt]) rfl (by rw [hs]; rfl)

/-- A shift of an INT by 0 to 63, and by any other amount (05 R157). -/
theorem shift_settles {op : Nat} {f : Word64 → Nat → Word64} (hex : exec i s = shiftOp x op f s)
    (hi : s.issues x { pops := 2, pushes := 1, reads := 2 } = true) (hs : (s.view x).stack = b :: a :: r)
    (hwa : a.wellFormed = true) (hwb : b.wellFormed = true) (hat : a.ty = tyINT) (hbt : b.ty = tyINT) :
    (0 ≤ b.int ∧ b.int ≤ 63 → Does i s x (s.moved x { pops := 2, pushes := 1, reads := 2 }
      (⟨1, 0, a.p || b.p, false, (f a.lo b.int.toNat).signExtend 128⟩ :: r))) ∧
    (¬(0 ≤ b.int ∧ b.int ≤ 63) → exec i s = .next (s.faults x (fData 4 0))) := by
  refine ⟨fun h => ?_, fun h => ?_⟩
  · rw [← cellInt_toInt (by simp)]
    exact does_cells (n := 1) (qs := [cellInt (f a.lo b.int.toNat).toInt (a.p || b.p)]) hex hi
      (by simp [bodyCtx_stackTop hs, tagCheck, hwa, hwb, hat, hbt, Cell.isInt, h]) rfl (by rw [hs]; rfl)
  · have hr : (decide (0 ≤ b.int) && decide (b.int ≤ 63)) = false := by simpa using h
    exact exec_faults hex hi (by simp [bodyCtx_stackTop hs, tagCheck, hwa, hwb, hat, hbt, Cell.isInt, hr])
end

/-- A check that passes where it is made changes nothing. -/
theorem checked_bind {α : Type} {c : Bool} {check : Except SFault Unit} (h : c = true → check = .ok ()) (k : Unit → Except SFault α) :
    (if c = true then check >>= k else k ()) = k () := by
  cases c
  · rfl
  · rw [if_pos rfl, h rfl, ok_bind]

/-- Settles O3: the exact INT result is in range, saturated or refused; the other forms replace their operands by their result. -/
theorem integerAndBitwiseResults : Obligations.IntegerAndBitwiseResults := by
  unfold Obligations.IntegerAndBitwiseResults
  refine ⟨?_, fun s x a b r => ⟨?_, ?_, ?_⟩, fun s x a b r hwa hwb => ⟨fun hi hs => ⟨?_, ?_, ?_⟩, fun hi hs => ⟨?_, ?_⟩⟩⟩
  · intro s x i o a b r l v p hat has hbt hbs hmem hi hs
    have hwa := wellFormed_int hat has
    have hwb := wellFormed_int hbt hbs
    have hfa := formOf_int hat
    simp only [List.mem_cons, Prod.mk.injEq, List.not_mem_nil, or_false] at hmem
    rcases hmem with ⟨rfl, rfl, rfl, rfl, rfl⟩ | ⟨rfl, rfl, rfl, rfl, rfl⟩ | ⟨rfl, rfl, rfl, rfl, rfl⟩ | ⟨rfl, rfl, rfl, rfl, rfl⟩ |
      ⟨rfl, rfl, rfl, rfl, rfl⟩ | ⟨rfl, rfl, rfl, rfl, rfl⟩
    iterate 3
      have hb : stackTop (s.eng x.eng) (s.bodyCtx x (polyInfo true)) 0 = b := bodyCtx_stackTop hs (by simp)
      have ha : stackTop (s.eng x.eng) (s.bodyCtx x (polyInfo true)) 1 = a := bodyCtx_stackTop hs (by simp)
      exact intResult_settles rfl hi (polyBody_int rfl hb ha hat has hbt hbs) rfl (by rw [hs]; rfl)
    · refine intResult_settles (n := muliCount (s.eng x.eng).strict a.int b.int) rfl hi ?_ rfl (by rw [hs]; rfl)
      simp [bodyCtx_stackTop hs, tagCheck, hwa, hwb, Cell.isInt, hat, hbt]
    · refine intResult_settles (n := 1) rfl hi ?_ rfl (by rw [hs]; rfl)
      simp [bodyCtx_stackTop hs, tagCheck, hwa, hfa, unaryResult]
    · refine intResult_settles (n := 1) rfl hi ?_ rfl (by rw [hs]; rfl)
      simp [bodyCtx_stackTop hs, tagCheck, hwa, hfa, unaryResult]
  · intro i f hmem hi hs hat has hd
    have hlt := decMag_lt a.pay
    rw [← decVal_natAbs] at hlt
    simp only [List.mem_cons, Prod.mk.injEq, List.not_mem_nil, or_false] at hmem
    rcases hmem with ⟨rfl, rfl⟩ | ⟨rfl, rfl⟩
    · have hr := decResult_ok (sat := hasPx x.px 0xF3) (p := a.p) (v := -decVal a.pay) (by simpa using hlt)
      exact does_unary rfl hi hs (formOf_dec hat) (wellFormed_dec hat has) (by simpa [unaryResult, hd] using hr)
    · have hr := decResult_ok (sat := hasPx x.px 0xF3) (p := a.p) (v := ((decVal a.pay).natAbs : Int))
        (by rwa [Int.natAbs_natCast])
      exact does_unary rfl hi hs (formOf_dec hat) (wellFormed_dec hat has) (by simpa [unaryResult, hd] using hr)
  · intro i f hmem hi hs hat has
    simp only [List.mem_cons, Prod.mk.injEq, List.not_mem_nil, or_false] at hmem
    rcases hmem with ⟨rfl, rfl⟩ | ⟨rfl, rfl⟩
    · exact does_unary rfl hi hs (formOf_flt hat) (wellFormed_flt hat has) (by cases h : fltOf a.lo <;> simp [unaryResult, h])
    · exact does_unary rfl hi hs (formOf_flt hat) (wellFormed_flt hat has) (by cases h : fltOf a.lo <;> simp [unaryResult, h])
  · dsimp only
    intro hi hs htags hda hdb
    have hb : ∀ o, stackTop (s.eng x.eng) (s.bodyCtx x o) 0 = b := fun _ => bodyCtx_stackTop hs (by simp)
    have ha : ∀ o, stackTop (s.eng x.eng) (s.bodyCtx x o) 1 = a := fun _ => bodyCtx_stackTop hs (by simp)
    apply does_cells (i := .cmp x) rfl hi
    · simp only [ha, hb, htags, ok_bind, checked_bind hda, checked_bind hdb]
      rfl
    · rfl
    · rw [hs]
      rfl
  · intro i f hmem hat hbt
    simp only [List.mem_cons, Prod.mk.injEq, List.not_mem_nil, or_false] at hmem
    rcases hmem with ⟨rfl, rfl⟩ | ⟨rfl, rfl⟩ | ⟨rfl, rfl⟩ <;> exact does_bits rfl hi hs hwa hwb hat hbt
  · intro i f hmem hat hbt
    simp only [List.mem_cons, Prod.mk.injEq, List.not_mem_nil, or_false] at hmem
    rcases hmem with ⟨rfl, rfl⟩ | ⟨rfl, rfl⟩ | ⟨rfl, rfl⟩ <;> exact does_truth rfl hi hs hwa hwb hat hbt
  · intro i f hmem hat hbt
    simp only [List.mem_cons, Prod.mk.injEq, List.not_mem_nil, or_false] at hmem
    rcases hmem with ⟨rfl, rfl⟩ | ⟨rfl, rfl⟩ | ⟨rfl, rfl⟩ <;> exact shift_settles rfl hi hs hwa hwb hat hbt
  · intro hat
    rw [← cellInt_toInt (by simp)]
    exact does_cells (i := .not x) (n := 1) (qs := [cellInt (~~~a.lo).toInt a.p]) rfl hi
      (by simp [bodyCtx_stackTop hs, tagCheck, hwa, hat]) rfl (by rw [hs]; rfl)
  · intro hat
    refine does_cells (i := .not x) (n := 1) (qs := [cellBool (!a.truth) a.p]) rfl hi
      (by simp [bodyCtx_stackTop hs, tagCheck, hwa, hat]) rfl ?_
    by_cases h : a.sub = 1 <;> simp [hs, cellBool, Cell.truth, h]

end Sys2Proof.Machine
end

section
/-! Branches (03 R105 to R107, 05 R164, R165): a branch whose condition is known leaves its delay slot next and its outcome
pending. -/

namespace Sys2Proof.Machine

/-- What software sees of a context after the instruction `o`, a branch, with these cells on its stack: the delay slot comes next, and the
outcome is pending (03 R105, R107). -/
def State.branched (s : State) (x : Iss) (o : OpInfo) (annul taken : Bool) (l : List Cell) : View :=
  { s.view x with
    stack := l
    pc := BitVec.ofNat 19 ((s.view x).pc.toNat + o.len x.px)
    pb := some (if taken then ⟨false, false, BitVec.ofNat 19 (o.target x.px (s.view x).pc.toNat).toNat⟩ else ⟨true, annul, 0⟩) }

/-- A branch changes the pc and the pending-branch item of what software sees (03 R107). -/
theorem viewOf_branch {s : State} {x : Iss} {o : OpInfo} {e : Engine} {c : Ctx} {l : List Cell} {disp : Int} {off : Nat}
    (hd : o.disp = some (disp, off)) (hc : viewOf e c = s.moved x o l) (taken annul : Bool) :
    viewOf e (c.branch (s.env x o) taken annul ((s.env x o).next + disp)) = s.branched x o annul taken l := by
  have htarget : o.target x.px (s.view x).pc.toNat = (s.env x o).next + disp := by simp only [OpInfo.target, hd]; rfl
  calc viewOf e (c.branch (s.env x o) taken annul ((s.env x o).next + disp))
      = { viewOf e c with
          pc := BitVec.ofNat 19 (s.env x o).next
          pb := some ⟨!taken, !taken && annul, if taken then BitVec.ofNat 19 ((s.env x o).next + disp).toNat else 0⟩ } := rfl
    _ = s.branched x o annul taken l := by
      rw [hc, State.branched, htarget]
      cases taken <;> rfl

theorem isZero_eq (a : Cell) : isZero a = decide ((a.ty = tyINT ∧ a.lo = 0) ∨ (a.ty = tyBOOL ∧ a.sub = 0)) := by
  simp [isZero, Bool.beq_eq_decide_eq]

/-- BRZ (`onZero`) and BRNZ on an INT or a BOOL that is not poisoned (05 R165). -/
theorem does_condBranch {i : Instr} {s : State} {x : Iss} {onZero annul : Bool} {imm : BitVec 32} {a : Cell} {r : List Cell}
    (hex : exec i s = .next (s.issue x (branchInfo x.px imm 1) 0 (condBody onZero annul imm) id))
    (hi : s.issues x (branchInfo x.px imm 1) = true) (hs : (s.view x).stack = a :: r) (hw : a.wellFormed = true) (hp : a.p = false)
    (ht : a.ty = tyINT ∨ a.ty = tyBOOL) : Does i s x (s.branched x (branchInfo x.px imm 1) annul (isZero a == onZero) r) := by
  have hok : (decide (a.ty = tyINT) || decide (a.ty = tyBOOL)) = true := by simpa using ht
  have htop : stackTop (s.eng x.eng) (s.bodyCtx x (branchInfo x.px imm 1)) 0 = a := bodyCtx_stackTop hs (by simp)
  apply does_view hex hi
  · simp only [condBody, htop, tagCheck_one hw hok, hp, ok_bind]
    rfl
  · refine viewOf_branch rfl ?_ _ _
    exact (viewOf_popPush (qs := []) hi rfl).trans (by rw [hs]; rfl)

/-- Settles O6: the condition decides whether the outcome left pending is the target or NT. -/
theorem branchesLeaveAPendingOutcome : Obligations.BranchesLeaveAPendingOutcome := by
  unfold Obligations.BranchesLeaveAPendingOutcome
  intro s x annul imm after
  refine ⟨fun hi => ?_, fun a r hs hw hp => ⟨fun ht hi => ?_, ?_⟩⟩
  · exact does_view (i := .br x annul imm) rfl hi rfl (viewOf_branch rfl rfl _ _)
  · intro zero
    have hz : isZero a = zero := isZero_eq a
    rw [← hz]
    refine ⟨?_, ?_⟩
    · have := does_condBranch (i := .brz x annul imm) rfl hi hs hw hp ht
      rwa [beq_true] at this
    · have := does_condBranch (i := .brnz x annul imm) rfl hi hs hw hp ht
      rwa [beq_false] at this
  · intro o hi hty hres
    have hinfo : (if (decide (12 ≤ (imm.extractLsb' 0 4).toNat) || bit imm 7) = true then some 0 else none) = o.badField := by
      rw [show bit imm 7 = false from hres, decide_eq_false (Nat.not_le.2 hty)]
      rfl
    have hex : exec (.brt x annul imm) s = .next (s.issue x { o with badField := _ } 0 _ id) := rfl
    rw [hinfo] at hex
    have htop : stackTop (s.eng x.eng) (s.bodyCtx x o) 0 = a := bodyCtx_stackTop hs (by simp)
    have hhit : (decide (a.ty = imm.extractLsb' 0 4) && (!bit imm 6 || decide (a.sub = imm.extractLsb' 4 2))) =
        decide (a.ty = imm.extractLsb' 0 4 ∧ (imm.getLsbD 6 = true → a.sub = imm.extractLsb' 4 2)) := by
      simp [bit, imp_iff_not_or]
    apply does_view hex hi
    · simp only [htop, tagCheck_one hw rfl, hp, ok_bind, hhit]
      rfl
    · exact viewOf_branch rfl (by rw [← hs]; rfl) _ _

end Sys2Proof.Machine
end

section
/-! Atomic read-modify-writes (04 R139, 05 R148 to R151): the cells that a store and a drain leave, what an answer that writes
scratch makes of the device, and the three instructions. -/

namespace Sys2Proof.Machine

/-! ### Engines that keep their contexts, registers and cells -/

theorem Keeps.trans {e f g : Engine} {p : Nat → Prop} (h : Keeps e f p) (k : Keeps f g p) : Keeps e g p := by
  obtain ⟨hctxs, hregs, hcells⟩ := h
  obtain ⟨kctxs, kregs, kcells⟩ := k
  exact ⟨kctxs.trans hctxs, kregs.trans hregs, fun j hj => (kcells j hj).trans (hcells j hj)⟩

theorem Keeps.mono {e f : Engine} {p q : Nat → Prop} (h : Keeps e f p) (hpq : ∀ k, p k → q k) : Keeps e f q := by
  obtain ⟨hctxs, hregs, hcells⟩ := h
  exact ⟨hctxs, hregs, fun k hk => hcells k fun hp => hk (hpq k hp)⟩

/-- A read that meets a latent error keeps every cell as software reads it (16 R515, R517). -/
theorem meet_keeps (e : Engine) (k : Nat) : Keeps e (e.meet k) fun _ => False := by
  refine ⟨?_, ?_, fun j _ => Engine.meet_cell e k j⟩
  · unfold Engine.meet; (repeat' split) <;> rfl
  · unfold Engine.meet; (repeat' split) <;> exact SameRegs.refl _

/-- The newest of buffered entries is the one that a load sees (03 R109). -/
theorem sbFind_append (l : List (Nat × Cell)) (k : Nat) (c : Cell) (j : Nat) :
    sbFind (l ++ [(k, c)]) j = if k = j then some c else sbFind l j := by
  induction l with
  | nil => rfl
  | cons p l ih =>
    obtain ⟨i, d⟩ := p
    rw [List.cons_append, sbFind, ih]
    by_cases h : k = j
    · simp [h]
    · simp [h, sbFind]

/-- The oldest entry reaches scratch, and every cell reads as before (03 R109). -/
theorem drainOne_keeps (e : Engine) : Keeps e e.drainOne fun _ => False := by
  unfold Engine.drainOne
  split
  · exact Keeps.refl e
  · next k c l hl =>
    refine ⟨rfl, SameRegs.refl _, fun j _ => ?_⟩
    by_cases h : k = j
    · subst h
      cases hf : sbFind l k <;> simp [Engine.cell, hl, sbFind, hf, Engine.setScratch]
    · have hn : j ≠ k := fun q => h q.symm
      cases hf : sbFind l j <;> simp [Engine.cell, hl, sbFind, hf, h, Engine.setScratch, tget_tset_ne _ _ _ _ hn]

/-- A merged cell that has entered the store buffer (03 R109). -/
theorem push_cell (e : Engine) (k : Nat) (c : Cell) (j : Nat) : (e.push k c).cell j = if k = j then c else e.cell j := by
  have h : ∀ g : Engine, (∀ i, g.cell i = e.cell i) →
      ({ g with sb := g.sb ++ [(k, c)] } : Engine).cell j = if k = j then c else e.cell j := by
    intro g hg
    rw [← hg]
    by_cases hk : k = j <;> simp [Engine.cell, sbFind_append, hk]
  unfold Engine.push
  split
  · exact h e fun _ => rfl
  · exact h _ fun i => (drainOne_keeps e).cell not_false

theorem push_keeps (e : Engine) (k : Nat) (c : Cell) : Keeps e (e.push k c) (· = k) := by
  have h : Keeps e (if e.sb.length < 8 then e else e.drainOne) fun _ => False := by
    split
    · exact Keeps.refl e
    · exact drainOne_keeps e
  obtain ⟨hctxs, hregs, -⟩ := h
  exact ⟨hctxs, SameRegs.trans (SameRegs.refl _) hregs, fun j hj => by rw [push_cell, if_neg fun q => hj q.symm]⟩

/-! ### Stores -/

theorem storeCell_cell (e : Engine) (k : Nat) (c : Cell) : (e.storeCell k c).cell k = c := by
  simp [Engine.storeCell, push_cell]

theorem storeNarrow_cell (e : Engine) (k off : Nat) (bs : List Byte) (p : Bool) :
    (e.storeNarrow k off bs p).cell k = e.mergeCell k off bs p := by
  simp [Engine.storeNarrow, push_cell]

/-- A store at its width keeps every cell but the one it addresses (04 R135 to R137). -/
theorem storeAt_keeps (e : Engine) (f : Byte) (a : Nat) (c : Cell) : Keeps e (storeAt e f a c) (· = a / 16) := by
  unfold storeAt
  split
  · exact push_keeps e _ _
  · exact push_keeps e _ _
  · exact ((meet_keeps e _).mono fun _ h => h.elim).trans (push_keeps _ _ _)

/-- What a narrow write makes of a cell depends on the cell as read and on whether the read meets an error (04 Table 4-9). -/
theorem mergeCell_congr {e g : Engine} {k : Nat} (hc : g.cell k = e.cell k) (hb : g.bad? k = e.bad? k) (off : Nat) (bs : List Byte)
    (p : Bool) : g.mergeCell k off bs p = e.mergeCell k off bs p := by
  simp only [Engine.mergeCell, hc, hb]

/-! ### The drain of P.LOCK (04 R139) -/

/-- The buffered entries of a cell reach scratch in their order: the last of them stands there, and nothing else changes. -/
theorem drainCell_spec (k : Nat) : ∀ (l : List (Nat × Cell)) (e : Engine),
    let g := l.foldl (fun (a : Engine) kc => if kc.1 = k then a.setScratch k kc.2 else a) e
    g.ctxs = e.ctxs ∧ SameRegs g e ∧ g.sb = e.sb ∧
      (∀ j, j ≠ k → tget Cell.nil g.scratch j = tget Cell.nil e.scratch j ∧ tget Latent.none g.latent j = tget Latent.none e.latent j) ∧
      tget Cell.nil g.scratch k = (sbFind l k).getD (tget Cell.nil e.scratch k) ∧
      tget Latent.none g.latent k = if (sbFind l k).isSome then Latent.none else tget Latent.none e.latent k
  | [], e => ⟨rfl, SameRegs.refl e, rfl, fun _ _ => ⟨rfl, rfl⟩, rfl, rfl⟩
  | (i, c) :: l, e => by
    by_cases h : i = k
    · subst h
      obtain ⟨h1, h2, h3, h4, h5, h6⟩ := drainCell_spec i l (e.setScratch i c)
      refine ⟨?_, ?_, ?_, fun j hj => ?_, ?_, ?_⟩
      all_goals simp only [List.foldl_cons, if_true]
      · exact h1
      · exact h2
      · exact h3
      · obtain ⟨h7, h8⟩ := h4 j hj
        exact ⟨h7.trans (tget_tset_ne _ _ _ _ hj), h8.trans (tget_tset_ne Latent.none Latent.none e.latent Latent.none hj)⟩
      · rw [h5]
        cases hf : sbFind l i <;> simp [sbFind, hf, Engine.setScratch]
      · rw [h6]
        cases hf : sbFind l i <;> simp [sbFind, hf, Engine.setScratch]
    · obtain ⟨h1, h2, h3, h4, h5, h6⟩ := drainCell_spec k l e
      have hf : sbFind ((i, c) :: l) k = sbFind l k := by cases hf : sbFind l k <;> simp [sbFind, hf, h]
      simp only [List.foldl_cons, h, if_false, hf]
      exact ⟨h1, h2, h3, h4, h5, h6⟩

theorem lockDrain_keeps (v : Env) (e : Engine) (k : Nat) : Keeps e (lockDrain v e k) fun _ => False := by
  unfold lockDrain
  split
  · obtain ⟨h1, h2, h3, h4, h5, h6⟩ := drainCell_spec k e.sb { e with sb := e.sb.filter fun kc => kc.1 != k }
    refine ⟨h1, h2.trans (SameRegs.refl _), fun j _ => ?_⟩
    by_cases hj : j = k
    · subst hj
      simp only [Engine.cell, h3, h5, h6, sbFind_filter_same]
      cases hf : sbFind e.sb j <;> simp
    · obtain ⟨h7, h8⟩ := h4 j hj
      simp only [Engine.cell, h3, h7, h8, sbFind_filter_ne _ hj]
  · exact Keeps.refl e

theorem lockDrain_bad (v : Env) (e : Engine) (k : Nat) : (lockDrain v e k).bad? k = e.bad? k := by
  unfold lockDrain
  split
  · obtain ⟨h1, h2, h3, h4, h5, h6⟩ := drainCell_spec k e.sb { e with sb := e.sb.filter fun kc => kc.1 != k }
    simp only [Engine.bad?, h3, h6, sbFind_filter_same]
    cases hf : sbFind e.sb k <;> simp
  · rfl

/-- A full-cell atomic stores its cell whole (04 R136). -/
theorem storeAt_full {f : Byte} (hf : bits f 2 0 = 5) (e : Engine) (a : Nat) (c : Cell) : (storeAt e f a c).cell (a / 16) = c := by
  simp [storeAt, hf, storeCell_cell]

/-- An 8-byte atomic merges its bytes into the cell (04 R137). -/
theorem storeAt_double {f : Byte} (hf : bits f 2 0 = 3) (e : Engine) (a : Nat) (c : Cell) :
    (storeAt e f a c).cell (a / 16) = e.mergeCell (a / 16) (a % 16) ((bytesOfPay c.pay).take 8) c.p := by
  simp [storeAt, hf, storeNarrow_cell, formWidth]

/-! ### Answers that write scratch -/

/-- A stack reads the same in engines that agree on the cells it owns. -/
theorem stackOf_owned {e g : Engine} {c : Ctx} (h : ∀ k, (viewOf e c).ownsCell k → g.cell k = e.cell k) : stackOf g c = stackOf e c := by
  apply List.map_congr_left
  intro i hi
  have hi : i < c.depth.toNat := by simpa using hi
  have hown : (viewOf e c).ownsCell (c.stackSlot (c.depth.toNat - 1 - i)) := by
    simp only [View.ownsCell, viewOf, stackOf_length, Ctx.stackSlot]
    omega
  simp only [stackTop, h _ hown]

section
variable {s : State} {x : Iss} {o : OpInfo} {op : Nat} {body : Env → Engine → Ctx → Except SFault Done}

/-- An answer that writes the cells `w` and nothing else of scratch. -/
theorem issue_writes (hi : s.issues x o = true) {n : Nat} {g : Engine} {c : Ctx} {v : View} {w : Nat → Option Cell}
    (hb : body (s.env x o) (s.eng x.eng) (s.bodyCtx x o) = .ok { count := n, eng := g, ctx := c })
    (hk : Keeps (s.eng x.eng) g fun k => w k ≠ none) (hw : ∀ k d, w k = some d → g.cell k = d)
    (hv : viewOf (s.eng x.eng) c = v) : Writes s (s.issue x o op body id) x v w := by
  obtain ⟨hview, hquiet, hkept, hcells⟩ := issue_quiet (op := op) hi hb (fun _ h => nomatch h) hk
  have hlen : (viewOf g c).stack.length = v.stack.length := by
    rw [← hv]; simp [viewOf, stackOf_length]
  have hown : ∀ k, (viewOf g c).ownsCell k ↔ v.ownsCell k := by
    intro k
    rw [View.ownsCell, View.ownsCell, hlen, ← hv]
    rfl
  refine ⟨?_, ?_, fun h => ?_, hquiet, hkept, fun k d hd hn => ?_⟩
  · rw [hview, ← hv]; rfl
  · rw [hview, hlen]
  · rw [hview, ← hv]
    refine stackOf_owned fun k ho => hk.cell fun hne => h k hne (hv ▸ ho)
  · rw [hcells k fun h => hn ((hown k).1 h)]
    exact hw k d hd

/-- The context in place after an answer: the write that is still to come is the answer's (04 R139). -/
theorem issue_rmw (hi : s.issues x o = true) {d : Done}
    (hb : body (s.env x o) (s.eng x.eng) (s.bodyCtx x o) = .ok d) (hu : d.unit = none) :
    ((s.issue x o op body id).ctxAt x).rmw = d.ctx.rmw := by
  obtain ⟨ws, hs, hws⟩ := issue_ok (post := id) (op := op) hi hb fun h => nomatch hu.symm.trans h
  have hc : s.complete x (s.ctxAt x) o op d id =
      s.setEng x.eng (finish (d.eng.capture (s.ctxAt x) ((s.ctxAt x).pc.toNat + o.len x.px)) x.ctx (s.slot (s.ctxAt x).slot).hedge
        (d.final o (s.ctxAt x)) d.count d.unit) := by
    simp [State.complete, hu, Engine.unitTaken]
  obtain ⟨q, f, hq⟩ := scratchRecord_cases (s.complete x (s.ctxAt x) o op d id) s x.eng
  rw [hq, ucodeMet_none (.inl (hws (by simp [hu]))), hc] at hs
  have hctx := (finish_cases (d.eng.capture (s.ctxAt x) ((s.ctxAt x).pc.toNat + o.len x.px)) x.ctx (s.slot (s.ctxAt x).slot).hedge
    (d.final o (s.ctxAt x)) d.count d.unit).1 x.ctx
  have heng : (s.issue x o op body id).ctxAt x = (finish (d.eng.capture (s.ctxAt x) ((s.ctxAt x).pc.toNat + o.len x.px)) x.ctx
      (s.slot (s.ctxAt x).slot).hedge (d.final o (s.ctxAt x)) d.count d.unit).ctx x.ctx := by
    rw [hs]; exact congrArg (·.ctx x.ctx) (State.setEng_eng_same ..)
  rw [heng, hctx, Engine.setCtx_ctx_same, settle_ctx]
  show ((d.final o (s.ctxAt x)).ehStep.busyFor d.count).rmw = d.ctx.rmw
  unfold Ctx.busyFor Ctx.ehBound Ctx.ehStep
  (repeat' split) <;> rfl
end
/-! ### Read-modify-writes -/

/-- The widths of an atomic: 8 bytes or a full cell (05 Table 5-2). -/
theorem atomic_width {f : Byte} (h : formBad f [3, 5] [0, 3] = false) : bits f 2 0 = 3 ∨ bits f 2 0 = 5 := by
  simp only [formBad, Bool.or_eq_false_iff, Bool.not_eq_false', List.contains_iff_mem] at h
  obtain ⟨⟨hw, -⟩, -⟩ := h
  simpa using hw

/-- What the write of an atomic leaves in its cell, when the cell merges as in the engine `e` (05 R150). -/
theorem storeAt_atomic {f : Byte} (hf : bits f 2 0 = 3 ∨ bits f 2 0 = 5) {e g : Engine} {a : Nat}
    (hm : ∀ off bs p, g.mergeCell (a / 16) off bs p = e.mergeCell (a / 16) off bs p) (c : Cell) :
    (storeAt g f a c).cell (a / 16) =
      if bits f 2 0 = 5 then c else e.mergeCell (a / 16) (a % 16) ((bytesOfPay c.pay).take 8) c.p := by
  rcases hf with hf | hf
  · rw [storeAt_double hf, hm, if_neg (by omega)]
  · rw [storeAt_full hf, if_pos hf]

section
variable {i : Instr} {s : State} {x : Iss} {o : OpInfo} {op : Nat} {body : Env → Engine → Ctx → Except SFault Done}
  {f : Byte} {a : Nat} {old : Cell} (hex : exec i s = .next (s.issue x o op body id)) (hi : s.issues x o = true) (hq : o.pushes = 1)
include hex hi hq

/-- A read-modify-write that writes `c`: at once under P.LOCK, else in the cycle after its read (04 R139). -/
theorem modifies_rmw {c : Cell} (hf : bits f 2 0 = 3 ∨ bits f 2 0 = 5)
    (hb : body (s.env x o) (s.eng x.eng) (s.bodyCtx x o) =
      .ok (rmwDone (s.env x o) (s.eng x.eng) ((s.bodyCtx x o).popPush o.pops [old]) f a (some c))) :
    Modifies i s x (s.moved x o (old :: (s.view x).stack.drop o.pops)) f a c
      (if bits f 2 0 = 5 then c else (s.eng x.eng).mergeCell (a / 16) (a % 16) ((bytesOfPay c.pay).take 8) c.p) := by
  have hv := viewOf_popPush hi (qs := [old]) hq
  refine ⟨_, hex, fun hl => ?_, fun hl => ?_⟩
  · have hlock : (s.env x o).lockPx = true := hl
    simp only [rmwDone, hlock, if_true] at hb
    have hd := lockDrain_keeps (s.env x o) (s.eng x.eng) (a / 16)
    refine issue_writes hi hb (((hd.mono fun _ h => h.elim).trans (storeAt_keeps _ f a c)).mono fun k hk => by simp [hk]) ?_ hv
    intro k d hk
    obtain ⟨rfl, rfl⟩ : k = a / 16 ∧ _ = d := by simpa using hk
    exact storeAt_atomic hf (mergeCell_congr (hd.cell not_false) (lockDrain_bad _ _ _)) c
  · have hlock : (s.env x o).lockPx = false := hl
    have hrmw := issue_rmw (op := op) hi hb (by simp [rmwDone, hlock])
    simp only [rmwDone, hlock, Bool.false_eq_true, if_false] at hb hrmw
    exact ⟨issue_becomes hi hb (meet_keeps _ _) hv, hrmw⟩

/-- A read-modify-write that writes nothing (05 R150). -/
theorem does_rmw_none
    (hb : body (s.env x o) (s.eng x.eng) (s.bodyCtx x o) =
      .ok (rmwDone (s.env x o) (s.eng x.eng) ((s.bodyCtx x o).popPush o.pops [old]) f a none)) :
    Does i s x (s.moved x o (old :: (s.view x).stack.drop o.pops)) :=
  ⟨_, hex, issue_becomes hi hb ((lockDrain_keeps _ _ _).trans (meet_keeps _ _)) (viewOf_popPush hi (qs := [old]) hq)⟩
end

/-! ### The value that XADD writes -/

theorem take_bytesOfNat (n : Nat) : ∀ m v, (bytesOfNat (n + m) v).take n = bytesOfNat n v := by
  induction n with
  | zero => intro m v; rfl
  | succ n ih =>
    intro m v
    rw [Nat.add_right_comm, bytesOfNat, List.take_succ_cons, ih, bytesOfNat]

theorem bytesOfNat_congr (n : Nat) : ∀ {v w : Nat}, v % 256 ^ n = w % 256 ^ n → bytesOfNat n v = bytesOfNat n w := by
  induction n with
  | zero => intros; rfl
  | succ n ih =>
    intro v w h
    rw [Nat.pow_succ, Nat.mul_comm] at h
    rw [bytesOfNat, bytesOfNat]
    congr 1
    · apply BitVec.eq_of_toNat_eq
      have := congrArg (· % 256) h
      simpa [Nat.mod_mul_right_mod] using this
    · apply ih
      have := congrArg (· / 256) h
      simpa [Nat.mod_mul_right_div_self] using this

/-- The low 8 bytes of an INT cell are those of its value (05 R155). -/
theorem take_bytesOfPay_cellInt (w : Word64) (p : Bool) : (bytesOfPay (cellInt w.toInt p).pay).take 8 = bytesOfNat 8 w.toNat := by
  rw [bytesOfPay, take_bytesOfNat 8 8, cellInt_toInt (by simp)]
  apply bytesOfNat_congr
  have hmod : (w.signExtend 128).toNat % 2 ^ 64 = w.toNat := by
    rw [BitVec.toNat_signExtend, BitVec.toNat_setWidth]
    split <;> omega
  exact hmod.trans (Nat.mod_eq_of_lt w.isLt).symm

/-! ### The three instructions -/

@[simp] theorem stackTop_bodyCtx (s : State) (x : Iss) (o : OpInfo) (e : Engine) (n : Nat) :
    stackTop e (s.bodyCtx x o) n = stackTop e (s.ctxAt x) n := rfl

@[simp] theorem accessAddr_bodyCtx (s : State) (x : Iss) (o : OpInfo) (v : Env) (e : Engine) (f : Byte) (more : List (Cell → Bool)) :
    accessAddr v e (s.bodyCtx x o) f more = accessAddr v e (s.ctxAt x) f more := rfl

theorem casEqual_iff {e : Engine} {f : Byte} {a : Nat} {exp : Cell} :
    casEqual e f a exp = true ↔ if bits f 2 0 = 5 then e.cell (a / 16) = exp else (oldCell e f a).lo = exp.lo := by
  unfold casEqual
  split <;> simp

/-- Settles O10: each of the three answers its read-modify-write, and CAS writes when the old value is the expected one. -/
theorem atomicsReadModifyWrite : Obligations.AtomicsReadModifyWrite := by
  unfold Obligations.AtomicsReadModifyWrite
  intro s x f a
  dsimp only
  refine ⟨fun hi hf => ⟨fun h3 ha ht hk => ?_, fun ha ht => ?_⟩, fun hi hf ha ht => ⟨fun hsame => ?_, fun hsame => ?_⟩⟩
  · have hbad : formBad f [3] [0, 3] = false := by simpa [formBad, h3] using hf
    have hex : exec (.xadd x f) s = .next (s.issue x _ 0 _ id) := rfl
    simp only [hbad, Bool.false_eq_true, if_false] at hex
    have h := modifies_rmw (old := oldCell (s.eng x.eng) f a) (a := a) hex hi rfl (.inl h3)
      (c := cellInt ((oldCell (s.eng x.eng) f a).lo + (stackTop (s.eng x.eng) (s.ctxAt x) (formPops f)).lo).toInt
        (stackTop (s.eng x.eng) (s.ctxAt x) (formPops f)).p) (by
          simp only [accessAddr_bodyCtx, stackTop_bodyCtx, ha, ht, ok_bind]
          rw [show (_ || _ || _ || _) = true by simpa [or_assoc] using hk]
          rfl)
    rwa [if_neg (by omega), take_bytesOfPay_cellInt] at h
  · have hex : exec (.xchg x f) s = .next (s.issue x _ 0 _ id) := rfl
    simp only [hf, Bool.false_eq_true, if_false] at hex
    exact modifies_rmw hex hi rfl (atomic_width hf) (by simp only [accessAddr_bodyCtx, stackTop_bodyCtx, ha, ht, ok_bind]; rfl)
  all_goals
    have hex : exec (.cas x f) s = .next (s.issue x _ 0 _ id) := rfl
    simp only [hf, Bool.false_eq_true, if_false] at hex
    rw [← casEqual_iff] at hsame
  · exact modifies_rmw hex hi rfl (atomic_width hf)
      (by simp only [accessAddr_bodyCtx, stackTop_bodyCtx, ha, ht, hsame, ok_bind]; rfl)
  · exact does_rmw_none (a := a) (f := f) hex hi rfl
      (by simp only [accessAddr_bodyCtx, stackTop_bodyCtx, ha, ht, hsame, ok_bind]; rfl)

end Sys2Proof.Machine
end

section
/-! RST, SIGEV, YIELD and the system instructions. The obligation speaks of every State, and its clause of YIELD says that some slot
among the 131,072 of the device is parked when the context yields (05 R179). State.yieldParks asks the entries of the slot table
instead, whatever their numbers, and a State's table may list a number that no slot has. -/

namespace Sys2Proof.Machine

/-- A registered program: two argument cells, no work area. -/
def unlistedSlotProg : Prog :=
  { super := false, fast := true, retry := 3, key := 0, rm := 0, tmpl := 0, caddr := 0, clen := 0, entry := 0, sbase := 0, sstride := 0,
    ssize := 0, wbase := 0, wstride := 0, wsize := 0, sglmax := 0, at_ := 0, image := [], window := [] }

/-- Context 0 of engine 0 is ready at PL0, its code region lets it fetch, and no context is FREE. -/
def unlistedSlotEngine : Engine :=
  { Engine.reset with
    itlb := 1
    ctxs := (List.range 32).map fun n => (n, { Ctx.reset with state := if n = 0 then .ready else .wait }) }

/-- The slot table lists a parked slot under 131072, a number that no slot has (10 R311); slot 0 is the context's. -/
def unlistedSlot : State :=
  { State.reset with
    engines := [(0, unlistedSlotEngine)]
    slots := [(0, { Slot.reset with state := .resident, prog := some unlistedSlotProg }),
      (131072, { Slot.reset with state := .parked, runnable := true })] }

/-- YIELD issues there, and the context is offered for parking. -/
theorem unlistedSlot_yields : unlistedSlot.issues ⟨0, 0, []⟩ { delayBad := true } = true ∧
    ∀ t, exec (.yield ⟨0, 0, []⟩) unlistedSlot = .next t → (t.ctxAt ⟨0, 0, []⟩).yielded = true := by
  refine ⟨by decide +kernel, fun t ht => ?_⟩
  rw [exec, execYield] at ht
  injection ht with ht
  subst ht
  decide +kernel

/-- None of the device's slots is parked there. -/
theorem unlistedSlot_none_parked (m : SlotId) : (unlistedSlot.slot m).state ≠ .parked := by
  have hm : m.val ≠ 131072 := by omega
  by_cases h : m.val = 0 <;> simp [State.slot, unlistedSlot, tget, h, hm, Slot.reset]

/-- Refutes O12: the model looks for a parked slot among all entries of the slot table, the statement among the 131,072 slots. -/
theorem not_indexSignalAndSystemInstructions : ¬ Obligations.IndexSignalAndSystemInstructions := by
  unfold Obligations.IndexSignalAndSystemInstructions
  rintro ⟨h, -⟩
  obtain ⟨hissues, hyields⟩ := unlistedSlot_yields
  obtain ⟨-, -, hyield⟩ := h unlistedSlot ⟨0, 0, []⟩ []
  obtain ⟨t, ht, -, hiff⟩ := hyield hissues
  obtain ⟨⟨m, hparked, -⟩, -⟩ := hiff.1 (hyields t ht)
  exact unlistedSlot_none_parked m hparked

end Sys2Proof.Machine
end

section
/-! Binary64 and decimal results (05 R161, 06 R194 to R203): each instruction replaces its operands by its result, or faults on a
zero divisor or a result of more than 31 digits. -/

namespace Sys2Proof.Machine

/-- An instruction of one iterative unit finds it ready (03 R69). -/
theorem unitReady_of_some {s : State} {x : Iss} {op n : Nat} {u : IterUnit} (h : s.unitReady x op u n = true) :
    ∀ w, some u = some w → s.unitReady x op w n = true := by
  rintro _ ⟨⟩
  exact h

/-- An instruction that replaces its operands by these cells, the last one on top, once the unit that it uses is ready. -/
theorem does_cells_onUnit {i : Instr} {s : State} {x : Iss} {o : OpInfo} {op n : Nat} {unit : Option IterUnit} {aband : Bool}
    {body : Env → Engine → Ctx → Except SFault Done} {qs after : List Cell} (hex : exec i s = .next (s.issue x o op body id))
    (hi : s.issues x o = true)
    (hb : body (s.env x o) (s.eng x.eng) (s.bodyCtx x o) =
      .ok { count := n, unit := unit, aband := aband, eng := s.eng x.eng, ctx := (s.bodyCtx x o).popPush o.pops qs })
    (hu : ∀ u, unit = some u → s.unitReady x op u n = true) (hq : o.pushes = qs.length)
    (ha : qs.reverse ++ (s.view x).stack.drop o.pops = after) : Does i s x (s.moved x o after) :=
  ha ▸ does_popPush hex hi hb rfl rfl hq hu

/-! ### Binary64 -/

/-- A binary64 instruction of the FLT operands `l`, top first, whose unit is free if it has one (05 R161). -/
theorem does_flt {i : Instr} {s : State} {x : Iss} {o : OpInfo} {n op count : Nat} {unit : Option IterUnit}
    {f : BitVec 3 → List Flt → Word64} {l r : List Cell} {v : Word64} {p : Bool}
    (hex : exec i s = fltOp x n op count unit f s) (hi : s.issues x o = true) (hs : (s.view x).stack = l ++ r)
    (hl : n = l.length) (ho : o = { rnd := true, pops := n, pushes := 1, reads := n }) (hf : ∀ a ∈ l, a.ty = tyFLT ∧ a.sub = 0)
    (hv : f (s.env x o).rm (l.reverse.map fun a => fltOf a.lo) = v) (hp : l.any Cell.p = p)
    (hu : ∀ u, unit = some u → s.unitReady x op u count = true) : Does i s x (s.moved x o (cellFlt v p :: r)) := by
  subst hl ho hv hp
  have htags : ∀ nochk, tagCheck nochk (l.zipIdx.map fun q => (q.2, q.1, decide (q.1.ty = tyFLT))) = .ok () := by
    refine fun nochk => tagCheck_ok _ _ fun q hq => ?_
    obtain ⟨⟨c, n⟩, hc, rfl⟩ := List.mem_map.1 hq
    obtain ⟨hty, hsub⟩ := hf c (List.fst_mem_of_mem_zipIdx hc)
    exact ⟨wellFormed_flt hty hsub, decide_eq_true hty⟩
  exact does_cells_onUnit hex hi (by simp only [topCells_bodyCtx hs, htags, ok_bind]; rfl) hu rfl (by rw [hs, List.drop_left]; rfl)

/-! ### Fields of the shift immediates (06 Table 6-4) -/

theorem bit_eq_decide {n : Nat} (v : BitVec n) (i : Nat) : bit v i = decide (v.toNat / 2 ^ i % 2 = 1) := by
  rw [bit, BitVec.getLsbD, Nat.testBit_eq_decide_div_mod_eq]

/-- N of DSHL, DRND and the single DSHR; nothing reserved is set. -/
theorem shiftFields_single {imm : Byte} (h : imm.toNat < 32) :
    bits imm 4 0 = imm.toNat ∧ bits imm 7 5 = 0 ∧ bits imm 5 0 = imm.toNat ∧ bit imm 6 = false ∧ bit imm 7 = false := by
  simp only [bits, bit_eq_decide, decide_eq_false_iff_not]
  omega

/-- N of the paired DSHR; nothing reserved is set. -/
theorem shiftFields_pair {imm : Byte} (h : imm.toNat / 64 = 1) :
    bits imm 5 0 = imm.toNat - 64 ∧ bit imm 6 = true ∧ bit imm 7 = false := by
  simp only [bits, bit_eq_decide, decide_eq_true_eq, decide_eq_false_iff_not]
  omega

/-! ### Decimal operands and results -/

theorem tagCheck_dec {nochk : Bool} {i : Nat} {a : Cell} (ht : a.ty = tyDEC) (hs : a.sub = 0) :
    tagCheck nochk [(i, a, a.isDec)] = .ok () := tagCheck_one (wellFormed_dec ht hs) (decide_eq_true ht)

theorem tagCheck_dec_dec {nochk : Bool} {a b : Cell} (hat : a.ty = tyDEC) (has : a.sub = 0) (hbt : b.ty = tyDEC) (hbs : b.sub = 0) :
    tagCheck nochk [(0, b, b.isDec), (1, a, a.isDec)] = .ok () :=
  tagCheck_ok _ _ (by simp [wellFormed_dec hat has, wellFormed_dec hbt hbs, Cell.isDec, hat, hbt])

/-- The sign of an exact value given by magnitude and sign, where it is not zero (06 R187). -/
theorem decMake_signed (neg : Bool) (m : Nat) : decMake (decide ((if neg then -(m : Int) else m) < 0)) m = decMake neg m := by
  rcases Nat.eq_zero_or_pos m with rfl | hm
  · simp [decMake]
  · cases neg
    · simp [Int.not_lt.2 (Int.natCast_nonneg m)]
    · simp [hm]

theorem natAbs_signed (neg : Bool) (m : Nat) : (if neg then -(m : Int) else (m : Int)).natAbs = m := by cases neg <;> simp

/-- A DEC result of a magnitude and a sign stands below 10^31 (06 R188). -/
theorem decResult_signed {sat p neg : Bool} {m : Nat} (h : m < decLimit) :
    decResult sat p (if neg then -(m : Int) else m) = .ok (cellDec (decMake neg m) p) := by
  rw [decResult_ok (by rwa [natAbs_signed]), natAbs_signed, decMake_signed]

/-- A DEC result from 10^31 on becomes 31 nines under P.SAT (06 R188). -/
theorem decResult_signed_sat {p neg : Bool} {m : Nat} (h : decLimit ≤ m) :
    decResult true p (if neg then -(m : Int) else m) = .ok (cellDec (decMake neg (decLimit - 1)) p) := by
  have hm : 0 < m := Nat.lt_of_lt_of_le (by decide) h
  have hneg : decide ((if neg then -(m : Int) else m) < 0) = neg := by cases neg <;> simp [hm]
  rw [decResult, natAbs_signed, if_neg (Nat.not_lt.2 h), if_pos rfl, hneg]

/-- A DEC result from 10^31 on faults without P.SAT (06 R188). -/
theorem decResult_signed_fault {p neg : Bool} {m : Nat} (h : decLimit ≤ m) :
    decResult false p (if neg then -(m : Int) else m) = .error (fArith 1) := by
  rw [decResult, natAbs_signed, if_neg (Nat.not_lt.2 h), if_neg Bool.false_ne_true]

theorem roundedDec_ok {p neg : Bool} {k : Nat} (h : k < decLimit) : roundedDec p neg k = .ok (cellDec (decMake neg k) p) := if_pos h
theorem roundedDec_fault {p neg : Bool} {k : Nat} (h : decLimit ≤ k) : roundedDec p neg k = .error (fArith 1) :=
  if_neg (Nat.not_lt.2 h)

/-- An exact quotient is not rounded up, in any mode (06 R200). -/
theorem roundInc_exact (mode : BitVec 3) (neg odd : Bool) : roundInc mode neg odd .lt false = false := by
  unfold roundInc
  split <;> rfl

/-- Rounding to a whole unit never exceeds the source's magnitude (06 R200). -/
theorem roundDiv_le (mode : BitVec 3) (neg : Bool) (v : Nat) {d : Nat} (hd : 0 < d) : roundDiv mode neg v d ≤ v := by
  by_cases hv : v % d = 0
  · have hlt : compare 0 d = .lt := Nat.compare_eq_lt.2 hd
    simp [roundDiv, hv, hlt, roundInc_exact, b2n, Nat.div_le_self]
  · have hd1 : d ≠ 1 := fun h => hv (by rw [h, Nat.mod_one])
    have hv0 : v ≠ 0 := fun h => hv (by rw [h, Nat.zero_mod])
    have hlt : v / d < v := Nat.div_lt_self (by omega) (by omega)
    have hinc : ∀ inc : Bool, b2n inc ≤ 1 := by decide
    exact (Nat.add_le_add_left (hinc _) _).trans hlt

/-- The instruction puts the cell that it computes above `r`, or faults where there is none. -/
def GivesOrFaults (i : Instr) (s : State) (x : Iss) (o : OpInfo) (r : List Cell) (result : Except SFault Cell) : Prop :=
  (∀ c, result = .ok c → Does i s x (s.moved x o (c :: r))) ∧ ∀ f, result = .error f → exec i s = .next (s.faults x f)

/-- An instruction that puts one computed cell in its operands' place, or refuses where there is none. The facts of its opcode are
those of `o` once its immediate is known (06 R198). -/
theorem givesOrFaults_of_body {i : Instr} {s : State} {x : Iss} {o o' : OpInfo} {op n : Nat}
    {body : Env → Engine → Ctx → Except SFault Done} {result : Except SFault Cell} {r : List Cell}
    (hex : exec i s = .next (s.issue x o' op body id)) (ho : o' = o) (hi : s.issues x o = true)
    (hb : body (s.env x o) (s.eng x.eng) (s.bodyCtx x o) = (result >>= fun c =>
      .ok { count := n, eng := s.eng x.eng, ctx := (s.bodyCtx x o).popPush o.pops [c] }))
    (hq : o.pushes = 1) (hr : (s.view x).stack.drop o.pops = r) : GivesOrFaults i s x o r result := by
  subst ho
  refine ⟨fun c hc => ?_, fun f hf => ?_⟩
  · rw [hc] at hb
    exact does_cells hex hi hb hq (by rw [hr]; rfl)
  · rw [hf] at hb
    exact exec_faults hex hi hb

/-! ### The decimal instructions -/

section
variable {s : State} {x : Iss} {a b : Cell} {r : List Cell} (hbt : b.ty = tyDEC) (hbs : b.sub = 0) (hvb : decUse 0 b = .ok ())
include hbt hbs hvb

/-- DSHL by N digits gives the DEC result of the exact product, or its fault (06 R199). -/
theorem dshl_givesOrFaults {imm : Byte} (h : imm.toNat < 32)
    (hi : s.issues x { imm := 1, sat := true, pops := 1, pushes := 1, reads := 1 } = true) (hs : (s.view x).stack = b :: r) :
    let o : OpInfo := { imm := 1, sat := true, pops := 1, pushes := 1, reads := 1 }
    let m := decMag b.pay * 10 ^ imm.toNat
    let result := decResult (hasPx x.px 0xF3) b.p (if decMinus b.pay then -(m : Int) else m)
    GivesOrFaults (.dshl x imm) s x o r result := by
  obtain ⟨hn, hres, -⟩ := shiftFields_single h
  exact givesOrFaults_of_body (n := 1) rfl (by simp [hres]) hi
    (by simp [bodyCtx_stackTop hs, tagCheck_dec hbt hbs, hvb, hn]) rfl (by rw [hs]; rfl)

/-- DSHR of one cell gives the rounded quotient by 10^N, or its fault (06 R201). -/
theorem dshr_givesOrFaults {imm : Byte} (h : imm.toNat < 32)
    (hi : s.issues x { imm := 1, rnd := true, pops := 1, pushes := 1, reads := 1 } = true) (hs : (s.view x).stack = b :: r) :
    let o : OpInfo := { imm := 1, rnd := true, pops := 1, pushes := 1, reads := 1 }
    let result := roundedDec b.p (decMinus b.pay) (roundDiv (s.env x o).rm (decMinus b.pay) (decMag b.pay) (10 ^ imm.toNat))
    GivesOrFaults (.dshr x imm) s x o r result := by
  obtain ⟨-, -, hn, h6, h7⟩ := shiftFields_single h
  exact givesOrFaults_of_body (n := 2) rfl (by simp [hn, h6, h7]; omega) hi
    (by simp [bodyCtx_stackTop hs, tagCheck_dec hbt hbs, hvb, hn, h6]) rfl (by rw [hs]; rfl)

/-- DSHR of a pair gives the rounded quotient by 10^N of the pair's value, or its fault (06 R195, R201). -/
theorem dshr_pair_givesOrFaults {imm : Byte} (hat : a.ty = tyDEC) (has : a.sub = 0) (hva : decUse 1 a = .ok ()) (h : imm.toNat / 64 = 1)
    (h63 : imm.toNat ≠ 127) (hi : s.issues x { imm := 1, rnd := true, pops := 2, pushes := 1, reads := 2 } = true)
    (hs : (s.view x).stack = b :: a :: r) {m : Nat} {neg : Bool} (hm : pairOf a b = .ok (m, neg)) :
    let o : OpInfo := { imm := 1, rnd := true, pops := 2, pushes := 1, reads := 2 }
    let result := roundedDec (a.p || b.p) neg (roundDiv (s.env x o).rm neg m (10 ^ (imm.toNat - 64)))
    GivesOrFaults (.dshr x imm) s x o r result := by
  obtain ⟨hn, h6, h7⟩ := shiftFields_pair h
  exact givesOrFaults_of_body (n := 2) rfl (by simp [hn, h6, h7]; omega) hi
    (by simp [bodyCtx_stackTop hs, tagCheck_dec_dec hat has hbt hbs, hva, hvb, hm, hn, h6]) rfl (by rw [hs]; rfl)

/-- DRND at digit N gives the rounded quotient times 10^N, or its fault (06 R201). -/
theorem drnd_givesOrFaults {imm : Byte} (h : imm.toNat < 32)
    (hi : s.issues x { imm := 1, rnd := true, pops := 1, pushes := 1, reads := 1 } = true) (hs : (s.view x).stack = b :: r) :
    let o : OpInfo := { imm := 1, rnd := true, pops := 1, pushes := 1, reads := 1 }
    let result := roundedDec b.p (decMinus b.pay)
      (roundDiv (s.env x o).rm (decMinus b.pay) (decMag b.pay) (10 ^ imm.toNat) * 10 ^ imm.toNat)
    GivesOrFaults (.drnd x imm) s x o r result := by
  obtain ⟨hn, hres, -⟩ := shiftFields_single h
  exact givesOrFaults_of_body (n := 2) rfl (by simp [hres]) hi
    (by simp [bodyCtx_stackTop hs, tagCheck_dec hbt hbs, hvb, hn]) rfl (by rw [hs]; rfl)

end

/-- Settles O4: the FLT operands give one rounded result, and the DEC operands their exact or rounded result, or its fault. -/
theorem binary64AndDecimalResults : Obligations.Binary64AndDecimalResults := by
  unfold Obligations.Binary64AndDecimalResults
  refine ⟨fun s x a b c r hat has hbt hbs hct hcs => ⟨?_, ?_, ?_⟩,
    fun s x a b r hat has hbt hbs hva hvb => ⟨?_, ?_, fun imm => ⟨?_, ?_, ?_⟩⟩⟩
  · intro o m hi hs
    have hf : ∀ k ∈ [b, a], k.ty = tyFLT ∧ k.sub = 0 := by simp [hat, has, hbt, hbs]
    have hp : [b, a].any Cell.p = (a.p || b.p) := by simp [Bool.or_comm]
    exact ⟨does_flt (rfl : _ = execFadd x s) hi hs rfl rfl hf rfl hp nofun,
      does_flt (rfl : _ = execFsub x s) hi hs rfl rfl hf rfl hp nofun,
      does_flt (rfl : _ = execFmul x s) hi hs rfl rfl hf rfl hp nofun,
      fun hu => does_flt (rfl : _ = execFdiv x s) hi hs rfl rfl hf rfl hp (unitReady_of_some hu)⟩
  · intro o hi hs
    have hf : ∀ k ∈ [c, b, a], k.ty = tyFLT ∧ k.sub = 0 := by simp [hat, has, hbt, hbs, hct, hcs]
    have hp : [c, b, a].any Cell.p = (a.p || b.p || c.p) := by simp [Bool.or_comm, Bool.or_left_comm]
    exact does_flt (rfl : _ = execFma x s) hi hs rfl rfl hf rfl hp nofun
  · intro o hi hs hu
    have hf : ∀ k ∈ [a], k.ty = tyFLT ∧ k.sub = 0 := by simp [hat, has]
    have hp : [a].any Cell.p = a.p := by simp
    exact does_flt (rfl : _ = execFsqrt x s) hi hs rfl rfl hf rfl hp (unitReady_of_some hu)
  · intro hi hs
    have hb : stackTop (s.eng x.eng) (s.bodyCtx x { pops := 2, pushes := 2, reads := 2 }) 0 = b := bodyCtx_stackTop hs (by simp)
    have ha : stackTop (s.eng x.eng) (s.bodyCtx x { pops := 2, pushes := 2, reads := 2 }) 1 = a := bodyCtx_stackTop hs (by simp)
    have htags := fun nochk => tagCheck_dec_dec (nochk := nochk) hat has hbt hbs
    refine ⟨?_, fun hz hu => ?_, fun hz => ?_⟩
    · intro m neg
      have hneg : (m != 0 && (decMinus a.pay != decMinus b.pay)) = neg := Bool.eq_iff_iff.2 (by simp [neg])
      rw [← hneg]
      exact does_cells rfl hi (by simp only [hb, ha, htags, hva, hvb, ok_bind]; rfl) rfl (by rw [hs]; rfl)
    · have hnz : (decMag b.pay != 0) = true := bne_iff_ne.2 hz
      exact does_cells_onUnit rfl hi (by simp only [hb, ha, htags, hva, hvb, hnz, ensure_true, ok_bind]; rfl)
        (unitReady_of_some hu) rfl (by rw [hs]; rfl)
    · exact exec_faults rfl hi (by simp [hb, ha, htags, hva, hvb, hz])
  · intro hi hs
    have hb : stackTop (s.eng x.eng) (s.bodyCtx x { pops := 2, pushes := 3, reads := 2 }) 0 = b := bodyCtx_stackTop hs (by simp)
    have ha : stackTop (s.eng x.eng) (s.bodyCtx x { pops := 2, pushes := 3, reads := 2 }) 1 = a := bodyCtx_stackTop hs (by simp)
    exact does_cells (i := .dcmp x) rfl hi
      (by simp only [hb, ha, tagCheck_dec_dec hat has hbt hbs, hva, hvb, ok_bind]; rfl) rfl (by rw [hs]; rfl)
  · intro o m h hi hs
    obtain ⟨hdoes, hfault⟩ := dshl_givesOrFaults hbt hbs hvb h hi hs
    refine ⟨fun hm => hdoes _ (decResult_signed hm), fun hm hsat => hdoes _ ?_, fun hm hsat => hfault _ ?_⟩
    · rw [hsat]
      exact decResult_signed_sat hm
    · rw [hsat]
      exact decResult_signed_fault hm
  · intro o k h hi hs
    obtain ⟨hshift, -⟩ := dshr_givesOrFaults hbt hbs hvb h hi hs
    obtain ⟨hround, hfault⟩ := drnd_givesOrFaults hbt hbs hvb h hi hs
    have hk : k < decLimit := (roundDiv_le _ _ _ (by positivity)).trans_lt (decMag_lt b.pay)
    exact ⟨hshift _ (roundedDec_ok hk), fun hn => hround _ (roundedDec_ok hn), fun hn => hfault _ (roundedDec_fault hn)⟩
  · intro o h h63 hi hs m neg hm
    obtain ⟨hdoes, hfault⟩ := dshr_pair_givesOrFaults hbt hbs hvb hat has hva h h63 hi hs hm
    exact ⟨fun hk => hdoes _ (roundedDec_ok hk), fun hk => hfault _ (roundedDec_fault hk)⟩

end Sys2Proof.Machine
end

section
/-! O53 and O54: what a step runs, and the ao-tick of an empty queue. -/

namespace Sys2Proof.Machine

/-- Settles O53, by the definition of a step. -/
theorem stepRunsTheFrontCommand : Obligations.StepRunsTheFrontCommand := by
  intro s c rest hp
  simp only [step, hp]

/-- Dropping the entries of the keys that `p` refuses leaves those of the others. -/
theorem tget_filter_key {α : Type} (d : α) (p : Nat → Bool) (i : Nat) (t : Tab α) :
    tget d (t.filter fun kv => p kv.1) i = if p i then tget d t i else d := by
  induction t with
  | nil => simp [tget]
  | cons kv t ih =>
    obtain ⟨k, v⟩ := kv
    by_cases hk : i = k
    · subst hk
      by_cases hp : p i
      · simp [hp, tget]
      · simpa [List.filter_cons, hp, tget] using ih
    · by_cases hp : p k
      · simp only [List.filter_cons, hp, if_true, tget, if_neg hk, ih]
      · simp only [List.filter_cons, hp, Bool.false_eq_true, if_false, tget, if_neg hk, ih]

/-- An ao-tick counts the watchdog of every context that is resident and not in WAIT. -/
theorem Engine.tick_ctx (e : Engine) (n : CtxId) : e.tick.ctx n = (e.ctx n).tick :=
  tget_tmap _ (by decide) _

theorem tick_eng (s : State) (e : EngId) : (tick s).eng e = (s.eng e).tick :=
  tget_tmap _ (by decide) _

/-- Settles O54: the engines and contexts by their maps, and the poison by the filter that firmware's restoring is. -/
theorem emptyQueueTicks : Obligations.EmptyQueueTicks := by
  refine ⟨rfl, by decide, fun s hp => ⟨tick s, by simp only [step, hp], rfl, rfl, fun g => ?_, fun e => ⟨?_, fun n => ?_⟩⟩⟩
  · show tget false (s.poison.filter _) g = _
    rw [tget_filter_key false (fun k => decide (fixedEnd ≤ 32 * k) || (decide (lockTable ≤ 32 * k) && decide (32 * k < parkedEnd)))]
    split <;> simp_all
  · simp only [tick_eng]; rfl
  · simp only [tick_eng, Engine.tick_ctx, Ctx.tick]
    split <;> rfl

end Sys2Proof.Machine
end

section
/-! O59: the FLOOR that a cluster keeps while it is warm is not bounded. -/

namespace Sys2Proof.Machine

/-- Cluster 1 keeps a FLOOR of 7 to restore, and cluster 0 has failing code words. -/
def State.floor7Held : State :=
  { State.reset with clus := [(0, { Clu.reset with failing := some [] }), (1, { Clu.reset with warmHeld := some 7 })] }

/-- Taking cluster 0 out of use gives cluster 1, which no hedge holds warm, the FLOOR that it keeps. -/
theorem floor7Held_clusterRemoval :
    ∃ t, step { State.floor7Held with pending := [.clusterRemoval 0] } = .next t ∧ (t.clu 1).floor = 7 := ⟨_, rfl, by decide +kernel⟩

/-- Refutes O59: nothing bounds the FLOOR that a cluster keeps for when it is no longer warm, and the step that restores it takes the value
as it is: 7 from a state whose every register is in range. -/
theorem not_rangesAreKept : ¬ Obligations.RangesAreKept := by
  unfold Obligations.RangesAreKept
  intro h
  obtain ⟨t, ht, hf⟩ := floor7Held_clusterRemoval
  obtain ⟨-, hc, -⟩ := (h _ t).2 ⟨fun _ => by simp [State.eng, State.floor7Held, State.reset, tget, Engine.reset], by decide, by decide, by decide⟩ ht
  obtain ⟨hle, -⟩ := hc 1
  rw [hf] at hle
  exact absurd hle (by decide)

end Sys2Proof.Machine
end

section
/-! O56, O57 and O58: what no part of a step breaks. `State.Sound s t` says that `t` comes of `s` with the queue of commands and the fuses as
they were, a set LOCK still set, and the memories in their form when they were before. Every function of the model that gives a state is sound
but the resets and the two commands that blow fuses; the lemma of a function is named after it. -/

namespace Sys2Proof.Machine
open Host (Outcome)

/-- What no part of a step breaks, whatever it does besides: the queue of commands, the form of the memories, the lock and the fuses. -/
structure State.Sound (s t : State) : Prop where
  pending : t.pending = s.pending
  memory : s.memOk = true → t.memOk = true
  lock : s.regs.lock = true → t.regs.lock = true
  revoke : t.keeper.revoke = s.keeper.revoke
  svnf : t.keeper.svnf = s.keeper.svnf
  debugLock : t.keeper.debugLock = s.keeper.debugLock

theorem State.Sound.refl (s : State) : s.Sound s := ⟨rfl, id, id, rfl, rfl, rfl⟩

theorem State.Sound.trans {s t u : State} (h : s.Sound t) (k : t.Sound u) : s.Sound u :=
  ⟨k.pending.trans h.pending, k.memory ∘ h.memory, k.lock ∘ h.lock, k.revoke.trans h.revoke, k.svnf.trans h.svnf,
    k.debugLock.trans h.debugLock⟩

variable {s t : State}

/-- An update of other fields is sound. -/
theorem sound_upd {engines clus slots fns hedges dir locks lehr movers pleach ports sports poison hbmLatent chanFailed retired frameErr chanUe
    rates diskPoison alloc tables evicts walkq invWait pagerTurn longTurn blockNext durable store errq evMsgs lockq applyq movSigs wounds
    mediaMarks endNotices refused wakes bounced devstat startNext startBlk aoTick out free} {regs : Regs} {keeper : Keeper} (h : s.Sound t)
    (hl : regs.lock = t.regs.lock) (hr : keeper.revoke = t.keeper.revoke) (hs : keeper.svnf = t.keeper.svnf)
    (hd : keeper.debugLock = t.keeper.debugLock) :
    s.Sound ⟨engines, clus, slots, fns, hedges, dir, locks, lehr, movers, keeper, pleach, ports, sports, regs, t.hbm, poison, hbmLatent,
      chanFailed, retired, frameErr, chanUe, rates, t.ccm, t.disk, diskPoison, alloc, tables, evicts, walkq, invWait, pagerTurn, longTurn,
      blockNext, durable, store, errq, evMsgs, lockq, applyq, movSigs, wounds, mediaMarks, endNotices, refused, wakes, bounced, devstat,
      startNext, startBlk, aoTick, out, free, t.pending⟩ :=
  h.trans ⟨rfl, id, fun k => hl.trans k, hr, hs, hd⟩

/-- An update of the memories that keeps their form is sound. -/
theorem sound_memory {u : State} (h : s.Sound t) (hm : t.memOk = true → u.memOk = true) (hp : u.pending = t.pending)
    (hr : u.regs = t.regs) (hk : u.keeper = t.keeper) : s.Sound u :=
  h.trans ⟨hp, hm, by rw [hr]; exact id, by rw [hk], by rw [hk], by rw [hk]⟩

theorem sound_ite {c : Prop} [Decidable c] {a b : State} (h : s.Sound a) (k : s.Sound b) : s.Sound (if c then a else b) := by
  split <;> assumption

theorem sound_foldl {α : Type} {f : State → α → State} (hf : ∀ t a, s.Sound t → s.Sound (f t a)) (l : List α) :
    ∀ {t : State}, s.Sound t → s.Sound (l.foldl f t) := by
  induction l with
  | nil => exact fun h => h
  | cons a l ih => exact fun h => ih (hf _ a h)

theorem sound_fst {α : Type} {p : State × α} {a : State} {b : α} (h : s.Sound p.1) (e : p = (a, b)) : s.Sound a := by
  subst e; exact h

theorem sound_snd {α : Type} {p : α × State} {a : State} {b : α} (h : s.Sound p.2) (e : p = (b, a)) : s.Sound a := by
  subst e; exact h

theorem sound_pair {α : Type} {a : State} {b : α} (h : s.Sound a) : s.Sound (a, b).1 := h

theorem sound_pair_snd {α : Type} {a : State} {b : α} (h : s.Sound a) : s.Sound (b, a).2 := h

/-- A fold over a state and a value beside it. -/
theorem sound_foldl_fst {α β : Type} {f : State × β → α → State × β} (hf : ∀ q a, s.Sound q.1 → s.Sound (f q a).1) (l : List α) :
    ∀ {q : State × β}, s.Sound q.1 → s.Sound (l.foldl f q).1 := by
  induction l with
  | nil => exact fun h => h
  | cons a l ih => exact fun h => ih (hf _ a h)

theorem modRegs_sound {f : Regs → Regs} (h : s.Sound t) (hk : (f t.regs).lock = t.regs.lock) : s.Sound (t.modRegs f) :=
  sound_upd h hk rfl rfl rfl

/-- The command answers a next state, and that state is as `P` says. -/
def OnlyNext (P : State → Prop) : Outcome State Fault Refusal → Prop
  | .next t => P t
  | _ => False

@[simp] theorem Keeper.repairAt_revoke (k : Keeper) (c : CluId) (a : Nat) : (k.repairAt c a).revoke = k.revoke := by
  unfold Keeper.repairAt; split <;> rfl
@[simp] theorem Keeper.repairAt_svnf (k : Keeper) (c : CluId) (a : Nat) : (k.repairAt c a).svnf = k.svnf := by
  unfold Keeper.repairAt; split <;> rfl
@[simp] theorem Keeper.repairAt_debugLock (k : Keeper) (c : CluId) (a : Nat) : (k.repairAt c a).debugLock = k.debugLock := by
  unfold Keeper.repairAt; split <;> rfl

theorem writeDir_fuses (k : Keeper) (p tr : Bool) (n : BitVec 2) :
    (k.writeDir p tr n).revoke = k.revoke ∧ (k.writeDir p tr n).svnf = k.svnf ∧ (k.writeDir p tr n).debugLock = k.debugLock := by
  unfold Keeper.writeDir
  dsimp only
  split <;> exact ⟨rfl, rfl, rfl⟩

theorem setCount_fuses (k : Keeper) (b : Bool) (n) :
    (k.setCount b n).revoke = k.revoke ∧ (k.setCount b n).svnf = k.svnf ∧ (k.setCount b n).debugLock = k.debugLock := by
  unfold Keeper.setCount
  split <;> exact ⟨rfl, rfl, rfl⟩

theorem choose_fuses (k : Keeper) (spi : Option Img) :
    (k.choose spi).2.revoke = k.revoke ∧ (k.choose spi).2.svnf = k.svnf ∧ (k.choose spi).2.debugLock = k.debugLock := by
  have h1 : ∀ (c : Bool) p tr n, (if c then k.writeDir p tr n else k).revoke = k.revoke ∧ (if c then k.writeDir p tr n else k).svnf = k.svnf ∧
      (if c then k.writeDir p tr n else k).debugLock = k.debugLock := by
    intro c p tr n
    split
    · exact writeDir_fuses k p tr n
    · exact ⟨rfl, rfl, rfl⟩
  unfold Keeper.choose
  dsimp only
  split
  · exact h1 ..
  · split
    · exact h1 ..
    · split
      · split <;> exact h1 ..
      · exact h1 ..

theorem confirmed_fuses (k : Keeper) :
    k.confirmed.revoke = k.revoke ∧ k.confirmed.svnf = k.svnf ∧ k.confirmed.debugLock = k.debugLock := by
  have hc := setCount_fuses k k.slotB 0
  have hw : ∀ (q : Keeper) p tr n, (q.revoke = k.revoke ∧ q.svnf = k.svnf ∧ q.debugLock = k.debugLock) →
      (q.writeDir p tr n).revoke = k.revoke ∧ (q.writeDir p tr n).svnf = k.svnf ∧ (q.writeDir p tr n).debugLock = k.debugLock := by
    intro q p tr n ⟨hr, hs, hd⟩
    obtain ⟨kr, ks, kd⟩ := writeDir_fuses q p tr n
    exact ⟨kr.trans hr, ks.trans hs, kd.trans hd⟩
  unfold Keeper.confirmed
  dsimp only
  split
  · exact ⟨rfl, rfl, rfl⟩
  · split
    · split
      · exact hc
      · exact hw _ _ _ _ hc
    · split
      · exact hw _ _ _ _ hc
      · exact hc
theorem program_fuses (k : Keeper) (b : Bool) (i : Img) :
    (k.program b i).revoke = k.revoke ∧ (k.program b i).svnf = k.svnf ∧ (k.program b i).debugLock = k.debugLock := by
  unfold Keeper.program
  split <;> exact ⟨rfl, rfl, rfl⟩

theorem queueWalks_sound (h : s.Sound t) : s.Sound t.queueWalks := sound_upd (h) rfl rfl rfl rfl

theorem freeTables_sound {x1} (h : s.Sound t) : s.Sound (t.freeTables x1) := sound_upd (h) rfl rfl rfl rfl

theorem keepDef_sound {x1} (h : s.Sound t) : s.Sound (t.keepDef x1) := sound_upd (h) rfl rfl rfl rfl

theorem flushCore_sound {c} (h : s.Sound t) : s.Sound (t.flushCore c) := sound_upd (h) rfl rfl rfl rfl

theorem restoreFixed_sound (h : s.Sound t) : s.Sound t.restoreFixed := sound_upd (h) rfl rfl rfl rfl

theorem setPort_sound {p v} (h : s.Sound t) : s.Sound (t.setPort p v) := sound_upd (h) rfl rfl rfl rfl

theorem execCrystalRecovery_sound (h : s.Sound t) : OnlyNext s.Sound (execCrystalRecovery t) := sound_ite (sound_upd
    (h) rfl rfl rfl rfl) (h)

theorem setSport_sound {p v} (h : s.Sound t) : s.Sound (t.setSport p v) := sound_upd (h) rfl rfl rfl rfl

theorem hbmWrite_sound {a bs pz} (h : s.Sound t) : s.Sound (t.hbmWrite a bs pz) :=
  sound_memory h (hbmWrite_memOk · a bs pz) rfl rfl rfl

theorem setClu_sound {k v} (h : s.Sound t) : s.Sound (t.setClu k v) := sound_upd (h) rfl rfl rfl rfl

theorem copied_sound {r} (h : s.Sound t) : s.Sound (t.copied r) := sound_upd (h) rfl rfl rfl rfl

theorem train_sound {i} (h : s.Sound t) : s.Sound (t.train i) := sound_upd (h) rfl rfl rfl rfl

theorem execClusterWake_sound {n} (h : s.Sound t) : OnlyNext s.Sound (execClusterWake n t) := sound_ite (h) (setClu_sound h)

theorem mendGranule_sound {g} (h : s.Sound t) : s.Sound (t.mendGranule g) := sound_upd (h) rfl rfl rfl rfl

theorem hbmToDisk_sound {port block a n} (h : s.Sound t) : s.Sound (t.hbmToDisk port block a n) :=
  sound_memory h (hbmToDisk_memOk · port block a n) rfl rfl rfl

theorem setHedge_sound {x1 v} (h : s.Sound t) : s.Sound (t.setHedge x1 v) := sound_upd (h) rfl rfl rfl rfl

theorem diskWrite_sound {at_ bs} (h : s.Sound t) : s.Sound (t.diskWrite at_ bs) :=
  sound_memory h (fun m => memOk_disk m (twf_tsetRun _ ((memOk_iff t).1 m).2.2)) rfl rfl rfl

theorem moveLocks_sound {u v} (h : s.Sound t) : s.Sound (t.moveLocks u v) := sound_upd (h) rfl rfl rfl rfl

theorem withAdmin_sound {f op g} (h : s.Sound t) (hg : ∀ c, s.Sound (g c)) : s.Sound (t.withAdmin f op g) := by
  unfold State.withAdmin
  split
  · exact sound_ite (hg _) h
  · exact h

theorem hbmWriteP_sound {a bs} (h : s.Sound t) : s.Sound (t.hbmWriteP a bs) := sound_upd (hbmWrite_sound h) rfl rfl rfl rfl

theorem execClusterC1Entry_sound {n} (h : s.Sound t) : OnlyNext s.Sound (execClusterC1Entry n t) := sound_ite (setClu_sound h) (h)

theorem execStartBlockDiscard_sound {b} (h : s.Sound t) : OnlyNext s.Sound (execStartBlockDiscard b t) := sound_upd (h) rfl rfl rfl rfl

theorem setEng_sound {e v} (h : s.Sound t) : s.Sound (t.setEng e v) := sound_upd (h) rfl rfl rfl rfl

theorem turned_sound {f} (h : s.Sound t) : s.Sound (t.turned f) := by
  unfold State.turned
  split
  · exact setPort_sound h
  · exact h

theorem execTlbinvComplete_sound (h : s.Sound t) : OnlyNext s.Sound (execTlbinvComplete t) := sound_ite (sound_upd (h) rfl rfl rfl rfl) (h)

theorem putEntry_sound {i v} (h : s.Sound t) : s.Sound (t.putEntry i v) := hbmWrite_sound (sound_upd (h) rfl rfl rfl rfl)

theorem modMemcnt_sound {k f} (h : s.Sound t) : s.Sound (t.modMemcnt k f) := sound_upd (h) rfl rfl rfl rfl

theorem execMirrorCopyArrival_sound {at_ bytes} (h : s.Sound t) : OnlyNext s.Sound (execMirrorCopyArrival at_ bytes t) := by
  unfold execMirrorCopyArrival
  show s.Sound _
  split
  · exact sound_ite (sound_upd (h) rfl rfl rfl rfl) (h)
  · exact sound_ite (sound_upd (h) rfl rfl rfl rfl) (h)

theorem setSlot_sound {n v} (h : s.Sound t) : s.Sound (t.setSlot n v) := sound_upd (h) rfl rfl rfl rfl

theorem offCluster_sound {k} (h : s.Sound t) : s.Sound (t.offCluster k) := sound_ite (setClu_sound h) (h)

theorem execPflush_sound {r c} (h : s.Sound t) : OnlyNext s.Sound (execPflush r c t) := sound_ite (h) (flushCore_sound h)

theorem report_sound {r} (h : s.Sound t) : s.Sound (t.report r) := sound_upd (h) rfl rfl rfl rfl

theorem setDurable_sound {x1 va level p} (h : s.Sound t) : s.Sound (t.setDurable x1 va level p) := sound_upd (h) rfl rfl rfl rfl

theorem setEndpoint_sound {x1 e v} (h : s.Sound t) : s.Sound (t.setEndpoint x1 e v) := putEntry_sound h

theorem pleachError_sound {l} (h : s.Sound t) : s.Sound (t.pleachError l) := sound_upd (report_sound h) rfl rfl rfl rfl

theorem execPointUpSwitch_sound {n} (h : s.Sound t) : OnlyNext s.Sound (execPointUpSwitch n t) := by
  unfold execPointUpSwitch
  show s.Sound _
  split
  · exact sound_ite (h) (setClu_sound h)
  · exact h

theorem quiesce_sound (h : s.Sound t) : s.Sound t.quiesce := sound_upd (h) rfl rfl rfl rfl

theorem setMover_sound {m v} (h : s.Sound t) : s.Sound (t.setMover m v) := sound_upd (h) rfl rfl rfl rfl

theorem clearDir_sound {p q} (h : s.Sound t) : s.Sound (t.clearDir p q) := sound_foldl (fun _ _ k2 => putEntry_sound k2) _ (h)

theorem execClusterC2Entry_sound {n} (h : s.Sound t) : OnlyNext s.Sound (execClusterC2Entry n t) := sound_ite (setClu_sound h) (h)

theorem dropTlb_sound {mask f} (h : s.Sound t) : s.Sound (t.dropTlb mask f) := sound_upd (h) rfl rfl rfl rfl

theorem unfull_sound (h : s.Sound t) : s.Sound t.unfull := sound_upd (h) rfl rfl rfl rfl

theorem hbmPut_sound {a n v} (h : s.Sound t) : s.Sound (t.hbmPut a n v) := hbmWrite_sound h

theorem tick_sound (h : s.Sound t) : s.Sound (tick t) := sound_upd (restoreFixed_sound h) rfl rfl rfl rfl

theorem takeMsg_sound {n} (h : s.Sound t) : s.Sound (t.takeMsg n).2 := by
  unfold State.takeMsg
  split
  · exact sound_upd (h) rfl rfl rfl rfl
  · exact h

theorem hbmZero_sound {a n} (h : s.Sound t) : s.Sound (t.hbmZero a n) := sound_memory h (hbmZero_memOk · a n) rfl rfl rfl

theorem withCmd_sound {f op g} (h : s.Sound t) (hg : ∀ k c, s.Sound (g k c)) : s.Sound (t.withCmd f op g) := by
  unfold State.withCmd
  split
  · exact hg _ _
  · exact h

theorem freeFrames_sound {f n} (h : s.Sound t) : s.Sound (t.freeFrames f n) :=
  sound_upd (sound_foldl (fun _ _ k2 => hbmPut_sound k2) _ (h)) rfl rfl rfl rfl

theorem wakeClu_sound {k} (h : s.Sound t) : s.Sound (t.wakeClu k) := sound_ite (setClu_sound h) (h)

theorem flushFor_sound {x1} (h : s.Sound t) : s.Sound (t.flushFor x1) :=
  sound_ite (sound_upd (flushCore_sound (flushCore_sound h)) rfl rfl rfl rfl) (h)

theorem drawStart_sound {k} (h : s.Sound t) : s.Sound (t.drawStart k).2 := by
  unfold State.drawStart
  dsimp only
  split <;> exact sound_upd h rfl rfl rfl rfl

theorem modHedge_sound {x1 f} (h : s.Sound t) : s.Sound (t.modHedge x1 f) := setHedge_sound h

theorem mapCtxs_sound {x1 f} (h : s.Sound t) : s.Sound (t.mapCtxs x1 f) := sound_upd (h) rfl rfl rfl rfl

theorem setLink_sound {l v} (h : s.Sound t) : s.Sound (t.setLink l v) := sound_upd (h) rfl rfl rfl rfl

theorem modPleach_sound {f} (h : s.Sound t) : s.Sound (t.modPleach f) := sound_upd (h) rfl rfl rfl rfl

theorem uncharge_sound {es} (h : s.Sound t) : s.Sound (t.uncharge es) := sound_foldl (fun _ _ k2 => sound_ite (k2)
    (modHedge_sound k2)) _ (h)

theorem scratchRecord_sound {old e} (h : s.Sound t) : s.Sound (t.scratchRecord old e) :=
  sound_ite (sound_ite (h) (report_sound (sound_upd (h) rfl rfl rfl rfl))) (report_sound (sound_upd (sound_ite (h) (report_sound
        (sound_upd (h) rfl rfl rfl rfl))) rfl rfl rfl rfl))

theorem unknownBlocks_sound {d} (h : s.Sound t) : s.Sound (t.unknownBlocks d) :=
  sound_ite (sound_memory h (fun m => memOk_disk m (twf_tsetRun _ ((memOk_iff t).1 m).2.2)) rfl rfl rfl) h

theorem alarm_sound {kind} (h : s.Sound t) : s.Sound (t.alarm kind) := sound_upd (h) rfl rfl rfl rfl

theorem memWrite_sound {ccm a bs} (h : s.Sound t) : s.Sound (t.memWrite ccm a bs) :=
  sound_ite (sound_memory h (fun m => memOk_ccm m (twf_tsetRun _ ((memOk_iff t).1 m).2.1)) rfl rfl rfl) (hbmWriteP_sound h)

theorem writeRecordAt_sound {i r count} (h : s.Sound t) : s.Sound (t.writeRecordAt i r count) :=
  sound_memory h (fun m => memOk_ccm m (twf_tsetRun _ ((memOk_iff t).1 m).2.1)) rfl rfl rfl

theorem hbmMove_sound {src dst n} (h : s.Sound t) : s.Sound (t.hbmMove src dst n) :=
  sound_memory h (hbmMove_memOk · src dst n) rfl rfl rfl

theorem hold_sound {p} (h : s.Sound t) : s.Sound (t.hold p) := by
  unfold State.hold
  exact modPleach_sound h

theorem bringUp_sound {i} (h : s.Sound t) : s.Sound (t.bringUp i) := by
  unfold State.bringUp
  exact sound_foldl (fun _ _ k2 => by
    split
    · exact setSport_sound k2
    · exact report_sound (setSport_sound k2)) _ (h)

theorem repoint_sound {k} (h : s.Sound t) : s.Sound (t.repoint k) :=
  sound_ite (setClu_sound h) (sound_ite (setClu_sound h) (sound_ite (setClu_sound h) (setClu_sound h)))

theorem wakeFor_sound {m} (h : s.Sound t) : s.Sound (t.wakeFor m) := by
  unfold State.wakeFor
  split
  · exact wakeClu_sound h
  · exact h

theorem diskToHbm_sound {port block a n} (h : s.Sound t) : s.Sound (t.diskToHbm port block a n) :=
  sound_memory h (diskToHbm_memOk · port block a n) rfl rfl rfl

theorem execMirrorReclaimNotice_sound {seq} (h : s.Sound t) : OnlyNext s.Sound (execMirrorReclaimNotice seq t) := sound_upd
    (h) rfl rfl rfl rfl

theorem pauseFor_sound {n} (h : s.Sound t) : s.Sound (t.pauseFor n) := sound_upd (h) rfl rfl rfl rfl

theorem repointAll_sound (h : s.Sound t) : s.Sound t.repointAll := sound_foldl (fun _ _ k2 => repoint_sound k2) _ (h)

theorem linkChanged_sound {l x} (h : s.Sound t) : s.Sound (t.linkChanged l x) := sound_upd (setLink_sound h) rfl rfl rfl rfl

theorem tableChange_sound {x1} (h : s.Sound t) : s.Sound (t.tableChange x1) := by
  unfold State.tableChange
  split
  · exact keepDef_sound (modHedge_sound h)
  · exact h

theorem setFrames_sound {frame n fe} (h : s.Sound t) : s.Sound (t.setFrames frame n fe) := sound_foldl (fun _ _ k2 => hbmPut_sound k2) _ (h)

theorem foldl_tsetRun_wf (l : List (Nat × List Byte)) : ∀ {m : Tab Byte}, Memory.wf m = true →
    Memory.wf (l.foldl (fun t q => tsetRun 0 t q.1 q.2) m) = true := by
  induction l with
  | nil => exact fun h => h
  | cons q l ih => exact fun h => ih (twf_tsetRun q.2 h)

theorem setLock_sound {k r} (h : s.Sound t) : s.Sound (t.setLock k r) := sound_upd (h) rfl rfl rfl rfl

theorem dirToHbm_sound (h : s.Sound t) : s.Sound t.dirToHbm := sound_foldl (fun _ _ k2 => hbmWrite_sound k2) _ (h)

theorem newToken_sound {x1 op cmd next} (h : s.Sound t) : s.Sound (t.newToken x1 op cmd next).2 := by
  unfold State.newToken
  dsimp only
  exact modHedge_sound (sound_upd (h) rfl rfl rfl rfl)

theorem emit_sound {o} (h : s.Sound t) : s.Sound (t.emit o) := sound_upd (h) rfl rfl rfl rfl

theorem snapAborted_sound (h : s.Sound t) : s.Sound t.snapAborted := sound_ite (sound_upd (h) rfl rfl rfl rfl) (h)

theorem execHeartbeat_sound {x0} (h : s.Sound t) : OnlyNext s.Sound (execHeartbeat x0 t) := sound_ite (sound_upd (h) rfl rfl rfl rfl) (h)

theorem setFn_sound {f v} (h : s.Sound t) : s.Sound (t.setFn f v) := sound_upd (h) rfl rfl rfl rfl

theorem chansPageDone_sound {x1 base size ok} (h : s.Sound t) : s.Sound (t.chansPageDone x1 base size ok) := sound_upd (h) rfl rfl rfl rfl

theorem drained_sound {f} (h : s.Sound t) : s.Sound (t.drained f) := sound_ite (setFn_sound h) (h)

theorem discardCopy_sound (h : s.Sound t) : s.Sound t.discardCopy := by
  unfold State.discardCopy
  split
  · exact modPleach_sound (modHedge_sound (clearDir_sound (sound_foldl (fun _ _ k4 => emit_sound k4) _ (h))))
  · exact h

theorem idleSlot_sound {n} (h : s.Sound t) : s.Sound (t.idleSlot n) := by
  unfold State.idleSlot
  dsimp only
  split
  · exact drained_sound (setSlot_sound (modHedge_sound (sound_upd (h) rfl rfl rfl rfl)))
  · exact setSlot_sound (modHedge_sound (sound_upd (h) rfl rfl rfl rfl))

theorem execLehrFullTimeout_sound (h : s.Sound t) : OnlyNext s.Sound (execLehrFullTimeout t) :=
  sound_ite (report_sound (sound_upd (h) rfl rfl rfl rfl)) (h)

theorem execPerstDeassertion_sound {p rate width x} (h : s.Sound t) : OnlyNext s.Sound (execPerstDeassertion p rate width x t) :=
  sound_ite (h) (setPort_sound h)

theorem modClu_sound {k f} (h : s.Sound t) : s.Sound (t.modClu k f) := setClu_sound h

theorem writeRecord_sound {x1 va bs pz} (h : s.Sound t) : s.Sound (t.writeRecord x1 va bs pz) := by
  unfold State.writeRecord
  exact sound_foldl (fun _ _ k2 => by
    split
    · exact hbmWrite_sound k2
    · exact k2) _ (h)

theorem deallocate_sound {x1} (h : s.Sound t) : s.Sound (t.deallocate x1) :=
  sound_upd (sound_foldl (fun _ _ k2 => emit_sound k2) _ (h)) rfl rfl rfl rfl

theorem execRetrain_sound {r l} (h : s.Sound t) : OnlyNext s.Sound (execRetrain r l t) := sound_ite (linkChanged_sound h) (h)

theorem settled_sound {issue avail emins x4} (h : s.Sound t) : s.Sound (t.settled issue avail emins x4) := setHedge_sound h

theorem execClusterC3Entry_sound {n} (h : s.Sound t) : OnlyNext s.Sound (execClusterC3Entry n t) := sound_ite (setClu_sound h) (h)

theorem linkEnable_sound {l en} (h : s.Sound t) : s.Sound (t.linkEnable l en) :=
  sound_ite (linkChanged_sound h) (sound_ite (linkChanged_sound h) (setLink_sound h))

theorem execThermalStepDown_sound {n} (h : s.Sound t) : OnlyNext s.Sound (execThermalStepDown n t) := by
  unfold execThermalStepDown
  show s.Sound _
  split
  · exact sound_ite (repoint_sound (setClu_sound h)) (h)
  · exact h

theorem setMin_sound {x1} (h : s.Sound t) : s.Sound (t.setMin x1) := modHedge_sound h

theorem execJournalHole_sound {pos} (h : s.Sound t) : OnlyNext s.Sound (execJournalHole pos t) := by
  unfold execJournalHole
  exact sound_ite (h) (by
    split
    · exact emit_sound (sound_upd (h) rfl rfl rfl rfl)
    · exact report_sound (sound_upd (h) rfl rfl rfl rfl))

theorem modEng_sound {e f} (h : s.Sound t) : s.Sound (t.modEng e f) := setEng_sound h

theorem sigev_sound {x1 e} (h : s.Sound t) : s.Sound (t.sigev x1 e) :=
  sound_ite (modHedge_sound h) (sound_ite (setEndpoint_sound h) (sound_upd (modHedge_sound (setEndpoint_sound h)) rfl rfl rfl rfl))

theorem holdWait_sound {n x2 ep seq x5} (h : s.Sound t) : s.Sound (t.holdWait n x2 ep seq x5) := modHedge_sound h

theorem evalHedge_sound {x1} (h : s.Sound t) : s.Sound (t.evalHedge x1) := setHedge_sound h

theorem powerFail_sound (h : s.Sound t) : s.Sound t.powerFail := sound_upd (quiesce_sound h) rfl rfl rfl rfl

theorem execStorageLinkDown_sound {p} (h : s.Sound t) : OnlyNext s.Sound (execStorageLinkDown p t) :=
  sound_ite (report_sound (setSport_sound h)) (h)

theorem execEngCptWrite_sound {r e v} (h : s.Sound t) : OnlyNext s.Sound (execEngCptWrite r e v t) := sound_ite (h) (modEng_sound h)

theorem nvmeRecord_sound {q} (h : s.Sound t) : s.Sound (t.nvmeRecord q) := emit_sound (sound_upd (h) rfl rfl rfl rfl)

theorem overran_sound {x c count a} (h : s.Sound t) : s.Sound (t.overran x c count a) :=
  report_sound (report_sound (setEng_sound (modClu_sound h)))

theorem noteTarget_sound {x1 e} (h : s.Sound t) : s.Sound (t.noteTarget x1 e) := by
  unfold State.noteTarget
  exact modHedge_sound h

theorem execEngWdogWrite_sound {r e v} (h : s.Sound t) : OnlyNext s.Sound (execEngWdogWrite r e v t) := sound_ite (h) (modEng_sound h)

theorem execMctpControl_sound {eid} (h : s.Sound t) : OnlyNext s.Sound (execMctpControl eid t) := by
  unfold execMctpControl
  exact emit_sound (by
    split
    · exact sound_upd (h) rfl rfl rfl rfl
    · exact h)

theorem askPartner_sound {k s0} (h : s.Sound t) : s.Sound (t.askPartner k s0) :=
  sound_ite (h) (sound_foldl (fun _ _ k2 => emit_sound k2) _ (sound_foldl (fun _ _ k2 => emit_sound k2) _ (sound_upd (h) rfl rfl rfl rfl)))

theorem issuePart_sound (h : s.Sound t) : s.Sound t.issuePart := by
  unfold State.issuePart
  split
  · exact sound_ite (h) (by
      split
      · exact nvmeRecord_sound (sound_upd (h) rfl rfl rfl rfl)
      · exact h)
  · exact h

theorem dropParity_sound {a va} (h : s.Sound t) : s.Sound (t.dropParity a va) := by
  unfold State.dropParity
  exact sound_ite (h) (by
    split
    · exact modEng_sound (sound_ite (sound_foldl (fun _ _ k6 => report_sound (modClu_sound k6)) _ (h)) (modClu_sound (sound_foldl
          (fun _ _ k6 => report_sound (modClu_sound k6)) _ (h))))
    · exact sound_ite (sound_foldl (fun _ _ k6 => report_sound (modClu_sound k6)) _ (h)) (modClu_sound (sound_foldl
          (fun _ _ k6 => report_sound (modClu_sound k6)) _ (h))))

theorem reclaim_sound {n : Nat} (h : s.Sound t) : s.Sound (State.reclaim n t) := by
  induction n generalizing t with
  | zero => exact h
  | succ n ih =>
    unfold State.reclaim
    split
    · refine sound_ite (ih (sound_ite (emit_sound ?_) ?_)) h <;> exact uncharge_sound (sound_upd h rfl rfl rfl rfl)
    · exact h

theorem aer_sound {p fn status} (h : s.Sound t) : s.Sound (t.aer p fn status) := report_sound (setPort_sound (sound_upd
    (h) rfl rfl rfl rfl))

theorem touched_sound {va} (h : s.Sound t) : s.Sound (t.touched va) := by
  unfold State.touched
  exact modPleach_sound h

theorem execThermalStepUp_sound {n} (h : s.Sound t) : OnlyNext s.Sound (execThermalStepUp n t) := by
  unfold execThermalStepUp
  show s.Sound _
  split
  · exact sound_ite (repoint_sound (setClu_sound h)) (h)
  · exact h

theorem execLinkBudgetExpiry_sound {l} (h : s.Sound t) : OnlyNext s.Sound (execLinkBudgetExpiry l t) := sound_ite (linkChanged_sound h) (h)

theorem setChan_sound {m n v} (h : s.Sound t) : s.Sound (t.setChan m n v) := setMover_sound h

theorem settleFull_sound (h : s.Sound t) : s.Sound t.settleFull :=
  sound_ite (sound_ite (h) (alarm_sound (sound_upd (h) rfl rfl rfl rfl))) (unfull_sound h)

theorem modCluEngines_sound {k f} (h : s.Sound t) : s.Sound (t.modCluEngines k f) := sound_foldl (fun _ _ k2 => modEng_sound k2) _ (h)

theorem execStartWaitTimeout_sound (h : s.Sound t) : OnlyNext s.Sound (execStartWaitTimeout t) :=
  sound_ite (emit_sound (sound_upd (h) rfl rfl rfl rfl)) (h)

theorem execHostUnsupportedRequest_sound {p fn write} (h : s.Sound t) : OnlyNext s.Sound (execHostUnsupportedRequest p fn write t) :=
  sound_ite (aer_sound h) (emit_sound (aer_sound h))

theorem execEngSwinWrite_sound {r e v} (h : s.Sound t) : OnlyNext s.Sound (execEngSwinWrite r e v t) := sound_ite (h) (modEng_sound h)

theorem takeBlocks_sound {g level p b u} (h : s.Sound t) (e : t.takeBlocks g level = some (p, b, u)) : s.Sound u := by
  unfold State.takeBlocks at e
  dsimp only at e
  split at e
  · cases e
  · split at e
    · cases e
    · cases e
      exact modHedge_sound (sound_upd h rfl rfl rfl rfl)

theorem complete_sound {x c o op d post} (h : s.Sound t) (hp : ∀ u, s.Sound u → s.Sound (post u)) :
    s.Sound (t.complete x c o op d post) := by
  unfold State.complete
  refine sound_ite (setEng_sound h) ?_
  split
  · exact overran_sound h
  · exact hp _ (setEng_sound h)

theorem startHistory_sound {f} (h : s.Sound t) : s.Sound (t.startHistory f) := by
  unfold State.startHistory
  split
  · exact modHedge_sound h
  · exact h

theorem zeroFrames_sound {x1} (h : s.Sound t) : s.Sound (t.zeroFrames x1) :=
  sound_foldl (fun _ _ k2 => freeFrames_sound (hbmZero_sound k2)) _ (h)

theorem settleMoved_sound {ms m} (h : s.Sound t) : s.Sound (t.settleMoved ms m) := by
  unfold State.settleMoved
  dsimp only
  split
  · exact sound_ite (by
      split
      · exact sound_ite (sound_upd (deallocate_sound (clearDir_sound h)) rfl rfl rfl rfl) (h)
      · exact h) (modPleach_sound (by
      split
      · exact sound_ite (sound_upd (deallocate_sound (clearDir_sound h)) rfl rfl rfl rfl) (h)
      · exact h))
  · split
    · exact sound_ite (sound_upd (deallocate_sound (clearDir_sound h)) rfl rfl rfl rfl) (h)
    · exact h

theorem modMover_sound {m f} (h : s.Sound t) : s.Sound (t.modMover m f) := setMover_sound h

theorem modSlot_sound {n f} (h : s.Sound t) : s.Sound (t.modSlot n f) := setSlot_sound h

theorem discardPrepared_sound {m} (h : s.Sound t) : s.Sound (t.discardPrepared m) := by
  unfold State.discardPrepared
  exact sound_upd (deallocate_sound (by
    split
    · exact clearDir_sound h
    · exact h)) rfl rfl rfl rfl

theorem hostReadOut_sound {a off n} (h : s.Sound t) : s.Sound (t.hostReadOut a off n) := sound_ite (emit_sound h) (h)

theorem writeSuper_sound {port} (h : s.Sound t) : s.Sound (t.writeSuper port) := emit_sound (sound_upd (h) rfl rfl rfl rfl)

theorem acked_sound {slots} (h : s.Sound t) : s.Sound (t.acked slots) := sound_foldl (fun _ _ k2 => modSlot_sound k2) _ (h)

theorem rouse_sound {e n} (h : s.Sound t) : s.Sound (t.rouse e n) := sound_ite (modClu_sound h) (h)

theorem execAlarmMessageRead_sound (h : s.Sound t) : OnlyNext s.Sound (execAlarmMessageRead t) := by
  unfold execAlarmMessageRead
  show s.Sound _
  split
  · exact emit_sound (sound_upd (h) rfl rfl rfl rfl)
  · exact sound_ite (emit_sound (sound_upd (h) rfl rfl rfl rfl)) (h)

theorem ucodeCorrected_sound {k d} (h : s.Sound t) : s.Sound (t.ucodeCorrected k d) := by
  unfold State.ucodeCorrected
  dsimp only
  split
  · exact sound_upd (report_sound (modClu_sound h)) rfl (by simp) (by simp) (by simp)
  · exact report_sound (modClu_sound h)

theorem lower_sound {k} (h : s.Sound t) : s.Sound (t.lower k) := modClu_sound h

theorem writeSupers_sound (h : s.Sound t) : s.Sound t.writeSupers := sound_foldl (fun _ _ k2 => writeSuper_sound k2) _ (h)

theorem waitBlocks_sound {n k} (h : s.Sound t) : s.Sound (t.waitBlocks n k) := modSlot_sound (modClu_sound h)

theorem execPwrBrakeAssert_sound (h : s.Sound t) : OnlyNext s.Sound (execPwrBrakeAssert t) := repointAll_sound (sound_upd
    (h) rfl rfl rfl rfl)

theorem releaseCut_sound {n} (h : s.Sound t) : s.Sound (t.releaseCut n) :=
  sound_ite (emit_sound (sound_upd (h) rfl rfl rfl rfl)) (sound_upd (h) rfl rfl rfl rfl)

theorem scratchToRecord_sound {e a x3 va n} (h : s.Sound t) : s.Sound (t.scratchToRecord e a x3 va n) :=
  sound_foldl (fun _ _ k2 => sound_ite (writeRecord_sound k2) (k2)) _ (writeRecord_sound h)

theorem modFn_sound {f g} (h : s.Sound t) : s.Sound (t.modFn f g) := setFn_sound h

theorem stageEntry_sound {n k ds len} (h : s.Sound t) : s.Sound (t.stageEntry n k ds len) := modSlot_sound (modClu_sound h)

theorem execWatchdog_sound {e c} (h : s.Sound t) : OnlyNext s.Sound (execWatchdog e c t) := sound_ite (modEng_sound h) (h)

theorem watchDead_sound {x1} (h : s.Sound t) : s.Sound (t.watchDead x1) := sound_ite (h) (modHedge_sound h)

theorem execMctpPowerLimit_sound {v} (h : s.Sound t) : OnlyNext s.Sound (execMctpPowerLimit v t) := by
  unfold execMctpPowerLimit
  exact emit_sound (by
    split
    · exact sound_ite (modRegs_sound h rfl) (h)
    · exact h)

theorem sqRestart_sound {f} (h : s.Sound t) : s.Sound (t.sqRestart f) := modFn_sound h

theorem slowPath_sound {g f} (h : s.Sound t) (hf : ∀ u, s.Sound u → s.Sound (f u)) : s.Sound (t.slowPath g f) :=
  sound_ite (hf _ (flushFor_sound h)) h

theorem freeCtx_sound {e n} (h : s.Sound t) : s.Sound (t.freeCtx e n) := modClu_sound (modEng_sound (sound_upd (h) rfl rfl rfl rfl))

theorem roleTouched_sound {e} (h : s.Sound t) : s.Sound (t.roleTouched e) := modCluEngines_sound (modEng_sound h)

theorem waitAdmission_sound {n full} (h : s.Sound t) : s.Sound (t.waitAdmission n full) :=
  settleFull_sound (sound_ite (sound_ite (modSlot_sound (sound_ite (h) (sound_upd (h) rfl rfl rfl rfl))) (modSlot_sound (sound_ite (h)
        (sound_upd (h) rfl rfl rfl rfl)))) (modHedge_sound (sound_ite (modSlot_sound (sound_ite (h) (sound_upd (h) rfl rfl rfl rfl)))
        (modSlot_sound (sound_ite (h) (sound_upd (h) rfl rfl rfl rfl))))))

theorem collect_sound {r} (h : s.Sound t) : s.Sound (t.collect r) := by
  unfold State.collect
  split
  · exact modRegs_sound (writeRecordAt_sound h) rfl
  · exact sound_ite (modRegs_sound (copied_sound (writeRecordAt_sound h)) rfl) (sound_ite (copied_sound (writeRecordAt_sound h))
        (modRegs_sound h rfl))

theorem execPwrBrakeRelease_sound (h : s.Sound t) : OnlyNext s.Sound (execPwrBrakeRelease t) :=
  sound_ite (repointAll_sound (sound_foldl (fun _ _ k2 => modClu_sound k2) _ (sound_upd (h) rfl rfl rfl rfl))) (h)

theorem raise_sound {k} (h : s.Sound t) : s.Sound (t.raise k) := modClu_sound h

theorem faulted_sound (h : s.Sound t) : s.Sound t.faulted :=
  sound_foldl (fun _ _ k2 => sound_ite (modFn_sound k2) (k2)) _ (sound_upd (h) rfl rfl rfl rfl)

theorem execUnpark_sound {slot e c} (h : s.Sound t) : OnlyNext s.Sound (execUnpark slot e c t) := by
  unfold execUnpark
  show s.Sound _
  split
  · exact sound_ite (slowPath_sound h (fun _ q4 => sound_ite (wakeClu_sound q4) (sound_ite (q4) (noteTarget_sound (modSlot_sound
        (setEng_sound q4)))))) (h)
  · exact h

theorem execWound_sound {slot} (h : s.Sound t) : OnlyNext s.Sound (execWound slot t) := by
  unfold execWound
  split
  · exact sound_ite (sound_upd (h) rfl rfl rfl rfl) (sound_upd (modSlot_sound (sound_upd (h) rfl rfl rfl rfl)) rfl rfl rfl rfl)
  · exact h

theorem markSuspect_sound {f} (h : s.Sound t) : s.Sound (t.markSuspect f) := sound_ite (h) (sound_upd (setFn_sound h) rfl rfl rfl rfl)

theorem execMigrationPrepared_sound (h : s.Sound t) : OnlyNext s.Sound (execMigrationPrepared t) := by
  unfold execMigrationPrepared
  exact sound_ite (h) (sound_ite (modPleach_sound h) (by
    split
    · exact sound_ite (h) (emit_sound (sound_upd (sound_foldl (fun _ _ k6 => setDurable_sound k6) _ (h)) rfl rfl rfl rfl))
    · exact h))

theorem privateCorrected_sound {e n d} (h : s.Sound t) : s.Sound (t.privateCorrected e n d) := report_sound (modEng_sound h)

theorem forward_sound (h : s.Sound t) : s.Sound t.forward := sound_ite (h) (modPleach_sound (sound_foldl (fun _ _ k2 => emit_sound k2) _
    (h)))

theorem admitSlot_sound {n x2 b start p args w} (h : s.Sound t) : s.Sound (t.admitSlot n x2 b start p args w) := modHedge_sound
    (setSlot_sound h)

theorem failCluster_sound {k} (h : s.Sound t) : s.Sound (t.failCluster k) := modClu_sound h

theorem entriesGone_sound {a va} (h : s.Sound t) : s.Sound (t.entriesGone a va) := by
  unfold State.entriesGone
  split
  · exact modEng_sound (modClu_sound h)
  · exact modClu_sound h

theorem newTable_sound {g r} (h : s.Sound t) (e : t.newTable g = some r) : s.Sound r.2 := by
  obtain ⟨f, -, rfl⟩ := Option.map_eq_some_iff.1 e
  exact hbmZero_sound (sound_upd h rfl rfl rfl rfl)

theorem execTempSample_sound {k x1 valid} (h : s.Sound t) : OnlyNext s.Sound (execTempSample k x1 valid t) := by
  unfold execTempSample
  exact sound_ite (quiesce_sound (sound_upd (repoint_sound (by
    split
    · exact modClu_sound (sound_upd (h) rfl rfl rfl rfl)
    · exact sound_ite (sound_upd (h) rfl rfl rfl rfl) (report_sound (modClu_sound (sound_upd (h) rfl rfl rfl rfl))))) rfl rfl rfl rfl))
          (repoint_sound (by
    split
    · exact modClu_sound (sound_upd (h) rfl rfl rfl rfl)
    · exact sound_ite (sound_upd (h) rfl rfl rfl rfl) (report_sound (modClu_sound (sound_upd (h) rfl rfl rfl rfl)))))

theorem useToken_sound {x1 v} (h : s.Sound t) : s.Sound (t.useToken x1 v) := modHedge_sound h

theorem execPause_sound {k} (h : s.Sound t) : OnlyNext s.Sound (execPause k t) := sound_ite (h) (emit_sound (emit_sound (pauseFor_sound h)))

theorem blockLate_sound {d} (h : s.Sound t) : s.Sound (t.blockLate d) := emit_sound (report_sound h)

theorem reload_sound {x1 f} (h : s.Sound t) : s.Sound (t.reload x1 f) := sound_foldl (fun _ _ k2 => modEng_sound
    (roleTouched_sound k2)) _ (h)

theorem sendMsix_sound {f v} (h : s.Sound t) : s.Sound (t.sendMsix f v) :=
  sound_ite (sound_ite (setFn_sound h) (emit_sound h)) (sound_ite (setFn_sound h) (emit_sound h))

theorem ucodeMet_sound {k ws} (h : s.Sound t) : s.Sound (t.ucodeMet k ws) := sound_foldl (fun _ _ k2 => ucodeCorrected_sound k2) _ (h)

theorem execEngCtlWrite_sound {r e v} (h : s.Sound t) : OnlyNext s.Sound (execEngCtlWrite r e v t) := sound_ite (h) (modEng_sound h)

theorem openWindows_sound {k x2} (h : s.Sound t) : s.Sound (t.openWindows k x2) := modCluEngines_sound h

theorem metered_sound {w energy} (h : s.Sound t) : s.Sound (t.metered w energy) :=
  sound_foldl (fun _ _ k2 => modClu_sound k2) _ (sound_foldl (fun _ _ k2 => modClu_sound k2) _ (sound_upd (h) rfl rfl rfl rfl))

theorem modCtx_sound {e n f} (h : s.Sound t) : s.Sound (t.modCtx e n f) := modEng_sound h

theorem cutShort_sound (h : s.Sound t) : s.Sound t.cutShort := by
  unfold State.cutShort
  split
  · exact snapAborted_sound (emit_sound (modPleach_sound h))
  · exact snapAborted_sound h

theorem quarantineDamage_sound {e n} (h : s.Sound t) : s.Sound (t.quarantineDamage e n) := report_sound (modCtx_sound h)

theorem execMirrorCopyRequest_sound {l seq i} (h : s.Sound t) : OnlyNext s.Sound (execMirrorCopyRequest l seq i t) :=
  sound_ite (h) (sound_foldl (fun _ _ k2 => emit_sound k2) _ (h))

theorem consume_sound {f} (h : s.Sound t) : s.Sound (t.consume f) := modFn_sound h

theorem execTokenExpiry_sound {x0 v} (h : s.Sound t) : OnlyNext s.Sound (execTokenExpiry x0 v t) := modHedge_sound h

theorem execPwrFailAssert_sound {ns} (h : s.Sound t) : OnlyNext s.Sound (execPwrFailAssert ns t) :=
  sound_ite (powerFail_sound h) (sound_ite (h) (sound_ite (sound_upd (powerFail_sound h) rfl rfl rfl rfl) (sound_upd (h) rfl rfl rfl rfl)))

theorem execContextWindowWrite_sound {r e c off v} (h : s.Sound t) : OnlyNext s.Sound (execContextWindowWrite r e c off v t) :=
  sound_ite (modCtx_sound h) (h)

theorem newRoot_sound {x1} (h : s.Sound t) : s.Sound (t.newRoot x1) := by
  unfold State.newRoot
  split
  · exact modHedge_sound ((newTable_sound h ‹_›))
  · exact h

theorem maWrite_sound {m a off bs} (h : s.Sound t) : s.Sound (t.maWrite m a off bs) := by
  unfold State.maWrite
  split
  · exact modEng_sound h
  · exact sound_foldl (fun _ _ k4 => by
      split
      · exact hbmWriteP_sound k4
      · exact k4) _ (h)
  · exact emit_sound h
  · exact memWrite_sound h
  · exact memWrite_sound h

theorem applyCopy_sound {d} (h : s.Sound t) : s.Sound (t.applyCopy d) := by
  unfold State.applyCopy
  split
  · exact emit_sound (sound_memory h (fun m => memOk_disk m (twf_tsetRun _ ((memOk_iff t).1 m).2.2)) rfl rfl rfl)
  · exact modPleach_sound h

theorem oneMore_sound {slots} (h : s.Sound t) : s.Sound (t.oneMore slots) := sound_foldl (fun _ _ k2 => modSlot_sound k2) _ (h)

theorem execMctpTelemetry_sound (h : s.Sound t) : OnlyNext s.Sound (execMctpTelemetry t) := emit_sound (sound_upd (h) rfl rfl rfl rfl)

theorem returnEngine_sound {x1 g e} (h : s.Sound t) : s.Sound (t.returnEngine x1 g e) := openWindows_sound (modEng_sound
    (roleTouched_sound h))

theorem unmask_sound {f v} (h : s.Sound t) : s.Sound (t.unmask f v) :=
  sound_ite (sound_ite (emit_sound (setFn_sound h)) (h)) (sound_ite (emit_sound (setFn_sound h)) (h))

theorem allApplied_sound {n} (h : s.Sound t) : s.Sound (t.allApplied n) := by
  unfold State.allApplied
  dsimp only
  split
  · exact sound_upd (modSlot_sound (modClu_sound h)) rfl rfl rfl rfl
  · exact modSlot_sound (modClu_sound h)

theorem mcApply_sound {n off v} (h : s.Sound t) : s.Sound (t.mcApply n off v) := sound_ite (h) (modClu_sound h)

theorem issueDrain_sound {n : Nat} (h : s.Sound t) : s.Sound (State.issueDrain n t) := by
  induction n generalizing t with
  | zero => exact issuePart_sound h
  | succ n ih =>
    refine sound_ite h ?_
    split
    · exact issuePart_sound h
    · refine sound_ite h ?_
      split
      · exact h
      · exact ih (nvmeRecord_sound (sound_upd h rfl rfl rfl rfl))

theorem execMctpOtherRequest_sound {v} (h : s.Sound t) : OnlyNext s.Sound (execMctpOtherRequest v t) := emit_sound h

theorem execEventUnitSignal_sound {slot} (h : s.Sound t) : OnlyNext s.Sound (execEventUnitSignal slot t) := by
  unfold execEventUnitSignal
  show s.Sound _
  split
  · exact sigev_sound (takeMsg_sound h)
  · exact h

theorem execClusterC4Entry_sound {n} (h : s.Sound t) : OnlyNext s.Sound (execClusterC4Entry n t) :=
  sound_ite (offCluster_sound (modClu_sound h)) (h)

theorem execResume_sound {m ch} (h : s.Sound t) : OnlyNext s.Sound (execResume m ch t) :=
  sound_ite (h) (sound_ite (sound_ite (issueDrain_sound (setChan_sound h)) (setChan_sound h)) (h))

theorem unstage_sound {e c} (h : s.Sound t) : s.Sound (t.unstage e c) := setChan_sound h

theorem flush_sound (h : s.Sound t) : s.Sound t.flush := by
  unfold State.flush
  exact sound_ite (h) (by
    split
    · exact sound_ite (sound_upd (h) rfl rfl rfl rfl) (issuePart_sound (sound_upd (h) rfl rfl rfl rfl))
    · exact issuePart_sound (sound_upd (h) rfl rfl rfl rfl))

theorem pace_sound {m} (h : s.Sound t) : s.Sound (t.pace m) := modMover_sound h

theorem loadRun_sound {n e c} (h : s.Sound t) : s.Sound (t.loadRun n e c) := by
  unfold State.loadRun
  split
  · exact sound_ite (modEng_sound (modSlot_sound h)) (h)
  · exact h

theorem execRelease_sound {k abort} (h : s.Sound t) : OnlyNext s.Sound (execRelease k abort t) :=
  sound_ite (h) (sound_ite (snapAborted_sound (emit_sound h)) (releaseCut_sound (emit_sound h)))

theorem writeBack_sound {p f size} (h : s.Sound t) : s.Sound (t.writeBack p f size) := emit_sound (hbmToDisk_sound h)

theorem refuseMigration_sound {x cause} (h : s.Sound t) : s.Sound (t.refuseMigration x cause) := emit_sound (pleachError_sound h)

theorem execVcoreUndervolt_sound (h : s.Sound t) : OnlyNext s.Sound (execVcoreUndervolt t) :=
  report_sound (repointAll_sound (sound_upd (h) rfl rfl rfl rfl))

theorem wakeForInv_sound {mask} (h : s.Sound t) : s.Sound (t.wakeForInv mask) :=
  sound_foldl (fun _ _ k2 => sound_ite (modClu_sound k2) (k2)) _ (h)

theorem startCluster_sound {i k} (h : s.Sound t) : s.Sound (t.startCluster i k) := by
  unfold State.startCluster
  exact sound_ite (failCluster_sound h) (by
    split
    · exact setClu_sound h
    · exact failCluster_sound h)

theorem regClear_sound {x1} (h : s.Sound t) : s.Sound (t.regClear x1) := by
  unfold State.regClear
  split
  · exact sound_upd (h) rfl rfl rfl rfl
  · exact sound_upd (h) rfl rfl rfl rfl
  · exact modHedge_sound h
  · exact sound_upd (h) rfl rfl rfl rfl
  · exact setLink_sound h
  · exact sound_upd (h) rfl rfl rfl rfl
  · exact modMemcnt_sound h
  · exact setPort_sound h
  · exact modMover_sound h
  · exact modClu_sound h
  · exact modClu_sound h
  · exact modClu_sound h
  · exact modClu_sound h
  · exact modEng_sound h
  · exact modEng_sound h
  · exact modEng_sound h
  · exact h

theorem fillPage_sound {p f size} (h : s.Sound t) : s.Sound (t.fillPage p f size) := sound_ite (hbmZero_sound h) (emit_sound
    (diskToHbm_sound h))

theorem startClear_sound {e} (h : s.Sound t) : s.Sound (t.startClear e) := by
  unfold State.startClear
  exact sound_ite (modClu_sound (modEng_sound (roleTouched_sound h))) (modEng_sound (roleTouched_sound h))

theorem unassign_sound {e} (h : s.Sound t) : s.Sound (t.unassign e) := modEng_sound (roleTouched_sound h)

theorem reachedAll_sound {n} (h : s.Sound t) : s.Sound (t.reachedAll n) := sound_ite (emit_sound (modPleach_sound h)) (h)

theorem accept_sound {f b start slot target} (h : s.Sound t) : s.Sound (t.accept f b start slot target) := modFn_sound h

theorem chooseTarget_sound {f x2} (h : s.Sound t) : s.Sound (t.chooseTarget f x2).2 := by
  unfold State.chooseTarget
  split
  · exact h
  · exact wakeClu_sound (noteTarget_sound h)

theorem execOutOfWindowRequest_sound {p q} (h : s.Sound t) : OnlyNext s.Sound (execOutOfWindowRequest p q t) :=
  sound_ite (h) (sound_ite (setSport_sound h) (emit_sound (setSport_sound h)))

theorem execMctpErrorLog_sound (h : s.Sound t) : OnlyNext s.Sound (execMctpErrorLog t) := emit_sound h

theorem execPark_sound {e c} (h : s.Sound t) : OnlyNext s.Sound (execPark e c t) := by
  unfold execPark
  show s.Sound _
  split
  · exact sound_ite (slowPath_sound h (fun _ q4 => freeCtx_sound (modSlot_sound (setEng_sound q4)))) (h)
  · exact h

theorem markStale_sound {a va} (h : s.Sound t) : s.Sound (t.markStale a va) := modClu_sound (entriesGone_sound h)

theorem pend_sound {n f} (h : s.Sound t) : s.Sound (t.pend n f) := by
  unfold State.pend
  split
  · exact sound_ite (rouse_sound (modEng_sound h)) (h)
  · exact sound_ite (modSlot_sound h) (h)

theorem muddled_sound {m d off n} (h : s.Sound t) : s.Sound (t.muddled m d off n).1 :=
  sound_upd (sound_ite (h) (maWrite_sound h)) rfl rfl rfl rfl

theorem notice_sound {n level kind word} (h : s.Sound t) : s.Sound (t.notice n level kind word) := by
  unfold State.notice
  split
  · exact sound_ite (sound_upd (h) rfl rfl rfl rfl) (pend_sound h)
  · exact h

theorem execD0Return_sound {f} (h : s.Sound t) : OnlyNext s.Sound (execD0Return f t) := modFn_sound h

theorem execEngineClearComplete_sound {e} (h : s.Sound t) : OnlyNext s.Sound (execEngineClearComplete e t) :=
  sound_ite (modClu_sound (modCluEngines_sound (modEng_sound h))) (h)

theorem execApplyNotice_sound {slot} (h : s.Sound t) : OnlyNext s.Sound (execApplyNotice slot t) := sound_ite (modSlot_sound h) (h)

theorem execWoundRestart_sound {slot} (h : s.Sound t) : OnlyNext s.Sound (execWoundRestart slot t) :=
  sound_ite (slowPath_sound h (fun _ q2 => modHedge_sound (setSlot_sound q2))) (h)

theorem endTxn_sound {n status x} (h : s.Sound t) : s.Sound (t.endTxn n status x) :=
  sound_ite (unfull_sound (sound_upd (modHedge_sound (setSlot_sound (modClu_sound h))) rfl rfl rfl rfl)) (h)

theorem packed_sound {d charge} (h : s.Sound t) : s.Sound (t.packed d charge) := sound_upd (modHedge_sound
    (modSlot_sound h)) rfl rfl rfl rfl

theorem keepSource_sound (h : s.Sound t) : s.Sound t.keepSource := by
  unfold State.keepSource
  dsimp only
  split
  · exact drained_sound (modFn_sound (modPleach_sound h))
  · exact modPleach_sound h

theorem execSnapshotPauseTimeout_sound (h : s.Sound t) : OnlyNext s.Sound (execSnapshotPauseTimeout t) := by
  unfold execSnapshotPauseTimeout
  split
  · exact sound_ite (cutShort_sound h) (h)
  · exact h

theorem entryPoison_sound {f poison} (h : s.Sound t) : s.Sound (t.entryPoison f poison) := sound_ite (aer_sound h) (h)

theorem setZone_sound {port z} (h : s.Sound t) : s.Sound (t.setZone port z) :=
  sound_ite (writeSuper_sound (sound_upd (h) rfl rfl rfl rfl)) (sound_upd (h) rfl rfl rfl rfl)

theorem drainFailed_sound {seg fails port} (h : s.Sound t) : s.Sound (t.drainFailed seg fails port) :=
  sound_ite (report_sound (sound_upd (h) rfl rfl rfl rfl)) (issueDrain_sound (sound_upd (h) rfl rfl rfl rfl))

theorem placeAt_sound {ps r} (h : s.Sound t) : s.Sound (State.placeAt ps t r) :=
  sound_foldl (fun _ _ k2 => nvmeRecord_sound (sound_upd (k2) rfl rfl rfl rfl)) _ (sound_upd (h) rfl rfl rfl rfl)

theorem codeCorrected_sound {k w} (h : s.Sound t) : s.Sound (t.codeCorrected k w) := report_sound (modClu_sound (sound_upd
    (h) rfl rfl rfl rfl))

theorem execThrottleTimeout_sound {slot} (h : s.Sound t) : OnlyNext s.Sound (execThrottleTimeout slot t) := by
  unfold execThrottleTimeout
  show s.Sound _
  split
  · exact sound_ite (modHedge_sound (endTxn_sound h)) (h)
  · exact h

theorem execMediaMark_sound {slot} (h : s.Sound t) : OnlyNext s.Sound (execMediaMark slot t) := by
  unfold execMediaMark
  split
  · exact sound_ite (sound_upd (h) rfl rfl rfl rfl) (sound_ite (endTxn_sound (sound_upd (h) rfl rfl rfl rfl)) (modSlot_sound (sound_upd
        (h) rfl rfl rfl rfl)))
  · exact h

theorem execResetChannel_sound {m ch} (h : s.Sound t) : OnlyNext s.Sound (execResetChannel m ch t) :=
  sound_ite (h) (sound_ite (setChan_sound h) (h))

theorem execEnergySettle_sound {issue} (h : s.Sound t) : OnlyNext s.Sound (execEnergySettle issue t) :=
  repointAll_sound (sound_foldl (fun _ _ k2 => settled_sound k2) _ (h))

theorem execMoverSignal_sound {m ch} (h : s.Sound t) : OnlyNext s.Sound (execMoverSignal m ch t) := by
  unfold execMoverSignal
  split
  · exact sigev_sound (sound_ite (setEndpoint_sound (sound_upd (h) rfl rfl rfl rfl)) (sound_upd (h) rfl rfl rfl rfl))
  · exact h

theorem execMovChannelConfigWrite_sound {m ch cfg v} (h : s.Sound t) : OnlyNext s.Sound (execMovChannelConfigWrite m ch cfg v t) := by
  unfold execMovChannelConfigWrite
  exact sound_ite (h) (sound_ite (by
    split
    · exact sound_ite (setChan_sound h) (h)
    · exact h) (by
    split
    · exact sound_ite (setChan_sound h) (sound_ite (setChan_sound h) (h))
    · exact h))

theorem execMachineCheck_sound {e c dmg} (h : s.Sound t) : OnlyNext s.Sound (execMachineCheck e c dmg t) := by
  unfold execMachineCheck
  show s.Sound _
  dsimp only
  exact sound_ite (by
    split
    · exact report_sound (report_sound (modEng_sound (modClu_sound h)))
    · exact report_sound (report_sound (modEng_sound (modClu_sound h)))
    · exact sound_upd (report_sound (report_sound (modEng_sound (modClu_sound h)))) rfl rfl rfl rfl
    · exact report_sound (modEng_sound (modClu_sound h))) (h)

theorem entriesMarked_sound {a va} (h : s.Sound t) : s.Sound (t.entriesMarked a va) := by
  unfold State.entriesMarked
  split
  · exact modEng_sound (modClu_sound h)
  · exact modClu_sound h

theorem slowCmd_sound {f op g} (h : s.Sound t) (hg : ∀ u, s.Sound u → ∀ k c, s.Sound (g u k c)) : s.Sound (t.slowCmd f op g) :=
  withCmd_sound h fun k c => slowPath_sound h fun _ q => hg _ q k c

theorem placeRecord_sound {k r} (h : s.Sound t) : s.Sound (State.placeRecord k t r) := placeAt_sound h

theorem bounce_sound {m} (h : s.Sound t) : s.Sound (t.bounce m) := sound_ite (sound_upd (modEng_sound h) rfl rfl rfl rfl) (modEng_sound h)

theorem splitTo_sound {g va} {n : Nat} (h : s.Sound t) : s.Sound (State.splitTo g va n t) := by
  induction n generalizing t with
  | zero => exact h
  | succ n ih =>
    unfold State.splitTo
    split
    · refine sound_ite h ?_
      split
      · exact ih (hbmPut_sound (sound_foldl (fun _ _ k => hbmPut_sound k) _ (newTable_sound h ‹_›)))
      · exact h
    · exact h

theorem execStoreBufferDrain_sound {e} (h : s.Sound t) : OnlyNext s.Sound (execStoreBufferDrain e t) := modEng_sound h

theorem formed_sound {f c} (h : s.Sound t) : s.Sound (t.formed f c) := by
  unfold State.formed
  exact sound_ite (modFn_sound (by
    split
    · exact modHedge_sound h
    · exact h)) (by
    split
    · exact idleSlot_sound (by
        split
        · exact modHedge_sound h
        · exact h)
    · split
      · exact modHedge_sound h
      · exact h)

theorem readOnly_sound {n} (h : s.Sound t) : s.Sound (t.readOnly n) := modSlot_sound h

theorem installFrom_sound {g va target p} {n a : Nat} (h : s.Sound t) : s.Sound (State.installFrom g va target p n a t) := by
  induction n generalizing t a with
  | zero => exact h
  | succ n ih =>
    refine sound_ite (hbmPut_sound h) (sound_ite (ih h) ?_)
    split
    · exact ih (hbmPut_sound (newTable_sound h ‹_›))
    · exact h

theorem execMirrorAck_sound {g} (h : s.Sound t) : OnlyNext s.Sound (execMirrorAck g t) := by
  unfold execMirrorAck
  show s.Sound _
  split
  · exact acked_sound (sound_upd (h) rfl rfl rfl rfl)
  · exact h

theorem modChan_sound {m ch f} (h : s.Sound t) : s.Sound (t.modChan m ch f) := setChan_sound h

theorem chooseTargets_sound {f g} {n : Nat} (h : s.Sound t) : s.Sound (t.chooseTargets f g n) := by
  induction n generalizing t with
  | zero => exact h
  | succ n ih => exact ih (modFn_sound (chooseTarget_sound h))

theorem leave_sound {k} (h : s.Sound t) : s.Sound (t.leave k) := by
  unfold State.leave
  split
  · exact modClu_sound (modCluEngines_sound h)
  · exact modClu_sound (modCluEngines_sound h)
  · exact h

theorem completeSlot_sound {n} (h : s.Sound t) : s.Sound (t.completeSlot n) := by
  unfold State.completeSlot
  dsimp only
  split
  · exact formed_sound h
  · exact idleSlot_sound h

theorem writeCode_sound {k at_ bs} (h : s.Sound t) : s.Sound (t.writeCode k at_ bs) := modCluEngines_sound (modClu_sound h)

theorem execEngineClear_sound {r e} (h : s.Sound t) : OnlyNext s.Sound (execEngineClear r e t) := sound_ite (startClear_sound h) (h)

theorem invalidate_sound {r op x3 mask f} (h : s.Sound t) : s.Sound (t.invalidate r op x3 mask f) :=
  sound_ite (h) (sound_ite (sound_upd (h) rfl rfl rfl rfl) (wakeForInv_sound (sound_foldl (fun _ _ k2 => modClu_sound k2) _
        (dropTlb_sound (sound_upd (sound_upd (h) rfl rfl rfl rfl) rfl rfl rfl rfl)))))

theorem execUnexpectedCompletion_sound {m tag bytes} (h : s.Sound t) : OnlyNext s.Sound (execUnexpectedCompletion m tag bytes t) := by
  unfold execUnexpectedCompletion
  show s.Sound _
  split
  · exact aer_sound (modMover_sound h)
  · exact modMover_sound h

theorem execCommitOutcome_sound {e c} (h : s.Sound t) : OnlyNext s.Sound (execCommitOutcome e c t) :=
  sound_ite (freeCtx_sound (modHedge_sound h)) (h)

theorem placeCode_sound {k x2 p} (h : s.Sound t) : s.Sound (t.placeCode k x2 p) :=
  sound_foldl (fun _ _ k2 => sound_ite (writeCode_sound k2) (k2)) _ (h)

theorem partDone_sound {p port} (h : s.Sound t) : s.Sound (t.partDone p port) :=
  issueDrain_sound (sound_ite (flush_sound (sound_upd (h) rfl rfl rfl rfl)) (sound_upd (h) rfl rfl rfl rfl))

theorem loadEach_sound {g f} {l : List EngId} {out} (h : s.Sound t) :
    s.Sound (State.loadEach g f l out t).1 := by
  induction l generalizing t out with
  | nil => exact h
  | cons e l ih =>
    have h1 : s.Sound (if out = true then t else t.unassign e) := sound_ite h (unassign_sound h)
    unfold State.loadEach
    split
    · exact ih h
    · split
      · exact h
      · generalize (if out = true then t else t.unassign e) = u at h1
        dsimp only
        split
        · exact h1
        · exact ih (returnEngine_sound h1)

theorem failDrain_sound {seg} (h : s.Sound t) : s.Sound (t.failDrain seg) := by
  unfold State.failDrain
  dsimp only
  split
  · exact drainFailed_sound (sound_upd (h) rfl rfl rfl rfl)
  · split
    · exact drainFailed_sound (sound_upd (h) rfl rfl rfl rfl)
    · exact h

theorem reopenHedge_sound {x1 d} (h : s.Sound t) : s.Sound (t.reopenHedge x1 d) := by
  unfold State.reopenHedge
  exact modFn_sound (setHedge_sound h)

theorem foldl_tset_wf {α : Type} (f : α → Nat × Byte) (l : List α) : ∀ {m : Tab Byte}, Memory.wf m = true →
    Memory.wf (l.foldl (fun t q => tset 0 t (f q).1 (f q).2) m) = true := by
  induction l with
  | nil => exact fun h => h
  | cons q l ih => exact fun h => ih (twf_tset _ _ h)

theorem pageArrives_sound {here va level perm pkey prkey cells} (h : s.Sound t) :
    s.Sound (t.pageArrives here va level perm pkey prkey cells) := by
  unfold State.pageArrives
  split
  · exact h
  · next port b s1 e =>
    have h1 := takeBlocks_sound h e
    refine sound_foldl (fun _ _ k => applyCopy_sound k) _ (modPleach_sound (emit_sound (sound_memory h1 (fun m => ?_) rfl rfl rfl)))
    exact memOk_disk m (foldl_tset_wf (fun q : Nat × Byte => (diskAt port b + q.1, q.2)) _ ((memOk_iff s1).1 m).2.2)

theorem execSqrestart_sound {f} (h : s.Sound t) : OnlyNext s.Sound (execSqrestart f t) := sqRestart_sound h

theorem arriveAt_sound {e n a} (h : s.Sound t) : s.Sound (t.arriveAt e n a) :=
  sound_ite (endTxn_sound (freeCtx_sound (sound_upd (h) rfl rfl rfl rfl))) (sound_ite (sound_upd (h) rfl rfl rfl rfl) (rouse_sound
        (modCtx_sound (sound_upd (h) rfl rfl rfl rfl))))

theorem execPleachLinkDown_sound {l} (h : s.Sound t) : OnlyNext s.Sound (execPleachLinkDown l t) :=
  sound_ite (cutShort_sound (linkChanged_sound h)) (h)

theorem postCompl_sound {f c} (h : s.Sound t) : s.Sound (t.postCompl f c) := by
  unfold State.postCompl
  dsimp only
  split
  · exact idleSlot_sound (by
      split
      · exact tableChange_sound (sound_ite (sound_upd (by
          split
          · exact modHedge_sound (sound_ite (sendMsix_sound (setFn_sound (emit_sound h))) (setFn_sound (emit_sound h)))
          · exact sound_ite (sendMsix_sound (setFn_sound (emit_sound h))) (setFn_sound (emit_sound h))) rfl rfl rfl rfl) (by
          split
          · exact modHedge_sound (sound_ite (sendMsix_sound (setFn_sound (emit_sound h))) (setFn_sound (emit_sound h)))
          · exact sound_ite (sendMsix_sound (setFn_sound (emit_sound h))) (setFn_sound (emit_sound h))))
      · exact sound_ite (sound_upd (by
          split
          · exact modHedge_sound (sound_ite (sendMsix_sound (setFn_sound (emit_sound h))) (setFn_sound (emit_sound h)))
          · exact sound_ite (sendMsix_sound (setFn_sound (emit_sound h))) (setFn_sound (emit_sound h))) rfl rfl rfl rfl) (by
          split
          · exact modHedge_sound (sound_ite (sendMsix_sound (setFn_sound (emit_sound h))) (setFn_sound (emit_sound h)))
          · exact sound_ite (sendMsix_sound (setFn_sound (emit_sound h))) (setFn_sound (emit_sound h))))
  · split
    · exact tableChange_sound (sound_ite (sound_upd (by
        split
        · exact modHedge_sound (sound_ite (sendMsix_sound (setFn_sound (emit_sound h))) (setFn_sound (emit_sound h)))
        · exact sound_ite (sendMsix_sound (setFn_sound (emit_sound h))) (setFn_sound (emit_sound h))) rfl rfl rfl rfl) (by
        split
        · exact modHedge_sound (sound_ite (sendMsix_sound (setFn_sound (emit_sound h))) (setFn_sound (emit_sound h)))
        · exact sound_ite (sendMsix_sound (setFn_sound (emit_sound h))) (setFn_sound (emit_sound h))))
    · exact sound_ite (sound_upd (by
        split
        · exact modHedge_sound (sound_ite (sendMsix_sound (setFn_sound (emit_sound h))) (setFn_sound (emit_sound h)))
        · exact sound_ite (sendMsix_sound (setFn_sound (emit_sound h))) (setFn_sound (emit_sound h))) rfl rfl rfl rfl) (by
        split
        · exact modHedge_sound (sound_ite (sendMsix_sound (setFn_sound (emit_sound h))) (setFn_sound (emit_sound h)))
        · exact sound_ite (sendMsix_sound (setFn_sound (emit_sound h))) (setFn_sound (emit_sound h)))

theorem stopCtx_sound {e n status} (h : s.Sound t) : s.Sound (t.stopCtx e n status) := by
  unfold State.stopCtx
  dsimp only
  split
  · exact sound_ite (modCtx_sound (endTxn_sound h)) (sound_ite (modSlot_sound (modEng_sound h)) (endTxn_sound (freeCtx_sound h)))
  · exact sound_ite (modCtx_sound (endTxn_sound h)) (sound_ite (endTxn_sound (modCtx_sound h)) (endTxn_sound (freeCtx_sound h)))

theorem reopenHedges_sound (h : s.Sound t) : s.Sound t.reopenHedges := by
  unfold State.reopenHedges
  exact sound_foldl (fun _ _ k2 => by
    split
    · exact sound_ite (k2) (reopenHedge_sound k2)
    · exact k2) _ (h)

theorem mirrorOut_sound {at_ g bs slots} (h : s.Sound t) : s.Sound (t.mirrorOut at_ g bs slots) :=
  sound_ite (emit_sound (sound_foldl (fun _ _ k2 => modSlot_sound k2) _ (sound_upd (h) rfl rfl rfl rfl))) (h)

theorem withStep_sound {f op g} (h : s.Sound t) (hg : ∀ u, s.Sound u → ∀ k c n b i, s.Sound (g u k c n b i)) :
    s.Sound (t.withStep f op g) :=
  withCmd_sound h fun k c => by
    split
    · exact sound_ite (slowPath_sound h fun _ q => hg _ (sound_upd q rfl rfl rfl rfl) _ _ _ _ _) h
    · exact h

theorem corrected_sound {old x o} (h : s.Sound t) : s.Sound (t.corrected old x o) :=
  sound_ite (h) (sound_ite (sound_foldl (fun _ _ k2 => privateCorrected_sound k2) _ (sound_foldl
        (fun _ _ k2 => codeCorrected_sound k2) _ (h))) (sound_foldl (fun _ _ k2 => codeCorrected_sound k2) _ (h)))

theorem dropWrite_sound {f} (h : s.Sound t) : s.Sound (t.dropWrite f) := setPort_sound (modFn_sound h)

theorem downPf_sound {f} (h : s.Sound t) : s.Sound (t.downPf f) := sound_foldl (fun _ _ k2 => tableChange_sound k2) _ (modFn_sound h)

theorem execPowerControl_sound {w energy} (h : s.Sound t) : OnlyNext s.Sound (execPowerControl w energy t) := by
  unfold execPowerControl
  exact repointAll_sound (sound_ite (sound_foldl (fun _ _ k2 => lower_sound k2) _ (metered_sound h)) (sound_ite (sound_foldl
        (fun _ _ k2 => lower_sound k2) _ (metered_sound h)) (sound_ite (by
    split
    · exact raise_sound (metered_sound h)
    · exact metered_sound h) (metered_sound h))))

theorem joinReaders_sound {f x2 c va} (h : s.Sound t) : s.Sound (t.joinReaders f x2 c va) :=
  sound_ite (h) (modFn_sound (sound_upd (h) rfl rfl rfl rfl))

theorem putStatus_sound {m ch d st spc at_ advance bs} (h : s.Sound t) : s.Sound (t.putStatus m ch d st spc at_ advance bs) :=
  sound_ite (sound_upd (modChan_sound (memWrite_sound h)) rfl rfl rfl rfl) (modChan_sound (memWrite_sound h))

theorem loadCode_sound {k x2} (h : s.Sound t) : s.Sound (t.loadCode k x2) := sound_foldl (fun _ _ k2 => placeCode_sound k2) _ (h)

theorem nowDurable_sound {n} (h : s.Sound t) : s.Sound (t.nowDurable n) :=
  sound_ite (allApplied_sound (sound_upd (modSlot_sound h) rfl rfl rfl rfl)) (sound_upd (modSlot_sound h) rfl rfl rfl rfl)

theorem endNow_sound {n} (h : s.Sound t) : s.Sound (t.endNow n) := by
  unfold State.endNow
  exact sound_ite (by
    split
    · exact sound_ite (endTxn_sound (freeCtx_sound h)) (stopCtx_sound h)
    · exact endTxn_sound h) (h)

theorem execTlbinvHedge_sound {r x1 mask} (h : s.Sound t) : OnlyNext s.Sound (execTlbinvHedge r x1 mask t) := invalidate_sound h

theorem execQuarantineEnd_sound {e c} (h : s.Sound t) : OnlyNext s.Sound (execQuarantineEnd e c t) :=
  sound_ite (h) (sound_ite (freeCtx_sound (sound_ite (h) (sound_ite (modSlot_sound (modCtx_sound (endTxn_sound h))) (modCtx_sound
        (endTxn_sound h))))) (sound_ite (h) (sound_ite (modSlot_sound (modCtx_sound (endTxn_sound h))) (modCtx_sound (endTxn_sound h)))))

theorem execMigrationRequest_sound {x0 x there f veto} (h : s.Sound t) : OnlyNext s.Sound (execMigrationRequest x0 x there f veto t) := by
  unfold execMigrationRequest
  show s.Sound _
  split
  · exact h
  · exact sound_ite (h) (sound_ite (refuseMigration_sound h) (sound_ite (refuseMigration_sound h) (sound_ite (refuseMigration_sound h)
        (emit_sound (modPleach_sound (sound_foldl (fun _ _ k4 => emit_sound k4) _ (emit_sound h)))))))

theorem fwInvalidate_sound {op x2 page f} (h : s.Sound t) : s.Sound (t.fwInvalidate op x2 page f) :=
  wakeForInv_sound (dropTlb_sound (sound_upd (h) rfl rfl rfl rfl))

theorem collected_sound {n} (h : s.Sound t) : s.Sound (t.collected n) := sound_ite (releaseCut_sound (emit_sound (modPleach_sound h))) (h)

theorem dropCur_sound {f c} (h : s.Sound t) : s.Sound (t.dropCur f c) := modFn_sound h

theorem execErrorRecordWrite_sound (h : s.Sound t) : OnlyNext s.Sound (execErrorRecordWrite t) := by
  unfold execErrorRecordWrite
  split
  · exact collect_sound (sound_upd (h) rfl rfl rfl rfl)
  · exact h

theorem closeSegment_sound {p} (h : s.Sound t) : s.Sound (t.closeSegment p) := sound_ite (issueDrain_sound (sound_upd
    (h) rfl rfl rfl rfl)) (h)

theorem setMarm_sound {x1 e f} (h : s.Sound t) : s.Sound (t.setMarm x1 e f) := sound_ite (watchDead_sound (setEndpoint_sound h)) (h)

theorem execBusyCountElapsed_sound {e c} (h : s.Sound t) : OnlyNext s.Sound (execBusyCountElapsed e c t) :=
  sound_ite (h) (sound_ite (freeCtx_sound (modEng_sound h)) (modEng_sound h))

theorem mediaEnd_sound {n} (h : s.Sound t) : s.Sound (t.mediaEnd n) := by
  unfold State.mediaEnd
  split
  · exact stopCtx_sound h
  · exact endTxn_sound h

theorem pfOnly_sound (h : s.Sound t) : s.Sound t.pfOnly := faulted_sound (sound_upd (h) rfl rfl rfl rfl)

theorem writeEvent_sound {f v} (h : s.Sound t) : s.Sound (t.writeEvent f v) := by
  unfold State.writeEvent
  exact sendMsix_sound (setFn_sound (emit_sound h))

theorem pagedOn_sound {m ch x3 va dst} (h : s.Sound t) : s.Sound (t.pagedOn m ch x3 va dst) := modChan_sound (modClu_sound h)

theorem granted_sound {n x2 u r excl} (h : s.Sound t) : s.Sound (t.granted n x2 u r excl) := by
  unfold State.granted
  dsimp only
  split
  · exact modCtx_sound (modSlot_sound h)
  · exact modSlot_sound h

theorem execRegisterReadClear_sound {r a} (h : s.Sound t) : OnlyNext s.Sound (execRegisterReadClear r a t) := by
  unfold execRegisterReadClear
  exact sound_ite (h) (by
    split
    · exact emit_sound h
    · exact sound_upd (emit_sound (regClear_sound h)) rfl rfl rfl rfl)

theorem execMigrationCopyReceive_sound {m} (h : s.Sound t) : OnlyNext s.Sound (execMigrationCopyReceive m t) := by
  unfold execMigrationCopyReceive
  split
  · exact sound_ite (modPleach_sound (modHedge_sound (sound_foldl (fun _ _ k4 => sound_ite (putEntry_sound k4) (k4)) _ (h)))) (h)
  · split
    · exact sound_ite (sound_foldl (fun _ _ k6 => touched_sound k6) _ (pageArrives_sound h)) (h)
    · exact h
  · exact sound_ite (sound_foldl (fun _ _ k4 => touched_sound (applyCopy_sound k4)) _ (h)) (h)
  · split
    · exact sound_ite (modPleach_sound (sound_foldl (fun _ _ k6 => sound_ite (putEntry_sound k6) (k6)) _ (h))) (h)
    · exact h

theorem endStep_sound {n b status result next} (h : s.Sound t) : s.Sound (t.endStep n b status result next) := by
  unfold State.endStep
  dsimp only
  split
  · exact idleSlot_sound h
  · exact formed_sound (modSlot_sound (by
      split
      · exact newToken_sound h
      · exact h))

theorem execLinkUp_sound {l peer far attempts} (h : s.Sound t) : OnlyNext s.Sound (execLinkUp l peer far attempts t) :=
  sound_ite (h) (sound_ite (cutShort_sound (linkChanged_sound h)) (emit_sound (cutShort_sound (linkChanged_sound h))))

theorem execDrainWriteFail_sound {seg} (h : s.Sound t) : OnlyNext s.Sound (execDrainWriteFail seg t) := failDrain_sound h

theorem execParkWaitTimeout_sound {e c} (h : s.Sound t) : OnlyNext s.Sound (execParkWaitTimeout e c t) := by
  unfold execParkWaitTimeout
  show s.Sound _
  split
  · exact sound_ite (stopCtx_sound h) (h)
  · exact h

theorem writePacked_sound {d ds} (h : s.Sound t) : s.Sound (t.writePacked d ds) :=
  mirrorOut_sound (oneMore_sound (sound_foldl (fun _ _ k2 => packed_sound k2) _ (sound_upd (h) rfl rfl rfl rfl)))

theorem releasePage_sound {x1 base size ok} (h : s.Sound t) : s.Sound (t.releasePage x1 base size ok) :=
  sound_foldl (fun _ _ k2 => sound_ite (modSlot_sound k2) (endTxn_sound k2)) _ (queueWalks_sound (chansPageDone_sound (mapCtxs_sound h)))

theorem arriveSlot_sound {n a} (h : s.Sound t) : s.Sound (t.arriveSlot n a) := by
  unfold State.arriveSlot
  split
  · exact arriveAt_sound h
  · exact sound_ite (modSlot_sound h) (h)

theorem execVector0Timer_sound {f} (h : s.Sound t) : OnlyNext s.Sound (execVector0Timer f t) := sound_ite (sendMsix_sound
    (setFn_sound h)) (h)

theorem vector_sound {e n v} (h : s.Sound t) : s.Sound (t.vector e n v) := by
  unfold State.vector
  dsimp only
  split
  · exact scratchRecord_sound (setEng_sound h)
  · exact scratchRecord_sound (setEng_sound h)
  · exact sound_ite (modSlot_sound (endTxn_sound (scratchRecord_sound (setEng_sound h)))) (endTxn_sound (scratchRecord_sound
        (setEng_sound h)))
  · exact report_sound (modSlot_sound (scratchRecord_sound (setEng_sound h)))

theorem settleMigration_sound {ms} (h : s.Sound t) : s.Sound (t.settleMigration ms) := by
  unfold State.settleMigration
  exact sound_ite (sound_ite (h) (keepSource_sound h)) (by
    split
    · exact sound_ite (h) (discardCopy_sound h)
    · exact h)

theorem execRprefAck_sound {e c} (h : s.Sound t) : OnlyNext s.Sound (execRprefAck e c t) := by
  unfold execRprefAck
  split
  · exact arriveAt_sound h
  · exact arriveAt_sound h
  · exact arriveAt_sound h
  · exact h

theorem startUnit_sound {n b} (h : s.Sound t) : s.Sound (t.startUnit n b) := by
  unfold State.startUnit
  dsimp only
  split
  · split
    · exact sound_ite (endStep_sound h) (endStep_sound h)
    · exact setSlot_sound (drawStart_sound h)
  · exact endStep_sound h

theorem execWaitevTimeout_sound {slot} (h : s.Sound t) : OnlyNext s.Sound (execWaitevTimeout slot t) := by
  unfold execWaitevTimeout
  show s.Sound _
  split
  · split
    · exact sound_ite (arriveSlot_sound (modHedge_sound h)) (h)
    · exact h
  · exact h

theorem install_sound {x1 va level p} (h : s.Sound t) : s.Sound (t.install x1 va level p) := installFrom_sound h

theorem lockLoss_sound {u x2} (h : s.Sound t) : s.Sound (t.lockLoss u x2) := report_sound (sound_foldl
    (fun _ _ k2 => mediaEnd_sound k2) _ (h))

theorem issueBlock_sound {m ch d} (h : s.Sound t) : s.Sound (t.issueBlock m ch d) := emit_sound (modChan_sound (modMover_sound h))

theorem endBlock_sound {m ch st nvst pz done} (h : s.Sound t) : s.Sound (t.endBlock m ch st nvst pz done) := modChan_sound h

theorem execIdentityMessage_sound {l p} (h : s.Sound t) : OnlyNext s.Sound (execIdentityMessage l p t) :=
  sound_ite (h) (sound_ite (cutShort_sound (linkChanged_sound h)) (sound_ite (h) (sound_foldl (fun _ _ k2 => emit_sound k2) _
        (hold_sound h))))

theorem rebuildTables_sound (h : s.Sound t) : s.Sound t.rebuildTables :=
  sound_foldl (fun _ _ k2 => sound_foldl (fun _ _ k2 => sound_ite (install_sound (splitTo_sound k2)) (k2)) _ (k2)) _ (sound_foldl
        (fun _ _ k2 => newRoot_sound k2) _ (h))

theorem register_sound {x1 n p} (h : s.Sound t) : s.Sound (t.register x1 n p) :=
  sound_foldl (fun _ _ k2 => placeCode_sound k2) _ (modHedge_sound h)

theorem entryDurable_sound {n} (h : s.Sound t) : s.Sound (t.entryDurable n) := sound_ite (nowDurable_sound (modSlot_sound h))
    (modSlot_sound h)

theorem abortSlot_sound {n} (h : s.Sound t) : s.Sound (t.abortSlot n) := by
  unfold State.abortSlot
  dsimp only
  exact sound_ite (by
    split
    · exact stopCtx_sound (modSlot_sound h)
    · exact endTxn_sound (modSlot_sound h)) (sound_ite (modSlot_sound h) (h))

theorem haltStage_sound {m ch} (h : s.Sound t) : s.Sound (t.haltStage m ch) := by
  unfold State.haltStage
  dsimp only
  exact sound_ite (by
    split
    · exact arriveAt_sound (unstage_sound h)
    · exact h) (h)

theorem rekey_sound {frame n fe} (h : s.Sound t) : s.Sound (t.rekey frame n fe) := fwInvalidate_sound (setFrames_sound h)

theorem unitDone_sound {n b} (h : s.Sound t) : s.Sound (t.unitDone n b) :=
  sound_ite (sound_ite (endStep_sound h) (startUnit_sound h)) (sound_ite (endStep_sound h) (endStep_sound h))

theorem msixWrite_sound {f at_ len v} (h : s.Sound t) : s.Sound (t.msixWrite f at_ len v) :=
  sound_ite (unmask_sound (modFn_sound h)) (unmask_sound (modFn_sound h))

theorem execFlushRequest_sound (h : s.Sound t) : OnlyNext s.Sound (execFlushRequest t) := flush_sound h

theorem deliver_sound {m} (h : s.Sound t) : s.Sound (t.deliver m) := by
  unfold State.deliver
  exact sound_ite (h) (by
    split
    · exact loadRun_sound h
    · exact sound_ite (arriveSlot_sound h) (h)
    · exact notice_sound h
    · exact endNow_sound h)

theorem invPage_sound {x1 va} (h : s.Sound t) : s.Sound (t.invPage x1 va) := fwInvalidate_sound h

theorem deadlock_sound {n cause ep} (h : s.Sound t) : s.Sound (t.deadlock n cause ep) := pend_sound h

theorem fenceDurable_sound (h : s.Sound t) : s.Sound t.fenceDurable :=
  sound_foldl (fun _ _ k2 => sound_ite (nowDurable_sound (modSlot_sound k2)) (k2)) _ (h)

theorem waitAt_sound {n ep seq x4} (h : s.Sound t) : s.Sound (t.waitAt n ep seq x4) :=
  sound_ite (arriveSlot_sound (modHedge_sound h)) (sound_ite (arriveSlot_sound (modHedge_sound h)) (sound_ite (arriveSlot_sound
        (modHedge_sound h)) (holdWait_sound h)))

theorem endOrphan_sound {m ch o st nvst pz} (h : s.Sound t) : s.Sound (t.endOrphan m ch o st nvst pz) := putStatus_sound (modChan_sound h)

theorem execPaused_sound {x k g done} (h : s.Sound t) : OnlyNext s.Sound (execPaused x k g done t) := by
  unfold execPaused
  exact sound_ite (h) (sound_ite (sound_ite (reachedAll_sound (modPleach_sound h)) (h)) (by
    split
    · exact sound_ite (collected_sound (modPleach_sound h)) (h)
    · exact h))

theorem hedgeTables_sound {x1} (h : s.Sound t) : s.Sound (t.hedgeTables x1) := sound_foldl (fun _ _ k2 => install_sound k2) _
    (newRoot_sound h)

theorem execTlbinvAll_sound {r mask} (h : s.Sound t) : OnlyNext s.Sound (execTlbinvAll r mask t) := invalidate_sound h

theorem execTlbinvPage_sound {r x1 mask} (h : s.Sound t) : OnlyNext s.Sound (execTlbinvPage r x1 mask t) := invalidate_sound h

theorem sglRun_sound {n p f list data st} (h : s.Sound t) : s.Sound (t.sglRun n p f list data st) := by
  unfold State.sglRun
  exact sound_ite (endTxn_sound h) (by
    split
    · exact endTxn_sound h
    · exact sound_ite (endTxn_sound h) (sound_foldl (fun _ _ k6 => emit_sound k6) _ (emit_sound (modSlot_sound h))))

theorem placeRetried_sound {r k} (h : s.Sound t) : s.Sound (t.placeRetried r k) := placeAt_sound (sound_upd (h) rfl rfl rfl rfl)

theorem registerSuper_sound {x1 p} (h : s.Sound t) : s.Sound (t.registerSuper x1 p) :=
  sound_foldl (fun _ _ k2 => placeCode_sound k2) _ (modHedge_sound h)

theorem imageLoss_sound {n} (h : s.Sound t) : s.Sound (t.imageLoss n) := sound_ite (mediaEnd_sound h) (h)

theorem assign_sound {x1 e role} (h : s.Sound t) : s.Sound (t.assign x1 e role) :=
  openWindows_sound (modEng_sound (loadCode_sound (modEng_sound (roleTouched_sound h))))

theorem markDone_sound {e c ok d} (h : s.Sound t) : s.Sound (t.markDone e c ok d) := by
  unfold State.markDone
  dsimp only
  split
  · split
    · exact modCtx_sound (sound_ite (entriesMarked_sound h) (h))
    · exact h
  · exact h

theorem execTlbinvFrame_sound {r mask} (h : s.Sound t) : OnlyNext s.Sound (execTlbinvFrame r mask t) := invalidate_sound h

theorem chainKick_sound {m ch} (h : s.Sound t) : s.Sound (t.chainKick m ch) := by
  unfold State.chainKick
  split
  · exact modMover_sound h
  · exact modMover_sound h
  · exact modMover_sound h
  · exact wakeFor_sound (modChan_sound h)

theorem execReleaseConfirm_sound {slot} (h : s.Sound t) : OnlyNext s.Sound (execReleaseConfirm slot t) := by
  unfold execReleaseConfirm
  exact sound_ite (by
    split
    · exact modSlot_sound h
    · exact completeSlot_sound (modSlot_sound h)
    · exact completeSlot_sound (modSlot_sound h)
    · exact unitDone_sound (modSlot_sound h)) (h)

theorem noBoot_sound {c} (h : s.Sound t) : s.Sound (t.noBoot c) := emit_sound (pfOnly_sound (sound_upd (h) rfl rfl rfl rfl))

theorem execLongStepTimeLimit_sound {slot} (h : s.Sound t) : OnlyNext s.Sound (execLongStepTimeLimit slot t) := by
  unfold execLongStepTimeLimit
  show s.Sound _
  split
  · exact h
  · exact h
  · split
    · exact sound_ite (stopCtx_sound (modSlot_sound h)) (modSlot_sound h)
    · exact sound_ite (sound_ite (endStep_sound h) (endStep_sound h)) (modSlot_sound h)

theorem answer_sound {f hsn status result detail} (h : s.Sound t) : s.Sound (t.answer f hsn status result detail) := formed_sound h

theorem execCoderamRewrite_sound {n} (h : s.Sound t) : OnlyNext s.Sound (execCoderamRewrite n t) := by
  unfold execCoderamRewrite
  show s.Sound _
  dsimp only
  exact sound_ite (h) (by
    split
    · exact h
    · split
      · exact modClu_sound (writeCode_sound h)
      · exact h)

theorem writeStatus_sound {m ch d st nvst halt} (h : s.Sound t) : s.Sound (t.writeStatus m ch d st nvst halt) := by
  unfold State.writeStatus
  exact modChan_sound (putStatus_sound h)

theorem inbound_sound {m} (h : s.Sound t) : s.Sound (t.inbound m) := sound_ite (modEng_sound h) (sound_ite (deliver_sound h)
    (bounce_sound h))

theorem takeRun_sound {f x2 b} (h : s.Sound t) : s.Sound (t.takeRun f x2 b) := by
  unfold State.takeRun
  split
  · exact answer_sound (consume_sound (drawStart_sound h))
  · split
    · exact answer_sound (consume_sound (drawStart_sound h))
    · split
      · exact answer_sound (consume_sound (drawStart_sound h))
      · exact accept_sound (admitSlot_sound (consume_sound (drawStart_sound h)))
      · exact h

theorem makeResident_sound {x1 base level f p pin} (h : s.Sound t) : s.Sound (t.makeResident x1 base level f p pin) :=
  sound_upd (setDurable_sound (install_sound (rekey_sound (fillPage_sound h)))) rfl rfl rfl rfl

theorem dropCmd_sound {f c} (h : s.Sound t) : s.Sound (t.dropCmd f c) := by
  unfold State.dropCmd
  split
  · exact endTxn_sound h
  · exact answer_sound h

theorem writeCont_sound {d rest} (h : s.Sound t) : s.Sound (t.writeCont d rest) :=
  mirrorOut_sound (oneMore_sound (sound_ite (packed_sound (modSlot_sound (sound_upd (h) rfl rfl rfl rfl))) (modSlot_sound (sound_upd
        (h) rfl rfl rfl rfl))))

theorem cleanPage_sound {x1 va} (h : s.Sound t) : s.Sound (t.cleanPage x1 va) := by
  unfold State.cleanPage
  split
  · exact invPage_sound (hbmPut_sound (setDurable_sound (writeBack_sound h)))
  · exact h

theorem invHedge_sound {x1} (h : s.Sound t) : s.Sound (t.invHedge x1) := fwInvalidate_sound h

theorem execPageAge_sound {x0 va} (h : s.Sound t) : OnlyNext s.Sound (execPageAge x0 va t) := by
  unfold execPageAge
  split
  · exact sound_ite (invPage_sound (hbmPut_sound (flushFor_sound h))) (h)
  · exact h

theorem drainVf_sound {f st} (h : s.Sound t) : s.Sound (t.drainVf f st) := by
  unfold State.drainVf
  dsimp only
  split
  · exact drained_sound (sound_foldl (fun _ _ k4 => abortSlot_sound k4) _ (sound_foldl (fun _ _ k4 => dropCmd_sound k4) _ (sound_foldl
        (fun _ _ k4 => idleSlot_sound k4) _ (setFn_sound h))))
  · exact drained_sound (sound_foldl (fun _ _ k4 => dropCmd_sound k4) _ (sound_foldl (fun _ _ k4 => idleSlot_sound k4) _ (setFn_sound h)))

theorem execRlockComplete_sound {e c} (h : s.Sound t) : OnlyNext s.Sound (execRlockComplete e c t) := by
  unfold execRlockComplete
  split
  · exact arriveAt_sound h
  · exact arriveAt_sound h
  · exact h

theorem execCompletionPost_sound {f} (h : s.Sound t) : OnlyNext s.Sound (execCompletionPost f t) := by
  unfold execCompletionPost
  exact sound_ite (by
    split
    · exact postCompl_sound h
    · exact h) (h)

theorem fixedLoss_sound {g own} (h : s.Sound t) : s.Sound (t.fixedLoss g own) := by
  unfold State.fixedLoss
  exact sound_ite (h) (sound_ite (mendGranule_sound (lockLoss_sound h)) (by
    split
    · exact mendGranule_sound (imageLoss_sound h)
    · exact h))

theorem handOver_sound {m ch} {l : List (Fin 4096 × Desc)} (h : s.Sound t) : s.Sound (State.handOver m ch l t) := by
  induction l generalizing t with
  | nil => exact h
  | cons q l ih =>
    have h1 : ∀ {c : Bool} {k}, s.Sound (if c = true then t.setMarm (t.chan m ch).hedge (t.chan m ch).ept.toNat k else t) :=
      sound_ite (setMarm_sound h) h
    exact sound_ite h (sound_ite h (ih (memWrite_sound (sound_ite (setMarm_sound h1) h1))))

theorem takeLong_sound {f x2 b} (h : s.Sound t) : s.Sound (t.takeLong f x2 b) := by
  unfold State.takeLong
  dsimp only
  split
  · exact answer_sound (consume_sound (drawStart_sound h))
  · split
    · exact answer_sound (consume_sound (drawStart_sound h))
    · exact accept_sound (admitSlot_sound (useToken_sound (consume_sound (by
        split
        · exact drawStart_sound h
        · exact drawStart_sound (drawStart_sound h)))))
    · exact h

theorem openMoved_sound {m} (h : s.Sound t) : s.Sound (t.openMoved m) := by
  unfold State.openMoved
  split
  · exact sound_ite (reopenHedge_sound (hedgeTables_sound (modPleach_sound h))) (modPleach_sound h)
  · exact modPleach_sound h

theorem writeHead_sound {d} (h : s.Sound t) : s.Sound (t.writeHead d) :=
  mirrorOut_sound (oneMore_sound (sound_ite (packed_sound (modSlot_sound (sound_upd (h) rfl rfl rfl rfl))) (modSlot_sound (sound_upd
        (h) rfl rfl rfl rfl))))

theorem faults_sound {x f} (h : s.Sound t) : s.Sound (t.faults x f) := vector_sound (setEng_sound h)

theorem takeAdmin_sound {f b} (h : s.Sound t) : s.Sound (t.takeAdmin f b) :=
  sound_ite (answer_sound (consume_sound h)) (sound_ite (answer_sound (consume_sound h)) (sound_ite (answer_sound (consume_sound h))
        (accept_sound (consume_sound h))))

theorem ready_sound {i} (h : s.Sound t) : s.Sound (t.ready i) :=
  sound_foldl (fun _ _ k2 => sound_ite (modFn_sound k2) (k2)) _ (sound_upd (sound_foldl (fun _ _ k2 => sound_ite (assign_sound k2)
        (k2)) _ (reopenHedges_sound h)) rfl rfl rfl rfl)

theorem message_sound {m} (h : s.Sound t) : s.Sound (t.message m) := sound_ite (setClu_sound h) (sound_ite (setClu_sound h)
    (inbound_sound h))

theorem execWaitevWake_sound {slot} (h : s.Sound t) : OnlyNext s.Sound (execWaitevWake slot t) := by
  unfold execWaitevWake
  split
  · exact sound_ite (deliver_sound (sound_upd (h) rfl rfl rfl rfl)) (message_sound (sound_upd (h) rfl rfl rfl rfl))
  · exact h

theorem prune_sound {x1 n} (h : s.Sound t) : s.Sound (t.prune x1 n) := by
  unfold State.prune
  exact modHedge_sound (by
    split
    · exact stopCtx_sound h
    · exact endTxn_sound h)

theorem postEvent_sound {f v} (h : s.Sound t) : s.Sound (t.postEvent f v) := sound_ite (h) (sound_ite (writeEvent_sound h) (setFn_sound h))

theorem setHState_sound {f st} (h : s.Sound t) : s.Sound (t.setHState f st) :=
  sound_ite (postEvent_sound (modFn_sound h)) (modFn_sound (postEvent_sound h))

theorem haltDesc_sound {m ch d} (h : s.Sound t) : s.Sound (t.haltDesc m ch d) := by
  unfold State.haltDesc
  dsimp only
  split
  · exact sound_ite (writeStatus_sound h) (writeStatus_sound h)
  · exact writeStatus_sound h
  · exact sound_ite (setChan_sound h) (writeStatus_sound h)

theorem startSlot_sound {i patchOk} (h : s.Sound t) : s.Sound (t.startSlot i patchOk) :=
  sound_ite (noBoot_sound h) (sound_ite (sound_upd (train_sound h) rfl rfl rfl rfl) (sound_upd (bringUp_sound (sound_upd (sound_foldl
        (fun _ _ k2 => startCluster_sound k2) _ (train_sound h)) rfl rfl rfl rfl)) rfl rfl rfl rfl))

theorem eventsLost_sound {f} (h : s.Sound t) : s.Sound (t.eventsLost f) := sound_ite (h) (writeEvent_sound (setFn_sound h))

theorem takeVf_sound {f x2 b} (h : s.Sound t) : s.Sound (t.takeVf f x2 b) :=
  sound_ite (h) (sound_ite (h) (sound_ite (answer_sound (consume_sound (drawStart_sound h))) (sound_ite (takeRun_sound h) (sound_ite
        (takeLong_sound h) (accept_sound (consume_sound (drawStart_sound h)))))))

theorem execSnapshotRequest_sound (h : s.Sound t) : OnlyNext s.Sound (execSnapshotRequest t) :=
  sound_ite (emit_sound h) (sound_ite (emit_sound h) (sound_ite (emit_sound h) (collected_sound (emit_sound (modPleach_sound
        (pauseFor_sound (emit_sound h)))))))

theorem suspectFirst_sound {f} (h : s.Sound t) : s.Sound (t.suspectFirst f) := by
  unfold State.suspectFirst
  split
  · exact writeEvent_sound (modFn_sound h)
  · exact h

theorem awake_sound {k} (h : s.Sound t) : s.Sound (t.awake k) :=
  sound_foldl (fun _ _ k2 => inbound_sound k2) _ (repoint_sound (modClu_sound (leave_sound h)))

theorem finish_sound {m ch d st nvst} (h : s.Sound t) : s.Sound (t.finish m ch d st nvst) :=
  sound_ite (chainKick_sound (sound_ite (modMover_sound (modChan_sound (writeStatus_sound h))) (modChan_sound (writeStatus_sound h))))
        (sound_ite (modMover_sound (modChan_sound (writeStatus_sound h))) (modChan_sound (writeStatus_sound h)))

theorem take_sound {f b} (h : s.Sound t) : s.Sound (t.take f b) := by
  unfold State.take
  split
  · exact takeVf_sound h
  · exact takeAdmin_sound h

theorem lockRequest_sound {e c n x4 ref excl u} (h : s.Sound t) : s.Sound (t.lockRequest e c n x4 ref excl u) :=
  sound_ite (modCtx_sound h) (sound_ite (modCtx_sound h) (sound_ite (stopCtx_sound h) (sound_ite (granted_sound (setLock_sound h))
        (modCtx_sound (sound_upd (setLock_sound h) rfl rfl rfl rfl)))))

theorem startEvict_sound {x1 base at_ level p} (h : s.Sound t) : s.Sound (t.startEvict x1 base at_ level p) :=
  sound_upd (invPage_sound (hbmPut_sound h)) rfl rfl rfl rfl

theorem regrant_sound {k r} (h : s.Sound t) : s.Sound (t.regrant k r) := by
  unfold State.regrant
  exact sound_foldl (fun _ _ k2 => by
    split
    · exact granted_sound k2
    · exact k2) _ (setLock_sound h)

theorem cqBell_sound {f v} (h : s.Sound t) : s.Sound (t.cqBell f v) :=
  sound_ite (dropWrite_sound h) (sound_ite (postEvent_sound h) (setFn_sound h))

theorem eqBell_sound {f v} (h : s.Sound t) : s.Sound (t.eqBell f v) :=
  sound_ite (dropWrite_sound h) (sound_ite (postEvent_sound h) (eventsLost_sound (setFn_sound h)))

theorem movePage_sound {x1 base at_ level p dest} (h : s.Sound t) : s.Sound (t.movePage x1 base at_ level p dest) :=
  sound_upd (freeFrames_sound (invPage_sound (hbmPut_sound (rekey_sound (hbmMove_sound h))))) rfl rfl rfl rfl

theorem dispatchTo_sound {n e c} (h : s.Sound t) : s.Sound (t.dispatchTo n e c) := message_sound (modSlot_sound h)

theorem execFirmwareDispatch_sound {slot e c} (h : s.Sound t) : OnlyNext s.Sound (execFirmwareDispatch slot e c t) := by
  unfold execFirmwareDispatch
  show s.Sound _
  split
  · exact sound_ite (slowPath_sound h (fun _ q4 => dispatchTo_sound (noteTarget_sound q4))) (h)
  · exact h

theorem raiseDeadlock_sound {x1 w cause} (h : s.Sound t) : s.Sound (t.raiseDeadlock x1 w cause) := modHedge_sound (deadlock_sound h)

theorem disable_sound {f} (h : s.Sound t) : s.Sound (t.disable f) := sound_ite (downPf_sound h) (sound_ite (drainVf_sound h) (h))

theorem tellPair_sound {f} (h : s.Sound t) : s.Sound (t.tellPair f) := by
  unfold State.tellPair
  split
  · exact sound_ite (postEvent_sound (modHedge_sound h)) (h)
  · exact h

theorem enable_sound {f} (h : s.Sound t) : s.Sound (t.enable f) :=
  sound_ite (h) (sound_ite (sound_ite (setFn_sound h) (tellPair_sound (eventsLost_sound (suspectFirst_sound (startHistory_sound
        (setFn_sound h)))))) (setFn_sound h))

theorem execRingEnable_sound {f} (h : s.Sound t) : OnlyNext s.Sound (execRingEnable f t) := enable_sound h

theorem unmapPage_sound {x1 level va} (h : s.Sound t) : s.Sound (t.unmapPage x1 level va) := by
  unfold State.unmapPage
  exact releasePage_sound (emit_sound (modHedge_sound (sound_upd (by
    split
    · exact sound_ite (freeFrames_sound (invPage_sound (hbmPut_sound h))) (by
        split
        · exact freeFrames_sound (sound_upd (invPage_sound (hbmPut_sound h)) rfl rfl rfl rfl)
        · exact invPage_sound (hbmPut_sound h))
    · exact h) rfl rfl rfl rfl)))

theorem execNoticeDelivery_sound {slot level kind word} (h : s.Sound t) : OnlyNext s.Sound (execNoticeDelivery slot level kind word t) := by
  unfold execNoticeDelivery
  split
  · exact message_sound h
  · exact notice_sound h

theorem dispose_sound {m target} (h : s.Sound t) : s.Sound (t.dispose m target) := by
  unfold State.dispose
  split
  · exact sound_ite (h) (sound_ite (endTxn_sound (flushFor_sound h)) (sound_ite (by
      split
      · exact message_sound (modSlot_sound (flushFor_sound h))
      · exact sound_upd (flushFor_sound h) rfl rfl rfl rfl) (sound_upd (flushFor_sound h) rfl rfl rfl rfl)))
  · exact sound_ite (modHedge_sound h) (by
      split
      · exact message_sound h
      · exact sound_ite (arriveSlot_sound h) (h))
  · exact sound_ite (h) (by
      split
      · exact message_sound h
      · exact notice_sound h)
  · exact sound_ite (h) (by
      split
      · exact message_sound h
      · exact endNow_sound h)

theorem sqBell_sound {f v} (h : s.Sound t) : s.Sound (t.sqBell f v) := by
  unfold State.sqBell
  exact sound_ite (dropWrite_sound h) (sound_ite (postEvent_sound h) (by
    split
    · exact chooseTargets_sound (setFn_sound h)
    · exact setFn_sound h))

theorem leaveReaders_sound {c} (h : s.Sound t) : s.Sound (t.leaveReaders c) := by
  unfold State.leaveReaders
  split
  · exact regrant_sound h
  · exact h

theorem hedgeEvent_sound {x1 v} (h : s.Sound t) : s.Sound (t.hedgeEvent x1 v) := by
  unfold State.hedgeEvent
  split
  · exact postEvent_sound h
  · exact h

theorem execRingDisable_sound {f} (h : s.Sound t) : OnlyNext s.Sound (execRingDisable f t) := disable_sound h

theorem execEndNotice_sound {slot} (h : s.Sound t) : OnlyNext s.Sound (execEndNotice slot t) := by
  unfold execEndNotice
  split
  · exact sound_ite (message_sound (sound_upd (h) rfl rfl rfl rfl)) (endNow_sound (sound_upd (h) rfl rfl rfl rfl))
  · exact h

theorem settlePrepared_sound {ms m} (h : s.Sound t) : s.Sound (t.settlePrepared ms m) := by
  unfold State.settlePrepared
  split
  · exact sound_ite (openMoved_sound h) (discardPrepared_sound h)
  · exact emit_sound h

theorem stateEvents_sound (h : s.Sound t) : s.Sound t.stateEvents := by
  unfold State.stateEvents
  exact sound_foldl (fun _ _ k2 => by
    split
    · exact postEvent_sound k2
    · exact k2) _ (h)

theorem execRun_sound {f list data st} (h : s.Sound t) : OnlyNext s.Sound (execRun f list data st t) := by
  unfold execRun
  exact withCmd_sound h (fun _ _ => by
    split
    · exact dropCur_sound h
    · exact sound_ite (sglRun_sound (dropCur_sound h)) (by
        split
        · exact dispatchTo_sound (dropCur_sound h)
        · exact dropCur_sound h))

theorem execClusterWakeComplete_sound {n} (h : s.Sound t) : OnlyNext s.Sound (execClusterWakeComplete n t) := sound_ite (awake_sound h) (h)

theorem releaseUnit_sound {n u} (h : s.Sound t) : s.Sound (t.releaseUnit n u) :=
  sound_foldl (fun _ _ k2 => sound_ite (regrant_sound k2) (k2)) _ (h)

theorem execEventUnitWait_sound {slot} (h : s.Sound t) : OnlyNext s.Sound (execEventUnitWait slot t) := by
  unfold execEventUnitWait
  show s.Sound _
  split
  · split
    · exact waitAt_sound (takeMsg_sound h)
    · exact takeMsg_sound h
  · exact h

theorem mapPage_sound {g level va perm pkey prkey pin u} (h : s.Sound t) (e : t.mapPage g level va perm pkey prkey pin = some u) :
    s.Sound u := by
  unfold State.mapPage at e
  split at e
  · cases e
  · next port b s1 he =>
    have h1 := takeBlocks_sound h he
    split at e
    · cases e
    · split at e
      · obtain ⟨fr, -, rfl⟩ := Option.map_eq_some_iff.1 e
        exact makeResident_sound h1
      · cases e
        exact setDurable_sound (install_sound h1)

theorem reopenPort_sound {e} (h : s.Sound t) : s.Sound (t.reopenPort e) := sound_foldl (fun _ _ k2 => inbound_sound k2) _ (modEng_sound h)

theorem startDrain_sound {f} (h : s.Sound t) : s.Sound (t.startDrain f) := by
  unfold State.startDrain
  exact modPleach_sound (modFn_sound (sound_ite (modFn_sound (setHState_sound h)) (h)))

theorem execLockRequest_sound {e c} (h : s.Sound t) : OnlyNext s.Sound (execLockRequest e c t) := by
  unfold execLockRequest
  show s.Sound _
  split
  · exact sound_ite (h) (sound_ite (arriveAt_sound (sound_upd (h) rfl rfl rfl rfl)) (by
      split
      · split
        · exact lockRequest_sound (sound_upd (h) rfl rfl rfl rfl)
        · exact modCtx_sound (sound_upd (h) rfl rfl rfl rfl)
      · exact sound_upd (h) rfl rfl rfl rfl))
  · exact h

theorem notify_sound {x1 level word} (h : s.Sound t) : s.Sound (t.notify x1 level word) := by
  unfold State.notify
  exact sound_foldl (fun _ _ k2 => by
    split
    · exact message_sound k2
    · exact k2) _ (h)

theorem quotaNotice_sound {x1 before} (h : s.Sound t) : s.Sound (t.quotaNotice x1 before) := sound_ite (notify_sound h) (h)

theorem execMigrationDrain_sound (h : s.Sound t) : OnlyNext s.Sound (execMigrationDrain t) := by
  unfold execMigrationDrain
  exact sound_ite (h) (by
    split
    · exact h
    · exact sound_ite (modPleach_sound (emit_sound (forward_sound (sound_ite (startDrain_sound h) (h))))) (sound_ite
          (startDrain_sound h) (h)))

theorem haltChan_sound {m ch} (h : s.Sound t) : s.Sound (t.haltChan m ch) := by
  unfold State.haltChan
  exact modChan_sound (by
    split
    · exact haltDesc_sound h
    · exact haltStage_sound h)

theorem everyHedge_sound {v} (h : s.Sound t) : s.Sound (t.everyHedge v) := sound_foldl (fun _ _ k2 => hedgeEvent_sound k2) _ (h)

theorem rescuePage_sound {u fr} (h : s.Sound t) : s.Sound (t.rescuePage u fr) := by
  unfold State.rescuePage
  split
  · exact h
  · exact sound_ite (h) (by
      split
      · exact sound_foldl (fun _ _ k8 => sound_upd (k8) rfl rfl rfl rfl) _ (h)
      · exact sound_ite (hedgeEvent_sound (movePage_sound (sound_foldl (fun _ _ k8 => hbmWrite_sound k8) _ (sound_foldl
            (fun _ _ k8 => sound_upd (k8) rfl rfl rfl rfl) _ (h))))) (makeResident_sound (invPage_sound (freeFrames_sound (sound_foldl
            (fun _ _ k8 => sound_upd (k8) rfl rfl rfl rfl) _ (h))))))

theorem stepDone_sound {f x2 c n cmd gk gcs status result next} (h : s.Sound t) : s.Sound
    (t.stepDone f x2 c n cmd gk gcs status result next) := by
  unfold State.stepDone
  exact leaveReaders_sound (formed_sound (modSlot_sound (dropCur_sound (by
    split
    · exact newToken_sound h
    · exact h))))

theorem watermarks_sound (h : s.Sound t) : s.Sound t.watermarks :=
  sound_ite (settleFull_sound (sound_upd (h) rfl rfl rfl rfl)) (sound_foldl (fun _ _ k2 => notify_sound k2) _ (everyHedge_sound
        (settleFull_sound (sound_upd (h) rfl rfl rfl rfl))))

theorem mapPages_sound {g level perm pkey prkey pin} {n va : Nat} {u} (h : s.Sound t)
    (e : State.mapPages g level perm pkey prkey pin n va t = some u) : s.Sound u := by
  induction n generalizing t va with
  | zero => cases e; exact h
  | succ n ih =>
    unfold State.mapPages at e
    split at e
    · exact ih (mapPage_sound h ‹_›) e
    · cases e

theorem sqFaults_sound {p} (h : s.Sound t) : s.Sound (t.sqFaults p) := by
  unfold State.sqFaults
  exact sound_foldl (fun _ _ k2 => by
    split
    · exact sound_ite (postEvent_sound (modFn_sound k2)) (k2)
    · exact k2) _ (h)

theorem execD3hotEntry_sound {f} (h : s.Sound t) : OnlyNext s.Sound (execD3hotEntry f t) := modFn_sound (disable_sound h)

theorem pairLost_sound (h : s.Sound t) : s.Sound t.pairLost :=
  sound_ite (sound_upd (h) rfl rfl rfl rfl) (sound_ite (h) (sound_foldl (fun _ _ k2 => notify_sound k2) _ (everyHedge_sound (sound_upd
        (sound_foldl (fun _ _ k2 => acked_sound k2) _ (h)) rfl rfl rfl rfl))))

theorem execEngineMessageArrival_sound {m} (h : s.Sound t) : OnlyNext s.Sound (execEngineMessageArrival m t) := message_sound h

theorem poisonGranule_sound {g} (h : s.Sound t) : s.Sound (t.poisonGranule g) := by
  unfold State.poisonGranule
  split
  · exact report_sound (modMemcnt_sound (sound_upd (h) rfl rfl rfl rfl))
  · exact hedgeEvent_sound (sound_upd (report_sound (modMemcnt_sound (sound_upd (h) rfl rfl rfl rfl))) rfl rfl rfl rfl)

theorem execKick_sound {m k} (h : s.Sound t) : OnlyNext s.Sound (execKick m k t) :=
  sound_ite (h) (wakeFor_sound (modChan_sound (handOver_sound h)))

theorem pairWrite_sound {v} (h : s.Sound t) : s.Sound (t.pairWrite v) :=
  sound_ite (h) (sound_ite (everyHedge_sound (sound_ite (sound_upd (h) rfl rfl rfl rfl) (sound_foldl (fun _ _ k2 => acked_sound k2) _
        (sound_upd (h) rfl rfl rfl rfl)))) (sound_ite (sound_upd (h) rfl rfl rfl rfl) (sound_foldl (fun _ _ k2 => acked_sound k2) _
        (sound_upd (h) rfl rfl rfl rfl))))

theorem checkPair_sound {ms} (h : s.Sound t) : s.Sound (t.checkPair ms) :=
  sound_ite (h) (sound_ite (sound_upd (h) rfl rfl rfl rfl) (pairLost_sound h))

theorem resetFn_sound {f} (h : s.Sound t) : s.Sound (t.resetFn f) :=
  sound_ite (disable_sound (modFn_sound h)) (sound_ite (modFn_sound h) (modFn_sound (disable_sound h)))

theorem execCqDoorbell_sound {f v} (h : s.Sound t) : OnlyNext s.Sound (execCqDoorbell f v t) := cqBell_sound h

theorem execSqDoorbell_sound {f v} (h : s.Sound t) : OnlyNext s.Sound (execSqDoorbell f v t) := sqBell_sound h

theorem resend_sound {n} (h : s.Sound t) : s.Sound (t.resend n) := by
  unfold State.resend
  split
  · exact message_sound (sound_upd (h) rfl rfl rfl rfl)
  · exact h

theorem execEventUnitDeadlock_sound {x0} (h : s.Sound t) : OnlyNext s.Sound (execEventUnitDeadlock x0 t) := by
  unfold execEventUnitDeadlock
  exact sound_ite (watchDead_sound h) (by
    split
    · exact setHedge_sound h
    · exact sound_ite (h) (by
        split
        · exact modHedge_sound (raiseDeadlock_sound h)
        · exact h))

theorem toFloor_sound {k} (h : s.Sound t) : s.Sound (t.toFloor k) := by
  unfold State.toFloor
  exact sound_ite (by
    split
    · exact awake_sound h
    · exact repoint_sound (modClu_sound (leave_sound h))
    · exact modClu_sound (leave_sound h)
    · exact modClu_sound (leave_sound h)) (h)

theorem execChannelFail_sound {u} (h : s.Sound t) : OnlyNext s.Sound (execChannelFail u t) := by
  unfold execChannelFail
  exact sound_ite (h) (sound_foldl (fun _ _ k2 => rescuePage_sound k2) _ (sound_foldl (fun _ _ k2 => imageLoss_sound k2) _ (by
    split
    · exact moveLocks_sound (lockLoss_sound (report_sound (sound_upd (h) rfl rfl rfl rfl)))
    · exact lockLoss_sound (report_sound (sound_upd (h) rfl rfl rfl rfl)))))

theorem execLockRelease_sound {slot u} (h : s.Sound t) : OnlyNext s.Sound (execLockRelease slot u t) :=
  sound_ite (modSlot_sound (releaseUnit_sound h)) (h)

theorem holdFloors_sound (h : s.Sound t) : s.Sound t.holdFloors := sound_foldl (fun _ _ k2 => toFloor_sound (modClu_sound k2)) _ (h)

theorem execCheckpoint_sound {f} (h : s.Sound t) : OnlyNext s.Sound (execCheckpoint f t) :=
  withStep_sound h (fun _ q2 _ _ _ _ _ => sound_ite (sound_ite (flush_sound q2) (q2)) (sound_ite (stepDone_sound (sound_foldl
        (fun _ _ k2 => cleanPage_sound k2) _ (sound_ite (flush_sound q2) (q2)))) (stepDone_sound (sound_foldl
        (fun _ _ k2 => cleanPage_sound k2) _ (sound_ite (flush_sound q2) (q2))))))

theorem reloadHedge_sound {x1} (h : s.Sound t) : s.Sound (t.reloadHedge x1) :=
  holdFloors_sound (sound_foldl (fun _ _ k2 => openWindows_sound k2) _ (reload_sound (sound_foldl (fun _ _ k2 => loadCode_sound k2) _
        (sound_foldl (fun _ _ k2 => unassign_sound k2) _ (h)))))

theorem execPairTimeout_sound (h : s.Sound t) : OnlyNext s.Sound (execPairTimeout t) := by
  unfold execPairTimeout
  show s.Sound _
  split
  · exact sound_ite (h) (pairLost_sound h)
  · exact h

theorem pruneHedge_sound {x1} (h : s.Sound t) : s.Sound (t.pruneHedge x1) := by
  unfold State.pruneHedge
  split
  · exact modHedge_sound h
  · exact sound_ite (modHedge_sound h) (by
      split
      · exact prune_sound (modHedge_sound h)
      · exact raiseDeadlock_sound (modHedge_sound h))

theorem execFrameRetire_sound {fr} (h : s.Sound t) : OnlyNext s.Sound (execFrameRetire fr t) := by
  unfold execFrameRetire
  show s.Sound _
  dsimp only
  exact sound_ite (h) (by
    split
    · exact sound_upd (h) rfl rfl rfl rfl
    · split
      · exact h
      · exact movePage_sound (sound_upd (h) rfl rfl rfl rfl))

theorem haltMover_sound {m cause kind ch addr} (h : s.Sound t) : s.Sound (t.haltMover m cause kind ch addr) :=
  sound_ite (h) (sound_foldl (fun _ _ k2 => failDrain_sound k2) _ (report_sound (sound_foldl (fun _ _ k2 => haltChan_sound k2) _
        (modMover_sound h))))

theorem readFault_sound {f} (h : s.Sound t) : s.Sound (t.readFault f) := haltMover_sound (emit_sound (modFn_sound h))

theorem execSubmitReread_sound {f bytes poison fault} (h : s.Sound t) : OnlyNext s.Sound (execSubmitReread f bytes poison fault t) := by
  unfold execSubmitReread
  show s.Sound _
  split
  · exact sound_ite (h) (sound_ite (readFault_sound h) (sound_ite (take_sound (emit_sound (entryPoison_sound h))) (sound_ite
        (modFn_sound (emit_sound (entryPoison_sound h))) (answer_sound (consume_sound (emit_sound (entryPoison_sound h)))))))
  · exact h

theorem execPwrCctlWrite_sound {r n v} (h : s.Sound t) : OnlyNext s.Sound (execPwrCctlWrite r n v t) :=
  sound_ite (h) (repoint_sound (toFloor_sound (sound_ite (offCluster_sound (modClu_sound h)) (modClu_sound h))))

theorem execEqDoorbell_sound {f v} (h : s.Sound t) : OnlyNext s.Sound (execEqDoorbell f v t) := eqBell_sound h

theorem takeEntries_sound {f} {n : Nat} {bs : List Byte} (h : s.Sound t) : s.Sound (State.takeEntries f n bs t) := by
  induction n generalizing t bs with
  | zero => exact h
  | succ n ih =>
    exact sound_ite h (sound_ite (sound_ite (take_sound h) (ih (take_sound h))) (modFn_sound h))

theorem execCommandRead_sound {f bytes poison fault} (h : s.Sound t) : OnlyNext s.Sound (execCommandRead f bytes poison fault t) :=
  sound_ite (h) (sound_ite (readFault_sound (turned_sound h)) (sound_ite (sound_ite (take_sound (emit_sound (entryPoison_sound
        (turned_sound h)))) (takeEntries_sound (take_sound (emit_sound (entryPoison_sound (turned_sound h)))))) (modFn_sound (emit_sound
        (entryPoison_sound (turned_sound h))))))

theorem execBulk_sound {f blocks} (h : s.Sound t) : OnlyNext s.Sound (execBulk f blocks t) :=
  withStep_sound h (fun _ q2 _ _ _ _ _ => sound_ite (stepDone_sound q2) (sound_ite (q2) (startUnit_sound (modSlot_sound (emit_sound
        (dropCur_sound q2))))))

theorem ctlWrite_sound {f v} (h : s.Sound t) : s.Sound (t.ctlWrite f v) :=
  sound_ite (enable_sound (sound_ite (sqRestart_sound (sound_ite (h) (modFn_sound h))) (sound_ite (h) (modFn_sound h)))) (sound_ite
        (disable_sound (sound_ite (sqRestart_sound (sound_ite (h) (modFn_sound h))) (sound_ite (h) (modFn_sound h)))) (sound_ite
        (sqRestart_sound (sound_ite (h) (modFn_sound h))) (sound_ite (h) (modFn_sound h))))

theorem releaseEngines_sound {x1} (h : s.Sound t) : s.Sound (t.releaseEngines x1) :=
  holdFloors_sound (sound_foldl (fun _ _ k2 => startClear_sound (unassign_sound k2)) _ (h))

theorem meetGranule_sound {g} (h : s.Sound t) : s.Sound (t.meetGranule g) := by
  unfold State.meetGranule
  split
  · exact h
  · exact report_sound (modMemcnt_sound (sound_upd (h) rfl rfl rfl rfl))
  · exact poisonGranule_sound h

theorem execBounceDisposal_sound {target} (h : s.Sound t) : OnlyNext s.Sound (execBounceDisposal target t) := by
  unfold execBounceDisposal
  show s.Sound _
  dsimp only
  split
  · exact h
  · split
    · exact reopenPort_sound (dispose_sound (sound_upd (h) rfl rfl rfl rfl))
    · exact dispose_sound (sound_upd (h) rfl rfl rfl rfl)

theorem stageIn_sound {x1 va bad} (h : s.Sound t) : s.Sound (t.stageIn x1 va bad) := by
  unfold State.stageIn
  dsimp only
  split
  · exact sound_ite (h) (by
      split
      · exact hbmPut_sound (splitTo_sound (flushFor_sound h))
      · exact sound_ite (hedgeEvent_sound (releasePage_sound (hbmPut_sound (splitTo_sound (flushFor_sound h))))) (releasePage_sound
            (makeResident_sound (splitTo_sound (flushFor_sound h)))))
  · exact h

theorem execHaltclr_sound {m} (h : s.Sound t) : OnlyNext s.Sound (execHaltclr m t) :=
  sound_ite (sound_ite (sound_foldl (fun _ _ k2 => modChan_sound k2) _ (setMover_sound h)) (sound_ite (sqFaults_sound
        (setMover_sound h)) (setMover_sound h))) (h)

theorem destroyed_sound {x1} (h : s.Sound t) : s.Sound (t.destroyed x1) := by
  unfold State.destroyed
  dsimp only
  split
  · exact modFn_sound (setHedge_sound (invHedge_sound (sound_upd (freeTables_sound (deallocate_sound (sound_upd (clearDir_sound
        (zeroFrames_sound (releaseEngines_sound h))) rfl rfl rfl rfl))) rfl rfl rfl rfl)))
  · exact setHedge_sound (invHedge_sound (sound_upd (freeTables_sound (deallocate_sound (sound_upd (clearDir_sound (zeroFrames_sound
        (releaseEngines_sound h))) rfl rfl rfl rfl))) rfl rfl rfl rfl))

theorem execLehrEntryWrite_sound {bad} (h : s.Sound t) : OnlyNext s.Sound (execLehrEntryWrite bad t) := by
  unfold execLehrEntryWrite
  exact sound_ite (h) (sound_ite (report_sound (sound_upd (h) rfl rfl rfl rfl)) (by
    split
    · exact watermarks_sound (writeCont_sound h)
    · exact watermarks_sound (sound_ite (writePacked_sound h) (writeHead_sound h))
    · exact h))

theorem execMigrationMoved_sound (h : s.Sound t) : OnlyNext s.Sound (execMigrationMoved t) := by
  unfold execMigrationMoved
  exact sound_ite (h) (sound_ite (by
    split
    · exact modPleach_sound (openMoved_sound h)
    · exact modPleach_sound h) (by
    split
    · exact keepDef_sound (destroyed_sound (modFn_sound (drainVf_sound (setHState_sound (emit_sound (modPleach_sound h))))))
    · exact emit_sound (modPleach_sound h)))

theorem execPatrolScrub_sound {st g found own} (h : s.Sound t) : OnlyNext s.Sound (execPatrolScrub st g found own t) :=
  sound_ite (h) (sound_ite (modMemcnt_sound (sound_ite (h) (sound_ite (fixedLoss_sound (meetGranule_sound (sound_upd
        (h) rfl rfl rfl rfl))) (meetGranule_sound (sound_upd (h) rfl rfl rfl rfl))))) (sound_ite (h) (sound_ite (fixedLoss_sound
        (meetGranule_sound (sound_upd (h) rfl rfl rfl rfl))) (meetGranule_sound (sound_upd (h) rfl rfl rfl rfl)))))

theorem tellGuarantee_sound {x1} (h : s.Sound t) : s.Sound (t.tellGuarantee x1) := notify_sound (hedgeEvent_sound h)

theorem writeMirror_sound {k m} (h : s.Sound t) : s.Sound (t.writeMirror k m) := watermarks_sound (sound_upd (h) rfl rfl rfl rfl)

theorem barWrite_sound {f off v} (h : s.Sound t) : s.Sound (t.barWrite f off v) := by
  unfold State.barWrite
  split
  · exact sqBell_sound h
  · exact cqBell_sound h
  · exact eqBell_sound h
  · exact ctlWrite_sound h
  · exact h
  · exact h
  · exact sound_ite (h) (dropWrite_sound h)
  · exact sound_ite (h) (dropWrite_sound h)
  · exact sound_ite (modFn_sound h) (dropWrite_sound h)

theorem refuseSet_sound (h : s.Sound t) : s.Sound t.refuseSet := checkPair_sound (pleachError_sound (modPleach_sound h))

theorem execEventTake_sound {e c} (h : s.Sound t) : OnlyNext s.Sound (execEventTake e c t) := by
  unfold execEventTake
  show s.Sound _
  split
  · exact sound_ite (modHedge_sound (resend_sound (vector_sound (setEng_sound h)))) (h)
  · exact h

theorem meetRead_sound {a n} (h : s.Sound t) : s.Sound (t.meetRead a n) := sound_foldl (fun _ _ k2 => meetGranule_sound k2) _ (h)

theorem loadOn_sound {f c g k todo d} (h : s.Sound t) (hd : ∀ u, s.Sound u → s.Sound (d u)) :
    s.Sound (t.loadOn f c g k todo d) := by
  have h1 := holdFloors_sound (loadEach_sound (l := todo.1) (g := g) (f := k) (out := todo.2) h)
  unfold State.loadOn
  dsimp only
  split
  · exact hd _ h1
  · exact modFn_sound h1

theorem execFunctionLevelReset_sound {f} (h : s.Sound t) : OnlyNext s.Sound (execFunctionLevelReset f t) := resetFn_sound h

theorem execCheckpointAdvance_sound {g} (h : s.Sound t) : OnlyNext s.Sound (execCheckpointAdvance g t) :=
  sound_ite (sound_ite (emit_sound (modPleach_sound (issueDrain_sound (sound_foldl (fun _ _ k2 => everyHedge_sound k2) _
        (writeSupers_sound (sound_upd (sound_foldl (fun _ _ k2 => cleanPage_sound k2) _ (forward_sound h)) rfl rfl rfl rfl))))))
        (issueDrain_sound (sound_foldl (fun _ _ k2 => everyHedge_sound k2) _ (writeSupers_sound (sound_upd (sound_foldl
        (fun _ _ k2 => cleanPage_sound k2) _ (forward_sound h)) rfl rfl rfl rfl))))) (h)

theorem execCapacityEval_sound (h : s.Sound t) : OnlyNext s.Sound (execCapacityEval t) :=
  sound_foldl (fun _ _ k2 => sound_ite (k2) (tellGuarantee_sound k2)) _ (sound_foldl (fun _ _ k2 => evalHedge_sound k2) _ (h))

theorem draw_sound {n} (h : s.Sound t) : s.Sound (t.draw n) :=
  quotaNotice_sound (watermarks_sound (sound_upd (modHedge_sound (modSlot_sound h)) rfl rfl rfl rfl))

theorem meetRecord_sound {x1 va n} (h : s.Sound t) : s.Sound (t.meetRecord x1 va n) := by
  unfold State.meetRecord
  exact sound_foldl (fun _ _ k2 => by
    split
    · exact meetRead_sound k2
    · exact k2) _ (h)

theorem execErrHalt_sound {m cause kind ch addr} (h : s.Sound t) : OnlyNext s.Sound (execErrHalt m cause kind ch addr t) :=
    haltMover_sound h

theorem resetPort_sound {p} (h : s.Sound t) : s.Sound (t.resetPort p) := by
  unfold State.resetPort
  exact setPort_sound (sound_foldl (fun _ _ k2 => resetFn_sound k2) _ (sound_foldl (fun _ _ k2 => markSuspect_sound k2) _ (by
    split
    · exact setPort_sound h
    · exact h)))

theorem execEngineLending_sound {x0 e role} (h : s.Sound t) : OnlyNext s.Sound (execEngineLending x0 e role t) :=
  sound_ite (holdFloors_sound (assign_sound h)) (sound_ite (holdFloors_sound (unassign_sound h)) (sound_ite (startClear_sound h) (h)))

theorem replayDelta_sound {d} (h : s.Sound t) : s.Sound (t.replayDelta d) := by
  unfold State.replayDelta
  dsimp only
  exact sound_foldl (fun _ _ k2 => by
    split
    · exact sound_ite (hbmWrite_sound (hbmPut_sound (stageIn_sound k2))) (stageIn_sound k2)
    · exact stageIn_sound k2) _ (h)

theorem execPruningPass_sound (h : s.Sound t) : OnlyNext s.Sound (execPruningPass t) := sound_foldl
    (fun _ _ k2 => pruneHedge_sound k2) _ (h)

theorem execEffectiveMinEval_sound (h : s.Sound t) : OnlyNext s.Sound (execEffectiveMinEval t) :=
  sound_foldl (fun _ _ k2 => sound_ite (k2) (tellGuarantee_sound k2)) _ (holdFloors_sound (sound_foldl
        (fun _ _ k2 => modHedge_sound k2) _ (h)))

theorem execHostPortReset_sound {p} (h : s.Sound t) : OnlyNext s.Sound (execHostPortReset p t) := resetPort_sound h

theorem takeMirrors_sound {n : Nat} (h : s.Sound t) : s.Sound (State.takeMirrors n t) := by
  induction n generalizing t with
  | zero => exact h
  | succ n ih =>
    unfold State.takeMirrors
    split
    · exact sound_ite h (ih (writeMirror_sound (sound_upd h rfl rfl rfl rfl)))
    · exact h

theorem setParams_sound {x1 g p} (h : s.Sound t) : s.Sound (t.setParams x1 g p) :=
  holdFloors_sound (sound_ite (setMin_sound (setHedge_sound (clearDir_sound h))) (tellGuarantee_sound (setMin_sound (setHedge_sound
        (clearDir_sound h)))))

theorem execReplay_sound (h : s.Sound t) : OnlyNext s.Sound (execReplay t) := by
  unfold execReplay
  show s.Sound _
  dsimp only
  exact sound_ite (by
    split
    · exact askPartner_sound h
    · split
      · exact report_sound (faulted_sound h)
      · exact sound_upd (sound_foldl (fun _ _ k8 => replayDelta_sound k8) _ (rebuildTables_sound h)) rfl rfl rfl rfl) (h)

theorem finishEvict_sound {v} (h : s.Sound t) : s.Sound (t.finishEvict v) := by
  unfold State.finishEvict
  split
  · exact sound_ite (h) (setDurable_sound (hbmPut_sound (freeFrames_sound (sound_upd (sound_ite (writeBack_sound (meetRead_sound h))
        (h)) rfl rfl rfl rfl))))
  · exact sound_upd (h) rfl rfl rfl rfl

theorem accessed_sound {x1 va n} (h : s.Sound t) : s.Sound (t.accessed x1 va n) := by
  unfold State.accessed
  exact sound_foldl (fun _ _ k2 => by
    split
    · exact sound_ite (hbmPut_sound k2) (k2)
    · exact k2) _ (meetRecord_sound h)

theorem mirrorsIn_sound (h : s.Sound t) : s.Sound t.mirrorsIn := takeMirrors_sound h

theorem execPageEvict_sound {x0 va} (h : s.Sound t) : OnlyNext s.Sound (execPageEvict x0 va t) := by
  unfold execPageEvict
  show s.Sound _
  dsimp only
  split
  · split
    · exact finishEvict_sound h
    · exact sound_ite (by
        split
        · exact finishEvict_sound (startEvict_sound (flushFor_sound h))
        · exact startEvict_sound (flushFor_sound h)) (h)
  · exact h

theorem execCommitAdmission_sound {slot} (h : s.Sound t) : OnlyNext s.Sound (execCommitAdmission slot t) := by
  unfold execCommitAdmission
  exact sound_ite (h) (sound_ite (endTxn_sound h) (sound_ite (endTxn_sound h) (sound_ite (sound_ite (h) (readOnly_sound h)) (sound_ite
        (waitAdmission_sound h) (by
    split
    · exact draw_sound h
    · exact waitAdmission_sound h
    · exact waitAdmission_sound h)))))

theorem execRingReopen_sound {fails} (h : s.Sound t) : OnlyNext s.Sound (execRingReopen fails t) :=
  sound_ite (sound_ite (report_sound (faulted_sound h)) (sound_ite (sound_foldl (fun _ _ k2 => emit_sound k2) _ (mirrorsIn_sound
        (sound_upd (sound_foldl (fun _ _ k2 => placeRetried_sound k2) _ (h)) rfl rfl rfl rfl))) (mirrorsIn_sound (sound_upd (sound_foldl
        (fun _ _ k2 => placeRetried_sound k2) _ (h)) rfl rfl rfl rfl)))) (h)

theorem execLehrFence_sound {ok} (h : s.Sound t) : OnlyNext s.Sound (execLehrFence ok t) :=
  sound_ite (sound_ite (sound_ite (sound_upd (h) rfl rfl rfl rfl) (report_sound (sound_upd (h) rfl rfl rfl rfl))) (h)) (sound_ite (h)
        (sound_ite (mirrorsIn_sound (watermarks_sound (sound_upd (writeSupers_sound (sound_foldl (fun _ _ k2 => sound_ite (k2)
        (modHedge_sound k2)) _ (sound_foldl (fun _ _ k2 => emit_sound k2) _ (fenceDurable_sound (sound_foldl
        (fun _ _ k2 => placeRecord_sound k2) _ (sound_upd (h) rfl rfl rfl rfl)))))) rfl rfl rfl rfl))) (sound_foldl
        (fun _ _ k2 => endTxn_sound k2) _ (stateEvents_sound (faulted_sound (sound_upd (writeSupers_sound (sound_foldl
        (fun _ _ k2 => sound_ite (k2) (modHedge_sound k2)) _ (sound_foldl (fun _ _ k2 => emit_sound k2) _ (fenceDurable_sound
        (sound_foldl (fun _ _ k2 => placeRecord_sound k2) _ (sound_upd (h) rfl rfl rfl rfl)))))) rfl rfl rfl rfl))))))

theorem execDhpConfigWrite_sound {f off len v} (h : s.Sound t) : OnlyNext s.Sound (execDhpConfigWrite f off len v t) :=
  sound_ite (h) (sound_ite (dropWrite_sound h) (sound_ite (msixWrite_sound h) (sound_ite (h) (sound_ite (barWrite_sound h) (sound_ite
        (barWrite_sound h) (sound_ite (h) (dropWrite_sound h)))))))

theorem execPageStageIn_sound {x0 va bad} (h : s.Sound t) : OnlyNext s.Sound (execPageStageIn x0 va bad t) :=
  sound_ite (h) (sound_ite (sound_ite (stageIn_sound (sound_upd (h) rfl rfl rfl rfl)) (h)) (stageIn_sound h))

theorem execMembershipSettle_sound {epoch} (h : s.Sound t) : OnlyNext s.Sound (execMembershipSettle epoch t) :=
  sound_ite (h) (sound_ite (refuseSet_sound (sound_upd (h) rfl rfl rfl rfl)) (sound_foldl (fun _ _ k2 => settleMoved_sound k2) _
        (sound_foldl (fun _ _ k2 => settlePrepared_sound k2) _ (settleMigration_sound (checkPair_sound (modPleach_sound (sound_upd
        (h) rfl rfl rfl rfl)))))))

theorem applyPart_sound {x1 g st d} (h : s.Sound t) : s.Sound (t.applyPart x1 g st d) := by
  unfold State.applyPart
  exact sound_foldl (fun _ _ k2 => by
    split
    · exact sound_ite (sound_ite (hbmWrite_sound (meetRead_sound k2)) (hedgeEvent_sound (hbmWrite_sound (meetRead_sound k2)))) (k2)
    · exact k2) _ (h)

theorem execLehrEntryDurable_sound {pos} (h : s.Sound t) : OnlyNext s.Sound (execLehrEntryDurable pos t) := by
  unfold execLehrEntryDurable
  show s.Sound _
  split
  · exact h
  · exact mirrorsIn_sound (closeSegment_sound (by
      split
      · exact emit_sound (sound_foldl (fun _ _ k8 => entryDurable_sound k8) _ (sound_upd (h) rfl rfl rfl rfl))
      · exact sound_foldl (fun _ _ k8 => entryDurable_sound k8) _ (sound_upd (h) rfl rfl rfl rfl)))

theorem execMirrorEntry_sound {l g m} (h : s.Sound t) : OnlyNext s.Sound (execMirrorEntry l g m t) :=
  sound_ite (h) (mirrorsIn_sound (sound_upd (h) rfl rfl rfl rfl))

theorem execRldComplete_sound {e c} (h : s.Sound t) : OnlyNext s.Sound (execRldComplete e c t) := by
  unfold execRldComplete
  show s.Sound _
  split
  · exact arriveAt_sound h
  · exact sound_ite (arriveAt_sound h) (arriveAt_sound (modSlot_sound (modEng_sound (meetRecord_sound h))))
  · exact h

theorem execScan_sound {f} (h : s.Sound t) : OnlyNext s.Sound (execScan f t) := by
  unfold execScan
  show s.Sound _
  dsimp only
  exact withStep_sound h (fun _ q2 _ _ _ _ _ => by
    split
    · exact q2
    · exact joinReaders_sound q2
    · exact sound_ite (stepDone_sound (sound_ite (sound_foldl (fun _ _ k6 => accessed_sound k6) _ (sound_upd (q2) rfl rfl rfl rfl))
          (emit_sound (sound_foldl (fun _ _ k6 => accessed_sound k6) _ (sound_upd (q2) rfl rfl rfl rfl))))) (stepDone_sound (sound_ite
          (sound_foldl (fun _ _ k6 => accessed_sound k6) _ (sound_upd (q2) rfl rfl rfl rfl)) (emit_sound (sound_foldl
          (fun _ _ k6 => accessed_sound k6) _ (sound_upd (q2) rfl rfl rfl rfl)))))
    · exact stepDone_sound (sound_ite (sound_foldl (fun _ _ k6 => accessed_sound k6) _ (sound_upd (q2) rfl rfl rfl rfl)) (emit_sound
          (sound_foldl (fun _ _ k6 => accessed_sound k6) _ (sound_upd (q2) rfl rfl rfl rfl)))))

theorem maMeet_sound {m a off n} (h : s.Sound t) : s.Sound (t.maMeet m a off n) := by
  unfold State.maMeet
  split
  · exact scratchRecord_sound (modEng_sound h)
  · exact meetRead_sound h
  · exact meetRecord_sound h
  · exact h

theorem execDeltaApply_sound {slot st} (h : s.Sound t) : OnlyNext s.Sound (execDeltaApply slot st t) := by
  unfold execDeltaApply
  show s.Sound _
  split
  · exact sound_ite (sound_ite (allApplied_sound (modSlot_sound (sound_foldl (fun _ _ k4 => applyPart_sound k4) _ (sound_upd
        (h) rfl rfl rfl rfl)))) (modSlot_sound (sound_foldl (fun _ _ k4 => applyPart_sound k4) _ (sound_upd (h) rfl rfl rfl rfl)))) (h)
  · exact h

theorem execDrainWriteComplete_sound {seg} (h : s.Sound t) : OnlyNext s.Sound (execDrainWriteComplete seg t) := by
  unfold execDrainWriteComplete
  show s.Sound _
  split
  · exact partDone_sound h
  · split
    · split
      · exact mirrorsIn_sound (issueDrain_sound (watermarks_sound (reclaim_sound (sound_upd (h) rfl rfl rfl rfl))))
      · exact h
    · exact h

/-- What checking one index entry leaves of the state. -/
def EntryRes.state : EntryRes → State
  | .fail t _ => t
  | .fault t _ => t
  | .ok t _ _ => t

theorem violation_sound {r addr sec kind} (h : s.Sound t) : s.Sound (t.violation r addr sec kind) := by
  have hl : ∀ {c : Prop} [Decidable c] {a b : Regs}, a.lock = t.regs.lock → b.lock = t.regs.lock →
      (if c then a else b).lock = t.regs.lock := by
    intros
    split <;> assumption
  exact sound_ite (alarm_sound (sound_upd h (hl rfl rfl) rfl rfl rfl)) (sound_upd h (hl rfl rfl) rfl rfl rfl)

theorem repairs_fuses (k : Keeper) (n : CluId) (l : List Nat) :
    (k.repairs n l).revoke = k.revoke ∧ (k.repairs n l).svnf = k.svnf ∧ (k.repairs n l).debugLock = k.debugLock := by
  unfold Keeper.repairs
  induction l generalizing k with
  | nil => exact ⟨rfl, rfl, rfl⟩
  | cons a l ih => simpa using ih (k.repairAt n a)

theorem execClusterRemoval_sound {n} (h : s.Sound t) : OnlyNext s.Sound (execClusterRemoval n t) := by
  unfold execClusterRemoval
  show s.Sound _
  split
  · exact h
  · next as _ =>
    obtain ⟨hr, hs, hd⟩ := repairs_fuses t.keeper n as
    have h1 : s.Sound { t with keeper := t.keeper.repairs n as } := sound_upd h rfl hr hs hd
    have h2 := holdFloors_sound (sound_foldl (f := fun (u : State) e => if (u.eng e).assigned && (u.eng e).mayChange t.aoTick.toNat 1
      then u.unassign e else u) (fun _ _ k => sound_ite (unassign_sound k) k) ((List.finRange 8).map (engOf n)) h1)
    exact sound_ite h2 (modClu_sound h2)

theorem execEngRoleWrite_sound {r e v} (h : s.Sound t) : OnlyNext s.Sound (execEngRoleWrite r e v t) :=
  sound_ite (h) (sound_ite (roleTouched_sound h) (sound_ite (violation_sound (roleTouched_sound h)) (sound_ite (h) (holdFloors_sound
        (sound_ite (startClear_sound (modEng_sound (roleTouched_sound h))) (modEng_sound (roleTouched_sound h)))))))

theorem release_sound {k i b recov trial} (h : s.Sound t) (hr : k.revoke = t.keeper.revoke) (hs : k.svnf = t.keeper.svnf)
    (hd : k.debugLock = t.keeper.debugLock) : s.Sound (t.release k i b recov trial) := by
  have h1 : s.Sound { t with ccm := (imgData i).foldl (fun t q => tsetRun 0 t q.1 q.2) t.ccm } :=
    sound_memory h (fun m => memOk_ccm m (foldl_tsetRun_wf _ ((memOk_iff t).1 m).2.1)) rfl rfl rfl
  exact sound_upd h1 rfl hr hs hd

theorem lkWrite_sound {r addr sec u} (h : s.Sound t) (k : s.Sound u) : s.Sound (t.lkWrite r addr sec u) :=
  sound_ite (violation_sound h) k

theorem execMcBroadcastWrite_sound {r off v} (h : s.Sound t) : OnlyNext s.Sound (execMcBroadcastWrite r off v t) :=
  sound_ite (lkWrite_sound h (sound_foldl (fun _ _ k2 => mcApply_sound k2) _ (h))) (h)

theorem attempt_sound {x o op body post} (h : s.Sound t) (hp : ∀ u, s.Sound u → s.Sound (post u)) :
    s.Sound (t.attempt x o op body post) := by
  unfold State.attempt
  refine sound_ite h ?_
  have h1 : ∀ {v ev}, s.Sound ((t.setEng x.eng v).vector x.eng x.ctx ev) := vector_sound (setEng_sound h)
  split
  · exact h1
  · refine sound_ite (sound_ite (quarantineDamage_sound (report_sound (modCtx_sound h))) (report_sound (modCtx_sound h))) ?_
    split
    · exact h1
    · split
      · exact setEng_sound h
      · split
        · exact h1
        · refine sound_ite (quarantineDamage_sound h) ?_
          split
          · exact h1
          · exact sound_ite (quarantineDamage_sound h) (ucodeMet_sound (scratchRecord_sound (complete_sound h hp)))

theorem reply_sound {f c gk gcs status result detail table} (h : s.Sound t) : s.Sound (t.reply f c gk gcs status result detail table) := by
  unfold State.reply
  refine sound_ite ?_ (formed_sound (dropCur_sound h))
  cases table with
  | none => exact dropCur_sound h
  | some g => exact tableChange_sound (dropCur_sound h)

theorem writePrivate_sound {f c} (h : s.Sound t) : s.Sound (t.writePrivate f c) := reply_sound (emit_sound (sound_upd (h) rfl rfl rfl rfl))

theorem issue_sound {x o op body post} (h : s.Sound t) (hp : ∀ u, s.Sound u → s.Sound (post u)) :
    s.Sound (t.issue x o op body post) := corrected_sound (attempt_sound h hp)

theorem execYield_sound {x} (h : s.Sound t) : OnlyNext s.Sound (execYield x t) := issue_sound h (fun _ q2 => sound_ite (modCtx_sound q2)
    (q2))

theorem mcReg_sound {r n off v} (h : s.Sound t) : s.Sound (t.mcReg r n off v) := sound_ite (lkWrite_sound h (mcApply_sound h)) (h)

theorem execTli_sound {x} (h : s.Sound t) : OnlyNext s.Sound (execTli x t) := issue_sound h (fun _ q2 => sound_upd (q2) rfl rfl rfl rfl)

theorem adminDone_sound {f c x3 len result table} (h : s.Sound t) : s.Sound (t.adminDone f c x3 len result table) :=
  reply_sound (emit_sound (keepDef_sound (flushFor_sound h)))

theorem execAbort_sound {x} (h : s.Sound t) : OnlyNext s.Sound (execAbort x t) := issue_sound h (fun _ q2 => endTxn_sound q2)

theorem execRlock_sound {x imm} (h : s.Sound t) : OnlyNext s.Sound (execRlock x imm t) := issue_sound h (fun _ q2 => queueWalks_sound q2)

theorem execRpref_sound {x} (h : s.Sound t) : OnlyNext s.Sound (execRpref x t) := issue_sound h (fun _ q2 => queueWalks_sound q2)

theorem execStage_sound {x} (h : s.Sound t) : OnlyNext s.Sound (execStage x t) := issue_sound h (fun _ q2 => setChan_sound
    (queueWalks_sound q2))

theorem execCommit_sound {x} (h : s.Sound t) : OnlyNext s.Sound (execCommit x t) := issue_sound h (fun _ q2 => modSlot_sound q2)

theorem execRld_sound {x} (h : s.Sound t) : OnlyNext s.Sound (execRld x t) := issue_sound h (fun _ q2 => queueWalks_sound q2)

theorem superDone_sound {f c x3} (h : s.Sound t) : s.Sound (t.superDone f c x3) := adminDone_sound (modHedge_sound h)

theorem fail_sound {f c status} (h : s.Sound t) : s.Sound (t.fail f c status) := reply_sound h

theorem execWaitev_sound {x} (h : s.Sound t) : OnlyNext s.Sound (execWaitev x t) := issue_sound h (fun _ q2 => sound_upd
    (q2) rfl rfl rfl rfl)

theorem execSigev_sound {x} (h : s.Sound t) : OnlyNext s.Sound (execSigev x t) := issue_sound h (fun _ q2 => sound_upd (q2) rfl rfl rfl rfl)

theorem execMcPdata1Write_sound {r n v} (h : s.Sound t) : OnlyNext s.Sound (execMcPdata1Write r n v t) := sound_ite (mcReg_sound h) (h)

theorem execSignal_sound {f} (h : s.Sound t) : OnlyNext s.Sound (execSignal f t) := by
  unfold execSignal
  show s.Sound _
  dsimp only
  exact slowCmd_sound h (fun _ q2 _ _ => by
    split
    · exact sound_ite (reply_sound (sigev_sound q2)) (fail_sound q2)
    · exact fail_sound q2)

theorem execEpset_sound {f} (h : s.Sound t) : OnlyNext s.Sound (execEpset f t) :=
  slowCmd_sound h (fun _ q2 _ _ => sound_ite (fail_sound q2) (sound_ite (fail_sound q2) (reply_sound (watchDead_sound
        (setEndpoint_sound q2)))))

theorem execCreateHedge_sound {f buf} (h : s.Sound t) : OnlyNext s.Sound (execCreateHedge f buf t) := by
  unfold execCreateHedge
  exact withAdmin_sound h (fun _ => by
    split
    · exact sound_ite (fail_sound h) (sound_ite (fail_sound h) (sound_ite (fail_sound h) (sound_ite (h) (by
        split
        · exact adminDone_sound (modFn_sound (setMin_sound (invHedge_sound (setHedge_sound ((newTable_sound h ‹_›))))))
        · exact fail_sound h))))
    · exact fail_sound h)

theorem execIdentify_sound {f} (h : s.Sound t) : OnlyNext s.Sound (execIdentify f t) :=
  withAdmin_sound h (fun _ => sound_ite (fail_sound h) (writePrivate_sound h))

theorem execMap_sound {f} (h : s.Sound t) : OnlyNext s.Sound (execMap f t) := by
  unfold execMap
  show s.Sound _
  dsimp only
  exact slowCmd_sound h (fun _ q2 _ _ => by
    split
    · exact fail_sound q2
    · exact sound_ite (fail_sound q2) (sound_ite (sound_ite (fail_sound q2) (sound_ite (q2) (reply_sound (sound_foldl
          (fun _ _ k6 => unmapPage_sound k6) _ (q2))))) (sound_ite (fail_sound q2) (by
        split
        · exact reply_sound ((mapPages_sound q2 ‹_›))
        · exact fail_sound q2))))

theorem execTelemetry_sound {f} (h : s.Sound t) : OnlyNext s.Sound (execTelemetry f t) :=
  withAdmin_sound h (fun _ => sound_ite (fail_sound h) (writePrivate_sound h))

theorem execUnregister_sound {f} (h : s.Sound t) : OnlyNext s.Sound (execUnregister f t) := by
  unfold execUnregister
  exact withAdmin_sound h (fun _ => by
    split
    · exact fail_sound h
    · exact sound_ite (fail_sound h) (reply_sound (modHedge_sound (flushFor_sound h))))

theorem execResync_sound {f} (h : s.Sound t) : OnlyNext s.Sound (execResync f t) :=
  slowCmd_sound h (fun _ q2 _ _ => sound_ite (fail_sound q2) (modHedge_sound (modFn_sound (dropCur_sound q2))))

theorem markLeaf_sound {a va pte} (h : s.Sound t) : s.Sound (t.markLeaf a va pte).1 := by
  unfold State.markLeaf
  split
  · exact entriesGone_sound (meetRead_sound h)
  · split
    · split
      · exact entriesMarked_sound (hbmPut_sound h)
      · exact markStale_sound h
    · exact markStale_sound h

theorem execMarkRequest_sound {e c} (h : s.Sound t) : OnlyNext s.Sound (execMarkRequest e c t) := by
  unfold execMarkRequest
  show s.Sound _
  split
  · split
    · exact queueWalks_sound (sound_foldl (fun _ _ k6 => markDone_sound k6) _ (modCtx_sound (markLeaf_sound h)))
    · exact h
  · exact h

theorem execDestroyHedge_sound {f} (h : s.Sound t) : OnlyNext s.Sound (execDestroyHedge f t) := by
  unfold execDestroyHedge
  exact withAdmin_sound h (fun _ => by
    split
    · exact fail_sound h
    · exact sound_ite (reply_sound (keepDef_sound (destroyed_sound (sound_ite (h) (modHedge_sound (drainVf_sound (postEvent_sound
          (flushFor_sound h)))))))) (sound_ite (h) (modHedge_sound (drainVf_sound (postEvent_sound (flushFor_sound h))))))

theorem execLoadTable_sound {f buf src} (h : s.Sound t) : OnlyNext s.Sound (execLoadTable f buf src t) := by
  unfold execLoadTable
  exact withAdmin_sound h (fun _ => by
    split
    · exact fail_sound h
    · split
      · exact loadOn_sound h (fun _ q8 => adminDone_sound (emit_sound q8))
      · exact sound_ite (fail_sound h) (sound_ite (fail_sound h) (sound_ite (h) (loadOn_sound (setHedge_sound h)
            (fun _ q8 => adminDone_sound (emit_sound q8))))))

theorem execRead_sound {f} (h : s.Sound t) : OnlyNext s.Sound (execRead f t) := by
  unfold execRead
  exact slowCmd_sound h (fun _ q2 _ _ => sound_ite (fail_sound q2) (sound_ite (fail_sound q2) (sound_ite (fail_sound q2) (sound_ite
        (fail_sound q2) (sound_ite (q2) (by
    split
    · exact q2
    · exact joinReaders_sound q2
    · exact leaveReaders_sound (fail_sound (sound_ite (accessed_sound q2) (q2)))
    · exact leaveReaders_sound (reply_sound (emit_sound (accessed_sound q2)))))))))

theorem execSetHedge_sound {f buf} (h : s.Sound t) : OnlyNext s.Sound (execSetHedge f buf t) := by
  unfold execSetHedge
  exact withAdmin_sound h (fun _ => by
    split
    · exact fail_sound h
    · split
      · exact loadOn_sound h (fun _ q8 => adminDone_sound q8)
      · exact sound_ite (fail_sound h) (sound_ite (fail_sound h) (sound_ite (fail_sound h) (by
          split
          · exact fail_sound h
          · exact sound_ite (adminDone_sound (setParams_sound h)) (sound_ite (h) (sound_ite (sound_ite (adminDone_sound
                (reloadHedge_sound (setParams_sound h))) (h)) (loadOn_sound (setParams_sound h) (fun _ q12 => adminDone_sound q12))))))))

theorem execRegister_sound {f buf} (h : s.Sound t) : OnlyNext s.Sound (execRegister f buf t) := by
  unfold execRegister
  exact withAdmin_sound h (fun _ => by
    split
    · exact fail_sound h
    · split
      · exact loadOn_sound h (fun _ q8 => superDone_sound q8)
      · exact sound_ite (fail_sound h) (sound_ite (fail_sound h) (sound_ite (fail_sound h) (sound_ite (fail_sound h) (by
          split
          · exact fail_sound h
          · exact h
          · split
            · exact fail_sound h
            · exact sound_ite (adminDone_sound (register_sound (accessed_sound (accessed_sound h)))) (sound_ite (h) (loadOn_sound
                  (registerSuper_sound (accessed_sound (accessed_sound h))) (fun _ q14 => superDone_sound q14))))))))

theorem arrived_sound {m d b data pz} (h : s.Sound t) : s.Sound (t.arrived m d b data pz).1 := by
  unfold State.arrived
  dsimp only
  split
  · exact h
  · split
    · exact muddled_sound (sound_ite (aer_sound (maMeet_sound h)) (maMeet_sound h))
    · exact sound_ite (aer_sound (maMeet_sound h)) (maMeet_sound h)

theorem stateOf_sound {u o} (h : OnlyNext s.Sound o) : s.Sound (stateOf u o) := by
  cases o with
  | next t => exact h
  | fault f => exact h.elim
  | refused r => exact h.elim

theorem execGlbLockWrite_sound {r} (h : s.Sound t) : OnlyNext s.Sound (execGlbLockWrite r t) :=
  sound_ite (h.trans ⟨rfl, id, fun _ => rfl, rfl, rfl, rfl⟩) h

theorem linkctlWrite_sound {r addr l v} (h : s.Sound t) : s.Sound (t.linkctlWrite r addr l v) :=
  sound_ite (stateOf_sound (execRetrain_sound (lkWrite_sound h (sound_ite (h) (linkEnable_sound h))))) (lkWrite_sound h (sound_ite (h)
        (linkEnable_sound h)))

theorem execLdl_sound {x n} (h : s.Sound t) : OnlyNext s.Sound (execLdl x n t) := issue_sound h (fun _ q2 => q2)

theorem execCall_sound {x imm} (h : s.Sound t) : OnlyNext s.Sound (execCall x imm t) := issue_sound h (fun _ q2 => q2)

theorem execEdit_sound {x} (h : s.Sound t) : OnlyNext s.Sound (execEdit x t) := issue_sound h (fun _ q2 => q2)

theorem execNot_sound {x} (h : s.Sound t) : OnlyNext s.Sound (execNot x t) := issue_sound h (fun _ q2 => q2)

theorem execPack_sound {x imm} (h : s.Sound t) : OnlyNext s.Sound (execPack x imm t) := issue_sound h (fun _ q2 => q2)

theorem execCallx_sound {x} (h : s.Sound t) : OnlyNext s.Sound (execCallx x t) := issue_sound h (fun _ q2 => q2)

theorem unaryOp_sound {x abs op} (h : s.Sound t) : OnlyNext s.Sound (unaryOp x abs op t) := issue_sound h (fun _ q2 => q2)

theorem execDshl_sound {x imm} (h : s.Sound t) : OnlyNext s.Sound (execDshl x imm t) := issue_sound h (fun _ q2 => q2)

theorem execDmul_sound {x} (h : s.Sound t) : OnlyNext s.Sound (execDmul x t) := issue_sound h (fun _ q2 => q2)

theorem execNeg_sound {x} (h : s.Sound t) : OnlyNext s.Sound (execNeg x t) := unaryOp_sound h

theorem execXadd_sound {x imm} (h : s.Sound t) : OnlyNext s.Sound (execXadd x imm t) := issue_sound h (fun _ q2 => q2)

theorem execReti_sound {x} (h : s.Sound t) : OnlyNext s.Sound (execReti x t) := issue_sound h (fun _ q2 => q2)

theorem fltOp_sound {x n op count unit f} (h : s.Sound t) : OnlyNext s.Sound (fltOp x n op count unit f t) := issue_sound h (fun _ q2 => q2)

theorem execAdd_sound {x} (h : s.Sound t) : OnlyNext s.Sound (execAdd x t) := issue_sound h (fun _ q2 => q2)

theorem tlbinvWrite_sound {r v} (h : s.Sound t) : s.Sound (t.tlbinvWrite r v) := by
  unfold State.tlbinvWrite
  exact sound_ite (h) (sound_ite (modRegs_sound h rfl) (by
    split
    · exact stateOf_sound (execTlbinvPage_sound (modRegs_sound h rfl))
    · exact stateOf_sound (execTlbinvHedge_sound (modRegs_sound h rfl))
    · exact stateOf_sound (execTlbinvFrame_sound (modRegs_sound h rfl))
    · exact stateOf_sound (execTlbinvAll_sound (modRegs_sound h rfl))
    · exact modRegs_sound h rfl))

theorem execRetm_sound {x} (h : s.Sound t) : OnlyNext s.Sound (execRetm x t) := issue_sound h (fun _ q2 => q2)

theorem execUnpk_sound {x imm} (h : s.Sound t) : OnlyNext s.Sound (execUnpk x imm t) := issue_sound h (fun _ q2 => q2)

theorem execSetfp_sound {x} (h : s.Sound t) : OnlyNext s.Sound (execSetfp x t) := issue_sound h (fun _ q2 => q2)

theorem guardOp_sound {x g} (h : s.Sound t) : OnlyNext s.Sound (guardOp x g t) := issue_sound h (fun _ q2 => q2)

theorem execCmst_sound {x} (h : s.Sound t) : OnlyNext s.Sound (execCmst x t) := issue_sound h (fun _ q2 => q2)

theorem execSetg_sound {x} (h : s.Sound t) : OnlyNext s.Sound (execSetg x t) := guardOp_sound h

theorem execSetkey_sound {x} (h : s.Sound t) : OnlyNext s.Sound (execSetkey x t) := issue_sound h (fun _ q2 => q2)

theorem execRem_sound {x} (h : s.Sound t) : OnlyNext s.Sound (execRem x t) := issue_sound h (fun _ q2 => q2)

theorem execSetm_sound {x} (h : s.Sound t) : OnlyNext s.Sound (execSetm x t) := issue_sound h (fun _ q2 => q2)

theorem loadOp_sound {x f k widths} (h : s.Sound t) : OnlyNext s.Sound (loadOp x f k widths t) := issue_sound h (fun _ q2 => q2)

theorem execSt_sound {x imm} (h : s.Sound t) : OnlyNext s.Sound (execSt x imm t) := issue_sound h (fun _ q2 => q2)

theorem execPushd_sound {x imm} (h : s.Sound t) : OnlyNext s.Sound (execPushd x imm t) := issue_sound h (fun _ q2 => q2)

theorem bitOp_sound {x op f g} (h : s.Sound t) : OnlyNext s.Sound (bitOp x op f g t) := issue_sound h (fun _ q2 => q2)

theorem execSetrm_sound {x} (h : s.Sound t) : OnlyNext s.Sound (execSetrm x t) := issue_sound h (fun _ q2 => q2)

theorem execMul_sound {x} (h : s.Sound t) : OnlyNext s.Sound (execMul x t) := issue_sound h (fun _ q2 => q2)

theorem execLdf_sound {x imm} (h : s.Sound t) : OnlyNext s.Sound (execLdf x imm t) := loadOp_sound h

theorem execBrt_sound {x annul imm} (h : s.Sound t) : OnlyNext s.Sound (execBrt x annul imm t) := issue_sound h (fun _ q2 => q2)

theorem execCallm_sound {x imm} (h : s.Sound t) : OnlyNext s.Sound (execCallm x imm t) := issue_sound h (fun _ q2 => q2)

theorem execFma_sound {x} (h : s.Sound t) : OnlyNext s.Sound (execFma x t) := fltOp_sound h

theorem execMvst_sound {x} (h : s.Sound t) : OnlyNext s.Sound (execMvst x t) := issue_sound h (fun _ q2 => q2)

theorem execBr_sound {x annul imm} (h : s.Sound t) : OnlyNext s.Sound (execBr x annul imm t) := issue_sound h (fun _ q2 => q2)

theorem execXchg_sound {x imm} (h : s.Sound t) : OnlyNext s.Sound (execXchg x imm t) := issue_sound h (fun _ q2 => q2)

theorem execCmp_sound {x} (h : s.Sound t) : OnlyNext s.Sound (execCmp x t) := issue_sound h (fun _ q2 => q2)

theorem execClrg_sound {x} (h : s.Sound t) : OnlyNext s.Sound (execClrg x t) := guardOp_sound h

theorem execTagof_sound {x} (h : s.Sound t) : OnlyNext s.Sound (execTagof x t) := issue_sound h (fun _ q2 => q2)

theorem execStl_sound {x n} (h : s.Sound t) : OnlyNext s.Sound (execStl x n t) := issue_sound h (fun _ q2 => q2)

theorem execRdpsw_sound {x} (h : s.Sound t) : OnlyNext s.Sound (execRdpsw x t) := issue_sound h (fun _ q2 => q2)

theorem execDdiv_sound {x} (h : s.Sound t) : OnlyNext s.Sound (execDdiv x t) := issue_sound h (fun _ q2 => q2)

theorem execMuli_sound {x} (h : s.Sound t) : OnlyNext s.Sound (execMuli x t) := issue_sound h (fun _ q2 => q2)

theorem execEdmk_sound {x} (h : s.Sound t) : OnlyNext s.Sound (execEdmk x t) := issue_sound h (fun _ q2 => q2)

theorem execMvtr_sound {x} (h : s.Sound t) : OnlyNext s.Sound (execMvtr x t) := issue_sound h (fun _ q2 => q2)

theorem execSub_sound {x} (h : s.Sound t) : OnlyNext s.Sound (execSub x t) := issue_sound h (fun _ q2 => q2)

theorem shiftOp_sound {x op f} (h : s.Sound t) : OnlyNext s.Sound (shiftOp x op f t) := issue_sound h (fun _ q2 => q2)

theorem execFsqrt_sound {x} (h : s.Sound t) : OnlyNext s.Sound (execFsqrt x t) := fltOp_sound h

theorem execRet_sound {x} (h : s.Sound t) : OnlyNext s.Sound (execRet x t) := issue_sound h (fun _ q2 => q2)

theorem pushConst_sound {x o k} (h : s.Sound t) : OnlyNext s.Sound (pushConst x o k t) := issue_sound h (fun _ q2 => q2)

theorem execScst_sound {x} (h : s.Sound t) : OnlyNext s.Sound (execScst x t) := issue_sound h (fun _ q2 => q2)

theorem execLds_sound {x imm} (h : s.Sound t) : OnlyNext s.Sound (execLds x imm t) := loadOp_sound h

theorem execDiv_sound {x} (h : s.Sound t) : OnlyNext s.Sound (execDiv x t) := issue_sound h (fun _ q2 => q2)

theorem execShr_sound {x} (h : s.Sound t) : OnlyNext s.Sound (execShr x t) := shiftOp_sound h

theorem execFsub_sound {x} (h : s.Sound t) : OnlyNext s.Sound (execFsub x t) := fltOp_sound h

theorem execDcmp_sound {x} (h : s.Sound t) : OnlyNext s.Sound (execDcmp x t) := issue_sound h (fun _ q2 => q2)

theorem execDshr_sound {x imm} (h : s.Sound t) : OnlyNext s.Sound (execDshr x imm t) := issue_sound h (fun _ q2 => q2)

theorem execPick_sound {x imm} (h : s.Sound t) : OnlyNext s.Sound (execPick x imm t) := issue_sound h (fun _ q2 => q2)

theorem execFmul_sound {x} (h : s.Sound t) : OnlyNext s.Sound (execFmul x t) := fltOp_sound h

theorem execSar_sound {x} (h : s.Sound t) : OnlyNext s.Sound (execSar x t) := shiftOp_sound h

theorem execDrnd_sound {x imm} (h : s.Sound t) : OnlyNext s.Sound (execDrnd x imm t) := issue_sound h (fun _ q2 => q2)

theorem execRst_sound {x} (h : s.Sound t) : OnlyNext s.Sound (execRst x t) := issue_sound h (fun _ q2 => q2)

theorem execBrz_sound {x annul imm} (h : s.Sound t) : OnlyNext s.Sound (execBrz x annul imm t) := issue_sound h (fun _ q2 => q2)

theorem execCas_sound {x imm} (h : s.Sound t) : OnlyNext s.Sound (execCas x imm t) := issue_sound h (fun _ q2 => q2)

theorem cvtOp_sound {x op count f} (h : s.Sound t) : OnlyNext s.Sound (cvtOp x op count f t) := issue_sound h (fun _ q2 => q2)

theorem execAnd_sound {x} (h : s.Sound t) : OnlyNext s.Sound (execAnd x t) := bitOp_sound h

theorem moveOp_sound {x n q reads f} (h : s.Sound t) : OnlyNext s.Sound (moveOp x n q reads f t) := issue_sound h (fun _ q2 => q2)

theorem execFdiv_sound {x} (h : s.Sound t) : OnlyNext s.Sound (execFdiv x t) := fltOp_sound h

theorem execBrnz_sound {x annul imm} (h : s.Sound t) : OnlyNext s.Sound (execBrnz x annul imm t) := issue_sound h (fun _ q2 => q2)

theorem execDup_sound {x} (h : s.Sound t) : OnlyNext s.Sound (execDup x t) := moveOp_sound h

theorem execOver_sound {x} (h : s.Sound t) : OnlyNext s.Sound (execOver x t) := moveOp_sound h

theorem execFadd_sound {x} (h : s.Sound t) : OnlyNext s.Sound (execFadd x t) := fltOp_sound h

theorem execAbs_sound {x} (h : s.Sound t) : OnlyNext s.Sound (execAbs x t) := unaryOp_sound h

theorem execCvtd_sound {x} (h : s.Sound t) : OnlyNext s.Sound (execCvtd x t) := cvtOp_sound h

theorem rebuildPage_sound {g va bad r} (h : s.Sound t) (e : t.rebuildPage g va bad = some r) : s.Sound r.1 := by
  unfold State.rebuildPage at e
  split at e
  · dsimp only at e
    generalize (if Pte.res _ = true then _ else ([] : List Nat)) = gs at e
    split at e
    · cases e; exact h
    · split at e
      · cases e
      · cases e; exact hedgeEvent_sound (sound_foldl (fun _ _ k => hbmWrite_sound k) _ h)
  · cases e; exact h

theorem rebuild_run_sound {g bad stop} {n : Nat} {r : Rebuild} (h : s.Sound r.s) : s.Sound (Rebuild.run g bad stop n r).s := by
  induction n generalizing r with
  | zero => exact h
  | succ n ih =>
    unfold Rebuild.run
    split
    · exact h
    · split
      · exact h
      · exact ih (rebuildPage_sound h ‹_›)

theorem execRebuild_sound {f bad} (h : s.Sound t) : OnlyNext s.Sound (execRebuild f bad t) :=
  withStep_sound h fun u q k c n b i => sound_ite q (by
    have h1 := rebuild_run_sound (g := k) (bad := bad) (stop := fieldOf b 16 6 + fieldOf b 24 8) (n := 256)
      (r := ⟨u, 0, fieldOf b 16 6 + i, false⟩) q
    exact sound_ite (stepDone_sound h1) (stepDone_sound h1))

theorem execPushfalse_sound {x} (h : s.Sound t) : OnlyNext s.Sound (execPushfalse x t) := pushConst_sound h

theorem execOr_sound {x} (h : s.Sound t) : OnlyNext s.Sound (execOr x t) := bitOp_sound h

theorem execLd_sound {x imm} (h : s.Sound t) : OnlyNext s.Sound (execLd x imm t) := loadOp_sound h

theorem execXor_sound {x} (h : s.Sound t) : OnlyNext s.Sound (execXor x t) := bitOp_sound h

theorem execNop_sound {x} (h : s.Sound t) : OnlyNext s.Sound (execNop x t) := moveOp_sound h

theorem execCvti_sound {x} (h : s.Sound t) : OnlyNext s.Sound (execCvti x t) := cvtOp_sound h

theorem execDrop2_sound {x} (h : s.Sound t) : OnlyNext s.Sound (execDrop2 x t) := moveOp_sound h

theorem execDrop_sound {x} (h : s.Sound t) : OnlyNext s.Sound (execDrop x t) := moveOp_sound h

theorem execPushiS_sound {x imm} (h : s.Sound t) : OnlyNext s.Sound (execPushiS x imm t) := pushConst_sound h

theorem execPushnil_sound {x} (h : s.Sound t) : OnlyNext s.Sound (execPushnil x t) := pushConst_sound h

theorem execSwap_sound {x} (h : s.Sound t) : OnlyNext s.Sound (execSwap x t) := moveOp_sound h

theorem execShl_sound {x} (h : s.Sound t) : OnlyNext s.Sound (execShl x t) := shiftOp_sound h

theorem execPushtrue_sound {x} (h : s.Sound t) : OnlyNext s.Sound (execPushtrue x t) := pushConst_sound h

theorem execDup2_sound {x} (h : s.Sound t) : OnlyNext s.Sound (execDup2 x t) := moveOp_sound h

theorem execPusha_sound {x imm} (h : s.Sound t) : OnlyNext s.Sound (execPusha x imm t) := pushConst_sound h

theorem execPushfp_sound {x imm} (h : s.Sound t) : OnlyNext s.Sound (execPushfp x imm t) := pushConst_sound h

theorem execRot_sound {x} (h : s.Sound t) : OnlyNext s.Sound (execRot x t) := moveOp_sound h

theorem execPushiL_sound {x imm} (h : s.Sound t) : OnlyNext s.Sound (execPushiL x imm t) := pushConst_sound h

theorem execNip_sound {x} (h : s.Sound t) : OnlyNext s.Sound (execNip x t) := moveOp_sound h

theorem execTuck_sound {x} (h : s.Sound t) : OnlyNext s.Sound (execTuck x t) := moveOp_sound h

theorem execCvtf_sound {x} (h : s.Sound t) : OnlyNext s.Sound (execCvtf x t) := cvtOp_sound h

theorem blockData_sound {d} (h : s.Sound t) : s.Sound (t.blockData d).1 := by
  have hc : ∀ a n, s.Sound { t with disk := tclear t.disk a n, diskPoison := tclear t.diskPoison (a / 32) (n / 32) } := fun a n =>
    sound_memory h (fun m => memOk_disk m (twf_tclear _ _ ((memOk_iff t).1 m).2.2)) rfl rfl rfl
  unfold State.blockData
  dsimp only
  split
  · exact hc _ _
  · refine sound_foldl_fst (fun q g k => ?_) _ h
    split
    · exact memWrite_sound k
    · exact diskWrite_sound (sound_ite k (meetRead_sound k))

theorem execGlbBootokWrite_sound {r v} (h : s.Sound t) : OnlyNext s.Sound (execGlbBootokWrite r v t) := by
  obtain ⟨hr, hs, hd⟩ := confirmed_fuses t.keeper
  unfold execGlbBootokWrite
  refine sound_ite h (sound_ite (violation_sound h) (sound_ite (sound_upd h rfl rfl rfl rfl) ?_))
  split
  · exact sound_ite (h.trans ⟨rfl, id, fun _ => rfl, hr, hs, hd⟩) (h.trans ⟨rfl, id, id, hr, hs, hd⟩)
  · exact h.trans ⟨rfl, id, id, hr, hs, hd⟩

theorem startUp_sound {i} (h : s.Sound t) : s.Sound (t.startUp i) := by
  obtain ⟨hr, hs, hd⟩ := choose_fuses t.keeper i.spi
  unfold State.startUp
  dsimp only
  split
  · exact startSlot_sound (release_sound h hr hs hd)
  · exact pfOnly_sound (sound_upd (release_sound h hr hs hd) rfl rfl rfl rfl)
  · exact noBoot_sound (sound_upd h rfl hr hs hd)

theorem execStartSequence_sound {i} (h : s.Sound t) : OnlyNext s.Sound (execStartSequence i t) :=
  sound_ite (h) (sound_ite (sound_ite (startUp_sound (sound_upd (h) rfl rfl rfl rfl)) (sound_upd (h) rfl rfl rfl rfl)) (sound_ite
        (ready_sound h) (h)))

theorem execFwUpdate_sound {f bytes found} (h : s.Sound t) : OnlyNext s.Sound (execFwUpdate f bytes found t) := by
  obtain ⟨pr, ps, pd⟩ := program_fuses t.keeper (!t.keeper.recov && !t.keeper.slotB) (Img.ofBytes bytes found)
  refine withAdmin_sound h (fun c => sound_ite (fail_sound h) ?_)
  have h1 : ∀ o, s.Sound ({ t with keeper := t.keeper.program (!t.keeper.recov && !t.keeper.slotB) (Img.ofBytes bytes found) }.emit o) :=
    fun _ => emit_sound (sound_upd h rfl pr ps pd)
  refine sound_ite (fail_sound (h1 _)) (reply_sound ?_)
  refine (h1 (.read f (cmdBuf c.bytes) (cmdLen c.bytes))).trans ?_
  obtain ⟨hr, hs, hd⟩ := writeDir_fuses (t.keeper.program (!t.keeper.recov && !t.keeper.slotB) (Img.ofBytes bytes found))
        (!t.keeper.recov && !t.keeper.slotB) true 0
  obtain ⟨kr, ks, kd⟩ := setCount_fuses ((t.keeper.program (!t.keeper.recov && !t.keeper.slotB) (Img.ofBytes bytes found)).writeDir
        (!t.keeper.recov && !t.keeper.slotB) true 0) (!t.keeper.recov && !t.keeper.slotB) 0
  exact ⟨rfl, id, id, kr.trans hr, ks.trans hs, kd.trans hd⟩

theorem stageCopy_sound {e g r a out pl} (h : s.Sound t) : s.Sound (t.stageCopy e g r a out pl).1 := by
  unfold State.stageCopy
  dsimp only
  split
  · exact scratchToRecord_sound (modEng_sound h)
  · split
    · exact h
    · exact sound_pair (modEng_sound (meetRecord_sound h))

theorem walkLeaf_sound {a va at_ p level} (h : s.Sound t) : s.Sound (t.walkLeaf a va at_ p level).1 := by
  have h1 : s.Sound (if p.marked a = p then t else t.hbmPut at_ 8 (p.marked a).toNat) := sound_ite h (hbmPut_sound h)
  unfold State.walkLeaf
  dsimp only
  generalize (if p.marked a = p then t else t.hbmPut at_ 8 (p.marked a).toNat) = u at h1
  split
  · exact h
  · split
    · exact sound_pair (meetRead_sound h1)
    · refine sound_pair (sound_ite (meetRead_sound h1) ?_)
      split
      · exact modEng_sound (modClu_sound (meetRead_sound h1))
      · exact modClu_sound (meetRead_sound h1)

theorem execStageComplete_sound {e c} (h : s.Sound t) : OnlyNext s.Sound (execStageComplete e c t) := by
  unfold execStageComplete
  exact sound_ite (h) (by
    split
    · exact arriveAt_sound (unstage_sound h)
    · exact arriveAt_sound (unstage_sound (stageCopy_sound h))
    · exact h)

theorem transPage_sound {a va} (h : s.Sound t) : s.Sound (t.transPage a va).1 := by
  have h1 : s.Sound (t.dropParity a va) := dropParity_sound h
  unfold State.transPage
  generalize t.dropParity a va = u at h1
  dsimp only
  split
  · exact sound_pair (modEng_sound h1)
  · split
    · dsimp only
      split
      · exact sound_ite (modClu_sound h1) (modEng_sound (modClu_sound h1))
      · exact modClu_sound h1
    · have h2 : ∀ l : List Nat, s.Sound (l.foldl (fun t x => t.meetRead x 8)
          (u.modClu a.clu fun k => { k with l2miss := satInc k.l2miss })) :=
        fun l => sound_foldl (fun _ _ k => meetRead_sound k) l (modClu_sound h1)
      split
      · exact h2 _
      · exact report_sound (h2 _)
      · split
        · exact walkLeaf_sound (h2 _)
        · exact h2 _

theorem transParts_sound {a} {l : List Nat} {upto r} (h : s.Sound r.1) : s.Sound (State.transParts a l upto r).1 := by
  induction l generalizing upto r with
  | nil => exact h
  | cons p l ih =>
    unfold State.transParts
    split
    · exact ih h
    · exact ih (transPage_sound h)

theorem maPrefetch_sound {m a off} (h : s.Sound t) : s.Sound (t.maPrefetch m a off) := by
  unfold State.maPrefetch
  dsimp only
  exact sound_ite (by
    split
    · exact modHedge_sound (transPage_sound h)
    · exact transPage_sound h) (h)

theorem transRange_sound {a va n} (h : s.Sound t) : s.Sound (t.transRange a va n).1 := transParts_sound (r := (t, .ok)) h

theorem execPageWalk_sound {e c} (h : s.Sound t) : OnlyNext s.Sound (execPageWalk e c t) := by
  unfold execPageWalk
  show s.Sound _
  dsimp only
  split
  · split
    · exact sound_ite (queueWalks_sound h) (by
        split
        · exact modCtx_sound (sound_upd (transRange_sound (sound_upd (queueWalks_sound h) rfl rfl rfl rfl)) rfl rfl rfl rfl)
        · exact modCtx_sound (modClu_sound (transRange_sound (sound_upd (queueWalks_sound h) rfl rfl rfl rfl)))
        · exact modCtx_sound (transRange_sound (sound_upd (queueWalks_sound h) rfl rfl rfl rfl))
        · exact sound_ite (modCtx_sound (modHedge_sound (transRange_sound (sound_upd (queueWalks_sound h) rfl rfl rfl rfl))))
              (modCtx_sound (transRange_sound (sound_upd (queueWalks_sound h) rfl rfl rfl rfl))))
    · exact queueWalks_sound h
  · exact queueWalks_sound h

theorem transMarked_sound {a va n} {f : Nat} (h : s.Sound t) : s.Sound (State.transMarked a va n f t).1 := by
  induction f generalizing t with
  | zero => exact h
  | succ f ih =>
    have h1 : s.Sound (t.transRange a va n).1 := transRange_sound h
    unfold State.transMarked
    dsimp only
    split
    · split
      · exact ih (markLeaf_sound h1)
      · exact markLeaf_sound h1
    · exact h1

theorem maTrans_sound {m a off n out} (h : s.Sound t) : s.Sound (t.maTrans m a off n out).1 := by
  unfold State.maTrans
  split
  · exact transMarked_sound h
  · exact sound_pair (h)

theorem writeRun_sound {m d} {f : Nat} {off bs} (h : s.Sound t) : s.Sound (State.writeRun m d f t off bs).1 := by
  induction f generalizing t off bs with
  | zero => exact h
  | succ f ih =>
    have h1 : ∀ {n}, s.Sound (t.maTrans m d.dst off n true).1 := maTrans_sound h
    unfold State.writeRun
    split
    · exact h
    · dsimp only
      split
      · exact h1
      · exact h1
      · exact ih (maWrite_sound h1)

theorem startBurst_sound {m ch d} (h : s.Sound t) : s.Sound (t.startBurst m ch d) := by
  unfold State.startBurst
  dsimp only
  split
  · exact pagedOn_sound (by
      split
      · exact sound_ite (h) (maPrefetch_sound h)
      · exact maTrans_sound (sound_ite (h) (maPrefetch_sound h)))
  · exact modChan_sound (by
      split
      · exact sound_ite (h) (maPrefetch_sound h)
      · exact maTrans_sound (sound_ite (h) (maPrefetch_sound h)))
  · exact hostReadOut_sound (modChan_sound (modMover_sound (by
      split
      · exact sound_ite (h) (maPrefetch_sound h)
      · exact maTrans_sound (sound_ite (h) (maPrefetch_sound h)))))

theorem keepLate_sound {m ch d b data} (h : s.Sound t) : s.Sound (t.keepLate m ch d b data) := by
  unfold State.keepLate
  exact sound_ite (h) (modChan_sound (writeRun_sound (by
    split
    · exact muddled_sound h
    · exact h)))

theorem serve_sound {m} {n : Nat} (h : s.Sound t) : s.Sound (State.serve m n t) := by
  induction n generalizing t with
  | zero => exact h
  | succ n ih =>
    unfold State.serve
    split
    · exact ih (pace_sound (sound_ite (issueBlock_sound (modMover_sound h)) (startBurst_sound (modMover_sound h))))
    · exact h

theorem pump_sound {m ch} {n : Nat} (h : s.Sound t) : s.Sound (State.pump m ch n t) := by
  induction n generalizing t with
  | zero => exact h
  | succ n ih =>
    unfold State.pump
    dsimp only
    split
    · refine sound_ite h (sound_ite (setChan_sound h) ?_)
      split
      · split
        · next d _ _ _ b _ _ _ bs _ =>
          have hw := writeRun_sound (m := m) (d := d) (f := bs.length) (off := b.off) (bs := bs) h
          split
          · exact pagedOn_sound (modChan_sound hw)
          · exact modChan_sound (modChan_sound hw)
          · exact ih (modChan_sound hw)
        · exact h
      · exact setChan_sound h
    · exact h

theorem indexEntry_sound {e n c w} (h : s.Sound t) : s.Sound (t.indexEntry e n c w).state := by
  unfold State.indexEntry
  dsimp only
  split
  · exact h
  · split
    · exact h
    · split
      · exact h
      · split
        · simp only [EntryRes.state]
          exact modEng_sound h
        · split
          · exact h
          · split
            · exact h
            · split
              · exact h
              · split
                · exact transMarked_sound h
                · exact transMarked_sound h
                · split
                  · exact transMarked_sound h
                  · exact transMarked_sound h

theorem validate_sound {e n c x w0 w} {f : Nat} (h : s.Sound t) : s.Sound (State.validate e n c x w0 w f t) := by
  induction f generalizing t with
  | zero => exact modSlot_sound h
  | succ f ih =>
    have h1 := indexEntry_sound (e := e) (n := n) (c := c) (w := w0 + 32 * (t.slot n).checked) h
    unfold State.validate
    split <;> rename_i heq <;> rw [heq] at h1
    · exact endTxn_sound h1
    · exact modSlot_sound (modClu_sound h1)
    · exact sound_ite (waitBlocks_sound h1) (ih (stageEntry_sound h1))

theorem writeAll_sound {m} (h : s.Sound t) : s.Sound (t.writeAll m) := sound_foldl (fun _ _ k2 => pump_sound k2) _ (h)

theorem validateIndex_sound {e n c x w0 w} (h : s.Sound t) : s.Sound (t.validateIndex e n c x w0 w) := validate_sound h

theorem execCommitValidate_sound {e c} (h : s.Sound t) : OnlyNext s.Sound (execCommitValidate e c t) := by
  unfold execCommitValidate
  show s.Sound _
  split
  · exact sound_ite (validateIndex_sound h) (h)
  · exact h

theorem execStagingBlocksFree_sound {k} (h : s.Sound t) : OnlyNext s.Sound (execStagingBlocksFree k t) := by
  unfold execStagingBlocksFree
  show s.Sound _
  split
  · split
    · split
      · exact validateIndex_sound h
      · exact h
    · exact h
  · exact h

theorem moverGo_sound {m} (h : s.Sound t) : s.Sound (t.moverGo m) := sound_ite (h) (writeAll_sound (serve_sound (pace_sound
    (writeAll_sound h))))

theorem execWdraw_sound {m x1} (h : s.Sound t) : OnlyNext s.Sound (execWdraw m x1 t) := moverGo_sound (modMover_sound h)

theorem execDescriptorTake_sound {m ch} (h : s.Sound t) : OnlyNext s.Sound (execDescriptorTake m ch t) :=
  sound_ite (h) (sound_ite (setChan_sound h) (moverGo_sound (setChan_sound h)))

theorem execBurstComplete_sound {m ch i data poison} (h : s.Sound t) : OnlyNext s.Sound (execBurstComplete m ch i data poison t) := by
  unfold execBurstComplete
  show s.Sound _
  split
  · exact moverGo_sound h
  · exact sound_ite (moverGo_sound h) (sound_ite (moverGo_sound (setChan_sound h)) (by
      split
      · exact sound_ite (h) (moverGo_sound (modChan_sound (arrived_sound h)))
      · exact h))

theorem execNvmeCompletion_sound {m ch st} (h : s.Sound t) : OnlyNext s.Sound (execNvmeCompletion m ch st t) := by
  unfold execNvmeCompletion
  show s.Sound _
  split
  · exact sound_ite (endOrphan_sound (blockData_sound h)) (endOrphan_sound (unknownBlocks_sound h))
  · split
    · exact sound_ite (h) (sound_ite (moverGo_sound (endBlock_sound (blockData_sound h))) (moverGo_sound (endBlock_sound
          (unknownBlocks_sound h))))
    · exact h

theorem execPacingPeriod_sound {m x1} (h : s.Sound t) : OnlyNext s.Sound (execPacingPeriod m x1 t) :=
  sound_ite (h) (moverGo_sound (sound_ite (wakeFor_sound (modMover_sound h)) (modMover_sound h)))

theorem execDescriptorComplete_sound {m ch} (h : s.Sound t) : OnlyNext s.Sound (execDescriptorComplete m ch t) := by
  unfold execDescriptorComplete
  show s.Sound _
  split
  · exact sound_ite (h) (sound_ite (emit_sound (setChan_sound h)) (moverGo_sound (finish_sound h)))
  · exact h

theorem lateRead_sound {m ch c data} (h : s.Sound t) : s.Sound (t.lateRead m ch c data) := by
  unfold State.lateRead
  split
  · exact sound_ite (h) (by
      split
      · exact moverGo_sound (modChan_sound (keepLate_sound (aer_sound h)))
      · exact moverGo_sound (modChan_sound (aer_sound h)))
  · exact h

theorem execAbortChannel_sound {m ch} (h : s.Sound t) : OnlyNext s.Sound (execAbortChannel m ch t) := by
  unfold execAbortChannel
  exact sound_ite (h) (by
    split
    · exact modMover_sound (modChan_sound h)
    · exact h
    · exact h
    · exact h
    · split
      · exact modMover_sound (modChan_sound h)
      · split
        · exact setChan_sound h
        · exact sound_ite (setChan_sound h) (sound_ite (finish_sound (setChan_sound h)) (sound_ite (moverGo_sound (setChan_sound h))
              (moverGo_sound (finish_sound (setChan_sound h))))))

theorem chctlWrite_sound {m n v} (h : s.Sound t) : s.Sound (t.chctlWrite m n v) :=
  sound_ite (stateOf_sound (execKick_sound (sound_ite (stateOf_sound (execAbortChannel_sound (sound_ite (stateOf_sound (execResume_sound
        (sound_ite (stateOf_sound (execResetChannel_sound h)) (h)))) (sound_ite (stateOf_sound (execResetChannel_sound h)) (h)))))
        (sound_ite (stateOf_sound (execResume_sound (sound_ite (stateOf_sound (execResetChannel_sound h)) (h)))) (sound_ite
        (stateOf_sound (execResetChannel_sound h)) (h)))))) (sound_ite (stateOf_sound (execAbortChannel_sound (sound_ite (stateOf_sound
        (execResume_sound (sound_ite (stateOf_sound (execResetChannel_sound h)) (h)))) (sound_ite (stateOf_sound
        (execResetChannel_sound h)) (h))))) (sound_ite (stateOf_sound (execResume_sound (sound_ite (stateOf_sound
        (execResetChannel_sound h)) (h)))) (sound_ite (stateOf_sound (execResetChannel_sound h)) (h))))

theorem regWrite_sound {r addr v x4} (h : s.Sound t) : s.Sound (t.regWrite r addr v x4) := by
  unfold State.regWrite
  split
  · exact sound_ite (stateOf_sound (execGlbLockWrite_sound h)) (h)
  · exact modRegs_sound h rfl
  · exact stateOf_sound (execGlbBootokWrite_sound h)
  · exact sound_ite (stateOf_sound (execPflush_sound h)) (h)
  · exact modRegs_sound h rfl
  · exact tlbinvWrite_sound h
  · exact modRegs_sound h rfl
  · exact lkWrite_sound h (modRegs_sound h rfl)
  · exact modHedge_sound h
  · exact sound_ite (h) (sound_upd (h) rfl rfl rfl rfl)
  · exact pairWrite_sound h
  · exact sound_ite (h) (modHedge_sound h)
  · exact sound_ite (h) (setZone_sound h)
  · exact sound_ite (h) (repointAll_sound (modRegs_sound h rfl))
  · exact sound_ite (h) (modRegs_sound h rfl)
  · exact stateOf_sound (execPwrCctlWrite_sound h)
  · exact modHedge_sound h
  · exact modHedge_sound h
  · exact lkWrite_sound h (sound_ite (h) (modRegs_sound h rfl))
  · exact lkWrite_sound h (sound_ite (h) (sound_upd (h) rfl rfl rfl rfl))
  · exact lkWrite_sound h (sound_upd (h) rfl rfl rfl rfl)
  · exact linkctlWrite_sound h
  · exact lkWrite_sound h (sound_ite (h) (modRegs_sound h rfl))
  · exact modRegs_sound h rfl
  · exact sound_ite (modRegs_sound h rfl) (h)
  · exact setPort_sound h
  · exact sound_ite (h) (sound_ite (stateOf_sound (execHaltclr_sound (modMover_sound h))) (modMover_sound h))
  · exact modMover_sound h
  · exact modMover_sound h
  · exact moverGo_sound (modMover_sound h)
  · exact stateOf_sound (execMovChannelConfigWrite_sound h)
  · exact stateOf_sound (execMovChannelConfigWrite_sound h)
  · exact chctlWrite_sound h
  · exact mcReg_sound h
  · exact mcReg_sound h
  · exact mcReg_sound h
  · exact mcReg_sound h
  · exact mcReg_sound h
  · exact mcReg_sound h
  · exact stateOf_sound (execEngRoleWrite_sound h)
  · exact stateOf_sound (execEngCtlWrite_sound h)
  · exact stateOf_sound (execEngSwinWrite_sound h)
  · exact stateOf_sound (execEngCptWrite_sound h)
  · exact stateOf_sound (execEngWdogWrite_sound h)
  · exact modEng_sound h
  · exact stateOf_sound (execContextWindowWrite_sound h)
  · exact h

theorem execMoverTimeout_sound {m ch data} (h : s.Sound t) : OnlyNext s.Sound (execMoverTimeout m ch data t) := by
  unfold execMoverTimeout
  show s.Sound _
  split
  · exact sound_ite (blockLate_sound (endOrphan_sound (unknownBlocks_sound h))) (h)
  · split
    · exact sound_ite (sound_ite (moverGo_sound (blockLate_sound (endBlock_sound (unknownBlocks_sound h)))) (h)) (lateRead_sound h)
    · exact lateRead_sound h

theorem execRegisterWrite_sound {r a v} (h : s.Sound t) : OnlyNext s.Sound (execRegisterWrite r a v t) := by
  unfold execRegisterWrite
  exact sound_ite (h) (by
    split
    · exact regWrite_sound h
    · split
      · exact sound_ite (stateOf_sound (execMcBroadcastWrite_sound h)) (h)
      · exact h)

/-- A reset of the device leaves `t` of `s`: every register as at reset and no engine, cluster or slot in use; the queue, the form of the
memories and the fuses stay. -/
structure State.Returned (s t : State) : Prop where
  pending : t.pending = s.pending
  memory : s.memOk = true → t.memOk = true
  regs : t.regs = Regs.reset
  engines : t.engines = []
  clus : t.clus = []
  slots : t.slots = []
  revoke : t.keeper.revoke = s.keeper.revoke
  svnf : t.keeper.svnf = s.keeper.svnf
  debugLock : t.keeper.debugLock = s.keeper.debugLock

/-- What every command but the two that blow fuses does. -/
def State.SoundOrReset (s t : State) : Prop := s.Sound t ∨ s.Returned t

theorem OnlyNext.or_reset {o : Outcome State Fault Refusal} (h : OnlyNext s.Sound o) : OnlyNext s.SoundOrReset o := by
  cases o with
  | next t => exact Or.inl h
  | fault f => exact h.elim
  | refused r => exact h.elim

theorem State.Returned.of_sound {u : State} (h : s.Sound t) (k : t.Returned u) : s.Returned u where
  pending := k.pending.trans h.pending
  memory := k.memory ∘ h.memory
  regs := k.regs
  engines := k.engines
  clus := k.clus
  slots := k.slots
  revoke := k.revoke.trans h.revoke
  svnf := k.svnf.trans h.svnf
  debugLock := k.debugLock.trans h.debugLock

/-- A change of the keeper's other fields, and of what only the outside sees, follows a reset. -/
theorem State.Returned.upd {u : State} (k : s.Returned t) (hu : t.Sound u) (hr : u.regs = t.regs) (he : u.engines = t.engines)
    (hc : u.clus = t.clus) (hs : u.slots = t.slots) : s.Returned u where
  pending := hu.pending.trans k.pending
  memory := hu.memory ∘ k.memory
  regs := hr.trans k.regs
  engines := he.trans k.engines
  clus := hc.trans k.clus
  slots := hs.trans k.slots
  revoke := hu.revoke.trans k.revoke
  svnf := hu.svnf.trans k.svnf
  debugLock := hu.debugLock.trans k.debugLock

theorem deviceReset_returned (s : State) (n : Nat) : s.Returned (s.deviceReset n) := by
  have h := deviceReset_asReset s n
  have hd : ∀ u : State, u.Sound u.dirToHbm := fun u => dirToHbm_sound (.refl u)
  exact
    { pending := (hd _).pending
      memory := fun m => (hd _).memory ((memOk_iff _).2 ⟨rfl, rfl, ((memOk_iff s).1 m).2.2⟩)
      regs := h.regs, engines := h.engines, clus := h.clus, slots := h.slots
      revoke := (hd _).revoke, svnf := (hd _).svnf, debugLock := (hd _).debugLock }

/-- A reset after a power failure of the device. -/
theorem powerFail_deviceReset_returned (h : s.Sound t) (n : Nat) : s.Returned (t.powerFail.deviceReset n) :=
  .of_sound (powerFail_sound h) (deviceReset_returned _ n)

/-- A fold of changes of functions touches no register, engine, cluster or slot. -/
theorem foldl_fns_rest {f : State → FnId → State}
    (hf : ∀ u i, (f u i).regs = u.regs ∧ (f u i).engines = u.engines ∧ (f u i).clus = u.clus ∧ (f u i).slots = u.slots) (l : List FnId) :
    ∀ u : State, (l.foldl f u).regs = u.regs ∧ (l.foldl f u).engines = u.engines ∧ (l.foldl f u).clus = u.clus ∧
      (l.foldl f u).slots = u.slots := by
  induction l with
  | nil => exact fun u => ⟨rfl, rfl, rfl, rfl⟩
  | cons i l ih =>
    intro u
    obtain ⟨hr, he, hc, hs⟩ := hf u i
    obtain ⟨kr, ke, kc, ks⟩ := ih (f u i)
    exact ⟨kr.trans hr, ke.trans he, kc.trans hc, ks.trans hs⟩

theorem faulted_rest (t : State) : t.faulted.regs = t.regs ∧ t.faulted.engines = t.engines ∧ t.faulted.clus = t.clus ∧
    t.faulted.slots = t.slots := by
  unfold State.faulted
  refine foldl_fns_rest (fun u i => ?_) allFns { t with devstat := 3 }
  split <;> exact ⟨rfl, rfl, rfl, rfl⟩

theorem noBoot_rest (c : BootCause) : (t.noBoot c).regs = t.regs ∧ (t.noBoot c).engines = t.engines ∧ (t.noBoot c).clus = t.clus ∧
    (t.noBoot c).slots = t.slots := by
  unfold State.noBoot State.pfOnly State.emit
  simp only [faulted_rest, and_self]

theorem lastResort_returned {a c d} (h : s.Sound t) : s.Returned (t.lastResort a c d) := by
  have h1 := powerFail_deviceReset_returned (t := { t.alarm a with keeper := { (t.alarm a).keeper with nor := (t.alarm a).keeper.nor ++ [controlRecord t 3 c d] } })
    (sound_upd (alarm_sound h) rfl rfl rfl rfl) 1
  unfold State.lastResort
  dsimp only
  split
  · obtain ⟨hr, he, hc, hs⟩ := noBoot_rest (t := { (State.deviceReset _ 1) with keeper := { (State.deviceReset _ 1).keeper with resets := _ } }) .restarts
    exact h1.upd (noBoot_sound (sound_upd (.refl _) rfl rfl rfl rfl)) hr he hc hs
  · exact h1.upd (sound_upd (.refl _) rfl rfl rfl rfl) rfl rfl rfl rfl

section
variable (s)

theorem execSysRstAssert_soundOrReset : OnlyNext s.SoundOrReset (execSysRstAssert s) := by
  show s.SoundOrReset (if _ then _ else _)
  split
  · exact .inl (.refl s)
  · exact .inr ((powerFail_deviceReset_returned (.refl s) 0).upd (sound_upd (.refl _) rfl rfl rfl rfl) rfl rfl rfl rfl)

theorem execCrystalLoss_soundOrReset : OnlyNext s.SoundOrReset (execCrystalLoss s) := by
  show s.SoundOrReset (if _ then _ else _)
  split
  · exact .inl (.refl s)
  · exact .inr ((powerFail_deviceReset_returned (.refl s) 0).upd (sound_upd (.refl _) rfl rfl rfl rfl) rfl rfl rfl rfl)

theorem execKeeperStart_soundOrReset : OnlyNext s.SoundOrReset (execKeeperStart s) :=
  .inr ((deviceReset_returned s 0).upd ⟨rfl, id, id, (deviceReset_returned s 0).revoke.symm, (deviceReset_returned s 0).svnf.symm,
    (deviceReset_returned s 0).debugLock.symm⟩ rfl rfl rfl rfl)

theorem execBootWatchdog_soundOrReset : OnlyNext s.SoundOrReset (execBootWatchdog s) := by
  show s.SoundOrReset (if _ then _ else _)
  split
  · obtain ⟨hr, hs, hd⟩ := setCount_fuses (s.deviceReset 1).keeper s.keeper.slotB (s.keeper.count s.keeper.slotB + 1)
    exact .inr ((deviceReset_returned s 1).upd (sound_upd (.refl _) rfl hr hs hd) rfl rfl rfl rfl)
  · exact .inl (.refl s)

theorem execPwrFailRestart_soundOrReset : OnlyNext s.SoundOrReset (execPwrFailRestart s) := by
  show s.SoundOrReset (if _ then _ else _)
  split
  · exact .inr (deviceReset_returned s 1)
  · exact .inl (.refl s)

theorem execHeartbeatLoss_soundOrReset {i} : OnlyNext s.SoundOrReset (execHeartbeatLoss i s) := by
  show s.SoundOrReset (if _ then _ else _)
  split
  · exact .inr (lastResort_returned (.refl s))
  · exact .inl (.refl s)

theorem execKeeperLastResort_soundOrReset {nor} : OnlyNext s.SoundOrReset (execKeeperLastResort nor s) := by
  show s.SoundOrReset (if _ then _ else _)
  obtain ⟨hr, hs, hd⟩ := program_fuses s.keeper s.keeper.slotB { s.keeper.img s.keeper.slotB with sigOk := false }
  split
  · split
    · exact .inr (lastResort_returned (sound_upd (.refl s) rfl hr hs hd))
    · exact .inl (.refl s)
  · split
    · exact .inr (lastResort_returned (.refl s))
    · exact .inl (.refl s)

/-- A request for the fuses and a commit of the version floor blow them. -/
def blowsFuses : Instr → Bool
  | .fuseRequest _ _ => true
  | .svnCommit => true
  | _ => false

/-- Every other command leaves the lock, the fuses and the queue, or resets the device. -/
theorem exec_soundOrReset : ∀ (i : Instr), blowsFuses i = false → OnlyNext s.SoundOrReset (exec i s)
  | .fuseRequest _ _, h => by cases h
  | .svnCommit, h => by cases h
  | .nop _, _ => (execNop_sound (.refl s)).or_reset
  | .dup _, _ => (execDup_sound (.refl s)).or_reset
  | .drop _, _ => (execDrop_sound (.refl s)).or_reset
  | .swap _, _ => (execSwap_sound (.refl s)).or_reset
  | .over _, _ => (execOver_sound (.refl s)).or_reset
  | .rot _, _ => (execRot_sound (.refl s)).or_reset
  | .nip _, _ => (execNip_sound (.refl s)).or_reset
  | .tuck _, _ => (execTuck_sound (.refl s)).or_reset
  | .pick _ _, _ => (execPick_sound (.refl s)).or_reset
  | .dup2 _, _ => (execDup2_sound (.refl s)).or_reset
  | .drop2 _, _ => (execDrop2_sound (.refl s)).or_reset
  | .ldl _ _, _ => (execLdl_sound (.refl s)).or_reset
  | .stl _ _, _ => (execStl_sound (.refl s)).or_reset
  | .pushiS _ _, _ => (execPushiS_sound (.refl s)).or_reset
  | .pushiL _ _, _ => (execPushiL_sound (.refl s)).or_reset
  | .pushd _ _, _ => (execPushd_sound (.refl s)).or_reset
  | .pushfp _ _, _ => (execPushfp_sound (.refl s)).or_reset
  | .pusha _ _, _ => (execPusha_sound (.refl s)).or_reset
  | .pushtrue _, _ => (execPushtrue_sound (.refl s)).or_reset
  | .pushfalse _, _ => (execPushfalse_sound (.refl s)).or_reset
  | .pushnil _, _ => (execPushnil_sound (.refl s)).or_reset
  | .add _, _ => (execAdd_sound (.refl s)).or_reset
  | .sub _, _ => (execSub_sound (.refl s)).or_reset
  | .mul _, _ => (execMul_sound (.refl s)).or_reset
  | .div _, _ => (execDiv_sound (.refl s)).or_reset
  | .rem _, _ => (execRem_sound (.refl s)).or_reset
  | .cmp _, _ => (execCmp_sound (.refl s)).or_reset
  | .neg _, _ => (execNeg_sound (.refl s)).or_reset
  | .abs _, _ => (execAbs_sound (.refl s)).or_reset
  | .muli _, _ => (execMuli_sound (.refl s)).or_reset
  | .and _, _ => (execAnd_sound (.refl s)).or_reset
  | .or _, _ => (execOr_sound (.refl s)).or_reset
  | .xor _, _ => (execXor_sound (.refl s)).or_reset
  | .not _, _ => (execNot_sound (.refl s)).or_reset
  | .shl _, _ => (execShl_sound (.refl s)).or_reset
  | .shr _, _ => (execShr_sound (.refl s)).or_reset
  | .sar _, _ => (execSar_sound (.refl s)).or_reset
  | .fadd _, _ => (execFadd_sound (.refl s)).or_reset
  | .fsub _, _ => (execFsub_sound (.refl s)).or_reset
  | .fmul _, _ => (execFmul_sound (.refl s)).or_reset
  | .fma _, _ => (execFma_sound (.refl s)).or_reset
  | .fdiv _, _ => (execFdiv_sound (.refl s)).or_reset
  | .fsqrt _, _ => (execFsqrt_sound (.refl s)).or_reset
  | .dmul _, _ => (execDmul_sound (.refl s)).or_reset
  | .ddiv _, _ => (execDdiv_sound (.refl s)).or_reset
  | .dshl _ _, _ => (execDshl_sound (.refl s)).or_reset
  | .dshr _ _, _ => (execDshr_sound (.refl s)).or_reset
  | .drnd _ _, _ => (execDrnd_sound (.refl s)).or_reset
  | .pack _ _, _ => (execPack_sound (.refl s)).or_reset
  | .unpk _ _, _ => (execUnpk_sound (.refl s)).or_reset
  | .dcmp _, _ => (execDcmp_sound (.refl s)).or_reset
  | .tagof _, _ => (execTagof_sound (.refl s)).or_reset
  | .cvti _, _ => (execCvti_sound (.refl s)).or_reset
  | .cvtd _, _ => (execCvtd_sound (.refl s)).or_reset
  | .cvtf _, _ => (execCvtf_sound (.refl s)).or_reset
  | .br _ _ _, _ => (execBr_sound (.refl s)).or_reset
  | .brz _ _ _, _ => (execBrz_sound (.refl s)).or_reset
  | .brnz _ _ _, _ => (execBrnz_sound (.refl s)).or_reset
  | .brt _ _ _, _ => (execBrt_sound (.refl s)).or_reset
  | .call _ _, _ => (execCall_sound (.refl s)).or_reset
  | .ret _, _ => (execRet_sound (.refl s)).or_reset
  | .callm _ _, _ => (execCallm_sound (.refl s)).or_reset
  | .retm _, _ => (execRetm_sound (.refl s)).or_reset
  | .reti _, _ => (execReti_sound (.refl s)).or_reset
  | .callx _, _ => (execCallx_sound (.refl s)).or_reset
  | .ld _ _, _ => (execLd_sound (.refl s)).or_reset
  | .lds _ _, _ => (execLds_sound (.refl s)).or_reset
  | .ldf _ _, _ => (execLdf_sound (.refl s)).or_reset
  | .st _ _, _ => (execSt_sound (.refl s)).or_reset
  | .xadd _ _, _ => (execXadd_sound (.refl s)).or_reset
  | .xchg _ _, _ => (execXchg_sound (.refl s)).or_reset
  | .cas _ _, _ => (execCas_sound (.refl s)).or_reset
  | .rld _, _ => (execRld_sound (.refl s)).or_reset
  | .rst _, _ => (execRst_sound (.refl s)).or_reset
  | .rlock _ _, _ => (execRlock_sound (.refl s)).or_reset
  | .rpref _, _ => (execRpref_sound (.refl s)).or_reset
  | .commit _, _ => (execCommit_sound (.refl s)).or_reset
  | .abort _, _ => (execAbort_sound (.refl s)).or_reset
  | .stage _, _ => (execStage_sound (.refl s)).or_reset
  | .waitev _, _ => (execWaitev_sound (.refl s)).or_reset
  | .sigev _, _ => (execSigev_sound (.refl s)).or_reset
  | .yield _, _ => (execYield_sound (.refl s)).or_reset
  | .mvst _, _ => (execMvst_sound (.refl s)).or_reset
  | .mvtr _, _ => (execMvtr_sound (.refl s)).or_reset
  | .cmst _, _ => (execCmst_sound (.refl s)).or_reset
  | .scst _, _ => (execScst_sound (.refl s)).or_reset
  | .edit _, _ => (execEdit_sound (.refl s)).or_reset
  | .edmk _, _ => (execEdmk_sound (.refl s)).or_reset
  | .tli _, _ => (execTli_sound (.refl s)).or_reset
  | .setrm _, _ => (execSetrm_sound (.refl s)).or_reset
  | .rdpsw _, _ => (execRdpsw_sound (.refl s)).or_reset
  | .setm _, _ => (execSetm_sound (.refl s)).or_reset
  | .setkey _, _ => (execSetkey_sound (.refl s)).or_reset
  | .setfp _, _ => (execSetfp_sound (.refl s)).or_reset
  | .setg _, _ => (execSetg_sound (.refl s)).or_reset
  | .clrg _, _ => (execClrg_sound (.refl s)).or_reset
  | .busyCountElapsed _ _, _ => (execBusyCountElapsed_sound (.refl s)).or_reset
  | .storeBufferDrain _, _ => (execStoreBufferDrain_sound (.refl s)).or_reset
  | .eventTake _ _, _ => (execEventTake_sound (.refl s)).or_reset
  | .noticeDelivery _ _ _ _, _ => (execNoticeDelivery_sound (.refl s)).or_reset
  | .watchdog _ _, _ => (execWatchdog_sound (.refl s)).or_reset
  | .machineCheck _ _ _, _ => (execMachineCheck_sound (.refl s)).or_reset
  | .quarantineEnd _ _, _ => (execQuarantineEnd_sound (.refl s)).or_reset
  | .engineMessageArrival _, _ => (execEngineMessageArrival_sound (.refl s)).or_reset
  | .bounceDisposal _, _ => (execBounceDisposal_sound (.refl s)).or_reset
  | .rldComplete _ _, _ => (execRldComplete_sound (.refl s)).or_reset
  | .rlockComplete _ _, _ => (execRlockComplete_sound (.refl s)).or_reset
  | .rprefAck _ _, _ => (execRprefAck_sound (.refl s)).or_reset
  | .stageComplete _ _, _ => (execStageComplete_sound (.refl s)).or_reset
  | .waitevWake _, _ => (execWaitevWake_sound (.refl s)).or_reset
  | .waitevTimeout _, _ => (execWaitevTimeout_sound (.refl s)).or_reset
  | .commitOutcome _ _, _ => (execCommitOutcome_sound (.refl s)).or_reset
  | .engRoleWrite _ _ _, _ => (execEngRoleWrite_sound (.refl s)).or_reset
  | .engineClear _ _, _ => (execEngineClear_sound (.refl s)).or_reset
  | .engineClearComplete _, _ => (execEngineClearComplete_sound (.refl s)).or_reset
  | .engSwinWrite _ _ _, _ => (execEngSwinWrite_sound (.refl s)).or_reset
  | .engCptWrite _ _ _, _ => (execEngCptWrite_sound (.refl s)).or_reset
  | .engWdogWrite _ _ _, _ => (execEngWdogWrite_sound (.refl s)).or_reset
  | .engCtlWrite _ _ _, _ => (execEngCtlWrite_sound (.refl s)).or_reset
  | .contextWindowWrite _ _ _ _ _, _ => (execContextWindowWrite_sound (.refl s)).or_reset
  | .park _ _, _ => (execPark_sound (.refl s)).or_reset
  | .unpark _ _ _, _ => (execUnpark_sound (.refl s)).or_reset
  | .parkWaitTimeout _ _, _ => (execParkWaitTimeout_sound (.refl s)).or_reset
  | .sqDoorbell _ _, _ => (execSqDoorbell_sound (.refl s)).or_reset
  | .commandRead _ _ _ _, _ => (execCommandRead_sound (.refl s)).or_reset
  | .submitReread _ _ _ _, _ => (execSubmitReread_sound (.refl s)).or_reset
  | .startBlockDiscard _, _ => (execStartBlockDiscard_sound (.refl s)).or_reset
  | .firmwareDispatch _ _ _, _ => (execFirmwareDispatch_sound (.refl s)).or_reset
  | .run _ _ _ _, _ => (execRun_sound (.refl s)).or_reset
  | .read _, _ => (execRead_sound (.refl s)).or_reset
  | .signal _, _ => (execSignal_sound (.refl s)).or_reset
  | .epset _, _ => (execEpset_sound (.refl s)).or_reset
  | .map _, _ => (execMap_sound (.refl s)).or_reset
  | .resync _, _ => (execResync_sound (.refl s)).or_reset
  | .scan _, _ => (execScan_sound (.refl s)).or_reset
  | .bulk _ _, _ => (execBulk_sound (.refl s)).or_reset
  | .checkpoint _, _ => (execCheckpoint_sound (.refl s)).or_reset
  | .rebuild _ _, _ => (execRebuild_sound (.refl s)).or_reset
  | .longStepTimeLimit _, _ => (execLongStepTimeLimit_sound (.refl s)).or_reset
  | .tokenExpiry _ _, _ => (execTokenExpiry_sound (.refl s)).or_reset
  | .identify _, _ => (execIdentify_sound (.refl s)).or_reset
  | .createHedge _ _, _ => (execCreateHedge_sound (.refl s)).or_reset
  | .setHedge _ _, _ => (execSetHedge_sound (.refl s)).or_reset
  | .destroyHedge _, _ => (execDestroyHedge_sound (.refl s)).or_reset
  | .register _ _, _ => (execRegister_sound (.refl s)).or_reset
  | .unregister _, _ => (execUnregister_sound (.refl s)).or_reset
  | .loadTable _ _ _, _ => (execLoadTable_sound (.refl s)).or_reset
  | .telemetry _, _ => (execTelemetry_sound (.refl s)).or_reset
  | .fwUpdate _ _ _, _ => (execFwUpdate_sound (.refl s)).or_reset
  | .ringEnable _, _ => (execRingEnable_sound (.refl s)).or_reset
  | .ringDisable _, _ => (execRingDisable_sound (.refl s)).or_reset
  | .sqrestart _, _ => (execSqrestart_sound (.refl s)).or_reset
  | .cqDoorbell _ _, _ => (execCqDoorbell_sound (.refl s)).or_reset
  | .eqDoorbell _ _, _ => (execEqDoorbell_sound (.refl s)).or_reset
  | .dhpConfigWrite _ _ _ _, _ => (execDhpConfigWrite_sound (.refl s)).or_reset
  | .functionLevelReset _, _ => (execFunctionLevelReset_sound (.refl s)).or_reset
  | .hostPortReset _, _ => (execHostPortReset_sound (.refl s)).or_reset
  | .d3hotEntry _, _ => (execD3hotEntry_sound (.refl s)).or_reset
  | .completionPost _, _ => (execCompletionPost_sound (.refl s)).or_reset
  | .vector0Timer _, _ => (execVector0Timer_sound (.refl s)).or_reset
  | .lockRequest _ _, _ => (execLockRequest_sound (.refl s)).or_reset
  | .lockRelease _ _, _ => (execLockRelease_sound (.refl s)).or_reset
  | .releaseConfirm _, _ => (execReleaseConfirm_sound (.refl s)).or_reset
  | .wound _, _ => (execWound_sound (.refl s)).or_reset
  | .endNotice _, _ => (execEndNotice_sound (.refl s)).or_reset
  | .woundRestart _, _ => (execWoundRestart_sound (.refl s)).or_reset
  | .commitValidate _ _, _ => (execCommitValidate_sound (.refl s)).or_reset
  | .stagingBlocksFree _, _ => (execStagingBlocksFree_sound (.refl s)).or_reset
  | .commitAdmission _, _ => (execCommitAdmission_sound (.refl s)).or_reset
  | .throttleTimeout _, _ => (execThrottleTimeout_sound (.refl s)).or_reset
  | .mediaMark _, _ => (execMediaMark_sound (.refl s)).or_reset
  | .lehrEntryWrite _, _ => (execLehrEntryWrite_sound (.refl s)).or_reset
  | .lehrEntryDurable _, _ => (execLehrEntryDurable_sound (.refl s)).or_reset
  | .deltaApply _ _, _ => (execDeltaApply_sound (.refl s)).or_reset
  | .applyNotice _, _ => (execApplyNotice_sound (.refl s)).or_reset
  | .drainWriteComplete _, _ => (execDrainWriteComplete_sound (.refl s)).or_reset
  | .drainWriteFail _, _ => (execDrainWriteFail_sound (.refl s)).or_reset
  | .flushRequest, _ => (execFlushRequest_sound (.refl s)).or_reset
  | .lehrFullTimeout, _ => (execLehrFullTimeout_sound (.refl s)).or_reset
  | .checkpointAdvance _, _ => (execCheckpointAdvance_sound (.refl s)).or_reset
  | .mirrorEntry _ _ _, _ => (execMirrorEntry_sound (.refl s)).or_reset
  | .mirrorAck _, _ => (execMirrorAck_sound (.refl s)).or_reset
  | .pairTimeout, _ => (execPairTimeout_sound (.refl s)).or_reset
  | .lehrFence _, _ => (execLehrFence_sound (.refl s)).or_reset
  | .journalHole _, _ => (execJournalHole_sound (.refl s)).or_reset
  | .replay, _ => (execReplay_sound (.refl s)).or_reset
  | .ringReopen _, _ => (execRingReopen_sound (.refl s)).or_reset
  | .pageWalk _ _, _ => (execPageWalk_sound (.refl s)).or_reset
  | .markRequest _ _, _ => (execMarkRequest_sound (.refl s)).or_reset
  | .pageStageIn _ _ _, _ => (execPageStageIn_sound (.refl s)).or_reset
  | .pageEvict _ _, _ => (execPageEvict_sound (.refl s)).or_reset
  | .pageAge _ _, _ => (execPageAge_sound (.refl s)).or_reset
  | .tlbinvPage _ _ _, _ => (execTlbinvPage_sound (.refl s)).or_reset
  | .tlbinvHedge _ _ _, _ => (execTlbinvHedge_sound (.refl s)).or_reset
  | .tlbinvFrame _ _, _ => (execTlbinvFrame_sound (.refl s)).or_reset
  | .tlbinvAll _ _, _ => (execTlbinvAll_sound (.refl s)).or_reset
  | .tlbinvComplete, _ => (execTlbinvComplete_sound (.refl s)).or_reset
  | .eventUnitWait _, _ => (execEventUnitWait_sound (.refl s)).or_reset
  | .eventUnitSignal _, _ => (execEventUnitSignal_sound (.refl s)).or_reset
  | .moverSignal _ _, _ => (execMoverSignal_sound (.refl s)).or_reset
  | .eventUnitDeadlock _, _ => (execEventUnitDeadlock_sound (.refl s)).or_reset
  | .pruningPass, _ => (execPruningPass_sound (.refl s)).or_reset
  | .kick _ _, _ => (execKick_sound (.refl s)).or_reset
  | .abortChannel _ _, _ => (execAbortChannel_sound (.refl s)).or_reset
  | .resume _ _, _ => (execResume_sound (.refl s)).or_reset
  | .resetChannel _ _, _ => (execResetChannel_sound (.refl s)).or_reset
  | .haltclr _, _ => (execHaltclr_sound (.refl s)).or_reset
  | .wdraw _ _, _ => (execWdraw_sound (.refl s)).or_reset
  | .movChannelConfigWrite _ _ _ _, _ => (execMovChannelConfigWrite_sound (.refl s)).or_reset
  | .descriptorTake _ _, _ => (execDescriptorTake_sound (.refl s)).or_reset
  | .burstComplete _ _ _ _ _, _ => (execBurstComplete_sound (.refl s)).or_reset
  | .nvmeCompletion _ _ _, _ => (execNvmeCompletion_sound (.refl s)).or_reset
  | .descriptorComplete _ _, _ => (execDescriptorComplete_sound (.refl s)).or_reset
  | .pacingPeriod _ _, _ => (execPacingPeriod_sound (.refl s)).or_reset
  | .moverTimeout _ _ _, _ => (execMoverTimeout_sound (.refl s)).or_reset
  | .unexpectedCompletion _ _ _, _ => (execUnexpectedCompletion_sound (.refl s)).or_reset
  | .errHalt _ _ _ _ _, _ => (execErrHalt_sound (.refl s)).or_reset
  | .tempSample _ _ _, _ => (execTempSample_sound (.refl s)).or_reset
  | .thermalStepDown _, _ => (execThermalStepDown_sound (.refl s)).or_reset
  | .thermalStepUp _, _ => (execThermalStepUp_sound (.refl s)).or_reset
  | .powerControl _ _, _ => (execPowerControl_sound (.refl s)).or_reset
  | .energySettle _, _ => (execEnergySettle_sound (.refl s)).or_reset
  | .capacityEval, _ => (execCapacityEval_sound (.refl s)).or_reset
  | .effectiveMinEval, _ => (execEffectiveMinEval_sound (.refl s)).or_reset
  | .pointUpSwitch _, _ => (execPointUpSwitch_sound (.refl s)).or_reset
  | .pwrCctlWrite _ _ _, _ => (execPwrCctlWrite_sound (.refl s)).or_reset
  | .clusterC4Entry _, _ => (execClusterC4Entry_sound (.refl s)).or_reset
  | .clusterC1Entry _, _ => (execClusterC1Entry_sound (.refl s)).or_reset
  | .clusterC2Entry _, _ => (execClusterC2Entry_sound (.refl s)).or_reset
  | .clusterC3Entry _, _ => (execClusterC3Entry_sound (.refl s)).or_reset
  | .clusterWake _, _ => (execClusterWake_sound (.refl s)).or_reset
  | .clusterWakeComplete _, _ => (execClusterWakeComplete_sound (.refl s)).or_reset
  | .vcoreUndervolt, _ => (execVcoreUndervolt_sound (.refl s)).or_reset
  | .pwrFailAssert _, _ => (execPwrFailAssert_sound (.refl s)).or_reset
  | .pwrFailRestart, _ => execPwrFailRestart_soundOrReset s
  | .pwrBrakeAssert, _ => (execPwrBrakeAssert_sound (.refl s)).or_reset
  | .pwrBrakeRelease, _ => (execPwrBrakeRelease_sound (.refl s)).or_reset
  | .sysRstAssert, _ => execSysRstAssert_soundOrReset s
  | .startSequence _, _ => (execStartSequence_sound (.refl s)).or_reset
  | .keeperStart, _ => execKeeperStart_soundOrReset s
  | .crystalLoss, _ => execCrystalLoss_soundOrReset s
  | .bootWatchdog, _ => execBootWatchdog_soundOrReset s
  | .glbBootokWrite _ _, _ => (execGlbBootokWrite_sound (.refl s)).or_reset
  | .glbLockWrite _, _ => (execGlbLockWrite_sound (.refl s)).or_reset
  | .heartbeat _, _ => (execHeartbeat_sound (.refl s)).or_reset
  | .heartbeatLoss _, _ => execHeartbeatLoss_soundOrReset s
  | .keeperLastResort _, _ => execKeeperLastResort_soundOrReset s
  | .pflush _ _, _ => (execPflush_sound (.refl s)).or_reset
  | .mcPdata1Write _ _ _, _ => (execMcPdata1Write_sound (.refl s)).or_reset
  | .mcBroadcastWrite _ _ _, _ => (execMcBroadcastWrite_sound (.refl s)).or_reset
  | .clusterRemoval _, _ => (execClusterRemoval_sound (.refl s)).or_reset
  | .coderamRewrite _, _ => (execCoderamRewrite_sound (.refl s)).or_reset
  | .registerWrite _ _ _, _ => (execRegisterWrite_sound (.refl s)).or_reset
  | .registerReadClear _ _, _ => (execRegisterReadClear_sound (.refl s)).or_reset
  | .patrolScrub _ _ _ _, _ => (execPatrolScrub_sound (.refl s)).or_reset
  | .frameRetire _, _ => (execFrameRetire_sound (.refl s)).or_reset
  | .channelFail _, _ => (execChannelFail_sound (.refl s)).or_reset
  | .errorRecordWrite, _ => (execErrorRecordWrite_sound (.refl s)).or_reset
  | .linkUp _ _ _ _, _ => (execLinkUp_sound (.refl s)).or_reset
  | .linkBudgetExpiry _, _ => (execLinkBudgetExpiry_sound (.refl s)).or_reset
  | .retrain _ _, _ => (execRetrain_sound (.refl s)).or_reset
  | .identityMessage _ _, _ => (execIdentityMessage_sound (.refl s)).or_reset
  | .membershipSettle _, _ => (execMembershipSettle_sound (.refl s)).or_reset
  | .migrationRequest _ _ _ _ _, _ => (execMigrationRequest_sound (.refl s)).or_reset
  | .migrationDrain, _ => (execMigrationDrain_sound (.refl s)).or_reset
  | .migrationPrepared, _ => (execMigrationPrepared_sound (.refl s)).or_reset
  | .migrationMoved, _ => (execMigrationMoved_sound (.refl s)).or_reset
  | .snapshotRequest, _ => (execSnapshotRequest_sound (.refl s)).or_reset
  | .pause _, _ => (execPause_sound (.refl s)).or_reset
  | .paused _ _ _ _, _ => (execPaused_sound (.refl s)).or_reset
  | .snapshotPauseTimeout, _ => (execSnapshotPauseTimeout_sound (.refl s)).or_reset
  | .release _ _, _ => (execRelease_sound (.refl s)).or_reset
  | .mctpPowerLimit _, _ => (execMctpPowerLimit_sound (.refl s)).or_reset
  | .mctpTelemetry, _ => (execMctpTelemetry_sound (.refl s)).or_reset
  | .mctpErrorLog, _ => (execMctpErrorLog_sound (.refl s)).or_reset
  | .mctpControl _, _ => (execMctpControl_sound (.refl s)).or_reset
  | .storageLinkDown _, _ => (execStorageLinkDown_sound (.refl s)).or_reset
  | .pleachLinkDown _, _ => (execPleachLinkDown_sound (.refl s)).or_reset
  | .crystalRecovery, _ => (execCrystalRecovery_sound (.refl s)).or_reset
  | .perstDeassertion _ _ _ _, _ => (execPerstDeassertion_sound (.refl s)).or_reset
  | .d0Return _, _ => (execD0Return_sound (.refl s)).or_reset
  | .mirrorCopyRequest _ _ _, _ => (execMirrorCopyRequest_sound (.refl s)).or_reset
  | .mirrorCopyArrival _ _, _ => (execMirrorCopyArrival_sound (.refl s)).or_reset
  | .mirrorReclaimNotice _, _ => (execMirrorReclaimNotice_sound (.refl s)).or_reset
  | .migrationCopyReceive _, _ => (execMigrationCopyReceive_sound (.refl s)).or_reset
  | .engineLending _ _ _, _ => (execEngineLending_sound (.refl s)).or_reset
  | .alarmMessageRead, _ => (execAlarmMessageRead_sound (.refl s)).or_reset
  | .mctpOtherRequest _, _ => (execMctpOtherRequest_sound (.refl s)).or_reset
  | .outOfWindowRequest _ _, _ => (execOutOfWindowRequest_sound (.refl s)).or_reset
  | .hostUnsupportedRequest _ _ _, _ => (execHostUnsupportedRequest_sound (.refl s)).or_reset
  | .startWaitTimeout, _ => (execStartWaitTimeout_sound (.refl s)).or_reset

end

/-- A command that blows fuses unblows none, and leaves the rest of what no step breaks. -/
structure State.Blows (s t : State) : Prop where
  pending : t.pending = s.pending
  memory : s.memOk = true → t.memOk = true
  lock : s.regs.lock = true → t.regs.lock = true
  revoke : ∀ n : Fin 4, s.keeper.revoke[n] = true → t.keeper.revoke[n] = true
  svnf : s.keeper.svnf ≤ t.keeper.svnf
  debugLock : s.keeper.debugLock = true → t.keeper.debugLock = true

theorem State.Blows.refl (s : State) : s.Blows s := ⟨rfl, id, id, fun _ => id, le_rfl, id⟩

theorem State.Sound.blows (h : s.Sound t) : s.Blows t where
  pending := h.pending
  memory := h.memory
  lock := h.lock
  revoke := by rw [h.revoke]; exact fun _ => id
  svnf := h.svnf.ge
  debugLock := by rw [h.debugLock]; exact id

theorem blow_blows (q : FuseReq) : s.Blows { s with keeper := s.keeper.blow q } := by
  cases q with
  | revoke n => exact ⟨rfl, id, id, fun i hi => by simp [Keeper.blow, show s.keeper.revoke[i.val] = true from hi], le_rfl, id⟩
  | floor n => exact ⟨rfl, id, id, fun _ => id, le_max_left .., id⟩
  | debugLock => exact ⟨rfl, id, id, fun _ => id, le_rfl, fun _ => rfl⟩
  | unblow => exact .refl s

theorem execFuseRequest_blows (r : Requester) (q : FuseReq) : OnlyNext s.Blows (execFuseRequest r q s) := by
  cases r with
  | thread k =>
    show s.Blows (if _ then _ else _)
    split
    · exact (alarm_sound (.refl s)).blows
    · exact blow_blows q
  | jtag => exact .refl s
  | keeper => exact .refl s

theorem execSvnCommit_blows : OnlyNext s.Blows (execSvnCommit s) := by
  show s.Blows (match s.keeper.svnCommit with | some v => _ | none => s)
  split
  · split
    · exact ⟨rfl, id, id, fun _ => id, le_max_left .., id⟩
    · exact .refl s
  · exact .refl s

theorem OnlyNext.imp {P Q : State → Prop} (hPQ : ∀ t, P t → Q t) {o : Outcome State Fault Refusal} (h : OnlyNext P o) : OnlyNext Q o := by
  cases o with
  | next t => exact hPQ t h
  | fault f => exact h
  | refused r => exact h

/-- What every step does: it blows or resets. -/
theorem exec_blowsOrReturns (i : Instr) : OnlyNext (fun t => s.Blows t ∨ s.Returned t) (exec i s) := by
  by_cases hi : blowsFuses i = false
  · exact (exec_soundOrReset s i hi).imp fun _ h => h.imp_left State.Sound.blows
  · cases i with
    | fuseRequest r q => exact OnlyNext.imp (fun _ => .inl) (execFuseRequest_blows r q)
    | svnCommit => exact OnlyNext.imp (fun _ => .inl) execSvnCommit_blows
    | _ => exact absurd rfl hi

theorem step_blowsOrReturns : OnlyNext (fun t => ({ s with pending := s.pending.tail } : State).Blows t ∨
    ({ s with pending := s.pending.tail } : State).Returned t) (step s) := by
  unfold step
  split <;> rename_i hp <;> simp only [hp, List.tail]
  · exact exec_blowsOrReturns _
  · rw [← hp]
    exact .inl (tick_sound (.refl s)).blows

/-- A step answers a state that it blows to, or resets to, from the state without the command. -/
theorem step_next (s : State) : ∃ t, step s = .next t ∧ (({ s with pending := s.pending.tail } : State).Blows t ∨
    ({ s with pending := s.pending.tail } : State).Returned t) := by
  have h := step_blowsOrReturns (s := s)
  generalize step s = o at h
  cases o with
  | next t => exact ⟨t, rfl, h⟩
  | fault f => exact h.elim
  | refused r => exact h.elim

/-- Settles O56: no function of the model touches the queue, and every command answers a next state. -/
theorem everyStepAnswersAndTakesOneCommand : Obligations.EveryStepAnswersAndTakesOneCommand := by
  intro s
  obtain ⟨t, ht, h | h⟩ := step_next s
  · exact ⟨t, ht, h.pending⟩
  · exact ⟨t, ht, h.pending⟩

/-- Settles O57: every function of the model keeps the form of the memories. -/
theorem memoriesStayCanonical : Obligations.MemoriesStayCanonical := by
  intro s t hs ht
  obtain ⟨u, hu, h⟩ := step_next s
  obtain rfl : u = t := by rw [hu] at ht; exact Host.Outcome.next.inj ht
  exact h.elim (fun h => h.memory hs) fun h => h.memory hs

/-- A write of GLB_LOCK that reaches it sets LOCK, and one to a set LOCK changes nothing. -/
theorem glbLockWrite_lock (s : State) (r : Requester) : (s.regs.lock = true → exec (.glbLockWrite r) s = .next s) ∧
    (s.reaches r = true → exec (.glbLockWrite r) s = .next { s with regs := { s.regs with lock := true } }) := by
  have he : exec (.glbLockWrite r) s = .next (if s.reaches r then { s with regs := { s.regs with lock := true } } else s) := rfl
  refine ⟨fun hl => ?_, fun hr => by rw [he, if_pos hr]⟩
  have hs : ({ s with regs := { s.regs with lock := true } } : State) = s := by rw [← hl]
  rw [he, hs, ite_self]

/-- While LOCK is set a request for the fuses is only logged. -/
theorem fuseRequest_locked {r : Requester} {q : FuseReq} (hl : s.regs.lock = true) :
    OnlyNext s.Sound (exec (.fuseRequest r q) s) := by
  show OnlyNext s.Sound (execFuseRequest r q s)
  cases r with
  | thread k => simp only [execFuseRequest, hl, if_true]; exact alarm_sound (.refl s)
  | jtag => exact .refl s
  | keeper => exact .refl s

/-- Settles O58: every function of the model keeps a set LOCK and the fuses, but the two commands that blow fuses and the resets. -/
theorem theLockAndTheFusesGoOneWay : Obligations.TheLockAndTheFusesGoOneWay := by
  refine ⟨glbLockWrite_lock, fun s k v hv hw hk hp hf hr => ?_, fun s t ht => ?_⟩
  · refine ⟨_, rfl, ?_⟩
    simp [hr, hw, hv, hk, hp, hf]
  · obtain ⟨u, hu, h⟩ := step_next s
    obtain rfl : u = t := by rw [hu] at ht; exact Host.Outcome.next.inj ht
    have hfuse : ∀ r q, s.regs.lock = true → s.pending.head? = some (.fuseRequest r q) →
        u.keeper.revoke = s.keeper.revoke ∧ u.keeper.svnf = s.keeper.svnf ∧ u.keeper.debugLock = s.keeper.debugLock := by
      intro r q hl hq
      obtain ⟨rest, hp⟩ := List.head?_eq_some_iff.1 hq
      have h1 := fuseRequest_locked (s := { s with pending := rest }) (r := r) (q := q) hl
      rw [stepRunsTheFrontCommand s _ _ hp] at hu
      rw [hu] at h1
      exact ⟨h1.revoke, h1.svnf, h1.debugLock⟩
    obtain h | h := h
    · exact ⟨fun hl hn => absurd (h.lock hl) (by simp [hn]), h.revoke, h.svnf, h.debugLock, hfuse⟩
    · exact ⟨fun _ _ => ⟨h.regs, h.engines, h.clus, h.slots⟩, fun n hn => by rw [h.revoke]; exact hn, h.svnf.ge, fun hd => h.debugLock.trans hd, hfuse⟩

end Sys2Proof.Machine
end

section
/-! O60: the checks before an instruction's own ones, in their order. One lemma for each of them, over any instruction whose command is an
issue (05 R141). -/

namespace Sys2Proof.Machine

section
variable {s : State} {x : Iss} {o : OpInfo} {op : Nat} {body : Env → Engine → Ctx → Except SFault Done} {post : State → State}

/-- Out of its turn an instruction does nothing. -/
theorem issue_notIssued (h : s.running x.eng = false ∨ (s.eng x.eng).mayIssue x.ctx = false) : s.issue x o op body post = s := by
  have hn : (s.running x.eng && (s.eng x.eng).mayIssue x.ctx) = false := by rcases h with h | h <;> simp [h]
  simp [State.issue, State.attempt, State.corrected, hn]

/-- A byte outside the open code windows is the first fault. -/
theorem issue_fetchClosed {a : Nat} (hr : s.running x.eng = true) (hm : (s.eng x.eng).mayIssue x.ctx = true)
    (hf : (s.eng x.eng).fetchClosed (s.ctxAt x).pc.toNat (o.len x.px) = some a) : s.issue x o op body post = s.faults x (fKey 3 a) := by
  simp only [State.ctxAt] at hf
  simp [State.issue, State.attempt, State.corrected, State.faults, State.issuing, State.ctxAt, hr, hm, hf]

/-- The instruction is in its turn and its bytes are fetched without an error to correct. -/
structure State.fetched (s : State) (x : Iss) (o : OpInfo) : Prop where
  turn : (s.running x.eng && (s.eng x.eng).mayIssue x.ctx) = true
  opened : (s.eng x.eng).fetchClosed (s.ctxAt x).pc.toNat (o.len x.px) = none
  good : (!(s.eng x.eng).looped (s.ctxAt x).pc.toNat (o.len x.px) &&
    (s.clu (cluOf x.eng)).fetchBad (s.ctxAt x).pc.toNat (o.len x.px)) = false
  unmet : s.meetsSoft x o = false

variable (h : s.fetched x o)
include h

/-- A failed check of the encoding or the privilege faults. -/
theorem issue_early {f : SFault} (hf : o.early x.px (s.ctxAt x) = some f) : s.issue x o op body post = s.faults x f := by
  obtain ⟨ht, ho, hg, hu⟩ := h
  simp only [State.ctxAt] at ho hg hf
  rw [State.issue, corrected_none hu]
  unfold State.attempt
  dsimp only
  rw [ht, ho, hg, hf]
  rfl

/-- An annulled delay slot passes. -/
theorem issue_annulled (he : o.early x.px (s.ctxAt x) = none) (ha : (s.ctxAt x).annulled = true) :
    Becomes s (s.issue x o op body post) x { s.view x with pc := s.nextPc x o, pb := none } := by
  obtain ⟨ht, ho, hg, hu⟩ := h
  obtain ⟨a, hpb⟩ : ∃ a, (s.ctxAt x).pb = some ⟨true, true, a⟩ := by
    unfold Ctx.annulled at ha
    split at ha
    · next b hb =>
      obtain ⟨nt, an, a⟩ := b
      simp only [Bool.and_eq_true] at ha
      exact ⟨a, by rw [hb, ha.1, ha.2]⟩
    · cases ha
  have hs : s.issue x o op body post = s.setEng x.eng (finish (s.eng x.eng) x.ctx (s.slot (s.ctxAt x).slot).hedge (s.bodyCtx x o) 1 none) := by
    simp only [State.ctxAt] at ho hg he hpb
    rw [State.issue, corrected_none hu]
    unfold State.attempt
    dsimp only
    rw [ht, ho, hg, he]
    simp only [hpb]
    rfl
  obtain ⟨hview, hothers, hregs, hcells⟩ :=
    finish_spec (s.eng x.eng) x.ctx (s.slot (s.ctxAt x).slot).hedge (s.bodyCtx x o) 1 none
  rw [hs]
  generalize finish (s.eng x.eng) x.ctx (s.slot (s.ctxAt x).slot).hedge (s.bodyCtx x o) 1 none = g at hview hothers hregs hcells
  have hv : (s.setEng x.eng g).view x = viewOf (s.eng x.eng) (s.bodyCtx x o) := by
    simpa only [State.view, State.ctxAt, State.setEng_eng_same] using hview
  refine ⟨hv, ⟨rfl, List.prefix_rfl, fun e he => State.setEng_eng_ne _ _ _ _ he, fun n hn => ?_, ?_, ?_⟩, fun k hk _ => ?_⟩
  · rw [State.setEng_eng_same]; exact hothers n hn
  · rw [State.setEng_eng_same]; exact hregs.1
  · rw [State.setEng_eng_same]; exact hregs.2
  · rw [hv] at hk
    rw [State.setEng_eng_same]; exact hcells k hk

/-- A failed check of the operand stack faults. -/
theorem issue_stkFault {f : SFault} (he : o.early x.px (s.ctxAt x) = none) (ha : (s.ctxAt x).annulled = false)
    (hf : o.stkFault (s.ctxAt x) = some f) : s.issue x o op body post = s.faults x f := by
  obtain ⟨ht, ho, hg, hu⟩ := h
  simp only [State.ctxAt] at ho hg he ha hf
  rw [State.issue, corrected_none hu]
  unfold State.attempt
  simp only [ht, ho, hg, he, hf, Bool.not_true, Bool.false_eq_true, if_false]
  split
  · next hpb => simp [Ctx.annulled, hpb] at ha
  · rfl

end

/-- Settles O60, by the lemmas above: the command of each of the instructions named is an issue. -/
theorem theFirstFailedCheckRaisesItsFault : Obligations.TheFirstFailedCheckRaisesItsFault := by
  intro s x i o hio
  obtain ⟨op, body, post, hex⟩ : ∃ op body post, exec i s = .next (s.issue x o op body post) := by
    simp only [List.mem_cons, Prod.mk.injEq, List.not_mem_nil, or_false] at hio
    rcases hio with h | h | h | h | h | h | h | h | h | h | h | h | h | h | h | h
    all_goals
      obtain ⟨rfl, rfl⟩ := h
      exact ⟨_, _, _, rfl⟩
  have hfetched : s.running x.eng = true ∧ (s.eng x.eng).mayIssue x.ctx = true ∧
      (s.eng x.eng).fetchClosed (s.ctxAt x).pc.toNat (o.len x.px) = none ∧
      ((s.eng x.eng).looped (s.ctxAt x).pc.toNat (o.len x.px) = true ∨
        (s.clu (cluOf x.eng)).fetchBad (s.ctxAt x).pc.toNat (o.len x.px) = false) ∧ s.meetsSoft x o = false → s.fetched x o := by
    rintro ⟨hr, hm, hf, hg, hs⟩
    exact ⟨by rw [hr, hm]; rfl, hf, by rcases hg with hg | hg <;> simp [hg], hs⟩
  refine ⟨fun h => ?_, fun a hr hm hf => ?_, fun f hp hf => ?_, fun f hp he hf => ?_, fun hp he ha => ?_, fun f hp he ha hf => ?_⟩
  · rw [hex, issue_notIssued h]
  · rw [hex, issue_fetchClosed hr hm hf]
  · rw [hex, issue_early (hfetched hp) (by rw [OpInfo.early, hf])]
  · rw [hex, issue_early (hfetched hp) (by rw [OpInfo.early, he]; exact hf)]
  · exact ⟨_, hex, issue_annulled (hfetched hp) he ha⟩
  · rw [hex, issue_stkFault (hfetched hp) he ha hf]

end Sys2Proof.Machine
end

section
/-! The parts that machine checks and the end of a quarantine share with other events: an iterative unit that passes on, a transaction that
ends, and a context that becomes free. -/

namespace Sys2Proof.Machine

/-- A unit that passes on changes of a context its state and what it is held for. -/
theorem Engine.freeUnit_ctx (e : Engine) (n m : CtxId) (u : IterUnit) :
    ∃ st h, (e.freeUnit n u).ctx m = { e.ctx m with state := st, heldOn := h } := by
  unfold Engine.freeUnit
  split
  · split
    · next i _ =>
      by_cases h : m = i
      · subst h; exact ⟨_, _, by rw [Engine.setCtx_ctx_same]⟩
      · exact ⟨_, _, by rw [Engine.setCtx_ctx_ne _ _ _ _ h, Engine.setUnit_ctx]⟩
    · exact ⟨_, _, by rw [Engine.setUnit_ctx]⟩
  · exact ⟨_, _, rfl⟩

/-- What an abandoned microcode execution leaves of its context's errors and slot. -/
theorem Engine.abandon_ctx (e : Engine) (n : CtxId) :
    ((e.abandon n).ctx n).mcheck = (e.ctx n).mcheck ∧ ((e.abandon n).ctx n).damaged = (e.ctx n).damaged ∧
      ((e.abandon n).ctx n).slot = (e.ctx n).slot := by
  unfold Engine.abandon
  dsimp only
  split
  · exact ⟨rfl, rfl, rfl⟩
  · split
    · next u _ _ =>
      obtain ⟨st, h, hc⟩ := Engine.freeUnit_ctx (e.setCtx n _) n n u.unit
      rw [hc, Engine.setCtx_ctx_same]
      exact ⟨rfl, rfl, rfl⟩
    · exact ⟨rfl, rfl, rfl⟩

/-- A transaction that nothing wounds or has marked ends with the status given. -/
theorem Slot.fateOf_of_fate {sl : Slot} {st : Byte} (hw : sl.wound = false) (hf : sl.fate = none ∨ sl.fate = some st) : sl.fateOf st = st := by
  rcases hf with hf | hf <;> simp [Slot.fateOf, hf, hw]

@[simp] theorem State.unfull_slot (s : State) (n : SlotId) : s.unfull.slot n = s.slot n := rfl
@[simp] theorem State.unfull_eng (s : State) (e : EngId) : s.unfull.eng e = s.eng e := rfl

/-- The slot of a transaction that is ended. -/
theorem endTxn_slot (s : State) {n : SlotId} {st : Byte} {x : Word64} (he : (s.slot n).endable = true) :
    (s.endTxn n st x).slot n = (s.slot n).ended st x := by
  unfold State.endTxn
  simp only [he, if_true, State.unfull_slot]
  exact State.setSlot_slot_same _ _ _

@[simp] theorem endTxn_eng (s : State) (n : SlotId) (st : Byte) (x : Word64) (e : EngId) : (s.endTxn n st x).eng e = s.eng e := by
  unfold State.endTxn
  dsimp only
  split <;> rfl

/-- A transaction that nothing wounds goes to ENDING. -/
theorem Slot.ended_state {sl : Slot} {st : Byte} {x : Word64} (hw : sl.wound = false) : (sl.ended st x).state = .ending := by
  simp [Slot.ended, Slot.diesWounded, hw]

@[simp] theorem freeCtx_slot (s : State) (e : EngId) (n : CtxId) (i : SlotId) : (s.freeCtx e n).slot i = s.slot i := rfl

theorem Engine.freeUnit_ctx_state {e : Engine} {n m : CtxId} {u : IterUnit} (h : (e.ctx m).state ≠ .held) :
    (e.freeUnit n u).ctx m = e.ctx m := by
  unfold Engine.freeUnit
  split
  · split
    · next i hi =>
      have hne : m ≠ i := by
        rintro rfl
        have := List.find?_some hi
        simp [h] at this
      rw [Engine.setCtx_ctx_ne _ _ _ _ hne, Engine.setUnit_ctx]
    · exact Engine.setUnit_ctx ..
  · rfl

theorem Engine.freeUnits_ctx_state {e : Engine} {n m : CtxId} (h : (e.ctx m).state ≠ .held) : (e.freeUnits n).ctx m = e.ctx m := by
  have h1 : (e.freeUnit n .divider).ctx m = e.ctx m := Engine.freeUnit_ctx_state h
  have h2 : ((e.freeUnit n .divider).freeUnit n .fdiv).ctx m = e.ctx m :=
    (Engine.freeUnit_ctx_state (by rw [h1]; exact h)).trans h1
  exact (Engine.freeUnit_ctx_state (by rw [h2]; exact h)).trans h2

/-- The context that is freed. -/
theorem freeCtx_ctx (s : State) (e : EngId) (n : CtxId) :
    ((s.freeCtx e n).eng e).ctx n = { ((s.eng e).ctx n).freed with heldOn := none } := by
  have hs : (s.freeCtx e n).eng e = ((s.eng e).setCtx n { ((s.eng e).ctx n).freed with heldOn := none }).freeUnits n :=
    State.setEng_eng_same _ _ _
  rw [hs, Engine.freeUnits_ctx_state] <;> rw [Engine.setCtx_ctx_same]
  simp [Ctx.freed]

end Sys2Proof.Machine
end

section
/-! O16: machine checks and the end of a quarantine. -/

namespace Sys2Proof.Machine

/-- The record that a struck microcode or code word adds to the CONTEXT record. -/
def State.struckRecord (s : State) (e : EngId) : Damage → State
  | .ucode _ => s.report (microcodeRecord s (cluOf e))
  | .patch _ => s.report (microcodeRecord s (cluOf e))
  | .code _ => { s.report (codeRecord s (cluOf e)) with free := s.free + 1 }
  | _ => s

theorem State.struckRecord_rest (s : State) (e : EngId) (d : Damage) :
    ∃ l f, s.struckRecord e d = { s with errq := s.errq ++ l, free := f } := by
  cases d
  case ucode => exact ⟨[_], _, rfl⟩
  case patch => exact ⟨[_], _, rfl⟩
  case code => exact ⟨[_], _, rfl⟩
  all_goals exact ⟨[], s.free, by simp [State.struckRecord]⟩

/-- The damaged items of a context that a machine check leaves: code words are the cluster's. -/
def Ctx.damagedWith (x : Ctx) (d : Damage) : List Damage := match d with | .code _ => x.damaged | d => x.damaged ++ [d]

/-- A machine check of a live context that has the damaged item. -/
theorem exec_machineCheck {s : State} {e : EngId} {c : CtxId} {d : Damage} (hl : ((s.eng e).ctx c).live = true)
    (hs : ((s.eng e).ctx c).strikes d = true) :
    ∃ x : Ctx, x.mcheck = some (damageCause d ((s.eng e).ctx c)) ∧ x.slot = ((s.eng e).ctx c).slot ∧
      x.damaged = ((s.eng e).ctx c).damagedWith d ∧
      let t := (s.setClu (cluOf e) ((s.clu (cluOf e)).struck d)).setEng e (((s.eng e).setCtx c x).abandon c)
      exec (.machineCheck e c d) s =
        .next ((t.report (contextRecord t e ((((s.eng e).setCtx c x).abandon c).ctx c) (damageCause d ((s.eng e).ctx c)).1)).struckRecord e d) := by
  refine ⟨{ (s.eng e).ctx c with mcheck := some (damageCause d ((s.eng e).ctx c)), damaged := ((s.eng e).ctx c).damagedWith d }, rfl, rfl, rfl, ?_⟩
  have hc : (((s.eng e).ctx c).live && ((s.eng e).ctx c).strikes d) = true := by rw [hl, hs]; rfl
  show Host.Outcome.next (if _ then _ else _) = _
  rw [if_pos hc]
  cases d <;> simp [State.struckRecord, Ctx.damagedWith]

/-- A damaged item makes MACHINE-CHECK pending, and the collector receives the CONTEXT record. -/
theorem machineCheck_pending {s : State} {e : EngId} {c : CtxId} {d : Damage} (hl : ((s.eng e).ctx c).live = true)
    (hs : ((s.eng e).ctx c).strikes d = true) :
    let x := (s.eng e).ctx c
    Answers (.machineCheck e c d) s fun t =>
        ((t.eng e).ctx c).mcheck = some (damageCause d x) ∧
        ((t.eng e).ctx c).damaged = x.damagedWith d ∧
        s.errq <+: t.errq ∧ (∃ r ∈ t.errq.drop s.errq.length, r.cls = 0x02 ∧ r.slot = some x.slot ∧ r.cause = (damageCause d x).1) ∧
        t = { s with engines := t.engines, clus := t.clus, errq := t.errq, free := t.free } := by
  obtain ⟨x, hm, hn, hd, hex⟩ := exec_machineCheck hl hs
  obtain ⟨km, kd, kn⟩ := Engine.abandon_ctx ((s.eng e).setCtx c x) c
  rw [Engine.setCtx_ctx_same] at km kd kn
  refine ⟨_, hex, ?_⟩
  generalize ht : (s.setClu (cluOf e) ((s.clu (cluOf e)).struck d)).setEng e (((s.eng e).setCtx c x).abandon c) = t
  have hq : t.errq = s.errq := by rw [← ht]; rfl
  have he : t.eng e = ((s.eng e).setCtx c x).abandon c := by rw [← ht]; exact State.setEng_eng_same _ _ _
  obtain ⟨l, f, hl⟩ := State.struckRecord_rest (t.report (contextRecord t e ((((s.eng e).setCtx c x).abandon c).ctx c) (damageCause d ((s.eng e).ctx c)).1)) e d
  rw [hl]
  refine ⟨?_, ?_, ?_, ⟨contextRecord t e ((((s.eng e).setCtx c x).abandon c).ctx c) (damageCause d ((s.eng e).ctx c)).1, ?_, rfl, ?_, rfl⟩, ?_⟩
  · exact (congrArg (fun g : Engine => (g.ctx c).mcheck) he).trans (km.trans hm)
  · exact (congrArg (fun g : Engine => (g.ctx c).damaged) he).trans (kd.trans hd)
  · simp [State.report, hq]
  · simp [State.report, hq]
  · exact congrArg some (kn.trans hn)
  · subst ht; rfl

/-- Firmware ends the transaction of a quarantined context. -/
theorem quarantineEnd_ends {s : State} {e : EngId} {c : CtxId} (hq : ((s.eng e).ctx c).state = .quarantined)
    (he : (s.slot ((s.eng e).ctx c).slot).endable = true) (hw : (s.slot ((s.eng e).ctx c).slot).wound = false)
    (hn : ((s.eng e).ctx c).ending = false)
    (hf : (s.slot ((s.eng e).ctx c).slot).fate = none ∨ (s.slot ((s.eng e).ctx c).slot).fate = some ((s.eng e).ctx c).quarantineStatus) :
    let x := (s.eng e).ctx c
    Answers (.quarantineEnd e c) s fun t =>
        (t.slot x.slot).state = .ending ∧ (t.slot x.slot).status = x.quarantineStatus ∧
        (t.slot x.slot).detail = x.errPay ∧
        ((t.eng e).ctx c).state = (if x.qcause ≠ 4 ∨ (s.eng e).clean = true then .free else .quarantined) := by
  set x := (s.eng e).ctx c with hx
  set s2 := (s.endTxn x.slot x.quarantineStatus 0).modCtx e c fun x => { x with ending := true } with hs2
  have hfate := Slot.fateOf_of_fate hw hf
  have hex : exec (.quarantineEnd e c) s =
      .next (if x.qcause ≠ 4 ∨ (s.eng e).clean = true
        then (s2.modSlot x.slot fun sl => { sl with detail := x.errPay }).freeCtx e c
        else s2.modSlot x.slot fun sl => { sl with detail := x.errPay }) := by
    show execQuarantineEnd e c s = _
    unfold execQuarantineEnd
    simp only [← hx, hq, hn, he, hfate, ← hs2, ne_eq, not_true_eq_false, Bool.false_eq_true, if_false, and_self, if_true]
  have hslot : s2.slot x.slot = (s.slot x.slot).ended x.quarantineStatus 0 := endTxn_slot s he
  have hctx : (s2.eng e).ctx c = { x with ending := true } := by simp [hs2, hx]
  refine ⟨_, hex, ?_⟩
  split
  · refine ⟨?_, ?_, ?_, ?_⟩
    · simp [hslot, Slot.ended_state hw]
    · simp [hslot, Slot.ended, hfate]
    · simp
    · rw [freeCtx_ctx]; rfl
  · refine ⟨?_, ?_, ?_, ?_⟩
    · simp [hslot, Slot.ended_state hw]
    · simp [hslot, Slot.ended, hfate]
    · simp
    · simp only [State.modSlot_eq, State.setSlot_eng, hctx, hq]

/-- The STATUS field of ENG_XSTn, by its number or as a byte. -/
theorem Ctx.quarantineStatus_eq (x : Ctx) :
    x.quarantineStatus = if bits x.xst 15 8 = 0 then 0x01 else x.xst.extractLsb' 8 8 := by
  have hiff : x.xst.extractLsb' 8 8 = 0 ↔ bits x.xst 15 8 = 0 := by
    rw [← BitVec.toNat_inj]
    simp [bits, BitVec.extractLsb'_toNat, Nat.shiftRight_eq_div_pow]
  simp only [Ctx.quarantineStatus, hiff]

/-- Settles O16, by the two lemmas above. -/
theorem machineChecksAndQuarantines : Obligations.MachineChecksAndQuarantines := by
  intro s e c x
  refine ⟨fun d hl hs => machineCheck_pending hl hs, fun hq he hw hn => ?_⟩
  intro st hf
  have hst : x.quarantineStatus = st := x.quarantineStatus_eq
  rw [← hst] at hf ⊢
  exact quarantineEnd_ends hq he hw hn hf

end Sys2Proof.Machine
end

section
/-! What the writes of scratch leave of an engine: everything but the scratch cells, their marks and errors, and the store buffer. -/

namespace Sys2Proof.Machine

/-- `f` is engine `e` but for its scratch. -/
def Engine.ScratchOnly (e f : Engine) : Prop :=
  f = { e with scratch := f.scratch, marks := f.marks, latent := f.latent, sb := f.sb, sce := f.sce, sue := f.sue, eccLast := f.eccLast }

theorem Engine.ScratchOnly.refl (e : Engine) : e.ScratchOnly e := rfl

theorem Engine.ScratchOnly.trans {e f g : Engine} (h : e.ScratchOnly f) (k : f.ScratchOnly g) : e.ScratchOnly g := by
  unfold Engine.ScratchOnly at *
  rw [k, h]

theorem Engine.ScratchOnly.ctx {e f : Engine} (h : e.ScratchOnly f) (n : CtxId) : f.ctx n = e.ctx n := by
  unfold Engine.ScratchOnly at h
  rw [h]; rfl

theorem Engine.ScratchOnly.inbox {e f : Engine} (h : e.ScratchOnly f) : f.inbox = e.inbox := by
  unfold Engine.ScratchOnly at h
  rw [h]

theorem scratchOnly_foldl {α : Type} {f : Engine → α → Engine} (hf : ∀ (e : Engine) (a : α), e.ScratchOnly (f e a)) (l : List α) :
    ∀ e : Engine, e.ScratchOnly (l.foldl f e) := by
  induction l with
  | nil => exact .refl
  | cons a l ih => exact fun e => (hf e a).trans (ih _)

theorem writeThrough_scratchOnly (e : Engine) (k : Nat) (c : Cell) : e.ScratchOnly (e.writeThrough k c) := rfl

theorem meet_scratchOnly (e : Engine) (k : Nat) : e.ScratchOnly (e.meet k) := by
  unfold Engine.meet
  split
  · rfl
  · split <;> rfl

theorem meetAll_scratchOnly (e : Engine) (ks : List Nat) : e.ScratchOnly (e.meetAll ks) := scratchOnly_foldl meet_scratchOnly ks e

theorem moverCell_scratchOnly (e : Engine) (k lo : Nat) (bs : List (Byte × Bool)) : e.ScratchOnly (e.moverCell k lo bs) := by
  unfold Engine.moverCell
  dsimp only
  split
  · exact writeThrough_scratchOnly ..
  · exact (meet_scratchOnly e k).trans rfl

theorem moverWrite_scratchOnly (e : Engine) (a : Nat) (bs : List (Byte × Bool)) : e.ScratchOnly (e.moverWrite a bs) :=
  scratchOnly_foldl (fun e k => moverCell_scratchOnly e k _ _) _ e

theorem writeCells_scratchOnly (l : List Cell) : ∀ (e : Engine) (k : Nat), e.ScratchOnly (e.writeCells k l) := by
  induction l with
  | nil => exact fun e _ => .refl e
  | cons c l ih => exact fun e k => (writeThrough_scratchOnly e k c).trans (ih _ _)

end Sys2Proof.Machine
end

section
/-! O17: the delivery of messages to engines (02 R50 to R52, 14 R458), and the disposal of those that bounced (02 Table 2-4). -/

namespace Sys2Proof.Machine

/-! ### What a port does with a message -/

section
variable {s : State} {m : EngMsg}

theorem accepts_iff : s.accepts m = true ↔ (s.eng m.eng).assigned = true ∧ m.hedge = (s.eng m.eng).hedge ∧ m.epoch = (s.eng m.eng).epoch ∧
    s.aoTick.toNat ≤ m.sent.toNat + 100000 := by
  simp [State.accepts, and_assoc]

/-- A waking cluster holds the message. -/
theorem message_waking (h : (s.clu (cluOf m.eng)).waking = true) :
    s.message m = s.setClu (cluOf m.eng) { s.clu (cluOf m.eng) with held := (s.clu (cluOf m.eng)).held ++ [m] } := by
  simp [State.message, h]

/-- An accepted message wakes a cluster that sleeps. -/
theorem message_asleep (h : (s.clu (cluOf m.eng)).waking = false) (hp : (s.clu (cluOf m.eng)).pst ≠ .c0) (ha : s.accepts m = true) :
    s.message m = s.setClu (cluOf m.eng) { s.clu (cluOf m.eng) with waking := true, held := (s.clu (cluOf m.eng)).held ++ [m] } := by
  simp [State.message, h, hp, ha]

/-- A cluster in C0 takes the message at its port. -/
theorem message_awake (h : (s.clu (cluOf m.eng)).waking = false) (hp : (s.clu (cluOf m.eng)).pst = .c0) : s.message m = s.inbound m := by
  simp [State.message, h, hp]

theorem inbound_behind (h : (s.eng m.eng).inbox ≠ []) :
    s.inbound m = s.setEng m.eng { s.eng m.eng with inbox := (s.eng m.eng).inbox ++ [m] } := by
  have hn : (s.eng m.eng).inbox.isEmpty = false := by simpa using h
  simp [State.inbound, hn]

theorem inbound_accepted (h : (s.eng m.eng).inbox = []) (ha : s.accepts m = true) : s.inbound m = s.deliver m := by
  simp [State.inbound, h, ha]

theorem inbound_refused (h : (s.eng m.eng).inbox = []) (ha : s.accepts m = false) : s.inbound m = s.bounce m := by
  simp [State.inbound, h, ha]

/-- A message of a transaction that has ended since is dropped (02 Table 2-4). -/
theorem deliver_stale (h : (s.slot (msgSlot m.kind)).start ≠ m.start) : s.deliver m = s := by
  simp [State.deliver, h]

/-- A dispatch of an admitted slot loads its context. -/
theorem deliver_dispatch {n : SlotId} (hk : m.kind = .dispatch n) (hs : (s.slot n).start = m.start) (ha : (s.slot n).state = .admitted) :
    s.deliver m = s.loadRun n m.eng (s.slot n).ctx := by
  simp [State.deliver, hk, msgSlot, hs, ha]

end

/-! ### A context that a dispatch loads -/

/-- The engine whose context `c` takes up slot `n` of the state. -/
def State.loadedEng (s : State) (n : SlotId) (p : Prog) (e : EngId) (c : CtxId) : Engine :=
  (((s.eng e).writeCells (4 * c.val) (s.slot n).args).moverWrite (p.wbase + p.wstride * c.val) ((s.slot n).sgl.map fun b => (b, false))).setCtx c
    { loadedCtx p n c with xst := ((s.eng e).ctx c).xst }

theorem loadRun_free {s : State} {n : SlotId} {p : Prog} {e : EngId} {c : CtxId} (hp : (s.slot n).prog = some p)
    (ha : (s.slot n).state = .admitted) (hf : ((s.eng e).ctx c).state = .free) :
    s.loadRun n e c = (s.setSlot n { s.slot n with state := .resident, eng := e, ctx := c, cluster := cluOf e }).setEng e (s.loadedEng n p e c) := by
  unfold State.loadRun
  rw [hp, ha, hf]
  rfl

theorem loadedEng_ctx (s : State) (n : SlotId) (p : Prog) (e : EngId) (c : CtxId) :
    ∃ x, (s.loadedEng n p e c).ctx c = { loadedCtx p n c with xst := x } := ⟨_, Engine.setCtx_ctx_same _ _ _⟩

/-- An admitted slot that its dispatch reaches is resident in the context that it names. -/
theorem loadRun_arrives {s : State} {n : SlotId} {p : Prog} {e : EngId} (hp : (s.slot n).prog = some p) (ha : (s.slot n).state = .admitted)
    (hf : ((s.eng e).ctx (s.slot n).ctx).state = .free) :
    let t := s.loadRun n e (s.slot n).ctx
    let y := (t.eng e).ctx (s.slot n).ctx
    t.slot n = { s.slot n with state := .resident, eng := e, cluster := cluOf e } ∧
      y.state = .ready ∧ y.slot = n ∧ y.pc = BitVec.ofNat 19 (p.at_ + p.entry) ∧ y.psw = ⟨2, 0, false, p.key, p.rm⟩ ∧
      y.locals = [] ∧ y.depth = 2 ∧
      y.win = [cellInt (p.wbase + p.wstride * (s.slot n).ctx.val), cellInt (64 * (s.slot n).ctx.val)] ∧
      t = { s with engines := t.engines, slots := t.slots } := by
  rw [loadRun_free hp ha hf]
  obtain ⟨v, hv⟩ := loadedEng_ctx s n p e (s.slot n).ctx
  refine ⟨by simp, ?_, ?_, ?_, ?_, ?_, ?_, ?_, rfl⟩ <;> simp only [State.setEng_eng_same, hv] <;> rfl

/-- The port of an engine in C0 whose queue is clear. -/
theorem message_clearPort {s : State} {m : EngMsg} (hw : (s.clu (cluOf m.eng)).waking = false) (hp : (s.clu (cluOf m.eng)).pst = .c0)
    (hi : (s.eng m.eng).inbox = []) :
    (s.accepts m = true → s.message m = s.deliver m) ∧ (s.accepts m = false → s.message m = s.bounce m) :=
  ⟨fun h => (message_awake hw hp).trans (inbound_accepted hi h), fun h => (message_awake hw hp).trans (inbound_refused hi h)⟩

theorem bounce_room {s : State} {m : EngMsg} (h : s.bounced.length < 4096) :
    s.bounce m = { s.setEng m.eng { s.eng m.eng with bounce := satInc (s.eng m.eng).bounce } with
      bounced := s.bounced ++ [{ m with bounces := m.bounces + 1 }] } := by
  simp [State.bounce, h]

theorem bounce_full {s : State} {m : EngMsg} (h : 4096 ≤ s.bounced.length) (hi : (s.eng m.eng).inbox = []) :
    s.bounce m = s.setEng m.eng { s.eng m.eng with inbox := [m] } := by
  simp [State.bounce, show ¬s.bounced.length < 4096 by omega, hi]

/-! ### The bounce queue -/

section
variable (s : State) (h : HedgeId)

@[simp] theorem State.flushFor_eng (e : EngId) : (s.flushFor h).eng e = s.eng e := by unfold State.flushFor; split <;> rfl
@[simp] theorem State.flushFor_clu (k : CluId) : (s.flushFor h).clu k = s.clu k := by unfold State.flushFor; split <;> rfl
@[simp] theorem State.flushFor_slot (n : SlotId) : (s.flushFor h).slot n = s.slot n := by unfold State.flushFor; split <;> rfl
@[simp] theorem State.flushFor_bounced : (s.flushFor h).bounced = s.bounced := by unfold State.flushFor; split <;> rfl
@[simp] theorem State.flushFor_aoTick : (s.flushFor h).aoTick = s.aoTick := by unfold State.flushFor; split <;> rfl

end

@[simp] theorem endTxn_bounced (s : State) (n : SlotId) (st : Byte) (x : Word64) : (s.endTxn n st x).bounced = s.bounced := by
  unfold State.endTxn
  dsimp only
  split <;> rfl

/-- With no port waiting, the front of the bounce queue is all that is disposed of. -/
theorem exec_bounceDisposal {s u : State} {m : EngMsg} {t : List EngMsg} {target : EngId} (hb : s.bounced = m :: t)
    (hu : ({ s with bounced := t } : State).dispose m target = u) (hi : ∀ e, (u.eng e).inbox = []) :
    exec (.bounceDisposal target) s = .next u := by
  have hn : (List.finRange 256).find? (fun e => !(u.eng e).inbox.isEmpty) = none :=
    List.find?_eq_none.2 fun e _ => by simp [hi e]
  show execBounceDisposal target s = _
  unfold execBounceDisposal
  rw [hb]
  simp only [hu, hn]

/-- A wake of a transaction that has ended is counted. -/
theorem dispose_pastWake {s : State} {m : EngMsg} {target : EngId} {n : SlotId} {seq : BitVec 32} (hk : m.kind = .wake n seq)
    (h : (s.slot n).start ≠ m.start) :
    s.dispose m target = s.modHedge m.hedge fun h => { h with wakeDrops := satInc h.wakeDrops } := by
  have hs : ((s.slot n).start == m.start) = false := by simpa using h
  unfold State.dispose
  simp only [hk, msgSlot, hs, Bool.and_false, Bool.not_false, ite_eq_left_iff]
  split <;> simp

/-- Any other message of a transaction that has ended is dropped. -/
theorem dispose_past {s : State} {m : EngMsg} {target : EngId} (hk : ∀ seq, m.kind ≠ .wake (msgSlot m.kind) seq)
    (h : (s.slot (msgSlot m.kind)).start ≠ m.start) : s.dispose m target = s := by
  have hs : ((s.slot (msgSlot m.kind)).start == m.start) = false := by simpa using h
  unfold State.dispose
  cases hm : m.kind <;> simp only [hm, msgSlot] at hs <;> simp only [msgSlot, hs, Bool.and_false, Bool.not_false, Bool.false_and, if_true]
  · exact absurd (by rw [hm]; rfl) (hk _)
  · simp only [ite_eq_left_iff]
    split <;> simp

/-- A dispatch that has bounced three times before ends THROTTLED. -/
theorem dispose_fourth {s : State} {m : EngMsg} {target : EngId} {n : SlotId} (hk : m.kind = .dispatch n) (h : (s.slot n).start = m.start)
    (ha : (s.slot n).state = .admitted) (hb : 3 ≤ m.bounces) :
    s.dispose m target = (s.flushFor (s.slot n).hedge).endTxn n 0x09 0 := by
  unfold State.dispose
  simp [hk, msgSlot, h, ha, hb]

/-- A dispatch is sent again to a FREE context of the target. -/
theorem dispose_again {s : State} {m : EngMsg} {target : EngId} {n : SlotId} {c : CtxId} (hk : m.kind = .dispatch n)
    (h : (s.slot n).start = m.start) (ha : (s.slot n).state = .admitted) (hb : m.bounces < 3) (ht : (s.eng target).assigned = true)
    (hh : (s.eng target).hedge = (s.slot n).hedge) (hc : (s.eng target).freeCtx? = some c) :
    let u := s.flushFor (s.slot n).hedge
    s.dispose m target = (u.setSlot n { u.slot n with eng := target, ctx := c }).message (u.msgTo target n m.bounces m.kind) := by
  have hsome : ((List.finRange 256).all fun i => !((s.eng i).assigned && (s.eng i).hedge == (s.slot n).hedge)) = false := by
    rw [List.all_eq_false]
    exact ⟨target, List.mem_finRange _, by simp [ht, hh]⟩
  unfold State.dispose
  have hif : (!(SlotState.admitted != SlotState.idle && m.start == m.start && SlotState.admitted == SlotState.admitted)) = false := by simp
  have hor : ¬(3 ≤ m.bounces ∨ False) := by simp only [or_false]; omega
  have hand : (true && (s.slot n).hedge == (s.slot n).hedge) = true := by simp
  simp only [hk, msgSlot, h, ha, State.flushFor_eng, ht, hh, hc, hsome, hif, hand, Bool.false_eq_true, if_false, if_true]
  rw [if_neg hor]
  rfl

/-- What the slot is sent to takes it up. -/
theorem message_again {u : State} {n : SlotId} {target : EngId} {c : CtxId} {b : Nat} (ha : (u.slot n).state = .admitted)
    (hta : (u.eng target).assigned = true) (hth : (u.eng target).hedge = (u.slot n).hedge) (hi : (u.eng target).inbox = [])
    (hw : (u.clu (cluOf target)).waking = false) (hp0 : (u.clu (cluOf target)).pst = .c0) :
    (u.setSlot n { u.slot n with eng := target, ctx := c }).message (u.msgTo target n b (.dispatch n)) =
      (u.setSlot n { u.slot n with eng := target, ctx := c }).loadRun n target c := by
  have hacc : (u.setSlot n { u.slot n with eng := target, ctx := c }).accepts (u.msgTo target n b (.dispatch n)) = true :=
    accepts_iff.2 ⟨hta, hth.symm, rfl, Nat.le_add_right ..⟩
  obtain ⟨hyes, -⟩ := message_clearPort (s := u.setSlot n { u.slot n with eng := target, ctx := c }) (m := u.msgTo target n b (.dispatch n)) hw hp0 hi
  rw [hyes hacc, deliver_dispatch (n := n) rfl] <;> simp [State.msgTo, ha]

/-- A load leaves the ports as they are. -/
theorem loadRun_inbox {s : State} {n : SlotId} {p : Prog} {e : EngId} {c : CtxId} (hp : (s.slot n).prog = some p)
    (ha : (s.slot n).state = .admitted) (hf : ((s.eng e).ctx c).state = .free) (i : EngId) :
    ((s.loadRun n e c).eng i).inbox = (s.eng i).inbox := by
  rw [loadRun_free hp ha hf]
  by_cases h : i = e
  · subst h
    rw [State.setEng_eng_same]
    exact ((writeCells_scratchOnly _ _ _).trans (moverWrite_scratchOnly _ _ _)).inbox
  · rw [State.setEng_eng_ne _ _ _ _ h]; rfl

/-- Settles O17: the cases of delivery and of disposal are the lemmas above. -/
theorem messagesAreDeliveredOrDisposedOf : Obligations.MessagesAreDeliveredOrDisposedOf := by
  refine ⟨fun s m => ?_, fun s m t target => ?_⟩
  · intro g k ok
    have hacc : s.accepts m = true ↔ ok := accepts_iff
    have hnot : ¬ok → s.accepts m = false := fun h => by simpa using hacc.not.2 h
    have hex : exec (.engineMessageArrival m) s = .next (s.message m) := rfl
    rw [hex]
    refine ⟨fun hw => by rw [message_waking hw], fun hw hp ha => by rw [message_asleep hw hp (hacc.2 ha)],
      fun hw hp hi => by rw [message_awake hw hp, inbound_behind hi], fun hw hp hi => ?_⟩
    obtain ⟨hyes, hno⟩ := message_clearPort hw hp hi
    refine ⟨fun ha hb => by rw [hno (hnot ha), bounce_room hb], fun ha hb => by rw [hno (hnot ha), bounce_full hb hi],
      fun ha hs => by rw [hyes (hacc.2 ha), deliver_stale hs], ?_⟩
    intro n p sl hk ha hs had hp hf
    refine ⟨_, hex, ?_⟩
    rw [hyes (hacc.2 ha), deliver_dispatch hk hs had]
    exact loadRun_arrives hp had hf
  · intro n sl hb hi
    refine ⟨fun hs seq hk => ?_, fun hs hk => ?_, fun hk hs ha hm hse hg hw hf => ?_, ?_⟩
    · exact exec_bounceDisposal hb (dispose_pastWake hk hs) hi
    · exact exec_bounceDisposal hb (dispose_past hk hs) hi
    · have hd := dispose_fourth (s := { s with bounced := t }) (target := target) hk hs ha hm
      have hend : sl.endable = true := by simp [Slot.endable, ha, hse, hg]
      have hslot := State.flushFor_slot { s with bounced := t } sl.hedge n
      have hst := endTxn_slot (State.flushFor { s with bounced := t } sl.hedge) (n := n) (st := 0x09) (x := 0) (hslot ▸ hend)
      rw [hslot] at hst
      refine ⟨_, exec_bounceDisposal hb hd fun e => ?_, ?_, ?_, ?_⟩
      · rw [endTxn_eng, State.flushFor_eng]; exact hi e
      · exact (congrArg Slot.state hst).trans (Slot.ended_state hw)
      · exact (congrArg Slot.status hst).trans (Slot.fateOf_of_fate hw (.inl hf))
      · rw [endTxn_bounced, State.flushFor_bounced]
    · intro c p hk hs ha hm hta hth hc hp hw hp0
      have hd := dispose_again (s := { s with bounced := t }) hk hs ha hm hta hth hc
      have hfree : ((s.eng target).ctx c).state = .free := by simpa using List.find?_some hc
      rw [hk] at hd
      set u := State.flushFor { s with bounced := t } sl.hedge with hu
      have hslot : u.slot n = sl := State.flushFor_slot ..
      have heng : ∀ i, u.eng i = s.eng i := fun i => State.flushFor_eng ..
      have hclu : u.clu (cluOf target) = s.clu (cluOf target) := State.flushFor_clu ..
      set v := u.setSlot n { u.slot n with eng := target, ctx := c } with hv
      have hvs : v.slot n = { sl with eng := target, ctx := c } := by rw [hv, State.setSlot_slot_same, hslot]
      have hve : ∀ i, v.eng i = s.eng i := heng
      have hadm : (v.slot n).state = .admitted := by rw [hvs]; exact ha
      have hprog : (v.slot n).prog = some p := by rw [hvs]; exact hp
      have hctx : ((v.eng target).ctx c).state = .free := by rw [hve]; exact hfree
      have hmsg : v.message (u.msgTo target n m.bounces (.dispatch n)) = v.loadRun n target c :=
        message_again (by rw [hslot]; exact ha) (by rw [heng]; exact hta) (by rw [heng, hslot]; exact hth) (by rw [heng]; exact hi target)
          (by rw [hclu]; exact hw) (by rw [hclu]; exact hp0)
      refine ⟨_, exec_bounceDisposal hb (hd.trans hmsg) fun e => ?_, ?_⟩
      · rw [loadRun_inbox hprog hadm hctx, hve]; exact hi e
      · have har := loadRun_arrives (e := target) hprog hadm (by rw [hvs]; exact hctx)
        have hc' : (v.slot n).ctx = c := by rw [hvs]
        rw [hc'] at har
        obtain ⟨hs', -, hn', hpc', -, -, -, -, ht'⟩ := har
        refine ⟨?_, ?_, hn', hpc'⟩
        · rw [hs', hvs]
        · rw [ht']
          exact State.flushFor_bounced ..

end Sys2Proof.Machine
end

section
/-! Reads of HBM that meet latent errors, and fills of scratch: what they leave (16 R517, 04 R139). -/

namespace Sys2Proof.Machine

/-! ### Reads that meet errors of HBM -/

/-- `t` is `s` after reads of HBM: errors that were met are poisoned, counted and reported, and nothing else has changed. -/
def State.Met (s t : State) : Prop :=
  t = { s with
    poison := t.poison, hbmLatent := t.hbmLatent, frameErr := t.frameErr, chanUe := t.chanUe, regs := t.regs, errq := t.errq
    mediaMarks := t.mediaMarks, fns := t.fns, out := t.out, free := t.free }

theorem State.Met.refl (s : State) : s.Met s := rfl

theorem State.Met.trans {s t u : State} (h : s.Met t) (k : t.Met u) : s.Met u := by
  unfold State.Met at *
  rw [k, h]

theorem met_foldl {α : Type} {f : State → α → State} (hf : ∀ (s : State) (a : α), s.Met (f s a)) (l : List α) : ∀ s : State, s.Met (l.foldl f s) := by
  induction l with
  | nil => exact .refl
  | cons a l ih => exact fun s => (hf s a).trans (ih _)

theorem poisonGranule_met (s : State) (g : Nat) : s.Met (s.poisonGranule g) := by
  unfold State.poisonGranule
  dsimp only
  split
  · rfl
  · next h va _ =>
    have he : ∀ t : State, t.Met (t.hedgeEvent h (mediaEvent s.lehr.drawn va 1 1)) := fun t => by
      obtain ⟨q, o, hq⟩ := hedgeEvent_rest t h (mediaEvent s.lehr.drawn va 1 1)
      rw [hq]; rfl
    refine State.Met.trans ?_ (he _)
    rfl

theorem meetGranule_met (s : State) (g : Nat) : s.Met (s.meetGranule g) := by
  unfold State.meetGranule
  split
  · exact .refl s
  · rfl
  · exact poisonGranule_met s g

theorem meetRead_met (s : State) (a n : Nat) : s.Met (s.meetRead a n) := met_foldl meetGranule_met _ s

theorem meetRecord_met (s : State) (h : HedgeId) (va n : Nat) : s.Met (s.meetRecord h va n) := by
  refine met_foldl (fun t q => ?_) _ s
  split
  · exact meetRead_met ..
  · exact .refl _

section
variable {s t : State} (h : s.Met t)
include h

theorem State.Met.eng (e : EngId) : t.eng e = s.eng e := by unfold State.Met at h; rw [h]; rfl
theorem State.Met.clu (k : CluId) : t.clu k = s.clu k := by unfold State.Met at h; rw [h]; rfl
theorem State.Met.slot (n : SlotId) : t.slot n = s.slot n := by unfold State.Met at h; rw [h]; rfl
theorem State.Met.hedge (i : HedgeId) : t.hedge i = s.hedge i := by unfold State.Met at h; rw [h]; rfl
theorem State.Met.mover (m : MovId) : t.mover m = s.mover m := by unfold State.Met at h; rw [h]; rfl
theorem State.Met.hbm : t.hbm = s.hbm := by unfold State.Met at h; rw [h]
end

/-! ### Writes of HBM -/

/-- `t` is `s` but for bytes of HBM and what is known of their errors. -/
def State.HbmOnly (s t : State) : Prop := t = { s with hbm := t.hbm, poison := t.poison, hbmLatent := t.hbmLatent }

theorem State.HbmOnly.refl (s : State) : s.HbmOnly s := rfl

theorem State.HbmOnly.trans {s t u : State} (h : s.HbmOnly t) (k : t.HbmOnly u) : s.HbmOnly u := by
  unfold State.HbmOnly at *
  rw [k, h]

theorem hbmOnly_foldl {α : Type} {f : State → α → State} (hf : ∀ (s : State) (a : α), s.HbmOnly (f s a)) (l : List α) :
    ∀ s : State, s.HbmOnly (l.foldl f s) := by
  induction l with
  | nil => exact .refl
  | cons a l ih => exact fun s => (hf s a).trans (ih _)

theorem hbmWrite_hbmOnly (s : State) (a : Nat) (bs : List Byte) (pz : Bool) : s.HbmOnly (s.hbmWrite a bs pz) := rfl

theorem writeRecord_hbmOnly (s : State) (h : HedgeId) (va : Nat) (bs : List Byte) (pz : Bool) : s.HbmOnly (s.writeRecord h va bs pz) := by
  refine hbmOnly_foldl (fun t q => ?_) _ s
  split
  · exact hbmWrite_hbmOnly ..
  · exact .refl _

theorem scratchToRecord_hbmOnly (s : State) (e : EngId) (a : Nat) (h : HedgeId) (va n : Nat) : s.HbmOnly (s.scratchToRecord e a h va n) := by
  refine (writeRecord_hbmOnly ..).trans (hbmOnly_foldl (fun t k => ?_) _ _)
  split
  · exact writeRecord_hbmOnly ..
  · exact .refl _

section
variable {s t : State} (h : s.HbmOnly t)
include h

theorem State.HbmOnly.eng (e : EngId) : t.eng e = s.eng e := by unfold State.HbmOnly at h; rw [h]; rfl
theorem State.HbmOnly.clu (k : CluId) : t.clu k = s.clu k := by unfold State.HbmOnly at h; rw [h]; rfl
theorem State.HbmOnly.slot (n : SlotId) : t.slot n = s.slot n := by unfold State.HbmOnly at h; rw [h]; rfl
theorem State.HbmOnly.hedge (i : HedgeId) : t.hedge i = s.hedge i := by unfold State.HbmOnly at h; rw [h]; rfl
theorem State.HbmOnly.mover (m : MovId) : t.mover m = s.mover m := by unfold State.HbmOnly at h; rw [h]; rfl
end

/-! ### Channels -/

theorem State.setChan_chan_same (s : State) (m : MovId) (n : ChId) (c : Chan) : (s.setChan m n c).chan m n = c := by
  unfold State.chan State.setChan
  rw [State.setMover_mover_same]
  exact tget_tset_same _ _ _ _

/-! ### Fills of scratch -/

theorem Engine.rldFill_cell_same (e : Engine) (k : Nat) (c : Cell) : (e.rldFill k c).cell k = c := by
  simp [Engine.cell, Engine.rldFill, sbFind_filter_same, Engine.setScratch]

theorem Engine.rldFill_cell_ne (e : Engine) {k j : Nat} (c : Cell) (h : j ≠ k) : (e.rldFill k c).cell j = e.cell j := by
  simp [Engine.cell, Engine.rldFill, sbFind_filter_ne _ h, Engine.setScratch, tget_tset_ne _ _ _ _ h]

theorem cellsFrom_cons (k : Nat) (c : Cell) (l : List Cell) (j : Nat) :
    cellsFrom k (c :: l) j = if j = k then some c else cellsFrom (k + 1) l j := by
  unfold cellsFrom
  by_cases h : j = k
  · subst h; simp
  · by_cases hk : k + 1 ≤ j
    · rw [if_pos (by omega), if_neg h, if_pos hk]
      obtain ⟨d, hd⟩ : ∃ d, j - k = d + 1 := ⟨j - k - 1, by omega⟩
      rw [hd, List.getElem?_cons_succ, show j - (k + 1) = d by omega]
    · rw [if_neg (by omega), if_neg h, if_neg hk]

/-- A fill writes the cells given, and no other cell reads otherwise. -/
theorem Engine.fillFrom_cell (b : Bool) (l : List Cell) : ∀ (e : Engine) (k j : Nat),
    (e.fillFrom b k l).cell j = (cellsFrom k l j).getD (e.cell j) := by
  induction l with
  | nil => intro e k j; simp [Engine.fillFrom, cellsFrom]
  | cons c l ih =>
    intro e k j
    have hone : (if b then e.rldFill k c else e.writeThrough k c).cell j = if j = k then c else e.cell j := by
      split <;> split
      · next h => subst h; exact Engine.rldFill_cell_same ..
      · next h => exact Engine.rldFill_cell_ne _ _ h
      · next h => subst h; exact Engine.writeThrough_cell_same ..
      · next h => exact Engine.writeThrough_cell_ne _ _ h
    unfold Engine.fillFrom
    rw [ih, hone, cellsFrom_cons]
    by_cases h : j = k
    · subst h
      have hnone : cellsFrom (j + 1) l j = none := by simp [cellsFrom]
      simp [hnone]
    · simp [h]

theorem fillFrom_scratchOnly (b : Bool) (l : List Cell) : ∀ (e : Engine) (k : Nat), e.ScratchOnly (e.fillFrom b k l) := by
  induction l with
  | nil => exact fun e _ => .refl e
  | cons c l ih =>
    intro e k
    unfold Engine.fillFrom
    refine Engine.ScratchOnly.trans ?_ (ih _ _)
    split <;> rfl

end Sys2Proof.Machine
end

section
/-! O18: what the completion of an asynchronous instruction leaves (05 R169 to R177, 03 R73 and R74). -/

namespace Sys2Proof.Machine

/-! ### The arrival of a completion -/

/-- Nothing waits for the invalidation of a request that has completed. -/
def State.sync (t : State) (e : EngId) (c : CtxId) : State := { t with invWait := t.invWait.filter fun q => q != (e, c) }

/-- The cluster of a context that runs on wakes when its clock is gated. -/
def State.woken (s : State) (e : EngId) (c : CtxId) (t : State) : State :=
  if (s.clu (cluOf e)).pst = .c0 ∨ ((s.eng e).ctx c).yielded = true then t
  else t.setClu (cluOf e) { s.clu (cluOf e) with waking := true }

/-- The request of the context is the one that it waits for. -/
theorem request?_of_waitsFor {x : Ctx} {r : Req} {st : Stage} (h : x.waitsFor r st) : ∃ why, x.request? = some ⟨why, r, st, none⟩ := by
  obtain ⟨-, -, why, hw⟩ := h
  exact ⟨why, by simp [Ctx.request?, hw]⟩

/-- A context in WAIT takes an arrival at once: it resumes, and its cluster wakes. -/
theorem arriveAt_waiting {s : State} {e : EngId} {c : CtxId} (a : Arrival) (hs : ((s.eng e).ctx c).state = .wait)
    (he : ((s.eng e).ctx c).ending = false) (hw : ((s.eng e).ctx c).wait.isSome = true) :
    s.arriveAt e c a = s.woken e c ((s.sync e c).modCtx e c fun x => x.resume a) := by
  obtain ⟨w, hw⟩ := Option.isSome_iff_exists.1 hw
  have harr : ((s.eng e).ctx c).arrive a = ((s.eng e).ctx c).resume a := by simp [Ctx.arrive, hw, hs]
  have hstate : (((s.eng e).ctx c).resume a).state = .ready := by cases a <;> rfl
  have hyield : (((s.eng e).ctx c).resume a).yielded = ((s.eng e).ctx c).yielded := by cases a <;> rfl
  unfold State.arriveAt
  simp only [he, Bool.false_eq_true, if_false, hs, reduceCtorEq]
  show ((s.sync e c).modCtx e c fun x => x.arrive a).rouse e c = _
  have hm : ((s.sync e c).modCtx e c fun x => x.arrive a) = (s.sync e c).modCtx e c fun x => x.resume a := by
    rw [State.modCtx_eq, State.modCtx_eq]
    exact congrArg (fun x => (s.sync e c).setEng e (((s.sync e c).eng e).setCtx c x)) harr
  rw [hm]
  set t := (s.sync e c).modCtx e c fun x => x.resume a with ht
  have hctx : (t.eng e).ctx c = ((s.eng e).ctx c).resume a := by
    rw [ht, State.modCtx_eq, State.setEng_eng_same, Engine.setCtx_ctx_same]; rfl
  have hclu : ∀ k, t.clu k = s.clu k := fun _ => rfl
  unfold State.rouse State.woken State.running
  simp only [hctx, Ctx.wants, hstate, hyield, hclu, State.modClu_eq]
  by_cases hp : (s.clu (cluOf e)).pst = .c0
  · simp [hp]
  · cases ((s.eng e).ctx c).yielded <;> simp [hp]

/-- The completion cell is pushed. -/
theorem Ctx.resume_cell (x : Ctx) (k : Cell) : x.resume (.cell k) = x.completed k := by
  have hd : BitVec.ofNat 15 (x.depth.toNat - 0 + 1) = x.depth + 1 := by
    apply BitVec.eq_of_toNat_eq
    simp
  simp only [Ctx.resume, Ctx.popPush, Ctx.completed, List.length_singleton, hd]
  rfl

/-- What the completions leave of the device: the context as `f` makes it, its request done, and its cluster awake. -/
def State.ends (s : State) (e : EngId) (c : CtxId) (t : State) (f : Ctx → Ctx) : State := s.woken e c ((t.sync e c).modCtx e c f)

section
variable (s t : State) {e : EngId} {c : CtxId} (f : Ctx → Ctx)

theorem ends_eng : (s.ends e c t f).eng e = (t.eng e).setCtx c (f ((t.eng e).ctx c)) := by
  unfold State.ends State.woken
  split <;> exact State.setEng_eng_same (t.sync e c) _ _

theorem ends_eng_ne {i : EngId} (h : i ≠ e) : (s.ends e c t f).eng i = t.eng i := by
  unfold State.ends State.woken
  split <;> exact State.setEng_eng_ne (t.sync e c) _ _ _ h

theorem ends_slot (n : SlotId) : (s.ends e c t f).slot n = t.slot n := by
  unfold State.ends State.woken
  split <;> rfl

theorem ends_mover (m : MovId) : (s.ends e c t f).mover m = t.mover m := by
  unfold State.ends State.woken
  split <;> rfl

theorem ends_chan (m : MovId) (n : ChId) : (s.ends e c t f).chan m n = t.chan m n := by
  unfold State.chan
  rw [ends_mover]

theorem ends_hbm : (s.ends e c t f).hbm = t.hbm := by
  unfold State.ends State.woken
  split <;> rfl

end

section
variable {s : State} {e : EngId} {c : CtxId} {r : Req} {st : Stage} (h : ((s.eng e).ctx c).waitsFor r st)
include h

theorem arriveAt_plain : s.arriveAt e c .plain = s.ends e c s fun x => { x with wait := none, state := .ready } := by
  obtain ⟨hs, he, why, hw⟩ := h
  exact arriveAt_waiting .plain hs he (by rw [hw]; rfl)

theorem arriveAt_cell (k : Cell) : s.arriveAt e c (.cell k) = s.ends e c s fun x => x.completed k := by
  obtain ⟨hs, he, why, hw⟩ := h
  rw [arriveAt_waiting (.cell k) hs he (by rw [hw]; rfl)]
  simp only [Ctx.resume_cell]
  rfl

/-- A completion after the state has come to `t` by a change that leaves the context and the cluster. -/
theorem arriveAt_cell_of (t : State) (k : Cell) (ht : (t.eng e).ctx c = (s.eng e).ctx c) (hk : t.clu (cluOf e) = s.clu (cluOf e)) :
    t.arriveAt e c (.cell k) = s.ends e c t fun x => x.completed k := by
  rw [arriveAt_cell (s := t) (ht ▸ h) k]
  simp only [State.ends, State.woken, ht, hk]

end

/-! ### The single completions -/

section
variable {s : State} {e : EngId} {c : CtxId} {r : Cell} {key : BitVec 4}

theorem rlockComplete_ends {excl : Bool} :
    (((s.eng e).ctx c).waitsFor (.rlock r key excl) .data →
      exec (.rlockComplete e c) s = .next (s.ends e c s fun x => x.completed (cellBool true))) ∧
    (∀ st, ((s.eng e).ctx c).waitsFor (.rlock r key excl) (.failed st) →
      exec (.rlockComplete e c) s = .next (s.ends e c s fun x => x.completed (cellErr st))) := by
  refine ⟨fun h => ?_, fun st h => ?_⟩
  all_goals
    obtain ⟨why, hr⟩ := request?_of_waitsFor h
    show execRlockComplete e c s = _
    unfold execRlockComplete
    rw [hr]
    exact congrArg _ (arriveAt_cell h _)

theorem rprefAck_ends {st : Stage} (hst : st = .data ∨ (∃ va, st = .pageFault va) ∨ ∃ q, st = .failed q)
    (h : ((s.eng e).ctx c).waitsFor (.rpref r key) st) :
    exec (.rprefAck e c) s = .next (s.ends e c s fun x => { x with wait := none, state := .ready }) := by
  obtain ⟨why, hr⟩ := request?_of_waitsFor h
  show execRprefAck e c s = _
  unfold execRprefAck
  rw [hr]
  rcases hst with rfl | ⟨va, rfl⟩ | ⟨q, rfl⟩ <;> exact congrArg _ (arriveAt_plain h)

variable {a : Nat} {pl : BitVec 2}

theorem rldComplete_failed {st : Byte} (h : ((s.eng e).ctx c).waitsFor (.rld r key a pl) (.failed st)) :
    exec (.rldComplete e c) s = .next (s.ends e c s fun x => x.completed (cellErr st)) := by
  obtain ⟨why, hr⟩ := request?_of_waitsFor h
  show execRldComplete e c s = _
  unfold execRldComplete
  simp only [hr]
  exact congrArg _ (arriveAt_cell h _)

theorem rldComplete_guarded (h : ((s.eng e).ctx c).waitsFor (.rld r key a pl) .data) (hp : pl = 2)
    (hg : (s.eng e).guarded a (refLen r) = true) :
    exec (.rldComplete e c) s = .next (s.ends e c s fun x => x.completed (cellErr 0x05)) := by
  obtain ⟨why, hr⟩ := request?_of_waitsFor h
  show execRldComplete e c s = _
  unfold execRldComplete
  simp only [hr, if_pos (And.intro hp hg)]
  exact congrArg _ (arriveAt_cell h _)

/-- RLD writes the record's bytes to scratch. -/
theorem rldComplete_data (h : ((s.eng e).ctx c).waitsFor (.rld r key a pl) .data) (hg : pl = 2 → (s.eng e).guarded a (refLen r) = false) :
    let x := (s.eng e).ctx c
    let i := (s.slot x.slot).hedge
    let m := s.meetRecord i (refAddr r) (refLen r)
    let l := fillCells (m.readRecord i (refAddr r) (refLen r))
    Answers (.rldComplete e c) s fun t =>
      (t.eng e).ctx c = x.completed (cellBool true) ∧ (∀ j, (t.eng e).cell j = (cellsFrom (a / 16) l j).getD ((s.eng e).cell j)) ∧
      t = { s.woken e c (m.sync e c) with engines := t.engines, slots := t.slots } ∧ (∀ i, i ≠ e → t.eng i = s.eng i) ∧
      ∀ i, i ≠ x.slot → t.slot i = s.slot i := by
  intro x i m l
  obtain ⟨why, hr⟩ := request?_of_waitsFor h
  have hm : s.Met m := meetRecord_met ..
  set u := (m.setEng e ((m.eng e).fillFrom true (a / 16) l)).setSlot x.slot ((m.slot x.slot).noteRld r a) with hu
  have hex : exec (.rldComplete e c) s = .next (u.arriveAt e c (.cell (cellBool true))) := by
    show execRldComplete e c s = _
    unfold execRldComplete
    simp only [hr]
    rw [if_neg (by rintro ⟨hp, hq⟩; rw [hg hp] at hq; cases hq)]
    rfl
  have heng : u.eng e = (s.eng e).fillFrom true (a / 16) l := (State.setEng_eng_same m _ _).trans (by rw [hm.eng])
  have hctx : (u.eng e).ctx c = x := by rw [heng]; exact (fillFrom_scratchOnly ..).ctx c
  rw [arriveAt_cell_of h u _ hctx (hm.clu _)] at hex
  refine ⟨_, hex, ?_, fun j => ?_, ?_, fun i hi => ?_, fun i hi => ?_⟩
  · rw [ends_eng, Engine.setCtx_ctx_same, hctx]
  · rw [ends_eng, Engine.setCtx_cell, heng, Engine.fillFrom_cell]
  · unfold State.ends State.woken
    split <;> rfl
  · rw [ends_eng_ne _ _ _ hi]
    exact (State.setEng_eng_ne m _ _ _ hi).trans (hm.eng i)
  · rw [ends_slot]
    exact (State.setSlot_slot_ne _ _ _ _ hi).trans (hm.slot i)

variable (hh : s.stageHead e = some c) (hc : (s.chan (stageMover e) (stageChan e)).state ≠ .errHalt)
include hh hc

theorem stageComplete_failed {out : Bool} {st : Byte} (h : ((s.eng e).ctx c).waitsFor (.stage r key a out pl) (.failed st)) :
    Answers (.stageComplete e c) s fun t => (t.eng e).ctx c = ((s.eng e).ctx c).completed (cellErr st) ∧
      (∀ j, (t.eng e).cell j = (s.eng e).cell j) ∧ t.hbm = s.hbm := by
  obtain ⟨why, hr⟩ := request?_of_waitsFor h
  have hex : exec (.stageComplete e c) s = .next ((s.unstage e c).arriveAt e c (.cell (cellErr st))) := by
    show execStageComplete e c s = _
    unfold execStageComplete
    simp [hh, hc, hr]
  rw [arriveAt_cell_of h (s.unstage e c) _ rfl rfl] at hex
  refine ⟨_, hex, ?_, fun j => ?_, ?_⟩
  · rw [ends_eng, Engine.setCtx_ctx_same]; rfl
  · rw [ends_eng, Engine.setCtx_cell]; rfl
  · rw [ends_hbm]; rfl

/-- What a STAGE without a failure leaves: its copy, and the context with the cell that says how the copy went. -/
theorem stageComplete_copied {out : Bool} (h : ((s.eng e).ctx c).waitsFor (.stage r key a out pl) .data)
    (he : ∀ n, ((s.stageCopy e (s.slot ((s.eng e).ctx c).slot).hedge r a out pl).1.eng e).ctx n = (s.eng e).ctx n)
    (hk : (s.stageCopy e (s.slot ((s.eng e).ctx c).slot).hedge r a out pl).1.clu (cluOf e) = s.clu (cluOf e)) :
    let q := s.stageCopy e (s.slot ((s.eng e).ctx c).slot).hedge r a out pl
    exec (.stageComplete e c) s =
      .next (s.ends e c (q.1.unstage e c) fun x => x.completed (if q.2 = 0 then cellBool true else cellErr q.2)) := by
  obtain ⟨why, hr⟩ := request?_of_waitsFor h
  intro q
  have hex : exec (.stageComplete e c) s =
      .next ((q.1.unstage e c).arriveAt e c (.cell (if q.2 = 0 then cellYes else cellErr q.2))) := by
    show execStageComplete e c s = _
    unfold execStageComplete
    simp [hh, hc, hr, q]
  rw [hex, arriveAt_cell_of h (q.1.unstage e c) _ (he c) hk]
  rfl

/-- STAGE inward writes the record's bytes to scratch. -/
theorem stageComplete_inward (h : ((s.eng e).ctx c).waitsFor (.stage r key a false pl) .data)
    (hg : pl = 2 → (s.eng e).guarded a (refLen r) = false) :
    Answers (.stageComplete e c) s fun t =>
      let x := (s.eng e).ctx c
      let i := (s.slot x.slot).hedge
      let b := (s.meetRecord i (refAddr r) (refLen r)).readRecord i (refAddr r) (refLen r)
      (t.eng e).ctx c = x.completed (if b.any (·.2) = true then cellErr 0x04 else cellBool true) ∧
      (∀ j, (t.eng e).cell j = (cellsFrom (a / 16) (fillCells b) j).getD ((s.eng e).cell j)) ∧
      (t.chan (stageMover e) (stageChan e)).stages = (s.chan (stageMover e) (stageChan e)).stages.filter fun n => n != c := by
  set x := (s.eng e).ctx c with hx
  set i := (s.slot x.slot).hedge with hi
  set m := s.meetRecord i (refAddr r) (refLen r) with hm'
  have hm : s.Met m := meetRecord_met ..
  set b := m.readRecord i (refAddr r) (refLen r) with hb
  have hq : s.stageCopy e i r a false pl = (m.setEng e ((m.eng e).fillFrom false (a / 16) (fillCells b)), if b.any (·.2) then 0x04 else 0) := by
    unfold State.stageCopy
    simp only [Bool.false_eq_true, if_false]
    rw [if_neg (by rintro ⟨hp, hq⟩; rw [hg hp] at hq; cases hq)]
    rfl
  have heng : (m.setEng e ((m.eng e).fillFrom false (a / 16) (fillCells b))).eng e = (s.eng e).fillFrom false (a / 16) (fillCells b) := by
    rw [State.setEng_eng_same, hm.eng]
  have hctx : ∀ n, ((m.setEng e ((m.eng e).fillFrom false (a / 16) (fillCells b))).eng e).ctx n = (s.eng e).ctx n := fun n => by
    rw [heng]; exact (fillFrom_scratchOnly ..).ctx n
  have hex := stageComplete_copied hh hc h (by rw [← hx, ← hi, hq]; exact hctx) (by rw [← hx, ← hi, hq]; exact hm.clu _)
  rw [← hx, ← hi, hq] at hex
  refine ⟨_, hex, ?_, fun j => ?_, ?_⟩
  · rw [ends_eng, Engine.setCtx_ctx_same]
    show Ctx.completed (((State.setEng _ _ _).eng e).ctx c) _ = _
    rw [hctx]
    cases b.any (·.2) <;> rfl
  · rw [ends_eng, Engine.setCtx_cell]
    show (((State.setEng _ _ _).eng e)).cell j = _
    rw [heng, Engine.fillFrom_cell]
  · rw [ends_chan]
    unfold State.unstage
    rw [State.setChan_chan_same]
    show ((m.chan (stageMover e) (stageChan e)).stages.filter _) = _
    unfold State.chan
    rw [hm.mover]

/-- STAGE outward ends with the poison of what it read. -/
theorem stageComplete_outward (h : ((s.eng e).ctx c).waitsFor (.stage r key a true pl) .data) :
    Answers (.stageComplete e c) s fun t => (t.eng e).ctx c = ((s.eng e).ctx c).completed
      (if (cellsOf a (refLen r)).any (fun k => ((s.eng e).cell k).p) = true then cellErr 0x04 else cellBool true) := by
  set i := (s.slot ((s.eng e).ctx c).slot).hedge with hi
  set g := (s.eng e).meetAll (cellsOf a (refLen r)) with hg
  set v := (s.setEng e g).scratchToRecord e a i (refAddr r) (refLen r) with hv
  have hw : (s.setEng e g).HbmOnly v := scratchToRecord_hbmOnly ..
  have hq : s.stageCopy e i r a true pl = (v, if (cellsOf a (refLen r)).any fun k => ((s.eng e).cell k).p then 0x04 else 0) := rfl
  have hctx : ∀ n, (v.eng e).ctx n = (s.eng e).ctx n := fun n => by
    rw [hw.eng, State.setEng_eng_same]; exact (meetAll_scratchOnly ..).ctx n
  have hex := stageComplete_copied hh hc h (by rw [← hi, hq]; exact hctx) (by rw [← hi, hq]; exact hw.clu _)
  rw [← hi, hq] at hex
  refine ⟨_, hex, ?_⟩
  show ((s.ends e c (v.unstage e c) _).eng e).ctx c = _
  rw [ends_eng, Engine.setCtx_ctx_same]
  show Ctx.completed ((v.eng e).ctx c) _ = _
  rw [hctx]
  cases (cellsOf a (refLen r)).any fun k => ((s.eng e).cell k).p <;> rfl

end

/-! ### Events and commits -/

/-- The first message of a list that a test accepts, with none of its key before it. -/
theorem inTurn_eq {α κ : Type} [DecidableEq κ] {key : α → κ} {p : α → Bool} {l1 l2 : List α} {m : α} (hp : p m = true)
    (h1 : ∀ n ∈ l1, p n = false ∧ key n ≠ key m) : inTurn key p (l1 ++ m :: l2) = some m := by
  have hf : (l1 ++ m :: l2).find? p = some m := by
    rw [List.find?_append, List.find?_eq_none.2 fun n hn => by simp [(h1 n hn).1]]
    simp [hp]
  have ht : (l1 ++ m :: l2).takeWhile (fun x => !p x) = l1 := by
    rw [List.takeWhile_append_of_pos fun n hn => by simp [(h1 n hn).1]]
    simp [hp]
  unfold inTurn
  simp only [hf, ht]
  rw [if_neg]
  simpa using fun n hn => (h1 n hn).2

/-- A wake that its engine accepts gives the context SEQ. -/
theorem waitevWake_ends {s : State} {e : EngId} {c : CtxId} {slot : SlotId} {m : EngMsg} {ep : Word64} {q seq : BitVec 32} {i : Option Nat}
    (ht : ∃ l1 l2, s.wakes = l1 ++ m :: l2 ∧ ∀ n ∈ l1, msgSlot n.kind ≠ slot ∧ cluOf n.eng ≠ cluOf e)
    (hk : m.kind = .wake slot seq) (he : m.eng = e) (hh : s.holder slot = some (e, c)) (hs : (s.slot slot).start = m.start)
    (hi : (s.slot slot).state ≠ .idle) (hp : (s.slot slot).state ≠ .parked) (hx : ((s.eng e).ctx c).waitsFor (.waitev ep q i) .data)
    (hw : (s.clu (cluOf e)).waking = false) (hp0 : (s.clu (cluOf e)).pst = .c0) (hb : (s.eng e).inbox = [])
    (ha : s.accepts m = true) :
    exec (.waitevWake slot) s = .next (s.ends e c { s with wakes := s.wakes.erase m } fun x =>
      x.completed (cellSeq seq (s.slot slot).hedge)) := by
  obtain ⟨l1, l2, hl, hbefore⟩ := ht
  subst he
  have hturn : inTurn (fun m : EngMsg => cluOf m.eng) (fun m => msgSlot m.kind == slot) s.wakes = some m := by
    rw [hl]
    refine inTurn_eq (by simp [hk, msgSlot]) fun n hn => ?_
    obtain ⟨h1, h2⟩ := hbefore n hn
    exact ⟨by simpa using h1, h2⟩
  obtain ⟨why, hr⟩ := request?_of_waitsFor hx
  set u : State := { s with wakes := s.wakes.erase m } with hu
  have hmsg : u.message m = u.deliver m := (message_clearPort (s := u) hw hp0 hb).1 ha
  have hslot : u.inWaitev slot = true := by
    have hhold : u.holder slot = some (m.eng, c) := hh
    have hreq : ((u.eng m.eng).ctx c).request? = some ⟨why, .waitev ep q i, .data, none⟩ := hr
    simp only [State.inWaitev, State.slotRequest, hhold, hreq]
  have hdel : u.deliver m = u.arriveSlot slot (.cell (cellSeq seq (s.slot slot).hedge)) := by
    have hstart : (u.slot slot).start = m.start := hs
    have hstate : (u.slot slot).state ≠ .idle := hi
    unfold State.deliver
    simp only [hk, msgSlot, hslot, hstart, hstate, bne_self_eq_false, beq_iff_eq, Bool.false_or, if_false, if_true]
    rfl
  have harr : u.arriveSlot slot (.cell (cellSeq seq (s.slot slot).hedge)) = u.arriveAt m.eng c (.cell (cellSeq seq (s.slot slot).hedge)) := by
    have hhold : u.holder slot = some (m.eng, c) := hh
    simp only [State.arriveSlot, hhold]
  show execWaitevWake slot s = _
  unfold execWaitevWake
  simp only [hturn, if_neg hp]
  rw [← hu, hmsg, hdel, harr, arriveAt_cell_of hx u _ rfl rfl]

/-- A WAITEV whose time is up ends TIMEOUT. -/
theorem waitevTimeout_ends {s : State} {e : EngId} {c : CtxId} {slot : SlotId} {w : EvWait} {n : Nat} {ep : Word64} {q : BitVec 32}
    {i : Option Nat} (hw : (s.hedge (s.slot slot).hedge).waitList.find? (fun w => w.slot == slot) = some w) (hx : w.expires = some n)
    (hn : n ≤ s.aoTick.toNat) (hh : s.holder slot = some (e, c)) (h : ((s.eng e).ctx c).waitsFor (.waitev ep q i) .data) :
    exec (.waitevTimeout slot) s = .next (s.ends e c (s.modHedge (s.slot slot).hedge fun g => { g with
      deadRaised := false, deadSince := none, waitList := g.waitList.erase w }) fun x => x.completed (cellErr 0x03)) := by
  set u := s.modHedge (s.slot slot).hedge fun g => { g with deadRaised := false, deadSince := none, waitList := g.waitList.erase w } with hu
  have hex : exec (.waitevTimeout slot) s = .next (u.arriveSlot slot (.cell (cellErr 0x03))) := by
    show execWaitevTimeout slot s = _
    unfold execWaitevTimeout
    simp only [hw, hx, if_pos hn]
    rfl
  have hhold : u.holder slot = some (e, c) := hh
  rw [hex, State.arriveSlot]
  simp only [hhold]
  rw [arriveAt_cell_of h u _ rfl rfl]

/-- A commit that has ended frees its context and counts the events that nobody has taken. -/
theorem commitOutcome_frees {s : State} {e : EngId} {c : CtxId} {why : BitVec 4} {v : Word64} {a b : Nat} {st : Stage} {d : Option Arrival}
    (hs : ((s.eng e).ctx c).state = .wait) (hw : ((s.eng e).ctx c).wait = some ⟨why, .commit v a b, st, d⟩)
    (hn : (s.slot ((s.eng e).ctx c).slot).state ≠ .sealing) :
    Answers (.commitOutcome e c) s fun t => let h := (s.eng e).hedge
      ((t.eng e).ctx c).state = .free ∧ (t.hedge h).evDiscards = satAdd (s.hedge h).evDiscards ((s.eng e).ctx c).pendingCount ∧
      t = { s.sync e c with engines := t.engines, hedges := t.hedges, clus := t.clus } ∧ (∀ i, i ≠ h → t.hedge i = s.hedge i) := by
  set u := s.modHedge (s.eng e).hedge fun h => { h with evDiscards := satAdd h.evDiscards ((s.eng e).ctx c).pendingCount } with hu
  have hex : exec (.commitOutcome e c) s = .next (u.freeCtx e c) := by
    have hc : ((s.eng e).ctx c).committing = true := by simp [Ctx.committing, hw]
    show execCommitOutcome e c s = _
    unfold execCommitOutcome
    simp only [hs, hc, hn, true_and, ne_eq, not_false_eq_true, if_true]
    rfl
  refine ⟨_, hex, ?_, ?_, rfl, fun i hi => ?_⟩
  · rw [freeCtx_ctx]; rfl
  · exact congrArg Hedge.evDiscards (State.setHedge_hedge_same s _ _)
  · exact State.setHedge_hedge_ne s _ _ _ hi

/-- Settles O18, completion by completion. -/
theorem completionsReachTheirContexts : Obligations.CompletionsReachTheirContexts := by
  intro s e c
  refine ⟨fun r key excl => rlockComplete_ends, fun r key st hst h => rprefAck_ends hst h,
    fun r key a pl => ⟨fun st h => rldComplete_failed h, fun h hp hg => rldComplete_guarded h hp hg, fun h hg => rldComplete_data h hg⟩,
    fun r key a pl out st hh hc h => stageComplete_failed hh hc h,
    fun r key a pl hh hc hg h => stageComplete_inward hh hc h hg,
    fun r key a pl hh hc h => stageComplete_outward hh hc h, ?_, ?_, ?_⟩
  · intro slot m ep q seq i g ht hk he hh hs hi hp hx hw hp0 hb hga hme hmp hmt
    exact waitevWake_ends ht hk he hh hs hi hp hx hw hp0 hb (accepts_iff.2 (by rw [he]; exact ⟨hga, hme, hmp, hmt⟩))
  · intro slot w n ep q i h hw hx hn hh hwait
    exact waitevTimeout_ends hw hx hn hh hwait
  · intro why v a b st d hs hw hn
    exact commitOutcome_frees hs hw hn

end Sys2Proof.Machine
end

section
/-! O20: writes of the engine registers and of the context windows (03 R79, R108, 07 R223, 08 R273, 19 R598). -/

namespace Sys2Proof.Machine

/-- A field by its number, or cut out. -/
theorem ofNat_bits {n : Nat} (v : BitVec n) (hi lo : Nat) : BitVec.ofNat (hi + 1 - lo) (bits v hi lo) = v.extractLsb' lo (hi + 1 - lo) := by
  apply BitVec.eq_of_toNat_eq
  simp [bits, Nat.shiftRight_eq_div_pow]

theorem bits_lt {n : Nat} (v : BitVec n) (hi lo : Nat) : bits v hi lo < 2 ^ (hi + 1 - lo) := Nat.mod_lt _ (Nat.two_pow_pos _)

theorem extract_eq_zero_iff {n : Nat} (v : BitVec n) (hi lo : Nat) : v.extractLsb' lo (hi + 1 - lo) = 0 ↔ bits v hi lo = 0 := by
  rw [← ofNat_bits, ← BitVec.toNat_inj]
  simp [Nat.mod_eq_of_lt (bits_lt v hi lo)]

section
variable {s : State} {r : Requester} {e : EngId} {v : Word64} (hr : s.reaches r = true)
include hr

theorem engSwinWrite_legal (h : 1 ≤ bits v 32 28 ∧ bits v 32 28 ≤ 16 ∧ 1 ≤ bits v 17 12 ∧ bits v 17 12 + bits v 32 28 ≤ 0x38) :
    exec (.engSwinWrite r e v) s =
      .next (s.setEng e { s.eng e with swinBase := v.extractLsb' 12 6, swinSize := v.extractLsb' 28 5 }) := by
  obtain ⟨h1, h2, h3, h4⟩ := h
  show execEngSwinWrite r e v s = _
  unfold execEngSwinWrite
  dsimp only
  rw [if_neg (by simp [hr]; omega)]
  simp only [ofNat_bits v 17 12, ofNat_bits v 32 28]
  rfl

theorem engSwinWrite_illegal (h : ¬(1 ≤ bits v 32 28 ∧ bits v 32 28 ≤ 16 ∧ 1 ≤ bits v 17 12 ∧ bits v 17 12 + bits v 32 28 ≤ 0x38)) :
    exec (.engSwinWrite r e v) s = .next s := by
  show execEngSwinWrite r e v s = _
  unfold execEngSwinWrite
  dsimp only
  rw [if_pos (by simp [hr]; omega)]

theorem engCptWrite_legal (h : bits v 7 0 = 0 ∨ 8 ≤ bits v 17 8 ∧ bits v 17 8 + bits v 7 0 ≤ 0x380) :
    exec (.engCptWrite r e v) s =
      .next (s.setEng e { s.eng e with cptCount := v.extractLsb' 0 8, cptBase := v.extractLsb' 8 10 }) := by
  show execEngCptWrite r e v s = _
  unfold execEngCptWrite
  dsimp only
  rw [if_neg (by simp [hr]; omega)]
  simp only [ofNat_bits v 7 0, ofNat_bits v 17 8]
  rfl

theorem engCptWrite_illegal (h : ¬(bits v 7 0 = 0 ∨ 8 ≤ bits v 17 8 ∧ bits v 17 8 + bits v 7 0 ≤ 0x380)) :
    exec (.engCptWrite r e v) s = .next s := by
  show execEngCptWrite r e v s = _
  unfold execEngCptWrite
  dsimp only
  rw [if_pos (by simp [hr]; omega)]

theorem engWdogWrite_free (h : (s.eng e).anyResident = false) :
    exec (.engWdogWrite r e v) s = .next (s.setEng e { s.eng e with
      wdogLimit := if 1 ≤ bits v 15 0 ∧ bits v 15 0 ≤ 9 then 10 else v.extractLsb' 0 16 }) := by
  have hv : BitVec.ofNat 16 (if (bits v 15 0 != 0 && decide (bits v 15 0 < 10)) = true then 10 else bits v 15 0) =
      if 1 ≤ bits v 15 0 ∧ bits v 15 0 ≤ 9 then 10 else v.extractLsb' 0 16 := by
    have hc : (bits v 15 0 != 0 && decide (bits v 15 0 < 10)) = true ↔ 1 ≤ bits v 15 0 ∧ bits v 15 0 ≤ 9 := by
      simp; omega
    simp only [hc]
    split
    · rfl
    · exact ofNat_bits v 15 0
  show execEngWdogWrite r e v s = _
  unfold execEngWdogWrite
  simp only [hr, h, hv, Bool.not_true, Bool.or_false, Bool.false_eq_true, if_false]
  rfl

omit hr in
theorem engWdogWrite_resident (h : (s.eng e).anyResident = true) : exec (.engWdogWrite r e v) s = .next s := by
  show execEngWdogWrite r e v s = _
  unfold execEngWdogWrite
  dsimp only
  rw [if_pos (by simp [h])]

theorem engCtlWrite_sets : exec (.engCtlWrite r e v) s = .next (s.setEng e { s.eng e with
    strict := bit v 0, rso := bit v 1, lben := bit v 2, idlegate := bit v 3, loop := if bit v 2 then (s.eng e).loop else none }) := by
  show execEngCtlWrite r e v s = _
  unfold execEngCtlWrite
  rw [if_neg (by simp [hr])]
  rfl

variable {c : CtxId} {off : Fin 128}

theorem contextWindowWrite_open
    (h : ((s.eng e).ctx c).state = .free ∨ ((s.eng e).ctx c).state = .parking ∨ ((s.eng e).ctx c).state = .quarantined) :
    exec (.contextWindowWrite r e c off v) s = .next (s.setEng e ((s.eng e).setCtx c (((s.eng e).ctx c).windowWrite off.val v))) := by
  show execContextWindowWrite r e c off v s = _
  unfold execContextWindowWrite
  dsimp only
  rw [if_pos (by rcases h with h | h | h <;> simp [hr, h])]
  rfl

omit hr in
theorem contextWindowWrite_shut
    (h : ¬(((s.eng e).ctx c).state = .free ∨ ((s.eng e).ctx c).state = .parking ∨ ((s.eng e).ctx c).state = .quarantined)) :
    exec (.contextWindowWrite r e c off v) s = .next s := by
  obtain ⟨h1, h2, h3⟩ : ((s.eng e).ctx c).state ≠ .free ∧ ((s.eng e).ctx c).state ≠ .parking ∧ ((s.eng e).ctx c).state ≠ .quarantined := by
    simpa [not_or] using h
  show execContextWindowWrite r e c off v s = _
  unfold execContextWindowWrite
  dsimp only
  rw [if_neg (by simp [h1, h2, h3])]

end

theorem windowWrite_psw {x : Ctx} {v : Word64} (h1 : bits v 1 0 ≠ 3) (h2 : bits v 14 12 ≤ 5) :
    x.windowWrite 1 v = { x with
      psw := { x.psw with pl := v.extractLsb' 0 2, m := v.extractLsb' 4 3, key := v.extractLsb' 8 4, rm := v.extractLsb' 12 3 } } := by
  unfold Ctx.windowWrite
  simp only [if_neg (show ¬(bits v 1 0 = 3 ∨ 5 < bits v 14 12) by omega)]

/-- FL reads 0 as the end of scratch above a frame base (log 11). -/
theorem windowWrite_frame {x : Ctx} {v : Word64} :
    x.windowWrite 3 v = { x with
      fp := v.extractLsb' 0 18, fbase := v.extractLsb' 36 18
      fl := if bits v 35 18 = 0 ∧ bits v 53 36 ≠ 0 then 0x40000 else BitVec.ofNat 19 (bits v 35 18) } := by
  have hfl : flOf (v.extractLsb' 18 18) (v.extractLsb' 36 18) =
      if bits v 35 18 = 0 ∧ bits v 53 36 ≠ 0 then 0x40000 else BitVec.ofNat 19 (bits v 35 18) := by
    have h1 := extract_eq_zero_iff v 35 18
    have h2 := extract_eq_zero_iff v 53 36
    have hset : (v.extractLsb' 18 18).setWidth 19 = BitVec.ofNat 19 (bits v 35 18) := by
      rw [← ofNat_bits v 35 18]
      apply BitVec.eq_of_toNat_eq
      have hlt : bits v 35 18 < 262144 := bits_lt v 35 18
      simp [Nat.mod_eq_of_lt hlt]
    simp only [flOf, ne_eq, h1, h2, hset]
  unfold Ctx.windowWrite
  simp only [hfl]

theorem windowWrite_local {x : Ctx} {v : Word64} {off : Nat} (h1 : 32 ≤ off) (h2 : off < 96) :
    x.windowWrite off v = x.setLocal ((off - 32) / 4) ((x.local ((off - 32) / 4)).setWord ((off - 32) % 4) v) := by
  unfold Ctx.windowWrite
  split
  · omega
  · omega
  · omega
  · omega
  · rw [if_pos ⟨h1, h2⟩]

/-- Settles O20, register by register. -/
theorem engineRegistersTakeTheirWrites : Obligations.EngineRegistersTakeTheirWrites := by
  intro s r e v g hr
  refine ⟨⟨engSwinWrite_legal hr, engSwinWrite_illegal hr⟩, ⟨engCptWrite_legal hr, engCptWrite_illegal hr⟩,
    ⟨engWdogWrite_free hr, engWdogWrite_resident⟩, engCtlWrite_sets hr, fun c off => ⟨fun h => ?_, contextWindowWrite_shut⟩⟩
  rw [contextWindowWrite_open hr h]
  refine ⟨fun ho => ?_, fun ho h1 h2 => ?_, fun ho => ?_, fun ho => ?_, fun h1 h2 => ?_⟩
  · rw [ho]; rfl
  · rw [ho, windowWrite_psw h1 h2]
  · rw [ho]; rfl
  · rw [ho, windowWrite_frame]
  · rw [windowWrite_local h1 h2]

end Sys2Proof.Machine
end

section
/-! O19: a role write also raises clusters that lie below their floor, and what they lose shows. -/

namespace Sys2Proof.Machine

/-- Cluster 1 lies in C3, below its FLOOR of C1, and an engine of it holds a translation. -/
def State.belowFloor : State :=
  { State.reset with
    clus := [(1, { Clu.reset with pst := .c3, floor := 1 })]
    engines := [(8, { Engine.reset with dtlb := [(0, { TlbEntry.empty with valid := true })] })] }

/-- Firmware's pass over the floors at the end of a role write raises cluster 1, whose engines lose their translations (14 R457). -/
theorem belowFloor_engRoleWrite :
    ∃ t, exec (.engRoleWrite (.thread 0) 0 0) State.belowFloor = .next t ∧ (t.eng 8).dtlb = [] := ⟨_, rfl, by decide +kernel⟩

/-- Refutes O19: a write of ENG_ROLE of engine 0 that changes nothing leaves engine 8 without the translation that it held, where the
statement lets no field of another engine but its home windows differ. -/
theorem not_roleWritesAssignAndClear : ¬ Obligations.RoleWritesAssignAndClear := by
  unfold Obligations.RoleWritesAssignAndClear
  rintro ⟨h, -⟩
  obtain ⟨-, -, hmoved, -⟩ := h State.belowFloor (.thread 0) 0 0 rfl
  obtain ⟨t, ht, ⟨hothers, -⟩, -⟩ := hmoved (by decide) (by decide) (by decide) (.inl (by decide +kernel))
  obtain ⟨u, hu, hlost⟩ := belowFloor_engRoleWrite
  obtain rfl : u = t := by rw [hu] at ht; exact Host.Outcome.next.inj ht
  have hkept : (u.eng 8).dtlb = (State.belowFloor.eng 8).dtlb := by rw [hothers 8 (by decide)]
  rw [hlost] at hkept
  exact absurd hkept (by decide +kernel)

end Sys2Proof.Machine
end

section
/-! O21: a table of engines may list an engine twice, and the choice of an unpark target counts the entry that no read shows. -/

namespace Sys2Proof.Machine

/-- A program without code, which every cluster holds. -/
def emptyProg : Prog :=
  { super := false, fast := false, retry := 0, key := 0, rm := 0, tmpl := 0, caddr := 0, clen := 0, entry := 0, sbase := 0, sstride := 0
    ssize := 0, wbase := 0, wstride := 0, wsize := 0, sglmax := 0, at_ := 0, image := [], window := [] }

/-- A parked slot of hedge 0 that may run, engine 1 the only one that reads as assigned to the hedge, and an entry for engine 0 behind
the one that it is read by. -/
def State.shadowedEngine : State :=
  { State.reset with
    engines := [(0, { Engine.reset with rso := false }), (0, { Engine.reset with assigned := true }), (1, { Engine.reset with assigned := true })]
    slots := [(0, { Slot.reset with state := .parked, runnable := true, prog := some emptyProg, image := some ⟨Ctx.reset, [], []⟩ })] }

/-- The slot does not unpark into engine 1: the choice falls on engine 0. -/
theorem shadowedEngine_unpark : exec (.unpark 0 1 0) State.shadowedEngine = .next State.shadowedEngine := by
  have h : State.shadowedEngine.bestTarget (State.shadowedEngine.hedgePort 0) 0
      (State.shadowedEngine.unparkTargets (State.shadowedEngine.slot 0) emptyProg) = some (0, 0) := by decide +kernel
  show execUnpark 0 1 0 State.shadowedEngine = _
  unfold execUnpark
  have hm : (State.shadowedEngine.slot 0).image = some ⟨Ctx.reset, [], []⟩ := rfl
  have hp : (State.shadowedEngine.slot 0).prog = some emptyProg := rfl
  have hh : (State.shadowedEngine.slot 0).hedge = 0 := rfl
  simp only [hm, hp, hh, h]
  rw [if_neg (by rintro ⟨-, -, h⟩; exact absurd h (by decide))]

/-- Refutes O21: of the engines that read as assigned to the hedge engine 1 is the only one, and it has a FREE context and holds the
program, but the slot stays parked. -/
theorem not_contextsParkAndUnpark : ¬ Obligations.ContextsParkAndUnpark := by
  unfold Obligations.ContextsParkAndUnpark
  intro h
  have honly : ∀ i : EngId, (State.shadowedEngine.eng i).assigned = true →
      (State.shadowedEngine.eng i).hedge = (State.shadowedEngine.slot 0).hedge → i = 1 := by
    intro i hi _
    by_contra hn
    by_cases h0 : i = 0
    · subst h0
      exact absurd hi (by decide)
    · have h0 : i.val ≠ 0 := fun k => h0 (Fin.ext k)
      have h1 : i.val ≠ 1 := fun k => hn (Fin.ext k)
      simp [State.eng, State.shadowedEngine, tget, h0, h1, Engine.reset] at hi
  obtain ⟨-, -, hun, -⟩ := h State.shadowedEngine 1 0 emptyProg
  obtain ⟨-, hrun⟩ := hun 0 ⟨Ctx.reset, [], []⟩ rfl rfl rfl rfl rfl rfl rfl rfl (by decide) (by decide +kernel) rfl (.inl honly)
  obtain ⟨t, ht, hs, -⟩ := hrun rfl rfl
  obtain rfl : State.shadowedEngine = t := by rw [shadowedEngine_unpark] at ht; exact Host.Outcome.next.inj ht
  exact absurd (congrArg Slot.state hs) (by decide)

end Sys2Proof.Machine
end

section
/-! O22: a table of engines may list an engine twice, and the choice at a doorbell counts the entry that no read shows. -/

namespace Sys2Proof.Machine

/-- The rings of function 1 are READY for hedge 0; engine 0 is unassigned, and an entry behind the one that it is read by is assigned. -/
def State.shadowedFast : State :=
  { State.reset with
    engines := [(0, { Engine.reset with rso := false }), (0, { Engine.reset with assigned := true })]
    fns := [(1, { Fn.reset with state := .ready, hedge := some 0 })] }

/-- The doorbell chooses context 0 of engine 0. -/
theorem shadowedFast_targets :
    ((State.shadowedFast.sqBell 1 1).fn 1).targets = [some (0, 0)] := by decide +kernel

/-- Refutes O22: the doorbell makes one entry visible and chooses an engine for it that does not read as assigned. -/
theorem not_ringsAreConfiguredAndMoved : ¬ Obligations.RingsAreConfiguredAndMoved := by
  unfold Obligations.RingsAreConfiguredAndMoved
  rintro ⟨h, -⟩
  obtain ⟨-, hbell, -⟩ := h State.shadowedFast 1 1
  obtain ⟨-, hsome⟩ := hbell (by decide) (by decide)
  obtain ⟨t, ht, cs, -, hfn, -, -, hmay, -⟩ := hsome 0 (by decide)
  obtain rfl : State.shadowedFast.sqBell 1 1 = t := Host.Outcome.next.inj ht
  have hcs : cs = [some (0, 0)] := by
    exact (congrArg Fn.targets hfn).symm.trans shadowedFast_targets
  obtain ⟨⟨hasg, -⟩, -⟩ := hmay 0 0 (by rw [hcs]; exact List.mem_singleton_self _)
  exact absurd hasg (by decide)

end Sys2Proof.Machine
end

section
/-! O26: a table of engines may list an engine twice, and firmware's choice for a dispatch counts the entry that no read shows. -/

namespace Sys2Proof.Machine

/-- A slot of hedge 0 is admitted, engine 1 is the only one that reads as assigned to the hedge, and engine 0 has an assigned entry behind
the one that it is read by. -/
def State.shadowedGeneral : State :=
  { State.reset with
    engines := [(0, { Engine.reset with role := 1 }), (0, { Engine.reset with assigned := true }),
      (1, { Engine.reset with assigned := true, role := 1 })]
    hedges := [(0, { Hedge.reset with fn := some 1 })]
    slots := [(0, { Slot.reset with state := .admitted, prog := some emptyProg })] }

/-- The slot is not dispatched to engine 1: the choice falls on engine 0. -/
theorem shadowedGeneral_dispatch : exec (.firmwareDispatch 0 1 0) State.shadowedGeneral = .next State.shadowedGeneral := by
  have h : State.shadowedGeneral.bestTarget (State.shadowedGeneral.hedgePort 0) 0
      (State.shadowedGeneral.dispatchTargets (State.shadowedGeneral.slot 0) emptyProg) = some (0, 0) := by decide +kernel
  show execFirmwareDispatch 0 1 0 State.shadowedGeneral = _
  unfold execFirmwareDispatch
  have hp : (State.shadowedGeneral.slot 0).prog = some emptyProg := rfl
  have hh : (State.shadowedGeneral.slot 0).hedge = 0 := rfl
  simp only [hp, hh, h]
  rw [if_neg (by simp)]

/-- Refutes O26: of the engines that read as assigned to the hedge engine 1 is the only one, and it has a FREE context that nothing
reserves, but the slot stays admitted. -/
theorem not_runsReachTheirContexts : ¬ Obligations.RunsReachTheirContexts := by
  unfold Obligations.RunsReachTheirContexts
  intro h
  have honly : ∀ i : EngId, (State.shadowedGeneral.eng i).assigned = true →
      (State.shadowedGeneral.eng i).hedge = (State.shadowedGeneral.slot 0).hedge → i = 1 := by
    intro i hi _
    by_contra hn
    by_cases h0 : i = 0
    · subst h0
      exact absurd hi (by decide)
    · have h0 : i.val ≠ 0 := fun k => h0 (Fin.ext k)
      have h1 : i.val ≠ 1 := fun k => hn (Fin.ext k)
      simp [State.eng, State.shadowedGeneral, tget, h0, h1, Engine.reset] at hi
  obtain ⟨-, -, -, -, hdisp, -⟩ := h State.shadowedGeneral 1 0 (Cmd.fresh [] 0 none none) 0 emptyProg rfl rfl
  obtain ⟨t, ht, hs, -⟩ := hdisp 1 0 rfl rfl (by intro c hc; cases hc) rfl rfl rfl (by decide)
    (fun y hy => absurd hy (Fin.not_lt_zero y)) rfl (by decide +kernel) rfl rfl rfl (.inl honly)
  obtain rfl : State.shadowedGeneral = t := by rw [shadowedGeneral_dispatch] at ht; exact Host.Outcome.next.inj ht
  exact absurd (congrArg Slot.state hs) (by decide)

end Sys2Proof.Machine
end

section
/-! The polymorphic instructions of two operands (05 R143, R153, R156, R158, R162, 06 R188, R190): one result, or the fault of its form,
in the place of both operands; and the quotients and remainders of DIV and REM. -/

namespace Sys2Proof.Machine

section
variable {i : Instr} {s : State} {x : Iss} {op : BinOp} {code : Nat} {a b : Cell} {r : List Cell} {form : Form}
  (hex : exec i s = .next (s.issue x (polyInfo (!op.divides)) code (polyBody op) id)) (hi : s.issues x (polyInfo (!op.divides)) = true)
  (hs : (s.view x).stack = b :: a :: r) (ht : binTags (s.env x (polyInfo (!op.divides))) a b = .ok ())
  (hform : binForm (hasPx x.px 0xF1) a b = form)
include hex hi hs ht hform

/-- A polymorphic instruction of accepted operands replaces them by the result of the form that their tags select (05 R143). -/
theorem poly_does {c : Cell} (hr : polyResult (s.env x (polyInfo (!op.divides))) op form a b = .ok c)
    (hu : ∀ u, (op.timing form).2.1 = some u → s.unitReady x code u (op.timing form).1 = true) :
    Does i s x (s.moved x (polyInfo (!op.divides)) (c :: r)) := by
  have hb : stackTop (s.eng x.eng) (s.bodyCtx x (polyInfo (!op.divides))) 0 = b := bodyCtx_stackTop hs (by simp)
  have ha : stackTop (s.eng x.eng) (s.bodyCtx x (polyInfo (!op.divides))) 1 = a := bodyCtx_stackTop hs (by simp)
  refine does_cells_onUnit (qs := [c]) (aband := (op.timing form).2.2) hex hi ?_ hu rfl (by rw [hs]; rfl)
  simp only [polyBody, hb, ha, ht, State.env_cvt, hform, hr, ok_bind]
  rfl

/-- A polymorphic instruction whose form refuses the operands faults (05 R141). -/
theorem poly_faults {f : SFault} (hr : polyResult (s.env x (polyInfo (!op.divides))) op form a b = .error f) :
    exec i s = .next (s.faults x f) := by
  have hb : stackTop (s.eng x.eng) (s.bodyCtx x (polyInfo (!op.divides))) 0 = b := bodyCtx_stackTop hs (by simp)
  have ha : stackTop (s.eng x.eng) (s.bodyCtx x (polyInfo (!op.divides))) 1 = a := bodyCtx_stackTop hs (by simp)
  exact exec_faults hex hi (by simp only [polyBody, hb, ha, ht, State.env_cvt, hform, hr, ok_bind, error_bind])
end

/-! ### Accepted operands -/

/-- An operand of DIV or REM: an INT, a FLT, or a DEC that is valid or poisoned (05 R143, 06 R190). -/
def Cell.IsNumber (c : Cell) : Prop := c.ty = tyINT ∨ c.ty = tyFLT ∨ (c.ty = tyDEC ∧ (c.p = true ∨ decBad c.pay = none))

theorem Cell.IsNumber.formOf {c : Cell} (h : c.IsNumber) : (formOf c.ty).isSome = true := by
  rcases h with h | h | ⟨h, -⟩ <;> rw [h] <;> rfl

/-- A DEC that is valid or poisoned may be used (06 R190). -/
theorem decUse_ok {n : Nat} {c : Cell} (h : c.p = true ∨ decBad c.pay = none) : decUse n c = .ok () := by
  unfold decUse
  rcases h with h | h
  · rw [if_pos h]
  · rw [h, ite_self]

/-- The use check passes for a number that is a DEC or is not read as one (06 R190). -/
theorem Cell.IsNumber.decUse {c : Cell} (h : c.IsNumber) (hd : c.ty = tyDEC) (n : Nat) : decUse n c = .ok () := by
  rcases h with h | h | ⟨-, h⟩
  · exact absurd (h.symm.trans hd) (by decide)
  · exact absurd (h.symm.trans hd) (by decide)
  · exact decUse_ok h

/-- Two numbers of one TYPE, or any two under P.CVT, pass the tag checks (05 R143, R158). -/
theorem binTags_numbers {v : Env} {a b : Cell} (ha : a.IsNumber) (hb : b.IsNumber) (has : a.sub = 0) (hbs : b.sub = 0)
    (h : a.ty = b.ty ∨ v.cvt = true) : binTags v a b = .ok () := by
  have hw : ∀ c : Cell, c.IsNumber → c.sub = 0 → c.wellFormed = true := by
    rintro c (hc | hc | ⟨hc, -⟩) h0
    · exact wellFormed_int hc h0
    · exact wellFormed_flt hc h0
    · exact wellFormed_dec hc h0
  have hsame : (if v.cvt = true then (formOf a.ty).isSome else decide (a.ty = b.ty)) = true := by
    by_cases hc : v.cvt = true
    · rw [if_pos hc, ha.formOf]
    · rw [if_neg hc, decide_eq_true (h.resolve_right hc)]
  exact tagCheck_ok _ _ (by simp [hw a ha has, hw b hb hbs, hb.formOf, hsame])

/-- A number that is neither FLT nor DEC is an INT. -/
theorem Cell.IsNumber.int_of_ne {c : Cell} (h : c.IsNumber) (hf : c.ty ≠ tyFLT) (hd : c.ty ≠ tyDEC) : c.ty = tyINT := by
  rcases h with h | h | ⟨h, -⟩
  · exact h
  · exact absurd h hf
  · exact absurd h hd

/-- A DEC and no FLT run the DEC form (05 R158). -/
theorem binForm_dec {cvt : Bool} {a b : Cell} (ha : a.IsNumber) (hb : b.IsNumber) (h : a.ty = b.ty ∨ cvt = true)
    (hd : a.ty = tyDEC ∨ b.ty = tyDEC) (haf : a.ty ≠ tyFLT) (hbf : b.ty ≠ tyFLT) : binForm cvt a b = .dec := by
  by_cases hbd : b.ty = tyDEC
  · by_cases had : a.ty = tyDEC
    · cases cvt <;> simp [binForm, formOf_dec had, formOf_dec hbd, Form.max]
    · have hai := ha.int_of_ne haf had
      obtain rfl := h.resolve_left (by rw [hai, hbd]; decide)
      simp [binForm, formOf_int hai, formOf_dec hbd, Form.max]
  · have had := hd.resolve_right hbd
    have hbi := hb.int_of_ne hbf hbd
    obtain rfl := h.resolve_left (by rw [hbi, had]; decide)
    simp [binForm, formOf_dec had, formOf_int hbi, Form.max]

/-- An FLT runs the FLT form (05 R158). -/
theorem binForm_flt {cvt : Bool} {a b : Cell} (ha : a.IsNumber) (hb : b.IsNumber) (h : a.ty = b.ty ∨ cvt = true)
    (hf : a.ty = tyFLT ∨ b.ty = tyFLT) : binForm cvt a b = .flt := by
  have hmax : ∀ y : Form, y.max .flt = .flt := fun y => by cases y <;> rfl
  have hmax' : ∀ y : Form, Form.max .flt y = .flt := fun _ => rfl
  obtain ⟨fa, hfa⟩ := Option.isSome_iff_exists.1 ha.formOf
  obtain ⟨fb, hfb⟩ := Option.isSome_iff_exists.1 hb.formOf
  by_cases hc : cvt = true
  · subst hc
    rcases hf with hf | hf
    · simp [binForm, formOf_flt hf, hfb, hmax']
    · simp [binForm, formOf_flt hf, hfa, hmax]
  · obtain hab := h.resolve_right hc
    have hbf : b.ty = tyFLT := hf.elim (fun k => hab ▸ k) id
    simp [binForm, hc, formOf_flt hbf]

/-! ### The values of numbers -/

/-- The integer that a number of the DEC form stands for (05 R158). -/
def Cell.whole (c : Cell) : Int := if c.ty = tyINT then c.int else decVal c.pay

/-- The binary64 number that a number of the FLT form stands for (05 R158). -/
def Cell.real (rm : BitVec 3) (c : Cell) : Flt := if c.ty = tyFLT then fltOf c.lo else fltOf (fltOfInt rm c.whole)

theorem asDec_whole {cvt : Bool} {c : Cell} (h : c.ty = tyINT → cvt = true) : asDec cvt c = c.whole := by
  have hc : (cvt && decide (c.ty = tyINT)) = decide (c.ty = tyINT) := by
    by_cases hc : c.ty = tyINT
    · rw [h hc, Bool.true_and]
    · rw [decide_eq_false hc, Bool.and_false]
  rw [asDec, hc, Cell.whole]
  simp only [decide_eq_true_eq]

theorem asFlt_real {rm : BitVec 3} {cvt : Bool} {c : Cell} (hn : c.IsNumber) (h : c.ty ≠ tyFLT → cvt = true) :
    asFlt rm cvt c = c.real rm := by
  rcases hn with hc | hc | ⟨hc, -⟩
  · simp [asFlt, Cell.real, Cell.whole, hc, h (by rw [hc]; decide)]
  · simp [asFlt, Cell.real, hc]
  · simp [asFlt, Cell.real, Cell.whole, hc, h (by rw [hc]; decide)]

/-- A number of the DEC form is below 10^31 (06 R188). -/
theorem Cell.whole_lt (c : Cell) : c.whole.natAbs < decLimit := by
  unfold Cell.whole
  split
  · have h1 := c.lo.isLt
    have h2 : (2 : Nat) ^ 64 < decLimit := by decide
    have h3 : c.int = c.lo.toInt := rfl
    have h4 := BitVec.toInt_lt (x := c.lo)
    have h5 := BitVec.le_toInt (x := c.lo)
    rw [h3]
    omega
  · rw [decVal_natAbs]
    exact decMag_lt _

/-- A quotient is no larger than the dividend, and a remainder neither (06 R190). -/
theorem exact_divides_lt {op : BinOp} (hop : op.divides = true) {m n : Int} {k : Nat} (hm : m.natAbs < k) : (op.exact m n).natAbs < k := by
  cases op with
  | add | sub | mul => exact absurd hop (by decide)
  | div => exact (Int.natAbs_tdiv_le_natAbs m n).trans_lt hm
  | rem =>
    refine lt_of_le_of_lt ?_ hm
    show (m.tmod n).natAbs ≤ _
    rw [Int.natAbs_tmod]
    exact Nat.mod_le _ _

/-- A quotient of two INT operands is in range, but that of -2^63 by -1 (05 R156). -/
theorem intFits_tdiv {m n : Int} (hm : intFits m = true) (h : ¬(m = -2 ^ 63 ∧ n = -1)) (hn : n ≠ 0) : intFits (m.tdiv n) = true := by
  rw [intFits_iff] at hm ⊢
  have hle := Int.natAbs_tdiv_le_natAbs m n
  by_cases hmin : m = -2 ^ 63
  · have hn1 : n ≠ -1 := fun k => h ⟨hmin, k⟩
    by_cases h1 : n = 1
    · subst h1; rw [Int.tdiv_one]; exact hm
    · have hq : (m.tdiv n).natAbs = m.natAbs / n.natAbs := Int.natAbs_tdiv m n
      have hn2 : 2 ≤ n.natAbs := by omega
      have hlt : m.natAbs / n.natAbs < m.natAbs := Nat.div_lt_self (by omega) hn2
      omega
  · omega

/-- A remainder of two INT operands is in range (05 R156). -/
theorem intFits_tmod {m n : Int} (hm : intFits m = true) (hn : intFits n = true) : intFits (m.tmod n) = true := by
  rw [intFits_iff] at hm hn ⊢
  by_cases hz : n = 0
  · subst hz; rwa [Int.tmod_zero]
  · have h1 := Int.natAbs_tmod m n
    have h2 : m.natAbs % n.natAbs < n.natAbs := Nat.mod_lt _ (by omega)
    omega

theorem Cell.int_fits (c : Cell) : intFits c.int = true := by
  rw [intFits_iff]
  exact ⟨BitVec.le_toInt (x := c.lo), BitVec.toInt_lt (x := c.lo)⟩

/-! ### The results of DIV and REM -/

/-- A form's checks of its operands pass for numbers (06 R190). -/
theorem usesDec_checked {α : Type} {form : Form} {cvt : Bool} {c : Cell} {n : Nat} (h : c.ty = tyDEC → decUse n c = .ok ())
    (hu : usesDec form cvt c = true → c.ty = tyDEC) (k : Unit → Except SFault α) :
    (if usesDec form cvt c = true then decUse n c >>= k else k ()) = k () := checked_bind (fun hc => h (hu hc)) k

theorem usesDec_flt {cvt : Bool} {c : Cell} (h : usesDec .flt cvt c = true) : c.ty = tyDEC := by
  simp only [usesDec, Bool.and_eq_true, decide_eq_true_eq] at h
  exact h.2

theorem usesDec_dec {cvt : Bool} {c : Cell} (hn : c.IsNumber) (hf : c.ty ≠ tyFLT) (hi : c.ty = tyINT → cvt = true)
    (h : usesDec .dec cvt c = true) : c.ty = tyDEC := by
  by_contra hd
  have := hn.int_of_ne hf hd
  simp [usesDec, this, hi this] at h

section
variable {v : Env} {op : BinOp} {a b : Cell} (hop : op.divides = true)
include hop

/-- DIV and REM of INT operands whose result is in range (05 R156). -/
theorem polyResult_int (hz : b.int ≠ 0) (hmin : ¬(a.int = -2 ^ 63 ∧ b.int = -1)) (hfit : intFits (op.exact a.int b.int) = true) :
    polyResult v op .int a b = .ok (cellInt (op.exact a.int b.int) (a.p || b.p)) := by
  have hok : (!(op.divides && b.int == 0) && !(op.divides && a.int == -(2 ^ 63) && b.int == -1)) = true := by
    simpa [hop, hz, imp_iff_not_or] using hmin
  simp only [polyResult, usesDec, hok, ensure_true, ok_bind, intResult, hfit, if_true, Bool.false_eq_true, if_false]

/-- DIV and REM of INT operands fault on a zero divisor and on -2^63 by -1 (05 R156). -/
theorem polyResult_int_fault (h : b.int = 0 ∨ (a.int = -2 ^ 63 ∧ b.int = -1)) : polyResult v op .int a b = .error (fArith 2) := by
  have hok : (!(op.divides && b.int == 0) && !(op.divides && a.int == -(2 ^ 63) && b.int == -1)) = false := by
    rcases h with h | ⟨h1, h2⟩
    · simp [hop, h]
    · simp [hop, h1, h2]
  simp only [polyResult, usesDec, hok, ensure_false, Bool.false_eq_true, if_false, error_bind]

variable (ha : a.IsNumber) (hb : b.IsNumber)
include ha hb

/-- DIV and REM of the DEC form by a divisor that is not zero (06 R188, R190). -/
theorem polyResult_dec (haf : a.ty ≠ tyFLT) (hbf : b.ty ≠ tyFLT) (hai : a.ty = tyINT → v.cvt = true) (hbi : b.ty = tyINT → v.cvt = true)
    (hz : b.whole ≠ 0) : polyResult v op .dec a b =
      .ok (cellDec (decMake (decide (op.exact a.whole b.whole < 0)) (op.exact a.whole b.whole).natAbs) (a.p || b.p)) := by
  have hok : (!(op.divides && b.whole == 0)) = true := by simp [hz]
  simp only [polyResult, hok, ensure_true, ok_bind, asDec_whole hai, asDec_whole hbi,
    usesDec_checked (fun h => ha.decUse h 1) (usesDec_dec ha haf hai), usesDec_checked (fun h => hb.decUse h 0) (usesDec_dec hb hbf hbi),
    decResult_ok (exact_divides_lt hop a.whole_lt)]

/-- DIV and REM of the DEC form fault on a zero divisor (06 R190). -/
theorem polyResult_dec_fault (haf : a.ty ≠ tyFLT) (hbf : b.ty ≠ tyFLT) (hai : a.ty = tyINT → v.cvt = true)
    (hbi : b.ty = tyINT → v.cvt = true) (hz : b.whole = 0) : polyResult v op .dec a b = .error (fArith 2) := by
  have hok : (!(op.divides && b.whole == 0)) = false := by simp [hz, hop]
  simp only [polyResult, asDec_whole hbi, hok, ensure_false, error_bind,
    usesDec_checked (fun h => ha.decUse h 1) (usesDec_dec ha haf hai), usesDec_checked (fun h => hb.decUse h 0) (usesDec_dec hb hbf hbi)]

omit hop in
/-- DIV and REM of the FLT form (05 R162). -/
theorem polyResult_flt (hac : a.ty ≠ tyFLT → v.cvt = true) (hbc : b.ty ≠ tyFLT → v.cvt = true) :
    polyResult v op .flt a b = .ok (cellFlt (op.flt v.rm (a.real v.rm) (b.real v.rm)) (a.p || b.p)) := by
  simp only [polyResult, asFlt_real ha hac, asFlt_real hb hbc, usesDec_checked (fun h => ha.decUse h 1) usesDec_flt,
    usesDec_checked (fun h => hb.decUse h 0) usesDec_flt, pure_eq_ok]
end

/-- Settles O2: the body is the form's result once the tags pass, and DIV and REM of numbers have theirs. -/
theorem polymorphicInstructionsReplaceTheirOperands : Obligations.PolymorphicInstructionsReplaceTheirOperands := by
  unfold Obligations.PolymorphicInstructionsReplaceTheirOperands
  refine ⟨?_, ?_⟩
  · intro s x i op code a b c r hmem o t hi hs ht hr hu
    simp only [List.mem_cons, Prod.mk.injEq, List.not_mem_nil, or_false] at hmem
    rcases hmem with ⟨rfl, rfl, rfl⟩ | ⟨rfl, rfl, rfl⟩ | ⟨rfl, rfl, rfl⟩ | ⟨rfl, rfl, rfl⟩ | ⟨rfl, rfl, rfl⟩ <;>
      exact poly_does rfl hi hs ht rfl hr hu
  · intro s x a b r o rm p whole real hi hs has hbs hnum hty
    have ha : a.IsNumber := hnum a (by simp)
    have hb : b.IsNumber := hnum b (by simp)
    have ht : binTags (s.env x o) a b = .ok () := binTags_numbers ha hb has hbs hty
    have hdiv {form : Form} (hf : binForm (hasPx x.px 0xF1) a b = form) {c : Cell} (hr : polyResult (s.env x o) .div form a b = .ok c)
        (hu : ∀ u, (BinOp.timing .div form).2.1 = some u → s.unitReady x 0x43 u (BinOp.timing .div form).1 = true) :
        Does (.div x) s x (s.moved x o (c :: r)) := poly_does (op := .div) rfl hi hs ht hf hr hu
    have hrem {form : Form} (hf : binForm (hasPx x.px 0xF1) a b = form) {c : Cell} (hr : polyResult (s.env x o) .rem form a b = .ok c)
        (hu : ∀ u, (BinOp.timing .rem form).2.1 = some u → s.unitReady x 0x44 u (BinOp.timing .rem form).1 = true) :
        Does (.rem x) s x (s.moved x o (c :: r)) := poly_does (op := .rem) rfl hi hs ht hf hr hu
    have hfault {form : Form} (hf : binForm (hasPx x.px 0xF1) a b = form) {f : SFault}
        (hr : ∀ op : BinOp, op.divides = true → polyResult (s.env x o) op form a b = .error f) :
        exec (.div x) s = .next (s.faults x f) ∧ exec (.rem x) s = .next (s.faults x f) :=
      ⟨poly_faults (op := .div) rfl hi hs ht hf (hr .div rfl), poly_faults (op := .rem) rfl hi hs ht hf (hr .rem rfl)⟩
    refine ⟨fun hai hbi => ⟨fun hz hmin => ⟨fun hu => ?_, fun hu => ?_⟩, fun h => ?_⟩, fun hd haf hbf => ?_, fun hf => ?_⟩
    · exact hdiv (binForm_int hai hbi) (polyResult_int rfl hz hmin (intFits_tdiv a.int_fits hmin hz)) (unitReady_of_some hu)
    · exact hrem (binForm_int hai hbi) (polyResult_int rfl hz hmin (intFits_tmod a.int_fits b.int_fits)) (unitReady_of_some hu)
    · exact hfault (binForm_int hai hbi) fun _ hop => polyResult_int_fault hop h
    · have hform := binForm_dec ha hb hty hd haf hbf
      have hai : a.ty = tyINT → hasPx x.px 0xF1 = true := by
        intro h
        have hbd : b.ty = tyDEC := hd.resolve_left (by rw [h]; decide)
        exact hty.resolve_left (by rw [h, hbd]; decide)
      have hbi : b.ty = tyINT → hasPx x.px 0xF1 = true := by
        intro h
        have had : a.ty = tyDEC := hd.resolve_right (by rw [h]; decide)
        exact hty.resolve_left (by rw [h, had]; decide)
      refine ⟨fun hz => ⟨fun hu => ?_, fun hu => ?_⟩, fun hz => ?_⟩
      · exact hdiv hform (polyResult_dec rfl ha hb haf hbf hai hbi hz) (unitReady_of_some hu)
      · exact hrem hform (polyResult_dec rfl ha hb haf hbf hai hbi hz) (unitReady_of_some hu)
      · exact hfault hform fun _ hop => polyResult_dec_fault hop ha hb haf hbf hai hbi hz
    · have hform := binForm_flt ha hb hty hf
      have hac : a.ty ≠ tyFLT → hasPx x.px 0xF1 = true := fun h =>
        hty.resolve_left fun k => h (hf.elim id fun l => k.trans l)
      have hbc : b.ty ≠ tyFLT → hasPx x.px 0xF1 = true := fun h =>
        hty.resolve_left fun k => h (hf.elim (fun l => k ▸ l) id)
      exact ⟨fun hu => hdiv hform (polyResult_flt ha hb hac hbc) (unitReady_of_some hu),
        fun hu => hrem hform (polyResult_flt ha hb hac hbc) (unitReady_of_some hu)⟩

end Sys2Proof.Machine
end

section
/-! TAGOF and the conversions (05 R159, R160). -/

namespace Sys2Proof.Machine

/-- A well-formed cell passes the tag check when its TYPE is accepted or is not checked (03 R82, 04 R118). -/
theorem tagCheck_one_or {nochk ok : Bool} {i : Nat} {c : Cell} (hw : c.wellFormed = true) (h : ok = true ∨ nochk = true) :
    tagCheck nochk [(i, c, ok)] = .ok () := by
  rcases h with h | h <;> simp [tagCheck, hw, h]

/-- The INT of a tag byte (05 R159). -/
theorem cellInt_tag (a : Cell) (p : Bool) :
    cellInt a.tag.toNat p = ⟨1, 0, p, false, BitVec.ofNat 128 (a.ty.toNat + 16 * a.sub.toNat + 64 * a.p.toNat + 128 * a.g.toNat)⟩ := by
  have hb2n : ∀ b : Bool, b2n b = b.toNat := by decide
  have hty := a.ty.isLt
  have hsub := a.sub.isLt
  have hp := Bool.toNat_le a.p
  have hg := Bool.toNat_le a.g
  have htag : a.tag.toNat = a.ty.toNat + 16 * a.sub.toNat + 64 * a.p.toNat + 128 * a.g.toNat := by
    simp only [Cell.tag, hb2n, BitVec.toNat_ofNat]
    exact Nat.mod_eq_of_lt (by omega)
  rw [htag]
  generalize a.ty.toNat + 16 * a.sub.toNat + 64 * a.p.toNat + 128 * a.g.toNat = n at htag
  have hn : n < 256 := by have := a.tag.isLt; omega
  simp only [cellInt, Cell.mk.injEq, true_and]
  apply BitVec.eq_of_toNat_eq
  have hmsb : (BitVec.ofInt 64 (n : Int)).msb = false := by
    rw [BitVec.ofInt_natCast, BitVec.msb_eq_false_iff_two_mul_lt, BitVec.toNat_ofNat]
    omega
  rw [BitVec.signExtend_eq_setWidth_of_msb_false hmsb, BitVec.ofInt_natCast, BitVec.toNat_setWidth, BitVec.toNat_ofNat, BitVec.toNat_ofNat,
    Nat.mod_eq_of_lt (a := n) (by omega)]

section
variable {i : Instr} {s : State} {x : Iss} {op n : Nat} {f : Env → Cell → Except SFault Cell} {a : Cell} {r : List Cell}

/-- A conversion replaces its operand by the source's value in the target TYPE, or faults where there is none (05 R160). -/
theorem cvt_givesOrFaults (hex : exec i s = cvtOp x op n f s) (hw : a.wellFormed = true) (hs : (s.view x).stack = a :: r)
    (hi : s.issues x { rnd := true, pops := 1, pushes := 1, reads := 1 } = true)
    (hok : (formOf a.ty).isSome = true ∨ (s.env x { rnd := true, pops := 1, pushes := 1, reads := 1 }).nochk = true) :
    GivesOrFaults i s x { rnd := true, pops := 1, pushes := 1, reads := 1 } r
      (f (s.env x { rnd := true, pops := 1, pushes := 1, reads := 1 }) a) := by
  exact givesOrFaults_of_body (n := n) hex rfl hi
    (by simp only [bodyCtx_stackTop hs (i := 0) (by simp), List.getElem_cons_zero, tagCheck_one_or hw hok, ok_bind, pure_eq_ok]) rfl
    (by rw [hs]; rfl)
end

/-! ### What a source converts to -/

section
variable {v : Env} {a : Cell}

theorem toInt_of_int (h : a.ty = tyINT) : toInt v a = .ok a := by rw [toInt, formOf_int h]; rfl
theorem toDec_of_int (h : a.ty = tyINT) : toDec v a = .ok (cellDec (decMake (decide (a.int < 0)) a.int.natAbs) a.p) := by
  rw [toDec, formOf_int h]; rfl
theorem toFlt_of_int (h : a.ty = tyINT) : toFlt v a = .ok (cellFlt (fltOfInt v.rm a.int) a.p) := by rw [toFlt, formOf_int h]; rfl

theorem toInt_of_dec (h : a.ty = tyDEC) :
    toInt v a = (decUse 0 a >>= fun _ => if intFits (decVal a.pay) then .ok (cellInt (decVal a.pay) a.p) else .error (fArith 3)) := by
  rw [toInt, formOf_dec h]; rfl
theorem toDec_of_dec (h : a.ty = tyDEC) : toDec v a = (decUse 0 a >>= fun _ => .ok a) := by rw [toDec, formOf_dec h]; rfl
theorem toFlt_of_dec (h : a.ty = tyDEC) :
    toFlt v a = (decUse 0 a >>= fun _ => .ok (cellFlt (fltOfInt v.rm (decVal a.pay)) a.p)) := by rw [toFlt, formOf_dec h]; rfl

/-- An invalid DEC that is not poisoned may not be used (06 R190). -/
theorem decUse_fault {n i : Nat} (hp : a.p = false) (h : decBad a.pay = some i) : decUse n a = .error (fData 1 n i) := by
  simp [decUse, hp, h]

theorem toFlt_of_flt (h : a.ty = tyFLT) : toFlt v a = .ok a := by rw [toFlt, formOf_flt h]; rfl

/-- An FLT that is a number is rounded to an INT that is in range (05 R160). -/
theorem toInt_of_flt (h : a.ty = tyFLT) {neg : Bool} {mag ex : Nat} (hf : fltOf a.lo = .fin neg mag ex) {m : Nat}
    (hm : roundDiv v.rm neg (mag * 2 ^ ex) (2 ^ 1074) = m) {w : Int} (hw : (if neg then -(m : Int) else m) = w) :
    toInt v a = if intFits w then .ok (cellInt w a.p) else .error (fArith 3) := by
  subst hm hw
  rw [toInt, formOf_flt h]
  simp only [hf, fltToInt]
  rfl

/-- An FLT that is a number is rounded to a DEC of at most 31 digits (05 R160). -/
theorem toDec_of_flt (h : a.ty = tyFLT) {neg : Bool} {mag ex : Nat} (hf : fltOf a.lo = .fin neg mag ex) {m : Nat}
    (hm : roundDiv v.rm neg (mag * 2 ^ ex) (2 ^ 1074) = m) :
    toDec v a = if m < decLimit then .ok (cellDec (decMakeSigned neg m) a.p) else .error (fArith 3) := by
  subst hm
  rw [toDec, formOf_flt h]
  simp only [hf, fltToInt]
  rfl

/-- A NaN or an infinity has no integer value (05 R160). -/
theorem fltToInt_none {mode : BitVec 3} {u : Flt} (h : ∀ neg mag ex, u ≠ .fin neg mag ex) : fltToInt mode u = none := by
  cases u with
  | fin neg mag ex => exact absurd rfl (h neg mag ex)
  | inf => rfl
  | nan => rfl

theorem toInt_of_notNumber (h : a.ty = tyFLT) (hf : ∀ neg mag ex, fltOf a.lo ≠ .fin neg mag ex) : toInt v a = .error (fArith 3) := by
  rw [toInt, formOf_flt h]
  simp only [fltToInt_none hf]

theorem toDec_of_notNumber (h : a.ty = tyFLT) (hf : ∀ neg mag ex, fltOf a.lo ≠ .fin neg mag ex) : toDec v a = .error (fArith 3) := by
  rw [toDec, formOf_flt h]
  simp only [fltToInt_none hf]
end

/-- Settles O5: each conversion gives the source's value in the target TYPE, or faults where it has none. -/
theorem tagsAndConversions : Obligations.TagsAndConversions := by
  unfold Obligations.TagsAndConversions
  intro s x a c r hw hs
  refine ⟨fun hi => ?_, ?_⟩
  · rw [← cellInt_tag]
    exact does_cells (n := 1) (qs := [a, cellInt a.tag.toNat a.p]) rfl hi
      (by simp only [bodyCtx_stackTop hs (i := 0) (by simp), List.getElem_cons_zero, tagCheck_one hw rfl, ok_bind]; rfl) rfl
      (by rw [hs]; rfl)
  · intro o rm gives fails hi
    have hint (hok : (formOf a.ty).isSome = true ∨ (s.env x o).nochk = true) : GivesOrFaults (.cvti x) s x o r (toInt (s.env x o) a) :=
      cvt_givesOrFaults rfl hw hs hi hok
    have hdec (hok : (formOf a.ty).isSome = true ∨ (s.env x o).nochk = true) : GivesOrFaults (.cvtd x) s x o r (toDec (s.env x o) a) :=
      cvt_givesOrFaults rfl hw hs hi hok
    have hflt (hok : (formOf a.ty).isSome = true ∨ (s.env x o).nochk = true) : GivesOrFaults (.cvtf x) s x o r (toFlt (s.env x o) a) :=
      cvt_givesOrFaults rfl hw hs hi hok
    refine ⟨fun ht => ?_, fun ht => ?_, fun ht => ?_, fun hok => ⟨(hint hok).1 c, (hdec hok).1 c, (hflt hok).1 c⟩⟩
    · have hok : (formOf a.ty).isSome = true ∨ (s.env x o).nochk = true := .inl (by rw [formOf_int ht]; rfl)
      exact ⟨(hint hok).1 _ (toInt_of_int ht), (hdec hok).1 _ (toDec_of_int ht), (hflt hok).1 _ (toFlt_of_int ht)⟩
    · have hok : (formOf a.ty).isSome = true ∨ (s.env x o).nochk = true := .inl (by rw [formOf_dec ht]; rfl)
      refine ⟨fun hv => ?_, fun i hp hbad => ?_⟩
      · have hu : decUse 0 a = .ok () := decUse_ok hv
        refine ⟨fun hfit => (hint hok).1 _ ?_, fun hfit => (hint hok).2 _ ?_, (hdec hok).1 _ ?_, (hflt hok).1 _ ?_⟩
        · rw [toInt_of_dec ht, hu, ok_bind, if_pos ((intFits_iff _).2 hfit)]
        · rw [toInt_of_dec ht, hu, ok_bind, if_neg fun h => hfit ((intFits_iff _).1 h)]
        · rw [toDec_of_dec ht, hu, ok_bind]
        · rw [toFlt_of_dec ht, hu, ok_bind]
      · have hu : decUse 0 a = .error (fData 1 0 i) := decUse_fault hp hbad
        refine ⟨(hint hok).2 _ ?_, (hdec hok).2 _ ?_, (hflt hok).2 _ ?_⟩
        · rw [toInt_of_dec ht, hu, error_bind]
        · rw [toDec_of_dec ht, hu, error_bind]
        · rw [toFlt_of_dec ht, hu, error_bind]
    · have hok : (formOf a.ty).isSome = true ∨ (s.env x o).nochk = true := .inl (by rw [formOf_flt ht]; rfl)
      refine ⟨(hflt hok).1 _ (toFlt_of_flt ht), ?_,
        fun hf => ⟨(hint hok).2 _ (toInt_of_notNumber ht hf), (hdec hok).2 _ (toDec_of_notNumber ht hf)⟩⟩
      intro neg mag ex hf m v
      refine ⟨fun hfit => ?_, fun hfit => ?_, fun hm => ?_, fun hm => ?_⟩
      · exact (hint hok).1 _ (by rw [toInt_of_flt ht hf rfl rfl]; exact if_pos ((intFits_iff _).2 hfit))
      · exact (hint hok).2 _ (by rw [toInt_of_flt ht hf rfl rfl]; exact if_neg fun h => hfit ((intFits_iff _).1 h))
      · exact (hdec hok).1 _ (by rw [toDec_of_flt ht hf rfl]; exact if_pos hm)
      · exact (hdec hok).2 _ (by rw [toDec_of_flt ht hf rfl]; exact if_neg (Nat.not_lt.2 hm))

end Sys2Proof.Machine
end

section
/-! Calls, returns and frames (03 R93 to R99, 05 R166). -/

namespace Sys2Proof.Machine

/-! ### The return stack -/

/-- What software sees after a return address has been pushed (03 R93): RSP steps, RSC saturates at 16. -/
def View.pushed (v : View) (ret : BitVec 19) : View :=
  { v with
    rsp := v.rsp + 1, rsc := if 16 ≤ v.rsc.toNat then v.rsc else v.rsc + 1
    rs := tset RsEntry.empty v.rs v.rsp.toNat ⟨true, ret⟩ }

/-- The context after a return address has been pushed; an error met in the entry's old value is gone (03 R93). -/
def Ctx.pushedReturn (c : Ctx) (ret : BitVec 19) (l : List Damage) : Ctx :=
  { c with
    rsp := c.rsp + 1, rsc := if 16 ≤ c.rsc.toNat then c.rsc else c.rsc + 1
    rs := tset RsEntry.empty c.rs c.rsp.toNat ⟨true, ret⟩, damaged := l }

theorem viewOf_pushedReturn (e : Engine) (c : Ctx) (ret : BitVec 19) (l : List Damage) :
    viewOf e (c.pushedReturn ret l) = (viewOf e c).pushed ret := rfl

/-- A push that does not trap leaves the engine's contexts, registers and cells, and the entry on the return stack (03 R93, R95). -/
theorem pushReturn_ok {v : Env} {e : Engine} {c : Ctx} (h : e.rso = false ∨ c.rsc ≠ 16) :
    ∃ g l, pushReturn v e c = .ok (g, c.pushedReturn (BitVec.ofNat 19 v.next) l) ∧ Keeps e g fun _ => False := by
  have hok : (!(e.rso && c.rsc == 16)) = true := by
    simp only [Bool.not_eq_true', Bool.and_eq_false_iff, beq_eq_false_iff_ne]
    exact h
  simp only [pushReturn, hok, ensure_true, ok_bind, pure_eq_ok]
  refine ⟨_, _, rfl, ?_⟩
  split
  · exact ⟨rfl, SameRegs.refl _, fun _ _ => rfl⟩
  · exact Keeps.refl e

/-- A push on a full return stack traps with RSO = TRAP (03 R95). -/
theorem pushReturn_trap {v : Env} {e : Engine} {c : Ctx} (h : e.rso = true) (hc : c.rsc = 16) :
    pushReturn v e c = .error (fRs 1 c.rsp.toNat) := by
  simp [pushReturn, h, hc]

/-! ### CALLM and RETM frames -/

/-- The cells of a frame stand where they are stored, and every other cell is kept (03 R97). -/
theorem storeCells_cell : ∀ (l : List Cell) (e : Engine) (k j : Nat),
    (e.storeCells k l).cell j = (cellsFrom k l j).getD (e.cell j)
  | [], e, k, j => by simp [Engine.storeCells, cellsFrom]
  | c :: l, e, k, j => by
    rw [Engine.storeCells, storeCells_cell l, Engine.storeCell, Engine.mark_cell, push_cell, cellsFrom_cons]
    by_cases h : j = k
    · subst h
      have hnone : cellsFrom (j + 1) l j = none := by simp [cellsFrom]
      simp [hnone]
    · simp [h, Ne.symm h]

theorem storeCells_ctxs_regs : ∀ (l : List Cell) (e : Engine) (k : Nat),
    (e.storeCells k l).ctxs = e.ctxs ∧ SameRegs (e.storeCells k l) e
  | [], e, _ => ⟨rfl, SameRegs.refl e⟩
  | c :: l, e, k => by
    obtain ⟨hctxs, hregs, -⟩ := push_keeps e k c
    obtain ⟨hctxs', hregs'⟩ := storeCells_ctxs_regs l (e.storeCell k c) (k + 1)
    exact ⟨hctxs'.trans hctxs, hregs'.trans ((SameRegs.refl _).trans hregs)⟩

/-- A frame's stores keep every cell outside it (03 R97). -/
theorem storeCells_keeps (e : Engine) (k : Nat) (l : List Cell) : Keeps e (e.storeCells k l) fun j => cellsFrom k l j ≠ none := by
  obtain ⟨hctxs, hregs⟩ := storeCells_ctxs_regs l e k
  refine ⟨hctxs, hregs, fun j hj => ?_⟩
  rw [storeCells_cell, not_not.1 hj]
  rfl

theorem meetAll_keeps : ∀ (l : List Nat) (e : Engine), Keeps e (e.meetAll l) fun _ => False
  | [], e => Keeps.refl e
  | k :: l, e => (meet_keeps e k).trans (meetAll_keeps l (e.meet k))

/-- Restoring locals changes the locals alone, and depends on no other part of the context (03 R98). -/
theorem restoreLocals_eq (e : Engine) : ∀ (l : List Nat) (k : Nat) (c d : Ctx), c.locals = d.locals →
    restoreLocals e k l c = { c with locals := (restoreLocals e k l d).locals }
  | [], _, c, d, h => by rw [restoreLocals, restoreLocals, ← h]
  | n :: l, k, c, d, h => by
    rw [restoreLocals, restoreLocals]
    refine (restoreLocals_eq e l (k + 1) _ (d.setLocal n (e.cell k)) ?_).trans rfl
    simp only [Ctx.setLocal, h]

/-- Damage that is not of one of these locals. -/
def Damage.notIn (l : List Nat) : Damage → Bool
  | .loc i => !l.contains i.val
  | _ => true

theorem imgCell_eq {n : Nat} (h : n < 2 ^ 64) : imgCell n = ⟨1, 0, false, false, BitVec.ofNat 128 n⟩ := by
  have : (BitVec.ofNat 64 n).setWidth 128 = BitVec.ofNat 128 n := by
    apply BitVec.eq_of_toNat_eq
    rw [BitVec.toNat_setWidth, BitVec.toNat_ofNat, BitVec.toNat_ofNat, Nat.mod_eq_of_lt h]
  simp only [imgCell, this]

theorem maskLocals_length_le (m : Nat) : (maskLocals m).length ≤ 16 := (List.length_filter_le _ _).trans_eq List.length_range

/-- The cells of a frame: the return address, FP with the mask, the locals and their number (03 R97). -/
theorem frameCells_eq (c : Ctx) (ret : BitVec 19) {mask : Nat} (hm : mask < 65536) :
    frameCells c ret mask =
      [⟨9, 1, false, false, ret.setWidth 128⟩, ⟨1, 0, false, false, BitVec.ofNat 128 (c.fp.toNat + 2 ^ 32 * mask)⟩] ++
        (maskLocals mask).map (tget Cell.nil c.locals) ++ [⟨1, 0, false, false, BitVec.ofNat 128 (maskLocals mask).length⟩] := by
  have hfp := c.fp.isLt
  have hlen := maskLocals_length_le mask
  rw [frameCells, imgCell_eq (by omega), imgCell_eq (by omega)]
  rfl

/-- No cell of a run is guarded for this PL. -/
theorem find?_guarded_none {e : Engine} {pl : BitVec 2} {k n : Nat} (h : ∀ i, i < n → pl = 2 → (e.cell (k + i)).g = false) :
    ((List.range n).find? fun i => pl.toNat == 2 && (e.cell (k + i)).g) = none := by
  rw [List.find?_eq_none]
  intro i hi hg
  simp only [toNat_beq_two, Bool.and_eq_true, decide_eq_true_eq] at hg
  rw [h i (List.mem_range.1 hi) hg.1] at hg
  exact absurd hg.2 Bool.false_ne_true

section
variable {s : State} {x : Iss}

/-- CALLM of a frame that fits writes it and transfers (03 R97, R99). -/
theorem callm_answers {imm : BitVec 64} :
    let v := s.view x
    let e := s.eng x.eng
    let mask := imm.toNat % 65536
    let disp := if hasPx x.px 0xF0 then (imm.extractLsb' 16 32).toInt else (imm.extractLsb' 16 16).toInt
    let o : OpInfo := { imm := 4, wmark := true, delayBad := true, disp := some (disp, 2), readsLocals := maskLocals mask,
                        badField := if hasPx x.px 0xF0 = true ∧ imm.toNat / 2 ^ 48 ≠ 0 then some 6 else none }
    let n := (maskLocals mask).length + 3
    s.issues x o = true → v.fp.toNat + 16 * n ≤ v.fl.toNat → e.open? v.pl.toNat v.fp.toNat (16 * n) = true →
    (∀ i, i < n → v.pl = 2 → (e.cell (v.fp.toNat / 16 + i)).g = false) →
    Answers (.callm x imm) s fun t =>
      Writes s t x { v with pc := BitVec.ofInt 19 (o.target x.px v.pc.toNat), pb := none, fp := BitVec.ofNat 18 (v.fp.toNat + 16 * n) }
        (cellsFrom (v.fp.toNat / 16) (frameCells (s.ctxAt x) (BitVec.ofNat 19 (v.pc.toNat + o.len x.px)) mask)) := by
  intro v e mask disp o n hi hfl hopen hg
  have hbad : (if (hasPx x.px 0xF0 && decide (bits imm 63 48 ≠ 0)) = true then some 6 else none) = o.badField := by
    have : bits imm 63 48 = imm.toNat / 2 ^ 48 := Nat.mod_eq_of_lt (by have := imm.isLt; omega)
    rw [this]
    simp [o]
  have hmask : bits imm 15 0 = mask := by simp [bits, mask]
  have hex : exec (.callm x imm) s = .next (s.issue x { o with badField := _, readsLocals := maskLocals (bits imm 15 0) } 0 _ id) := rfl
  rw [hbad, hmask] at hex
  refine ⟨_, hex, ?_⟩
  refine issue_writes (n := 10) (g := e.storeCells (v.fp.toNat / 16) (frameCells (s.ctxAt x) (BitVec.ofNat 19 (s.env x o).next) mask))
    (c := { s.bodyCtx x o with fp := BitVec.ofNat 18 (v.fp.toNat + 16 * n), pc := BitVec.ofInt 19 ((s.env x o).next + disp) })
    hi ?_ (storeCells_keeps _ _ _) (fun k d hd => ?_) rfl
  · have hfit : decide (v.fp.toNat + 16 * n ≤ v.fl.toNat) = true := decide_eq_true hfl
    have hfind := find?_guarded_none hg
    dsimp only
    have h1 : (s.bodyCtx x o).fp.toNat = v.fp.toNat := rfl
    have h2 : (s.bodyCtx x o).fl.toNat = v.fl.toNat := rfl
    have h3 : (maskLocals mask).length + 3 = n := rfl
    have h4 : s.eng x.eng = e := rfl
    rw [h1, h2, h3, h4, hfit, State.env_pl, hopen, ensure_true, ok_bind, ensure_true, ok_bind, hfind]
    rfl
  · have hd' : cellsFrom (v.fp.toNat / 16) (frameCells (s.ctxAt x) (BitVec.ofNat 19 (s.env x o).next) mask) k = some d := hd
    rw [storeCells_cell, hd']
    rfl

/-- RETM of a frame that passes its checks restores what the frame holds (03 R98, R99). -/
theorem retm_does {b n mask : Nat} :
    let v := s.view x
    let e := s.eng x.eng
    s.issues x { delayBad := true } = true → v.fp.toNat = b + 16 * (n + 3) → v.fbase.toNat ≤ b →
    (e.cell ((v.fp.toNat - 16) / 16)).pay = BitVec.ofNat 128 n → n ≤ 16 →
    (e.cell ((v.fp.toNat - 16) / 16)).ty = tyINT → (e.cell ((v.fp.toNat - 16) / 16)).sub = 0 →
    e.open? v.pl.toNat b (16 * (n + 3)) = true →
    (e.cell (b / 16)).ty = tyCODE → (e.cell (b / 16)).sub = 1 → (e.cell (b / 16)).p = false →
    (e.cell (b / 16 + 1)).ty = tyINT → (e.cell (b / 16 + 1)).sub = 0 →
    bits (e.cell (b / 16 + 1)).pay 47 32 = mask → (maskLocals mask).length = n →
    Does (.retm x) s x { v with
      pc := (e.cell (b / 16)).pay.extractLsb' 0 19, pb := none, fp := (e.cell (b / 16 + 1)).pay.extractLsb' 0 18
      locals := (restoreLocals e (b / 16 + 2) (maskLocals mask) (s.ctxAt x)).locals } := by
  intro v e hi hfp hb hpay hn hty hsub hopen hrty hrsub hrp hhty hhsub hmask hlen
  have hlow : bits (e.cell ((v.fp.toNat - 16) / 16)).pay 4 0 = n := by
    rw [hpay]
    simp only [bits, BitVec.toNat_ofNat]
    omega
  have hhigh : bits (e.cell ((v.fp.toNat - 16) / 16)).pay 127 5 = 0 := by
    rw [hpay]
    simp only [bits, BitVec.toNat_ofNat]
    omega
  have hback : v.fp.toNat - 16 * (n + 3) = b := by omega
  have hbase : (s.bodyCtx x { delayBad := true }).fbase.toNat = v.fbase.toNat := rfl
  have hfp' : (s.bodyCtx x { delayBad := true }).fp.toNat = v.fp.toNat := rfl
  have hfit1 : decide (v.fbase.toNat + 16 ≤ v.fp.toNat) = true := decide_eq_true (by omega)
  have hfit2 : decide (v.fbase.toNat + 16 * (n + 3) ≤ v.fp.toNat) = true := decide_eq_true (by omega)
  have heng : s.eng x.eng = e := rfl
  have htop : ((e.cell ((v.fp.toNat - 16) / 16)).isInt && decide ((e.cell ((v.fp.toNat - 16) / 16)).sub = 0) &&
      bits (e.cell ((v.fp.toNat - 16) / 16)).pay 127 5 == 0 && decide (n ≤ 16)) = true := by
    simp [Cell.isInt, hty, hsub, hhigh, hn]
  have hret : (decide ((e.cell (b / 16)).ty = tyCODE) && decide ((e.cell (b / 16)).sub = 1)) = true := by simp [hrty, hrsub]
  have hhd : ((e.cell (b / 16 + 1)).isInt && decide ((e.cell (b / 16 + 1)).sub = 0)) = true := by simp [Cell.isInt, hhty, hhsub]
  have hcnt : ((maskLocals mask).length == n) = true := beq_iff_eq.2 hlen
  have hopen' : e.open? (s.view x).pl.toNat b (16 * (n + 3)) = true := hopen
  have hrp' : (!(e.cell (b / 16)).p) = true := by rw [hrp]; rfl
  refine ⟨_, rfl, issue_becomes (n := 10) (g := e.meetAll (cellsOf b (16 * (n + 3))))
    (c := { restoreLocals e (b / 16 + 2) (maskLocals mask) (s.bodyCtx x { delayBad := true }) with
      fp := (e.cell (b / 16 + 1)).pay.extractLsb' 0 18, pc := (e.cell (b / 16)).pay.extractLsb' 0 19
      damaged := (restoreLocals e (b / 16 + 2) (maskLocals mask) (s.bodyCtx x { delayBad := true })).damaged.filter
        (Damage.notIn (maskLocals mask)) }) hi ?_ (meetAll_keeps _ _) ?_⟩
  · dsimp only
    simp only [heng, hbase, hfp', hlow, hback, hmask, hfit1, hfit2, hopen', htop, hret, hhd, hcnt, hrp', State.env_pl, ensure_true, ok_bind]
    rfl
  · rw [restoreLocals_eq e _ _ (s.bodyCtx x { delayBad := true }) (s.ctxAt x) rfl]
    rfl
end

/-- Settles O7: the return stack takes and gives one address, and a frame holds what CALLM wrote. -/
theorem callsReturnsAndFrames : Obligations.CallsReturnsAndFrames := by
  unfold Obligations.CallsReturnsAndFrames
  refine ⟨fun s x => ⟨fun imm => ?_, fun a r hi hs hty hsub hp hlt hrso => ?_, fun hi => ⟨fun en hen hv hrso => ?_, fun ht hz => ?_,
    fun hrso hv => ?_⟩⟩, fun s x => ⟨fun imm => ?_, fun b n mask => retm_does⟩⟩
  · intro o hi
    refine ⟨fun hrso => ?_, fun ht hz => ?_⟩
    · obtain ⟨g, l, hpush, hk⟩ := pushReturn_ok (v := s.env x o) (e := s.eng x.eng) (c := s.bodyCtx x o) hrso
      exact ⟨_, rfl, issue_becomes (n := 2) (g := g)
        (c := { (s.bodyCtx x o).pushedReturn _ l with pc := BitVec.ofInt 19 ((s.env x o).next + dispOf x.px imm) }) hi
        (by simp only [hpush, ok_bind]; rfl) hk rfl⟩
    · exact exec_faults (i := .call x imm) rfl hi (by rw [pushReturn_trap (c := s.bodyCtx x o) ht hz]; rfl)
  · obtain ⟨g, l, hpush, hk⟩ := pushReturn_ok (v := s.env x { delayBad := true, pops := 1, reads := 1 }) (e := s.eng x.eng)
      (c := s.bodyCtx x { delayBad := true, pops := 1, reads := 1 }) hrso
    have htop : stackTop (s.eng x.eng) (s.bodyCtx x { delayBad := true, pops := 1, reads := 1 }) 0 = a := bodyCtx_stackTop hs (by simp)
    have hw : a.wellFormed = true := wellFormed_of_sub_zero hsub (by rw [hty]; rfl)
    have hcode : (decide (a.ty = tyCODE) && decide (a.sub = 0)) = true := by simp [hty, hsub]
    have hzero : (bits a.pay 127 19 == 0) = true := by
      rw [beq_iff_eq]
      simp only [bits, Nat.div_eq_of_lt hlt, Nat.zero_mod]
    have hview := viewOf_popPush hi (qs := []) rfl
    refine ⟨_, rfl, issue_becomes (n := 2) (g := g)
      (c := { ((s.bodyCtx x { delayBad := true, pops := 1, reads := 1 }).pushedReturn
          (BitVec.ofNat 19 (s.env x { delayBad := true, pops := 1, reads := 1 }).next) l).popPush 1 [] with
        pc := a.pay.extractLsb' 0 19 }) hi ?_ hk ?_⟩
    · simp only [htop, tagCheck_one hw hcode, hp, Bool.not_false, hzero, ensure_true, ok_bind, hpush]
      rfl
    · refine (congrArg (fun w : View => { w.pushed (BitVec.ofNat 19 (s.env x { delayBad := true, pops := 1, reads := 1 }).next) with
        pc := a.pay.extractLsb' 0 19 }) hview).trans ?_
      rw [hs]
      rfl
  · subst hen
    have hok : (!((s.eng x.eng).rso && (s.view x).rsc == 0)) = true := by
      simp only [Bool.not_eq_true', Bool.and_eq_false_iff, beq_eq_false_iff_ne]
      exact hrso
    refine ⟨_, rfl, issue_becomes (n := 2) (g := if (s.view x).rsc = 0 then { s.eng x.eng with rsUnf := satInc (s.eng x.eng).rsUnf } else s.eng x.eng)
      (c := { s.bodyCtx x { delayBad := true, readsRs := true } with
        pc := (tget RsEntry.empty (s.view x).rs ((s.view x).rsp - 1).toNat).addr, rsp := (s.view x).rsp - 1
        rsc := if (s.view x).rsc = 0 then 0 else (s.view x).rsc - 1 }) hi ?_ ?_ rfl⟩
    · show (ensure (!((s.eng x.eng).rso && (s.view x).rsc == 0)) _ >>= fun _ =>
        ensure (tget RsEntry.empty (s.view x).rs ((s.view x).rsp - 1).toNat).v _ >>= fun _ => _) = _
      rw [hok, hv, ensure_true, ok_bind, ensure_true, ok_bind]
      rfl
    · split
      · exact ⟨rfl, SameRegs.refl _, fun _ _ => rfl⟩
      · exact Keeps.refl _
  · have hno : (!((s.eng x.eng).rso && (s.view x).rsc == 0)) = false := by simp [ht, hz]
    refine exec_faults (i := .ret x) rfl hi ?_
    show (ensure (!((s.eng x.eng).rso && (s.view x).rsc == 0)) _ >>= fun _ => _) = _
    rw [hno]
    rfl
  · have hok : (!((s.eng x.eng).rso && (s.view x).rsc == 0)) = true := by
      simp only [Bool.not_eq_true', Bool.and_eq_false_iff, beq_eq_false_iff_ne]
      exact hrso
    refine exec_faults (i := .ret x) rfl hi ?_
    show (ensure (!((s.eng x.eng).rso && (s.view x).rsc == 0)) _ >>= fun _ =>
      ensure (tget RsEntry.empty (s.view x).rs ((s.view x).rsp - 1).toNat).v _ >>= fun _ => _) = _
    rw [hok, hv]
    rfl
  · intro mask disp o n hi hfl hopen hg
    have h := callm_answers (imm := imm) hi hfl hopen hg
    rw [frameCells_eq _ _ (Nat.mod_lt _ (by norm_num))] at h
    exact h

end Sys2Proof.Machine
end

section
/-! A handler is entered by a fault and left by RETI (08 R250 to R254, R257, R268, R269). -/

namespace Sys2Proof.Machine

/-! ### What a fault leaves of the engine -/

/-- Unit hand-over touches the contexts and the units of an engine, nothing else (03 R69). -/
theorem Engine.freeUnit_rest (e : Engine) (n : CtxId) (u : IterUnit) :
    ∃ cs a b c, e.freeUnit n u = { e with ctxs := cs, divider := a, fdiv := b, ucode := c } := by
  unfold Engine.freeUnit Engine.setUnit
  split
  · split <;> cases u <;> exact ⟨_, _, _, _, rfl⟩
  · exact ⟨e.ctxs, e.divider, e.fdiv, e.ucode, rfl⟩

theorem Engine.freeUnits_rest (e : Engine) (n : CtxId) :
    ∃ cs a b c, e.freeUnits n = { e with ctxs := cs, divider := a, fdiv := b, ucode := c } := by
  obtain ⟨_, _, _, _, h1⟩ := e.freeUnit_rest n .divider
  obtain ⟨_, _, _, _, h2⟩ := (e.freeUnit n .divider).freeUnit_rest n .fdiv
  obtain ⟨cs, a, b, c, h3⟩ := ((e.freeUnit n .divider).freeUnit n .fdiv).freeUnit_rest n .ucode
  refine ⟨cs, a, b, c, ?_⟩
  rw [Engine.freeUnits, h3, h2, h1]

/-- Two engines of which a handler's entry reads the same: the registers, the identity and the cells. -/
structure SameEntry (e f : Engine) : Prop where
  hedge : f.hedge = e.hedge
  epoch : f.epoch = e.epoch
  cells : ∀ k, f.cell k = e.cell k

theorem SameEntry.record {e f : Engine} (h : SameEntry e f) (c : Ctx) (why : BitVec 4) (err : Cell) (rescue df : Bool) :
    entryRecord f c why err rescue df = entryRecord e c why err rescue df := by
  simp only [entryRecord, pswWord, h.hedge, h.epoch]

theorem meet_sameEntry (e : Engine) (k : Nat) : SameEntry e (e.meet k) := by
  have h := meet_scratchOnly e k
  unfold Engine.ScratchOnly at h
  exact ⟨by rw [h], by rw [h], Engine.meet_cell e k⟩

theorem SameEntry.trans {e f g : Engine} (h : SameEntry e f) (k : SameEntry f g) : SameEntry e g :=
  ⟨k.hedge.trans h.hedge, k.epoch.trans h.epoch, fun i => (k.cells i).trans (h.cells i)⟩

theorem meetDescr_sameEntry (e : Engine) (v : Byte) : SameEntry e (e.meetDescr v) := by
  unfold Engine.meetDescr
  split
  · exact ⟨rfl, rfl, fun _ => rfl⟩
  · exact (meet_sameEntry e _).trans (meet_sameEntry _ _)

/-- Cells written one after another stand from the first on, and every other cell is kept. -/
theorem writeCells_cell : ∀ (l : List Cell) (e : Engine) (k j : Nat), (e.writeCells k l).cell j = (cellsFrom k l j).getD (e.cell j) := by
  have hfill : ∀ (l : List Cell) (e : Engine) (k : Nat), e.writeCells k l = e.fillFrom false k l := by
    intro l
    induction l with
    | nil => exact fun _ _ => rfl
    | cons c l ih => exact fun e k => ih _ _
  intro l e k j
  rw [hfill, Engine.fillFrom_cell]

/-! ### The entry -/

/-- Spilling a context's window leaves all but the window. -/
theorem spillOne_ctx (e : Engine) (c : Ctx) : (spillOne e c).2 = { c with win := (spillOne e c).2.win } := by
  unfold spillOne
  split <;> rfl

theorem spillAll_ctx (n : Nat) : ∀ (e : Engine) (c : Ctx), (spillAll n e c).2 = { c with win := (spillAll n e c).2.win } := by
  induction n with
  | zero => exact fun _ _ => rfl
  | succ n ih =>
    intro e c
    unfold spillAll
    split
    · rfl
    · rw [ih, spillOne_ctx]

/-- The context that a handler starts in (08 R253, R254). -/
theorem enterHandler_ctx (e : Engine) (n : CtxId) (c : Ctx) (d : Descr) (v : XEvent) (m : BitVec 3) (x : Nat) (osb osl : BitVec 18)
    (rescue : Bool) (count : Nat) :
    ∃ w sw, (enterHandler e n c d v m x osb osl rescue count).ctx n =
      { c with
        wait := w, savedWait := sw, state := .busy, left := BitVec.ofNat 8 (count - 1)
        psw := { c.psw with pl := plMin d.pl c.psw.pl, m := m, key := if d.nkey then d.keyv else c.psw.key, eh := true }
        ehLeft := 4, osb := osb, osl := osl, depth := 1, win := [v.cell], rs := [], rsp := 0, rsc := 0, pc := d.handler, pb := none
        xr := BitVec.ofNat 18 x, xd := c.xd + 1, df := c.df || (v.vec == 0x1B && !rescue), rescue := c.rescue || rescue
        xst := v.xst, undo := none, damaged := if v.forMcheck then [] else c.damaged.filter damageOutlives } := by
  unfold enterHandler
  dsimp only
  rw [Engine.setCtx_ctx_same, spillAll_ctx]
  unfold Ctx.saveWait
  dsimp only
  split
  · exact ⟨_, _, rfl⟩
  · exact ⟨_, _, rfl⟩

/-- The record of the interrupted context stands at its address (08 R257). -/
theorem enterHandler_record (e : Engine) (n : CtxId) (c : Ctx) (d : Descr) (v : XEvent) (m : BitVec 3) (x : Nat) (osb osl : BitVec 18)
    (count : Nat) (hv : v.vec ≠ 0x1B) {i : Nat} (hi : i < 16) :
    some ((enterHandler e n c d v m x osb osl false count).cell (x / 16 + i)) = (entryRecord e c c.whyNow v.cell false false)[i]? := by
  have hlen : (entryRecord e c c.whyNow v.cell false false).length = 16 := rfl
  have hdf : (v.vec == 0x1B && !false) = false := by rw [beq_eq_false_iff_ne.2 hv]; rfl
  unfold enterHandler
  dsimp only
  rw [Engine.setCtx_cell, hdf, writeCells_cell, cellsFrom, if_pos (by omega), Nat.add_sub_cancel_left, List.getElem?_eq_getElem (by omega)]
  rfl

/-- A synchronous fault is no event of the vectors above 0x1A (08 Table 8-1). -/
theorem vec_small {v : Byte} (h : v.toNat ≤ 0x0B) : v ≠ 0x1B ∧ topVec v = false := by
  refine ⟨?_, by simp [topVec]; omega⟩
  rintro rfl
  exact absurd h (by decide)

section
variable {s : State} {x : Iss} {f : SFault}

/-- A fault that does not escalate starts the handler of its entry (08 R250 to R254). -/
theorem vector_enters (hstate : (s.ctxAt x).state = .ready) (hm : (s.ctxAt x).psw.m ≠ 7) (heh : (s.ctxAt x).psw.eh = false)
    (hreads : (s.ctxAt x).vectorReads f.vec = false) (hv : ((s.eng x.eng).descr f.vec).v = true)
    (hfail : (s.eng x.eng).descrFail (s.ctxAt x) f.vec ((s.eng x.eng).descr f.vec) true = none) :
    ∃ e, SameEntry (s.eng x.eng) e ∧ (s.faults x f).eng x.eng =
      enterHandler e x.ctx (s.ctxAt x) ((s.eng x.eng).descr f.vec) f.event
        (handlerMask ((s.eng x.eng).descr f.vec) (s.ctxAt x) f.event) (recordAddr ((s.eng x.eng).descr f.vec) (s.ctxAt x))
        (BitVec.ofNat 18 (handlerStack ((s.eng x.eng).descr f.vec) (s.ctxAt x)).1)
        (handlerStack ((s.eng x.eng).descr f.vec) (s.ctxAt x)).2 false 12 := by
  obtain ⟨cs, a, b, u, hrest⟩ := (s.issuing x).freeUnits_rest x.ctx
  have hctx : ((s.issuing x).freeUnits x.ctx).ctx x.ctx = s.ctxAt x := by
    rw [Engine.freeUnits_ctx_state]
    · rfl
    · rw [show (s.issuing x).ctx x.ctx = s.ctxAt x from rfl, hstate]; decide
  have hdescr : ((s.issuing x).freeUnits x.ctx).descr f.vec = (s.eng x.eng).descr f.vec := by rw [hrest]; rfl
  have hfail' : ((s.issuing x).freeUnits x.ctx).descrFail (s.ctxAt x) f.vec ((s.eng x.eng).descr f.vec) true = none := by
    rw [hrest]; exact hfail
  have hsame : SameEntry (s.eng x.eng) (((s.issuing x).freeUnits x.ctx).meetDescr f.vec) := by
    refine SameEntry.trans ?_ (meetDescr_sameEntry _ _)
    rw [hrest]
    exact ⟨rfl, rfl, fun _ => rfl⟩
  refine ⟨_, hsame, ?_⟩
  have hesc : (f.event.level.isNone && ((s.ctxAt x).psw.m == 7 || (s.ctxAt x).psw.eh)) = false := by
    rw [heh, beq_eq_false_iff_ne.2 hm]; rfl
  have hto : vectorTo ((s.issuing x).freeUnits x.ctx) x.ctx f.event =
      (enterHandler (((s.issuing x).freeUnits x.ctx).meetDescr f.vec) x.ctx (s.ctxAt x) ((s.eng x.eng).descr f.vec) f.event
        (handlerMask ((s.eng x.eng).descr f.vec) (s.ctxAt x) f.event) (recordAddr ((s.eng x.eng).descr f.vec) (s.ctxAt x))
        (BitVec.ofNat 18 (handlerStack ((s.eng x.eng).descr f.vec) (s.ctxAt x)).1)
        (handlerStack ((s.eng x.eng).descr f.vec) (s.ctxAt x)).2 false 12, .entered) := by
    have hvec : f.event.vec = f.vec := rfl
    unfold vectorTo
    dsimp only
    rw [hctx, hesc]
    simp only [Bool.false_and, Bool.false_eq_true, if_false, hvec, hdescr, hv, Bool.not_true, hfail', hreads]
  unfold State.faults State.vector
  rw [State.setEng_eng_same, hto]
  dsimp only
  obtain ⟨q, k, hq⟩ := scratchRecord_cases (((s.setEng x.eng (s.issuing x)).setEng x.eng (enterHandler
    (((s.issuing x).freeUnits x.ctx).meetDescr f.vec) x.ctx (s.ctxAt x) ((s.eng x.eng).descr f.vec) f.event
        (handlerMask ((s.eng x.eng).descr f.vec) (s.ctxAt x) f.event) (recordAddr ((s.eng x.eng).descr f.vec) (s.ctxAt x))
        (BitVec.ofNat 18 (handlerStack ((s.eng x.eng).descr f.vec) (s.ctxAt x)).1)
        (handlerStack ((s.eng x.eng).descr f.vec) (s.ctxAt x)).2 false 12))) (s.setEng x.eng (s.issuing x)) x.eng
  rw [hq]
  exact State.setEng_eng_same _ _ _
end

/-- What passing the checks of an entry says of the handler's stack and record (08 R249). -/
theorem descrFail_none {e : Engine} {c : Ctx} {vec : Byte} {d : Descr} (h : e.descrFail c vec d true = none) :
    (handlerStack d c).1 < scratchEnd ∧ recordAddr d c + 256 ≤ scratchEnd := by
  simp only [Engine.descrFail, Bool.not_true, Bool.false_eq_true, if_false] at h
  repeat' rw [ite_eq_iff] at h
  simp only [reduceCtorEq, and_false, false_or, and_true] at h
  obtain ⟨-, -, -, -, hstack, hrecord, -⟩ := h
  simp only [Bool.or_eq_true, decide_eq_true_eq, not_or, not_le, not_lt] at hstack hrecord
  omega

/-! ### RETI -/

/-- The context after an answer: the answer's, its window settled (03 R87). -/
theorem issue_ctxAt {s : State} {x : Iss} {o : OpInfo} {op : Nat} {body : Env → Engine → Ctx → Except SFault Done}
    (hi : s.issues x o = true) {d : Done} (hb : body (s.env x o) (s.eng x.eng) (s.bodyCtx x o) = .ok d) (hu : d.unit = none) :
    ∃ w, (s.issue x o op body id).ctxAt x = { (d.final o (s.ctxAt x)).ehStep.busyFor d.count with win := w } := by
  obtain ⟨ws, hs, hws⟩ := issue_ok (post := id) (op := op) hi hb fun h => nomatch hu.symm.trans h
  have hc : s.complete x (s.ctxAt x) o op d id =
      s.setEng x.eng (finish (d.eng.capture (s.ctxAt x) ((s.ctxAt x).pc.toNat + o.len x.px)) x.ctx (s.slot (s.ctxAt x).slot).hedge
        (d.final o (s.ctxAt x)) d.count d.unit) := by
    simp [State.complete, hu, Engine.unitTaken]
  obtain ⟨q, f, hq⟩ := scratchRecord_cases (s.complete x (s.ctxAt x) o op d id) s x.eng
  rw [hq, ucodeMet_none (.inl (hws (by simp [hu]))), hc] at hs
  have hctx := (finish_cases (d.eng.capture (s.ctxAt x) ((s.ctxAt x).pc.toNat + o.len x.px)) x.ctx (s.slot (s.ctxAt x).slot).hedge
    (d.final o (s.ctxAt x)) d.count d.unit).1 x.ctx
  have heng : (s.issue x o op body id).ctxAt x = (finish (d.eng.capture (s.ctxAt x) ((s.ctxAt x).pc.toNat + o.len x.px)) x.ctx
      (s.slot (s.ctxAt x).slot).hedge (d.final o (s.ctxAt x)) d.count d.unit).ctx x.ctx := by
    rw [hs]; exact congrArg (·.ctx x.ctx) (State.setEng_eng_same ..)
  rw [heng, hctx, Engine.setCtx_ctx_same, settle_ctx]
  exact ⟨_, rfl⟩

/-- Filling the window changes nothing that software sees (03 R87). -/
theorem refill_viewOf (n : Nat) : ∀ (e : Engine) (c : Ctx), viewOf (refill n e c).1 (refill n e c).2 = viewOf e c := by
  induction n with
  | zero => exact fun _ _ => rfl
  | succ n ih =>
    intro e c
    unfold refill
    split
    · next h =>
      rw [ih]
      simp only [viewOf, fillOne_stackOf e c h]
      rfl
    · rfl

theorem refill_keeps (n : Nat) : ∀ (e : Engine) (c : Ctx), Keeps e (refill n e c).1 fun _ => False := by
  induction n with
  | zero => exact fun e _ => Keeps.refl e
  | succ n ih =>
    intro e c
    unfold refill
    split
    · exact (meet_keeps e _).trans (ih _ _)
    · exact Keeps.refl e

theorem refill_ctx (n : Nat) : ∀ (e : Engine) (c : Ctx), (refill n e c).2 = { c with win := (refill n e c).2.win } := by
  induction n with
  | zero => exact fun _ _ => rfl
  | succ n ih =>
    intro e c
    unfold refill
    split
    · rw [ih]; rfl
    · rfl

/-- A field of a record's cell as a number of its width. -/
theorem ofNat_fld (c : Cell) {hi lo w : Nat} (h : hi + 1 - lo = w) : BitVec.ofNat w (c.fld hi lo) = BitVec.ofNat w (c.pay.toNat / 2 ^ lo) := by
  subst h
  apply BitVec.eq_of_toNat_eq
  simp [Cell.fld, bits]

/-- What software sees of a context that RETI has restored from the record at XR (08 R268). -/
theorem viewOf_retiCtx (e : Engine) (c : Ctx) :
    let r := fun i => (e.cell (c.xr.toNat / 16 + i)).pay.toNat
    viewOf e (retiCtx e c) = { viewOf e c with
      pc := BitVec.ofNat 19 (r 0)
      pb := if r 0 / 2 ^ 19 % 2 = 1 then some ⟨(r 0 / 2 ^ 52) % 2 == 1, (r 0 / 2 ^ 53) % 2 == 1, BitVec.ofNat 19 (r 0 / 2 ^ 20)⟩ else none
      rsp := BitVec.ofNat 4 (r 0 / 2 ^ 43), rsc := BitVec.ofNat 5 (r 0 / 2 ^ 47)
      pl := BitVec.ofNat 2 (r 1), m := BitVec.ofNat 3 (r 1 / 2 ^ 4), key := BitVec.ofNat 4 (r 1 / 2 ^ 8), rm := BitVec.ofNat 3 (r 1 / 2 ^ 12)
      osb := BitVec.ofNat 18 (r 2), osl := BitVec.ofNat 18 (r 2 / 2 ^ 18)
      stack := (List.range (r 2 / 2 ^ 36 % 2 ^ 15)).map fun i => e.cell (r 2 % 2 ^ 18 / 16 + (r 2 / 2 ^ 36 % 2 ^ 15 - 1 - i))
      fp := BitVec.ofNat 18 (r 3), fl := flOf (BitVec.ofNat 18 (r 3 / 2 ^ 18)) (BitVec.ofNat 18 (r 3 / 2 ^ 36)), fbase := BitVec.ofNat 18 (r 3 / 2 ^ 36)
      rs := (retiCtx e c).rs } := by
  intro r
  have hlow (i : Nat) {hi w : Nat} (h : hi + 1 - 0 = w) :
      BitVec.ofNat w ((e.cell (c.xr.toNat / 16 + i)).fld hi 0) = BitVec.ofNat w (r i) := by rw [ofNat_fld _ h, Nat.pow_zero, Nat.div_one]
  have hfld (i : Nat) {hi lo w : Nat} (h : hi + 1 - lo = w) :
      BitVec.ofNat w ((e.cell (c.xr.toNat / 16 + i)).fld hi lo) = BitVec.ofNat w (r i / 2 ^ lo) := ofNat_fld _ h
  have hbit (i n : Nat) : bit (e.cell (c.xr.toNat / 16 + i)).pay n = (r i / 2 ^ n % 2 == 1) := by
    rw [bit_eq_decide, ← Bool.beq_eq_decide_eq]
  have hstack : stackOf e (retiCtx e c) =
      (List.range (r 2 / 2 ^ 36 % 2 ^ 15)).map fun i => e.cell (r 2 % 2 ^ 18 / 16 + (r 2 / 2 ^ 36 % 2 ^ 15 - 1 - i)) := by
    have hdepth : (retiCtx e c).depth.toNat = r 2 / 2 ^ 36 % 2 ^ 15 :=
      (congrArg BitVec.toNat (hfld 2 (hi := 50) (lo := 36) (w := 15) rfl)).trans (BitVec.toNat_ofNat _ _)
    have hosb : (retiCtx e c).osb.toNat = r 2 % 2 ^ 18 :=
      (congrArg BitVec.toNat (hlow 2 (hi := 17) (w := 18) rfl)).trans (BitVec.toNat_ofNat _ _)
    unfold stackOf
    rw [hdepth]
    apply List.map_congr_left
    intro i _
    have hwin : (retiCtx e c).win[i]? = none := rfl
    simp only [stackTop, hwin, Ctx.stackSlot, hdepth, hosb]
  simp only [viewOf, hstack]
  simp only [retiCtx, hlow 0 (hi := 18) (w := 19) rfl, hlow 1 (hi := 1) (w := 2) rfl, hlow 2 (hi := 17) (w := 18) rfl,
    hlow 3 (hi := 17) (w := 18) rfl, hfld 0 (hi := 38) (lo := 20) (w := 19) rfl, hfld 0 (hi := 46) (lo := 43) (w := 4) rfl,
    hfld 0 (hi := 51) (lo := 47) (w := 5) rfl, hfld 1 (hi := 6) (lo := 4) (w := 3) rfl, hfld 1 (hi := 11) (lo := 8) (w := 4) rfl,
    hfld 1 (hi := 14) (lo := 12) (w := 3) rfl, hfld 2 (hi := 35) (lo := 18) (w := 18) rfl, hfld 3 (hi := 35) (lo := 18) (w := 18) rfl,
    hfld 3 (hi := 53) (lo := 36) (w := 18) rfl, hbit, beq_iff_eq]

/-- RETI of a record that passes its checks answers the record's context, its window filled (08 R268, R269). -/
theorem reti_body {s : State} {x : Iss} (hc : retiCheck (s.eng x.eng) (s.ctxAt x) = .ok ())
    (hw : ((s.eng x.eng).cell ((s.ctxAt x).xr.toNat / 16)).pay.toNat / 2 ^ 39 % 16 = 0) :
    let o : OpInfo := { delayBad := true, priv := true }
    let r := refill 8 ((s.eng x.eng).meetAll (cellsOf (s.ctxAt x).xr.toNat 256)) (retiCtx (s.eng x.eng) (s.bodyCtx x o))
    ∃ op body, exec (.reti x) s = .next (s.issue x o op body id) ∧
      body (s.env x o) (s.eng x.eng) (s.bodyCtx x o) = .ok { count := 12, eng := r.1, ctx := r.2 } := by
  intro o r
  have hwhy : ((s.eng x.eng).cell ((s.bodyCtx x o).xr.toNat / 16)).fld 42 39 = 0 := hw
  have hcheck : retiCheck (s.eng x.eng) (s.bodyCtx x o) = .ok () := hc
  refine ⟨0, _, rfl, ?_⟩
  simp only [hcheck, hwhy, ok_bind, if_true]
  rfl

/-- RETI of a record that passes its checks, with no saved wait, restores the context that the record holds (08 R268, R269). -/
theorem reti_answers {s : State} {x : Iss} (hi : s.issues x { delayBad := true, priv := true } = true)
    (hc : retiCheck (s.eng x.eng) (s.ctxAt x) = .ok ())
    (hw : ((s.eng x.eng).cell ((s.ctxAt x).xr.toNat / 16)).pay.toNat / 2 ^ 39 % 16 = 0) :
    Answers (.reti x) s fun t =>
      Becomes s t x (viewOf (s.eng x.eng) (retiCtx (s.eng x.eng) (s.ctxAt x))) ∧
      (t.ctxAt x).psw.eh = false ∧ (t.ctxAt x).xr = (retiCtx (s.eng x.eng) (s.ctxAt x)).xr ∧
      (t.ctxAt x).xd = (retiCtx (s.eng x.eng) (s.ctxAt x)).xd := by
  obtain ⟨op, body, hex, hb⟩ := reti_body hc hw
  have hmeet := meetAll_keeps (cellsOf (s.ctxAt x).xr.toNat 256) (s.eng x.eng)
  have hkeep := hmeet.trans (refill_keeps 8 _ (retiCtx (s.eng x.eng) (s.bodyCtx x { delayBad := true, priv := true })))
  refine ⟨_, hex, issue_becomes hi hb hkeep ?_, ?_⟩
  · rw [viewOf_congr fun k => (hkeep.cell not_false).symm, refill_viewOf, viewOf_congr fun k => hmeet.cell not_false]
    rfl
  · obtain ⟨w, hctx⟩ := issue_ctxAt (op := op) hi hb rfl
    rw [hctx, refill_ctx]
    exact ⟨rfl, rfl, rfl⟩

/-- Settles O8: a fault that does not escalate enters the handler of its entry, and RETI restores the context of its record. -/
theorem handlersAreEnteredAndLeft : Obligations.HandlersAreEnteredAndLeft := by
  unfold Obligations.HandlersAreEnteredAndLeft
  refine ⟨?_, ?_⟩
  · intro s x f c e d r w h1 h2 hstate hm heh hreads hv hfail
    obtain ⟨g, hsame, heng⟩ := vector_enters (f := f) hstate hm heh hreads hv hfail
    obtain ⟨hosb, hrec⟩ := descrFail_none hfail
    obtain ⟨hvec, htop⟩ := vec_small h2
    obtain ⟨wt, sw, hctx⟩ := enterHandler_ctx g x.ctx c d f.event (handlerMask d c f.event) r
      (BitVec.ofNat 18 (handlerStack d c).1) (handlerStack d c).2 false 12
    have hat : (s.faults x f).ctxAt x = _ := (congrArg (·.ctx x.ctx) heng).trans hctx
    have hview : w = viewOf ((s.faults x f).eng x.eng) _ := congrArg (viewOf _) hat
    have hmask : handlerMask d c f.event = if c.psw.m.toNat < d.m.toNat then d.m else c.psw.m := by
      have hl : f.event.level = none := rfl
      have ht : topVec f.event.vec = false := htop
      simp only [handlerMask, ht, hl, Bool.false_eq_true, if_false]
      by_cases hle : d.m.toNat ≤ c.psw.m.toNat
      · rw [if_pos hle, if_neg (by omega)]
      · rw [if_neg hle, if_pos (by omega)]
    have h18 (n : Nat) (hn : n < scratchEnd) : (BitVec.ofNat 18 n).toNat = n := by
      rw [BitVec.toNat_ofNat]
      exact Nat.mod_eq_of_lt hn
    rw [hview, hat]
    refine ⟨rfl, rfl, hmask, rfl, rfl, rfl, rfl, rfl, rfl, rfl, h18 _ hosb, rfl, rfl, rfl, rfl, rfl, h18 r ?_, ?_, rfl, fun i hi => ?_⟩
    · show recordAddr d c < scratchEnd
      omega
    · have : (f.event.vec == 0x1B && !false) = false := by rw [show f.event.vec = f.vec from rfl, beq_eq_false_iff_ne.2 hvec]; rfl
      simp only [this, Bool.or_false]
    · rw [heng, ← hsame.record c]
      exact enterHandler_record g x.ctx c d f.event _ r _ _ 12 hvec hi
  · intro s x c e r hi hc hw
    obtain ⟨t, ht, hbecomes, heh, hxr, hxd⟩ := reti_answers hi hc hw
    refine ⟨t, ht, ?_, heh, ?_, ?_⟩
    · rw [viewOf_retiCtx] at hbecomes
      exact hbecomes
    · rw [hxr]
      exact (ofNat_fld _ rfl).trans (by rw [Nat.pow_zero, Nat.div_one])
    · rw [hxd]
      exact ofNat_fld _ rfl

end Sys2Proof.Machine
end

section
/-! Scratch loads and stores (04 R129 to R138): the address of an access, the cell that a load puts in its place, and the cell that a store
leaves. -/

namespace Sys2Proof.Machine

/-! ### Addresses -/

theorem formWidth_pos (f : Byte) : 0 < formWidth f := by
  unfold formWidth
  split <;> decide

theorem addrCheck_ok {w : Nat} {a : Int} (h0 : 0 ≤ a) (h1 : a + w ≤ 2 ^ 18) (h2 : a % w = 0) : addrCheck w a = .ok () := by
  have hin : (decide (a < 0) || decide ((0x3FFFF : Int) - (w - 1) < a)) = false := by
    rw [Bool.or_eq_false_iff, decide_eq_false_iff_not, decide_eq_false_iff_not]
    omega
  simp [addrCheck, hin, h2]

theorem addrCheck_range {w : Nat} {a : Int} (h : ¬(0 ≤ a ∧ a + w ≤ 2 ^ 18)) : addrCheck w a = .error (fAddr 1 a) := by
  have hout : (decide (a < 0) || decide ((0x3FFFF : Int) - (w - 1) < a)) = true := by
    rw [Bool.or_eq_true, decide_eq_true_iff, decide_eq_true_iff]
    omega
  simp [addrCheck, hout]

theorem addrCheck_misaligned {w : Nat} {a : Int} (h0 : 0 ≤ a) (h1 : a + w ≤ 2 ^ 18) (h2 : a % w ≠ 0) :
    addrCheck w a = .error (fAddr 2 a) := by
  have hin : (decide (a < 0) || decide ((0x3FFFF : Int) - (w - 1) < a)) = false := by
    rw [Bool.or_eq_false_iff, decide_eq_false_iff_not, decide_eq_false_iff_not]
    omega
  simp [addrCheck, hin, h2]

/-- An access whose address, and index in the .X form, are INT cells without poison goes where its form says, once that address passes (04
R129 to R132). -/
theorem accessAddr_of_ints {v : Env} {e : Engine} {c : Ctx} {f : Byte} {j : Nat} {a : Cell} (hj : (if formMode f == 3 then 1 else 0) = j)
    (ha : stackTop e c j = a) (hat : a.ty = tyINT) (has : a.sub = 0) (hap : a.p = false)
    (hi : formMode f = 3 → (stackTop e c 0).ty = tyINT ∧ (stackTop e c 0).sub = 0 ∧ (stackTop e c 0).p = false) :
    accessAddr v e c f [] = (addrCheck (formWidth f) (formAddr f a.int (stackTop e c 0).int) >>= fun _ =>
      ensure (e.open? v.pl (formAddr f a.int (stackTop e c 0).int).toNat (formWidth f))
        (fKey 1 (formAddr f a.int (stackTop e c 0).int).toNat j) >>= fun _ => .ok (formAddr f a.int (stackTop e c 0).int).toNat) := by
  have htags : tagCheck v.nochk ((if (formMode f == 3) = true then [(0, stackTop e c 0, (stackTop e c 0).isInt)] else []) ++ [(j, a, a.isInt)]) =
      .ok () := by
    refine tagCheck_ok _ _ fun q hq => ?_
    rcases List.mem_append.1 hq with hq | hq
    · by_cases hm : formMode f = 3
      · obtain ⟨hty, hsub, -⟩ := hi hm
        rw [if_pos (beq_iff_eq.2 hm), List.mem_singleton] at hq
        subst hq
        exact ⟨wellFormed_int hty hsub, decide_eq_true hty⟩
      · rw [if_neg (mt beq_iff_eq.1 hm)] at hq
        cases hq
    · rw [List.mem_singleton] at hq
      subst hq
      exact ⟨wellFormed_int hat has, decide_eq_true hat⟩
  have hidx : (!(formMode f == 3 && (stackTop e c 0).p)) = true := by
    by_cases hm : formMode f = 3
    · obtain ⟨-, -, hp⟩ := hi hm
      rw [hp, Bool.and_false]
      rfl
    · rw [beq_eq_false_iff_ne.2 hm]
      rfl
  have hp : (!a.p) = true := by rw [hap]; rfl
  unfold accessAddr
  dsimp only
  rw [hj, ha]
  simp only [List.zipIdx_nil, List.map_nil, List.append_nil]
  rw [htags]
  simp only [ok_bind, hidx, hp, ensure_true]
  rfl

theorem accessAddr_eq {v : Env} {e : Engine} {c : Ctx} {f : Byte} {a i : Cell} {r : List Cell} {addr : Int} (hat : a.ty = tyINT)
    (has : a.sub = 0) (hap : a.p = false) (hit : i.ty = tyINT) (his : i.sub = 0) (hip : i.p = false)
    (h : (formMode f = 0 ∨ formMode f = 1) ∧ stackOf e c = a :: r ∧ addr = a.int ∨
         formMode f = 2 ∧ stackOf e c = a :: r ∧ addr = a.int - formWidth f ∨
         formMode f = 3 ∧ stackOf e c = i :: a :: r ∧ addr = a.int + i.int * 2 ^ bits f 7 5) :
    ∃ j, accessAddr v e c f [] = (addrCheck (formWidth f) addr >>= fun _ =>
      ensure (e.open? v.pl addr.toNat (formWidth f)) (fKey 1 addr.toNat j) >>= fun _ => .ok addr.toNat) := by
  rcases h with ⟨hm, hs, rfl⟩ | ⟨hm, hs, rfl⟩ | ⟨hm, hs, rfl⟩
  · have hn : formMode f ≠ 3 := by omega
    have haddr : ∀ k, formAddr f a.int k = a.int := by
      intro k
      rcases hm with hm | hm <;> simp only [formAddr, hm]
    have := accessAddr_of_ints (v := v) (a := a) (by rw [beq_eq_false_iff_ne.2 hn]; rfl) (stackTop_eq hs (i := 0) (by simp)) hat has hap
      (fun k => absurd k hn)
    rw [haddr] at this
    exact ⟨_, this⟩
  · have hn : formMode f ≠ 3 := by omega
    have haddr : ∀ k, formAddr f a.int k = a.int - formWidth f := by
      intro k
      simp only [formAddr, hm]
    have := accessAddr_of_ints (v := v) (a := a) (by rw [beq_eq_false_iff_ne.2 hn]; rfl) (stackTop_eq hs (i := 0) (by simp)) hat has hap
      (fun k => absurd k hn)
    rw [haddr] at this
    exact ⟨_, this⟩
  · have hi : stackTop e c 0 = i := stackTop_eq hs (by simp)
    have haddr : formAddr f a.int i.int = a.int + i.int * 2 ^ bits f 7 5 := by
      simp only [formAddr, hm, formScale, Nat.cast_pow, Nat.cast_ofNat]
    have := accessAddr_of_ints (v := v) (a := a) (by rw [beq_iff_eq.2 hm]; rfl) (stackTop_eq hs (i := 1) (by simp)) hat has hap
      (fun _ => by rw [hi]; exact ⟨hit, his, hip⟩)
    rw [hi] at this
    exact ⟨_, haddr ▸ this⟩

/-! ### Loads -/

theorem formPush_length (f : Byte) (a b : Int) : (formPush f a).length = (formPush f b).length := by
  unfold formPush
  split
  · simp only [List.length_singleton]
  · rfl

/-- The one cell that an updating form pushes. -/
theorem formPush_reverse (f : Byte) (a : Int) : (formPush f a).reverse = formPush f a := by
  unfold formPush
  split
  · exact List.reverse_singleton
  · rfl

/-- A load of an accepted form replaces the address by the cell loaded, under the next address of an updating form (04 R132, R134). -/
theorem does_load {i : Instr} {s : State} {x : Iss} {f : Byte} {k : LdKind} {widths : List Nat} {a : Nat}
    (hex : exec i s = loadOp x f k widths s)
    (hi : s.issues x { imm := 1, pops := formPops f, pushes := 1 + (formPush f 0).length, reads := formPops f } = true)
    (hbad : formBad f widths [0, 1, 2, 3] = false)
    (ha : accessAddr (s.env x { imm := 1, pops := formPops f, pushes := 1 + (formPush f 0).length, reads := formPops f }) (s.eng x.eng)
      (s.ctxAt x) f [] = .ok a) {c : Cell} (hc : loadCell (s.eng x.eng) k f a = c) :
    Does i s x (s.moved x { imm := 1, pops := formPops f, pushes := 1 + (formPush f 0).length, reads := formPops f }
      (formPush f (addrOf (s.eng x.eng) (s.ctxAt x) f) ++ c :: (s.view x).stack.drop (formPops f))) := by
  subst hc
  unfold loadOp at hex
  dsimp only at hex
  rw [hbad, if_neg Bool.false_ne_true] at hex
  refine ⟨_, hex, issue_becomes (n := 1) (g := (s.eng x.eng).meet (a / 16))
    (c := (s.bodyCtx x { imm := 1, pops := formPops f, pushes := 1 + (formPush f 0).length, reads := formPops f }).popPush (formPops f)
      (loadCell (s.eng x.eng) k f a :: formPush f (addrOf (s.eng x.eng) (s.ctxAt x) f))) hi ?_ (meet_keeps _ _) ?_⟩
  · rw [accessAddr_bodyCtx, ha, ok_bind]
    rfl
  · rw [viewOf_popPush hi ((Nat.add_comm _ _).trans (congrArg (· + 1) (formPush_length f 0 _))), List.reverse_cons, formPush_reverse,
      List.append_assoc]
    rfl

section
variable {e : Engine} {f : Byte} {a : Nat}

theorem loadCell_full (h : bits f 2 0 = 5) (k : LdKind) : loadCell e k f a = e.cell (a / 16) := by simp [loadCell, h]
theorem loadCell_dec (h : bits f 2 0 = 4) (k : LdKind) :
    loadCell e k f a = ⟨2, 0, (e.cell (a / 16)).p, false, decStorage (e.cell (a / 16)).pay⟩ := by simp [loadCell, h, cellDec]

theorem loadCell_narrow (h : bits f 2 0 < 4) (k : LdKind) :
    loadCell e k f a =
      let v := (e.cell (a / 16)).pay.toNat / 2 ^ (8 * (a % 16)) % 2 ^ (8 * formWidth f)
      match k with
      | .zero => cellInt (BitVec.ofNat 64 v).toInt (e.cell (a / 16)).p
      | .sign => cellInt (if 2 ^ (8 * formWidth f - 1) ≤ v then (v : Int) - 2 ^ (8 * formWidth f) else v) (e.cell (a / 16)).p
      | .flt => cellFlt (BitVec.ofNat 64 v) (e.cell (a / 16)).p := by
  unfold loadCell
  dsimp only
  split
  · omega
  · omega
  · rfl
end

/-- A load of less than 8 bytes gives less than 2^32 (04 R134). -/
theorem loaded_lt {f : Byte} (h : bits f 2 0 < 3) {n : Nat} : n % 2 ^ (8 * formWidth f) < 2 ^ 32 := by
  refine Nat.lt_of_lt_of_le (Nat.mod_lt _ (Nat.two_pow_pos _)) (Nat.pow_le_pow_right (by decide) ?_)
  generalize hb : bits f 2 0 = b at h
  unfold formWidth
  rw [hb]
  interval_cases b <;> decide

/-- A number below 2^63 as an INT cell. -/
theorem cellInt_small {n : Nat} (h : n < 2 ^ 63) (p : Bool) : cellInt (BitVec.ofNat 64 n).toInt p = ⟨1, 0, p, false, BitVec.ofNat 128 n⟩ := by
  rw [cellInt_toInt (by decide)]
  have hmsb : (BitVec.ofNat 64 n).msb = false := by
    rw [BitVec.msb_eq_false_iff_two_mul_lt, BitVec.toNat_ofNat]
    omega
  have hext : (BitVec.ofNat 64 n).signExtend 128 = BitVec.ofNat 128 n := by
    apply BitVec.eq_of_toNat_eq
    rw [BitVec.signExtend_eq_setWidth_of_msb_false hmsb, BitVec.toNat_setWidth, BitVec.toNat_ofNat, BitVec.toNat_ofNat,
      Nat.mod_eq_of_lt (a := n) (by omega)]
  rw [hext]

/-- A form that is not bad has one of the widths and one of the modes (04 R129). -/
theorem formBad_false {f : Byte} {ws ms : List Nat} (h : formBad f ws ms = false) : bits f 2 0 ∈ ws ∧ formMode f ∈ ms := by
  simp only [formBad, Bool.or_eq_false_iff, Bool.not_eq_false', List.contains_iff_mem] at h
  obtain ⟨⟨hw, hm⟩, -⟩ := h
  exact ⟨hw, hm⟩

/-! ### Stores -/

/-- What a store leaves in its cell (04 R135 to R137). -/
theorem storeAt_cell (e : Engine) {f : Byte} (a : Nat) (d : Cell) :
    (storeAt e f a d).cell (a / 16) = match bits f 2 0 with
      | 5 => d
      | 4 => ⟨2, 0, d.p, false, decStorage d.pay⟩
      | _ => e.mergeCell (a / 16) (a % 16) ((bytesOfPay d.pay).take (formWidth f)) d.p := by
  unfold storeAt
  generalize bits f 2 0 = w
  match w with
  | 5 => exact storeCell_cell _ _ _
  | 4 => exact storeCell_cell _ _ _
  | 0 | 1 | 2 | 3 | _ + 6 => exact storeNarrow_cell _ _ _ _ _

/-- A store into a guarded cell at PL2 is refused (04 R138). -/
theorem targetCheck_guarded {v : Env} {e : Engine} {a : Nat} {narrow : Bool} (hpl : v.pl = 2) (hg : (e.cell (a / 16)).g = true) :
    targetCheck v e a narrow = .error (fKey 2 a) := by simp [targetCheck, hpl, hg]

theorem targetCheck_eq {v : Env} {e : Engine} {a : Nat} {narrow : Bool} (h : v.pl ≠ 2 ∨ (e.cell (a / 16)).g = false) :
    targetCheck v e a narrow = ensure (!narrow || e.narrowOk v.nochk (a / 16)) (fTagCell 2 (a / 16 * 16)) := by
  have : (!(v.pl == 2 && (e.cell (a / 16)).g)) = true := by
    rcases h with h | h <;> simp [h]
  simp only [targetCheck, this, ensure_true, ok_bind]

/-- A store of an accepted form stores its operand, and pushes the next address of an updating form (04 R132, R135 to R138). -/
theorem st_exec {s : State} {x : Iss} {f : Byte} (hbad : formBad f [0, 1, 2, 3, 4, 5] [0, 1, 2, 3] = false) :
    exec (.st x f) s = .next (s.issue x
      { imm := 1, pops := formPops f + 1, pushes := (formPush f 0).length, reads := formPops f + 1 } 0
      (fun v e c => do
        let a ← accessAddr v e c f [storeAccepts f]
        targetCheck v e a (decide (bits f 2 0 < 4))
        pure { count := 1, eng := storeAt e f a (stackTop e c (formPops f)),
               ctx := c.popPush (formPops f + 1) (formPush f (addrOf e c f)) }) id) := by
  show execSt x f s = _
  unfold execSt
  dsimp only
  rw [hbad, if_neg Bool.false_ne_true]

/-- Settles O9: an access goes where its form says, a load gives the cell there, and a store leaves its operand there. -/
theorem scratchIsLoadedAndStored : Obligations.ScratchIsLoadedAndStored := by
  unfold Obligations.ScratchIsLoadedAndStored
  refine ⟨?_, ?_, ?_⟩
  · intro v e c f a i r w hat has hap hit his hip addr h
    obtain ⟨j, hj⟩ := accessAddr_eq (v := v) hat has hap hit his hip h
    rw [hj]
    refine ⟨fun h0 h1 h2 ho => ?_, fun h => ?_, fun h0 h1 h2 => ?_⟩
    · rw [addrCheck_ok h0 h1 h2, ok_bind, ho, ensure_true, ok_bind]
    · rw [addrCheck_range h, error_bind]
    · rw [addrCheck_misaligned h0 h1 h2, error_bind]
  · intro s x f a e o cell w v st hi ha
    refine ⟨fun hbad => ⟨fun h => ?_, fun h => ?_, fun h => ?_, fun h => ?_⟩, fun hbad => ?_, fun hbad => ?_⟩
    · exact does_load (k := .zero) rfl hi hbad ha (loadCell_full h _)
    · exact does_load (k := .zero) rfl hi hbad ha (loadCell_dec h _)
    · have hv : v < 2 ^ 32 := loaded_lt (by omega)
      exact does_load (k := .zero) rfl hi hbad ha ((loadCell_narrow (by omega) _).trans (cellInt_small (n := v) (by omega) _))
    · exact does_load (k := .zero) rfl hi hbad ha ((loadCell_narrow (by omega) _).trans (cellInt_toInt (by simp) _ _))
    · obtain ⟨hw, -⟩ := formBad_false hbad
      have hsign : (if 2 ^ (8 * formWidth f - 1) ≤ v then (v : Int) - 2 ^ (8 * formWidth f) else v) =
          if v < 2 ^ (8 * w - 1) then (v : Int) else (v : Int) - 2 ^ (8 * w) := by
        by_cases hv : v < 2 ^ (8 * w - 1)
        · rw [if_pos hv, if_neg (Nat.not_le.2 hv)]
        · rw [if_neg hv, if_pos (Nat.not_lt.1 hv)]
      refine does_load (k := .sign) rfl hi hbad ha ((loadCell_narrow ?_ _).trans (congrArg (cellInt · cell.p) hsign))
      simp only [List.mem_cons, List.not_mem_nil, or_false] at hw
      omega
    · obtain ⟨hw, -⟩ := formBad_false hbad
      have hv : v < 2 ^ 64 := by
        refine Nat.lt_of_lt_of_le (Nat.mod_lt _ (Nat.two_pow_pos _)) ?_
        rw [List.mem_singleton] at hw
        have hf : formWidth f = 8 := by simp only [formWidth, hw]
        show 2 ^ (8 * formWidth f) ≤ 2 ^ 64
        rw [hf]
      refine does_load (k := .flt) rfl hi hbad ha ((loadCell_narrow ?_ _).trans ?_)
      · rw [List.mem_singleton] at hw
        omega
      · show cellFlt (BitVec.ofNat 64 v) cell.p = _
        simp only [cellFlt, Cell.mk.injEq, true_and]
        apply BitVec.eq_of_toNat_eq
        rw [BitVec.toNat_setWidth, BitVec.toNat_ofNat, BitVec.toNat_ofNat, Nat.mod_eq_of_lt hv]
  · intro s x f a e p o d v hi hbad ha
    have hex := st_exec (s := s) (x := x) hbad
    have ha' : accessAddr (s.env x o) e (s.bodyCtx x o) f [storeAccepts f] = .ok a := ha
    have hpl' : (s.env x o).pl = 2 ↔ (s.view x).pl = 2 := by
      rw [State.env_pl]
      generalize (s.view x).pl = k
      revert k
      decide
    refine ⟨fun hg hn => ⟨_, hex, ?_⟩, fun hpl hg => exec_faults hex hi ?_, fun hg hw hn => exec_faults hex hi ?_⟩
    · have hok : (!decide (bits f 2 0 < 4) || e.narrowOk (s.env x o).nochk (a / 16)) = true := by
        rcases hn with hn | hn
        · rw [decide_eq_false (by omega)]; rfl
        · rw [hn, Bool.or_true]
      refine issue_writes (n := 1) (g := storeAt e f a d) (c := (s.bodyCtx x o).popPush (p + 1) (formPush f (addrOf e (s.ctxAt x) f))) hi ?_
        ((storeAt_keeps e f a d).mono fun k hk => by simp [hk]) (fun k c hk => ?_) ?_
      · rw [ha', ok_bind, targetCheck_eq (hg.imp_left fun h => mt hpl'.1 h), hok, ensure_true, ok_bind]
        rfl
      · split at hk
        · cases hk
        · next h =>
          obtain rfl := not_not.1 h
          exact (storeAt_cell e a d).trans (Option.some.inj hk)
      · rw [viewOf_popPush hi (formPush_length f 0 _), formPush_reverse]
    · rw [ha', ok_bind, targetCheck_guarded (hpl'.2 hpl) hg, error_bind]
    · rw [ha', ok_bind, targetCheck_eq (hg.imp_left fun h => mt hpl'.1 h), decide_eq_true hw, hn]
      rfl

end Sys2Proof.Machine
end

section
/-! Instructions that do something for the device beside their own context: what such an answer leaves (05 R168 to R178). -/

namespace Sys2Proof.Machine

/-! ### The store buffer -/

theorem setScratch_foldl_sb (l : List (Nat × Cell)) : ∀ (e : Engine) (q : List (Nat × Cell)),
    l.foldl (fun (a : Engine) kc => a.setScratch kc.1 kc.2) { e with sb := q } =
      { l.foldl (fun (a : Engine) kc => a.setScratch kc.1 kc.2) e with sb := q } := by
  induction l with
  | nil => exact fun _ _ => rfl
  | cons kc l ih => exact fun e q => ih (e.setScratch kc.1 kc.2) q

/-- A drain makes the buffered entries reach scratch one after another (03 R109). -/
theorem drain_keeps : ∀ (l : List (Nat × Cell)) (e : Engine), e.sb = l → Keeps e e.drain fun _ => False
  | [], e, h => by
    have : e.drain = e := by
      unfold Engine.drain
      rw [h]
      exact congrArg (fun q => ({ e with sb := q } : Engine)) h.symm
    rw [this]
    exact Keeps.refl e
  | (k, c) :: l, e, h => by
    have hone : e.drainOne = { e.setScratch k c with sb := l } := by unfold Engine.drainOne; rw [h]
    have hsame : e.drainOne.drain = e.drain := by
      unfold Engine.drain
      rw [hone, h, List.foldl_cons, setScratch_foldl_sb]
    exact hsame ▸ (drainOne_keeps e).trans (drain_keeps l e.drainOne (by rw [hone]))

theorem Engine.drain_sb (e : Engine) : e.drain.sb = [] := rfl

theorem spillOne_sb {e : Engine} {c : Ctx} (h : e.sb = []) : (spillOne e c).1.sb = [] := by
  unfold spillOne
  split
  · exact h
  · simp [Engine.writeThrough, Engine.mark, h]

theorem meet_sb (e : Engine) (k : Nat) : (e.meet k).sb = e.sb := by
  unfold Engine.meet
  repeat' split
  all_goals rfl

/-- The spill unit puts nothing into the store buffer (03 R87). -/
theorem settle_sb (n : Nat) : ∀ {e : Engine} {c : Ctx}, e.sb = [] → (settle n e c).1.sb = [] := by
  induction n with
  | zero => exact fun h => h
  | succ n ih =>
    intro e c h
    unfold settle
    split
    · exact ih (spillOne_sb h)
    · split
      · exact ih ((meet_sb _ _).trans h)
      · exact h

theorem finish_sb {e : Engine} (h : e.sb = []) (n : CtxId) (g : HedgeId) (c : Ctx) (count : Nat) (u : Option IterUnit) :
    (finish e n g c count u).sb = [] := by
  have hs := settle_sb 5 (c := c.ehStep.busyFor count) h
  unfold finish
  dsimp only
  split
  · split
    · unfold Engine.setUnit
      split <;> exact hs
    · exact hs
  · exact hs

/-! ### Answers -/

/-- The state in which an answer has put its context and its engine into place, before what else it does. -/
structure Placed (s s1 : State) (x : Iss) (o : OpInfo) (d : Done) (stored : Nat → Prop) : Prop where
  view : s1.view x = viewOf d.eng d.ctx
  ctx : ∃ w, s1.ctxAt x = { (d.final o (s.ctxAt x)).ehStep.busyFor d.count with win := w }
  quiet : ∀ q f, Quiet s { s1 with errq := s.errq ++ q, free := f } x
  kept : ScratchKept s s1 x stored
  cells : ∀ k, ¬(viewOf d.eng d.ctx).ownsCell k → (s1.eng x.eng).cell k = d.eng.cell k
  drained : d.eng.sb = [] → (s1.eng x.eng).sb = []

/-- A queue of errors that is longer by other entries files as well. -/
theorem Quiet.refile {s t : State} {x : Iss} (h : Quiet s t x) (q : List ErrRec) (f : Nat) : Quiet s { t with errq := s.errq ++ q, free := f } x where
  device := by rw [h.device]
  filed := List.prefix_append _ _
  engines := h.engines
  contexts := h.contexts
  role := h.role
  regs := h.regs

/-- An answer without an iterative unit, or with one that is ready, puts its context into place and does `p` (05 R141). -/
theorem complete_final {s : State} {x : Iss} {o : OpInfo} {op : Nat} {d : Done} {p : State → State}
    (hu : ∀ u, d.unit = some u → s.unitReady x op u d.count = true) : s.complete x (s.ctxAt x) o op d p =
      p (s.setEng x.eng (finish (d.eng.capture (s.ctxAt x) ((s.ctxAt x).pc.toNat + o.len x.px)) x.ctx (s.slot (s.ctxAt x).slot).hedge
        (d.final o (s.ctxAt x)) d.count d.unit)) := by
  have hbusy : (s.eng x.eng).unitTaken d.unit x.ctx = false := by
    cases hd : d.unit with
    | none => rfl
    | some u =>
      have := hu u hd
      simp only [State.unitReady, Bool.and_eq_true, Bool.or_eq_true, beq_iff_eq] at this
      rcases this.1 with h | h <;> simp [Engine.unitTaken, h]
  have hov : (if d.unit = some .ucode then (s.clu (cluOf x.eng)).overrun op d.count else none) = none := by
    by_cases h : d.unit = some .ucode
    · have := hu _ h
      simp only [State.unitReady, Bool.and_eq_true, Bool.or_eq_true, bne_self_eq_false, Bool.false_eq_true, false_or,
        Option.isNone_iff_eq_none] at this
      obtain ⟨-, ⟨h1, -⟩, -⟩ := this
      rw [if_pos h, h1]
    · rw [if_neg h]
  unfold State.complete
  rw [hbusy, hov, if_neg Bool.false_ne_true]

section
variable {s : State} {x : Iss} {o : OpInfo} {op : Nat} {body : Env → Engine → Ctx → Except SFault Done} {d : Done} {stored : Nat → Prop}
  (hi : s.issues x o = true) (hb : body (s.env x o) (s.eng x.eng) (s.bodyCtx x o) = .ok d)
  (hu : ∀ u, d.unit = some u → s.unitReady x op u d.count = true) (hk : Keeps (s.eng x.eng) d.eng stored)
include hi hb hu hk

/-- An instruction that does `post` to the device once its context is in place (05 R141). -/
theorem issue_posts {post : State → State} (hpost : d.unit = some .ucode → ∀ t, (post t).clus = t.clus) :
    ∃ E q f, Placed s (s.setEng x.eng E) x o d stored ∧
      s.issue x o op body post = { post (s.setEng x.eng E) with errq := (post (s.setEng x.eng E)).errq ++ q, free := f } := by
  have hd : d.unit = some .ucode →
      (s.ctxAt x).readsUcode (s.clu (cluOf x.eng)) op d.count = false ∧ (s.clu (cluOf x.eng)).softUcode = [] := by
    intro h
    have := hu _ h
    simp only [State.unitReady, Bool.and_eq_true, Bool.or_eq_true, bne_self_eq_false, Bool.false_eq_true, false_or,
      Bool.not_eq_true', List.isEmpty_iff] at this
    obtain ⟨-, ⟨-, h1⟩, h2⟩ := this
    exact ⟨h1, h2⟩
  obtain ⟨hview, hquiet, hkept, hcells⟩ := issue_quiet (op := op) hi hb hu hk
  have hcomplete (p : State → State) := complete_final (s := s) (x := x) (o := o) (p := p) hu
  generalize hE : finish (d.eng.capture (s.ctxAt x) ((s.ctxAt x).pc.toNat + o.len x.px)) x.ctx (s.slot (s.ctxAt x).slot).hedge
        (d.final o (s.ctxAt x)) d.count d.unit = E at hcomplete
  have hone (p : State → State) (hp : d.unit = some .ucode → ∀ t, (p t).clus = t.clus) : ∃ q f, s.issue x o op body p =
      { p (s.setEng x.eng E) with errq := (p (s.setEng x.eng E)).errq ++ q, free := f } := by
    obtain ⟨ws, hs, hw⟩ := issue_ok (post := p) (op := op) hi hb fun h => (hd h).1
    obtain ⟨q, f, hq⟩ := scratchRecord_cases (p (s.setEng x.eng E)) s x.eng
    rw [hcomplete, hq, ucodeMet_none] at hs
    · exact ⟨q, f, hs⟩
    · by_cases h : d.unit = some .ucode
      · refine .inr ((congrArg (fun t => (tget Clu.reset t (cluOf x.eng).val).softUcode) (hp h (s.setEng x.eng E))).trans (hd h).2)
      · exact .inl (hw h)
  obtain ⟨q, f, hissue⟩ := hone post hpost
  obtain ⟨q', f', hid⟩ := hone id fun _ _ => rfl
  have heng : (s.setEng x.eng E).eng x.eng = E := State.setEng_eng_same _ _ _
  refine ⟨E, q, f, ?_, hissue⟩
  rw [hid] at hview hquiet hkept hcells
  refine ⟨hview, ?_, fun q f => hquiet.refile q f, hkept, hcells, fun h => ?_⟩
  · have hctx := (finish_cases (d.eng.capture (s.ctxAt x) ((s.ctxAt x).pc.toNat + o.len x.px)) x.ctx (s.slot (s.ctxAt x).slot).hedge
      (d.final o (s.ctxAt x)) d.count d.unit).1 x.ctx
    rw [hE, Engine.setCtx_ctx_same, settle_ctx] at hctx
    exact ⟨_, (congrArg (·.ctx x.ctx) heng).trans hctx⟩
  · rw [heng, ← hE]
    refine finish_sb ?_ _ _ _ _ _
    unfold Engine.capture
    split
    · split <;> exact h
    · exact h
end

/-! ### The queue of accesses that wait for a translation -/

theorem mem_of_tget_ne {α : Type} {d : α} {t : Tab α} {i : Nat} (h : tget d t i ≠ d) : (i, tget d t i) ∈ t := by
  induction t with
  | nil => exact absurd rfl h
  | cons kv t ih =>
    obtain ⟨k, v⟩ := kv
    simp only [tget] at h ⊢
    split
    · next hk => subst hk; exact List.mem_cons_self
    · next hk => rw [if_neg hk] at h; exact List.mem_cons_of_mem _ (ih h)

theorem queueWalks_frame (s : State) : s.queueWalks = { s with walkq := s.queueWalks.walkq } := rfl

/-- A context whose access waits for its translation stands in the queue (09 R293). -/
theorem queueWalks_mem {s : State} {e : EngId} {n : CtxId} (h : (((s.eng e).ctx n).walking).isSome = true) : (e, n) ∈ s.queueWalks.walkq := by
  have hctx : (n.val, (s.eng e).ctx n) ∈ (s.eng e).ctxs := mem_of_tget_ne (d := Ctx.reset) fun hr => by
    rw [show (s.eng e).ctx n = Ctx.reset from hr] at h
    exact absurd h (by decide)
  have heng : (e.val, s.eng e) ∈ s.engines := mem_of_tget_ne (d := Engine.reset) fun hr => by
    rw [show s.eng e = Engine.reset from hr] at hctx
    exact absurd hctx (by simp [Engine.reset])
  have hhere : (e, n) ∈ s.engines.flatMap fun kv => if q : kv.1 < 256 then
      kv.2.ctxs.filterMap fun cv => if r : cv.1 < 32 then (if cv.2.walking.isSome then some ((⟨kv.1, q⟩, ⟨cv.1, r⟩) : EngId × CtxId) else none) else none
    else [] := by
    refine List.mem_flatMap.2 ⟨_, heng, ?_⟩
    rw [dif_pos e.isLt]
    refine List.mem_filterMap.2 ⟨_, hctx, ?_⟩
    rw [dif_pos n.isLt, if_pos h]
  unfold State.queueWalks
  dsimp only
  rw [List.mem_append, List.mem_filter, List.mem_filter]
  by_cases hq : (e, n) ∈ s.walkq
  · exact .inl ⟨hq, List.contains_iff_mem.2 hhere⟩
  · exact .inr ⟨hhere, by simpa using hq⟩

/-! ### Requests -/

/-- The view of a body's context after its operands are popped (05 R142). -/
theorem viewOf_pop {s : State} {x : Iss} {o : OpInfo} (hi : s.issues x o = true) :
    viewOf (s.eng x.eng) ((s.bodyCtx x o).popPush o.pops []) = s.moved x o ((s.view x).stack.drop o.pops) := by
  obtain ⟨hp, hlt⟩ := issues_depth hi
  have h := stackOf_popPush (s.eng x.eng) (s.bodyCtx x o) o.pops [] hp (by
    show (s.ctxAt x).depth.toNat - o.pops + 0 < 2 ^ 15
    omega)
  simp only [viewOf, h]
  rfl

/-- An instruction that does `post` to the device answers the state that `post` makes of the one its context is placed in. -/
theorem answer_placed {i : Instr} {s : State} {x : Iss} {o : OpInfo} {op : Nat} {body : Env → Engine → Ctx → Except SFault Done} {d : Done}
    {stored : Nat → Prop} {post : State → State} (hex : exec i s = .next (s.issue x o op body post)) (hi : s.issues x o = true)
    (hb : body (s.env x o) (s.eng x.eng) (s.bodyCtx x o) = .ok d) (hu : ∀ u, d.unit = some u → s.unitReady x op u d.count = true)
    (hk : Keeps (s.eng x.eng) d.eng stored) (hpost : d.unit = some .ucode → ∀ t, (post t).clus = t.clus) :
    ∃ E l f, exec i s = .next { post (s.setEng x.eng E) with errq := (post (s.setEng x.eng E)).errq ++ l, free := f } ∧
      Placed s (s.setEng x.eng E) x o d stored := by
  obtain ⟨E, l, f, hplaced, ht⟩ := issue_posts hi hb hu hk hpost
  exact ⟨E, l, f, by rw [hex, ht], hplaced⟩

section
variable {i : Instr} {s : State} {x : Iss} {o : OpInfo} {op : Nat} {body : Env → Engine → Ctx → Except SFault Done} {n : Nat}
  {unit : Option IterUnit} {g : Engine} {why : BitVec 4} {q : Req} {st : Stage} {r : List Cell}

/-- An instruction that takes its operands and places a request leaves its context waiting for it (03 R74, 05 R168). -/
theorem request_placed {post : State → State} (hex : exec i s = .next (s.issue x o op body post)) (hi : s.issues x o = true)
    (hb : body (s.env x o) (s.eng x.eng) (s.bodyCtx x o) =
      .ok { count := n, unit := unit, eng := g, ctx := ((s.bodyCtx x o).popPush o.pops []).request why q st })
    (hu : ∀ u, unit = some u → s.unitReady x op u n = true) (hk : Keeps (s.eng x.eng) g fun _ => False)
    (hpost : unit = some .ucode → ∀ t, (post t).clus = t.clus) (hr : (s.view x).stack.drop o.pops = r) :
    ∃ E l f, exec i s = .next { post (s.setEng x.eng E) with errq := (post (s.setEng x.eng E)).errq ++ l, free := f } ∧
      (s.setEng x.eng E).view x = { s.moved x o r with wait := some ⟨why, q, st, none⟩ } ∧
      (Quiet s { s.setEng x.eng E with errq := s.errq ++ l, free := f } x ∧ ScratchKept s (s.setEng x.eng E) x fun _ => False) ∧
      (g.sb = [] → E.sb = []) := by
  subst hr
  obtain ⟨E, l, f, ht, hplaced⟩ := answer_placed hex hi hb hu hk hpost
  refine ⟨E, l, f, ht, ?_, ⟨hplaced.quiet l f, hplaced.kept⟩, fun h => ?_⟩
  · rw [hplaced.view, ← viewOf_pop hi, viewOf_congr fun k => hk.cell not_false]
    rfl
  · rw [← State.setEng_eng_same s x.eng E]
    exact hplaced.drained h

/-- The state that a context's request is placed in lists it as one that walks (09 R293). -/
theorem walking_of_wait {s : State} {x : Iss} {va : Nat} (h : (s.view x).wait = some ⟨why, q, .translate va, none⟩) :
    (((s.eng x.eng).ctx x.ctx).walking).isSome = true := by
  have hw : ((s.eng x.eng).ctx x.ctx).wait = some ⟨why, q, .translate va, none⟩ := h
  unfold Ctx.walking Ctx.request?
  rw [hw]
  rfl

/-- An instruction that takes its operands and requests a translation waits in the queue (05 R168, 09 R293). -/
theorem asks_of_body {va : Nat} (hex : exec i s = .next (s.issue x o 0 body State.queueWalks)) (hi : s.issues x o = true)
    (hb : body (s.env x o) (s.eng x.eng) (s.bodyCtx x o) =
      .ok { count := n, eng := s.eng x.eng, ctx := ((s.bodyCtx x o).popPush o.pops []).request why q (.translate va) })
    (hr : (s.view x).stack.drop o.pops = r) :
    Asks i s x { s.moved x o r with wait := some ⟨why, q, .translate va, none⟩ } := by
  obtain ⟨E, l, f, ht, hview, ⟨hquiet, hkept⟩, -⟩ := request_placed hex hi hb (fun _ h => nomatch h) (Keeps.refl _) (fun h => nomatch h) hr
  exact ⟨_, ht, ⟨hview, hquiet, hkept⟩, queueWalks_mem (s := s.setEng x.eng E) (walking_of_wait (congrArg View.wait hview))⟩
end

theorem noSavedWait_ok {c : Ctx} (h : c.savedWait = none) : noSavedWait c = .ok () := by rw [noSavedWait, h]; rfl

theorem coverCheck_ok {v : Env} {e : Engine} {a : Int} {len n : Nat} (h0 : 0 ≤ a) (h1 : a + coverLen len ≤ 2 ^ 18) (h2 : a % 16 = 0)
    (ho : e.open? v.pl a.toNat (coverLen len) = true) : coverCheck v e a len n = .ok () := by
  have hin : (decide (0 ≤ a) && decide (a + coverLen len - 1 ≤ 0x3FFFF)) = true := by
    rw [Bool.and_eq_true, decide_eq_true_iff, decide_eq_true_iff]
    omega
  have hal : (a % 16 == 0) = true := beq_iff_eq.2 h2
  rw [coverCheck, hin, ensure_true, ok_bind, hal, ensure_true, ok_bind, ho, ensure_true]

section
variable {s : State} {x : Iss} {r : List Cell} {ref : Cell} (hsw : (s.ctxAt x).savedWait = none) (hty : ref.ty = tyREF)
  (hw : ref.wellFormed = true) (hp : ref.p = false) (hok : refOk ref = true)
include hsw hty hw hp hok

theorem rld_asks {a : Cell} (hi : s.issues x { key := true, delayBad := true, pops := 2, pushes := 1, reads := 2 } = true)
    (hs : (s.view x).stack = a :: ref :: r) (hat : a.ty = tyINT) (has : a.sub = 0) (hap : a.p = false) (hlen : refLen ref ≤ 4096)
    (h0 : 0 ≤ a.int) (h1 : a.int + coverLen (refLen ref) ≤ 2 ^ 18) (h2 : a.int % 16 = 0)
    (ho : (s.eng x.eng).open? (s.view x).pl.toNat a.int.toNat (coverLen (refLen ref)) = true) :
    Asks (.rld x) s x { s.moved x { key := true, delayBad := true, pops := 2, pushes := 1, reads := 2 } r with
      wait := some ⟨1, .rld ref ((pxKey x.px).getD (s.view x).key) a.int.toNat (s.view x).pl, .translate (refAddr ref), none⟩ } := by
  have hsw' : noSavedWait (s.bodyCtx x { key := true, delayBad := true, pops := 2, pushes := 1, reads := 2 }) = .ok () := noSavedWait_ok hsw
  have ha0 : stackTop (s.eng x.eng) (s.bodyCtx x { key := true, delayBad := true, pops := 2, pushes := 1, reads := 2 }) 0 = a :=
    bodyCtx_stackTop hs (by simp)
  have hr1 : stackTop (s.eng x.eng) (s.bodyCtx x { key := true, delayBad := true, pops := 2, pushes := 1, reads := 2 }) 1 = ref :=
    bodyCtx_stackTop hs (by simp)
  have htags : ∀ nochk, tagCheck nochk [(0, a, a.isInt), (1, ref, ref.isRef)] = .ok () := fun nochk =>
    tagCheck_ok _ _ (by simp [wellFormed_int hat has, hw, Cell.isInt, hat, Cell.isRef, hty])
  have hlen' : (refOk ref && decide (refLen ref ≤ 4096)) = true := by rw [hok, decide_eq_true hlen]; rfl
  have hcover := coverCheck_ok (v := s.env x { key := true, delayBad := true, pops := 2, pushes := 1, reads := 2 }) (n := 0) h0 h1 h2 ho
  refine asks_of_body (n := 5) rfl hi ?_ (by rw [hs]; rfl)
  simp only [hsw', ha0, hr1, htags, hap, hp, hlen', Bool.not_false, ensure_true, ok_bind, hcover]
  rfl

theorem rlock_asks {imm : Byte} (hs : (s.view x).stack = ref :: r) (himm : imm.toNat < 2) (hex : imm = 1 → ref.sub = 1)
    (hi : s.issues x { imm := 1, key := true, delayBad := true, pops := 1, pushes := 1, reads := 1 } = true) :
    Asks (.rlock x imm) s x { s.moved x { imm := 1, key := true, delayBad := true, pops := 1, pushes := 1, reads := 1 } r with
      wait := some ⟨1, .rlock ref ((pxKey x.px).getD (s.view x).key) (imm == 1), .translate (refAddr ref), none⟩ } := by
  have hsw' : noSavedWait (s.bodyCtx x { imm := 1, key := true, delayBad := true, pops := 1, pushes := 1, reads := 1 }) = .ok () :=
    noSavedWait_ok hsw
  have hr0 : stackTop (s.eng x.eng) (s.bodyCtx x { imm := 1, key := true, delayBad := true, pops := 1, pushes := 1, reads := 1 }) 0 = ref :=
    bodyCtx_stackTop hs (by simp)
  have hbit : bit imm 0 = (imm == 1) := by
    rcases (by omega : imm.toNat = 0 ∨ imm.toNat = 1) with h | h
    · obtain rfl : imm = 0 := BitVec.eq_of_toNat_eq h
      rfl
    · obtain rfl : imm = 1 := BitVec.eq_of_toNat_eq h
      rfl
  have hres : bits imm 7 1 = 0 := by simp only [bits]; omega
  have hacc : (decide (ref.ty = tyREF) && (!(imm == 1) || decide (ref.sub = 1))) = true := by
    rw [decide_eq_true hty]
    by_cases h : imm = 1
    · rw [decide_eq_true (hex h), Bool.or_true]
      rfl
    · rw [beq_eq_false_iff_ne.2 h]
      rfl
  have hexec : exec (.rlock x imm) s = .next (s.issue x { ({ imm := 1, key := true, delayBad := true, pops := 1, pushes := 1, reads := 1 } : OpInfo) with
      badField := if bits imm 7 1 ≠ 0 then some 0 else none } 0 _ State.queueWalks) := rfl
  rw [if_neg (not_not.2 hres)] at hexec
  refine asks_of_body (n := 3) hexec hi ?_ (by rw [hs]; rfl)
  simp only [hsw', hr0, hbit, tagCheck_one hw hacc, hp, hok, Bool.not_false, ensure_true, ok_bind]
  rfl

theorem rpref_asks (hs : (s.view x).stack = ref :: r) (hi : s.issues x { key := true, delayBad := true, pops := 1, reads := 1 } = true) :
    Asks (.rpref x) s x { s.moved x { key := true, delayBad := true, pops := 1, reads := 1 } r with
      wait := some ⟨2, .rpref ref ((pxKey x.px).getD (s.view x).key), .translate (refAddr ref), none⟩ } := by
  have hsw' : noSavedWait (s.bodyCtx x { key := true, delayBad := true, pops := 1, reads := 1 }) = .ok () := noSavedWait_ok hsw
  have hr0 : stackTop (s.eng x.eng) (s.bodyCtx x { key := true, delayBad := true, pops := 1, reads := 1 }) 0 = ref :=
    bodyCtx_stackTop hs (by simp)
  have hacc : ref.isRef = true := decide_eq_true hty
  refine asks_of_body (n := 2) rfl hi ?_ (by rw [hs]; rfl)
  simp only [hsw', hr0, tagCheck_one hw hacc, hp, hok, Bool.not_false, ensure_true, ok_bind]
  rfl
end

/-- WAITEV hands its wait to the event unit (05 R177). -/
theorem waitev_answers {s : State} {x : Iss} {ep q tm : Cell} {r : List Cell} (hsw : (s.ctxAt x).savedWait = none)
    (hi : s.issues x { delayBad := true, pops := 3, pushes := 1, reads := 3 } = true) (hs : (s.view x).stack = tm :: q :: ep :: r)
    (hep : ep.ty = tyINT) (heps : ep.sub = 0) (hq : q.ty = tySEQ ∧ q.sub = 2 ∨ q.ty = tyINT ∧ q.sub = 0)
    (htm : tm.ty = tyTIME ∧ tm.sub = 1 ∧ tm.lo.toNat ≤ 10000000000 ∨ tm.ty = tyNIL ∧ tm.sub = 0) :
    Answers (.waitev x) s fun t =>
      t.view x = { s.moved x { delayBad := true, pops := 3, pushes := 1, reads := 3 } r with
        wait := some ⟨5, .waitev ep.lo (q.pay.extractLsb' 0 32) (if tm.ty = tyNIL then none else some tm.lo.toNat), .sent, none⟩ } ∧
      t.evMsgs = s.evMsgs ++ [(cluOf x.eng, (s.view x).slot, .wait)] ∧ Quiet s { t with evMsgs := s.evMsgs } x := by
  let o : OpInfo := { delayBad := true, pops := 3, pushes := 1, reads := 3 }
  have hsw' : noSavedWait (s.bodyCtx x o) = .ok () := noSavedWait_ok hsw
  have h0 : stackTop (s.eng x.eng) (s.bodyCtx x o) 0 = tm := bodyCtx_stackTop hs (by simp)
  have h1 : stackTop (s.eng x.eng) (s.bodyCtx x o) 1 = q := bodyCtx_stackTop hs (by simp)
  have h2 : stackTop (s.eng x.eng) (s.bodyCtx x o) 2 = ep := bodyCtx_stackTop hs (by simp)
  have hqok : ((decide (q.ty = tySEQ) && decide (q.sub = 2)) || q.isInt) = true ∧ q.wellFormed = true := by
    rcases hq with ⟨ht, hs⟩ | ⟨ht, hs⟩
    · exact ⟨by rw [decide_eq_true ht, decide_eq_true hs]; rfl, by simp only [Cell.wellFormed, ht, hs]; decide⟩
    · exact ⟨by rw [show q.isInt = true from decide_eq_true ht, Bool.or_true], wellFormed_int ht hs⟩
  have htmok : ((decide (tm.ty = tyTIME) && decide (tm.sub = 1)) || decide (tm.ty = tyNIL)) = true ∧ tm.wellFormed = true ∧
      (decide (tm.ty = tyNIL) || decide (tm.lo.toNat ≤ 10000000000)) = true := by
    rcases htm with ⟨ht, hs, hlo⟩ | ⟨ht, hs⟩
    · exact ⟨by rw [decide_eq_true ht, decide_eq_true hs]; rfl, by simp only [Cell.wellFormed, ht, hs]; decide,
        by rw [decide_eq_true hlo, Bool.or_true]⟩
    · exact ⟨by rw [decide_eq_true ht, Bool.or_true], by simp only [Cell.wellFormed, ht, hs]; decide, by rw [decide_eq_true ht]; rfl⟩
  obtain ⟨hqacc, hqw⟩ := hqok
  obtain ⟨htacc, htw, hlim⟩ := htmok
  have htags : ∀ nochk, tagCheck nochk [(0, tm, (decide (tm.ty = tyTIME) && decide (tm.sub = 1)) || decide (tm.ty = tyNIL)),
      (1, q, (decide (q.ty = tySEQ) && decide (q.sub = 2)) || q.isInt), (2, ep, ep.isInt)] = .ok () := fun nochk =>
    tagCheck_ok _ _ (by
      intro p hp
      simp only [List.mem_cons, List.not_mem_nil, or_false] at hp
      rcases hp with rfl | rfl | rfl
      · exact ⟨htw, htacc⟩
      · exact ⟨hqw, hqacc⟩
      · exact ⟨wellFormed_int hep heps, decide_eq_true hep⟩)
  obtain ⟨E, l, f, ht, hview, ⟨hquiet, -⟩, -⟩ := request_placed (i := .waitev x) (o := o) (n := 2) (unit := none) (g := s.eng x.eng) (why := 5)
    (q := .waitev ep.lo (q.pay.extractLsb' 0 32) (if tm.ty = tyNIL then none else some tm.lo.toNat)) (st := .sent) rfl hi
    (by simp only [hsw', h0, h1, h2, htags, hlim, ensure_true, ok_bind]; rfl) (fun _ h => nomatch h) (Keeps.refl _) (fun h => nomatch h)
    (congrArg (List.drop 3) hs)
  exact ⟨_, ht, hview, rfl, hquiet⟩

/-- COMMIT hands its index over and seals the slot (05 R173). -/
theorem commit_answers {s : State} {x : Iss} {a b c : Cell} {r : List Cell} (hint : ∀ i ∈ [a, b, c], i.ty = tyINT ∧ i.sub = 0)
    (hbp : b.p = false) (hi : s.issues x { delayBad := true, pops := 3, reads := 3 } = true) (hap : a.p = false)
    (hsw : (s.ctxAt x).savedWait = none) (hs : (s.view x).stack = a :: b :: c :: r) (hu : s.unitReady x 0xA4 .ucode 5 = true)
    (hle : b.int ≤ a.int) (hb32 : b.int % 32 = 0) (ha32 : a.int % 32 = 0) (hlen : a.int - b.int ≤ 2048)
    (hin : b.int < a.int → 0 ≤ b.int ∧ a.int ≤ 2 ^ 18 ∧ (s.eng x.eng).general? b.int.toNat (a.int - b.int).toNat = true) :
    Answers (.commit x) s fun t =>
      t.view x = { s.moved x { delayBad := true, pops := 3, reads := 3 } r with
        wait := some ⟨4, .commit c.lo b.int.toNat a.int.toNat, .sent, none⟩ } ∧
      (t.eng x.eng).sb = [] ∧ (t.slot (s.view x).slot).state = .sealing ∧ (t.slot (s.view x).slot).cluster = cluOf x.eng ∧
      (∀ m, m ≠ (s.view x).slot → t.slot m = s.slot m) ∧
      (∀ k, ¬(t.view x).ownsCell k → (t.eng x.eng).cell k = (s.eng x.eng).cell k) ∧ Quiet s { t with slots := s.slots } x := by
  let o : OpInfo := { delayBad := true, pops := 3, reads := 3 }
  have hsw' : noSavedWait (s.bodyCtx x o) = .ok () := noSavedWait_ok hsw
  have h0 : stackTop (s.eng x.eng) (s.bodyCtx x o) 0 = a := bodyCtx_stackTop hs (by simp)
  have h1 : stackTop (s.eng x.eng) (s.bodyCtx x o) 1 = b := bodyCtx_stackTop hs (by simp)
  have h2 : stackTop (s.eng x.eng) (s.bodyCtx x o) 2 = c := bodyCtx_stackTop hs (by simp)
  have htags : ∀ nochk, tagCheck nochk [(0, a, a.isInt), (1, b, b.isInt), (2, c, c.isInt)] = .ok () := fun nochk =>
    tagCheck_ok _ _ (by
      intro p hp
      simp only [List.mem_cons, List.not_mem_nil, or_false] at hp
      rcases hp with rfl | rfl | rfl
      · obtain ⟨ht, hz⟩ := hint a (by simp); exact ⟨wellFormed_int ht hz, decide_eq_true ht⟩
      · obtain ⟨ht, hz⟩ := hint b (by simp); exact ⟨wellFormed_int ht hz, decide_eq_true ht⟩
      · obtain ⟨ht, hz⟩ := hint c (by simp); exact ⟨wellFormed_int ht hz, decide_eq_true ht⟩)
  have hshape : (decide (b.int ≤ a.int) && b.int % 32 == 0 && a.int % 32 == 0 && decide ((a.int - b.int) / 32 ≤ 64)) = true := by
    rw [decide_eq_true hle, beq_iff_eq.2 hb32, beq_iff_eq.2 ha32, decide_eq_true (by omega)]
    rfl
  have hrange : b.int < a.int → (decide (0 ≤ b.int) && decide (b.int ≤ 0x3FFFF)) = true ∧
      (decide (0 ≤ a.int - 1) && decide (a.int - 1 ≤ 0x3FFFF)) = true ∧
      (s.eng x.eng).general? b.int.toNat (a.int - b.int).toNat = true := by
    intro hlt
    obtain ⟨hb0, ha18, hg⟩ := hin hlt
    exact ⟨by rw [decide_eq_true hb0, decide_eq_true (by omega)]; rfl, by rw [decide_eq_true (by omega), decide_eq_true (by omega)]; rfl, hg⟩
  obtain ⟨E, l, f, ht, hview, ⟨hquiet, hkept⟩, hsb⟩ := request_placed (i := .commit x) (o := o) (n := 5) (unit := some .ucode) (g := (s.eng x.eng).drain)
    (why := 4) (q := .commit c.lo b.int.toNat a.int.toNat) (st := .sent) rfl hi
    (by
      simp only [hsw', h0, h1, h2, htags, hap, hbp, hshape, Bool.not_false, ensure_true, ok_bind]
      by_cases hlt : b.int < a.int
      · obtain ⟨hr1, hr2, hr3⟩ := hrange hlt
        simp only [hlt, if_true, hr1, hr2, hr3, ensure_true, ok_bind]
        rfl
      · simp only [hlt, if_false]
        rfl) (unitReady_of_some hu) (drain_keeps _ _ rfl) (fun _ _ => rfl) (congrArg (List.drop 3) hs)
  have hE : (s.setEng x.eng E).eng x.eng = E := State.setEng_eng_same _ _ _
  let sealed : Slot := { s.slot (s.view x).slot with state := .sealing, cluster := cluOf x.eng }
  have hsame : ((s.setEng x.eng E).setSlot (s.view x).slot sealed).slot (s.view x).slot = sealed := State.setSlot_slot_same _ _ _
  refine ⟨_, ht, hview, ?_, ?_, ?_, fun m hm => ?_, fun k hk => ?_, hquiet⟩
  · exact (congrArg Engine.sb hE).trans (hsb rfl)
  · exact congrArg Slot.state hsame
  · exact congrArg Slot.cluster hsame
  · exact State.setSlot_slot_ne (s.setEng x.eng E) (s.view x).slot sealed m hm
  · exact hkept k hk not_false

/-- The end of a transaction touches its own slot alone, and neither HBM nor the directory (10 R331). -/
theorem endTxn_slot_ne (s : State) {n m : SlotId} (st : Byte) (w : Word64) (hm : m ≠ n) : (s.endTxn n st w).slot m = s.slot m := by
  unfold State.endTxn
  dsimp only
  split
  · exact State.setSlot_slot_ne _ _ _ _ hm
  · rfl

theorem endTxn_hbm_dir (s : State) (n : SlotId) (st : Byte) (w : Word64) :
    (s.endTxn n st w).hbm = s.hbm ∧ (s.endTxn n st w).dir = s.dir := by
  unfold State.endTxn
  dsimp only
  split <;> exact ⟨rfl, rfl⟩

/-- ABORT ends the transaction ABORTED with its word (05 R174). -/
theorem abort_answers {s : State} {x : Iss} {a : Cell} {r : List Cell} (hat : a.ty = tyINT) (has : a.sub = 0)
    (hi : s.issues x { delayBad := true, pops := 1, reads := 1 } = true) (hs : (s.view x).stack = a :: r)
    (he : (s.slot (s.view x).slot).endable = true) (hw : (s.slot (s.view x).slot).wound = false) (hf : (s.slot (s.view x).slot).fate = none) :
    Answers (.abort x) s fun t =>
      t.view x = s.moved x { delayBad := true, pops := 1, reads := 1 } r ∧ (t.ctxAt x).ending = true ∧
      (t.slot (s.view x).slot).state = .ending ∧ (t.slot (s.view x).slot).status = 0x01 ∧ (t.slot (s.view x).slot).xword = a.lo ∧
      (t.slot (s.view x).slot).releasing = true ∧ (t.slot (s.view x).slot).deltas = [] ∧
      (∀ m, m ≠ (s.view x).slot → t.slot m = s.slot m) ∧ t.hbm = s.hbm ∧ t.dir = s.dir := by
  let o : OpInfo := { delayBad := true, pops := 1, reads := 1 }
  have h0 : stackTop (s.eng x.eng) (s.bodyCtx x o) 0 = a := bodyCtx_stackTop hs (by simp)
  have h0' : stackTop (s.eng x.eng) ((s.eng x.eng).ctx x.ctx) 0 = a := h0
  obtain ⟨E, l, f, ht, hplaced⟩ := answer_placed (i := .abort x) (o := o) (stored := fun _ => False)
    (d := { count := 2, eng := s.eng x.eng, ctx := { ((s.bodyCtx x o).popPush 1 []) with ending := true, savedWait := none } })
    rfl hi (by simp only [h0, tagCheck_one (wellFormed_int hat has) (show a.isInt = true from decide_eq_true hat), ok_bind]; rfl)
    (fun _ h => nomatch h) (Keeps.refl _) (fun h => nomatch h)
  let word := (stackTop (s.eng x.eng) ((s.eng x.eng).ctx x.ctx) 0).lo
  have hword : word = a.lo := congrArg Cell.lo h0'
  have hslot : ((s.setEng x.eng E).endTxn (s.view x).slot 0x01 word).slot (s.view x).slot = (s.slot (s.view x).slot).ended 0x01 word :=
    endTxn_slot _ he
  have hfate : (s.slot (s.view x).slot).fateOf 0x01 = 0x01 := Slot.fateOf_of_fate hw (.inl hf)
  have heng : ((s.setEng x.eng E).endTxn (s.view x).slot 0x01 word).eng x.eng = (s.setEng x.eng E).eng x.eng := endTxn_eng _ _ _ _ _
  have hother : ∀ m, m ≠ (s.view x).slot → ((s.setEng x.eng E).endTxn (s.view x).slot 0x01 word).slot m = s.slot m :=
    fun m hm => endTxn_slot_ne _ _ _ hm
  obtain ⟨hhbm, hdir⟩ := endTxn_hbm_dir (s.setEng x.eng E) (s.view x).slot 0x01 word
  refine ⟨_, ht, ?_, ?_, ?_, ?_, ?_, ?_, ?_, hother, hhbm, hdir⟩
  · refine (congrArg (fun e : Engine => viewOf e (e.ctx x.ctx)) heng).trans (hplaced.view.trans ?_)
    exact (viewOf_pop hi).trans (congrArg (s.moved x o) (congrArg (List.drop 1) hs))
  · obtain ⟨w, hctx⟩ := hplaced.ctx
    refine (congrArg (fun e : Engine => (e.ctx x.ctx).ending) heng).trans ((congrArg Ctx.ending hctx).trans ?_)
    unfold Ctx.ehStep
    split <;> rfl
  · exact (congrArg Slot.state hslot).trans (Slot.ended_state hw)
  · exact (congrArg Slot.status hslot).trans hfate
  · refine (congrArg Slot.xword hslot).trans ?_
    rw [hword]
    exact if_pos hfate
  · exact congrArg Slot.releasing hslot
  · exact congrArg Slot.deltas hslot

/-- STAGE queues at the engine's channel of the cluster mover (05 R175). -/
theorem stage_answers {s : State} {x : Iss} {a b ref : Cell} {r : List Cell} (hat : a.ty = tyINT) (has : a.sub = 0) (hbt : b.ty = tyINT)
    (hbs : b.sub = 0) (hbp : b.p = false) (hi : s.issues x { key := true, delayBad := true, pops := 3, pushes := 1, reads := 3 } = true)
    (hsw : (s.ctxAt x).savedWait = none) (hty : ref.ty = tyREF) (hw : ref.wellFormed = true) (hok : refOk ref = true)
    (hs : (s.view x).stack = a :: b :: ref :: r) (hdir : a.int = 0 ∨ a.int = 1 ∧ (s.view x).pl = 0) (h0 : 0 ≤ b.int)
    (h1 : b.int + coverLen (refLen ref) ≤ 2 ^ 18) (h2 : b.int % 16 = 0)
    (ho : (s.eng x.eng).open? (s.view x).pl.toNat b.int.toNat (coverLen (refLen ref)) = true) :
    Answers (.stage x) s fun t =>
      t.view x = { s.moved x { key := true, delayBad := true, pops := 3, pushes := 1, reads := 3 } r with
        wait := some ⟨6, .stage ref ((pxKey x.px).getD (s.view x).key) b.int.toNat (a.int == 1) (s.view x).pl, .translate (refAddr ref), none⟩ } ∧
      (t.eng x.eng).sb = [] ∧
      (t.chan (stageMover x.eng) (stageChan x.eng)).stages =
        (s.chan (stageMover x.eng) (stageChan x.eng)).stages.filter (fun m => m != x.ctx) ++ [x.ctx] ∧
      (x.eng, x.ctx) ∈ t.walkq ∧ Quiet s { t with movers := s.movers, walkq := s.walkq } x := by
  let o : OpInfo := { key := true, delayBad := true, pops := 3, pushes := 1, reads := 3 }
  have hsw' : noSavedWait (s.bodyCtx x o) = .ok () := noSavedWait_ok hsw
  have ha0 : stackTop (s.eng x.eng) (s.bodyCtx x o) 0 = a := bodyCtx_stackTop hs (by simp)
  have hb1 : stackTop (s.eng x.eng) (s.bodyCtx x o) 1 = b := bodyCtx_stackTop hs (by simp)
  have hr2 : stackTop (s.eng x.eng) (s.bodyCtx x o) 2 = ref := bodyCtx_stackTop hs (by simp)
  have htags : ∀ nochk, tagCheck nochk [(0, a, a.isInt), (1, b, b.isInt), (2, ref, ref.isRef)] = .ok () := fun nochk =>
    tagCheck_ok _ _ (by
      intro p hp
      simp only [List.mem_cons, List.not_mem_nil, or_false] at hp
      rcases hp with rfl | rfl | rfl
      · exact ⟨wellFormed_int hat has, decide_eq_true hat⟩
      · exact ⟨wellFormed_int hbt hbs, decide_eq_true hbt⟩
      · exact ⟨hw, decide_eq_true hty⟩)
  have hone : (a.int == 0 || a.int == 1) = true := by
    rcases hdir with h | ⟨h, -⟩ <;> rw [h] <;> rfl
  have hpriv : (!(a.int == 1 && (s.env x o).pl != 0)) = true := by
    rcases hdir with h | ⟨-, h⟩
    · rw [h]; rfl
    · rw [State.env_pl, h, show ((0 : BitVec 2).toNat != 0) = false from rfl, Bool.and_false]
      rfl
  have hcover := coverCheck_ok (v := s.env x o) (n := 1) h0 h1 h2 ho
  obtain ⟨E, l, f, ht, hview, ⟨hquiet, -⟩, hsb⟩ := request_placed (i := .stage x) (o := o) (n := 4) (unit := none) (g := (s.eng x.eng).drain)
    (why := 6) (q := .stage ref ((pxKey x.px).getD (s.view x).key) b.int.toNat (a.int == 1) (s.view x).pl) (st := .translate (refAddr ref))
    rfl hi (by
      simp only [hsw', ha0, hb1, hr2, htags, hbp, hok, hone, hpriv, hcover, Bool.not_false, ensure_true, ok_bind]
      rfl) (fun _ h => nomatch h) (drain_keeps _ _ rfl) (fun h => nomatch h) (congrArg (List.drop 3) hs)
  have hE : (s.setEng x.eng E).eng x.eng = E := State.setEng_eng_same _ _ _
  refine ⟨_, ht, hview, (congrArg Engine.sb hE).trans (hsb rfl), ?_,
    queueWalks_mem (s := s.setEng x.eng E) (walking_of_wait (congrArg View.wait hview)), hquiet⟩
  exact congrArg Chan.stages (State.setChan_chan_same (s.setEng x.eng E).queueWalks (stageMover x.eng) (stageChan x.eng) _)

/-- Settles O11: each record instruction places its request, and COMMIT, ABORT and STAGE act on their slot and their channel. -/
theorem recordInstructionsPlaceAndEnd : Obligations.RecordInstructionsPlaceAndEnd := by
  unfold Obligations.RecordInstructionsPlaceAndEnd
  refine ⟨fun s x r ref hsw => ⟨?_, ?_, ?_⟩, ?_⟩
  · intro a hty hw hp hok o hi hs hat has hap hlen h0 h1 h2 ho
    exact rld_asks hsw hty hw hp hok hi hs hat has hap hlen h0 h1 h2 ho
  · intro hty hw hp hok hs
    exact ⟨fun imm himm hex hi => rlock_asks hsw hty hw hp hok hs himm hex hi, fun hi => rpref_asks hsw hty hw hp hok hs hi⟩
  · intro ep q tm o hi hs hep heps hq htm
    exact waitev_answers hsw hi hs hep heps hq htm
  · intro s x a b c r n hint hbp
    obtain ⟨hat, has⟩ := hint a (by simp)
    obtain ⟨hbt, hbs⟩ := hint b (by simp)
    refine ⟨?_, fun hi hs he hw hf => abort_answers hat has hi hs he hw hf, ?_⟩
    · intro o hi hap hsw hs hu hle hb32 ha32 hlen hin
      exact commit_answers hint hbp hi hap hsw hs hu hle hb32 ha32 hlen hin
    · intro o hi hsw ref hty hw hok hs hdir h0 h1 h2 ho
      exact stage_answers hat has hbt hbs hbp hi hsw hty hw hok hs hdir h0 h1 h2 ho

end Sys2Proof.Machine
end

section
/-! What the posting of a completion leaves (13 R407 to R409): its effects on the ring, the family's table and the slot. -/
namespace Sys2Proof.Machine

/-- What a change of tables or a slot's return to IDLE keeps of each hedge. -/
structure SameHedges (s t : State) : Prop where
  out : t.out = s.out
  gcs : ∀ h, (t.hedge h).gcsPosted = (s.hedge h).gcsPosted
  progs : ∀ h, (t.hedge h).progs = (s.hedge h).progs
  awaited : ∀ h, (t.hedge h).awaited = (s.hedge h).awaited

theorem State.modHedge_hedge (s : State) (h i : HedgeId) (m : Hedge → Hedge) :
    (s.modHedge h m).hedge i = if i = h then m (s.hedge h) else s.hedge i := by
  by_cases hi : i = h
  · rw [if_pos hi, hi]; exact State.setHedge_hedge_same _ _ _
  · rw [if_neg hi]; exact State.setHedge_hedge_ne _ _ _ _ hi

/-- A change of a hedge's entry that keeps three of its fields. -/
theorem SameHedges.modHedge (s : State) (h : HedgeId) {m : Hedge → Hedge} (hg : (m (s.hedge h)).gcsPosted = (s.hedge h).gcsPosted)
    (hp : (m (s.hedge h)).progs = (s.hedge h).progs) (ha : (m (s.hedge h)).awaited = (s.hedge h).awaited) :
    SameHedges s (s.modHedge h m) where
  out := rfl
  gcs i := by
    rw [State.modHedge_hedge]
    split
    next hi => rw [hg, hi]
    next => rfl
  progs i := by
    rw [State.modHedge_hedge]
    split
    next hi => rw [hp, hi]
    next => rfl
  awaited i := by
    rw [State.modHedge_hedge]
    split
    next hi => rw [ha, hi]
    next => rfl

theorem drained_rest (s : State) (f : FnId) : ∃ q, s.drained f = { s with fns := q } := by
  unfold State.drained
  dsimp only
  split
  all_goals split
  all_goals exact ⟨_, rfl⟩

/-- A slot that returns to IDLE, before its function is found drained. -/
def State.slotCleared (s : State) (n : SlotId) : State :=
  ({ s with refused := s.refused.filter fun m => msgSlot m.kind != n }.modHedge (s.slot n).hedge fun g =>
    { g.stir with pruned := g.pruned.filter fun m => m != n }).setSlot n Slot.reset

theorem idleSlot_rest (s : State) (n : SlotId) : ∃ q, s.idleSlot n = { s.slotCleared n with fns := q } := by
  unfold State.idleSlot
  dsimp only
  split
  next f _ => exact drained_rest (s.slotCleared n) f
  next => exact ⟨_, rfl⟩

theorem slotCleared_sameHedges (s : State) (n : SlotId) : SameHedges s (s.slotCleared n) :=
  have base := SameHedges.modHedge { s with refused := s.refused.filter fun m => msgSlot m.kind != n } (s.slot n).hedge
    (m := fun g => { g.stir with pruned := g.pruned.filter fun m => m != n }) rfl rfl rfl
  ⟨base.out, base.gcs, base.progs, base.awaited⟩

theorem idleSlot_sameHedges (s : State) (n : SlotId) : SameHedges s (s.idleSlot n) := by
  obtain ⟨q, hq⟩ := idleSlot_rest s n
  have base := slotCleared_sameHedges s n
  rw [hq]
  exact ⟨base.out, base.gcs, base.progs, base.awaited⟩

theorem slotCleared_slot (s : State) (n : SlotId) : (s.slotCleared n).slot n = Slot.reset := by
  unfold State.slotCleared
  exact State.setSlot_slot_same _ _ _

theorem idleSlot_slot (s : State) (n : SlotId) : (s.idleSlot n).slot n = Slot.reset := by
  obtain ⟨q, hq⟩ := idleSlot_rest s n
  rw [hq]
  exact slotCleared_slot s n

/-- A family's entry once the change of its program `n` has taken effect. -/
def Hedge.tableSet (g : Hedge) (n : Nat) (p : Option Prog) (l : List (Nat × Option Prog)) : Hedge :=
  { g with progs := tset none g.progs n p, awaited := l }

theorem tableChange_cons {s : State} {h : HedgeId} {n : Nat} {p : Option Prog} {l : List (Nat × Option Prog)}
    (ha : (s.hedge h).awaited = (n, p) :: l) : s.tableChange h = (s.modHedge h fun g => g.tableSet n p l).keepDef h := by
  unfold State.tableChange
  rw [ha]
  rfl

theorem keepDef_hedge (s : State) (h i : HedgeId) : (s.keepDef h).hedge i = s.hedge i := rfl

theorem tableChange_kept (s : State) (h : HedgeId) :
    (s.tableChange h).out = s.out ∧ (s.tableChange h).fns = s.fns ∧
    ∀ i, ((s.tableChange h).hedge i).gcsPosted = (s.hedge i).gcsPosted := by
  cases ha : (s.hedge h).awaited with
  | nil =>
    have ht : s.tableChange h = s := by
      unfold State.tableChange
      rw [ha]
    rw [ht]
    exact ⟨rfl, rfl, fun _ => rfl⟩
  | cons a l =>
    rw [tableChange_cons ha]
    refine ⟨rfl, rfl, fun i => ?_⟩
    rw [keepDef_hedge, State.modHedge_hedge]
    split
    next hi => rw [hi]; rfl
    next => rfl

/-- The oldest change that awaits its completion takes effect. -/
theorem tableChange_takes {s : State} {h : HedgeId} {n : Nat} {p : Option Prog} {l : List (Nat × Option Prog)}
    (ha : (s.hedge h).awaited = (n, p) :: l) :
    tget none ((s.tableChange h).hedge h).progs n = p ∧ ((s.tableChange h).hedge h).awaited = l := by
  rw [tableChange_cons ha, keepDef_hedge, State.modHedge_hedge, if_pos rfl]
  exact ⟨tget_tset_same _ _ _ _, rfl⟩

/-- Vector 0 is sent, or kept pending while it is masked. -/
theorem sendMsix_vec0 (s : State) (f : FnId) : s.sendMsix f false =
    if (s.fn f).vec0.mask = true then s.setFn f { s.fn f with vec0 := { (s.fn f).vec0 with pend := true } } else s.emit (.msix f false) := rfl

/-- The completion as it is written to the ring. -/
def State.writtenCompl (s : State) (f : FnId) (c : Compl) : Compl := if c.gk = .carried then { c with gcs := s.carried f } else c

/-- The state once the completion has been written to the ring, before vector 0. -/
def State.complWritten (s : State) (f : FnId) (c : Compl) : State :=
  let q := s.fn f
  (s.emit (.host f (BitVec.ofNat 64 (q.cqBase.toNat * 4096 + 32 * q.cqTail.toNat)) ((s.writtenCompl f c).bytes q.cqPhase) false)).setFn f
    (q.wroteCompl s.aoTick c)

/-- The state once the completion has been written to the ring and vector 0 sent where it is due. -/
def State.complSent (s : State) (f : FnId) (c : Compl) : State :=
  if (s.fn f).intCnt.toNat ≤ (s.fn f).cqSince + 1 then (s.complWritten f c).sendMsix f false else s.complWritten f c

theorem complSent_hedges (s : State) (f : FnId) (c : Compl) : (s.complSent f c).hedges = s.hedges := by
  unfold State.complSent
  split
  · rw [sendMsix_vec0]
    split
    · rfl
    · rfl
  · rfl

theorem complSent_out (s : State) (f : FnId) (c : Compl) : (s.complSent f c).out = s.out ++
    (Out.host f (BitVec.ofNat 64 ((s.fn f).cqBase.toNat * 4096 + 32 * (s.fn f).cqTail.toNat))
      ((s.writtenCompl f c).bytes (s.fn f).cqPhase) false ::
        if decide ((s.fn f).intCnt.toNat ≤ (s.fn f).cqSince + 1) = true ∧ (s.fn f).vec0.mask = false then [.msix f false] else []) := by
  have hv : ((s.complWritten f c).fn f).vec0 = (s.fn f).vec0 := by rw [State.complWritten, State.setFn_fn_same]; rfl
  unfold State.complSent
  split
  next hd =>
    rw [sendMsix_vec0, hv]
    cases hm : (s.fn f).vec0.mask
    · rw [if_neg Bool.false_ne_true, if_pos ⟨decide_eq_true hd, rfl⟩]
      exact List.append_assoc _ _ _
    · rw [if_pos rfl, if_neg (fun k => Bool.false_ne_true k.2.symm)]
      rfl
  next hd =>
    rw [if_neg (fun k => hd (of_decide_eq_true k.1))]
    rfl

theorem complSent_fn (s : State) (f : FnId) (c : Compl) : (s.complSent f c).fn f =
    { (s.fn f).wroteCompl s.aoTick c with
      vec0 := { (s.fn f).vec0 with
        pend := (s.fn f).vec0.pend || (decide ((s.fn f).intCnt.toNat ≤ (s.fn f).cqSince + 1) && (s.fn f).vec0.mask) } } := by
  have hw : (s.complWritten f c).fn f = (s.fn f).wroteCompl s.aoTick c := State.setFn_fn_same _ _ _
  have hv : ((s.fn f).wroteCompl s.aoTick c).vec0 = (s.fn f).vec0 := rfl
  unfold State.complSent
  split
  next hd =>
    rw [sendMsix_vec0, hw, hv, decide_eq_true hd, Bool.true_and]
    cases hm : (s.fn f).vec0.mask
    · rw [if_neg Bool.false_ne_true, Bool.or_false, ← hm]
      exact hw
    · rw [if_pos rfl, State.setFn_fn_same, Bool.or_true, ← hm]
  next hd =>
    rw [decide_eq_false hd, Bool.false_and, Bool.or_false]
    exact hw

/-- The state once the hedge's record of what it has posted has taken the completion. -/
def State.complRecorded (s : State) (f : FnId) (c : Compl) : State :=
  let s3 := match (s.fn f).hedge with
    | some h => (s.complSent f c).modHedge h fun g => g.posted s.aoTick c
    | none => s.complSent f c
  if s3.lehr.pairdeg ∧ c.gk = .own ∧ s3.lehr.localLast.toNat < c.gcs.toNat then { s3 with lehr := { s3.lehr with localLast := c.gcs } } else s3

theorem postCompl_eq (s : State) (f : FnId) (c : Compl) : s.postCompl f c =
    let s5 := match c.table with
      | some h => (s.complRecorded f c).tableChange h
      | none => s.complRecorded f c
    match c.slot with
    | some n => s5.idleSlot n
    | none => s5 := rfl

theorem complRecorded_kept (s : State) (f : FnId) (c : Compl) :
    (s.complRecorded f c).out = (s.complSent f c).out ∧ (s.complRecorded f c).fns = (s.complSent f c).fns ∧
    ∀ i, (s.complRecorded f c).hedge i = if (s.fn f).hedge = some i then (s.hedge i).posted s.aoTick c else s.hedge i := by
  have hs : ∀ i, (s.complSent f c).hedge i = s.hedge i := fun i => by
    unfold State.hedge
    rw [complSent_hedges]
  unfold State.complRecorded
  dsimp only
  cases hq : (s.fn f).hedge with
  | none =>
    dsimp only
    split
    · exact ⟨rfl, rfl, fun i => (hs i).trans (if_neg (by simp)).symm⟩
    · exact ⟨rfl, rfl, fun i => (hs i).trans (if_neg (by simp)).symm⟩
  | some h =>
    dsimp only
    have hm : ∀ i, ((s.complSent f c).modHedge h fun g => g.posted s.aoTick c).hedge i =
        if some h = some i then (s.hedge i).posted s.aoTick c else s.hedge i := fun i => by
      rw [State.modHedge_hedge, hs, hs]
      by_cases hi : i = h
      · rw [if_pos hi, if_pos (congrArg some hi.symm), hi]
      · rw [if_neg hi, if_neg (fun k => hi (Option.some.inj k).symm)]
    split
    · exact ⟨rfl, rfl, hm⟩
    · exact ⟨rfl, rfl, hm⟩

/-- 13 R408, R409: what posting leaves of the ring, the slot, the tables and the hedge. -/
theorem postCompl_leaves (s : State) (f : FnId) (c : Compl) :
    (s.postCompl f c).out = (s.complSent f c).out ∧
    (c.slot = none → (s.postCompl f c).fn f = (s.complSent f c).fn f) ∧
    (∀ n, c.slot = some n → (s.postCompl f c).slot n = Slot.reset) ∧
    (∀ g n p l, c.table = some g → (s.hedge g).awaited = (n, p) :: l →
      tget none ((s.postCompl f c).hedge g).progs n = p ∧ ((s.postCompl f c).hedge g).awaited = l) ∧
    ∀ i, ((s.postCompl f c).hedge i).gcsPosted =
      ((if (s.fn f).hedge = some i then (s.hedge i).posted s.aoTick c else s.hedge i).gcsPosted) := by
  obtain ⟨hout, hfns, hhed⟩ := complRecorded_kept s f c
  obtain ⟨s5, hs5⟩ : ∃ s5, (match c.table with
      | some h => (s.complRecorded f c).tableChange h
      | none => s.complRecorded f c) = s5 := ⟨_, rfl⟩
  have h5 : s5.out = (s.complSent f c).out ∧ s5.fns = (s.complSent f c).fns ∧
      (∀ g n p l, c.table = some g → (s.hedge g).awaited = (n, p) :: l → tget none (s5.hedge g).progs n = p ∧ (s5.hedge g).awaited = l) ∧
      ∀ i, (s5.hedge i).gcsPosted = ((s.complRecorded f c).hedge i).gcsPosted := by
    cases ht : c.table with
    | none =>
      rw [ht] at hs5
      subst hs5
      exact ⟨hout, hfns, fun _ _ _ _ k => by simp at k, fun _ => rfl⟩
    | some h =>
      rw [ht] at hs5
      subst hs5
      obtain ⟨ko, kf, kg⟩ := tableChange_kept (s.complRecorded f c) h
      refine ⟨ko.trans hout, kf.trans hfns, fun g n p l k ha => ?_, kg⟩
      obtain rfl : h = g := Option.some.inj k
      refine tableChange_takes ?_
      rw [hhed]
      split
      · exact ha
      · exact ha
  obtain ⟨ho, hf, hta, hg⟩ := h5
  have he : s.postCompl f c = match c.slot with
      | some n => s5.idleSlot n
      | none => s5 := by rw [postCompl_eq, ← hs5]
  rw [he]
  cases hc : c.slot with
  | none =>
    refine ⟨ho, fun _ => ?_, fun _ k => by simp at k, hta, fun i => (hg i).trans (by rw [hhed])⟩
    unfold State.fn
    dsimp only
    rw [hf]
  | some n =>
    have hi := idleSlot_sameHedges s5 n
    refine ⟨hi.out.trans ho, fun k => by simp at k, fun m k => ?_, fun g n p l kt ha => ?_, fun i => ((hi.gcs i).trans (hg i)).trans (by rw [hhed])⟩
    · rw [← Option.some.inj k]
      exact idleSlot_slot s5 n
    · dsimp only
      rw [hi.progs, hi.awaited]
      exact hta g _ p l kt ha

/-- A completion without a slot that carries no watermark of its own may be posted at any time. -/
theorem postable_unowed {s : State} {f : FnId} {c : Compl} (hs : c.slot = none) (hk : c.gk = .carried ∨ c.gk = .watermark) :
    s.postable f c = true := by
  unfold State.postable
  rw [hs]
  obtain hk | hk := hk
  · rw [hk]; simp
  · rw [hk]; simp

/-- Settles O24: `postCompl_leaves` says what posting does, `complSent_fn` and `complSent_out` what the ring's part of it does. -/
theorem completionsArePosted : Obligations.CompletionsArePosted := by
  unfold Obligations.CompletionsArePosted
  intro s f
  dsimp only
  refine ⟨fun c hp hr hy hc => ?_, fun due hs hd hle => ?_, fun hno => ?_⟩
  · have hfind : (s.fn f).waiting.find? (fun c => s.postable f c) = some c := by
      obtain hc | ⟨l, hl, hn, hk⟩ := hc
      · exact hc
      · rw [hl, List.find?_cons_of_pos (postable_unowed hn hk)]
    have he : exec (.completionPost f) s = .next (s.postCompl f c) := by
      show execCompletionPost f s = _
      unfold execCompletionPost
      dsimp only
      rw [if_pos ⟨hp, hr, by rw [hy]; rfl⟩, hfind]
    refine ⟨_, he, ?_⟩
    obtain ⟨ho, hf, hsl, ht, hg⟩ := postCompl_leaves s f c
    refine ⟨?_, fun hn => ?_, hsl, ht, fun h hh => ?_⟩
    · rw [ho, complSent_out]
      rfl
    · rw [hf hn, complSent_fn]
      refine ⟨rfl, ?_, rfl, ?_⟩
      · exact BitVec.toNat_ofNat _ _
      · show (if decide _ = true then 0 else _) = _
        rfl
    · rw [hg, if_pos hh]
      rfl
  · have he : exec (.vector0Timer f) s = .next ((s.setFn f { s.fn f with cqSince := 0 }).sendMsix f false) := by
      show execVector0Timer f s = _
      unfold execVector0Timer
      dsimp only
      rw [if_pos ⟨hs, by rw [hd]; exact decide_eq_true hle⟩]
    refine ⟨_, he, ?_⟩
    rw [sendMsix_vec0, State.setFn_fn_same]
    dsimp only
    cases hm : (s.fn f).vec0.mask
    · rw [if_neg Bool.false_ne_true, if_neg Bool.false_ne_true, Bool.or_false, ← hm]
      exact ⟨State.setFn_fn_same _ _ _, rfl, fun i hi => State.setFn_fn_ne _ _ _ _ hi⟩
    · rw [if_pos rfl, if_pos rfl, Bool.or_true, ← hm]
      refine ⟨State.setFn_fn_same _ _ _, ?_, fun i hi => ?_⟩
      · rw [List.append_nil]
        rfl
      · rw [State.setFn_fn_ne _ _ _ _ hi, State.setFn_fn_ne _ _ _ _ hi]
  · show execVector0Timer f s = _
    unfold execVector0Timer
    dsimp only
    rw [if_neg]
    rintro ⟨h1, h2⟩
    obtain h | h | ⟨due, h, hlt⟩ := hno
    · exact h1 h
    · rw [h] at h2
      exact Bool.false_ne_true h2
    · rw [h] at h2
      exact absurd (of_decide_eq_true h2) (by omega)

end Sys2Proof.Machine
end

section
/-! O39: a wait that completes at its event unit wakes the cluster of its context when the cluster's clock is gated (14 R458). -/

namespace Sys2Proof.Machine

/-- Context 0 of engine 0 waits on an endpoint beyond its hedge's directory, its WAITEV has reached the unit, and its cluster is in C1. -/
def State.gatedWait : State :=
  { State.reset with
    engines := [(0, { Engine.reset with ctxs := [(0, { Ctx.reset with state := .wait, slot := 0, wait := some ⟨3, .waitev 5 0 none, .data, none⟩ })] })]
    slots := [(0, { Slot.reset with state := .resident, eng := 0, ctx := 0 })]
    clus := [(0, { Clu.reset with pst := .c1 })]
    evMsgs := [(0, 0, .wait)] }

/-- Refutes O39: the unit completes the wait and the gated cluster begins to wake, which the statement has unchanged. -/
theorem not_eventUnitsWakeAndDetectDeadlock : ¬ Obligations.EventUnitsWakeAndDetectDeadlock := by
  unfold Obligations.EventUnitsWakeAndDetectDeadlock
  intro h
  obtain ⟨hwait, -⟩ := h State.gatedWait 0 0 0
  obtain ⟨hout, -⟩ := hwait [] [] 0 5 0 none .data rfl (by simp) (by decide) ⟨by decide, by decide, 3, by decide⟩
  have heq := Host.Outcome.next.inj ((hout (by decide)).symm)
  exact absurd (congrArg (fun t : State => (t.clu 0).waking) heq) (by decide)

end Sys2Proof.Machine
end

section
/-! O42: a host port whose Max_Payload_Size is 0, which no statement rules out, takes no byte of a burst. -/

namespace Sys2Proof.Machine

/-- A FILL of one byte of host memory of function 1. -/
def oneByteFill : Desc := ⟨0x100000002, 0, 0x4000000000000000, 0⟩

/-- A channel whose FILL has its one burst in flight. -/
def Chan.filling : Chan :=
  { Chan.reset with state := .active, maxb := 1, cur := some oneByteFill, next := 1, flight := [⟨0, 0, 1, false, 0, false, none⟩] }

/-- Channel 63 of mover 32 has a burst in flight to a port whose Max_Payload_Size is 0. -/
def State.deadPort : State :=
  { State.reset with
    movers := [(32, { Mover.reset with chans := [(63, Chan.filling)] })]
    ports := [(0, { HPort.reset with mps := 0 })] }

/-- The burst arrives, and none of it has been written. -/
theorem deadPort_done : ∃ t, exec (.burstComplete 32 63 0 [] false) State.deadPort = .next t ∧ (t.chan 32 63).done = 0 :=
  ⟨_, rfl, by decide +kernel⟩

/-- Refutes O42: the statement has the burst's byte written. -/
theorem not_burstsMoveTheBytes : ¬ Obligations.BurstsMoveTheBytes := by
  unfold Obligations.BurstsMoveTheBytes
  intro h
  obtain ⟨hburst, -⟩ := h State.deadPort 32 63 oneByteFill [] false
  obtain ⟨-, hwrite, -⟩ := hburst rfl rfl rfl rfl (by unfold State.aloneAt; decide) rfl rfl (by decide)
  obtain ⟨t, ht, hchan, -⟩ := hwrite ⟨0, 0, 1, false, 0, false, none⟩ rfl rfl rfl rfl rfl (by decide) (by decide) (by decide) (by decide)
  obtain ⟨u, hu, hdone⟩ := deadPort_done
  obtain rfl : u = t := Host.Outcome.next.inj (hu.symm.trans ht)
  rw [hchan] at hdone
  exact absurd hdone (by decide)

end Sys2Proof.Machine
end

section
/-! O45: a window whose mean power is far above the limit leaves no energy over, and the model's cap on the credit is then negative. -/

namespace Sys2Proof.Machine

/-- One open hedge, with the only guaranteed minimum, and a mean power of 500 W above a limit that is 0. -/
def State.overdrawn : State :=
  { State.reset with
    hedges := [(0, { Hedge.reset with fn := some 1, par := { Hedge.reset.par with emin := 1 } })]
    regs := { State.reset.regs with power := 4000, limit := 0 } }

/-- The credit becomes a hundred times the energy that the window has overdrawn. -/
theorem overdrawn_credit : ∃ t, exec (.energySettle []) State.overdrawn = .next t ∧ (t.hedge 0).credit = BitVec.ofInt 32 (-5000000) :=
  ⟨_, rfl, by decide +kernel⟩

/-- Refutes O45: the statement has the credit within a cap of 0. -/
theorem not_powerAndGuaranteesFollowTheWindows : ¬ Obligations.PowerAndGuaranteesFollowTheWindows := by
  unfold Obligations.PowerAndGuaranteesFollowTheWindows
  intro h
  obtain ⟨-, hsettle, -⟩ := h State.overdrawn
  obtain ⟨t, ht, hall⟩ := hsettle []
  obtain ⟨u, hu, hcredit⟩ := overdrawn_credit
  obtain rfl : u = t := Host.Outcome.next.inj (hu.symm.trans ht)
  have hopen := congrArg Hedge.credit (hall 0 (by decide))
  rw [hcredit] at hopen
  exact absurd hopen (by decide +kernel)

end Sys2Proof.Machine
end

section
/-! O48: the removal of a cluster has firmware hold the floors anew, and another cluster's held FLOOR goes back to what it was. -/

namespace Sys2Proof.Machine

/-- Cluster 0 fails for good; cluster 1 has held its FLOOR of 2 at 1 for a warm engine that it no longer has. -/
def State.heldFloor : State :=
  { State.reset with clus := [(0, { Clu.reset with failing := some [] }), (1, { Clu.reset with floor := 1, warmHeld := some 2 })] }

/-- The removal of cluster 0 gives cluster 1 its FLOOR back. -/
theorem heldFloor_floor : ∃ t, exec (.clusterRemoval 0) State.heldFloor = .next t ∧ (t.clu 1).floor = 2 :=
  ⟨_, rfl, by decide +kernel⟩

/-- Refutes O48: the statement has every other cluster unchanged. -/
theorem not_controlSpaceReadsAndWrites : ¬ Obligations.ControlSpaceReadsAndWrites := by
  unfold Obligations.ControlSpaceReadsAndWrites
  intro h
  obtain ⟨-, -, -, -, -, -, hremoval, -⟩ := h State.heldFloor (.thread 0) rfl
  obtain ⟨-, hrem, -⟩ := hremoval 0
  obtain ⟨t, ht, -, -, -, -, -, hothers⟩ := hrem [] (by decide) (by decide) (by decide)
  obtain ⟨u, hu, hfloor⟩ := heldFloor_floor
  obtain rfl : u = t := Host.Outcome.next.inj (hu.symm.trans ht)
  rw [hothers 1 (by decide)] at hfloor
  exact absurd hfloor (by decide)

end Sys2Proof.Machine
end

section
/-! The management bus, the pins and the ports: each command's branches, as the statement has them (15 R513, 18 R572 to R585). -/

namespace Sys2Proof.Machine

/-- A port's AER lists an error of a function once it has been logged (16 Table 16-9). -/
theorem aer_logs (s : State) (p : PortId) (fn status : Nat) : (fn, status) ∈ ((s.aer p fn status).port p).aer := by
  change (fn, status) ∈ ((State.setPort _ p _).port p).aer
  rw [State.setPort_port_same]
  dsimp only
  split
  next h => exact List.contains_iff_mem.1 h
  next => exact List.mem_append_right _ (List.mem_singleton_self _)

/-- What an AER report leaves alone. -/
theorem aer_rest (s : State) (p : PortId) (fn status : Nat) :
    s.aer p fn status = { s with ports := (s.aer p fn status).ports, errq := s.errq ++ [portRecord s p status], free := s.free + 1 } := rfl

variable (s : State)

theorem mctpPowerLimit_some (v : BitVec 12) :
    (800 ≤ v.toNat → v.toNat ≤ 3040 → exec (.mctpPowerLimit (some v)) s =
      .next ({ s with regs := { s.regs with limit := v } }.emit (.mctp (.powerLimit v.toNat)))) ∧
    (v.toNat < 800 ∨ 3040 < v.toNat → exec (.mctpPowerLimit (some v)) s = .next (s.emit (.mctp (.powerLimit s.regs.limit.toNat)))) := by
  constructor
  · intro h1 h2
    show execMctpPowerLimit (some v) s = _
    unfold execMctpPowerLimit
    dsimp only
    rw [if_pos ⟨h1, h2⟩]
    rfl
  · intro h
    show execMctpPowerLimit (some v) s = _
    unfold execMctpPowerLimit
    dsimp only
    rw [if_neg (by omega)]

theorem alarmMessageRead_queued (a : Alarm) (l : List Alarm) (h : s.keeper.alarms = a :: l) : Answers .alarmMessageRead s fun t =>
    t.keeper = { s.keeper with alarms := l, alert := !l.isEmpty || decide (s.keeper.alarmsOver ≠ 0) } ∧ t.out = s.out ++ [.mctp (.alarm a)] := by
  refine ⟨State.emit { s with keeper := { s.keeper with alarms := l, alert := !l.isEmpty || decide (s.keeper.alarmsOver ≠ 0) } }
    (.mctp (.alarm a)), ?_, rfl, rfl⟩
  show execAlarmMessageRead s = _
  unfold execAlarmMessageRead
  dsimp only
  rw [h]

theorem alarmMessageRead_over (h : s.keeper.alarms = []) (ho : s.keeper.alarmsOver ≠ 0) : Answers .alarmMessageRead s fun t =>
    t.keeper = { s.keeper with alarmsOver := 0, alert := false } ∧ t.out = s.out ++ [.mctp (.alarmCount s.keeper.alarmsOver)] := by
  refine ⟨State.emit { s with keeper := { s.keeper with alarmsOver := 0, alert := false } } (.mctp (.alarmCount s.keeper.alarmsOver)),
    ?_, rfl, rfl⟩
  show execAlarmMessageRead s = _
  unfold execAlarmMessageRead
  dsimp only
  rw [h]
  dsimp only
  rw [if_pos ho]

theorem alarmMessageRead_none (h : s.keeper.alarms = []) (ho : s.keeper.alarmsOver = 0) : exec .alarmMessageRead s = .next s := by
  show execAlarmMessageRead s = _
  unfold execAlarmMessageRead
  dsimp only
  rw [h]
  dsimp only
  rw [if_neg (not_not.2 ho)]

theorem storageLinkDown_used (p : StoragePort) (h : (s.sport p).used = true) : Answers (.storageLinkDown p) s fun t =>
    t.sport p = { s.sport p with used := false } ∧ (∃ r, t.errq = s.errq ++ [r] ∧ r.cls = 0x0F) ∧
      t = { s with sports := t.sports, errq := t.errq } := by
  refine ⟨(s.setSport p { s.sport p with used := false }).report (storageRecord s p), ?_,
    State.setSport_sport_same _ _ _, ⟨_, rfl, rfl⟩, rfl⟩
  show execStorageLinkDown p s = _
  unfold execStorageLinkDown
  rw [if_pos h]

theorem storageLinkDown_unused (p : StoragePort) (h : (s.sport p).used = false) : exec (.storageLinkDown p) s = .next s := by
  show execStorageLinkDown p s = _
  unfold execStorageLinkDown
  rw [if_neg (by rw [h]; exact Bool.false_ne_true)]

/-- A request that no window holds is counted, and a read is answered. -/
theorem outOfWindowRequest_outside (p : StoragePort) (a : Word64) (n : Nat) (w : Bool)
    (h : ∀ w ∈ s.windows p, a.toNat < w.1.toNat ∨ w.1.toNat + w.2 < a.toNat + n) :
    exec (.outOfWindowRequest p ⟨a, n, w⟩) s = .next (if w then s.setSport p { s.sport p with urs := satInc (s.sport p).urs }
      else (s.setSport p { s.sport p with urs := satInc (s.sport p).urs }).emit (.ur (2 + p.val))) := by
  show execOutOfWindowRequest p _ s = _
  unfold execOutOfWindowRequest
  dsimp only
  rw [if_neg]
  intro hany
  obtain ⟨x, hx, hin⟩ := List.any_eq_true.1 hany
  have hout := h x hx
  rw [Bool.and_eq_true, decide_eq_true_eq, decide_eq_true_eq] at hin
  omega

theorem outOfWindowRequest_inside (p : StoragePort) (a : Word64) (n : Nat) (w : Word64 × Nat) (x : Bool) (hw : w ∈ s.windows p)
    (h1 : w.1.toNat ≤ a.toNat) (h2 : a.toNat + n ≤ w.1.toNat + w.2) : exec (.outOfWindowRequest p ⟨a, n, x⟩) s = .next s := by
  show execOutOfWindowRequest p _ s = _
  unfold execOutOfWindowRequest
  dsimp only
  rw [if_pos]
  exact List.any_eq_true.2 ⟨w, hw, by rw [decide_eq_true h1, decide_eq_true h2]; rfl⟩

theorem gpio_running (h : s.keeper.running = true) : s.gpio 0 = .drive (s.devstat == 2) ∧ s.gpio 1 = .drive (s.devstat == 3) := by
  unfold State.gpio
  rw [h]
  exact ⟨rfl, rfl⟩

theorem pciIdent_some (f : FnId) (hc : (s.port (portOf f)).crs = false) (hv : f.val % 65 ≤ (s.port (portOf f)).vfs) :
    ∃ i, s.pciIdent f = some i ∧ i.classCode = 0x120000 ∧ i.device = (if isPf f then 0x0256 else 0x0257) ∧ i.interruptPin = 0 ∧
      (isPf f = true → i.totalVfs = (s.port (portOf f)).vfs) := by
  have hn : ¬ ((s.port (portOf f)).crs || decide ((s.port (portOf f)).vfs < f.val % 65)) = true := by
    rw [hc, decide_eq_false (by omega)]
    exact Bool.false_ne_true
  exact ⟨_, if_neg hn, rfl, rfl, rfl, fun k => if_pos k⟩

theorem hostUnsupportedRequest_logs (p : PortId) (fn : Fin 65) (w : Bool) : Answers (.hostUnsupportedRequest p fn w) s fun t =>
    (fn.val, 20) ∈ (t.port p).aer ∧ (∃ r, t.errq = s.errq ++ [r] ∧ r.cls = 0x0E) ∧ t.out = s.out ++ (if w then [] else [.ur p.val]) ∧
      t = { s with ports := t.ports, errq := t.errq, out := t.out, free := s.free + 1 } := by
  cases w with
  | true => exact ⟨_, rfl, aer_logs s p fn.val aerUnsupported, ⟨_, rfl, rfl⟩, (List.append_nil _).symm, rfl⟩
  | false => exact ⟨_, rfl, aer_logs s p fn.val aerUnsupported, ⟨_, rfl, rfl⟩, rfl, rfl⟩

end Sys2Proof.Machine

namespace Sys2Proof.Machine

/-- Settles O50, a lemma above for each command. -/
theorem portsAndManagementAnswer : Obligations.PortsAndManagementAnswer := by
  unfold Obligations.PortsAndManagementAnswer
  intro s
  refine ⟨rfl, mctpPowerLimit_some s, ⟨_, rfl, _, ?_, rfl⟩, rfl, rfl, fun _ => rfl, fun _ => rfl, alarmMessageRead_queued s,
    alarmMessageRead_over s, alarmMessageRead_none s, fun p => ⟨storageLinkDown_used s p, storageLinkDown_unused s p⟩,
    fun p a n => ⟨fun h => ⟨outOfWindowRequest_outside s p a n true h, outOfWindowRequest_outside s p a n false h⟩,
      fun w x hw h1 h2 => outOfWindowRequest_inside s p a n w x hw h1 h2⟩,
    fun hr n => ?_, gpio_running s, pciIdent_some s, hostUnsupportedRequest_logs s⟩
  · rw [List.length_map, List.length_range]
  · unfold State.gpio
    rw [hr]
    rfl

end Sys2Proof.Machine
end

section
/-! O30: LOAD_TABLE has firmware hold the floors anew, and a cluster that has to leave C4 for its FLOOR loses its scratch, the table just
loaded among it. -/

namespace Sys2Proof.Machine

/-- LOAD_TABLE for hedge 0, with a block of 64 bytes. -/
def loadTableCmd : Cmd :=
  { bytes := 0x87 :: List.replicate 39 0 ++ [64, 0, 0, 0] ++ List.replicate 20 0, start := 0, slot := none, target := none
    waits := none, mute := false }

/-- The block of a code-page table at 0x800. -/
def codePageBlock : List Byte := [3, 0, 0, 0, 0, 8, 0, 0, 0, 1] ++ List.replicate 54 0

/-- Engine 0 is hedge 0's, in a cluster in C4 that has held its FLOOR of 1 for a warm engine; PF 0 carries LOAD_TABLE out. -/
def State.loadInC4 : State :=
  { State.reset with
    engines := [(0, { Engine.reset with assigned := true, rso := false })]
    clus := [(0, { Clu.reset with pst := .c4, floor := 4, warmHeld := some 1 })]
    hedges := [(0, { Hedge.reset with fn := some 1, par := { Params.zero with cptCount := 1, cptBase := 8 } })]
    fns := [(0, { Fn.reset with state := .ready, cur := [loadTableCmd] })] }

/-- After LOAD_TABLE of 256 bytes of 1, byte 0x800 of engine 0 reads 0: the cluster has left C4. -/
theorem loadInC4_byte : ∃ t, exec (.loadTable 0 codePageBlock (List.replicate 256 1)) State.loadInC4 = .next t ∧
    ((t.eng 0).readBytes 0x800 256).head? = some 0 := ⟨_, rfl, by decide +kernel⟩

/-- Refutes O30: the statement has the engine hold the table's bytes. -/
theorem not_programsTablesAndEnginesAreGiven : ¬ Obligations.ProgramsTablesAndEnginesAreGiven := by
  unfold Obligations.ProgramsTablesAndEnginesAreGiven
  intro h
  obtain ⟨-, -, hload, -⟩ := h State.loadInC4 0 loadTableCmd codePageBlock 0
  obtain ⟨t, ht, -, -, hengines⟩ := hload (List.replicate 256 1) ⟨rfl, by decide, rfl, by decide, rfl, by decide⟩ (by decide +kernel) rfl (by decide +kernel)
    (by decide +kernel) (by decide +kernel) (by decide +kernel) (by decide +kernel)
  obtain ⟨-, -, -, -, hbytes⟩ := hengines 0 (by decide)
  have hread := hbytes (by decide +kernel) (by decide)
  obtain ⟨u, hu, hzero⟩ := loadInC4_byte
  obtain rfl : u = t := Host.Outcome.next.inj (hu.symm.trans ht)
  rw [show (tableOf codePageBlock (List.replicate 256 1)).dest = 0x800 from by decide +kernel,
    show (tableOf codePageBlock (List.replicate 256 1)).bytes = List.replicate 256 1 from by decide +kernel,
    List.length_replicate] at hread
  rw [hread] at hzero
  exact absurd hzero (by decide)

end Sys2Proof.Machine
end

section
/-! O29: a table of engines may list an engine twice; SET_HEDGE, which takes a hedge's engines out one at a time as the table lists them,
then takes it out twice, and waits when its role may not change four times. -/

namespace Sys2Proof.Machine

/-- SET_HEDGE for hedge 0, with a block of 128 bytes. -/
def setHedgeCmd : Cmd :=
  { bytes := 0x83 :: List.replicate 39 0 ++ [128, 0, 0, 0] ++ List.replicate 20 0, start := 0, slot := none, target := none
    waits := none, mute := false }

/-- A parameter block: EMIN and EMAX 1, STRICT, 64 slots, LQUOTA 512 and a supervisor window of 4 KiB. -/
def strictBlock : List Byte :=
  [1, 0, 1, 0, 8, 0, 0, 0, 64, 0, 0, 0, 64, 0, 0, 0] ++ List.replicate 12 0 ++ [0, 2, 0, 0] ++ List.replicate 4 0 ++ [1, 1] ++
    List.replicate 90 0

/-- Hedge 0 has the parameters of the block but for STRICT, and engine 0, which the table lists twice and whose role may change three more
times in this 100 ms. -/
def State.listedTwice : State :=
  { State.reset with
    engines := [(0, { Engine.reset with assigned := true, rso := false, roleLog := [(0, 65532)] }), (0, { Engine.reset with assigned := true })]
    hedges := [(0, { Hedge.reset with fn := some 1, par := { paramsOf strictBlock with strict := false } })]
    fns := [(0, { Fn.reset with state := .ready, cur := [setHedgeCmd] })] }

/-- SET_HEDGE waits for engine 0, so no completion is given. -/
theorem listedTwice_waits : ∃ t, exec (.setHedge 0 strictBlock) State.listedTwice = .next t ∧ (t.fn 0).waiting = [] :=
  ⟨_, rfl, by decide +kernel⟩

/-- Refutes O29: the statement has SET_HEDGE end, every engine of the hedge being able to change its role twice. -/
theorem not_adminCommandsManageHedges : ¬ Obligations.AdminCommandsManageHedges := by
  unfold Obligations.AdminCommandsManageHedges
  intro h
  obtain ⟨-, -, -, hset, -⟩ := h State.listedTwice 0 setHedgeCmd strictBlock
  obtain ⟨-, hgood⟩ := hset 0 ⟨rfl, by decide, rfl, by decide, rfl, by decide⟩ (by decide +kernel) rfl (by decide +kernel)
    (by decide +kernel) (by decide +kernel) (by decide +kernel) (by decide +kernel)
  obtain ⟨t, ht, ⟨-, hwaiting⟩, -⟩ := hgood (by decide +kernel) (.inr ⟨by decide, by decide⟩)
    (.inr ⟨by decide +kernel, by decide +kernel, by decide +kernel, by decide⟩)
  obtain ⟨u, hu, hnone⟩ := listedTwice_waits
  obtain rfl : u = t := Host.Outcome.next.inj (hu.symm.trans ht)
  rw [hwaiting] at hnone
  exact absurd (congrArg List.length hnone) (by simp)

end Sys2Proof.Machine
end

section
/-! What telling the hedges of a change leaves unchanged: notices to engines (08 R246), events to rings (13 R420) and the watermarks of the
Lehr (13 Table 13-9). -/

namespace Sys2Proof.Machine

/-- Of the state nothing differs but engines, clusters, rings, messages on their way, alarms, the Lehr's watermarks, and slots that are
parked. -/
structure Told (s t : State) : Prop where
  rest : t = { s with
    engines := t.engines, clus := t.clus, slots := t.slots, refused := t.refused, bounced := t.bounced, fns := t.fns, out := t.out
    keeper := t.keeper, lehr := t.lehr }
  lehr : t.lehr = { s.lehr with low := t.lehr.low, high := t.lehr.high, full := t.lehr.full, fullSince := t.lehr.fullSince }
  slot : ∀ n, (s.slot n).state ≠ .parked → t.slot n = s.slot n

namespace Told

variable {s t u : State}

theorem refl (s : State) : Told s s := ⟨rfl, rfl, fun _ _ => rfl⟩

theorem trans (h : Told s t) (k : Told t u) : Told s u where
  rest := by rw [k.rest, h.rest]
  lehr := by rw [k.lehr, h.lehr]
  slot n hn := by
    have ht := h.slot n hn
    rw [k.slot n (by rwa [ht]), ht]

theorem foldl {α : Type} {f : State → α → State} (hf : ∀ u a, Told u (f u a)) (l : List α) (s : State) : Told s (l.foldl f s) := by
  induction l generalizing s with
  | nil => exact refl s
  | cons a l ih => exact (hf s a).trans (ih _)

theorem ite {p : Prop} [Decidable p] (h : Told s t) (k : Told s u) : Told s (if p then t else u) := by
  split
  · exact h
  · exact k

/-- The fields of the state that a notice, an event or an alarm may change. -/
theorem of_fields (s : State) (e : Tab Engine) (c : Tab Clu) (r b : List EngMsg) (q : Tab Fn) (o : List Out) (k : Keeper) :
    Told s { s with engines := e, clus := c, refused := r, bounced := b, fns := q, out := o, keeper := k } :=
  ⟨rfl, rfl, fun _ _ => rfl⟩

theorem hedges (h : Told s t) : t.hedges = s.hedges := by rw [h.rest]

theorem hedge (h : Told s t) (i : HedgeId) : t.hedge i = s.hedge i := by rw [State.hedge, h.hedges]; rfl

end Told

theorem rouse_told (s : State) (e : EngId) (c : CtxId) : Told s (s.rouse e c) := (Told.of_fields s _ _ _ _ _ _ _).ite (.refl s)

theorem pend_told (s : State) (n : SlotId) (f : Ctx → Ctx) : Told s (s.pend n f) := by
  unfold State.pend
  split
  · split
    · exact (Told.of_fields s _ _ _ _ _ _ _).trans (rouse_told _ _ _)
    · exact .refl s
  · split
    next hp =>
      refine ⟨rfl, rfl, fun m hm => ?_⟩
      exact State.setSlot_slot_ne s n _ m (by rintro rfl; exact hm hp)
    next => exact .refl s

theorem notice_told (s : State) (n : SlotId) (level : Fin 5) (kind : Byte) (word : BitVec 32) :
    Told s (s.notice n level kind word) := by
  unfold State.notice
  split
  · exact (Told.of_fields s _ _ _ _ _ _ _).ite (pend_told s n _)
  · exact .refl s

theorem bounce_told (s : State) (m : EngMsg) : Told s (s.bounce m) :=
  (Told.of_fields s _ _ _ _ _ _ _).ite (Told.of_fields s _ _ _ _ _ _ _)

theorem deliver_notice_told (s : State) (m : EngMsg) {n : SlotId} {level : Fin 5} {kind : Byte} {word : BitVec 32}
    (hm : m.kind = .notice n level kind word) : Told s (s.deliver m) := by
  unfold State.deliver
  dsimp only
  rw [hm]
  exact (Told.refl s).ite (notice_told s n level kind word)

theorem message_notice_told (s : State) (m : EngMsg) {n : SlotId} {level : Fin 5} {kind : Byte} {word : BitVec 32}
    (hm : m.kind = .notice n level kind word) : Told s (s.message m) := by
  have hin : Told s (s.inbound m) :=
    (Told.of_fields s _ _ _ _ _ _ _).ite ((deliver_notice_told s m hm).ite (bounce_told s m))
  exact (Told.of_fields s _ _ _ _ _ _ _).ite ((Told.of_fields s _ _ _ _ _ _ _).ite hin)

theorem notify_told (s : State) (h : HedgeId) (level : Fin 5) (word : BitVec 32) : Told s (s.notify h level word) := by
  refine Told.foldl (fun u e => ?_) _ s
  split
  · exact message_notice_told u _ rfl
  · exact .refl u

theorem hedgeEvent_told (s : State) (h : HedgeId) (v : Ev) : Told s (s.hedgeEvent h v) := by
  obtain ⟨q, o, he⟩ := hedgeEvent_rest s h v
  rw [he]
  exact .of_fields s _ _ _ _ _ _ _

theorem everyHedge_told (s : State) (v : Ev) : Told s (s.everyHedge v) := Told.foldl (fun u h => hedgeEvent_told u h v) _ s

theorem settleFull_told (s : State) : Told s s.settleFull := by
  unfold State.settleFull
  split
  · exact (Told.refl s).ite ⟨rfl, rfl, fun _ _ => rfl⟩
  · exact ⟨rfl, rfl, fun _ _ => rfl⟩

theorem watermarks_told (s : State) : Told s s.watermarks := by
  have hset : ∀ low high : Bool, Told s (State.settleFull { s with lehr := { s.lehr with low := low, high := high } }) := fun low high =>
    Told.trans (t := { s with lehr := { s.lehr with low := low, high := high } }) ⟨rfl, rfl, fun _ _ => rfl⟩ (settleFull_told _)
  have hall : ∀ low high : Bool,
      let s1 := State.settleFull { s with lehr := { s.lehr with low := low, high := high } }
      Told s (if high = s.lehr.high then s1
        else s.openHedges.foldl (fun (t : State) h => t.notify h 3 (BitVec.ofNat 32 (b2n high))) (s1.everyHedge (highEvent s high))) :=
    fun low high => (hset low high).ite (((hset low high).trans (everyHedge_told _ _)).trans
      (Told.foldl (fun u h => notify_told u h 3 (BitVec.ofNat 32 (b2n high))) _ _))
  exact hall _ _

end Sys2Proof.Machine
end

section
/-! O35: mirroring (11 R374, R376 to R380; 16 R528; 17 R550). -/

namespace Sys2Proof.Machine

variable (s : State) (g : Word64) (seq : Nat) (i : Fin 1024) (bytes : List Byte)

/-! ### A partner's entry -/

theorem exec_mirrorEntry {k : LinkId} (hup : (s.link k).state = .up) (hin : s.lehr.mirrorIn = []) :
    exec (.mirrorEntry k g ⟨seq, i, bytes⟩) s =
      .next (State.takeMirrors 1 { s with lehr := { s.lehr with mirrorIn := [(k, ⟨g, seq, i.val, bytes⟩)] } }) := by
  show execMirrorEntry k g _ s = _
  unfold execMirrorEntry
  rw [if_neg (not_not.2 hup), State.mirrorsIn, hin]
  rfl

/-- The controller takes no entry of a partner now. -/
theorem takeMirrors_waits (f : Nat) {q : LinkId × Mirror} {r : List (LinkId × Mirror)} (hq : s.lehr.mirrorIn = q :: r)
    (hno : s.lehr.quiesced = true ∨ s.lehr.fenced = true ∨ s.lehr.failed = true ∨ s.lehr.asleep = true ∨ 8192 ≤ s.lehr.fill) :
    State.takeMirrors (f + 1) s = s := by
  rw [State.takeMirrors, hq]
  refine if_pos ?_
  rcases hno with h | h | h | h | h <;> simp [h]

theorem takeMirrors_writes {q : LinkId × Mirror} (hq : s.lehr.mirrorIn = [q]) (hquiet : s.lehr.quiesced = false)
    (hfence : s.lehr.fenced = false) (hfail : s.lehr.failed = false) (hsleep : s.lehr.asleep = false) (hfill : s.lehr.fill < 8192)
    (hbank : ∀ w ∈ s.lehr.writes, w.bank ≠ (s.lehr.wp.toNat + s.lehr.rot.toNat) % 64) :
    State.takeMirrors 1 s = State.writeMirror { s with lehr := { s.lehr with mirrorIn := [] } } q.1 q.2 := by
  have hbusy : s.lehr.bankBusy = false := List.any_eq_false.2 fun w hw => by simpa using hbank w hw
  rw [State.takeMirrors, hq]
  exact if_neg (by simp [hquiet, hfence, hfail, hsleep, hbusy, hfill])

/-- An anchor changes nothing else of the controller. -/
theorem anchored_rest (l : Lehr) : l.anchored = { l with anchors := l.anchored.anchors } := by
  unfold Lehr.anchored
  dsimp only
  split
  · rfl
  · split
    · rfl
    · rfl

theorem writeMirror_told (k : LinkId) (m : Mirror) : ∃ a : Tab (Nat × Nat × Word64), Told
    { s with lehr := { ({ s.lehr with anchors := a }.place (padEntry m.bytes) .mirror 0 [] (some (k, m.gcs))) with
      mirrors := s.lehr.mirrors ++ [{ m with bytes := padEntry m.bytes }] } } (s.writeMirror k m) := by
  refine ⟨s.lehr.anchored.anchors, ?_⟩
  rw [State.writeMirror, ← anchored_rest, show (s.lehr.anchored.place (padEntry m.bytes) .mirror 0 [] (some (k, m.gcs))).mirrors = s.lehr.mirrors
    by rw [anchored_rest]; rfl]
  exact watermarks_told _

theorem mirrorEntry_written {k : LinkId} (hup : (s.link k).state = .up) (hin : s.lehr.mirrorIn = []) (hquiet : s.lehr.quiesced = false)
    (hfence : s.lehr.fenced = false) (hfail : s.lehr.failed = false) (hsleep : s.lehr.asleep = false) (hfill : s.lehr.fill < 8192)
    (hbank : ∀ w ∈ s.lehr.writes, w.bank ≠ (s.lehr.wp.toNat + s.lehr.rot.toNat) % 64) :
    Answers (.mirrorEntry k g ⟨seq, i, bytes⟩) s fun t =>
      t.lehr.mirrors = s.lehr.mirrors ++ [⟨g, seq, i.val, padEntry bytes⟩] ∧ t.lehr.wp = s.lehr.wp + 1 ∧ t.lehr.mirrorIn = [] ∧
        tget LEntry.empty t.lehr.ring s.lehr.wp.toNat = ⟨padEntry bytes, false, s.lehr.lap, .mirror, 0, false⟩ ∧
        ∃ w, t.lehr.writes = s.lehr.writes ++ [w] ∧ w.mirror = some (k, g) := by
  refine ⟨_, exec_mirrorEntry s g seq i bytes hup hin, ?_⟩
  rw [takeMirrors_writes { s with lehr := { s.lehr with mirrorIn := [(k, ⟨g, seq, i.val, bytes⟩)] } } rfl hquiet hfence hfail hsleep hfill
    hbank]
  obtain ⟨a, ht⟩ := writeMirror_told { s with lehr := { s.lehr with mirrorIn := [] } } k ⟨g, seq, i.val, bytes⟩
  have hl := ht.lehr
  dsimp only at hl ⊢
  rw [hl]
  exact ⟨rfl, rfl, rfl, tget_tset_same _ _ _ _, _, rfl, rfl⟩

/-! ### Acknowledgements -/

theorem takeFirst_last {α : Type} (f : α → Bool) (a : List α) (x : α) (ha : ∀ y ∈ a, f y = false) (hx : f x = true) :
    takeFirst f (a ++ [x]) = (some x, a) := by
  induction a with
  | nil => simp [takeFirst, hx]
  | cons y a ih =>
    have hy := ha y List.mem_cons_self
    simp [takeFirst, hy, ih fun z hz => ha z (List.mem_cons_of_mem _ hz)]

theorem mirrorAck_last (n : SlotId) (a : List (Word64 × List SlotId × Nat)) (b : Nat) (hu : s.lehr.unacked = a ++ [(g, [n], b)])
    (ha : ∀ x ∈ a, x.1 ≠ g) : exec (.mirrorAck g) s =
      .next (({ s with lehr := { s.lehr with unacked := a } }).modSlot n fun sl => { sl with unacked := sl.unacked - 1 }) := by
  show execMirrorAck g s = _
  unfold execMirrorAck
  rw [hu, takeFirst_last _ a (g, [n], b) (fun x hx => by simpa using ha x hx) (by simp)]
  rfl

theorem acked_rest (l : List SlotId) : ∃ q, s.acked l = { s with slots := q } := by
  unfold State.acked
  induction l generalizing s with
  | nil => exact ⟨s.slots, rfl⟩
  | cons n l ih =>
    obtain ⟨q, hq⟩ := ih (s.modSlot n fun sl => { sl with unacked := sl.unacked - 1 })
    exact ⟨q, hq⟩

theorem ackedAll_rest (l : List (Word64 × List SlotId × Nat)) :
    ∃ q, l.foldl (fun (u : State) x => u.acked x.2.1) s = { s with slots := q } := by
  induction l generalizing s with
  | nil => exact ⟨s.slots, rfl⟩
  | cons x l ih =>
    obtain ⟨p, hp⟩ := acked_rest s x.2.1
    obtain ⟨q, hq⟩ := ih (s.acked x.2.1)
    exact ⟨q, by rw [List.foldl_cons, hq, hp]⟩

section
variable {x : Word64} {n : List SlotId} {b : Nat} {rest : List (Word64 × List SlotId × Nat)}

theorem exec_pairTimeout (hu : s.lehr.unacked = (x, n, b) :: rest) (ht : b + s.lehr.ptmo.toNat ≤ s.aoTick.toNat)
    (he : s.lehr.pairEn = true) (hd : s.lehr.pairdeg = false) : exec .pairTimeout s = .next s.pairLost := by
  show execPairTimeout s = _
  unfold execPairTimeout
  dsimp only
  rw [hu]
  exact congrArg _ (if_neg (by simp [he, hd, ht]))

theorem pairLost_stalls (hf : s.lehr.fall = false) : s.pairLost = { s with lehr := { s.lehr with stalled := true } } :=
  if_pos (by simp [hf])

theorem pairLost_degrades (hu : s.lehr.unacked = (x, n, b) :: rest) (hf : s.lehr.fall = true) (hd : s.lehr.pairdeg = false) :
    s.pairLost.lehr.pairdeg = true ∧ s.pairLost.lehr.unacked = [] ∧ s.pairLost.lehr.localFirst = x := by
  obtain ⟨q, hq⟩ := ackedAll_rest s s.lehr.unacked
  let u : State := { s with slots := q, lehr := { s.lehr with pairdeg := true, unacked := [], localFirst := x, localLast := x - 1 } }
  have htold : Told u s.pairLost := by
    unfold State.pairLost
    dsimp only
    rw [if_neg (by simp [hf]), if_neg (by simp [hd]), hq, hu]
    exact (everyHedge_told u _).trans (Told.foldl (fun v h => notify_told v h 1 (x.setWidth 32)) _ _)
  rw [htold.lehr]
  exact ⟨rfl, rfl, rfl⟩

end

/-! ### Copies -/

theorem foldl_emit {α : Type} (f : α → Out) (l : List α) : l.foldl (fun (t : State) m => t.emit (f m)) s = { s with out := s.out ++ l.map f } := by
  induction l generalizing s with
  | nil => simp
  | cons m l ih => rw [List.foldl_cons, ih]; simp [State.emit]

theorem mirrorCopyRequest_early (k : LinkId) (j : Option (Fin 1024)) (hk : s.keeper.step < 9) :
    exec (.mirrorCopyRequest k seq j) s = .next s := congrArg _ (if_pos hk)

theorem mirrorCopyRequest_answers (k : LinkId) (j : Option (Fin 1024)) (hk : 9 ≤ s.keeper.step) :
    exec (.mirrorCopyRequest k seq j) s = .next { s with
      out := s.out ++ (s.lehr.mirrors.filter fun m => m.seq == seq && j.all fun j => m.i == j.val).map fun m => .copy k m } := by
  rw [← foldl_emit]
  exact congrArg _ (if_neg (by omega))

theorem mirrorCopyArrival_takes {q : Nat × Nat} (hq : s.lehr.ringSegs.find? (fun q => q.1 == seq) = some q)
    (ha : 1024 * q.2 + i.val ∈ s.lehr.asked) : exec (.mirrorCopyArrival (seq, i) bytes) s = .next { s with lehr := { s.lehr with
      asked := s.lehr.asked.erase (1024 * q.2 + i.val)
      ring := tmod LEntry.empty s.lehr.ring (1024 * q.2 + i.val) fun x => { x with bytes := padEntry bytes, lost := false } } } := by
  show execMirrorCopyArrival _ _ _ = _
  unfold execMirrorCopyArrival
  dsimp only
  rw [hq]
  exact congrArg _ (if_pos (by simpa using ha))

theorem mirrorCopyArrival_noted (hn : ∀ q ∈ s.lehr.ringSegs, q.1 ≠ seq) (ha : s.lehr.askedAt.isSome = true) (hg : (seq, i.val) ∉ s.lehr.got) :
    exec (.mirrorCopyArrival (seq, i) bytes) s = .next { s with lehr := { s.lehr with got := s.lehr.got ++ [(seq, i.val)] } } := by
  show execMirrorCopyArrival _ _ _ = _
  unfold execMirrorCopyArrival
  dsimp only
  rw [List.find?_eq_none.2 fun q hq => by simpa using hn q hq]
  exact congrArg _ (if_pos (by simpa [ha] using hg))

end Sys2Proof.Machine

namespace Sys2Proof.Machine

/-- Settles O35. -/
theorem mirroringKeepsThePartnerCurrent : Obligations.MirroringKeepsThePartnerCurrent := by
  unfold Obligations.MirroringKeepsThePartnerCurrent
  intro s g seq i bytes l
  refine ⟨fun k hup hin => ⟨?_, fun hno => ?_⟩, fun n a b => mirrorAck_last s g n a b, fun x n b rest hu ht he hd => ⟨fun hf => ?_, fun hf => ?_⟩,
    fun k j => ⟨mirrorCopyRequest_early s seq k j, mirrorCopyRequest_answers s seq k j⟩, fun q hq ha => ?_,
    mirrorCopyArrival_noted s seq i bytes, rfl⟩
  · exact mirrorEntry_written s g seq i bytes hup hin
  · rw [exec_mirrorEntry s g seq i bytes hup hin]
    exact congrArg _ (takeMirrors_waits _ 0 rfl hno)
  · rw [exec_pairTimeout s hu ht he hd, pairLost_stalls s hf]
  · exact ⟨_, exec_pairTimeout s hu ht he hd, pairLost_degrades s hu hf hd⟩
  · refine ⟨_, mirrorCopyArrival_takes s seq i bytes hq ha, ?_⟩
    dsimp only [tmod]
    rw [tget_tset_same]
    exact ⟨rfl, rfl, rfl⟩

end Sys2Proof.Machine
end

section
/-! O34: the drain, partial records, FULL and the checkpoint (11 R362 to R367; 16 R530). -/

namespace Sys2Proof.Machine

/-! ### Issuing records -/

/-- The drain has issued writes: of the closed segments and the partial record only the places have changed, or the partial record has given
way to its segment's own (11 R363, R364). -/
structure Issued (s t : State) : Prop where
  rest : t = { s with
    lehr := { s.lehr with segs := t.lehr.segs, part := t.lehr.part, nextPort := t.lehr.nextPort, zoneNext := t.lehr.zoneNext }, out := t.out }
  segs : ∃ f : LSeg → LSeg, (∀ x, (f x).seq = x.seq ∧ (f x).done = x.done ∧ (f x).fails = x.fails) ∧ t.lehr.segs = s.lehr.segs.map f
  part_none : s.lehr.part = none → t.lehr.part = none
  part_some : ∀ p, s.lehr.part = some p → (∀ g ∈ s.lehr.segs, g.seq ≠ p.seq) →
    ∃ y, t.lehr.part = some y ∧ y.seq = p.seq ∧ y.fails = p.fails

namespace Issued

variable {s t u : State}

theorem refl (s : State) : Issued s s where
  rest := rfl
  segs := ⟨id, fun _ => ⟨rfl, rfl, rfl⟩, (List.map_id _).symm⟩
  part_none h := h
  part_some p h _ := ⟨p, h, rfl, rfl⟩

theorem trans (h : Issued s t) (k : Issued t u) : Issued s u where
  rest := by rw [k.rest, h.rest]
  segs := by
    obtain ⟨f, hf, hs⟩ := h.segs
    obtain ⟨g, hg, ht⟩ := k.segs
    refine ⟨g ∘ f, fun x => ?_, by rw [ht, hs, List.map_map]⟩
    obtain ⟨h1, h2, h3⟩ := hf x
    obtain ⟨k1, k2, k3⟩ := hg (f x)
    exact ⟨k1.trans h1, k2.trans h2, k3.trans h3⟩
  part_none hn := k.part_none (h.part_none hn)
  part_some p hp hno := by
    obtain ⟨f, hf, hs⟩ := h.segs
    obtain ⟨y, hy, hseq, hfails⟩ := h.part_some p hp hno
    obtain ⟨z, hz, hzseq, hzfails⟩ := k.part_some y hy fun g hg => by
      rw [hs] at hg
      obtain ⟨x, hx, rfl⟩ := List.mem_map.1 hg
      rw [(hf x).1, hseq]
      exact hno x hx
    exact ⟨z, hz, hzseq.trans hseq, hzfails.trans hfails⟩

variable (h : Issued s t)
include h

theorem records : t.lehr.records = s.lehr.records := by rw [h.rest]
theorem segCount : t.lehr.seg = s.lehr.seg := by rw [h.rest]
theorem mirrorIn : t.lehr.mirrorIn = s.lehr.mirrorIn := by rw [h.rest]

/-- What holds of every segment by its number and its end still does. -/
theorem mem_segs {P : Nat → Bool → Nat → Prop} (hp : ∀ x ∈ s.lehr.segs, P x.seq x.done x.fails) :
    ∀ x ∈ t.lehr.segs, P x.seq x.done x.fails := by
  obtain ⟨f, hf, hs⟩ := h.segs
  intro x hx
  rw [hs] at hx
  obtain ⟨y, hy, rfl⟩ := List.mem_map.1 hx
  obtain ⟨h1, h2, h3⟩ := hf y
  rw [h1, h2, h3]
  exact hp y hy

theorem exists_seg {g : LSeg} (hg : g ∈ s.lehr.segs) : ∃ x ∈ t.lehr.segs, x.seq = g.seq ∧ x.fails = g.fails := by
  obtain ⟨f, hf, hs⟩ := h.segs
  obtain ⟨h1, -, h3⟩ := hf g
  exact ⟨f g, hs ▸ List.mem_map_of_mem hg, h1, h3⟩

end Issued

theorem issuePart_issued (s : State) : Issued s s.issuePart := by
  unfold State.issuePart
  split
  next p hp =>
    split
    · exact .refl s
    · split
      next q _ =>
        exact ⟨rfl, ⟨id, fun _ => ⟨rfl, rfl, rfl⟩, (List.map_id _).symm⟩, fun hn => absurd (hn.symm.trans hp) (by simp),
          fun p' hp' _ => ⟨_, rfl, by cases Option.some.inj (hp.symm.trans hp'); exact ⟨rfl, rfl⟩⟩⟩
      next => exact .refl s
  next => exact .refl s

/-- A closed segment's record goes to a place. -/
theorem issueSegment_issued (s : State) (g : LSeg) (hg : g ∈ s.lehr.segs) (q : Nat × Nat) :
    Issued s (State.nvmeRecord { s with lehr := { s.lehr with
      segs := s.lehr.segs.map fun x => if x.seq = g.seq then { x with port := some q.1, at_ := q.2 } else x
      part := s.lehr.part.filter fun p => p.seq != g.seq } } q) where
  rest := rfl
  segs := ⟨fun x => if x.seq = g.seq then { x with port := some q.1, at_ := q.2 } else x, fun x => by
    dsimp only
    split
    · exact ⟨rfl, rfl, rfl⟩
    · exact ⟨rfl, rfl, rfl⟩, rfl⟩
  part_none hn := by
    show (s.lehr.part.filter fun p => p.seq != g.seq) = none
    rw [hn]
    rfl
  part_some p hp hno := by
    refine ⟨p, ?_, rfl, rfl⟩
    show (s.lehr.part.filter fun p => p.seq != g.seq) = some p
    rw [hp]
    have hne : (p.seq != g.seq) = true := by simpa using (hno g hg).symm
    simp [Option.filter, hne]

theorem issueDrain_issued (f : Nat) (s : State) : Issued s (State.issueDrain f s) := by
  induction f generalizing s with
  | zero => exact issuePart_issued s
  | succ f ih =>
    rw [State.issueDrain]
    dsimp only
    split
    · exact .refl s
    · split
      · exact issuePart_issued s
      next g hg =>
        split
        · exact .refl s
        · split
          · exact .refl s
          next q _ => exact (issueSegment_issued s g (List.mem_of_find?_eq_some hg) q).trans (ih _)

/-! ### A completed drain write -/

theorem foldl_hedges {α : Type} {f : State → α → State} (hf : ∀ u a, ∃ q, f u a = { u with hedges := q }) (l : List α) (s : State) :
    ∃ q, l.foldl f s = { s with hedges := q } := by
  induction l generalizing s with
  | nil => exact ⟨s.hedges, rfl⟩
  | cons a l ih =>
    obtain ⟨p, hp⟩ := hf s a
    obtain ⟨q, hq⟩ := ih (f s a)
    exact ⟨q, by rw [List.foldl_cons, hq, hp]⟩

theorem uncharge_rest (s : State) (es : List LEntry) : ∃ q, s.uncharge es = { s with hedges := q } :=
  foldl_hedges (fun u _ => by
    split
    · exact ⟨u.hedges, rfl⟩
    · exact ⟨_, rfl⟩) _ s

/-- The oldest segment goes when its write has completed. -/
theorem reclaim_step (f : Nat) (s : State) {g : LSeg} {r : List LSeg} (hs : s.lehr.segs = g :: r) (hd : g.done = true) :
    ∃ h o, State.reclaim (f + 1) s = State.reclaim f { s with
      lehr := { s.lehr with segs := r, rp := BitVec.ofNat 13 ((s.lehr.rp.toNat + 1024) % 8192), inRing := s.lehr.inRing - 1024 }
      hedges := h, out := o } := by
  obtain ⟨q, hq⟩ := uncharge_rest { s with
    lehr := { s.lehr with segs := r, rp := BitVec.ofNat 13 ((s.lehr.rp.toNat + 1024) % 8192), inRing := s.lehr.inRing - 1024 } }
    (s.lehr.segEntries g.seg)
  rw [State.reclaim, hs]
  dsimp only
  rw [if_pos hd, hq]
  by_cases hp : s.lehr.pairEn = true
  · rw [if_pos hp]
    exact ⟨q, _, rfl⟩
  · rw [if_neg hp]
    exact ⟨q, s.out, rfl⟩

/-- Reclaiming keeps the records, the count of segments and the partner's entries, and drops segments from the front. -/
theorem reclaim_keeps (f : Nat) (s : State) : (State.reclaim f s).lehr.records = s.lehr.records ∧ (State.reclaim f s).lehr.seg = s.lehr.seg ∧
    (State.reclaim f s).lehr.mirrorIn = s.lehr.mirrorIn ∧ (State.reclaim f s).lehr.segs ⊆ s.lehr.segs := by
  induction f generalizing s with
  | zero => exact ⟨rfl, rfl, rfl, fun _ h => h⟩
  | succ f ih =>
    cases hs : s.lehr.segs with
    | nil =>
      have hr : State.reclaim (f + 1) s = s := by rw [State.reclaim, hs]
      rw [hr]
      exact ⟨rfl, rfl, rfl, hs ▸ fun _ h => h⟩
    | cons g r =>
      by_cases hd : g.done = true
      · obtain ⟨h, o, hr⟩ := reclaim_step f s hs hd
        rw [hr]
        obtain ⟨h1, h2, h3, h4⟩ := ih { s with
          lehr := { s.lehr with segs := r, rp := BitVec.ofNat 13 ((s.lehr.rp.toNat + 1024) % 8192), inRing := s.lehr.inRing - 1024 }
          hedges := h, out := o }
        exact ⟨h1, h2, h3, fun x hx => List.mem_cons_of_mem g (h4 hx)⟩
      · have hr : State.reclaim (f + 1) s = s := by
          rw [State.reclaim, hs]
          exact if_neg hd
        rw [hr]
        exact ⟨rfl, rfl, rfl, hs ▸ fun _ h => h⟩

/-- The only segment of the ring goes. -/
theorem reclaim_only (f : Nat) (s : State) {g : LSeg} (hs : s.lehr.segs = [g]) (hd : g.done = true) :
    (State.reclaim (f + 1) s).lehr.segs = [] ∧ (State.reclaim (f + 1) s).lehr.inRing = s.lehr.inRing - 1024 ∧
      (State.reclaim (f + 1) s).lehr.rp = BitVec.ofNat 13 ((s.lehr.rp.toNat + 1024) % 8192) := by
  obtain ⟨h, o, hr⟩ := reclaim_step f s hs hd
  rw [hr]
  cases f with
  | zero => exact ⟨rfl, rfl, rfl⟩
  | succ f => exact ⟨rfl, rfl, rfl⟩

/-- Taking a partner's entries keeps the records and the closed segments. -/
theorem takeMirrors_keeps (f : Nat) (s : State) : (State.takeMirrors f s).lehr.records = s.lehr.records ∧
    (State.takeMirrors f s).lehr.seg = s.lehr.seg ∧ (State.takeMirrors f s).lehr.segs = s.lehr.segs := by
  induction f generalizing s with
  | zero => exact ⟨rfl, rfl, rfl⟩
  | succ f ih =>
    rw [State.takeMirrors]
    split
    next q rest _ =>
      split
      · exact ⟨rfl, rfl, rfl⟩
      · obtain ⟨h1, h2, h3⟩ := ih (State.writeMirror { s with lehr := { s.lehr with mirrorIn := rest } } q.1 q.2)
        obtain ⟨a, ht⟩ := writeMirror_told { s with lehr := { s.lehr with mirrorIn := rest } } q.1 q.2
        rw [h1, h2, h3, ht.lehr]
        exact ⟨rfl, rfl, rfl⟩
    next => exact ⟨rfl, rfl, rfl⟩

/-- The controller with the record of segment `g` written. -/
def Lehr.drained (l : Lehr) (g : LSeg) (p : Nat) : Lehr :=
  { l with segs := l.segs.map (fun (x : LSeg) => if x.seq = g.seq then { x with done := true } else x), seg := satInc l.seg }.record g p

/-- The full record of segment `g` at port `p`. -/
def Lehr.recordOf (l : Lehr) (g : LSeg) (p : Nat) : ZoneRec :=
  ⟨g.seq, p, g.at_, false, l.gbase g.seq, (l.segEntries g.seg).map LEntry.recorded⟩

/-- No partial record with a write under way is in the way of segment `n`'s own. -/
theorem partOf_none {l : Lehr} {n : Nat} (h : ∀ x, l.part = some x → x.seq = n → x.port = none) :
    (l.part.bind fun p => if p.seq = n then p.port.map fun q => (p, q) else none) = none := by
  cases hp : l.part with
  | none => rfl
  | some x =>
    rw [Option.bind_some]
    split
    next hx => rw [h x hp hx]; rfl
    next => rfl

theorem partOf_some {l : Lehr} {x : LPart} {p : Nat} (hx : l.part = some x) (hp : x.port = some p) :
    (l.part.bind fun y => if y.seq = x.seq then y.port.map fun q => (y, q) else none) = some (x, p) := by
  rw [hx, Option.bind_some, if_pos rfl, hp]
  rfl

variable (s : State)

section
variable {g : LSeg} {p : Nat}

theorem exec_drainWriteComplete (hf : s.lehr.segs.find? (fun x => x.seq == g.seq && !x.done) = some g) (hp : g.port = some p)
    (hpart : ∀ x, s.lehr.part = some x → x.seq = g.seq → x.port = none) : exec (.drainWriteComplete g.seq) s =
      .next (State.issueDrain 8 (State.reclaim 8 { s with lehr := s.lehr.drained g p }).watermarks).mirrorsIn := by
  show execDrainWriteComplete g.seq s = _
  unfold execDrainWriteComplete
  dsimp only
  rw [partOf_none hpart]
  dsimp only
  rw [hf]
  dsimp only
  rw [hp]
  rfl

theorem drainWriteComplete_segment (hf : s.lehr.segs.find? (fun x => x.seq == g.seq && !x.done) = some g) (hp : g.port = some p)
    (hpart : ∀ x, s.lehr.part = some x → x.seq = g.seq → x.port = none) : Answers (.drainWriteComplete g.seq) s fun t =>
      (∃ r ∈ t.lehr.records, r.seq = g.seq ∧ r.port = p ∧ r.at_ = g.at_ ∧ r.partial_ = false ∧
        r.entries = (s.lehr.segEntries g.seg).map LEntry.recorded) ∧
      t.lehr.seg = satInc s.lehr.seg ∧ (∀ x ∈ t.lehr.segs, x.seq = g.seq → x.done = true) ∧
      (s.lehr.segs = [g] → s.lehr.mirrorIn = [] → t.lehr.segs = [] ∧ t.lehr.inRing = s.lehr.inRing - 1024 ∧
        t.lehr.rp = BitVec.ofNat 13 ((s.lehr.rp.toNat + 1024) % 8192)) := by
  refine ⟨_, exec_drainWriteComplete s hf hp hpart, ?_⟩
  set u := State.reclaim 8 { s with lehr := s.lehr.drained g p } with hu
  obtain ⟨hrec, hcount, hmirror, hsegs⟩ := reclaim_keeps 8 { s with lehr := s.lehr.drained g p }
  rw [← hu] at hrec hcount hmirror hsegs
  have hw := watermarks_told u
  have hi := issueDrain_issued 8 u.watermarks
  set v := State.issueDrain 8 u.watermarks
  obtain ⟨hmrec, hmcount, hmsegs⟩ := takeMirrors_keeps v.lehr.mirrorIn.length v
  have hwsegs : u.watermarks.lehr.segs = u.lehr.segs := by rw [hw.lehr]
  have hr : s.lehr.recordOf g p ∈ v.mirrorsIn.lehr.records := by
    rw [State.mirrorsIn, hmrec, hi.records, hw.lehr]
    show _ ∈ u.lehr.records
    rw [hrec]
    exact List.mem_append_right _ (List.mem_singleton_self _)
  refine ⟨⟨_, hr, rfl, rfl, rfl, rfl, by dsimp only [Lehr.recordOf]⟩, ?_, ?_, fun hone hin => ?_⟩
  · rw [State.mirrorsIn, hmcount, hi.segCount, hw.lehr]
    exact hcount
  · rw [State.mirrorsIn, hmsegs]
    refine hi.mem_segs (P := fun n d _ => n = g.seq → d = true) fun x hx hxg => ?_
    have hx1 := hsegs (hwsegs ▸ hx)
    obtain ⟨y, -, rfl⟩ := List.mem_map.1 hx1
    by_cases hy : y.seq = g.seq
    · simp [hy]
    · exact absurd hxg (by simp [hy])
  · have hnone : v.lehr.mirrorIn = [] := by
      rw [hi.mirrorIn, hw.lehr]
      exact hmirror.trans hin
    obtain ⟨hs, hr, hrp⟩ := reclaim_only 7 { s with lehr := s.lehr.drained g p } (g := { g with done := true })
      (show s.lehr.segs.map _ = _ by rw [hone]; simp) rfl
    obtain ⟨f, -, hvsegs⟩ := hi.segs
    rw [State.mirrorsIn, hnone]
    show v.lehr.segs = [] ∧ v.lehr.inRing = _ ∧ v.lehr.rp = _
    refine ⟨by rw [hvsegs, hwsegs, hs]; rfl, ?_, ?_⟩
    · rw [hi.rest, hw.lehr]; exact hr
    · rw [hi.rest, hw.lehr]; exact hrp

end

/-! ### Partial records -/

theorem issuePart_none (h : s.lehr.part = none) : s.issuePart = s := by
  rw [State.issuePart, h]

/-- A flush asks for a partial record, or leaves the controller's state: the counts and the records stay. -/
theorem flush_keeps : s.flush.lehr.part_ = s.lehr.part_ ∧ s.flush.lehr.records = s.lehr.records := by
  have hi : ∀ p : LPart, (State.issuePart { s with lehr := { s.lehr with part := some p } }).lehr.part_ = s.lehr.part_ ∧
      (State.issuePart { s with lehr := { s.lehr with part := some p } }).lehr.records = s.lehr.records := fun p => by
    have h := issuePart_issued { s with lehr := { s.lehr with part := some p } }
    exact ⟨by rw [h.rest], h.records⟩
  unfold State.flush
  dsimp only
  split
  · exact ⟨rfl, rfl⟩
  · split
    · split
      · exact ⟨rfl, rfl⟩
      · exact hi _
    · exact hi _

section
variable {x : LPart} {p : Nat}

theorem exec_drainWriteComplete_part (hx : s.lehr.part = some x) (hp : x.port = some p) :
    exec (.drainWriteComplete x.seq) s = .next (s.partDone x p) := by
  show execDrainWriteComplete x.seq s = _
  unfold execDrainWriteComplete
  dsimp only
  rw [partOf_some hx hp]

theorem drainWriteComplete_part (hx : s.lehr.part = some x) (hp : x.port = some p) :
    Answers (.drainWriteComplete x.seq) s fun t => t.lehr.part_ = satInc s.lehr.part_ ∧ (x.again = false → t.lehr.part = none) ∧
      ∃ r ∈ t.lehr.records, r.seq = x.seq ∧ r.port = p ∧ r.at_ = x.at_ ∧ r.partial_ = true ∧
        r.entries = ((s.lehr.segEntries x.seg).take x.n).map LEntry.recorded := by
  refine ⟨_, exec_drainWriteComplete_part s hx hp, ?_⟩
  let u : State := { s with lehr := { s.lehr.partRecord x p with part := none, part_ := satInc s.lehr.part_ } }
  have hdone : s.partDone x p = State.issueDrain 8 (if x.again then u.flush else u) := rfl
  rw [hdone]
  have hi := issueDrain_issued 8 (if x.again then u.flush else u)
  obtain ⟨hcount, hrecords⟩ := flush_keeps u
  have hkeep : (if x.again then u.flush else u).lehr.part_ = u.lehr.part_ ∧ (if x.again then u.flush else u).lehr.records = u.lehr.records := by
    split
    · exact ⟨hcount, hrecords⟩
    · exact ⟨rfl, rfl⟩
  refine ⟨?_, fun hno => ?_, ⟨x.seq, p, x.at_, true, s.lehr.gbase x.seq, ((s.lehr.segEntries x.seg).take x.n).map LEntry.recorded⟩, ?_, rfl, rfl,
    rfl, rfl, rfl⟩
  · rw [hi.rest]
    exact hkeep.1
  · exact hi.part_none (by rw [hno]; rfl)
  · rw [hi.records, hkeep.2]
    exact List.mem_append_right _ (List.mem_singleton_self _)

theorem exec_drainWriteFail_part (hx : s.lehr.part = some x) (hp : x.port = some p) : exec (.drainWriteFail x.seq) s = .next
    (State.drainFailed { s with lehr := { s.lehr with part := some { x with port := none, fails := x.fails + 1 } } } x.seg (x.fails + 1) p) := by
  show Host.Outcome.next (s.failDrain x.seq) = _
  unfold State.failDrain
  dsimp only
  rw [partOf_some hx hp]

end

/-- The third failure of a record stops the drain. -/
theorem drainFailed_stops (n fails port : Nat) (h : 3 ≤ fails) : (s.drainFailed n fails port).lehr.drstop = true ∧
    (s.drainFailed n fails port).lehr.fail = satInc s.lehr.fail ∧
    ∃ r, (s.drainFailed n fails port).errq = s.errq ++ [r] ∧ r.cls = 0x0B ∧ r.cause = 5 := by
  rw [State.drainFailed]
  dsimp only
  rw [if_pos h]
  exact ⟨rfl, rfl, _, rfl, rfl, rfl⟩

/-- Any other has the drain go on with the next port. -/
theorem drainFailed_goesOn (n fails port : Nat) (h : fails < 3) :
    Issued { s with lehr := { s.lehr with fail := satInc s.lehr.fail, nextPort := (port + 1) % 16 } } (s.drainFailed n fails port) := by
  rw [State.drainFailed]
  dsimp only
  rw [if_neg (by omega)]
  exact issueDrain_issued 8 _

theorem drainWriteFail_part_again {x : LPart} {p : Nat} (hx : s.lehr.part = some x) (hp : x.port = some p) (hf : x.fails < 2)
    (hno : ∀ g ∈ s.lehr.segs, g.seq ≠ x.seq) : Answers (.drainWriteFail x.seq) s fun t => t.lehr.drstop = s.lehr.drstop ∧
      t.lehr.fail = satInc s.lehr.fail ∧ ∃ y, t.lehr.part = some y ∧ y.seq = x.seq ∧ y.fails = x.fails + 1 := by
  have hi := drainFailed_goesOn { s with lehr := { s.lehr with part := some { x with port := none, fails := x.fails + 1 } } } x.seg (x.fails + 1) p
    (by omega)
  exact ⟨_, exec_drainWriteFail_part s hx hp, by rw [hi.rest], by rw [hi.rest], hi.part_some _ rfl hno⟩

section
variable {g : LSeg}

theorem exec_drainWriteFail (hf : s.lehr.segs.find? (fun x => x.seq == g.seq && !x.done && x.port.isSome) = some g)
    (hpart : ∀ x, s.lehr.part = some x → x.seq = g.seq → x.port = none) : exec (.drainWriteFail g.seq) s = .next
      (State.drainFailed { s with lehr := { s.lehr with
        segs := s.lehr.segs.map fun (x : LSeg) => if x.seq = g.seq then { x with fails := x.fails + 1, port := none } else x } }
        g.seg (g.fails + 1) (g.port.getD 0)) := by
  show Host.Outcome.next (s.failDrain g.seq) = _
  unfold State.failDrain
  dsimp only
  rw [partOf_none hpart]
  dsimp only
  rw [hf]

theorem drainWriteFail_again (hf : s.lehr.segs.find? (fun x => x.seq == g.seq && !x.done && x.port.isSome) = some g)
    (hpart : ∀ x, s.lehr.part = some x → x.seq = g.seq → x.port = none) (hfails : g.fails < 2) :
    Answers (.drainWriteFail g.seq) s fun t => t.lehr.drstop = s.lehr.drstop ∧ t.lehr.fail = satInc s.lehr.fail ∧
      ∃ x ∈ t.lehr.segs, x.seq = g.seq ∧ x.fails = g.fails + 1 := by
  have hi := drainFailed_goesOn { s with lehr := { s.lehr with
    segs := s.lehr.segs.map fun (x : LSeg) => if x.seq = g.seq then { x with fails := x.fails + 1, port := none } else x } }
    g.seg (g.fails + 1) (g.port.getD 0) (by omega)
  refine ⟨_, exec_drainWriteFail s hf hpart, by rw [hi.rest], by rw [hi.rest], ?_⟩
  exact hi.exists_seg (g := { g with fails := g.fails + 1, port := none })
    (List.mem_map.2 ⟨g, List.mem_of_find?_eq_some hf, if_pos rfl⟩)

end

/-! ### Flush requests -/

/-- The partial record that a flush asks for. -/
def Lehr.asked_ (l : Lehr) : LPart :=
  { seq := l.segSeq, seg := segOf l.wp.toNat, n := l.writtenIn, port := none, at_ := 0, fails := 0, again := false }

theorem writtenIn_empty {l : Lehr} (h : l.wp.toNat % 1024 = 0) : l.writtenIn = 0 := by
  have hmin : ∀ (ws : List LWrite), ws.foldl (fun m w => min m (w.pos % 1024)) 0 = 0 := fun ws => by
    induction ws with
    | nil => rfl
    | cons w ws ih => rw [List.foldl_cons, Nat.zero_min]; exact ih
  unfold Lehr.writtenIn
  dsimp only
  rw [h]
  exact hmin _

theorem flushRequest_empty (h : s.lehr.wp.toNat % 1024 = 0) : exec .flushRequest s = .next s :=
  congrArg _ (if_pos (by rw [writtenIn_empty h]; rfl))

theorem flush_asks (hn : s.lehr.writtenIn ≠ 0) (hp : s.lehr.part = none) (hr : ∀ r ∈ s.lehr.records, r.seq ≠ s.lehr.segSeq) :
    s.flush = State.issuePart { s with lehr := { s.lehr with part := some s.lehr.asked_ } } := by
  have hno : ¬ ((decide (s.lehr.writtenIn = 0) || s.lehr.records.any fun r => r.seq == s.lehr.segSeq && r.entries.length == s.lehr.writtenIn) = true) := by
    have h2 : (s.lehr.records.any fun r => r.seq == s.lehr.segSeq && r.entries.length == s.lehr.writtenIn) = false :=
      List.any_eq_false.2 fun r hrm => by simp [hr r hrm]
    rw [h2]
    simpa using hn
  unfold State.flush
  dsimp only
  rw [if_neg hno, hp]
  rfl

theorem flushRequest_waits (hn : s.lehr.writtenIn ≠ 0) (hp : s.lehr.part = none) (hr : ∀ r ∈ s.lehr.records, r.seq ≠ s.lehr.segSeq)
    (hq : s.lehr.quiesced = true ∨ s.lehr.drstop = true) :
    exec .flushRequest s = .next { s with lehr := { s.lehr with part := some s.lehr.asked_ } } := by
  show Host.Outcome.next s.flush = _
  rw [flush_asks s hn hp hr]
  exact congrArg _ (if_pos (by rcases hq with h | h <;> simp [h]))

theorem flushRequest_issues (hn : s.lehr.writtenIn ≠ 0) (hp : s.lehr.part = none) (hr : ∀ r ∈ s.lehr.records, r.seq ≠ s.lehr.segSeq)
    {q : Nat × Nat} (hq : s.lehr.quiesced = false) (hd : s.lehr.drstop = false) (hplace : s.freePlaces.head? = some q) :
    exec .flushRequest s = .next (State.nvmeRecord { s with lehr := { s.lehr with
      part := some { s.lehr.asked_ with port := some q.1, at_ := q.2 } } } q) := by
  let u : State := { s with lehr := { s.lehr with part := some s.lehr.asked_ } }
  have hrec : ∀ p, u.lehr.freeRecord p = s.lehr.freeRecord p := fun p => by
    have hb : u.lehr.busyRecords p = s.lehr.busyRecords p := by
      unfold Lehr.busyRecords
      rw [hp]
      rfl
    unfold Lehr.freeRecord
    rw [hb]
  have hfree : u.freePlaces = s.freePlaces := by
    unfold State.freePlaces
    simp only [hrec]
    rfl
  have hnone : (if s.lehr.asked_.fails = 0 then u.lehr.records.find? fun r => r.seq == s.lehr.asked_.seq && r.partial_ && u.portUp r.port
      else none) = none := by
    rw [if_pos (show s.lehr.asked_.fails = 0 from rfl)]
    exact List.find?_eq_none.2 fun r hrm => by simp [show r.seq ≠ s.lehr.asked_.seq from hr r hrm]
  have hpl : u.recordPlace s.lehr.asked_.seq s.lehr.asked_.fails = some q := by
    unfold State.recordPlace
    rw [hnone, ← hplace, ← hfree]
  show Host.Outcome.next s.flush = _
  rw [flush_asks s hn hp hr]
  show Host.Outcome.next (State.issuePart u) = _
  unfold State.issuePart
  show Host.Outcome.next (if s.lehr.asked_.port.isSome || s.lehr.drstop || s.lehr.quiesced then u else
    match u.recordPlace s.lehr.asked_.seq s.lehr.asked_.fails with
    | some q => _
    | none => u) = _
  rw [if_neg (by rw [hd, hq]; simp [Lehr.asked_]), hpl]

theorem lehrFullTimeout_fails (hf : s.lehr.full = true) (ht : s.lehr.fullSince + 10000 ≤ s.aoTick.toNat) (hfail : s.lehr.failed = false)
    (hfence : s.lehr.fenced = false) : exec .lehrFullTimeout s =
      .next (({ s with lehr := { s.lehr with failed := true } }).report (lehrRecord s 4 s.lehr.wp.toNat)) :=
  congrArg _ (if_pos (by simp [hf, ht, hfail, hfence]))

/-! ### The checkpoint -/

/-- Neither the controller nor the storage ports differ. -/
def SameLehr (s t : State) : Prop := t.lehr = s.lehr ∧ t.sports = s.sports

theorem sameLehr_foldl {α : Type} {f : State → α → State} (hf : ∀ u a, SameLehr u (f u a)) (l : List α) (s : State) :
    SameLehr s (l.foldl f s) := by
  induction l generalizing s with
  | nil => exact ⟨rfl, rfl⟩
  | cons a l ih => exact ⟨(ih _).1.trans (hf s a).1, (ih _).2.trans (hf s a).2⟩

theorem forward_sameLehr : SameLehr s s.forward := by
  unfold State.forward
  dsimp only
  split
  · exact ⟨rfl, rfl⟩
  · rw [foldl_emit]
    exact ⟨rfl, rfl⟩

theorem wakeForInv_sameLehr (mask : BitVec 32) : SameLehr s (s.wakeForInv mask) :=
  sameLehr_foldl (fun u k => by
    split
    · exact ⟨rfl, rfl⟩
    · exact ⟨rfl, rfl⟩) _ s

theorem dropTlb_sameLehr (mask : BitVec 32) (f : TlbEntry → Bool) : SameLehr s (s.dropTlb mask f) := ⟨rfl, rfl⟩

theorem invPage_sameLehr (h : HedgeId) (va : Nat) : SameLehr s (s.invPage h va) := by
  unfold State.invPage State.fwInvalidate
  dsimp only
  generalize hw : ({ s with regs := _ } : State) = w
  obtain ⟨hl, hp⟩ := wakeForInv_sameLehr (w.dropTlb (BitVec.allOnes 32) (tlbOfPage h va)) (BitVec.allOnes 32)
  obtain ⟨hdl, hdp⟩ := dropTlb_sameLehr w (BitVec.allOnes 32) (tlbOfPage h va)
  refine ⟨(hl.trans hdl).trans ?_, (hp.trans hdp).trans ?_⟩
  · rw [← hw]
  · rw [← hw]

theorem cleanPage_sameLehr (h : HedgeId) (va : Nat) : SameLehr s (s.cleanPage h va) := by
  unfold State.cleanPage
  split
  next at_ p level _ =>
    dsimp only
    generalize hu : (State.hbmPut _ at_ 8 _) = u
    obtain ⟨hl, hp⟩ := invPage_sameLehr u h va
    refine ⟨hl.trans ?_, hp.trans ?_⟩
    · rw [← hu]; rfl
    · rw [← hu]; rfl
  · exact ⟨rfl, rfl⟩

/-- The superblocks of the ports `l`, each once, take C and S0. -/
theorem writeSupers_foldl (l : List Nat) (hl : l.Nodup) (s : State) :
    ∃ z o, l.foldl State.writeSuper s = { s with lehr := { s.lehr with supers := z }, out := o } ∧
      ∀ p, tget ZoneSuper.none z p = if p ∈ l then (tget ZoneSuper.none s.lehr.supers p).put (s.lehr.ckpt, s.lehr.s0)
        else tget ZoneSuper.none s.lehr.supers p := by
  induction l generalizing s with
  | nil => exact ⟨s.lehr.supers, s.out, rfl, fun p => by simp⟩
  | cons a l ih =>
    obtain ⟨ha, hnd⟩ := List.nodup_cons.1 hl
    obtain ⟨z, o, hz, hget⟩ := ih hnd (s.writeSuper a)
    refine ⟨z, o, hz, fun p => ?_⟩
    rw [hget p]
    by_cases hp : p = a
    · subst hp
      rw [if_neg ha, if_pos List.mem_cons_self]
      exact tget_tset_same _ _ _ _
    · have hother : tget ZoneSuper.none (s.writeSuper a).lehr.supers p = tget ZoneSuper.none s.lehr.supers p := tget_tset_ne _ _ _ _ hp
      rw [hother]
      exact if_congr (by simp [hp]) rfl rfl

theorem writeSupers_rest : ∃ z o, s.writeSupers = { s with lehr := { s.lehr with supers := z }, out := o } ∧
    ∀ p, p < 16 → (tget (false, 0, 0) s.lehr.zones p).1 = true → s.portUp p = true →
      tget ZoneSuper.none z p = (tget ZoneSuper.none s.lehr.supers p).put (s.lehr.ckpt, s.lehr.s0) := by
  obtain ⟨z, o, hz, hget⟩ := writeSupers_foldl ((List.range 16).filter fun p => (tget (false, 0, 0) s.lehr.zones p).1 && s.portUp p)
    (List.nodup_range.filter _) s
  refine ⟨z, o, hz, fun p hp hzone hup => ?_⟩
  rw [hget p, if_pos (List.mem_filter.2 ⟨List.mem_range.2 hp, Bool.and_eq_true_iff.2 ⟨hzone, hup⟩⟩)]

theorem foldl_everyHedge_lehr (l : List Word64) (s : State) :
    (l.foldl (fun t top => t.everyHedge (mediaEvent top 0 4 0)) s).lehr = s.lehr := by
  have hone : ∀ (u : State) (v : Ev), (u.everyHedge v).lehr = u.lehr := fun u v => by
    refine (sameLehr_foldl (fun w h => ?_) _ u).1
    obtain ⟨q, o, he⟩ := hedgeEvent_rest w h v
    rw [he]
    exact ⟨rfl, rfl⟩
  induction l generalizing s with
  | nil => rfl
  | cons a l ih => exact (ih _).trans (hone s _)

/-- The controller at a checkpoint `g`. -/
def Lehr.checkpointed (l : Lehr) (g : Word64) : Lehr :=
  { l with
    ckpt := g, s0 := l.segWith g, holes := l.holes.filter (fun t => decide (g.toNat < t.toNat))
    records := l.records.filter fun (r : ZoneRec) => decide (l.segWith g ≤ r.seq) }

/-- A checkpoint advance leaves the controller at its checkpoint, with the superblocks written, and issues what the drain then may. -/
theorem checkpointAdvance_lehr (g : Word64) (hs : s.lehr.asleep = false) (hc : s.lehr.ckpt.toNat ≤ g.toNat)
    (ha : g.toNat ≤ s.lehr.applied.toNat) (hj : s.lehr.journalled = true) (hclean : s.cleaningWaits s.dirtyPages = false)
    (he : ∀ v ∈ s.evicts, v.dirty = false) : Answers (.checkpointAdvance g) s fun t =>
      ∃ u v z, Issued u v ∧ t.lehr = v.lehr ∧ u.lehr = { s.lehr.checkpointed g with supers := z } ∧
        ∀ p, p < 16 → (tget (false, 0, 0) s.lehr.zones p).1 = true → s.portUp p = true →
          tget ZoneSuper.none z p = (tget ZoneSuper.none s.lehr.supers p).put (g, s.lehr.segWith g) := by
  have hforward := forward_sameLehr s
  have hpages := sameLehr_foldl (fun u p => cleanPage_sameLehr u p.1 p.2) s.dirtyPages s.forward
  let s1 := s.dirtyPages.foldl (fun t p => t.cleanPage p.1 p.2) s.forward
  have hl1 : s1.lehr = s.lehr := hpages.1.trans hforward.1
  have hp1 : s1.sports = s.sports := hpages.2.trans hforward.2
  obtain ⟨z, o, hz, hget⟩ := writeSupers_rest { s1 with lehr := s.lehr.checkpointed g }
  let u := ((s.lehr.holes.filter fun t => decide (t.toNat ≤ g.toNat)).foldl (fun t top => t.everyHedge (mediaEvent top 0 4 0))
    (State.writeSupers { s1 with lehr := s.lehr.checkpointed g }))
  have hu : u.lehr = { s.lehr.checkpointed g with supers := z } := by
    rw [foldl_everyHedge_lehr, hz]
  have hexec : exec (.checkpointAdvance g) s = .next
      (if (State.issueDrain 8 u).pleach.snapState = 2 ∧ (State.issueDrain 8 u).pleach.snapCut.toNat ≤ g.toNat then
        ((State.issueDrain 8 u).modPleach fun p => { p with snapState := 3 }).emit (.reached Config.serial (State.issueDrain 8 u).pleach.snapNum)
      else State.issueDrain 8 u) := by
    show execCheckpointAdvance g s = _
    unfold execCheckpointAdvance
    have hev : (s.evicts.any fun v => v.dirty) = false := List.any_eq_false.2 fun v hv => by simp [he v hv]
    dsimp only
    rw [if_pos (by simp [hs, hc, ha, hj, hclean, hev])]
    have hl1' : (s.dirtyPages.foldl (fun t p => t.cleanPage p.1 p.2) s.forward).lehr = s.lehr := hl1
    rw [hl1']
    rfl
  have hi := issueDrain_issued 8 u
  refine ⟨_, hexec, ?_⟩
  have hup : ∀ p, State.portUp { s1 with lehr := s.lehr.checkpointed g } p = s.portUp p := fun p => by
    unfold State.portUp
    rw [show ({ s1 with lehr := s.lehr.checkpointed g } : State).sports = s.sports from hp1]
  refine ⟨u, State.issueDrain 8 u, z, hi, ?_, hu, fun p hp hzone hpup => hget p hp hzone ((hup p).trans hpup)⟩
  split
  · rfl
  · rfl

theorem checkpointAdvance_done (g : Word64) (hs : s.lehr.asleep = false) (hc : s.lehr.ckpt.toNat ≤ g.toNat)
    (ha : g.toNat ≤ s.lehr.applied.toNat) (hj : s.lehr.journalled = true) (hclean : s.cleaningWaits s.dirtyPages = false)
    (he : ∀ v ∈ s.evicts, v.dirty = false) : Answers (.checkpointAdvance g) s fun t =>
      t.lehr.ckpt = g ∧ t.lehr.s0 = s.lehr.segWith g ∧
        (∀ p, p < 16 → (tget (false, 0, 0) s.lehr.zones p).1 = true → s.portUp p = true →
          tget ZoneSuper.none t.lehr.supers p = (tget ZoneSuper.none s.lehr.supers p).put (g, s.lehr.segWith g)) ∧
        (∀ r ∈ t.lehr.records, s.lehr.segWith g ≤ r.seq) ∧ (∀ x ∈ t.lehr.holes, g.toNat < x.toNat) ∧ t.lehr.gcsdur = s.lehr.gcsdur ∧
        t.lehr.ring = s.lehr.ring := by
  obtain ⟨t, ht, u, v, z, hi, htv, hu, hget⟩ := checkpointAdvance_lehr s g hs hc ha hj hclean he
  have hl : t.lehr = { s.lehr.checkpointed g with
      supers := z, segs := v.lehr.segs, part := v.lehr.part, nextPort := v.lehr.nextPort, zoneNext := v.lehr.zoneNext } := by
    rw [htv, hi.rest, hu]
  refine ⟨t, ht, ?_⟩
  beta_reduce
  rw [hl]
  refine ⟨rfl, rfl, hget, fun r hr => ?_, fun x hx => ?_, rfl, rfl⟩
  · exact of_decide_eq_true (List.mem_filter.1 hr).2
  · exact of_decide_eq_true (List.mem_filter.1 hx).2

end Sys2Proof.Machine

namespace Sys2Proof.Machine

/-- Settles O34. -/
theorem segmentsDrainAndCheckpointsAdvance : Obligations.SegmentsDrainAndCheckpointsAdvance := by
  unfold Obligations.SegmentsDrainAndCheckpointsAdvance
  intro s l
  refine ⟨fun g p hf hp hpart => drainWriteComplete_segment s hf hp hpart,
    fun x p hx hp => ⟨drainWriteComplete_part s hx hp, fun hf => ?_, fun hf hno => drainWriteFail_part_again s hx hp hf hno⟩,
    fun g hf hpart => ⟨fun hfails => ⟨_, exec_drainWriteFail s hf hpart, drainFailed_stops _ _ _ _ (by omega)⟩,
      fun hfails => drainWriteFail_again s hf hpart hfails⟩,
    ⟨flushRequest_empty s, fun hn hp hr => ⟨flushRequest_waits s hn hp hr, fun q hq hd hplace =>
      ⟨_, flushRequest_issues s hn hp hr hq hd hplace, rfl, rfl, rfl⟩⟩⟩,
    fun hf ht hfail hfence => ⟨_, lehrFullTimeout_fails s hf ht hfail hfence, rfl, _, rfl, rfl, rfl⟩,
    fun g hs hc ha hj hclean he => checkpointAdvance_done s g hs hc ha hj ?_ he⟩
  · obtain ⟨h1, h2, -⟩ := drainFailed_stops { s with lehr := { s.lehr with part := some { x with port := none, fails := x.fails + 1 } } } x.seg
      (x.fails + 1) p (by omega)
    exact ⟨_, exec_drainWriteFail_part s hx hp, h1, h2⟩
  · rcases hclean with h | h
    · rw [h]
      rfl
    · exact h

end Sys2Proof.Machine
end

section
/-! What a translation leaves unchanged (09 R283, R291 to R301): of an engine all but its D-TLB, of a cluster all but its L2 TLB and its
counts, of the device all but marks in leaves and what reads of HBM have met. -/

namespace Sys2Proof.Machine

/-- An engine differs in its D-TLB alone. -/
def Engine.TlbOnly (a b : Engine) : Prop := b = { a with dtlb := b.dtlb, dtlbPtr := b.dtlbPtr }

/-- A cluster differs in its L2 TLB and the counts of its lookups and walks alone. -/
def Clu.TlbOnly (a b : Clu) : Prop :=
  b = { a with l2 := b.l2, plru := b.plru, l2miss := b.l2miss, walkRst := b.walkRst, specFill := b.specFill, tlbpe := b.tlbpe }

/-- Of the state nothing differs but TLBs and their counts, leaves, and what reads of HBM have met. -/
structure Translated (s t : State) : Prop where
  rest : t = { s with
    engines := t.engines, clus := t.clus, hbm := t.hbm, poison := t.poison, hbmLatent := t.hbmLatent, frameErr := t.frameErr
    chanUe := t.chanUe, regs := t.regs, errq := t.errq, mediaMarks := t.mediaMarks, fns := t.fns, out := t.out, free := t.free }
  eng : ∀ e, (s.eng e).TlbOnly (t.eng e)
  clu : ∀ k, (s.clu k).TlbOnly (t.clu k)

theorem Engine.TlbOnly.trans {a b c : Engine} (h : a.TlbOnly b) (k : b.TlbOnly c) : a.TlbOnly c := by
  unfold Engine.TlbOnly at *
  rw [k, h]

theorem Clu.TlbOnly.trans {a b c : Clu} (h : a.TlbOnly b) (k : b.TlbOnly c) : a.TlbOnly c := by
  unfold Clu.TlbOnly at *
  rw [k, h]

namespace Translated

variable {s t u : State}

theorem refl (s : State) : Translated s s := ⟨rfl, fun _ => rfl, fun _ => rfl⟩

theorem trans (h : Translated s t) (k : Translated t u) : Translated s u where
  rest := by rw [k.rest, h.rest]
  eng e := (h.eng e).trans (k.eng e)
  clu c := (h.clu c).trans (k.clu c)

theorem foldl {α : Type} {f : State → α → State} (hf : ∀ u a, Translated u (f u a)) (l : List α) (s : State) : Translated s (l.foldl f s) := by
  induction l generalizing s with
  | nil => exact refl s
  | cons a l ih => exact (hf s a).trans (ih _)

theorem of_met (h : s.Met t) : Translated s t where
  rest := by rw [State.Met] at h; rw [h]
  eng e := by rw [h.eng]; rfl
  clu k := by rw [h.clu]; rfl

theorem of_hbmOnly (h : s.HbmOnly t) : Translated s t where
  rest := by rw [State.HbmOnly] at h; rw [h]
  eng e := by rw [h.eng]; rfl
  clu k := by rw [h.clu]; rfl

theorem modEng (s : State) (e : EngId) {f : Engine → Engine} (hf : ∀ g : Engine, g.TlbOnly (f g)) : Translated s (s.modEng e f) where
  rest := rfl
  eng i := by
    by_cases hi : i = e
    · subst hi
      rw [State.modEng, State.setEng_eng_same]
      exact hf _
    · rw [State.modEng, State.setEng_eng_ne s e _ i hi]
      rfl
  clu _ := rfl

theorem modClu (s : State) (k : CluId) {f : Clu → Clu} (hf : ∀ c : Clu, c.TlbOnly (f c)) : Translated s (s.modClu k f) where
  rest := rfl
  eng _ := rfl
  clu i := by
    by_cases hi : i = k
    · subst hi
      rw [State.modClu, State.setClu_clu_same]
      exact hf _
    · rw [State.modClu, State.setClu_clu_ne s k _ i hi]
      rfl

theorem slots (h : Translated s t) : t.slots = s.slots := by rw [h.rest]
theorem slot (h : Translated s t) (n : SlotId) : t.slot n = s.slot n := by rw [State.slot, h.slots]; rfl
theorem hedges (h : Translated s t) : t.hedges = s.hedges := by rw [h.rest]
theorem hedge (h : Translated s t) (i : HedgeId) : t.hedge i = s.hedge i := by rw [State.hedge, h.hedges]; rfl
theorem ctx (h : Translated s t) (e : EngId) (c : CtxId) : (t.eng e).ctx c = (s.eng e).ctx c := by
  rw [h.eng e]
  rfl

end Translated

theorem dtlb_translated (s : State) (e : EngId) (d : Engine → Tab TlbEntry) : Translated s (s.modEng e fun g => { g with dtlb := d g }) :=
  Translated.modEng s e fun _ => rfl

theorem report_translated (s : State) (r : ErrRec) : Translated s (s.report r) := ⟨rfl, fun _ => rfl, fun _ => rfl⟩

theorem dropParity_translated (s : State) (a : Access) (va : Nat) : Translated s (s.dropParity a va) := by
  have hcount := Translated.foldl (f := fun (t : State) (kv : Nat × TlbEntry) =>
    (t.modClu a.clu fun k => { k with tlbpe := satInc k.tlbpe }).report (tlbRecord t a.clu a.h kv.1))
    (fun u kv => (Translated.modClu u a.clu (f := fun k => { k with tlbpe := satInc k.tlbpe }) (fun _ => rfl)).trans (report_translated _ _))
  have hl2 : ∀ (u : State) (p : Bool), Translated u (if p then u else u.modClu a.clu fun k =>
      { k with l2 := tlbDrop k.l2 fun t => t.parity && t.hits a.h va }) := fun u p => by
    split
    · exact .refl u
    · exact Translated.modClu u a.clu fun _ => rfl
  have hend : ∀ u : State, Translated s u → Translated s (match a.eng with
      | some e => u.modEng e fun g => { g with dtlb := tlbDrop g.dtlb fun t => t.parity && t.hits a.h va }
      | none => u) := fun u hu => by
    split
    next e _ =>
      exact hu.trans (dtlb_translated u e _)
    next => exact hu
  unfold State.dropParity
  extract_lets f d ds ls s1 s2
  have h2 : Translated s s2 := (hcount (ds ++ ls) s).trans (hl2 s1 ls.isEmpty)
  by_cases hp : (ds.isEmpty && ls.isEmpty) = true
  · rw [if_pos hp]
    exact .refl s
  · rw [if_neg hp]
    exact hend s2 h2

theorem dtlbFill_tlbOnly (g : Engine) (t : TlbEntry) : g.TlbOnly (g.dtlbFill t) := rfl

theorem l2Fill_tlbOnly (k : Clu) (h : HedgeId) (va : Nat) (t : TlbEntry) : k.TlbOnly (k.l2Fill h va t) := rfl

theorem walkLeaf_translated (s : State) (a : Access) (va at_ : Nat) (p : Pte) (level : Nat) :
    Translated s (s.walkLeaf a va at_ p level).1 := by
  unfold State.walkLeaf
  split
  · exact .refl s
  · dsimp only
    have hput : Translated s (if p.marked a = p then s else s.hbmPut at_ 8 (p.marked a).toNat) := by
      split
      · exact .refl s
      · exact .of_hbmOnly (hbmWrite_hbmOnly s _ _ _)
    set u := if p.marked a = p then s else s.hbmPut at_ 8 (p.marked a).toNat
    have hmet := hput.trans (.of_met (meetRead_met u (u.ftAddr p.frame) 2))
    split
    · exact hmet
    · dsimp only
      split
      · exact hmet
      · refine hmet.trans ?_
        generalize u.meetRead (u.ftAddr p.frame) 2 = v
        split
        next e _ =>
          exact (Translated.modClu v a.clu fun k => l2Fill_tlbOnly k a.h va _).trans (Translated.modEng _ e fun g => dtlbFill_tlbOnly g _)
        next => exact Translated.modClu v a.clu fun k => l2Fill_tlbOnly k a.h va _

theorem transPage_translated (s : State) (a : Access) (va : Nat) : Translated s (s.transPage a va).1 := by
  have hp := dropParity_translated s a va
  unfold State.transPage
  dsimp only
  set u := s.dropParity a va
  split
  · rename_i e i _ _
    exact hp.trans (dtlb_translated u e fun g => tset TlbEntry.empty g.dtlb i
      { tget TlbEntry.empty (u.eng e).dtlb i with used := (tget TlbEntry.empty (u.eng e).dtlb i).used || !a.prefetch })
  · split
    · rename_i i _
      have hu := hp.trans (Translated.modClu u a.clu (f := fun k => k.l2Use i) fun _ => rfl)
      dsimp only
      split
      · split
        · exact hu
        · exact hu.trans (Translated.modEng _ _ fun g => dtlbFill_tlbOnly g _)
      · exact hu
    · set v := u.modClu a.clu fun k => { k with l2miss := satInc k.l2miss }
      have hv := hp.trans (Translated.modClu u a.clu (f := fun k => { k with l2miss := satInc k.l2miss }) fun _ => rfl)
      have hw := hv.trans (Translated.foldl (fun t x => .of_met (meetRead_met t x 8)) (v.walk a.h va).2 v)
      split
      · exact hw
      · exact hw.trans (report_translated _ _)
      · split
        · exact hw.trans (walkLeaf_translated _ _ _ _ _ _)
        · exact hw

theorem transParts_translated (a : Access) (ps : List Nat) (upto : Nat) (r : State × PageRes) :
    Translated r.1 (State.transParts a ps upto r).1 := by
  induction ps generalizing upto r with
  | nil => exact .refl _
  | cons p ps ih =>
    rw [State.transParts]
    split
    · exact ih _ _
    · exact (transPage_translated r.1 a p).trans (ih _ ((r.1.transPage a p).1, r.2.join (r.1.transPage a p).2))

theorem transRange_translated (s : State) (a : Access) (va n : Nat) : Translated s (s.transRange a va n).1 :=
  transParts_translated a _ 0 (s, .ok)

theorem entriesGone_translated (s : State) (a : Access) (va : Nat) : Translated s (s.entriesGone a va) := by
  unfold State.entriesGone
  extract_lets f s1
  have h1 : Translated s s1 := Translated.modClu s a.clu fun _ => rfl
  split
  next e _ => exact h1.trans (dtlb_translated s1 e _)
  next => exact h1

theorem entriesMarked_translated (s : State) (a : Access) (va : Nat) : Translated s (s.entriesMarked a va) := by
  unfold State.entriesMarked
  extract_lets f s1
  have h1 : Translated s s1 := Translated.modClu s a.clu fun _ => rfl
  split
  next e _ => exact h1.trans (dtlb_translated s1 e _)
  next => exact h1

theorem markLeaf_translated (s : State) (a : Access) (va pte : Nat) : Translated s (s.markLeaf a va pte).1 := by
  have hstale : Translated s (s.markStale a va) := (entriesGone_translated s a va).trans (Translated.modClu _ _ fun _ => rfl)
  unfold State.markLeaf
  split
  · exact (Translated.of_met (meetRead_met s pte 8)).trans (entriesGone_translated _ a va)
  · split
    · split
      · exact (Translated.of_hbmOnly (hbmWrite_hbmOnly s _ _ _)).trans (entriesMarked_translated _ a va)
      · exact hstale
    · exact hstale

theorem transMarked_translated (a : Access) (va n f : Nat) (s : State) : Translated s (State.transMarked a va n f s).1 := by
  induction f generalizing s with
  | zero => exact .refl s
  | succ f ih =>
    have h1 := transRange_translated s a va n
    unfold State.transMarked
    dsimp only
    split
    · split
      · exact (h1.trans (markLeaf_translated _ a _ _)).trans (ih _)
      · exact h1.trans (markLeaf_translated _ a _ _)
    · exact h1

end Sys2Proof.Machine
end

section
/-! O32: validation, admission and the draw of a commit (10 R330 to R334; 11 R355, R358, R361, R362). -/

namespace Sys2Proof.Machine

/-! ### The checks of an index entry -/

theorem EntryRes.state_ite (p : Prop) [Decidable p] (x y : EntryRes) (l : Tab Slot) (hx : x.state.slots = l) (hy : y.state.slots = l) :
    (if p then x else y).state.slots = l := by
  split
  · exact hx
  · exact hy

/-- The checks change no slot. -/
theorem indexEntry_slots (s : State) (e : EngId) (n : SlotId) (c : Ctx) (w : Nat) : (s.indexEntry e n c w).state.slots = s.slots := by
  unfold State.indexEntry
  dsimp only
  refine EntryRes.state_ite _ _ _ _ rfl (EntryRes.state_ite _ _ _ _ rfl (EntryRes.state_ite _ _ _ _ rfl (EntryRes.state_ite _ _ _ _ rfl ?_)))
  split
  · rfl
  · refine EntryRes.state_ite _ _ _ _ rfl (EntryRes.state_ite _ _ _ _ rfl ?_)
    generalize hacc : (Access.mk _ _ _ _ _ _ _) = acc
    have ht := (transMarked_translated acc (refAddr ((s.eng e).cell (w / 16))) (refLen ((s.eng e).cell (w / 16))) 64 s).slots
    split
    · exact ht
    · exact ht
    · exact EntryRes.state_ite _ _ _ _ ht ht

theorem indexEntry_slot {s u : State} {e : EngId} {n : SlotId} {c : Ctx} {w : Nat} {r : EntryRes} (h : s.indexEntry e n c w = r)
    (hu : r.state = u) : u.slot n = s.slot n := by
  rw [State.slot, ← hu, ← h, indexEntry_slots]
  rfl

/-- A cell that is not a well-formed shared REF, or an offset that is not an INT, fails with TAG. -/
theorem indexEntry_tag (s : State) (e : EngId) (n : SlotId) (c : Ctx) (w : Nat)
    (h : ¬(((s.eng e).cell (w / 16)).wellFormed = true ∧ ((s.eng e).cell (w / 16)).ty = tyREF ∧ ((s.eng e).cell (w / 16)).sub = 1 ∧
      ((s.eng e).cell (w / 16 + 1)).wellFormed = true ∧ ((s.eng e).cell (w / 16 + 1)).ty = tyINT)) :
    s.indexEntry e n c w = .fail s 0x06 := by
  unfold State.indexEntry
  dsimp only
  refine if_pos ?_
  by_contra hno
  refine h ?_
  simpa [and_assoc] using hno

/-! ### Validation -/

theorem Slot.ended_unwounded {sl : Slot} {st : Byte} (hw : sl.wound = false) (hf : sl.fate = none) (x : Word64) :
    (sl.ended st x).state = .ending ∧ (sl.ended st x).status = st := by
  refine ⟨?_, Slot.fateOf_of_fate hw (.inl hf)⟩
  show (if sl.diesWounded st && sl.retry != 0 then _ else _) = SlotState.ending
  exact if_neg (by simp [Slot.diesWounded, hw])

theorem endTxn_unwounded (s : State) {n : SlotId} (st : Byte) (he : (s.slot n).endable = true) (hw : (s.slot n).wound = false)
    (hf : (s.slot n).fate = none) : ((s.endTxn n st 0).slot n).state = .ending ∧ ((s.endTxn n st 0).slot n).status = st := by
  rw [endTxn_slot s he]
  exact Slot.ended_unwounded hw hf 0

section
variable (s : State) (e : EngId) (n : SlotId) (x : Ctx) (r : Word64) (w0 w f : Nat)

theorem validate_done : State.validate e n x r w0 w 0 s = s.setSlot n ((s.slot n).nowStaged r (w0 == w)) := rfl

theorem validate_fails {u : State} {st : Byte} (h : s.indexEntry e n x (w0 + 32 * (s.slot n).checked) = .fail u st) :
    State.validate e n x r w0 w (f + 1) s = u.endTxn n st 0 := by
  rw [State.validate, h]

theorem validate_faults {u : State} {va : Nat} (h : s.indexEntry e n x (w0 + 32 * (s.slot n).checked) = .fault u va) :
    (State.validate e n x r w0 w (f + 1) s).slot n = { s.slot n with pageWait := some va, cluster := cluOf e } := by
  rw [State.validate, h, ← indexEntry_slot h rfl]
  exact State.setSlot_slot_same _ _ _

theorem validate_waits {u : State} {ds : List Delta} {len : Nat} (h : s.indexEntry e n x (w0 + 32 * (s.slot n).checked) = .ok u ds len)
    (hfree : (u.clu (cluOf e)).stgFree.toNat < entryBlocks len) :
    (State.validate e n x r w0 w (f + 1) s).slot n = { s.slot n with stgWait := true, cluster := cluOf e } := by
  rw [State.validate, h]
  dsimp only
  rw [if_pos hfree, ← indexEntry_slot h rfl]
  exact State.setSlot_slot_same _ _ _

theorem validate_last {u : State} {ds : List Delta} {len : Nat} (h : s.indexEntry e n x (w0 + 32 * (s.slot n).checked) = .ok u ds len)
    (hfree : entryBlocks len ≤ (u.clu (cluOf e)).stgFree.toNat) : State.validate e n x r w0 w 1 s =
      (u.stageEntry n (cluOf e) ds len).setSlot n (((u.stageEntry n (cluOf e) ds len).slot n).nowStaged r (w0 == w)) := by
  rw [State.validate, h]
  dsimp only
  rw [if_neg (by omega)]
  rfl

theorem stageEntry_slot (k : CluId) (ds : List Delta) (len : Nat) : (s.stageEntry n k ds len).slot n = { s.slot n with
    checked := (s.slot n).checked + 1, total := (s.slot n).total + len, deltas := (s.slot n).deltas ++ ds
    blocks := (s.slot n).blocks + entryBlocks len, stgWait := false, cluster := k } := State.setSlot_slot_same _ _ _

theorem stageEntry_stgFree (k : CluId) (ds : List Delta) (len : Nat) :
    ((s.stageEntry n k ds len).clu k).stgFree = (s.clu k).stgFree - BitVec.ofNat 11 (entryBlocks len) := by
  have hclu : (s.stageEntry n k ds len).clu k = { s.clu k with stgFree := (s.clu k).stgFree - BitVec.ofNat 11 (entryBlocks len) } :=
    State.setClu_clu_same s k _
  rw [hclu]

end

section
variable {s : State} {e : EngId} {c : CtxId} {r : Word64} {w0 w : Nat}

theorem exec_commitValidate (hw : ((s.eng e).ctx c).waitsFor (.commit r w0 w) .sent)
    (hv : (s.slot ((s.eng e).ctx c).slot).validating = true) (hs : (s.slot ((s.eng e).ctx c).slot).stgWait = false) :
    exec (.commitValidate e c) s = .next (s.validateIndex e ((s.eng e).ctx c).slot ((s.eng e).ctx c) r w0 w) := by
  obtain ⟨hstate, -, why, hwait⟩ := hw
  show execCommitValidate e c s = _
  unfold execCommitValidate
  have hreq : ((s.eng e).ctx c).request? = some ⟨why, .commit r w0 w, .sent, none⟩ := by rw [Ctx.request?, hwait]; rfl
  dsimp only
  rw [hreq]
  exact congrArg _ (if_pos (by simp [hv, hs, hstate]))

/-- The one slot of the device whose validation waits for blocks tries again. -/
theorem exec_stagingBlocksFree {n : SlotId} (hw : ((s.eng e).ctx c).waitsFor (.commit r w0 w) .sent) (hv : (s.slot n).validating = true)
    (hs : (s.slot n).stgWait = true) (hc : (s.slot n).cluster = cluOf e) (hh : s.holder n = some (e, c)) (hone : s.slots = [(n.val, s.slot n)]) :
    exec (.stagingBlocksFree (cluOf e)) s = .next (s.validateIndex e n ((s.eng e).ctx c) r w0 w) := by
  obtain ⟨-, -, why, hwait⟩ := hw
  have hreq : ((s.eng e).ctx c).request? = some ⟨why, .commit r w0 w, .sent, none⟩ := by rw [Ctx.request?, hwait]; rfl
  have hsealing : (s.slot n).state = .sealing := by
    simp only [Slot.validating, Bool.and_eq_true, beq_iff_eq] at hv
    exact hv.1.1
  have hbusy : s.busySlots = [n] := by
    unfold State.busySlots
    rw [hone, List.filterMap_cons, dif_pos n.isLt, if_neg (by rw [hsealing]; decide)]
    rfl
  have hfind : ((s.busySlots.filter fun n => (s.slot n).stgWait && (s.slot n).cluster == cluOf e && (s.slot n).validating).find? fun m =>
      (s.busySlots.filter fun n => (s.slot n).stgWait && (s.slot n).cluster == cluOf e && (s.slot n).validating).all fun k =>
        k == m || s.older m k) = some n := by
    rw [hbusy, List.filter_cons_of_pos (by simp [hs, hc, hv])]
    simp
  show execStagingBlocksFree (cluOf e) s = _
  unfold execStagingBlocksFree
  dsimp only
  rw [hfind]
  dsimp only
  rw [hh]
  dsimp only
  rw [hreq]

end

/-! ### Step 5 -/

section
variable (s : State) (n : SlotId)

/-- The commit stands at step 5: neither wounded nor marked. -/
theorem exec_commitAdmission (hs : (s.slot n).state = .sealing) (hst : (s.slot n).staged = true) : exec (.commitAdmission n) s = .next
    (if (s.slot n).wound then s.endTxn n 0x02 0
    else if (s.slot n).mediaMark then s.endTxn n 0x04 0
    else if (s.slot n).deltas.isEmpty then (if s.lehr.fenced || s.lehr.failed then s else s.readOnly n)
    else if s.lehr.held then s.waitAdmission n true
    else
      match s.admission n with
      | .yes => s.draw n
      | .throttle => s.waitAdmission n false
      | .full => s.waitAdmission n true) := congrArg _ (if_neg (by simp [hs, hst]))

/-- A commit that is neither wounded nor marked and has deltas, while the sequencer draws. -/
theorem commitAdmission_live (hs : (s.slot n).state = .sealing) (hst : (s.slot n).staged = true) (hw : (s.slot n).wound = false)
    (hm : (s.slot n).mediaMark = false) (hd : (s.slot n).deltas ≠ []) (hh : s.lehr.held = false) : exec (.commitAdmission n) s = .next
      (match s.admission n with
      | .yes => s.draw n
      | .throttle => s.waitAdmission n false
      | .full => s.waitAdmission n true) := by
  rw [exec_commitAdmission s n hs hst, if_neg (by simp [hw]), if_neg (by simp [hm]), if_neg (by simpa using hd), if_neg (by simp [hh])]

/-! #### Waiting -/

/-- The state of a commit that waits under R362, before FULL is set. -/
theorem waitAdmission_full (hn : n ∉ s.lehr.waiting) : s.waitAdmission n true = State.settleFull
    (({ s with lehr := { s.lehr with waiting := s.lehr.waiting ++ [n] } } : State).setSlot n { s.slot n with waitSince := none }) := by
  unfold State.waitAdmission
  dsimp only
  rw [if_neg (show ¬s.lehr.waiting.contains n = true by simpa using hn)]
  rfl

theorem waitAdmission_full_slot (hs : (s.slot n).state = .sealing) (hn : n ∉ s.lehr.waiting) :
    (s.waitAdmission n true).lehr.waiting = s.lehr.waiting ++ [n] ∧ (s.waitAdmission n true).slot n = { s.slot n with waitSince := none } ∧
      (s.waitAdmission n true).lehr.drawn = s.lehr.drawn := by
  rw [waitAdmission_full s n hn]
  set u := ({ s with lehr := { s.lehr with waiting := s.lehr.waiting ++ [n] } } : State).setSlot n { s.slot n with waitSince := none } with hu
  have ht := settleFull_told u
  have hslot : u.slot n = { s.slot n with waitSince := none } := State.setSlot_slot_same _ _ _
  refine ⟨by rw [ht.lehr]; rfl, ?_, by rw [ht.lehr]; rfl⟩
  rw [ht.slot n (by rw [hslot, show ({ s.slot n with waitSince := none } : Slot).state = .sealing from hs]; decide), hslot]

theorem settleFull_full (h : s.overfull = true) : s.settleFull.lehr.full = true := by
  unfold State.settleFull
  rw [if_pos h]
  split
  next hf => exact hf
  next => rfl

/-- FULL stands while a commit that waits does not fit. -/
theorem waitAdmission_sets_full (hn : n ∉ s.lehr.waiting) (hfit : 8192 < s.lehr.fill + (s.slot n).entries) :
    (s.waitAdmission n true).lehr.full = true := by
  rw [waitAdmission_full s n hn]
  refine settleFull_full _ (List.any_eq_true.2 ⟨n, List.mem_append_right _ (List.mem_singleton_self n), ?_⟩)
  rw [State.setSlot_slot_same]
  exact Bool.and_eq_true_iff.2 ⟨rfl, decide_eq_true hfit⟩

theorem waitAdmission_throttle (hs : (s.slot n).state = .sealing) (hn : n ∉ s.lehr.waiting) :
    (s.waitAdmission n false).lehr.waiting = s.lehr.waiting ++ [n] ∧
      ((s.waitAdmission n false).slot n).waitSince = some ((s.slot n).waitSince.getD s.aoTick.toNat) ∧
      ((s.waitAdmission n false).hedge (s.slot n).hedge).waits =
        (if (s.slot n).throttled then (s.hedge (s.slot n).hedge).waits else satInc (s.hedge (s.slot n).hedge).waits) := by
  let s1 : State := { s with lehr := { s.lehr with waiting := s.lehr.waiting ++ [n] } }
  let s2 := s1.setSlot n { s.slot n with waitSince := some ((s.slot n).waitSince.getD s.aoTick.toNat), throttled := true }
  let s3 := if (s.slot n).throttled then s2 else s2.modHedge (s.slot n).hedge fun h => { h with waits := satInc h.waits }
  have hwait : s.waitAdmission n false = s3.settleFull := by
    unfold State.waitAdmission
    dsimp only
    rw [if_neg (show ¬s.lehr.waiting.contains n = true by simpa using hn)]
    rfl
  have h3slots : s3.slots = s2.slots := by
    show (if _ then _ else _ : State).slots = _
    split
    · rfl
    · rfl
  have h3lehr : s3.lehr = s1.lehr := by
    show (if _ then _ else _ : State).lehr = _
    split
    · rfl
    · rfl
  have h3slot : s3.slot n = { s.slot n with waitSince := some ((s.slot n).waitSince.getD s.aoTick.toNat), throttled := true } := by
    rw [State.slot, h3slots]
    exact State.setSlot_slot_same _ _ _
  have ht := settleFull_told s3
  rw [hwait]
  refine ⟨by rw [ht.lehr, h3lehr], ?_, ?_⟩
  · rw [ht.slot n (by rw [h3slot]; show (s.slot n).state ≠ _; rw [hs]; decide), h3slot]
  · rw [ht.hedge]
    by_cases hthr : (s.slot n).throttled = true
    · rw [if_pos hthr, show s3 = s2 from if_pos hthr]
      rfl
    · rw [if_neg hthr, show s3 = s2.modHedge (s.slot n).hedge fun h => { h with waits := satInc h.waits } from if_neg hthr,
        State.modHedge_hedge, if_pos rfl]
      rfl

/-! #### The draw -/

/-- The deltas of a commit as they join the controller's queue under GCS `g`. -/
def Slot.queued (sl : Slot) (n : SlotId) (g : Word64) : List QDelta :=
  sl.deltas.zipIdx.map fun d =>
    { slot := n, hedge := sl.hedge, gcs := g, addr := d.1.addr, bytes := d.1.bytes, last := d.2 == sl.deltas.length - 1 }

theorem queued_bytes (sl : Slot) (g : Word64) : (sl.queued n g).map (·.bytes) = sl.deltas.map (·.bytes) := by
  unfold Slot.queued
  rw [List.map_map]
  conv_rhs => rw [← List.zipIdx_map_fst 0 sl.deltas, List.map_map]
  rfl

/-- The slot of a drawn commit. -/
def Slot.sequenced (sl : Slot) (g : Word64) : Slot :=
  { sl with
    state := .sequenced, sealed := true, gcs := some g, waitSince := none, throttled := false, unpacked := sl.deltas.length, undurable := 0 }

/-- A hedge's occupancy and the window of its draws after a draw of `n` entries (11 R359, R361). -/
def Hedge.charged (g : Hedge) (n : Nat) (tick : Word64) : Hedge :=
  { g with used := g.used + BitVec.ofNat 14 n, windowAt := tick.toNat / 10, window := g.inWindow tick + 1 }

/-- A draw, before the watermarks and the notice of the quota. -/
def State.drawing (s : State) (n : SlotId) : State :=
  let sl := s.slot n
  let g := s.lehr.drawn + 1
  { (s.setSlot n (sl.sequenced g)).modHedge sl.hedge fun h => h.charged sl.entries s.aoTick with
    lehr := { s.lehr with
      drawn := g, reserved := s.lehr.reserved + sl.entries, queue := s.lehr.queue ++ sl.queued n g
      waiting := s.lehr.waiting.filter fun m => m != n } }

theorem draw_told : Told (s.drawing n) (s.draw n) := by
  have hnote : ∀ (u : State) (h : HedgeId) (b : Nat), Told u (u.quotaNotice h b) := fun u h b => (notify_told u h 2 _).ite (.refl u)
  exact (watermarks_told (s.drawing n)).trans (hnote _ _ _)

theorem draw_draws : let t := s.draw n
    (t.slot n).state = .sequenced ∧ (t.slot n).sealed = true ∧ (t.slot n).gcs = some (s.lehr.drawn + 1) ∧
      t.lehr.drawn = s.lehr.drawn + 1 ∧ t.lehr.reserved = s.lehr.reserved + (s.slot n).entries ∧
      (t.lehr.queue.drop s.lehr.queue.length).map (·.bytes) = (s.slot n).deltas.map (·.bytes) ∧
      t.lehr.queue.take s.lehr.queue.length = s.lehr.queue ∧
      (t.hedge (s.slot n).hedge).used = (s.hedge (s.slot n).hedge).used + BitVec.ofNat 14 (s.slot n).entries := by
  intro t
  have ht : Told (s.drawing n) t := draw_told s n
  have hslot : (s.drawing n).slot n = (s.slot n).sequenced (s.lehr.drawn + 1) :=
    State.setSlot_slot_same s n ((s.slot n).sequenced (s.lehr.drawn + 1))
  have hn : t.slot n = (s.slot n).sequenced (s.lehr.drawn + 1) := by
    rw [ht.slot n (by rw [hslot]; exact fun h => SlotState.noConfusion h), hslot]
  have hq : t.lehr.queue = s.lehr.queue ++ (s.slot n).queued n (s.lehr.drawn + 1) := by rw [ht.lehr]; rfl
  refine ⟨by rw [hn]; rfl, by rw [hn]; rfl, by rw [hn]; rfl, by rw [ht.lehr]; rfl, by rw [ht.lehr]; rfl, ?_, ?_, ?_⟩
  · rw [hq, List.drop_left, queued_bytes]
  · rw [hq, List.take_left]
  · rw [ht.hedge]
    have hh : (s.drawing n).hedge (s.slot n).hedge = (s.hedge (s.slot n).hedge).charged (s.slot n).entries s.aoTick :=
      State.setHedge_hedge_same (s.setSlot n ((s.slot n).sequenced (s.lehr.drawn + 1))) (s.slot n).hedge _
    rw [hh]
    rfl

/-! #### Admission -/

theorem admission_yes (ha : ∀ m ∈ s.lehr.waiting, m = n) (hfill : s.lehr.fill + (s.slot n).entries ≤ 8192)
    (hq : (s.hedge (s.slot n).hedge).used.toNat + (s.slot n).entries ≤ (s.hedge (s.slot n).hedge).quota.toNat)
    (hhigh : s.lehr.high = true → ((s.hedge (s.slot n).hedge).inWindow s.aoTick + 1) * 100 ≤ (s.hedge (s.slot n).hedge).ecommit.toNat) :
    s.admission n = .yes := by
  have hbefore : (s.lehr.waiting.takeWhile fun m => m != n) = [] := by
    cases hw : s.lehr.waiting with
    | nil => rfl
    | cons m l => rw [List.takeWhile_cons_of_neg (by simp [ha m (hw ▸ List.mem_cons_self)])]
  unfold State.admission
  dsimp only
  rw [hbefore, if_neg (by simpa using hfill), if_neg]
  simp only [List.any_nil, Bool.false_or, Bool.or_eq_true, Bool.and_eq_true, decide_eq_true_eq, not_or, not_and]
  exact ⟨by omega, fun hh => by have := hhigh hh; omega⟩

theorem admission_throttle (hw : s.lehr.waiting = []) (hfill : s.lehr.fill + (s.slot n).entries ≤ 8192)
    (hq : (s.hedge (s.slot n).hedge).quota.toNat < (s.hedge (s.slot n).hedge).used.toNat + (s.slot n).entries) : s.admission n = .throttle := by
  unfold State.admission
  dsimp only
  rw [hw, if_neg (by simpa using hfill), if_pos (by simp [hq])]

theorem admission_full (hfill : 8192 < s.lehr.fill + (s.slot n).entries) : s.admission n = .full := by
  unfold State.admission
  dsimp only
  rw [if_pos (by simp [hfill])]

/-! ### Refusals -/

theorem throttleTimeout_refuses {t0 : Nat} (ht0 : (s.slot n).waitSince = some t0) (hs : (s.slot n).state = .sealing)
    (ht : t0 + s.lehr.twait.toNat ≤ s.aoTick.toNat) : exec (.throttleTimeout n) s =
      .next ((s.endTxn n 0x0B 0).modHedge (s.slot n).hedge fun h => { h with thr := satInc h.thr }) := by
  show execThrottleTimeout n s = _
  unfold execThrottleTimeout
  dsimp only
  rw [ht0]
  exact congrArg _ (if_pos ⟨hs, ht⟩)

theorem endTxn_waiting (st : Byte) (he : (s.slot n).endable = true) : n ∉ (s.endTxn n st 0).lehr.waiting := by
  unfold State.endTxn
  dsimp only
  rw [if_pos he]
  show n ∉ s.lehr.waiting.filter fun m => m != n
  simp

theorem endTxn_mediaMarks (st : Byte) : (s.endTxn n st 0).mediaMarks = s.mediaMarks := by
  unfold State.endTxn
  dsimp only
  split
  · rfl
  · rfl

/-- The hedge of a transaction that is ended: its slot waits for no event (10 R344). -/
def Hedge.left (g : Hedge) (n : SlotId) : Hedge := { g.stir with waitList := g.waitList.filter fun w => w.slot != n }

theorem endTxn_thr (st : Byte) (he : (s.slot n).endable = true) (h : HedgeId) : ((s.endTxn n st 0).hedge h).thr = (s.hedge h).thr := by
  have hh : (s.endTxn n st 0).hedge h = (s.modHedge (s.slot n).hedge fun g => g.left n).hedge h := by
    unfold State.endTxn
    dsimp only
    rw [if_pos he]
    rfl
  rw [hh, State.modHedge_hedge]
  split
  next hi => rw [hi]; rfl
  next => rfl

/-- A mark that nothing on its way from the same stop, or to the same slot, goes ahead of is the next one. -/
theorem inTurn_split {α κ : Type} [DecidableEq κ] {key : α → κ} {p : α → Bool} {pre post : List α} {m : α} (hm : p m = true)
    (hpre : ∀ q ∈ pre, key q ≠ key m ∧ p q = false) : inTurn key p (pre ++ m :: post) = some m := by
  have hfind : (pre ++ m :: post).find? p = some m := by
    rw [List.find?_append, List.find?_eq_none.2 fun q hq => by simp [(hpre q hq).2], List.find?_cons_of_pos hm]
    rfl
  have htake : (pre ++ m :: post).takeWhile (fun x => !p x) = pre := by
    rw [List.takeWhile_append_of_pos fun q hq => by simp [(hpre q hq).2], List.takeWhile_cons_of_neg (by simp [hm]), List.append_nil]
  unfold inTurn
  rw [hfind]
  dsimp only
  rw [htake, if_neg]
  simpa using fun q hq => (hpre q hq).1

theorem mediaMark_next {pre post : List (StopId × SlotId)} {st : StopId} (hm : s.mediaMarks = pre ++ (st, n) :: post)
    (hpre : ∀ q ∈ pre, q.1 ≠ st ∧ q.2 ≠ n) (hg : (s.slot n).gcs = none) (he : (s.slot n).endable = true) :
    exec (.mediaMark n) s = .next (if s.lehr.waiting.contains n then State.endTxn { s with mediaMarks := pre ++ post } n 0x04 0
      else ({ s with mediaMarks := pre ++ post } : State).setSlot n { s.slot n with mediaMark := true }) := by
  have hturn : inTurn (fun q => q.1) (fun (q : StopId × SlotId) => q.2 == n) s.mediaMarks = some (st, n) := by
    rw [hm]
    exact inTurn_split (by simp) fun q hq => ⟨(hpre q hq).1, by simpa using (hpre q hq).2⟩
  have herase : s.mediaMarks.erase (st, n) = pre ++ post := by
    rw [hm, List.erase_append_right _ fun hin => (hpre _ hin).1 rfl, List.erase_cons_head]
  show execMediaMark n s = _
  unfold execMediaMark
  dsimp only
  rw [hturn]
  dsimp only
  rw [herase, if_neg (by simp [hg, he])]
  rfl

end

end Sys2Proof.Machine

namespace Sys2Proof.Machine

/-- One command takes up the validation of the slot, whichever of the two it is. -/
theorem validation_taken_up {s : State} {n : SlotId} {e : EngId} {c : CtxId} {i : Instr} {r : Word64} {w0 w : Nat}
    (hw : ((s.eng e).ctx c).waitsFor (.commit r w0 w) .sent) (hn : ((s.eng e).ctx c).slot = n) (hv : (s.slot n).validating = true)
    (hi : i = .commitValidate e c ∧ (s.slot n).stgWait = false ∨ i = .stagingBlocksFree (cluOf e) ∧ (s.slot n).stgWait = true ∧
      (s.slot n).cluster = cluOf e ∧ s.holder n = some (e, c) ∧ s.slots = [(n.val, s.slot n)]) :
    exec i s = .next (s.validateIndex e n ((s.eng e).ctx c) r w0 w) := by
  rcases hi with ⟨rfl, hs⟩ | ⟨rfl, hs, hc, hh, hone⟩
  · subst hn
    exact exec_commitValidate hw hv hs
  · exact exec_stagingBlocksFree hw hv hs hc hh hone

/-- Settles O32. -/
theorem commitsValidateAndDraw : Obligations.CommitsValidateAndDraw := by
  unfold Obligations.CommitsValidateAndDraw
  intro s n e c x sl
  refine ⟨fun i r w0 w hw hn hv hi => ?_, fun hs hst => ?_, fun t0 ht0 hs ht he hwound hf => ?_, fun pre st post hm hpre hg he => ?_⟩
  · have hexec := validation_taken_up hw hn hv hi
    intro left at_ k ends
    refine ⟨fun hempty => ?_, fun hleft => ?_⟩
    · refine ⟨_, hexec, ?_⟩
      subst hempty
      rw [State.validateIndex, show (w0 - w0) / 32 - (s.slot n).checked = 0 by rw [Nat.sub_self]; simp, validate_done, State.setSlot_slot_same]
      simp [Slot.nowStaged, entryCount, sl]
    · obtain ⟨f, hf⟩ : ∃ f, (w - w0) / 32 - (s.slot n).checked = f + 1 := ⟨_, (Nat.sub_add_cancel hleft).symm⟩
      have hne : (w0 == w) = false := by
        refine beq_false_of_ne fun h => ?_
        rw [h, Nat.sub_self] at hf
        omega
      rw [State.validateIndex, hf] at hexec
      have hends : ∀ u st, s.indexEntry e n x at_ = .fail u st → ends st := fun u st hfail he hwound hfate => by
        rw [validate_fails s e n x r w0 w f hfail] at hexec
        have hu : u.slot n = sl := indexEntry_slot hfail rfl
        exact ⟨_, hexec, endTxn_unwounded u st (by rw [hu]; exact he) (by rw [hu]; exact hwound) (by rw [hu]; exact hfate)⟩
      refine ⟨fun a b ha hb hno => ?_, hends, fun u va hfault => ⟨_, hexec, validate_faults s e n x r w0 w f hfault⟩,
        fun u ds len hok => ⟨fun hfree => ⟨_, hexec, validate_waits s e n x r w0 w f hok hfree⟩, fun hone hfree hds => ?_⟩⟩
      · subst ha hb
        exact hends s 0x06 (indexEntry_tag s e n x at_ hno)
      · obtain rfl : f = 0 := by
          have : f + 1 = 1 := hf.symm.trans hone
          omega
        rw [validate_last s e n x r w0 w hok hfree] at hexec
        have hu : u.slot n = sl := indexEntry_slot hok rfl
        refine ⟨_, hexec, ?_⟩
        beta_reduce
        rw [State.setSlot_slot_same, stageEntry_slot, hu, hne]
        have hds' : (sl.deltas ++ ds).isEmpty = false := by simpa using hds
        refine ⟨?_, ?_, rfl, rfl, rfl, stageEntry_stgFree u n (cluOf e) ds len⟩
        · simp only [Slot.nowStaged, hds']
          rfl
        · simp only [Slot.nowStaged, hds']
          rfl
  · intro g alone
    have hexec := exec_commitAdmission s n hs hst
    refine ⟨fun he hwound hfate => ?_, fun he hwound hfate hmark => ?_, fun hwound hmark hd hfence hfail => ?_, fun hwound hmark hd =>
      ⟨fun hheld hnot => ?_, fun hheld => ⟨fun ha => ?_, fun hnot => ⟨fun ha => ?_, fun ha => ?_⟩⟩⟩⟩
    · rw [if_pos hwound] at hexec
      refine ⟨_, hexec, ?_⟩
      beta_reduce
      rw [endTxn_slot s he]
      show (s.slot n).fateOf 0x02 = 0x02
      rw [Slot.fateOf, hfate, hwound]
      rfl
    · rw [if_neg (by simp [show (s.slot n).wound = false from hwound]), if_pos hmark] at hexec
      exact ⟨_, hexec, endTxn_unwounded s _ he hwound hfate⟩
    · rw [hexec, if_neg (by simp [show (s.slot n).wound = false from hwound]), if_neg (by simp [show (s.slot n).mediaMark = false from hmark]),
        if_pos (by simp [show (s.slot n).deltas = [] from hd]), if_neg (by simp [hfence, hfail])]
      rfl
    · rw [if_neg (by simp [show (s.slot n).wound = false from hwound]), if_neg (by simp [show (s.slot n).mediaMark = false from hmark]),
        if_neg (by simpa using hd), if_pos hheld] at hexec
      exact ⟨_, hexec, waitAdmission_full_slot s n hs hnot⟩
    · have hyes : s.admission n = .yes := ha.elim id fun ⟨halone, hfill, hq, hhigh⟩ => admission_yes s n halone hfill hq hhigh
      exact ⟨_, (commitAdmission_live s n hs hst hwound hmark hd hheld).trans (by rw [hyes]), draw_draws s n⟩
    · have hthr : s.admission n = .throttle := ha.elim id fun ⟨hw, hfill, hq⟩ => admission_throttle s n hw hfill hq
      exact ⟨_, (commitAdmission_live s n hs hst hwound hmark hd hheld).trans (by rw [hthr]), waitAdmission_throttle s n hs hnot⟩
    · have hfull : s.admission n = .full := ha.elim id (admission_full s n)
      obtain ⟨hwait, hslot, -⟩ := waitAdmission_full_slot s n hs hnot
      exact ⟨_, (commitAdmission_live s n hs hst hwound hmark hd hheld).trans (by rw [hfull]), hwait, hslot,
        waitAdmission_sets_full s n hnot⟩
  · obtain ⟨hstate, hstatus⟩ := endTxn_unwounded s 0x0B he hwound hf
    refine ⟨_, throttleTimeout_refuses s n ht0 hs ht, hstate, hstatus, endTxn_waiting s n 0x0B he, ?_⟩
    rw [State.modHedge_hedge, if_pos rfl]
    show satInc _ = _
    rw [endTxn_thr s n 0x0B he]
  · have hexec := mediaMark_next s n hm hpre hg he
    refine ⟨fun hin hwound hf => ?_, fun hnot => ?_⟩
    · rw [if_pos (by simpa using hin)] at hexec
      obtain ⟨hstate, hstatus⟩ := endTxn_unwounded { s with mediaMarks := pre ++ post } 0x04 he hwound hf
      refine ⟨_, hexec, hstate, hstatus, ?_⟩
      exact endTxn_mediaMarks _ n 0x04
    · rw [hexec, if_neg (by simpa using hnot)]

end Sys2Proof.Machine
end

section
/-! O31: locks, wounds and releases (10 R319 to R329; 02 R50; 01 R21). -/

namespace Sys2Proof.Machine

/-! ### A lock request -/

theorem Ctx.setStage_waits {x : Ctx} {w : Wait} (h : x.wait = some w) (st : Stage) :
    (x.setStage st).wait = some { w with stage := st, why := w.whyAt st } := by
  unfold Ctx.setStage Ctx.modRequest
  rw [h]

theorem modCtx_onlyEngine (s : State) (e : EngId) (c : CtxId) (f : Ctx → Ctx) : OnlyEngine s (s.modCtx e c f) e :=
  ⟨rfl, fun i hi => State.setEng_eng_ne s e _ i hi⟩

theorem modCtx_ctx (s : State) (e : EngId) (c : CtxId) (f : Ctx → Ctx) : ((s.modCtx e c f).eng e).ctx c = f ((s.eng e).ctx c) := by
  rw [State.modCtx_eq, State.setEng_eng_same, Engine.setCtx_ctx_same]

/-- A change of a slot that leaves it in its state and at its context leaves its holder. -/
theorem holder_setSlot (s : State) (n : SlotId) (sl : Slot) (he : sl.eng = (s.slot n).eng) (hc : sl.ctx = (s.slot n).ctx)
    (hs : sl.state = (s.slot n).state) : (s.setSlot n sl).holder n = s.holder n := by
  unfold State.holder
  dsimp only
  rw [State.setSlot_slot_same, he, hc, hs]
  rfl

/-- The device once a request of `e`, `c` has left the queue to the lock units. -/
def State.unqueued (s : State) (e : EngId) (c : CtxId) : State := { s with lockq := s.lockq.filter fun q => q != (e, c) }

section
variable {s : State} {e : EngId} {c : CtxId} {q : Req} {ref : Cell} {excl : Bool} {a : Nat}

theorem exec_lockRequest (hw : ((s.eng e).ctx c).waitsFor q .lock) (hq : reqLock q = some (ref, excl)) (hb : s.lockBehind e c = false) :
    exec (.lockRequest e c) s = .next (match s.phys (s.slot ((s.eng e).ctx c).slot).hedge (refAddr ref) with
      | some a => (s.unqueued e c).lockRequest e c ((s.eng e).ctx c).slot (s.slot ((s.eng e).ctx c).slot).hedge ref excl (chanOf (a / 4096))
      | none => (s.unqueued e c).modCtx e c fun x => x.setStage (.pageFault (refAddr ref))) := by
  obtain ⟨-, hend, why, hwait⟩ := hw
  have hreq : ((s.eng e).ctx c).request? = some ⟨why, q, .lock, none⟩ := by rw [Ctx.request?, hwait]; rfl
  show execLockRequest e c s = _
  unfold execLockRequest
  dsimp only
  rw [hreq]
  dsimp only
  rw [if_neg (by simp [hb]), if_neg (by simp [hend]), hq]
  rfl

theorem exec_lockRequest_resident (hw : ((s.eng e).ctx c).waitsFor q .lock) (hq : reqLock q = some (ref, excl)) (hb : s.lockBehind e c = false)
    (hp : s.phys (s.slot ((s.eng e).ctx c).slot).hedge (refAddr ref) = some a) : exec (.lockRequest e c) s =
      .next ((s.unqueued e c).lockRequest e c ((s.eng e).ctx c).slot (s.slot ((s.eng e).ctx c).slot).hedge ref excl (chanOf (a / 4096))) := by
  rw [exec_lockRequest hw hq hb, hp]

/-- The request goes on to a stage. -/
theorem setStage_goes (u : State) (hu : (u.eng e).ctx c = (s.eng e).ctx c) (hw : ((s.eng e).ctx c).waitsFor q .lock) (st : Stage) :
    ∃ w, (((u.modCtx e c fun x => x.setStage st).eng e).ctx c).wait = some w ∧ w.req = q ∧ w.stage = st ∧ w.done = none := by
  obtain ⟨-, -, why, hwait⟩ := hw
  refine ⟨{ (⟨why, q, .lock, none⟩ : Wait) with stage := st, why := (⟨why, q, .lock, none⟩ : Wait).whyAt st }, ?_, rfl, rfl, rfl⟩
  rw [modCtx_ctx, Ctx.setStage_waits (by rw [hu, hwait])]

end

section
variable (s : State) (e : EngId) (c : CtxId) (n : SlotId) (h : HedgeId) (ref : Cell) (excl : Bool) (u : UnitId)

/-- The record's locks as the request finds them. -/
abbrev State.lockAt (s : State) (h : HedgeId) (ref : Cell) (u : UnitId) : LockRec := { s.lockRec (lockKey h (refAddr ref)) with unit := u }

variable {s n h ref excl u}

theorem lockRequest_held (hh : (s.lockAt h ref u).has n excl = true) :
    s.lockRequest e c n h ref excl u = s.modCtx e c fun x => x.setStage .data := if_pos hh

theorem lockRequest_failed (hh : (s.lockAt h ref u).has n excl = false) (hx : excl = true) (hg : 64 ≤ (s.slot n).grants.length) :
    s.lockRequest e c n h ref excl u = s.modCtx e c fun x => x.setStage (.failed 0x0B) :=
  (if_neg (by simp [hh])).trans (if_pos (by simp [hx, hg]))

/-- A request that the record does not grant at once, and that may have an entry more. -/
theorem lockRequest_asks (hh : (s.lockAt h ref u).has n excl = false) (hg : excl = true → (s.slot n).grants.length < 64) :
    s.lockRequest e c n h ref excl u =
      let r := s.lockAt h ref u
      let k := lockKey h (refAddr ref)
      let ahead := (r.waiters.any fun q => s.older q.1 n) || s.behindReader k n excl
      let next := if (r.conflict n excl).isEmpty && !ahead then r.grant n excl else { r with waiters := s.enqueue n excl r.waiters }
      if (s.hedge h).par.locks / 64 < s.unitEntries h u k + next.entries ∧ r.entries < next.entries then s.stopCtx e c 0x0B
      else if (r.conflict n excl).isEmpty && !ahead then (s.setLock k next).granted n h u ref excl
      else
        ({ s.setLock k next with wounds := s.wounds ++ ((r.conflict n excl).filter fun m => s.older n m).map fun m => (stopOf u, m) }).modCtx e c
          fun x => x.setStage .lockWait := by
  refine (if_neg (by simp [hh])).trans (if_neg ?_)
  cases excl with
  | false => simp
  | true => simpa using hg rfl

theorem lockRequest_granted (hh : (s.lockAt h ref u).has n excl = false) (hg : excl = true → (s.slot n).grants.length < 64)
    (hc : (s.lockAt h ref u).conflict n excl = []) (hw : ∀ w ∈ (s.lockAt h ref u).waiters, s.older w.1 n = false)
    (hr : s.behindReader (lockKey h (refAddr ref)) n excl = false)
    (hshare : (s.hedge h).par.locks / 64 < s.unitEntries h u (lockKey h (refAddr ref)) + ((s.lockAt h ref u).grant n excl).entries →
      ((s.lockAt h ref u).grant n excl).entries ≤ (s.lockAt h ref u).entries) :
    s.lockRequest e c n h ref excl u = (s.setLock (lockKey h (refAddr ref)) ((s.lockAt h ref u).grant n excl)).granted n h u ref excl := by
  have hno : ((s.lockAt h ref u).waiters.any fun q => s.older q.1 n) = false := List.any_eq_false.2 fun w hwm => by simp [hw w hwm]
  rw [lockRequest_asks e c hh hg]
  dsimp only
  rw [hc, hno, hr]
  simp only [List.isEmpty_nil, Bool.or_self, Bool.not_false, Bool.and_self, if_true]
  exact if_neg fun ⟨h1, h2⟩ => absurd (hshare h1) (by omega)

theorem lockRequest_waits (hh : (s.lockAt h ref u).has n excl = false) (hg : excl = true → (s.slot n).grants.length < 64)
    (hc : (s.lockAt h ref u).conflict n excl ≠ [])
    (hshare : s.unitEntries h u (lockKey h (refAddr ref)) +
      ({ s.lockAt h ref u with waiters := s.enqueue n excl (s.lockAt h ref u).waiters } : LockRec).entries ≤ (s.hedge h).par.locks / 64) :
    s.lockRequest e c n h ref excl u = ({ s.setLock (lockKey h (refAddr ref))
        { s.lockAt h ref u with waiters := s.enqueue n excl (s.lockAt h ref u).waiters } with
      wounds := s.wounds ++ (((s.lockAt h ref u).conflict n excl).filter fun m => s.older n m).map fun m => (stopOf u, m) }).modCtx e c
        fun x => x.setStage .lockWait := by
  have hne : ((s.lockAt h ref u).conflict n excl).isEmpty = false := by simpa using hc
  rw [lockRequest_asks e c hh hg]
  dsimp only
  rw [hne]
  simp only [Bool.false_and, Bool.false_eq_true, if_false]
  exact if_neg fun ⟨h1, _⟩ => absurd h1 (Nat.not_lt.2 hshare)

theorem enqueue_length (s : State) (n : SlotId) (excl : Bool) (l : List (SlotId × Bool)) : (s.enqueue n excl l).length = l.length + 1 := by
  induction l with
  | nil => rfl
  | cons q l ih =>
    rw [State.enqueue]
    split
    · rfl
    · rw [List.length_cons, ih, List.length_cons]

theorem enqueue_unqueued (s : State) (e : EngId) (c : CtxId) (n : SlotId) (excl : Bool) (l : List (SlotId × Bool)) :
    (s.unqueued e c).enqueue n excl l = s.enqueue n excl l := by
  induction l with
  | nil => rfl
  | cons q l ih =>
    rw [State.enqueue, State.enqueue, ih]
    rfl

/-- A waiter more is an entry more of a record that someone holds (10 R320). -/
theorem entries_enqueue (s : State) {r : LockRec} (n : SlotId) (excl : Bool) (hr : r.holders ≠ []) :
    ({ r with waiters := s.enqueue n excl r.waiters } : LockRec).entries = r.entries + 1 := by
  have hh : r.holders.isEmpty = false := by simpa using hr
  simp only [LockRec.entries, hh, Bool.false_and, Bool.false_eq_true, if_false, enqueue_length]
  omega

theorem lockRequest_refused (hh : (s.lockAt h ref u).has n excl = false) (hg : excl = true → (s.slot n).grants.length < 64)
    (hc : (s.lockAt h ref u).conflict n excl ≠ [])
    (hshare : (s.hedge h).par.locks / 64 < s.unitEntries h u (lockKey h (refAddr ref)) + (s.lockAt h ref u).entries + 1) :
    s.lockRequest e c n h ref excl u = s.stopCtx e c 0x0B := by
  have hne : ((s.lockAt h ref u).conflict n excl).isEmpty = false := by simpa using hc
  have hholders : (s.lockAt h ref u).holders ≠ [] := by
    intro hnil
    exact hc (by rw [LockRec.conflict, hnil]; rfl)
  have hmore := entries_enqueue s n excl hholders
  rw [lockRequest_asks e c hh hg]
  dsimp only
  rw [hne]
  simp only [Bool.false_and, Bool.false_eq_true, if_false]
  exact if_pos ⟨by rw [hmore]; omega, by rw [hmore]; omega⟩

/-! ### Grants -/

/-- A slot with a lock more: its unit in the mask, and the entry of an exclusive grant (10 R323). -/
def Slot.locked (sl : Slot) (u : UnitId) (g : Grant) (excl : Bool) : Slot :=
  { sl with
    mask := sl.mask ||| BitVec.ofNat 64 (2 ^ u.val)
    grants := if excl then (sl.grants.filter fun x => x.addr != g.addr) ++ [g] else sl.grants }

/-- The grant of a record's lock, with the poison that it finds. -/
def State.grantOf (s : State) (h : HedgeId) (ref : Cell) : Grant :=
  { addr := refAddr ref, len := refLen ref, poison := (s.readRecord h (refAddr ref) (refLen ref)).any (·.2), rld := none }

theorem granted_eq (hh : s.holder n = some (e, c)) : s.granted n h u ref excl =
    (s.setSlot n ((s.slot n).locked u (s.grantOf h ref) excl)).modCtx e c fun x => x.setStage .data := by
  have hkeep : (s.setSlot n ((s.slot n).locked u (s.grantOf h ref) excl)).holder n = some (e, c) := by
    rw [holder_setSlot s n ((s.slot n).locked u (s.grantOf h ref) excl) rfl rfl rfl, hh]
  unfold State.granted
  dsimp only
  rw [show (s.modSlot n fun sl => { sl with
      mask := sl.mask ||| BitVec.ofNat 64 (2 ^ u.val)
      grants := if excl then (sl.grants.filter fun x => x.addr != refAddr ref) ++
        [{ addr := refAddr ref, len := refLen ref, poison := (s.readRecord h (refAddr ref) (refLen ref)).any (·.2), rld := none }]
        else sl.grants }) = s.setSlot n ((s.slot n).locked u (s.grantOf h ref) excl) from rfl, hkeep]

theorem setLock_lockRec_same (s : State) (k : Nat) {r : LockRec} (hr : r.holders ≠ [] ∨ r.waiters ≠ []) : (s.setLock k r).lockRec k = r := by
  have hne : (r.holders.isEmpty && r.waiters.isEmpty) = false := by
    rcases hr with hr | hr <;> simp [hr]
  unfold State.setLock State.lockRec
  rw [tget_tset_same, hne]
  rfl

theorem setLock_lockRec_ne (s : State) {k j : Nat} (r : LockRec) (hj : j ≠ k) : (s.setLock k r).lockRec j = s.lockRec j :=
  tget_tset_ne _ _ _ _ hj

theorem grant_mem (r : LockRec) (n : SlotId) (excl : Bool) : (n, excl) ∈ (r.grant n excl).holders :=
  List.mem_append_right _ (List.mem_singleton_self _)

/-! ### A request that ends its transaction -/

theorem stopCtx_lock {q : Req} (hw : ((s.eng e).ctx c).waitsFor q .lock) {r : Cell × Bool} (hq : reqLock q = some r) (st : Byte) :
    s.stopCtx e c st = (s.freeCtx e c).endTxn ((s.eng e).ctx c).slot st 0 := by
  obtain ⟨hstate, -, why, hwait⟩ := hw
  have hreq : ((s.eng e).ctx c).request? = some ⟨why, q, .lock, none⟩ := by rw [Ctx.request?, hwait]; rfl
  have hmoving : (⟨why, q, .lock, none⟩ : Wait).moving = false := by
    cases q
    all_goals rfl
  unfold State.stopCtx
  dsimp only
  rw [hreq]
  dsimp only
  rw [if_neg (by rw [hstate]; decide), if_neg (by simp [hmoving])]

/-- A transaction whose context is freed ends. -/
theorem freed_ended (st : Byte) (x : Word64) (he : (s.slot n).endable = true) :
    ((s.freeCtx e c).endTxn n st x).slot n = (s.slot n).ended st x ∧ ((((s.freeCtx e c).endTxn n st x).eng e).ctx c).state = .free := by
  refine ⟨endTxn_slot (s.freeCtx e c) he, ?_⟩
  rw [endTxn_eng, freeCtx_ctx]
  rfl

end

/-! ### Releases -/

/-- Of the state nothing differs but the locks, and what of slots and contexts follows from grants. -/
structure Regranted (s t : State) : Prop where
  fns : t.fns = s.fns
  slot : ∀ n, t.slot n = { s.slot n with mask := (t.slot n).mask, grants := (t.slot n).grants }

namespace Regranted

variable {s t u : State}

theorem refl (s : State) : Regranted s s := ⟨rfl, fun _ => rfl⟩

theorem trans (h : Regranted s t) (k : Regranted t u) : Regranted s u where
  fns := k.fns.trans h.fns
  slot n := by rw [k.slot n, h.slot n]

theorem start (h : Regranted s t) (n : SlotId) : (t.slot n).start = (s.slot n).start := by rw [h.slot n]

theorem behindReader (h : Regranted s t) (k : Nat) (n : SlotId) (excl : Bool) : t.behindReader k n excl = s.behindReader k n excl := by
  unfold State.behindReader State.readers
  rw [h.fns, h.start]

end Regranted

theorem granted_regranted (s : State) (n : SlotId) (h : HedgeId) (u : UnitId) (ref : Cell) (excl : Bool) :
    Regranted s (s.granted n h u ref excl) ∧ (s.granted n h u ref excl).locks = s.locks := by
  have hslot : ∀ m, (s.setSlot n ((s.slot n).locked u (s.grantOf h ref) excl)).slot m =
      { s.slot m with
        mask := ((s.setSlot n ((s.slot n).locked u (s.grantOf h ref) excl)).slot m).mask
        grants := ((s.setSlot n ((s.slot n).locked u (s.grantOf h ref) excl)).slot m).grants } := fun m => by
    by_cases hm : m = n
    · subst hm
      rw [State.setSlot_slot_same]
      rfl
    · rw [State.setSlot_slot_ne _ _ _ _ hm]
  unfold State.granted
  dsimp only
  split
  · exact ⟨⟨rfl, hslot⟩, rfl⟩
  · exact ⟨⟨rfl, hslot⟩, rfl⟩

/-- A record without holders and waiters has no entry. -/
def LockRec.norm (r : LockRec) : LockRec := if r.holders.isEmpty && r.waiters.isEmpty then LockRec.empty else r

theorem setLock_lockRec (s : State) (k : Nat) (r : LockRec) (j : Nat) :
    (s.setLock k r).lockRec j = if j = k then r.norm else s.lockRec j := by
  split
  next hj => subst hj; exact tget_tset_same _ _ _ _
  next hj => exact setLock_lockRec_ne s r hj

theorem norm_holders (r : LockRec) {q : SlotId × Bool} (h : q ∈ r.norm.holders) : q ∈ r.holders := by
  unfold LockRec.norm at h
  split at h
  · simp at h
  · exact h

theorem norm_waiters (r : LockRec) {q : SlotId × Bool} (h : q ∈ r.norm.waiters) : q ∈ r.waiters := by
  unfold LockRec.norm at h
  split at h
  · simp at h
  · exact h

/-- Whoever is let in was waiting. -/
theorem letIn_mem (stays : SlotId × Bool → Bool) (f : Nat) (r : LockRec) (acc : List (SlotId × Bool)) :
    (∀ q ∈ (r.letIn stays f acc).2.holders, q ∈ r.holders ∨ q ∈ r.waiters) ∧ ∀ q ∈ (r.letIn stays f acc).2.waiters, q ∈ r.waiters := by
  induction f generalizing r acc with
  | zero => exact ⟨fun _ h => .inl h, fun _ h => h⟩
  | succ f ih =>
    rw [LockRec.letIn]
    split
    next => exact ⟨fun _ h => .inl h, fun _ h => h⟩
    next w ws hw =>
      split
      · obtain ⟨hh, hr⟩ := ih (r.grant w.1 w.2) (acc ++ [w])
        have hwait : ∀ q ∈ (r.grant w.1 w.2).waiters, q ∈ r.waiters := fun q hq => (List.mem_filter.1 hq).1
        refine ⟨fun q hq => ?_, fun q hq => hwait q (hr q hq)⟩
        rcases hh q hq with h | h
        · rcases List.mem_append.1 h with h | h
          · exact .inl (List.mem_filter.1 h).1
          · rw [List.mem_singleton.1 h]
            exact .inr (hw ▸ List.mem_cons_self)
        · exact .inr (hwait q h)
      · exact ⟨fun _ h => .inl h, fun _ h => h⟩

theorem regrant_regranted (s : State) (k : Nat) (r : LockRec) : Regranted s (s.regrant k r) ∧ ∀ j, (s.regrant k r).lockRec j =
    if j = k then (r.letIn (fun w => s.behindReader k w.1 w.2) r.waiters.length []).2.norm else s.lockRec j := by
  have hfold : ∀ (l : List (SlotId × Bool)) (h : HedgeId) (u : State),
      Regranted u (l.foldl (fun t w => match (t.slotRequest w.1).bind fun x => reqLock x.req with
        | some (c, x) => t.granted w.1 h r.unit c x
        | none => t) u) ∧ (l.foldl (fun t w => match (t.slotRequest w.1).bind fun x => reqLock x.req with
        | some (c, x) => t.granted w.1 h r.unit c x
        | none => t) u).locks = u.locks := fun l h u => by
    induction l generalizing u with
    | nil => exact ⟨.refl u, rfl⟩
    | cons w l ih =>
      rw [List.foldl_cons]
      split
      next ref x _ =>
        obtain ⟨h1, h2⟩ := granted_regranted u w.1 h r.unit ref x
        obtain ⟨h3, h4⟩ := ih (u.granted w.1 h r.unit ref x)
        exact ⟨h1.trans h3, h4.trans h2⟩
      next => exact ih u
  let q := r.letIn (fun w => s.behindReader k w.1 w.2) r.waiters.length []
  obtain ⟨hr, hl⟩ := hfold q.1 ⟨k / 2 ^ 48 % 64, Nat.mod_lt _ (by decide)⟩ (s.setLock k q.2)
  refine ⟨Regranted.trans (t := s.setLock k q.2) ⟨rfl, fun _ => rfl⟩ hr, fun j => ?_⟩
  have hj : (s.regrant k r).lockRec j = (s.setLock k q.2).lockRec j := congrArg (fun l => tget LockRec.empty l j) hl
  rw [hj, setLock_lockRec]

/-- A unit releases what the slot holds of one record in its share. -/
def State.releaseRec (n : SlotId) (u : UnitId) (t : State) (k : Nat) : State :=
  if (t.lockRec k).unit = u ∧ (t.lockRec k).holders.any (fun q => q.1 == n) then
    t.regrant k { t.lockRec k with holders := (t.lockRec k).holders.filter fun q => q.1 != n }
  else t

theorem releaseUnit_eq (s : State) (n : SlotId) (u : UnitId) : s.releaseUnit n u = (s.locks.map (·.1)).foldl (State.releaseRec n u) s := by
  rw [List.foldl_map]
  rfl

/-- The record after its release: who is let in was waiting. -/
def LockRec.released (r : LockRec) (n : SlotId) (stays : SlotId × Bool → Bool) : LockRec :=
  (LockRec.letIn stays r.waiters.length { r with holders := r.holders.filter fun q => q.1 != n } []).2.norm

section
variable {n : SlotId} {u : UnitId} {s : State} {k : Nat}

theorem releaseRec_regranted (n : SlotId) (u : UnitId) (s : State) (k : Nat) : Regranted s (s.releaseRec n u k) := by
  unfold State.releaseRec
  split
  · exact (regrant_regranted s k _).1
  · exact .refl s

theorem releaseRec_ne {j : Nat} (hj : j ≠ k ∨ (s.lockRec j).unit ≠ u) : (s.releaseRec n u k).lockRec j = s.lockRec j := by
  unfold State.releaseRec
  split
  next hk =>
    rw [(regrant_regranted s k _).2 j, if_neg]
    rintro rfl
    exact hj.elim (fun h => h rfl) (fun h => h hk.1)
  next => rfl

theorem releaseRec_same (hu : (s.lockRec k).unit = u) (hn : ∃ z, (n, z) ∈ (s.lockRec k).holders) :
    (s.releaseRec n u k).lockRec k = (s.lockRec k).released n fun w => s.behindReader k w.1 w.2 := by
  obtain ⟨z, hz⟩ := hn
  have hany : (s.lockRec k).holders.any (fun q => q.1 == n) = true := List.any_eq_true.2 ⟨_, hz, by simp⟩
  unfold State.releaseRec
  rw [if_pos ⟨hu, hany⟩, (regrant_regranted s k _).2 k, if_pos rfl]
  rfl

/-- Of a slot that waits for no lock nothing is left in the record. -/
theorem released_gone {r : LockRec} (stays : SlotId × Bool → Bool) (hw : ∀ z, (n, z) ∉ r.waiters) :
    (∀ z, (n, z) ∉ (r.released n stays).holders) ∧ ∀ z, (n, z) ∉ (r.released n stays).waiters := by
  obtain ⟨hh, hr⟩ := letIn_mem stays r.waiters.length { r with holders := r.holders.filter fun q => q.1 != n } []
  refine ⟨fun z hz => ?_, fun z hz => hw z (hr _ (norm_waiters _ hz))⟩
  rcases hh _ (norm_holders _ hz) with h | h
  · simp at h
  · exact hw z h

/-- The slot waits for no lock, and holds none of record `j` in the unit's share. -/
def State.clearOf (s : State) (n : SlotId) (u : UnitId) (j : Nat) : Prop := (s.lockRec j).unit = u → ∀ z, (n, z) ∉ (s.lockRec j).holders

theorem releaseRec_clear (hw : ∀ j z, (n, z) ∉ (s.lockRec j).waiters) : (∀ j z, (n, z) ∉ ((s.releaseRec n u k).lockRec j).waiters) ∧
    (∀ j, s.clearOf n u j → (s.releaseRec n u k).clearOf n u j) ∧ (s.releaseRec n u k).clearOf n u k := by
  by_cases hk : (s.lockRec k).unit = u ∧ ∃ z, (n, z) ∈ (s.lockRec k).holders
  · obtain ⟨hu, hn⟩ := hk
    have hsame := releaseRec_same hu hn
    obtain ⟨hh, hr⟩ := released_gone (fun w => s.behindReader k w.1 w.2) (hw k)
    have hclear : (s.releaseRec n u k).clearOf n u k := fun _ => by rw [hsame]; exact hh
    refine ⟨fun j => ?_, fun j hj => ?_, hclear⟩
    · by_cases hjk : j = k
      · rw [hjk, hsame]
        exact hr
      · rw [releaseRec_ne (.inl hjk)]
        exact hw j
    · by_cases hjk : j = k
      · rw [hjk]
        exact hclear
      · unfold State.clearOf
        rw [releaseRec_ne (.inl hjk)]
        exact hj
  · have hid : s.releaseRec n u k = s := by
      refine if_neg fun ⟨hu, hany⟩ => hk ⟨hu, ?_⟩
      obtain ⟨q, hq, hqn⟩ := List.any_eq_true.1 hany
      exact ⟨q.2, by rw [← show q.1 = n by simpa using hqn]; exact hq⟩
    rw [hid]
    exact ⟨hw, fun _ hj => hj, fun hu z hz => hk ⟨hu, z, hz⟩⟩

end

theorem releaseAll_regranted (n : SlotId) (u : UnitId) (ks : List Nat) (s : State) : Regranted s (ks.foldl (State.releaseRec n u) s) := by
  induction ks generalizing s with
  | nil => exact .refl s
  | cons k ks ih => exact (releaseRec_regranted n u s k).trans (ih _)

theorem releaseAll_clear {n : SlotId} {u : UnitId} (ks : List Nat) (s : State) (hw : ∀ j z, (n, z) ∉ (s.lockRec j).waiters) :
    ∀ j, s.clearOf n u j ∨ j ∈ ks → (ks.foldl (State.releaseRec n u) s).clearOf n u j := by
  induction ks generalizing s with
  | nil => exact fun j hj => hj.elim id fun h => absurd h List.not_mem_nil
  | cons k ks ih =>
    obtain ⟨hwait, hkeep, hk⟩ := releaseRec_clear (n := n) (u := u) (k := k) hw
    intro j hj
    refine ih _ hwait j ?_
    rcases hj with hj | hj
    · exact .inl (hkeep j hj)
    · rcases List.mem_cons.1 hj with rfl | hj
      · exact .inl hk
      · exact .inr hj

theorem releaseAll_other {n : SlotId} {u : UnitId} (ks : List Nat) (s : State) {j : Nat} (hj : (s.lockRec j).unit ≠ u) :
    (ks.foldl (State.releaseRec n u) s).lockRec j = s.lockRec j := by
  induction ks generalizing s with
  | nil => rfl
  | cons k ks ih =>
    have hone : (s.releaseRec n u k).lockRec j = s.lockRec j := releaseRec_ne (.inr hj)
    exact (ih _ (by rw [hone]; exact hj)).trans hone

/-- The only waiter is let in when the only holder goes. -/
theorem released_next {n w : SlotId} (u : UnitId) (y z : Bool) (stays : SlotId × Bool → Bool) (hs : stays (w, z) = false) :
    (⟨u, [(n, y)], [(w, z)]⟩ : LockRec).released n stays = ⟨u, [(w, z)], []⟩ := by
  have hfilter : ([(n, y)] : List (SlotId × Bool)).filter (fun q => q.1 != n) = [] := by simp
  have hconflict : (⟨u, [], [(w, z)]⟩ : LockRec).conflict w z = [] := rfl
  have hgrant : (⟨u, [], [(w, z)]⟩ : LockRec).grant w z = ⟨u, [(w, z)], []⟩ := by simp [LockRec.grant]
  unfold LockRec.released
  dsimp only
  rw [hfilter]
  show (LockRec.letIn stays 1 ⟨u, [], [(w, z)]⟩ []).2.norm = _
  rw [LockRec.letIn]
  dsimp only
  rw [hconflict, if_pos (by simp [hs]), hgrant]
  rfl

theorem releaseAll_next {n w : SlotId} {u : UnitId} {y z : Bool} (ks : List Nat) (s : State) {j : Nat} (hwn : w ≠ n)
    (hb : s.behindReader j w z = false) (hj : s.lockRec j = ⟨u, [(w, z)], []⟩ ∨ s.lockRec j = ⟨u, [(n, y)], [(w, z)]⟩ ∧ j ∈ ks) :
    (ks.foldl (State.releaseRec n u) s).lockRec j = ⟨u, [(w, z)], []⟩ := by
  induction ks generalizing s with
  | nil => exact hj.elim id fun h => absurd h.2 List.not_mem_nil
  | cons k ks ih =>
    refine ih (s.releaseRec n u k) (((releaseRec_regranted n u s k).behindReader j w z).trans hb) ?_
    by_cases hk : j = k
    · subst hk
      refine .inl ?_
      rcases hj with hj | ⟨hj, -⟩
      · have hid : s.releaseRec n u j = s := if_neg (by rw [hj]; simp [hwn])
        rw [hid, hj]
      · rw [releaseRec_same (by rw [hj]) ⟨y, by rw [hj]; exact List.mem_singleton_self _⟩, hj]
        exact released_next u y z _ hb
    · rw [releaseRec_ne (.inl hk)]
      exact hj.imp id fun ⟨h1, h2⟩ => ⟨h1, (List.mem_cons.1 h2).resolve_left hk⟩

/-- A record that anyone holds or waits for is listed. -/
theorem lockRec_listed {s : State} {j : Nat} (h : s.lockRec j ≠ LockRec.empty) : j ∈ s.locks.map (·.1) := by
  by_contra hno
  refine h ?_
  have hget : ∀ l : Tab LockRec, j ∉ l.map (·.1) → tget LockRec.empty l j = LockRec.empty := fun l => by
    induction l with
    | nil => exact fun _ => rfl
    | cons kv l ih =>
      intro hl
      rw [List.map_cons, List.mem_cons, not_or] at hl
      rw [tget, if_neg hl.1]
      exact ih hl.2
  exact hget s.locks hno

theorem exec_lockRelease (s : State) (m : SlotId) (v : UnitId) (hr : (s.slot m).releasing = true) (hb : bit (s.slot m).unitsLeft v.val = true) :
    exec (.lockRelease m v) s = .next ((s.releaseUnit m v).modSlot m fun sl =>
      { sl with unitsLeft := sl.unitsLeft &&& ~~~(BitVec.ofNat 64 (2 ^ v.val)) }) := congrArg _ (if_pos (by simp [hr, hb]))

theorem lockRelease_releases (s : State) (m : SlotId) (v : UnitId) (hr : (s.slot m).releasing = true)
    (hb : bit (s.slot m).unitsLeft v.val = true) (hw : ∀ j z, (m, z) ∉ (s.lockRec j).waiters) :
    Answers (.lockRelease m v) s fun t =>
      (t.slot m).unitsLeft = (s.slot m).unitsLeft &&& ~~~(BitVec.ofNat 64 (2 ^ v.val)) ∧
      (∀ j z, (t.lockRec j).unit = v → (m, z) ∉ (t.lockRec j).holders) ∧
      (∀ j, (s.lockRec j).unit ≠ v → t.lockRec j = s.lockRec j) ∧
      ∀ j w y z, s.lockRec j = ⟨v, [(m, y)], [(w, z)]⟩ → s.behindReader j w z = false → t.lockRec j = ⟨v, [(w, z)], []⟩ := by
  have hrec : ∀ j, ((s.releaseUnit m v).modSlot m fun sl =>
      { sl with unitsLeft := sl.unitsLeft &&& ~~~(BitVec.ofNat 64 (2 ^ v.val)) }).lockRec j =
      ((s.locks.map (·.1)).foldl (State.releaseRec m v) s).lockRec j := fun j => by
    rw [← releaseUnit_eq]
    rfl
  refine ⟨_, exec_lockRelease s m v hr hb, ?_, fun j z hj => ?_, fun j hj => ?_, fun j w y z hj hbehind => ?_⟩
  · have hslot := (releaseAll_regranted m v (s.locks.map (·.1)) s).slot m
    rw [← releaseUnit_eq] at hslot
    rw [State.modSlot_eq, State.setSlot_slot_same, hslot]
  · rw [hrec] at hj ⊢
    refine releaseAll_clear (s.locks.map (·.1)) s hw j ?_ hj z
    by_cases he : s.lockRec j = LockRec.empty
    · exact .inl fun _ z => by rw [he]; exact List.not_mem_nil
    · exact .inr (lockRec_listed he)
  · rw [hrec]
    exact releaseAll_other _ s hj
  · rw [hrec]
    have hwm : w ≠ m := by
      rintro rfl
      exact hw j z (by rw [hj]; exact List.mem_singleton_self _)
    exact releaseAll_next _ s hwm hbehind (.inr ⟨hj, lockRec_listed (by rw [hj]; simp [LockRec.empty])⟩)

/-! ### The completion, with every release confirmed -/

/-- The slot with its releases confirmed. -/
def Slot.confirmed (sl : Slot) : Slot := { sl with releasing := false, mask := 0, grants := [] }

theorem releaseConfirm_completes (s : State) (m : SlotId) (f : FnId) (hr : (s.slot m).releasing = true) (hu : (s.slot m).unitsLeft = 0)
    (hb : (s.slot m).blocks = 0) (hst : (s.slot m).stops = 0) (hwork : (s.slot m).work = .run) (hstate : (s.slot m).state ≠ .restarting)
    (hf : (s.hedge (s.slot m).hedge).fn = some f) (hp : (s.fn f).posting = true) : Answers (.releaseConfirm m) s fun t =>
      (t.fn f).waiting = (s.fn f).waiting ++ [{ s.slotCompl m with sqhead := (s.fn f).sqHead }] ∧
        t.slot m = (s.slot m).confirmed ∧ OtherFns s t f := by
  let s1 := s.setSlot m (s.slot m).confirmed
  have hslot : s1.slot m = (s.slot m).confirmed := State.setSlot_slot_same _ _ _
  have hcompl : s1.slotCompl m = s.slotCompl m := by
    unfold State.slotCompl
    rw [hslot]
    rfl
  have hexec : exec (.releaseConfirm m) s = .next (s1.formed f { s.slotCompl m with sqhead := (s.fn f).sqHead }) := by
    show execReleaseConfirm m s = _
    unfold execReleaseConfirm
    dsimp only
    rw [if_pos ⟨hr, hu, hb, hst⟩, hwork]
    have hdone : s1.completeSlot m = s1.formed f { s.slotCompl m with sqhead := (s.fn f).sqHead } := by
      unfold State.completeSlot
      dsimp only
      rw [hslot, show (s1.hedge (s.slot m).confirmed.hedge).fn = some f from hf]
      dsimp only
      rw [hcompl]
      rfl
    rw [← hdone]
    cases hcase : (s.slot m).state
    case restarting => exact absurd hcase hstate
    all_goals rfl
  obtain ⟨g, hg⟩ : ∃ g, s1.formed f { s.slotCompl m with sqhead := (s.fn f).sqHead } =
      ({ s1 with hedges := g } : State).modFn f fun q => { q with waiting := q.waiting ++ [{ s.slotCompl m with sqhead := (s.fn f).sqHead }] } := by
    unfold State.formed
    dsimp only
    rw [if_pos (show (s1.fn f).posting = true from hp)]
    split
    · exact ⟨_, rfl⟩
    · exact ⟨s1.hedges, rfl⟩
  refine ⟨_, hexec, ?_, ?_, fun i hi => ?_⟩
  · rw [hg]
    show (State.fn (State.setFn _ _ _) f).waiting = _
    rw [State.setFn_fn_same]
    rfl
  · rw [hg]
    exact hslot
  · rw [hg]
    exact State.setFn_fn_ne ({ s1 with hedges := g } : State) f _ i hi

/-! ### Wounds and end notices -/

theorem wound_next (s : State) (n : SlotId) {pre post : List (StopId × SlotId)} {st : StopId} (hm : s.wounds = pre ++ (st, n) :: post)
    (hpre : ∀ q ∈ pre, q.1 ≠ st ∧ q.2 ≠ n) : exec (.wound n) s = .next
      (if (s.slot n).sealed || (s.slot n).state == .idle then { s with wounds := pre ++ post }
      else { ({ s with wounds := pre ++ post } : State).setSlot n { s.slot n with wound := true } with
        endNotices := s.endNotices ++ [s.msgTo (s.slot n).eng n 0 (.ended n)] }) := by
  have hturn : inTurn (fun q => q.1) (fun (q : StopId × SlotId) => q.2 == n) s.wounds = some (st, n) := by
    rw [hm]
    exact inTurn_split (by simp) fun q hq => ⟨(hpre q hq).1, by simpa using (hpre q hq).2⟩
  have herase : s.wounds.erase (st, n) = pre ++ post := by
    rw [hm, List.erase_append_right _ fun hin => (hpre _ hin).1 rfl, List.erase_cons_head]
  show execWound n s = _
  unfold execWound
  dsimp only
  rw [hturn]
  dsimp only
  rw [herase]
  rfl

/-- The device once an end notice has arrived. -/
abbrev State.noticed (s : State) (l : List EngMsg) : State := { s with endNotices := l }

theorem endNotice_next (s : State) (n : SlotId) {pre post : List EngMsg} {m : EngMsg} (hm : s.endNotices = pre ++ m :: post)
    (hk : m.kind = .ended n) (hpre : ∀ x ∈ pre, cluOf x.eng ≠ cluOf m.eng ∧ msgSlot x.kind ≠ n) : exec (.endNotice n) s = .next
      (if (s.holder n).isSome then (s.noticed (pre ++ post)).message m else (s.noticed (pre ++ post)).endNow n) := by
  have hturn : inTurn (fun m => cluOf m.eng) (fun (m : EngMsg) => msgSlot m.kind == n) s.endNotices = some m := by
    rw [hm]
    exact inTurn_split (by rw [hk]; simp [msgSlot]) fun q hq => ⟨(hpre q hq).1, by simpa using (hpre q hq).2⟩
  have herase : s.endNotices.erase m = pre ++ post := by
    rw [hm, List.erase_append_right _ fun hin => (hpre _ hin).1 rfl, List.erase_cons_head]
  show execEndNotice n s = _
  unfold execEndNotice
  rw [hturn]
  dsimp only
  rw [herase]
  rfl

/-- What a wounded transaction becomes: it restarts while it has retries left. -/
theorem Slot.ended_wounded {sl : Slot} (hw : sl.wound = true) (hf : sl.fate = none) : (sl.ended 0x02 0).status = 0x02 ∧
    (sl.ended 0x02 0).state = (if sl.retry ≠ 0 then .restarting else .ending) ∧ (sl.ended 0x02 0).releasing = true := by
  have hfate : sl.fateOf 0x02 = 0x02 := by rw [Slot.fateOf, hf, hw]; rfl
  refine ⟨hfate, ?_, rfl⟩
  show (if sl.diesWounded 0x02 && sl.retry != 0 then _ else _) = _
  rw [Slot.diesWounded, hfate, hw]
  by_cases hr : sl.retry = 0 <;> simp [hr]

theorem endTxn_endNotices (s : State) (n : SlotId) (st : Byte) : (s.endTxn n st 0).endNotices = s.endNotices := by
  unfold State.endTxn
  dsimp only
  split
  · rfl
  · rfl

section
variable {s : State} {n : SlotId}

theorem endNow_unheld (hh : s.holder n = none) (hw : (s.slot n).wound = true) (he : (s.slot n).endable = true) :
    s.endNow n = s.endTxn n 0x02 0 := by
  unfold State.endNow
  dsimp only
  rw [if_pos (by simp [hw, he]), hh]

theorem endNow_held {e : EngId} {c : CtxId} (hh : s.holder n = some (e, c)) (hs : (s.slot n).state = .resident)
    (hw : (s.slot n).wound = true) (he : (s.slot n).endable = true) (hreq : ((s.eng e).ctx c).request? = none)
    (hbusy : ((s.eng e).ctx c).state ≠ .busy) (hq : ((s.eng e).ctx c).state ≠ .quarantined) (hn : ((s.eng e).ctx c).slot = n) :
    s.endNow n = (s.freeCtx e c).endTxn n 0x02 0 := by
  unfold State.endNow
  dsimp only
  rw [if_pos (by simp [hw, he]), hh]
  dsimp only
  rw [if_neg (by rw [hs]; decide)]
  unfold State.stopCtx
  dsimp only
  rw [hreq]
  dsimp only
  rw [if_neg hq, if_neg hbusy, hn]

/-- The context of a slot's holder is the slot's. -/
theorem holder_slot {e : EngId} {c : CtxId} (hh : s.holder n = some (e, c)) : ((s.eng e).ctx c).slot = n := by
  unfold State.holder at hh
  dsimp only at hh
  split at hh
  next h =>
    obtain ⟨rfl, rfl⟩ := Prod.mk.inj (Option.some.inj hh)
    exact h.2.2.2.2
  next => cases hh

theorem endNotice_unheld {pre post : List EngMsg} {m : EngMsg} (hm : s.endNotices = pre ++ m :: post)
    (hk : m.kind = .ended n) (hpre : ∀ x ∈ pre, cluOf x.eng ≠ cluOf m.eng ∧ msgSlot x.kind ≠ n) (hh : s.holder n = none)
    (hw : (s.slot n).wound = true) (he : (s.slot n).endable = true) :
    exec (.endNotice n) s = .next ((s.noticed (pre ++ post)).endTxn n 0x02 0) := by
  rw [endNotice_next s n hm hk hpre, if_neg (by simp [hh]), endNow_unheld (s := s.noticed (pre ++ post)) hh hw he]

theorem endNotice_held {pre post : List EngMsg} {m : EngMsg} {e : EngId} {c : CtxId} (hm : s.endNotices = pre ++ m :: post)
    (hk : m.kind = .ended n) (hpre : ∀ x ∈ pre, cluOf x.eng ≠ cluOf m.eng ∧ msgSlot x.kind ≠ n) (hh : s.holder n = some (e, c))
    (hwake : (s.clu (cluOf m.eng)).waking = false) (hp : (s.clu (cluOf m.eng)).pst = .c0) (hin : (s.eng m.eng).inbox = []) :
    exec (.endNotice n) s = .next (if s.accepts m then (s.noticed (pre ++ post)).deliver m else (s.noticed (pre ++ post)).bounce m) := by
  rw [endNotice_next s n hm hk hpre, if_pos (by simp [hh]), message_awake (s := s.noticed (pre ++ post)) hwake hp]
  by_cases ha : s.accepts m = true
  · rw [if_pos ha, inbound_accepted (s := s.noticed (pre ++ post)) hin ha]
  · rw [if_neg ha, inbound_refused (s := s.noticed (pre ++ post)) hin (Bool.eq_false_iff.2 ha)]

theorem deliver_ended {m : EngMsg} (hk : m.kind = .ended n) (hs : (s.slot n).start = m.start) (hi : (s.slot n).state ≠ .idle) :
    s.deliver m = s.endNow n := by
  unfold State.deliver
  dsimp only
  rw [hk]
  exact if_neg (by simp [msgSlot, hs, hi])

/-- A wounded slot as it is admitted again (10 R329). -/
def Slot.readmitted (sl : Slot) : Slot :=
  { sl with
    state := .admitted, retry := sl.retry - 1, wound := false, status := 0, xword := 0, detail := 0, mediaMark := false, grants := []
    mask := 0, image := none }

theorem woundRestart_admits (hs : (s.slot n).state = .restarting) (hr : (s.slot n).releasing = false) (hb : s.bounced = []) :
    exec (.woundRestart n) s =
      .next (((s.flushFor (s.slot n).hedge).setSlot n (s.slot n).readmitted).modHedge (s.slot n).hedge Hedge.stir) := by
  show execWoundRestart n s = _
  unfold execWoundRestart
  dsimp only
  rw [if_pos ⟨hs, by simp [hr]⟩, State.slowPath, if_pos (by simp [hb])]
  rfl

end

/-! ### The statement -/

/-- The state once a lock's next record stands and the grant is the slot's. -/
def State.lockTaken (s : State) (e : EngId) (c : CtxId) (n : SlotId) (h : HedgeId) (ref : Cell) (excl : Bool) (u : UnitId) (k : Nat)
    (r : LockRec) : State :=
  (((s.unqueued e c).setLock k r).setSlot n ((s.slot n).locked u (s.grantOf h ref) excl)).modCtx e c fun x => x.setStage .data

section
variable (s : State) (e : EngId) (c : CtxId) (n : SlotId) (h : HedgeId) (ref : Cell) (excl : Bool) (u : UnitId) (k : Nat) (r : LockRec)

theorem lockTaken_rest : s.lockTaken e c n h ref excl u k r = { s with
    locks := (s.lockTaken e c n h ref excl u k r).locks, slots := (s.lockTaken e c n h ref excl u k r).slots,
    engines := (s.lockTaken e c n h ref excl u k r).engines, lockq := (s.lockTaken e c n h ref excl u k r).lockq } := rfl

theorem lockTaken_slot : (s.lockTaken e c n h ref excl u k r).slot n = (s.slot n).locked u (s.grantOf h ref) excl :=
  State.setSlot_slot_same ((s.unqueued e c).setLock k r) n _

theorem lockTaken_lockRec_same (hr : r.holders ≠ []) : (s.lockTaken e c n h ref excl u k r).lockRec k = r :=
  setLock_lockRec_same (s.unqueued e c) k (.inl hr)

theorem lockTaken_lockRec_ne {j : Nat} (hj : j ≠ k) : (s.lockTaken e c n h ref excl u k r).lockRec j = s.lockRec j :=
  setLock_lockRec_ne (s.unqueued e c) r hj

theorem lockTaken_lockq : (e, c) ∉ (s.lockTaken e c n h ref excl u k r).lockq :=
  fun hin => by simpa using (List.mem_filter.1 hin).2

theorem setLock_granted (hh : s.holder n = some (e, c)) :
    ((s.unqueued e c).setLock k r).granted n h u ref excl = s.lockTaken e c n h ref excl u k r :=
  granted_eq (s := (s.unqueued e c).setLock k r) (ref := ref) (excl := excl) (u := u) (h := h) e c (n := n) hh

end

theorem lockRequest_statement (s : State) (e : EngId) (c : CtxId) (q : Req) (ref : Cell) (excl : Bool) (a : Nat) :
    let x := (s.eng e).ctx c
    let n := x.slot
    let h := (s.slot n).hedge
    let k := lockKey h (refAddr ref)
    let u := chanOf (a / 4096)
    let r := { s.lockRec k with unit := u }
    let others := s.unitEntries h u k
    let share := (s.hedge h).par.locks / 64
    let goes := fun (t : State) (st : Stage) => ∃ w, ((t.eng e).ctx c).wait = some w ∧ w.req = q ∧ w.stage = st ∧ w.done = none
    let only := fun (t : State) => OnlyEngine { s with lockq := t.lockq } t e
    x.waitsFor q .lock → reqLock q = some (ref, excl) → s.lockBehind e c = false →
      (s.phys h (refAddr ref) = none → Answers (.lockRequest e c) s fun t => goes t (.pageFault (refAddr ref)) ∧ t.locks = s.locks) ∧
      (s.phys h (refAddr ref) = some a → s.holder n = some (e, c) →
        (r.has n excl = true → Answers (.lockRequest e c) s fun t => goes t .data ∧ only t) ∧
        (r.has n excl = false → excl = true → 64 ≤ (s.slot n).grants.length →
          Answers (.lockRequest e c) s fun t => goes t (.failed 0x0B) ∧ only t) ∧
        (r.has n excl = false → (excl = true → (s.slot n).grants.length < 64) →
          let next := r.grant n excl
          r.conflict n excl = [] → (∀ w ∈ r.waiters, s.older w.1 n = false) → s.behindReader k n excl = false →
          (share < others + next.entries → next.entries ≤ r.entries) →
          Answers (.lockRequest e c) s fun t => goes t .data ∧ t.lockRec k = next ∧ (n, excl) ∈ (t.lockRec k).holders ∧ (e, c) ∉ t.lockq ∧
            (t.slot n).mask = (s.slot n).mask ||| BitVec.ofNat 64 (2 ^ u.val) ∧
            (excl = true → ∃ g, (t.slot n).grants.getLast? = some g ∧ g.addr = refAddr ref ∧ g.len = refLen ref ∧
              g.poison = (s.readRecord h (refAddr ref) (refLen ref)).any (·.2)) ∧
            (∀ j, j ≠ k → t.lockRec j = s.lockRec j) ∧ t = { s with locks := t.locks, slots := t.slots, engines := t.engines, lockq := t.lockq }) ∧
        (r.has n excl = false → (excl = true → (s.slot n).grants.length < 64) →
          let next := { r with waiters := s.enqueue n excl r.waiters }
          r.conflict n excl ≠ [] → others + next.entries ≤ share →
          Answers (.lockRequest e c) s fun t => goes t .lockWait ∧ t.lockRec k = next ∧
            t.wounds = s.wounds ++ ((r.conflict n excl).filter fun m => s.older n m).map (fun m => (stopOf u, m)) ∧
            (∀ j, j ≠ k → t.lockRec j = s.lockRec j)) ∧
        (r.has n excl = false → (excl = true → (s.slot n).grants.length < 64) → r.conflict n excl ≠ [] → (s.slot n).endable = true →
          (s.slot n).wound = false → (s.slot n).fate = none → share < others + r.entries + 1 →
          Answers (.lockRequest e c) s fun t => (t.slot n).state = .ending ∧ (t.slot n).status = 0x0B ∧ ((t.eng e).ctx c).state = .free)) := by
  intro x n h k u r others share goes only hw hq hb
  have hgoes : ∀ (v : State), (v.eng e).ctx c = (s.eng e).ctx c → ∀ st, goes (v.modCtx e c fun x => x.setStage st) st :=
    fun v hv st => setStage_goes v hv hw st
  refine ⟨fun hp => ⟨(s.unqueued e c).modCtx e c fun x => x.setStage (.pageFault (refAddr ref)), ?_, hgoes (s.unqueued e c) rfl _, rfl⟩,
    fun hp hh => ?_⟩
  · rw [exec_lockRequest hw hq hb, show s.phys (s.slot ((s.eng e).ctx c).slot).hedge (refAddr ref) = none from hp]
  have hexec := exec_lockRequest_resident hw hq hb hp
  have honly : ∀ st, only ((s.unqueued e c).modCtx e c fun x => x.setStage st) := fun st => modCtx_onlyEngine (s.unqueued e c) e c _
  refine ⟨fun hhas => ?_, fun hhas hx hg => ?_, fun hhas hg => ?_, fun hhas hg => ?_, fun hhas hg hc he hwound hfate hshare => ?_⟩
  · exact ⟨_, hexec.trans (congrArg _ (lockRequest_held (s := s.unqueued e c) e c hhas)), hgoes (s.unqueued e c) rfl _, honly _⟩
  · exact ⟨_, hexec.trans (congrArg _ (lockRequest_failed (s := s.unqueued e c) e c hhas hx hg)), hgoes (s.unqueued e c) rfl _, honly _⟩
  · intro next hc hold hr hshare
    have hreq := lockRequest_granted (s := s.unqueued e c) e c hhas hg hc hold hr hshare
    have hholders : next.holders ≠ [] := List.ne_nil_of_mem (grant_mem r n excl)
    have hsame := lockTaken_lockRec_same s e c n h ref excl u k next hholders
    have hslot := lockTaken_slot s e c n h ref excl u k next
    refine ⟨s.lockTaken e c n h ref excl u k next, hexec.trans (congrArg _ (hreq.trans (setLock_granted s e c n h ref excl u k next hh))),
      hgoes _ rfl _, hsame, ?_, lockTaken_lockq s e c n h ref excl u k next, ?_, fun hx => ?_, fun j hj => lockTaken_lockRec_ne s e c n h ref excl u k next hj,
      lockTaken_rest s e c n h ref excl u k next⟩
    · exact (congrArg (fun y : LockRec => (n, excl) ∈ y.holders) hsame).mpr (grant_mem r n excl)
    · rw [hslot]
      rfl
    · rw [hslot]
      refine ⟨s.grantOf h ref, ?_, rfl, rfl, rfl⟩
      rw [Slot.locked, if_pos hx, List.getLast?_append]
      rfl
  · intro next hc hshare
    have hne : next.holders ≠ [] := by
      intro hnil
      exact hc (by rw [LockRec.conflict, show r.holders = [] from hnil]; rfl)
    have henq := enqueue_unqueued s e c n excl r.waiters
    have hshare' : others + ({ r with waiters := (s.unqueued e c).enqueue n excl r.waiters } : LockRec).entries ≤ share := by
      rw [henq]
      exact hshare
    have hsame : ((s.unqueued e c).setLock k { r with waiters := (s.unqueued e c).enqueue n excl r.waiters }).lockRec k = next := by
      rw [henq]
      exact setLock_lockRec_same (s.unqueued e c) k (.inl hne)
    exact ⟨_, hexec.trans (congrArg _ (lockRequest_waits (s := s.unqueued e c) e c hhas hg hc hshare')), hgoes _ rfl _,
      hsame, rfl, fun j hj => setLock_lockRec_ne (s.unqueued e c) _ hj⟩
  · have hstop := stopCtx_lock (s := s.unqueued e c) e c hw hq 0x0B
    obtain ⟨hslot, hctx⟩ := freed_ended (s := s.unqueued e c) e c (n := n) 0x0B 0 he
    obtain ⟨hstate, hstatus⟩ := Slot.ended_unwounded (st := 0x0B) hwound hfate 0
    refine ⟨_, hexec.trans (congrArg _ ((lockRequest_refused (s := s.unqueued e c) e c hhas hg hc hshare).trans hstop)), (congrArg Slot.state hslot).trans hstate,
      (congrArg Slot.status hslot).trans hstatus, hctx⟩

end Sys2Proof.Machine

namespace Sys2Proof.Machine

/-- Settles O31. -/
theorem locksAreGrantedAndWound : Obligations.LocksAreGrantedAndWound := by
  unfold Obligations.LocksAreGrantedAndWound
  refine ⟨fun s e c q ref excl a => ⟨lockRequest_statement s e c q ref excl a, fun m v => lockRelease_releases s m v,
    fun m f => releaseConfirm_completes s m f⟩, fun s n => ?_⟩
  intro sl
  refine ⟨fun pre st post hm hpre => ⟨fun hvoid => ?_, fun hseal hidle => ?_⟩, fun pre m post hm hk hpre => ?_, fun hs hr hb => ?_⟩
  · rw [wound_next s n hm hpre]
    exact congrArg _ (if_pos (by simpa [sl] using hvoid))
  · refine ⟨_, (wound_next s n hm hpre).trans (congrArg _ (if_neg ?_)), State.setSlot_slot_same _ _ _, ⟨_, rfl, rfl, rfl, rfl, rfl⟩, rfl, rfl⟩
    simp [show (s.slot n).sealed = false from hseal, show (s.slot n).state ≠ .idle from hidle]
  · intro dies
    refine ⟨fun hh hw he hf => ?_, fun e c hh hwake hp hin => ⟨fun ha hstart hres hw he hf hreq hbusy hq => ?_, fun ha hroom => ?_⟩⟩
    · obtain ⟨h1, h2, h3⟩ := Slot.ended_wounded hw hf
      refine ⟨_, endNotice_unheld hm hk hpre hh hw he, ?_⟩
      have hslot := endTxn_slot (s.noticed (pre ++ post)) (st := 0x02) (x := 0) he
      exact ⟨by rw [hslot]; exact h1, by rw [hslot]; exact h2, by rw [hslot]; exact h3, endTxn_endNotices _ n _⟩
    · obtain ⟨h1, h2, h3⟩ := Slot.ended_wounded hw hf
      have hdeliver := (deliver_ended (s := s.noticed (pre ++ post)) hk hstart (fun h => SlotState.noConfusion (hres.symm.trans h))).trans
        (endNow_held (s := s.noticed (pre ++ post)) hh hres hw he hreq hbusy hq (holder_slot hh))
      obtain ⟨hslot, hctx⟩ := freed_ended (s := s.noticed (pre ++ post)) e c (n := n) 0x02 0 he
      refine ⟨_, (endNotice_held hm hk hpre hh hwake hp hin).trans (congrArg _ ((if_pos ha).trans hdeliver)), ?_, hctx⟩
      exact ⟨by rw [hslot]; exact h1, by rw [hslot]; exact h2, by rw [hslot]; exact h3, endTxn_endNotices _ n _⟩
    · refine ⟨_, (endNotice_held hm hk hpre hh hwake hp hin).trans
        (congrArg _ ((if_neg (by simp [ha])).trans (bounce_room (s := s.noticed (pre ++ post)) hroom))), rfl, ?_, rfl, rfl⟩
      show (State.eng (State.setEng _ _ _) m.eng).bounce = _
      rw [State.setEng_eng_same]
      rfl
  · exact ⟨_, woundRestart_admits hs hr hb, State.setSlot_slot_same (s.flushFor (s.slot n).hedge) n (s.slot n).readmitted, rfl⟩

end Sys2Proof.Machine
end

section
/-! O43: power states, floors and operating points (14 R455 to R464). -/

namespace Sys2Proof.Machine

/-! ### Operating points -/

/-- A cluster with its boost, its point and its request for another. -/
def Clu.pointed (c : Clu) (b : Bool) (p : BitVec 3) (u : Option (BitVec 3 × Nat)) : Clu := { c with boost := b, point := p, upTo := u }

/-- A cluster that takes its point changes in its boost, its point and its request. -/
theorem repoint_eq (s : State) (k : CluId) : ∃ p u, s.repoint k = s.setClu k ((s.clu k).pointed (s.boosts k) p u) := by
  unfold State.repoint
  dsimp only
  generalize (if s.boosts k = true then 4 else s.unboosted k) = p
  split
  · exact ⟨(s.clu k).point, (s.clu k).upTo, rfl⟩
  · split
    · exact ⟨_, none, rfl⟩
    · split
      · exact ⟨(s.clu k).point, _, rfl⟩
      · exact ⟨(s.clu k).point, none, rfl⟩

theorem repoint_clu (s : State) (k : CluId) : ∃ p u, (s.repoint k).clu k = (s.clu k).pointed (s.boosts k) p u := by
  obtain ⟨p, u, h⟩ := repoint_eq s k
  exact ⟨p, u, by rw [h, State.setClu_clu_same]⟩

theorem repoint_clu_ne (s : State) {k j : CluId} (hj : j ≠ k) : (s.repoint k).clu j = s.clu j := by
  obtain ⟨p, u, h⟩ := repoint_eq s k
  rw [h, State.setClu_clu_ne s k _ j hj]

theorem repoint_rest (s : State) (k : CluId) : s.repoint k = { s with clus := (s.repoint k).clus } := by
  obtain ⟨p, u, h⟩ := repoint_eq s k
  rw [h]
  rfl

/-! ### What a power state loses -/

theorem engOf_cluOf (e : EngId) : engOf (cluOf e) ⟨e.val % 8, Nat.mod_lt _ (by decide)⟩ = e := by
  apply Fin.ext
  show 8 * (e.val / 8) + e.val % 8 = e.val
  omega

theorem cluOf_engOf (k : CluId) (w : Fin 8) : cluOf (engOf k w) = k := by
  apply Fin.ext
  show (8 * k.val + w.val) / 8 = k.val
  omega

theorem engOf_inj (k : CluId) {w v : Fin 8} (h : engOf k w = engOf k v) : w = v := by
  have hv := congrArg Fin.val h
  apply Fin.ext
  change 8 * k.val + w.val = 8 * k.val + v.val at hv
  omega

theorem modCluEngines_foldl (k : CluId) (f : Engine → Engine) (l : List (Fin 8)) (hl : l.Nodup) (s : State) :
    ∃ q, l.foldl (fun t w => t.modEng (engOf k w) f) s = { s with engines := q } ∧
      ∀ e, State.eng { s with engines := q } e = if ∃ w ∈ l, engOf k w = e then f (s.eng e) else s.eng e := by
  induction l generalizing s with
  | nil => exact ⟨s.engines, rfl, fun e => by simp⟩
  | cons w l ih =>
    obtain ⟨hw, hl⟩ := List.nodup_cons.1 hl
    obtain ⟨q, hq, he⟩ := ih hl (s.modEng (engOf k w) f)
    refine ⟨q, hq, fun e => (he e).trans ?_⟩
    by_cases hwe : engOf k w = e
    · have hno : ¬∃ v ∈ l, engOf k v = e := fun ⟨v, hv, hve⟩ => hw (engOf_inj k (hwe.trans hve.symm) ▸ hv)
      rw [if_neg hno, if_pos ⟨w, List.mem_cons_self, hwe⟩, State.modEng_eq, hwe, State.setEng_eng_same]
    · rw [State.modEng_eq, State.setEng_eng_ne _ _ _ _ (Ne.symm hwe)]
      refine if_congr ⟨fun ⟨v, hv, hve⟩ => ⟨v, List.mem_cons_of_mem w hv, hve⟩, fun ⟨v, hv, hve⟩ => ?_⟩ rfl rfl
      rcases List.mem_cons.1 hv with rfl | hv
      · exact absurd hve hwe
      · exact ⟨v, hv, hve⟩

/-- A change of a cluster's engines. -/
theorem modCluEngines_eq (s : State) (k : CluId) (f : Engine → Engine) : ∃ q, s.modCluEngines k f = { s with engines := q } ∧
    ∀ e, State.eng { s with engines := q } e = if cluOf e = k then f (s.eng e) else s.eng e := by
  obtain ⟨q, hq, he⟩ := modCluEngines_foldl k f (List.finRange 8) (List.nodup_finRange 8) s
  refine ⟨q, hq, fun e => (he e).trans (if_congr ⟨?_, ?_⟩ rfl rfl)⟩
  · rintro ⟨w, -, rfl⟩
    exact cluOf_engOf k w
  · rintro rfl
    exact ⟨_, List.mem_finRange _, engOf_cluOf e⟩

/-- An engine after its cluster has left a power state. -/
def PState.lost (p : PState) (e : Engine) : Engine := match p with | .c3 => e.leaveC3 | .c4 => e.leaveC4 | _ => e

/-- A cluster after it has left its power state. -/
def Clu.lost (c : Clu) : Clu :=
  match c.pst with
  | .c3 => { c with l2 := [], plru := [] }
  | .c4 => { c with l2 := [], plru := [], code := [] }
  | _ => c

theorem leave_eq (s : State) (k : CluId) : ∃ q, s.leave k = ({ s with engines := q } : State).setClu k (s.clu k).lost ∨
      s.leave k = { s with engines := q } ∧ (s.clu k).lost = s.clu k := by
  unfold State.leave Clu.lost
  cases hp : (s.clu k).pst with
  | c3 =>
    obtain ⟨q, hq, -⟩ := modCluEngines_eq s k Engine.leaveC3
    exact ⟨q, .inl (by dsimp only; rw [hq, ← hp]; rfl)⟩
  | c4 =>
    obtain ⟨q, hq, -⟩ := modCluEngines_eq s k Engine.leaveC4
    exact ⟨q, .inl (by dsimp only; rw [hq, ← hp]; rfl)⟩
  | c0 => exact ⟨s.engines, .inr ⟨rfl, rfl⟩⟩
  | c1 => exact ⟨s.engines, .inr ⟨rfl, rfl⟩⟩
  | c2 => exact ⟨s.engines, .inr ⟨rfl, rfl⟩⟩

theorem leave_clu (s : State) (k : CluId) : (s.leave k).clu k = (s.clu k).lost := by
  obtain ⟨q, h | ⟨h, hl⟩⟩ := leave_eq s k
  · rw [h, State.setClu_clu_same]
  · rw [h, hl]
    rfl

theorem leave_clu_ne (s : State) {k j : CluId} (hj : j ≠ k) : (s.leave k).clu j = s.clu j := by
  obtain ⟨q, h | ⟨h, -⟩⟩ := leave_eq s k
  · rw [h]
    exact State.setClu_clu_ne { s with engines := q } k _ j hj
  · rw [h]
    rfl

theorem leave_rest (s : State) (k : CluId) : s.leave k = { s with clus := (s.leave k).clus, engines := (s.leave k).engines } := by
  obtain ⟨q, h | ⟨h, -⟩⟩ := leave_eq s k
  · rw [h]
    rfl
  · rw [h]

theorem leave_eng (s : State) (k : CluId) (e : EngId) :
    (s.leave k).eng e = if cluOf e = k then (s.clu k).pst.lost (s.eng e) else s.eng e := by
  unfold State.leave PState.lost
  cases hp : (s.clu k).pst with
  | c3 =>
    obtain ⟨q, hq, he⟩ := modCluEngines_eq s k Engine.leaveC3
    dsimp only
    rw [hq]
    exact he e
  | c4 =>
    obtain ⟨q, hq, he⟩ := modCluEngines_eq s k Engine.leaveC4
    dsimp only
    rw [hq]
    exact he e
  | c0 => exact (ite_self _).symm
  | c1 => exact (ite_self _).symm
  | c2 => exact (ite_self _).symm

/-! ### Waking -/

/-- A cluster that has come to C0, before it takes its point. -/
def Clu.woken (c : Clu) (tick : Nat) : Clu := { c.lost with pst := .c0, waking := false, held := [], since := tick }

theorem awake_eq (s : State) (k : CluId) (hh : (s.clu k).held = []) : s.awake k =
    ((s.leave k).setClu k ((s.clu k).woken s.aoTick.toNat)).repoint k := by
  unfold State.awake
  dsimp only
  rw [hh, List.foldl_nil, State.modClu_eq, leave_clu]
  rfl

theorem awake_clu (s : State) (k : CluId) (hh : (s.clu k).held = []) :
    ∃ b p u, (s.awake k).clu k = ((s.clu k).woken s.aoTick.toNat).pointed b p u := by
  rw [awake_eq s k hh]
  obtain ⟨p, u, h⟩ := repoint_clu ((s.leave k).setClu k ((s.clu k).woken s.aoTick.toNat)) k
  exact ⟨_, p, u, by rw [h, State.setClu_clu_same]⟩

/-! ### Floors -/

/-- The settings that PWR_CCTL holds. -/
structure Clu.SameSettings (a b : Clu) : Prop where
  floor : b.floor = a.floor
  target : b.target = a.target
  boosten : b.boosten = a.boosten
  t2 : b.t2 = a.t2
  t3 : b.t3 = a.t3

theorem Clu.SameSettings.refl (c : Clu) : c.SameSettings c := ⟨rfl, rfl, rfl, rfl, rfl⟩

theorem Clu.SameSettings.trans {a b c : Clu} (h : a.SameSettings b) (k : b.SameSettings c) : a.SameSettings c :=
  ⟨k.floor.trans h.floor, k.target.trans h.target, k.boosten.trans h.boosten, k.t2.trans h.t2, k.t3.trans h.t3⟩

theorem lost_sameSettings (c : Clu) : c.SameSettings c.lost := by
  unfold Clu.lost
  split
  all_goals exact ⟨rfl, rfl, rfl, rfl, rfl⟩

theorem pointed_sameSettings (c : Clu) (b : Bool) (p : BitVec 3) (u : Option (BitVec 3 × Nat)) : c.SameSettings (c.pointed b p u) :=
  ⟨rfl, rfl, rfl, rfl, rfl⟩

/-- A cluster in a shallower state. -/
def Clu.raised (c : Clu) (p : PState) (tick : Nat) : Clu := { c.lost with pst := p, since := tick }

theorem raise_clu (s : State) (k : CluId) (p : PState) :
    ((s.leave k).modClu k fun c => { c with pst := p, since := s.aoTick.toNat }).clu k = (s.clu k).raised p s.aoTick.toNat := by
  rw [State.modClu_eq, State.setClu_clu_same, leave_clu]
  rfl

/-- A cluster at its floor: its settings stand, and its state is no deeper than the floor. -/
theorem toFloor_clu (s : State) (k : CluId) (hh : (s.clu k).held = []) : (s.clu k).SameSettings ((s.toFloor k).clu k) ∧
    ((s.toFloor k).clu k).pst.code = min (s.clu k).pst.code (s.clu k).floor.toNat := by
  have hraised : ∀ p, (s.clu k).SameSettings ((s.clu k).raised p s.aoTick.toNat) := fun p =>
    (lost_sameSettings (s.clu k)).trans ⟨rfl, rfl, rfl, rfl, rfl⟩
  have hdeep : (s.clu k).pst.code ≤ 4 := by cases (s.clu k).pst <;> decide
  unfold State.toFloor
  dsimp only
  split
  next hlt =>
    split
    next h0 =>
      obtain ⟨b, p, u, h⟩ := awake_clu s k hh
      rw [h, h0, Nat.min_zero]
      have hwoken : (s.clu k).SameSettings ((s.clu k).woken s.aoTick.toNat) := (lost_sameSettings (s.clu k)).trans ⟨rfl, rfl, rfl, rfl, rfl⟩
      exact ⟨hwoken.trans (pointed_sameSettings _ b p u), rfl⟩
    next h1 =>
      obtain ⟨p, u, h⟩ := repoint_clu ((s.leave k).modClu k fun c => { c with pst := .c1, since := s.aoTick.toNat }) k
      rw [h, raise_clu, h1]
      exact ⟨(hraised .c1).trans (pointed_sameSettings _ _ p u), by rw [Nat.min_eq_right (by omega)]; rfl⟩
    next h2 =>
      rw [raise_clu, h2]
      exact ⟨hraised .c2, by rw [Nat.min_eq_right (by omega)]; rfl⟩
    next h0 h1 h2 =>
      have hfloor : (s.clu k).floor.toNat = 3 := by
        have n0 : (s.clu k).floor.toNat ≠ 0 := h0
        have n1 : (s.clu k).floor.toNat ≠ 1 := h1
        have n2 : (s.clu k).floor.toNat ≠ 2 := h2
        omega
      rw [raise_clu, hfloor]
      exact ⟨hraised .c3, by rw [Nat.min_eq_right (by omega)]; rfl⟩
  next hge => exact ⟨.refl _, (Nat.min_eq_left (by omega)).symm⟩

/-! ### Writes of PWR_CCTL -/

/-- A cluster with the settings of a write of PWR_CCTL. -/
def Clu.written (c : Clu) (v : Word64) : Clu :=
  { c with
    floor := v.extractLsb' 0 3, target := v.extractLsb' 4 3, boosten := bit v 7, t2 := v.extractLsb' 16 16, t3 := v.extractLsb' 32 16 }

theorem offCluster_clu (s : State) (k : CluId) : (s.clu k).SameSettings ((s.offCluster k).clu k) ∧
    ((s.clu k).held = [] → ((s.offCluster k).clu k).held = []) := by
  unfold State.offCluster
  dsimp only
  split
  · rw [State.setClu_clu_same]
    exact ⟨⟨rfl, rfl, rfl, rfl, rfl⟩, id⟩
  · exact ⟨.refl _, id⟩

theorem bits_toNat (v : Word64) (hi lo : Nat) : (v.extractLsb' lo (hi + 1 - lo)).toNat = bits v hi lo := by
  simp [bits, BitVec.extractLsb'_toNat, Nat.shiftRight_eq_div_pow]

/-- A write of PWR_CCTL that does not turn the cluster off, before its floor and its point take effect. -/
def State.cctl (s : State) (n : CluId) (v : Word64) : State :=
  if bit v 3 then (s.setClu n ((s.clu n).written v)).offCluster n else s.setClu n ((s.clu n).written v)

theorem exec_pwrCctlWrite (s : State) (r : Requester) (n : CluId) (v : Word64) : exec (.pwrCctlWrite r n v) s =
    .next (if !s.reaches r || (decide (1 < bits v 2 0) && s.cluWarm n) || decide (4 < bits v 2 0) || decide (4 < bits v 6 4) ||
      bits v 31 16 == 0 || bits v 47 32 == 0 then s else ((s.cctl n v).toFloor n).repoint n) := rfl

theorem cctl_clu (s : State) (n : CluId) (v : Word64) (hh : (s.clu n).held = []) :
    ((s.clu n).written v).SameSettings ((s.cctl n v).clu n) ∧ ((s.cctl n v).clu n).held = [] ∧
      (bit v 3 = false → (s.cctl n v).clu n = (s.clu n).written v) := by
  have hset : (s.setClu n ((s.clu n).written v)).clu n = (s.clu n).written v := State.setClu_clu_same _ _ _
  obtain ⟨hoff, hheld⟩ := offCluster_clu (s.setClu n ((s.clu n).written v)) n
  rw [hset] at hoff hheld
  unfold State.cctl
  split
  next hb => exact ⟨hoff, hheld hh, fun h => absurd (h.symm.trans hb) (by simp)⟩
  next => exact ⟨by rw [hset]; exact .refl _, by rw [hset]; exact hh, fun _ => hset⟩

theorem pwrCctlWrite_writes (s : State) (r : Requester) (n : CluId) (v : Word64) (hr : s.reaches r = true)
    (hw : bits v 2 0 ≤ 1 ∨ s.cluWarm n = false) (hf : bits v 2 0 ≤ 4) (ht : bits v 6 4 ≤ 4) (h2 : bits v 31 16 ≠ 0) (h3 : bits v 47 32 ≠ 0)
    (hh : (s.clu n).held = []) : Answers (.pwrCctlWrite r n v) s fun t => let q := t.clu n
      q.floor.toNat = bits v 2 0 ∧ q.target.toNat = bits v 6 4 ∧ q.boosten = bit v 7 ∧ q.t2.toNat = bits v 31 16 ∧ q.t3.toNat = bits v 47 32 ∧
        (bit v 3 = false → q.pst.code = min (s.clu n).pst.code (bits v 2 0)) := by
  have hwarm : (decide (1 < bits v 2 0) && s.cluWarm n) = false := by
    rcases hw with h | h
    · rw [decide_eq_false (by omega)]
      rfl
    · rw [h, Bool.and_false]
  refine ⟨_, (exec_pwrCctlWrite s r n v).trans (congrArg _ (if_neg ?_)), ?_⟩
  · rw [hr, hwarm, decide_eq_false (by omega), decide_eq_false (by omega), beq_false_of_ne h2, beq_false_of_ne h3]
    decide
  · obtain ⟨hcctl, hheld, hplain⟩ := cctl_clu s n v hh
    obtain ⟨hfloor, hpst⟩ := toFloor_clu (s.cctl n v) n hheld
    obtain ⟨p, u, hpoint⟩ := repoint_clu ((s.cctl n v).toFloor n) n
    have hall := hcctl.trans (hfloor.trans (pointed_sameSettings _ (((s.cctl n v).toFloor n).boosts n) p u))
    rw [← hpoint] at hall
    obtain ⟨hqf, hqt, hqb, hq2, hq3⟩ := hall
    intro q
    refine ⟨?_, ?_, hqb, ?_, ?_, fun hb => ?_⟩
    · exact (congrArg BitVec.toNat hqf).trans (bits_toNat v 2 0)
    · exact (congrArg BitVec.toNat hqt).trans (bits_toNat v 6 4)
    · exact (congrArg BitVec.toNat hq2).trans (bits_toNat v 31 16)
    · exact (congrArg BitVec.toNat hq3).trans (bits_toNat v 47 32)
    · have hq : q.pst = (((s.cctl n v).toFloor n).clu n).pst := (congrArg Clu.pst hpoint).trans rfl
      rw [hq, hpst, hplain hb]
      show min (s.clu n).pst.code (v.extractLsb' 0 3).toNat = _
      rw [show (v.extractLsb' 0 3).toNat = bits v 2 0 from bits_toNat v 2 0]

theorem pwrCctlWrite_refused (s : State) (r : Requester) (n : CluId) (v : Word64)
    (h : s.reaches r = false ∨ 1 < bits v 2 0 ∧ s.cluWarm n = true ∨ 4 < bits v 2 0 ∨ 4 < bits v 6 4 ∨ bits v 31 16 = 0 ∨ bits v 47 32 = 0) :
    exec (.pwrCctlWrite r n v) s = .next s := by
  refine (exec_pwrCctlWrite s r n v).trans (congrArg _ (if_pos ?_))
  simp only [Bool.or_eq_true, Bool.and_eq_true, Bool.not_eq_true', decide_eq_true_eq, beq_iff_eq]
  tauto

/-! ### Entries and wakes -/

/-- A cluster that is turned off. -/
def Clu.off (c : Clu) (tick : Nat) : Clu := { c with floor := 4, pst := .c4, since := tick, waking := false, upTo := none }

theorem clusterC4Entry_enters (s : State) (n : CluId) (hh : s.cluHedges n = []) (hr : s.cluResident n = false) (hm : s.moverIdle n = true) :
    exec (.clusterC4Entry n) s = .next ((s.setClu n { s.clu n with floor := 4 }).setClu n ((s.clu n).off s.aoTick.toNat)) := by
  have hoff : (s.setClu n { s.clu n with floor := 4 }).offCluster n =
      (s.setClu n { s.clu n with floor := 4 }).setClu n ((s.clu n).off s.aoTick.toNat) := by
    unfold State.offCluster
    dsimp only
    rw [State.setClu_clu_same, if_pos]
    · rfl
    · have h1 : ((s.setClu n { s.clu n with floor := 4 }).cluHedges n).isEmpty = true := List.isEmpty_iff.2 hh
      have h2 : (s.setClu n { s.clu n with floor := 4 }).cluResident n = false := hr
      have h3 : (s.setClu n { s.clu n with floor := 4 }).moverIdle n = true := hm
      rw [h1, h2, h3]
      rfl
  show Host.Outcome.next (if (((s.setClu n { s.clu n with floor := 4 }).offCluster n).clu n).pst = .c4 then
    (s.setClu n { s.clu n with floor := 4 }).offCluster n else s) = _
  rw [hoff, State.setClu_clu_same, if_pos (show ((s.clu n).off s.aoTick.toNat).pst = .c4 from rfl)]

theorem clusterWakeComplete_wakes (s : State) (n : CluId) (hw : (s.clu n).waking = true) (hh : (s.clu n).held = []) :
    Answers (.clusterWakeComplete n) s fun t =>
      (t.clu n).pst = .c0 ∧ (t.clu n).waking = false ∧ (t.clu n).l2 = (if (s.clu n).pst = .c3 ∨ (s.clu n).pst = .c4 then [] else (s.clu n).l2) ∧
      (t.clu n).code = (if (s.clu n).pst = .c4 then [] else (s.clu n).code) ∧
      (∀ e, t.eng e = if cluOf e = n then (s.clu n).pst.lost (s.eng e) else s.eng e) ∧
      (∀ k, k ≠ n → t.clu k = s.clu k) ∧ t = { s with clus := t.clus, engines := t.engines } := by
  refine ⟨_, congrArg Host.Outcome.next (if_pos hw), ?_⟩
  obtain ⟨b, p, u, hclu⟩ := awake_clu s n hh
  have heq := awake_eq s n hh
  obtain ⟨p', u', hpoint⟩ := repoint_eq ((s.leave n).setClu n ((s.clu n).woken s.aoTick.toNat)) n
  refine ⟨by rw [hclu]; rfl, by rw [hclu]; rfl, ?_, ?_, fun e => ?_, fun k hk => ?_, ?_⟩
  · rw [hclu]
    show (s.clu n).lost.l2 = _
    unfold Clu.lost
    cases (s.clu n).pst <;> rfl
  · rw [hclu]
    show (s.clu n).lost.code = _
    unfold Clu.lost
    cases (s.clu n).pst <;> rfl
  · rw [heq, hpoint]
    exact leave_eng s n e
  · rw [heq, repoint_clu_ne _ hk, State.setClu_clu_ne _ _ _ _ hk, leave_clu_ne s hk]
  · rw [heq, hpoint]
    have hrest := leave_rest s n
    rw [hrest]
    rfl

end Sys2Proof.Machine

namespace Sys2Proof.Machine

/-- Settles O43. -/
theorem clustersEnterAndLeavePowerStates : Obligations.ClustersEnterAndLeavePowerStates := by
  unfold Obligations.ClustersEnterAndLeavePowerStates
  intro s n c at_
  refine ⟨fun hp hw hf hq => ?_, fun hno => ?_, fun hp hw hf hr hm hwarm ht => ?_, fun hp hw hf ht => ?_, fun hh hr hm => ?_, fun hp => ?_,
    fun hp => ?_, fun hw => ?_, fun hw hh => clusterWakeComplete_wakes s n hw hh, fun r v hr hw hf ht h2 h3 hh =>
      pwrCctlWrite_writes s r n v hr hw hf ht h2 h3 hh, fun r v h => pwrCctlWrite_refused s r n v h, fun p since hu => ⟨fun hp ht => ?_, fun hno => ?_⟩,
    fun hu => ?_⟩
  · exact congrArg Host.Outcome.next (if_pos ⟨hp, by simpa using hw, hf, hq⟩)
  · refine congrArg Host.Outcome.next (if_neg fun ⟨h1, h2, h3, h4⟩ => ?_)
    rcases hno with h | h | h | h
    · exact h h1
    · exact absurd (show c.waking = false by simpa using h2) (by simp [h])
    · exact h3 h
    · exact absurd (h.symm.trans h4) (by simp)
  · exact congrArg Host.Outcome.next (if_pos ⟨hp, by simpa using hw, hf, by simpa using hr, hm, by simpa using hwarm, ht⟩)
  · exact congrArg Host.Outcome.next (if_pos ⟨hp, by simpa using hw, hf, ht⟩)
  · refine ⟨_, clusterC4Entry_enters s n hh hr hm, State.setClu_clu_same _ _ _, fun k hk => ?_, rfl⟩
    rw [State.setClu_clu_ne _ _ _ _ hk, State.setClu_clu_ne _ _ _ _ hk]
  · exact congrArg Host.Outcome.next (if_neg hp)
  · exact congrArg Host.Outcome.next (if_pos hp)
  · exact congrArg Host.Outcome.next (if_neg (by simpa using hw))
  · show execPointUpSwitch n s = _
    unfold execPointUpSwitch
    dsimp only
    rw [show (s.clu n).upTo = some (p, since) from hu]
    refine congrArg Host.Outcome.next (if_neg ?_)
    rintro (h | h | h | h)
    · rcases hp with hp | hp <;> cases hp.symm.trans h
    · rcases hp with hp | hp <;> cases hp.symm.trans h
    · rcases hp with hp | hp <;> cases hp.symm.trans h
    · omega
  · show execPointUpSwitch n s = _
    unfold execPointUpSwitch
    dsimp only
    rw [show (s.clu n).upTo = some (p, since) from hu]
    exact congrArg Host.Outcome.next (if_pos hno)
  · show execPointUpSwitch n s = _
    unfold execPointUpSwitch
    dsimp only
    rw [show (s.clu n).upTo = none from hu]

end Sys2Proof.Machine
end

section
/-! O44: heat, the brake and the supply limit the operating points (14 R466 to R470, R473, 18 R564). -/

namespace Sys2Proof.Machine

/-! ### Samples -/

/-- The state in which sensor `k` has read. -/
def State.sensed (s : State) (k : SensorId) (v : BitVec 11) (valid : Bool) : State :=
  { s with regs := { s.regs with sens := tset (0, false) s.regs.sens k.val (v, valid) } }

/-- The other sensor of the cluster of a sensor. -/
def otherSensor (k : SensorId) : Nat := if k.val % 2 = 0 then k.val + 1 else k.val - 1

/-- The cluster of a sensor. -/
def sensorClu (k : SensorId) : CluId := ⟨k.val / 2, by have := k.isLt; omega⟩

theorem sensed_sensor (s : State) (k : SensorId) (v : BitVec 11) (b : Bool) : (s.sensed k v b).sensor k.val = (v, b) :=
  tget_tset_same _ _ _ _

theorem sensed_sensor_ne (s : State) (k : SensorId) (v : BitVec 11) (b : Bool) {j : Nat} (hj : j ≠ k.val) :
    (s.sensed k v b).sensor j = s.sensor j := tget_tset_ne _ _ _ _ hj

/-- The temperature that two sensors give (14 R466). -/
def tempOf (a b : BitVec 11 × Bool) : Option Int :=
  match a.2, b.2 with
  | true, true => some (max a.1.toInt b.1.toInt)
  | true, false => some a.1.toInt
  | false, true => some b.1.toInt
  | false, false => none

theorem temp_eq (s : State) (n : CluId) : s.temp n = tempOf (s.sensor (2 * n.val)) (s.sensor (2 * n.val + 1)) := by
  unfold State.temp tempOf
  rfl

theorem tempOf_comm (a b : BitVec 11 × Bool) : tempOf a b = tempOf b a := by
  obtain ⟨a, va⟩ := a
  obtain ⟨b, vb⟩ := b
  match va, vb with
  | true, true => exact congrArg some (max_comm _ _)
  | true, false => rfl
  | false, true => rfl
  | false, false => rfl

theorem tempOf_valid (v : BitVec 11) (o : BitVec 11 × Bool) : tempOf (v, true) o = some (if o.2 then max v.toInt o.1.toInt else v.toInt) := by
  obtain ⟨o, vo⟩ := o
  cases vo <;> rfl

theorem tempOf_invalid (v : BitVec 11) {o : BitVec 11 × Bool} (h : o.2 = false) : tempOf (v, false) o = none := by
  obtain ⟨o, vo⟩ := o
  cases vo with
  | false => rfl
  | true => exact absurd h (fun hf : true = false => Bool.noConfusion hf)

theorem temp_sensed (s : State) (k : SensorId) (v : BitVec 11) (b : Bool) :
    (s.sensed k v b).temp (sensorClu k) = tempOf (v, b) (s.sensor (otherSensor k)) := by
  rw [temp_eq]
  unfold otherSensor sensorClu
  dsimp only
  rcases Nat.mod_two_eq_zero_or_one k.val with hk | hk
  · rw [show 2 * (k.val / 2) = k.val by omega, if_pos hk, sensed_sensor, sensed_sensor_ne s k v b (by omega)]
  · rw [show 2 * (k.val / 2) + 1 = k.val by omega, show 2 * (k.val / 2) = k.val - 1 by omega, if_neg (by omega), sensed_sensor,
      sensed_sensor_ne s k v b (by omega), tempOf_comm]

/-- What a cluster makes of a temperature: Table 14-3, and at its second sensor the heat credit. -/
def Clu.measured (c : Clu) (second : Bool) (x : Int) (tick tcool : Nat) : Clu :=
  if second then Clu.heated { c.atTemp x tick with blind := false } tcool x else { c.atTemp x tick with blind := false }

section measured

variable (c : Clu) (second : Bool) (x : Int) (tick tcool : Nat)

theorem measured_blind : (c.measured second x tick tcool).blind = false := by
  cases second <;> rfl

theorem measured_throt : (c.measured second x tick tcool).throt = (c.atTemp x tick).throt := by
  cases second <;> rfl

theorem measured_tlim : (c.measured second x tick tcool).tlim = (c.atTemp x tick).tlim := by
  cases second <;> rfl

theorem measured_hotAt : (c.measured second x tick tcool).hotAt = (c.atTemp x tick).hotAt := by
  cases second <;> rfl

theorem measured_coolAt : (c.measured second x tick tcool).coolAt = (c.atTemp x tick).coolAt := by
  cases second <;> rfl

theorem atTemp_heat : (c.atTemp x tick).heat = c.heat := by
  simp only [Clu.atTemp, Clu.cooler]
  split <;> split <;> (try split) <;> rfl

theorem measured_first_heat : (c.measured false x tick tcool).heat = c.heat := atTemp_heat c x tick

theorem measured_second_heat :
    ((c.measured true x tick tcool).heat.toNat : Int) = min 4095 (max 0 ((c.heat.toNat : Int) + tcool - x)) := by
  show ((BitVec.ofNat 12 (min 4095 (max 0 (((c.atTemp x tick).heat.toNat : Int) + tcool - x)).toNat)).toNat : Int) = _
  rw [atTemp_heat, BitVec.toNat_ofNat, Nat.mod_eq_of_lt (by omega)]
  omega

variable {c x tick}

theorem atTemp_hot (h : 380 ≤ x) : (c.atTemp x tick).throt = true ∧ (c.atTemp x tick).coolAt = none ∧ (c.atTemp x tick).hotAt.isSome = true := by
  have h2 : ¬x < 372 := by omega
  cases hc : c.hotAt <;> by_cases h4 : 412 ≤ x <;> simp [Clu.atTemp, Clu.cooler, h, h2, h4, hc]

theorem atTemp_hotter (h : 380 ≤ x) (h4 : x < 412) (hc : c.hotAt = none) :
    (c.atTemp x tick).tlim = (if c.tlim = 0 then 0 else c.tlim - 1) ∧ (c.atTemp x tick).hotAt = some tick := by
  simp [Clu.atTemp, Clu.cooler, h, Int.not_le.2 h4, hc]

theorem atTemp_stays (h : 380 ≤ x) (h4 : x < 412) (hc : c.hotAt ≠ none) : (c.atTemp x tick).tlim = c.tlim := by
  simp [Clu.atTemp, h, Int.not_le.2 h4, hc]

theorem atTemp_zero (h4 : 412 ≤ x) : (c.atTemp x tick).tlim = 0 := by
  simp [Clu.atTemp, h4]

theorem atTemp_cool (h : x < 380) : (c.atTemp x tick).tlim = c.tlim ∧ (c.atTemp x tick).throt = c.throt ∧ (c.atTemp x tick).hotAt = none := by
  have h4 : ¬412 ≤ x := by omega
  simp [Clu.atTemp, Int.not_le.2 h, h4]

theorem atTemp_warm (h : 372 ≤ x) : (c.atTemp x tick).coolAt = none := by
  simp [Clu.atTemp, Int.not_lt.2 h]

theorem atTemp_below (h : x < 372) : (c.atTemp x tick).coolAt = some (c.coolAt.getD tick) := by
  have h3 : ¬380 ≤ x := by omega
  have h4 : ¬412 ≤ x := by omega
  cases hc : c.coolAt <;> simp [Clu.atTemp, h, h3, h4, hc]

end measured

/-- The state after a sample that gives a temperature, but for a trip. -/
def State.sampledAt (s : State) (k : SensorId) (v : BitVec 11) (x : Int) : State :=
  State.repoint ((s.sensed k v true).setClu (sensorClu k)
    ((s.clu (sensorClu k)).measured (decide (k.val % 2 = 1)) x s.aoTick.toNat s.regs.tcool.toNat)) (sensorClu k)

/-- THERMAL_TRIP: the device is quiesced. -/
def State.tripped (s : State) : State := State.quiesce { s with keeper := { s.keeper with thermtrip := true } }

theorem tripped_clu (s : State) (k : CluId) : s.tripped.clu k = s.clu k := rfl

theorem tripped_sensor (s : State) (k : Nat) : s.tripped.sensor k = s.sensor k := rfl

theorem tripped_trips (s : State) : s.tripped.keeper.thermtrip = true ∧ s.tripped.lehr.quiesced = true := ⟨rfl, rfl⟩

theorem exec_tempSample_valid (s : State) (k : SensorId) (v : BitVec 11) {x : Int} (hx : (s.sensed k v true).temp (sensorClu k) = some x) :
    exec (.tempSample k v true) s = .next (if 420 ≤ v.toInt then (s.sampledAt k v x).tripped else s.sampledAt k v x) := by
  show execTempSample k v true s = _
  unfold execTempSample
  dsimp only
  rw [show State.temp { s with regs := { s.regs with sens := tset (0, false) s.regs.sens k.val (v, true) } } ⟨k.val / 2, by have := k.isLt; omega⟩ =
    some x from hx]
  dsimp only
  rw [Bool.true_and, show (fun c : Clu => if k.val % 2 = 1 then Clu.heated { c.atTemp x s.aoTick.toNat with blind := false } s.regs.tcool.toNat x
      else { c.atTemp x s.aoTick.toNat with blind := false }) = fun c => c.measured (decide (k.val % 2 = 1)) x s.aoTick.toNat s.regs.tcool.toNat from by
    funext c
    unfold Clu.measured
    by_cases hk : k.val % 2 = 1 <;> simp [hk]]
  by_cases h : 420 ≤ v.toInt
  · rw [if_pos h, if_pos (decide_eq_true h)]
    rfl
  · rw [if_neg h, if_neg (by simpa using h)]
    rfl

theorem sampledAt_clu (s : State) (k : SensorId) (v : BitVec 11) (x : Int) : ∃ b p u, (s.sampledAt k v x).clu (sensorClu k) =
    ((s.clu (sensorClu k)).measured (decide (k.val % 2 = 1)) x s.aoTick.toNat s.regs.tcool.toNat).pointed b p u := by
  obtain ⟨p, u, h⟩ := repoint_clu ((s.sensed k v true).setClu (sensorClu k)
    ((s.clu (sensorClu k)).measured (decide (k.val % 2 = 1)) x s.aoTick.toNat s.regs.tcool.toNat)) (sensorClu k)
  rw [State.setClu_clu_same] at h
  exact ⟨_, p, u, h⟩

theorem sampledAt_rest (s : State) (k : SensorId) (v : BitVec 11) (x : Int) :
    s.sampledAt k v x = { s.sensed k v true with clus := (s.sampledAt k v x).clus } := repoint_rest _ _

/-- What Table 14-3 and R469 make of a cluster at a temperature. -/
theorem measured_table (c : Clu) (k : SensorId) (x : Int) (tick tcool : Nat) :
    let q := c.measured (decide (k.val % 2 = 1)) x tick tcool
    q.blind = false ∧
    (380 ≤ x → q.throt = true ∧ q.coolAt = none ∧ q.hotAt.isSome = true) ∧
    (380 ≤ x → x < 412 → c.hotAt = none → q.tlim = (if c.tlim = 0 then 0 else c.tlim - 1) ∧ q.hotAt = some tick) ∧
    (380 ≤ x → x < 412 → c.hotAt ≠ none → q.tlim = c.tlim) ∧ (412 ≤ x → q.tlim = 0) ∧
    (x < 380 → q.tlim = c.tlim ∧ q.throt = c.throt ∧ q.hotAt = none) ∧
    (372 ≤ x → q.coolAt = none) ∧ (x < 372 → q.coolAt = some (c.coolAt.getD tick)) ∧
    (k.val % 2 = 1 → (q.heat.toNat : Int) = min 4095 (max 0 ((c.heat.toNat : Int) + tcool - x))) ∧
    (k.val % 2 = 0 → q.heat = c.heat) := by
  intro q
  refine ⟨measured_blind .., ?_⟩
  rw [show q.throt = _ from measured_throt .., show q.tlim = _ from measured_tlim .., show q.hotAt = _ from measured_hotAt ..,
    show q.coolAt = _ from measured_coolAt ..]
  refine ⟨atTemp_hot, atTemp_hotter, atTemp_stays, atTemp_zero, atTemp_cool, atTemp_warm, atTemp_below, fun hk => ?_, fun hk => ?_⟩
  · show ((c.measured (decide (k.val % 2 = 1)) x tick tcool).heat.toNat : Int) = _
    rw [decide_eq_true hk]
    exact measured_second_heat ..
  · show (c.measured (decide (k.val % 2 = 1)) x tick tcool).heat = _
    rw [decide_eq_false (by omega)]
    exact measured_first_heat ..

theorem tempSample_valid (s : State) (k : SensorId) (v : BitVec 11) (n : CluId) (hn : n.val = k.val / 2) : let c := s.clu n
    let o := s.sensor (if k.val % 2 = 0 then k.val + 1 else k.val - 1)
    let x := if o.2 then max v.toInt o.1.toInt else v.toInt
    Answers (.tempSample k v true) s fun t => let q := t.clu n
      t.sensor k.val = (v, true) ∧ q.blind = false ∧
      (380 ≤ x → q.throt = true ∧ q.coolAt = none ∧ q.hotAt.isSome = true) ∧
      (380 ≤ x → x < 412 → c.hotAt = none → q.tlim = (if c.tlim = 0 then 0 else c.tlim - 1) ∧ q.hotAt = some s.aoTick.toNat) ∧
      (380 ≤ x → x < 412 → c.hotAt ≠ none → q.tlim = c.tlim) ∧ (412 ≤ x → q.tlim = 0) ∧
      (x < 380 → q.tlim = c.tlim ∧ q.throt = c.throt ∧ q.hotAt = none) ∧
      (372 ≤ x → q.coolAt = none) ∧ (x < 372 → q.coolAt = some (c.coolAt.getD s.aoTick.toNat)) ∧
      (k.val % 2 = 1 → (q.heat.toNat : Int) = min 4095 (max 0 ((c.heat.toNat : Int) + s.regs.tcool.toNat - x))) ∧
      (k.val % 2 = 0 → q.heat = c.heat) ∧
      (420 ≤ v.toInt → t.keeper.thermtrip = true ∧ t.lehr.quiesced = true) ∧ (v.toInt < 420 → t.keeper = s.keeper ∧ t.lehr = s.lehr) := by
  obtain rfl : n = sensorClu k := Fin.ext hn
  intro c o x
  have hx : (s.sensed k v true).temp (sensorClu k) = some x := (temp_sensed s k v true).trans (tempOf_valid v _)
  refine ⟨_, exec_tempSample_valid s k v hx, ?_⟩
  have hrest := sampledAt_rest s k v x
  obtain ⟨b, p, u, hclu⟩ := sampledAt_clu s k v x
  have hsens : (s.sampledAt k v x).sensor k.val = (v, true) := by
    rw [hrest]
    exact sensed_sensor s k v true
  generalize hm : (s.clu (sensorClu k)).measured (decide (k.val % 2 = 1)) x s.aoTick.toNat s.regs.tcool.toNat = m at hclu
  have htab := measured_table (s.clu (sensorClu k)) k x s.aoTick.toNat s.regs.tcool.toNat
  rw [hm] at htab
  obtain ⟨h1, h2, h3, h4, h5, h6, h7, h8, h9, h10⟩ := htab
  by_cases h : 420 ≤ v.toInt
  · rw [if_pos h]
    beta_reduce
    rw [tripped_clu, tripped_sensor, hclu]
    exact ⟨hsens, h1, h2, h3, h4, h5, h6, h7, h8, h9, h10, fun _ => tripped_trips _, fun hno => absurd h (by omega)⟩
  · rw [if_neg h]
    beta_reduce
    rw [hclu]
    exact ⟨hsens, h1, h2, h3, h4, h5, h6, h7, h8, h9, h10, fun hyes => absurd hyes h, fun _ => by rw [hrest]; exact ⟨rfl, rfl⟩⟩

/-- Two sensors that fail leave the cluster blind. -/
theorem tempSample_blind (s : State) (k : SensorId) (v : BitVec 11) (n : CluId) (hn : n.val = k.val / 2)
    (ho : (s.sensor (if k.val % 2 = 0 then k.val + 1 else k.val - 1)).2 = false) (hb : (s.clu n).blind = false)
    (hk : k.val % 2 = 1 ∨ (s.clu n).sampled = true) :
    Answers (.tempSample k v false) s fun t => (t.clu n).blind = true ∧ t.sensor k.val = (v, false) ∧ ∃ r, t.errq = s.errq ++ [r] ∧ r.cls = 0x10 := by
  obtain rfl : n = sensorClu k := Fin.ext hn
  have hx : (s.sensed k v false).temp (sensorClu k) = none := (temp_sensed s k v false).trans (tempOf_invalid v ho)
  have hgo : ¬((decide (k.val % 2 = 0) && !(s.clu (sensorClu k)).sampled) || (s.clu (sensorClu k)).blind) = true := by
    rcases hk with hk | hk <;> simp [hk, hb]
  refine ⟨((((s.sensed k v false).setClu (sensorClu k) { s.clu (sensorClu k) with blind := true }).report
    (sensorRecord s (sensorClu k))).repoint (sensorClu k)), ?_, ?_, ?_, sensorRecord s (sensorClu k), ?_, rfl⟩
  · show execTempSample k v false s = _
    unfold execTempSample
    dsimp only
    rw [show State.temp { s with regs := { s.regs with sens := tset (0, false) s.regs.sens k.val (v, false) } }
      ⟨k.val / 2, by have := k.isLt; omega⟩ = none from hx]
    dsimp only
    rw [Bool.false_and, if_neg Bool.false_ne_true]
    exact congrArg (fun t : State => Host.Outcome.next (t.repoint (sensorClu k))) (if_neg hgo)
  · obtain ⟨p, u, h⟩ := repoint_clu (((s.sensed k v false).setClu (sensorClu k) { s.clu (sensorClu k) with blind := true }).report
      (sensorRecord s (sensorClu k))) (sensorClu k)
    rw [h, State.report_clu, State.setClu_clu_same]
    rfl
  · rw [repoint_rest]
    exact sensed_sensor s k v false
  · rw [repoint_rest]
    rfl

/-! ### Later steps -/

theorem thermalStepDown_lowers (s : State) (n : CluId) {h : Nat} (hhot : (s.clu n).hotAt = some h) (hdue : h + 100 ≤ s.aoTick.toNat) :
    Answers (.thermalStepDown n) s fun t =>
      (t.clu n).tlim = (if (s.clu n).tlim = 0 then 0 else (s.clu n).tlim - 1) ∧ (t.clu n).hotAt = some s.aoTick.toNat := by
  refine ⟨(s.setClu n { (s.clu n).cooler with hotAt := some s.aoTick.toNat }).repoint n, ?_, ?_⟩
  · show execThermalStepDown n s = _
    unfold execThermalStepDown
    dsimp only
    rw [hhot]
    exact congrArg _ (if_pos hdue)
  · obtain ⟨p, u, hq⟩ := repoint_clu (s.setClu n { (s.clu n).cooler with hotAt := some s.aoTick.toNat }) n
    rw [hq, State.setClu_clu_same]
    exact ⟨rfl, rfl⟩

theorem thermalStepDown_early (s : State) (n : CluId) {h : Nat} (hhot : (s.clu n).hotAt = some h) (hdue : s.aoTick.toNat < h + 100) :
    exec (.thermalStepDown n) s = .next s := by
  show execThermalStepDown n s = _
  unfold execThermalStepDown
  dsimp only
  rw [hhot]
  exact congrArg _ (if_neg (by omega))

theorem thermalStepUp_raises (s : State) (n : CluId) {h : Nat} (hcool : (s.clu n).coolAt = some h) (hdue : h + 1000 ≤ s.aoTick.toNat) :
    Answers (.thermalStepUp n) s fun t =>
      (t.clu n).tlim.toNat = min 4 ((s.clu n).tlim.toNat + 1) ∧ (t.clu n).coolAt = some s.aoTick.toNat ∧
      (t.clu n).throt = (if 3 ≤ (s.clu n).tlim.toNat then false else (s.clu n).throt) := by
  refine ⟨(s.setClu n { s.clu n with
    tlim := BitVec.ofNat 3 (min 4 ((s.clu n).tlim.toNat + 1)), coolAt := some s.aoTick.toNat,
    throt := if min 4 ((s.clu n).tlim.toNat + 1) = 4 then false else (s.clu n).throt }).repoint n, ?_, ?_⟩
  · show execThermalStepUp n s = _
    unfold execThermalStepUp
    dsimp only
    rw [hcool]
    exact congrArg _ (if_pos hdue)
  · obtain ⟨p, u, hq⟩ := repoint_clu (s.setClu n { s.clu n with
      tlim := BitVec.ofNat 3 (min 4 ((s.clu n).tlim.toNat + 1)), coolAt := some s.aoTick.toNat,
      throt := if min 4 ((s.clu n).tlim.toNat + 1) = 4 then false else (s.clu n).throt }) n
    rw [hq, State.setClu_clu_same]
    refine ⟨?_, rfl, if_congr (by omega) rfl rfl⟩
    show (BitVec.ofNat 3 (min 4 ((s.clu n).tlim.toNat + 1))).toNat = _
    rw [BitVec.toNat_ofNat]
    omega

theorem thermalStepUp_early (s : State) (n : CluId) {h : Nat} (hcool : (s.clu n).coolAt = some h) (hdue : s.aoTick.toNat < h + 1000) :
    exec (.thermalStepUp n) s = .next s := by
  show execThermalStepUp n s = _
  unfold execThermalStepUp
  dsimp only
  rw [hcool]
  exact congrArg _ (if_neg (by omega))

/-! ### The brake and the supply -/

/-- A cluster that does not boost and whose point, in C0 or C1, is at most `m`. -/
def Clu.Lowered (m : Nat) (c : Clu) : Prop := c.boost = false ∧ (c.pst = .c0 ∨ c.pst = .c1 → c.point.toNat ≤ m)

theorem repoint_pst (s : State) (k j : CluId) : ((s.repoint k).clu j).pst = (s.clu j).pst := by
  by_cases hj : j = k
  · subst hj
    obtain ⟨p, u, h⟩ := repoint_clu s j
    rw [h]
    rfl
  · rw [repoint_clu_ne s hj]

theorem repoint_brakeLim (s : State) (k j : CluId) : ((s.repoint k).clu j).brakeLim = (s.clu j).brakeLim := by
  by_cases hj : j = k
  · subst hj
    obtain ⟨p, u, h⟩ := repoint_clu s j
    rw [h]
    rfl
  · rw [repoint_clu_ne s hj]

theorem unboosted_le_three (s : State) (k : CluId) : s.unboosted k ≤ 3 := Nat.min_le_right _ _

theorem unboosted_le_brake (s : State) (k : CluId) : s.unboosted k ≤ s.brakeCap (s.clu k) := by
  unfold State.unboosted
  dsimp only
  omega

/-- Without boost a cluster's point goes down to what is allowed. -/
theorem repoint_lowered {m : Nat} (s : State) (k : CluId) (hb : s.boosts k = false) (hm : s.unboosted k ≤ m) : ((s.repoint k).clu k).Lowered m := by
  have h3 := unboosted_le_three s k
  unfold State.repoint
  dsimp only
  rw [hb, if_neg Bool.false_ne_true]
  by_cases hdeep : (s.clu k).pst = .c2 ∨ (s.clu k).pst = .c3 ∨ (s.clu k).pst = .c4
  · rw [if_pos hdeep, State.setClu_clu_same]
    refine ⟨rfl, fun h => ?_⟩
    change (s.clu k).pst = .c0 ∨ (s.clu k).pst = .c1 at h
    rcases h with h | h <;> rw [h] at hdeep <;> simp at hdeep
  · rw [if_neg hdeep]
    split
    · rw [State.setClu_clu_same]
      refine ⟨rfl, fun _ => ?_⟩
      show (BitVec.ofNat 3 (s.unboosted k)).toNat ≤ m
      rw [BitVec.toNat_ofNat]
      omega
    · split <;> rw [State.setClu_clu_same] <;> refine ⟨rfl, fun _ => ?_⟩ <;> show (s.clu k).point.toNat ≤ m <;> omega

theorem repoint_foldl_rest (l : List CluId) (s : State) : ∃ q, l.foldl State.repoint s = { s with clus := q } := by
  induction l generalizing s with
  | nil => exact ⟨s.clus, rfl⟩
  | cons k l ih =>
    obtain ⟨q, hq⟩ := ih (s.repoint k)
    exact ⟨q, hq.trans (by rw [repoint_rest s k])⟩

theorem repointAll_rest (s : State) : ∃ q, s.repointAll = { s with clus := q } := repoint_foldl_rest allClus s

theorem repoint_foldl_keeps {α : Type} (f : Clu → α) (hf : ∀ (s : State) k j, f ((s.repoint k).clu j) = f (s.clu j)) (l : List CluId) (s : State)
    (j : CluId) : f ((l.foldl State.repoint s).clu j) = f (s.clu j) := by
  induction l generalizing s with
  | nil => rfl
  | cons k l ih => exact (ih (s.repoint k)).trans (hf s k j)

/-- A pass over clusters, none of which may boost, lowers each of them. -/
theorem repoint_foldl_lowered {m : Nat} (l : List CluId) (s : State)
    (h : ∀ q k, State.boosts { s with clus := q } k = false ∧ State.unboosted { s with clus := q } k ≤ m) (j : CluId)
    (hj : j ∈ l ∨ (s.clu j).Lowered m) : ((l.foldl State.repoint s).clu j).Lowered m := by
  induction l generalizing s with
  | nil => exact hj.resolve_left List.not_mem_nil
  | cons k l ih =>
    have hrest := repoint_rest s k
    refine ih (s.repoint k) (fun q i => by rw [hrest]; exact h q i) ?_
    by_cases hk : j = k
    · subst hk
      exact .inr (repoint_lowered s j (h s.clus j).1 (h s.clus j).2)
    · refine hj.imp (fun hm => (List.mem_cons.1 hm).resolve_left hk) fun hlow => ?_
      rw [repoint_clu_ne s hk]
      exact hlow

theorem repointAll_lowered {m : Nat} (s : State)
    (h : ∀ q k, State.boosts { s with clus := q } k = false ∧ State.unboosted { s with clus := q } k ≤ m) (k : CluId) :
    (s.repointAll.clu k).boost = false ∧ ((s.clu k).pst = .c0 ∨ (s.clu k).pst = .c1 → (s.repointAll.clu k).point.toNat ≤ m) := by
  obtain ⟨hb, hp⟩ := repoint_foldl_lowered allClus s h k (.inl (List.mem_finRange k))
  exact ⟨hb, fun hs => hp (by rw [repoint_foldl_keeps Clu.pst repoint_pst]; exact hs)⟩

theorem boosts_of_not_mayBoost (s : State) (k : CluId) (h : s.mayBoost k = false) : s.boosts k = false := by
  unfold State.boosts
  dsimp only
  rw [h, Bool.false_and]

theorem pwrBrakeAssert_lowers (s : State) : Answers .pwrBrakeAssert s fun t => t.keeper = { s.keeper with brake := true } ∧
    ∀ k, (t.clu k).boost = false ∧ ((s.clu k).pst = .c0 ∨ (s.clu k).pst = .c1 → (t.clu k).point.toNat ≤ s.regs.brakept.toNat) := by
  refine ⟨State.repointAll { s with keeper := { s.keeper with brake := true } }, rfl, ?_, fun k => ?_⟩
  · obtain ⟨q, hq⟩ := repointAll_rest { s with keeper := { s.keeper with brake := true } }
    rw [hq]
  · refine repointAll_lowered { s with keeper := { s.keeper with brake := true } } (fun q k => ⟨boosts_of_not_mayBoost _ k ?_, ?_⟩) k
    · simp [State.mayBoost]
    · exact (unboosted_le_brake _ k).trans (le_of_eq (if_pos rfl))

theorem vcoreUndervolt_lowers (s : State) : Answers .vcoreUndervolt s fun t =>
    t.regs = { s.regs with noBoost := s.aoTick.toNat + 100000 } ∧ (∃ r, t.errq = s.errq ++ [r] ∧ r.cls = 0x11) ∧
      ∀ k, (t.clu k).boost = false ∧ ((s.clu k).pst = .c0 ∨ (s.clu k).pst = .c1 → (t.clu k).point.toNat ≤ 3) := by
  refine ⟨(State.repointAll { s with regs := { s.regs with noBoost := s.aoTick.toNat + 100000 } }).report (controlRecord s 0 0 0), rfl, ?_,
    ⟨controlRecord s 0 0 0, ?_, rfl⟩, fun k => ?_⟩
  · obtain ⟨q, hq⟩ := repointAll_rest { s with regs := { s.regs with noBoost := s.aoTick.toNat + 100000 } }
    rw [hq]
    rfl
  · obtain ⟨q, hq⟩ := repointAll_rest { s with regs := { s.regs with noBoost := s.aoTick.toNat + 100000 } }
    rw [hq]
    rfl
  · rw [State.report_clu]
    refine repointAll_lowered { s with regs := { s.regs with noBoost := s.aoTick.toNat + 100000 } }
      (fun q k => ⟨boosts_of_not_mayBoost _ k ?_, unboosted_le_three _ k⟩) k
    simp [State.mayBoost]

/-- A change made to each cluster of a list. -/
theorem foldl_modClu (f : Clu → Clu) (l : List CluId) (hl : l.Nodup) (s : State) :
    ∃ q, l.foldl (fun (t : State) k => t.modClu k f) s = { s with clus := q } ∧
      ∀ k, State.clu { s with clus := q } k = if k ∈ l then f (s.clu k) else s.clu k := by
  induction l generalizing s with
  | nil => exact ⟨s.clus, rfl, fun k => (if_neg List.not_mem_nil).symm⟩
  | cons j l ih =>
    obtain ⟨hj, hl⟩ := List.nodup_cons.1 hl
    obtain ⟨q, hq, hclu⟩ := ih hl (s.modClu j f)
    refine ⟨q, hq, fun k => (hclu k).trans ?_⟩
    by_cases hk : k = j
    · subst hk
      rw [if_neg hj, if_pos List.mem_cons_self]
      exact State.setClu_clu_same s k _
    · rw [show (s.modClu j f).clu k = s.clu k from State.setClu_clu_ne s j _ k hk]
      exact if_congr (by simp [hk]) rfl rfl

/-- The brake's limit of a cluster at its release. -/
def Clu.released (tick : Nat) (c : Clu) : Clu := { c with brakeLim := some (c.point.toNat, tick) }

theorem pwrBrakeRelease_rises (s : State) (h : s.keeper.brake = true) : Answers .pwrBrakeRelease s fun t =>
    t.keeper = { s.keeper with brake := false } ∧ ∀ k, (t.clu k).brakeLim = some ((s.clu k).point.toNat, s.aoTick.toNat) := by
  obtain ⟨q, hq, hclu⟩ := foldl_modClu (Clu.released s.aoTick.toNat) allClus (List.nodup_finRange 32)
    { s with keeper := { s.keeper with brake := false } }
  refine ⟨State.repointAll { s with keeper := { s.keeper with brake := false }, clus := q }, ?_, ?_, fun k => ?_⟩
  · show Host.Outcome.next (if s.keeper.brake = true then _ else _) = _
    rw [if_pos h]
    exact congrArg (fun t => Host.Outcome.next (State.repointAll t)) hq
  · obtain ⟨q', hq'⟩ := repointAll_rest { s with keeper := { s.keeper with brake := false }, clus := q }
    rw [hq']
  · refine (repoint_foldl_keeps Clu.brakeLim repoint_brakeLim allClus _ k).trans ?_
    refine (congrArg Clu.brakeLim (hclu k)).trans ?_
    rw [if_pos (show k ∈ allClus from List.mem_finRange k)]
    rfl

theorem pwrBrakeRelease_off (s : State) (h : s.keeper.brake = false) : exec .pwrBrakeRelease s = .next s := by
  show Host.Outcome.next (if s.keeper.brake = true then _ else s) = _
  rw [if_neg (by rw [h]; decide)]

/-- Settles O44. -/
theorem heatAndTheSupplyLimitThePoints : Obligations.HeatAndTheSupplyLimitThePoints := by
  unfold Obligations.HeatAndTheSupplyLimitThePoints
  intro s
  exact ⟨tempSample_valid s, tempSample_blind s,
    fun n h => ⟨thermalStepDown_lowers s n, thermalStepDown_early s n, thermalStepUp_raises s n, thermalStepUp_early s n⟩,
    pwrBrakeAssert_lowers s, pwrBrakeRelease_rises s, pwrBrakeRelease_off s, vcoreUndervolt_lowers s⟩

end Sys2Proof.Machine
end

section
/-! O46: power failure and resets keep what is durable (11 R370, 15 R491, R498, 16 R532, 17 R535, 18 R566 to R570). -/

namespace Sys2Proof.Machine

/-! ### What a reset leaves -/

/-- `t` is `s` after a reset to a step of the start sequence. -/
def State.Back (s t : State) (step : Nat) : Prop :=
  t = { State.reset with
    dir := t.dir, hbm := t.hbm, poison := t.poison, hbmLatent := t.hbmLatent, lehr := t.lehr, keeper := t.keeper, pleach := t.pleach, disk := s.disk, durable := s.durable, store := s.store, blockNext := s.blockNext
    aoTick := s.aoTick, out := t.out, free := s.free, pending := s.pending } ∧
  (∀ i, tget Endpoint.zero t.dir i = { tget Endpoint.zero s.dir i with evseq := 0, marm := 0 }) ∧
  t.lehr.wp = s.lehr.wp ∧ t.lehr.records = s.lehr.records ∧ t.lehr.supers = s.lehr.supers ∧ t.lehr.inRing = s.lehr.inRing ∧ t.lehr.segSeq = s.lehr.segSeq ∧ t.lehr.queue = [] ∧
  t.keeper.step = step ∧ t.keeper.svnf = s.keeper.svnf ∧ t.keeper.debugLock = s.keeper.debugLock ∧ t.keeper.imgA.header = s.keeper.imgA.header ∧
  t.keeper.imgB.header = s.keeper.imgB.header

/-- A keeper at a step of the start sequence with the fuses and the image headers of another. -/
def Keeper.Back (k q : Keeper) (step : Nat) : Prop :=
  q.step = step ∧ q.svnf = k.svnf ∧ q.debugLock = k.debugLock ∧ q.imgA.header = k.imgA.header ∧ q.imgB.header = k.imgB.header

/-- `u` is `s` but for the controller's quiesce, the keeper and the Pleach. -/
def State.Halted (s u : State) : Prop :=
  ∃ b k p, u = { s with lehr := { s.lehr with quiesced := b }, keeper := k, pleach := p }

theorem State.Halted.refl (s : State) : s.Halted s := ⟨s.lehr.quiesced, s.keeper, s.pleach, rfl⟩

theorem powerFail_halted {s u : State} (h : s.Halted u) : s.Halted u.powerFail := by
  obtain ⟨b, k, p, rfl⟩ := h
  exact ⟨true, _, _, rfl⟩

theorem keeper_halted {s u : State} (h : s.Halted u) (q : Keeper) : s.Halted { u with keeper := q } := by
  obtain ⟨b, k, p, rfl⟩ := h
  exact ⟨b, q, p, rfl⟩

theorem deviceReset_keeper (s : State) (n : Nat) : (s.deviceReset n).keeper = s.keeper.restarted n := by
  unfold State.deviceReset
  obtain ⟨m, p, q, h⟩ := dirToHbm_rest { State.reset with
    dir := tmap Endpoint.zero s.dir fun d => { d with evseq := 0, marm := 0 }
    lehr := s.lehr.kept, keeper := s.keeper.restarted n, disk := s.disk, durable := s.durable, store := s.store
    pleach := { Pleach.reset with prepared := s.pleach.prepared, moved := s.pleach.moved, cuts := s.pleach.cuts, incoming := s.pleach.incoming, copied := s.pleach.copied }
    blockNext := s.blockNext, aoTick := s.aoTick, out := s.out, free := s.free, pending := s.pending }
  rw [h]

/-- A reset of a halted device, whatever its keeper then is. -/
theorem deviceReset_back {s u : State} (hu : s.Halted u) (n m : Nat) {q : Keeper} (hq : s.keeper.Back q m) :
    s.Back { u.deviceReset n with keeper := q } m ∧ (u.deviceReset n).out = s.out ∧ (u.deviceReset n).disk = s.disk ∧
      (u.deviceReset n).durable = s.durable ∧ (u.deviceReset n).engines = [] := by
  obtain ⟨b, k, p, rfl⟩ := hu
  unfold State.deviceReset
  obtain ⟨m, pz, la, h⟩ := dirToHbm_rest { State.reset with
    dir := tmap Endpoint.zero s.dir fun d => { d with evseq := 0, marm := 0 }
    lehr := Lehr.kept { s.lehr with quiesced := b }, keeper := k.restarted n, disk := s.disk, durable := s.durable, store := s.store
    pleach := { Pleach.reset with prepared := p.prepared, moved := p.moved, cuts := p.cuts, incoming := p.incoming, copied := p.copied }
    blockNext := s.blockNext, aoTick := s.aoTick, out := s.out, free := s.free, pending := s.pending }
  dsimp only
  rw [h]
  exact ⟨⟨rfl, tget_tmap s.dir rfl, rfl, rfl, rfl, rfl, rfl, rfl, hq⟩, rfl, rfl, rfl, rfl⟩

/-! ### Power failure -/

theorem pwrFailAssert_long (s : State) (ns : Nat) (h : 20 ≤ ns) : exec (.pwrFailAssert ns) s = .next s.powerFail :=
  congrArg Host.Outcome.next (if_pos h)

theorem pwrFailAssert_short (s : State) (ns : Nat) (h : ns < 5) : exec (.pwrFailAssert ns) s = .next s :=
  congrArg Host.Outcome.next ((if_neg (by omega)).trans (if_pos h))

/-- A pulse between the two bounds is recognised or not. -/
theorem pwrFailAssert_either (s : State) (ns : Nat) (h5 : 5 ≤ ns) (h20 : ns < 20) :
    exec (.pwrFailAssert ns) s = .next { s.powerFail with free := s.free + 1 } ∨ exec (.pwrFailAssert ns) s = .next { s with free := s.free + 1 } := by
  have he : exec (.pwrFailAssert ns) s = .next (if Config.freeBool s.free then { s.powerFail with free := s.free + 1 } else { s with free := s.free + 1 }) :=
    congrArg Host.Outcome.next ((if_neg (Nat.not_le.2 h20)).trans (if_neg (Nat.not_lt.2 h5)))
  rw [he]
  by_cases hf : Config.freeBool s.free = true
  · exact .inl (by rw [if_pos hf])
  · exact .inr (by rw [if_neg hf])

theorem pwrFailRestart_resets (s : State) (hf : s.keeper.failLatched = true) (ht : s.keeper.thermtrip = false) (hr : s.keeper.rst = false)
    (hc : s.keeper.crystalLost = false) (hd : s.keeper.failAt + 10000 ≤ s.aoTick.toNat) :
    Answers .pwrFailRestart s fun t => s.Back t 1 ∧ t.keeper.failLatched = false := by
  refine ⟨s.deviceReset 1, ?_, ?_, ?_⟩
  · show Host.Outcome.next (if _ then _ else _) = _
    rw [hf, ht, hr, hc, decide_eq_true hd]
    rfl
  · exact (deviceReset_back (.refl s) 1 1 (q := (s.deviceReset 1).keeper) (by rw [deviceReset_keeper]; exact ⟨rfl, rfl, rfl, rfl, rfl⟩)).1
  · rw [deviceReset_keeper]
    rfl

theorem pwrFailRestart_early (s : State) (h : s.aoTick.toNat < s.keeper.failAt + 10000) : exec .pwrFailRestart s = .next s := by
  refine congrArg Host.Outcome.next (if_neg ?_)
  rw [decide_eq_false (by omega), Bool.and_false]
  exact Bool.false_ne_true

/-! ### SYS_RST_N, the crystal and the keeper's start -/

theorem sysRstAssert_resets (s : State) (h : s.keeper.rst = false) :
    Answers .sysRstAssert s fun t => s.Back t 0 ∧ t.keeper.rst = true ∧ t.out = s.out := by
  have hb := deviceReset_back (powerFail_halted (.refl s)) 0 0
    (q := { (s.powerFail.deviceReset 0).keeper with rst := true, gaveUp := false }) (by rw [deviceReset_keeper]; exact ⟨rfl, rfl, rfl, rfl, rfl⟩)
  obtain ⟨hback, hout, -⟩ := hb
  refine ⟨_, congrArg Host.Outcome.next (if_neg ?_), hback, rfl, hout⟩
  rw [h]
  exact Bool.false_ne_true

theorem crystalLoss_resets (s : State) (h : s.keeper.crystalLost = false) :
    Answers .crystalLoss s fun t => s.Back t 0 ∧ t.keeper.crystalLost = true := by
  have hb := deviceReset_back (powerFail_halted (.refl s)) 0 0 (q := { (s.powerFail.deviceReset 0).keeper with
    crystalLost := true, crystalAt := s.aoTick.toNat, failLatched := s.keeper.failLatched }) (by rw [deviceReset_keeper]; exact ⟨rfl, rfl, rfl, rfl, rfl⟩)
  refine ⟨_, congrArg Host.Outcome.next (if_neg ?_), hb.1, rfl⟩
  rw [h]
  exact Bool.false_ne_true

theorem crystalRecovery_early (s : State) (h : s.aoTick.toNat < s.keeper.crystalAt + 10000) : exec .crystalRecovery s = .next s := by
  refine congrArg Host.Outcome.next (if_neg ?_)
  rw [decide_eq_false (by omega), Bool.and_false]
  exact Bool.false_ne_true

theorem crystalRecovery_recovers (s : State) (hc : s.keeper.crystalLost = true) (h : s.keeper.crystalAt + 10000 ≤ s.aoTick.toNat) :
    exec .crystalRecovery s = .next { s with keeper := { s.keeper with
      crystalLost := false, step := if s.keeper.failLatched = true ∨ s.keeper.rst = true then 0 else 1 } } := by
  refine congrArg Host.Outcome.next ((if_pos (by rw [hc, decide_eq_true h]; rfl)).trans ?_)
  rw [if_congr (Bool.or_eq_true_iff) rfl rfl]

theorem keeperStart_starts (s : State) : Answers .keeperStart s fun t => t.aoTick = 0 ∧ t.keeper.rst = true ∧ t.keeper.step = 0 ∧
    t.keeper.revoke = s.keeper.revoke ∧ t.keeper.svnf = s.keeper.svnf ∧ t.keeper.debugLock = s.keeper.debugLock ∧ t.keeper.imgA = s.keeper.imgA ∧
    t.keeper.imgB = s.keeper.imgB ∧ t.disk = s.disk ∧ t.durable = s.durable ∧ t.engines = [] := by
  obtain ⟨-, -, hdisk, hdur, heng⟩ := deviceReset_back (.refl s) 0 s.keeper.step ⟨rfl, rfl, rfl, rfl, rfl⟩
  exact ⟨_, rfl, rfl, rfl, rfl, rfl, rfl, rfl, rfl, rfl, hdisk, hdur, heng⟩

theorem startWaitTimeout_givesUp (s : State) (ha : s.keeper.awake = true) (hs : s.keeper.step = 0) (hg : s.keeper.gaveUp = false)
    (h : s.keeper.rst = true ∨ s.keeper.rails = false ∨ s.keeper.thermtrip = true) :
    exec .startWaitTimeout s = .next (({ s with keeper := { s.keeper with gaveUp := true } } : State).emit
      (.mctp (.bootFailure (if s.keeper.thermtrip then .thermtrip else .conditions)))) := by
  refine congrArg Host.Outcome.next (if_pos ?_)
  rw [ha, hs, hg]
  rcases h with h | h | h <;> rw [h] <;> simp

/-! ### Watchdogs and the keeper's last resort -/

theorem setCount_back {k q : Keeper} {n : Nat} (h : k.Back q n) (b : Bool) (c : Nat) :
    k.Back (q.setCount b c) n ∧ (q.setCount b c).count b = c := by
  cases b <;> exact ⟨h, rfl⟩

theorem bootWatchdog_resets (s : State) (h3 : 3 ≤ s.keeper.step) (h9 : s.keeper.step ≤ 9) (hb : s.regs.bootok = false) (hr : s.keeper.recov = false)
    (hf : s.keeper.bootFail = false) (hl : s.keeper.failLatched = false) (hd : s.keeper.released + 8000000 ≤ s.aoTick.toNat) :
    Answers .bootWatchdog s fun t => s.Back t 1 ∧ t.keeper.count s.keeper.slotB = s.keeper.count s.keeper.slotB + 1 ∧ t.out = s.out := by
  have hk : s.keeper.Back (s.deviceReset 1).keeper 1 := by
    rw [deviceReset_keeper]
    exact ⟨rfl, rfl, rfl, rfl, rfl⟩
  obtain ⟨hset, hcount⟩ := setCount_back hk s.keeper.slotB (s.keeper.count s.keeper.slotB + 1)
  obtain ⟨hback, hout, -⟩ := deviceReset_back (.refl s) 1 1 hset
  refine ⟨_, congrArg Host.Outcome.next (if_pos ⟨h3, h9, ?_, ?_, ?_, ?_, hd⟩), hback, hcount, hout⟩ <;> simp [*]

theorem heartbeat_counts (s : State) (th : ThreadId) (h3 : 3 ≤ s.keeper.step) (hh : s.keeper.heldCores = false) :
    exec (.heartbeat th) s = .next { s with keeper := { s.keeper with beats := tset 0 s.keeper.beats th.val (s.aoTick.toNat + 1) } } :=
  congrArg Host.Outcome.next (if_pos ⟨h3, by simp [hh]⟩)

/-- The keeper's resets within the hour, with the present one (16 R532). -/
def State.recentResets (s : State) : List Word64 :=
  (s.keeper.resets.filter fun (x : Word64) => decide (s.aoTick.toNat < x.toNat + 3600000000)) ++ [s.aoTick]

/-- What the keeper's restart leaves; the third within one hour is the last. -/
def State.Restarted (s t : State) : Prop :=
  t.keeper.alert = true ∧ t.keeper.resets = s.recentResets ∧
    (s.recentResets.length < 3 → s.Back t 1 ∧ t.out = s.out) ∧
    (3 ≤ s.recentResets.length → t.keeper.bootFail = true ∧ t.keeper.heldCores = true ∧ t.devstat = 3 ∧ t.out = s.out ++ [.mctp (.bootFailure .restarts)])

theorem foldl_fns {f : State → FnId → State} (hf : ∀ u i, ∃ q, f u i = { u with fns := q }) (l : List FnId) (s : State) :
    ∃ q, l.foldl f s = { s with fns := q } := by
  induction l generalizing s with
  | nil => exact ⟨s.fns, rfl⟩
  | cons i l ih =>
    obtain ⟨q, hq⟩ := ih (f s i)
    obtain ⟨p, hp⟩ := hf s i
    exact ⟨q, hq.trans (by rw [hp])⟩

theorem faulted_eq (s : State) : ∃ q, s.faulted = { s with devstat := 3, fns := q } := by
  refine foldl_fns (fun u i => ?_) allFns { s with devstat := 3 }
  split
  · exact ⟨_, rfl⟩
  · exact ⟨u.fns, rfl⟩

theorem noBoot_leaves (s : State) (c : BootCause) : (s.noBoot c).keeper = { s.keeper with heldCores := true, bootFail := true } ∧
    (s.noBoot c).devstat = 3 ∧ (s.noBoot c).out = s.out ++ [.mctp (.bootFailure c)] := by
  obtain ⟨q, hq⟩ := faulted_eq ({ s with
    keeper := { s.keeper with heldCores := true, bootFail := true }
    ports := tset HPort.reset (tset HPort.reset s.ports 0 { s.port 0 with vfs := 0, crs := false }) 1 { s.port 1 with vfs := 0, crs := false } })
  have heq : s.noBoot c = (State.faulted { s with
    keeper := { s.keeper with heldCores := true, bootFail := true }
    ports := tset HPort.reset (tset HPort.reset s.ports 0 { s.port 0 with vfs := 0, crs := false }) 1 { s.port 1 with vfs := 0, crs := false } }).emit
      (.mctp (.bootFailure c)) := rfl
  rw [heq, hq]
  exact ⟨rfl, rfl, rfl⟩

/-- The keeper with the alarm and the record of its restart of the device. -/
def State.alarmed (s : State) (a : AlarmKind) (c d : Byte) : Keeper :=
  { (s.alarm a).keeper with nor := (s.alarm a).keeper.nor ++ [controlRecord (s.alarm a) 3 c d] }

/-- The keeper after its reset of the device. -/
def State.restartKeeper (s : State) (a : AlarmKind) (c d : Byte) (l : List Word64) : Keeper :=
  { Keeper.restarted { s.alarmed a c d with failLatched := true, failAt := s.aoTick.toNat } 1 with resets := l }

theorem restartKeeper_back (s : State) (a : AlarmKind) (c d : Byte) (l : List Word64) : s.keeper.Back (s.restartKeeper a c d l) 1 := by
  dsimp only [Keeper.Back, State.restartKeeper, Keeper.restarted, State.alarmed, State.alarm]
  exact ⟨rfl, rfl, rfl, rfl, rfl⟩

theorem restartKeeper_img (s : State) (a : AlarmKind) (c d : Byte) (l : List Word64) (b : Bool) : (s.restartKeeper a c d l).img b = s.keeper.img b := by
  dsimp only [Keeper.img, State.restartKeeper, Keeper.restarted, State.alarmed, State.alarm]

/-- The keeper's restart of a device, and the keeper that it leaves. -/
theorem lastResort_restarts {s u : State} (hu : s.Halted u) (hr : u.keeper.resets = s.keeper.resets)
    (hk : ∀ n q, u.keeper.Back q n → s.keeper.Back q n) (a : AlarmKind) (c d : Byte) :
    s.Restarted (u.lastResort a c d) ∧ ∀ b, (u.lastResort a c d).keeper.img b = u.keeper.img b := by
  have htick : u.aoTick = s.aoTick := by
    obtain ⟨_, _, _, rfl⟩ := hu
    rfl
  have hrecent : u.recentResets = s.recentResets := by
    unfold State.recentResets
    rw [hr, htick]
  generalize hv : (State.powerFail { u with keeper := u.alarmed a c d }) = v
  have hq : ({ (v.deviceReset 1).keeper with resets := s.recentResets } : Keeper) = u.restartKeeper a c d s.recentResets := by
    rw [deviceReset_keeper, ← hv]
    rfl
  have himgs := restartKeeper_img u a c d s.recentResets
  have hback := hk 1 _ (restartKeeper_back u a c d s.recentResets)
  have halert : (u.restartKeeper a c d s.recentResets).alert = true := rfl
  have hres : (u.restartKeeper a c d s.recentResets).resets = s.recentResets := rfl
  generalize u.restartKeeper a c d s.recentResets = q at *
  have hhalt : s.Halted v := by
    rw [← hv]
    exact powerFail_halted (keeper_halted hu _)
  obtain ⟨hall, hout, -⟩ := deviceReset_back hhalt 1 1 hback
  have heq : u.lastResort a c d = if 3 ≤ s.recentResets.length then State.noBoot { v.deviceReset 1 with keeper := q } .restarts
      else { v.deviceReset 1 with keeper := q } := by
    rw [← hq, ← hrecent, ← hv]
    rfl
  rw [heq]
  by_cases h3 : 3 ≤ s.recentResets.length
  · obtain ⟨hk2, hd2, ho2⟩ := noBoot_leaves { v.deviceReset 1 with keeper := q } .restarts
    rw [if_pos h3]
    refine ⟨⟨?_, ?_, fun h => absurd h (by omega), fun _ => ⟨?_, ?_, hd2, ?_⟩⟩, ?_⟩
    · rw [hk2]
      exact halert
    · rw [hk2]
      exact hres
    · rw [hk2]
    · rw [hk2]
    · rw [ho2]
      exact congrArg (· ++ _) hout
    · rw [hk2]
      exact himgs
  · rw [if_neg h3]
    exact ⟨⟨halert, hres, fun _ => ⟨hall, hout⟩, fun h => absurd h h3⟩, himgs⟩

theorem heartbeatLoss_restarts (s : State) (th : ThreadId) (h0 : tget 0 s.keeper.beats th.val ≠ 0)
    (hb : tget 0 s.keeper.beats th.val + 99999 ≤ s.aoTick.toNat) : Answers (.heartbeatLoss th) s s.Restarted :=
  ⟨_, congrArg Host.Outcome.next (if_pos ⟨h0, hb⟩), (lastResort_restarts (.refl s) rfl (fun _ _ h => h) _ _ _).1⟩

theorem keeperLastResort_fatal (s : State) (h : s.regs.fatal = true) : Answers (.keeperLastResort false) s s.Restarted :=
  ⟨_, congrArg Host.Outcome.next ((if_neg Bool.false_ne_true).trans (if_pos h)), (lastResort_restarts (.refl s) rfl (fun _ _ h => h) _ _ _).1⟩

/-- The keeper once a NOR line of the running slot has failed. -/
def Keeper.norFailed (k : Keeper) : Keeper := k.program k.slotB { k.img k.slotB with sigOk := false }

theorem norFailed_resets (k : Keeper) : k.norFailed.resets = k.resets := by
  unfold Keeper.norFailed Keeper.program
  split <;> rfl

theorem norFailed_sigOk (k : Keeper) : (k.norFailed.img k.slotB).sigOk = false := by
  unfold Keeper.norFailed Keeper.program Keeper.img
  cases k.slotB <;> rfl

theorem norFailed_back {k q : Keeper} {n : Nat} (h : k.norFailed.Back q n) : k.Back q n := by
  unfold Keeper.norFailed Keeper.program Keeper.img at h
  cases hb : k.slotB <;> rw [hb] at h <;> exact h

/-- A NOR line that fails costs the running slot its signature. -/
theorem keeperLastResort_nor (s : State) (h3 : 3 ≤ s.keeper.step) (hr : s.keeper.recov = false) :
    Answers (.keeperLastResort true) s fun t => s.Restarted t ∧ (t.keeper.img s.keeper.slotB).sigOk = false := by
  obtain ⟨hres, himg⟩ := lastResort_restarts (keeper_halted (.refl s) s.keeper.norFailed) (norFailed_resets s.keeper)
    (fun _ _ => norFailed_back) .norLine 4 0
  refine ⟨_, congrArg Host.Outcome.next ((if_pos rfl).trans (if_pos ⟨h3, by simp [hr]⟩)), hres, ?_⟩
  exact (congrArg Img.sigOk (himg s.keeper.slotB)).trans (norFailed_sigOk s.keeper)

/-- Settles O46. -/
theorem resetsKeepWhatIsDurable : Obligations.ResetsKeepWhatIsDurable := by
  unfold Obligations.ResetsKeepWhatIsDurable
  intro s k back quiet
  refine ⟨fun ns => ⟨fun h => ⟨_, pwrFailAssert_long s ns h, rfl⟩, pwrFailAssert_short s ns, fun h5 h20 => ?_⟩,
    fun hf ht hr hc => ⟨pwrFailRestart_resets s hf ht hr hc, pwrFailRestart_early s⟩, sysRstAssert_resets s, fun h => congrArg _ (if_pos h),
    crystalLoss_resets s, fun _ => crystalRecovery_early s, crystalRecovery_recovers s, keeperStart_starts s, startWaitTimeout_givesUp s,
    bootWatchdog_resets s, heartbeat_counts s, ?_⟩
  · rcases pwrFailAssert_either s ns h5 h20 with he | he
    · exact ⟨_, he, rfl, .inr rfl⟩
    · exact ⟨_, he, rfl, .inl rfl⟩
  · intro recent last
    exact ⟨heartbeatLoss_restarts s, keeperLastResort_fatal s, keeperLastResort_nor s⟩

end Sys2Proof.Machine
end

section
/-! O47: the start sequence, GLB_BOOTOK, GLB_LOCK and the fuses (15 R490, R496 to R498, R508, 17 R535 to R541, R551). -/

namespace Sys2Proof.Machine

/-! ### The keeper's choice -/

theorem writeDir_eq (k : Keeper) (pref trial : Bool) (n : BitVec 2) : ∃ d0 d1, k.writeDir pref trial n = { k with dir0 := d0, dir1 := d1 } := by
  unfold Keeper.writeDir
  dsimp only
  split
  · exact ⟨k.dir0, _, rfl⟩
  · exact ⟨_, k.dir1, rfl⟩

/-- The choice counts a trial start in the directory, and leaves the rest of the keeper. -/
theorem choose_keeper (k : Keeper) (spi : Option Img) : ∃ d0 d1, (k.choose spi).2 = { k with dir0 := d0, dir1 := d1 } := by
  unfold Keeper.choose
  extract_lets d pref trial tries counted k1
  have hk1 : ∃ d0 d1, k1 = { k with dir0 := d0, dir1 := d1 } := by
    by_cases hc : counted = true
    · obtain ⟨d0, d1, h⟩ := writeDir_eq k pref true (tries + 1)
      exact ⟨d0, d1, (if_pos hc).trans h⟩
    · exact ⟨k.dir0, k.dir1, if_neg hc⟩
  split
  · exact hk1
  · split
    · exact hk1
    · split
      · split <;> exact hk1
      · exact hk1

/-! ### Clusters and drives of a start -/

/-- What steps 6 and 7 make of a cluster. -/
def Clu.started (c : Clu) (i : StartIn) (bad : Bool) (repairs : List Nat) : Clu :=
  if bad then { c with pst := .c4, floor := 4, removed := true }
  else (c.loadMicrocode i.patches repairs).getD { c with pst := .c4, floor := 4, removed := true }

/-- The microcode words of a cluster in the repair list. -/
def Keeper.repairsOf (k : Keeper) (n : CluId) : List Nat := (k.repair.filter fun r => r.1 == n.val).map (·.2)

theorem startCluster_eq (s : State) (i : StartIn) (n : CluId) :
    s.startCluster i n = s.setClu n ((s.clu n).started i (i.bad.contains n) (s.keeper.repairsOf n)) := by
  unfold State.startCluster Clu.started State.failCluster Keeper.repairsOf
  cases i.bad.contains n with
  | true => rfl
  | false =>
    rw [if_neg Bool.false_ne_true, if_neg Bool.false_ne_true]
    cases (s.clu n).loadMicrocode i.patches ((s.keeper.repair.filter fun r => r.1 == n.val).map (·.2)) <;> rfl

theorem startCluster_foldl (i : StartIn) (l : List CluId) (hl : l.Nodup) (s : State) :
    ∃ q, l.foldl (fun (t : State) k => t.startCluster i k) s = { s with clus := q } ∧
      ∀ k, State.clu { s with clus := q } k =
        if k ∈ l then (s.clu k).started i (i.bad.contains k) (s.keeper.repairsOf k) else s.clu k := by
  induction l generalizing s with
  | nil => exact ⟨s.clus, rfl, fun k => (if_neg List.not_mem_nil).symm⟩
  | cons j l ih =>
    obtain ⟨hj, hl⟩ := List.nodup_cons.1 hl
    obtain ⟨q, hq, hclu⟩ := ih hl (s.startCluster i j)
    rw [startCluster_eq] at hq hclu
    refine ⟨q, ?_, fun k => (hclu k).trans ?_⟩
    · rw [List.foldl_cons, startCluster_eq]
      exact hq
    · by_cases hk : k = j
      · subst hk
        rw [if_neg hj, if_pos List.mem_cons_self, State.setClu_clu_same]
      · rw [State.setClu_clu_ne s j _ k hk]
        exact if_congr (by simp [hk]) rfl rfl

theorem started_bad (c : Clu) (i : StartIn) (l : List Nat) : (c.started i true l).pst = .c4 ∧ (c.started i true l).removed = true := ⟨rfl, rfl⟩

theorem started_loaded (c : Clu) {i : StartIn} (hr : i.patches.replaced.length ≤ 16) (hw : i.patches.words.length ≤ 128) :
    (c.started i false []).pen = true ∧ (c.started i false []).patchLvl = i.patches.level := by
  unfold Clu.started Clu.loadMicrocode
  rw [if_neg Bool.false_ne_true, if_neg (by simp only [List.length_nil]; omega)]
  exact ⟨rfl, rfl⟩

theorem repairsOf_nil {k : Keeper} {n : CluId} (h : ∀ r ∈ k.repair, r.1 ≠ n.val) : k.repairsOf n = [] := by
  unfold Keeper.repairsOf
  rw [List.filter_eq_nil_iff.2 fun r hr => by simpa using h r hr]
  rfl

/-- One drive of STORAGE_BRINGUP. -/
def State.bringUpOne (i : StartIn) (t : State) (p : StoragePort) : State :=
  match (i.drives.find? fun d => d.1 == p).bind fun d => DriveReport.usable d.2 with
  | some b => t.setSport p { t.sport p with used := true, perst := false, blocks := b.toNat }
  | none => State.report (t.setSport p { t.sport p with perst := false }) (storageRecord t p)

theorem bringUp_eq (s : State) (i : StartIn) : s.bringUp i = i.listed.foldl (State.bringUpOne i) s := rfl

theorem bringUpOne_rest (i : StartIn) (s : State) (p : StoragePort) : ∃ q e, State.bringUpOne i s p = { s with sports := q, errq := e } := by
  unfold State.bringUpOne
  split
  · exact ⟨_, s.errq, rfl⟩
  · exact ⟨_, _, rfl⟩

theorem bringUpOne_sport_ne (i : StartIn) (s : State) {p j : StoragePort} (h : j ≠ p) : (State.bringUpOne i s p).sport j = s.sport j := by
  unfold State.bringUpOne
  split
  · exact State.setSport_sport_ne _ _ _ _ h
  · exact State.setSport_sport_ne _ _ _ _ h

/-- A drive that is used, with its capacity. -/
def SPort.Brought (q : SPort) (b : Nat) : Prop := q.used = true ∧ q.blocks = b

theorem bringUpOne_brought {i : StartIn} (s : State) {p : StoragePort} {b : BitVec 40}
    (hd : ((i.drives.find? fun d => d.1 == p).bind fun d => DriveReport.usable d.2) = some b) :
    ((State.bringUpOne i s p).sport p).Brought b.toNat := by
  unfold State.bringUpOne
  rw [hd]
  dsimp only
  rw [State.setSport_sport_same]
  exact ⟨rfl, rfl⟩

theorem bringUp_foldl (i : StartIn) (l : List StoragePort) (s : State) :
    (∃ q e, l.foldl (State.bringUpOne i) s = { s with sports := q, errq := e }) ∧
    ∀ (p : StoragePort) (b : BitVec 40), ((i.drives.find? fun d => d.1 == p).bind fun d => DriveReport.usable d.2) = some b →
      p ∈ l ∨ (s.sport p).Brought b.toNat → ((l.foldl (State.bringUpOne i) s).sport p).Brought b.toNat := by
  induction l generalizing s with
  | nil => exact ⟨⟨s.sports, s.errq, rfl⟩, fun p b _ h => h.resolve_left List.not_mem_nil⟩
  | cons j l ih =>
    obtain ⟨⟨q, e, hrest⟩, hall⟩ := ih (State.bringUpOne i s j)
    obtain ⟨q1, e1, h1⟩ := bringUpOne_rest i s j
    refine ⟨⟨q, e, hrest.trans (by rw [h1])⟩, fun p b hd h => hall p b hd ?_⟩
    by_cases hp : p = j
    · subst hp
      exact .inr (bringUpOne_brought s hd)
    · exact h.imp (fun hm => (List.mem_cons.1 hm).resolve_left hp) fun hb => by rw [bringUpOne_sport_ne i s hp]; exact hb

/-! ### The ports of a start -/

/-- A change of both ports. -/
def State.withPorts (s : State) (f : HPort → HPort) : State :=
  { s with ports := tset HPort.reset (tset HPort.reset s.ports 0 (f (s.port 0))) 1 (f (s.port 1)) }

theorem withPorts_port (s : State) (f : HPort → HPort) (p : PortId) : (s.withPorts f).port p = f (s.port p) := by
  match p with
  | 0 => exact (tget_tset_ne _ _ _ _ (by decide)).trans (tget_tset_same _ _ _ _)
  | 1 => exact tget_tset_same _ _ _ _

/-- A port that shows the PF alone; a port that answers requests. -/
def HPort.pfAlone (q : HPort) : HPort := { q with vfs := 0, crs := false }
def HPort.answering (q : HPort) : HPort := { q with crs := false }

/-- The ports once no slot image runs. -/
theorem pfOnly_leaves (s : State) : s.pfOnly.keeper = s.keeper ∧ s.pfOnly.devstat = 3 ∧ ∀ p, (s.pfOnly.port p).vfs = 0 ∧ (s.pfOnly.port p).crs = false := by
  obtain ⟨q, hq⟩ := faulted_eq (s.withPorts HPort.pfAlone)
  have heq : s.pfOnly = { s.withPorts HPort.pfAlone with devstat := 3, fns := q } := hq
  have hp : ∀ p, s.pfOnly.port p = (s.port p).pfAlone := fun p => by
    rw [heq]
    exact withPorts_port s HPort.pfAlone p
  exact ⟨by rw [heq]; rfl, by rw [heq], fun p => by rw [hp]; exact ⟨rfl, rfl⟩⟩

/-! ### Steps 1 to 9 -/

/-- The links train, and step 9 is reached. -/
def State.stepNine (s : State) : State :=
  { s with
    pleach := { s.pleach with
      links := tmap Link.reset s.pleach.links fun l =>
        if l.en then { l with state := .training, attempts := 1, since := s.aoTick.toNat } else l }
    keeper := { s.keeper with step := 9 } }

theorem startSlot_eq (s : State) {i : StartIn} (hf : i.failed = []) : s.startSlot i true =
    State.stepNine ((State.withPorts (allClus.foldl (fun (t : State) k => t.startCluster i k) (s.train i)) HPort.answering).bringUp i) := by
  unfold State.startSlot
  rw [hf]
  rfl

/-- What a start of a slot image leaves at step 9. -/
theorem startSlot_starts (s : State) {i : StartIn} (hf : i.failed = []) : let t := s.startSlot i true
    t.keeper = { s.keeper with step := 9 } ∧ t.devstat = s.devstat ∧ (∀ p, (t.port p).crs = false) ∧
    (∀ (p : StoragePort) (b : BitVec 40), ((i.drives.find? fun d => d.1 == p).bind fun d => DriveReport.usable d.2) = some b → p ∈ i.listed →
      (t.sport p).Brought b.toNat) ∧
    ∀ k, t.clu k = (s.clu k).started i (i.bad.contains k) (s.keeper.repairsOf k) := by
  intro t
  obtain ⟨q, hq, hclu⟩ := startCluster_foldl i allClus (List.nodup_finRange 32) (s.train i)
  have heq := startSlot_eq s hf
  rw [hq] at heq
  obtain ⟨⟨sp, er, hrest⟩, hbrought⟩ := bringUp_foldl i i.listed (State.withPorts { s.train i with clus := q } HPort.answering)
  rw [← bringUp_eq] at hrest hbrought
  generalize hu : (State.withPorts { s.train i with clus := q } HPort.answering).bringUp i = u at heq hrest hbrought
  have ht : t = u.stepNine := heq
  refine ⟨?_, ?_, fun p => ?_, fun p b hd hp => ?_, fun k => ?_⟩
  · rw [ht, hrest]
    rfl
  · rw [ht, hrest]
    rfl
  · rw [ht, hrest]
    exact congrArg HPort.crs (withPorts_port { s.train i with clus := q } HPort.answering p)
  · rw [ht]
    exact hbrought p b hd (.inl hp)
  · rw [ht, hrest]
    exact (hclu k).trans (if_pos (List.mem_finRange k))

/-- The keeper may start an image. -/
def Keeper.mayStart (k : Keeper) : Prop :=
  k.awake = true ∧ k.failLatched = false ∧ k.crystalLost = false ∧ k.thermtrip = false ∧ k.gaveUp = false ∧ k.bootFail = false

theorem startSequence_goes (s : State) (i : StartIn) (hk : s.keeper.mayStart) : exec (.startSequence i) s =
    .next (if s.keeper.step ≤ 1 ∧ s.devstat = 0 then
      if i.rails then State.startUp { s with keeper := { s.keeper with rst := false, rails := i.rails } } i
      else { s with keeper := { s.keeper with rst := false, rails := i.rails } }
    else if s.keeper.step = 12 ∧ s.devstat = 1 then s.ready i else s) := by
  obtain ⟨h1, h2, h3, h4, h5, h6⟩ := hk
  refine congrArg Host.Outcome.next (if_neg ?_)
  rw [h1, h2, h3, h4, h5, h6]
  exact Bool.false_ne_true

section first
variable (s : State) (i : StartIn) (hk : s.keeper.mayStart) (h1 : s.keeper.step ≤ 1) (hd : s.devstat = 0)
include hk h1 hd

theorem startSequence_waits (hr : i.rails = false) :
    exec (.startSequence i) s = .next { s with keeper := { s.keeper with rst := false, rails := false } } := by
  rw [startSequence_goes s i hk, if_pos ⟨h1, hd⟩, hr, if_neg Bool.false_ne_true]

/-- The state once the keeper has seen SYS_RST_N and the rails. -/
def State.powered (s : State) : State := { s with keeper := { s.keeper with rst := false, rails := true } }

theorem startSequence_starts (hr : i.rails = true) : exec (.startSequence i) s = .next (s.powered.startUp i) := by
  rw [startSequence_goes s i hk, if_pos ⟨h1, hd⟩, hr, if_pos rfl]
  rfl

end first

theorem startUp_slot (s : State) (i : StartIn) {b trial : Bool} (h : (s.keeper.choose i.spi).1 = .slot b trial) :
    s.startUp i = (s.release (s.keeper.choose i.spi).2 (s.keeper.img b) b false trial).startSlot i (s.keeper.img b).patchOk := by
  unfold State.startUp
  dsimp only
  rw [h]

theorem startUp_recovery (s : State) (i : StartIn) {img : Img} (h : (s.keeper.choose i.spi).1 = .recovery img) :
    s.startUp i = State.pfOnly { s.release (s.keeper.choose i.spi).2 img false true false with
      keeper := { (s.release (s.keeper.choose i.spi).2 img false true false).keeper with step := 3 } } := by
  unfold State.startUp
  dsimp only
  rw [h]

theorem startUp_none (s : State) (i : StartIn) (h : (s.keeper.choose i.spi).1 = .none) :
    s.startUp i = State.noBoot { s with keeper := (s.keeper.choose i.spi).2 } .noImage := by
  unfold State.startUp
  dsimp only
  rw [h]

/-- What a start of a slot leaves, from the keeper's choice on. -/
theorem startUp_slot_starts (s : State) {i : StartIn} {b trial : Bool} (hch : (s.keeper.choose i.spi).1 = .slot b trial) (hf : i.failed = [])
    (hp : (s.keeper.img b).patchOk = true) : let t := s.startUp i
    t.keeper.step = 9 ∧ t.keeper.slotB = b ∧ t.keeper.recov = false ∧ t.keeper.trial = trial ∧
      t.keeper.released = s.aoTick.toNat ∧ (∀ p, (t.port p).crs = false) ∧ t.devstat = s.devstat ∧
      (∀ p d b, p ∈ i.listed → (i.drives.find? fun d => d.1 == p) = some (p, d) → DriveReport.usable d = some b →
        (t.sport p).used = true ∧ (t.sport p).blocks = b.toNat) ∧
      ∀ n : CluId, (n ∈ i.bad → (t.clu n).pst = .c4 ∧ (t.clu n).removed = true) ∧
        (n ∉ i.bad → (∀ r ∈ s.keeper.repair, r.1 ≠ n.val) → i.patches.replaced.length ≤ 16 → i.patches.words.length ≤ 128 →
          (t.clu n).pen = true ∧ (t.clu n).patchLvl = i.patches.level) := by
  intro t
  obtain ⟨d0, d1, hk⟩ := choose_keeper s.keeper i.spi
  have hrep : (s.release (s.keeper.choose i.spi).2 (s.keeper.img b) b false trial).keeper.repair = s.keeper.repair := by
    show (s.keeper.choose i.spi).2.repair = _
    rw [hk]
  obtain ⟨hkeep, hdev, hport, hsport, hclu⟩ := startSlot_starts (s.release (s.keeper.choose i.spi).2 (s.keeper.img b) b false trial) hf
  have ht : t = (s.release (s.keeper.choose i.spi).2 (s.keeper.img b) b false trial).startSlot i true :=
    (startUp_slot s i hch).trans (by rw [hp])
  rw [ht]
  rw [hkeep]
  refine ⟨rfl, rfl, rfl, rfl, rfl, hport, hdev, fun p d c hin hfind hus => ?_, fun n => ⟨fun hn => ?_, fun hn hr hr16 hw => ?_⟩⟩
  · exact hsport p c (by rw [hfind]; exact hus) hin
  · rw [hclu, List.contains_iff_mem.2 hn]
    exact started_bad _ i _
  · rw [hclu, Bool.eq_false_iff.2 (fun h => hn (List.contains_iff_mem.1 h)), repairsOf_nil (by rw [hrep]; exact hr)]
    exact started_loaded _ hr16 hw

theorem noBoot_out_last (s : State) (c : BootCause) : (s.noBoot c).out.getLast? = some (.mctp (.bootFailure c)) := by
  rw [(noBoot_leaves s c).2.2]
  exact List.getLast?_concat

theorem startSlot_failed (s : State) {i : StartIn} (p : Bool) (hf : i.failed ≠ []) : s.startSlot i p = s.noBoot .hbmChannel := by
  unfold State.startSlot
  exact if_pos (by simp [hf])

/-! ### Step 13 -/

/-- A hedge as its record has it. -/
def Hedge.Recorded (g : Hedge) (d : HedgeDef) : Prop := g.fn = some d.fn ∧ g.par = d.par ∧ g.progs = d.progs

theorem reopenHedge_rest (s : State) (h : HedgeId) (d : HedgeDef) : ∃ g f, s.reopenHedge h d = { s with hedges := g, fns := f } := ⟨_, _, rfl⟩

/-- A hedge as its reopening leaves it. -/
def State.reopened (s : State) (h : HedgeId) (d : HedgeDef) : Hedge :=
  { s.hedge h with
    fn := some d.fn, par := d.par, progs := d.progs, super := d.super, tables := d.tables, effMin := d.par.emin
    ecommit := BitVec.ofNat 18 d.par.gcommit, ehbm := BitVec.ofNat 8 d.par.ghbm, quota := BitVec.ofNat 14 d.par.lquota
    stored := ((s.durable.filter fun kv => kv.1 / 2 ^ 48 == h.val).map fun kv => levelFrames kv.2.1).sum, pairTell := s.lehr.pairdeg }

theorem reopenHedge_hedge (s : State) (h j : HedgeId) (d : HedgeDef) :
    (s.reopenHedge h d).hedge j = (s.setHedge h (s.reopened h d)).hedge j := rfl

theorem reopenHedge_same (s : State) (h : HedgeId) (d : HedgeDef) : ((s.reopenHedge h d).hedge h).Recorded d := by
  rw [reopenHedge_hedge, State.setHedge_hedge_same]
  exact ⟨rfl, rfl, rfl⟩

theorem reopenHedge_ne (s : State) {h j : HedgeId} (d : HedgeDef) (hj : j ≠ h) : (s.reopenHedge h d).hedge j = s.hedge j := by
  rw [reopenHedge_hedge, State.setHedge_hedge_ne s h _ j hj]

/-- One hedge of HEDGE_REOPEN. -/
def State.reopenOne (t : State) (p : Pleach) (st : Tab (Option HedgeDef)) (h : HedgeId) : State :=
  match tget none st h.val with
  | some d => if p.prepared.any (fun m => m.here == h) || p.moved.any (fun m => m.here == h) then t else t.reopenHedge h d
  | none => t

theorem reopenHedges_eq (s : State) : s.reopenHedges = (List.finRange 64).foldl (fun (t : State) h => t.reopenOne s.pleach s.store h) s := rfl

theorem reopenOne_rest (s : State) (p : Pleach) (st : Tab (Option HedgeDef)) (h : HedgeId) :
    ∃ g f, s.reopenOne p st h = { s with hedges := g, fns := f } := by
  unfold State.reopenOne
  split
  · split
    · exact ⟨s.hedges, s.fns, rfl⟩
    · exact reopenHedge_rest s h _
  · exact ⟨s.hedges, s.fns, rfl⟩

theorem reopenOne_ne (s : State) (p : Pleach) (st : Tab (Option HedgeDef)) {h j : HedgeId} (hj : j ≠ h) :
    (s.reopenOne p st h).hedge j = s.hedge j := by
  unfold State.reopenOne
  split
  · split
    · rfl
    · exact reopenHedge_ne s _ hj
  · rfl

theorem reopenOne_same (s : State) {p : Pleach} {st : Tab (Option HedgeDef)} {h : HedgeId} {d : HedgeDef} (hd : tget none st h.val = some d)
    (hp : ∀ m ∈ p.prepared, m.here ≠ h) (hm : ∀ m ∈ p.moved, m.here ≠ h) : ((s.reopenOne p st h).hedge h).Recorded d := by
  have h1 : (p.prepared.any fun m => m.here == h) = false := List.any_eq_false.2 fun m hin => by simpa using hp m hin
  have h2 : (p.moved.any fun m => m.here == h) = false := List.any_eq_false.2 fun m hin => by simpa using hm m hin
  unfold State.reopenOne
  rw [hd]
  dsimp only
  rw [h1, h2, Bool.or_self, if_neg Bool.false_ne_true]
  exact reopenHedge_same s h d

theorem reopen_foldl (p : Pleach) (st : Tab (Option HedgeDef)) (l : List HedgeId) (s : State) :
    (∃ g f, l.foldl (fun (t : State) h => t.reopenOne p st h) s = { s with hedges := g, fns := f }) ∧
    ∀ (h : HedgeId) d, tget none st h.val = some d → (∀ m ∈ p.prepared, m.here ≠ h) → (∀ m ∈ p.moved, m.here ≠ h) →
      h ∈ l ∨ (s.hedge h).Recorded d → ((l.foldl (fun (t : State) h => t.reopenOne p st h) s).hedge h).Recorded d := by
  induction l generalizing s with
  | nil => exact ⟨⟨s.hedges, s.fns, rfl⟩, fun h d _ _ _ hin => hin.resolve_left List.not_mem_nil⟩
  | cons j l ih =>
    obtain ⟨⟨g, f, hrest⟩, hall⟩ := ih (s.reopenOne p st j)
    obtain ⟨g1, f1, h1⟩ := reopenOne_rest s p st j
    refine ⟨⟨g, f, hrest.trans (by rw [h1])⟩, fun h d hd hp hm hin => hall h d hd hp hm ?_⟩
    by_cases hj : h = j
    · subst hj
      exact .inr (reopenOne_same s hd hp hm)
    · exact hin.imp (fun hmem => (List.mem_cons.1 hmem).resolve_left hj) fun hr => by rw [reopenOne_ne s p st hj]; exact hr

/-- Step 13 with no engine to lend. -/
theorem ready_reopens (s : State) {i : StartIn} (hl : i.lend = []) : (s.ready i).devstat = 2 ∧ (s.ready i).keeper.step = 13 ∧
    ∀ (h : HedgeId) d, tget none s.store h.val = some d → (∀ m ∈ s.pleach.prepared, m.here ≠ h) → (∀ m ∈ s.pleach.moved, m.here ≠ h) →
      ((s.ready i).hedge h).Recorded d := by
  obtain ⟨-, hall⟩ := reopen_foldl s.pleach s.store (List.finRange 64) s
  rw [← reopenHedges_eq] at hall
  have hlend : ((List.finRange 64).flatMap fun h => i.lend.filter fun q => q.1 == h) = [] := by
    rw [hl]
    exact List.flatMap_eq_nil_iff.2 fun h _ => rfl
  unfold State.ready
  dsimp only
  rw [hlend, List.foldl_nil]
  obtain ⟨q, hq⟩ := foldl_fns (f := fun (t : State) f => if (t.fn f).opening then t.modFn f fun q => { q with state := .ready, opening := false } else t)
    (fun u i => by
      split
      · exact ⟨_, rfl⟩
      · exact ⟨u.fns, rfl⟩) allFns
    { s.reopenHedges with
      devstat := 2, keeper := { s.reopenHedges.keeper with step := 13 }
      lehr := { s.reopenHedges.lehr with localFirst := s.reopenHedges.lehr.gcsdur + 1, localLast := s.reopenHedges.lehr.gcsdur } }
  rw [hq]
  exact ⟨rfl, rfl, fun h d hd hp hm => hall h d hd hp hm (.inl (List.mem_finRange h))⟩

/-! ### GLB_BOOTOK, GLB_LOCK and the fuses -/

/-- What the keeper lodges of the running slot's SVN. -/
def Keeper.lodged (k : Keeper) : Option Nat :=
  if imgSvnCommit (k.img k.slotB) && decide (k.svnf < imgSvn (k.img k.slotB)) then some (imgSvn (k.img k.slotB)) else none

theorem setCount_step (k : Keeper) (b : Bool) (n : Nat) : (k.setCount b n).step = k.step := by
  cases b <;> rfl

theorem setCount_confirmed (k : Keeper) (b : Bool) (n : Nat) (d0 d1 : BootDir) (v : Option Nat) (m : Nat) :
    Keeper.count { k.setCount b n with svnCommit := v, dir0 := d0, dir1 := d1, dirDone := true, step := m } b = n := by
  cases b <;> rfl

theorem confirmed_eq (k : Keeper) (h : k.recov = false) : ∃ d0 d1,
    k.confirmed = { k.setCount k.slotB 0 with svnCommit := k.lodged, dir0 := d0, dir1 := d1, dirDone := true } := by
  unfold Keeper.confirmed
  rw [if_neg (by rw [h]; exact Bool.false_ne_true)]
  extract_lets i k1 k2
  have hw : ∀ p t n, ∃ d0 d1, { k2.writeDir p t n with dirDone := true } =
      { k.setCount k.slotB 0 with svnCommit := k.lodged, dir0 := d0, dir1 := d1, dirDone := true } := fun p t n => by
    obtain ⟨d0, d1, hd⟩ := writeDir_eq k2 p t n
    exact ⟨d0, d1, by rw [hd]; rfl⟩
  have hs : ∃ d0 d1, { k2 with dirDone := true } =
      { k.setCount k.slotB 0 with svnCommit := k.lodged, dir0 := d0, dir1 := d1, dirDone := true } := ⟨k2.dir0, k2.dir1, rfl⟩
  split
  · split
    · exact hs
    · exact hw _ _ _
  · have hall : ∀ c : Bool, ∃ d0 d1, { (if c = true then k2.writeDir true false 0 else k2) with dirDone := true } =
        { k.setCount k.slotB 0 with svnCommit := k.lodged, dir0 := d0, dir1 := d1, dirDone := true } := fun c =>
      match c with
      | true => hw _ _ _
      | false => hs
    exact hall k.slotB

theorem confirmed_step (k : Keeper) : k.confirmed.step = k.step := by
  by_cases h : k.recov = true
  · unfold Keeper.confirmed
    rw [if_pos h]
  · obtain ⟨d0, d1, hc⟩ := confirmed_eq k (Bool.eq_false_iff.2 h)
    rw [hc]
    exact setCount_step k _ _

section bootok
variable (s : State) {r : Requester} {v : Word64} (hr : s.reaches r = true)
include hr

theorem glbBootokWrite_first (hw : s.regs.bootokW = false) (hv : bit v 0 = true) {th : ThreadId} (hth : r = .thread th) (h9 : s.keeper.step = 9)
    (hp : s.pleachPart = true) (hf : s.keeper.failLatched = false) : exec (.glbBootokWrite r v) s = .next { s with
      regs := { s.regs with bootokW := true, bootok := bit v 0, lock := true }, devstat := 1, keeper := { s.keeper.confirmed with step := 10 } } := by
  subst hth
  show execGlbBootokWrite _ v s = _
  unfold execGlbBootokWrite
  dsimp only
  rw [hr, hw, hv, if_neg (by decide), if_neg (by decide), if_neg (by decide), if_pos ⟨h9, hp, by simp [hf]⟩]

theorem glbBootokWrite_early (hw : s.regs.bootokW = false) (hv : bit v 0 = true) (h9 : s.keeper.step ≠ 9) :
    exec (.glbBootokWrite r v) s = .next { s with regs := { s.regs with bootokW := true, bootok := bit v 0 }, keeper := s.keeper.confirmed } := by
  show execGlbBootokWrite _ v s = _
  unfold execGlbBootokWrite
  dsimp only
  rw [hr, hw, hv, if_neg (by decide), if_neg (by decide), if_neg (by decide)]
  split
  · rw [if_neg (fun h => h9 h.1)]
  · rfl

theorem glbBootokWrite_again (hw : s.regs.bootokW = true) : exec (.glbBootokWrite r v) s = .next (s.violation r 0x20 true kindWO) := by
  show execGlbBootokWrite _ v s = _
  unfold execGlbBootokWrite
  rw [hr, hw, if_neg (by decide), if_pos rfl]

end bootok

theorem violation_leaves (s : State) (r : Requester) (a : Nat) (k : BitVec 2) : let t := s.violation r a true k
    t.regs.lockviol = true ∧ t.regs.secalm = true ∧ t.regs.bootok = s.regs.bootok ∧ t.keeper.alert = true ∧ t.keeper.step = s.keeper.step := by
  intro t
  have ht : t = s.violation r a true k := rfl
  unfold State.violation at ht
  dsimp only at ht
  rw [if_pos rfl, Bool.or_true] at ht
  rw [ht]
  cases s.regs.lockviol <;> exact ⟨rfl, rfl, rfl, rfl, rfl⟩

/-- Settles O47. -/
theorem theDeviceStarts : Obligations.TheDeviceStarts := by
  unfold Obligations.TheDeviceStarts
  intro s k
  refine ⟨fun i ha hf hc ht hg hb => ⟨fun h1 hd => ⟨startSequence_waits s i ⟨ha, hf, hc, ht, hg, hb⟩ h1 hd, fun hr => ?_⟩, fun h12 hd hl => ?_⟩,
    fun r v hr hw hv => ⟨fun th hth h9 hp hf => ?_, fun h9 => ?_⟩, fun r v hr hw => ⟨_, glbBootokWrite_again s hr hw, violation_leaves s r _ _⟩,
    fun r hr => congrArg _ (if_pos hr), fun th q => ⟨fun hl => ?_, fun hl => ?_⟩, fun v hv => ⟨fun hd => ?_, fun hd => ?_⟩⟩
  · have hexec := startSequence_starts s i ⟨ha, hf, hc, ht, hg, hb⟩ h1 hd hr
    obtain ⟨d0, d1, hk1⟩ := choose_keeper s.powered.keeper i.spi
    intro k1
    refine ⟨fun b trial hch hfail hpatch => ?_, fun b trial hch hfail => ?_, fun img hch => ?_, fun hch => ?_⟩
    · exact ⟨_, hexec, (startUp_slot_starts s.powered hch hfail hpatch).imp_right fun ⟨h2, h3, h4, h5, h6, h7, h8⟩ => ⟨h2, h3, h4, h5, h6, h7.trans hd, h8⟩⟩
    · have heq := (startUp_slot s.powered i hch).trans (startSlot_failed _ _ hfail)
      rw [heq] at hexec
      obtain ⟨hk, hdev, -⟩ := noBoot_leaves (s.powered.release (s.powered.keeper.choose i.spi).2 (s.powered.keeper.img b) b false trial) .hbmChannel
      exact ⟨_, hexec, by rw [hk], by rw [hk], hdev, noBoot_out_last _ _⟩
    · rw [startUp_recovery s.powered i hch] at hexec
      obtain ⟨hk, hdev, hport⟩ := pfOnly_leaves { s.powered.release (s.powered.keeper.choose i.spi).2 img false true false with
        keeper := { (s.powered.release (s.powered.keeper.choose i.spi).2 img false true false).keeper with step := 3 } }
      exact ⟨_, hexec, by rw [hk]; rfl, by rw [hk], hdev, hport⟩
    · rw [startUp_none s.powered i hch] at hexec
      obtain ⟨hk, hdev, -⟩ := noBoot_leaves { s.powered with keeper := (s.powered.keeper.choose i.spi).2 } .noImage
      exact ⟨_, hexec, by rw [hk], hdev, noBoot_out_last _ _⟩
  · refine ⟨s.ready i, (startSequence_goes s i ⟨ha, hf, hc, ht, hg, hb⟩).trans ?_, ready_reopens s hl⟩
    rw [if_neg (fun h => by have := h.1; rw [show s.keeper.step = 12 from h12] at this; omega), if_pos ⟨h12, hd⟩]
  · refine ⟨_, glbBootokWrite_first s hr hw hv hth h9 hp hf, by rw [hv], rfl, rfl, fun hrec => ?_⟩
    obtain ⟨d0, d1, hc⟩ := confirmed_eq s.keeper hrec
    rw [hc]
    refine ⟨?_, rfl, ?_⟩
    · exact setCount_confirmed s.keeper s.keeper.slotB 0 d0 d1 _ 10
    · show s.keeper.lodged = _
      unfold Keeper.lodged
      simp only [Bool.and_eq_true, decide_eq_true_eq]
      rfl
  · exact ⟨_, glbBootokWrite_early s hr hw hv h9, by rw [hv], rfl, confirmed_step s.keeper⟩
  · exact ⟨s.alarm .fuse, congrArg Host.Outcome.next (if_pos hl), rfl, rfl, rfl, rfl⟩
  · refine congrArg _ ((if_neg (by rw [hl]; exact Bool.false_ne_true)).trans ?_)
    cases q <;> rfl
  · show execSvnCommit s = _
    unfold execSvnCommit
    dsimp only
    rw [hv]
    exact congrArg _ (if_pos hd)
  · show execSvnCommit s = _
    unfold execSvnCommit
    dsimp only
    rw [hv]
    exact congrArg _ (if_neg (by rw [hd]; exact Bool.false_ne_true))

end Sys2Proof.Machine
end

section
/-! O51: links, membership and snapshots (17 R543 to R548, R557 to R559). -/

namespace Sys2Proof.Machine

/-! ### Links -/

theorem linkChanged_leaves (s : State) (l : LinkId) (x : Link) : (s.linkChanged l x).link l = x ∧ (s.linkChanged l x).pleach.settled = false ∧
    (s.linkChanged l x).pleach.setid = s.pleach.setid :=
  ⟨State.setLink_link_same s l x, rfl, rfl⟩

theorem snapAborted_leaves (s : State) : s.snapAborted.pleach.links = s.pleach.links ∧ s.snapAborted.pleach.settled = s.pleach.settled ∧
    s.snapAborted.pleach.setid = s.pleach.setid ∧ s.snapAborted.out = s.out := by
  unfold State.snapAborted
  split <;> exact ⟨rfl, rfl, rfl, rfl⟩

theorem snapAborted_stops (s : State) : s.snapAborted.pleach.collecting = s.pleach.collecting ∧
    (s.pleach.snapState = 1 → s.snapAborted.lehr = { s.lehr with paused := false } ∧ s.snapAborted.pleach.snapState = 0 ∧
      s.snapAborted.pleach.snapAbort = true) := by
  unfold State.snapAborted
  split
  · exact ⟨rfl, fun _ => ⟨rfl, rfl, rfl⟩⟩
  · next h => exact ⟨rfl, fun h1 => absurd h1 h⟩

theorem cutShort_leaves (s : State) : s.cutShort.pleach.links = s.pleach.links ∧ s.cutShort.pleach.settled = s.pleach.settled ∧
    s.cutShort.pleach.setid = s.pleach.setid := by
  unfold State.cutShort
  split
  · obtain ⟨h1, h2, h3, -⟩ := snapAborted_leaves
      ((s.modPleach fun p => { p with collecting := none, replies := [], reached := [] }).emit (.release _ true))
    exact ⟨h1, h2, h3⟩
  · obtain ⟨h1, h2, h3, -⟩ := snapAborted_leaves s
    exact ⟨h1, h2, h3⟩

/-- A link that changes, and the snapshot that it may cut short. -/
theorem linkChanged_cutShort (s : State) (l : LinkId) (x : Link) :
    (s.linkChanged l x).cutShort.link l = x ∧ (s.linkChanged l x).cutShort.pleach.settled = false ∧
      (s.linkChanged l x).cutShort.pleach.setid = s.pleach.setid := by
  obtain ⟨hlinks, hsettled, hsetid⟩ := cutShort_leaves (s.linkChanged l x)
  obtain ⟨h1, h2, h3⟩ := linkChanged_leaves s l x
  refine ⟨?_, hsettled.trans h2, hsetid.trans h3⟩
  unfold State.link
  rw [hlinks]
  exact h1

section links
variable (s : State) (l : LinkId)

theorem linkUp_up (peer : Word64) (far : Fin 4) (n : BitVec 4) (ht : (s.link l).state = .training) (h9 : 9 ≤ s.keeper.step)
    (hf : s.keeper.failLatched = false) (hd : (s.link l).downs ≤ 3) : Answers (.linkUp l peer far n) s fun t =>
      t.link l = { s.link l with state := .up, attempts := n, peer := peer, peerlink := BitVec.ofNat 2 far.val } ∧ t.pleach.settled = false ∧
      ∃ p, t.out.getLast? = some (.identity l p) ∧ p.serial = Config.serial ∧ p.setid = s.pleach.setid := by
  obtain ⟨hlink, hset, hid⟩ := linkChanged_cutShort s l
    { s.link l with state := .up, attempts := n, peer := peer, peerlink := BitVec.ofNat 2 far.val }
  exact ⟨_, congrArg Host.Outcome.next ((if_neg (by simp [ht, h9, hf])).trans (if_neg (by omega))), hlink, hset, _, List.getLast?_concat, rfl, hid⟩

theorem linkUp_held (peer : Word64) (far : Fin 4) (n : BitVec 4) (ht : (s.link l).state = .training) (h9 : 9 ≤ s.keeper.step)
    (hf : s.keeper.failLatched = false) (hd : 3 < (s.link l).downs) : Answers (.linkUp l peer far n) s fun t =>
      t.link l = { s.link l with state := .held, attempts := n } ∧ t.pleach.settled = false := by
  obtain ⟨hlink, hset, -⟩ := linkChanged_cutShort s l { s.link l with state := .held, attempts := n }
  exact ⟨_, congrArg Host.Outcome.next ((if_neg (by simp [ht, h9, hf])).trans (if_pos hd)), hlink, hset⟩

theorem linkUp_untrained (peer : Word64) (far : Fin 4) (n : BitVec 4) (ht : (s.link l).state ≠ .training) :
    exec (.linkUp l peer far n) s = .next s := congrArg Host.Outcome.next (if_pos (.inl ht))

theorem linkBudgetExpiry_absent (ht : (s.link l).state = .training) (hd : (s.link l).since + 10000 * s.pleach.budget.toNat ≤ s.aoTick.toNat) :
    Answers (.linkBudgetExpiry l) s fun t => t.link l = { s.link l with state := .absent } ∧ t.pleach.settled = false := by
  obtain ⟨hlink, hset, -⟩ := linkChanged_leaves s l { s.link l with state := .absent }
  exact ⟨_, congrArg Host.Outcome.next (if_pos ⟨ht, hd⟩), hlink, hset⟩

theorem retrain_trains {r : Requester} (hr : s.reaches r = true) (he : (s.link l).en = true) (h9 : 9 ≤ s.keeper.step) (hu : (s.link l).state ≠ .up)
    (hh : (s.link l).state ≠ .held ∨ s.keeper.step = 13) : Answers (.retrain r l) s fun t =>
      t.link l = { s.link l with state := .training, attempts := 1, since := s.aoTick.toNat } ∧ t.pleach.settled = false := by
  obtain ⟨hlink, hset, -⟩ := linkChanged_leaves s l ((s.link l).train s.aoTick.toNat)
  refine ⟨_, congrArg Host.Outcome.next (if_pos ?_), hlink, hset⟩
  rcases hh with hh | hh <;> simp [hr, he, h9, hu, hh]

theorem pleachLinkDown_trains (hu : (s.link l).state = .up ∨ (s.link l).state = .foreign) : Answers (.pleachLinkDown l) s fun t =>
    t.link l = { s.link l with
      state := .training, attempts := 1, since := if s.keeper.step < 13 then (s.link l).since else s.aoTick.toNat, drops := satInc (s.link l).drops
      downs := (s.link l).downs + 1 } ∧ t.pleach.settled = false := by
  obtain ⟨hlink, hset, -⟩ := linkChanged_cutShort s l { s.link l with
    state := .training, attempts := 1, since := if s.keeper.step < 13 then (s.link l).since else s.aoTick.toNat, drops := satInc (s.link l).drops
    downs := (s.link l).downs + 1 }
  exact ⟨_, congrArg Host.Outcome.next (if_pos hu), hlink, hset⟩

/-! ### Identity messages -/

theorem identityMessage_foreign {p : PeerId} (hu : (s.link l).state = .up) (hp : p.serial = (s.link l).peer) (hs : p.setid ≠ s.pleach.setid) :
    Answers (.identityMessage l p) s fun t => t.link l = { s.link l with state := .foreign } ∧ t.pleach.settled = false := by
  obtain ⟨hlink, hset, -⟩ := linkChanged_cutShort s l { s.link l with state := .foreign }
  exact ⟨_, congrArg Host.Outcome.next ((if_neg (by simp [hu])).trans (if_pos ⟨hp, hs⟩)), hlink, hset⟩

theorem ownId_serial : s.ownId.serial = Config.serial := rfl

theorem identityMessage_new {p : PeerId} (hu : (s.link l).state = .up) (hs : p.setid = s.pleach.setid) (hp : p.serial ≠ Config.serial)
    (hk : p ∉ s.pleach.known) : Answers (.identityMessage l p) s fun t =>
      t.pleach.known = (s.pleach.known.filter fun q => q.serial != p.serial) ++ [p] ∧ t.pleach.settled = false ∧ t.pleach.changed = s.aoTick.toNat ∧
      t.out = s.out ++ ((s.upLinks.filter fun k => k != l).map fun k => Out.identity k p) := by
  have hnew : ¬(s.pleach.known.contains p || p == s.ownId) = true := by
    have hown : p ≠ s.ownId := fun h => hp (by rw [h]; rfl)
    simp [hk, hown]
  refine ⟨_, congrArg Host.Outcome.next ((if_neg (by simp [hu])).trans ((if_neg (fun h => h.2 hs)).trans (if_neg hnew))), ?_⟩
  rw [foldl_emit]
  exact ⟨if_neg hp, rfl, rfl, rfl⟩

theorem identityMessage_known {p : PeerId} (hu : (s.link l).state = .up) (hs : p.setid = s.pleach.setid) (hk : p ∈ s.pleach.known) :
    exec (.identityMessage l p) s = .next s :=
  congrArg Host.Outcome.next ((if_neg (by simp [hu])).trans ((if_neg (fun h => h.2 hs)).trans (if_pos (by simp [hk]))))

end links

/-! ### What a settled membership leaves of the pleach -/

/-- What a membership has settled on, and the links. -/
def Pleach.standing (p : Pleach) : Bool × Bool × BitVec 5 × Word64 × BitVec 32 × Tab Link :=
  (p.settled, p.seterr, p.members, p.leader, p.epoch, p.links)

theorem foldl_keeps {α β : Type} (g : State → β) {f : State → α → State} (hf : ∀ u a, g (f u a) = g u) (l : List α) (s : State) :
    g (l.foldl f s) = g s := by
  induction l generalizing s with
  | nil => rfl
  | cons a l ih => exact (ih (f s a)).trans (hf s a)

theorem clearDir_pleach (s : State) (p q : Params) : (s.clearDir p q).pleach = s.pleach := by
  unfold State.clearDir
  refine foldl_keeps State.pleach (fun u a => ?_) _ s
  rfl

theorem deallocate_pleach (s : State) (h : HedgeId) : (s.deallocate h).pleach = s.pleach := by
  unfold State.deallocate
  dsimp only
  refine foldl_keeps State.pleach (fun u a => ?_) _ s
  rfl

theorem newTable_pleach {s : State} {h : HedgeId} {r : Nat × State} (hr : s.newTable h = some r) : r.2.pleach = s.pleach := by
  unfold State.newTable at hr
  obtain ⟨f, -, rfl⟩ := Option.map_eq_some_iff.1 hr
  rfl

theorem newRoot_pleach (s : State) (h : HedgeId) : (s.newRoot h).pleach = s.pleach := by
  unfold State.newRoot
  split
  · next r hr => exact newTable_pleach hr
  · rfl

theorem installFrom_pleach (h : HedgeId) (va target : Nat) (p : Pte) : ∀ (n t : Nat) (s : State),
    (State.installFrom h va target p n t s).pleach = s.pleach
  | 0, _, _ => rfl
  | n + 1, t, s => by
    unfold State.installFrom
    dsimp only
    split
    · rfl
    · split
      · exact installFrom_pleach h va target p n _ s
      · split
        · next r hr => exact (installFrom_pleach h va target p n _ _).trans (newTable_pleach hr)
        · rfl

theorem hedgeTables_pleach (s : State) (h : HedgeId) : (s.hedgeTables h).pleach = s.pleach := by
  unfold State.hedgeTables
  exact (foldl_keeps State.pleach (fun (u : State) (q : Nat × Nat × Pte) => installFrom_pleach h q.1 q.2.1 q.2.2 4 (u.hedge h).root.toNat u) _ _).trans (newRoot_pleach s h)

theorem drained_pleach (s : State) (f : FnId) : (s.drained f).pleach = s.pleach := by
  obtain ⟨q, hq⟩ := drained_rest s f
  rw [hq]

theorem keepSource_standing (s : State) : s.keepSource.pleach.standing = s.pleach.standing := by
  unfold State.keepSource
  dsimp only
  split
  · rw [drained_pleach]
    rfl
  · rfl

theorem discardCopy_standing (s : State) : s.discardCopy.pleach.standing = s.pleach.standing := by
  unfold State.discardCopy
  split
  · next m d hinc =>
    have h1 := foldl_keeps State.pleach
      (f := fun (t : State) q => t.emit (.nvme (Pte.ssd q.2.2) 0x09 (Pte.block q.2.2) (2 ^ levelBits q.2.1) false)) (fun _ _ => rfl) s.pleach.copied s
    exact (congrArg Pleach.standing ((clearDir_pleach _ d.par Params.zero).trans h1) :)
  · rfl

theorem openMoved_standing (s : State) (m : MigRec) : (s.openMoved m).pleach.standing = s.pleach.standing := by
  unfold State.openMoved
  dsimp only
  split
  · split
    · exact (congrArg Pleach.standing (hedgeTables_pleach (s.modPleach fun p => { p with prepared := p.prepared.erase m }) m.here) :)
    · rfl
  · rfl

theorem discardPrepared_standing (s : State) (m : MigRec) : (s.discardPrepared m).pleach.standing = s.pleach.standing := by
  unfold State.discardPrepared
  dsimp only
  split
  · next d hd => exact (congrArg Pleach.standing ((deallocate_pleach _ m.here).trans (clearDir_pleach s d.par Params.zero)) :)
  · exact (congrArg Pleach.standing (deallocate_pleach s m.here) :)

theorem settlePrepared_standing (s : State) (ms : List Word64) (m : MigRec) : (s.settlePrepared ms m).pleach.standing = s.pleach.standing := by
  unfold State.settlePrepared
  split
  · split
    · exact openMoved_standing s m
    · exact discardPrepared_standing s m
  · rfl

/-- A source that completes the destruction of a hedge that it still holds. -/
def State.destroyHeld (s : State) (m : MigRec) : State :=
  match tget none s.store m.here.val with
  | some d => if (s.hedge m.here).fn.isNone then
      let t := (s.clearDir d.par Params.zero).deallocate m.here
      { t with store := tset none t.store m.here.val none }
    else s
  | none => s

theorem destroyHeld_pleach (s : State) (m : MigRec) : (s.destroyHeld m).pleach = s.pleach := by
  unfold State.destroyHeld
  split
  · next d hd =>
    split
    · exact (deallocate_pleach _ m.here).trans (clearDir_pleach s d.par Params.zero)
    · rfl
  · rfl

theorem settleMoved_standing (s : State) (ms : List Word64) (m : MigRec) : (s.settleMoved ms m).pleach.standing = s.pleach.standing := by
  have h := destroyHeld_pleach s m
  unfold State.destroyHeld at h
  unfold State.settleMoved
  extract_lets s1
  have h1 : s1.pleach = s.pleach := h
  split
  · split
    · rw [h1]
    · exact (congrArg Pleach.standing h1 :)
  · rw [h1]

theorem settleMigration_standing (s : State) (ms : List Word64) : (s.settleMigration ms).pleach.standing = s.pleach.standing := by
  unfold State.settleMigration
  dsimp only
  split
  · split
    · rfl
    · exact keepSource_standing s
  · split
    · split
      · rfl
      · exact discardCopy_standing s
    · rfl

/-- The loss of the partner tells the hedges; it changes no more of the state than the Lehr and what `Told` names. -/
theorem pairLost_pleach (s : State) : s.pairLost.pleach = s.pleach ∧ s.pairLost.errq = s.errq := by
  unfold State.pairLost
  extract_lets l first s1 kept s2
  split
  · exact ⟨rfl, rfl⟩
  · split
    · exact ⟨rfl, rfl⟩
    · obtain ⟨q, hq⟩ := ackedAll_rest s s.lehr.unacked
      have hs1 : s1 = { s with slots := q } := hq
      have h2 : Told { s1 with lehr := { s1.lehr with pairdeg := true, unacked := [], localFirst := first, localLast := first - 1 } } s2 :=
        everyHedge_told _ _
      have h3 : Told s2 (s2.openHedges.foldl (fun (u : State) h => u.notify h 1 (first.setWidth 32)) s2) :=
        Told.foldl (fun (u : State) h => notify_told u h 1 (first.setWidth 32)) _ _
      rw [(h2.trans h3).rest, hs1]
      exact ⟨rfl, rfl⟩

theorem checkPair_pleach (s : State) (ms : List Word64) : (s.checkPair ms).pleach = s.pleach ∧ (s.checkPair ms).errq = s.errq := by
  unfold State.checkPair
  dsimp only
  split
  · exact ⟨rfl, rfl⟩
  · split
    · exact ⟨rfl, rfl⟩
    · exact pairLost_pleach s

/-! ### Membership -/

/-- The pleach with no link counted as down, as a membership settles. -/
def State.linksCleared (s : State) : State :=
  { s with pleach := { s.pleach with links := tmap Link.reset s.pleach.links fun l => { l with downs := 0 } } }

theorem linksCleared_downs (s : State) (k : LinkId) : (s.linksCleared.link k).downs = 0 := by
  unfold State.link State.linksCleared
  rw [tget_tmap s.pleach.links rfl]

/-- The set that a membership settles on. -/
def State.settledOn (s : State) (ms : List Word64) (epoch : BitVec 32) : State :=
  s.modPleach fun p => { p with
    settled := true, seterr := false, members := BitVec.ofNat 5 ms.length, leader := lowest Config.serial ms
    epoch := if lowest Config.serial ms = Config.serial then p.epoch + 1 else epoch }

/-- What a settled membership carries out. -/
def State.settleAll (s : State) (ms : List Word64) : State :=
  let s2 := (s.checkPair ms).settleMigration ms
  let s3 := s2.pleach.prepared.foldl (fun (t : State) m => t.settlePrepared ms m) s2
  s3.pleach.moved.foldl (fun (t : State) m => t.settleMoved ms m) s3

theorem settleAll_standing (s : State) (ms : List Word64) : (s.settleAll ms).pleach.standing = s.pleach.standing := by
  have h0 := congrArg Pleach.standing (checkPair_pleach s ms).1
  have h1 := settleMigration_standing (s.checkPair ms) ms
  have h2 := foldl_keeps (fun t : State => t.pleach.standing) (fun (u : State) m => settlePrepared_standing u ms m)
    ((s.checkPair ms).settleMigration ms).pleach.prepared ((s.checkPair ms).settleMigration ms)
  unfold State.settleAll
  extract_lets s2 s3
  exact (foldl_keeps (fun t : State => t.pleach.standing) (fun (u : State) m => settleMoved_standing u ms m) s3.pleach.moved s3).trans
    (h2.trans (h1.trans h0))

section membership
variable (s : State) (epoch : BitVec 32)

theorem membershipSettle_waits (h : s.pleach.settled = true ∨ s.aoTick.toNat < s.pleach.changed + 50000) :
    exec (.membershipSettle epoch) s = .next s := by
  refine congrArg Host.Outcome.next (if_pos ?_)
  exact h.imp_right .inr

theorem membershipSettle_goes (h : s.pleach.settled = false) (h9 : 9 ≤ s.keeper.step) (hd : s.pleach.changed + 50000 ≤ s.aoTick.toNat) :
    exec (.membershipSettle epoch) s = .next (if 16 < s.memberSet.length ∨ s.pleach.clash then s.linksCleared.refuseSet
      else (s.linksCleared.settledOn s.memberSet epoch).settleAll s.memberSet) :=
  congrArg Host.Outcome.next (if_neg (by rw [h]; simp only [Bool.false_eq_true, false_or]; omega))

theorem membershipSettle_settles (h : s.pleach.settled = false) (h9 : 9 ≤ s.keeper.step) (hd : s.pleach.changed + 50000 ≤ s.aoTick.toNat)
    (hm : s.memberSet.length ≤ 16) (hc : s.pleach.clash = false) : Answers (.membershipSettle epoch) s fun t =>
      let q := t.pleach
      q.settled = true ∧ q.seterr = false ∧ q.members.toNat = s.memberSet.length ∧ q.leader = lowest Config.serial s.memberSet ∧
      q.epoch = (if lowest Config.serial s.memberSet = Config.serial then s.pleach.epoch + 1 else epoch) ∧ ∀ k, (t.link k).downs = 0 := by
  refine ⟨_, (membershipSettle_goes s epoch h h9 hd).trans (congrArg _ (if_neg ?_)), ?_⟩
  · rw [hc]
    simp only [Bool.false_eq_true, or_false]
    omega
  · have hst := settleAll_standing (s.linksCleared.settledOn s.memberSet epoch) s.memberSet
    generalize (s.linksCleared.settledOn s.memberSet epoch).settleAll s.memberSet = t at hst
    simp only [Pleach.standing, Prod.mk.injEq] at hst
    obtain ⟨h1, h2, h3, h4, h5, h6⟩ := hst
    refine ⟨h1, h2, ?_, h4, h5, fun k => ?_⟩
    · rw [h3]
      show (BitVec.ofNat 5 s.memberSet.length).toNat = _
      rw [BitVec.toNat_ofNat]
      omega
    · unfold State.link
      rw [h6]
      exact linksCleared_downs s k

theorem membershipSettle_refuses (h : s.pleach.settled = false) (h9 : 9 ≤ s.keeper.step) (hd : s.pleach.changed + 50000 ≤ s.aoTick.toNat)
    (hm : 16 < s.memberSet.length ∨ s.pleach.clash = true) : Answers (.membershipSettle epoch) s fun t =>
      let q := t.pleach
      q.settled = true ∧ q.seterr = true ∧ q.members = 1 ∧ q.leader = Config.serial ∧ ∃ r ∈ t.errq, r.cls = 0x12 := by
  refine ⟨_, (membershipSettle_goes s epoch h h9 hd).trans (congrArg _ (if_pos hm)), ?_⟩
  unfold State.refuseSet
  extract_lets u
  obtain ⟨hp, he⟩ := checkPair_pleach (u.pleachError 0) [Config.serial]
  intro q
  have hq : q = u.pleach := hp
  rw [hq, he]
  exact ⟨rfl, rfl, rfl, rfl, pleachRecord u 0, List.mem_append_right _ List.mem_cons_self, rfl⟩

end membership

/-! ### Snapshots -/

section snapshots
variable (s : State)

theorem leads_iff : s.leads = true ↔ s.pleach.settled = true ∧ s.pleach.seterr = false ∧ s.pleach.leader = Config.serial := by
  unfold State.leads
  simp [and_assoc]

theorem snapshotRequest_off (h : s.pleach.settled = false ∨ s.pleach.seterr = true ∨ s.keeper.step ≠ 13) :
    exec .snapshotRequest s = .next (s.emit (.mctp (.snapshot none))) := by
  refine congrArg Host.Outcome.next (if_pos ?_)
  rcases h with h | h | h <;> simp [h]

/-- The leader's pause of itself, and its PAUSE. -/
def State.snapStarted (s : State) : State :=
  (((s.emit (.mctp (.snapshot (some s.pleach.nextSnap)))).pauseFor s.pleach.nextSnap).modPleach fun p => { p with
    collecting := some (s.pleach.nextSnap, s.aoTick.toNat), replies := [(Config.serial, p.snapCut)], reached := [] }).emit (.pause s.pleach.nextSnap)

theorem snapshotRequest_goes (hs : s.pleach.settled = true) (he : s.pleach.seterr = false) (h13 : s.keeper.step = 13) :
    exec .snapshotRequest s = .next (if !s.leads then s.emit .snapRequest
      else if s.pleach.collecting.isSome ∨ s.pleach.snapState = 1 then s.emit (.mctp (.snapshot none))
      else s.snapStarted.collected s.pleach.nextSnap) :=
  congrArg Host.Outcome.next (if_neg (by simp [hs, he, h13]))

theorem reach_congr {s t : State} (h : t.neighbours = s.neighbours) : ∀ (n : Nat) (l : List Word64), t.reach n l = s.reach n l
  | 0, _ => rfl
  | n + 1, l => by
    unfold State.reach
    rw [h, reach_congr h n]

/-- The membership rests on the links and the identity messages held. -/
theorem memberSet_congr {s t : State} (hl : t.pleach.links = s.pleach.links) (hk : t.pleach.known = s.pleach.known) : t.memberSet = s.memberSet := by
  have hn : t.neighbours = s.neighbours := by
    funext x
    unfold State.neighbours State.upLinks State.link
    rw [hl, hk]
  unfold State.memberSet
  rw [hk, reach_congr hn]

/-- Not every member has replied. -/
theorem collected_waits (n : BitVec 32) (h : ∃ y ∈ s.memberSet, ∀ q ∈ s.pleach.replies, q.1 ≠ y) : s.collected n = s := by
  obtain ⟨y, hy, hq⟩ := h
  refine if_neg fun hall => ?_
  obtain ⟨q, hin, heq⟩ := List.any_eq_true.1 (List.all_eq_true.1 hall y hy)
  exact hq q hin (by simpa using heq)

/-- Every member has replied. -/
theorem collected_releases (n : BitVec 32) (h : ∀ y ∈ s.memberSet, ∃ q ∈ s.pleach.replies, q.1 = y) :
    s.collected n = ((s.modPleach fun p => { p with collecting := none }).emit (.release n false)).releaseCut n := by
  refine if_pos (List.all_eq_true.2 fun y hy => List.any_eq_true.2 ?_)
  obtain ⟨q, hin, heq⟩ := h y hy
  exact ⟨q, hin, by simp [heq]⟩

/-- A release records the cut and lets draws resume. -/
theorem releaseCut_leaves (n : BitVec 32) : (s.releaseCut n).lehr = { s.lehr with paused := false } ∧
    (s.releaseCut n).pleach = { s.pleach with
      snapState := if s.pleach.snapCut.toNat ≤ s.lehr.ckpt.toNat then 3 else 2, cuts := s.pleach.cuts ++ [(n, s.pleach.snapCut)] } ∧
    (s.releaseCut n).out = s.out ++ (if s.pleach.snapCut.toNat ≤ s.lehr.ckpt.toNat then [.reached Config.serial n] else []) := by
  unfold State.releaseCut
  dsimp only
  by_cases h : s.pleach.snapCut.toNat ≤ s.lehr.ckpt.toNat
  · simp only [h, decide_true, if_true]
    exact ⟨rfl, rfl, rfl⟩
  · simp only [h, decide_false, Bool.false_eq_true, if_false, List.append_nil]
    exact ⟨trivial, trivial, trivial⟩

end snapshots

section snapshots
variable (s : State)

/-- The clauses of a request at the leader. -/
theorem snapshotRequest_leads (hl : s.leads = true) (hset : s.pleach.settled = true) (he : s.pleach.seterr = false) (h13 : s.keeper.step = 13)
    (hc : s.pleach.collecting = none) (hs : s.pleach.snapState ≠ 1) :
    exec .snapshotRequest s = .next (s.snapStarted.collected s.pleach.nextSnap) := by
  rw [snapshotRequest_goes s hset he h13, if_neg (by simp [hl]), if_neg (by rw [hc]; exact fun h => h.elim (fun hf => Bool.noConfusion hf) hs)]

theorem snapStarted_leaves : s.snapStarted.lehr = { s.lehr with paused := true } ∧
    s.snapStarted.pleach = { s.pleach with
      snapNum := s.pleach.nextSnap, snapState := 1, snapAbort := false, snapCut := s.lehr.drawn
      collecting := some (s.pleach.nextSnap, s.aoTick.toNat), replies := [(Config.serial, s.lehr.drawn)], reached := [] } ∧
    s.snapStarted.out = s.out ++ [.mctp (.snapshot (some s.pleach.nextSnap)), .pause s.pleach.nextSnap] :=
  ⟨rfl, rfl, List.append_assoc _ _ _⟩

theorem snapshotRequest_asks (hl : s.leads = true) (hset : s.pleach.settled = true) (he : s.pleach.seterr = false) (h13 : s.keeper.step = 13)
    (hc : s.pleach.collecting = none) (hs : s.pleach.snapState ≠ 1) (hx : ∃ x ∈ s.memberSet, x ≠ Config.serial) :
    exec .snapshotRequest s = .next s.snapStarted := by
  rw [snapshotRequest_leads s hl hset he h13 hc hs]
  obtain ⟨x, hin, hne⟩ := hx
  refine congrArg _ (collected_waits s.snapStarted _ ⟨x, (memberSet_congr (t := s.snapStarted) (s := s) rfl rfl).symm ▸ hin, fun q hq => ?_⟩)
  rw [snapStarted_leaves s |>.2.1] at hq
  rw [List.mem_singleton.1 hq]
  exact hne.symm

theorem snapshotRequest_alone (hl : s.leads = true) (hset : s.pleach.settled = true) (he : s.pleach.seterr = false) (h13 : s.keeper.step = 13)
    (hc : s.pleach.collecting = none) (hs : s.pleach.snapState ≠ 1) (hx : ∀ x ∈ s.memberSet, x = Config.serial) :
    Answers .snapshotRequest s fun t => t.lehr = { s.lehr with paused := false } ∧
      t.pleach.cuts = s.pleach.cuts ++ [(s.pleach.nextSnap, s.lehr.drawn)] ∧
      t.pleach.snapState = (if s.lehr.drawn.toNat ≤ s.lehr.ckpt.toNat then 3 else 2) := by
  refine ⟨_, (snapshotRequest_leads s hl hset he h13 hc hs).trans (congrArg _ (collected_releases s.snapStarted _ fun y hy => ?_)), ?_⟩
  · exact ⟨(Config.serial, s.lehr.drawn), List.mem_singleton.2 rfl, (hx y (memberSet_congr (t := s.snapStarted) (s := s) rfl rfl ▸ hy)).symm⟩
  · obtain ⟨hlehr, hpleach, -⟩ := releaseCut_leaves
      ((s.snapStarted.modPleach fun p => { p with collecting := none }).emit (.release s.pleach.nextSnap false)) s.pleach.nextSnap
    rw [hlehr, hpleach]
    exact ⟨rfl, rfl, rfl⟩

theorem pause_pauses (k : BitVec 32) (hl : s.leads = false) (hk : s.pleach.snapNum ≠ k ∨ s.pleach.snapState = 0) : Answers (.pause k) s fun t =>
    t.lehr = { s.lehr with paused := true } ∧
    t.pleach = { s.pleach with snapNum := k, snapState := 1, snapAbort := false, snapCut := s.lehr.drawn } ∧
    t.out = s.out ++ [.pause k, .paused Config.serial k s.lehr.drawn] := by
  refine ⟨((s.pauseFor k).emit (.pause k)).emit (.paused Config.serial k s.lehr.drawn), congrArg Host.Outcome.next (if_neg ?_), rfl, rfl,
    List.append_assoc _ _ _⟩
  rw [hl]
  rcases hk with hk | hk <;> simp [hk]

/-- A member's reply. -/
def State.replied (s : State) (x g : Word64) : State :=
  s.modPleach fun p => { p with replies := (p.replies.filter fun q => q.1 != x) ++ [(x, g)] }

theorem replied_memberSet (x g : Word64) : (s.replied x g).memberSet = s.memberSet := memberSet_congr rfl rfl

section paused
variable (x : Word64) (k : BitVec 32) (g : Word64) {n : BitVec 32} {b : Nat} (hl : s.leads = true) (hc : s.pleach.collecting = some (n, b))
include hl hc

theorem paused_goes : exec (.paused x k g false) s = .next (if n = k ∧ s.aoTick.toNat ≤ b + 1000 then
    (s.replied x g).collected n else s) := by
  show execPaused x k g false s = _
  unfold execPaused
  rw [if_neg (by simp [hl]), if_neg Bool.false_ne_true, hc]
  rfl

theorem paused_late (h : n ≠ k ∨ b + 1000 < s.aoTick.toNat) : exec (.paused x k g false) s = .next s := by
  rw [paused_goes s x k g hl hc, if_neg]
  rintro ⟨h1, h2⟩
  rcases h with h | h
  · exact h h1
  · omega

theorem paused_waits (hn : n = k) (hb : s.aoTick.toNat ≤ b + 1000)
    (h : ∃ y ∈ s.memberSet, ∀ q ∈ (s.pleach.replies.filter fun q => q.1 != x) ++ [(x, g)], q.1 ≠ y) :
    exec (.paused x k g false) s =
      .next { s with pleach := { s.pleach with replies := (s.pleach.replies.filter fun q => q.1 != x) ++ [(x, g)] } } := by
  rw [paused_goes s x k g hl hc, if_pos ⟨hn, hb⟩]
  exact congrArg _ (collected_waits (s.replied x g) n (by rw [replied_memberSet]; exact h))

theorem paused_releases (hn : n = k) (hb : s.aoTick.toNat ≤ b + 1000)
    (h : ∀ y ∈ s.memberSet, ∃ q ∈ (s.pleach.replies.filter fun q => q.1 != x) ++ [(x, g)], q.1 = y) :
    Answers (.paused x k g false) s fun t => t.lehr = { s.lehr with paused := false } ∧
      t.pleach.collecting = none ∧ t.pleach.cuts = s.pleach.cuts ++ [(k, s.pleach.snapCut)] ∧ .release k false ∈ t.out := by
  subst hn
  refine ⟨_, (paused_goes s x n g hl hc).trans (congrArg _ ((if_pos ⟨rfl, hb⟩).trans
    (collected_releases (s.replied x g) n (by rw [replied_memberSet]; exact h)))), ?_⟩
  obtain ⟨hlehr, hpleach, hout⟩ := releaseCut_leaves (((s.replied x g).modPleach fun p => { p with collecting := none }).emit (.release n false)) n
  rw [hlehr, hpleach, hout]
  exact ⟨rfl, rfl, rfl, List.mem_append_left _ (List.mem_append_right _ List.mem_cons_self)⟩

end paused

theorem snapshotPauseTimeout_aborts {n : BitVec 32} {b : Nat} (hc : s.pleach.collecting = some (n, b)) (hb : b + 1000 ≤ s.aoTick.toNat) :
    Answers .snapshotPauseTimeout s fun t => t.pleach.collecting = none ∧ t.out = s.out ++ [.release n true] ∧
      (s.pleach.snapState = 1 → t.lehr = { s.lehr with paused := false } ∧ t.pleach.snapState = 0 ∧ t.pleach.snapAbort = true) := by
  refine ⟨(((s.modPleach fun p => { p with collecting := none, replies := [], reached := [] }).emit (.release n true)).snapAborted), ?_, ?_⟩
  · show execSnapshotPauseTimeout s = _
    unfold execSnapshotPauseTimeout
    rw [hc]
    dsimp only
    rw [if_pos hb]
    unfold State.cutShort
    rw [hc]
  · obtain ⟨hcol, hstops⟩ := snapAborted_stops
      ((s.modPleach fun p => { p with collecting := none, replies := [], reached := [] }).emit (.release n true))
    exact ⟨hcol, (snapAborted_leaves _).2.2.2, hstops⟩

theorem snapshotPauseTimeout_idle (hc : s.pleach.collecting = none) : exec .snapshotPauseTimeout s = .next s := by
  show execSnapshotPauseTimeout s = _
  unfold execSnapshotPauseTimeout
  rw [hc]

section release
variable {k : BitVec 32} (h1 : s.pleach.snapState = 1) (hk : s.pleach.snapNum = k) (hl : s.leads = false)
include h1 hk hl

theorem release_aborts : Answers (.release k true) s fun t => t.lehr = { s.lehr with paused := false } ∧
    t.pleach = { s.pleach with snapState := 0, snapAbort := true } ∧ t.out = s.out ++ [.release k true] := by
  refine ⟨{ s.emit (.release k true) with
    lehr := { s.lehr with paused := false }, pleach := { s.pleach with snapState := 0, snapAbort := true } }, ?_, rfl, rfl, rfl⟩
  exact congrArg Host.Outcome.next ((if_neg (by simp [h1, hk, hl])).trans ((if_pos rfl).trans (if_pos h1)))

theorem release_cuts : Answers (.release k false) s fun t => t.lehr = { s.lehr with paused := false } ∧
    t.pleach = { s.pleach with
      snapState := if s.pleach.snapCut.toNat ≤ s.lehr.ckpt.toNat then 3 else 2, cuts := s.pleach.cuts ++ [(k, s.pleach.snapCut)] } ∧
    t.out = s.out ++ [.release k false] ++ (if s.pleach.snapCut.toNat ≤ s.lehr.ckpt.toNat then [.reached Config.serial k] else []) :=
  ⟨_, congrArg Host.Outcome.next ((if_neg (by simp [h1, hk, hl])).trans (if_neg Bool.false_ne_true)), releaseCut_leaves (s.emit (.release k false)) k⟩

end release

end snapshots

/-- Settles O51. -/
theorem linksSettleAndSnapshotsCut : Obligations.LinksSettleAndSnapshotsCut := by
  unfold Obligations.LinksSettleAndSnapshotsCut
  refine ⟨fun s l => ⟨fun peer far n ht h9 hf => ⟨linkUp_up s l peer far n ht h9 hf, linkUp_held s l peer far n ht h9 hf⟩, linkUp_untrained s l,
    linkBudgetExpiry_absent s l, fun r => retrain_trains s l, pleachLinkDown_trains s l,
    fun p hu => ⟨identityMessage_foreign s l hu, identityMessage_new s l hu, identityMessage_known s l hu⟩, membershipSettle_waits s,
    fun epoch h h9 hd => ⟨membershipSettle_settles s epoch h h9 hd, membershipSettle_refuses s epoch h h9 hd⟩⟩,
    fun s => ⟨snapshotRequest_off s, fun hs he h13 => ⟨fun hne => ?_, fun heq hbusy => ?_, fun heq hc hst => ⟨fun hx => ?_, fun hx => ?_⟩⟩,
      pause_pauses s, fun x k g n b hl hc => ⟨fun hn hb => ⟨paused_waits s x k g hl hc hn hb, paused_releases s x k g hl hc hn hb⟩, paused_late s x k g hl hc⟩,
      fun n b => snapshotPauseTimeout_aborts s, snapshotPauseTimeout_idle s, fun k h1 hk hl => ⟨release_aborts s h1 hk hl, release_cuts s h1 hk hl⟩⟩⟩
  · have hl : s.leads = false := Bool.eq_false_iff.2 fun h => hne ((leads_iff s).1 h).2.2
    rw [snapshotRequest_goes s hs he h13, if_pos (by simp [hl])]
  · have hl := (leads_iff s).2 ⟨hs, he, heq⟩
    rw [snapshotRequest_goes s hs he h13, if_neg (by simp [hl]), if_pos hbusy]
  · exact ⟨_, snapshotRequest_asks s ((leads_iff s).2 ⟨hs, he, heq⟩) hs he h13 hc hst hx, snapStarted_leaves s⟩
  · exact snapshotRequest_alone s ((leads_iff s).2 ⟨hs, he, heq⟩) hs he h13 hc hst hx

end Sys2Proof.Machine
end

section
/-! O38: TLB invalidations (09 R307, R308, 14 R458). -/

namespace Sys2Proof.Machine

/-! ### Changes of chosen entries -/

/-- A pass over distinct indices that changes the entries which a test names. -/
theorem foldl_where {σ ι β : Type} [DecidableEq ι] {get : σ → ι → β} {f : σ → ι → σ} {p : ι → Bool} {g : β → β}
    (hsame : ∀ u j, get (f u j) j = if p j = true then g (get u j) else get u j) (hne : ∀ u j k, k ≠ j → get (f u j) k = get u k)
    {l : List ι} (hl : l.Nodup) (s : σ) (k : ι) : get (l.foldl f s) k = if k ∈ l ∧ p k = true then g (get s k) else get s k := by
  induction l generalizing s with
  | nil => exact (if_neg fun h => List.not_mem_nil h.1).symm
  | cons j l ih =>
    obtain ⟨hj, hl⟩ := List.nodup_cons.1 hl
    refine (ih hl (f s j)).trans ?_
    by_cases hk : k = j
    · subst hk
      rw [if_neg fun h => hj h.1, hsame]
      exact if_congr (by simp) rfl rfl
    · rw [hne s j k hk]
      exact if_congr (by simp [hk]) rfl rfl

/-! ### What an invalidation leaves -/

/-- An L2 TLB, and a D-TLB, without the entries that an invalidation removes. -/
def Clu.l2Dropped (f : TlbEntry → Bool) (c : Clu) : Clu := { c with l2 := tlbDrop c.l2 f }
def Engine.dtlbDropped (f : TlbEntry → Bool) (e : Engine) : Engine := { e with dtlb := tlbDrop e.dtlb f }

section drop
variable (s : State) (mask : BitVec 32) (f : TlbEntry → Bool)

/-- One cluster, and one engine, of an invalidation. -/
def dropClu (t : Tab Clu) (k : CluId) : Tab Clu :=
  if bit mask k.val then tset Clu.reset t k.val ((tget Clu.reset t k.val).l2Dropped f) else t
def dropEng (t : Tab Engine) (e : EngId) : Tab Engine :=
  if bit mask (e.val / 8) then tset Engine.reset t e.val ((tget Engine.reset t e.val).dtlbDropped f) else t

theorem dropClus_get {l : List CluId} (hl : l.Nodup) (t : Tab Clu) (k : CluId) : tget Clu.reset (l.foldl (dropClu mask f) t) k.val =
    if k ∈ l ∧ bit mask k.val = true then (tget Clu.reset t k.val).l2Dropped f else tget Clu.reset t k.val := by
  refine foldl_where (get := fun t (k : CluId) => tget Clu.reset t k.val) (f := dropClu mask f) (p := fun k => bit mask k.val)
    (g := Clu.l2Dropped f) (fun u j => ?_) (fun u j k hk => ?_) hl t k
  · unfold dropClu
    split
    · exact tget_tset_same _ _ _ _
    · rfl
  · unfold dropClu
    split
    · exact tget_tset_ne _ _ _ _ fun h => hk (Fin.ext h)
    · rfl

theorem dropEngs_get {l : List EngId} (hl : l.Nodup) (t : Tab Engine) (e : EngId) : tget Engine.reset (l.foldl (dropEng mask f) t) e.val =
    if e ∈ l ∧ bit mask (e.val / 8) = true then (tget Engine.reset t e.val).dtlbDropped f else tget Engine.reset t e.val := by
  refine foldl_where (get := fun t (e : EngId) => tget Engine.reset t e.val) (f := dropEng mask f) (p := fun e => bit mask (e.val / 8))
    (g := Engine.dtlbDropped f) (fun u j => ?_) (fun u j k hk => ?_) hl t e
  · unfold dropEng
    split
    · exact tget_tset_same _ _ _ _
    · rfl
  · unfold dropEng
    split
    · exact tget_tset_ne _ _ _ _ fun h => hk (Fin.ext h)
    · rfl

theorem dropTlb_drops : ∃ en cl, s.dropTlb mask f = { s with engines := en, clus := cl } ∧
    (∀ k : CluId, tget Clu.reset cl k.val = if bit mask k.val = true then (s.clu k).l2Dropped f else s.clu k) ∧
    ∀ e : EngId, tget Engine.reset en e.val = if bit mask (e.val / 8) = true then (s.eng e).dtlbDropped f else s.eng e := by
  have hc := dropClus_get mask f (List.nodup_finRange 32) s.clus
  have he := dropEngs_get mask f (List.nodup_finRange 256) (tmap Engine.reset s.engines id)
  have heq : s.dropTlb mask f = { s with
    clus := (List.finRange 32).foldl (dropClu mask f) s.clus
    engines := (List.finRange 256).foldl (dropEng mask f) (tmap Engine.reset s.engines id) } := rfl
  generalize (List.finRange 32).foldl (dropClu mask f) s.clus = cl at hc heq
  generalize (List.finRange 256).foldl (dropEng mask f) (tmap Engine.reset s.engines id) = en at he heq
  refine ⟨en, cl, heq, fun k => (hc k).trans (if_congr (and_iff_right (List.mem_finRange k)) rfl rfl), fun e => ?_⟩
  rw [he e, tget_tmap s.engines rfl e.val]
  exact if_congr (and_iff_right (List.mem_finRange e)) rfl rfl

end drop

/-- A pass over clusters that keeps of each cluster what `g` shows. -/
theorem foldl_clus {α β : Type} {f : State → α → State} (g : Clu → β)
    (hf : ∀ u a, (∃ q, f u a = { u with clus := q }) ∧ ∀ k, g ((f u a).clu k) = g (u.clu k)) (l : List α) (s : State) :
    (∃ q, l.foldl f s = { s with clus := q }) ∧ ∀ k, g ((l.foldl f s).clu k) = g (s.clu k) := by
  induction l generalizing s with
  | nil => exact ⟨⟨s.clus, rfl⟩, fun _ => rfl⟩
  | cons a l ih =>
    obtain ⟨⟨q, hq⟩, hg⟩ := ih (f s a)
    obtain ⟨⟨p, hp⟩, hk⟩ := hf s a
    exact ⟨⟨q, hq.trans (by rw [hp])⟩, fun k => (hg k).trans (hk k)⟩

/-- A cluster but for the count of walks that restart. -/
def Clu.unrestarted (c : Clu) : Clu := { c with walkRst := 0 }

/-- A walk of a cluster restarts. -/
def State.restart (t : State) (q : EngId × CtxId) : State := t.modClu (cluOf q.1) fun k => { k with walkRst := satInc k.walkRst }

theorem restart_clu (t : State) (q : EngId × CtxId) (k : CluId) : ((t.restart q).clu k).unrestarted = (t.clu k).unrestarted := by
  unfold State.restart State.modClu
  by_cases hk : k = cluOf q.1
  · rw [hk, State.setClu_clu_same]
    rfl
  · rw [State.setClu_clu_ne t _ _ k hk]

theorem restart_foldl (l : List (EngId × CtxId)) (s : State) :
    (∃ q, l.foldl State.restart s = { s with clus := q }) ∧ ∀ k, ((l.foldl State.restart s).clu k).unrestarted = (s.clu k).unrestarted :=
  foldl_clus Clu.unrestarted (fun u q => ⟨⟨_, rfl⟩, restart_clu u q⟩) l s

/-- A cluster that equals another, with or without the entries removed, but for the count of restarts. -/
theorem unrestarted_eq {v c : Clu} {f : TlbEntry → Bool} {b : Bool} (h : v.unrestarted = (if b = true then c.l2Dropped f else c).unrestarted) :
    { v with l2 := c.l2, waking := c.waking, walkRst := c.walkRst } = c ∧ v.l2 = (if b = true then tlbDrop c.l2 f else c.l2) ∧ v.pst = c.pst := by
  cases b with
  | true =>
    have h1 : v = { c.l2Dropped f with walkRst := v.walkRst } := by
      have h2 := congrArg (fun x : Clu => { x with walkRst := v.walkRst }) h
      exact h2
    rw [h1]
    exact ⟨rfl, rfl, rfl⟩
  | false =>
    have h1 : v = { c with walkRst := v.walkRst } := by
      have h2 := congrArg (fun x : Clu => { x with walkRst := v.walkRst }) h
      exact h2
    rw [h1]
    exact ⟨rfl, rfl, rfl⟩

theorem wakeForInv_clu (s : State) (mask : BitVec 32) (k : CluId) :
    (s.wakeForInv mask).clu k = if bit mask k.val = true then (s.clu k).wakeForInv else s.clu k := by
  refine (foldl_where (get := State.clu) (p := fun k => bit mask k.val) (g := Clu.wakeForInv) (fun u j => ?_) (fun u j k hk => ?_)
    (List.nodup_finRange 32) s k).trans (if_congr (and_iff_right (List.mem_finRange k)) rfl rfl)
  · split
    · exact State.setClu_clu_same u j _
    · rfl
  · split
    · exact State.setClu_clu_ne u j _ k hk
    · rfl

theorem wakeForInv_rest (s : State) (mask : BitVec 32) : ∃ q, s.wakeForInv mask = { s with clus := q } := by
  obtain ⟨h, -⟩ := foldl_clus (f := fun (t : State) k => if bit mask k.val then t.modClu k Clu.wakeForInv else t) (fun _ => ())
    (fun u (k : CluId) => ⟨by
      split
      · exact ⟨_, rfl⟩
      · exact ⟨u.clus, rfl⟩, fun _ => rfl⟩) (List.finRange 32) s
  exact h

theorem wakeForInv_wakes (c : Clu) (h : c.pst = .c1 ∨ c.pst = .c2) : c.wakeForInv.waking = true := by
  unfold Clu.wakeForInv
  rcases h with h | h <;> simp [h]

theorem wakeForInv_keeps (c : Clu) : c.wakeForInv = { c with waking := c.wakeForInv.waking } := by
  unfold Clu.wakeForInv
  split <;> rfl

/-! ### The registers' invalidations -/

section invalidate
variable (s : State) (r : Requester) (op : BitVec 3) (h : HedgeId) (mask : BitVec 32) (f : TlbEntry → Bool)

/-- The registers of an invalidation under way. -/
def Regs.invalidating (g : Regs) (op : BitVec 3) (h : HedgeId) (mask : BitVec 32) : Regs :=
  { g with tlbOp := op, tlbHedge := h, clmask := mask, tlbBusy := true }

theorem invalidate_unreached (hr : s.reaches r = false) : s.invalidate r op h mask f = s := if_pos (by simp [hr])

theorem invalidate_busy (hr : s.reaches r = true) (hb : s.regs.tlbBusy = true) :
    s.invalidate r op h mask f = { s with regs := s.regs.invalidating op h mask } :=
  (if_neg (by simp [hr])).trans (if_pos hb)

theorem invalidate_goes (hr : s.reaches r = true) (hb : s.regs.tlbBusy = false) : s.invalidate r op h mask f =
    ((s.underInv mask f Stage.marks).foldl State.restart
      (State.dropTlb { s with regs := s.regs.invalidating op h mask, invWait := s.underInv mask f Stage.out } mask f)).wakeForInv mask :=
  (if_neg (by simp [hr])).trans (if_neg (by simp [hb]))

theorem invalidate_removes (hr : s.reaches r = true) (hb : s.regs.tlbBusy = false) : let t := s.invalidate r op h mask f
    t.regs = s.regs.invalidating op h mask ∧
    (∀ e : EngId, t.eng e = if bit mask (e.val / 8) = true then { s.eng e with dtlb := tlbDrop (s.eng e).dtlb f } else s.eng e) ∧
    (∀ k : CluId, let l := (t.clu k).l2
      l = (if bit mask k.val = true then tlbDrop (s.clu k).l2 f else (s.clu k).l2) ∧
      ((bit mask k.val = true ∧ ((s.clu k).pst = .c1 ∨ (s.clu k).pst = .c2)) → (t.clu k).waking = true) ∧
      { t.clu k with l2 := (s.clu k).l2, waking := (s.clu k).waking, walkRst := (s.clu k).walkRst } = s.clu k) ∧
    t.invWait = s.underInv mask f Stage.out ∧
    t = { s with regs := t.regs, engines := t.engines, clus := t.clus, invWait := t.invWait } := by
  intro t
  have ht : t = _ := invalidate_goes s r op h mask f hr hb
  let u : State := { s with regs := s.regs.invalidating op h mask, invWait := s.underInv mask f Stage.out }
  obtain ⟨en, cl, hdrop, hcl, hen⟩ := dropTlb_drops u mask f
  rw [hdrop] at ht
  obtain ⟨⟨q, hq⟩, hrst⟩ := restart_foldl (s.underInv mask f Stage.marks) { u with engines := en, clus := cl }
  obtain ⟨q2, hq2⟩ := wakeForInv_rest ((s.underInv mask f Stage.marks).foldl State.restart { u with engines := en, clus := cl }) mask
  have hrest : t = { u with engines := en, clus := q2 } := ht.trans (hq2.trans (by rw [hq]))
  have hwake : ∀ k, t.clu k = _ := fun k => (congrArg (fun x : State => x.clu k) ht).trans (wakeForInv_clu _ mask k)
  refine ⟨by rw [hrest], fun e => ?_, fun k => ?_, by rw [hrest], by rw [hrest]⟩
  · rw [hrest]
    exact hen e
  · have hu := hrst k
    rw [show State.clu { u with engines := en, clus := cl } k = _ from hcl k] at hu
    rw [hwake k]
    generalize ((s.underInv mask f Stage.marks).foldl State.restart { u with engines := en, clus := cl }).clu k = v at hu
    have hv : { v with l2 := (s.clu k).l2, waking := (s.clu k).waking, walkRst := (s.clu k).walkRst } = s.clu k ∧
        v.l2 = (if bit mask k.val = true then tlbDrop (s.clu k).l2 f else (s.clu k).l2) ∧ v.pst = (s.clu k).pst := unrestarted_eq hu
    obtain ⟨hframe, hl2, hpst⟩ := hv
    by_cases hm : bit mask k.val = true
    · rw [if_pos hm] at hl2
      rw [if_pos hm, if_pos hm, wakeForInv_keeps v]
      exact ⟨hl2, fun h => wakeForInv_wakes v (by rw [hpst]; exact h.2), hframe⟩
    · rw [if_neg hm] at hl2
      rw [if_neg hm, if_neg hm]
      exact ⟨hl2, fun h => absurd h.1 hm, hframe⟩

end invalidate

/-- Settles O38. -/
theorem invalidationsRemoveTranslations : Obligations.InvalidationsRemoveTranslations := by
  unfold Obligations.InvalidationsRemoveTranslations
  intro s r h mask
  refine ⟨fun i op hd f hin => ?_, fun hw => congrArg _ (if_pos (by simp [hw])), fun hw => congrArg _ (if_neg (by simp [hw]))⟩
  intro g
  have hexec : exec i s = .next (s.invalidate r op hd mask f) := by
    simp only [List.mem_cons, Prod.mk.injEq, List.not_mem_nil, or_false] at hin
    rcases hin with ⟨rfl, rfl, rfl, rfl⟩ | ⟨rfl, rfl, rfl, rfl⟩ | ⟨rfl, rfl, rfl, rfl⟩ | ⟨rfl, rfl, rfl, rfl⟩ <;> rfl
  exact ⟨fun hr hb => ⟨_, hexec, invalidate_removes s r op hd mask f hr hb⟩,
    fun hr hb => hexec.trans (congrArg _ (invalidate_busy s r op hd mask f hr hb)),
    fun hr => hexec.trans (congrArg _ (invalidate_unreached s r op hd mask f hr))⟩

end Sys2Proof.Machine
end

section
/-! The movers' channels: what is read after a write, the status of a descriptor, and a mover with nothing to do (12 R395 to R403). -/

namespace Sys2Proof.Machine

/-! ### Channels -/

section chans
variable (s : State) (m : MovId) (n : ChId)

theorem setChan_chan_ne {k : ChId} (c : Chan) (hk : k ≠ n) : (s.setChan m n c).chan m k = s.chan m k := by
  unfold State.chan State.setChan
  rw [State.setMover_mover_same]
  exact tget_tset_ne _ _ _ _ fun h => hk (Fin.ext h)

theorem setChan_mover (c : Chan) : (s.setChan m n c).mover m = { s.mover m with chans := tset (chanReset m n) (s.mover m).chans n.val c } :=
  State.setMover_mover_same s m _

theorem modChan_chan_same (f : Chan → Chan) : (s.modChan m n f).chan m n = f (s.chan m n) := State.setChan_chan_same s m n _

theorem modChan_chan_ne {k : ChId} (f : Chan → Chan) (hk : k ≠ n) : (s.modChan m n f).chan m k = s.chan m k := setChan_chan_ne s m n _ hk

theorem modMover_mover (f : Mover → Mover) : (s.modMover m f).mover m = f (s.mover m) := State.setMover_mover_same s m _

theorem modMover_chan {f : Mover → Mover} (hf : ∀ v, (f v).chans = v.chans) (k : ChId) : (s.modMover m f).chan m k = s.chan m k := by
  unfold State.chan
  rw [modMover_mover, hf]

/-- The registers of a mover: what is not its channels. -/
def Mover.plain (v : Mover) : Mover := { v with chans := [] }

theorem setChan_plain (c : Chan) : ((s.setChan m n c).mover m).plain = (s.mover m).plain := by
  rw [setChan_mover]
  rfl

end chans

/-! ### Bytes written and read back -/

theorem bytesOfNat_length (n v : Nat) : (bytesOfNat n v).length = n := by
  induction n generalizing v with
  | zero => rfl
  | succ n ih => exact congrArg (· + 1) (ih (v / 256))

theorem statusBytes_length (d : Desc) (st : Byte) (nv : BitVec 11) (h pz : Bool) (n : Nat) (f : Option Nat) :
    (statusBytes d st nv h pz n f).length = 32 := by
  unfold statusBytes
  simp only [List.length_append, bytesOfNat_length]

/-- The bytes that a space of memory holds. -/
def State.spaceByte (s : State) (ccm : Bool) (a : Nat) : Byte := if ccm then tget 0 s.ccm a else s.hbmByte a

theorem memBytes_fst (s : State) (ccm : Bool) (a n : Nat) : (s.memBytes ccm a n).map (·.1) = (List.range n).map fun i => s.spaceByte ccm (a + i) := by
  unfold State.memBytes State.spaceByte
  rw [List.map_map]
  refine List.map_congr_left fun i _ => ?_
  cases ccm <;> rfl

theorem memBytes_congr {s t : State} (hh : t.hbm = s.hbm) (hc : t.ccm = s.ccm) (ccm : Bool) (a n : Nat) :
    (t.memBytes ccm a n).map (·.1) = (s.memBytes ccm a n).map (·.1) := by
  rw [memBytes_fst, memBytes_fst]
  unfold State.spaceByte State.hbmByte
  rw [hh, hc]

theorem memWrite_rest (s : State) (ccm : Bool) (a : Nat) (bs : List (Byte × Bool)) : ∃ h p l c,
    s.memWrite ccm a bs = { s with hbm := h, poison := p, hbmLatent := l, ccm := c } := by
  unfold State.memWrite
  split
  · exact ⟨s.hbm, s.poison, s.hbmLatent, _, rfl⟩
  · exact ⟨_, _, _, s.ccm, rfl⟩

theorem memWrite_read (s : State) (ccm : Bool) (a : Nat) (bs : List Byte) :
    ((s.memWrite ccm a (bs.map fun b => (b, false))).memBytes ccm a bs.length).map (·.1) = bs := by
  rw [memBytes_fst]
  have hmap : ((bs.map fun b => (b, false)).map (·.1) : List Byte) = bs := by
    rw [List.map_map]
    exact List.map_id bs
  have hbyte : ∀ i, i < bs.length → (s.memWrite ccm a (bs.map fun b => (b, false))).spaceByte ccm (a + i) = bs.getD i 0 := fun i hi => by
    unfold State.memWrite State.spaceByte
    cases ccm with
    | true =>
      rw [if_pos rfl, if_pos rfl, hmap, tget_tsetRun, if_pos ⟨by omega, by omega⟩, Nat.add_sub_cancel_left]
    | false =>
      rw [if_neg Bool.false_ne_true, if_neg Bool.false_ne_true]
      show tget 0 (tsetRun 0 s.hbm a ((bs.map fun b => (b, false)).map (·.1))) (a + i) = _
      rw [hmap, tget_tsetRun, if_pos ⟨by omega, by omega⟩, Nat.add_sub_cancel_left]
  refine List.ext_getElem (by simp) fun i h1 h2 => ?_
  rw [List.getElem_map, List.getElem_range, hbyte i h2, List.getD_eq_getElem _ _ h2]

/-! ### The status of a descriptor -/

/-- A channel whose descriptor's status is written. -/
def Chan.statused (c : Chan) (st : Byte) (advance : Bool) : Chan :=
  { Chan.dropFlight { c with
      head := if advance then BitVec.ofNat 12 ((c.head.toNat + 1) % 2 ^ c.log2.toNat) else c.head, last := st } with
    cur := none, issued := false, ended := none, stopAs := none, fault := none, flushing := false }

/-- A write of a status: `c` is the channel after it, and `bs` stands at its place. -/
structure Statused (s t : State) (m : MovId) (ch : ChId) (c : Chan) (spc : Bool) (at_ : Nat) (bs : List Byte) : Prop where
  rest : t = { s with movers := t.movers, hbm := t.hbm, poison := t.poison, hbmLatent := t.hbmLatent, ccm := t.ccm, movSigs := t.movSigs }
  chan : t.chan m ch = c
  other : ∀ k, k ≠ ch → t.chan m k = s.chan m k
  plain : (t.mover m).plain = (s.mover m).plain
  read : (t.memBytes spc at_ bs.length).map (·.1) = bs

/-- A change of the channel itself after the write. -/
theorem Statused.modChan {s t : State} {m : MovId} {ch : ChId} {c : Chan} {spc : Bool} {at_ : Nat} {bs : List Byte}
    (h : Statused s t m ch c spc at_ bs) (f : Chan → Chan) : Statused s (t.modChan m ch f) m ch (f c) spc at_ bs where
  rest := by rw [h.rest]; rfl
  chan := by rw [modChan_chan_same, h.chan]
  other := fun k hk => (modChan_chan_ne t m ch f hk).trans (h.other k hk)
  plain := (setChan_plain t m ch _).trans h.plain
  read := h.read

/-- A signal that follows the write. -/
theorem Statused.signals {s t : State} {m : MovId} {ch : ChId} {c : Chan} {spc : Bool} {at_ : Nat} {bs : List Byte}
    (h : Statused s t m ch c spc at_ bs) (l : List ((MovId × ChId) × HedgeId × Nat)) :
    Statused s { t with movSigs := l } m ch c spc at_ bs where
  rest := by rw [h.rest]
  chan := h.chan
  other := h.other
  plain := h.plain
  read := h.read

section status
variable (s : State) (m : MovId) (ch : ChId) (d : Desc) (st : Byte) (nv : BitVec 11) (halt : Bool)

theorem memWrite_statused (spc : Bool) (at_ : Nat) (bs : List Byte) :
    Statused s (s.memWrite spc at_ (bs.map fun b => (b, false))) m ch (s.chan m ch) spc at_ bs := by
  have hread := memWrite_read s spc at_ bs
  obtain ⟨h, p, l, c, hw⟩ := memWrite_rest s spc at_ (bs.map fun b => (b, false))
  rw [hw] at hread ⊢
  exact ⟨rfl, rfl, fun _ _ => rfl, rfl, hread⟩

theorem putStatus_statused (spc : Bool) (at_ : Nat) (adv : Bool) (bs : List Byte) :
    Statused s (s.putStatus m ch d st spc at_ adv bs) m ch { s.chan m ch with
      head := if adv then BitVec.ofNat 12 (((s.chan m ch).head.toNat + 1) % 2 ^ (s.chan m ch).log2.toNat) else (s.chan m ch).head, last := st }
      spc at_ bs := by
  have h := (memWrite_statused s m ch spc at_ bs).modChan fun c => { c with
    head := if adv then BitVec.ofNat 12 ((c.head.toNat + 1) % 2 ^ c.log2.toNat) else c.head, last := st }
  unfold State.putStatus
  dsimp only
  split
  · exact h.signals _
  · exact h

/-- The status of the descriptor at HEAD stands in its place, and the channel has dropped it. -/
theorem writeStatus_statused : Statused s (s.writeStatus m ch d st nv halt) m ch ((s.chan m ch).statused st true) (s.chan m ch).spc
    ((s.chan m ch).descAt (s.chan m ch).head.toNat)
    (statusBytes d st nv halt (s.chan m ch).poison (s.chan m ch).done (s.chan m ch).diff) :=
  (putStatus_statused s m ch d st (s.chan m ch).spc ((s.chan m ch).descAt (s.chan m ch).head.toNat) true
    (statusBytes d st nv halt (s.chan m ch).poison (s.chan m ch).done (s.chan m ch).diff)).modChan
    fun c => { c.dropFlight with cur := none, issued := false, ended := none, stopAs := none, fault := none, flushing := false }

end status

/-! ### A mover with nothing to do -/

theorem tget_mem {α : Type} (d : α) (t : Tab α) (i : Nat) : tget d t i = d ∨ (i, tget d t i) ∈ t := by
  induction t with
  | nil => exact .inl rfl
  | cons kv t ih =>
    obtain ⟨k, v⟩ := kv
    by_cases hk : i = k
    · subst hk
      exact .inr (by simp [tget])
    · simp only [tget, if_neg hk]
      exact ih.imp_right fun h => List.mem_cons_of_mem _ h

theorem tget_map_values {α : Type} {d : α} {g : α → α} (hg : g d = d) (t : Tab α) (i : Nat) :
    tget d (t.map fun kv => (kv.1, g kv.2)) i = g (tget d t i) := by
  induction t with
  | nil => exact hg.symm
  | cons kv t ih =>
    obtain ⟨k, v⟩ := kv
    by_cases hk : i = k
    · subst hk
      simp [tget]
    · simp only [List.map_cons, tget, if_neg hk]
      exact ih

theorem chanReset_cur (m : MovId) (n : ChId) : (chanReset m n).cur = none := by
  unfold chanReset
  split <;> rfl

theorem chanReset_flight (m : MovId) (n : ChId) : (chanReset m n).flight = [] := by
  unfold chanReset
  split <;> rfl

section quiet
variable (s : State) (m : MovId)

/-- No other channel of a mover at work has a descriptor. -/
theorem aloneAt_cur {ch : ChId} (h : s.aloneAt m ch) {n : ChId} (hn : n ≠ ch) : (s.chan m n).cur = none := by
  rcases tget_mem (chanReset m n) (s.mover m).chans n.val with hd | hin
  · exact (congrArg Chan.cur hd).trans (chanReset_cur m n)
  · rcases h _ hin with heq | ⟨-, hcur, -⟩
    · exact absurd (Fin.ext (congrArg Prod.fst heq)) hn
    · exact hcur

theorem paceChan_idle (v : Mover) (now : Nat) {c : Chan} (h : c.cur = none) : v.paceChan now c = c := by
  unfold Mover.paceChan
  rw [h]

theorem pace_chan (n : ChId) : (s.pace m).chan m n = (s.mover m).paceChan s.aoTick.toNat (s.chan m n) := by
  unfold State.pace State.chan
  rw [modMover_mover]
  exact tget_map_values (paceChan_idle _ _ (chanReset_cur m n)) _ _

theorem pace_plain : ((s.pace m).mover m).plain = (s.mover m).plain := by
  unfold State.pace
  rw [modMover_mover]
  rfl

theorem pace_rest : s.pace m = { s with movers := (s.pace m).movers } := rfl

theorem pump_idle {n : ChId} (f : Nat) (h : (s.chan m n).cur = none ∨ (s.chan m n).ended.isSome = true) : State.pump m n f s = s := by
  cases f with
  | zero => rfl
  | succ f =>
    unfold State.pump
    dsimp only
    rcases h with h | h
    · rw [h]
    · obtain ⟨x, hx⟩ := Option.isSome_iff_exists.1 h
      rw [hx]
      split
      · next h2 => cases h2
      · rfl

/-- No channel of the mover has bytes to write or a burst to start. -/
def State.Still (s : State) (m : MovId) : Prop := ∀ n, (s.chan m n).cur = none ∨ (s.chan m n).ended.isSome = true

theorem pump_foldl_still (l : List ChId) (h : s.Still m) : l.foldl (fun t n => State.pump m n 65 t) s = s := by
  induction l with
  | nil => rfl
  | cons n l ih =>
    rw [List.foldl_cons, pump_idle s m 65 (h n)]
    exact ih

theorem writeAll_still (h : s.Still m) : s.writeAll m = s := pump_foldl_still s m _ h

theorem wants_still {c : Chan} (h : c.cur = none ∨ c.ended.isSome = true) : c.wants = false := by
  unfold Chan.wants
  rcases h with h | h
  · rw [h]
  · obtain ⟨x, hx⟩ := Option.isSome_iff_exists.1 h
    rw [hx]
    split
    · next h2 _ => cases h2
    · rfl

theorem nextServed_still (h : s.Still m) : s.nextServed m = none := by
  unfold State.nextServed
  dsimp only
  split
  · rfl
  · have hnone : ((s.mover m).inUse.filter fun n => s.servable m (s.chan m n)) = [] := by
      refine List.filter_eq_nil_iff.2 fun n _ => ?_
      unfold State.servable
      rw [wants_still (h n)]
      simp
    rw [hnone]
    rfl

theorem serve_still (f : Nat) (h : s.Still m) : State.serve m f s = s := by
  cases f with
  | zero => rfl
  | succ f =>
    unfold State.serve
    rw [nextServed_still s m h]

theorem paceChan_still (v : Mover) (now : Nat) (c : Chan) :
    (v.paceChan now c).cur = c.cur ∧ (v.paceChan now c).ended = c.ended := by
  unfold Mover.paceChan
  split
  · split
    · split <;> exact ⟨rfl, rfl⟩
    · split <;> exact ⟨rfl, rfl⟩
  · exact ⟨rfl, rfl⟩

theorem pace_still (h : s.Still m) : (s.pace m).Still m := fun n => by
  rw [pace_chan]
  obtain ⟨hc, he⟩ := paceChan_still (s.mover m) s.aoTick.toNat (s.chan m n)
  rw [hc, he]
  exact h n

/-- A mover of whose channels none goes on only paces them. -/
theorem moverGo_still (he : (s.mover m).errhalt = false) (h : s.Still m) : s.moverGo m = s.pace m := by
  unfold State.moverGo
  rw [if_neg (by rw [he]; exact Bool.false_ne_true), writeAll_still s m h, serve_still _ m _ (pace_still s m h), writeAll_still _ m (pace_still s m h)]

end quiet

end Sys2Proof.Machine
end

section
/-! O40: what KICK, ABORT, RESUME and RESET do to a channel, its configuration, and a mover's halt (12 R388, R398, R399, R407, R410 to R415). -/

namespace Sys2Proof.Machine

theorem chan_congr {s t : State} (h : t.movers = s.movers) (m : MovId) (n : ChId) : t.chan m n = s.chan m n := by
  unfold State.chan State.mover
  rw [h]

theorem wakeFor_rest (s : State) (m : MovId) : ∃ q, s.wakeFor m = { s with clus := q } := by
  unfold State.wakeFor State.wakeClu
  split
  · dsimp only
    split
    · exact ⟨_, rfl⟩
    · exact ⟨s.clus, rfl⟩
  · exact ⟨s.clus, rfl⟩

/-! ### KICK -/

/-- How a kick finds a channel, and what it makes of it (12 R398). -/
def Chan.Kicks (c c' : Chan) : Prop :=
  (c.state = .idle ∧ c' = { c with state := .active }) ∨ ((c.state = .active ∨ c.state = .paced ∨ c.state = .paged) ∧ c' = { c with kpend := true }) ∨
    ((c.state = .disabled ∨ c.state = .stopped ∨ c.state = .errHalt) ∧ c' = c)

theorem Chan.Kicks.eq {c c' : Chan} (h : c.Kicks c') : c.kick = c' := by
  unfold Chan.kick
  rcases h with ⟨h, rfl⟩ | ⟨h | h | h, rfl⟩ | ⟨h | h | h, rfl⟩ <;> rw [h]

/-- The bytes of a descriptor that firmware hands over: its OWN is 1. -/
def Desc.ownedBytes (d : Desc) : List Byte :=
  bytesOfNat 8 (d.ctrl ||| 1).toNat ++ bytesOfNat 8 d.src.toNat ++ bytesOfNat 8 d.dst.toNat ++ bytesOfNat 8 d.aux.toNat

theorem Desc.ownedBytes_length (d : Desc) : d.ownedBytes.length = 32 := by
  unfold Desc.ownedBytes
  simp only [List.length_append, bytesOfNat_length]

section kick
variable (s : State) (m : MovId) (ch : ChId)

/-- A kick of what has been handed over. -/
def State.kicked : State := (s.modChan m ch Chan.kick).wakeFor m

theorem kicked_rest : ∃ q, s.kicked m ch = { s.modChan m ch Chan.kick with clus := q } := wakeFor_rest _ m

theorem kicked_chan : (s.kicked m ch).chan m ch = (s.chan m ch).kick := by
  obtain ⟨q, hq⟩ := kicked_rest s m ch
  rw [hq]
  exact modChan_chan_same s m ch _

theorem kicked_chan_ne {n : ChId} (h : n ≠ ch) : (s.kicked m ch).chan m n = s.chan m n := by
  obtain ⟨q, hq⟩ := kicked_rest s m ch
  rw [hq]
  exact modChan_chan_ne s m ch _ h

/-- A place of the ring that the device has not: no descriptor of it may be discarded with a signal. -/
structure FreePlace (i : Fin 4096) : Prop where
  within : i.val < 2 ^ (s.chan m ch).log2.toNat
  unowned : bit (s.descAtIx (s.chan m ch) i.val).ctrl 0 = false ∨
    (s.chan m ch).working = false ∧ (bit (s.descAtIx (s.chan m ch) i.val).ctrl 8 = false ∨ (s.chan m ch).sigv = false)
  noOrphan : (s.chan m ch).orphan = none

variable {s m ch} {i : Fin 4096} {d : Desc}

theorem FreePlace.not_owned (h : FreePlace s m ch i) :
    (decide (2 ^ (s.chan m ch).log2.toNat ≤ i.val) || s.deviceOwns (s.chan m ch) i.val) = false := by
  unfold State.deviceOwns
  rw [h.noOrphan, decide_eq_false (Nat.not_le.2 h.within)]
  rcases h.unowned with h | ⟨h, -⟩
  · rw [h]; rfl
  · rw [h, Bool.and_false]; rfl

theorem FreePlace.unsignalled (h : FreePlace s m ch i) :
    (bit (s.descAtIx (s.chan m ch) i.val).ctrl 0 && (s.chan m ch).signals (s.descAtIx (s.chan m ch) i.val)) = false := by
  unfold Chan.signals Desc.sig
  rcases h.unowned with h | ⟨-, h | h⟩
  · rw [h]; rfl
  · rw [h, Bool.false_and, Bool.and_false]
  · rw [h, Bool.and_false, Bool.and_false]

/-- The state into which a descriptor is handed over: with SIG, MARM has been raised. -/
def State.armed (s : State) (c : Chan) (d : Desc) : State := if c.signals d then s.setMarm c.hedge c.ept.toNat (· + 1) else s

theorem handOver_one (h : FreePlace s m ch i) : State.handOver m ch [(i, d)] s =
    if ((s.chan m ch).signals d && s.inRange (s.chan m ch).hedge (s.chan m ch).ept.toNat &&
      (s.endpoint (s.chan m ch).hedge (s.chan m ch).ept.toNat).marm == 255) = true then s
    else (s.armed (s.chan m ch) d).memWrite (s.chan m ch).spc ((s.chan m ch).descAt i.val) (d.ownedBytes.map fun b => (b, false)) := by
  rw [State.handOver]
  dsimp only
  rw [if_neg (by rw [h.not_owned]; exact Bool.false_ne_true), h.unsignalled]
  simp only [Bool.false_eq_true, if_false]
  rfl

theorem exec_kick (hw : hwChan m ch = false) (ds : List (Fin 4096 × Word64 × Word64 × Word64 × Word64)) :
    exec (.kick m ⟨ch, ds⟩) s = .next ((State.handOver m ch (ds.map fun q => (q.1, ⟨q.2.1, q.2.2.1, q.2.2.2.1, q.2.2.2.2⟩)) s).kicked m ch) :=
  congrArg Host.Outcome.next (if_neg (by rw [hw]; exact Bool.false_ne_true))

/-- A descriptor stands in its place, in a state whose directory is that of `u`. -/
theorem handedOver (u : State) (hc : u.chan m ch = s.chan m ch) (spc : Bool) (at_ : Nat) :
    ((u.memWrite spc at_ (d.ownedBytes.map fun b => (b, false))).kicked m ch).chan m ch = (s.chan m ch).kick ∧
    (((u.memWrite spc at_ (d.ownedBytes.map fun b => (b, false))).kicked m ch).memBytes spc at_ 32).map (·.1) = d.ownedBytes ∧
    ((u.memWrite spc at_ (d.ownedBytes.map fun b => (b, false))).kicked m ch).dir = u.dir ∧
    ((u.memWrite spc at_ (d.ownedBytes.map fun b => (b, false))).kicked m ch).hedges = u.hedges := by
  have hst := memWrite_statused u m ch spc at_ d.ownedBytes
  generalize hv : u.memWrite spc at_ (d.ownedBytes.map fun b => (b, false)) = v at hst ⊢
  have hread := hst.read
  rw [d.ownedBytes_length] at hread
  refine ⟨by rw [kicked_chan, hst.chan, hc], ?_, ?_, ?_⟩
  · obtain ⟨q, hq⟩ := kicked_rest v m ch
    rw [hq]
    exact (memBytes_congr rfl rfl spc at_ 32).trans hread
  · obtain ⟨q, hq⟩ := kicked_rest v m ch
    rw [hq, hst.rest]
    rfl
  · obtain ⟨q, hq⟩ := kicked_rest v m ch
    rw [hq, hst.rest]
    rfl

end kick

/-- MARM is raised in the endpoint; the rest of the hedge and the movers stay. -/
theorem setMarm_endpoint (s : State) (h : HedgeId) (e : Nat) (f : Byte → Byte) (hr : s.inRange h e = true) :
    (s.setMarm h e f).endpoint h e = { s.endpoint h e with marm := f (s.endpoint h e).marm } ∧ (s.setMarm h e f).movers = s.movers := by
  have hset : (s.setEndpoint h e { s.endpoint h e with marm := f (s.endpoint h e).marm }).endpoint h e =
      { s.endpoint h e with marm := f (s.endpoint h e).marm } := tget_tset_same _ _ _ _
  unfold State.setMarm
  rw [if_pos hr]
  unfold State.watchDead
  split
  · exact ⟨hset, rfl⟩
  · refine ⟨?_, rfl⟩
    refine Eq.trans ?_ hset
    show tget Endpoint.zero _ ((State.hedge (State.modHedge _ h _) h).par.dbase + e) = _
    rw [State.modHedge, State.setHedge_hedge_same]
    rfl

section handing
variable {s : State} {m : MovId} {ch : ChId} {c' : Chan} {i : Fin 4096} {d : Desc} (hw : hwChan m ch = false) (hk : (s.chan m ch).Kicks c')
include hw hk

theorem kick_answers : Answers (.kick m ⟨ch, []⟩) s fun t => t.chan m ch = c' ∧ (∀ n, n ≠ ch → t.chan m n = s.chan m n) ∧
    t = { s with movers := t.movers, clus := t.clus } := by
  obtain ⟨q, hq⟩ := kicked_rest s m ch
  exact ⟨_, exec_kick hw [], (kicked_chan s m ch).trans hk.eq, fun n hn => kicked_chan_ne s m ch hn, by
    rw [show State.handOver m ch (List.map _ []) s = s from rfl, hq]; rfl⟩

theorem kick_unsignalled (hp : FreePlace s m ch i) (hs : bit d.ctrl 8 = false ∨ (s.chan m ch).sigv = false) :
    Answers (.kick m ⟨ch, [(i, d.ctrl, d.src, d.dst, d.aux)]⟩) s fun t => (t.chan m ch = c' ∧
      (t.memBytes (s.chan m ch).spc ((s.chan m ch).descAt i.val) 32).map (·.1) = d.ownedBytes) ∧ t.dir = s.dir := by
  have hsig : (s.chan m ch).signals d = false := by
    unfold Chan.signals Desc.sig
    rcases hs with h | h
    · rw [h]; rfl
    · rw [h, Bool.and_false]
  have hone : State.handOver m ch [(i, d)] s =
      s.memWrite (s.chan m ch).spc ((s.chan m ch).descAt i.val) (d.ownedBytes.map fun b => (b, false)) := by
    rw [handOver_one hp, State.armed, hsig]
    rfl
  obtain ⟨hc, hr, hdir, -⟩ := handedOver (s := s) (m := m) (ch := ch) (d := d) s rfl (s.chan m ch).spc ((s.chan m ch).descAt i.val)
  refine ⟨_, (exec_kick hw _).trans (congrArg (fun v : State => Host.Outcome.next (v.kicked m ch)) hone), ⟨hc.trans hk.eq, hr⟩, hdir⟩

theorem kick_signalled (hp : FreePlace s m ch i) (h8 : bit d.ctrl 8 = true) (hv : (s.chan m ch).sigv = true)
    (he : (s.chan m ch).ept.toNat < (s.hedge (s.chan m ch).hedge).par.dcount)
    (hm : (s.endpoint (s.chan m ch).hedge (s.chan m ch).ept.toNat).marm ≠ 255) :
    Answers (.kick m ⟨ch, [(i, d.ctrl, d.src, d.dst, d.aux)]⟩) s fun t => (t.chan m ch = c' ∧
      (t.memBytes (s.chan m ch).spc ((s.chan m ch).descAt i.val) 32).map (·.1) = d.ownedBytes) ∧
      t.endpoint (s.chan m ch).hedge (s.chan m ch).ept.toNat = { s.endpoint (s.chan m ch).hedge (s.chan m ch).ept.toNat with
        marm := (s.endpoint (s.chan m ch).hedge (s.chan m ch).ept.toNat).marm + 1 } := by
  have hsig : (s.chan m ch).signals d = true := by
    unfold Chan.signals Desc.sig
    rw [h8, hv]; rfl
  have hone : State.handOver m ch [(i, d)] s = (s.setMarm (s.chan m ch).hedge (s.chan m ch).ept.toNat (· + 1)).memWrite (s.chan m ch).spc
      ((s.chan m ch).descAt i.val) (d.ownedBytes.map fun b => (b, false)) := by
    rw [handOver_one hp, State.armed, if_pos hsig, if_neg]
    rw [beq_eq_false_iff_ne.2 hm, Bool.and_false]
    exact Bool.false_ne_true
  obtain ⟨hep, hmov⟩ := setMarm_endpoint s (s.chan m ch).hedge (s.chan m ch).ept.toNat (· + 1) (decide_eq_true he)
  obtain ⟨hc, hr, hdir, hhed⟩ := handedOver (s := s) (m := m) (ch := ch) (d := d) (s.setMarm (s.chan m ch).hedge (s.chan m ch).ept.toNat (· + 1))
    (chan_congr hmov m ch) (s.chan m ch).spc ((s.chan m ch).descAt i.val)
  refine ⟨_, (exec_kick hw _).trans (congrArg (fun v : State => Host.Outcome.next (v.kicked m ch)) hone), ⟨hc.trans hk.eq, hr⟩, ?_⟩
  refine Eq.trans ?_ hep
  unfold State.endpoint State.hedge
  rw [hdir, hhed]

theorem kick_full (hp : FreePlace s m ch i) (h8 : bit d.ctrl 8 = true) (hv : (s.chan m ch).sigv = true)
    (he : (s.chan m ch).ept.toNat < (s.hedge (s.chan m ch).hedge).par.dcount)
    (hm : (s.endpoint (s.chan m ch).hedge (s.chan m ch).ept.toNat).marm = 255) :
    Answers (.kick m ⟨ch, [(i, d.ctrl, d.src, d.dst, d.aux)]⟩) s fun t => t.chan m ch = c' ∧ t = { s with movers := t.movers, clus := t.clus } := by
  have hsig : (s.chan m ch).signals d = true := by
    unfold Chan.signals Desc.sig
    rw [h8, hv]; rfl
  have hone : State.handOver m ch [(i, d)] s = s := by
    rw [handOver_one hp, if_pos]
    rw [hsig, show s.inRange (s.chan m ch).hedge (s.chan m ch).ept.toNat = true from decide_eq_true he, hm]
    rfl
  obtain ⟨q, hq⟩ := kicked_rest s m ch
  exact ⟨_, (exec_kick hw _).trans (congrArg (fun v : State => Host.Outcome.next (v.kicked m ch)) hone), (kicked_chan s m ch).trans hk.eq,
    by rw [hq]; rfl⟩

end handing

end Sys2Proof.Machine
end

section
namespace Sys2Proof.Machine
/-! ### ABORT, RESUME, RESET and the configuration -/

section abort
variable {s : State} {m : MovId} {ch : ChId} {d : Desc}

theorem plain_intstat {v w : Mover} (h : v.plain = w.plain) : v.intstat = w.intstat := by
  change v.plain.intstat = w.plain.intstat
  rw [h]

/-- A descriptor that ends with a status other than OK stops its channel and interrupts (12 R395, R402). -/
theorem finish_failed (s : State) (m : MovId) (ch : ChId) (d : Desc) (st : Byte) (nv : BitVec 11) (hst : st ≠ 0) :
    ∃ u, Statused s u m ch { (s.chan m ch).statused st true with state := .stopped, aborting := false } (s.chan m ch).spc
      ((s.chan m ch).descAt (s.chan m ch).head.toNat) (statusBytes d st nv false (s.chan m ch).poison (s.chan m ch).done (s.chan m ch).diff) ∧
      s.finish m ch d st nv = u.modMover m fun v => v.interrupt ch := by
  refine ⟨(s.writeStatus m ch d st nv false).modChan m ch fun c => { c with state := .stopped, aborting := false },
    (writeStatus_statused s m ch d st nv false).modChan fun c => { c with state := .stopped, aborting := false }, ?_⟩
  have hafter : (fun c : Chan => c.after d st) = fun c => { c with state := .stopped, aborting := false } := funext fun c => if_pos (.inl hst)
  unfold State.finish
  dsimp only
  rw [hafter, decide_eq_true hst, decide_eq_false hst, Bool.or_true, Bool.true_or, Bool.and_false]
  rfl

/-- The channel that ABORT has met. -/
def Chan.aborted (c : Chan) : Chan := { c with aborting := true, stopAs := some 0x0C }

/-- The channel whose descriptor has ended with a status that is still to be written. -/
def Chan.endsAs (c : Chan) (st : Byte) : Chan := { c with ended := some (st, 0) }

theorem aborted_statused (c : Chan) : { c.aborted.statused 0x0C true with state := .stopped, aborting := false } = { c.ended_ 0x0C with state := .stopped } := rfl

/-- The descriptor of an aborted channel ends at once. -/
theorem aborted_finish (s : State) (m : MovId) (ch : ChId) (d : Desc) : ∃ u, Statused s u m ch { (s.chan m ch).ended_ 0x0C with state := .stopped } (s.chan m ch).spc
      ((s.chan m ch).descAt (s.chan m ch).head.toNat) (statusBytes d 0x0C 0 false (s.chan m ch).poison (s.chan m ch).done (s.chan m ch).diff) ∧
      (s.setChan m ch (s.chan m ch).aborted).finish m ch d 0x0C 0 = u.modMover m fun v => v.interrupt ch := by
  obtain ⟨u, hu, hf⟩ := finish_failed (s.setChan m ch (s.chan m ch).aborted) m ch d 0x0C 0 (by decide)
  rw [State.setChan_chan_same] at hu
  exact ⟨u, ⟨by rw [hu.rest]; rfl, hu.chan.trans (aborted_statused _), fun k hk => (hu.other k hk).trans (setChan_chan_ne s m ch _ hk),
    hu.plain.trans (setChan_plain s m ch _), hu.read⟩, hf⟩

/-- A descriptor that is to stop has ended once nothing of it is in flight. -/
theorem settle_stopped {c : Chan} {st : Byte} (hc : c.cur = some d) (he : c.ended = none) (hs : c.stopAs = some st) (hb : d.block = false)
    (hl : c.live = []) (hd : c.done ≠ d.len) : c.settle = c.endsAs st := by
  unfold Chan.settle
  split
  · next d' hc' _ =>
    obtain rfl : d = d' := Option.some.inj (hc.symm.trans hc')
    rw [hb, hl, if_neg (by simp), if_neg hd]
    split
    · next st' h =>
      obtain rfl : st = st' := Option.some.inj (hs.symm.trans h)
      rfl
    · next h => exact absurd (hs.symm.trans h) (by simp)
  · next hno => exact absurd he (hno d hc)

/-- An aborted channel with nothing in flight ends its descriptor. -/
theorem pump_aborted (hc : (s.chan m ch).cur = some d) (he : (s.chan m ch).ended = none) (hb : d.block = false) (hfl : (s.chan m ch).flight = []) (hfa : (s.chan m ch).fault = none) (hd : (s.chan m ch).done ≠ d.len)
    (f : Nat) : State.pump m ch (f + 1) (s.setChan m ch (s.chan m ch).aborted) =
      (s.setChan m ch (s.chan m ch).aborted).setChan m ch ((s.chan m ch).aborted.endsAs 0x0C) := by
  have hlive : (s.chan m ch).aborted.live = [] := by
    unfold Chan.live Chan.aborted
    dsimp only
    rw [hfl]
    rfl
  have hcur : (s.chan m ch).aborted.cur = some d := hc
  have hend : (s.chan m ch).aborted.ended = none := he
  have hsettle := settle_stopped (c := (s.chan m ch).aborted) (st := 0x0C) hc he rfl hb hlive hd
  have hpair : (s.chan m ch).aborted.pair d = (s.chan m ch).aborted := by
    unfold Chan.pair
    rw [hlive]
  rw [State.pump]
  dsimp only
  rw [State.setChan_chan_same, hcur, hend]
  dsimp only
  have hfault : (s.chan m ch).aborted.fault = none := hfa
  rw [hb, hfault, if_neg (by simp), hpair, hlive, hsettle]
  split <;> rfl

/-- The write engine over a mover's channels when all but one have nothing to do, and that one's turn leaves nothing to do. -/
theorem pump_foldl_one {s u : State} (f : Nat) (hp : State.pump m ch f s = u) (hi : ∀ n, n ≠ ch → (s.chan m n).cur = none)
    (hu : ∀ n, State.pump m n f u = u) (l : List ChId) (hl : ch ∈ l) : l.foldl (fun t n => State.pump m n f t) s = u := by
  have hrest : ∀ l : List ChId, l.foldl (fun t n => State.pump m n f t) u = u := fun l => by
    induction l with
    | nil => rfl
    | cons n l ih => rw [List.foldl_cons, hu n, ih]
  induction l with
  | nil => exact absurd hl (by simp)
  | cons n l ih =>
    rw [List.foldl_cons]
    by_cases hn : n = ch
    · rw [hn, hp, hrest]
    · rw [pump_idle s m f (.inl (hi n hn))]
      exact ih (List.mem_of_ne_of_mem (fun h => hn h.symm) hl)

/-- A channel with a descriptor is in use. -/
theorem mem_inUse (hc : (s.chan m ch).cur = some d) : ch ∈ (s.mover m).inUse := by
  have hmem : (ch.val, s.chan m ch) ∈ (s.mover m).chans := (tget_mem (chanReset m ch) (s.mover m).chans ch.val).resolve_left fun h => by
    have hnone := (congrArg Chan.cur h).trans (chanReset_cur m ch)
    exact absurd (hc.symm.trans hnone) (by simp)
  exact List.mem_filterMap.2 ⟨_, hmem, dif_pos ch.isLt⟩

variable (hw : hwChan m ch = false) (hh : (s.mover m).errhalt = false)
include hw hh

theorem abort_guard : ¬ (hwChan m ch || (s.mover m).errhalt) = true := by
  rw [hw, hh]
  exact Bool.false_ne_true

theorem abort_idle (h : (s.chan m ch).state = .idle ∨ ((s.chan m ch).state = .active ∨ (s.chan m ch).state = .paced ∨ (s.chan m ch).state = .paged) ∧
    (s.chan m ch).cur = none) : Answers (.abortChannel m ch) s fun t => (t.chan m ch).state = .stopped ∧
      (t.mover m).intstat = (s.mover m).intstat ||| BitVec.ofNat 64 (2 ^ ch.val) ∧ t = { s with movers := t.movers } := by
  have hstops : ∀ f : Chan → Chan, (∀ c, (f c).state = .stopped) →
      (((s.modChan m ch f).modMover m fun v => v.interrupt ch).chan m ch).state = .stopped ∧
      (((s.modChan m ch f).modMover m fun v => v.interrupt ch).mover m).intstat = (s.mover m).intstat ||| BitVec.ofNat 64 (2 ^ ch.val) ∧
      ((s.modChan m ch f).modMover m fun v => v.interrupt ch) =
        { s with movers := ((s.modChan m ch f).modMover m fun v => v.interrupt ch).movers } := fun f hf => by
    refine ⟨?_, ?_, rfl⟩
    · rw [modMover_chan _ m (f := fun v => v.interrupt ch) (fun _ => rfl), modChan_chan_same]
      exact hf _
    · rw [modMover_mover]
      exact congrArg (· ||| BitVec.ofNat 64 (2 ^ ch.val)) (plain_intstat (setChan_plain s m ch _))
  rcases h with hs | ⟨hs | hs | hs, hc⟩
  · refine ⟨_, ?_, hstops (fun c => { c with state := .stopped }) fun _ => rfl⟩
    show execAbortChannel m ch s = _
    unfold execAbortChannel
    dsimp only
    rw [if_neg (abort_guard hw hh), hs]
  all_goals
    refine ⟨_, ?_, hstops (fun c => { c with state := .stopped, aborting := false }) fun _ => rfl⟩
    show execAbortChannel m ch s = _
    unfold execAbortChannel
    dsimp only
    rw [if_neg (abort_guard hw hh), hs, hc]

variable (hs : (s.chan m ch).state = .active ∨ (s.chan m ch).state = .paced ∨ (s.chan m ch).state = .paged) (hc : (s.chan m ch).cur = some d)
  (he : (s.chan m ch).ended = none) (hn : (s.chan m ch).stopAs = none)
include hs hc he hn

/-- A channel with a descriptor under way: what an ABORT does with it. -/
theorem exec_abort : exec (.abortChannel m ch) s = .next
    (if (d.block && (s.chan m ch).issued) = true then s.setChan m ch (s.chan m ch).aborted
      else if d.block = true then (s.setChan m ch (s.chan m ch).aborted).finish m ch d 0x0C 0
      else if (s.chan m ch).state = .active then (s.setChan m ch (s.chan m ch).aborted).moverGo m
      else ((s.setChan m ch (s.chan m ch).aborted).finish m ch d 0x0C 0).moverGo m) := by
  have hset : { s.chan m ch with aborting := true, stopAs := some ((s.chan m ch).stopAs.getD 0x0C) } = (s.chan m ch).aborted := by
    rw [hn]
    rfl
  show execAbortChannel m ch s = _
  unfold execAbortChannel
  dsimp only
  rw [hset]
  rcases hs with hs | hs | hs <;>
    · rw [if_neg (abort_guard hw hh), hs, hc, he, hn]
      rfl

theorem abort_issued (hb : d.block = true) (hi : (s.chan m ch).issued = true) : exec (.abortChannel m ch) s =
    .next (s.setChan m ch { s.chan m ch with aborting := true, stopAs := some 0x0C }) :=
  (exec_abort hw hh hs hc he hn).trans (congrArg Host.Outcome.next (if_pos (by rw [hb, hi]; rfl)))

theorem abort_ends (h : d.block = true ∧ (s.chan m ch).issued = false ∨ d.block = false ∧ (s.chan m ch).state ≠ .active ∧ s.aloneAt m ch) :
    Answers (.abortChannel m ch) s fun t => t.chan m ch = { (s.chan m ch).ended_ 0x0C with state := .stopped } ∧
      (t.mover m).intstat = (s.mover m).intstat ||| BitVec.ofNat 64 (2 ^ ch.val) ∧
      (t.memBytes (s.chan m ch).spc ((s.chan m ch).descAt (s.chan m ch).head.toNat) 32).map (·.1) =
        statusBytes d 0x0C 0 false (s.chan m ch).poison (s.chan m ch).done (s.chan m ch).diff := by
  obtain ⟨u, hu, hf⟩ := aborted_finish s m ch d
  have hchan : (u.modMover m fun v => v.interrupt ch).chan m ch = { (s.chan m ch).ended_ 0x0C with state := .stopped } :=
    (modMover_chan u m (f := fun v => v.interrupt ch) (fun _ => rfl) ch).trans hu.chan
  have hint : ((u.modMover m fun v => v.interrupt ch).mover m).intstat = (s.mover m).intstat ||| BitVec.ofNat 64 (2 ^ ch.val) := by
    rw [modMover_mover]
    exact congrArg (· ||| BitVec.ofNat 64 (2 ^ ch.val)) (plain_intstat hu.plain)
  have hread := hu.read
  rw [statusBytes_length] at hread
  rcases h with ⟨hb, hi⟩ | ⟨hb, ha, hal⟩
  · refine ⟨u.modMover m fun v => v.interrupt ch, ?_, hchan, hint, (memBytes_congr rfl rfl _ _ 32).trans hread⟩
    rw [exec_abort hw hh hs hc he hn, if_neg (by rw [hi, Bool.and_false]; exact Bool.false_ne_true), if_pos hb, hf]
  · have hstill : (u.modMover m fun v => v.interrupt ch).Still m := fun n => .inl <| by
      by_cases hnc : n = ch
      · rw [hnc, hchan]
        rfl
      · rw [modMover_chan u m (f := fun v => v.interrupt ch) (fun _ => rfl), hu.other n hnc]
        exact aloneAt_cur s m hal hnc
    have herr : ((u.modMover m fun v => v.interrupt ch).mover m).errhalt = false := by
      rw [modMover_mover]
      exact (congrArg Mover.errhalt hu.plain :).trans hh
    refine ⟨(u.modMover m fun v => v.interrupt ch).pace m, ?_, ?_, ?_, (memBytes_congr rfl rfl _ _ 32).trans hread⟩
    · rw [exec_abort hw hh hs hc he hn, if_neg (by rw [hb]; exact Bool.false_ne_true), if_neg (by rw [hb]; exact Bool.false_ne_true), if_neg ha, hf,
        moverGo_still _ m herr hstill]
    · rw [pace_chan, hchan]
      exact paceChan_idle _ _ rfl
    · exact (plain_intstat (pace_plain _ m)).trans hint

/-- An ACTIVE channel with nothing in flight: its descriptor has ended, and the status is still to be written. -/
theorem abort_active (hb : d.block = false) (ha : (s.chan m ch).state = .active) (hal : s.aloneAt m ch) (hfl : (s.chan m ch).flight = [])
    (hfa : (s.chan m ch).fault = none) (hd : (s.chan m ch).done ≠ d.len) : Answers (.abortChannel m ch) s fun t =>
      t.chan m ch = { s.chan m ch with aborting := true, stopAs := some 0x0C, ended := some (0x0C, 0) } ∧ t = { s with movers := t.movers } := by
  let u := (s.setChan m ch (s.chan m ch).aborted).setChan m ch ((s.chan m ch).aborted.endsAs 0x0C)
  have hother : ∀ n, n ≠ ch → ((s.setChan m ch (s.chan m ch).aborted).chan m n).cur = none := fun n hn => by
    rw [setChan_chan_ne s m ch _ hn]
    exact aloneAt_cur s m hal hn
  have hu : u.chan m ch = (s.chan m ch).aborted.endsAs 0x0C := State.setChan_chan_same _ m ch _
  have hstill : u.Still m := fun n => by
    by_cases hn : n = ch
    · rw [hn, hu]
      exact .inr rfl
    · exact .inl ((congrArg Chan.cur (setChan_chan_ne _ m ch _ hn)).trans (hother n hn))
  have hplain : (u.mover m).plain = (s.mover m).plain := (setChan_plain _ m ch _).trans (setChan_plain s m ch _)
  have hwrite : (s.setChan m ch (s.chan m ch).aborted).writeAll m = u :=
    pump_foldl_one 65 (pump_aborted hc he hb hfl hfa hd 64) hother (fun n => pump_idle u m 65 (hstill n)) _
      (mem_inUse (d := d) (by rw [State.setChan_chan_same]; exact hc))
  have hgo : (s.setChan m ch (s.chan m ch).aborted).moverGo m = u.pace m := by
    unfold State.moverGo
    rw [hwrite, if_neg, serve_still _ m _ (pace_still u m hstill), writeAll_still _ m (pace_still u m hstill)]
    rw [show ((s.setChan m ch (s.chan m ch).aborted).mover m).errhalt = (s.mover m).errhalt from
      (congrArg Mover.errhalt (setChan_plain s m ch (s.chan m ch).aborted) :), hh]
    exact Bool.false_ne_true
  have hidle : (u.mover m).paceChan u.aoTick.toNat ((s.chan m ch).aborted.endsAs 0x0C) = (s.chan m ch).aborted.endsAs 0x0C := by
    unfold Mover.paceChan
    rw [show ((s.chan m ch).aborted.endsAs 0x0C).cur = some d from hc]
    dsimp only
    rw [if_neg (by rw [show ((s.chan m ch).aborted.endsAs 0x0C).state = .active from ha]; decide),
      if_neg (by rw [wants_still (.inr rfl)]; simp)]
  refine ⟨u.pace m, ?_, ?_, rfl⟩
  · rw [exec_abort hw hh hs hc he hn, if_neg (by rw [hb]; exact Bool.false_ne_true), if_neg (by rw [hb]; exact Bool.false_ne_true), if_pos ha, hgo]
  · rw [pace_chan, hu, hidle]
    rfl

end abort

/-- The channel that a word of MOV_CHnCFG makes, with EN apart. -/
def Chan.configured (c : Chan) (w : Word64) : Chan :=
  { c with
    prio := BitVec.ofNat 2 (bits w 2 1), maxb := BitVec.ofNat 5 (bits w 8 4), hedge := ⟨bits w 21 16 % 64, Nat.mod_lt _ (by decide)⟩
    sigv := bit w 22, ept := BitVec.ofNat 25 (bits w 56 32) }

theorem withCfg_eq (c : Chan) {w : Word64} (h1 : 1 ≤ bits w 8 4) (h2 : bits w 8 4 ≤ 16) : c.withCfg w = some (c.configured w) := if_pos ⟨h1, h2⟩

section config
variable {s : State} {m : MovId} {ch : ChId}

theorem exec_resume (hw : hwChan m ch = false) (hh : (s.mover m).errhalt = false) (h : (s.chan m ch).state = .stopped ∨ (s.chan m ch).state = .errHalt) :
    exec (.resume m ch) s = .next (s.setChan m ch { s.chan m ch with state := .active }) := by
  show execResume m ch s = _
  unfold execResume
  dsimp only
  rw [hh, hw, if_neg (by simp), if_pos h, if_neg Bool.false_ne_true]

variable (hw : hwChan m ch = false)
include hw

theorem exec_resetChannel (h : (s.chan m ch).state = .idle ∨ (s.chan m ch).state = .stopped ∨ (s.chan m ch).state = .errHalt) :
    exec (.resetChannel m ch) s = .next (s.setChan m ch { s.chan m ch with
      head := 0, kpend := false, state := .idle, orphan := (s.chan m ch).orphan.map fun o => { o with advance := false } }) := by
  show execResetChannel m ch s = _
  unfold execResetChannel
  dsimp only
  rw [hw, if_neg Bool.false_ne_true, if_pos h]

theorem config_base (w : Word64) (hs : (s.chan m ch).state = .disabled) (h1 : bits w 3 0 ≤ 12) (h2 : bits w 37 5 % 2 ^ bits w 3 0 = 0) :
    exec (.movChannelConfigWrite m ch false w) s = .next (s.setChan m ch { s.chan m ch with
      log2 := BitVec.ofNat 4 (bits w 3 0), addr := BitVec.ofNat 33 (bits w 37 5), spc := bit w 40 }) := by
  show execMovChannelConfigWrite m ch false w s = _
  unfold execMovChannelConfigWrite
  dsimp only
  rw [hw, if_neg Bool.false_ne_true, if_pos (by decide), Chan.withBase, if_pos ⟨h1, h2⟩]
  dsimp only
  rw [if_pos hs]

theorem config_enable (w : Word64) (hs : (s.chan m ch).state = .disabled) (h1 : 1 ≤ bits w 8 4) (h2 : bits w 8 4 ≤ 16) :
    Answers (.movChannelConfigWrite m ch true w) s fun t =>
      (t.chan m ch).prio.toNat = bits w 2 1 ∧ (t.chan m ch).maxb.toNat = bits w 8 4 ∧ (t.chan m ch).hedge.val = bits w 21 16 ∧ (t.chan m ch).sigv = bit w 22 ∧
      (t.chan m ch).ept.toNat = bits w 56 32 ∧ (t.chan m ch).state = (if bit w 0 = true then .idle else .disabled) := by
  refine ⟨s.setChan m ch (if bit w 0 then { (s.chan m ch).configured w with state := .idle, head := 0 } else (s.chan m ch).configured w), ?_, ?_⟩
  · show execMovChannelConfigWrite m ch true w s = _
    unfold execMovChannelConfigWrite
    dsimp only
    rw [hw, if_neg Bool.false_ne_true, if_neg (by decide), withCfg_eq _ h1 h2]
    dsimp only
    rw [if_pos hs]
  · beta_reduce
    rw [State.setChan_chan_same]
    have hconf : ((s.chan m ch).configured w).prio.toNat = bits w 2 1 ∧ ((s.chan m ch).configured w).maxb.toNat = bits w 8 4 ∧
        ((s.chan m ch).configured w).hedge.val = bits w 21 16 ∧ ((s.chan m ch).configured w).ept.toNat = bits w 56 32 :=
      ⟨Nat.mod_eq_of_lt (bits_lt w 2 1), Nat.mod_eq_of_lt (bits_lt w 8 4), Nat.mod_eq_of_lt (bits_lt w 21 16), Nat.mod_eq_of_lt (bits_lt w 56 32)⟩
    obtain ⟨hprio, hmaxb, hhedge, hept⟩ := hconf
    split
    · exact ⟨hprio, hmaxb, hhedge, rfl, hept, rfl⟩
    · exact ⟨hprio, hmaxb, hhedge, rfl, hept, hs⟩

theorem config_disable (w : Word64) (hs : (s.chan m ch).state = .idle ∨ (s.chan m ch).state = .stopped) (h0 : bit w 0 = false)
    (h1 : 1 ≤ bits w 8 4) (h2 : bits w 8 4 ≤ 16) :
    exec (.movChannelConfigWrite m ch true w) s = .next (s.setChan m ch { s.chan m ch with state := .disabled }) := by
  show execMovChannelConfigWrite m ch true w s = _
  unfold execMovChannelConfigWrite
  dsimp only
  rw [hw, if_neg Bool.false_ne_true, if_neg (by decide), withCfg_eq _ h1 h2]
  dsimp only
  rw [h0]
  rcases hs with hs | hs <;>
    rw [if_neg (by rw [hs]; decide), if_pos (by rw [hs]; decide)]

end config

end Sys2Proof.Machine
end

section
namespace Sys2Proof.Machine
/-! ### ERR_HALT -/

/-- What an end of an engine's wait leaves alone of movers, memories and error reports. -/
structure State.Aside (s t : State) : Prop where
  movers : t.movers = s.movers
  hbm : t.hbm = s.hbm
  ccm : t.ccm = s.ccm
  errq : t.errq = s.errq

theorem arriveAt_aside (s : State) (e : EngId) (c : CtxId) (a : Arrival) : s.Aside (s.arriveAt e c a) := by
  unfold State.arriveAt
  dsimp only
  split
  · unfold State.endTxn
    dsimp only
    split <;> exact ⟨rfl, rfl, rfl, rfl⟩
  · split
    · exact ⟨rfl, rfl, rfl, rfl⟩
    · unfold State.rouse
      split <;> exact ⟨rfl, rfl, rfl, rfl⟩

/-- A halted channel. -/
structure HaltsAt (s t : State) (m : MovId) (n : ChId) : Prop where
  state : (t.chan m n).state = .errHalt
  cur : (t.chan m n).cur = none
  other : ∀ k, k ≠ n → t.chan m k = s.chan m k
  plain : (t.mover m).plain = (s.mover m).plain
  errq : t.errq = s.errq
  memory : (s.chan m n).cur = none → t.hbm = s.hbm ∧ t.ccm = s.ccm

section halt
variable (s : State) (m : MovId) (n : ChId)

/-- What a halted channel drops (12 R410). -/
def Chan.halted (c : Chan) : Chan := { c.dropFlight with state := .errHalt, aborting := false }

theorem haltChan_eq : s.haltChan m n = State.modChan (match (s.chan m n).cur with
    | some d => s.haltDesc m n d
    | none => s.haltStage m n) m n Chan.halted := rfl

theorem haltsAt_modChan {u : State} (hcur : (u.chan m n).cur = none) (hother : ∀ k, k ≠ n → u.chan m k = s.chan m k)
    (hplain : (u.mover m).plain = (s.mover m).plain) (herrq : u.errq = s.errq)
    (hmem : (s.chan m n).cur = none → u.hbm = s.hbm ∧ u.ccm = s.ccm) : HaltsAt s (u.modChan m n Chan.halted) m n where
  state := by rw [modChan_chan_same]; rfl
  cur := by rw [modChan_chan_same]; exact hcur
  other := fun k hk => (modChan_chan_ne u m n _ hk).trans (hother k hk)
  plain := (setChan_plain u m n _).trans hplain
  errq := herrq
  memory := hmem

theorem haltStage_apart : (∀ k, k ≠ n → (s.haltStage m n).chan m k = s.chan m k) ∧ ((s.haltStage m n).chan m n).cur = (s.chan m n).cur ∧
    ((s.haltStage m n).mover m).plain = (s.mover m).plain ∧ (s.haltStage m n).errq = s.errq ∧ (s.haltStage m n).hbm = s.hbm ∧
    (s.haltStage m n).ccm = s.ccm := by
  unfold State.haltStage
  split
  · next h =>
    dsimp only
    generalize hge : (⟨(8 * m.val + n.val) % 256, Nat.mod_lt _ (by decide)⟩ : EngId) = e
    have hval : e.val = (8 * m.val + n.val) % 256 := (congrArg Fin.val hge).symm
    have hm : stageMover e = m := Fin.ext (by show e.val / 8 = m.val; omega)
    have hn : stageChan e = n := Fin.ext (by show e.val % 8 = n.val; omega)
    split
    · next c _ =>
      have ha := arriveAt_aside (s.unstage e c) e c (.cell (cellErr 0x0C))
      have hmv : (((s.unstage e c).arriveAt e c (.cell (cellErr 0x0C))).mover m) = (s.unstage e c).mover m := by
        unfold State.mover
        rw [ha.movers]
      have hun : s.unstage e c = s.modChan m n fun q => { q with stages := q.stages.filter fun x => x != c } := by
        unfold State.unstage
        rw [hm, hn]
        rfl
      refine ⟨fun k hk => ?_, ?_, ?_, ha.errq.trans (by rw [hun]; rfl), ha.hbm.trans (by rw [hun]; rfl), ha.ccm.trans (by rw [hun]; rfl)⟩
      · rw [chan_congr ha.movers, hun]
        exact modChan_chan_ne s m n _ hk
      · rw [chan_congr ha.movers, hun, modChan_chan_same]
      · rw [hmv, hun]
        exact setChan_plain s m n _
    · exact ⟨fun _ _ => rfl, rfl, rfl, rfl, rfl, rfl⟩
  · exact ⟨fun _ _ => rfl, rfl, rfl, rfl, rfl, rfl⟩

theorem writeStatus_apart (d : Desc) (st : Byte) (nv : BitVec 11) (halt : Bool) :
    ((s.writeStatus m n d st nv halt).chan m n).cur = none ∧ (∀ k, k ≠ n → (s.writeStatus m n d st nv halt).chan m k = s.chan m k) ∧
    ((s.writeStatus m n d st nv halt).mover m).plain = (s.mover m).plain ∧ (s.writeStatus m n d st nv halt).errq = s.errq := by
  have h := writeStatus_statused s m n d st nv halt
  exact ⟨by rw [h.chan]; rfl, h.other, h.plain, by rw [h.rest]⟩

theorem haltDesc_apart (d : Desc) : ((s.haltDesc m n d).chan m n).cur = none ∧ (∀ k, k ≠ n → (s.haltDesc m n d).chan m k = s.chan m k) ∧
    ((s.haltDesc m n d).mover m).plain = (s.mover m).plain ∧ (s.haltDesc m n d).errq = s.errq := by
  unfold State.haltDesc
  dsimp only
  split
  · split <;> exact writeStatus_apart s m n d _ _ _
  · exact writeStatus_apart s m n d _ _ _
  · split
    · exact ⟨by rw [State.setChan_chan_same], fun k hk => setChan_chan_ne s m n _ hk, setChan_plain s m n _, rfl⟩
    · exact writeStatus_apart s m n d _ _ _

theorem haltChan_halts : HaltsAt s (s.haltChan m n) m n := by
  rw [haltChan_eq]
  split
  · next d h =>
    obtain ⟨hc, ho, hp, he⟩ := haltDesc_apart s m n d
    exact haltsAt_modChan s m n hc ho hp he fun h0 => absurd (h.symm.trans h0) (by simp)
  · next h =>
    obtain ⟨ho, hc, hp, he, hh, hcc⟩ := haltStage_apart s m n
    exact haltsAt_modChan s m n (hc.trans h) ho hp he fun _ => ⟨hh, hcc⟩

/-- The status of the descriptor under way at a halt. -/
theorem haltChan_status {d : Desc} (hc : (s.chan m n).cur = some d) (he : (s.chan m n).ended = none) (hn : (s.chan m n).stopAs = none)
    (hb : d.block = false ∨ (s.chan m n).issued = false) :
    ((s.haltChan m n).memBytes (s.chan m n).spc ((s.chan m n).descAt (s.chan m n).head.toNat) 32).map (·.1) =
      statusBytes d 0x0C 0 true (s.chan m n).poison (s.chan m n).done (s.chan m n).diff := by
  have hdesc : s.haltDesc m n d = s.writeStatus m n d 0x0C 0 true := by
    unfold State.haltDesc
    dsimp only
    rw [he, hn]
    refine if_neg ?_
    rcases hb with hb | hb <;> simp [hb]
  have hread := (writeStatus_statused s m n d 0x0C 0 true).read
  rw [statusBytes_length] at hread
  rw [haltChan_eq, hc]
  dsimp only
  rw [hdesc]
  exact (memBytes_congr rfl rfl _ _ 32).trans hread

end halt

section haltAll
variable {m : MovId}

theorem haltAll_keeps (l : List ChId) (s : State) : ((l.foldl (fun t n => t.haltChan m n) s).mover m).plain = (s.mover m).plain ∧
    (l.foldl (fun t n => t.haltChan m n) s).errq = s.errq ∧
    ∀ k, k ∈ l ∨ (s.chan m k).state = .errHalt → ((l.foldl (fun t n => t.haltChan m n) s).chan m k).state = .errHalt := by
  induction l generalizing s with
  | nil => exact ⟨rfl, rfl, fun k h => h.resolve_left (by simp)⟩
  | cons n l ih =>
    have h := haltChan_halts s m n
    obtain ⟨hp, he, hst⟩ := ih (s.haltChan m n)
    refine ⟨hp.trans h.plain, he.trans h.errq, fun k hk => hst k ?_⟩
    by_cases hkn : k = n
    · exact .inr (hkn ▸ h.state)
    · rw [h.other k hkn]
      exact hk.imp_left fun hm => (List.mem_cons.1 hm).resolve_left hkn

/-- Where no channel has a descriptor a halt writes nothing. -/
theorem haltAll_memory (l : List ChId) (s : State) (h : ∀ k, (s.chan m k).cur = none) :
    (l.foldl (fun t n => t.haltChan m n) s).hbm = s.hbm ∧ (l.foldl (fun t n => t.haltChan m n) s).ccm = s.ccm := by
  induction l generalizing s with
  | nil => exact ⟨rfl, rfl⟩
  | cons n l ih =>
    have hh := haltChan_halts s m n
    obtain ⟨hm, hc⟩ := hh.memory (h n)
    obtain ⟨im, ic⟩ := ih (s.haltChan m n) fun k => by
      by_cases hk : k = n
      · exact hk ▸ hh.cur
      · rw [hh.other k hk]
        exact h k
    exact ⟨im.trans hm, ic.trans hc⟩

/-- The only descriptor under way at a halt gets its status. -/
theorem haltAll_status {ch : ChId} {d : Desc} (l : List ChId) (s : State) (hl : ch ∈ l) (hothers : ∀ k, k ≠ ch → (s.chan m k).cur = none)
    (hc : (s.chan m ch).cur = some d) (he : (s.chan m ch).ended = none) (hn : (s.chan m ch).stopAs = none)
    (hb : d.block = false ∨ (s.chan m ch).issued = false) :
    ((l.foldl (fun t n => t.haltChan m n) s).memBytes (s.chan m ch).spc ((s.chan m ch).descAt (s.chan m ch).head.toNat) 32).map (·.1) =
      statusBytes d 0x0C 0 true (s.chan m ch).poison (s.chan m ch).done (s.chan m ch).diff := by
  induction l generalizing s with
  | nil => exact absurd hl (by simp)
  | cons n l ih =>
    have hh := haltChan_halts s m n
    rw [List.foldl_cons]
    by_cases hnc : n = ch
    · subst hnc
      obtain ⟨hm, hcc⟩ := haltAll_memory (m := m) l (s.haltChan m n) fun k => by
        by_cases hk : k = n
        · exact hk ▸ hh.cur
        · rw [hh.other k hk]
          exact hothers k hk
      exact (memBytes_congr hm hcc _ _ 32).trans (haltChan_status s m n hc he hn hb)
    · have hch : (s.haltChan m n).chan m ch = s.chan m ch := hh.other ch fun h => hnc h.symm
      have := ih (s.haltChan m n) (List.mem_of_ne_of_mem (fun h => hnc h.symm) hl) (fun k hk => by
        by_cases hkn : k = n
        · exact hkn ▸ hh.cur
        · rw [hh.other k hkn]
          exact hothers k hk) (by rw [hch]; exact hc) (by rw [hch]; exact he) (by rw [hch]; exact hn) (by rw [hch]; exact hb)
      rw [hch] at this
      exact this

end haltAll

/-- A failed drain write touches the Lehr, its outputs and the error reports. -/
structure State.DrainOnly (s t : State) : Prop where
  movers : t.movers = s.movers
  hbm : t.hbm = s.hbm
  ccm : t.ccm = s.ccm
  errq : s.errq <+: t.errq

theorem drainFailed_only (s : State) (n f p : Nat) : s.DrainOnly (s.drainFailed n f p) := by
  by_cases h : 3 ≤ f
  · unfold State.drainFailed
    dsimp only
    rw [if_pos h]
    exact ⟨rfl, rfl, rfl, List.prefix_append _ _⟩
  · have hi := drainFailed_goesOn s n f p (Nat.lt_of_not_le h)
    exact ⟨by rw [hi.rest], by rw [hi.rest], by rw [hi.rest], by rw [hi.rest]⟩

theorem failDrain_only (s : State) (g : Nat) : s.DrainOnly (s.failDrain g) := by
  have hset : ∀ (l : Lehr) n f p, s.DrainOnly (State.drainFailed { s with lehr := l } n f p) := fun l n f p => by
    obtain ⟨hm, hh, hc, he⟩ := drainFailed_only { s with lehr := l } n f p
    exact ⟨hm, hh, hc, he⟩
  unfold State.failDrain
  dsimp only
  split
  · exact hset _ _ _ _
  · split
    · exact hset _ _ _ _
    · exact ⟨rfl, rfl, rfl, List.prefix_refl _⟩

theorem failDrains_only (l : List Nat) (s : State) : s.DrainOnly (l.foldl State.failDrain s) := by
  induction l generalizing s with
  | nil => exact ⟨rfl, rfl, rfl, List.prefix_refl _⟩
  | cons g l ih =>
    obtain ⟨hm, hh, hc, he⟩ := failDrain_only s g
    obtain ⟨im, ih, ic, ie⟩ := ih (s.failDrain g)
    exact ⟨im.trans hm, ih.trans hh, ic.trans hc, he.trans ie⟩

section errHalt
variable {s : State} {m : MovId} (hh : (s.mover m).errhalt = false) (cause : BitVec 3) (kind : BitVec 2) (n : Option ChId) (addr : Word64)

/-- A mover that a bus error halts. -/
def Mover.halts (v : Mover) (cause : BitVec 3) (kind : BitVec 2) (n : Option ChId) (addr : Word64) : Mover :=
  { v with errhalt := true, evstat := v.evstat ||| 1, errAddr := addr, errCause := cause, errKind := kind, errCh := n }

theorem exec_errHalt_again (hh : (s.mover m).errhalt = true) : exec (.errHalt m cause kind n addr) s = .next s :=
  congrArg Host.Outcome.next (if_pos hh)

include hh

theorem errHalt_answers (ch : ChId) : Answers (.errHalt m cause kind n addr) s fun t => (t.mover m).errhalt = true ∧
      (t.mover m).evstat = (s.mover m).evstat ||| 1 ∧
      (t.mover m).errAddr = addr ∧ (t.mover m).errCause = cause ∧ (t.mover m).errKind = kind ∧ (t.mover m).errCh = n ∧ (∀ k, (t.chan m k).state = .errHalt) ∧
      (∀ d, (s.chan m ch).cur = some d → (s.chan m ch).ended = none → (s.chan m ch).stopAs = none → s.aloneAt m ch →
        d.block = false ∨ (s.chan m ch).issued = false →
        (t.memBytes (s.chan m ch).spc ((s.chan m ch).descAt (s.chan m ch).head.toNat) 32).map (·.1) =
          statusBytes d 0x0C 0 true (s.chan m ch).poison (s.chan m ch).done (s.chan m ch).diff) ∧
      ∃ r l, t.errq = s.errq ++ r :: l ∧ r.cls = 0x0A ∧ r.addr = some addr := by
  let s1 := s.modMover m fun v => v.halts cause kind n addr
  obtain ⟨s2, hs2⟩ : ∃ u, allChans.foldl (fun (t : State) k => t.haltChan m k) s1 = u := ⟨_, rfl⟩
  have hall : ∀ k, k ∈ allChans := List.mem_finRange
  have hgo : exec (.errHalt m cause kind n addr) s = .next ((s2.drainsOf m).foldl State.failDrain (s2.report (moverRecord s1 m))) := by
    rw [← hs2]
    exact congrArg Host.Outcome.next (if_neg (by rw [hh]; exact Bool.false_ne_true))
  obtain ⟨hp2, he2, hst2⟩ := haltAll_keeps (m := m) allChans s1
  rw [hs2] at hp2 he2 hst2
  obtain ⟨hm, hb, hc, heq⟩ := failDrains_only (s2.drainsOf m) (s2.report (moverRecord s1 m))
  have h1 : s1.mover m = (s.mover m).halts cause kind n addr := modMover_mover s m _
  have hch1 : ∀ k, s1.chan m k = s.chan m k := fun k => modMover_chan s m (f := fun v => v.halts cause kind n addr) (fun _ => rfl) k
  have hplain : (((s2.drainsOf m).foldl State.failDrain (s2.report (moverRecord s1 m))).mover m).plain = ((s.mover m).halts cause kind n addr).plain := by
    unfold State.mover
    rw [hm]
    exact hp2.trans (congrArg Mover.plain h1)
  refine ⟨_, hgo, (congrArg Mover.errhalt hplain :), (congrArg Mover.evstat hplain :), (congrArg Mover.errAddr hplain :),
    (congrArg Mover.errCause hplain :), (congrArg Mover.errKind hplain :), (congrArg Mover.errCh hplain :), fun k => ?_, ?_, ?_⟩
  · rw [chan_congr hm]
    exact hst2 k (.inl (hall k))
  · intro d hcur hend hstop hal hblk
    have h := haltAll_status (m := m) (ch := ch) (d := d) allChans s1 (hall ch)
      (fun k hk => by rw [hch1]; exact aloneAt_cur s m hal hk) (by rw [hch1]; exact hcur) (by rw [hch1]; exact hend) (by rw [hch1]; exact hstop)
      (by rw [hch1]; exact hblk)
    rw [hch1, hs2] at h
    exact (memBytes_congr hb hc _ _ 32).trans h
  · obtain ⟨l, hl⟩ := heq
    refine ⟨moverRecord s1 m, l, ?_, rfl, ?_⟩
    · rw [← hl]
      show (s2.errq ++ [moverRecord s1 m]) ++ l = _
      rw [he2, List.append_assoc]
      rfl
    · show some (s1.mover m).errAddr = some addr
      rw [h1]
      rfl

end errHalt

/-! ### HALTCLR and unexpected completions -/

/-- An event posted to a function leaves whether and why its submission reading has stopped. -/
theorem postEvent_stops (s : State) (f g : FnId) (v : Ev) : ((s.postEvent f v).fn g).sqFault = (s.fn g).sqFault ∧
    ((s.postEvent f v).fn g).sqerr = (s.fn g).sqerr := by
  have hset : ∀ (u : State) (q : Fn), q.sqFault = (u.fn f).sqFault → q.sqerr = (u.fn f).sqerr →
      ((u.setFn f q).fn g).sqFault = (u.fn g).sqFault ∧ ((u.setFn f q).fn g).sqerr = (u.fn g).sqerr := fun u q h1 h2 => by
    by_cases hg : g = f
    · subst hg
      rw [State.setFn_fn_same]
      exact ⟨h1, h2⟩
    · rw [State.setFn_fn_ne _ _ _ _ hg]
      exact ⟨rfl, rfl⟩
  unfold State.postEvent State.writeEvent State.sendMsix
  dsimp only
  split
  · exact ⟨rfl, rfl⟩
  · split
    · obtain ⟨h1, h2⟩ := hset (s.emit (.host f (BitVec.ofNat 64 ((s.fn f).eqBase.toNat * 4096 + 32 * (s.fn f).eqTail.toNat))
        (v.bytes (s.fn f).eqPhase) false)) ((s.fn f).wroteEvent s.aoTick) rfl rfl
      rw [if_pos rfl]
      split
      · refine ⟨Eq.trans (hset _ _ ?_ ?_).1 h1, Eq.trans (hset _ _ ?_ ?_).2 h2⟩ <;> rfl
      · exact ⟨h1, h2⟩
    · exact hset s _ rfl rfl

/-- One function of a port whose submission reading a bus error has stopped. -/
def State.sqFaultOf (p : Nat) (t : State) (f : FnId) : State :=
  match (t.fn f).sqFault with
  | some a =>
    if (portOf f).val = p then
      (t.modFn f fun q => { q with sqFault := none, sqerr := true }).postEvent f (sqFaultEvent (t.fn f) a)
    else t
  | none => t

theorem sqFaults_eq (s : State) (p : Nat) : s.sqFaults p = allFns.foldl (State.sqFaultOf p) s := rfl

section sqFaults
variable (p : Nat) (t : State) (f : FnId)

theorem sqFaultOf_same {a : Word64} (hp : (portOf f).val = p) (h : (t.fn f).sqFault = some a) :
    ((t.sqFaultOf p f).fn f).sqFault = none ∧ ((t.sqFaultOf p f).fn f).sqerr = true := by
  unfold State.sqFaultOf
  rw [h]
  dsimp only
  rw [if_pos hp]
  obtain ⟨h1, h2⟩ := postEvent_stops (t.modFn f fun q => { q with sqFault := none, sqerr := true }) f f (sqFaultEvent (t.fn f) a)
  rw [h1, h2, State.modFn, State.setFn_fn_same]
  exact ⟨rfl, rfl⟩

theorem sqFaultOf_ne {g : FnId} (hg : g ≠ f) : ((t.sqFaultOf p f).fn g).sqFault = (t.fn g).sqFault ∧ ((t.sqFaultOf p f).fn g).sqerr = (t.fn g).sqerr := by
  unfold State.sqFaultOf
  split
  · next a _ =>
    split
    · obtain ⟨h1, h2⟩ := postEvent_stops (t.modFn f fun q => { q with sqFault := none, sqerr := true }) f g (sqFaultEvent (t.fn f) a)
      rw [h1, h2, State.modFn, State.setFn_fn_ne _ _ _ _ hg]
      exact ⟨rfl, rfl⟩
    · exact ⟨rfl, rfl⟩
  · exact ⟨rfl, rfl⟩

theorem sqFaultOf_movers : (t.sqFaultOf p f).movers = t.movers := by
  unfold State.sqFaultOf
  split
  · split
    · next a _ _ =>
      obtain ⟨q, o, h⟩ := postEvent_rest (t.modFn f fun q => { q with sqFault := none, sqerr := true }) f (sqFaultEvent (t.fn f) a)
      rw [h]
      rfl
    · rfl
  · rfl

theorem sqFaultOf_idle (h : (t.fn f).sqFault = none) : t.sqFaultOf p f = t := by
  unfold State.sqFaultOf
  rw [h]

end sqFaults

theorem sqFaults_movers (s : State) (p : Nat) : (s.sqFaults p).movers = s.movers :=
  foldl_keeps State.movers (fun u f => sqFaultOf_movers p u f) allFns s

theorem sqFaults_stops (s : State) (p : Nat) (f : FnId) (hp : (portOf f).val = p) {a : Word64} (h : (s.fn f).sqFault = some a) :
    ((s.sqFaults p).fn f).sqFault = none ∧ ((s.sqFaults p).fn f).sqerr = true := by
  have hkeep : ∀ (l : List FnId) (t : State), (t.fn f).sqFault = none → (t.fn f).sqerr = true →
      ((l.foldl (State.sqFaultOf p) t).fn f).sqFault = none ∧ ((l.foldl (State.sqFaultOf p) t).fn f).sqerr = true := fun l => by
    induction l with
    | nil => exact fun t h1 h2 => ⟨h1, h2⟩
    | cons g l ih =>
      intro t h1 h2
      rw [List.foldl_cons]
      by_cases hg : f = g
      · subst hg
        rw [sqFaultOf_idle p t f h1]
        exact ih t h1 h2
      · obtain ⟨k1, k2⟩ := sqFaultOf_ne p t g hg
        exact ih _ (k1.trans h1) (k2.trans h2)
  have hfold : ∀ (l : List FnId) (t : State), f ∈ l → (t.fn f).sqFault = some a →
      ((l.foldl (State.sqFaultOf p) t).fn f).sqFault = none ∧ ((l.foldl (State.sqFaultOf p) t).fn f).sqerr = true := fun l => by
    induction l with
    | nil => exact fun t h => absurd h (by simp)
    | cons g l ih =>
      intro t hm h1
      rw [List.foldl_cons]
      by_cases hg : f = g
      · subst hg
        obtain ⟨k1, k2⟩ := sqFaultOf_same p t f hp h1
        exact hkeep l _ k1 k2
      · exact ih _ (List.mem_of_ne_of_mem hg hm) ((sqFaultOf_ne p t g hg).1.trans h1)
  exact hfold allFns s (List.mem_finRange f) h

/-- A mover whose halt has ended. -/
def Mover.cleared (v : Mover) : Mover := { v with errhalt := false, errAddr := 0, errCause := 0, errKind := 0, errCh := none }

/-- An engine channel of a cluster mover is IDLE again. -/
def State.idleAgain (m : MovId) (t : State) (n : Fin 8) : State := t.modChan m ⟨n.val, by omega⟩ fun c => { c with state := .idle }

/-- The engine channels of a cluster mover are IDLE again (12 R411). -/
theorem idled_chans (m : MovId) (ch : ChId) (l : List (Fin 8)) (s : State) :
    ((l.foldl (State.idleAgain m) s).mover m).plain = (s.mover m).plain ∧
      ((l.foldl (State.idleAgain m) s).chan m ch = { s.chan m ch with state := .idle } ∨
        (l.foldl (State.idleAgain m) s).chan m ch = s.chan m ch ∧ ∀ n ∈ l, n.val ≠ ch.val) ∧
      (8 ≤ ch.val → (l.foldl (State.idleAgain m) s).chan m ch = s.chan m ch) := by
  induction l generalizing s with
  | nil => exact ⟨rfl, .inr ⟨rfl, by simp⟩, fun _ => rfl⟩
  | cons n l ih =>
    obtain ⟨hp, hc, h8⟩ := ih (s.idleAgain m n)
    refine ⟨hp.trans (setChan_plain s m _ _), ?_, fun h => (h8 h).trans (modChan_chan_ne s m _ _ fun e => ?_)⟩
    · by_cases hn : n.val = ch.val
      · have hsame : (s.idleAgain m n).chan m ch = { s.chan m ch with state := .idle } := by
          unfold State.idleAgain
          rw [show (⟨n.val, by omega⟩ : ChId) = ch from Fin.ext hn]
          exact modChan_chan_same s m ch _
        rw [hsame] at hc
        exact .inl (hc.elim id fun h => h.1)
      · rw [show (s.idleAgain m n).chan m ch = s.chan m ch from modChan_chan_ne s m _ _ fun e => hn (congrArg Fin.val e).symm] at hc
        exact hc.imp_right fun ⟨h, hl⟩ => ⟨h, fun k hk => (List.mem_cons.1 hk).elim (fun e => e ▸ hn) (hl k)⟩
    · have := congrArg Fin.val e
      have hlt := n.isLt
      exact absurd this (by show ch.val ≠ n.val; omega)

section haltclr
variable {s : State} {m : MovId} (he : (s.mover m).errhalt = true)

theorem exec_haltclr_draining (hd : (s.mover m).drained = false) : exec (.haltclr m) s = .next s :=
  congrArg Host.Outcome.next (if_neg (by rw [hd, Bool.and_false]; exact Bool.false_ne_true))

include he

theorem haltclr_answers (hd : (s.mover m).drained = true) (ch : ChId) : Answers (.haltclr m) s fun t =>
    (t.mover m).errhalt = false ∧ (t.mover m).errAddr = 0 ∧ (t.mover m).errCh = none ∧
      (m.val < 32 → ch.val < 8 → t.chan m ch = { s.chan m ch with state := .idle }) ∧ (8 ≤ ch.val → t.chan m ch = s.chan m ch) ∧
      ∀ f a, 32 ≤ m.val → m.val < 34 → (portOf f).val = m.val - 32 → (s.fn f).sqFault = some a → (t.fn f).sqFault = none ∧ (t.fn f).sqerr = true := by
  let s1 := s.setMover m (s.mover m).cleared
  have hgo : exec (.haltclr m) s = .next (if m.val < 32 then (List.finRange 8).foldl (State.idleAgain m) s1
      else if m.val < 34 then s1.sqFaults (m.val - 32) else s1) :=
    congrArg Host.Outcome.next (if_pos (by rw [he, hd]; rfl))
  have h1 : s1.mover m = (s.mover m).cleared := State.setMover_mover_same s m _
  have hch : s1.chan m ch = s.chan m ch := by
    unfold State.chan
    rw [h1]
    rfl
  have hplain : ∀ t : State, (t.mover m).plain = (s1.mover m).plain → (t.mover m).errhalt = false ∧ (t.mover m).errAddr = 0 ∧ (t.mover m).errCh = none :=
    fun t ht => by
      have h := ht.trans (congrArg Mover.plain h1)
      exact ⟨(congrArg Mover.errhalt h :), (congrArg Mover.errAddr h :), (congrArg Mover.errCh h :)⟩
  refine ⟨_, hgo, ?_⟩
  beta_reduce
  by_cases h32 : m.val < 32
  · rw [if_pos h32]
    obtain ⟨hp, hc, h8⟩ := idled_chans m ch (List.finRange 8) s1
    obtain ⟨g1, g2, g3⟩ := hplain _ hp
    rw [hch] at hc h8
    exact ⟨g1, g2, g3, fun _ h => hc.resolve_right fun ⟨_, hno⟩ => hno ⟨ch.val, h⟩ (List.mem_finRange _) rfl, h8, fun _ _ h => absurd h32 (by omega)⟩
  · rw [if_neg h32]
    by_cases h34 : m.val < 34
    · rw [if_pos h34]
      have hm := sqFaults_movers s1 (m.val - 32)
      obtain ⟨g1, g2, g3⟩ := hplain (s1.sqFaults (m.val - 32)) (by unfold State.mover; rw [hm])
      exact ⟨g1, g2, g3, fun h => absurd h h32, fun _ => (chan_congr hm m ch).trans hch, fun f a _ _ hp hf => sqFaults_stops s1 _ f hp hf⟩
    · rw [if_neg h34]
      obtain ⟨g1, g2, g3⟩ := hplain s1 rfl
      exact ⟨g1, g2, g3, fun h => absurd h h32, fun _ => hch, fun _ _ _ h => absurd h h34⟩

end haltclr

/-- A mover that has counted an unexpected completion. -/
def Mover.counted (v : Mover) (m : MovId) (tag : BitVec 10) (n : BitVec 13) : Mover :=
  { v with unexp := satInc v.unexp, unexpTag := tag, unexpBytes := if 34 ≤ m.val then 0 else n, evstat := v.evstat ||| 2 }

theorem unexpectedCompletion_answers (s : State) (m : MovId) (tag : BitVec 10) (n : BitVec 13) : Answers (.unexpectedCompletion m tag n) s fun t =>
    (t.mover m).unexp = satInc (s.mover m).unexp ∧ (t.mover m).unexpTag = tag ∧
      (t.mover m).unexpBytes = (if 34 ≤ m.val then 0 else n) ∧ (t.mover m).evstat = (s.mover m).evstat ||| 2 := by
  have h1 : (s.modMover m fun v => v.counted m tag n).mover m = (s.mover m).counted m tag n := modMover_mover s m _
  have hkeep : ∀ t : State, t.movers = (s.modMover m fun v => v.counted m tag n).movers →
      (t.mover m).unexp = satInc (s.mover m).unexp ∧ (t.mover m).unexpTag = tag ∧
      (t.mover m).unexpBytes = (if 34 ≤ m.val then 0 else n) ∧ (t.mover m).evstat = (s.mover m).evstat ||| 2 := fun t ht => by
    have h : t.mover m = (s.mover m).counted m tag n := by
      rw [← h1]
      unfold State.mover
      rw [ht]
    rw [h]
    exact ⟨rfl, rfl, rfl, rfl⟩
  by_cases h : 32 ≤ m.val ∧ m.val < 34
  · exact ⟨_, congrArg Host.Outcome.next (dif_pos h), hkeep _ rfl⟩
  · exact ⟨_, congrArg Host.Outcome.next (dif_neg h), hkeep _ rfl⟩

/-- Settles O40: a kick with at most one descriptor, an abort, resumption and reset of a channel, its configuration, and the mover's halt, whose
channels halt one by one. -/
theorem channelCommandsChangeItsState : Obligations.ChannelCommandsChangeItsState := by
  unfold Obligations.ChannelCommandsChangeItsState
  intro s m ch
  refine ⟨fun hw => ⟨fun c' hk => ⟨kick_answers hw hk, fun i d hi hfree ho => ?_⟩, fun hh => ⟨abort_idle hw hh, fun d hs hc he hn => ?_, exec_resume hw hh⟩,
    exec_resetChannel hw, config_base hw, config_enable hw, config_disable hw⟩, fun cause kind n addr =>
      ⟨exec_errHalt_again cause kind n addr, fun hh => errHalt_answers hh cause kind n addr ch⟩,
    fun _ => exec_haltclr_draining, fun he hd => haltclr_answers he hd ch, unexpectedCompletion_answers s m⟩
  · have hp : FreePlace s m ch i := ⟨hi, hfree, ho⟩
    exact ⟨kick_unsignalled hw hk hp, fun h8 hv hlt => ⟨kick_signalled hw hk hp h8 hv hlt, kick_full hw hk hp h8 hv hlt⟩⟩
  · exact ⟨abort_issued hw hh hs hc he hn, abort_ends hw hh hs hc he hn, fun hb ha hal hfl hfa hd => abort_active hw hh hs hc he hn hb ha hal hfl hfa hd⟩

end Sys2Proof.Machine
end

section
/-! O49: the patrol scrub, retired frames, failed HBM channels and the error collector (16 R514, R518 to R520, R523, R524, R526). -/

namespace Sys2Proof.Machine

/-! ### The scrub (16 R514, R518) -/

section scrub
variable (s : State) (st : StopId) (g : Nat) (own : HedgeId)

/-- What the scrub reads when storage holds nothing and it finds `x`. -/
def State.found (x : Fin 3) : State := State.meetGranule { s with hbmLatent := tset Latent.none s.hbmLatent g (Latent.none.worse x) } g

variable {s st g}

theorem exec_scrub_away (h : stopOf (chanOf (g / 128)) ≠ st ∨ hbmBytes ≤ 32 * g ∨ bit s.chanFailed (chanOf (g / 128)).val = true) (x : Fin 3) :
    exec (.patrolScrub st g x own) s = .next s := congrArg Host.Outcome.next (if_pos h)

theorem found_none : s.found g 0 = { s with hbmLatent := tset Latent.none s.hbmLatent g .none } := by
  unfold State.found State.meetGranule
  dsimp only
  rw [tget_tset_same]
  rfl

theorem modMemcnt_same (u : State) (st : StopId) (f : MemCnt → MemCnt) : (u.modMemcnt st f).memcnt st = f (u.memcnt st) := tget_tset_same _ _ _ _

/-- A granule that is poisoned now: its stop's count, and one record. -/
theorem poisonGranule_counts (u : State) (hu : stopOf (chanOf (g / 128)) = st) :
    (u.poisonGranule g).memcnt st = { u.memcnt st with ue := satInc (u.memcnt st).ue } ∧ tget false (u.poisonGranule g).poison g = true ∧
      (u.poisonGranule g).hbm = u.hbm ∧ ∃ r, (u.poisonGranule g).errq = u.errq ++ [r] ∧ r.cls = 0x06 ∧ r.sev = 1 := by
  unfold State.poisonGranule
  dsimp only
  rw [hu]
  split
  · exact ⟨tget_tset_same _ _ _ _, tget_tset_same false u.poison g true, rfl, _, rfl, rfl, rfl⟩
  · next h va _ =>
    generalize hw : State.report _ (hbmRecord u g (some h) (u.holdersOver h va).head?) = w
    have hmem : w.memcnt st = { u.memcnt st with ue := satInc (u.memcnt st).ue } := by
      rw [← hw]
      exact tget_tset_same _ _ _ _
    have hpo : tget false w.poison g = true := by
      rw [← hw]
      exact tget_tset_same false u.poison g true
    have hhbm : w.hbm = u.hbm := by rw [← hw]; rfl
    have herr : w.errq = u.errq ++ [hbmRecord u g (some h) (u.holdersOver h va).head?] := by rw [← hw]; rfl
    obtain ⟨q, o, hq⟩ := hedgeEvent_rest { w with mediaMarks := w.mediaMarks ++ (u.holdersOver h va).map fun n => (st, n) } h
      (mediaEvent u.lehr.drawn va 1 1)
    rw [hq]
    exact ⟨hmem, hpo, hhbm, _, herr, rfl, rfl⟩

variable (hst : stopOf (chanOf (g / 128)) = st) (hin : 32 * g < hbmBytes) (hok : bit s.chanFailed (chanOf (g / 128)).val = false)
  (hp : tget false s.poison g = false) (hl : tget Latent.none s.hbmLatent g = .none)
include hst hin hok hp hl

theorem exec_scrub (x : Fin 3) (hloss : Latent.none.worse x = .uncorrectable → fixedEnd ≤ 32 * g) : exec (.patrolScrub st g x own) s = .next
    (if g = lastGranule st then (s.found g x).modMemcnt st fun c => { c with scrub := c.scrub + 1 } else s.found g x) := by
  show execPatrolScrub st g x own s = _
  unfold execPatrolScrub
  dsimp only
  rw [if_neg (by simp [hst, hok, Nat.not_le.2 hin]), hl, hp, if_neg Bool.false_ne_true]
  have hcome : (if Latent.none.worse x = .uncorrectable then (s.found g x).fixedLoss g own else s.found g x) = s.found g x := by
    split
    · next hx => exact if_pos (hloss hx)
    · rfl
  exact congrArg (fun v => Host.Outcome.next (if g = lastGranule st then State.modMemcnt v st fun c => { c with scrub := c.scrub + 1 } else v)) hcome

theorem scrub_clean (hn : g ≠ lastGranule st) : Answers (.patrolScrub st g 0 own) s fun t =>
    t.memcnt st = s.memcnt st ∧ t.poison = s.poison ∧ t.hbm = s.hbm ∧ t.errq = s.errq := by
  refine ⟨_, (exec_scrub own hst hin hok hp hl 0 fun h => absurd h (by decide)).trans (congrArg Host.Outcome.next ((if_neg hn).trans found_none)), ?_⟩
  exact ⟨rfl, rfl, rfl, rfl⟩

theorem scrub_pass (hn : g = lastGranule st) : Answers (.patrolScrub st g 0 own) s fun t =>
    t.memcnt st = { s.memcnt st with scrub := (s.memcnt st).scrub + 1 } := by
  refine ⟨_, (exec_scrub own hst hin hok hp hl 0 fun h => absurd h (by decide)).trans (congrArg Host.Outcome.next ((if_pos hn).trans
    (congrArg (fun v : State => v.modMemcnt st fun c => { c with scrub := c.scrub + 1 }) found_none))), ?_⟩
  exact modMemcnt_same _ st _

theorem scrub_corrects (hn : g ≠ lastGranule st) : Answers (.patrolScrub st g 1 own) s fun t =>
    t.memcnt st = { s.memcnt st with ce := satInc (s.memcnt st).ce } ∧
    tget [] t.frameErr (g / 128) = tally s.aoTick.toNat day (tget [] s.frameErr (g / 128)) ∧ t.poison = s.poison ∧ t.hbm = s.hbm ∧
    ∃ r, t.errq = s.errq ++ [r] ∧ r.cls = 0x06 ∧ r.sev = 0 := by
  refine ⟨_, (exec_scrub own hst hin hok hp hl 1 fun h => absurd h (by decide)).trans (congrArg Host.Outcome.next (if_neg hn)), ?_⟩
  unfold State.found State.meetGranule
  dsimp only
  rw [tget_tset_same]
  dsimp only [Latent.worse]
  rw [if_neg (by decide), if_pos (.inr rfl), hst]
  exact ⟨tget_tset_same _ _ _ _, tget_tset_same _ _ _ _, rfl, rfl, _, rfl, rfl, rfl⟩

theorem scrub_poisons (hn : g ≠ lastGranule st) (hf : fixedEnd ≤ 32 * g) : Answers (.patrolScrub st g 2 own) s fun t =>
    t.memcnt st = { s.memcnt st with ue := satInc (s.memcnt st).ue } ∧
    tget false t.poison g = true ∧ t.hbm = s.hbm ∧ ∃ r, t.errq = s.errq ++ [r] ∧ r.cls = 0x06 ∧ r.sev = 1 := by
  refine ⟨_, (exec_scrub own hst hin hok hp hl 2 fun _ => hf).trans (congrArg Host.Outcome.next (if_neg hn)), ?_⟩
  unfold State.found State.meetGranule
  dsimp only
  rw [tget_tset_same]
  dsimp only [Latent.worse]
  rw [if_pos (.inr rfl)]
  exact poisonGranule_counts { s with hbmLatent := tset Latent.none s.hbmLatent g .uncorrectable } hst

end scrub

/-! ### Retired frames (16 R520) -/

/-- An invalidation by firmware: the entries go everywhere, and of the state only registers, engines and clusters change. -/
theorem fwInvalidate_removes (s : State) (op : BitVec 3) (h : HedgeId) (page : Nat) (f : TlbEntry → Bool) :
    ∃ r en cl, s.fwInvalidate op h page f = { s with regs := r, engines := en, clus := cl } ∧
      (∀ e, ((s.fwInvalidate op h page f).eng e).dtlb = tlbDrop (s.eng e).dtlb f) ∧
      ∀ k, ((s.fwInvalidate op h page f).clu k).l2 = tlbDrop (s.clu k).l2 f := by
  have hone : ∀ i : Nat, i < 32 → bit (BitVec.allOnes 32) i = true := by decide
  obtain ⟨en, cl, hdrop, hcl, hen⟩ := dropTlb_drops { s with regs := { s.regs with
    tlbOp := op, tlbHedge := if op = 3 then s.regs.tlbHedge else h, tlbPage := BitVec.ofNat 36 page, clmask := BitVec.allOnes 32, tlbBusy := false } }
    (BitVec.allOnes 32) f
  unfold State.fwInvalidate
  dsimp only
  rw [hdrop]
  generalize hu : ({ s with
    regs := { s.regs with
      tlbOp := op, tlbHedge := if op = 3 then s.regs.tlbHedge else h, tlbPage := BitVec.ofNat 36 page, clmask := BitVec.allOnes 32, tlbBusy := false }
    engines := en, clus := cl } : State) = u
  obtain ⟨q, hq⟩ := wakeForInv_rest u (BitVec.allOnes 32)
  refine ⟨_, en, q, by rw [hq, ← hu], fun e => ?_, fun k => ?_⟩
  · rw [hq, ← hu]
    refine (congrArg Engine.dtlb ((hen e).trans (if_pos (hone _ ?_)))).trans rfl
    have := e.isLt
    omega
  · rw [wakeForInv_clu, if_pos (hone _ k.isLt), wakeForInv_keeps, ← hu]
    exact (congrArg Clu.l2 ((hcl k).trans (if_pos (hone _ k.isLt)))).trans rfl

theorem tlbFind_dropped (t : Tab TlbEntry) (h : HedgeId) (va : Nat) : tlbFind (tlbDrop t (tlbOfPage h va)) h va = none := by
  unfold tlbFind
  rw [List.find?_eq_none.2 fun kv hkv => ?_]
  · rfl
  · obtain ⟨-, hf⟩ := List.mem_filter.1 hkv
    unfold tlbOfPage at hf
    simpa using hf

/-- Changes of HBM, of TLBs with their registers, and of what stands where: nothing else, and no frame comes back. -/
def State.Moved (s t : State) : Prop :=
  t = { s with
    hbm := t.hbm, poison := t.poison, hbmLatent := t.hbmLatent, regs := t.regs, engines := t.engines, clus := t.clus, alloc := t.alloc
    tables := t.tables, durable := t.durable, fns := t.fns, out := t.out }

namespace State.Moved

variable {s t u : State}

theorem refl (s : State) : s.Moved s := rfl

theorem trans (h : s.Moved t) (k : t.Moved u) : s.Moved u := by
  unfold State.Moved at *
  rw [k, h]

theorem foldl {α : Type} {f : State → α → State} (hf : ∀ u a, State.Moved u (f u a)) (l : List α) (s : State) : s.Moved (l.foldl f s) := by
  induction l generalizing s with
  | nil => exact refl s
  | cons a l ih => exact (hf s a).trans (ih _)

theorem of_hbmOnly (h : s.HbmOnly t) : s.Moved t := by
  rw [State.HbmOnly] at h
  rw [h]
  rfl

theorem errq (h : s.Moved t) : t.errq = s.errq := by rw [h]
theorem rates (h : s.Moved t) : t.rates = s.rates := by rw [h]
theorem chanFailed (h : s.Moved t) : t.chanFailed = s.chanFailed := by rw [h]
theorem slot (h : s.Moved t) (n : SlotId) : t.slot n = s.slot n := by rw [h]; rfl
theorem retired (h : s.Moved t) : t.retired = s.retired := by rw [h]

end State.Moved

theorem fwInvalidate_moved (s : State) (op : BitVec 3) (h : HedgeId) (page : Nat) (f : TlbEntry → Bool) : s.Moved (s.fwInvalidate op h page f) := by
  obtain ⟨r, en, cl, hq, -, -⟩ := fwInvalidate_removes s op h page f
  rw [hq]
  rfl

theorem setFrames_moved (s : State) (frame n fe : Nat) : s.Moved (s.setFrames frame n fe) :=
  State.Moved.foldl (fun u _ => .of_hbmOnly (hbmWrite_hbmOnly u _ _ _)) _ s

theorem rekey_moved (s : State) (frame n fe : Nat) : s.Moved (s.rekey frame n fe) :=
  (setFrames_moved s frame n fe).trans (fwInvalidate_moved _ _ _ _ _)

/-- Freed frames: the frame table in HBM, and what is allocated. -/
theorem freeFrames_only (s : State) (f n : Nat) : ∃ h p l a, s.freeFrames f n = { s with hbm := h, poison := p, hbmLatent := l, alloc := a } := by
  have h := hbmOnly_foldl (f := fun (t : State) i => t.hbmPut (t.ftAddr (f + i)) 2 ((t.frameEntry (f + i)).toNat &&& 0xBFFF))
    (fun u _ => hbmWrite_hbmOnly u _ _ _) (List.range n) s
  unfold State.freeFrames
  dsimp only
  rw [State.HbmOnly] at h
  rw [h]
  exact ⟨_, _, _, _, rfl⟩

theorem freeFrames_moved (s : State) (f n : Nat) : s.Moved (s.freeFrames f n) := by
  obtain ⟨h, p, l, a, hq⟩ := freeFrames_only s f n
  rw [hq]
  rfl

theorem hbmMove_moved (s : State) (a b n : Nat) : s.Moved (s.hbmMove a b n) := rfl

section move
variable (s : State) (h : HedgeId) (base at_ level : Nat) (p : Pte) (dest : Nat)

/-- The state in which a moving page's translations go: its bytes and its leaf stand at the new place. -/
def State.replaced : State :=
  ((s.hbmMove (p.frame * 4096) (dest * 4096) (2 ^ levelBits level)).rekey dest (levelFrames level) (s.frameEntry p.frame).toNat).hbmPut at_ 8
    (mkResident (bits p 3 1) (bit p 4) (bit p 5) (bit p 9) dest).toNat

theorem replaced_moved : s.Moved (s.replaced at_ level p dest) :=
  ((hbmMove_moved s _ _ _).trans (rekey_moved _ _ _ _)).trans (.of_hbmOnly (hbmWrite_hbmOnly _ _ _ _))

theorem movePage_eq : s.movePage h base at_ level p dest =
    let v := ((s.replaced at_ level p dest).invPage h base).freeFrames p.frame (levelFrames level)
    { v with alloc := tset none v.alloc dest (some (h, base, levelBits level)) } := rfl

theorem movePage_moved : s.Moved (s.movePage h base at_ level p dest) := by
  have hv := ((replaced_moved s at_ level p dest).trans (fwInvalidate_moved _ 1 h (base / 4096) (tlbOfPage h base))).trans
    (freeFrames_moved _ p.frame (levelFrames level))
  rw [movePage_eq]
  exact hv.trans rfl

theorem movePage_drops : tget none (s.movePage h base at_ level p dest).alloc dest = some (h, base, levelBits level) ∧
    (∀ e, tlbFind ((s.movePage h base at_ level p dest).eng e).dtlb h base = none) ∧
    ∀ k, tlbFind ((s.movePage h base at_ level p dest).clu k).l2 h base = none := by
  rw [movePage_eq]
  generalize s.replaced at_ level p dest = u
  obtain ⟨r, en, cl, -, hen, hcl⟩ := fwInvalidate_removes u 1 h (base / 4096) (tlbOfPage h base)
  unfold State.invPage
  generalize u.fwInvalidate 1 h (base / 4096) (tlbOfPage h base) = w at hen hcl ⊢
  obtain ⟨hb, po, la, al, hq⟩ := freeFrames_only w p.frame (levelFrames level)
  rw [hq]
  refine ⟨tget_tset_same none al dest (some (h, base, levelBits level)), fun e => ?_, fun k => ?_⟩
  · show tlbFind (w.eng e).dtlb h base = none
    rw [hen]
    exact tlbFind_dropped _ _ _
  · show tlbFind (w.clu k).l2 h base = none
    rw [hcl]
    exact tlbFind_dropped _ _ _

end move

section retire
variable {s : State} {fr : Nat}

theorem exec_retire_sound (h : s.failing fr = false) : exec (.frameRetire fr) s = .next s :=
  congrArg Host.Outcome.next (if_pos (by simp [h]))

/-- The state in which a failing frame is out of use. -/
def State.retire (s : State) (fr : Nat) : State := { s with retired := tset false s.retired fr true }

variable (h1 : fixedEnd / 4096 ≤ fr) (h2 : fr < hbmFrames) (h3 : tget false s.retired fr = false) (h4 : s.failing fr = true)
include h1 h2 h3 h4

theorem retire_guard : ¬ (fr < fixedEnd / 4096 ∨ hbmFrames ≤ fr ∨ tget false s.retired fr = true ∨ (!s.failing fr) = true) := by
  simp [Nat.not_lt.2 h1, Nat.not_le.2 h2, h3, h4]

theorem exec_retire_empty (h : s.residentAt fr = none) : exec (.frameRetire fr) s = .next (s.retire fr) := by
  show execFrameRetire fr s = _
  unfold execFrameRetire
  rw [if_neg (retire_guard h1 h2 h3 h4)]
  dsimp only
  rw [h]
  rfl

theorem exec_retire {h : HedgeId} {base at_ : Nat} {p : Pte} {level : Nat} (hr : s.residentAt fr = some (h, base, at_, p, level)) :
    exec (.frameRetire fr) s = .next (match (s.retire fr).findFrames (levelFrames level) with
      | none => s
      | some fresh => (s.retire fr).movePage h base at_ level p fresh) := by
  show execFrameRetire fr s = _
  unfold execFrameRetire
  rw [if_neg (retire_guard h1 h2 h3 h4)]
  dsimp only
  rw [hr]
  rfl

theorem exec_retire_full {h : HedgeId} {base at_ : Nat} {p : Pte} {level : Nat} (hr : s.residentAt fr = some (h, base, at_, p, level))
    (hn : (s.retire fr).findFrames (levelFrames level) = none) : exec (.frameRetire fr) s = .next s := by
  rw [exec_retire h1 h2 h3 h4 hr, hn]

theorem retire_moves {h : HedgeId} {base at_ : Nat} {p : Pte} {level dest : Nat} (hr : s.residentAt fr = some (h, base, at_, p, level))
    (hd : (s.retire fr).findFrames (levelFrames level) = some dest) : Answers (.frameRetire fr) s fun t => tget false t.retired fr = true ∧
      tget none t.alloc dest = some (h, base, levelBits level) ∧ (∀ e, tlbFind (t.eng e).dtlb h base = none) ∧ ∀ k, tlbFind (t.clu k).l2 h base = none := by
  refine ⟨(s.retire fr).movePage h base at_ level p dest, by rw [exec_retire h1 h2 h3 h4 hr, hd], ?_, movePage_drops _ h base at_ level p dest⟩
  rw [(movePage_moved (s.retire fr) h base at_ level p dest).retired]
  exact tget_tset_same false s.retired fr true

end retire

/-! ### Failed channels (16 R526) -/

/-- The context holds the slot. -/
def Ctx.holds (c : Ctx) (n : SlotId) : Prop := c.state ≠ .free ∧ c.slot = n

/-- A change elsewhere: slot `n` stays, no further context holds it, and what the failure of a channel records stays. -/
structure Elsewhere (n : SlotId) (s t : State) : Prop where
  slot : t.slot n = s.slot n
  held : ∀ e c, ((t.eng e).ctx c).holds n → ((s.eng e).ctx c).holds n
  errq : t.errq = s.errq
  rates : t.rates = s.rates
  chanFailed : t.chanFailed = s.chanFailed

section elsewhere
variable {n : SlotId} {s t u : State}

theorem Elsewhere.refl (n : SlotId) (s : State) : Elsewhere n s s := ⟨rfl, fun _ _ h => h, rfl, rfl, rfl⟩

theorem Elsewhere.trans (h : Elsewhere n s t) (k : Elsewhere n t u) : Elsewhere n s u :=
  ⟨k.slot.trans h.slot, fun e c hc => h.held e c (k.held e c hc), k.errq.trans h.errq, k.rates.trans h.rates, k.chanFailed.trans h.chanFailed⟩

theorem holder_none_iff : s.holder n = none ↔ ¬ ((s.slot n).state ≠ .idle ∧ (s.slot n).state ≠ .admitted ∧ (s.slot n).state ≠ .parked ∧
    ((s.eng (s.slot n).eng).ctx (s.slot n).ctx).holds n) := by
  unfold State.holder Ctx.holds
  dsimp only
  split
  · next h => simp only [reduceCtorEq, false_iff, not_not]; exact h
  · next h => simp only [true_iff]; exact h

theorem Elsewhere.holder (h : Elsewhere n s t) (hn : s.holder n = none) : t.holder n = none := by
  rw [holder_none_iff] at hn ⊢
  rw [h.slot]
  exact fun ⟨h1, h2, h3, h4⟩ => hn ⟨h1, h2, h3, h.held _ _ h4⟩

/-- An engine none of whose contexts comes to hold a slot. -/
def Engine.NoMore (n : SlotId) (a b : Engine) : Prop := ∀ c, (b.ctx c).holds n → (a.ctx c).holds n

theorem Elsewhere.setEng (e : EngId) {g : Engine} (h : (s.eng e).NoMore n g) : Elsewhere n s (s.setEng e g) where
  slot := rfl
  held i c hc := by
    by_cases hi : i = e
    · subst hi
      rw [State.setEng_eng_same] at hc
      exact h c hc
    · rw [State.setEng_eng_ne s e _ i hi] at hc
      exact hc
  errq := rfl
  rates := rfl
  chanFailed := rfl

theorem setCtx_noMore (g : Engine) (c : CtxId) {x : Ctx} (h : x.holds n → (g.ctx c).holds n) : g.NoMore n (g.setCtx c x) := fun i hi => by
  by_cases hc : i = c
  · subst hc
    rw [Engine.setCtx_ctx_same] at hi
    exact h hi
  · rw [Engine.setCtx_ctx_ne _ _ _ _ hc] at hi
    exact hi

theorem freeUnit_noMore (g : Engine) (c : CtxId) (u : IterUnit) : g.NoMore n (g.freeUnit c u) := by
  unfold Engine.freeUnit
  split
  · split
    · next m hm =>
      intro i hi
      have hset : ∀ k, ((g.setUnit u (some m)).ctx k) = g.ctx k := fun k => Engine.setUnit_ctx ..
      by_cases hc : i = m
      · subst hc
        rw [Engine.setCtx_ctx_same] at hi
        refine ⟨fun hfree => ?_, hi.2⟩
        have := List.find?_some hm
        simp [hfree] at this
      · rw [Engine.setCtx_ctx_ne _ _ _ _ hc, hset] at hi
        exact hi
    · exact fun i hi => by rwa [Engine.setUnit_ctx] at hi
  · exact fun _ h => h

theorem Engine.NoMore.trans {a b c : Engine} (h : a.NoMore n b) (k : b.NoMore n c) : a.NoMore n c := fun i hi => h i (k i hi)

theorem freeUnits_noMore (g : Engine) (c : CtxId) : g.NoMore n (g.freeUnits c) :=
  ((freeUnit_noMore g c _).trans (freeUnit_noMore _ c _)).trans (freeUnit_noMore _ c _)

theorem endTxn_elsewhere (s : State) {m : SlotId} (st : Byte) (hm : n ≠ m) : Elsewhere n s (s.endTxn m st 0) where
  slot := endTxn_slot_ne s st 0 hm
  held e c h := by rwa [endTxn_eng] at h
  errq := by unfold State.endTxn; dsimp only; split <;> rfl
  rates := by unfold State.endTxn; dsimp only; split <;> rfl
  chanFailed := by unfold State.endTxn; dsimp only; split <;> rfl

theorem freeCtx_elsewhere (s : State) (e : EngId) (c : CtxId) : Elsewhere n s (s.freeCtx e c) := by
  have hset : Elsewhere n s (s.setEng e (((s.eng e).setCtx c { ((s.eng e).ctx c).freed with heldOn := none }).freeUnits c)) :=
    .setEng e ((setCtx_noMore _ c fun h => absurd rfl h.1).trans (freeUnits_noMore _ c))
  exact ⟨hset.slot, hset.held, rfl, rfl, rfl⟩

theorem modCtx_elsewhere (s : State) (e : EngId) (c : CtxId) {f : Ctx → Ctx} (h : ∀ x : Ctx, (f x).holds n → x.holds n) : Elsewhere n s (s.modCtx e c f) :=
  .setEng e (setCtx_noMore _ c (h _))

/-- A context of another transaction that stops. -/
theorem stopCtx_elsewhere (s : State) (e : EngId) (c : CtxId) (st : Byte) (hm : n ≠ ((s.eng e).ctx c).slot) : Elsewhere n s (s.stopCtx e c st) := by
  have hquar : Elsewhere n s ((s.endTxn ((s.eng e).ctx c).slot st 0).modCtx e c fun x => { x with ending := true }) :=
    (endTxn_elsewhere s st hm).trans (modCtx_elsewhere _ e c fun _ h => h)
  have hfree : Elsewhere n s ((s.freeCtx e c).endTxn ((s.eng e).ctx c).slot st 0) :=
    (freeCtx_elsewhere s e c).trans (endTxn_elsewhere _ st hm)
  unfold State.stopCtx
  dsimp only
  split
  · next w _ =>
    split
    · exact hquar
    · split
      · have hctx : (s.eng e).NoMore n ((s.eng e).setCtx c
            { (s.eng e).ctx c with ending := true, state := .wait, left := 0, wait := some w, savedWait := none }) :=
          setCtx_noMore _ c fun h => absurd h.2.symm hm
        have hset := Elsewhere.setEng (s := s) e (hctx.trans (freeUnits_noMore _ c))
        refine hset.trans ⟨State.setSlot_slot_ne _ _ _ _ hm, fun _ _ h => h, rfl, rfl, rfl⟩
      · exact hfree
  · split
    · exact hquar
    · split
      · exact (modCtx_elsewhere s e c (f := fun x => { x with ending := true, wait := none, savedWait := none }) fun _ h => h).trans
          (endTxn_elsewhere _ st hm)
      · exact hfree

theorem mediaEnd_elsewhere (s : State) {m : SlotId} (hm : n ≠ m) : Elsewhere n s (s.mediaEnd m) := by
  unfold State.mediaEnd
  split
  · next e c h => exact stopCtx_elsewhere s e c 0x04 (by rw [holder_slot h]; exact hm)
  · exact endTxn_elsewhere s 0x04 hm

end elsewhere

/-- A slot has ended with MEDIA. -/
def Slot.lost (sl : Slot) : Prop := sl.state = .ending ∧ sl.status = 0x04

section lost
variable {n : SlotId} {s : State}

theorem endTxn_lost (m : SlotId) (st : Byte) (h : (s.slot n).lost) : ((s.endTxn m st 0).slot n).lost := by
  by_cases hm : n = m
  · subst hm
    have hno : (s.slot n).endable = false := by
      unfold Slot.endable
      rw [h.1]
    unfold State.endTxn
    dsimp only
    rw [hno, if_neg Bool.false_ne_true]
    exact h
  · rw [endTxn_slot_ne s st 0 hm]
    exact h

theorem stopCtx_lost (e : EngId) (c : CtxId) (st : Byte) (h : (s.slot n).lost) : ((s.stopCtx e c st).slot n).lost := by
  have hdoom : ∀ (u : State) (m : SlotId), (u.slot n).lost → ((u.modSlot m fun sl => sl.doomed st).slot n).lost := fun u m hu => by
    by_cases hm : n = m
    · subst hm
      rw [State.modSlot, State.setSlot_slot_same]
      exact hu
    · rw [State.modSlot, State.setSlot_slot_ne _ _ _ _ hm]
      exact hu
  unfold State.stopCtx
  dsimp only
  split
  · split
    · exact endTxn_lost _ st h
    · split
      · exact hdoom _ _ h
      · exact endTxn_lost (s := s.freeCtx e c) _ st h
  · split
    · exact endTxn_lost _ st h
    · split
      · exact endTxn_lost (s := s.modCtx e c fun x => { x with ending := true, wait := none, savedWait := none }) _ st h
      · exact endTxn_lost (s := s.freeCtx e c) _ st h

theorem mediaEnd_lost (m : SlotId) (h : (s.slot n).lost) : ((s.mediaEnd m).slot n).lost := by
  unfold State.mediaEnd
  split
  · exact stopCtx_lost _ _ _ h
  · exact endTxn_lost m _ h

theorem imageLoss_lost (m : SlotId) (h : (s.slot n).lost) : ((s.imageLoss m).slot n).lost := by
  unfold State.imageLoss
  split
  · exact mediaEnd_lost m h
  · exact h

theorem foldl_lost {α : Type} {f : State → α → State} (hf : ∀ u a, (u.slot n).lost → ((f u a).slot n).lost) (l : List α) (s : State)
    (h : (s.slot n).lost) : ((l.foldl f s).slot n).lost := by
  induction l generalizing s with
  | nil => exact h
  | cons a l ih => exact ih _ (hf s a h)

/-- The transaction of a slot that no context holds ends with MEDIA. -/
theorem mediaEnds_lost (l : List SlotId) (hl : n ∈ l) (s : State) (he : (s.slot n).endable = true) (hh : s.holder n = none)
    (hw : (s.slot n).wound = false) (hf : (s.slot n).fate = none) : ((l.foldl State.mediaEnd s).slot n).lost := by
  induction l generalizing s with
  | nil => exact absurd hl (by simp)
  | cons m l ih =>
    rw [List.foldl_cons]
    by_cases hm : n = m
    · subst hm
      refine foldl_lost (fun u a h => mediaEnd_lost a h) l _ ?_
      unfold State.mediaEnd
      rw [hh]
      dsimp only
      rw [endTxn_slot s he]
      exact ⟨Slot.ended_state hw, Slot.fateOf_of_fate hw (.inl hf)⟩
    · have h := mediaEnd_elsewhere s hm
      exact ih (List.mem_of_ne_of_mem hm hl) (s.mediaEnd m) (by rw [h.slot]; exact he) (h.holder hh) (by rw [h.slot]; exact hw) (by rw [h.slot]; exact hf)

end lost

/-- What the failure of a channel has recorded stays. -/
structure SameFailure (s t : State) : Prop where
  errq : t.errq = s.errq
  rates : t.rates = s.rates
  chanFailed : t.chanFailed = s.chanFailed

theorem SameFailure.trans {s t u : State} (h : SameFailure s t) (k : SameFailure t u) : SameFailure s u :=
  ⟨k.errq.trans h.errq, k.rates.trans h.rates, k.chanFailed.trans h.chanFailed⟩

theorem SameFailure.foldl {α : Type} {f : State → α → State} (hf : ∀ u a, SameFailure u (f u a)) (l : List α) (s : State) : SameFailure s (l.foldl f s) := by
  induction l generalizing s with
  | nil => exact ⟨rfl, rfl, rfl⟩
  | cons a l ih => exact (hf s a).trans (ih _)

theorem endTxn_sameFailure (s : State) (m : SlotId) (st : Byte) : SameFailure s (s.endTxn m st 0) := by
  unfold State.endTxn
  dsimp only
  split <;> exact ⟨rfl, rfl, rfl⟩

theorem stopCtx_sameFailure (s : State) (e : EngId) (c : CtxId) (st : Byte) : SameFailure s (s.stopCtx e c st) := by
  have hend : ∀ u : State, SameFailure s u → SameFailure s (u.endTxn ((s.eng e).ctx c).slot st 0) := fun u hu =>
    hu.trans (endTxn_sameFailure u _ st)
  have hrefl : SameFailure s s := ⟨rfl, rfl, rfl⟩
  unfold State.stopCtx
  dsimp only
  split
  · split
    · exact (hend s hrefl).trans ⟨rfl, rfl, rfl⟩
    · split
      · exact ⟨rfl, rfl, rfl⟩
      · exact hend _ ⟨rfl, rfl, rfl⟩
  · split
    · exact (hend s hrefl).trans ⟨rfl, rfl, rfl⟩
    · split
      · exact hend _ ⟨rfl, rfl, rfl⟩
      · exact hend _ ⟨rfl, rfl, rfl⟩

theorem mediaEnd_sameFailure (s : State) (m : SlotId) : SameFailure s (s.mediaEnd m) := by
  unfold State.mediaEnd
  split
  · exact stopCtx_sameFailure s _ _ _
  · exact endTxn_sameFailure s m _

theorem imageLoss_sameFailure (s : State) (m : SlotId) : SameFailure s (s.imageLoss m) := by
  unfold State.imageLoss
  split
  · exact mediaEnd_sameFailure s m
  · exact ⟨rfl, rfl, rfl⟩

/-! The rescue of the pages that stood on the channel -/

theorem newTable_moved {s : State} {h : HedgeId} {r : Nat × State} (hr : s.newTable h = some r) : s.Moved r.2 := by
  unfold State.newTable at hr
  obtain ⟨f, -, rfl⟩ := Option.map_eq_some_iff.1 hr
  rfl

theorem installFrom_moved (h : HedgeId) (va target : Nat) (p : Pte) : ∀ (n t : Nat) (s : State), s.Moved (State.installFrom h va target p n t s)
  | 0, _, s => .refl s
  | n + 1, t, s => by
    unfold State.installFrom
    dsimp only
    split
    · exact .of_hbmOnly (hbmWrite_hbmOnly s _ _ _)
    · split
      · exact installFrom_moved h va target p n _ s
      · split
        · next r hr => exact ((newTable_moved hr).trans (.of_hbmOnly (hbmWrite_hbmOnly _ _ _ _))).trans (installFrom_moved h va target p n _ _)
        · exact .refl s

theorem makeResident_moved (s : State) (h : HedgeId) (base level f : Nat) (p : Pte) (pin : Bool) : s.Moved (s.makeResident h base level f p pin) := by
  have hfill : s.Moved (s.fillPage p f (2 ^ levelBits level)) := by
    unfold State.fillPage
    split <;> rfl
  have hkey := hfill.trans (rekey_moved (s.fillPage p f (2 ^ levelBits level)) f (levelFrames level) (mkFe h (bits p 55 52) (bits p 59 56) true))
  unfold State.makeResident
  dsimp only
  generalize (s.fillPage p f (2 ^ levelBits level)).rekey f (levelFrames level) (mkFe h (bits p 55 52) (bits p 59 56) true) = u at hkey ⊢
  have hins : u.Moved (u.install h base level (mkResident (bits p 3 1) true false pin f)) := installFrom_moved h base level _ 4 _ u
  exact (hkey.trans hins).trans rfl

theorem hedgeEvent_moved (s : State) (h : HedgeId) (v : Ev) : s.Moved (s.hedgeEvent h v) := by
  obtain ⟨q, o, hq⟩ := hedgeEvent_rest s h v
  rw [hq]
  rfl

theorem rescuePage_moved (s : State) (u : UnitId) (fr : Nat) : s.Moved (s.rescuePage u fr) := by
  unfold State.rescuePage
  split
  · exact .refl s
  · next h base at_ p level _ =>
    dsimp only
    split
    · exact .refl s
    · have h0 : s.Moved ((lostGranules u p.frame (levelFrames level)).foldl (fun (t : State) g => { t with poison := tset false t.poison g true }) s) :=
        State.Moved.foldl (f := fun (t : State) g => { t with poison := tset false t.poison g true }) (fun _ _ => rfl) _ s
      generalize (lostGranules u p.frame (levelFrames level)).foldl (fun (t : State) g => { t with poison := tset false t.poison g true }) s = s0 at h0 ⊢
      split
      · exact h0
      · split
        · have h1 := State.Moved.foldl (f := fun (t : State) g => t.hbmWrite (32 * g) (s.rebuilt h (tget (0, 0) s.durable (durKey h base)).2 base
              (32 * g - p.frame * 4096) s.retained)) (fun v _ => .of_hbmOnly (hbmWrite_hbmOnly v _ _ _))
            (lostGranules u p.frame (levelFrames level)) s0
          exact ((h0.trans h1).trans (movePage_moved _ _ _ _ _ _ _)).trans (hedgeEvent_moved _ _ _)
        · exact ((h0.trans (freeFrames_moved _ _ _)).trans (fwInvalidate_moved _ _ _ _ _)).trans (makeResident_moved _ _ _ _ _ _ _)

theorem State.Moved.sameFailure {s t : State} (h : s.Moved t) : SameFailure s t := ⟨h.errq, h.rates, h.chanFailed⟩

section fail
variable {s : State} {u : UnitId}

theorem exec_channelFail_stays (h : bit s.chanFailed u.val = true ∨ tallied s.aoTick.toNat 1000000 (tget [] s.chanUe u.val) ≤ 4096) :
    exec (.channelFail u) s = .next s := congrArg Host.Outcome.next (if_pos h)

/-- A failed channel's stop. -/
def State.chanFails (s : State) (u : UnitId) : State :=
  { s with
    chanFailed := s.chanFailed ||| BitVec.ofNat 64 (2 ^ u.val), free := s.free + 1
    rates := tset 32 s.rates (stopOf u).val (s.stopRate (stopOf u).val * (s.liveChans (stopOf u) - 1) / s.liveChans (stopOf u)) }

/-- The locks of a failed channel's unit stand elsewhere. -/
def State.locksMoved (s : State) (u : UnitId) : State := match s.spareUnit u with
  | some v => s.moveLocks u v
  | none => s

/-- The transactions whose images lay on a failed channel, and its pages, are dealt with. -/
def State.chanLost (s : State) (u : UnitId) : State :=
  (((s.busySlots.filter fun n => onChannel u n).foldl State.imageLoss s).alloc.map (·.1)).foldl (fun (t : State) fr => t.rescuePage u fr)
    ((s.busySlots.filter fun n => onChannel u n).foldl State.imageLoss s)

theorem locksMoved_lost {n : SlotId} (h : (s.slot n).lost) : ((s.locksMoved u).slot n).lost := by
  unfold State.locksMoved
  split
  · next v _ =>
    have hslot : (s.moveLocks u v).slot n = { s.slot n with
        mask := (s.moveLocks u v).slot n |>.mask, unitsLeft := (s.moveLocks u v).slot n |>.unitsLeft } := by
      unfold State.moveLocks State.slot
      dsimp only
      rw [tget_tmap]
      simp [Slot.reset, bit]
    unfold Slot.lost
    rw [hslot]
    exact h
  · exact h

theorem locksMoved_sameFailure : SameFailure s (s.locksMoved u) := by
  unfold State.locksMoved
  split <;> exact ⟨rfl, rfl, rfl⟩

theorem chanLost_lost {n : SlotId} (h : (s.slot n).lost) : ((s.chanLost u).slot n).lost :=
  foldl_lost (fun v fr hv => by rw [(rescuePage_moved v u fr).slot]; exact hv) _ _ (foldl_lost (fun _ m hv => imageLoss_lost m hv) _ s h)

theorem chanLost_sameFailure : SameFailure s (s.chanLost u) :=
  (SameFailure.foldl (fun v m => imageLoss_sameFailure v m) (s.busySlots.filter fun n => onChannel u n) s).trans
    (SameFailure.foldl (fun v fr => (rescuePage_moved v u fr).sameFailure) _ _)

variable (hb : bit s.chanFailed u.val = false) (hm : 4096 < tallied s.aoTick.toNat 1000000 (tget [] s.chanUe u.val))
include hb hm

theorem exec_channelFail : exec (.channelFail u) s =
    .next (((((s.chanFails u).report (channelRecord s u)).lockLoss u none).locksMoved u).chanLost u) :=
  congrArg Host.Outcome.next (if_neg (by simp [hb, Nat.not_le.2 hm]))

theorem channelFail_answers : Answers (.channelFail u) s fun t => t.chanFailed = s.chanFailed ||| BitVec.ofNat 64 (2 ^ u.val) ∧
    tget 32 t.rates (stopOf u).val = tget 32 s.rates (stopOf u).val * (s.liveChans (stopOf u) - 1) / s.liveChans (stopOf u) ∧
    (∃ r ∈ t.errq, r.cls = 0x07) ∧ ∀ n ∈ s.busySlots, (s.slot n).endable = true → bit (s.slot n).mask u.val = true → s.holder n = none →
      (s.slot n).wound = false → (s.slot n).fate = none → (t.slot n).state = .ending ∧ (t.slot n).status = 0x04 := by
  let w := (s.chanFails u).report (channelRecord s u)
  have hends : SameFailure w ((w.unitSlots u none).foldl State.mediaEnd w) := .foldl mediaEnd_sameFailure _ w
  have hafter : SameFailure (w.lockLoss u none) (((w.lockLoss u none).locksMoved u).chanLost u) := locksMoved_sameFailure.trans chanLost_sameFailure
  refine ⟨_, exec_channelFail hb hm, ?_, ?_, ⟨channelRecord s u, ?_, rfl⟩, fun n hn he hmask hh hw hf => ?_⟩
  · exact hafter.chanFailed.trans hends.chanFailed
  · rw [hafter.rates, show (w.lockLoss u none).rates = w.rates from hends.rates]
    exact tget_tset_same _ _ _ _
  · rw [hafter.errq, show (w.lockLoss u none).errq = (w.errq ++ [lockRecord w u none (w.unitSlots u none).length]) from
      congrArg (· ++ [lockRecord w u none (w.unitSlots u none).length]) hends.errq]
    exact List.mem_append_left _ (List.mem_append_right _ (List.mem_singleton_self _))
  · have hin : n ∈ w.unitSlots u none := List.mem_filter.2 ⟨hn, by
      show ((s.slot n).endable && bit (s.slot n).mask u.val && true) = true
      rw [he, hmask]
      rfl⟩
    have hlost : ((w.lockLoss u none).slot n).lost := mediaEnds_lost (w.unitSlots u none) hin w he hh hw hf
    exact chanLost_lost (locksMoved_lost hlost)

end fail

/-! ### The collector (16 R523, R524) -/

theorem recordBytes_length (r : ErrRec) (n : Nat) : (r.bytes n).length = 64 := by
  unfold ErrRec.bytes
  simp only [List.length_append, bytesOfNat_length, List.length_take, List.length_replicate, List.length_cons, List.length_nil]
  omega

theorem tgetRun_tsetRun_same (m : Tab Byte) (a : Nat) {bs : List Byte} {n : Nat} (h : bs.length = n) : tgetRun 0 (tsetRun 0 m a bs) a n = bs := by
  subst h
  unfold tgetRun
  refine List.ext_getElem (by simp) fun i h1 h2 => ?_
  rw [List.getElem_map, List.getElem_range, tget_tsetRun, if_pos ⟨by omega, by omega⟩, Nat.add_sub_cancel_left, List.getD_eq_getElem _ _ h2]

section collector
variable {s : State} {r : ErrRec} {q : List ErrRec}

theorem exec_collect (h : s.errq = r :: q) : exec .errorRecordWrite s = .next (State.collect { s with errq := q } r) := by
  show execErrorRecordWrite s = _
  unfold execErrorRecordWrite
  rw [h]

theorem exec_collect_none (h : s.errq = []) : exec .errorRecordWrite s = .next s := by
  show execErrorRecordWrite s = _
  unfold execErrorRecordWrite
  rw [h]

variable (hq : s.errq = r :: q)
include hq

theorem collect_appends (hr : s.runOf r = none) (hroom : (s.regs.tail.toNat + 1) % 2 ^ s.regs.rbLog2.toNat ≠ s.regs.head.toNat % 2 ^ s.regs.rbLog2.toNat) :
    Answers .errorRecordWrite s fun t => t.errq = q ∧ tgetRun 0 t.ccm (s.regs.recordAt s.regs.tail.toNat) 64 = r.bytes 1 ∧
      t.regs.tail = BitVec.ofNat 14 ((s.regs.tail.toNat + 1) % 2 ^ s.regs.rbLog2.toNat) ∧ t.regs.fatal = (s.regs.fatal || r.sev == 3) ∧
      t.keeper.nor = (if r.sev = 0 then s.keeper.nor else s.keeper.nor ++ [r]) := by
  refine ⟨_, exec_collect hq, ?_⟩
  unfold State.collect
  dsimp only
  rw [show State.runOf { s with errq := q } r = none from hr]
  dsimp only
  rw [if_pos hroom]
  exact ⟨rfl, tgetRun_tsetRun_same _ _ (recordBytes_length r 1), rfl, rfl, rfl⟩

variable (hfull : (s.regs.tail.toNat + 1) % 2 ^ s.regs.rbLog2.toNat = s.regs.head.toNat % 2 ^ s.regs.rbLog2.toNat)

theorem collect_joins {x : CorrRun} (hr : s.runOf r = some x) : Answers .errorRecordWrite s fun t => t.errq = q ∧
    tgetRun 0 t.ccm (s.regs.recordAt x.at_) 64 = x.first.bytes (x.count + 1) ∧ t.regs.tail = s.regs.tail ∧ t.keeper = s.keeper := by
  refine ⟨_, exec_collect hq, ?_⟩
  unfold State.collect
  dsimp only
  rw [show State.runOf { s with errq := q } r = some x from hr]
  dsimp only [State.modRegs, State.writeRecordAt]
  exact ⟨rfl, tgetRun_tsetRun_same _ _ (recordBytes_length _ _), rfl, rfl⟩

include hfull

theorem collect_fatal (hr : s.runOf r = none) (hs : r.sev = 3) : Answers .errorRecordWrite s fun t => t.errq = q ∧
    tgetRun 0 t.ccm (s.regs.recordAt ((s.regs.tail.toNat + 2 ^ s.regs.rbLog2.toNat - 1) % 2 ^ s.regs.rbLog2.toNat)) 64 = r.bytes 1 ∧
    t.regs.tail = s.regs.tail ∧ t.regs.fatal = true := by
  refine ⟨_, exec_collect hq, ?_⟩
  unfold State.collect
  dsimp only
  rw [show State.runOf { s with errq := q } r = none from hr]
  dsimp only
  rw [if_neg (not_not.2 hfull), if_pos hs]
  exact ⟨rfl, tgetRun_tsetRun_same _ _ (recordBytes_length r 1), rfl, by show (s.regs.fatal || r.sev == 3) = true; rw [hs]; exact Bool.or_true _⟩

theorem exec_collect_lost (hr : s.runOf r = none) (hs : r.sev ≠ 3) : exec .errorRecordWrite s =
    .next { s with errq := q, regs := { s.regs with lost := satInc s.regs.lost } } := by
  rw [exec_collect hq]
  unfold State.collect
  dsimp only
  rw [show State.runOf { s with errq := q } r = none from hr]
  dsimp only
  rw [if_neg (not_not.2 hfull), if_neg hs]
  rfl

end collector

/-- Settles O49: the scrub's granule, the frame that is retired with its page, the channel that fails with the transactions at its lock unit, and
the collector's record. -/
theorem errorsAreMetAndRecorded : Obligations.ErrorsAreMetAndRecorded := by
  unfold Obligations.ErrorsAreMetAndRecorded
  intro s
  refine ⟨fun st g own => ⟨exec_scrub_away own, fun hst hin hok hp hl => ⟨scrub_clean own hst hin hok hp hl, scrub_corrects own hst hin hok hp hl,
      scrub_poisons own hst hin hok hp hl, scrub_pass own hst hin hok hp hl⟩⟩,
    fun fr h1 h2 h3 h4 => ⟨exec_retire_empty h1 h2 h3 h4, fun h base at_ p level hr =>
      ⟨fun dest => retire_moves h1 h2 h3 h4 hr, exec_retire_full h1 h2 h3 h4 hr⟩⟩, fun fr => exec_retire_sound, fun u => ⟨exec_channelFail_stays, channelFail_answers⟩,
    exec_collect_none, fun r q hq => ⟨collect_appends hq, fun hr hfull => collect_fatal hq hfull hr, fun hr hfull => exec_collect_lost hq hfull hr,
      fun x => collect_joins hq⟩⟩

end Sys2Proof.Machine
end

section
/-! O23: resets of functions and host ports, D3hot and the host links (02 R40, 13 R419, R440, 18 R575, 19 R599). -/

namespace Sys2Proof.Machine

/-! ### What a function's end of service leaves of the others -/

/-- A function whose rings may have become DOWN from draining: no other change of state, and what is suspect stays so. -/
structure Fn.Runs (a b : Fn) : Prop where
  cqsus : b.cqsus = a.cqsus
  eqsus : b.eqsus = a.eqsus
  state : a.state ≠ .draining → b.state = a.state

/-- Ports, pleach and what is sent stay, and functions only run down. -/
structure RunsDown (s t : State) : Prop where
  ports : t.ports = s.ports
  pleach : t.pleach = s.pleach
  out : t.out = s.out
  fn : ∀ g, (s.fn g).Runs (t.fn g)

theorem Fn.Runs.refl (a : Fn) : a.Runs a := ⟨rfl, rfl, fun _ => rfl⟩

theorem Fn.Runs.trans {a b c : Fn} (h : a.Runs b) (k : b.Runs c) : a.Runs c :=
  ⟨k.cqsus.trans h.cqsus, k.eqsus.trans h.eqsus, fun hs => (k.state (by rw [h.state hs]; exact hs)).trans (h.state hs)⟩

namespace RunsDown

variable {s t u : State}

theorem refl (s : State) : RunsDown s s := ⟨rfl, rfl, rfl, fun _ => .refl _⟩

theorem trans (h : RunsDown s t) (k : RunsDown t u) : RunsDown s u :=
  ⟨k.ports.trans h.ports, k.pleach.trans h.pleach, k.out.trans h.out, fun g => (h.fn g).trans (k.fn g)⟩

theorem foldl {α : Type} {f : State → α → State} (hf : ∀ u a, RunsDown u (f u a)) (l : List α) (s : State) : RunsDown s (l.foldl f s) := by
  induction l generalizing s with
  | nil => exact refl s
  | cons a l ih => exact (hf s a).trans (ih _)

/-- A change that leaves functions, ports, the pleach and what is sent. -/
theorem of_same (hp : t.ports = s.ports) (hl : t.pleach = s.pleach) (ho : t.out = s.out) (hf : t.fns = s.fns) : RunsDown s t :=
  ⟨hp, hl, ho, fun g => by
    show (s.fn g).Runs (tget _ t.fns g.val)
    rw [hf]
    exact .refl _⟩

theorem setFn (f : FnId) {q : Fn} (h : (s.fn f).Runs q) : RunsDown s (s.setFn f q) :=
  ⟨rfl, rfl, rfl, fun g => by
    by_cases hg : g = f
    · subst hg
      rw [State.setFn_fn_same]
      exact h
    · rw [State.setFn_fn_ne _ _ _ _ hg]
      exact .refl _⟩

end RunsDown

section runs
variable (s : State)

theorem drained_runs (f : FnId) : RunsDown s (s.drained f) := by
  have hset : (s.fn f).state = .draining →
      RunsDown s (s.setFn f { (if (s.fn f).flr then (s.fn f).regReset else s.fn f) with state := .down, flr := false }) := fun hd => by
    refine .setFn f ⟨?_, ?_, fun h => absurd hd h⟩ <;> split <;> rfl
  have hite : ∀ b : Bool, RunsDown s (if ((s.fn f).state == .draining && !(s.fn f).migPost && b) = true then
      s.setFn f { (if (s.fn f).flr then (s.fn f).regReset else s.fn f) with state := .down, flr := false } else s) := fun b => by
    split
    · next h =>
      simp only [Bool.and_eq_true, beq_iff_eq] at h
      exact hset h.1.1
    · exact .refl s
  exact hite _

theorem idleSlot_runs (n : SlotId) : RunsDown s (s.idleSlot n) := by
  have hclear : RunsDown s (s.slotCleared n) := .of_same rfl rfl rfl rfl
  unfold State.idleSlot
  dsimp only
  split
  · next f _ => exact hclear.trans (drained_runs (s.slotCleared n) f)
  · exact hclear

theorem endTxn_runs (n : SlotId) (st : Byte) (x : Word64) : RunsDown s (s.endTxn n st x) := by
  unfold State.endTxn
  dsimp only
  split
  · exact .of_same rfl rfl rfl rfl
  · exact .refl s

theorem stopCtx_runs (e : EngId) (c : CtxId) (st : Byte) : RunsDown s (s.stopCtx e c st) := by
  have hend : ∀ u : State, RunsDown s u → RunsDown s (u.endTxn ((s.eng e).ctx c).slot st 0) := fun u hu => hu.trans (endTxn_runs u _ st 0)
  have hctx : ∀ (u : State) (f : Ctx → Ctx), RunsDown s u → RunsDown s (u.modCtx e c f) := fun u f hu => hu.trans (.of_same rfl rfl rfl rfl)
  unfold State.stopCtx
  dsimp only
  split
  · split
    · exact hctx _ _ (hend s (.refl s))
    · split
      · exact .of_same rfl rfl rfl rfl
      · exact hend _ (.of_same rfl rfl rfl rfl)
  · split
    · exact hctx _ _ (hend s (.refl s))
    · split
      · exact hend _ (hctx s _ (.refl s))
      · exact hend _ (.of_same rfl rfl rfl rfl)

theorem abortSlot_runs (n : SlotId) : RunsDown s (s.abortSlot n) := by
  have hmod : RunsDown s (s.modSlot n Slot.aborted) := .of_same rfl rfl rfl rfl
  unfold State.abortSlot
  split
  · dsimp only
    split
    · exact hmod.trans (stopCtx_runs _ _ _ _)
    · exact hmod.trans (endTxn_runs _ _ _ _)
  · split
    · exact hmod
    · exact .refl s

/-- The state that remembers a formed completion in its hedge's history. -/
def State.remembered (f : FnId) (c : Compl) : State := match (s.fn f).hedge with
  | some h => s.modHedge h fun g => g.remember c
  | none => s

theorem formed_runs (f : FnId) (c : Compl) : RunsDown s (s.formed f c) := by
  have hrem : RunsDown s (s.remembered f c) := by
    unfold State.remembered
    split
    · exact .of_same rfl rfl rfl rfl
    · exact .refl s
  have heq : s.formed f c = if (s.fn f).posting then (s.remembered f c).modFn f fun q => { q with waiting := q.waiting ++ [c] }
      else match c.slot with
        | some n => (s.remembered f c).idleSlot n
        | none => s.remembered f c := rfl
  rw [heq]
  generalize s.remembered f c = u at hrem ⊢
  split
  · exact hrem.trans (.setFn (s := u) f (q := { u.fn f with waiting := (u.fn f).waiting ++ [c] }) ⟨rfl, rfl, fun _ => rfl⟩)
  · split
    · exact hrem.trans (idleSlot_runs u _)
    · exact hrem

theorem dropCmd_runs (f : FnId) (c : Cmd) : RunsDown s (s.dropCmd f c) := by
  unfold State.dropCmd
  split
  · exact endTxn_runs s _ _ _
  · exact formed_runs s f _

theorem tableChange_runs (h : HedgeId) : RunsDown s (s.tableChange h) := by
  unfold State.tableChange
  split
  · exact .of_same rfl rfl rfl rfl
  · exact .refl s

/-- A function as its rings begin to run down. -/
def Fn.closing (q : Fn) (st : HState) : Fn :=
  { q with state := st, en := false, cur := [], waiting := [], reread := none, targets := [], migPost := false }

/-- A VF's rings run down: from the state in which its function is closing, functions only run down. -/
theorem drainVf_runs (f : FnId) (st : HState) : RunsDown (s.setFn f ((s.fn f).closing st)) (s.drainVf f st) := by
  have h2 := RunsDown.foldl (fun u n => idleSlot_runs u n) ((s.fn f).waiting.filterMap (·.slot)) (s.setFn f ((s.fn f).closing st))
  have h3 := h2.trans (.foldl (fun u c => dropCmd_runs u f c) (s.fn f).cur _)
  have heq : s.drainVf f st = match (s.fn f).hedge with
      | some h => State.drained (List.foldl State.abortSlot ((s.fn f).cur.foldl (fun (t : State) c => t.dropCmd f c)
          (((s.fn f).waiting.filterMap (·.slot)).foldl State.idleSlot (s.setFn f ((s.fn f).closing st))))
          (((s.fn f).cur.foldl (fun (t : State) c => t.dropCmd f c)
          (((s.fn f).waiting.filterMap (·.slot)).foldl State.idleSlot (s.setFn f ((s.fn f).closing st)))).liveSlots h)) f
      | none => State.drained ((s.fn f).cur.foldl (fun (t : State) c => t.dropCmd f c)
          (((s.fn f).waiting.filterMap (·.slot)).foldl State.idleSlot (s.setFn f ((s.fn f).closing st)))) f := rfl
  rw [heq]
  split
  · exact (h3.trans (.foldl (fun u n => abortSlot_runs u n) _ _)).trans (drained_runs _ f)
  · exact h3.trans (drained_runs _ f)

/-- The PF as its admin ring goes down. -/
def Fn.pfDown (q : Fn) : Fn :=
  { q with state := .down, en := false, opening := false, waiting := [], reread := none, cur := q.cur.map fun c => { c with mute := true } }

theorem downPf_runs (f : FnId) : RunsDown (s.setFn f (s.fn f).pfDown) (s.downPf f) :=
  .foldl (fun u h => tableChange_runs u h) ((s.fn f).waiting.filterMap (·.table)) _

end runs

/-! ### One function's reset -/

section reset
variable {s : State} {f : FnId}

theorem exec_reset_idle (hq : (s.fn f).posting = false) (hd : (s.fn f).state ≠ .draining) (hf : isPf f = false) :
    exec (.functionLevelReset f) s = .next (s.setFn f (s.fn f).regReset) := by
  have hstay : s.disable f = s := by
    unfold State.disable
    dsimp only
    rw [hf, hq]
    rfl
  show Host.Outcome.next (s.resetFn f) = _
  unfold State.resetFn
  rw [if_neg (by simp [hq]), if_neg hd, hstay]
  rfl

/-- Without commands, completions or live slots a VF's rings are DOWN at once. -/
theorem drainVf_empty (q : Fn) (hq : s.fn f = q) (hc : q.cur = []) (hw : q.waiting = []) (hl : ∀ h, q.hedge = some h → s.liveSlots h = []) (hflr : q.flr = true) :
    s.drainVf f .draining = (s.setFn f (q.closing .draining)).setFn f { (q.closing .draining).regReset with state := .down, flr := false } := by
  have hset : ∀ u : State, u = s.setFn f (q.closing .draining) →
      u.drained f = (s.setFn f (q.closing .draining)).setFn f { (q.closing .draining).regReset with state := .down, flr := false } := fun u hu => by
    have hempty : (match q.hedge with
        | some h => (u.liveSlots h).isEmpty
        | none => true) = true := by
      split
      · next h hh =>
        rw [hu, show (s.setFn f (q.closing .draining)).liveSlots h = s.liveSlots h from rfl, hl h hh]
        rfl
      · rfl
    have hfn : u.fn f = q.closing .draining := by rw [hu, State.setFn_fn_same]
    unfold State.drained
    rw [hfn]
    dsimp only
    rw [if_pos, hu, if_pos (show (q.closing .draining).flr = true from hflr)]
    show (true && true && match q.hedge with
        | some h => (u.liveSlots h).isEmpty
        | none => true) = true
    rw [hempty]
    rfl
  unfold State.drainVf
  dsimp only
  rw [hq, hc, hw]
  split
  · next h hh =>
    have hnone : (s.setFn f (q.closing .draining)).liveSlots h = [] := hl h hh
    have := hset _ rfl
    simp only [List.filterMap_nil, List.foldl_nil]
    refine Eq.trans ?_ this
    refine congrArg (fun v : State => v.drained f) (?_ : List.foldl State.abortSlot (s.setFn f (q.closing .draining))
      ((s.setFn f (q.closing .draining)).liveSlots h) = _)
    rw [hnone]
    rfl
  · exact hset _ rfl

variable (hf : isPf f = false)
include hf

theorem reset_vf (hp : (s.fn f).posting = true) (hc : (s.fn f).cur = []) (hw : (s.fn f).waiting = [])
    (hl : ∀ h, (s.fn f).hedge = some h → s.liveSlots h = []) : Answers (.functionLevelReset f) s fun t =>
      (t.fn f).state = .down ∧ (t.fn f).en = false ∧ (t.fn f).sqBase = 0 ∧ (t.fn f).cqBase = 0 ∧ (t.fn f).eqBase = 0 ∧ (t.fn f).sqLog2 = 4 ∧
      (t.fn f).intCnt = 1 ∧ (t.fn f).hedge = (s.fn f).hedge ∧ (t.fn f).cqsus = (s.fn f).cqsus ∧ OnlyFn s t f [] := by
  let s1 := s.modFn f fun q => { q with flr := true }
  have h1 : s1.fn f = { s.fn f with flr := true } := State.setFn_fn_same _ _ _
  have hgo : s.resetFn f = s1.drainVf f .draining := by
    unfold State.resetFn
    rw [if_pos ⟨hp, by rw [hf]; rfl⟩]
    unfold State.disable
    dsimp only
    rw [hf, if_neg Bool.false_ne_true]
    refine if_pos ?_
    rw [show (State.modFn s f fun q => { q with flr := true }).fn f = { s.fn f with flr := true } from h1]
    exact hp
  have hend := drainVf_empty (s := s1) _ h1 hc hw hl rfl
  refine ⟨_, congrArg Host.Outcome.next (hgo.trans hend), ?_⟩
  have hfn := State.setFn_fn_same (s1.setFn f (Fn.closing { s.fn f with flr := true } .draining)) f
    { (Fn.closing { s.fn f with flr := true } .draining).regReset with state := .down, flr := false }
  generalize hu : (s1.setFn f (Fn.closing { s.fn f with flr := true } .draining)).setFn f
    { (Fn.closing { s.fn f with flr := true } .draining).regReset with state := .down, flr := false } = u at hfn
  have honly : OnlyFn s u f [] := by
    refine ⟨by rw [← hu, List.append_nil]; rfl, fun g hg => ?_⟩
    rw [← hu, State.setFn_fn_ne _ _ _ _ hg, State.setFn_fn_ne _ _ _ _ hg]
    exact State.setFn_fn_ne _ _ _ _ hg
  beta_reduce
  rw [hfn]
  exact ⟨rfl, rfl, rfl, rfl, rfl, rfl, rfl, rfl, rfl, honly⟩

theorem exec_d3hot_idle (hp : (s.fn f).posting = false) : exec (.d3hotEntry f) s = .next (s.setFn f { s.fn f with d3 := true }) := by
  have hstay : s.disable f = s := by
    unfold State.disable
    dsimp only
    rw [hf, hp]
    rfl
  show Host.Outcome.next ((s.disable f).modFn f fun q => { q with d3 := true }) = _
  rw [hstay]
  rfl

end reset

section pf
variable {s : State} {f : FnId} (hf : isPf f = true)
include hf

/-- An admin ring whose completions change no table goes down. -/
theorem disable_pf (hw : ∀ c ∈ (s.fn f).waiting, c.table = none) : s.disable f = s.setFn f (s.fn f).pfDown := by
  have hnone : (s.fn f).waiting.filterMap (·.table) = [] := List.filterMap_eq_nil_iff.2 hw
  unfold State.disable
  dsimp only
  rw [if_pos hf]
  unfold State.downPf
  dsimp only
  rw [hnone]
  rfl

theorem reset_pf (hd : (s.fn f).state ≠ .draining) (hw : ∀ c ∈ (s.fn f).waiting, c.table = none) : Answers (.functionLevelReset f) s fun t =>
    (t.fn f).state = .down ∧ (t.fn f).en = false ∧ (t.fn f).sqBase = 0 ∧ OnlyFn s t f [] := by
  have hgo : s.resetFn f = (s.setFn f (s.fn f).pfDown).modFn f Fn.regReset := by
    unfold State.resetFn
    rw [if_neg (by simp [hf]), if_neg hd, disable_pf hf hw]
  refine ⟨_, congrArg Host.Outcome.next hgo, ?_⟩
  have hfn : ((s.setFn f (s.fn f).pfDown).modFn f Fn.regReset).fn f = (s.fn f).pfDown.regReset := by
    rw [State.modFn, State.setFn_fn_same, State.setFn_fn_same]
  beta_reduce
  rw [hfn]
  refine ⟨rfl, rfl, rfl, by rw [List.append_nil]; rfl, fun g hg => ?_⟩
  rw [State.modFn, State.setFn_fn_ne _ _ _ _ hg]
  exact State.setFn_fn_ne _ _ _ _ hg

theorem d3hot_pf (hw : ∀ c ∈ (s.fn f).waiting, c.table = none) : Answers (.d3hotEntry f) s fun t =>
    (t.fn f).d3 = true ∧ (t.fn f).state = .down ∧ (t.fn f).sqBase = (s.fn f).sqBase ∧ OnlyFn s t f [] := by
  refine ⟨(s.setFn f (s.fn f).pfDown).modFn f fun q => { q with d3 := true }, congrArg (fun u : State => Host.Outcome.next (u.modFn f fun q => { q with d3 := true }))
    (disable_pf hf hw), ?_⟩
  have hfn : ((s.setFn f (s.fn f).pfDown).modFn f fun q => { q with d3 := true }).fn f = { (s.fn f).pfDown with d3 := true } := by
    rw [State.modFn, State.setFn_fn_same, State.setFn_fn_same]
  beta_reduce
  rw [hfn]
  refine ⟨rfl, rfl, rfl, by rw [List.append_nil]; rfl, fun g hg => ?_⟩
  rw [State.modFn, State.setFn_fn_ne _ _ _ _ hg]
  exact State.setFn_fn_ne _ _ _ _ hg

end pf

/-! ### A host port's reset -/

section port
variable (s : State) (p : PortId) (f g : FnId)

/-- Whether a function's rings are suspect. -/
def Fn.sus (q : Fn) : Bool × Bool := (q.cqsus, q.eqsus)

/-- The reset of a function: of the others it changes no state but draining, ports stay, and what is suspect stays so. -/
structure ResetsOne (s t : State) (f : FnId) : Prop where
  ports : t.ports = s.ports
  sus : ∀ g, (t.fn g).sus = (s.fn g).sus
  other : ∀ g, g ≠ f → (s.fn g).state ≠ .draining → (t.fn g).state = (s.fn g).state
  down : isPf f = true → (s.fn f).state ≠ .draining → (t.fn f).state = .down

theorem modFn_sus {h : Fn → Fn} (hh : ∀ q, (h q).sus = q.sus) : ((s.modFn f h).fn g).sus = (s.fn g).sus := by
  by_cases hg : g = f
  · subst hg
    rw [State.modFn, State.setFn_fn_same]
    exact hh _
  · rw [State.modFn, State.setFn_fn_ne _ _ _ _ hg]

theorem Fn.Runs.sus {a b : Fn} (h : a.Runs b) : b.sus = a.sus := Prod.ext h.cqsus h.eqsus

/-- The rings of a function run down, from the function `q` in which they begin to. -/
theorem runs_resets {t : State} {q : Fn} (hq : q.sus = (s.fn f).sus) (h : RunsDown (s.setFn f q) t) (hpf : isPf f = true → q.state = .down) :
    ResetsOne s t f where
  ports := h.ports
  sus := fun g => (h.fn g).sus.trans (by
    by_cases hg : g = f
    · subst hg
      rw [State.setFn_fn_same]
      exact hq
    · rw [State.setFn_fn_ne _ _ _ _ hg])
  other := fun g hg hs => by
    have hk := (h.fn g).state
    rw [State.setFn_fn_ne _ _ _ _ hg] at hk
    exact hk hs
  down := fun hp _ => by
    have hk := (h.fn f).state
    rw [State.setFn_fn_same] at hk
    rw [hk (by rw [hpf hp]; decide), hpf hp]

theorem disable_resets (hf : isPf f = true ∨ (s.fn f).posting = true) : ResetsOne s (s.disable f) f := by
  unfold State.disable
  dsimp only
  split
  · exact runs_resets s f (q := (s.fn f).pfDown) rfl (downPf_runs s f) fun _ => rfl
  · next hn =>
    rw [if_pos (hf.resolve_left hn)]
    exact runs_resets s f (q := (s.fn f).closing .draining) rfl (drainVf_runs s f .draining) fun h => absurd h hn

theorem resetFn_resets : ResetsOne s (s.resetFn f) f := by
  have hflr : ∀ g, ((s.modFn f fun q => { q with flr := true }).fn g).state = (s.fn g).state := fun g => by
    by_cases hg : g = f
    · subst hg
      rw [State.modFn, State.setFn_fn_same]
    · rw [State.modFn, State.setFn_fn_ne _ _ _ _ hg]
  have hsus : ∀ g, ((s.modFn f fun q => { q with flr := true }).fn g).sus = (s.fn g).sus := fun g => modFn_sus s f g fun _ => rfl
  unfold State.resetFn
  split
  · next h =>
    obtain ⟨hp, hn⟩ := h
    have hd := disable_resets (s.modFn f fun q => { q with flr := true }) f (.inr (by rw [State.modFn, State.setFn_fn_same]; exact hp))
    exact ⟨hd.ports, fun g => (hd.sus g).trans (hsus g), fun g hg hs => (hd.other g hg (by rw [hflr]; exact hs)).trans (hflr g),
      fun hpf => absurd hn (by simp [hpf])⟩
  · next h =>
    split
    · next hdr => exact ⟨rfl, hsus, fun g _ _ => hflr g, fun _ hs => absurd hdr hs⟩
    · have hfin : ∀ u : State, ResetsOne s u f → ResetsOne s (u.modFn f Fn.regReset) f := fun u hu =>
        ⟨hu.ports, fun g => (modFn_sus u f g (h := Fn.regReset) fun _ => rfl).trans (hu.sus g), fun g hg hs => by
          rw [State.modFn, State.setFn_fn_ne _ _ _ _ hg]
          exact hu.other g hg hs, fun hp hs => by
          rw [State.modFn, State.setFn_fn_same]
          exact hu.down hp hs⟩
      by_cases hpf : isPf f = true
      · exact hfin _ (disable_resets s f (.inl hpf))
      · have hno : (s.fn f).posting = false := Bool.eq_false_iff.2 fun hp => h ⟨hp, by simp [hpf]⟩
        refine hfin _ ?_
        unfold State.disable
        dsimp only
        rw [if_neg hpf, hno, if_neg Bool.false_ne_true]
        exact ⟨rfl, fun _ => rfl, fun _ _ _ => rfl, fun hp => absurd hp hpf⟩

theorem resets_foldl (l : List FnId) : (l.foldl State.resetFn s).ports = s.ports ∧ (∀ g, ((l.foldl State.resetFn s).fn g).sus = (s.fn g).sus) ∧
    ∀ g, isPf g = true → (s.fn g).state ≠ .draining → (g ∈ l ∨ (s.fn g).state = .down → ((l.foldl State.resetFn s).fn g).state = .down) := by
  induction l generalizing s with
  | nil => exact ⟨rfl, fun _ => rfl, fun g _ _ h => h.resolve_left (by simp)⟩
  | cons f l ih =>
    have h := resetFn_resets s f
    obtain ⟨hp, hs, hd⟩ := ih (s.resetFn f)
    refine ⟨hp.trans h.ports, fun g => (hs g).trans (h.sus g), fun g hg hst hor => ?_⟩
    by_cases hgf : g = f
    · subst hgf
      have hdown := h.down hg hst
      exact hd g hg (by rw [hdown]; decide) (.inr hdown)
    · have hkeep := h.other g hgf hst
      exact hd g hg (by rw [hkeep]; exact hst) (hor.imp (fun hm => (List.mem_cons.1 hm).resolve_left hgf) fun e => hkeep.trans e)

theorem markSuspect_ports : (s.markSuspect f).ports = s.ports := by
  unfold State.markSuspect
  dsimp only
  split <;> rfl

theorem markSuspect_ne (hg : g ≠ f) : (s.markSuspect f).fn g = s.fn g := by
  unfold State.markSuspect
  dsimp only
  split
  · rfl
  · exact State.setFn_fn_ne _ _ _ _ hg

theorem markSuspect_fn : ((s.markSuspect f).fn f).hedge = (s.fn f).hedge ∧ ((s.markSuspect f).fn f).state = (s.fn f).state ∧
    ((s.fn f).sus = (true, true) ∨ isPf f = false ∧ (s.fn f).hedge.isSome = true → ((s.markSuspect f).fn f).sus = (true, true)) := by
  unfold State.markSuspect
  dsimp only
  split
  · next h =>
    refine ⟨rfl, rfl, fun hor => hor.resolve_right fun ⟨h1, h2⟩ => ?_⟩
    rw [h1] at h
    simp [Option.isNone_iff_eq_none] at h
    rw [h] at h2
    exact absurd h2 (by simp)
  · have hfn := State.setFn_fn_same s f { s.fn f with
      cqsus := true, eqsus := true, suspect := some (suspectEvent ((s.fn f).recent s.aoTick) (Config.freeValue 32 s.free)) }
    refine ⟨(congrArg Fn.hedge hfn :), (congrArg Fn.state hfn :), fun _ => (congrArg Fn.sus hfn :)⟩

theorem marks_foldl (l : List FnId) : (l.foldl State.markSuspect s).ports = s.ports ∧ ∀ g, ((l.foldl State.markSuspect s).fn g).state = (s.fn g).state ∧
    ((s.fn g).sus = (true, true) ∨ g ∈ l ∧ isPf g = false ∧ (s.fn g).hedge.isSome = true → ((l.foldl State.markSuspect s).fn g).sus = (true, true)) := by
  induction l generalizing s with
  | nil => exact ⟨rfl, fun g => ⟨rfl, fun h => h.resolve_right fun hm => absurd hm.1 (by simp)⟩⟩
  | cons f l ih =>
    obtain ⟨hp, hg⟩ := ih (s.markSuspect f)
    refine ⟨hp.trans (markSuspect_ports s f), fun g => ?_⟩
    obtain ⟨hst, hsus⟩ := hg g
    by_cases hgf : g = f
    · subst hgf
      obtain ⟨-, mst, msus⟩ := markSuspect_fn s g
      exact ⟨hst.trans mst, fun h => hsus (.inl (msus (h.imp_right And.right)))⟩
    · have hne := markSuspect_ne s f g hgf
      rw [hne] at hst hsus
      exact ⟨hst, fun h => hsus (h.imp_right fun ⟨hm, hr⟩ => ⟨(List.mem_cons.1 hm).resolve_left hgf, hr⟩)⟩

/-- The functions of a port. -/
def portFns : List FnId := allFns.filter fun f => portOf f == p

/-- A port whose oldest recent write has been logged. -/
def State.logged : State := match s.oldestSent p with
  | some (f, w) => s.setPort p ((s.port p).log f w)
  | none => s

theorem logged_fn : (s.logged p).fn g = s.fn g := by
  unfold State.logged
  split <;> rfl

theorem logged_log {w : Sent} (ho : s.oldestSent p = some (g, w)) (hv : (s.port p).logV = false) :
    ((s.logged p).port p) = { s.port p with
      logAddr := w.addr, logFn := BitVec.ofNat 7 (g.val % 65), logV := true, logEvt := w.event, logHsn := w.hsn } := by
  unfold State.logged
  rw [ho]
  dsimp only
  rw [State.setPort_port_same]
  exact if_neg (by rw [hv]; exact Bool.false_ne_true)

theorem exec_portReset : exec (.hostPortReset p) s = .next
    (let t := (portFns p).foldl State.resetFn ((portFns p).foldl State.markSuspect (s.logged p))
     t.setPort p { t.port p with l0 := false }) := rfl

theorem portReset_answers : Answers (.hostPortReset p) s fun t =>
    (t.port p).l0 = false ∧ (∀ g, portOf g = p → isPf g = false → (s.fn g).hedge.isSome = true → (t.fn g).cqsus = true ∧ (t.fn g).eqsus = true) ∧
    (∀ g, portOf g = p → isPf g = true → (s.fn g).state ≠ .draining → (t.fn g).state = .down) ∧
    (∀ g w, s.oldestSent p = some (g, w) → (s.port p).logV = false →
      (t.port p).logV = true ∧ (t.port p).logAddr = w.addr ∧ (t.port p).logHsn = w.hsn ∧ (t.port p).logEvt = w.event) := by
  refine ⟨_, exec_portReset s p, ?_⟩
  obtain ⟨mp, mg⟩ := marks_foldl (s.logged p) (portFns p)
  generalize (portFns p).foldl State.markSuspect (s.logged p) = u at mp mg ⊢
  obtain ⟨rp, rs, rd⟩ := resets_foldl u (portFns p)
  generalize (portFns p).foldl State.resetFn u = t at rp rs rd ⊢
  have hmem : ∀ g, portOf g = p → g ∈ portFns p := fun g hg => List.mem_filter.2 ⟨List.mem_finRange g, by simp [hg]⟩
  have hport : t.port p = (s.logged p).port p := by
    unfold State.port
    rw [rp, mp]
  have hset : (t.setPort p { t.port p with l0 := false }).port p = { t.port p with l0 := false } := State.setPort_port_same _ _ _
  dsimp only
  rw [hset, hport]
  refine ⟨rfl, fun g hg hpf hh => ?_, fun g hg hpf hst => ?_, fun g w ho hv => ?_⟩
  · have hs : (t.fn g).sus = (true, true) := (rs g).trans ((mg g).2 (.inr ⟨hmem g hg, hpf, by rw [logged_fn]; exact hh⟩))
    exact ⟨congrArg Prod.fst hs, congrArg Prod.snd hs⟩
  · exact rd g hpf (by rw [(mg g).1, logged_fn]; exact hst) (.inl (hmem g hg))
  · rw [logged_log s p g ho hv]
    exact ⟨rfl, rfl, rfl, rfl⟩

end port

theorem exec_perst (s : State) (p : PortId) (rate : BitVec 3) (width : BitVec 5) (flit : Bool) (mps mrrs : Fin 6)
    (h1 : 1 ≤ rate.toNat) (h6 : rate.toNat ≤ 6) (hw : width.toNat ∈ [1, 2, 4, 8, 16]) : exec (.perstDeassertion p rate width ⟨flit, mps, mrrs⟩) s =
      .next (s.setPort p { s.port p with
        rate := rate, width := width, flit := flit, l0 := true, crs := decide (s.keeper.step < 8) && s.devstat != 3
        mps := 128 * 2 ^ mps.val, mrrs := 128 * 2 ^ mrrs.val }) := by
  refine congrArg Host.Outcome.next (if_neg ?_)
  rintro (h | h | h)
  · subst h
    exact absurd h1 (by decide)
  · subst h
    exact absurd h6 (by decide)
  · rw [List.contains_iff_mem.2 hw] at h
    exact absurd h (by decide)

/-- Settles O23: a VF's reset by the branches of its state, the PF's, D3hot, and a host port's reset, function by function. -/
theorem functionsResetAndSleep : Obligations.FunctionsResetAndSleep := by
  unfold Obligations.FunctionsResetAndSleep
  intro s f
  exact ⟨exec_reset_idle, fun hf => reset_vf hf, fun hf => reset_pf hf, portReset_answers s, fun hf => d3hot_pf hf, fun hf => exec_d3hot_idle hf, rfl,
    exec_perst s⟩

end Sys2Proof.Machine
end

section
/-! O36: the Lehr's controller fails, is fenced and recovers; holes, replay and the reopening of the ring (11 R372 to R374, 16 R528 to R530,
17 R550). -/

namespace Sys2Proof.Machine

/-! ### Notices and events leave the Lehr and the keeper -/

/-- The Lehr and the keeper stay. -/
def Calm (s t : State) : Prop := t.lehr = s.lehr ∧ t.keeper = s.keeper

theorem Calm.refl (s : State) : Calm s s := ⟨rfl, rfl⟩

theorem Calm.trans {s t u : State} (h : Calm s t) (k : Calm t u) : Calm s u := ⟨k.1.trans h.1, k.2.trans h.2⟩

theorem Calm.ite {s t u : State} {p : Prop} [Decidable p] (h : Calm s t) (k : Calm s u) : Calm s (if p then t else u) := by
  split
  · exact h
  · exact k

theorem Calm.foldl {α : Type} {f : State → α → State} (hf : ∀ u a, Calm u (f u a)) (l : List α) (s : State) : Calm s (l.foldl f s) := by
  induction l generalizing s with
  | nil => exact .refl s
  | cons a l ih => exact (hf s a).trans (ih _)

section calm
variable (s : State)

theorem rouse_calm (e : EngId) (c : CtxId) : Calm s (s.rouse e c) := Calm.ite ⟨rfl, rfl⟩ (.refl s)

theorem pend_calm (n : SlotId) (f : Ctx → Ctx) : Calm s (s.pend n f) := by
  unfold State.pend
  split
  · exact Calm.ite (Calm.trans (t := s.modEng _ fun g => (g.setCtx _ (f (g.ctx _))).abandon _) ⟨rfl, rfl⟩ (rouse_calm _ _ _)) (.refl s)
  · exact Calm.ite ⟨rfl, rfl⟩ (.refl s)

theorem notice_calm (n : SlotId) (level : Fin 5) (kind : Byte) (word : BitVec 32) : Calm s (s.notice n level kind word) := by
  unfold State.notice
  split
  · exact Calm.ite ⟨rfl, rfl⟩ (pend_calm s n _)
  · exact .refl s

theorem deliver_notice_calm (m : EngMsg) {n : SlotId} {level : Fin 5} {kind : Byte} {word : BitVec 32} (hm : m.kind = .notice n level kind word) :
    Calm s (s.deliver m) := by
  unfold State.deliver
  dsimp only
  rw [hm]
  exact Calm.ite (.refl s) (notice_calm s n level kind word)

theorem message_notice_calm (m : EngMsg) {n : SlotId} {level : Fin 5} {kind : Byte} {word : BitVec 32} (hm : m.kind = .notice n level kind word) :
    Calm s (s.message m) :=
  have hbounce : Calm s (s.bounce m) := Calm.ite ⟨rfl, rfl⟩ ⟨rfl, rfl⟩
  Calm.ite ⟨rfl, rfl⟩ (Calm.ite ⟨rfl, rfl⟩ (Calm.ite ⟨rfl, rfl⟩ (Calm.ite (deliver_notice_calm s m hm) hbounce)))

theorem notify_calm (h : HedgeId) (level : Fin 5) (word : BitVec 32) : Calm s (s.notify h level word) := by
  refine Calm.foldl (fun u e => ?_) _ s
  split
  · exact message_notice_calm u _ rfl
  · exact .refl u

theorem hedgeEvent_calm (h : HedgeId) (v : Ev) : Calm s (s.hedgeEvent h v) := by
  obtain ⟨q, o, he⟩ := hedgeEvent_rest s h v
  rw [he]
  exact ⟨rfl, rfl⟩

/-- The watermarks settle whether the ring is full, and tell of the high one; nothing after that touches the Lehr or the keeper. -/
theorem watermarks_calm : ∃ low high, Calm (State.settleFull { s with lehr := { s.lehr with low := low, high := high } }) s.watermarks := by
  have hall : ∀ low high : Bool,
      let s1 := State.settleFull { s with lehr := { s.lehr with low := low, high := high } }
      Calm s1 (if high = s.lehr.high then s1
        else s.openHedges.foldl (fun (t : State) h => t.notify h 3 (BitVec.ofNat 32 (b2n high))) (s1.everyHedge (highEvent s high))) :=
    fun low high => Calm.ite (.refl _) ((Calm.foldl (fun u h => hedgeEvent_calm u h _) _ _).trans (Calm.foldl (fun u h => notify_calm u h 3 _) _ _))
  exact ⟨_, _, hall _ _⟩

theorem settleFull_step : s.settleFull.keeper.step = s.keeper.step := by
  unfold State.settleFull
  split
  · split <;> rfl
  · rfl

theorem watermarks_step : s.watermarks.keeper.step = s.keeper.step := by
  obtain ⟨low, high, -, hk⟩ := watermarks_calm s
  rw [hk]
  exact settleFull_step { s with lehr := { s.lehr with low := low, high := high } }

/-- Where nothing waits the ring is not FULL. -/
theorem watermarks_notFull (h : s.lehr.waiting = []) : s.watermarks.lehr.full = false := by
  obtain ⟨low, high, hl, -⟩ := watermarks_calm s
  have hover : State.overfull { s with lehr := { s.lehr with low := low, high := high } } = false := by
    unfold State.overfull
    rw [h]
    rfl
  rw [hl]
  unfold State.settleFull
  rw [hover, if_neg Bool.false_ne_true]
  unfold State.unfull
  rw [hover]
  exact Bool.and_false _

end calm

/-! ### What the recovery's steps keep of the controller -/

/-- What the sequencer has drawn, the partner's entries that wait, the commits that wait, and FENCED. -/
def Lehr.core (l : Lehr) : Word64 × List (LinkId × Mirror) × List SlotId × Bool := (l.drawn, l.mirrorIn, l.waiting, l.fenced)

/-- The core of the controller, and the keeper. -/
def State.coreKept (s : State) : (Word64 × List (LinkId × Mirror) × List SlotId × Bool) × Keeper := (s.lehr.core, s.keeper)

section core
variable (s : State)

theorem placeAt_core (ps : List (Nat × Nat)) (r : ZoneRec) : (s.placeAt ps r).coreKept = s.coreKept := by
  unfold State.placeAt
  refine (foldl_keeps State.coreKept (fun _ _ => ?_) ps _).trans ?_ <;> rfl

theorem placeRecord_core (k : Nat) (r : ZoneRec) : (s.placeRecord k r).coreKept = s.coreKept := placeAt_core s _ r

theorem placeRetried_core (r : ZoneRec) (k : Nat) : (s.placeRetried r k).coreKept = s.coreKept := by
  unfold State.placeRetried
  dsimp only
  rw [placeAt_core]
  rfl

theorem advance_core (n : Nat) (l : Lehr) : (l.advance n).core = l.core := by
  induction n generalizing l with
  | zero => rfl
  | succ n ih =>
    unfold Lehr.advance
    split
    · exact ih _
    · rfl

theorem allApplied_core (n : SlotId) : (s.allApplied n).coreKept = s.coreKept := by
  unfold State.allApplied
  dsimp only
  split
  · exact congrArg (fun x => (x, s.keeper)) (advance_core _ _)
  · rfl

theorem nowDurable_core (n : SlotId) : (s.nowDurable n).coreKept = s.coreKept := by
  unfold State.nowDurable
  dsimp only
  split
  · exact (allApplied_core _ n).trans rfl
  · rfl

theorem fenceDurable_core : s.fenceDurable.coreKept = s.coreKept := by
  refine foldl_keeps State.coreKept (fun u n => ?_) _ s
  split
  · exact (nowDurable_core _ n).trans rfl
  · rfl

theorem writeSupers_core : s.writeSupers.coreKept = s.coreKept := by
  unfold State.writeSupers
  refine foldl_keeps State.coreKept (fun _ _ => ?_) _ s
  rfl

theorem takeMirrors_core (f : Nat) : (State.takeMirrors f s).lehr.drawn = s.lehr.drawn ∧ (State.takeMirrors f s).keeper.step = s.keeper.step := by
  induction f generalizing s with
  | zero => exact ⟨rfl, rfl⟩
  | succ f ih =>
    rw [State.takeMirrors]
    split
    · next q rest _ =>
      split
      · exact ⟨rfl, rfl⟩
      · obtain ⟨hd, hk⟩ := ih (State.writeMirror { s with lehr := { s.lehr with mirrorIn := rest } } q.1 q.2)
        obtain ⟨a, ht⟩ := writeMirror_told { s with lehr := { s.lehr with mirrorIn := rest } } q.1 q.2
        refine ⟨hd.trans (by rw [ht.lehr]; rfl), hk.trans ?_⟩
        exact watermarks_step _
    · exact ⟨rfl, rfl⟩

theorem mirrorsIn_none (h : s.lehr.mirrorIn = []) : s.mirrorsIn = s := by
  unfold State.mirrorsIn
  rw [h]
  rfl

end core

theorem freePlaces_of_room {s : State} (h : s.zoneRoom) : s.freePlaces ≠ [] := by
  obtain ⟨p, hp, hup, hopen, hroom⟩ := h
  obtain ⟨i, hi⟩ := Option.isSome_iff_exists.1 hroom
  refine List.ne_nil_of_mem (a := (p, i)) (List.mem_filterMap.2 ⟨p, List.mem_filter.2 ⟨List.mem_map.2 ?_, by rw [hup, hopen]; rfl⟩, by rw [hi]; rfl⟩)
  exact ⟨(p + 16 - s.lehr.nextPort % 16) % 16, List.mem_range.2 (Nat.mod_lt _ (by decide)), by omega⟩

/-! ### The fence (16 R530, Table 16-11) -/

section fence
variable {s : State}

theorem fence_sets (ok : Bool) (h1 : s.lehr.fenced = false) (h2 : s.lehrFailed = true) : Answers (.lehrFence ok) s fun t =>
    t.lehr = { s.lehr with failed := true, fenced := true } := by
  have hgo : exec (.lehrFence ok) s = .next (if (s.lehr.failed || s.lehr.drstop) = true then { s with lehr := { s.lehr with failed := true, fenced := true } }
      else State.report { s with lehr := { s.lehr with failed := true, fenced := true } } (lehrRecord s 4 s.lehr.wp.toNat)) :=
    congrArg Host.Outcome.next ((if_pos (by rw [h1]; rfl)).trans (if_pos h2))
  refine ⟨_, hgo, ?_⟩
  beta_reduce
  split <;> rfl

theorem exec_fence_full (ok : Bool) (h1 : s.lehr.fenced = true) (h2 : s.freePlaces = []) : exec (.lehrFence ok) s = .next s :=
  congrArg Host.Outcome.next ((if_neg (by rw [h1]; decide)).trans (if_pos (by rw [h2]; rfl)))

/-- The fence records stand in their zones, and every drawn GCS is durable. -/
def State.fenceRecorded (s : State) : State :=
  (s.lehr.settleWrites.fenceRecords.foldl (State.placeRecord 2) { s with lehr := s.lehr.settleWrites }).fenceDurable

/-- The partner's entries that were being written are acknowledged. -/
def State.fenceAcked (s : State) : State :=
  (s.lehr.writes.filterMap (·.mirror)).foldl (fun (t : State) a => t.emit (.mirrorAck a.1 a.2)) s.fenceRecorded

/-- A hedge's entries of the ring are gone. -/
def State.unuse (t : State) (h : HedgeId) : State := if (t.hedge h).used = 0 then t else t.modHedge h fun g => { g with used := 0 }

/-- No hedge has entries of the ring, and the superblocks are written. -/
def State.fenceWritten (s : State) : State := State.writeSupers ((List.finRange 64).foldl State.unuse s.fenceAcked)

theorem fenceWritten_core : s.fenceWritten.coreKept = s.coreKept := by
  have h0 := foldl_keeps State.coreKept (fun u r => placeRecord_core u 2 r) s.lehr.settleWrites.fenceRecords { s with lehr := s.lehr.settleWrites }
  have h1 : s.fenceRecorded.coreKept = s.coreKept := (fenceDurable_core _).trans (h0.trans rfl)
  have h2 : s.fenceAcked.coreKept = s.coreKept := (foldl_keeps State.coreKept (f := fun (t : State) (a : LinkId × Word64) => t.emit (.mirrorAck a.1 a.2))
    (fun _ _ => rfl) (s.lehr.writes.filterMap fun w : LWrite => w.mirror) _).trans h1
  refine (writeSupers_core _).trans ((foldl_keeps State.coreKept (fun u h => ?_) (List.finRange 64) _).trans h2)
  unfold State.unuse
  split <;> rfl

/-- The controller that the fence leaves, from the state `v` with its records written: an empty ring, every drawn GCS durable. -/
def State.fencedLehr (s v : State) : Lehr :=
  { v.lehr.reopen (s.lehr.segSeq + 2) with gcsdur := s.lehr.drawn, full := false, low := false, drstop := false }

/-- The fence was passed less than a second ago. -/
def State.again (s : State) : Bool := match s.lehr.reopened with
  | some t => decide (s.aoTick.toNat < t + 1000000)
  | none => false

/-- A recovered controller runs on. -/
def State.fenceRuns (s v : State) : State :=
  { v with lehr := { s.fencedLehr v with failed := false, fenced := false, reopened := some s.aoTick.toNat } }

/-- A controller whose array does not verify, or that failed a moment ago: the device is FAULTED. -/
def State.fenceStops (s v : State) : State := State.stateEvents (State.faulted { v with lehr := s.fencedLehr v })

/-- Every transaction that has not drawn ends. -/
def State.allEnd (s : State) : State := s.busySlots.foldl (fun (t : State) n => t.endTxn n 0x0B 0) s

theorem exec_fence (ok : Bool) (h1 : s.lehr.fenced = true) (h2 : s.freePlaces ≠ []) : exec (.lehrFence ok) s =
    .next (if (ok && !s.again) = true then (s.fenceRuns s.fenceWritten).watermarks.mirrorsIn else (s.fenceStops s.fenceWritten).allEnd) := by
  show execLehrFence ok s = _
  unfold execLehrFence
  extract_lets l f1 acks l1 s1 s2 s3 again lr l4 s4
  clear_value f1
  have hl : l = s.lehr := rfl
  clear_value l
  subst hl
  have hl1 : l1 = s.lehr.settleWrites := rfl
  clear_value l1
  subst hl1
  have hs1 : s1 = s.fenceRecorded := rfl
  have hs2 : s2 = s.fenceAcked := congrArg (List.foldl (fun (t : State) (a : LinkId × Word64) => t.emit (.mirrorAck a.1 a.2)) · acks) hs1
  have hs3 : s3 = s.fenceWritten := congrArg (fun v => State.writeSupers ((List.finRange 64).foldl State.unuse v)) hs2
  rw [if_neg (by show ¬ (!s.lehr.fenced) = true; rw [h1]; decide), if_neg (by simp [h2])]
  rw [← hs3]
  clear hs1 hs2 hs3
  clear_value s3
  have hl4 : l4 = s.fencedLehr s3 := rfl
  have hs4 : s4 = s.fenceStops s3 := congrArg (fun v : Lehr => State.stateEvents (State.faulted { s3 with lehr := v })) hl4
  rw [hs4]
  rfl

theorem fence_recovers (h1 : s.lehr.fenced = true) (hroom : s.zoneRoom) (hre : ∀ x, s.lehr.reopened = some x → x + 1000000 ≤ s.aoTick.toNat)
    (hin : s.lehr.mirrorIn = []) : Answers (.lehrFence true) s fun t =>
      t.lehr.fenced = false ∧ t.lehr.failed = false ∧ t.lehr.gcsdur = s.lehr.drawn ∧ t.lehr.drawn = s.lehr.drawn ∧ t.lehr.inRing = 0 ∧
      t.lehr.wp = 0 ∧ t.lehr.queue = [] ∧ t.lehr.segSeq = s.lehr.segSeq + 2 ∧ t.lehr.reopened = some s.aoTick.toNat ∧
      (s.lehr.waiting = [] → t.lehr.full = false) := by
  have hagain : s.again = false := by
    unfold State.again
    split
    · next t ht => exact decide_eq_false (Nat.not_lt.2 (hre t ht))
    · rfl
  have hgo : exec (.lehrFence true) s = .next (s.fenceRuns s.fenceWritten).watermarks.mirrorsIn := by
    rw [exec_fence true h1 (freePlaces_of_room hroom), hagain, if_pos (by rfl)]
  refine ⟨_, hgo, ?_⟩
  have hkept := fenceWritten_core (s := s)
  generalize s.fenceWritten = v at hkept ⊢
  have hcore : v.lehr.core = s.lehr.core := (congrArg Prod.fst hkept :)
  have hdrawn : v.lehr.drawn = s.lehr.drawn := congrArg (·.1) hcore
  have hmir : v.lehr.mirrorIn = s.lehr.mirrorIn := congrArg (·.2.1) hcore
  have hwait : v.lehr.waiting = s.lehr.waiting := congrArg (·.2.2.1) hcore
  have hul : (s.fenceRuns v).lehr = { s.fencedLehr v with failed := false, fenced := false, reopened := some s.aoTick.toNat } := rfl
  generalize s.fenceRuns v = u at hul ⊢
  have hw := (watermarks_told u).lehr
  have hnone : u.watermarks.lehr.mirrorIn = [] := by
    rw [hw, hul]
    exact hmir.trans hin
  beta_reduce
  rw [mirrorsIn_none _ hnone]
  refine ⟨?_, ?_, ?_, ?_, ?_, ?_, ?_, ?_, ?_, fun hwt => watermarks_notFull u (by rw [hul]; exact hwait.trans hwt)⟩
  all_goals rw [hw, hul]
  case refine_4 => exact hdrawn
  all_goals rfl

theorem stateEvents_lehr (u : State) : u.stateEvents.lehr = u.lehr ∧ u.stateEvents.devstat = u.devstat := by
  have h := foldl_keeps (fun t : State => (t.lehr, t.devstat)) (f := fun (t : State) h => match (t.hedge h).fn with
      | some f => t.postEvent f { kind := 8, a := 0, b := 0, c := BitVec.ofNat 32 (t.fn f).state.code, d := 0 }
      | none => t) (fun t h => by
    split
    · next f _ =>
      obtain ⟨q, o, hq⟩ := postEvent_rest t f { kind := 8, a := 0, b := 0, c := BitVec.ofNat 32 (t.fn f).state.code, d := 0 }
      rw [hq]
    · rfl) u.openHedges u
  exact ⟨congrArg Prod.fst h, congrArg Prod.snd h⟩

/-- An end of a transaction touches of the controller who waits, and FULL. -/
theorem endTxn_lehr (u : State) (n : SlotId) (st : Byte) : (u.endTxn n st 0).lehr.fenced = u.lehr.fenced ∧ (u.endTxn n st 0).lehr.gcsdur = u.lehr.gcsdur ∧
    (u.endTxn n st 0).devstat = u.devstat := by
  unfold State.endTxn
  dsimp only
  split <;> exact ⟨rfl, rfl, rfl⟩

theorem fence_fails (h1 : s.lehr.fenced = true) (hroom : s.zoneRoom) : Answers (.lehrFence false) s fun t =>
    t.devstat = 3 ∧ t.lehr.fenced = true ∧ t.lehr.gcsdur = s.lehr.drawn := by
  have hgo : exec (.lehrFence false) s = .next (s.fenceStops s.fenceWritten).allEnd := by
    rw [exec_fence false h1 (freePlaces_of_room hroom), if_neg (by simp)]
  have hkept := fenceWritten_core (s := s)
  generalize s.fenceWritten = v at hkept hgo
  have hcore : v.lehr.core = s.lehr.core := (congrArg Prod.fst hkept :)
  have hfenced : v.lehr.fenced = true := (congrArg (·.2.2.2) hcore).trans h1
  obtain ⟨q, hq⟩ := faulted_eq { v with lehr := s.fencedLehr v }
  obtain ⟨hl, hd⟩ := stateEvents_lehr (State.faulted { v with lehr := s.fencedLehr v })
  rw [hq] at hl hd
  have h := foldl_keeps (fun t : State => (t.lehr.fenced, t.lehr.gcsdur, t.devstat)) (f := fun (t : State) n => t.endTxn n 0x0B 0)
    (fun t n => by
      obtain ⟨e1, e2, e3⟩ := endTxn_lehr t n 0x0B
      exact Prod.ext e1 (Prod.ext e2 e3)) (s.fenceStops v).busySlots (s.fenceStops v)
  refine ⟨_, hgo, ?_⟩
  have hstop : (s.fenceStops v).lehr = s.fencedLehr v ∧ (s.fenceStops v).devstat = 3 := ⟨by rw [State.fenceStops, hq, hl], by rw [State.fenceStops, hq, hd]⟩
  unfold State.allEnd
  generalize s.fenceStops v = w at h hstop
  have hf := congrArg (·.1) h
  have hg := congrArg (·.2.1) h
  have hs := congrArg (·.2.2) h
  dsimp only at hf hg hs
  exact ⟨hs.trans hstop.2, hf.trans ((congrArg Lehr.fenced hstop.1).trans hfenced), hg.trans (congrArg Lehr.gcsdur hstop.1)⟩

end fence

/-! ### Holes (16 R528, R529) -/

section hole
variable {s : State} {pos : Fin 8192} (hrun : s.lehr.ringRun.contains pos.val = true) (hval : (tget LEntry.empty s.lehr.ring pos.val).valid = true)
include hrun hval

theorem exec_hole : exec (.journalHole pos) s = .next (match s.lehr.pairOn.filter fun _ => !s.lehr.asked.contains pos.val with
    | some k => ({ s with lehr := { s.lehr with asked := s.lehr.asked ++ [pos.val] } }).emit (.copyRequest k (s.lehr.seqAt pos.val) (some (pos.val % 1024)))
    | none => ({ s with lehr := { s.lehr with
        asked := s.lehr.asked.erase pos.val, ring := tmod LEntry.empty s.lehr.ring pos.val fun x => { x with lost := true }
        holes := s.lehr.holes ++ [s.lehr.holeTop pos.val] } }).report (holeRecord s pos.val (s.lehr.holeTop pos.val))) :=
  congrArg Host.Outcome.next ((if_neg (by rw [hrun, hval]; decide)).trans rfl)

theorem hole_asks {k : LinkId} (hk : s.lehr.pairOn = some k) (hno : pos.val ∉ s.lehr.asked) : Answers (.journalHole pos) s fun t =>
    t.lehr = { s.lehr with asked := s.lehr.asked ++ [pos.val] } ∧
    t.out = s.out ++ [.copyRequest k (s.lehr.seqAt pos.val) (some (pos.val % 1024))] := by
  have hsome : (s.lehr.pairOn.filter fun _ => !s.lehr.asked.contains pos.val) = some k := by
    rw [hk]
    exact Option.filter_some_pos (by simp [hno])
  refine ⟨_, exec_hole hrun hval, ?_⟩
  rw [hsome]
  exact ⟨rfl, rfl⟩

theorem hole_opens (h : s.lehr.pairOn = none ∨ pos.val ∈ s.lehr.asked) : Answers (.journalHole pos) s fun t =>
    (tget LEntry.empty t.lehr.ring pos.val).lost = true ∧
    t.lehr.holes = s.lehr.holes ++ [s.lehr.holeTop pos.val] ∧ t.lehr.asked = s.lehr.asked.erase pos.val ∧
    ∃ r, t.errq = s.errq ++ [r] ∧ r.cls = 0x0D ∧ r.sev = 2 := by
  have hnone : (s.lehr.pairOn.filter fun _ => !s.lehr.asked.contains pos.val) = none := by
    rcases h with h | h
    · rw [h]
      rfl
    · refine Option.filter_eq_none_iff.2 fun _ _ => ?_
      simp [h]
  refine ⟨_, exec_hole hrun hval, ?_⟩
  rw [hnone]
  exact ⟨congrArg LEntry.lost (tget_tset_same LEntry.empty s.lehr.ring pos.val _), rfl, rfl, _, rfl, rfl, rfl⟩

end hole

/-! ### Replay (11 R372 to R374) -/

section replay
variable {s : State} (h1 : s.keeper.step = 10) (h2 : s.devstat = 1) (h3 : s.keeper.failLatched = false)

/-- C and S0 of a superblock. -/
def superC (sb : Option (Word64 × Nat)) : Word64 := sb.elim 0 (·.1)
def superS0 (sb : Option (Word64 × Nat)) : Nat := sb.elim 0 (·.2)

/-- The controller after a replay up to `d`. -/
def Lehr.replayed (l : Lehr) (d c : Word64) (s0 : Nat) : Lehr := { l with drawn := d, applied := d, appliedSet := [], gcsdur := d, ckpt := c, s0 := s0 }

/-- The state after a replay up to `r`. -/
def State.replayed (s : State) (r : Rp) (c : Word64) (s0 : Nat) : State :=
  let s1 := r.out.foldl State.replayDelta s.rebuildTables
  { s1 with lehr := s1.lehr.replayed (BitVec.ofNat 64 r.last) c s0, keeper := { s1.keeper with step := 11 } }

/-- Where nothing has been written there is nothing to replay. -/
theorem nothing_fails (he : s.lehr.supers = []) (hr : s.lehr.records = []) (hi : s.lehr.inRing = 0) {p : Nat} (hp : p < 16) (hup : s.portUp p = true) :
    s.bestSuper = none ∧ s.askingFor 0 = none ∧ s.replayFails none (s.replayStream 0 0) = none := by
  have hring : s.lehr.ringRun = [] := by
    unfold Lehr.ringRun
    rw [hi]
    rfl
  have hrun : s.lehr.validRun = [] := by
    unfold Lehr.validRun
    rw [hring]
    rfl
  have hholes : s.lehr.runHoles = [] := by
    unfold Lehr.runHoles
    rw [hrun]
    rfl
  have hun : s.unread 0 = [] := by
    unfold State.unread
    rw [hr]
    rfl
  have hstream : s.stream 0 = [] := by
    unfold State.stream
    dsimp only
    rw [hr, hrun]
    rfl
  refine ⟨?_, ?_, ?_⟩
  · unfold State.bestSuper
    rw [he]
    have hnil : (((List.range 16).filter s.portUp).flatMap fun p =>
        let z := tget ZoneSuper.none ([] : Tab ZoneSuper) p
        z.a.toList ++ z.b.toList) = [] := List.flatMap_eq_nil_iff.2 fun _ _ => rfl
    rw [hnil]
    rfl
  · unfold State.askingFor
    rw [hun, hholes]
    rfl
  · have hany : (List.range 16).any s.portUp = true := List.any_eq_true.2 ⟨p, List.mem_range.2 hp, hup⟩
    have hnever : s.lehr.neverZoned = true := by
      unfold Lehr.neverZoned
      rw [he, hr, hrun]
      rfl
    unfold State.replayFails
    dsimp only
    rw [hany, hnever, show (Option.elim (none : Option (Word64 × Nat)) 0 fun x => x.2) = 0 from rfl, hun, hholes, State.replayStream, hstream]
    rfl

include h1 h2 h3

theorem exec_replay : exec .replay s = .next (match s.askingFor (superS0 s.bestSuper) with
    | some k => s.askPartner k (superS0 s.bestSuper)
    | none => match s.replayFails s.bestSuper (s.replayStream (superC s.bestSuper) (superS0 s.bestSuper)) with
      | some g => s.faulted.report (replayRecord s g)
      | none => s.replayed (s.replayStream (superC s.bestSuper) (superS0 s.bestSuper)) (superC s.bestSuper) (superS0 s.bestSuper)) :=
  congrArg Host.Outcome.next (if_pos ⟨h1, h2, by rw [h3]; rfl⟩)

theorem replay_goes (h : (s.askingFor (superS0 s.bestSuper) = none ∧
      s.replayFails s.bestSuper (s.replayStream (superC s.bestSuper) (superS0 s.bestSuper)) = none) ∨
      (s.lehr.supers = [] ∧ s.lehr.records = [] ∧ s.lehr.inRing = 0 ∧ ∃ p, p < 16 ∧ s.portUp p = true)) : Answers .replay s fun t =>
    let d : Word64 := BitVec.ofNat 64 (s.replayStream (superC s.bestSuper) (superS0 s.bestSuper)).last
    t.lehr.drawn = d ∧ t.lehr.applied = d ∧ t.lehr.gcsdur = d ∧ t.lehr.ckpt = superC s.bestSuper ∧ t.lehr.s0 = superS0 s.bestSuper ∧ t.keeper.step = 11 := by
  have hno : s.askingFor (superS0 s.bestSuper) = none ∧
      s.replayFails s.bestSuper (s.replayStream (superC s.bestSuper) (superS0 s.bestSuper)) = none := by
    refine h.elim id fun ⟨he, hr, hi, p, hp, hup⟩ => ?_
    obtain ⟨hb, ha, hf⟩ := nothing_fails he hr hi hp hup
    rw [hb]
    exact ⟨ha, hf⟩
  refine ⟨s.replayed (s.replayStream (superC s.bestSuper) (superS0 s.bestSuper)) (superC s.bestSuper) (superS0 s.bestSuper), ?_, rfl, rfl, rfl, rfl, rfl, rfl⟩
  rw [exec_replay h1 h2 h3, hno.1]
  dsimp only
  rw [hno.2]

/-- The partner is asked for every record that no zone read holds. -/
theorem replay_asks {k : LinkId} (hk : s.askingFor (superS0 s.bestSuper) = some k) (hn : s.lehr.askedAt = none) : Answers .replay s fun t =>
    t.lehr.askedAt = some s.aoTick.toNat ∧ t.keeper = s.keeper ∧ ∀ x ∈ s.unread (superS0 s.bestSuper), Out.copyRequest k x.seq none ∈ t.out := by
  refine ⟨s.askPartner k (superS0 s.bestSuper), by rw [exec_replay h1 h2 h3, hk], ?_⟩
  unfold State.askPartner
  dsimp only
  rw [hn, if_neg (by decide), foldl_emit _ (fun r : ZoneRec => Out.copyRequest k r.seq none), foldl_emit _ (fun p : Nat =>
    Out.copyRequest k (s.lehr.seqAt p) (some (p % 1024)))]
  exact ⟨rfl, rfl, fun x hx => List.mem_append_left _ (List.mem_append_right _ (List.mem_map_of_mem hx))⟩

theorem replay_fails {g : Nat} (ha : s.askingFor (superS0 s.bestSuper) = none)
    (hf : s.replayFails s.bestSuper (s.replayStream (superC s.bestSuper) (superS0 s.bestSuper)) = some g) : Answers .replay s fun t =>
    t.devstat = 3 ∧ t.keeper.step = 10 ∧ ∃ e, t.errq = s.errq ++ [e] ∧ e.cls = 0x0C ∧ e.detail = bytesOfNat 8 g := by
  obtain ⟨q, hq⟩ := faulted_eq s
  refine ⟨s.faulted.report (replayRecord s g), ?_, by rw [hq]; rfl, by rw [hq]; exact h1, replayRecord s g, by rw [hq]; rfl, rfl, rfl⟩
  rw [exec_replay h1 h2 h3, ha]
  dsimp only
  rw [hf]

end replay

/-! ### Reopening (17 R550) -/

section reopen
variable {s : State} {fails : List (Fin 4)} (h1 : s.keeper.step = 11) (h2 : s.devstat = 1) (h3 : s.keeper.failLatched = false)

/-- The segments of the ring that no zone holds. -/
def Lehr.unwritten (l : Lehr) : List (Nat × Nat) :=
  (Lehr.ringSegs { l with inRing := l.validRun.length }).filter fun q => !(l.records.any fun (r : ZoneRec) => r.seq == q.1 && !r.partial_)

/-- The records of these segments stand in their zones. -/
def State.rewritten (s : State) (fails : List (Fin 4)) : State :=
  let rs := s.lehr.unwritten.map fun q =>
    let x := s.lehr.ringRecord q
    { x with entries := x.entries.takeWhile fun (e : LEntry) => e.valid || e.lost }
  rs.zipIdx.foldl (fun (t : State) q => t.placeRetried q.1 (fails.getD q.2 0).val) s

/-- The ring that opens empty. -/
def State.ringReopened (s : State) (fails : List (Fin 4)) : State :=
  State.mirrorsIn { s.rewritten fails with
    lehr := (s.rewritten fails).lehr.reopen (s.lehr.segSeq + 1), keeper := { (s.rewritten fails).keeper with step := 12 } }

theorem rewritten_core : (s.rewritten fails).coreKept = s.coreKept :=
  foldl_keeps State.coreKept (fun u (q : ZoneRec × Nat) => placeRetried_core u q.1 (fails.getD q.2 0).val) _ s

include h1 h2 h3

theorem exec_reopen : exec (.ringReopen fails) s = .next
    (if (!s.lehr.unwritten.isEmpty && ((fails.take s.lehr.unwritten.length).contains 3 || s.freePlaces.isEmpty)) = true then
      s.faulted.report (lehrRecord s 5 s.lehr.rp.toNat)
    else if s.lehr.pairEn then s.lehr.ringSegs.foldl (fun (t : State) q =>
        t.emit (.reclaimed ⟨s.lehr.link.toNat, by have := s.lehr.link.isLt; omega⟩ q.1)) (s.ringReopened fails)
      else s.ringReopened fails) :=
  congrArg Host.Outcome.next (if_pos ⟨h1, h2, by rw [h3]; rfl⟩)

theorem reopen_opens (h : s.lehr.inRing = 0 ∨ (s.zoneRoom ∧ 3 ∉ fails)) : Answers (.ringReopen fails) s fun t =>
    t.keeper.step = 12 ∧ t.lehr.drawn = s.lehr.drawn ∧
    (s.lehr.mirrorIn = [] → t.lehr.ring = [] ∧ t.lehr.wp = 0 ∧ t.lehr.inRing = 0 ∧ t.lehr.segSeq = s.lehr.segSeq + 1) := by
  have hgo : (!s.lehr.unwritten.isEmpty && ((fails.take s.lehr.unwritten.length).contains 3 || s.freePlaces.isEmpty)) = false := by
    rcases h with h | ⟨hroom, hno⟩
    · have hrun : s.lehr.validRun.length = 0 := by
        unfold Lehr.validRun Lehr.ringRun
        rw [h]
        rfl
      have hnil : s.lehr.unwritten = [] := by
        unfold Lehr.unwritten
        rw [hrun]
        unfold Lehr.ringSegs
        dsimp only
        rw [show (0 + 1023) / 1024 = 0 from rfl]
        rfl
      rw [hnil]
      rfl
    · have hmem : (fails.take s.lehr.unwritten.length).contains 3 = false :=
        Bool.eq_false_iff.2 fun hc => hno (List.mem_of_mem_take (List.contains_iff_mem.1 hc))
      rw [hmem, List.isEmpty_eq_false_iff.2 (freePlaces_of_room hroom), Bool.or_false, Bool.and_false]
  have hcore : (s.rewritten fails).coreKept = s.coreKept := rewritten_core
  have hdrawn : (s.rewritten fails).lehr.drawn = s.lehr.drawn := congrArg (fun x => x.1.1) hcore
  have hmir : (s.rewritten fails).lehr.mirrorIn = s.lehr.mirrorIn := congrArg (fun x => x.1.2.1) hcore
  have hend : (s.ringReopened fails).keeper.step = 12 ∧ (s.ringReopened fails).lehr.drawn = s.lehr.drawn ∧
      (s.lehr.mirrorIn = [] → (s.ringReopened fails).lehr.ring = [] ∧ (s.ringReopened fails).lehr.wp = 0 ∧ (s.ringReopened fails).lehr.inRing = 0 ∧
        (s.ringReopened fails).lehr.segSeq = s.lehr.segSeq + 1) := by
    unfold State.ringReopened
    generalize hu : ({ s.rewritten fails with
      lehr := (s.rewritten fails).lehr.reopen (s.lehr.segSeq + 1), keeper := { (s.rewritten fails).keeper with step := 12 } } : State) = u
    have hl : u.lehr = (s.rewritten fails).lehr.reopen (s.lehr.segSeq + 1) := by rw [← hu]
    obtain ⟨hd, hk⟩ := takeMirrors_core u u.lehr.mirrorIn.length
    refine ⟨hk.trans (by rw [← hu]), hd.trans (by rw [hl]; exact hdrawn), fun hin => ?_⟩
    rw [mirrorsIn_none u (by rw [hl]; exact hmir.trans hin), hl]
    exact ⟨rfl, rfl, rfl, rfl⟩
  refine ⟨_, (exec_reopen h1 h2 h3).trans (congrArg Host.Outcome.next (if_neg (by rw [hgo]; exact Bool.false_ne_true))), ?_⟩
  beta_reduce
  split
  · rw [foldl_emit _ (fun q : Nat × Nat => Out.reclaimed ⟨s.lehr.link.toNat, by have := s.lehr.link.isLt; omega⟩ q.1)]
    exact hend
  · exact hend

theorem reopen_fails (hf : fails.head? = some 3) (hr : s.lehr.records = []) (hv : s.lehr.validRun ≠ []) : Answers (.ringReopen fails) s fun t =>
    t.devstat = 3 ∧ t.keeper.step = 11 := by
  have hpos : 0 < s.lehr.validRun.length := List.length_pos_iff.2 hv
  have hlen : 0 < s.lehr.unwritten.length := by
    have hall : s.lehr.unwritten = Lehr.ringSegs { s.lehr with inRing := s.lehr.validRun.length } := List.filter_eq_self.2 fun q _ => by
      rw [hr]
      rfl
    rw [hall]
    show 0 < (List.map _ (List.range ((s.lehr.validRun.length + 1023) / 1024))).length
    rw [List.length_map, List.length_range]
    omega
  have hmem : (fails.take s.lehr.unwritten.length).contains 3 = true := by
    cases fails with
    | nil => exact absurd hf (by simp)
    | cons x l =>
      obtain rfl : x = 3 := Option.some.inj hf
      obtain ⟨n, hn⟩ := Nat.exists_eq_succ_of_ne_zero (Nat.ne_of_gt hlen)
      rw [hn]
      exact List.contains_iff_mem.2 (List.mem_cons_self ..)
  obtain ⟨q, hq⟩ := faulted_eq s
  refine ⟨_, (exec_reopen h1 h2 h3).trans (congrArg Host.Outcome.next (if_pos ?_)), by rw [hq]; rfl, by rw [hq]; exact h1⟩
  rw [hmem, List.isEmpty_eq_false_iff.2 (List.length_pos_iff.1 hlen)]
  rfl

end reopen

/-- Settles O36: the fence and its recovery, a hole, the replay and the reopening of the ring, each by its own branch of the command. -/
theorem theLehrRecovers : Obligations.TheLehrRecovers := by
  unfold Obligations.TheLehrRecovers
  intro s
  refine ⟨fence_sets, fun h1 hroom => ⟨fun hre hin => fence_recovers h1 hroom hre hin, fence_fails h1 hroom⟩, exec_fence_full, fun pos hrun hval =>
    ⟨fun k hk hno => hole_asks hrun hval hk hno, hole_opens hrun hval⟩, fun h1 h2 h3 => ⟨replay_goes h1 h2 h3, fun k hk hn => replay_asks h1 h2 h3 hk hn,
      fun g ha hf => replay_fails h1 h2 h3 ha hf⟩, fun fails h1 h2 h3 => ⟨reopen_opens h1 h2 h3, reopen_fails h1 h2 h3⟩⟩

end Sys2Proof.Machine
end

section
/-! O15: counts that elapse, the store buffer's drain, and the events that a context takes (03 R66, R109, 04 R139, 08 R244 to R250, R262, R270). -/

namespace Sys2Proof.Machine

/-! ### One context of an engine -/

/-- Of engine `e` nothing differs in `f` but context `n`, the iterative units, and contexts that were HELD for one of them. -/
structure Engine.OnlyCtx (e f : Engine) (n : CtxId) : Prop where
  rest : f = { e with ctxs := f.ctxs, divider := f.divider, fdiv := f.fdiv, ucode := f.ucode }
  others : ∀ m, m ≠ n → f.ctx m = e.ctx m ∨
    ((e.ctx m).state = .held ∧ f.ctx m = { e.ctx m with state := .ready, heldOn := none } ∧ ∃ u, f.unitOf u = some m)

theorem Engine.setUnit_unitOf (e : Engine) (u v : IterUnit) (x : Option CtxId) : (e.setUnit u x).unitOf v = if v = u then x else e.unitOf v := by
  cases u <;> cases v <;> rfl

namespace Engine.OnlyCtx
variable {e f : Engine} {n : CtxId}

theorem refl (e : Engine) (n : CtxId) : e.OnlyCtx e n := ⟨rfl, fun _ _ => .inl rfl⟩

theorem setCtx (h : e.OnlyCtx f n) (c : Ctx) : e.OnlyCtx (f.setCtx n c) n := by
  refine ⟨(congrArg (fun g : Engine => { g with ctxs := tset Ctx.reset f.ctxs n.val c }) h.rest :), fun m hm => ?_⟩
  rw [Engine.setCtx_ctx_ne _ _ _ _ hm]
  exact h.others m hm

/-- A unit that the context gives up goes to another context, or to none (03 R69). -/
theorem freeUnit (h : e.OnlyCtx f n) (u : IterUnit) : e.OnlyCtx (f.freeUnit n u) n := by
  obtain ⟨cs, a, b, c, hrest⟩ := f.freeUnit_rest n u
  refine ⟨by rw [hrest]; conv_lhs => rw [h.rest], fun m hm => ?_⟩
  unfold Engine.freeUnit
  split
  · next hu =>
    split
    · next i hi =>
      have hheld := List.find?_some hi
      simp only [Bool.and_eq_true, beq_iff_eq] at hheld
      by_cases hmi : m = i
      · subst hmi
        rw [Engine.setCtx_ctx_same]
        rcases h.others m hm with hs | ⟨-, hs, -⟩
        · refine .inr ⟨hs ▸ hheld.1, by rw [hs], u, ?_⟩
          exact (Engine.setUnit_unitOf f u u (some m)).trans (if_pos rfl)
        · rw [hs] at hheld
          exact absurd hheld.1 nofun
      · rw [Engine.setCtx_ctx_ne _ _ _ _ hmi, Engine.setUnit_ctx]
        refine (h.others m hm).imp_right fun ⟨h1, h2, v, hv⟩ => ⟨h1, h2, v, ?_⟩
        have hvu : v ≠ u := by rintro rfl; exact hm (Option.some.inj (hv.symm.trans hu))
        exact (Engine.setUnit_unitOf f u v (some i)).trans ((if_neg hvu).trans hv)
    · rw [Engine.setUnit_ctx]
      refine (h.others m hm).imp_right fun ⟨h1, h2, v, hv⟩ => ⟨h1, h2, v, ?_⟩
      have hvu : v ≠ u := by rintro rfl; exact hm (Option.some.inj (hv.symm.trans hu))
      exact (Engine.setUnit_unitOf f u v none).trans ((if_neg hvu).trans hv)
  · exact h.others m hm

theorem freeUnits (h : e.OnlyCtx f n) : e.OnlyCtx (f.freeUnits n) n := ((h.freeUnit _).freeUnit _).freeUnit _

/-- An abandoned microcode execution (08 R244). -/
theorem abandon (h : e.OnlyCtx f n) : e.OnlyCtx (f.abandon n) n := by
  unfold Engine.abandon
  dsimp only
  split
  · exact h
  · split
    · exact (h.setCtx _).freeUnit _
    · exact h

theorem state {s : State} {i : EngId} {g : Engine} (h : (s.eng i).OnlyCtx g n) : OnlyContext s (s.setEng i g) i n := by
  have he := State.setEng_eng_same s i g
  refine ⟨⟨rfl, fun k hk => State.setEng_eng_ne _ _ _ _ hk⟩, ?_, ?_⟩
  · rw [he]
    exact h.rest
  · rw [he]
    exact h.others

end Engine.OnlyCtx

@[simp] theorem Engine.freeUnits_cell (e : Engine) (n : CtxId) (k : Nat) : (e.freeUnits n).cell k = e.cell k := by
  obtain ⟨_, _, _, _, h⟩ := e.freeUnits_rest n
  rw [h]
  rfl

/-! ### BUSY counts -/

/-- The context once the write of its read-modify-write has come and its entry window has ended. -/
def Ctx.windowed (x : Ctx) : Ctx := { x with rmw := none, psw := { x.psw with eh := x.psw.eh && x.ehLeft != 0 } }

theorem ehBound_eq (x : Ctx) : x.ehBound = { x with psw := { x.psw with eh := x.psw.eh && x.ehLeft != 0 } } := by
  unfold Ctx.ehBound
  split
  · next h =>
    obtain ⟨-, hl⟩ := (Bool.and_eq_true _ _).mp h
    rw [bne, hl, Bool.not_true, Bool.and_false]
  · next h =>
    have hk : (x.psw.eh && x.ehLeft != 0) = x.psw.eh := by
      cases he : x.psw.eh
      · rfl
      · simpa [he] using h
    rw [hk]

/-- The engine with the write of a read-modify-write in its cell. -/
def Engine.rmwDone (g : Engine) : Option (Byte × Nat × Cell) → Engine
  | some (f, a, w) => storeAt g f a w
  | none => g

theorem finishRmw_ctx (g : Engine) (c : CtxId) : (g.finishRmw c).ctx c = { g.ctx c with rmw := none } := by
  unfold Engine.finishRmw
  split
  · next f a w _ =>
    rw [Engine.setCtx_ctx_same, Engine.ctx, (storeAt_keeps g f a w).1]
    rfl
  · next h => rw [← h]

theorem finishRmw_cell (g : Engine) (c : CtxId) (k : Nat) : (g.finishRmw c).cell k = (g.rmwDone (g.ctx c).rmw).cell k := by
  unfold Engine.finishRmw
  cases (g.ctx c).rmw with
  | none => rfl
  | some r => exact Engine.setCtx_cell _ _ _ _

theorem elapsed_state (x : Ctx) : x.elapsed.state ≠ .held := by
  unfold Ctx.elapsed
  dsimp only
  split
  · exact nofun
  · split
    · next a _ => cases a <;> exact nofun
    · exact nofun

section
variable {x : Ctx} {w : Wait}

theorem elapsed_ready (h : x.wait = none) : ({ x with rmw := none } : Ctx).elapsed = { x.windowed with state := .ready, left := 0, undo := none } := by
  unfold Ctx.elapsed
  rw [ehBound_eq]
  dsimp only
  split
  · rfl
  · next hw => exact nomatch h.symm.trans hw

theorem elapsed_waits (h : x.wait = some w) (hd : w.done = none) :
    ({ x with rmw := none } : Ctx).elapsed = { x.windowed with state := .wait, left := 0, wdog := 0, undo := none } := by
  unfold Ctx.elapsed
  rw [ehBound_eq]
  dsimp only
  split
  · next hw => exact nomatch h.symm.trans hw
  · next v hv =>
    obtain rfl := Option.some.inj (h.symm.trans hv)
    rw [hd]
    rfl

theorem elapsed_done {a : Arrival} (h : x.wait = some w) (hd : w.done = some a) :
    ({ x with rmw := none } : Ctx).elapsed = { x.windowed.resume a with left := 0, undo := none } := by
  unfold Ctx.elapsed
  rw [ehBound_eq]
  dsimp only
  split
  · next hw => exact nomatch h.symm.trans hw
  · next v hv =>
    obtain rfl := Option.some.inj (h.symm.trans hv)
    rw [hd]
    rfl

end

/-- The engine once a BUSY count has elapsed. -/
def Engine.counted (g : Engine) (c : CtxId) : Engine := ((g.finishRmw c).setCtx c ((g.finishRmw c).ctx c).elapsed).freeUnits c

theorem counted_ctx (g : Engine) (c : CtxId) : (g.counted c).ctx c = ({ g.ctx c with rmw := none } : Ctx).elapsed := by
  unfold Engine.counted
  rw [Engine.freeUnits_ctx_state, Engine.setCtx_ctx_same, finishRmw_ctx]
  rw [Engine.setCtx_ctx_same]
  exact elapsed_state _

section
variable {s : State} {e : EngId} {c : CtxId}

theorem exec_counted (hb : ((s.eng e).ctx c).state = .busy) (he : ((s.eng e).ctx c).ending = false) :
    exec (.busyCountElapsed e c) s = .next (s.setEng e ((s.eng e).counted c)) := by
  show execBusyCountElapsed e c s = _
  unfold execBusyCountElapsed
  dsimp only
  rw [if_neg (by simp [hb]), if_neg (by simp [he])]
  rfl

theorem exec_countEnded (hb : ((s.eng e).ctx c).state = .busy) (he : ((s.eng e).ctx c).ending = true) :
    exec (.busyCountElapsed e c) s = .next ((s.setEng e ((s.eng e).finishRmw c)).freeCtx e c) := by
  show execBusyCountElapsed e c s = _
  unfold execBusyCountElapsed
  dsimp only
  rw [if_neg (by simp [hb]), if_pos he]
  rfl

theorem freeCtx_cell (t : State) (k : Nat) : ((t.freeCtx e c).eng e).cell k = (t.eng e).cell k := by
  have h : (t.freeCtx e c).eng e = ((t.eng e).setCtx c { ((t.eng e).ctx c).freed with heldOn := none }).freeUnits c := State.setEng_eng_same ..
  rw [h, Engine.freeUnits_cell, Engine.setCtx_cell]

/-- Without a write of a read-modify-write nothing but the context and its units changes. -/
theorem counted_only (hr : ((s.eng e).ctx c).rmw = none) : OnlyContext s (s.setEng e ((s.eng e).counted c)) e c := by
  have hnone : (s.eng e).finishRmw c = s.eng e := by
    unfold Engine.finishRmw
    rw [hr]
  refine Engine.OnlyCtx.state (Engine.OnlyCtx.freeUnits ?_)
  rw [hnone]
  exact (Engine.OnlyCtx.refl _ _).setCtx _

theorem counted_cell (g : Engine) (k : Nat) : (g.counted c).cell k = (g.rmwDone (g.ctx c).rmw).cell k := by
  rw [Engine.counted, Engine.freeUnits_cell, Engine.setCtx_cell, finishRmw_cell]

theorem freeCtx_rest (t : State) :
    t.freeCtx e c = { t with engines := (t.freeCtx e c).engines, clus := (t.freeCtx e c).clus, invWait := (t.freeCtx e c).invWait } := rfl

theorem busyCount_ends (hb : ((s.eng e).ctx c).state = .busy) (he : ((s.eng e).ctx c).ending = true) : Answers (.busyCountElapsed e c) s fun t =>
    (∀ k, (t.eng e).cell k = ((s.eng e).rmwDone ((s.eng e).ctx c).rmw).cell k) ∧
    t = { s with engines := t.engines, clus := t.clus, invWait := t.invWait } ∧ ((t.eng e).ctx c).state = .free := by
  refine ⟨_, exec_countEnded hb he, fun k => ?_, (freeCtx_rest _ :), ?_⟩
  · rw [freeCtx_cell, State.setEng_eng_same, finishRmw_cell]
  · exact congrArg Ctx.state (freeCtx_ctx _ e c)

theorem busyCount_resumes (hb : ((s.eng e).ctx c).state = .busy) (he : ((s.eng e).ctx c).ending = false) :
    Answers (.busyCountElapsed e c) s fun t =>
      (∀ k, (t.eng e).cell k = ((s.eng e).rmwDone ((s.eng e).ctx c).rmw).cell k) ∧ (((s.eng e).ctx c).rmw = none → OnlyContext s t e c) ∧
      t = { s with engines := t.engines, clus := t.clus, invWait := t.invWait } ∧
      (t.eng e).ctx c = ({ (s.eng e).ctx c with rmw := none } : Ctx).elapsed := by
  have heng : (s.setEng e ((s.eng e).counted c)).eng e = (s.eng e).counted c := State.setEng_eng_same ..
  refine ⟨_, exec_counted hb he, fun k => ?_, counted_only, rfl, ?_⟩
  · rw [heng, counted_cell]
  · rw [heng, counted_ctx]

/-- What an elapsed count leaves of a context `x` (03 R66, R70, 04 R139, 08 R257, R262). -/
structure Elapses (s t : State) (e : EngId) (c : CtxId) (x : Ctx) : Prop where
  cells : ∀ k, (t.eng e).cell k = ((s.eng e).rmwDone x.rmw).cell k
  only : x.rmw = none → x.ending = false → OnlyContext s t e c
  rest : t = { s with engines := t.engines, clus := t.clus, invWait := t.invWait }
  free : x.ending = true → ((t.eng e).ctx c).state = .free
  ready : x.ending = false → x.wait = none → (t.eng e).ctx c = { x.windowed with state := .ready, left := 0, undo := none }
  waits : ∀ w, x.ending = false → x.wait = some w → w.done = none →
    (t.eng e).ctx c = { x.windowed with state := .wait, left := 0, wdog := 0, undo := none }
  done : ∀ w a, x.ending = false → x.wait = some w → w.done = some a → (t.eng e).ctx c = { x.windowed.resume a with left := 0, undo := none }

theorem busyCount_elapses {x : Ctx} (hx : (s.eng e).ctx c = x) (hb : x.state = .busy) :
    Answers (.busyCountElapsed e c) s fun t => Elapses s t e c x := by
  subst hx
  by_cases he : ((s.eng e).ctx c).ending = true
  · obtain ⟨t, hex, hcells, hrest, hfree⟩ := busyCount_ends hb he
    have hnot : ∀ {p : Prop}, ((s.eng e).ctx c).ending = false → p := fun h => (Bool.false_ne_true (h.symm.trans he)).elim
    exact ⟨t, hex, hcells, fun _ => hnot, hrest, fun _ => hfree, hnot, fun _ => hnot, fun _ _ => hnot⟩
  · obtain ⟨t, hex, hcells, honly, hrest, hctx⟩ := busyCount_resumes hb (Bool.not_eq_true _ ▸ he)
    exact ⟨t, hex, hcells, fun hr _ => honly hr, hrest, fun h => absurd h he, fun _ hw => hctx.trans (elapsed_ready hw),
      fun _ _ hw hd => hctx.trans (elapsed_waits hw hd), fun _ _ _ hw hd => hctx.trans (elapsed_done hw hd)⟩

theorem storeBuffer_drains : Answers (.storeBufferDrain e) s fun t => OnlyEngine s t e ∧ (t.eng e).sb = (s.eng e).sb.tail ∧
    (t.eng e).ctxs = (s.eng e).ctxs ∧ ∀ k, (t.eng e).cell k = (s.eng e).cell k := by
  have he : (s.setEng e (s.eng e).drainOne).eng e = (s.eng e).drainOne := State.setEng_eng_same ..
  have hk := drainOne_keeps (s.eng e)
  refine ⟨_, rfl, ⟨rfl, fun i hi => State.setEng_eng_ne _ _ _ _ hi⟩, ?_, ?_, fun k => ?_⟩
  · show ((s.setEng e (s.eng e).drainOne).eng e).sb = _
    rw [he]
    unfold Engine.drainOne
    split <;> next h => rw [h]; rfl
  · exact (congrArg Engine.ctxs he).trans hk.1
  · exact (congrArg (fun g : Engine => g.cell k) he).trans (hk.cell not_false)

end

/-! ### Watchdogs and notices -/

section
variable {s : State} {e : EngId} {c : CtxId}

theorem Engine.abandon_events (g : Engine) (n : CtxId) :
    ((g.abandon n).ctx n).wdp = (g.ctx n).wdp ∧ ((g.abandon n).ctx n).notices = (g.ctx n).notices := by
  unfold Engine.abandon
  dsimp only
  split
  · exact ⟨rfl, rfl⟩
  · split
    · next u _ _ =>
      obtain ⟨st, h, hc⟩ := Engine.freeUnit_ctx (g.setCtx n _) n n u.unit
      rw [hc, Engine.setCtx_ctx_same]
      exact ⟨rfl, rfl⟩
    · exact ⟨rfl, rfl⟩

theorem watchdog_pends (hl : ((s.eng e).ctx c).live = true) (h0 : (s.eng e).wdogLimit ≠ 0) (hw : (s.eng e).wdogLimit.toNat < ((s.eng e).ctx c).wdog)
    (hs : ((s.eng e).ctx c).state ≠ .wait) (hp : ((s.eng e).ctx c).wdp = none) : Answers (.watchdog e c) s fun t =>
      ((t.eng e).ctx c).wdp = some (BitVec.ofNat 32 ((s.eng e).ctx c).wdog) ∧ OnlyContext s t e c := by
  have hgo : exec (.watchdog e c) s = .next (s.setEng e (((s.eng e).setCtx c
      { (s.eng e).ctx c with wdp := some (BitVec.ofNat 32 ((s.eng e).ctx c).wdog) }).abandon c)) :=
    congrArg Host.Outcome.next (if_pos (by rw [hl, bne_iff_ne.2 h0, decide_eq_true hw, bne_iff_ne.2 hs, hp]; rfl))
  refine ⟨_, hgo, ?_, Engine.OnlyCtx.state (((Engine.OnlyCtx.refl _ _).setCtx _).abandon)⟩
  rw [State.setEng_eng_same, (Engine.abandon_events _ _).1, Engine.setCtx_ctx_same]

variable {slot : SlotId} {level : Fin 5} {kind : Byte} {word : BitVec 32}

theorem exec_notice (hh : s.holder slot = some (e, c)) : exec (.noticeDelivery slot level kind word) s =
    .next (s.message (s.msgTo e slot 0 (.notice slot level kind word))) := by
  show execNoticeDelivery slot level kind word s = _
  unfold execNoticeDelivery
  rw [hh]

theorem holder_holds (hh : s.holder slot = some (e, c)) : (s.slot slot).eng = e ∧ (s.slot slot).state ≠ .idle := by
  unfold State.holder at hh
  dsimp only at hh
  split at hh
  · next h =>
    obtain ⟨h1, -⟩ := h
    exact ⟨congrArg Prod.fst (Option.some.inj hh), h1⟩
  · cases hh

/-- A notice that its engine accepts reaches its context. -/
theorem notice_arrives (hh : s.holder slot = some (e, c)) (hw : (s.clu (cluOf e)).waking = false) (hp : (s.clu (cluOf e)).pst = .c0)
    (hi : (s.eng e).inbox = []) (ha : (s.eng e).assigned = true) (hhe : (s.eng e).hedge = (s.slot slot).hedge) :
    exec (.noticeDelivery slot level kind word) s = .next (s.notice slot level kind word) := by
  obtain ⟨-, hidle⟩ := holder_holds hh
  have hacc : s.accepts (s.msgTo e slot 0 (.notice slot level kind word)) = true := accepts_iff.2 ⟨ha, hhe.symm, rfl, Nat.le_add_right ..⟩
  rw [exec_notice hh, message_awake hw hp, inbound_accepted hi hacc]
  unfold State.deliver
  simp only [State.msgTo, msgSlot, bne_self_eq_false, beq_eq_false_iff_ne.2 hidle, Bool.or_self, Bool.false_eq_true, if_false]

theorem ctxOfSlot_held (hh : s.holder slot = some (e, c)) : s.ctxOfSlot slot = some ((s.eng e).ctx c) := by
  unfold State.ctxOfSlot
  rw [hh]

theorem notice_pends (hh : s.holder slot = some (e, c)) (hl : ((s.eng e).ctx c).live = true) (hp : (s.clu (cluOf e)).pst = .c0)
    (hn : tget none ((s.eng e).ctx c).notices (level.val + 1) = none) :
    ((((s.notice slot level kind word).eng e).ctx c).notices = tset none ((s.eng e).ctx c).notices (level.val + 1) (some ⟨kind, word⟩)) ∧
      OnlyContext s (s.notice slot level kind word) e c := by
  have ht : s.notice slot level kind word = s.setEng e (((s.eng e).setCtx c
      { (s.eng e).ctx c with notices := tset none ((s.eng e).ctx c).notices (level.val + 1) (some ⟨kind, word⟩) }).abandon c) := by
    unfold State.notice
    rw [ctxOfSlot_held hh]
    dsimp only
    rw [hn, if_neg (by decide)]
    unfold State.pend
    rw [hh]
    dsimp only
    rw [if_pos hl]
    exact if_neg (by simp [State.running, hp])
  rw [ht, State.setEng_eng_same, (Engine.abandon_events _ _).2, Engine.setCtx_ctx_same]
  exact ⟨rfl, Engine.OnlyCtx.state (((Engine.OnlyCtx.refl _ _).setCtx _).abandon)⟩

theorem notice_returns (hh : s.holder slot = some (e, c)) (hn : tget none ((s.eng e).ctx c).notices (level.val + 1) ≠ none) :
    s.notice slot level kind word = { s with refused := s.refused ++ [s.msgTo e slot 0 (.notice slot level kind word)] } := by
  unfold State.notice
  rw [ctxOfSlot_held hh]
  dsimp only
  rw [if_pos (Option.isSome_iff_ne_none.2 hn), (holder_holds hh).1]

theorem notice_bounces (hh : s.holder slot = some (e, c)) (hw : (s.clu (cluOf e)).waking = false) (hp : (s.clu (cluOf e)).pst = .c0)
    (hi : (s.eng e).inbox = []) (ha : ¬((s.eng e).assigned = true ∧ (s.eng e).hedge = (s.slot slot).hedge)) (hb : s.bounced.length < 4096) :
    exec (.noticeDelivery slot level kind word) s =
      .next { s.setEng e { s.eng e with bounce := satInc (s.eng e).bounce } with
        bounced := s.bounced ++ [{ s.msgTo e slot 0 (.notice slot level kind word) with bounces := 1 }] } := by
  have hacc : s.accepts (s.msgTo e slot 0 (.notice slot level kind word)) = false := by
    rw [Bool.eq_false_iff]
    exact fun h => ha ⟨(accepts_iff.1 h).1, (accepts_iff.1 h).2.1.symm⟩
  rw [exec_notice hh, message_awake hw hp, inbound_refused hi hacc, bounce_room hb]
  rfl

end

/-! ### Events that are taken -/

/-- What spilling a window leaves of an engine is all but its scratch. -/
theorem spillAll_scratchOnly (n : Nat) : ∀ (e : Engine) (c : Ctx), e.ScratchOnly (spillAll n e c).1 := by
  induction n with
  | zero => exact fun e _ => .refl e
  | succ n ih =>
    intro e c
    unfold spillAll
    split
    · exact .refl e
    · refine Engine.ScratchOnly.trans ?_ (ih _ _)
      unfold spillOne
      split
      · exact .refl e
      · exact writeThrough_scratchOnly ..

theorem meetDescr_scratchOnly (e : Engine) (v : Byte) : e.ScratchOnly (e.meetDescr v) := by
  unfold Engine.meetDescr
  split
  · exact .refl e
  · exact (meet_scratchOnly e _).trans (meet_scratchOnly _ _)

theorem Engine.ScratchOnly.lastCtx {e f : Engine} (h : e.ScratchOnly f) : f.lastCtx = e.lastCtx := by
  unfold Engine.ScratchOnly at h
  rw [h]

theorem enterHandler_lastCtx (e : Engine) (n : CtxId) (c : Ctx) (d : Descr) (v : XEvent) (m : BitVec 3) (x : Nat) (osb osl : BitVec 18)
    (rescue : Bool) (count : Nat) : (enterHandler e n c d v m x osb osl rescue count).lastCtx = e.lastCtx :=
  ((spillAll_scratchOnly 16 e c).trans (writeCells_scratchOnly _ _ _)).lastCtx

section
variable {g : Engine} {c : CtxId} {v : XEvent} {x : Ctx} {l : Nat}

/-- An event of a level enters the handler of an entry that passes its checks (08 R250). -/
theorem vectorTo_enters (hx : g.ctx c = x) (hlev : v.level = some l) (hv : (g.descr v.vec).v = true)
    (hfail : g.descrFail x v.vec (g.descr v.vec) true = none) (hreads : x.vectorReads v.vec = false) :
    vectorTo g c v = (enterHandler (g.meetDescr v.vec) c x (g.descr v.vec) v (handlerMask (g.descr v.vec) x v) (recordAddr (g.descr v.vec) x)
      (BitVec.ofNat 18 (handlerStack (g.descr v.vec) x).1) (handlerStack (g.descr v.vec) x).2 false 12, .entered) := by
  unfold vectorTo
  dsimp only
  rw [hx, hlev]
  simp [hv, hfail, hreads]

/-- A NOTICE of an entry with V = 0 is discarded (08 R247). -/
theorem vectorTo_discards (hx : g.ctx c = x) (hlev : v.level = some l) (hv : (g.descr v.vec).v = false) (hlo : 0x11 ≤ v.vec.toNat)
    (hhi : v.vec.toNat ≤ 0x15) :
    vectorTo g c v = ((g.meetDescr v.vec).setCtx c { x with state := .busy, left := 11, xst := v.xst }, .discarded) := by
  unfold vectorTo defaultAction
  dsimp only
  rw [hx, hlev]
  simp [hv, hlo, hhi]

end

/-- The level of an event that may be taken is the event's own, and its vector below 0x16 is that of a NOTICE (08 R245). -/
theorem takable_level {x : Ctx} {l : Nat} {v : XEvent} (h : x.takable = some (l, v)) : v.level = some l ∧ 0x11 ≤ v.vec.toNat := by
  have hp : x.pendingEvent = some (l, v) := by
    unfold Ctx.takable at h
    split at h
    · next q hq =>
      split at h
      · exact hq.trans h
      · cases h
    · cases h
  unfold Ctx.pendingEvent at hp
  split at hp
  · cases hp
    exact ⟨rfl, show 0x11 ≤ (0x18#8).toNat by decide⟩
  split at hp
  · cases hp
    exact ⟨rfl, show 0x11 ≤ (0x19#8).toNat by decide⟩
  split at hp
  · cases hp
    exact ⟨rfl, show 0x11 ≤ (0x16#8).toNat by decide⟩
  · obtain ⟨k, hk, hw⟩ := List.exists_of_findSome?_eq_some hp
    obtain ⟨w, -, hw⟩ := Option.map_eq_some_iff.1 hw
    cases hw
    have hvec : ∀ k ∈ [5, 4, 3, 2, 1], 0x11 ≤ (BitVec.ofNat 8 (0x10 + k)).toNat := by decide
    exact ⟨rfl, hvec _ hk⟩

/-- A context that is held for no unit is given none (03 R69). -/
theorem Engine.freeUnit_ctx_unheld {g : Engine} {n m : CtxId} (u : IterUnit) (h : (g.ctx m).heldOn = none) : (g.freeUnit n u).ctx m = g.ctx m := by
  unfold Engine.freeUnit
  split
  · split
    · next i hi =>
      have hne : m ≠ i := by
        rintro rfl
        have hheld := List.find?_some hi
        rw [h] at hheld
        simp at hheld
      rw [Engine.setCtx_ctx_ne _ _ _ _ hne, Engine.setUnit_ctx]
    · exact Engine.setUnit_ctx ..
  · rfl

theorem Engine.freeUnits_ctx_unheld {g : Engine} {n m : CtxId} (h : (g.ctx m).heldOn = none) : (g.freeUnits n).ctx m = g.ctx m := by
  have h1 := Engine.freeUnit_ctx_unheld (n := n) .divider h
  have h2 := Engine.freeUnit_ctx_unheld (n := n) .fdiv (h1 ▸ h)
  exact (Engine.freeUnit_ctx_unheld .ucode (h2.trans h1 ▸ h)).trans (h2.trans h1)

/-- The engine that takes an event, before it vectors. -/
def State.taking (s : State) (e : EngId) (c : CtxId) (l : Nat) (vec : Byte) : Engine :=
  ((s.eng e).setCtx c { ((s.eng e).ctx c).dropEvent l vec with heldOn := none }).issued c (s.slot ((s.eng e).ctx c).slot).hedge

/-- An event that is taken leaves its engine as vectoring does, and the rest of the device but the mark of a deadlock. -/
structure State.Takes (s t : State) (e : EngId) (g : Engine) (h : HedgeId) : Prop where
  eng : t.eng e = g
  engines : ∀ i, i ≠ e → t.eng i = s.eng i
  errq : s.errq <+: t.errq
  hedge : t.hedge h = { s.hedge h with deadSince := none }
  hedges : ∀ i, i ≠ h → t.hedge i = s.hedge i
  rest : t = { s with engines := t.engines, hedges := t.hedges, errq := t.errq, free := t.free }

section
variable {s : State} {e : EngId} {c : CtxId} {l : Nat} {v : XEvent}

theorem dropEvent_fields (x : Ctx) (l : Nat) (vec : Byte) :
    ∃ a b w d n, x.dropEvent l vec = { x with mcheck := a, wdp := b, wdog := w, evd := d, notices := n } ∧
      a = (if vec = 0x18 then none else x.mcheck) ∧ b = (if vec = 0x19 then none else x.wdp) ∧ d = (if vec = 0x16 then none else x.evd) ∧
      (vec.toNat < 0x16 → n = tset none x.notices l none) := by
  unfold Ctx.dropEvent
  split
  · next h => exact ⟨_, _, _, _, _, rfl, rfl, by rw [if_neg (by rw [h]; decide)], by rw [if_neg (by rw [h]; decide)], by rw [h]; exact fun h => absurd h (by decide)⟩
  split
  · next h => exact ⟨_, _, _, _, _, rfl, rfl, rfl, by rw [if_neg (by rw [h]; decide)], by rw [h]; exact fun h => absurd h (by decide)⟩
  split
  · next h => exact ⟨_, _, _, _, _, rfl, rfl, rfl, rfl, by rw [h]; exact fun h => absurd h (by decide)⟩
  · exact ⟨_, _, _, _, _, rfl, rfl, rfl, rfl, fun _ => rfl⟩

/-- The context that takes an event, the event gone. -/
def Ctx.taken (x : Ctx) (l : Nat) (vec : Byte) : Ctx := { x.dropEvent l vec with heldOn := none }

/-- The engine as vectoring finds it. -/
def State.vectoring (s : State) (e : EngId) (c : CtxId) (l : Nat) (vec : Byte) : Engine := (s.taking e c l vec).freeUnits c

theorem vectoring_ctx (vec : Byte) : (s.vectoring e c l vec).ctx c = ((s.eng e).ctx c).taken l vec := by
  have h : (s.taking e c l vec).ctx c = ((s.eng e).ctx c).taken l vec := Engine.setCtx_ctx_same ..
  rw [State.vectoring, Engine.freeUnits_ctx_unheld (by rw [h]; rfl), h]

/-- Vectoring finds the entry that the engine held before. -/
theorem Engine.descr_of_cells {f g : Engine} (hs : g.swinBase = f.swinBase) (hz : g.swinSize = f.swinSize) (hc : ∀ k, g.cell k = f.cell k) (vec : Byte) :
    g.descr vec = f.descr vec := by
  have ha : g.vecAddr vec = f.vecAddr vec := by unfold Engine.vecAddr Engine.swinLo; rw [hs]
  have hh : g.swinHi = f.swinHi := by unfold Engine.swinHi; rw [hs, hz]
  unfold Engine.descr
  dsimp only
  rw [ha, hh, hc, hc]

theorem vectoring_descr (vec : Byte) : (s.vectoring e c l vec).descr vec = (s.eng e).descr vec := by
  obtain ⟨_, _, _, _, h⟩ := (s.taking e c l vec).freeUnits_rest c
  refine Engine.descr_of_cells ?_ ?_ (fun k => ?_) vec
  · rw [State.vectoring, h]
    rfl
  · rw [State.vectoring, h]
    rfl
  · show ((s.taking e c l vec).freeUnits c).cell k = _
    rw [Engine.freeUnits_cell]
    exact Engine.setCtx_cell (s.eng e) c (((s.eng e).ctx c).taken l vec) k

theorem vectoring_descrFail (vec : Byte) (x : Ctx) (d : Descr) :
    (s.vectoring e c l vec).descrFail x vec d true = (s.eng e).descrFail x vec d true := by
  obtain ⟨_, _, _, _, h⟩ := (s.taking e c l vec).freeUnits_rest c
  rw [State.vectoring, h]
  rfl

theorem vectoring_lastCtx (vec : Byte) : (s.vectoring e c l vec).lastCtx = c := by
  obtain ⟨_, _, _, _, h⟩ := (s.taking e c l vec).freeUnits_rest c
  rw [State.vectoring, h]
  rfl

theorem resend_none {n : SlotId} {t : State} (h : ∀ m ∈ t.refused, msgSlot m.kind ≠ n) : t.resend n = t := by
  unfold State.resend
  rw [List.find?_eq_none.2]
  intro m hm
  have hne := h m hm
  cases hk : m.kind with
  | notice k level kind word =>
    rw [hk] at hne
    change k ≠ n at hne
    simp [hne]
  | _ => simp

/-- EVENT_TAKE is the vectoring of the event, with nothing to send again. -/
theorem eventTake_takes {o : VOut} {g : Engine} (ht : ((s.eng e).ctx c).takable = some (l, v)) (hr : s.running e = true)
    (hn : (s.eng e).nextIssue = some c) (hm : ∀ m ∈ s.refused, msgSlot m.kind ≠ ((s.eng e).ctx c).slot)
    (hv : vectorTo (s.vectoring e c l v.vec) c v = (g, o)) (ho : o = .entered ∨ o = .discarded) :
    Answers (.eventTake e c) s fun t => s.Takes t e g (s.slot ((s.eng e).ctx c).slot).hedge := by
  have hex : exec (.eventTake e c) s = .next ((((s.setEng e (s.taking e c l v.vec)).vector e c v).resend ((s.eng e).ctx c).slot).modHedge
      (s.slot ((s.eng e).ctx c).slot).hedge fun q => { q with deadSince := none }) := by
    show execEventTake e c s = _
    unfold execEventTake
    dsimp only
    rw [ht]
    exact congrArg Host.Outcome.next (if_pos ⟨hr, hn⟩)
  have hvec : (s.setEng e (s.taking e c l v.vec)).vector e c v =
      ((s.setEng e (s.taking e c l v.vec)).setEng e g).scratchRecord (s.setEng e (s.taking e c l v.vec)) e := by
    unfold State.vector
    dsimp only
    rw [State.setEng_eng_same]
    change vectorTo ((s.taking e c l v.vec).freeUnits c) c v = _ at hv
    rw [hv]
    rcases ho with rfl | rfl <;> rfl
  obtain ⟨q, k, hq⟩ := scratchRecord_cases ((s.setEng e (s.taking e c l v.vec)).setEng e g) (s.setEng e (s.taking e c l v.vec)) e
  have hsend : ∀ t : State, t.refused = s.refused → t.resend ((s.eng e).ctx c).slot = t := fun t h => resend_none (by rw [h]; exact hm)
  rw [hvec, hq, hsend] at hex
  swap
  · rfl
  refine ⟨_, hex, ?_, fun i hi => ?_, ⟨q, rfl⟩, ?_, fun i hi => ?_, rfl⟩
  · exact State.setEng_eng_same ..
  · exact (State.setEng_eng_ne _ _ _ _ hi).trans (State.setEng_eng_ne _ _ _ _ hi)
  · rw [State.modHedge_hedge, if_pos rfl]
    rfl
  · rw [State.modHedge_hedge, if_neg hi]
    rfl

/-- The event's handler is entered (08 R250 to R254). -/
theorem eventTake_enters (ht : ((s.eng e).ctx c).takable = some (l, v)) (hr : s.running e = true) (hn : (s.eng e).nextIssue = some c)
    (hreads : ((s.eng e).ctx c).vectorReads v.vec = false) (hm : ∀ m ∈ s.refused, msgSlot m.kind ≠ ((s.eng e).ctx c).slot)
    (hv : ((s.eng e).descr v.vec).v = true)
    (hfail : (s.eng e).descrFail ((s.eng e).ctx c) v.vec ((s.eng e).descr v.vec) true = none) : Answers (.eventTake e c) s fun t =>
      let x := (s.eng e).ctx c
      let d := (s.eng e).descr v.vec
      let y := (t.eng e).ctx c
      y.state = .busy ∧ y.left = 11 ∧ y.pc = d.handler ∧ y.win = [v.cell] ∧ y.depth = 1 ∧ y.psw.eh = true ∧ y.psw.pl = plMin d.pl x.psw.pl ∧
      y.psw.m = (if topVec v.vec = true then 7 else if d.m.toNat ≤ l then BitVec.ofNat 3 l else d.m) ∧ y.xd = x.xd + 1 ∧
      y.xst = v.xst ∧ y.rs = [] ∧ y.locals = x.locals ∧ (t.eng e).lastCtx = c ∧
      y.mcheck = (if v.vec = 0x18 then none else x.mcheck) ∧ y.wdp = (if v.vec = 0x19 then none else x.wdp) ∧
      y.evd = (if v.vec = 0x16 then none else x.evd) ∧ s.Takes t e (t.eng e) (s.slot x.slot).hedge := by
  obtain ⟨hlev, -⟩ := takable_level ht
  obtain ⟨ma, wp, wd, ed, no, hdrop, hma, hwp, hed, -⟩ := dropEvent_fields ((s.eng e).ctx c) l v.vec
  have hto := vectorTo_enters (g := s.vectoring e c l v.vec) (v := v) (vectoring_ctx v.vec) hlev (by rw [vectoring_descr]; exact hv)
    (by rw [vectoring_descr, vectoring_descrFail, Ctx.taken, hdrop]; exact hfail) (by rw [Ctx.taken, hdrop]; exact hreads)
  rw [vectoring_descr] at hto
  obtain ⟨t, hex, htake⟩ := eventTake_takes ht hr hn hm hto (.inl rfl)
  refine ⟨t, hex, ?_⟩
  have hlast : (t.eng e).lastCtx = c := by
    rw [htake.eng, enterHandler_lastCtx, (meetDescr_scratchOnly _ _).lastCtx, vectoring_lastCtx]
  obtain ⟨w, sw, hctx⟩ := enterHandler_ctx ((s.vectoring e c l v.vec).meetDescr v.vec) c (((s.eng e).ctx c).taken l v.vec) ((s.eng e).descr v.vec) v
    (handlerMask ((s.eng e).descr v.vec) (((s.eng e).ctx c).taken l v.vec) v) (recordAddr ((s.eng e).descr v.vec) (((s.eng e).ctx c).taken l v.vec))
    (BitVec.ofNat 18 (handlerStack ((s.eng e).descr v.vec) (((s.eng e).ctx c).taken l v.vec)).1)
    (handlerStack ((s.eng e).descr v.vec) (((s.eng e).ctx c).taken l v.vec)).2 false 12
  have hmask : handlerMask ((s.eng e).descr v.vec) (((s.eng e).ctx c).taken l v.vec) v =
      (if topVec v.vec = true then 7 else if ((s.eng e).descr v.vec).m.toNat ≤ l then BitVec.ofNat 3 l else ((s.eng e).descr v.vec).m) := by
    unfold handlerMask
    rw [hlev]
  rw [← htake.eng, hmask, Ctx.taken, hdrop] at hctx
  dsimp only
  refine ⟨?_, ?_, ?_, ?_, ?_, ?_, ?_, ?_, ?_, ?_, ?_, ?_, hlast, ?_, ?_, ?_, { htake with eng := rfl }⟩
  all_goals rw [hctx]
  case refine_13 => exact hma
  case refine_14 => exact hwp
  case refine_15 => exact hed
  all_goals rfl

/-- A NOTICE of an entry with V = 0 is discarded (08 R247). -/
theorem eventTake_discards (ht : ((s.eng e).ctx c).takable = some (l, v)) (hr : s.running e = true) (hn : (s.eng e).nextIssue = some c)
    (hm : ∀ m ∈ s.refused, msgSlot m.kind ≠ ((s.eng e).ctx c).slot)
    (hv : ((s.eng e).descr v.vec).v = false) (hlow : v.vec.toNat < 0x16) : Answers (.eventTake e c) s fun t =>
      let x := (s.eng e).ctx c
      let y := (t.eng e).ctx c
      y.state = .busy ∧ y.left = 11 ∧ y.pc = x.pc ∧ y.win = x.win ∧ y.depth = x.depth ∧ y.psw = x.psw ∧ y.xst = v.xst ∧
      y.notices = tset none x.notices l none ∧ s.Takes t e (t.eng e) (s.slot x.slot).hedge := by
  obtain ⟨hlev, hlo⟩ := takable_level ht
  obtain ⟨ma, wp, wd, ed, no, hdrop, -, -, -, hno⟩ := dropEvent_fields ((s.eng e).ctx c) l v.vec
  have hto := vectorTo_discards (g := s.vectoring e c l v.vec) (v := v) (vectoring_ctx v.vec) hlev (by rw [vectoring_descr]; exact hv) hlo (by omega)
  obtain ⟨t, hex, htake⟩ := eventTake_takes ht hr hn hm hto (.inr rfl)
  refine ⟨t, hex, ?_⟩
  have hctx := congrArg (·.ctx c) htake.eng
  rw [Engine.setCtx_ctx_same, Ctx.taken, hdrop, hno hlow] at hctx
  refine ⟨?_, ?_, ?_, ?_, ?_, ?_, ?_, ?_, { htake with eng := rfl }⟩
  all_goals
    rw [hctx]

end

/-- Settles O15: the rules of counts, of the store buffer, of events, notices and watchdogs. -/
theorem countsElapseAndEventsAreTaken : Obligations.CountsElapseAndEventsAreTaken := by
  refine ⟨fun s e c => ⟨fun hb => ?_, storeBuffer_drains⟩, fun s e c => ⟨fun l v ht hr hn hreads hm => ⟨fun hv hfail => ?_, fun hv hlow => ?_⟩,
    fun slot level kind word hh hl hw hp hi => ⟨fun ha hhe => ⟨fun hn => ?_, fun hn => ?_⟩, notice_bounces hh hw hp hi⟩, watchdog_pends⟩⟩
  · obtain ⟨t, hex, h⟩ := busyCount_elapses (c := c) rfl hb
    refine ⟨t, hex, fun k => (h.cells k).trans ?_, h.only, h.rest, h.free, h.ready, h.waits, fun w he hw hd => h.done w .plain he hw hd,
      fun w k he hw hd => (h.done w (.cell k) he hw hd).trans ?_⟩
    · cases ((s.eng e).ctx c).rmw <;> rfl
    · rw [Ctx.resume_cell]
      rfl
  · obtain ⟨t, hex, h⟩ := eventTake_enters ht hr hn hreads hm hv hfail
    dsimp only at h
    obtain ⟨h1, h2, h3, h4, h5, h6, h7, h8, h9, h10, h11, h12, h13, h14, h15, h16, htake⟩ := h
    exact ⟨t, hex, h1, h2, h3, h4, h5, h6, h7, h8, h9, h10, h11, h12, h13, h14, h15, h16, htake.engines, htake.errq, htake.hedge, htake.hedges, htake.rest⟩
  · obtain ⟨t, hex, h⟩ := eventTake_discards ht hr hn hm hv hlow
    dsimp only at h
    obtain ⟨h1, h2, h3, h4, h5, h6, h7, h8, htake⟩ := h
    exact ⟨t, hex, h1, h2, h3, h4, h5, h6, h7, h8, htake.engines, htake.errq, htake.hedge, htake.hedges, htake.rest⟩
  · exact ⟨_, notice_arrives hh hw hp hi ha hhe, notice_pends hh hl hp hn⟩
  · rw [notice_arrives hh hw hp hi ha hhe, notice_returns hh hn]

end Sys2Proof.Machine
end

section
/-! O52: migrations of a hedge, from the request to the cut (17 R552 to R556, Table 17-4). -/

namespace Sys2Proof.Machine

/-! ### What leaves the pleach, and only adds to what is sent -/

/-- The pleach stays, and what has been sent stays sent. -/
structure Sends (s t : State) : Prop where
  pleach : t.pleach = s.pleach
  out : s.out <+: t.out

namespace Sends
variable {s t u : State}

theorem refl (s : State) : Sends s s := ⟨rfl, List.prefix_refl _⟩

theorem trans (h : Sends s t) (k : Sends t u) : Sends s u := ⟨k.pleach.trans h.pleach, h.out.trans k.out⟩

theorem after (k : Sends t u) (h : Sends s t) : Sends s u := h.trans k

/-- A further change that leaves the pleach and what is sent. -/
theorem same (h : Sends s t) (hp : u.pleach = t.pleach) (ho : u.out = t.out) : Sends s u := ⟨hp.trans h.pleach, by rw [ho]; exact h.out⟩

theorem of_runs (h : RunsDown s t) : Sends s t := ⟨h.pleach, h.out ▸ List.prefix_refl _⟩

theorem of_same (hp : t.pleach = s.pleach) (ho : t.out = s.out) : Sends s t := ⟨hp, ho ▸ List.prefix_refl _⟩

theorem emit (s : State) (o : Out) : Sends s (s.emit o) := ⟨rfl, List.prefix_append _ _⟩

theorem foldl {α : Type} {f : State → α → State} (hf : ∀ u a, Sends u (f u a)) (l : List α) (s : State) : Sends s (l.foldl f s) := by
  induction l generalizing s with
  | nil => exact refl s
  | cons a l ih => exact (hf s a).trans (ih _)

end Sends

theorem RunsDown.after {s t u : State} (k : RunsDown t u) (h : RunsDown s t) : RunsDown s u := h.trans k

theorem RunsDown.same {s t u : State} (h : RunsDown s t) (hp : u.ports = t.ports) (hl : u.pleach = t.pleach) (ho : u.out = t.out)
    (hf : u.fns = t.fns) : RunsDown s u := h.trans (.of_same hp hl ho hf)

section sends
variable (s : State)

theorem sendMsix_sends (f : FnId) (b : Bool) : Sends s (s.sendMsix f b) := by
  unfold State.sendMsix
  dsimp only
  (repeat' split)
  · exact .of_same rfl rfl
  · exact .emit s _
  · exact .of_same rfl rfl
  · exact .emit s _

theorem postEvent_sends (f : FnId) (v : Ev) : Sends s (s.postEvent f v) := by
  unfold State.postEvent
  dsimp only
  split
  · exact .refl s
  · split
    · unfold State.writeEvent
      exact (sendMsix_sends _ f true).after ((Sends.emit s _).same rfl rfl)
    · exact .of_same rfl rfl

theorem setHState_sends (f : FnId) (st : HState) : Sends s (s.setHState f st) := by
  unfold State.setHState
  dsimp only
  split
  · exact (postEvent_sends _ f _).after (.of_same rfl rfl)
  · exact (postEvent_sends s f _).same rfl rfl

/-! ### The messages that a cluster's waking delivers -/

theorem modEng_runs (e : EngId) (f : Engine → Engine) : RunsDown s (s.modEng e f) := .of_same rfl rfl rfl rfl

theorem modClu_runs (k : CluId) (f : Clu → Clu) : RunsDown s (s.modClu k f) := .of_same rfl rfl rfl rfl

theorem freeCtx_runs (e : EngId) (c : CtxId) : RunsDown s (s.freeCtx e c) := .of_same rfl rfl rfl rfl

theorem rouse_runs (e : EngId) (c : CtxId) : RunsDown s (s.rouse e c) := by
  unfold State.rouse
  split
  · exact .of_same rfl rfl rfl rfl
  · exact .refl s

theorem endNow_runs (n : SlotId) : RunsDown s (s.endNow n) := by
  unfold State.endNow
  dsimp only
  split
  · split
    · split
      · exact (endTxn_runs _ _ _ _).after (freeCtx_runs s _ _)
      · exact stopCtx_runs s _ _ _
    · exact endTxn_runs s _ _ _
  · exact .refl s

theorem arriveAt_runs (e : EngId) (c : CtxId) (a : Arrival) : RunsDown s (s.arriveAt e c a) := by
  have h : RunsDown s { s with invWait := s.invWait.filter fun q => q != (e, c) } := .of_same rfl rfl rfl rfl
  unfold State.arriveAt
  dsimp only
  split
  · exact (h.trans (freeCtx_runs _ _ _)).trans (endTxn_runs _ _ _ _)
  · split
    · exact h
    · exact (rouse_runs _ e c).after (h.same rfl rfl rfl rfl)

theorem arriveSlot_runs (n : SlotId) (a : Arrival) : RunsDown s (s.arriveSlot n a) := by
  unfold State.arriveSlot
  split
  · exact arriveAt_runs s _ _ _
  · split
    · exact .of_same rfl rfl rfl rfl
    · exact .refl s

theorem pend_runs (n : SlotId) (f : Ctx → Ctx) : RunsDown s (s.pend n f) := by
  unfold State.pend
  split
  · split
    · exact (rouse_runs _ _ _).after (.of_same rfl rfl rfl rfl)
    · exact .refl s
  · split
    · exact .of_same rfl rfl rfl rfl
    · exact .refl s

theorem notice_runs (n : SlotId) (level : Fin 5) (kind : Byte) (word : BitVec 32) : RunsDown s (s.notice n level kind word) := by
  unfold State.notice
  split
  · split
    · exact .of_same rfl rfl rfl rfl
    · exact pend_runs s _ _
  · exact .refl s

theorem loadRun_runs (n : SlotId) (e : EngId) (c : CtxId) : RunsDown s (s.loadRun n e c) := by
  unfold State.loadRun
  split
  · split
    · exact .of_same rfl rfl rfl rfl
    · exact .refl s
  · exact .refl s

theorem deliver_runs (m : EngMsg) : RunsDown s (s.deliver m) := by
  unfold State.deliver
  dsimp only
  split
  · exact .refl s
  · split
    · exact loadRun_runs s _ _ _
    · split
      · exact arriveSlot_runs s _ _
      · exact .refl s
    · exact notice_runs s _ _ _ _
    · exact endNow_runs s _

theorem inbound_runs (m : EngMsg) : RunsDown s (s.inbound m) := by
  unfold State.inbound
  split
  · exact .of_same rfl rfl rfl rfl
  · split
    · exact deliver_runs s m
    · unfold State.bounce
      split <;> exact .of_same rfl rfl rfl rfl

theorem modCluEngines_runs (k : CluId) (f : Engine → Engine) : RunsDown s (s.modCluEngines k f) :=
  .foldl (f := fun (t : State) w => t.modEng (engOf k w) f) (fun _ _ => .of_same rfl rfl rfl rfl) _ s

theorem leave_runs (k : CluId) : RunsDown s (s.leave k) := by
  unfold State.leave
  split
  · exact (modClu_runs _ _ _).after (modCluEngines_runs s k _)
  · exact (modClu_runs _ _ _).after (modCluEngines_runs s k _)
  · exact .refl s

theorem repoint_runs (k : CluId) : RunsDown s (s.repoint k) := by
  unfold State.repoint
  dsimp only
  generalize (if s.boosts k = true then 4 else s.unboosted k) = p
  split
  · exact .of_same rfl rfl rfl rfl
  · split
    · exact .of_same rfl rfl rfl rfl
    · split <;> exact .of_same rfl rfl rfl rfl

theorem awake_runs (k : CluId) : RunsDown s (s.awake k) := by
  unfold State.awake
  exact (RunsDown.foldl (fun u m => inbound_runs u m) _ _).after ((repoint_runs _ k).after ((modClu_runs _ _ _).after (leave_runs s k)))

theorem toFloor_runs (k : CluId) : RunsDown s (s.toFloor k) := by
  unfold State.toFloor
  dsimp only
  split
  · split
    · exact awake_runs s k
    · exact (repoint_runs _ k).after ((modClu_runs _ _ _).after (leave_runs s k))
    · exact (modClu_runs _ _ _).after (leave_runs s k)
    · exact (modClu_runs _ _ _).after (leave_runs s k)
  · exact .refl s

theorem holdFloors_runs : RunsDown s s.holdFloors :=
  .foldl (fun u k => (toFloor_runs (u.modClu k fun c => c.holdFloor (u.cluWarm k)) k).after (.of_same rfl rfl rfl rfl)) _ s

theorem roleTouched_runs (e : EngId) : RunsDown s (s.roleTouched e) :=
  (modCluEngines_runs _ _ _).after (.of_same rfl rfl rfl rfl)

theorem startClear_runs (e : EngId) : RunsDown s (s.startClear e) := by
  have h : RunsDown s ((s.roleTouched e).modEng e Engine.startClear) := (modEng_runs _ _ _).after (roleTouched_runs s e)
  unfold State.startClear
  dsimp only
  split
  · exact (modClu_runs _ _ _).after h
  · exact h

theorem releaseEngines_runs (h : HedgeId) : RunsDown s (s.releaseEngines h) := by
  have hone : ∀ (u : State) (e : EngId), RunsDown u ((u.unassign e).startClear e) := fun u e =>
    (startClear_runs (u.unassign e) e).after ((modEng_runs _ _ _).after (roleTouched_runs u e))
  exact (RunsDown.foldl hone _ s).trans (holdFloors_runs _)

/-! ### A hedge that is destroyed -/

theorem freeFrames_runs (f n : Nat) : RunsDown s (s.freeFrames f n) :=
  (RunsDown.foldl (f := fun (t : State) i => t.hbmPut (t.ftAddr (f + i)) 2 ((t.frameEntry (f + i)).toNat &&& 0xBFFF))
    (fun _ _ => .of_same rfl rfl rfl rfl) _ s).same rfl rfl rfl rfl

theorem hbmZero_runs (a n : Nat) : RunsDown s (s.hbmZero a n) := .of_same rfl rfl rfl rfl

theorem zeroFrames_runs (h : HedgeId) : RunsDown s (s.zeroFrames h) :=
  .foldl (f := fun (t : State) (q : Nat × Nat) => (t.hbmZero (q.1 * 4096) (2 ^ q.2)).freeFrames q.1 (2 ^ (q.2 - 12)))
    (fun _ _ => (freeFrames_runs _ _ _).after (hbmZero_runs _ _ _)) _ s

theorem clearDir_runs (p q : Params) : RunsDown s (s.clearDir p q) :=
  .foldl (f := fun (t : State) (kv : Nat × Endpoint) => t.putEntry kv.1 Endpoint.zero) (fun _ _ => .of_same rfl rfl rfl rfl) _ s

theorem deallocate_sends (h : HedgeId) : Sends s (s.deallocate h) := by
  unfold State.deallocate
  extract_lets ps s1
  have h1 : Sends s s1 := .foldl (fun u _ => .emit u _) _ s
  clear_value s1
  exact h1.same rfl rfl

theorem setHedge_sends (h : HedgeId) (g : Hedge) : Sends s (s.setHedge h g) := .of_same rfl rfl

theorem dropTlb_sends (m : BitVec 32) (f : TlbEntry → Bool) : Sends s (s.dropTlb m f) := .of_same rfl rfl

theorem invHedge_sends (h : HedgeId) : Sends s (s.invHedge h) := by
  have hwake : ∀ (u : State) (m : BitVec 32), Sends u (u.wakeForInv m) := fun u m => .foldl (fun v k => by
    split
    · exact .of_same rfl rfl
    · exact .refl v) _ u
  unfold State.invHedge State.fwInvalidate
  exact (hwake _ _).after ((dropTlb_sends _ _ _).after (.of_same rfl rfl))

/-- The engines, the frames and the directory of a hedge are given up. -/
def State.gaveUp (s : State) (h : HedgeId) : State := ((s.releaseEngines h).zeroFrames h).clearDir (s.hedge h).par Params.zero

theorem gaveUp_sends (h : HedgeId) : Sends s (s.gaveUp h) :=
  .of_runs (((releaseEngines_runs s h).trans (zeroFrames_runs _ h)).trans (clearDir_runs _ _ _))

theorem destroyed_sends (h : HedgeId) : Sends s (s.destroyed h) := by
  unfold State.destroyed
  extract_lets g s1 s2 u fresh s3
  have h1 : Sends s s1 := gaveUp_sends s h
  clear_value s1
  have h2 : Sends s s2 := (deallocate_sends _ h).after (h1.same rfl rfl)
  clear_value s2
  have hs3 : s3 = (State.invHedge { s2.freeTables h with evicts := s2.evicts.filter fun v => v.h != h } h).setHedge h
      { Hedge.reset with used := g.used, quota := g.quota, thr := g.thr, waits := g.waits } := rfl
  clear_value s3
  have h3 : Sends s s3 := by
    rw [hs3]
    exact (setHedge_sends _ h _).after ((invHedge_sends _ h).after (h2.same rfl rfl))
  split
  · exact h3.same rfl rfl
  · exact h3

theorem destroyed_unbound (h : HedgeId) : ((s.destroyed h).hedge h).fn = none := by
  unfold State.destroyed
  extract_lets g s1 s2 u fresh s3
  clear_value s2
  have hs3 : s3 = (State.invHedge { s2.freeTables h with evicts := s2.evicts.filter fun v => v.h != h } h).setHedge h
      { Hedge.reset with used := g.used, quota := g.quota, thr := g.thr, waits := g.waits } := rfl
  clear_value s3
  have h3 : (s3.hedge h).fn = none := by
    rw [hs3, State.setHedge_hedge_same]
    rfl
  split
  · exact h3
  · exact h3

end sends

/-! ### The request and the drain -/

section request
variable {s : State} {h there : HedgeId} {x : Word64} {f : FnId} {veto : Fin 6} (hfn : (s.hedge h).fn.isSome = true) (hstep : s.keeper.step = 13)
  (hcl : (s.hedge h).closing = false)

/-- The source as it accepts a migration: the definition, the pages and the answer are sent (17 R552). -/
def State.acceptMigration (s : State) (h : HedgeId) (x : Word64) (there : HedgeId) (f : FnId) : State :=
  (((s.mapped h).foldl (fun (t : State) q => t.emit (.migPage q.1 q.2.1 q.2.2 (s.pageCells h q.1 q.2.1 q.2.2)))
    (s.emit (.migStart x there { fn := f, par := (s.hedge h).par, progs := (s.hedge h).progs, super := (s.hedge h).super, tables := (s.hedge h).tables }
      (s.dirRange h)))).modPleach fun p => { p with
    phase := 1, role := false, migHedge := h, pages := BitVec.ofNat 48 (s.mapped h).length, partner := x, partnerHedge := there
    sentTo := s.lehr.applied.toNat, gf := s.lehr.applied, final := false }).emit (.mctp (.migration 0))

include hfn hstep hcl

theorem exec_request : exec (.migrationRequest h x there f veto) s = .next (
    if s.pleach.phase ≠ 0 ∨ s.pleach.incoming.isSome then s.refuseMigration x 1
    else if s.pleach.seterr ∨ (s.joined x).isNone then s.refuseMigration x 2
    else if veto.val ≠ 0 then s.refuseMigration x veto.val
    else s.acceptMigration h x there f) := by
  show execMigrationRequest h x there f veto s = _
  unfold execMigrationRequest
  dsimp only
  split
  · next hn => rw [hn] at hfn; cases hfn
  · rw [if_neg (by simp [hstep, hcl])]
    rfl

theorem request_refused {cause : Nat} (hc : (s.pleach.phase ≠ 0 ∨ s.pleach.incoming.isSome = true) ∧ cause = 1 ∨
    s.pleach.phase = 0 ∧ s.pleach.incoming = none ∧ (s.pleach.seterr = true ∨ s.joined x = none) ∧ cause = 2 ∨
    s.pleach.phase = 0 ∧ s.pleach.incoming = none ∧ s.pleach.seterr = false ∧ (s.joined x).isSome = true ∧ veto ≠ 0 ∧ cause = veto.val) :
    exec (.migrationRequest h x there f veto) s = .next (s.refuseMigration x cause) := by
  rw [exec_request hfn hstep hcl]
  rcases hc with ⟨hc, rfl⟩ | ⟨h1, h2, h3, rfl⟩ | ⟨h1, h2, h3, h4, h5, rfl⟩
  · rw [if_pos hc]
  · rw [if_neg (by simp [h1, h2]), if_pos (h3.imp_right fun h => by rw [h]; rfl)]
  · rw [if_neg (by simp [h1, h2]), if_neg (by rw [h3, ← Option.not_isSome, h4]; decide)]
    exact congrArg _ (if_pos fun h => h5 (Fin.ext h))

omit hfn hstep hcl in
theorem refused_leaves (cause : Nat) : (s.refuseMigration x cause).out = s.out ++ [.mctp (.migration cause)] ∧
    (s.refuseMigration x cause).pleach = s.pleach ∧ ∃ r, (s.refuseMigration x cause).errq = s.errq ++ [r] ∧ r.cls = 0x12 :=
  ⟨rfl, rfl, _, rfl, rfl⟩

theorem request_accepted (h1 : s.pleach.phase = 0) (h2 : s.pleach.incoming = none) (h3 : s.pleach.seterr = false) (h4 : (s.joined x).isSome = true)
    (h5 : veto = 0) : Answers (.migrationRequest h x there f veto) s fun t =>
      t.pleach = { s.pleach with phase := 1, role := false, migHedge := h, pages := BitVec.ofNat 48 (s.mapped h).length, partner := x
                                 partnerHedge := there, sentTo := s.lehr.applied.toNat, gf := s.lehr.applied, final := false } ∧
      t = { s with pleach := t.pleach, out := t.out } ∧ t.out.getLast? = some (.mctp (.migration 0)) ∧
      t.out.length = s.out.length + (s.mapped h).length + 2 := by
  have hex : exec (.migrationRequest h x there f veto) s = .next (s.acceptMigration h x there f) := by
    rw [exec_request hfn hstep hcl, if_neg (by simp [h1, h2]), if_neg (by rw [h3, ← Option.not_isSome, h4]; decide), if_neg (by simp [h5])]
  refine ⟨_, hex, ?_⟩
  unfold State.acceptMigration
  beta_reduce
  rw [foldl_emit]
  refine ⟨rfl, rfl, List.getLast?_concat, ?_⟩
  show (s.out ++ _ ++ _ ++ _).length = _
  simp only [List.length_append, List.length_map, List.length_singleton]
  omega

end request

@[simp] theorem modFn_fn (s : State) (f : FnId) (g : Fn → Fn) : (s.modFn f g).fn f = g (s.fn f) := State.setFn_fn_same ..

/-- Deltas that are sent leave the directory and the phase. -/
theorem forward_keeps {s : State} {h : HedgeId} : s.forward.dirRange h = s.dirRange h ∧ s.forward.pleach.phase = s.pleach.phase := by
  unfold State.forward
  extract_lets p ds own s1
  have hs1 : s1 = { s with out := s.out ++ own.map fun d => .migDelta d.gcs d.addr d.bytes } := foldl_emit ..
  split
  · exact ⟨rfl, rfl⟩
  · rw [hs1]
    exact ⟨rfl, rfl⟩

section drain
variable {s : State} {f : FnId} (hrole : s.pleach.role = false) (hfin : s.pleach.final = false) (hfn : (s.hedge s.pleach.migHedge).fn = some f)
include hrole hfin hfn

/-- The source once nothing is left to complete: the deltas left, g_f and the EVSEQ values are sent (17 Table 17-4). -/
def State.sendsFinal (s : State) (h : HedgeId) : State :=
  (s.forward.emit (.migFinal s.forward.pleach.gf ((s.forward.dirRange h).map fun q => (q.1, q.2.evseq)))).modPleach fun p => { p with final := true }

theorem exec_drain {u : State} (hp : s.pleach.phase = 1 ∨ s.pleach.phase = 2) (hu : (if s.pleach.phase = 1 then s.startDrain f else s) = u) :
    exec .migrationDrain s = .next (if ((u.liveSlots s.pleach.migHedge).isEmpty && (u.fn f).cur.isEmpty && (u.fn f).waiting.isEmpty) = true then
      u.sendsFinal s.pleach.migHedge else u) := by
  show execMigrationDrain s = _
  unfold execMigrationDrain
  dsimp only
  rw [if_neg (by simpa [hrole, hfin] using fun h => hp.resolve_left h)]
  split
  · next hn => exact nomatch hn.symm.trans hfn
  · next g hg =>
    obtain rfl := Option.some.inj (hg.symm.trans hfn)
    rw [hu]
    rfl

theorem drain_starts (hp : s.pleach.phase = 1) (hl : s.liveSlots s.pleach.migHedge ≠ []) (hr : (s.fn f).state = .ready) :
    Answers .migrationDrain s fun t =>
      t.pleach = { s.pleach with phase := 2 } ∧ (t.fn f).state = .draining ∧ (t.fn f).migStop = true ∧ (t.fn f).migPost = true := by
  obtain ⟨q, o, hq⟩ := postEvent_rest s f { kind := 8, a := 0, b := 0, c := BitVec.ofNat 32 HState.draining.code, d := 0 }
  have hset : s.setHState f .draining = ({ s with fns := q, out := o } : State).modFn f fun v => { v with state := .draining } := by
    unfold State.setHState
    dsimp only
    rw [if_neg nofun, hq]
  have hstart : s.startDrain f = (((({ s with fns := q, out := o } : State).modFn f fun v => { v with state := .draining }).modFn f
      fun v => { v with migPost := true }).modFn f fun v => { v with migStop := true }).modPleach fun p => { p with phase := 2 } := by
    unfold State.startDrain
    dsimp only
    rw [if_pos hr, hset]
  have hex := exec_drain hrole hfin hfn (.inl hp) (if_pos hp)
  have hne : (s.liveSlots s.pleach.migHedge).isEmpty = false := by simpa using hl
  have hlive : ∀ u : State, u.slots = s.slots → u.liveSlots s.pleach.migHedge = s.liveSlots s.pleach.migHedge := fun u hu => by
    unfold State.liveSlots State.busySlots State.slot
    rw [hu]
  rw [if_neg (by rw [hlive _ (by rw [hstart]; rfl), hne]; simp), hstart] at hex
  have hfn : ((((({ s with fns := q, out := o } : State).modFn f fun v => { v with state := .draining }).modFn f
      fun v => { v with migPost := true }).modFn f fun v => { v with migStop := true }).fn f) =
      { ({ s with fns := q, out := o } : State).fn f with state := .draining, migPost := true, migStop := true } := by
    rw [modFn_fn, modFn_fn, modFn_fn]
  exact ⟨_, hex, rfl, congrArg Fn.state hfn, congrArg Fn.migStop hfn, congrArg Fn.migPost hfn⟩

theorem drain_ends (hp : s.pleach.phase = 2) (hl : s.liveSlots s.pleach.migHedge = []) (hc : (s.fn f).cur = []) (hw : (s.fn f).waiting = []) :
    Answers .migrationDrain s fun t => t.pleach.final = true ∧ t.pleach.phase = 2 ∧
      t.out.getLast? = some (.migFinal t.pleach.gf ((s.dirRange s.pleach.migHedge).map fun q => (q.1, q.2.evseq))) := by
  have hex := exec_drain hrole hfin hfn (.inr hp) (if_neg (by rw [hp]; decide))
  rw [if_pos (by rw [hl, hc, hw]; rfl)] at hex
  obtain ⟨hdir, hphase⟩ := forward_keeps (s := s) (h := s.pleach.migHedge)
  refine ⟨_, hex, rfl, hphase.trans hp, ?_⟩
  show (s.forward.out ++ [_]).getLast? = _
  rw [List.getLast?_concat, hdir]
  rfl

end drain

/-! ### The copy -/

section copy
variable {s : State}

theorem start_opens {x : Word64} {there here : HedgeId} {f : FnId} {params : List Byte} {progs : List (Fin 256 × MigProg)} {super : Option MigProg}
    {tables : List (List Byte × List Byte)} {dir : List (Nat × Endpoint)} (h : s.mayReceive here (incomingDef f params progs super tables) params = true) :
    Answers (.migrationCopyReceive (.start x there here f params progs super tables dir)) s fun t =>
      t.pleach.phase = 1 ∧ t.pleach.role = true ∧ t.pleach.migHedge = here ∧ t.pleach.partner = x ∧
      t.pleach.incoming = some (⟨x, there, here⟩, incomingDef f params progs super tables) ∧ t.pleach.copied = [] ∧
      (t.hedge here).par = (incomingDef f params progs super tables).par := by
  refine ⟨_, congrArg Host.Outcome.next (if_pos h), rfl, rfl, rfl, rfl, rfl, rfl, ?_⟩
  exact congrArg Hedge.par (State.setHedge_hedge_same _ _ _)

theorem page_arrives {rec : MigRec} {d : HedgeDef} {va : BitVec 48} {level : Fin 5} {perm : Fin 8} {pkey prkey : Fin 16} {cells : List (Nat × Byte)}
    (hin : s.pleach.incoming = some (rec, d)) (hp : s.pleach.phase = 1) (hl : level ≠ 0) (hc : s.pleach.copiedAt va.toNat = none)
    (he : s.pleach.early = []) {port b : Nat} {s1 : State} (ht : s.takeBlocks rec.here level.val = some (port, b, s1)) :
    Answers (.migrationCopyReceive (.page va level perm pkey prkey cells)) s fun t => t.pleach.pages = s1.pleach.pages + 1 ∧
      t.pleach.copied = s1.pleach.copied ++ [(va.toNat, level.val, mkLeaf perm.val cells.isEmpty false b port pkey.val prkey.val)] ∧
      t.out = s1.out ++ [.nvme port 0x01 b (2 ^ levelBits level.val) true] := by
  have hex : exec (.migrationCopyReceive (.page va level perm pkey prkey cells)) s =
      .next (s.pageArrives rec.here va.toNat level.val perm.val pkey.val prkey.val cells) := by
    show execMigrationCopyReceive (.page va level perm pkey prkey cells) s = _
    unfold execMigrationCopyReceive
    dsimp only
    rw [hin]
    dsimp only
    rw [if_pos ⟨hp, fun h => hl (Fin.ext h), by rw [hc]; rfl⟩, he]
    rfl
  refine ⟨_, hex, ?_⟩
  unfold State.pageArrives
  rw [ht, he]
  exact ⟨rfl, rfl, rfl⟩

/-- A delta inside one page is one part (17 Table 17-4). -/
theorem exec_delta {g : Word64} {va : BitVec 48} {bytes : List Byte} (hin : s.pleach.incoming.isSome = true) (hp : s.pleach.phase = 1)
    (hone : pageParts va.toNat bytes.length = [(va.toNat, bytes.length)]) :
    exec (.migrationCopyReceive (.delta g va bytes)) s = .next ((s.applyCopy ⟨va.toNat, bytes⟩).touched va.toNat) := by
  have hparts : deltaParts va.toNat bytes = [⟨va.toNat, bytes⟩] := by
    unfold deltaParts
    rw [hone]
    simp
  show execMigrationCopyReceive (.delta g va bytes) s = _
  unfold execMigrationCopyReceive
  dsimp only
  rw [if_pos (by rw [hin, hp]; rfl), hparts]
  rfl

theorem delta_applied {g : Word64} {va : BitVec 48} {bytes : List Byte} {base lv : Nat} {leaf : Word64} (hin : s.pleach.incoming.isSome = true)
    (hp : s.pleach.phase = 1) (hone : pageParts va.toNat bytes.length = [(va.toNat, bytes.length)])
    (hc : s.pleach.copiedAt va.toNat = some (base, lv, leaf)) : Answers (.migrationCopyReceive (.delta g va bytes)) s fun t =>
      tgetRun 0 t.disk (diskAt (Pte.ssd leaf) (Pte.block leaf) + (va.toNat - base)) bytes.length = bytes := by
  refine ⟨_, exec_delta hin hp hone, ?_⟩
  unfold State.applyCopy
  dsimp only
  rw [hc]
  exact tgetRun_tsetRun_same s.disk _ rfl

theorem delta_waits {g : Word64} {va : BitVec 48} {bytes : List Byte} (hin : s.pleach.incoming.isSome = true)
    (hp : s.pleach.phase = 1) (hone : pageParts va.toNat bytes.length = [(va.toNat, bytes.length)])
    (hc : s.pleach.copiedAt va.toNat = none) : Answers (.migrationCopyReceive (.delta g va bytes)) s fun t =>
      t.pleach.early = s.pleach.early ++ [⟨va.toNat, bytes⟩] ∧ t.disk = s.disk := by
  refine ⟨_, exec_delta hin hp hone, ?_⟩
  unfold State.applyCopy
  dsimp only
  rw [hc]
  exact ⟨rfl, rfl⟩

theorem final_ends {g : Word64} {x : MigRec × HedgeDef} (hin : s.pleach.incoming = some x) (hp : s.pleach.phase = 1) :
    Answers (.migrationCopyReceive (.final g [])) s fun t => t.pleach = { s.pleach with phase := 2, gf := g, final := true } ∧ t.dir = s.dir := by
  have hex : exec (.migrationCopyReceive (.final g [])) s = .next (s.modPleach fun p => { p with phase := 2, gf := g, final := true }) := by
    show execMigrationCopyReceive (.final g []) s = _
    unfold execMigrationCopyReceive
    dsimp only
    rw [hin]
    exact congrArg Host.Outcome.next (if_pos hp)
  exact ⟨_, hex, rfl, rfl⟩

/-! ### The cut -/

section prepare
variable (hp : s.pleach.phase = 2) (hf : s.pleach.final = true)
include hp hf

theorem prepared_source (hr : s.pleach.role = false) : exec .migrationPrepared s = .next { s with pleach := { s.pleach with phase := 3 } } :=
  congrArg Host.Outcome.next ((if_neg (by simp [hp, hf])).trans (if_pos (by rw [hr]; rfl)))

theorem prepared_target {m : MigRec} {d : HedgeDef} (hr : s.pleach.role = true) (hin : s.pleach.incoming = some (m, d)) (he : s.pleach.early = []) :
    Answers .migrationPrepared s fun t => tget none t.store m.here.val = some d ∧
      t.pleach = { s.pleach with phase := 3, prepared := s.pleach.prepared ++ [m], incoming := none, copied := [] } ∧
      t.out = s.out ++ [.prepared m.serial m.there] := by
  have hdur := foldl_keeps (fun t : State => (t.pleach, t.out)) (f := fun (t : State) (q : Nat × Nat × Word64) => t.setDurable m.here q.1 q.2.1 q.2.2)
    (fun _ _ => rfl) s.pleach.copied s
  obtain ⟨u, hu⟩ : ∃ u, s.pleach.copied.foldl (fun (t : State) q => t.setDurable m.here q.1 q.2.1 q.2.2) s = u := ⟨_, rfl⟩
  have hex : exec .migrationPrepared s = .next (State.emit { u with
      store := tset none u.store m.here.val (some d)
      pleach := { u.pleach with phase := 3, prepared := u.pleach.prepared ++ [m], incoming := none, copied := [] } } (.prepared m.serial m.there)) := by
    show execMigrationPrepared s = _
    unfold execMigrationPrepared
    dsimp only
    rw [if_neg (by simp [hp, hf]), if_neg (by simp [hr]), hin]
    dsimp only
    rw [if_neg (by rw [he]; decide), hu]
  rw [hu] at hdur
  have hpl : u.pleach = s.pleach := (congrArg Prod.fst hdur :)
  have hout : u.out = s.out := (congrArg Prod.snd hdur :)
  refine ⟨_, hex, tget_tset_same none u.store m.here.val (some d), ?_, ?_⟩
  · show ({ u.pleach with phase := 3, prepared := u.pleach.prepared ++ [m], incoming := none, copied := [] } : Pleach) = _
    rw [hpl]
  · show u.out ++ _ = _
    rw [hout]

end prepare

theorem moved_early (h : s.pleach.phase ≠ 3 ∨ s.lehr.paused = true) : exec .migrationMoved s = .next s := congrArg Host.Outcome.next (if_pos h)

section moved
variable (hp : s.pleach.phase = 3) (hq : s.lehr.paused = false)

/-- The source with its MOVED record written and sent. -/
def State.movedOut (s : State) : State :=
  (s.modPleach fun p => { p with moved := p.moved ++ [⟨p.partner, p.partnerHedge, p.migHedge⟩], phase := 0, pages := 0, final := false }).emit
    (.moved s.pleach.partner s.pleach.partnerHedge)

theorem reopenHedge_opens (s : State) (h : HedgeId) (d : HedgeDef) : (s.reopenHedge h d).pleach = s.pleach ∧
    ((s.reopenHedge h d).hedge h).fn = some d.fn ∧ ((s.reopenHedge h d).hedge h).par = d.par := by
  unfold State.reopenHedge
  extract_lets g held
  clear_value held
  have hset : ∀ (v : Hedge) (q : Fn → Fn), ((s.setHedge h v).modFn d.fn q).hedge h = v := fun v _ => State.setHedge_hedge_same s h v
  refine ⟨rfl, ?_, ?_⟩ <;> rw [hset]

/-- A hedge closes with its function and is destroyed. -/
def State.closesDown (s : State) (f : FnId) (h : HedgeId) : State :=
  (((((s.setHState f .closing).drainVf f .closing).modFn f fun q => { q with migStop := false }).destroyed h).keepDef h)

theorem closesDown_sends (s : State) (f : FnId) (h : HedgeId) : Sends s (s.closesDown f h) := by
  have h1 := setHState_sends s f .closing
  unfold State.closesDown
  generalize s.setHState f .closing = u at h1 ⊢
  have h2 : Sends s (u.drainVf f .closing) := (Sends.of_runs (drainVf_runs u f .closing)).after (h1.same rfl rfl)
  generalize u.drainVf f .closing = v at h2 ⊢
  have h3 : Sends s ((v.modFn f fun q => { q with migStop := false }).destroyed h) := (destroyed_sends _ h).after (h2.same rfl rfl)
  generalize (v.modFn f fun q => { q with migStop := false }).destroyed h = w at h3 ⊢
  exact h3.same rfl rfl

theorem closesDown_unbound (s : State) (f : FnId) (h : HedgeId) : ((s.closesDown f h).hedge h).fn = none := by
  unfold State.closesDown
  generalize ((s.setHState f .closing).drainVf f .closing).modFn f (fun q => { q with migStop := false }) = u
  have h1 := destroyed_unbound u h
  generalize u.destroyed h = w at h1 ⊢
  exact h1

include hp hq

theorem exec_moved_source (hr : s.pleach.role = false) : exec .migrationMoved s = .next (match (s.hedge s.pleach.migHedge).fn with
    | some f => s.movedOut.closesDown f s.pleach.migHedge
    | none => s.movedOut) := by
  show execMigrationMoved s = _
  unfold execMigrationMoved
  dsimp only
  rw [if_neg (by simp [hp, hq]), if_neg (by simp [hr])]
  cases (s.hedge s.pleach.migHedge).fn <;> rfl

theorem moved_source (hr : s.pleach.role = false) : Answers .migrationMoved s fun t =>
    t.pleach.moved = s.pleach.moved ++ [⟨s.pleach.partner, s.pleach.partnerHedge, s.pleach.migHedge⟩] ∧ t.pleach.phase = 0 ∧
      .moved s.pleach.partner s.pleach.partnerHedge ∈ t.out ∧ (t.hedge s.pleach.migHedge).fn = none := by
  refine ⟨_, exec_moved_source hp hq hr, ?_⟩
  have hin : .moved s.pleach.partner s.pleach.partnerHedge ∈ s.movedOut.out := List.mem_append_right _ (List.mem_singleton.2 rfl)
  split
  · next f _ =>
    have hsends := closesDown_sends s.movedOut f s.pleach.migHedge
    have hnone := closesDown_unbound s.movedOut f s.pleach.migHedge
    generalize s.movedOut.closesDown f s.pleach.migHedge = u at hsends hnone ⊢
    exact ⟨congrArg Pleach.moved hsends.pleach, congrArg Pleach.phase hsends.pleach, hsends.out.subset hin, hnone⟩
  · next hn => exact ⟨rfl, rfl, hin, hn⟩

theorem moved_target {m : MigRec} (hr : s.pleach.role = true)
    (hm : s.pleach.prepared.find? (fun m => m.here == s.pleach.migHedge && m.serial == s.pleach.partner) = some m) :
    Answers .migrationMoved s fun t => t.pleach.phase = 0 ∧ t.pleach.prepared = s.pleach.prepared.erase m ∧
      ∀ d, tget none s.store m.here.val = some d → s.keeper.step = 13 → (t.hedge m.here).fn = some d.fn ∧ (t.hedge m.here).par = d.par := by
  have hex : exec .migrationMoved s = .next ((s.openMoved m).modPleach fun p => { p with phase := 0, pages := 0, final := false }) := by
    show execMigrationMoved s = _
    unfold execMigrationMoved
    dsimp only
    rw [if_neg (by simp [hp, hq]), if_pos hr, hm]
  have hopen : (s.openMoved m).pleach.prepared = s.pleach.prepared.erase m ∧ ∀ d, tget none s.store m.here.val = some d → s.keeper.step = 13 →
      ((s.openMoved m).hedge m.here).fn = some d.fn ∧ ((s.openMoved m).hedge m.here).par = d.par := by
    unfold State.openMoved
    extract_lets s1
    have hpre : s1.pleach.prepared = s.pleach.prepared.erase m := rfl
    split
    · next d hd =>
      have htab := hedgeTables_pleach s1 m.here
      generalize s1.hedgeTables m.here = u at htab ⊢
      obtain ⟨hpl, hfn, hpar⟩ := reopenHedge_opens u m.here d
      split
      · refine ⟨by rw [hpl, htab, hpre], fun d' hd' _ => ?_⟩
        obtain rfl := Option.some.inj (hd'.symm.trans hd)
        exact ⟨hfn, hpar⟩
      · next hs => exact ⟨hpre, fun _ _ h => absurd h hs⟩
    · next hn => exact ⟨hpre, fun _ hd => nomatch hd.symm.trans hn⟩
  generalize s.openMoved m = u at hex hopen
  exact ⟨_, hex, rfl, hopen⟩

end moved

end copy

/-- Settles O52: the rules of the request, the drain, the copy and the cut. -/
theorem migrationsMoveAHedge : Obligations.MigrationsMoveAHedge := by
  intro s p
  refine ⟨fun h x there f veto hfn hstep hcl => ⟨fun cause hc => ⟨_, request_refused hfn hstep hcl hc, refused_leaves cause⟩,
      request_accepted hfn hstep hcl⟩, fun f hr hf hfn => ⟨drain_starts hr hf hfn, drain_ends hr hf hfn⟩,
    fun x there here f params progs super tables dir => start_opens,
    fun rec d va level perm pkey prkey cells hin hp hl hc he port b s1 => page_arrives hin hp hl hc he,
    fun g va bytes base lv leaf hin hp hone => ⟨delta_applied hin hp hone, delta_waits hin hp hone⟩,
    fun g x => final_ends, fun hp hf => ⟨prepared_source hp hf, fun m d => prepared_target hp hf⟩, moved_early,
    fun hp hq => ⟨moved_source hp hq, fun m => moved_target hp hq⟩⟩

end Sys2Proof.Machine
end

section
/-! O25: entries of a submission ring, as the front end reads them, takes them up or refuses them (13 R422, R423, R429, R430, R433, R438, 10 R312 to
R314). -/

namespace Sys2Proof.Machine

/-! ### Bus errors of a system mover leave the functions -/

section fault
variable (s : State) (m : MovId)

theorem haltDesc_fns (ch : ChId) (d : Desc) : (s.haltDesc m ch d).fns = s.fns := by
  have hst : ∀ st nv h, (s.writeStatus m ch d st nv h).fns = s.fns := fun st nv h => by rw [(writeStatus_statused s m ch d st nv h).rest]
  unfold State.haltDesc
  dsimp only
  split
  · split <;> exact hst _ _ _
  · exact hst _ _ _
  · split
    · rfl
    · exact hst _ _ _

theorem haltChan_fns (hm : 32 ≤ m.val) (ch : ChId) : (s.haltChan m ch).fns = s.fns := by
  unfold State.haltChan
  dsimp only
  split
  · exact haltDesc_fns s m ch _
  · unfold State.haltStage
    rw [if_neg (by omega)]
    rfl

theorem drainFailed_fns (n f p : Nat) : (s.drainFailed n f p).fns = s.fns := by
  by_cases h : 3 ≤ f
  · unfold State.drainFailed
    dsimp only
    rw [if_pos h]
    rfl
  · rw [(drainFailed_goesOn s n f p (Nat.lt_of_not_le h)).rest]

theorem failDrain_fns (g : Nat) : (s.failDrain g).fns = s.fns := by
  unfold State.failDrain
  dsimp only
  split
  · exact drainFailed_fns _ _ _ _
  · split
    · exact drainFailed_fns _ _ _ _
    · rfl

theorem haltMover_fns (hm : 32 ≤ m.val) (cause : BitVec 3) (kind : BitVec 2) (ch : Option ChId) (addr : Word64) :
    (s.haltMover m cause kind ch addr).fns = s.fns := by
  unfold State.haltMover
  split
  · rfl
  · extract_lets s1 s2
    have h1 : s1.fns = s.fns := rfl
    have h2 : s2.fns = s1.fns := foldl_keeps State.fns (fun u n => haltChan_fns u m hm n) allChans s1
    clear_value s2
    clear_value s1
    exact (foldl_keeps State.fns failDrain_fns (s2.drainsOf m) _).trans (h2.trans h1)

end fault

/-! ### A slot that is drawn -/

section slots
variable {s : State}

theorem tget_default_or_key {α : Type} (d : α) (t : Tab α) (i : Nat) : tget d t i = d ∨ i ∈ t.map (·.1) :=
  (tget_mem d t i).imp_right fun h => List.mem_map.2 ⟨_, h, rfl⟩

/-- Among one number more than there are slots in the table, one is of an IDLE slot. -/
theorem idle_number (s : State) : ∃ i, i < s.slots.length + 1 ∧ (tget Slot.reset s.slots i).state = .idle := by
  by_contra hno
  push Not at hno
  have hkeys : Finset.range (s.slots.length + 1) ⊆ (s.slots.map (·.1)).toFinset := fun i hi => by
    refine List.mem_toFinset.2 ((tget_default_or_key Slot.reset s.slots i).resolve_left fun h => hno i (Finset.mem_range.1 hi) ?_)
    rw [h]
    rfl
  have hcard := (Finset.card_le_card hkeys).trans (List.toFinset_card_le _)
  rw [Finset.card_range, List.length_map] at hcard
  omega

/-- Where a slot is IDLE one is found (10 R312). -/
theorem idleSlotNo_some (h : ∃ n, (s.slot n).state = .idle) : ∃ n, s.idleSlotNo = some n ∧ (s.slot n).state = .idle := by
  obtain ⟨w, hw, hlt, hidle⟩ : ∃ w, w < 131072 ∧ w < s.slots.length + 1 ∧ (tget Slot.reset s.slots w).state = .idle := by
    obtain ⟨n, hn⟩ := h
    by_cases hlen : n.val < s.slots.length + 1
    · exact ⟨n.val, n.isLt, hlen, hn⟩
    · obtain ⟨i, hi, hidle⟩ := idle_number s
      exact ⟨i, by have := n.isLt; omega, hi, hidle⟩
  have hsome : ((List.range (s.slots.length + 1)).find? fun i => (tget Slot.reset s.slots i).state == .idle).isSome = true :=
    List.find?_isSome.2 ⟨w, List.mem_range.2 hlt, by rw [hidle]; rfl⟩
  obtain ⟨i, hi⟩ := Option.isSome_iff_exists.1 hsome
  obtain ⟨hp, -, hleast⟩ := List.find?_range_eq_some.1 hi
  have hle : i ≤ w := Nat.le_of_not_lt fun hwi => by
    have := hleast w hwi
    rw [hidle] at this
    exact absurd this (by decide)
  have h1 : i < 131072 := by omega
  refine ⟨⟨i, h1⟩, ?_, beq_iff_eq.1 hp⟩
  unfold State.idleSlotNo
  rw [hi]
  exact dif_pos h1

theorem slotFree_room {h : HedgeId} (hf : s.slotFree h) : s.slotRoom h = .ok ∧ ∃ n, s.idleSlotNo = some n ∧ (s.slot n).state = .idle := by
  obtain ⟨hroom, hidle⟩ := hf
  refine ⟨hroom.elim (fun hlt => ?_) id, idleSlotNo_some hidle⟩
  unfold State.slotRoom
  exact if_pos hlt

end slots

/-! ### What the arguments are -/

theorem bits_zero (n hi lo : Nat) : bits (0 : BitVec n) hi lo = 0 := by simp [bits]

theorem cellBytes_field (b : List Byte) (i : Nat) : natOfBytes ((cellBytes b i).take 8) = fieldOf b (16 * i) 8 := by
  unfold cellBytes fieldOf
  rw [List.take_take]
  rfl

theorem cellBytes_zero (b : List Byte) (i : Nat) : zeroFrom (cellBytes b i) 8 8 = zeroFrom b (16 * i + 8) 8 := by
  unfold cellBytes zeroFrom
  rw [List.drop_take, List.drop_drop, List.take_take]
  rfl

/-- The INT cell that code 0 of a template delivers. -/
theorem argCell_int (s : State) (h : HedgeId) (b : List Byte) (i : Nat) (hz : zeroFrom b (16 * i + 8) 8 = true) :
    s.argCell h 0 (cellBytes b i) = .ok (cellInt (BitVec.ofNat 64 (fieldOf b (16 * i) 8)).toInt) := by
  unfold State.argCell
  dsimp only
  rw [cellBytes_zero, if_pos hz, cellBytes_field]
  rfl

theorem argCells_one {s : State} {h : HedgeId} {q : Nat × List Byte} {c : Cell} (hc : s.argCell h q.1 q.2 = .ok c) : s.argCells h [q] = .ok [c] := by
  unfold State.argCells
  rw [hc]
  rfl

theorem argCells_two {s : State} {h : HedgeId} {q r : Nat × List Byte} {c d : Cell} (hc : s.argCell h q.1 q.2 = .ok c) (hd : s.argCell h r.1 r.2 = .ok d) :
    s.argCells h [q, r] = .ok [c, d] := by
  unfold State.argCells
  rw [hc, argCells_one hd]

/-- A template of integers alone. -/
theorem runArgs_ints {s : State} {h : HedgeId} {p : Prog} {b : List Byte} {args : List Cell} (ha : intArgs p b = some args) :
    s.runArgs h p b = .ok args := by
  unfold intArgs at ha
  dsimp only at ha
  split at ha
  · next hp =>
    obtain ⟨ht, h2, h3⟩ := hp
    have htwo := argCells_two (q := (0, cellBytes b 2)) (r := (0, cellBytes b 3)) (argCell_int s h b 2 h2) (argCell_int s h b 3 h3)
    unfold State.runArgs
    dsimp only
    rw [ht, bits_zero, bits_zero, bits_zero]
    split at ha
    · next hs =>
      split at ha
      · next hg =>
        rw [if_pos hs, if_pos hg]
        dsimp only
        rw [htwo]
        exact congrArg Except.ok (Option.some.inj ha)
      · cases ha
    · next hs =>
      split at ha
      · next h1 =>
        rw [if_neg hs, argCells_one (q := (0, cellBytes b 1)) (argCell_int s h b 1 h1)]
        dsimp only
        rw [htwo]
        exact congrArg Except.ok (Option.some.inj ha)
      · cases ha
  · cases ha

/-! ### Entries that are taken up or refused -/

/-- The function with its next entry consumed (13 R422). -/
def Fn.consumed (q : Fn) : Fn :=
  { q with
    sqHead := BitVec.ofNat 16 ((q.sqHead.toNat + 1) % 2 ^ q.sqLog2.toNat), expHsn := q.expHsn + 1, reread := none, targets := q.targets.drop 1 }

/-- The function's entry has been consumed, and `q` is what it holds of commands and completions since. -/
structure Takes (u t : State) (f : FnId) (q : Fn) : Prop where
  fn : t.fn f = q
  out : t.out = u.out
  others : OtherFns u t f

section takes
variable {u v : State} {f : FnId} (hv : v.fns = u.fns) (ho : v.out = u.out)
include hv ho

omit ho in
theorem fn_congr (g : FnId) : v.fn g = u.fn g := by
  unfold State.fn
  rw [hv]

theorem accept_takes (b : List Byte) (start : Word64) (slot : Option SlotId) (target : Option (EngId × CtxId)) :
    Takes u ((v.consume f).accept f b start slot target) f
      { (u.fn f).consumed with cur := (u.fn f).cur ++ [Cmd.fresh b start slot target] } := by
  refine ⟨?_, ho, fun g hg => ?_⟩
  · rw [State.accept, modFn_fn, State.consume, modFn_fn, fn_congr hv]
    rfl
  · exact (State.setFn_fn_ne _ _ _ _ hg).trans ((State.setFn_fn_ne _ _ _ _ hg).trans (fn_congr hv g))

theorem answer_takes (hsn : BitVec 32) (st : Byte) (d : Word64) (hp : (u.fn f).posting = true) :
    Takes u ((v.consume f).answer f hsn st 0 d) f { (u.fn f).consumed with waiting := (u.fn f).waiting ++
      [{ gk := .carried, gcs := 0, result := 0, hsn := hsn, sqhead := (u.fn f).consumed.sqHead, status := st, cont := false, rp := false, detail := d
         slot := none, resync := false }] } := by
  have hq : (v.consume f).fn f = (u.fn f).consumed := by
    rw [State.consume, modFn_fn, fn_congr hv]
    rfl
  have hkeep : ∀ c : Compl, (State.remembered (v.consume f) f c).fns = (v.consume f).fns ∧ (State.remembered (v.consume f) f c).out = (v.consume f).out := fun c => by
    unfold State.remembered
    split <;> exact ⟨rfl, rfl⟩
  have hform : ∀ c : Compl, (v.consume f).formed f c = (State.remembered (v.consume f) f c).modFn f fun q => { q with waiting := q.waiting ++ [c] } := fun c => by
    refine if_pos ?_
    rw [hq]
    exact hp
  unfold State.answer
  rw [hform, hq]
  obtain ⟨hf, hout⟩ := hkeep { gk := .carried, gcs := 0, result := 0, hsn := hsn, sqhead := (u.fn f).consumed.sqHead, status := st, cont := false
                               rp := false, detail := d, slot := none, resync := false }
  generalize State.remembered (v.consume f) f _ = w at hf hout ⊢
  refine ⟨?_, hout.trans ho, fun g hg => ?_⟩
  · rw [modFn_fn, fn_congr hf, hq]
    rfl
  · exact (State.setFn_fn_ne _ _ _ _ hg).trans ((fn_congr hf g).trans ((State.setFn_fn_ne _ _ _ _ hg).trans (fn_congr hv g)))

end takes

theorem drawStart_rest (s : State) (k : Nat) : ∃ n b, (s.drawStart k).2 = { s with startNext := n, startBlk := b } := by
  unfold State.drawStart
  dsimp only
  split <;> exact ⟨_, _, rfl⟩

theorem drawStart_fns (s : State) (k : Nat) : (s.drawStart k).2.fns = s.fns ∧ (s.drawStart k).2.out = s.out ∧ (s.drawStart k).2.slots = s.slots ∧
    (s.drawStart k).2.hedges = s.hedges := by
  obtain ⟨n, b, h⟩ := drawStart_rest s k
  rw [h]
  exact ⟨rfl, rfl, rfl, rfl⟩

/-- The function with its next entry refused (13 R429). -/
def Fn.refused (q : Fn) (b : List Byte) (st : Byte) : Fn :=
  { q.consumed with waiting := q.waiting ++ [(Cmd.fresh b 0 none none).ends { q with sqHead := q.consumed.sqHead } .carried 0 st 0 0] }

/-- The function with its next entry taken up. -/
def Fn.took (q : Fn) (b : List Byte) (start : Word64) (slot : Option SlotId) (target : Option (EngId × CtxId)) : Fn :=
  { q.consumed with cur := q.cur ++ [Cmd.fresh b start slot target] }

/-- The draws of a long command change start sequences alone. -/
theorem stepDraw_rest (u : State) (f : FnId) (b : List Byte) :
    let v := (if cmdParam b = 0 then u.drawStart (portOf f).val else (u.drawStart (portOf f).val).2.drawStart 2).2
    v.fns = u.fns ∧ v.out = u.out ∧ v.slots = u.slots ∧ v.hedges = u.hedges ∧ v.aoTick = u.aoTick := by
  dsimp only
  obtain ⟨n, x, h⟩ := drawStart_rest u (portOf f).val
  split
  · rw [h]
    exact ⟨rfl, rfl, rfl, rfl, rfl⟩
  · obtain ⟨m, y, h2⟩ := drawStart_rest (u.drawStart (portOf f).val).2 2
    rw [h2, h]
    exact ⟨rfl, rfl, rfl, rfl, rfl⟩

section vf
variable {u : State} {f : FnId} {h : HedgeId} {b : List Byte} (hq : (u.fn f).hedge = some h) (hp : (u.fn f).posting = true)

theorem refuses_takes (k : Nat) (st : Byte) (hp : (u.fn f).posting = true) :
    Takes u (((u.drawStart k).2.consume f).answer f (cmdHsn b) st 0 0) f ((u.fn f).refused b st) :=
  answer_takes (drawStart_fns u k).1 (drawStart_fns u k).2.1 _ _ _ hp

include hq

theorem take_vf : u.take f b = u.takeVf f h b := by
  unfold State.take
  rw [hq]

theorem take_fenced (hs : shapeOk b = true) (hf : cmdFence b = true) (ha : u.allPosted f h = false) : u.take f b = u := by
  rw [take_vf hq]
  exact if_pos (by rw [hs, hf, ha]; rfl)

include hp

theorem take_malformed (hs : shapeOk b = false) : Takes u (u.take f b) f ((u.fn f).refused b 0x07) := by
  rw [take_vf hq]
  unfold State.takeVf
  dsimp only
  rw [if_neg (by simp [hs]), if_neg (by simp [hs]), if_pos (by rw [hs]; rfl)]
  exact refuses_takes _ _ hp

section shaped
variable (hs : shapeOk b = true) (hf : cmdFence b = true → u.allPosted f h = true)
include hs hf

omit hp in
theorem take_shaped (h6 : cmdOp b = 0x06 → u.allEnded f h = true) : u.take f b = if cmdOp b = 0x01 then u.takeRun f h b
    else if 0x10 ≤ cmdOp b then u.takeLong f h b
    else ((u.drawStart (portOf f).val).2.consume f).accept f b (u.drawStart (portOf f).val).1 none := by
  have hfence : (shapeOk b && cmdFence b && !u.allPosted f h) = false := by
    cases hc : cmdFence b
    · simp
    · simp [hf hc]
  have hend : (shapeOk b && cmdOp b == 0x06 && !u.allEnded f h) = false := by
    by_cases hc : cmdOp b = 0x06
    · simp [h6 hc]
    · simp [hc]
  rw [take_vf hq]
  unfold State.takeVf
  dsimp only
  rw [if_neg (by rw [hfence]; decide), if_neg (by rw [hend]; decide), if_neg (by simp [hs])]

omit hp in
theorem take_plain (hop : cmdOp b ∈ [0x02, 0x03, 0x04, 0x05, 0x06]) (h6 : cmdOp b = 0x06 → u.allEnded f h = true) :
    Takes u (u.take f b) f ((u.fn f).took b (u.drawStart (portOf f).val).1 none none) := by
  have hlow : cmdOp b ≠ 0x01 ∧ ¬0x10 ≤ cmdOp b := by
    simp only [List.mem_cons, List.not_mem_nil, or_false] at hop
    omega
  obtain ⟨hne, hlt⟩ := hlow
  rw [take_shaped hq hs hf h6, if_neg hne, if_neg hlt]
  exact accept_takes (drawStart_fns u _).1 (drawStart_fns u _).2.1 _ _ _ _

section run
variable (hop : cmdOp b = 0x01)
include hop

omit hp in
theorem take_run : u.take f b = u.takeRun f h b := by
  rw [take_shaped hq hs hf (by omega), if_pos hop]

theorem take_run_unknown (hn : (u.hedge h).prog (cmdProg b) = none) : Takes u (u.take f b) f ((u.fn f).refused b 0x05) := by
  rw [take_run hq hs hf hop]
  unfold State.takeRun
  dsimp only
  rw [hn]
  exact refuses_takes _ _ hp

theorem take_run_capped {p : Prog} {args : List Cell} (hn : (u.hedge h).prog (cmdProg b) = some p) (ha : u.runArgs h p b = .ok args)
    (hr : u.slotRoom h = .capped) : Takes u (u.take f b) f ((u.fn f).refused b 0x0B) := by
  rw [take_run hq hs hf hop]
  unfold State.takeRun
  dsimp only
  rw [hn]
  dsimp only
  rw [ha, hr]
  exact refuses_takes _ _ hp

/-- Function `f` has taken up the entry with slot `n` drawn for it as `sl`. -/
structure Draws (u t : State) (f : FnId) (q : Fn) (n : SlotId) (sl : Slot) : Prop where
  takes : Takes u t f q
  idle : (u.slot n).state = .idle
  slot : t.slot n = sl
  others : ∀ m, m ≠ n → t.slot m = u.slot m

omit hq hp hs hf hop in
theorem admit_draws {v : State} {n : SlotId} (hv : v.fns = u.fns) (ho : v.out = u.out) (hsl : v.slots = u.slots) (hi : (u.slot n).state = .idle)
    (start : Word64) (p : Option Prog) (args : List Cell) (w : Work) (target : Option (EngId × CtxId)) :
    Draws u (((v.consume f).admitSlot n h b start p args w).accept f b start (some n) target) f ((u.fn f).took b start (some n) target) n
      { Slot.reset with
        state := .admitted, hedge := h, retry := p.elim 0 (·.retry), start := start, cmd := b, prog := p, args := args, work := w } := by
  have htake := accept_takes (f := f) (u := u) hv ho b start (some n) target
  have hslots : ∀ m, v.slot m = u.slot m := fun m => by
    unfold State.slot
    rw [hsl]
  have hkeep : ∀ sl m, ((((v.consume f).setSlot n sl).modHedge h Hedge.stir).accept f b start (some n) target).slot m =
    ((v.consume f).setSlot n sl).slot m := fun _ _ => rfl
  refine ⟨⟨htake.fn, ho, htake.others⟩, hi, ?_, fun m hm => ?_⟩
  · rw [State.admitSlot, hkeep, State.setSlot_slot_same]
  · rw [State.admitSlot, hkeep, State.setSlot_slot_ne _ _ _ _ hm]
    exact hslots m

omit hp in
theorem take_run_draws {p : Prog} {args : List Cell} (hn : (u.hedge h).prog (cmdProg b) = some p) (ha : u.runArgs h p b = .ok args)
    (hr : u.slotFree h) : ∃ n, Draws u (u.take f b) f ((u.fn f).took b (u.drawStart (portOf f).val).1 (some n)
      (if p.fastRun b then (u.fn f).targets.head?.join else none)) n { Slot.reset with
        state := .admitted, hedge := h, retry := p.retry, start := (u.drawStart (portOf f).val).1, cmd := b, prog := some p, args := args } := by
  obtain ⟨hroom, n, hn', hidle⟩ := slotFree_room hr
  refine ⟨n, ?_⟩
  obtain ⟨hv, ho, hsl, -⟩ := drawStart_fns u (portOf f).val
  rw [take_run hq hs hf hop]
  unfold State.takeRun
  dsimp only
  rw [hn]
  dsimp only
  rw [ha, hroom, hn']
  exact admit_draws hv ho hsl hidle _ _ _ _ _

end run

section long
variable (hop : cmdOp b ∈ [0x10, 0x11, 0x12, 0x13])
include hop

omit hp in
theorem take_long : u.take f b = u.takeLong f h b := by
  have hhigh : cmdOp b ≠ 0x01 ∧ cmdOp b ≠ 0x06 ∧ 0x10 ≤ cmdOp b := by
    simp only [List.mem_cons, List.not_mem_nil, or_false] at hop
    omega
  obtain ⟨hne, hne6, hle⟩ := hhigh
  rw [take_shaped hq hs hf fun h => absurd h hne6, if_neg hne, if_pos hle]

theorem take_long_refused {st : Byte} (hc : u.operation h b = .error st) : Takes u (u.take f b) f ((u.fn f).refused b st) := by
  have hlc : u.longChecks h b = .error st := by
    unfold State.longChecks
    rw [hc]
  rw [take_long hq hs hf hop]
  unfold State.takeLong
  dsimp only
  rw [hlc]
  exact refuses_takes _ _ hp

omit hq hp hs hf in
/-- The checks of a long command that pass (13 R429 step 2, R438, Table 13-12). -/
theorem longChecks_ok {p : Option Prog} {cmd : List Byte} {first : Nat} (hp1 : cmdOp b = 0x11 → p.isSome = true ∧ (u.hedge h).prog (cmdProg b) = p)
    (hp2 : cmdOp b ≠ 0x11 → p = none) (hm : cmdOp b = 0x13 → fieldOf cmd 16 6 + fieldOf cmd 24 8 ≤ 2 ^ 48) (hc : u.operation h b = .ok (cmd, first)) :
    u.longChecks h b = .ok (cmd, first, p) := by
  unfold State.longChecks
  rw [hc]
  simp only [List.mem_cons, List.not_mem_nil, or_false] at hop
  rcases hop with h | h | h | h
  · rw [h, hp2 (by omega)]
    rfl
  · obtain ⟨hsome, hprog⟩ := hp1 h
    obtain ⟨v, rfl⟩ := Option.isSome_iff_exists.1 hsome
    rw [h]
    dsimp only
    rw [hprog]
    rfl
  · rw [h, hp2 (by omega)]
    rfl
  · rw [h, hp2 (by omega)]
    exact if_neg (Nat.not_lt.2 (hm h))

/-- The start sequence of a long command: the entry's own, or one of firmware's for a step after the first (10 R313). -/
def State.stepStart (u : State) (f : FnId) (b : List Byte) : Word64 :=
  if cmdParam b = 0 then (u.drawStart (portOf f).val).1 else ((u.drawStart (portOf f).val).2.drawStart 2).1

omit hp in
theorem take_long_draws {p : Option Prog} {cmd : List Byte} {first : Nat} (hl : u.longChecks h b = .ok (cmd, first, p)) (hr : u.slotFree h) :
    ∃ n, Draws u (u.take f b) f ((u.fn f).took b (u.stepStart f b) (some n) none) n { Slot.reset with
        state := .admitted, hedge := h, retry := p.elim 0 (·.retry), start := u.stepStart f b, cmd := b, prog := p, work := .step cmd first } ∧
      ((u.take f b).hedge h).tokens = (u.hedge h).tokens.filter fun t => t.value != cmdParam b || t.late u.aoTick := by
  obtain ⟨hroom, n, hn', hidle⟩ := slotFree_room hr
  refine ⟨n, ?_⟩
  rw [take_long hq hs hf hop]
  unfold State.takeLong
  dsimp only
  rw [hl]
  dsimp only
  rw [hroom, hn']
  have hstart : (if cmdParam b = 0 then u.drawStart (portOf f).val else (u.drawStart (portOf f).val).2.drawStart 2).1 = u.stepStart f b :=
    apply_ite Prod.fst _ _ _
  obtain ⟨hv, ho, hsl, hh, htick⟩ := stepDraw_rest u f b
  dsimp only
  rw [hstart]
  generalize (if cmdParam b = 0 then u.drawStart (portOf f).val else (u.drawStart (portOf f).val).2.drawStart 2).2 = v at hv ho hsl hh htick ⊢
  refine ⟨admit_draws (v := v.useToken h (cmdParam b)) hv ho hsl hidle _ _ _ _ _, ?_⟩
  show (((((v.useToken h (cmdParam b)).consume f).setSlot n _).modHedge h Hedge.stir).hedge h).tokens = _
  rw [State.modHedge_hedge, if_pos rfl]
  show ((v.useToken h (cmdParam b)).hedge h).tokens = _
  rw [State.useToken, State.modHedge_hedge, if_pos rfl, htick]
  show ((tget Hedge.reset v.hedges h.val).tokens.filter _) = _
  rw [hh]
  rfl

end long

end shaped

end vf

section admin
variable {u : State} {f : FnId} {b : List Byte} (hq : (u.fn f).hedge = none)
include hq

theorem take_admin : u.take f b = u.takeAdmin f b := by
  unfold State.take
  rw [hq]

theorem take_admin_malformed (hp : (u.fn f).posting = true) (hs : adminShapeOk b = false) : Takes u (u.take f b) f ((u.fn f).refused b 0x07) := by
  rw [take_admin hq]
  unfold State.takeAdmin
  dsimp only
  rw [if_pos (by rw [hs]; rfl)]
  exact answer_takes rfl rfl _ _ _ hp

theorem take_admin_accepted (hs : adminShapeOk b = true) (h3 : u.devstat = 3 → cmdOp b ∈ [0x81, 0x88, 0x89])
    (h9 : cmdOp b = 0x89 → u.updating = false) : Takes u (u.take f b) f ((u.fn f).took b 0 none none) := by
  have hfault : ¬(u.devstat = 3 ∧ cmdOp b ≠ 0x81 ∧ cmdOp b ≠ 0x88 ∧ cmdOp b ≠ 0x89) := fun ⟨hd, h1, h2, h4⟩ => by
    have := h3 hd
    simp only [List.mem_cons, List.not_mem_nil, or_false] at this
    omega
  have hupd : ¬(cmdOp b = 0x89 ∧ u.updating = true) := fun ⟨hc, hu⟩ => Bool.false_ne_true ((h9 hc).symm.trans hu)
  rw [take_admin hq]
  unfold State.takeAdmin
  dsimp only
  rw [if_neg (by simp [hs]), if_neg hfault, if_neg hupd]
  exact accept_takes rfl rfl _ _ _ _

end admin

/-! ### Reading -/

/-- The entry at SQHEAD has been read: what differs of the device is what ports count and report, and what has been sent (13 R422). -/
def Arrives (s u : State) (f : FnId) : Prop :=
  ∃ p e n, u = { s with ports := p, errq := e, free := n, out := s.out ++ [.read f (s.fn f).entryAt 64] }

section read
variable {s : State} {f : FnId}

theorem turned_rest (s : State) (f : FnId) : ∃ p, s.turned f = { s with ports := p } := by
  unfold State.turned
  split <;> exact ⟨_, rfl⟩

theorem entryPoison_rest (s : State) (f : FnId) (poison : Bool) : ∃ p e n, s.entryPoison f poison = { s with ports := p, errq := e, free := n } := by
  unfold State.entryPoison
  split <;> exact ⟨_, _, _, rfl⟩

/-- The state in which a port's front end has read an entry: `turn` where the turn among its rings passes on. -/
def State.entryRead (s : State) (f : FnId) (poison turn : Bool) : State :=
  ((if turn then s.turned f else s).entryPoison f poison).emit (.read f (s.fn f).entryAt 64)

theorem entryRead_arrives (poison turn : Bool) : Arrives s (s.entryRead f poison turn) f := by
  have hturn : ∃ p, (if turn then s.turned f else s) = { s with ports := p } := by
    split
    · exact turned_rest s f
    · exact ⟨_, rfl⟩
  obtain ⟨p, hp⟩ := hturn
  obtain ⟨q, e, n, hq⟩ := entryPoison_rest { s with ports := p } f poison
  refine ⟨q, e, n, ?_⟩
  rw [State.entryRead, hp, hq]
  rfl

section bytes
variable {bytes : List Byte} (hlen : bytes.length = 64)
include hlen

/-- COMMAND_READ of one entry. -/
theorem exec_commandRead (poison : Bool) (hm : s.mayRead f = true) : exec (.commandRead f bytes poison false) s =
    .next (if !poison ∧ cmdHsn bytes = (s.fn f).expHsn then (s.entryRead f poison true).take f (bytes.take 64)
      else (s.entryRead f poison true).modFn f fun x => { x with reread := some (0, cmdHsn bytes) }) := by
  have hone : max 1 (min (s.fn f).entriesAhead (bytes.length / 64)) = 1 := by rw [hlen]; omega
  show execCommandRead f bytes poison false s = _
  unfold execCommandRead
  dsimp only
  rw [if_neg (by simp [hm]), if_neg Bool.false_ne_true, hone]
  refine congrArg Host.Outcome.next (if_congr Iff.rfl ?_ rfl)
  exact ite_self _

end bytes

/-- SUBMIT_REREAD (13 R422). -/
theorem exec_submitReread (bytes : List Byte) (poison : Bool) {n : Nat} {x : BitVec 32} (hre : (s.fn f).reread = some (n, x)) (hr : s.readable f = true) :
    exec (.submitReread f bytes poison false) s =
    .next (if !poison ∧ cmdHsn bytes = (s.fn f).expHsn then (s.entryRead f poison false).take f (bytes.take 64)
      else if n + 1 < 3 then (s.entryRead f poison false).modFn f fun x => { x with reread := some (n + 1, cmdHsn bytes) }
      else ((s.entryRead f poison false).consume f).answer f (s.fn f).expHsn 0x08 0 (BitVec.ofNat 64 (cmdHsn bytes).toNat)) := by
  show execSubmitReread f bytes poison false s = _
  unfold execSubmitReread
  dsimp only
  rw [hre]
  dsimp only
  rw [if_neg (by simp [hr]), if_neg Bool.false_ne_true]
  rfl

/-- The two ways in which an entry is read. -/
def Reads (s : State) (f : FnId) (i : Instr) (bytes : List Byte) (poison fault : Bool) : Prop :=
  (s.mayRead f = true ∧ i = .commandRead f bytes poison fault) ∨
    ((∃ x, (s.fn f).reread = some x) ∧ s.readable f = true ∧ i = .submitReread f bytes poison fault)

/-- An entry whose HSN matches is taken (13 R422). -/
theorem exec_reads {i : Instr} {bytes : List Byte} (hlen : bytes.length = 64) (hr : Reads s f i bytes false false)
    (hm : cmdHsn bytes = (s.fn f).expHsn) : ∃ u, Arrives s u f ∧ exec i s = .next (u.take f (bytes.take 64)) := by
  rcases hr with ⟨hmay, rfl⟩ | ⟨⟨⟨n, x⟩, hre⟩, hread, rfl⟩
  · exact ⟨_, entryRead_arrives false true, (exec_commandRead hlen false hmay).trans (congrArg Host.Outcome.next (if_pos ⟨rfl, hm⟩))⟩
  · exact ⟨_, entryRead_arrives false false, (exec_submitReread bytes false hre hread).trans (congrArg Host.Outcome.next (if_pos ⟨rfl, hm⟩))⟩

/-- A ring that is read takes completions. -/
theorem readable_posting (h : s.readable f = true) : (s.fn f).posting = true := by
  unfold State.readable at h
  simp only [Bool.and_eq_true, Fn.open?] at h
  unfold Fn.posting
  simp [h]

theorem reads_posting {i : Instr} {bytes : List Byte} {p q : Bool} (hr : Reads s f i bytes p q) : (s.fn f).posting = true := by
  rcases hr with ⟨hm, -⟩ | ⟨-, hr, -⟩
  · unfold State.mayRead at hm
    simp only [Bool.and_eq_true] at hm
    exact readable_posting hm.1.1
  · exact readable_posting hr

/-- Nothing of the ring has been consumed. -/
def EntryKept (s t : State) (f : FnId) : Prop :=
  (t.fn f).sqHead = (s.fn f).sqHead ∧ (t.fn f).expHsn = (s.fn f).expHsn ∧ (t.fn f).cur = (s.fn f).cur ∧ (t.fn f).waiting = (s.fn f).waiting

/-- The entry has been consumed. -/
def EntryTook (s t : State) (f : FnId) : Prop :=
  (t.fn f).sqHead = (s.fn f).consumed.sqHead ∧ (t.fn f).expHsn = (s.fn f).expHsn + 1 ∧ (t.fn f).reread = none ∧
    t.out = s.out ++ [.read f (s.fn f).entryAt 64] ∧ OtherFns s t f

/-- The entry has been consumed and refused. -/
def EntryRefused (s t : State) (f : FnId) (b : List Byte) (st : Byte) : Prop :=
  EntryTook s t f ∧ (t.fn f).cur = (s.fn f).cur ∧ (t.fn f).waiting = (s.fn f).waiting ++
    [(Cmd.fresh b 0 none none).ends { s.fn f with sqHead := (s.fn f).consumed.sqHead } .carried 0 st 0 0]

section arrives
variable {u : State} (ha : Arrives s u f)
include ha

theorem Arrives.fn (g : FnId) : u.fn g = s.fn g := by
  obtain ⟨p, e, n, rfl⟩ := ha
  rfl

theorem Arrives.out : u.out = s.out ++ [.read f (s.fn f).entryAt 64] := by
  obtain ⟨p, e, n, rfl⟩ := ha
  rfl

theorem Arrives.took {t : State} {b : List Byte} {start : Word64} {slot : Option SlotId} {target : Option (EngId × CtxId)}
    (ht : Takes u t f ((u.fn f).took b start slot target)) : EntryTook s t f ∧ (t.fn f).cur = (s.fn f).cur ++ [Cmd.fresh b start slot target] ∧
      (t.fn f).waiting = (s.fn f).waiting := by
  have hfn := ht.fn
  rw [ha.fn] at hfn
  refine ⟨⟨?_, ?_, ?_, ht.out.trans ha.out, fun g hg => (ht.others g hg).trans (ha.fn g)⟩, ?_, ?_⟩ <;> rw [hfn] <;> rfl

theorem Arrives.refused {t : State} {b : List Byte} {st : Byte} (ht : Takes u t f ((u.fn f).refused b st)) : EntryRefused s t f b st := by
  have hfn := ht.fn
  rw [ha.fn] at hfn
  refine ⟨⟨?_, ?_, ?_, ht.out.trans ha.out, fun g hg => (ht.others g hg).trans (ha.fn g)⟩, ?_, ?_⟩ <;> rw [hfn] <;> rfl

end arrives

/-- An entry that is poisoned or out of order is read again (13 R422). -/
theorem commandRead_again {bytes : List Byte} {poison : Bool} (hlen : bytes.length = 64) (hm : cmdHsn bytes ≠ (s.fn f).expHsn ∨ poison = true)
    (hmay : s.mayRead f = true) : Answers (.commandRead f bytes poison false) s fun t => EntryKept s t f ∧ (t.fn f).reread = some (0, cmdHsn bytes) ∧
      (poison = true → (f.val % 65, aerPoisoned) ∈ (t.port (portOf f)).aer) := by
  have hno : ¬((!poison) = true ∧ cmdHsn bytes = (s.fn f).expHsn) := fun ⟨hp, he⟩ => by
    rcases hm with hm | hm
    · exact hm he
    · rw [hm] at hp
      cases hp
  have hfn : ((s.entryRead f poison true).modFn f fun x => { x with reread := some (0, cmdHsn bytes) }).fn f =
      { s.fn f with reread := some (0, cmdHsn bytes) } := by
    rw [modFn_fn, (entryRead_arrives poison true).fn]
  refine ⟨_, (exec_commandRead hlen poison hmay).trans (congrArg Host.Outcome.next (if_neg hno)), ⟨?_, ?_, ?_, ?_⟩, ?_, fun hp => ?_⟩
  · rw [hfn]
  · rw [hfn]
  · rw [hfn]
  · rw [hfn]
  · rw [hfn]
  · subst hp
    exact aer_logs (s.turned f) (portOf f) (f.val % 65) aerPoisoned

theorem submitReread_again {bytes : List Byte} {poison : Bool} {n : Nat} {x : BitVec 32}
    (hm : cmdHsn bytes ≠ (s.fn f).expHsn ∨ poison = true) (hre : (s.fn f).reread = some (n, x)) (hr : s.readable f = true) :
    (n < 2 → Answers (.submitReread f bytes poison false) s fun t => EntryKept s t f ∧ (t.fn f).reread = some (n + 1, cmdHsn bytes)) ∧
    (2 ≤ n → Answers (.submitReread f bytes poison false) s fun t => EntryTook s t f ∧ (t.fn f).cur = (s.fn f).cur ∧ ∃ k,
      (t.fn f).waiting = (s.fn f).waiting ++ [k] ∧ k.hsn = (s.fn f).expHsn ∧ k.status = 0x08 ∧ k.detail = BitVec.ofNat 64 (cmdHsn bytes).toNat) := by
  have hno : ¬((!poison) = true ∧ cmdHsn bytes = (s.fn f).expHsn) := fun ⟨hp, he⟩ => by
    rcases hm with hm | hm
    · exact hm he
    · rw [hm] at hp
      cases hp
  have harr := entryRead_arrives (s := s) (f := f) poison false
  have hex := exec_submitReread bytes poison hre hr
  rw [if_neg hno] at hex
  constructor
  · intro hn
    rw [if_pos (by omega)] at hex
    have hfn : ((s.entryRead f poison false).modFn f fun x => { x with reread := some (n + 1, cmdHsn bytes) }).fn f =
        { s.fn f with reread := some (n + 1, cmdHsn bytes) } := by
      rw [modFn_fn, harr.fn]
    refine ⟨_, hex, ⟨?_, ?_, ?_, ?_⟩, ?_⟩ <;> rw [hfn]
  · intro hn
    rw [if_neg (by omega)] at hex
    have ht := answer_takes (f := f) (u := s.entryRead f poison false) rfl rfl (s.fn f).expHsn 0x08 (BitVec.ofNat 64 (cmdHsn bytes).toNat)
      (by rw [harr.fn]; exact readable_posting hr)
    have hfn := ht.fn
    rw [harr.fn] at hfn
    refine ⟨_, hex, ⟨?_, ?_, ?_, ht.out.trans harr.out, fun g hg => (ht.others g hg).trans (harr.fn g)⟩, ?_, _, congrArg Fn.waiting hfn, rfl, rfl, rfl⟩
    · rw [hfn]
    · rw [hfn]; rfl
    · rw [hfn]; rfl
    · rw [hfn]; rfl

/-- A bus error stops the reading (13 R422). -/
theorem readFault_stops (w : State) (hw : ∀ g, w.fn g = s.fn g) : EntryKept s (w.readFault f) f ∧
    ((w.readFault f).fn f).sqFault = some (s.fn f).entryAt ∧ ((w.readFault f).fn f).reread = none := by
  have hfns := haltMover_fns ((w.modFn f fun x => { x with sqFault := some (w.fn f).entryAt, reread := none }).emit (.read f (w.fn f).entryAt 64))
    ⟨32 + (portOf f).val, by have := (portOf f).isLt; omega⟩ (Nat.le_add_right _ _) 1 0 none
    (BitVec.ofNat 64 (4 * 2 ^ 60 + (w.fn f).entryAt.toNat % 2 ^ 52 + 2 ^ 52 * (portOf f).val + (if isPf f then 2 ^ 59 else 2 ^ 53 * (f.val % 65 - 1))))
  have hfn : (w.readFault f).fn f = { s.fn f with sqFault := some (s.fn f).entryAt, reread := none } := by
    refine (fn_congr hfns f).trans ?_
    show (w.modFn f fun x => { x with sqFault := some (w.fn f).entryAt, reread := none }).fn f = _
    rw [modFn_fn, hw]
  generalize w.readFault f = t at hfn
  refine ⟨⟨?_, ?_, ?_, ?_⟩, ?_, ?_⟩ <;> rw [hfn]

theorem reads_fault {i : Instr} {bytes : List Byte} {poison : Bool} (hr : Reads s f i bytes poison true) : Answers i s fun t =>
    EntryKept s t f ∧ (t.fn f).sqFault = some (s.fn f).entryAt ∧ (t.fn f).reread = none := by
  rcases hr with ⟨hmay, rfl⟩ | ⟨⟨⟨n, x⟩, hre⟩, hread, rfl⟩
  · have hex : exec (.commandRead f bytes poison true) s = .next ((s.turned f).readFault f) :=
      congrArg Host.Outcome.next ((if_neg (by simp [hmay])).trans (if_pos rfl))
    refine ⟨_, hex, readFault_stops (s.turned f) fun g => ?_⟩
    obtain ⟨p, hp⟩ := turned_rest s f
    rw [hp]
    rfl
  · have hex : exec (.submitReread f bytes poison true) s = .next (s.readFault f) := by
      show execSubmitReread f bytes poison true s = _
      unfold execSubmitReread
      dsimp only
      rw [hre]
      dsimp only
      rw [if_neg (by simp [hread]), if_pos rfl]
    exact ⟨_, hex, readFault_stops s fun _ => rfl⟩

end read

section same
variable {s u : State} {f : FnId} (ha : Arrives s u f)
include ha

theorem Arrives.tables : u.hedges = s.hedges ∧ u.slots = s.slots ∧ u.fns = s.fns ∧ u.aoTick = s.aoTick ∧ u.devstat = s.devstat := by
  obtain ⟨p, e, n, rfl⟩ := ha
  exact ⟨rfl, rfl, rfl, rfl, rfl⟩

theorem Arrives.slot (n : SlotId) : u.slot n = s.slot n := by
  unfold State.slot
  rw [ha.tables.2.1]

theorem Arrives.hedge (h : HedgeId) : u.hedge h = s.hedge h := by
  unfold State.hedge
  rw [ha.tables.1]

theorem Arrives.operation (h : HedgeId) (b : List Byte) : u.operation h b = s.operation h b := by
  unfold State.operation
  rw [ha.hedge, ha.tables.2.2.2.1]

theorem Arrives.free (h : HedgeId) (hf : s.slotFree h) : u.slotFree h := by
  obtain ⟨p, e, n, rfl⟩ := ha
  exact hf

theorem Arrives.posted (h : HedgeId) : u.allPosted f h = s.allPosted f h ∧ u.allEnded f h = s.allEnded f h ∧ u.slotRoom h = s.slotRoom h := by
  obtain ⟨p, e, n, rfl⟩ := ha
  exact ⟨rfl, rfl, rfl⟩

omit ha in
/-- A draw depends on the start sequences alone. -/
theorem drawStart_congr {v w : State} (hb : v.startBlk = w.startBlk) (hn : v.startNext = w.startNext) (k : Nat) :
    (v.drawStart k).1 = (w.drawStart k).1 ∧ (v.drawStart k).2.startBlk = (w.drawStart k).2.startBlk ∧
      (v.drawStart k).2.startNext = (w.drawStart k).2.startNext := by
  unfold State.drawStart
  dsimp only
  rw [hb, hn]
  split <;> exact ⟨rfl, rfl, rfl⟩

theorem Arrives.start (b : List Byte) : (u.drawStart (portOf f).val).1 = (s.drawStart (portOf f).val).1 ∧ u.stepStart f b = s.stepStart f b := by
  obtain ⟨p, e, n, rfl⟩ := ha
  obtain ⟨h1, h2, h3⟩ := drawStart_congr (v := { s with ports := p, errq := e, free := n, out := s.out ++ [.read f (s.fn f).entryAt 64] }) (w := s)
    rfl rfl (portOf f).val
  obtain ⟨k1, -, -⟩ := drawStart_congr h2 h3 2
  unfold State.stepStart
  rw [h1, k1]
  exact ⟨rfl, rfl⟩

theorem Arrives.args (h : HedgeId) (p : Prog) (b : List Byte) : u.runArgs h p b = s.runArgs h p b := by
  obtain ⟨q, e, n, rfl⟩ := ha
  have hcell : ∀ k bs, State.argCell { s with ports := q, errq := e, free := n, out := s.out ++ [.read f (s.fn f).entryAt 64] } h k bs = s.argCell h k bs :=
    fun _ _ => rfl
  have hcells : ∀ l, State.argCells { s with ports := q, errq := e, free := n, out := s.out ++ [.read f (s.fn f).entryAt 64] } h l = s.argCells h l := fun l => by
    induction l with
    | nil => rfl
    | cons a l ih => rw [State.argCells, State.argCells, ih, hcell]
  unfold State.runArgs
  simp only [hcells]

end same

/-! ### The cases of an entry -/

section entries
variable {s : State} {f : FnId} {bytes : List Byte} {i : Instr} (hlen : bytes.length = 64) (hr : Reads s f i bytes false false)
  (hm : cmdHsn bytes = (s.fn f).expHsn)
include hlen hr hm

section hedge
variable {h : HedgeId} (hq : (s.fn f).hedge = some h)
include hq

theorem entry_malformed (hs : shapeOk (bytes.take 64) = false) : Answers i s fun t => EntryRefused s t f (bytes.take 64) 0x07 := by
  obtain ⟨u, ha, hex⟩ := exec_reads hlen hr hm
  have hfn := ha.fn f
  exact ⟨_, hex, ha.refused (take_malformed (hfn ▸ hq) (hfn ▸ reads_posting hr) hs)⟩

theorem entry_fenced (hs : shapeOk (bytes.take 64) = true) (hf : cmdFence (bytes.take 64) = true) (hp : s.allPosted f h = false) :
    Answers i s fun t => EntryKept s t f ∧ (t.fn f).reread = (s.fn f).reread := by
  obtain ⟨u, ha, hex⟩ := exec_reads hlen hr hm
  have hfn := ha.fn f
  rw [take_fenced (hfn ▸ hq) hs hf ((ha.posted h).1.trans hp)] at hex
  refine ⟨u, hex, ⟨?_, ?_, ?_, ?_⟩, ?_⟩ <;> rw [hfn]

section shaped
variable (hs : shapeOk (bytes.take 64) = true) (hf : cmdFence (bytes.take 64) = true → s.allPosted f h = true)
include hs hf

theorem entry_plain (hop : cmdOp (bytes.take 64) ∈ [0x02, 0x03, 0x04, 0x05, 0x06]) (h6 : cmdOp (bytes.take 64) = 0x06 → s.allEnded f h = true) :
    Answers i s fun t => EntryTook s t f ∧ (t.fn f).cur = (s.fn f).cur ++ [Cmd.fresh (bytes.take 64) (s.drawStart (portOf f).val).1 none none] ∧
      (t.fn f).waiting = (s.fn f).waiting := by
  obtain ⟨u, ha, hex⟩ := exec_reads hlen hr hm
  obtain ⟨hp, he, -⟩ := ha.posted h
  have htake := take_plain (u := u) ((ha.fn f).symm ▸ hq) hs (fun hc => hp.trans (hf hc)) hop fun hc => he.trans (h6 hc)
  rw [(ha.start (bytes.take 64)).1] at htake
  exact ⟨_, hex, ha.took htake⟩

theorem entry_run {p : Prog} {args : List Cell} (hop : cmdOp (bytes.take 64) = 0x01) (hn : (s.hedge h).prog (cmdProg (bytes.take 64)) = some p)
    (hargs : s.runArgs h p (bytes.take 64) = .ok args ∨ intArgs p (bytes.take 64) = some args) (hfree : s.slotFree h) :
    Answers i s fun t => EntryTook s t f ∧ ∃ n, (s.slot n).state = .idle ∧
      (t.fn f).cur = (s.fn f).cur ++ [Cmd.fresh (bytes.take 64) (s.drawStart (portOf f).val).1 (some n)
        (if p.fastRun (bytes.take 64) then (s.fn f).targets.head?.join else none)] ∧
      t.slot n = { Slot.reset with
        state := .admitted, hedge := h, retry := p.retry, start := (s.drawStart (portOf f).val).1, cmd := bytes.take 64, prog := some p, args := args } ∧
      ∀ m, m ≠ n → t.slot m = s.slot m := by
  have hok : s.runArgs h p (bytes.take 64) = .ok args := hargs.elim id runArgs_ints
  obtain ⟨u, ha, hex⟩ := exec_reads hlen hr hm
  have hslot := ha.slot
  obtain ⟨hp, he, -⟩ := ha.posted h
  obtain ⟨n, hd⟩ := take_run_draws (u := u) ((ha.fn f).symm ▸ hq) hs (fun hc => hp.trans (hf hc)) hop (p := p) (args := args)
    (by rw [ha.hedge]; exact hn) ((ha.args h p _).trans hok) (ha.free h hfree)
  rw [(ha.start (bytes.take 64)).1] at hd
  obtain ⟨htook, hcur, -⟩ := ha.took hd.takes
  rw [ha.fn] at hcur
  exact ⟨_, hex, htook, n, hslot n ▸ hd.idle, hcur, hd.slot, fun m hm => (hd.others m hm).trans (hslot m)⟩

theorem entry_run_capped {p : Prog} {args : List Cell} (hop : cmdOp (bytes.take 64) = 0x01) (hn : (s.hedge h).prog (cmdProg (bytes.take 64)) = some p)
    (hargs : s.runArgs h p (bytes.take 64) = .ok args ∨ intArgs p (bytes.take 64) = some args) (hc : s.slotRoom h = .capped) :
    Answers i s fun t => EntryRefused s t f (bytes.take 64) 0x0B := by
  have hok : s.runArgs h p (bytes.take 64) = .ok args := hargs.elim id runArgs_ints
  obtain ⟨u, ha, hex⟩ := exec_reads hlen hr hm
  obtain ⟨hp, he, hroom⟩ := ha.posted h
  exact ⟨_, hex, ha.refused (take_run_capped (u := u) ((ha.fn f).symm ▸ hq) ((ha.fn f).symm ▸ reads_posting hr) hs (fun hc => hp.trans (hf hc)) hop
    (p := p) (args := args) (by rw [ha.hedge]; exact hn) ((ha.args h p _).trans hok) (hroom.trans hc))⟩

theorem entry_run_unknown (hop : cmdOp (bytes.take 64) = 0x01) (hn : (s.hedge h).prog (cmdProg (bytes.take 64)) = none) :
    Answers i s fun t => EntryRefused s t f (bytes.take 64) 0x05 := by
  obtain ⟨u, ha, hex⟩ := exec_reads hlen hr hm
  exact ⟨_, hex, ha.refused (take_run_unknown (u := u) ((ha.fn f).symm ▸ hq) ((ha.fn f).symm ▸ reads_posting hr) hs
    (fun hc => (ha.posted h).1.trans (hf hc)) hop (by rw [ha.hedge]; exact hn))⟩

section long
variable (hop : cmdOp (bytes.take 64) ∈ [0x10, 0x11, 0x12, 0x13])
include hop

theorem entry_long {p : Option Prog} {cmd : List Byte} {first : Nat} (hp1 : cmdOp (bytes.take 64) = 0x11 → p.isSome = true ∧ (s.hedge h).prog (cmdProg (bytes.take 64)) = p)
    (hp2 : cmdOp (bytes.take 64) ≠ 0x11 → p = none) (hfree : s.slotFree h)
    (hmap : cmdOp (bytes.take 64) = 0x13 → fieldOf cmd 16 6 + fieldOf cmd 24 8 ≤ 2 ^ 48) (hoper : s.operation h (bytes.take 64) = .ok (cmd, first)) :
    Answers i s fun t => EntryTook s t f ∧ (t.fn f).waiting = (s.fn f).waiting ∧
      (t.hedge h).tokens = ((s.hedge h).tokens.filter fun t => t.value != cmdParam (bytes.take 64) || t.late s.aoTick) ∧
      ∃ n, (s.slot n).state = .idle ∧ (t.fn f).cur = (s.fn f).cur ++ [Cmd.fresh (bytes.take 64) (s.stepStart f (bytes.take 64)) (some n) none] ∧
      t.slot n = { Slot.reset with
        state := .admitted, hedge := h, retry := p.elim 0 (·.retry), start := s.stepStart f (bytes.take 64), cmd := bytes.take 64, prog := p
        work := .step cmd first } ∧
      ∀ m, m ≠ n → t.slot m = s.slot m := by
  obtain ⟨u, ha, hex⟩ := exec_reads hlen hr hm
  have hslot := ha.slot
  have hl : u.longChecks h (bytes.take 64) = .ok (cmd, first, p) := longChecks_ok hop (by rw [ha.hedge]; exact hp1) hp2 hmap ((ha.operation h _).trans hoper)
  obtain ⟨n, hd, htok⟩ := take_long_draws (u := u) ((ha.fn f).symm ▸ hq) hs (fun hc => (ha.posted h).1.trans (hf hc)) hop hl (ha.free h hfree)
  rw [(ha.start (bytes.take 64)).2] at hd
  rw [ha.hedge, ha.tables.2.2.2.1] at htok
  obtain ⟨htook, hcur, hwait⟩ := ha.took hd.takes
  exact ⟨_, hex, htook, hwait, htok, n, hslot n ▸ hd.idle, hcur, hd.slot, fun m hm => (hd.others m hm).trans (hslot m)⟩

theorem entry_long_refused {st : Byte} (hoper : s.operation h (bytes.take 64) = .error st) :
    Answers i s fun t => EntryRefused s t f (bytes.take 64) st := by
  obtain ⟨u, ha, hex⟩ := exec_reads hlen hr hm
  exact ⟨_, hex, ha.refused (take_long_refused (u := u) ((ha.fn f).symm ▸ hq) ((ha.fn f).symm ▸ reads_posting hr) hs
    (fun hc => (ha.posted h).1.trans (hf hc)) hop ((ha.operation h _).trans hoper))⟩

end long

end shaped

end hedge

section admin
variable (hq : (s.fn f).hedge = none)
include hq

theorem entry_admin (hs : adminShapeOk (bytes.take 64) = true) (h3 : s.devstat = 3 → cmdOp (bytes.take 64) ∈ [0x81, 0x88, 0x89])
    (h9 : cmdOp (bytes.take 64) = 0x89 → s.updating = false) : Answers i s fun t => EntryTook s t f ∧
      (t.fn f).cur = (s.fn f).cur ++ [Cmd.fresh (bytes.take 64) 0 none none] := by
  obtain ⟨u, ha, hex⟩ := exec_reads hlen hr hm
  obtain ⟨-, -, hfns, -, hdev⟩ := ha.tables
  have hupd : u.updating = s.updating := by
    unfold State.updating
    rw [hfns]
  obtain ⟨htook, hcur, -⟩ := ha.took (take_admin_accepted (u := u) ((ha.fn f).symm ▸ hq) hs (hdev ▸ h3) fun hc => hupd.trans (h9 hc))
  exact ⟨_, hex, htook, hcur⟩

theorem entry_admin_malformed (hs : adminShapeOk (bytes.take 64) = false) : Answers i s fun t => EntryRefused s t f (bytes.take 64) 0x07 := by
  obtain ⟨u, ha, hex⟩ := exec_reads hlen hr hm
  exact ⟨_, hex, ha.refused (take_admin_malformed (u := u) ((ha.fn f).symm ▸ hq) ((ha.fn f).symm ▸ reads_posting hr) hs)⟩

end admin

end entries

/-! ### Operations of long commands -/

section operation
variable {s : State} {h : HedgeId} {b : List Byte}

theorem operation_begins (hp : cmdParam b = 0) : s.operation h b = .ok (b, 0) := if_pos hp

section token
variable (hp : cmdParam b ≠ 0)
include hp

theorem operation_continues {x : Token} (ht : (s.hedge h).tokens = [x]) (hv : x.value = cmdParam b) (ho : x.op.toNat = cmdOp b) :
    s.operation h b = if x.late s.aoTick then .error 0x03 else .ok (x.cmd, x.next) := by
  unfold State.operation
  dsimp only
  rw [if_neg hp, ht, List.find?_cons_of_pos (by rw [hv, ho]; simp)]

theorem operation_unknown (hno : ∀ x ∈ (s.hedge h).tokens, x.value = cmdParam b → x.op.toNat ≠ cmdOp b) : s.operation h b = .error 0x07 := by
  unfold State.operation
  dsimp only
  rw [if_neg hp, List.find?_eq_none.2 fun x hx => ?_]
  simpa using hno x hx

end token

end operation

/-- Settles O25: the cases of an entry that is read. -/
theorem submissionEntriesAreTakenUp : Obligations.SubmissionEntriesAreTakenUp := by
  intro s f bytes i q b next r asIs reads took kept refused hlen
  refine ⟨fun hr hm => ⟨fun h hq => ⟨entry_malformed hlen hr hm hq, entry_fenced hlen hr hm hq, fun hs hf => ⟨entry_plain hlen hr hm hq hs hf,
    fun p args hop hn hargs => ⟨entry_run hlen hr hm hq hs hf hop hn hargs, entry_run_capped hlen hr hm hq hs hf hop hn hargs⟩,
    entry_run_unknown hlen hr hm hq hs hf, fun hop p hp1 hp2 hfree cmd first start hmap hcase => ?_, fun hop hpar => ⟨fun hno => ?_, fun x ht hv ho hl => ?_⟩⟩⟩,
    fun hq => ⟨entry_admin hlen hr hm hq, entry_admin_malformed hlen hr hm hq⟩⟩,
    fun poison hm => ⟨commandRead_again hlen hm, fun n x => submitReread_again hm⟩, fun poison => reads_fault⟩
  · obtain ⟨hoper, hstart, hgone⟩ : s.operation h b = .ok (cmd, first) ∧ s.stepStart f b = start ∧ (cmdParam b ≠ 0 →
        ((s.hedge h).tokens.filter fun t => t.value != cmdParam b || t.late s.aoTick) = []) := by
      rcases hcase with ⟨hpar, rfl, rfl, rfl⟩ | ⟨hpar, rfl, x, ht, hv, ho, hl, rfl, rfl⟩
      · exact ⟨operation_begins hpar, if_pos hpar, fun hne => absurd hpar hne⟩
      · refine ⟨(operation_continues hpar ht hv ho).trans (if_neg (by simp [hl])), if_neg hpar, fun _ => ?_⟩
        rw [ht, List.filter_cons_of_neg (by simp [hv, hl]), List.filter_nil]
    obtain ⟨t, hex, htook, hwait, htok, n, hn⟩ := entry_long hlen hr hm hq hs hf hop hp1 hp2 hfree hmap hoper
    rw [hstart] at hn
    exact ⟨t, hex, htook, hwait, fun hpar => htok.trans (hgone hpar), n, hn⟩
  · exact entry_long_refused hlen hr hm hq hs hf hop (operation_unknown hpar hno)
  · exact entry_long_refused hlen hr hm hq hs hf hop ((operation_continues hpar ht hv ho).trans (if_pos hl))

end Sys2Proof.Machine
end

section
/-! Bytes in scratch (04 R133, 07 R220, 06 R192): what a run of bytes that is stored across cells leaves in them, and what an
execution that stores it makes of the device. -/

namespace Sys2Proof.Machine

/-! ### The bytes of a payload -/

theorem byteAt_natOfBytes : ∀ (bs : List Byte) (j : Nat), natOfBytes bs / 256 ^ j % 256 = (bs.getD j 0).toNat
  | [], j => by simp [natOfBytes]
  | b :: bs, 0 => by
    have := b.isLt
    simp only [natOfBytes, List.getD_cons_zero]
    omega
  | b :: bs, j + 1 => by
    have := b.isLt
    have h := byteAt_natOfBytes bs j
    rw [List.getD_cons_succ, ← h, natOfBytes, pow_succ', ← Nat.div_div_eq_div_mul]
    congr 2
    omega

theorem byteOfPay_toNat (v : Payload) (j : Nat) : (byteOfPay v j).toNat = v.toNat / 256 ^ j % 256 := by
  rw [byteOfPay, BitVec.extractLsb'_toNat, Nat.shiftRight_eq_div_pow, pow_mul]
  norm_num

theorem byteOfPay_payOfBytes {bs : List Byte} {j : Nat} (hj : j < 16) : byteOfPay (payOfBytes bs) j = bs.getD j 0 := by
  apply BitVec.eq_of_toNat_eq
  rw [byteOfPay_toNat, ← byteAt_natOfBytes, payOfBytes, BitVec.toNat_ofNat]
  have h : (2 : Nat) ^ 128 = 256 ^ j * 256 ^ (16 - j) := by rw [← pow_add, Nat.add_sub_cancel' hj.le]; norm_num
  rw [h, Nat.mod_mul_right_div_self, Nat.mod_mod_of_dvd]
  exact dvd_pow_self _ (by omega)

theorem bytesOfNat_getD : ∀ (n v j : Nat), j < n → (bytesOfNat n v).getD j 0 = BitVec.ofNat 8 (v / 256 ^ j)
  | 0, _, _, h => absurd h (Nat.not_lt_zero _)
  | n + 1, v, 0, _ => by simp [bytesOfNat]
  | n + 1, v, j + 1, h => by
    rw [bytesOfNat, List.getD_cons_succ, bytesOfNat_getD n _ j (by omega), Nat.div_div_eq_div_mul, ← pow_succ']

theorem bytesOfPay_getD {v : Payload} {j : Nat} (hj : j < 16) : (bytesOfPay v).getD j 0 = byteOfPay v j := by
  apply BitVec.eq_of_toNat_eq
  rw [bytesOfPay, bytesOfNat_getD 16 _ j hj, byteOfPay_toNat]
  rfl

/-- A patched payload reads as the bytes of the patch in their places, and as before elsewhere (04 R137). -/
theorem byteOfPay_payPatch {v : Payload} {lo j : Nat} {bs : List Byte} (hl : lo + bs.length ≤ 16) (hj : j < 16) :
    byteOfPay (payPatch v lo bs) j = if lo ≤ j ∧ j < lo + bs.length then bs.getD (j - lo) 0 else byteOfPay v j := by
  have hlen : (bytesOfPay v).length = 16 := bytesOfNat_length 16 _
  have htake : ((bytesOfPay v).take lo).length = lo := by rw [List.length_take, hlen]; omega
  rw [payPatch, byteOfPay_payOfBytes hj, ← bytesOfPay_getD hj, List.append_assoc]
  simp only [List.getD_eq_getElem?_getD]
  by_cases h1 : j < lo
  · rw [List.getElem?_append_left (by omega), List.getElem?_take_of_lt h1, if_neg (by omega)]
  · rw [List.getElem?_append_right (by omega), htake]
    by_cases h2 : j < lo + bs.length
    · rw [List.getElem?_append_left (by omega), if_pos ⟨by omega, h2⟩]
    · rw [List.getElem?_append_right (by omega), List.getElem?_drop, if_neg (by omega)]
      congr 2
      omega

/-! ### Runs of bytes -/

theorem mem_cellsOf {a n k : Nat} : k ∈ cellsOf a n ↔ 0 < n ∧ a / 16 ≤ k ∧ k ≤ (a + n - 1) / 16 := by
  unfold cellsOf
  split
  · simp only [List.not_mem_nil, false_iff]; omega
  · simp only [List.mem_map, List.mem_range]
    constructor
    · rintro ⟨i, hi, rfl⟩
      omega
    · rintro ⟨-, h1, h2⟩
      exact ⟨k - a / 16, by omega, by omega⟩

theorem cellsOf_nodup (a n : Nat) : (cellsOf a n).Nodup := by
  unfold cellsOf
  split
  · exact List.nodup_nil
  · exact List.nodup_range.map fun i j (h : a / 16 + i = a / 16 + j) => by omega

theorem cell_mem_cellsOf {a n j : Nat} (hj : j < n) : (a + j) / 16 ∈ cellsOf a n :=
  mem_cellsOf.2 ⟨by omega, by omega, by omega⟩

/-- Offset in cell `k` of the first byte of a run from `a`. -/
def runLo (a k : Nat) : Nat := if a ≤ 16 * k then 0 else a - 16 * k

/-- The bytes of a run from `a` that fall into cell `k`. -/
def runPart {α : Type} (a k : Nat) (bs : List α) : List α := (bs.drop (if a ≤ 16 * k then 16 * k - a else 0)).take (16 - runLo a k)

/-- A step that stores the part of a run that falls into cell `k` there, and changes nothing else. -/
structure StoresRun (f : Engine → Nat → Engine) (a : Nat) (bs : List Byte) : Prop where
  keeps : ∀ e k, Keeps e (f e k) (· = k)
  pay : ∀ e k, ((f e k).cell k).pay = payPatch (e.cell k).pay (runLo a k) (runPart a k bs)

theorem StoresRun.foldl_keeps {f : Engine → Nat → Engine} {a : Nat} {bs : List Byte} (h : StoresRun f a bs) :
    ∀ (l : List Nat) (e : Engine), Keeps e (l.foldl f e) (· ∈ l)
  | [], e => (Keeps.refl e).mono fun _ q => q.elim
  | k :: l, e => ((h.keeps e k).mono fun _ q => q ▸ List.mem_cons_self).trans
      ((h.foldl_keeps l (f e k)).mono fun _ q => List.mem_cons_of_mem _ q)

theorem StoresRun.foldl_pay {f : Engine → Nat → Engine} {a : Nat} {bs : List Byte} (h : StoresRun f a bs) {k : Nat} (l : List Nat) :
    ∀ e : Engine, l.Nodup → k ∈ l → ((l.foldl f e).cell k).pay = payPatch (e.cell k).pay (runLo a k) (runPart a k bs) := by
  induction l with
  | nil => exact fun e _ hm => absurd hm List.not_mem_nil
  | cons i l ih =>
    intro e hn hm
    obtain ⟨hi, hn⟩ := List.nodup_cons.1 hn
    rw [List.foldl_cons]
    rcases List.mem_cons.1 hm with rfl | hm
    · rw [← h.pay e k]
      exact congrArg Cell.pay ((h.foldl_keeps l (f e k)).cell hi)
    · have hk : (f e i).cell k = e.cell k := (h.keeps e i).cell fun q => hi (q ▸ hm)
      rw [ih (f e i) hn hm, hk]

/-- Stored across the cells that it covers, a run reads as its bytes. -/
theorem StoresRun.reads {f : Engine → Nat → Engine} {a : Nat} {bs : List Byte} (h : StoresRun f a bs) (e : Engine) {j : Nat}
    (hj : j < bs.length) :
    byteOfPay (((cellsOf a bs.length).foldl f e).cell ((a + j) / 16)).pay ((a + j) % 16) = bs.getD j 0 := by
  rw [h.foldl_pay _ e (cellsOf_nodup _ _) (cell_mem_cellsOf hj)]
  have hpart : (runPart a ((a + j) / 16) bs).length =
      min (16 - runLo a ((a + j) / 16)) (bs.length - (if a ≤ 16 * ((a + j) / 16) then 16 * ((a + j) / 16) - a else 0)) := by
    simp only [runPart, List.length_take, List.length_drop]
  rw [byteOfPay_payPatch (by rw [hpart]; unfold runLo; split <;> omega) (Nat.mod_lt _ (by norm_num)), if_pos]
  · simp only [runPart, List.getD_eq_getElem?_getD]
    rw [List.getElem?_take_of_lt (by unfold runLo; split <;> omega), List.getElem?_drop]
    congr 2
    unfold runLo
    split <;> omega
  · rw [hpart]
    unfold runLo
    split <;> omega

/-- A merged cell has its bytes in their place, poisoned or not (04 Table 4-9). -/
theorem mergeCell_pay (e : Engine) (k lo : Nat) (bs : List Byte) (p : Bool) :
    (e.mergeCell k lo bs p).pay = payPatch (e.cell k).pay lo bs := by
  unfold Engine.mergeCell
  dsimp only
  split <;> rfl

theorem storeNarrow_keeps (e : Engine) (k lo : Nat) (bs : List Byte) (p : Bool) : Keeps e (e.storeNarrow k lo bs p) (· = k) :=
  ((meet_keeps e k).mono fun _ q => q.elim).trans (push_keeps (e.meet k) k _)

theorem storeBytes_storesRun (a : Nat) (bs : List Byte) (p : Bool) :
    StoresRun (fun s k => s.storeNarrow k (runLo a k) (runPart a k bs) p) a bs where
  keeps e k := storeNarrow_keeps e k _ _ _
  pay e k := by rw [storeNarrow_cell, mergeCell_pay]

theorem storeBytes_keeps (e : Engine) (a : Nat) (bs : List Byte) (p : Bool) :
    Keeps e (e.storeBytes a bs p) (· ∈ cellsOf a bs.length) := (storeBytes_storesRun a bs p).foldl_keeps _ e

theorem storeBytes_reads (e : Engine) {a j : Nat} {bs : List Byte} (p : Bool) (hj : j < bs.length) :
    byteOfPay ((e.storeBytes a bs p).cell ((a + j) / 16)).pay ((a + j) % 16) = bs.getD j 0 := (storeBytes_storesRun a bs p).reads e hj

/-- What an execution merges into one cell (07 R220). -/
def Engine.runCell (e : Engine) (a k : Nat) (bs : List (Byte × Bool)) : Cell :=
  let part := runPart a k bs
  let m := e.mergeCell k (runLo a k) (part.map (·.1)) (part.any (·.2))
  if part.length = 16 then { m with p := part.any (·.2) } else m

theorem runCell_pay (e : Engine) (a k : Nat) (bs : List (Byte × Bool)) :
    (e.runCell a k bs).pay = payPatch (e.cell k).pay (runLo a k) (runPart a k (bs.map (·.1))) := by
  have h : runPart a k (bs.map (·.1)) = (runPart a k bs).map (·.1) := by simp only [runPart, List.map_take, List.map_drop]
  rw [h, ← mergeCell_pay]
  unfold Engine.runCell
  dsimp only
  split <;> rfl

theorem storeRun_storesRun (a : Nat) (bs : List (Byte × Bool)) :
    StoresRun (fun s k => ((s.meet k).push k (s.runCell a k bs)).mark k (decide (runLo a k < 8))
      (decide (8 < runLo a k + (runPart a k bs).length))) a (bs.map (·.1)) where
  keeps e k := ((meet_keeps e k).mono fun _ q => q.elim).trans (push_keeps (e.meet k) k _)
  pay e k := by rw [Engine.mark_cell, push_cell, if_pos rfl, runCell_pay]

theorem storeRun_keeps (e : Engine) (a : Nat) (bs : List (Byte × Bool)) : Keeps e (e.storeRun a bs) (· ∈ cellsOf a bs.length) :=
  (storeRun_storesRun a bs).foldl_keeps _ e

theorem storeRun_reads (e : Engine) {a j : Nat} {bs : List (Byte × Bool)} (hj : j < bs.length) :
    some (byteOfPay ((e.storeRun a bs).cell ((a + j) / 16)).pay ((a + j) % 16)) = (bs.map (·.1))[j]? := by
  have h := (storeRun_storesRun a bs).reads e (j := j) (by rwa [List.length_map])
  rw [List.length_map] at h
  rw [List.getElem?_eq_getElem (by rwa [List.length_map])]
  refine congrArg some (h.trans ?_)
  rw [List.getD_eq_getElem?_getD, List.getElem?_eq_getElem (by rwa [List.length_map]), Option.getD_some]

/-! ### Executions that store a run -/

/-- The state after an execution that leaves the view `v` and writes the cells of `p`, whatever it leaves of scratch. -/
structure Stores (s t : State) (x : Iss) (v : View) (p : Nat → Prop) (g : Engine) : Prop where
  view : { t.view x with stack := [] } = { v with stack := [] }
  whole : (∀ k, p k → ¬(t.view x).ownsCell k) → t.view x = v
  quiet : Quiet s t x
  kept : ScratchKept s t x p
  cells : ∀ k, ¬(t.view x).ownsCell k → (t.eng x.eng).cell k = g.cell k

/-- An answer that writes scratch. -/
theorem issue_stores {s : State} {x : Iss} {o : OpInfo} {op : Nat} {body : Env → Engine → Ctx → Except SFault Done} {d : Done}
    {p : Nat → Prop} {v : View} (hi : s.issues x o = true) (hb : body (s.env x o) (s.eng x.eng) (s.bodyCtx x o) = .ok d)
    (hu : ∀ u, d.unit = some u → s.unitReady x op u d.count = true) (hk : Keeps (s.eng x.eng) d.eng p)
    (hv : viewOf (s.eng x.eng) d.ctx = v) : Stores s (s.issue x o op body id) x v p d.eng := by
  obtain ⟨hview, hquiet, hkept, hcells⟩ := issue_quiet (op := op) hi hb hu hk
  refine ⟨by rw [hview, ← hv]; rfl, fun h => ?_, hquiet, hkept, fun k hn => hcells k (hview ▸ hn)⟩
  rw [hview] at h ⊢
  rw [← hv]
  have hown : ∀ k, (viewOf (s.eng x.eng) d.ctx).ownsCell k → d.eng.cell k = (s.eng x.eng).cell k := by
    refine fun k hk' => hk.cell fun hp => h k hp ?_
    simpa only [View.ownsCell, viewOf, stackOf_length] using hk'
  simp only [viewOf, stackOf_owned hown]

/-- The view that an execution of a string instruction leaves: at the next instruction once it is complete (07 R217). -/
def State.executed (s : State) (x : Iss) (o : OpInfo) (complete : Prop) [Decidable complete] (stack : List Cell) : View :=
  { s.view x with stack := stack, pb := none, pc := if complete then s.nextPc x o else (s.view x).pc }

theorem viewOf_execDone {s : State} {x : Iss} {o : OpInfo} (hi : s.issues x o = true) {g : Engine} {n : Nat} {c : Bool} {qs : List Cell}
    (hq : qs.length ≤ max o.pushes o.pops) :
    viewOf (s.eng x.eng) (execDone (s.env x o) g (s.bodyCtx x o) n o.pops c qs).ctx =
      s.executed x o (c = true) (qs.reverse ++ (s.view x).stack.drop o.pops) := by
  obtain ⟨hp, hlt⟩ := issues_depth hi
  have hd : (s.ctxAt x).depth.toNat - o.pops + qs.length < 2 ^ 15 := by
    have := (s.ctxAt x).depth.isLt
    rcases le_max_iff.1 hq with h | h <;> omega
  have h := stackOf_popPush (s.eng x.eng) (s.bodyCtx x o) o.pops qs hp hd
  unfold execDone State.executed
  cases c with
  | true => simp only [viewOf, h, if_true]; rfl
  | false =>
    have hpc : BitVec.ofNat 19 (s.env x o).pc = (s.view x).pc := BitVec.ofNat_toNat ..
    have h' : stackOf (s.eng x.eng) { (s.bodyCtx x o).popPush o.pops qs with pc := (s.view x).pc } =
      stackOf (s.eng x.eng) ((s.bodyCtx x o).popPush o.pops qs) := rfl
    simp only [hpc, Bool.false_eq_true, if_false, viewOf, h', h]
    rfl

end Sys2Proof.Machine
end

section
/-! O14: one execution of MVST, MVTR, CMST and SCST, the lookup of TLI in STEP mode, PACK and UNPK (07 R224 to R229, R237, R238, 06
R204 to R207). -/

namespace Sys2Proof.Machine

/-! ### MVST and MVTR -/

/-- A source and a destination of one move (07 R224 to R226): `w` bytes written, `n` of them read, which do not overlap, hold no
poison, and translate without. -/
structure Move (e : Engine) (q d : Cell) (cp w n : Nat) : Prop where
  read : n = Nat.min w (chrLen q - chrPos q)
  apart : chrAt q + n ≤ chrAt d ∨ chrAt d + w ≤ chrAt q
  clean : e.anyPoison (chrAt q) n = false
  tables : ∀ j, j < n → (e.translate cp (byteOfPay (e.cell ((chrAt q + j) / 16)).pay ((chrAt q + j) % 16))).2 = false

/-- Byte `j` of a move. -/
def movedByte (e : Engine) (q d : Cell) (cp n j : Nat) : Byte :=
  if j < n then (e.translate cp (byteOfPay (e.cell ((chrAt q + j) / 16)).pay ((chrAt q + j) % 16))).1 else chrPad d

theorem anyPoison_false {e : Engine} {a n j : Nat} (h : e.anyPoison a n = false) (hj : j < n) : (e.cell ((a + j) / 16)).p = false := by
  unfold Engine.anyPoison at h
  rw [List.any_eq_false] at h
  exact Bool.eq_false_iff.2 (h _ (cell_mem_cellsOf hj))

/-- Ascending from byte `j`, a move adds each byte in turn, and meets no poison. -/
theorem Move.bytes {e : Engine} {q d : Cell} {cp w n : Nat} (h : Move e q d cp w n) : ∀ (m j : Nat), j + m = w →
    moveBytes e q d cp m j ((List.range j).map fun i => (movedByte e q d cp n i, false)) false false =
      ((List.range w).map fun i => (movedByte e q d cp n i, false), false, false)
  | 0, j, hj => by rw [moveBytes, ← hj, Nat.add_zero]
  | m + 1, j, hj => by
    have hread := h.read
    have happart := h.apart
    have hnext := h.bytes m (j + 1) (by omega)
    rw [List.range_succ, List.map_append, List.map_singleton] at hnext
    have hn : n ≤ w := hread ▸ Nat.min_le_left ..
    have hnq : n ≤ chrLen q - chrPos q := hread ▸ Nat.min_le_right ..
    rw [moveBytes]
    by_cases hlt : j < n
    · have hseen : byteSeen e (chrAt d) ((List.range j).map fun i => (movedByte e q d cp n i, false)) (chrAt q + j) =
          (byteOfPay (e.cell ((chrAt q + j) / 16)).pay ((chrAt q + j) % 16), false) := by
        unfold byteSeen
        rw [List.length_map, List.length_range, if_neg (by omega), anyPoison_false h.clean hlt]
      rw [if_pos (by omega), hseen]
      simp only [h.tables j hlt, Bool.or_false]
      rw [← hnext, movedByte, if_pos hlt]
    · have hle : chrLen q - chrPos q ≤ j := by
        have : n = w ∨ n = chrLen q - chrPos q := by rw [hread]; exact min_choice ..
        omega
      rw [if_neg (by omega), ← hnext, movedByte, if_neg hlt]

/-- The facts of MVST and MVTR. -/
def moveInfo : OpInfo := { delayBad := true, pops := 2, pushes := 2, reads := 2 }

theorem wellFormed_chr {c : Cell} (ht : c.ty = tyCHR) (hs : c.sub = 0) : c.wellFormed = true := by
  rw [Cell.wellFormed, ht, hs]; rfl

theorem isChr_true {c : Cell} {k : BitVec 2} (ht : c.ty = tyCHR) (hs : c.sub = k) : isChr c k = true := by
  simp [isChr, ht, hs]

/-- A descriptor that may be used as a plain string (07 R213). -/
structure Cell.IsString (c : Cell) : Prop where
  ty : c.ty = tyCHR
  sub : c.sub = 0
  unpoisoned : c.p = false
  ok : chrOk c = true

theorem Cell.IsString.checked {c : Cell} (h : c.IsString) : c.wellFormed = true ∧ isChr c 0 = true :=
  ⟨wellFormed_chr h.ty h.sub, isChr_true h.ty h.sub⟩

theorem Cell.IsString.use {c : Cell} (h : c.IsString) (n : Nat) : chrUse n c = .ok () := by rw [chrUse, h.unpoisoned]; rfl

theorem Cell.IsString.form {c : Cell} (h : c.IsString) (n : Nat) : chrForm n c = .ok () := by rw [chrForm, h.ok]; rfl

theorem Cell.IsString.tags {a b : Cell} (ha : a.IsString) (hb : b.IsString) :
    chrTags [(0, a, isChr a 0), (1, b, isChr b 0)] = .ok () :=
  tagCheck_ok _ _ (by rintro z (_ | ⟨_, _ | ⟨_, _ | _⟩⟩) <;> [exact ha.checked; exact hb.checked])

/-- What passes the checks of one move. -/
structure MoveChecked (v : Env) (e : Engine) (tr : Bool) (d q : Cell) (w n : Nat) : Prop where
  code : tr = true → cpCheck e 0 d = .ok ()
  read : readRegion v e 1 q (chrAt q) n = .ok ()
  write : writeRegion v e 0 (chrAt d) w = .ok ()
  targets : byteTargets v e (chrAt d) w = .ok ()
  tags : byteTags v e (chrAt d) w = .ok ()

/-- The run that a move leaves in the destination. -/
def moveRun (e : Engine) (q d : Cell) (cp w n : Nat) : List (Byte × Bool) :=
  (List.range w).map fun i => (movedByte e q d cp n i, false)

theorem moveString_ok {s : State} {x : Iss} {tr : Bool} {d q : Cell} {r : List Cell} {w n : Nat}
    (hs : (s.view x).stack = d :: q :: r) (hd : d.IsString) (hq : q.IsString)
    (hw : w = Nat.min (if tr then 32 else 64) (chrLen d - chrPos d)) (hc : MoveChecked (s.env x moveInfo) (s.eng x.eng) tr d q w n)
    (hm : Move (s.eng x.eng) q d (if tr then chrCp d else 0) w n) :
    moveString tr (s.env x moveInfo) (s.eng x.eng) (s.bodyCtx x moveInfo) =
      .ok (execDone (s.env x moveInfo)
        (((s.eng x.eng).meetAll (cellsOf (chrAt q) n)).storeRun (chrAt d)
          (moveRun (s.eng x.eng) q d (if tr then chrCp d else 0) w n))
        (s.bodyCtx x moveInfo) (if tr then 10 else 6) 2 (chrPos d + w == chrLen d)
        [chrStep q (chrPos q + n) false, chrStep d (chrPos d + w) false]) := by
  have h0 : stackTop (s.eng x.eng) (s.bodyCtx x moveInfo) 0 = d := bodyCtx_stackTop hs (by simp)
  have h1 : stackTop (s.eng x.eng) (s.bodyCtx x moveInfo) 1 = q := bodyCtx_stackTop hs (by simp)
  have hrun := hm.bytes w 0 (Nat.zero_add w)
  rw [List.range_zero, List.map_nil] at hrun
  unfold moveString
  simp only [h0, h1, hd.tags hq, hd.use, hq.use, hd.form, hq.form, ok_bind, chrLeft, ← hw, ← hm.read, hc.read, hc.write, hc.targets, hc.tags, hrun]
  split
  · next h => rw [hc.code h]; rfl
  · rfl

theorem moveRun_length (e : Engine) (q d : Cell) (cp w n : Nat) : (moveRun e q d cp w n).length = w := by
  rw [moveRun, List.length_map, List.length_range]

theorem moveRun_getElem {e : Engine} {q d : Cell} {cp w n j : Nat} (hj : j < w) :
    ((moveRun e q d cp w n).map (·.1))[j]? = some (movedByte e q d cp n j) := by
  rw [moveRun, List.map_map, List.getElem?_map, List.getElem?_range hj]
  rfl

/-- One execution of MVST or MVTR (07 R224 to R226). -/
theorem move_stores {s : State} {x : Iss} {tr : Bool} {d q : Cell} {r : List Cell} {w n : Nat} (hi : s.issues x moveInfo = true)
    (hs : (s.view x).stack = d :: q :: r) (hd : d.IsString) (hq : q.IsString)
    (hw : w = Nat.min (if tr then 32 else 64) (chrLen d - chrPos d)) (hc : MoveChecked (s.env x moveInfo) (s.eng x.eng) tr d q w n)
    (hm : Move (s.eng x.eng) q d (if tr then chrCp d else 0) w n)
    (hu : s.unitReady x (if tr then 0xB1 else 0xB0) .ucode (if tr then 10 else 6) = true) :
    ∃ t g, exec (if tr then .mvtr x else .mvst x) s = .next t ∧
      Stores s t x (s.executed x moveInfo (chrPos d + w = chrLen d)
        (chrStep d (chrPos d + w) false :: chrStep q (chrPos q + n) false :: r)) (· ∈ cellsOf (chrAt d) w) g ∧
      ∀ j, j < w → byteOfPay (g.cell ((chrAt d + j) / 16)).pay ((chrAt d + j) % 16) =
        movedByte (s.eng x.eng) q d (if tr then chrCp d else 0) n j := by
  have hex : exec (if tr then .mvtr x else .mvst x) s =
      .next (s.issue x moveInfo (if tr then 0xB1 else 0xB0) (moveString tr) id) := by cases tr <;> rfl
  have hb := moveString_ok hs hd hq hw hc hm
  refine ⟨_, _, hex, issue_stores hi hb (unitReady_of_some hu) ?_ ?_, fun j hj => ?_⟩
  · have h := storeRun_keeps ((s.eng x.eng).meetAll (cellsOf (chrAt q) n)) (chrAt d)
      (moveRun (s.eng x.eng) q d (if tr then chrCp d else 0) w n)
    rw [moveRun_length] at h
    exact ((meetAll_keeps _ _).mono fun _ h => h.elim).trans h
  · refine (viewOf_execDone hi (o := moveInfo) (qs := [_, _]) (Nat.le_refl 2)).trans ?_
    rw [hs]
    simp only [beq_iff_eq]
    rfl
  · have h := storeRun_reads ((s.eng x.eng).meetAll (cellsOf (chrAt q) n)) (a := chrAt d)
      (bs := moveRun (s.eng x.eng) q d (if tr then chrCp d else 0) w n) (j := j) (by rwa [moveRun_length])
    rw [moveRun_getElem hj] at h
    exact Option.some.inj h

/-! ### CMST and SCST -/

/-- A string execution that only reads: it steps its descriptors, and goes on when it is complete. -/
theorem does_executed {i : Instr} {s : State} {x : Iss} {o : OpInfo} {op n : Nat} {body : Env → Engine → Ctx → Except SFault Done}
    (l : List Nat) {c : Bool} {qs after : List Cell} (hex : exec i s = .next (s.issue x o op body id)) (hi : s.issues x o = true)
    (hb : body (s.env x o) (s.eng x.eng) (s.bodyCtx x o) = .ok (execDone (s.env x o) ((s.eng x.eng).meetAll l) (s.bodyCtx x o) n o.pops c qs))
    (hu : s.unitReady x op .ucode n = true) (hq : qs.length ≤ max o.pushes o.pops)
    (ha : qs.reverse ++ (s.view x).stack.drop o.pops = after) : Does i s x (s.executed x o (c = true) after) := by
  have h := issue_stores hi hb (unitReady_of_some hu) (meetAll_keeps _ _) (viewOf_execDone hi hq)
  exact ha ▸ ⟨_, hex, h.whole fun _ h => h.elim, h.quiet, h.kept⟩

/-- A string whose code page is one of the engine's (07 R222). -/
structure Cell.IsTranslated (e : Engine) (c : Cell) : Prop where
  string : c.IsString
  page : chrCp c ≤ e.cptCount.toNat

theorem Cell.IsTranslated.code {e : Engine} {c : Cell} (h : c.IsTranslated e) (n : Nat) : cpCheck e n c = .ok () := by
  rw [cpCheck, decide_eq_true h.page]; rfl

/-- The result of a comparison, none while it goes on (07 R228). -/
def cmpResult (a b : Cell) (p : Nat × Nat × Bool × Bool × Option Int) : Option Int :=
  match p.2.2.2.2 with
  | some k => some k
  | none => if p.1 = chrLen a ∧ p.2.1 = chrLen b then some 0 else none

/-- The facts of CMST. -/
def cmstInfo : OpInfo := { delayBad := true, pops := 2, pushes := 3, reads := 2 }

section
variable {s : State} {x : Iss} {a b : Cell} {r : List Cell} (hs : (s.view x).stack = b :: a :: r) (ha : a.IsTranslated (s.eng x.eng))
include hs ha

theorem cmst_does (hi : s.issues x cmstInfo = true) (hu : s.unitReady x 0xB2 .ucode 6 = true) (hb : b.IsTranslated (s.eng x.eng))
    (hra : readRegion (s.env x cmstInfo) (s.eng x.eng) 1 a (chrAt a) (Nat.min 64 (chrLeft a)) = .ok ())
    (hrb : readRegion (s.env x cmstInfo) (s.eng x.eng) 0 b (chrAt b) (Nat.min 64 (chrLeft b)) = .ok ())
    {p : Nat × Nat × Bool × Bool × Option Int} (hp : cmpPairs (s.eng x.eng) a b 64 (chrPos a) (chrPos b) false false = p)
    {a' b' : Cell} (ha' : chrStep a p.1 p.2.2.1 = a') (hb' : chrStep b p.2.1 p.2.2.2.1 = b') :
    Does (.cmst x) s x (match cmpResult a b p with
      | some k => s.executed x cmstInfo (true = true) (cellInt k (bit a'.pay 57 || bit b'.pay 57) :: b' :: a' :: r)
      | none => s.executed x cmstInfo (false = true) (b' :: a' :: r)) := by
  have h0 : stackTop (s.eng x.eng) (s.bodyCtx x cmstInfo) 0 = b := bodyCtx_stackTop hs (by simp)
  have h1 : stackTop (s.eng x.eng) (s.bodyCtx x cmstInfo) 1 = a := bodyCtx_stackTop hs (by simp)
  subst ha' hb' hp
  cases hres : cmpResult a b (cmpPairs (s.eng x.eng) a b 64 (chrPos a) (chrPos b) false false) with
  | some k =>
    refine does_executed (cellsOf (chrAt a) (Nat.min 64 (chrLeft a)) ++ cellsOf (chrAt b) (Nat.min 64 (chrLeft b))) (o := cmstInfo) (op := 0xB2) (n := 6) (c := true) rfl hi ?_ hu
      (qs := [_, _, _]) (Nat.le_refl 3) (by rw [hs]; rfl)
    simp only [h0, h1, hb.string.tags ha.string, hb.string.use, ha.string.use, hb.string.form, ha.string.form, hb.code, ha.code, hra, hrb,
      ok_bind]
    change (match cmpResult a b _ with | some k => _ | none => _) = _
    rw [hres]
    rfl
  | none =>
    refine does_executed (cellsOf (chrAt a) (Nat.min 64 (chrLeft a)) ++ cellsOf (chrAt b) (Nat.min 64 (chrLeft b))) (o := cmstInfo) (op := 0xB2) (n := 6) (c := false) rfl hi ?_ hu
      (qs := [_, _]) (Nat.le_succ 2) (by rw [hs]; rfl)
    simp only [h0, h1, hb.string.tags ha.string, hb.string.use, ha.string.use, hb.string.form, ha.string.form, hb.code, ha.code, hra, hrb,
      ok_bind]
    change (match cmpResult a b _ with | some k => _ | none => _) = _
    rw [hres]
    rfl

/-- The facts of SCST. -/
def scstInfo : OpInfo := { delayBad := true, pops := 2, pushes := 2, reads := 2 }

theorem scst_does (hi : s.issues x scstInfo = true) (hu : s.unitReady x 0xB3 .ucode 6 = true) (hty : b.ty = tyINT) (hsub : b.sub = 0)
    (hbits : bits b.pay 63 9 = 0) (hr : readRegion (s.env x scstInfo) (s.eng x.eng) 1 a (chrAt a) (Nat.min 64 (chrLeft a)) = .ok ())
    {p : Nat × Bool × Bool} (hp : scanBytes (s.eng x.eng) a (b.pay.extractLsb' 0 8) (bit b.pay 8) 64 (chrPos a) false = p)
    {a' : Cell} (ha' : chrStep a p.1 p.2.1 = a') :
    Does (.scst x) s x (if p.2.2 || p.1 == chrLen a
      then s.executed x scstInfo (true = true) (cellBool p.2.2 (bit a'.pay 57 || b.p) :: a' :: r)
      else s.executed x scstInfo (false = true) (b :: a' :: r)) := by
  have h0 : stackTop (s.eng x.eng) (s.bodyCtx x scstInfo) 0 = b := bodyCtx_stackTop hs (by simp)
  have h1 : stackTop (s.eng x.eng) (s.bodyCtx x scstInfo) 1 = a := bodyCtx_stackTop hs (by simp)
  have htags : chrTags [(0, b, b.isInt), (1, a, isChr a 0)] = .ok () := by
    have hint : b.wellFormed = true ∧ b.isInt = true := ⟨by rw [Cell.wellFormed, hty, hsub]; rfl, decide_eq_true hty⟩
    exact tagCheck_ok _ _ (by rintro z (_ | ⟨_, _ | ⟨_, _ | _⟩⟩) <;> [exact hint; exact ha.string.checked])
  have hbyte : (bits b.pay 63 9 == 0) = true := beq_iff_eq.2 hbits
  subst ha' hp
  split
  · next hend =>
    refine does_executed (cellsOf (chrAt a) (Nat.min 64 (chrLeft a))) (o := scstInfo) (op := 0xB3) (n := 6) (c := true) rfl hi ?_ hu
      (qs := [_, _]) (Nat.le_refl 2) (by rw [hs]; rfl)
    simp only [h0, h1, htags, ha.string.use, hbyte, ensure_true, ha.string.form, ha.code, hr, ok_bind]
    rw [if_pos hend]
    rfl
  · next hend =>
    refine does_executed (cellsOf (chrAt a) (Nat.min 64 (chrLeft a))) (o := scstInfo) (op := 0xB3) (n := 6) (c := false) rfl hi ?_ hu
      (qs := [_, _]) (Nat.le_refl 2) (by rw [hs]; rfl)
    simp only [h0, h1, htags, ha.string.use, hbyte, ensure_true, ha.string.form, ha.code, hr, ok_bind]
    rw [if_neg hend]
    rfl
end

/-! ### TLI -/

/-- Where a number lies among the numbers and the infinities. -/
def Ext.place : Ext → WithBot (WithTop ℤ)
  | .ninf => ⊥
  | .val v => ((v : WithTop ℤ) : WithBot (WithTop ℤ))
  | .pinf => ((⊤ : WithTop ℤ) : WithBot (WithTop ℤ))

theorem Ext.place_val_lt_pinf (v : Int) : (Ext.val v).place < Ext.pinf.place := WithBot.coe_lt_coe.2 (WithTop.coe_lt_top v)

theorem Ext.place_val_lt_val {v w : Int} : (Ext.val v).place < (Ext.val w).place ↔ v < w := by
  rw [Ext.place, Ext.place, WithBot.coe_lt_coe, WithTop.coe_lt_coe]

theorem Ext.cmp_eq_compare : ∀ x y : Ext, x.cmp y = compare x.place y.place
  | .ninf, .ninf | .pinf, .pinf => (compare_eq_iff_eq.2 rfl).symm
  | .ninf, .val _ | .ninf, .pinf => (compare_lt_iff_lt.2 (WithBot.bot_lt_coe _)).symm
  | .val _, .ninf | .pinf, .ninf => (compare_gt_iff_gt.2 (WithBot.bot_lt_coe _)).symm
  | .val v, .pinf => (compare_lt_iff_lt.2 (Ext.place_val_lt_pinf v)).symm
  | .pinf, .val v => (compare_gt_iff_gt.2 (Ext.place_val_lt_pinf v)).symm
  | .val v, .val w => by
    rw [Ext.cmp]
    rcases lt_trichotomy v w with h | rfl | h
    · rw [compare_lt_iff_lt.2 h, compare_lt_iff_lt.2 (Ext.place_val_lt_val.2 h)]
    · rw [compare_eq_iff_eq.2 rfl, compare_eq_iff_eq.2 rfl]
    · rw [compare_gt_iff_gt.2 h, compare_gt_iff_gt.2 (Ext.place_val_lt_val.2 h)]

theorem extLt_iff {a b : Option Ext} : extLt a b = true ↔ ∃ x y, a = some x ∧ b = some y ∧ x.place < y.place := by
  cases a <;> cases b <;> simp [extLt, Ext.cmp_eq_compare, compare_lt_iff_lt]

theorem extLe_iff {a b : Option Ext} : extLe a b = true ↔ ∃ x y, a = some x ∧ b = some y ∧ x.place ≤ y.place := by
  cases a <;> cases b <;> simp [extLe, Ext.cmp_eq_compare, compare_gt_iff_gt]

theorem extLe_trans {a b c : Option Ext} (h : extLe a b = true) (k : extLe b c = true) : extLe a c = true := by
  obtain ⟨x, y, rfl, rfl, hxy⟩ := extLe_iff.1 h
  obtain ⟨y', z, hy, rfl, hyz⟩ := extLe_iff.1 k
  obtain rfl := Option.some.inj hy
  exact extLe_iff.2 ⟨x, z, rfl, rfl, hxy.trans hyz⟩

theorem extLe_of_extLt {a b : Option Ext} (h : extLt a b = true) : extLe a b = true := by
  obtain ⟨x, y, ha, hb, hxy⟩ := extLt_iff.1 h
  exact extLe_iff.2 ⟨x, y, ha, hb, hxy.le⟩

theorem extLt_of_extLt_of_extLe {a b c : Option Ext} (h : extLt a b = true) (k : extLe b c = true) : extLt a c = true := by
  obtain ⟨x, y, rfl, rfl, hxy⟩ := extLt_iff.1 h
  obtain ⟨y', z, hy, rfl, hyz⟩ := extLe_iff.1 k
  obtain rfl := Option.some.inj hy
  exact extLt_iff.2 ⟨x, z, rfl, rfl, hxy.trans_le hyz⟩

theorem extLt_false_of_extLe {a b : Option Ext} (h : extLe b a = true) : extLt a b = false := by
  obtain ⟨y, x, rfl, rfl, hyx⟩ := extLe_iff.1 h
  refine Bool.eq_false_iff.2 fun hlt => ?_
  obtain ⟨x', y', hx, hy, hxy⟩ := extLt_iff.1 hlt
  obtain rfl := Option.some.inj hx
  obtain rfl := Option.some.inj hy
  exact hyx.not_gt hxy

theorem extLe_false_of_extLt {a b : Option Ext} (h : extLt b a = true) : extLe a b = false :=
  Bool.eq_false_iff.2 fun hle => absurd h (Bool.eq_false_iff.1 (extLt_false_of_extLe hle))

/-- `n` rising keys of which `x` reaches key `j` and no later one (07 R237). -/
structure Reaches (key : Nat → Option Ext) (x : Option Ext) (n j : Nat) : Prop where
  rising : ∀ i, i + 1 < n → extLt (key i) (key (i + 1)) = true
  lt : j < n
  le : extLe (key j) x = true
  next : j + 1 < n → extLt x (key (j + 1)) = true
  last : j + 1 = n → extLt (key j) x = false

theorem Reaches.mono {key : Nat → Option Ext} {x : Option Ext} {n j : Nat} (h : Reaches key x n j) {i : Nat} :
    ∀ k, i < k → k < n → extLe (key i) (key k) = true := by
  intro k hik
  induction k, hik using Nat.le_induction with
  | base => exact fun hk => extLe_of_extLt (h.rising i hk)
  | succ k _ ih => exact fun hk => extLe_trans (ih (by omega)) (extLe_of_extLt (h.rising k hk))

theorem Reaches.le_iff {key : Nat → Option Ext} {x : Option Ext} {n j m : Nat} (h : Reaches key x n j) (hm : m < n) :
    extLe (key m) x = decide (m ≤ j) := by
  rcases lt_trichotomy m j with hlt | rfl | hlt
  · rw [extLe_trans (h.mono j hlt h.lt) h.le, decide_eq_true hlt.le]
  · rw [h.le, decide_eq_true le_rfl]
  · rw [decide_eq_false hlt.not_ge]
    have hx := h.next (by omega)
    rcases eq_or_lt_of_le (Nat.succ_le_of_lt hlt) with rfl | hlt'
    · exact extLe_false_of_extLt hx
    · exact extLe_false_of_extLt (extLt_of_extLt_of_extLe hx (h.mono m hlt' hm))

/-- The binary search ends at the last key that x reaches, and probes keys of the table (07 R237). -/
theorem Reaches.search {key : Nat → Option Ext} {x : Option Ext} {n j : Nat} (h : Reaches key x n j) : ∀ (f lo hi : Nat) (ps : List Nat),
    lo ≤ j → j ≤ hi → hi < n → hi - lo ≤ 2 ^ f → (∀ m ∈ ps, m < n) →
      (rateSearch key x f lo hi ps).1 = j ∧ ∀ m ∈ (rateSearch key x f lo hi ps).2, m < n := by
  have hlast : ∀ lo hi, lo ≤ j → j ≤ hi → hi < n → hi - lo ≤ 1 → (if extLe (key hi) x then hi else lo) = j := by
    intro lo hi h1 h2 h3 h4
    rw [h.le_iff h3]
    simp only [decide_eq_true_eq]
    split <;> omega
  intro f
  induction f with
  | zero => exact fun lo hi ps h1 h2 h3 h4 h5 => ⟨hlast lo hi h1 h2 h3 h4, h5⟩
  | succ f ih =>
    intro lo hi ps h1 h2 h3 h4 h5
    rw [rateSearch]
    split
    · have hmid : (lo + hi) / 2 < n := by omega
      have hps : ∀ m ∈ ps ++ [(lo + hi) / 2], m < n := by
        intro m hm
        rcases List.mem_append.1 hm with hm | hm
        · exact h5 m hm
        · rwa [List.mem_singleton.1 hm]
      dsimp only
      rw [h.le_iff hmid]
      simp only [decide_eq_true_eq]
      split
      · next hle => exact ih _ _ _ hle h2 h3 (by omega) hps
      · exact ih _ _ _ h1 (by omega) hmid (by omega) hps
    · exact ⟨hlast lo hi h1 h2 h3 (by omega), h5⟩

/-- A lookup in STEP mode of a value within the keys (07 R237, R238). -/
theorem Reaches.lookup {g : Rate} {key : Nat → Option Ext} {x : Option Ext} {j : Nat} (h : Reaches key x g.points j) (hm : g.mode = 0)
    (hn : g.points ≤ 2 ^ 12) :
    (rateLookup g key x).i = j ∧ (∀ m ∈ (rateLookup g key x).probes, m < g.points) ∧ (rateLookup g key x).fault = false ∧
      (rateLookup g key x).seg = none := by
  have hlt := h.lt
  have hlow : extLt x (key 0) = false := extLt_false_of_extLe (by rw [h.le_iff (by omega)]; exact decide_eq_true (Nat.zero_le _))
  have hhigh : extLt (key (g.points - 1)) x = false := by
    rcases eq_or_ne (j + 1) g.points with hj | hj
    · rw [← hj]; exact h.last hj
    · have hx := h.next (by omega)
      refine extLt_false_of_extLe (extLe_of_extLt ?_)
      rcases eq_or_ne (j + 1) (g.points - 1) with hk | hk
      · rwa [← hk]
      · exact extLt_of_extLt_of_extLe hx (h.mono _ (by omega) (by omega))
  obtain ⟨hi, hp⟩ := h.search 13 0 (g.points - 1) [] (Nat.zero_le _) (by omega) (by omega) (by norm_num at hn ⊢; omega)
    (fun _ hm => nomatch hm)
  unfold rateLookup
  simp only [hlow, hhigh, Bool.false_eq_true, if_false]
  exact ⟨hi, hp, trivial, if_neg fun hq => absurd (hm.symm.trans hq.1) (by decide)⟩

/-- Touched cells of their TYPEs (07 R241). -/
theorem touchedTypes_ok {e : Engine} : ∀ {l : List (Nat × BitVec 4)},
    (∀ t ∈ l, (e.cell t.1).ty = t.2 ∧ (e.cell t.1).wellFormed = true) → touchedTypes e l = .ok ()
  | [], _ => rfl
  | (k, ty) :: l, h => by
    obtain ⟨hty, hw⟩ := h (k, ty) List.mem_cons_self
    rw [touchedTypes, hw, decide_eq_true hty, Bool.and_self, if_pos rfl]
    exact touchedTypes_ok fun t ht => h t (List.mem_cons_of_mem _ ht)

/-- Touched decimals that are valid (07 R241). -/
theorem touchedValid_ok {e : Engine} : ∀ {l : List (Nat × BitVec 4)}, (∀ t ∈ l, t.2 = tyDEC → decBad (e.cell t.1).pay = none) →
    touchedValid e l = .ok ()
  | [], _ => rfl
  | (k, ty) :: l, h => by
    have hrest : touchedValid e l = .ok () := touchedValid_ok fun t ht => h t (List.mem_cons_of_mem _ ht)
    rw [touchedValid]
    split
    · next hd =>
      rw [h (k, ty) List.mem_cons_self (by simpa using And.left (Bool.and_eq_true_iff.1 hd))]
      exact hrest
    · exact hrest

/-- A cell of a rate table that a lookup may touch (07 R241). -/
def Cell.IsEntry (c : Cell) (ty : BitVec 4) : Prop :=
  c.ty = ty ∧ c.wellFormed = true ∧ c.p = false ∧ (ty = tyDEC → decBad c.pay = none)

/-- A rate table of STEP mode in scratch whose keys and values are entries (07 R234, R235). -/
structure Tabled (e : Engine) (g : Rate) : Prop where
  step : g.mode = 0
  points : g.points ≤ 2 ^ 12
  keys : ∀ i, i < g.points → (e.cell (g.keyK i)).IsEntry g.keyTy
  vals : ∀ i, i < g.points → (e.cell (g.valK i)).IsEntry g.valTy

theorem rateOf_points (q : Cell) : (rateOf q).points ≤ 2 ^ 12 :=
  Nat.succ_le_of_lt (Nat.mod_lt _ (by norm_num))

theorem keyTy_eq_dec {g : Rate} : g.keyTy = tyDEC ↔ g.kt = 1 := by
  unfold Rate.keyTy
  split
  · next h => rw [h]; decide
  · next h => rw [h]; decide
  · next h => rw [h]; decide
  · next h1 h2 h3 => exact ⟨fun hk => absurd hk (by decide), fun hk => (h2 hk).elim⟩

theorem valTy_eq_dec {g : Rate} : g.valTy = tyDEC ↔ g.vtFlt = false := by
  unfold Rate.valTy
  cases g.vtFlt <;> decide

theorem wellFormed_val {g : Rate} {c : Cell} (ht : c.ty = g.valTy) (hs : c.sub = 0) : c.wellFormed = true := by
  rw [Cell.wellFormed, ht, hs, Rate.valTy]
  cases g.vtFlt <;> decide

/-- The cells that a lookup in STEP mode touches: the end keys, those probed, and the value found (07 R241). -/
def Rate.touched (g : Rate) (l : Lookup) : List (Nat × BitVec 4) :=
  [(g.keyK 0, g.keyTy), (g.keyK (g.points - 1), g.keyTy)] ++ l.probes.map (fun j => (g.keyK j, g.keyTy)) ++ [(g.valK l.i, g.valTy)]

theorem Tabled.touched {e : Engine} {g : Rate} (h : Tabled e g) {l : Lookup} (hi : l.i < g.points) (hp : ∀ m ∈ l.probes, m < g.points) :
    ∀ t ∈ g.touched l, (e.cell t.1).IsEntry t.2 := by
  intro t ht
  simp only [Rate.touched, List.mem_append, List.mem_cons, List.not_mem_nil, or_false, List.mem_map] at ht
  rcases ht with ((rfl | rfl) | ⟨m, hm, rfl⟩) | rfl
  · exact h.keys _ (by omega)
  · exact h.keys _ (by omega)
  · exact h.keys m (hp m hm)
  · exact h.vals _ hi

/-- The facts of TLI. -/
def tliInfo : OpInfo := { rnd := true, delayBad := true, pops := 2, pushes := 2, reads := 2 }

section
variable {s : State} {x : Iss} {k q : Cell} {r : List Cell} {j : Nat} (hs : (s.view x).stack = k :: q :: r)
include hs

theorem tliBody_ok {v : Payload} (hty : q.ty = tyRATE) (hsub : q.sub = 0) (hp : q.p = false) (hok : rateOk q = true)
    (hkt : k.ty = (rateOf q).keyTy) (hkw : k.wellFormed = true) (hku : (rateOf q).kt = 1 → decUse 0 k = .ok ())
    (hr : readRegion (s.env x tliInfo) (s.eng x.eng) 1 q (rateOf q).base (32 * ((rateOf q).points + 1)) 5 = .ok ())
    (ht : Tabled (s.eng x.eng) (rateOf q))
    (hj : Reaches (fun i => rateNum (rateOf q).keyTy ((s.eng x.eng).cell ((rateOf q).keyK i))) (rateNum (rateOf q).keyTy k)
      (rateOf q).points j) :
    ∃ l, tliBody v (s.env x tliInfo) (s.eng x.eng) (s.bodyCtx x tliInfo) = .ok
      { count := 20, unit := some .ucode, eng := (s.eng x.eng).meetAll l
        ctx := (s.bodyCtx x tliInfo).popPush 2 [q, rateCopy (rateOf q) k.p ((s.eng x.eng).cell ((rateOf q).valK j))] } := by
  have h0 : stackTop (s.eng x.eng) (s.bodyCtx x tliInfo) 0 = k := bodyCtx_stackTop hs (by simp)
  have h1 : stackTop (s.eng x.eng) (s.bodyCtx x tliInfo) 1 = q := bodyCtx_stackTop hs (by simp)
  have htags : ∀ nochk, tagCheck nochk [(0, k, true), (1, q, decide (q.ty = tyRATE))] = .ok () := by
    have hq : q.wellFormed = true := by rw [Cell.wellFormed, hty, hsub]; rfl
    refine fun nochk => tagCheck_ok _ _ ?_
    rintro z (_ | ⟨_, _ | ⟨_, _ | _⟩⟩) <;> [exact ⟨hkw, rfl⟩; exact ⟨hq, decide_eq_true hty⟩]
  have hx : (rateNum (rateOf q).keyTy k).isSome = true := by
    obtain ⟨-, y, -, hy, -⟩ := extLe_iff.1 hj.le
    rw [hy]; rfl
  obtain ⟨hi, hprobes, hfault, hseg⟩ := hj.lookup ht.step ht.points
  have hmode : ¬(rateOf q).mode = 2 := by rw [ht.step]; decide
  generalize hl : rateLookup (rateOf q) (fun i => rateNum (rateOf q).keyTy ((s.eng x.eng).cell ((rateOf q).keyK i)))
    (rateNum (rateOf q).keyTy k) = l at hi hprobes hfault hseg
  subst hi
  have hall := ht.touched (l := l) hj.lt hprobes
  have htypes := touchedTypes_ok fun t h => ⟨(hall t h).1, (hall t h).2.1⟩
  have hvalid := touchedValid_ok fun t h => (hall t h).2.2.2
  have hpsn : ((rateOf q).touched l).any (fun t => ((s.eng x.eng).cell t.1).p) = false :=
    List.any_eq_false.2 fun t h => Bool.eq_false_iff.1 (hall t h).2.2.1
  refine ⟨((rateOf q).touched l).map (·.1), ?_⟩
  unfold tliBody
  simp only [h0, h1, htags, hp, hok, hkt, hx, hr, hl, hseg, if_neg hmode, List.append_nil, ok_bind, Bool.not_false, ensure_true, hfault,
    decide_true, Bool.or_true]
  unfold Rate.touched at htypes hvalid hpsn ⊢
  simp only [htypes, hvalid, hpsn, ok_bind, Bool.or_false]
  split
  · next h => rw [hku h]; rfl
  · rfl
theorem tli_does (hi : s.issues x tliInfo = true) (hu : s.unitReady x 0xB6 .ucode 20 = true) (hty : q.ty = tyRATE) (hsub : q.sub = 0)
    (hp : q.p = false) (hok : rateOk q = true)
    (hkt : k.ty = (rateOf q).keyTy) (hkw : k.wellFormed = true) (hku : (rateOf q).kt = 1 → decUse 0 k = .ok ())
    (hr : readRegion (s.env x tliInfo) (s.eng x.eng) 1 q (rateOf q).base (32 * ((rateOf q).points + 1)) 5 = .ok ())
    (ht : Tabled (s.eng x.eng) (rateOf q))
    (hj : Reaches (fun i => rateNum (rateOf q).keyTy ((s.eng x.eng).cell ((rateOf q).keyK i))) (rateNum (rateOf q).keyTy k)
      (rateOf q).points j) :
    Does (.tli x) s x (s.moved x tliInfo (rateCopy (rateOf q) k.p ((s.eng x.eng).cell ((rateOf q).valK j)) :: q :: r)) := by
  obtain ⟨l, hb⟩ := tliBody_ok (v := Config.freeValue 128 s.free) hs hty hsub hp hok hkt hkw hku hr ht hj
  obtain ⟨E, z, f, hplaced, heq⟩ := issue_posts (op := 0xB6) (post := fun t => { t with free := t.free + 1 }) hi hb
    (unitReady_of_some hu) (meetAll_keeps l _) fun _ _ => rfl
  have hex : exec (.tli x) s = .next { s.setEng x.eng E with errq := s.errq ++ z, free := f } := congrArg Host.Outcome.next heq
  refine ⟨_, hex, hplaced.view.trans ?_, hplaced.quiet z f, hplaced.kept⟩
  refine (viewOf_congr (fun i => (meetAll_keeps l _).cell not_false) _).trans ((viewOf_popPush hi (o := tliInfo) (qs := [_, _]) rfl).trans ?_)
  rw [hs]
  rfl
end

theorem ensure_ok_iff {b : Bool} {f : SFault} : ensure b f = .ok () ↔ b = true := by
  cases b
  · exact ⟨fun h => (nomatch h), fun h => (nomatch h)⟩
  · exact ⟨fun _ => rfl, fun _ => rfl⟩

/-- A run of bytes may be read where its regions are open (07 R214). -/
theorem readRegion_ok_iff {v : Env} {e : Engine} {n a m c : Nat} {q : Cell} :
    readRegion v e n q a m c = .ok () ↔ e.open? (if v.pl == 2 && q.g then 1 else v.pl) a m = true := ensure_ok_iff

/-! ### PACK and UNPK -/

/-- A zoned form (06 R204). -/
structure Zoned (imm : Byte) : Prop where
  small : imm.toNat < 128
  digits : imm.toNat % 32 ≠ 0

theorem Zoned.badField {imm : Byte} (h : Zoned imm) : (if zLen imm = 0 || bit imm 7 then some 0 else none : Option Nat) = none := by
  have h1 : ¬zLen imm = 0 := fun h0 => h.digits ((congrArg (· % 32) (Nat.div_one imm.toNat)).symm.trans h0)
  have h2 : bit imm 7 = false := by
    rw [bit, BitVec.getLsbD, Nat.testBit_eq_false_of_lt (by simpa using h.small)]
  rw [h2, decide_eq_false h1]
  rfl

/-- An address of a zoned field in range and in open regions (06 R192, R207). -/
theorem zAddr_ok {v : Env} {e : Engine} {a : Int} {n : Nat} (h0 : 0 ≤ a) (hn : a + n ≤ 2 ^ 18) (ho : e.open? v.pl a.toNat n = true) :
    zAddr v e a n = .ok () := by
  unfold zAddr
  have h : (0 ≤ a && a + n - 1 ≤ 0x3FFFF) = true := by
    simp only [Bool.and_eq_true, decide_eq_true_eq]
    omega
  rw [h, ho]
  rfl

/-- Byte `i` of a field. -/
def Engine.byteAt (e : Engine) (a i : Nat) : Byte := byteOfPay (e.cell ((a + i) / 16)).pay ((a + i) % 16)

theorem readBytes_getD {e : Engine} {a n i : Nat} (hi : i < n) (d : Byte) : (e.readBytes a n).getD i d = e.byteAt a i := by
  rw [Engine.readBytes, List.getD_eq_getElem?_getD, List.getElem?_map, List.getElem?_range hi]
  rfl

theorem zDigitAt_lt {imm : Byte} {i : Nat} (hi : i < zLen imm) : zDigitAt imm i < zT imm ∧ zSignAt imm ≠ some (zDigitAt imm i) := by
  have hf : zForm imm < 4 := Nat.mod_lt _ (by norm_num)
  unfold zDigitAt zT zSignAt
  obtain h | h | h | h : zForm imm = 0 ∨ zForm imm = 1 ∨ zForm imm = 2 ∨ zForm imm = 3 := by omega
  all_goals simp [h]; omega

theorem zSignAt_lt {imm : Byte} {i : Nat} (h : zSignAt imm = some i) : i < zT imm := by
  have hf : zForm imm < 4 := Nat.mod_lt _ (by norm_num)
  unfold zSignAt at h
  unfold zT
  split at h
  · cases h
  · next h3 => cases h; simp [h3]
  · next h1 h3 => cases h; rw [if_neg h1]; omega

/-- The number that a field of accepted bytes holds (06 R205). -/
def Engine.zoned (e : Engine) (imm : Byte) (a : Nat) : Payload :=
  decMake (match zSignAt imm with | some i => (zSign (zForm imm) (e.byteAt a i)).getD false | none => false)
    ((List.range (zLen imm)).foldl (fun acc i => acc * 10 + (zDigit (zForm imm) (e.byteAt a (zDigitAt imm i))).getD 0) 0)

/-- An instruction that replaces its operands by these cells, and meets what it reads of scratch (16 R517). -/
theorem does_reads {i : Instr} {s : State} {x : Iss} {o : OpInfo} {op n : Nat} {body : Env → Engine → Ctx → Except SFault Done}
    (l : List Nat) {qs after : List Cell} (hex : exec i s = .next (s.issue x o op body id)) (hi : s.issues x o = true)
    (hb : body (s.env x o) (s.eng x.eng) (s.bodyCtx x o) =
      .ok { count := n, eng := (s.eng x.eng).meetAll l, ctx := (s.bodyCtx x o).popPush o.pops qs })
    (hq : o.pushes = qs.length) (ha : qs.reverse ++ (s.view x).stack.drop o.pops = after) : Does i s x (s.moved x o after) := by
  have h := issue_stores (op := op) hi hb (fun _ h => nomatch h) (meetAll_keeps _ _) (viewOf_popPush hi hq)
  exact ha ▸ ⟨_, hex, h.whole fun _ h => h.elim, h.quiet, h.kept⟩

/-- The facts of UNPK. -/
def unpkInfo : OpInfo := { imm := 1, pops := 2, reads := 2 }

theorem zBytes_length (imm : Byte) (neg : Bool) (m : Nat) : (zBytes imm neg m).length = zT imm := by
  unfold zBytes zT
  dsimp only
  split
  · next h => simp [h]
  · next h => simp [h]
  · next h1 h3 => rw [if_neg h1]; simp

section
variable {s : State} {x : Iss} {imm : Byte} {a : Cell} (hz : Zoned imm) (hty : a.ty = tyINT) (hsub : a.sub = 0) (hp : a.p = false)
  (h0 : 0 ≤ a.int) (hn : a.int + zT imm ≤ 2 ^ 18) (ho : (s.eng x.eng).open? (s.view x).pl.toNat a.int.toNat (zT imm) = true)
include hz hty hsub hp h0 hn ho

theorem pack_does {r : List Cell} (hi : s.issues x { imm := 1, pops := 1, pushes := 1, reads := 1 } = true)
    (hs : (s.view x).stack = a :: r)
    (hb : ∀ i, i < zT imm → zAccepts imm i ((s.eng x.eng).byteAt a.int.toNat i) = true)
    (hpsn : (s.eng x.eng).anyPoison a.int.toNat (zT imm) = false) :
    Does (.pack x imm) s x (s.moved x { imm := 1, pops := 1, pushes := 1, reads := 1 }
      (⟨2, 0, false, false, (s.eng x.eng).zoned imm a.int.toNat⟩ :: r)) := by
  have hstack : stackTop (s.eng x.eng) (s.bodyCtx x { imm := 1, pops := 1, pushes := 1, reads := 1 }) 0 = a :=
    bodyCtx_stackTop hs (by simp)
  have htags : ∀ nochk, tagCheck nochk [(0, a, a.isInt)] = .ok () :=
    fun nochk => tagCheck_one (by rw [Cell.wellFormed, hty, hsub]; rfl) (decide_eq_true hty)
  have hfind : ((List.range (zT imm)).find? fun i => !((s.eng x.eng).cell ((a.int.toNat + i) / 16)).p &&
      !zAccepts imm i (((s.eng x.eng).readBytes a.int.toNat (zT imm)).getD i 0)) = none := by
    rw [List.find?_eq_none]
    intro i hi
    have hi := List.mem_range.1 hi
    rw [readBytes_getD hi, hb i hi, Bool.not_true, Bool.and_false]
    exact Bool.false_ne_true
  have hmag : ((List.range (zLen imm)).foldl (fun acc i => acc * 10 +
        (zDigit (zForm imm) (((s.eng x.eng).readBytes a.int.toNat (zT imm)).getD (zDigitAt imm i) 0)).getD 9) 0) =
      (List.range (zLen imm)).foldl
        (fun acc i => acc * 10 + (zDigit (zForm imm) ((s.eng x.eng).byteAt a.int.toNat (zDigitAt imm i))).getD 0) 0 := by
    refine List.foldl_ext _ _ _ fun acc i hi => ?_
    obtain ⟨hlt, hne⟩ := zDigitAt_lt (List.mem_range.1 hi)
    have hacc := hb _ hlt
    rw [zAccepts, if_neg hne] at hacc
    obtain ⟨m, hm⟩ := Option.isSome_iff_exists.1 hacc
    rw [readBytes_getD hlt, hm]
    rfl
  have hneg : (match zSignAt imm with
      | some i => (zSign (zForm imm) (((s.eng x.eng).readBytes a.int.toNat (zT imm)).getD i 0)).getD false
      | none => false) = (match zSignAt imm with
      | some i => (zSign (zForm imm) ((s.eng x.eng).byteAt a.int.toNat i)).getD false
      | none => false) := by
    cases hsign : zSignAt imm with
    | none => rfl
    | some i => simp only [readBytes_getD (zSignAt_lt hsign)]
  have hzoned : decMake (match zSignAt imm with
        | some i => (zSign (zForm imm) (((s.eng x.eng).readBytes a.int.toNat (zT imm)).getD i 0)).getD false
        | none => false)
      ((List.range (zLen imm)).foldl (fun acc i => acc * 10 +
        (zDigit (zForm imm) (((s.eng x.eng).readBytes a.int.toNat (zT imm)).getD (zDigitAt imm i) 0)).getD 9) 0) =
      (s.eng x.eng).zoned imm a.int.toNat := by
    rw [hmag, hneg]
    rfl
  have haddr := zAddr_ok (v := s.env x { imm := 1, pops := 1, pushes := 1, reads := 1 }) (e := s.eng x.eng) h0 hn ho
  refine does_reads (cellsOf a.int.toNat (zT imm)) (op := 0x65) (n := 4) (qs := [⟨2, 0, false, false, (s.eng x.eng).zoned imm a.int.toNat⟩])
    (by show execPack x imm s = _; unfold execPack; rw [hz.badField]) hi ?_ rfl (by rw [hs]; rfl)
  simp only [hstack, htags, hp, Bool.not_false, ensure_true, haddr, ok_bind, hfind, hpsn]
  rw [← hzoned]
  rfl

section
variable {d : Cell} {r : List Cell} (hi : s.issues x unpkInfo = true) (hs : (s.view x).stack = a :: d :: r) (hdt : d.ty = tyDEC)
  (hds : d.sub = 0) (hdu : decUse 1 d = .ok ())
  (hk : byteTargets (s.env x unpkInfo) (s.eng x.eng) a.int.toNat (zT imm) = .ok ())
  (ht : byteTags (s.env x unpkInfo) (s.eng x.eng) a.int.toNat (zT imm) = .ok ())
include hs hdt hds hdu hk ht

/-- UNPK up to its check of the amount (06 R206). -/
theorem unpk_exec : ∃ body : Env → Engine → Ctx → Except SFault Done, exec (.unpk x imm) s = .next (s.issue x unpkInfo 0x66 body id) ∧
    body (s.env x unpkInfo) (s.eng x.eng) (s.bodyCtx x unpkInfo) = (do
      ensure (decMag d.pay < 10 ^ zLen imm && !(zForm imm == 1 && decMinus d.pay && decMag d.pay != 0)) (fArith 1 1)
      pure { count := 4
             eng := (s.eng x.eng).storeBytes a.int.toNat (zBytes imm (decMinus d.pay && decMag d.pay != 0) (decMag d.pay)) d.p
             ctx := (s.bodyCtx x unpkInfo).popPush 2 [] }) := by
  have h1 : stackTop (s.eng x.eng) (s.bodyCtx x unpkInfo) 0 = a := bodyCtx_stackTop hs (by simp)
  have h2 : stackTop (s.eng x.eng) (s.bodyCtx x unpkInfo) 1 = d := bodyCtx_stackTop hs (by simp)
  have htags : ∀ nochk, tagCheck nochk [(0, a, a.isInt), (1, d, d.isDec)] = .ok () := by
    have ha : a.wellFormed = true ∧ a.isInt = true := ⟨by rw [Cell.wellFormed, hty, hsub]; rfl, decide_eq_true hty⟩
    have hd : d.wellFormed = true ∧ d.isDec = true := ⟨by rw [Cell.wellFormed, hdt, hds]; rfl, decide_eq_true hdt⟩
    exact fun nochk => tagCheck_ok _ _ (by rintro z (_ | ⟨_, _ | ⟨_, _ | _⟩⟩) <;> [exact ha; exact hd])
  have haddr := zAddr_ok (v := s.env x unpkInfo) (e := s.eng x.eng) h0 hn ho
  refine ⟨_, by show execUnpk x imm s = _; unfold execUnpk; rw [hz.badField]; rfl, ?_⟩
  simp only [h1, h2, htags, hp, Bool.not_false, ensure_true, hdu, haddr, hk, ht, ok_bind]

include hi

theorem unpk_stores (hmag : decMag d.pay < 10 ^ zLen imm) (hau : ¬(zForm imm = 1 ∧ decMinus d.pay = true ∧ decMag d.pay ≠ 0)) :
    ∃ t g, exec (.unpk x imm) s = .next t ∧
      Stores s t x (s.moved x unpkInfo r) (· ∈ cellsOf a.int.toNat (zT imm)) g ∧
      ∀ i, i < zT imm → some (g.byteAt a.int.toNat i) = (zBytes imm (decMinus d.pay && decide (decMag d.pay ≠ 0)) (decMag d.pay))[i]? := by
  obtain ⟨body, hex, hb⟩ := unpk_exec hz hty hsub hp h0 hn ho hs hdt hds hdu hk ht
  have hcheck : (decide (decMag d.pay < 10 ^ zLen imm) && !(zForm imm == 1 && decMinus d.pay && decMag d.pay != 0)) = true := by
    rw [decide_eq_true hmag, Bool.true_and, Bool.not_eq_true', Bool.eq_false_iff]
    simpa [and_assoc] using hau
  rw [hcheck, ensure_true] at hb
  have hneg : (decMag d.pay != 0) = decide (decMag d.pay ≠ 0) := by simp [bne, Bool.beq_eq_decide_eq]
  rw [hneg] at hb
  refine ⟨_, _, hex, issue_stores hi hb (fun _ h => nomatch h) ?_ ?_, fun i hlt => ?_⟩
  · have h := storeBytes_keeps (s.eng x.eng) a.int.toNat (zBytes imm (decMinus d.pay && decide (decMag d.pay ≠ 0)) (decMag d.pay)) d.p
    rwa [zBytes_length] at h
  · refine (viewOf_popPush hi (o := unpkInfo) (qs := []) rfl).trans ?_
    rw [hs]
    rfl
  · have hlen := zBytes_length imm (decMinus d.pay && decide (decMag d.pay ≠ 0)) (decMag d.pay)
    have h := storeBytes_reads (s.eng x.eng) (a := a.int.toNat) d.p (hlt.trans_eq hlen.symm)
    rw [List.getD_eq_getElem?_getD, List.getElem?_eq_getElem (hlt.trans_eq hlen.symm), Option.getD_some] at h
    rw [List.getElem?_eq_getElem (hlt.trans_eq hlen.symm)]
    exact congrArg some h

theorem unpk_faults (hmag : 10 ^ zLen imm ≤ decMag d.pay) : exec (.unpk x imm) s = .next (s.faults x (fArith 1 1)) := by
  obtain ⟨body, hex, hb⟩ := unpk_exec hz hty hsub hp h0 hn ho hs hdt hds hdu hk ht
  rw [decide_eq_false hmag.not_gt, Bool.false_and, ensure_false] at hb
  exact exec_faults hex hi hb
end
end

/-! ### The statement -/

/-- A comparison that has met an unequal pair has its result; one at both ends has 0; and else it goes on (07 R228). -/
theorem cmpResult_some {a b : Cell} {p : Nat × Nat × Bool × Bool × Option Int} {k : Int} (h : p.2.2.2.2 = some k) :
    cmpResult a b p = some k := by rw [cmpResult, h]

theorem cmpResult_none {a b : Cell} {p : Nat × Nat × Bool × Bool × Option Int} (h : p.2.2.2.2 = none) :
    cmpResult a b p = if p.1 = chrLen a ∧ p.2.1 = chrLen b then some 0 else none := by rw [cmpResult, h]

/-- Settles O14, instruction by instruction: MVST and MVTR by induction on the bytes moved, CMST and SCST by their result, TLI by the
binary search, PACK and UNPK by the bytes of the field. -/
theorem stringsAndZonedFields : Obligations.StringsAndZonedFields := by
  unfold Obligations.StringsAndZonedFields
  refine ⟨?_, ?_, ?_, ?_⟩
  · intro s x tr d q r o e w n cp from_ q' d' hi hs hdt hds hdp hqt hqs hqp hdo hqo hcp hr hw hk ht hap hpsn htab hu
    have hc : MoveChecked (s.env x o) e tr d q w n :=
      ⟨fun htr => by rw [cpCheck, decide_eq_true (hcp htr)]; rfl, hr, hw, hk, ht⟩
    obtain ⟨t, g, hex, hst, hbytes⟩ := move_stores (tr := tr) hi hs ⟨hdt, hds, hdp, hdo⟩ ⟨hqt, hqs, hqp, hqo⟩ rfl hc
      ⟨rfl, hap, hpsn, htab⟩ hu
    refine ⟨t, hex, hst.view, fun h => by rw [hst.whole h]; rfl, hst.kept, fun j hj hown => ?_⟩
    rw [hst.cells _ hown]
    exact hbytes j hj
  · intro s x a b r e hat has hap hao hacp hs
    have ha : a.IsTranslated e := ⟨⟨hat, has, hap, hao⟩, hacp⟩
    refine ⟨?_, ?_⟩
    · intro o p a' b' psn hi hu hbt hbs hbp hbo hbcp hra hrb
      have h := cmst_does hs ha hi hu ⟨⟨hbt, hbs, hbp, hbo⟩, hbcp⟩ hra hrb (p := p) rfl (a' := a') (b' := b') rfl rfl
      refine ⟨fun k hk => ?_, fun hk hend => ?_, fun hk hend => ?_⟩
      · rwa [cmpResult_some hk] at h
      · rwa [cmpResult_none hk, if_pos hend] at h
      · rwa [cmpResult_none hk, if_neg hend] at h
    · intro o p a' hi hu hbt hbs hbits hr
      have h := scst_does hs ha hi hu hbt hbs hbits hr (p := p) rfl (a' := a') rfl
      refine ⟨fun hend => ?_, fun hf hne => ?_⟩
      · rwa [if_pos (by simpa using hend)] at h
      · rwa [if_neg (by simp [hf, hne])] at h
  · intro s x k q r j o e g key hi hu hs hqt hqs hqp hqo hmode hkt hkw hku hr htab hrise hj hle hnext hlast
    refine tli_does hs hi hu hqt hqs hqp hqo hkt hkw hku (readRegion_ok_iff.2 (readRegion_ok_iff.1 hr))
      ⟨hmode, rateOf_points q, fun i h => ?_, fun i h => ?_⟩ ⟨hrise, hj, hle, hnext, hlast⟩
    · obtain ⟨hty, hw, hp, hdec, -⟩ := htab i h
      exact ⟨hty, hw, hp, fun hd => hdec (keyTy_eq_dec.1 hd)⟩
    · obtain ⟨-, -, -, -, hty, hsub, hp, hdec⟩ := htab i h
      exact ⟨hty, wellFormed_val hty hsub, hp, fun hd => hdec (valTy_eq_dec.1 hd)⟩
  · intro s x imm a d r e n at_ h1 h2 hat has hap h0 hn ho
    refine ⟨?_, ?_⟩
    · intro o byte hi hs hb hpsn
      exact pack_does ⟨h1, h2⟩ hat has hap h0 hn ho hi hs hb hpsn
    · intro o hi hs hdt hds hdu hk ht
      refine ⟨fun hmag hau => ?_, fun hmag => unpk_faults ⟨h1, h2⟩ hat has hap h0 hn ho hi hs hdt hds hdu hk ht hmag⟩
      obtain ⟨t, g, hex, hst, hbytes⟩ := unpk_stores ⟨h1, h2⟩ hat has hap h0 hn ho hi hs hdt hds hdu hk ht hmag hau
      refine ⟨t, hex, hst.whole, hst.quiet, hst.kept, fun i hlt hown => ?_⟩
      rw [hst.cells _ hown]
      exact hbytes i hlt

end Sys2Proof.Machine
end

section
/-! O13: an execution of the microcode sequencer, and one of EDIT or EDMK (07 R217, R219, R230 to R233). -/

namespace Sys2Proof.Machine

/-! ### Executions -/

/-- The state that an answer leaves once the unit that it uses is ready: its engine as `finish` makes it, with what else it does (05 R141). -/
theorem issue_final {s : State} {x : Iss} {o : OpInfo} {op : Nat} {body : Env → Engine → Ctx → Except SFault Done} {d : Done}
    {post : State → State} (hi : s.issues x o = true) (hb : body (s.env x o) (s.eng x.eng) (s.bodyCtx x o) = .ok d)
    (hu : ∀ u, d.unit = some u → s.unitReady x op u d.count = true) (hpost : ∀ t, (post t).clus = t.clus) :
    ∃ q f, s.issue x o op body post =
      { post (s.setEng x.eng (finish (d.eng.capture (s.ctxAt x) ((s.ctxAt x).pc.toNat + o.len x.px)) x.ctx (s.slot (s.ctxAt x).slot).hedge
          (d.final o (s.ctxAt x)) d.count d.unit)) with
        errq := (post (s.setEng x.eng (finish (d.eng.capture (s.ctxAt x) ((s.ctxAt x).pc.toNat + o.len x.px)) x.ctx
          (s.slot (s.ctxAt x).slot).hedge (d.final o (s.ctxAt x)) d.count d.unit))).errq ++ q
        free := f } := by
  have hd : d.unit = some .ucode →
      (s.ctxAt x).readsUcode (s.clu (cluOf x.eng)) op d.count = false ∧ (s.clu (cluOf x.eng)).softUcode = [] := by
    intro h
    have hready := hu _ h
    simp only [State.unitReady, Bool.and_eq_true, Bool.or_eq_true, bne_self_eq_false, Bool.false_eq_true, false_or,
      Bool.not_eq_true', List.isEmpty_iff] at hready
    obtain ⟨-, ⟨-, h1⟩, h2⟩ := hready
    exact ⟨h1, h2⟩
  obtain ⟨ws, hs, hw⟩ := issue_ok (post := post) (op := op) hi hb fun h => (hd h).1
  rw [complete_final hu] at hs
  generalize finish (d.eng.capture (s.ctxAt x) ((s.ctxAt x).pc.toNat + o.len x.px)) x.ctx (s.slot (s.ctxAt x).slot).hedge
    (d.final o (s.ctxAt x)) d.count d.unit = E at hs ⊢
  obtain ⟨q, f, hq⟩ := scratchRecord_cases (post (s.setEng x.eng E)) s x.eng
  rw [hq, ucodeMet_none] at hs
  · exact ⟨q, f, hs⟩
  · by_cases h : d.unit = some .ucode
    · exact .inr ((congrArg (fun t => (tget Clu.reset t (cluOf x.eng).val).softUcode) (hpost (s.setEng x.eng E))).trans (hd h).2)
    · exact .inl (hw h)

/-- An answer that leaves the sequencer busy for the context: it takes its cycles, and acts on scratch alone (07 R217, 03 R69). -/
structure Executes (e : Engine) (d : Done) : Prop where
  unit : d.unit = some .ucode
  long : 1 < d.count
  keeps : ∃ p, Keeps e d.eng p

/-- Every answer that a check or a body gives satisfies `p`. -/
def Yields {α : Type} (p : α → Prop) (m : Except SFault α) : Prop := ∀ d, m = .ok d → p d

theorem Yields.bind {α β : Type} {p : β → Prop} {m : Except SFault α} {f : α → Except SFault β} (h : ∀ a, Yields p (f a)) :
    Yields p (m >>= f) := by
  cases m with
  | error _ => exact fun _ h => nomatch h
  | ok a => exact h a

theorem Yields.pure {α : Type} {p : α → Prop} {d : α} (h : p d) : Yields p (pure d) := by
  rintro _ ⟨⟩
  exact h

theorem Yields.error {α : Type} {p : α → Prop} {f : SFault} : Yields p (.error f) := fun _ h => nomatch h

theorem execDone_executes {v : Env} {e g : Engine} {c : Ctx} {n k : Nat} {z : Bool} {qs : List Cell} (hn : 1 < n) {p : Nat → Prop}
    (hk : Keeps e g p) : Executes e (execDone v g c n k z qs) := ⟨rfl, hn, p, hk⟩

/-- What reads a run of bytes and stores another changes scratch alone. -/
theorem meetAll_storeRun_keeps (e : Engine) (l : List Nat) (a : Nat) (bs : List (Byte × Bool)) :
    Keeps e ((e.meetAll l).storeRun a bs) (· ∈ cellsOf a bs.length) :=
  ((meetAll_keeps l e).mono fun _ h => h.elim).trans (storeRun_keeps _ a bs)

theorem moveString_executes (tr : Bool) (v : Env) (e : Engine) (c : Ctx) : Yields (Executes e) (moveString tr v e c) := by
  unfold moveString
  dsimp only
  split
  all_goals
    repeat' refine Yields.bind fun _ => ?_
  · exact Yields.pure (execDone_executes (by decide) (meetAll_storeRun_keeps _ _ _ _))
  · exact Yields.pure (execDone_executes (by decide) (meetAll_storeRun_keeps _ _ _ _))

theorem editBody_executes (mk : Bool) (v : Env) (e : Engine) (c : Ctx) : Yields (Executes e) (editBody mk v e c) := by
  unfold editBody
  dsimp only
  repeat' refine Yields.bind fun _ => ?_
  split
  · exact Yields.pure (execDone_executes (by decide) (meetAll_storeRun_keeps _ _ _ _))
  · exact Yields.pure (execDone_executes (by decide) (meetAll_storeRun_keeps _ _ _ _))

theorem tliBody_executes (w : Payload) (v : Env) (e : Engine) (c : Ctx) : Yields (Executes e) (tliBody w v e c) := by
  unfold tliBody
  extract_lets x r q xv key l segKeys touched p num free done lo hi jp
  have hdone : ∀ y, Yields (Executes e) (pure (done y)) :=
    fun y => Yields.pure ⟨rfl, Nat.one_lt_ofNat, _, meetAll_keeps (touched.map (·.1)) e⟩
  have hjp : ∀ u, Yields (Executes e) (jp u) := by
    intro u
    clear_value done touched segKeys free xv num
    iterate 5 refine Yields.bind fun _ => ?_
    split
    · refine Yields.bind fun _ => ?_
      split
      · exact hdone _
      · exact hdone _
      · split
        · split
          · exact hdone _
          · exact Yields.error
        · exact hdone _
    · split
      · refine Yields.bind fun _ => ?_
        split
        · split
          · exact hdone _
          · exact hdone _
        · exact hdone _
      · exact hdone _
  iterate 4 refine Yields.bind fun _ => ?_
  split
  · exact Yields.bind hjp
  · exact hjp ()

/-- An execution that leaves the sequencer busy: its context and engine as it makes them, and the rest of the device alone (07 R217). -/
theorem execution {i : Instr} {s : State} {x : Iss} {o : OpInfo} {op : Nat} {body : Env → Engine → Ctx → Except SFault Done} {d : Done}
    {post : State → State} (hex : exec i s = .next (s.issue x o op body post)) (hpost : ∀ t, ∃ f, post t = { t with free := f })
    (hi : s.issues x o = true) (hb : body (s.env x o) (s.eng x.eng) (s.bodyCtx x o) = .ok d) (hd : Executes (s.eng x.eng) d)
    (hu : s.unitReady x op .ucode d.count = true) :
    Answers i s fun t =>
      t.view x = viewOf d.eng d.ctx ∧ Quiet s t x ∧
      (∀ k, ¬(t.view x).ownsCell k → (t.eng x.eng).cell k = d.eng.cell k) ∧ (t.eng x.eng).ucode = some x.ctx ∧
      ((t.ctxAt x).state = .busy ∧ (t.ctxAt x).left = BitVec.ofNat 8 (d.count - 1)) := by
  obtain ⟨hunit, hlong, p, hkeeps⟩ := hd
  have huse : ∀ u, d.unit = some u → s.unitReady x op u d.count = true := by
    rw [hunit]
    exact unitReady_of_some hu
  have hclus : ∀ t, (post t).clus = t.clus := by
    intro t
    obtain ⟨f, hf⟩ := hpost t
    rw [hf]
  obtain ⟨q, f, heq⟩ := issue_final (op := op) hi hb huse hclus
  obtain ⟨q', f', hid⟩ := issue_final (op := op) (post := id) hi hb huse fun _ => rfl
  obtain ⟨hview, hquiet, -, hcells⟩ := issue_quiet (op := op) hi hb huse hkeeps
  have hucode : (finish (d.eng.capture (s.ctxAt x) ((s.ctxAt x).pc.toNat + o.len x.px)) x.ctx (s.slot (s.ctxAt x).slot).hedge
      (d.final o (s.ctxAt x)) d.count d.unit).ucode = some x.ctx := by
    simp only [finish, hunit, if_pos hlong]
    rfl
  have hctx := (finish_cases (d.eng.capture (s.ctxAt x) ((s.ctxAt x).pc.toNat + o.len x.px)) x.ctx (s.slot (s.ctxAt x).slot).hedge
    (d.final o (s.ctxAt x)) d.count d.unit).1 x.ctx
  rw [Engine.setCtx_ctx_same, settle_ctx] at hctx
  generalize finish (d.eng.capture (s.ctxAt x) ((s.ctxAt x).pc.toNat + o.len x.px)) x.ctx (s.slot (s.ctxAt x).slot).hedge
    (d.final o (s.ctxAt x)) d.count d.unit = E at heq hid hucode hctx
  obtain ⟨z, hz⟩ := hpost (s.setEng x.eng E)
  rw [hz] at heq
  rw [hid] at hview hquiet hcells
  have heng : (s.setEng x.eng E).eng x.eng = E := State.setEng_eng_same _ _ _
  refine ⟨_, hex.trans (congrArg Host.Outcome.next heq), hview, hquiet.refile q f, fun k hk => ?_, ?_, ?_⟩
  · exact hcells k (hview ▸ hk)
  · exact (congrArg Engine.ucode heng).trans hucode
  · have hbusy : (s.setEng x.eng E).ctxAt x = E.ctx x.ctx := congrArg (·.ctx x.ctx) heng
    have hn : ¬d.count ≤ 1 := by omega
    unfold Ctx.busyFor at hctx
    rw [if_neg hn] at hctx
    refine ⟨?_, ?_⟩
    · exact (congrArg Ctx.state (hbusy.trans hctx)).trans rfl
    · exact (congrArg Ctx.left (hbusy.trans hctx)).trans rfl

/-! ### EDIT and EDMK -/

/-- A pattern byte gives one output byte, a section byte none (07 R231). -/
theorem editStep_length (t : Edit) (mk neg dp : Bool) (d : Payload) (fill : Byte) (a : Nat) (c : Byte) (p : Bool) :
    (t.step mk neg dp d fill a c p).out.length = t.out.length + if sectionByte (c, p) then 0 else 1 := by
  have hsec : sectionByte (c, p) = (!p && (c = 0x05 || c = 0x06)) := by
    simp only [sectionByte, Bool.beq_eq_decide_eq]
  rw [hsec]
  unfold Edit.step
  extract_lets g z q put putFill t1
  have hput : ∀ (u : Edit) (b : Byte), (put u b).out.length = u.out.length + 1 := by
    intro u b
    exact List.length_append
  have hfill : ∀ u : Edit, (putFill u).out.length = u.out.length + 1 := by
    intro u
    refine (hput _ fill).trans ?_
    split <;> rfl
  have ht1 : t1.out.length = t.out.length := rfl
  clear_value put putFill
  by_cases h5 : (!p && decide (c = 0x05)) = true
  · obtain ⟨hp, hc⟩ := Bool.and_eq_true_iff.1 h5
    obtain rfl := of_decide_eq_true hc
    rw [hp]
    rfl
  by_cases h6 : (!p && decide (c = 0x06)) = true
  · obtain ⟨hp, hc⟩ := Bool.and_eq_true_iff.1 h6
    obtain rfl := of_decide_eq_true hc
    rw [hp]
    rfl
  have hn : ¬(!p && (decide (c = 0x05) || decide (c = 0x06))) = true := by
    rw [Bool.and_or_distrib_left, Bool.or_eq_true]
    exact fun h => h.elim h5 h6
  rw [if_neg h5, if_neg h6, if_neg hn, ← ht1]
  repeat' split
  all_goals simp only [hput, hfill, ht1]

/-- An edit of a run of pattern bytes gives one output byte for each that is no section byte (07 R231). -/
theorem editRun_length (mk neg dp : Bool) (d : Payload) (fill : Byte) (a : Nat) : ∀ (pat : List (Byte × Bool)) (t : Edit),
    (pat.foldl (fun t q => t.step mk neg dp d fill a q.1 q.2) t).out.length = t.out.length + (pat.filter fun q => !sectionByte q).length
  | [], t => rfl
  | (c, p) :: pat, t => by
    rw [List.foldl_cons, editRun_length mk neg dp d fill a pat, editStep_length, List.filter_cons]
    cases sectionByte (c, p)
    · simp only [Bool.false_eq_true, if_false, Bool.not_false, if_true, List.length_cons]
      omega
    · simp only [if_true, Bool.not_true, Bool.false_eq_true, if_false, Nat.add_zero]

theorem byteTargets_ok {v : Env} {e : Engine} {a n : Nat} (h : ∀ k ∈ cellsOf a n, v.pl = 2 → (e.cell k).g = false) :
    byteTargets v e a n = .ok () := by
  have hfind : ((cellsOf a n).find? fun k => v.pl == 2 && (e.cell k).g) = none := by
    refine List.find?_eq_none.2 fun k hk hg => ?_
    obtain ⟨hpl, hcell⟩ := Bool.and_eq_true_iff.1 hg
    rw [h k hk (beq_iff_eq.1 hpl)] at hcell
    exact Bool.false_ne_true hcell
  rw [byteTargets, hfind]
  rfl

theorem byteTags_ok {v : Env} {e : Engine} {a n : Nat} (h : ∀ k ∈ cellsOf a n, e.narrowOk v.nochk k = true) : byteTags v e a n = .ok () := by
  have hfind : ((cellsOf a n).find? fun k => !e.narrowOk v.nochk k) = none := by
    refine List.find?_eq_none.2 fun k hk hg => ?_
    rw [h k hk] at hg
    exact Bool.false_ne_true hg
  rw [byteTags, hfind]

/-- A pattern, an output and an amount that one execution of EDIT or EDMK accepts (07 R219, R230 to R232). -/
structure EditChecked (v : Env) (e : Engine) (o p d : Cell) (pat : List (Byte × Bool)) (n outs : Nat) : Prop where
  pattern : pat = (List.range n).map fun i =>
    (byteOfPay (e.cell ((chrAt p + i) / 16)).pay ((chrAt p + i) % 16), (e.cell ((chrAt p + i) / 16)).p)
  count : n = Nat.min 32 (chrLeft p)
  outputs : outs = (pat.filter fun q => !sectionByte q).length
  output : o.IsString
  ty : p.ty = tyCHR
  sub : p.sub = 1
  unpoisoned : p.p = false
  ok : chrOk p = true
  amount : d.ty = tyDEC
  amountSub : d.sub = 0
  amountUse : d.p = true ∨ decBad d.pay = none
  room : chrLeft p ≤ chrLeft o
  read : e.open? (if v.pl == 2 && p.g then 1 else v.pl) (chrAt p) n = true
  write : e.open? v.pl (chrAt o) n = true
  targets : byteTargets v e (chrAt o) outs = .ok ()
  tags : byteTags v e (chrAt o) outs = .ok ()
  legal : ∀ q ∈ pat, reservedPattern q = false
  digits : if n = chrLeft p then (pat.filter digitByte).length + bits p.pay 92 88 = 31
    else (pat.filter digitByte).length + bits p.pay 92 88 ≤ 31
  leading : chrPos p = 0 → ∀ i, i < bits p.pay 92 88 → decNibble d.pay i = 0

/-- The edit state that an execution starts from. -/
def editStart (p d : Cell) (pat : List (Byte × Bool)) : Edit :=
  { digit := bits p.pay 92 88, sig := bit p.pay 93, ns := bit p.pay 113, mv := bit p.pay 94, fs := bit p.pay 114,
    mark := bits p.pay 112 95, out := [], psn := d.p || pat.any (·.2) }

/-- What an execution makes of its pattern bytes (07 Table 7-4). -/
def editRun (mk : Bool) (o p d : Cell) (pat : List (Byte × Bool)) : Edit :=
  pat.foldl (fun t q => t.step mk (decMinus d.pay && decMag d.pay != 0) d.p d.pay (p.pay.extractLsb' 80 8) (chrAt o) q.1 q.2)
    (editStart p d pat)

/-- EDMK's mark. -/
def editMark (p' : Cell) (t : Edit) : Cell :=
  if t.mv && t.fs then cellInt t.mark (bit p'.pay 57) else { Cell.nil with p := bit p'.pay 57 }

/-- The cells that an execution pushes, the last one on top. -/
def editPushes (mk : Bool) (o p d : Cell) (pat : List (Byte × Bool)) (n outs : Nat) : List Cell :=
  let p' := patternStep p (chrPos p + n) (editRun mk o p d pat) mk
  let o' := chrStep o (chrPos o + outs) false
  if n = chrLeft p then (if mk then [p', o', editMark p' (editRun mk o p d pat)] else [p', o']) else [d, p', o']

theorem editRun_out_length {v : Env} {e : Engine} {mk : Bool} {o p d : Cell} {pat : List (Byte × Bool)} {n outs : Nat}
    (h : EditChecked v e o p d pat n outs) : (editRun mk o p d pat).out.length = outs := by
  rw [h.outputs, editRun, editRun_length]
  exact Nat.zero_add _

/-- The facts of EDIT and EDMK. -/
def editInfo (mk : Bool) : OpInfo := { delayBad := true, pops := 3, pushes := if mk = true then 3 else 2, reads := 3 }

theorem editBody_ok {s : State} {x : Iss} {mk : Bool} {o p d : Cell} {r : List Cell} {pat : List (Byte × Bool)} {n outs : Nat}
    (hs : (s.view x).stack = o :: p :: d :: r) (h : EditChecked (s.env x (editInfo mk)) (s.eng x.eng) o p d pat n outs) :
    editBody mk (s.env x (editInfo mk)) (s.eng x.eng) (s.bodyCtx x (editInfo mk)) =
      .ok (execDone (s.env x (editInfo mk))
        (((s.eng x.eng).meetAll (cellsOf (chrAt p) n)).storeRun (chrAt o) (editRun mk o p d pat).out)
        (s.bodyCtx x (editInfo mk)) 20 3 (decide (n = chrLeft p)) (editPushes mk o p d pat n outs)) := by
  have h0 : stackTop (s.eng x.eng) (s.bodyCtx x (editInfo mk)) 0 = o := bodyCtx_stackTop hs (by simp)
  have h1 : stackTop (s.eng x.eng) (s.bodyCtx x (editInfo mk)) 1 = p := bodyCtx_stackTop hs (by simp)
  have h2 : stackTop (s.eng x.eng) (s.bodyCtx x (editInfo mk)) 2 = d := bodyCtx_stackTop hs (by simp)
  have htags : chrTags [(0, o, isChr o 0), (1, p, isChr p 1), (2, d, d.isDec)] = .ok () := by
    have hp : p.wellFormed = true ∧ isChr p 1 = true := ⟨by rw [Cell.wellFormed, h.ty, h.sub]; rfl, isChr_true h.ty h.sub⟩
    have hd : d.wellFormed = true ∧ d.isDec = true := ⟨by rw [Cell.wellFormed, h.amount, h.amountSub]; rfl, decide_eq_true h.amount⟩
    exact tagCheck_ok _ _ (by rintro z (_ | ⟨_, _ | ⟨_, _ | ⟨_, _ | _⟩⟩⟩) <;> [exact h.output.checked; exact hp; exact hd])
  have hlen : outs ≤ chrLeft o := by
    have hle : outs ≤ n := by
      rw [h.outputs]
      refine (List.length_filter_le _ _).trans ?_
      rw [h.pattern, List.length_map, List.length_range]
    have hn : n ≤ chrLeft p := by rw [h.count]; exact Nat.min_le_right ..
    exact hle.trans (hn.trans h.room)
  have hwrite : Nat.min n (chrLeft o) = n := by
    have hn : n ≤ chrLeft p := by rw [h.count]; exact Nat.min_le_right ..
    exact Nat.min_eq_left (hn.trans h.room)
  have huse : chrUse 1 p = .ok () := by rw [chrUse, h.unpoisoned]; rfl
  have hform : chrForm 1 p = .ok () := by rw [chrForm, h.ok]; rfl
  have hread : readRegion (s.env x (editInfo mk)) (s.eng x.eng) 1 p (chrAt p) n = .ok () := readRegion_ok_iff.2 h.read
  have hregion : writeRegion (s.env x (editInfo mk)) (s.eng x.eng) 0 (chrAt o) n = .ok () := ensure_ok_iff.2 h.write
  have hlegal : pat.any reservedPattern = false := List.any_eq_false.2 fun q hq => Bool.eq_false_iff.1 (h.legal q hq)
  have hdigits : (if n = chrLeft p then (pat.filter digitByte).length + bits p.pay 92 88 == 31
      else decide ((pat.filter digitByte).length + bits p.pay 92 88 ≤ 31)) = true := by
    have hd := h.digits
    split at hd
    · next hn => rw [if_pos hn, hd]; rfl
    · next hn => rw [if_neg hn, decide_eq_true hd]
  have hlead : (chrPos p == 0 && (List.range (bits p.pay 92 88)).any fun i => decNibble d.pay i != 0) = false := by
    rw [Bool.and_eq_false_imp]
    refine fun hpos => List.any_eq_false.2 fun i hi => ?_
    rw [h.leading (beq_iff_eq.1 hpos) i (List.mem_range.1 hi)]
    exact Bool.false_ne_true
  have hrun := editRun_out_length (mk := mk) h
  unfold editBody
  simp only [h0, h1, h2, htags, h.output.use, huse, h.output.form, hform, decUse_ok h.amountUse, ← h.count, hread, hwrite, hregion, ← h.pattern,
    ← h.outputs, Nat.min_eq_left hlen, h.targets, h.tags, decide_eq_true h.room, ensure_true, hlegal, Bool.not_false, hdigits, hlead, ok_bind]
  have hfold : pat.foldl (fun t q => t.step mk (decMinus d.pay && decMag d.pay != 0) d.p d.pay (p.pay.extractLsb' 80 8) (chrAt o) q.1 q.2)
      { digit := bits p.pay 92 88, sig := bit p.pay 93, ns := bit p.pay 113, mv := bit p.pay 94, fs := bit p.pay 114,
        mark := bits p.pay 112 95, out := [], psn := d.p || pat.any (·.2) } = editRun mk o p d pat := rfl
  simp only [hfold, hrun]
  unfold editPushes
  split
  · next hn => rw [decide_eq_true hn]; rfl
  · next hn => rw [decide_eq_false hn]; rfl

theorem editPushes_length (mk : Bool) (o p d : Cell) (pat : List (Byte × Bool)) (n outs : Nat) :
    (editPushes mk o p d pat n outs).length ≤ 3 := by
  unfold editPushes
  dsimp only
  (repeat' split) <;> simp

/-- One execution of EDIT or EDMK (07 R230 to R233). -/
theorem edit_stores {s : State} {x : Iss} {mk : Bool} {o p d : Cell} {r : List Cell} {pat : List (Byte × Bool)} {n outs : Nat}
    (hi : s.issues x (editInfo mk) = true) (hs : (s.view x).stack = o :: p :: d :: r)
    (h : EditChecked (s.env x (editInfo mk)) (s.eng x.eng) o p d pat n outs)
    (hu : s.unitReady x (if mk = true then 0xB5 else 0xB4) .ucode 20 = true) :
    ∃ t g, exec (if mk = true then .edmk x else .edit x) s = .next t ∧
      Stores s t x (s.executed x (editInfo mk) (n = chrLeft p) ((editPushes mk o p d pat n outs).reverse ++ r))
        (· ∈ cellsOf (chrAt o) outs) g ∧
      ∀ j, j < outs → some (byteOfPay (g.cell ((chrAt o + j) / 16)).pay ((chrAt o + j) % 16)) =
        ((editRun mk o p d pat).out.map (·.1))[j]? := by
  have hex : exec (if mk = true then .edmk x else .edit x) s =
      .next (s.issue x (editInfo mk) (if mk = true then 0xB5 else 0xB4) (editBody mk) id) := by cases mk <;> rfl
  have hlen := editRun_out_length (mk := mk) h
  refine ⟨_, _, hex, issue_stores hi (editBody_ok hs h) (unitReady_of_some hu) ?_ ?_, fun j hj => ?_⟩
  · have hk := meetAll_storeRun_keeps (s.eng x.eng) (cellsOf (chrAt p) n) (chrAt o) (editRun mk o p d pat).out
    rwa [hlen] at hk
  · refine (viewOf_execDone hi (o := editInfo mk) ((editPushes_length ..).trans (le_max_right _ 3))).trans ?_
    rw [hs]
    simp only [decide_eq_true_eq]
    rfl
  · exact storeRun_reads _ (hlen ▸ hj)

/-! ### The statement -/

/-- Settles O13: the executions that pass their checks by what a body answers, EDIT and EDMK by the bytes of the pattern. -/
theorem sequencerExecutionsTakeEffect : Obligations.SequencerExecutionsTakeEffect := by
  unfold Obligations.SequencerExecutionsTakeEffect
  refine ⟨?_, ?_⟩
  · intro s x i o op body d hm hi hb hu
    have hid : ∀ t : State, ∃ f, id t = { t with free := f } := fun t => ⟨t.free, rfl⟩
    simp only [List.mem_cons, List.not_mem_nil, or_false, Prod.mk.injEq] at hm
    rcases hm with ⟨rfl, rfl, rfl, rfl⟩ | ⟨rfl, rfl, rfl, rfl⟩ | ⟨rfl, rfl, rfl, rfl⟩ | ⟨rfl, rfl, rfl, rfl⟩ | ⟨rfl, rfl, rfl, rfl⟩
    · exact execution rfl hid hi hb (moveString_executes false _ _ _ d hb) hu
    · exact execution rfl hid hi hb (moveString_executes true _ _ _ d hb) hu
    · exact execution rfl hid hi hb (editBody_executes false _ _ _ d hb) hu
    · exact execution rfl hid hi hb (editBody_executes true _ _ _ d hb) hu
    · exact execution rfl (fun t => ⟨t.free + 1, rfl⟩) hi hb (tliBody_executes _ _ _ _ d hb) hu
  · intro s x mk d p o r e pl n pat outs digits neg run p' o' m f hi hu hs hot hos hop hoo hpt hps hpp hpo hdt hds hdu hroom hread hwrite
      hcells hlegal hdig hend hlead
    have hpl : (pl = 2 ∧ p.g = true) ↔ ((s.env x f).pl == 2 && p.g) = true := by
      rw [Bool.and_eq_true, beq_iff_eq]
      exact and_congr_left' ⟨fun h => congrArg BitVec.toNat h, fun h => BitVec.eq_of_toNat_eq h⟩
    have hc : EditChecked (s.env x f) e o p d pat n outs :=
      { pattern := rfl, count := rfl, outputs := rfl, output := ⟨hot, hos, hop, hoo⟩, ty := hpt, sub := hps, unpoisoned := hpp, ok := hpo
        amount := hdt, amountSub := hds, amountUse := hdu, room := hroom
        read := by
          simp only [hpl] at hread
          exact hread
        write := hwrite
        targets := byteTargets_ok fun k hk h => (hcells k hk).1 (BitVec.eq_of_toNat_eq h)
        tags := byteTags_ok fun k hk => (hcells k hk).2
        legal := hlegal
        digits := by
          rw [Nat.add_comm]
          split
          · next h => exact hend h
          · exact hdig
        leading := hlead }
    obtain ⟨t, g, hex, hst, hbytes⟩ := edit_stores (mk := mk) hi hs hc hu
    refine ⟨t, hex, hst.view, fun h => ?_, hst.quiet, hst.kept, fun j hj hown => ?_⟩
    · rw [hst.whole h]
      show (editPushes mk o p d pat n outs).reverse ++ r = _
      unfold editPushes
      dsimp only
      split
      · cases mk <;> rfl
      · rfl
    · rw [hst.cells _ hown]
      exact hbytes j hj

end Sys2Proof.Machine
end

section
/-! O37: an eviction puts the leaf's durable block into it before it goes on, and a 2 MiB page whose durable block is not aligned to its size
has a malformed leaf from then on: its frames stay allocated. -/

namespace Sys2Proof.Machine

/-- The resident leaf of hedge 0's page of 2 MiB at 0. -/
def largeLeaf : Pte := mkResident 1 false false false 0x100000

/-- Hedge 0 has a page of 2 MiB at 0 in the frames from 0x100000 on, whose durable form names block 1 of drive 0. -/
def State.largePage : State :=
  ((({ State.reset with
      hedges := [(0, { Hedge.reset with rootV := true, root := BitVec.ofNat 32 ptPool })]
      durable := [(0, (2, mkLeaf 1 false false 1 0 0 0))]
      alloc := [(0x100000, some (0, 0, 21))] } : State).hbmPut (ptPool * 4096) 8 (mkPointer (ptPool + 1)).toNat).hbmPut
        ((ptPool + 1) * 4096) 8 (mkPointer (ptPool + 2)).toNat).hbmPut ((ptPool + 2) * 4096) 8 largeLeaf.toNat

theorem largePage_walk : (State.largePage.walk 0 0).1 = .leaf ((ptPool + 2) * 4096) largeLeaf 2 := by decide +kernel

/-- The eviction is given up, and the frames of the page stay allocated. -/
theorem largePage_evict : ∃ t, exec (.pageEvict 0 0) State.largePage = .next t ∧ tget none t.alloc 0x100000 = some (0, 0, 21) :=
  ⟨_, rfl, by decide +kernel⟩

/-- Refutes O37: the statement has the eviction of a page that nothing reaches free its frames. -/
theorem not_requestsAndPagesMove : ¬ Obligations.RequestsAndPagesMove := by
  unfold Obligations.RequestsAndPagesMove
  rintro ⟨-, h⟩
  obtain ⟨-, -, hevict, -⟩ := h State.largePage 0 0 _ _ _ largePage_walk
  obtain ⟨hends, -, -⟩ := hevict (by decide +kernel) (by decide +kernel)
  obtain ⟨hfreed, -⟩ := hends (by decide +kernel) (by decide +kernel) (by decide +kernel)
  obtain ⟨t, ht, hnone, -⟩ := hfreed ⟨by decide +kernel, by decide +kernel, fun hdirty => absurd hdirty (by decide +kernel)⟩
  obtain ⟨u, hu, hkept⟩ := largePage_evict
  obtain rfl : u = t := Host.Outcome.next.inj (hu.symm.trans ht)
  have hframe : largeLeaf.frame = 0x100000 := by decide +kernel
  rw [hframe, hkept] at hnone
  exact absurd hnone (by decide)

end Sys2Proof.Machine
end

section
/-! O27: READ, SIGNAL, EPSET, MAP and RESYNC (13 R434 to R436, R444, 10 R340), which firmware carries out. -/

namespace Sys2Proof.Machine

/-! ### Commands that firmware carries out -/

section
variable {s : State} {f : FnId} {h : HedgeId} {c : Cmd} {op : Nat}

theorem slowPath_bounced (hb : s.bounced ≠ []) (h : HedgeId) (g : State → State) : s.slowPath h g = s :=
  if_neg fun he => hb (List.isEmpty_iff.1 he)

theorem slowCmd_bounced (hb : s.bounced ≠ []) (g : State → HedgeId → Cmd → State) : s.slowCmd f op g = s := by
  unfold State.slowCmd State.withCmd
  split
  · exact slowPath_bounced hb _ _
  · rfl

theorem withStep_bounced (hb : s.bounced ≠ []) (g : State → HedgeId → Cmd → SlotId → List Byte → Nat → State) : s.withStep f op g = s := by
  unfold State.withStep State.withCmd
  dsimp only
  split
  · split
    · split
      · exact slowPath_bounced hb _ _
      · rfl
    · rfl
  · rfl

/-- A command that stands first is carried out behind the hedge's flush (02 R52, R60). -/
theorem slowCmd_doing (hd : s.doing f op h c) (g : State → HedgeId → Cmd → State) : s.slowCmd f op g = g (s.flushFor h) h c := by
  obtain ⟨hb, hh, ho, -, -⟩ := hd
  unfold State.slowCmd State.withCmd
  rw [hh, ho]
  exact if_pos (by rw [hb]; rfl)
end

/-! ### Replies -/

/-- What a command's reply goes by of a function: the commands taken up, the completions that wait, and its ring. -/
structure SameRing (a b : Fn) : Prop where
  cur : b.cur = a.cur
  waiting : b.waiting = a.waiting
  hedge : b.hedge = a.hedge
  sqHead : b.sqHead = a.sqHead
  posting : b.posting = a.posting

theorem SameRing.refl (a : Fn) : SameRing a a := ⟨rfl, rfl, rfl, rfl, rfl⟩

theorem SameRing.trans {a b c : Fn} (h : SameRing a b) (k : SameRing b c) : SameRing a c :=
  ⟨k.cur.trans h.cur, k.waiting.trans h.waiting, k.hedge.trans h.hedge, k.sqHead.trans h.sqHead, k.posting.trans h.posting⟩

theorem remember_rest (g : Hedge) (k : Compl) : ∃ l d, g.remember k = { g with history := l, dropped := d } ∧ l.getLast? = some k := by
  unfold Hedge.remember
  split
  · exact ⟨_, _, rfl, rfl⟩
  · split
    · exact ⟨_, _, rfl, List.getLast?_concat⟩
    · exact ⟨_, _, rfl, List.getLast?_concat⟩

/-- `u` is `t` with command `c` of function `f` done with: its completion `k` waits, and hedge `h` remembers it. -/
structure Answered (t u : State) (f : FnId) (h : HedgeId) (c : Cmd) (k : Compl) : Prop where
  rest : u = { t with fns := u.fns, hedges := u.hedges }
  fn : u.fn f = { t.fn f with cur := (t.fn f).cur.erase c, waiting := (t.fn f).waiting ++ [k] }
  hedge : ∀ i, ∃ l d, u.hedge i = { t.hedge i with history := l, dropped := d }

section
variable {t : State} {f : FnId} {h : HedgeId} {c : Cmd}

/-- A command without a slot ends: its completion is formed (13 R419, R432). -/
theorem reply_answered (hh : (t.fn f).hedge = some h) (hp : (t.fn f).posting = true) (hm : c.mute = false) {gk : Gk} {st : Byte}
    (hk : st = 0 ∨ gk = .carried) (gcs : Word64) (n : Nat) (det : Word64) :
    Answered t (t.reply f c gk gcs st (BitVec.ofNat 64 n) det) f h c (c.ends (t.fn f) gk gcs st n det) := by
  have hgk : (if st = 0 then gk else Gk.carried) = gk := by
    split
    · rfl
    · next hst => exact (hk.resolve_left hst).symm
  have hq : (t.dropCur f c).fn f = { t.fn f with cur := (t.fn f).cur.erase c } := modFn_fn ..
  have heq : t.reply f c gk gcs st (BitVec.ofNat 64 n) det =
      ((t.dropCur f c).modHedge h fun g => g.remember (c.ends (t.fn f) gk gcs st n det)).modFn f
        fun q => { q with waiting := q.waiting ++ [c.ends (t.fn f) gk gcs st n det] } := by
    have hp' : ((t.dropCur f c).fn f).posting = true := (congrArg Fn.posting hq).trans hp
    have hh' : ((t.dropCur f c).fn f).hedge = some h := (congrArg Fn.hedge hq).trans hh
    unfold State.reply State.formed
    dsimp only
    rw [hm, hp', hh', hgk]
    rfl
  rw [heq]
  refine ⟨rfl, ?_, fun i => ?_⟩
  · rw [modFn_fn]
    exact congrArg (fun q : Fn => { q with waiting := q.waiting ++ [c.ends (t.fn f) gk gcs st n det] }) hq
  · obtain ⟨l, d, hr, -⟩ := remember_rest (t.hedge h) (c.ends (t.fn f) gk gcs st n det)
    by_cases hi : i = h
    · subst hi
      exact ⟨l, d, (State.setHedge_hedge_same ..).trans hr⟩
    · exact ⟨_, _, State.setHedge_hedge_ne _ _ _ _ hi⟩

theorem fail_answered (hh : (t.fn f).hedge = some h) (hp : (t.fn f).posting = true) (hm : c.mute = false) (st : Byte) :
    Answered t (t.fail f c st) f h c (c.ends (t.fn f) .carried 0 st 0 0) := reply_answered hh hp hm (.inr rfl) 0 0 0
end

section
variable {s t u : State} {f : FnId} {h : HedgeId} {c : Cmd} {gk : Gk} {gcs : Word64} {st : Byte} {n : Nat} {det : Word64}

theorem Answered.replied (ha : Answered t u f h c (c.ends (t.fn f) gk gcs st n det)) (hr : SameRing (s.fn f) (t.fn f)) :
    Replied s u f c (c.ends (s.fn f) gk gcs st n det) := by
  refine ⟨?_, ?_⟩
  · rw [ha.fn, hr.cur]
  · have hk : c.ends (t.fn f) gk gcs st n det = c.ends (s.fn f) gk gcs st n det := by unfold Cmd.ends; rw [hr.sqHead]
    rw [ha.fn, hr.waiting, hk]

theorem Answered.par {k : Compl} (ha : Answered t u f h c k) (i : HedgeId) : (u.hedge i).par = (t.hedge i).par ∧
    (u.hedge i).waitList = (t.hedge i).waitList ∧ (u.hedge i).stored = (t.hedge i).stored := by
  obtain ⟨l, d, he⟩ := ha.hedge i
  rw [he]
  exact ⟨rfl, rfl, rfl⟩

theorem Answered.endpoint {k : Compl} (ha : Answered t u f h c k) (i : HedgeId) (e : Nat) : u.endpoint i e = t.endpoint i e := by
  have hdir : u.dir = t.dir := by rw [ha.rest]
  unfold State.endpoint
  rw [(ha.par i).1, hdir]
end

/-- A function stands as before a flush. -/
theorem flushFor_fields (s : State) (h : HedgeId) : ∃ r k, s.flushFor h = { s with regs := r, free := k } := ⟨_, _, s.flushFor_frame h⟩

/-! ### Endpoints: SIGNAL and EPSET -/

theorem defined_some {s : State} {h : HedgeId} {e : Nat} {d : Endpoint} (hd : s.defined? h e = some d) :
    s.inRange h e = true ∧ s.endpoint h e = d := by
  unfold State.defined? at hd
  split at hd
  · next hc => exact ⟨(Bool.and_eq_true_iff.1 hc).1, Option.some.inj hd⟩
  · cases hd

theorem endpointBytes_length (d : Endpoint) : (endpointBytes d).length = 64 := by
  simp only [endpointBytes, List.length_append, bytesOfNat_length]

/-- `t` is `s` with endpoint `e` of hedge `h` as `d`, its entry in HBM, and nothing else of the hedges' parameters changed. -/
structure EntrySet (s t : State) (h : HedgeId) (e : Nat) (d : Endpoint) : Prop where
  fns : t.fns = s.fns
  entry : t.endpoint h e = d
  hbm : HbmKept s t (64 * ((s.hedge h).par.dbase + e)) 64

theorem setEndpoint_set (s : State) (h : HedgeId) (e : Nat) (d : Endpoint) : EntrySet s (s.setEndpoint h e d) h e d where
  fns := rfl
  entry := tget_tset_same _ _ _ _
  hbm := by
    intro i hi
    refine (hbmByte_hbmWrite _ _ _ _ i).trans (if_neg ?_)
    rw [endpointBytes_length]
    exact hi

theorem EntrySet.same {s t u : State} {h : HedgeId} {e : Nat} {d : Endpoint} (k : EntrySet s t h e d) (hf : u.fns = t.fns) (hd : u.dir = t.dir)
    (hm : u.hbm = t.hbm) (hp : (u.hedge h).par = (t.hedge h).par) : EntrySet s u h e d where
  fns := hf.trans k.fns
  entry := by
    refine Eq.trans ?_ k.entry
    unfold State.endpoint
    rw [hd, hp]
  hbm := by
    intro i hi
    have hb : u.hbmByte i = t.hbmByte i := by unfold State.hbmByte; rw [hm]
    exact hb.trans (k.hbm i hi)

theorem setHedge_par {s : State} {h i : HedgeId} {g : Hedge} (hg : g.par = (s.hedge h).par) : ((s.setHedge h g).hedge i).par = (s.hedge i).par := by
  by_cases hi : i = h
  · rw [hi, State.setHedge_hedge_same, hg]
  · rw [State.setHedge_hedge_ne _ _ _ _ hi]

/-- What a signal of an endpoint in range leaves (05 R178, 10 R344). -/
structure Signalled (s t : State) (h : HedgeId) (e : Nat) : Prop where
  set : EntrySet s t h e { s.endpoint h e with evseq := (s.endpoint h e).evseq + 1 }
  wakes : ∀ w ∈ (s.hedge h).waitList, w.ep = e → ∃ m ∈ t.wakes, m.kind = .wake w.slot ((s.endpoint h e).evseq + 1)
  waitList : (t.hedge h).waitList = (s.hedge h).waitList.filter fun w => w.ep != e

theorem sigev_signalled {s : State} {h : HedgeId} {e : Nat} (hr : s.inRange h e = true) : Signalled s (s.sigev h e) h e := by
  have hset := setEndpoint_set s h e { s.endpoint h e with evseq := (s.endpoint h e).evseq + 1 }
  unfold State.sigev
  rw [hr]
  dsimp only
  rw [if_neg (by decide)]
  split
  · next hnone =>
    have hno : ∀ w ∈ (s.hedge h).waitList, w.ep ≠ e := by
      intro w hw he
      have hmem : w ∈ (s.hedge h).waitList.filter fun w => w.ep == e := List.mem_filter.2 ⟨hw, beq_iff_eq.2 he⟩
      rw [List.isEmpty_iff.1 hnone] at hmem
      cases hmem
    refine ⟨hset, fun w hw he => absurd he (hno w hw), ?_⟩
    exact (List.filter_eq_self.2 fun w hw => bne_iff_ne.2 (hno w hw)).symm
  · have hhedge : (s.setEndpoint h e { s.endpoint h e with evseq := (s.endpoint h e).evseq + 1 }).hedge h = s.hedge h := rfl
    generalize s.setEndpoint h e { s.endpoint h e with evseq := (s.endpoint h e).evseq + 1 } = u at hset hhedge ⊢
    refine ⟨hset.same rfl rfl rfl (setHedge_par rfl), fun w hw he => ?_, ?_⟩
    · refine ⟨_, List.mem_append_right _ (List.mem_map_of_mem (List.mem_filter.2 ⟨hw, beq_iff_eq.2 he⟩)), rfl⟩
    · rw [← hhedge]
      exact congrArg Hedge.waitList (State.setHedge_hedge_same ..)

/-- What firmware notes of a hedge's endpoints being armed touches none. -/
theorem watchDead_set {s t : State} {h : HedgeId} {e : Nat} {d : Endpoint} (k : EntrySet s t h e d) : EntrySet s (t.watchDead h) h e d := by
  unfold State.watchDead
  split
  · exact k
  · exact k.same rfl rfl rfl (setHedge_par rfl)

section
variable {s : State} {f : FnId} {h : HedgeId} {c : Cmd}

/-- A command's effect `w` on the flushed state, which keeps the functions, and its reply. -/
theorem answered_replied {op : Nat} (hd : s.doing f op h c) {w : State} (hw : w.fns = s.fns) {gk : Gk} {st : Byte} (hk : st = 0 ∨ gk = .carried)
    (gcs : Word64) (n : Nat) (det : Word64) :
    Answered w (w.reply f c gk gcs st (BitVec.ofNat 64 n) det) f h c (c.ends (s.fn f) gk gcs st n det) ∧
      Replied s (w.reply f c gk gcs st (BitVec.ofNat 64 n) det) f c (c.ends (s.fn f) gk gcs st n det) := by
  obtain ⟨-, hh, -, hm, hp⟩ := hd
  have hfn : w.fn f = s.fn f := fn_congr hw f
  have ha := reply_answered (t := w) (hfn ▸ hh) (hfn ▸ hp) hm hk gcs n det
  rw [hfn] at ha
  refine ⟨ha, ?_⟩
  rw [← hfn] at ha
  exact ha.replied (hfn ▸ .refl _)

theorem signal_answers {d : Endpoint} (hd : s.doing f 0x03 h c) (hdef : s.defined? h (fieldOf c.bytes 8 4) = some d) :
    (d.ext = true → Answers (.signal f) s fun t => Replied s t f c (c.ends (s.fn f) .carried 0 0 (d.evseq + 1).toNat 0) ∧
      t.endpoint h (fieldOf c.bytes 8 4) = { d with evseq := d.evseq + 1 } ∧
      (∀ w ∈ (s.hedge h).waitList, w.ep = fieldOf c.bytes 8 4 → ∃ m ∈ t.wakes, m.kind = .wake w.slot (d.evseq + 1)) ∧
      ((t.hedge h).waitList = (s.hedge h).waitList.filter fun w => w.ep != fieldOf c.bytes 8 4) ∧
      HbmKept s t (64 * ((s.hedge h).par.dbase + fieldOf c.bytes 8 4)) 64) ∧
    (d.ext = false → Answers (.signal f) s fun t => Replied s t f c (c.ends (s.fn f) .carried 0 0x05 0 0) ∧ t.dir = s.dir ∧ t.hbm = s.hbm) := by
  obtain ⟨r, k, hflush⟩ := flushFor_fields s h
  obtain ⟨hrange, rfl⟩ := defined_some hdef
  have hdef' : (s.flushFor h).defined? h (fieldOf c.bytes 8 4) = some (s.endpoint h (fieldOf c.bytes 8 4)) := by rw [hflush]; exact hdef
  have hrange' : (s.flushFor h).inRange h (fieldOf c.bytes 8 4) = true := by rw [hflush]; exact hrange
  have hex : exec (.signal f) s = .next (if (s.endpoint h (fieldOf c.bytes 8 4)).ext then
      ((s.flushFor h).sigev h (fieldOf c.bytes 8 4)).reply f c .carried 0 0
        (BitVec.ofNat 64 ((s.endpoint h (fieldOf c.bytes 8 4)).evseq + 1).toNat) 0
      else (s.flushFor h).fail f c 0x05) := by
    show execSignal f s = _
    unfold execSignal
    rw [slowCmd_doing hd]
    dsimp only
    rw [hdef']
  refine ⟨fun hext => ?_, fun hext => ?_⟩
  · rw [if_pos hext] at hex
    obtain ⟨hset, hwakes, hlist⟩ := sigev_signalled hrange'
    generalize (s.flushFor h).sigev h (fieldOf c.bytes 8 4) = w at hset hwakes hlist hex
    rw [hflush] at hset hwakes hlist
    obtain ⟨ha, hr⟩ := answered_replied hd (w := w) hset.fns (.inl rfl) 0 ((s.endpoint h (fieldOf c.bytes 8 4)).evseq + 1).toNat 0
    generalize w.reply f c .carried 0 0 (BitVec.ofNat 64 ((s.endpoint h (fieldOf c.bytes 8 4)).evseq + 1).toNat) 0 = t at ha hr hex
    refine ⟨t, hex, hr, (ha.endpoint ..).trans hset.entry, ?_, ?_, ?_⟩
    · have ht : t.wakes = w.wakes := by rw [ha.rest]
      rw [ht]
      exact hwakes
    · exact (ha.par h).2.1.trans hlist
    · intro i hi
      have hb : t.hbmByte i = w.hbmByte i := by rw [ha.rest]; rfl
      exact hb.trans (hset.hbm i hi)
  · rw [if_neg (by rw [hext]; exact Bool.false_ne_true)] at hex
    obtain ⟨ha, hr⟩ := answered_replied hd (w := s.flushFor h) (by rw [hflush]) (gk := .carried) (st := 0x05) (.inr rfl) 0 0 0
    refine ⟨_, hex, hr, ?_, ?_⟩
    · exact (congrArg State.dir ha.rest).trans (by rw [hflush])
    · exact (congrArg State.hbm ha.rest).trans (by rw [hflush])

theorem epset_answers (hd : s.doing f 0x04 h c) :
    let e := fieldOf c.bytes 16 4
    let v := fieldOf c.bytes 20 1
    let r := payOfBytes (cellBytes c.bytes 2)
    (s.inRange h e = true → (v % 2 = 1 → refOk ⟨5, 0, false, false, r⟩ = true ∧ bits r 52 48 = 0) →
      Answers (.epset f) s fun t => Replied s t f c (c.ends (s.fn f) .carried 0 0 0 0) ∧
        t.endpoint h e = { s.endpoint h e with
          v := v % 2 == 1, rw := v / 2 % 2 == 1, ext := v / 4 % 2 == 1, addr := r.extractLsb' 0 48, len := r.extractLsb' 64 17
          app := payOfBytes (cellBytes c.bytes 3) } ∧ HbmKept s t (64 * ((s.hedge h).par.dbase + e)) 64) ∧
    (s.inRange h e = false → Answers (.epset f) s fun t => Replied s t f c (c.ends (s.fn f) .carried 0 0x05 0 0) ∧ t.dir = s.dir ∧ t.hbm = s.hbm) := by
  intro e v r
  obtain ⟨rg, k, hflush⟩ := flushFor_fields s h
  have hrange : (s.flushFor h).inRange h e = s.inRange h e := by rw [hflush]; rfl
  refine ⟨fun hr hok => ?_, fun hr => ?_⟩
  · have hbad : ¬(v % 2 = 1 ∧ (!(refOk { ty := tyREF, sub := 0, p := false, g := false, pay := r } && bits r 52 48 == 0)) = true) := by
      rintro ⟨h1, h2⟩
      obtain ⟨hok1, hok2⟩ := hok h1
      have h3 : refOk { ty := tyREF, sub := 0, p := false, g := false, pay := r } = true := hok1
      rw [h3, hok2] at h2
      exact absurd h2 (by decide)
    have hex : exec (.epset f) s = .next ((((s.flushFor h).setEndpoint h e { (s.flushFor h).endpoint h e with
          v := v % 2 == 1, rw := v / 2 % 2 == 1, ext := v / 4 % 2 == 1, addr := r.extractLsb' 0 48, len := r.extractLsb' 64 17
          app := payOfBytes (cellBytes c.bytes 3) }).watchDead h).reply f c .carried 0 0 0 0) := by
      show execEpset f s = _
      unfold execEpset
      rw [slowCmd_doing hd]
      dsimp only
      rw [if_neg (by rw [hrange, hr]; decide), if_neg hbad]
    obtain ⟨ha, hrep⟩ := answered_replied hd (watchDead_set (setEndpoint_set (s.flushFor h) h e _) |>.fns.trans (by rw [hflush])) (gk := .carried)
      (st := 0) (.inl rfl) 0 0 0
    have hset := watchDead_set (setEndpoint_set (s.flushFor h) h e { (s.flushFor h).endpoint h e with
      v := v % 2 == 1, rw := v / 2 % 2 == 1, ext := v / 4 % 2 == 1, addr := r.extractLsb' 0 48, len := r.extractLsb' 64 17
      app := payOfBytes (cellBytes c.bytes 3) })
    refine ⟨_, hex, hrep, ?_, fun i hi => ?_⟩
    · refine ((ha.endpoint ..).trans hset.entry).trans ?_
      rw [hflush]
      rfl
    · exact (congrArg (fun m => tget 0 m i) (congrArg State.hbm ha.rest)).trans ((hset.hbm i (by rw [hflush]; exact hi)).trans (by rw [hflush]; rfl))
  · have hex : exec (.epset f) s = .next ((s.flushFor h).fail f c 0x05) := by
      show execEpset f s = _
      unfold execEpset
      rw [slowCmd_doing hd]
      dsimp only
      rw [if_pos (by rw [hrange, hr]; decide)]
    obtain ⟨ha, hrep⟩ := answered_replied hd (w := s.flushFor h) (by rw [hflush]) (gk := .carried) (st := 0x05) (.inr rfl) 0 0 0
    refine ⟨_, hex, hrep, ?_, ?_⟩
    · exact (congrArg State.dir ha.rest).trans (by rw [hflush])
    · exact (congrArg State.hbm ha.rest).trans (by rw [hflush])
end

/-! ### READ: the bytes of a record -/

/-- `t` is `s` after a step of a read: what has been sent stays sent, and no function's rings or commands change. -/
structure Disturbs (s t : State) : Prop where
  out : s.out <+: t.out
  ring : ∀ g, SameRing (s.fn g) (t.fn g)

namespace Disturbs
variable {s t u : State}

theorem of_same (ho : t.out = s.out) (hf : t.fns = s.fns) : Disturbs s t := ⟨ho ▸ List.prefix_refl _, fun g => fn_congr hf g ▸ .refl _⟩

theorem refl (s : State) : Disturbs s s := of_same rfl rfl

theorem trans (h : Disturbs s t) (k : Disturbs t u) : Disturbs s u := ⟨h.out.trans k.out, fun g => (h.ring g).trans (k.ring g)⟩

theorem foldl {α : Type} {f : State → α → State} (hf : ∀ u a, Disturbs u (f u a)) (l : List α) (s : State) : Disturbs s (l.foldl f s) := by
  induction l generalizing s with
  | nil => exact refl s
  | cons a l ih => exact (hf s a).trans (ih _)

theorem emit (s : State) (o : Out) : Disturbs s (s.emit o) := ⟨List.prefix_append _ _, fun _ => .refl _⟩

theorem setFn {f : FnId} {q : Fn} (h : SameRing (s.fn f) q) : Disturbs s (s.setFn f q) := ⟨List.prefix_refl _, fun g => by
  by_cases hg : g = f
  · subst hg
    exact (State.setFn_fn_same ..).symm ▸ h
  · exact (State.setFn_fn_ne _ _ _ _ hg).symm ▸ .refl _⟩

end Disturbs

section
variable (s : State)

theorem sendMsix_disturbs (f : FnId) (b : Bool) : Disturbs s (s.sendMsix f b) := by
  unfold State.sendMsix
  dsimp only
  split
  · split
    · exact .setFn ⟨rfl, rfl, rfl, rfl, rfl⟩
    · exact .emit s _
  · split
    · exact .setFn ⟨rfl, rfl, rfl, rfl, rfl⟩
    · exact .emit s _

theorem postEvent_disturbs (f : FnId) (v : Ev) : Disturbs s (s.postEvent f v) := by
  unfold State.postEvent
  dsimp only
  split
  · exact .refl s
  · split
    · exact ((Disturbs.emit s _).trans (.setFn (q := (s.fn f).wroteEvent s.aoTick) ⟨rfl, rfl, rfl, rfl, rfl⟩)).trans (sendMsix_disturbs _ f true)
    · exact .setFn ⟨rfl, rfl, rfl, rfl, rfl⟩

theorem hedgeEvent_disturbs (h : HedgeId) (v : Ev) : Disturbs s (s.hedgeEvent h v) := by
  unfold State.hedgeEvent
  split
  · exact postEvent_disturbs s _ v
  · exact .refl s

theorem poisonGranule_disturbs (g : Nat) : Disturbs s (s.poisonGranule g) := by
  unfold State.poisonGranule
  dsimp only
  split
  · exact .of_same rfl rfl
  · refine Disturbs.trans (.of_same ?_ ?_) (hedgeEvent_disturbs _ _ _)
    · rfl
    · rfl

theorem meetGranule_disturbs (g : Nat) : Disturbs s (s.meetGranule g) := by
  unfold State.meetGranule
  split
  · exact .refl s
  · exact .of_same rfl rfl
  · exact poisonGranule_disturbs s g

theorem meetRecord_disturbs (h : HedgeId) (va n : Nat) : Disturbs s (s.meetRecord h va n) :=
  .foldl (fun u q => by
    split
    · exact .foldl meetGranule_disturbs _ u
    · exact .refl u) _ s

theorem accessed_disturbs (h : HedgeId) (va n : Nat) : Disturbs s (s.accessed h va n) :=
  (meetRecord_disturbs s h va n).trans (.foldl (fun u a => by
    split
    · split
      · exact .of_same rfl rfl
      · exact .refl u
    · exact .refl u) _ _)

/-- Grants touch no function and send nothing. -/
theorem regrant_disturbs (k : Nat) (r : LockRec) : Disturbs s (s.regrant k r) := by
  refine .trans (.of_same rfl rfl : Disturbs s (s.setLock k _)) (.foldl (fun u w => ?_) _ _)
  split
  · unfold State.granted
    dsimp only
    split
    · exact .of_same rfl rfl
    · exact .of_same rfl rfl
  · exact .refl u

theorem regrant_out (k : Nat) (r : LockRec) : (s.regrant k r).out = s.out := by
  have hfold : ∀ (h : HedgeId) (l : List (SlotId × Bool)) (u : State), (l.foldl (fun t w =>
      match (t.slotRequest w.1).bind fun x => reqLock x.req with
      | some (c, x) => t.granted w.1 h r.unit c x
      | none => t) u).out = u.out := by
    intro h l
    induction l with
    | nil => exact fun _ => rfl
    | cons w l ih =>
      intro u
      rw [List.foldl_cons, ih]
      split
      · unfold State.granted
        dsimp only
        split
        · rfl
        · rfl
      · rfl
  exact hfold _ _ _

theorem leaveReaders_keeps (c : Cmd) : (s.leaveReaders c).fns = s.fns ∧ (s.leaveReaders c).out = s.out := by
  unfold State.leaveReaders
  split
  · exact ⟨(regrant_regranted s _ _).1.fns, regrant_out s _ _⟩
  · exact ⟨rfl, rfl⟩
end

section
variable {s : State} {f : FnId} {h : HedgeId} {c : Cmd} {va n : Nat}

/-- Firmware's read of a record that can be read at once (10 R340). -/
theorem recordReads_locked (hr : s.recordReads h va n c) : s.lockedRead h va n c = .ok ((s.readRecord h va n).map (·.1)) := by
  obtain ⟨hpages, hheld, hnone, hroom, hclean⟩ := hr
  have hok : ∀ p ∈ (spanPages va n).map fun a => s.fwPage h a, p = .ok [] := by
    intro p hp
    obtain ⟨a, ha, rfl⟩ := List.mem_map.1 hp
    obtain ⟨at_, q, level, hwalk, hread, hres⟩ := hpages a ha
    unfold State.fwPage
    rw [hwalk]
    dsimp only
    rw [hread, hres]
    rfl
  have hfw : s.fwPages h va n = .ok [] := by
    unfold State.fwPages
    dsimp only
    generalize (spanPages va n).map (fun a => s.fwPage h a) = ps at hok
    have hfail : ¬ps.contains (.fail 0x04) = true := fun hc => nomatch hok _ (List.contains_iff_mem.1 hc)
    have hwait : ¬ps.contains .wait = true := fun hc => nomatch hok _ (List.contains_iff_mem.1 hc)
    rw [if_neg hfail, if_neg, if_neg hwait]
    rw [List.any_eq_true]
    rintro ⟨p, hp, hst⟩
    rw [hok p hp] at hst
    exact Bool.false_ne_true hst
  have hblocked : s.readBlocked (lockKey h va) c.start = false := by
    unfold State.readBlocked
    dsimp only
    rw [hnone, Bool.or_eq_false_iff]
    exact ⟨List.any_eq_false.2 fun x hx => by rw [hheld x hx]; exact Bool.false_ne_true, rfl⟩
  unfold State.lockedRead
  rw [hfw, hroom, hblocked]
  dsimp only
  rw [if_neg Bool.false_ne_true, if_neg Bool.false_ne_true, if_neg]
  rw [List.any_eq_true]
  rintro ⟨x, hx, hp⟩
  rw [hclean x hx] at hp
  exact Bool.false_ne_true hp

/-- What READ does with its source and the bytes that go before it. -/
def State.readFrom (s : State) (f : FnId) (h : HedgeId) (c : Cmd) (r : Cell) (head : List Byte) : State :=
  let n := head.length + refLen r
  if fieldOf c.bytes 40 4 < n then s.fail f c 0x07
  else if s.lehr.drawn.toNat < (cmdParam c.bytes).toNat then s.fail f c 0x07
  else if s.lehr.applied.toNat < (cmdParam c.bytes).toNat then s
  else
    match s.lockedRead h (refAddr r) (refLen r) c with
    | .wait => s
    | .locked => s.joinReaders f h c (refAddr r)
    | .fail st => ((if st = 0x04 then s.accessed h (refAddr r) (refLen r) else s).fail f c st).leaveReaders c
    | .ok bs =>
      (((s.accessed h (refAddr r) (refLen r)).emit (.host f (BitVec.ofNat 64 (fieldOf c.bytes 32 8)) (head ++ bs) false)).reply f c .observed
        s.lehr.drawn 0 (BitVec.ofNat 64 n) 0).leaveReaders c

/-- The record that a READ names, and the bytes that it puts before it: of a reference of the command, or of an endpoint with EP (13 R434). -/
def State.readsFrom (s : State) (h : HedgeId) (b : List Byte) (r : Cell) (head : List Byte) : Prop :=
  (cmdEp b = false ∧ r = hostRef false (cellBytes b 1) ∧ head = []) ∨
    ∃ d, cmdEp b = true ∧ s.defined? h (fieldOf b 16 4) = some d ∧ r = endpointRef d ∧ head = endpointBytes d

theorem read_exec {r : Cell} {head : List Byte} (hd : s.doing f 0x02 h c) (hsrc : s.readsFrom h c.bytes r head) (hok : refOk r = true) :
    exec (.read f) s = .next ((s.flushFor h).readFrom f h c r head) := by
  obtain ⟨rg, k, hflush⟩ := flushFor_fields s h
  show execRead f s = _
  unfold execRead
  rw [slowCmd_doing hd]
  refine congrArg Host.Outcome.next ?_
  dsimp only
  rcases hsrc with ⟨hep, rfl, rfl⟩ | ⟨d, hep, hdef, rfl, rfl⟩
  · rw [hep, Bool.false_and, if_neg Bool.false_ne_true, if_neg Bool.false_ne_true]
    dsimp only
    rw [if_neg (by rw [hok]; decide)]
    rfl
  · have hdef' : (s.flushFor h).defined? h (fieldOf c.bytes 16 4) = some d := by rw [hflush]; exact hdef
    rw [hep, Bool.true_and, if_pos rfl, hdef']
    dsimp only
    rw [if_neg (nomatch ·), if_neg (by rw [hok]; decide)]
    rfl

theorem read_reads {r : Cell} {head : List Byte} (hd : s.doing f 0x02 h c) (hsrc : s.readsFrom h c.bytes r head) (hok : refOk r = true)
    (hfit : head.length + refLen r ≤ fieldOf c.bytes 40 4) (hdrawn : (cmdParam c.bytes).toNat ≤ s.lehr.drawn.toNat)
    (happlied : (cmdParam c.bytes).toNat ≤ s.lehr.applied.toNat) (hread : s.recordReads h (refAddr r) (refLen r) c) :
    Answers (.read f) s fun t => ∃ o, t.out = s.out ++ o ∧
      o.getLast? = some (.host f (BitVec.ofNat 64 (fieldOf c.bytes 32 8)) (head ++ (s.readRecord h (refAddr r) (refLen r)).map (·.1)) false) ∧
      (t.fn f).cur = (s.fn f).cur.erase c ∧
      (t.fn f).waiting = (s.fn f).waiting ++ [c.ends (s.fn f) .observed s.lehr.drawn 0 (head.length + refLen r) 0] := by
  have hex := read_exec hd hsrc hok
  obtain ⟨rg, k, hflush⟩ := flushFor_fields s h
  have hflushed : Disturbs s (s.flushFor h) := by rw [hflush]; exact .of_same rfl rfl
  have hlocked : (s.flushFor h).lockedRead h (refAddr r) (refLen r) c = .ok ((s.readRecord h (refAddr r) (refLen r)).map (·.1)) := by
    rw [recordReads_locked (s := s.flushFor h) (by rw [hflush]; exact hread), hflush]
    rfl
  have hlehr : (s.flushFor h).lehr = s.lehr := by rw [hflush]
  generalize s.flushFor h = u at hex hflushed hlocked hlehr
  unfold State.readFrom at hex
  dsimp only at hex
  rw [hlehr, if_neg (Nat.not_lt.2 hfit), if_neg (Nat.not_lt.2 hdrawn), if_neg (Nat.not_lt.2 happlied), hlocked] at hex
  dsimp only at hex
  have hacc := hflushed.trans (accessed_disturbs u h (refAddr r) (refLen r))
  generalize u.accessed h (refAddr r) (refLen r) = v at hex hacc
  have hw := hacc.trans (Disturbs.emit v (.host f (BitVec.ofNat 64 (fieldOf c.bytes 32 8)) (head ++ (s.readRecord h (refAddr r) (refLen r)).map (·.1)) false))
  obtain ⟨o, ho⟩ := hacc.out
  obtain ⟨-, hh, -, hm, hp⟩ := hd
  have ha := reply_answered (t := v.emit (.host f (BitVec.ofNat 64 (fieldOf c.bytes 32 8)) (head ++ (s.readRecord h (refAddr r) (refLen r)).map (·.1)) false))
    ((hw.ring f).hedge.trans hh) ((hw.ring f).posting.trans hp) hm (gk := .observed) (st := 0) (.inl rfl) s.lehr.drawn (head.length + refLen r) 0
  obtain ⟨hcur, hwait⟩ := ha.replied (hw.ring f)
  refine ⟨_, hex, o ++ [.host f (BitVec.ofNat 64 (fieldOf c.bytes 32 8)) (head ++ (s.readRecord h (refAddr r) (refLen r)).map (·.1)) false], ?_,
    List.getLast?_concat, ?_, ?_⟩
  · rw [(leaveReaders_keeps _ c).2, ← List.append_assoc, ho]
    exact congrArg State.out ha.rest
  · rw [fn_congr (leaveReaders_keeps _ c).1]
    exact hcur
  · rw [fn_congr (leaveReaders_keeps _ c).1]
    exact hwait

theorem read_refused {r : Cell} {head : List Byte} (hd : s.doing f 0x02 h c) (hsrc : s.readsFrom h c.bytes r head) (hok : refOk r = true)
    (hbad : fieldOf c.bytes 40 4 < head.length + refLen r ∨ s.lehr.drawn.toNat < (cmdParam c.bytes).toNat) :
    Answers (.read f) s fun t => Replied s t f c (c.ends (s.fn f) .carried 0 0x07 0 0) ∧ t.out = s.out := by
  obtain ⟨rg, k, hflush⟩ := flushFor_fields s h
  have hlehr : (s.flushFor h).lehr = s.lehr := by rw [hflush]
  have hfrom : (s.flushFor h).readFrom f h c r head = (s.flushFor h).fail f c 0x07 := by
    unfold State.readFrom
    dsimp only
    rw [hlehr]
    split
    · rfl
    · next hfit => exact if_pos (hbad.resolve_left hfit)
  obtain ⟨ha, hr⟩ := answered_replied hd (w := s.flushFor h) (by rw [hflush]) (gk := .carried) (st := 0x07) (.inr rfl) 0 0 0
  refine ⟨_, (read_exec hd hsrc hok).trans (congrArg Host.Outcome.next hfrom), hr, ?_⟩
  exact (congrArg State.out ha.rest).trans (by rw [hflush])

theorem read_waits {r : Cell} {head : List Byte} (hd : s.doing f 0x02 h c) (hsrc : s.readsFrom h c.bytes r head) (hok : refOk r = true)
    (hfit : head.length + refLen r ≤ fieldOf c.bytes 40 4) (hdrawn : (cmdParam c.bytes).toNat ≤ s.lehr.drawn.toNat)
    (happlied : (cmdParam c.bytes).toNat ≤ s.lehr.applied.toNat) {m : SlotId} (hlock : s.lockedRead h (refAddr r) (refLen r) c = .locked)
    (hwaits : c.waits = none) (hcur : (s.fn f).cur = [c]) (hheld : (s.lockRec (lockKey h (refAddr r))).holders = [(m, true)]) :
    Answers (.read f) s fun t => t.fn f = { s.fn f with cur := [{ c with waits := some (lockKey h (refAddr r)) }] } ∧
      t.wounds = s.wounds ++ (if c.start.toNat < (s.slot m).start.toNat then [(stopOf (s.unitAt h (refAddr r)), m)] else []) ∧
      t = { s.flushFor h with fns := t.fns, wounds := t.wounds } := by
  obtain ⟨rg, k, hflush⟩ := flushFor_fields s h
  have hlehr : (s.flushFor h).lehr = s.lehr := by rw [hflush]
  have hlock' : (s.flushFor h).lockedRead h (refAddr r) (refLen r) c = .locked := by rw [hflush]; exact hlock
  have hfrom : (s.flushFor h).readFrom f h c r head = (s.flushFor h).joinReaders f h c (refAddr r) := by
    unfold State.readFrom
    dsimp only
    rw [hlehr, if_neg (Nat.not_lt.2 hfit), if_neg (Nat.not_lt.2 hdrawn), if_neg (Nat.not_lt.2 happlied), hlock']
  refine ⟨_, (read_exec hd hsrc hok).trans (congrArg Host.Outcome.next hfrom), ?_⟩
  have hfn : (s.flushFor h).fn f = s.fn f := by rw [hflush]; rfl
  have hwounds : (((s.flushFor h).lockRec (lockKey h (refAddr r))).holders.filter fun q =>
      q.2 && decide (c.start.toNat < ((s.flushFor h).slot q.1).start.toNat)) = if c.start.toNat < (s.slot m).start.toNat then [(m, true)] else [] := by
    have hlr : (s.flushFor h).lockRec (lockKey h (refAddr r)) = s.lockRec (lockKey h (refAddr r)) := by rw [hflush]; rfl
    have hslot : (s.flushFor h).slot m = s.slot m := by rw [hflush]; rfl
    rw [hlr, hheld, List.filter_cons, List.filter_nil, hslot, Bool.true_and]
    simp only [decide_eq_true_eq]
  unfold State.joinReaders
  dsimp only
  rw [if_neg (by rw [hwaits]; exact Option.some_ne_none _ ∘ Eq.symm), hwounds]
  refine ⟨?_, ?_, rfl⟩
  · rw [modFn_fn]
    refine (congrArg (fun q : Fn => { q with cur := q.cur.map fun x => if x = c then { c with waits := some (lockKey h (refAddr r)) } else x })
      (hfn : _ = s.fn f)).trans ?_
    rw [hcur, List.map_cons, List.map_nil, if_pos rfl]
  · have hunit : (s.flushFor h).unitAt h (refAddr r) = s.unitAt h (refAddr r) := by rw [hflush]; rfl
    have hw : (s.flushFor h).wounds = s.wounds := by rw [hflush]
    show (s.flushFor h).wounds ++ _ = _
    rw [hunit, hw]
    split
    · rfl
    · rfl
end

/-! ### MAP: pages added and removed -/

/-- `t` is `s` but for HBM and for which frames are page tables. -/
def State.TablesOnly (s t : State) : Prop := t = { s with hbm := t.hbm, poison := t.poison, hbmLatent := t.hbmLatent, tables := t.tables }

theorem State.TablesOnly.trans {s t u : State} (h : s.TablesOnly t) (k : t.TablesOnly u) : s.TablesOnly u := by
  unfold State.TablesOnly at *
  rw [k, h]

theorem newTable_tablesOnly {s : State} {h : HedgeId} {r : Nat × State} (hr : s.newTable h = some r) : s.TablesOnly r.2 := by
  unfold State.newTable at hr
  obtain ⟨_, -, rfl⟩ := Option.map_eq_some_iff.1 hr
  rfl

theorem installFrom_tablesOnly (h : HedgeId) (va target : Nat) (p : Pte) (n : Nat) (at_ : Nat) (s : State) :
    s.TablesOnly (State.installFrom h va target p n at_ s) := by
  induction n generalizing at_ s with
  | zero => exact rfl
  | succ n ih =>
    unfold State.installFrom
    dsimp only
    split
    · exact rfl
    · split
      · exact ih _ _
      · split
        · next r hr => exact (newTable_tablesOnly hr).trans (State.TablesOnly.trans (t := r.2.hbmPut _ 8 _) rfl (ih _ _))
        · exact rfl

section
variable {s t : State} {h : HedgeId} {va perm pkey prkey port : Nat}

theorem blockPort_one (hlt : port < 16) (hup : s.portUp port = true) (hroom : tget 0 s.blockNext port < s.capacity port)
    (hfirst : ∀ p, p < port → s.portUp p = false ∨ s.capacity p ≤ tget 0 s.blockNext p) : s.blockPort 1 = some port := by
  have halign : ∀ x, alignUp x 1 = x := fun x => by simp [alignUp]
  unfold State.blockPort
  refine List.find?_range_eq_some.2 ⟨?_, List.mem_range.2 hlt, fun p hp => ?_⟩
  · rw [halign, hup, Bool.true_and, decide_eq_true_eq]
    exact hroom
  · rw [halign, Bool.not_eq_true', Bool.and_eq_false_iff, decide_eq_false_iff_not]
    exact (hfirst p hp).imp_right fun hc => by omega

/-- The state in which a block of storage port `port` has been given to hedge `h`. -/
def State.blockTaken (s : State) (h : HedgeId) (port : Nat) : State :=
  { s with blockNext := tset 0 s.blockNext port (tget 0 s.blockNext port + 1) }.modHedge h fun g => { g with stored := g.stored + 1 }

theorem takeBlocks_one (hp : s.blockPort 1 = some port) (hq : (s.hedge h).stored < (s.hedge h).par.store) :
    s.takeBlocks h 1 = some (port, tget 0 s.blockNext port, s.blockTaken h port) := by
  have halign : ∀ x, alignUp x 1 = x := fun x => by simp [alignUp]
  unfold State.takeBlocks
  show (match s.blockPort 1 with | none => none | some p => _) = _
  rw [hp]
  dsimp only
  rw [show levelFrames 1 = 1 from rfl, if_neg (by omega), halign]
  rfl

theorem mapPage_full (hno : (s.hedge h).par.store ≤ (s.hedge h).stored ∨ (∀ p, p < 16 → s.portUp p = false) ∨ s.tablesFree < 3) :
    s.mapPage h 1 va perm pkey prkey false = none := by
  unfold State.mapPage
  split
  · rfl
  · next port b u htake =>
    refine if_pos ?_
    unfold State.takeBlocks at htake
    dsimp only at htake
    split at htake
    · cases htake
    · next i hp =>
      split at htake
      · cases htake
      · next hq =>
        cases htake
        rcases hno with hs | hup | ht
        · exact absurd (Nat.lt_succ_of_le hs) hq
        · obtain ⟨hmem, hcap⟩ := List.mem_of_find?_eq_some hp, List.find?_some hp
          rw [hup port (List.mem_range.1 hmem), Bool.false_and] at hcap
          exact absurd hcap Bool.false_ne_true
        · exact ht

/-- What mapping one unpinned 4 KiB page leaves. -/
structure PageMapped (s t : State) (h : HedgeId) (va port : Nat) (p : Pte) : Prop where
  fns : t.fns = s.fns
  durable : t.durable = tset (0, 0) s.durable (durKey h va) (1, p)
  next : tget 0 t.blockNext port = tget 0 s.blockNext port + 1
  stored : (t.hedge h).stored = (s.hedge h).stored + 1

theorem mapPage_one (hp : s.blockPort 1 = some port) (hq : (s.hedge h).stored < (s.hedge h).par.store) (ht : 3 ≤ s.tablesFree) :
    ∃ t, s.mapPage h 1 va perm pkey prkey false = some t ∧
      PageMapped s t h va port (mkLeaf perm true false (tget 0 s.blockNext port) port pkey prkey) := by
  have hinst := installFrom_tablesOnly h va 1 (mkLeaf perm true false (tget 0 s.blockNext port) port pkey prkey) 4
    ((s.blockTaken h port).hedge h).root.toNat (s.blockTaken h port)
  refine ⟨((s.blockTaken h port).install h va 1 (mkLeaf perm true false (tget 0 s.blockNext port) port pkey prkey)).setDurable h va 1
    (mkLeaf perm true false (tget 0 s.blockNext port) port pkey prkey), ?_, ?_⟩
  · unfold State.mapPage
    rw [takeBlocks_one hp hq]
    dsimp only
    have htables : (s.blockTaken h port).tablesFree = s.tablesFree := rfl
    rw [htables, if_neg (Nat.not_lt.2 ht), if_neg Bool.false_ne_true]
  · unfold State.install State.setDurable
    rw [hinst]
    refine ⟨rfl, rfl, ?_, ?_⟩
    · show tget 0 (tset 0 s.blockNext port (tget 0 s.blockNext port + 1)) port = _
      exact tget_tset_same _ _ _ _
    · exact congrArg Hedge.stored (State.setHedge_hedge_same _ h _)
end

section
variable {s : State} {f : FnId} {h : HedgeId} {c : Cmd}

theorem mapPages_one (s : State) (h : HedgeId) (perm pkey prkey va : Nat) :
    State.mapPages h 1 perm pkey prkey false 1 va s = s.mapPage h 1 va perm pkey prkey false := by
  unfold State.mapPages
  split
  · next t ht => rw [ht]; rfl
  · next hn => exact hn.symm

/-- The reply of MAP of one page, by what the mapping came to. -/
def State.mapReply (s : State) (f : FnId) (c : Cmd) : Option State → State
  | some t => t.reply f c .carried 0 0 (BitVec.ofNat 64 1) 0
  | none => s.fail f c 0x0B

/-- MAP of one unpinned 4 KiB page (13 R436). -/
theorem map_one_exec (hd : s.doing f 0x05 h c) (hadd : fieldOf c.bytes 32 1 < 128) (hsize : fieldOf c.bytes 32 1 / 16 % 4 = 0)
    (hal : fieldOf c.bytes 16 6 % 4096 = 0) (hlen : fieldOf c.bytes 24 8 = 4096) (hend : fieldOf c.bytes 16 6 + 4096 ≤ 2 ^ 48)
    (hrw : ¬(fieldOf c.bytes 32 1 / 2 % 2 = 1 ∧ fieldOf c.bytes 32 1 % 2 = 0)) (hpin : fieldOf c.bytes 32 1 / 8 % 2 = 0)
    (hkey : fieldOf c.bytes 33 1 % 16 ≠ 0) (hfree : s.anyMapped h (fieldOf c.bytes 16 6) 4096 = false) :
    exec (.map f) s = .next ((s.flushFor h).mapReply f c ((s.flushFor h).mapPage h 1 (fieldOf c.bytes 16 6) (fieldOf c.bytes 32 1 % 8)
      (fieldOf c.bytes 33 1 % 16) (fieldOf c.bytes 33 1 / 16) false)) := by
  obtain ⟨rg, k, hflush⟩ := flushFor_fields s h
  have hfree' : (s.flushFor h).anyMapped h (fieldOf c.bytes 16 6) 4096 = false := by rw [hflush]; exact hfree
  have hlow : (fieldOf c.bytes 32 1 / 128 == 1) = false := by rw [Nat.div_eq_of_lt hadd]; rfl
  have hpin' : (fieldOf c.bytes 32 1 / 8 % 2 == 1) = false := by rw [hpin]; rfl
  have hrw' : (fieldOf c.bytes 32 1 / 2 % 2 == 1 && fieldOf c.bytes 32 1 % 2 == 0) = false :=
    Bool.eq_false_iff.2 fun hc => hrw (by simpa using hc)
  have hkey' : (fieldOf c.bytes 33 1 % 16 == 0) = false := beq_false_of_ne hkey
  show execMap f s = _
  unfold execMap
  rw [slowCmd_doing hd]
  refine congrArg Host.Outcome.next ?_
  dsimp only
  rw [hsize, hlen, hlow, hpin', hrw', hkey', hfree', show mapLevel 0 = some 1 from rfl]
  dsimp only
  rw [show 2 ^ levelBits 1 = 4096 from rfl, if_neg (by omega), if_neg Bool.false_ne_true, show ((1 : Nat) == 3) = false from rfl,
    Bool.false_and, if_neg (by decide), show 4096 / 4096 = 1 from rfl, mapPages_one]
  cases (s.flushFor h).mapPage h 1 (fieldOf c.bytes 16 6) (fieldOf c.bytes 32 1 % 8) (fieldOf c.bytes 33 1 % 16) (fieldOf c.bytes 33 1 / 16) false with
  | none => rfl
  | some t => rfl

theorem map_adds {port : Nat} (hd : s.doing f 0x05 h c) (hmap : exec (.map f) s = .next ((s.flushFor h).mapReply f c ((s.flushFor h).mapPage h 1
      (fieldOf c.bytes 16 6) (fieldOf c.bytes 32 1 % 8) (fieldOf c.bytes 33 1 % 16) (fieldOf c.bytes 33 1 / 16) false)))
    (hq : (s.hedge h).stored < (s.hedge h).par.store) (ht : 3 ≤ s.tablesFree) (hp : s.blockPort 1 = some port) :
    Answers (.map f) s fun t => Replied s t f c (c.ends (s.fn f) .carried 0 0 1 0) ∧
      tget (0, 0) t.durable (durKey h (fieldOf c.bytes 16 6)) = (1, mkLeaf (fieldOf c.bytes 32 1 % 8) true false (tget 0 s.blockNext port) port
        (fieldOf c.bytes 33 1 % 16) (fieldOf c.bytes 33 1 / 16)) ∧
      (∀ k, k ≠ durKey h (fieldOf c.bytes 16 6) → tget (0, 0) t.durable k = tget (0, 0) s.durable k) ∧
      tget 0 t.blockNext port = tget 0 s.blockNext port + 1 ∧ (t.hedge h).stored = (s.hedge h).stored + 1 := by
  obtain ⟨rg, k, hflush⟩ := flushFor_fields s h
  obtain ⟨w, hw, hpage⟩ := mapPage_one (s := s.flushFor h) (h := h) (va := fieldOf c.bytes 16 6) (perm := fieldOf c.bytes 32 1 % 8)
    (pkey := fieldOf c.bytes 33 1 % 16) (prkey := fieldOf c.bytes 33 1 / 16) (port := port) (by rw [hflush]; exact hp) (by rw [hflush]; exact hq)
    (by rw [hflush]; exact ht)
  rw [hw, State.mapReply] at hmap
  rw [hflush] at hpage
  obtain ⟨hfns, hdur, hnext, hstored⟩ := hpage
  obtain ⟨ha, hr⟩ := answered_replied hd hfns (gk := .carried) (st := 0) (.inl rfl) 0 1 0
  have hdur' := (congrArg State.durable ha.rest).trans hdur
  refine ⟨_, hmap, hr, ?_, fun j hj => ?_, ?_, ?_⟩
  · rw [hdur']
    exact tget_tset_same _ _ _ _
  · rw [hdur']
    exact tget_tset_ne _ _ _ _ hj
  · exact (congrArg (fun m => tget 0 m port) (congrArg State.blockNext ha.rest)).trans hnext
  · exact (ha.par h).2.2.trans hstored

theorem map_full (hd : s.doing f 0x05 h c) (hmap : exec (.map f) s = .next ((s.flushFor h).mapReply f c ((s.flushFor h).mapPage h 1
      (fieldOf c.bytes 16 6) (fieldOf c.bytes 32 1 % 8) (fieldOf c.bytes 33 1 % 16) (fieldOf c.bytes 33 1 / 16) false)))
    (hno : (s.hedge h).par.store ≤ (s.hedge h).stored ∨ (∀ p, p < 16 → s.portUp p = false) ∨ s.tablesFree < 3) :
    Answers (.map f) s fun t => Replied s t f c (c.ends (s.fn f) .carried 0 0x0B 0 0) ∧ t.durable = s.durable := by
  obtain ⟨rg, k, hflush⟩ := flushFor_fields s h
  rw [mapPage_full (s := s.flushFor h) (by rw [hflush]; exact hno)] at hmap
  obtain ⟨ha, hr⟩ := answered_replied hd (w := s.flushFor h) (by rw [hflush]) (gk := .carried) (st := 0x0B) (.inr rfl) 0 0 0
  exact ⟨_, hmap, hr, (congrArg State.durable ha.rest).trans (by rw [hflush])⟩

theorem natOfBytes_lt (bs : List Byte) : natOfBytes bs < 256 ^ bs.length := by
  induction bs with
  | nil => exact Nat.one_pos
  | cons b bs ih =>
    have hb := b.isLt
    rw [natOfBytes, List.length_cons, pow_succ']
    omega

theorem fieldOf_lt (b : List Byte) (off n : Nat) : fieldOf b off n < 256 ^ n :=
  (natOfBytes_lt _).trans_le (Nat.pow_le_pow_right (by decide) (List.length_take_le _ _))

/-! Pages that go -/

theorem releasePage_keeps (s : State) (h : HedgeId) (base size : Nat) : (s.releasePage h base size true).fns = s.fns ∧
    (s.releasePage h base size true).durable = s.durable := by
  have hfold : ∀ (l : List SlotId) (u : State), (l.foldl (fun t n => if true = true then t.modSlot n fun sl => { sl with pageWait := none }
      else t.endTxn n 0x04 0) u).fns = u.fns ∧ (l.foldl (fun t n => if true = true then t.modSlot n fun sl => { sl with pageWait := none }
      else t.endTxn n 0x04 0) u).durable = u.durable := by
    intro l
    induction l with
    | nil => exact fun _ => ⟨rfl, rfl⟩
    | cons n l ih => exact fun u => ⟨(ih _).1, (ih _).2⟩
  exact hfold _ _

theorem unmapPage_keeps (s : State) (h : HedgeId) (level va : Nat) : (s.unmapPage h level va).fns = s.fns ∧
    tget (0, 0) (s.unmapPage h level va).durable (durKey h va) = (0, 0) := by
  have hinv : ∀ u : State, (u.invPage h va).fns = u.fns := fun u => by
    obtain ⟨r, en, cl, hq, -, -⟩ := fwInvalidate_removes u 1 h (va / 4096) (tlbOfPage h va)
    exact (congrArg State.fns hq).trans rfl
  have hput : ∀ a, ((s.hbmPut a 8 0).invPage h va).fns = s.fns := fun a => hinv _
  have hfree : ∀ (u : State) (a n : Nat), (u.freeFrames a n).fns = u.fns := fun u a n => by
    obtain ⟨m, p, l, al, hq⟩ := freeFrames_only u a n
    rw [hq]
  unfold State.unmapPage
  extract_lets q size s1 s2
  obtain ⟨hf, hdur⟩ := releasePage_keeps (s2.emit (.nvme q.ssd 0x09 q.block size false)) h va size
  have hs1 : s1.fns = s.fns := by
    simp only [s1]
    split
    · split
      · rw [hfree, hinv]
        rfl
      · split
        · rw [hfree]
          dsimp only
          exact hput _
        · exact hput _
    · rfl
  refine ⟨hf.trans hs1, ?_⟩
  rw [hdur]
  show tget (0, 0) (tset (0, 0) s1.durable (durKey h va) (0, 0)) (durKey h va) = _
  exact tget_tset_same _ _ _ _

theorem map_removes (hd : s.doing f 0x05 h c) (hunmap : 128 ≤ fieldOf c.bytes 32 1) (hsize : fieldOf c.bytes 32 1 / 16 % 4 = 0)
    (hal : fieldOf c.bytes 16 6 % 4096 = 0) (hlen : fieldOf c.bytes 24 8 = 4096) (hend : fieldOf c.bytes 16 6 + 4096 ≤ 2 ^ 48)
    (hmapped : s.mappedAt h 1 (fieldOf c.bytes 16 6) = true) (hlock : s.pageLocked h (fieldOf c.bytes 16 6) 4096 = false) :
    Answers (.map f) s fun t => (t.fn f).cur = (s.fn f).cur.erase c ∧ tget (0, 0) t.durable (durKey h (fieldOf c.bytes 16 6)) = (0, 0) ∧
      (t.fn f).waiting = (s.fn f).waiting ++ [c.ends (s.fn f) .carried 0 0 1 0] := by
  obtain ⟨rg, k, hflush⟩ := flushFor_fields s h
  have hmapped' : (s.flushFor h).mappedAt h 1 (fieldOf c.bytes 16 6) = true := by rw [hflush]; exact hmapped
  have hlock' : (s.flushFor h).pageLocked h (fieldOf c.bytes 16 6) 4096 = false := by rw [hflush]; exact hlock
  have hbyte : fieldOf c.bytes 32 1 < 256 := fieldOf_lt _ _ 1
  have hhigh : (fieldOf c.bytes 32 1 / 128 == 1) = true := beq_iff_eq.2 (by omega)
  have hex : exec (.map f) s = .next (((s.flushFor h).unmapPage h 1 (fieldOf c.bytes 16 6)).reply f c .carried 0 0 (BitVec.ofNat 64 1) 0) := by
    show execMap f s = _
    unfold execMap
    rw [slowCmd_doing hd]
    refine congrArg Host.Outcome.next ?_
    dsimp only
    rw [hsize, hlen, hhigh, show mapLevel 0 = some 1 from rfl]
    dsimp only
    rw [show 2 ^ levelBits 1 = 4096 from rfl, if_neg (by omega), if_pos rfl, show 4096 / 4096 = 1 from rfl]
    show (if (!(((s.flushFor h).mappedAt h 1 (fieldOf c.bytes 16 6 + 0)) && true)) = true then _
        else if ((s.flushFor h).pageLocked h (fieldOf c.bytes 16 6 + 0) 4096 || false) = true then _
        else ((s.flushFor h).unmapPage h 1 (fieldOf c.bytes 16 6 + 0)).reply f c .carried 0 0 (BitVec.ofNat 64 1) 0) = _
    rw [Nat.add_zero, hmapped', hlock', if_neg (by decide), if_neg (by decide)]
  obtain ⟨hf, hdur⟩ := unmapPage_keeps (s.flushFor h) h 1 (fieldOf c.bytes 16 6)
  obtain ⟨ha, hr⟩ := answered_replied hd (hf.trans (by rw [hflush])) (gk := .carried) (st := 0) (.inl rfl) 0 1 0
  refine ⟨_, hex, hr.1, ?_, hr.2⟩
  exact (congrArg (fun m => tget (0, 0) m (durKey h (fieldOf c.bytes 16 6))) (congrArg State.durable ha.rest)).trans hdur

/-! ### RESYNC -/

/-- The completion of a RESYNC command: the durable watermark, and how many completions it reposts (13 R444). -/
def Cmd.watermark (c : Cmd) (q : Fn) (gcs result detail : Word64) : Compl :=
  { gk := .watermark, gcs := gcs, result := result, hsn := cmdHsn c.bytes, sqhead := q.sqHead, status := 0, cont := false, rp := false
    detail := detail, slot := none, resync := true }

/-- The completions of a hedge's history that RESYNC of `n` numbers from `a` on reposts. -/
def State.reposts (s : State) (h : HedgeId) (a : BitVec 32) (n : Nat) : List Compl :=
  ((s.hedge h).history.filter fun x => decide (hsnIn a x.hsn < n)).map fun (x : Compl) => { x with rp := true, slot := none, resync := false }

/-- What RESYNC leaves, with its own completion `k`. -/
def State.resynced (s : State) (f : FnId) (h : HedgeId) (c : Cmd) (l : List Compl) (k : Compl) : State :=
  ((s.dropCur f c).modFn f fun q => { q with waiting := l ++ k :: q.waiting }).modHedge h fun g => g.remember k

theorem resynced_eq (t : State) (l : List Compl) (k : Compl) : (t.resynced f h c l k).fn f =
    { t.fn f with cur := (t.fn f).cur.erase c, waiting := l ++ k :: (t.fn f).waiting } ∧
    ((t.resynced f h c l k).hedge h).history.getLast? = some k := by
  refine ⟨?_, ?_⟩
  · refine (modFn_fn (t.dropCur f c) f fun q => { q with waiting := l ++ k :: q.waiting }).trans ?_
    exact congrArg (fun q : Fn => { q with waiting := l ++ k :: q.waiting }) (modFn_fn ..)
  · obtain ⟨m, d, hr, hl⟩ := remember_rest (t.hedge h) k
    refine Eq.trans (congrArg (fun g : Hedge => g.history.getLast?) (State.setHedge_hedge_same _ h _)) ?_
    exact (congrArg (fun g : Hedge => g.history.getLast?) hr).trans hl

theorem resync_reposts (hd : s.doing f 0x06 h c) :
    let a : BitVec 32 := (cmdParam c.bytes).extractLsb' 0 32
    let n := hsnIn a ((cmdParam c.bytes).extractLsb' 32 32) + 1
    n ≤ 16384 → cmdRepost c.bytes = true →
      Answers (.resync f) s fun t => ∃ k, k.gk = .watermark ∧ k.gcs = s.lehr.gcsdur ∧ k.status = 0 ∧ k.resync = true ∧ k.hsn = cmdHsn c.bytes ∧
        (t.fn f).cur = (s.fn f).cur.erase c ∧ (t.fn f).waiting = s.reposts h a n ++ k :: (s.fn f).waiting ∧
        (t.hedge h).history.getLast? = some k := by
  intro a n hn hrep
  obtain ⟨rg, k, hflush⟩ := flushFor_fields s h
  have hfn : (s.flushFor h).fn f = s.fn f := by rw [hflush]; rfl
  have hex : ∃ detail, exec (.resync f) s = .next ((s.flushFor h).resynced f h c (s.reposts h a n)
      (c.watermark (s.fn f) s.lehr.gcsdur (BitVec.ofNat 64 (s.reposts h a n).length) detail)) := by
    have hhedge : (s.flushFor h).hedge h = s.hedge h := by rw [hflush]; rfl
    have hlehr : (s.flushFor h).lehr = s.lehr := by rw [hflush]
    exact ⟨_, by
      show execResync f s = _
      unfold execResync
      rw [slowCmd_doing hd]
      dsimp only
      rw [hrep, if_neg (Nat.not_lt.2 hn), if_pos rfl, hhedge, hfn, hlehr]
      rfl⟩
  obtain ⟨detail, hex⟩ := hex
  obtain ⟨heq, hlast⟩ := resynced_eq (f := f) (h := h) (c := c) (s.flushFor h) (s.reposts h a n)
    (c.watermark (s.fn f) s.lehr.gcsdur (BitVec.ofNat 64 (s.reposts h a n).length) detail)
  rw [hfn] at heq
  refine ⟨_, hex, c.watermark (s.fn f) s.lehr.gcsdur (BitVec.ofNat 64 (s.reposts h a n).length) detail, rfl, rfl, rfl, rfl, rfl, ?_, ?_, hlast⟩
  · exact congrArg Fn.cur heq
  · exact congrArg Fn.waiting heq
end

/-- Settles O27, command by command: each is the first of its hedge's and goes on behind a flush, which touches only registers; what it does
keeps the functions' rings, and its reply is formed last. -/
theorem hedgeCommandsTakeEffect : Obligations.HedgeCommandsTakeEffect := by
  intro s f h c
  dsimp only
  refine ⟨fun hb i hi => ?_, fun r head hsrc hd hok => ⟨fun hfit hdrawn happlied => ⟨fun hread => ?_, fun m hlock hwaits hcur hheld => ?_⟩, fun hbad => ?_⟩,
    fun d hd hdef => signal_answers hd hdef, fun hd => epset_answers hd, fun hd hadd hsize hal hlen hend hrw hpin hkey hfree => ?_,
    fun hd hunmap hsize hal hlen hend hmapped hlock => map_removes hd hunmap hsize hal hlen hend hmapped hlock, fun hd => resync_reposts hd⟩
  · simp only [List.mem_cons, List.not_mem_nil, or_false] at hi
    rcases hi with rfl | rfl | rfl | rfl | rfl | rfl | rfl | rfl | rfl
    · exact congrArg Host.Outcome.next (slowCmd_bounced hb _)
    · exact congrArg Host.Outcome.next (slowCmd_bounced hb _)
    · exact congrArg Host.Outcome.next (slowCmd_bounced hb _)
    · exact congrArg Host.Outcome.next (slowCmd_bounced hb _)
    · exact congrArg Host.Outcome.next (slowCmd_bounced hb _)
    · exact congrArg Host.Outcome.next (withStep_bounced hb _)
    · exact congrArg Host.Outcome.next (withStep_bounced hb _)
    · exact congrArg Host.Outcome.next (withStep_bounced hb _)
    · exact congrArg Host.Outcome.next (withStep_bounced hb _)
  · exact read_reads hd hsrc hok hfit hdrawn happlied hread
  · exact read_waits hd hsrc hok hfit hdrawn happlied hlock hwaits hcur hheld
  · exact read_refused hd hsrc hok hbad
  · have hmap := map_one_exec hd hadd hsize hal hlen hend hrw hpin hkey hfree
    exact ⟨fun hq ht port hlt hup hroom hfirst => map_adds hd hmap hq ht (blockPort_one hlt hup hroom hfirst), fun hno => map_full hd hmap hno⟩

end Sys2Proof.Machine
end

section
/-! O41: descriptors are taken, their bursts start, and they complete (12 R386 to R403, R408). -/

namespace Sys2Proof.Machine

/-! ### Translations do not look at the movers -/

/-- The state with other movers. -/
def State.withMovers (s : State) (x : Tab Mover) : State := { s with movers := x }

section
variable (s : State) (x : Tab Mover)

theorem sendMsix_withMovers (f : FnId) (b : Bool) : (s.withMovers x).sendMsix f b = (s.sendMsix f b).withMovers x := by
  unfold State.sendMsix
  dsimp only
  rw [apply_ite (State.withMovers · x), apply_ite (State.withMovers · x), apply_ite (State.withMovers · x)]
  rfl

theorem postEvent_withMovers (f : FnId) (v : Ev) : (s.withMovers x).postEvent f v = (s.postEvent f v).withMovers x := by
  unfold State.postEvent State.writeEvent
  dsimp only
  rw [apply_ite (State.withMovers · x), apply_ite (State.withMovers · x), ← sendMsix_withMovers]
  rfl

theorem hedgeEvent_withMovers (h : HedgeId) (v : Ev) : (s.withMovers x).hedgeEvent h v = (s.hedgeEvent h v).withMovers x := by
  have hfn : ((s.withMovers x).hedge h).fn = (s.hedge h).fn := rfl
  unfold State.hedgeEvent
  rw [hfn]
  cases (s.hedge h).fn with
  | none => rfl
  | some f => exact postEvent_withMovers s x f v

theorem poisonGranule_withMovers (g : Nat) : (s.withMovers x).poisonGranule g = (s.poisonGranule g).withMovers x := by
  have hva : (s.withMovers x).vaOf (32 * g) = s.vaOf (32 * g) := rfl
  unfold State.poisonGranule
  dsimp only
  rw [hva]
  cases s.vaOf (32 * g) with
  | none => rfl
  | some p =>
    dsimp only
    rw [← hedgeEvent_withMovers]
    rfl

theorem meetGranule_withMovers (g : Nat) : (s.withMovers x).meetGranule g = (s.meetGranule g).withMovers x := by
  have hl : (s.withMovers x).hbmLatent = s.hbmLatent := rfl
  unfold State.meetGranule
  rw [hl]
  cases tget Latent.none s.hbmLatent g with
  | none => rfl
  | correctable => rfl
  | uncorrectable => exact poisonGranule_withMovers s x g

variable {s}

/-- A run of steps each of which does not look at the movers. -/
theorem foldl_withMovers {α : Type} {f : State → α → State} (hf : ∀ (u : State) (a : α), f (u.withMovers x) a = (f u a).withMovers x) (l : List α) :
    l.foldl f (s.withMovers x) = (l.foldl f s).withMovers x := by
  induction l generalizing s with
  | nil => rfl
  | cons a l ih => rw [List.foldl_cons, hf, ih, List.foldl_cons]

theorem meetRead_withMovers (a n : Nat) : (s.withMovers x).meetRead a n = (s.meetRead a n).withMovers x :=
  foldl_withMovers x (fun u g => meetGranule_withMovers u x g) _

theorem pair_ite (c : Prop) [Decidable c] (u v : State × PageRes) :
    Prod.map (State.withMovers · x) id (if c then u else v) = if c then Prod.map (State.withMovers · x) id u else Prod.map (State.withMovers · x) id v :=
  apply_ite _ _ _ _

variable {a : Access} (ha : a.eng = none)
include ha

theorem dropParity_withMovers (va : Nat) : (s.withMovers x).dropParity a va = (s.dropParity a va).withMovers x := by
  unfold State.dropParity
  rw [ha]
  dsimp only
  rw [apply_ite (State.withMovers · x), apply_ite (State.withMovers · x)]
  rw [show (s.withMovers x).clu a.clu = s.clu a.clu from rfl, foldl_withMovers x (fun _ _ => rfl)]
  rfl

theorem walkLeaf_withMovers (va at_ : Nat) (p : Pte) (level : Nat) :
    (s.withMovers x).walkLeaf a va at_ p level = Prod.map (State.withMovers · x) id (s.walkLeaf a va at_ p level) := by
  have hput : (if p.marked a = p then s.withMovers x else (s.withMovers x).hbmPut at_ 8 (p.marked a).toNat) =
      State.withMovers (if p.marked a = p then s else s.hbmPut at_ 8 (p.marked a).toNat) x := by
    split
    · rfl
    · rfl
  unfold State.walkLeaf
  rw [ha]
  dsimp only
  rw [pair_ite, hput]
  generalize (if p.marked a = p then s else s.hbmPut at_ 8 (p.marked a).toNat) = u
  have hft : (u.withMovers x).ftAddr p.frame = u.ftAddr p.frame := rfl
  have hfe : (u.withMovers x).frameEntry p.frame = u.frameEntry p.frame := rfl
  rw [pair_ite, hft, hfe, meetRead_withMovers]
  by_cases hc : (a.prefetch && !a.keyOk (u.frameEntry p.frame)) = true
  · rw [if_pos hc, if_pos hc]
    rfl
  · rw [if_neg hc, if_neg hc]
    rfl

theorem transPage_withMovers (va : Nat) : (s.withMovers x).transPage a va = Prod.map (State.withMovers · x) id (s.transPage a va) := by
  unfold State.transPage
  rw [dropParity_withMovers x ha]
  generalize s.dropParity a va = u
  dsimp only
  rw [ha]
  have hl2 : ((u.withMovers x).clu a.clu).l2 = (u.clu a.clu).l2 := rfl
  dsimp only [Option.bind]
  rw [hl2]
  cases tlbFind (u.clu a.clu).l2 a.h va with
  | some i => rfl
  | none =>
    dsimp only
    have hmiss : (u.withMovers x).modClu a.clu (fun k => { k with l2miss := satInc k.l2miss }) =
        (u.modClu a.clu fun k => { k with l2miss := satInc k.l2miss }).withMovers x := rfl
    rw [hmiss]
    generalize (u.modClu a.clu fun k => { k with l2miss := satInc k.l2miss }) = v
    have hwalk : (v.withMovers x).walk a.h va = v.walk a.h va := rfl
    rw [hwalk, foldl_withMovers x fun _ _ => meetRead_withMovers x _ _]
    generalize (v.walk a.h va).2.foldl (fun t y => t.meetRead y 8) v = w
    cases (v.walk a.h va).1 with
    | fail st => rfl
    | malformed p level => rfl
    | leaf at_ p level =>
      dsimp only
      rw [pair_ite, ← walkLeaf_withMovers x ha]
      rfl

theorem transParts_withMovers (ps : List Nat) (upto : Nat) (r : PageRes) :
    State.transParts a ps upto (s.withMovers x, r) = Prod.map (State.withMovers · x) id (State.transParts a ps upto (s, r)) := by
  induction ps generalizing s upto r with
  | nil => rfl
  | cons p ps ih =>
    rw [State.transParts, State.transParts]
    split
    · exact ih _ _
    · dsimp only
      rw [transPage_withMovers x ha]
      exact ih _ _

theorem markLeaf_withMovers (va pte : Nat) : (s.withMovers x).markLeaf a va pte = Prod.map (State.withMovers · x) id (s.markLeaf a va pte) := by
  have hgone : ∀ u : State, (u.withMovers x).entriesGone a va = (u.entriesGone a va).withMovers x := fun u => by
    unfold State.entriesGone
    rw [ha]
    rfl
  have hstale : (s.withMovers x).markStale a va = (s.markStale a va).withMovers x := by
    unfold State.markStale
    rw [hgone]
    rfl
  have hmarked : ∀ u : State, (u.withMovers x).entriesMarked a va = (u.entriesMarked a va).withMovers x := fun u => by
    unfold State.entriesMarked
    rw [ha]
    rfl
  have hput : ∀ n, (s.withMovers x).hbmPut pte 8 n = (s.hbmPut pte 8 n).withMovers x := fun _ => rfl
  have hpoison : (s.withMovers x).readsPoison pte 8 = s.readsPoison pte 8 := rfl
  have hwalk : (s.withMovers x).walk a.h va = s.walk a.h va := rfl
  unfold State.markLeaf
  rw [hpoison, hwalk, hstale, meetRead_withMovers, hgone]
  split
  · rfl
  · cases (s.walk a.h va).1 with
    | fail st => rfl
    | malformed p level => rfl
    | leaf at_ p level =>
      dsimp only
      split
      · rw [hput, hmarked]
        rfl
      · rfl

theorem transMarked_withMovers (va n f : Nat) :
    State.transMarked a va n f (s.withMovers x) = Prod.map (State.withMovers · x) id (State.transMarked a va n f s) := by
  induction f generalizing s with
  | zero => rfl
  | succ f ih =>
    rw [State.transMarked, State.transMarked]
    unfold State.transRange
    rw [transParts_withMovers x ha]
    generalize State.transParts a (spanPages va n) 0 (s, .ok) = r
    obtain ⟨u, z⟩ := r
    dsimp only [Prod.map, id]
    cases z with
    | mark p pte =>
      dsimp only
      rw [markLeaf_withMovers x ha]
      dsimp only [Prod.map, id]
      split
      · exact ih
      · rfl
    | ok => rfl
    | fail st => rfl
    | fault v => rfl

end

section
variable (s : State) (x : Tab Mover) (m : MovId)

theorem maTrans_withMovers (a : Word64) (off n : Nat) (out : Bool) :
    (s.withMovers x).maTrans m a off n out = Prod.map (State.withMovers · x) id (s.maTrans m a off n out) := by
  unfold State.maTrans
  rw [pair_ite, ← transMarked_withMovers x (a := maAccess m a out) rfl]
  rfl

theorem maPrefetch_withMovers (a : Word64) (off : Nat) : (s.withMovers x).maPrefetch m a off = (s.maPrefetch m a off).withMovers x := by
  unfold State.maPrefetch
  dsimp only
  rw [transPage_withMovers x (a := { maAccess m a false with prefetch := true }) rfl]
  split
  · generalize s.transPage _ _ = r
    obtain ⟨u, z⟩ := r
    cases z with
    | fail st => rfl
    | mark p pte => rfl
    | ok => rfl
    | fault v => rfl
  · rfl

theorem maTrans_movers (a : Word64) (off n : Nat) (out : Bool) : (s.maTrans m a off n out).1.movers = s.movers :=
  congrArg (fun r => r.1.movers) (maTrans_withMovers s s.movers m a off n out)

theorem maPrefetch_movers (a : Word64) (off : Nat) : (s.maPrefetch m a off).movers = s.movers :=
  (congrArg State.movers (maPrefetch_withMovers s s.movers m a off) : ((s.withMovers s.movers).maPrefetch m a off).movers = _)

theorem maWrite_movers (a : Word64) (off : Nat) (bs : List (Byte × Bool)) : (s.maWrite m a off bs).movers = s.movers := by
  have hmem : ∀ (c : Bool) (i : Nat), (s.memWrite c i bs).movers = s.movers := fun c i => by
    obtain ⟨h, p, q, r, hq⟩ := memWrite_rest s c i bs
    rw [hq]
  have hparts : ∀ (l : List (Nat × Nat)) (u : State), (l.foldl (fun t q => match s.phys (maHedge a) q.1 with
      | some z => t.hbmWriteP z ((bs.drop (q.1 - (bits a 47 0 + off))).take q.2)
      | none => t) u).movers = u.movers := fun l => by
    induction l with
    | nil => exact fun _ => rfl
    | cons q l ih =>
      intro u
      rw [List.foldl_cons, ih]
      split
      · rfl
      · rfl
  unfold State.maWrite
  split
  · rfl
  · exact hparts _ _
  · rfl
  · exact hmem _ _
  · exact hmem _ _

/-- The write engine's accesses touch no mover. -/
theorem writeRun_movers (d : Desc) (f : Nat) (s : State) (off : Nat) (bs : List (Byte × Bool)) : (State.writeRun m d f s off bs).1.movers = s.movers := by
  induction f generalizing s off bs with
  | zero => rfl
  | succ f ih =>
    have ht := maTrans_movers s m d.dst off (min bs.length (s.writeRoom d.dst off)) true
    unfold State.writeRun
    dsimp only
    split
    · rfl
    · split
      · exact ht
      · exact ht
      · exact (ih _ _ _).trans ((maWrite_movers _ m _ _ _).trans ht)

end

/-! ### What a mover's going on leaves of its channels -/

/-- Mover `m` has gone on: its channels have their descriptors and HEADs still, and its pacing timers are the same. -/
structure Goes (m : MovId) (s t : State) : Prop where
  cur : ∀ n, (t.chan m n).cur = (s.chan m n).cur
  head : ∀ n, (t.chan m n).head = (s.chan m n).head
  pts : (t.mover m).pts = (s.mover m).pts

namespace Goes
variable {m : MovId} {s t u : State}

theorem refl (s : State) : Goes m s s := ⟨fun _ => rfl, fun _ => rfl, rfl⟩

theorem trans (h : Goes m s t) (k : Goes m t u) : Goes m s u :=
  ⟨fun n => (k.cur n).trans (h.cur n), fun n => (k.head n).trans (h.head n), k.pts.trans h.pts⟩

theorem of_movers (h : t.movers = s.movers) : Goes m s t :=
  ⟨fun n => congrArg Chan.cur (chan_congr h m n), fun n => congrArg Chan.head (chan_congr h m n), by unfold State.mover; rw [h]⟩

theorem emit (s : State) (o : Out) : Goes m s (s.emit o) := of_movers rfl

theorem setChan {n : ChId} {c : Chan} (hc : c.cur = (s.chan m n).cur) (hh : c.head = (s.chan m n).head) : Goes m s (s.setChan m n c) := by
  refine ⟨fun k => ?_, fun k => ?_, by rw [setChan_mover]⟩
  · by_cases hk : k = n
    · rw [hk, State.setChan_chan_same, hc]
    · rw [setChan_chan_ne _ _ _ _ hk]
  · by_cases hk : k = n
    · rw [hk, State.setChan_chan_same, hh]
    · rw [setChan_chan_ne _ _ _ _ hk]

theorem modMover {f : Mover → Mover} (hc : ∀ v, (f v).chans = v.chans) (hp : (f (s.mover m)).pts = (s.mover m).pts) : Goes m s (s.modMover m f) :=
  ⟨fun n => congrArg Chan.cur (modMover_chan s m hc n), fun n => congrArg Chan.head (modMover_chan s m hc n), by rw [modMover_mover, hp]⟩

end Goes

section
variable (s : State) (m : MovId) (ch : ChId)

theorem pagedOn_goes (n : ChId) (h : HedgeId) (va : Nat) (dst : Bool) : Goes m s (s.pagedOn m n h va dst) := by
  have h1 : Goes m s (s.modClu ⟨m.val % 32, Nat.mod_lt _ (by decide)⟩ fun k => { k with rfault := satInc k.rfault }) := .of_movers rfl
  exact h1.trans (.setChan rfl rfl)

theorem settle_goes (c : Chan) : c.settle.cur = c.cur ∧ c.settle.head = c.head := by
  unfold Chan.settle
  split
  · split
    · exact ⟨rfl, rfl⟩
    · split
      · exact ⟨rfl, rfl⟩
      · split
        · exact ⟨rfl, rfl⟩
        · exact ⟨rfl, rfl⟩
  · exact ⟨rfl, rfl⟩

theorem compared_goes (c : Chan) (d : Desc) (p q : List (Byte × Bool)) : (c.compared d p q).cur = c.cur ∧ (c.compared d p q).head = c.head := by
  unfold Chan.compared
  dsimp only
  split
  · split
    · exact ⟨rfl, rfl⟩
    · exact ⟨rfl, rfl⟩
  · exact ⟨rfl, rfl⟩
  · exact ⟨rfl, rfl⟩
  · exact ⟨rfl, rfl⟩

theorem pair_goes (c : Chan) (d : Desc) : (c.pair d).cur = c.cur ∧ (c.pair d).head = c.head := by
  unfold Chan.pair
  split
  · split
    · exact compared_goes _ d _ _
    · exact ⟨rfl, rfl⟩
  · split
    · exact ⟨rfl, rfl⟩
    · exact ⟨rfl, rfl⟩
  · exact ⟨rfl, rfl⟩

theorem pump_goes (n : ChId) (f : Nat) (s : State) : Goes m s (State.pump m n f s) := by
  induction f generalizing s with
  | zero => exact .refl s
  | succ f ih =>
    unfold State.pump
    dsimp only
    split
    · next d _ _ =>
      split
      · exact .refl s
      · split
        · obtain ⟨hc, hh⟩ := settle_goes ((s.chan m n).pair d)
          obtain ⟨hpc, hph⟩ := pair_goes (s.chan m n) d
          exact .setChan (hc.trans hpc) (hh.trans hph)
        · split
          · next b _ _ =>
            split
            · next bs _ =>
              have h1 : Goes m s ((State.writeRun m d bs.length s b.off bs).1.modChan m n fun c => c.wrote b bs (State.writeRun m d bs.length s b.off bs).2.1) :=
                (Goes.of_movers (writeRun_movers m d _ s _ _)).trans (.setChan rfl rfl)
              split
              · exact h1.trans (pagedOn_goes _ m n _ _ _)
              · exact h1.trans (.setChan rfl rfl)
              · exact h1.trans (ih _)
            · exact .refl s
          · exact .setChan (settle_goes _).1 (settle_goes _).2
    · exact .refl s

theorem writeAll_goes : Goes m s (s.writeAll m) := by
  unfold State.writeAll
  generalize (s.mover m).inUse = l
  induction l generalizing s with
  | nil => exact .refl s
  | cons n l ih => exact (pump_goes m n 65 s).trans (ih _)

theorem paceChan_head (v : Mover) (now : Nat) (c : Chan) : (v.paceChan now c).head = c.head := by
  unfold Mover.paceChan
  split
  · split
    · split
      · rfl
      · rfl
    · split
      · rfl
      · rfl
  · rfl

theorem pace_goes : Goes m s (s.pace m) where
  cur n := by rw [pace_chan]; exact (paceChan_still _ _ _).1
  head n := by rw [pace_chan]; exact paceChan_head _ _ _
  pts := (congrArg Mover.pts (pace_plain s m) : ((s.pace m).mover m).plain.pts = _)

/-- A channel that its mover's timers have let be ACTIVE with a burst to start may start it. -/
theorem paceChan_mayStart {v : Mover} {now : Nat} {c : Chan} {d : Desc} (hc : c.cur = some d) (ha : (v.paceChan now c).state = .active)
    (hw : (v.paceChan now c).wants = true) : v.mayStart d = true := by
  unfold Mover.paceChan at ha hw
  rw [hc] at ha hw
  dsimp only at ha hw
  by_cases hmay : v.mayStart d = true
  · exact hmay
  · rw [Bool.not_eq_true] at hmay
    rw [hmay] at ha hw
    by_cases hp : c.state = .paced
    · rw [if_pos hp, if_neg Bool.false_ne_true, hp] at ha
      cases ha
    · rw [if_neg hp] at ha hw
      by_cases hq : c.state = .active ∧ c.wants = true ∧ (!false) = true
      · rw [if_pos hq] at ha
        cases ha
      · rw [if_neg hq] at ha hw
        exact absurd ⟨ha, hw, rfl⟩ hq
end


/-! ### A pacing timer that no channel may draw on -/

/-- Pacing timer `tm` of a mover, where one is named, asserts no request, or no channel has a descriptor that is paced by it. -/
def State.Spares (s : State) (m : MovId) (tm : Option TimerId) : Prop :=
  ∀ x, tm = some x → ((s.mover m).pt x).req = false ∨ ∀ n d, (s.chan m n).cur = some d → d.pace = true → d.ptmr ≠ x

/-- A descriptor is not paced by the timer. -/
def Desc.Spares (d : Desc) (tm : Option TimerId) : Prop := ∀ x, tm = some x → d.pace = true → d.ptmr ≠ x

section
variable {s t u : State} {m : MovId} {tm : Option TimerId}

/-- A timer is left alone when a burst of a descriptor that it does not pace is counted. -/
theorem countBurst_pt {v : Mover} {d : Desc} {x : TimerId} (h : d.pace = true → d.ptmr ≠ x) : (v.countBurst d).pt x = v.pt x := by
  unfold Mover.countBurst
  split
  · next hp => exact tget_tset_ne _ _ _ _ fun he => h hp (Fin.ext he.symm)
  · rfl

/-- Mover `m` has gone on, sparing timer `tm`. -/
structure GoesBy (m : MovId) (tm : Option TimerId) (s t : State) : Prop where
  cur : ∀ n, (t.chan m n).cur = (s.chan m n).cur
  head : ∀ n, (t.chan m n).head = (s.chan m n).head
  pt : ∀ x, tm = some x → (t.mover m).pt x = (s.mover m).pt x

theorem Goes.by_ (h : Goes m s t) (tm : Option TimerId) : GoesBy m tm s t := ⟨h.cur, h.head, fun _ _ => by unfold Mover.pt; rw [h.pts]⟩

theorem GoesBy.trans (h : GoesBy m tm s t) (k : GoesBy m tm t u) : GoesBy m tm s u :=
  ⟨fun n => (k.cur n).trans (h.cur n), fun n => (k.head n).trans (h.head n), fun x hx => (k.pt x hx).trans (h.pt x hx)⟩

theorem State.Spares.goesBy (h : s.Spares m tm) (k : GoesBy m tm s t) : t.Spares m tm := by
  intro x hx
  rw [k.pt x hx]
  exact (h x hx).imp_right fun hd n d hc => hd n d ((k.cur n).symm.trans hc)

theorem countBurst_goesBy (s : State) {d : Desc} (h : d.Spares tm) : GoesBy m tm s (s.modMover m fun v => v.countBurst d) := by
  have hc : ∀ v : Mover, (v.countBurst d).chans = v.chans := fun v => by
    unfold Mover.countBurst
    split
    · rfl
    · rfl
  exact ⟨fun n => congrArg Chan.cur (modMover_chan s m hc n), fun n => congrArg Chan.head (modMover_chan s m hc n),
    fun x hx => (congrArg (Mover.pt · x) (modMover_mover s m _)).trans (countBurst_pt (h x hx))⟩

theorem hostReadOut_movers (s : State) (a : Word64) (off n : Nat) : (s.hostReadOut a off n).movers = s.movers := by
  unfold State.hostReadOut
  split
  · rfl
  · rfl

theorem startBurst_goesBy (s : State) (n : ChId) {d : Desc} (h : d.Spares tm) : GoesBy m tm s (s.startBurst m n d) := by
  unfold State.startBurst
  extract_lets c q out s0 t b
  have h0 : s0.movers = s.movers := by
    simp only [s0]
    split
    · rfl
    · exact maPrefetch_movers s m _ _
  have ht : t.1.movers = s.movers := by
    simp only [t]
    split
    · exact h0
    · exact (maTrans_movers s0 m _ _ _ _).trans h0
  have h1 : Goes m s t.1 := .of_movers ht
  clear_value t
  split
  · exact (h1.trans (pagedOn_goes _ m n _ _ _)).by_ tm
  · refine Goes.by_ (h1.trans (.setChan ?_ ?_)) tm
    · rfl
    · rfl
  · refine ((h1.by_ tm).trans (countBurst_goesBy t.1 h)).trans ?_
    refine Goes.by_ (Goes.trans (.setChan ?_ ?_) (.of_movers (hostReadOut_movers _ _ _ _))) tm
    · rfl
    · rfl

theorem issueBlock_goesBy (s : State) (n : ChId) {d : Desc} (h : d.Spares tm) : GoesBy m tm s (s.issueBlock m n d) := by
  refine (countBurst_goesBy s h).trans (Goes.by_ (Goes.trans (.setChan ?_ ?_) (Goes.emit _ _)) tm)
  · rfl
  · rfl

theorem leastBy_mem {α : Type} {f : α → Nat} {l : List α} {x : α} (h : leastBy f l = some x) : x ∈ l := by
  induction l generalizing x with
  | nil => cases h
  | cons a l ih =>
    rw [leastBy] at h
    split at h
    · next b hb =>
      split at h
      · exact List.mem_cons_of_mem _ (ih (Option.some.inj h ▸ hb))
      · exact Option.some.inj h ▸ List.mem_cons_self
    · exact Option.some.inj h ▸ List.mem_cons_self

/-- The channel that the read engine serves next may be served with its descriptor. -/
theorem nextServed_servable {n : ChId} {d : Desc} (h : s.nextServed m = some (n, d)) :
    s.servable m (s.chan m n) = true ∧ (s.chan m n).cur = some d := by
  unfold State.nextServed at h
  dsimp only at h
  split at h
  · cases h
  · split at h
    · next k hk =>
      split at h
      · next e he =>
        split at h
        · cases h
          exact ⟨(List.mem_filter.1 (leastBy_mem hk)).2, he⟩
        · cases h
      · cases h
    · cases h

theorem servable_wants {c : Chan} (h : s.servable m c = true) : c.wants = true ∧ c.state = .active := by
  unfold State.servable at h
  simp only [Bool.and_eq_true] at h
  obtain ⟨⟨⟨⟨⟨hw, ha⟩, -⟩, -⟩, -⟩, -⟩ := h
  exact ⟨hw, eq_of_beq ha⟩

/-- The channels stand as their mover's timers let them. -/
def State.Paced (s : State) (m : MovId) : Prop :=
  ∀ n d, (s.chan m n).cur = some d → (s.chan m n).state = .active → (s.chan m n).wants = true → (s.mover m).mayStart d = true

theorem pace_paced (s : State) (m : MovId) : (s.pace m).Paced m := by
  intro n d hc ha hw
  rw [pace_chan] at hc ha hw
  have hmay := paceChan_mayStart ((paceChan_still _ _ _).1.symm.trans hc) ha hw
  unfold Mover.mayStart Mover.pt at *
  rw [(pace_goes s m).pts]
  exact hmay

theorem serve_goesBy (f : Nat) (s : State) (hp : s.Paced m) (hs : s.Spares m tm) : GoesBy m tm s (State.serve m f s) := by
  induction f generalizing s with
  | zero => exact (Goes.refl s).by_ tm
  | succ f ih =>
    unfold State.serve
    split
    · next n d hn =>
      obtain ⟨hserv, hcur⟩ := nextServed_servable hn
      obtain ⟨hw, ha⟩ := servable_wants hserv
      have hother : d.Spares tm := by
        intro x hx hpace
        rcases hs x hx with hreq | hnone
        · rintro rfl
          have hmay := hp n d hcur ha hw
          unfold Mover.mayStart at hmay
          rw [hpace, hreq] at hmay
          exact absurd hmay (by decide)
        · exact hnone n d hcur hpace
      have hturn : GoesBy m tm s (s.modMover m fun v => { v with turns := tset 63 v.turns (s.chan m n).prio.toNat n.val }) := by
        refine Goes.by_ (Goes.modMover (fun _ => ?_) ?_) tm
        · rfl
        · rfl
      have hstart := fun u => (show GoesBy m tm u (if d.block then u.issueBlock m n d else u.startBurst m n d) by
        split
        · exact issueBlock_goesBy u n hother
        · exact startBurst_goesBy u n hother)
      have hstep := (hturn.trans (hstart _)).trans ((pace_goes _ m).by_ tm)
      exact hstep.trans (ih _ (pace_paced _ m) (hs.goesBy hstep))
    · exact (Goes.refl s).by_ tm

/-- A mover that goes on leaves every channel's descriptor and HEAD, and a spared timer. -/
theorem moverGo_goesBy (s : State) (hs : s.Spares m tm) : GoesBy m tm s (s.moverGo m) := by
  unfold State.moverGo
  split
  · exact (Goes.refl s).by_ tm
  · have h1 := (writeAll_goes s m).trans (pace_goes _ m)
    exact ((h1.by_ tm).trans (serve_goesBy 130 _ (pace_paced _ m) (hs.goesBy (h1.by_ tm)))).trans ((writeAll_goes _ m).by_ tm)
end

end Sys2Proof.Machine
end

section
/-! O41: the read engine serves one channel of a mover (12 R386, R393, R400, R403, R404). -/

namespace Sys2Proof.Machine

/-! ### A mover whose channels stand as they were -/

/-- `t` is `s` with the channels of its movers written again as they were. -/
structure Alike (m : MovId) (s t : State) : Prop where
  rest : t = s.withMovers t.movers
  chan : ∀ k n, t.chan k n = s.chan k n
  plain : (t.mover m).plain = (s.mover m).plain
  list : ∀ kc ∈ (t.mover m).chans, kc ∈ (s.mover m).chans ∨ ∃ n : ChId, kc.2 = s.chan m n

theorem mem_tset {α : Type} [DecidableEq α] {d : α} {t : Tab α} {i : Nat} {v : α} {kv : Nat × α} (h : kv ∈ tset d t i v) : kv = (i, v) ∨ kv ∈ t := by
  have hdel : ∀ l : Tab α, kv ∈ tdel l i → kv ∈ l := by
    intro l
    induction l with
    | nil => exact id
    | cons a l ih =>
      intro hk
      rw [tdel] at hk
      split at hk
      · exact List.mem_cons_of_mem _ (ih hk)
      · exact (List.mem_cons.1 hk).elim (fun he => he ▸ List.mem_cons_self) fun hm => List.mem_cons_of_mem _ (ih hm)
  unfold tset at h
  split at h
  · exact .inr (hdel t h)
  · exact mem_tput h

section
variable {s t u : State} {m : MovId} {ch : ChId} {d : Desc} {c : Chan}

theorem Alike.refl (s : State) : Alike m s s := ⟨rfl, fun _ _ => rfl, rfl, fun _ h => .inl h⟩

theorem Alike.trans (h : Alike m s t) (k : Alike m t u) : Alike m s u where
  rest := k.rest.trans (by rw [h.rest]; rfl)
  chan := fun i n => (k.chan i n).trans (h.chan i n)
  plain := k.plain.trans h.plain
  list := fun kc hk => (k.list kc hk).elim (h.list kc) fun ⟨n, hn⟩ => .inr ⟨n, hn.trans (h.chan m n)⟩

theorem setChan_alike (n : ChId) : Alike m s (s.setChan m n (s.chan m n)) where
  rest := rfl
  chan := fun k i => by
    by_cases hk : k = m
    · subst hk
      by_cases hi : i = n
      · rw [hi, State.setChan_chan_same]
      · exact setChan_chan_ne s k n _ hi
    · unfold State.chan State.setChan
      rw [State.setMover_mover_ne _ _ _ _ hk]
  plain := setChan_plain s m n _
  list := fun kc hk => by
    rw [setChan_mover] at hk
    exact (mem_tset hk).symm.imp_right fun he => ⟨n, congrArg Prod.snd he⟩

/-- The write engine has nothing to do for a channel. -/
def Chan.Waits (c : Chan) (d : Desc) : Prop :=
  d.block = true ∨ (d.op = 2 ∧ (c.pair d).settle = c) ∨ (d.op ≠ 2 ∧ ((c.live = [] ∧ c.settle = c) ∨ ∃ b l, c.live = b :: l ∧ b.data = none))

theorem pump_alike (f : Nat) (hc : (s.chan m ch).cur = some d) (hw : (s.chan m ch).Waits d) : Alike m s (State.pump m ch f s) := by
  cases f with
  | zero => exact .refl s
  | succ f =>
    unfold State.pump
    dsimp only
    rw [hc]
    split
    · next d' _ hd' _ =>
      cases hd'
      split
      · exact .refl s
      · next hno =>
        rw [Bool.or_eq_true, not_or] at hno
        rcases hw with hb | ⟨hop, hset⟩ | ⟨hop, hlive⟩
        · exact absurd hb hno.1
        · rw [if_pos hop, hset]
          exact setChan_alike ch
        · rw [if_neg hop]
          rcases hlive with ⟨hl, hset⟩ | ⟨b, l, hl, hdata⟩
          · rw [hl, hset]
            exact setChan_alike ch
          · rw [hl]
            dsimp only
            rw [hdata]
            exact .refl s
    · exact .refl s

/-- Of a mover's channels, `ch` alone has a descriptor. -/
structure Lone (s : State) (m : MovId) (ch : ChId) (c : Chan) : Prop where
  chan : s.chan m ch = c
  others : ∀ n, n ≠ ch → (s.chan m n).cur = none

theorem Lone.alike (h : Lone s m ch c) (k : Alike m s t) : Lone t m ch c :=
  ⟨(k.chan m ch).trans h.chan, fun n hn => (congrArg Chan.cur (k.chan m n)).trans (h.others n hn)⟩

theorem writeAll_alike (h : Lone s m ch c) (hc : c.cur = some d) (hw : c.Waits d) : Alike m s (s.writeAll m) := by
  unfold State.writeAll
  generalize (s.mover m).inUse = l
  induction l generalizing s with
  | nil => exact .refl s
  | cons n l ih =>
    have h1 : Alike m s (State.pump m n 65 s) := by
      by_cases hn : n = ch
      · subst hn
        exact pump_alike 65 ((congrArg Chan.cur h.chan).trans hc) (h.chan.symm ▸ hw)
      · rw [pump_idle s m 65 (.inl (h.others n hn))]
        exact .refl s
    exact h1.trans (ih (h.alike h1))

/-! ### A mover with nothing in flight -/

/-- A channel with nothing in flight. -/
def Chan.Empty (c : Chan) : Prop := c.flight = [] ∧ c.blockOut = false

/-- Nothing of a mover is in flight. -/
def State.Emptied (s : State) (m : MovId) : Prop := ∀ kc ∈ (s.mover m).chans, kc.2.Empty

theorem chanReset_empty (m : MovId) (n : ChId) : (chanReset m n).Empty := by
  unfold chanReset
  split
  · exact ⟨rfl, rfl⟩
  · exact ⟨rfl, rfl⟩

theorem State.Emptied.chan (h : s.Emptied m) (n : ChId) : (s.chan m n).Empty := by
  rcases tget_mem (chanReset m n) (s.mover m).chans n.val with hd | hin
  · exact (show s.chan m n = chanReset m n from hd) ▸ chanReset_empty m n
  · exact h _ hin

theorem State.Emptied.alike (h : s.Emptied m) (k : Alike m s t) : t.Emptied m := fun kc hk =>
  (k.list kc hk).elim (h kc) fun ⟨n, hn⟩ => hn ▸ h.chan n

theorem paceChan_empty (v : Mover) (now : Nat) (hc : c.Empty) : (v.paceChan now c).Empty := by
  obtain ⟨hf, hb⟩ := hc
  unfold Mover.paceChan
  split
  · split
    · split
      · exact ⟨by dsimp only; rw [hf]; rfl, hb⟩
      · exact ⟨hf, hb⟩
    · split
      · exact ⟨hf, hb⟩
      · exact ⟨hf, hb⟩
  · exact ⟨hf, hb⟩

theorem pace_emptied (h : s.Emptied m) : (s.pace m).Emptied m := fun kc hk => by
  unfold State.pace at hk
  rw [modMover_mover] at hk
  obtain ⟨x, hx, rfl⟩ := List.mem_map.1 hk
  exact paceChan_empty _ _ (h x hx)

theorem sum_zero {α : Type} {f : α → Nat} {l : List α} (h : ∀ a ∈ l, f a = 0) : (l.map f).sum = 0 := by
  induction l with
  | nil => rfl
  | cons a l ih => rw [List.map_cons, List.sum_cons, h a List.mem_cons_self, ih fun b hb => h b (List.mem_cons_of_mem _ hb)]

theorem Chan.Empty.infl (h : c.Empty) : c.infl = 0 := by
  unfold Chan.infl
  rw [h.1, h.2]
  rfl

theorem State.Emptied.infl (h : s.Emptied m) : (s.mover m).infl = 0 := sum_zero fun kc hk => (h kc hk).infl

theorem State.Emptied.reserved (h : s.Emptied m) : (s.mover m).reserved = 0 := sum_zero fun kc hk => by rw [(h kc hk).1]; rfl

/-! ### The channel that is served -/

theorem leastBy_isSome {α : Type} (f : α → Nat) {l : List α} (h : l ≠ []) : ∃ x, leastBy f l = some x := by
  cases l with
  | nil => exact absurd rfl h
  | cons a l =>
    rw [leastBy]
    split
    · split
      · exact ⟨_, rfl⟩
      · exact ⟨_, rfl⟩
    · exact ⟨_, rfl⟩

theorem not_servable (h : c.cur = none) : s.servable m c = false := by
  unfold State.servable
  rw [wants_still (.inl h)]
  rfl

theorem nextServed_one (he : (s.mover m).errhalt = false) (hl : Lone s m ch c) (hem : s.Emptied m) (hc : c.cur = some d) (hs : s.servable m c = true)
    (hroom : d.block = true ∨ (s.nextBurst c d).2.2.1 ≤ 4096) : s.nextServed m = some (ch, d) := by
  have hmem : ∀ n, n ∈ (s.mover m).inUse.filter (fun n => s.servable m (s.chan m n)) → n = ch := fun n hn => by
    by_contra hne
    have hno := (List.mem_filter.1 hn).2
    rw [not_servable (hl.others n hne)] at hno
    exact Bool.false_ne_true hno
  have hin : ch ∈ (s.mover m).inUse.filter fun n => s.servable m (s.chan m n) :=
    List.mem_filter.2 ⟨mem_inUse ((congrArg Chan.cur hl.chan).trans hc), by rw [hl.chan]; exact hs⟩
  obtain ⟨x, hx⟩ := leastBy_isSome (fun n : ChId => (s.mover m).rank n.val (s.chan m n)) (List.ne_nil_of_mem hin)
  obtain rfl := hmem x (leastBy_mem hx)
  unfold State.nextServed
  dsimp only
  rw [he, hem.infl, hem.reserved, hx]
  dsimp only
  rw [if_neg (by decide), hl.chan, hc]
  dsimp only
  rw [if_pos]
  rw [Bool.or_eq_true, decide_eq_true_eq]
  exact hroom.imp_right fun h => by omega

theorem nextServed_none (h : ∀ n, s.servable m (s.chan m n) = false) : s.nextServed m = none := by
  have hnil : ((s.mover m).inUse.filter fun n => s.servable m (s.chan m n)) = [] :=
    List.filter_eq_nil_iff.2 fun n _ => by rw [h n]; exact Bool.false_ne_true
  unfold State.nextServed
  dsimp only
  rw [hnil]
  split
  · rfl
  · rfl

theorem serve_stops (f : Nat) (h : ∀ n, s.servable m (s.chan m n) = false) : State.serve m f s = s := by
  cases f with
  | zero => rfl
  | succ f =>
    unfold State.serve
    rw [nextServed_none h]

theorem lone_not_servable (h : Lone s m ch c) (hs : c.wants = false ∨ c.state ≠ .active) (n : ChId) : s.servable m (s.chan m n) = false := by
  by_cases hn : n = ch
  · rw [hn, h.chan]
    rw [← Bool.not_eq_true]
    intro ht
    obtain ⟨hw, ha⟩ := servable_wants ht
    rcases hs with hs | hs
    · exact absurd hw (by rw [hs]; exact Bool.false_ne_true)
    · exact hs ha
  · exact not_servable (h.others n hn)

/-- The state in which the read engine has served channel `ch` with descriptor `d`. -/
def State.servedOnce (s : State) (m : MovId) (ch : ChId) (d : Desc) : State :=
  let s1 := s.modMover m fun v => { v with turns := tset 63 v.turns (s.chan m ch).prio.toNat ch.val }
  if d.block then s1.issueBlock m ch d else s1.startBurst m ch d

/-! ### A mover that goes on -/

/-- The channels of a mover as its timers leave them: nothing else of the state changes. -/
structure PacedAs (m : MovId) (ch : ChId) (s w : State) (c : Chan) : Prop where
  rest : w = s.withMovers w.movers
  lone : Lone w m ch c
  plain : (w.mover m).plain = (s.mover m).plain
  stages : ∀ k n, (w.chan k n).stages = (s.chan k n).stages

theorem paceChan_congr {v w : Mover} (h : w.plain = v.plain) (now : Nat) (c : Chan) : w.paceChan now c = v.paceChan now c :=
  (congrArg (fun x : Mover => x.paceChan now c) h : w.plain.paceChan now c = v.plain.paceChan now c)

theorem paceChan_stages (v : Mover) (now : Nat) (c : Chan) : (v.paceChan now c).stages = c.stages := by
  unfold Mover.paceChan
  split
  · split
    · split
      · rfl
      · rfl
    · split
      · rfl
      · rfl
  · rfl

/-- A channel that the timers let be. -/
theorem paceChan_same (v : Mover) (now : Nat) (hp : c.state ≠ .paced) (hw : c.wants = false ∨ c.state ≠ .active) : v.paceChan now c = c := by
  unfold Mover.paceChan
  split
  · rw [if_neg hp, if_neg]
    rintro ⟨ha, hwant, -⟩
    rcases hw with hw | hw
    · rw [hw] at hwant
      exact Bool.false_ne_true hwant
    · exact hw ha
  · rfl

theorem pace_as (h : Lone s m ch c) : PacedAs m ch s (s.pace m) ((s.mover m).paceChan s.aoTick.toNat c) where
  rest := rfl
  lone := ⟨by rw [pace_chan, h.chan], fun n hn => by rw [pace_chan, (paceChan_still _ _ _).1]; exact h.others n hn⟩
  plain := pace_plain s m
  stages := fun k n => by
    by_cases hk : k = m
    · subst hk
      rw [pace_chan]
      exact paceChan_stages _ _ _
    · unfold State.chan State.pace State.modMover
      rw [State.setMover_mover_ne _ _ _ _ hk]

theorem PacedAs.of_alike (k : Alike m s t) {w : State} (h : PacedAs m ch t w c) : PacedAs m ch s w c where
  rest := h.rest.trans (by rw [k.rest]; rfl)
  lone := h.lone
  plain := h.plain.trans k.plain
  stages := fun i n => (h.stages i n).trans (congrArg Chan.stages (k.chan i n))

theorem PacedAs.alike {w : State} (h : PacedAs m ch s w c) (k : Alike m w t) : PacedAs m ch s t c where
  rest := k.rest.trans (by rw [h.rest]; rfl)
  lone := h.lone.alike k
  plain := k.plain.trans h.plain
  stages := fun i n => (congrArg Chan.stages (k.chan i n)).trans (h.stages i n)

/-- The write engine has nothing to do, and the timers act. -/
theorem writePace_as (h : Lone s m ch c) (hc : c.cur = some d) (hw : c.Waits d) :
    PacedAs m ch s ((s.writeAll m).pace m) ((s.mover m).paceChan s.aoTick.toNat c) := by
  have k := writeAll_alike h hc hw
  have hp := PacedAs.of_alike k (pace_as (h.alike k))
  have htick : (s.writeAll m).aoTick = s.aoTick := by rw [k.rest]; rfl
  rw [paceChan_congr k.plain, htick] at hp
  exact hp

/-- A mover whose one channel may not be served. -/
theorem moverGo_unserved (he : (s.mover m).errhalt = false) (hl : Lone s m ch c) (hc : c.cur = some d) (hw : c.Waits d) {c2 : Chan}
    (h2 : (s.mover m).paceChan s.aoTick.toNat c = c2) (hs : c2.wants = false ∨ c2.state ≠ .active) (hw2 : c2.Waits d) :
    PacedAs m ch s (s.moverGo m) c2 := by
  have hp := writePace_as hl hc hw
  rw [h2] at hp
  have hc2 : c2.cur = some d := h2 ▸ (paceChan_still _ _ _).1.trans hc
  unfold State.moverGo
  rw [if_neg (by rw [he]; exact Bool.false_ne_true), serve_stops _ (lone_not_servable hp.lone hs)]
  exact hp.alike (writeAll_alike hp.lone hc2 hw2)

/-- A mover whose one channel is served once, and has no more to start then. -/
theorem moverGo_serves {w : State} (hwe : (s.writeAll m).pace m = w) (he : (s.mover m).errhalt = false) (hn : w.nextServed m = some (ch, d))
    {c3 : Chan} (hl : Lone (w.servedOnce m ch d) m ch c3) (hc : c3.cur = some d) (hp : c3.state ≠ .paced) (hs : c3.wants = false ∨ c3.state ≠ .active)
    (hw : c3.Waits d) : PacedAs m ch (w.servedOnce m ch d) (s.moverGo m) c3 := by
  have hpace := pace_as hl
  rw [paceChan_same _ _ hp hs] at hpace
  have hstep : State.serve m 130 w = State.serve m 129 ((w.servedOnce m ch d).pace m) := by
    rw [State.serve, hn]
    rfl
  unfold State.moverGo
  rw [if_neg (by rw [he]; exact Bool.false_ne_true), hwe, hstep, serve_stops _ (lone_not_servable hpace.lone hs)]
  exact hpace.alike (writeAll_alike hpace.lone hc hw)

/-! ### What a service does -/

theorem modChan_lone (h : Lone s m ch c) (f : Chan → Chan) : Lone (s.modChan m ch f) m ch (f c) :=
  ⟨by rw [modChan_chan_same, h.chan], fun n hn => by rw [modChan_chan_ne _ _ _ _ hn]; exact h.others n hn⟩

theorem modMover_lone (h : Lone s m ch c) {f : Mover → Mover} (hf : ∀ v, (f v).chans = v.chans) : Lone (s.modMover m f) m ch c :=
  ⟨(modMover_chan s m hf ch).trans h.chan, fun n hn => by rw [modMover_chan s m hf]; exact h.others n hn⟩

theorem movers_lone (h : Lone s m ch c) (hm : t.movers = s.movers) : Lone t m ch c :=
  ⟨(chan_congr hm m ch).trans h.chan, fun n hn => by rw [chan_congr hm]; exact h.others n hn⟩

theorem countBurst_chans (v : Mover) (d : Desc) : (v.countBurst d).chans = v.chans := by
  unfold Mover.countBurst
  split
  · rfl
  · rfl

theorem turned_lone (h : Lone s m ch c) (x : Nat) : Lone (s.modMover m fun v => { v with turns := tset 63 v.turns x ch.val }) m ch c :=
  modMover_lone h fun _ => rfl

/-- The next burst of a channel that moves its bytes in one (12 R387). -/
theorem oneBurst (hop : d.op ≠ 2) (hnext : c.next = 0) (hlen : d.len ≤ if d.op = 1 then s.writeRoom d.dst 0 else s.readRoom d.src 0) :
    s.nextBurst c d = (if d.op = 1 then 0 else d.src, 0, d.len, false) := by
  unfold State.nextBurst
  dsimp only
  rw [hnext, Nat.sub_zero]
  split
  · next h1 =>
    rw [if_pos h1] at hlen
    rw [Nat.min_eq_left hlen]
  · next h1 =>
    rw [if_neg h1] at hlen
    rw [Nat.min_eq_left hlen]

theorem rooms_le (s : State) (a : Word64) (off : Nat) : s.readRoom a off ≤ 4096 ∧ s.writeRoom a off ≤ 4096 := by
  have h4 : room4K a off ≤ 4096 := Nat.sub_le _ _
  have h2 : room256 a off ≤ 4096 := (Nat.sub_le _ _).trans (by decide)
  unfold State.readRoom State.writeRoom
  split
  · exact ⟨(Nat.min_le_left _ _).trans h4, (Nat.min_le_left _ _).trans h4⟩
  · exact ⟨h2, h2⟩

/-- A burst that names no record. -/
theorem startBurst_plain (hch : s.chan m ch = c) (hop : d.op ≠ 2) (hsrc : d.op = 1 ∨ maSpace d.src ≠ 3) (hnext : c.next = 0)
    (hlen : d.len ≤ if d.op = 1 then s.writeRoom d.dst 0 else s.readRoom d.src 0) :
    s.startBurst m ch d = ((s.modMover m fun v => v.countBurst d).modChan m ch fun c =>
      { c with flight := c.flight ++ [⟨if d.op = 1 then 0 else d.src, 0, d.len, false, s.aoTick.toNat, false, none⟩], next := c.next + d.len }).hostReadOut
        (if d.op = 1 then 0 else d.src) 0 d.len := by
  unfold State.startBurst
  dsimp only
  rw [hch, oneBurst hop hnext hlen]
  dsimp only
  rcases hsrc with h1 | h3
  · simp only [h1, decide_true, Bool.true_or, if_true, if_neg (show ¬((1 : Nat) = 2) by decide)]
  · have hpre : s.maPrefetch m d.src 0 = s := if_neg fun h => h3 h.1
    have htrans : s.maTrans m d.src 0 d.len false = (s, .ok) := if_neg h3
    by_cases h1 : d.op = 1
    · simp only [h1, decide_true, Bool.true_or, if_true, if_neg (show ¬((1 : Nat) = 2) by decide)]
    · simp only [h1, decide_false, Bool.false_or, Bool.false_eq_true, if_false, hpre, htrans, if_neg hop]

end

end Sys2Proof.Machine
end

section
/-! O41: a channel that has its descriptor still before it (12 R388, R400, R403). -/

namespace Sys2Proof.Machine

/-- Of channel `c`'s descriptor `d` nothing is moved, asked for or in flight. -/
structure Chan.Fresh (c : Chan) (d : Desc) : Prop where
  cur : c.cur = some d
  ended : c.ended = none
  stopAs : c.stopAs = none
  fault : c.fault = none
  flight : c.flight = []
  aborting : c.aborting = false
  issued : c.issued = false
  orphan : c.orphan = none
  done : d.block = true ∨ c.done ≠ d.len
  next : d.block = true ∨ c.next < d.len

/-- A descriptor that has neither ended nor is to stop stays as it is. -/
theorem settle_held {c : Chan} {d : Desc} (hc : c.cur = some d) (hs : c.stopAs = none) (hd : c.done ≠ d.len) : c.settle = c := by
  unfold Chan.settle
  split
  · next d' hd' _ =>
    obtain rfl : d = d' := Option.some.inj (hc.symm.trans hd')
    split
    · rfl
    · rw [hs]
  · rfl

namespace Chan.Fresh
variable {c : Chan} {d : Desc} (h : c.Fresh d)
include h

theorem live : c.live = [] := by
  unfold Chan.live
  rw [h.flight]
  rfl

theorem settle (hb : ¬d.block = true) : c.settle = c := settle_held h.cur h.stopAs (h.done.resolve_left hb)

theorem waits : c.Waits d := by
  by_cases hb : d.block = true
  · exact .inl hb
  by_cases hop : d.op = 2
  · refine .inr (.inl ⟨hop, ?_⟩)
    have hpair : c.pair d = c := by
      unfold Chan.pair
      rw [h.live]
    rw [hpair, h.settle hb]
  · exact .inr (.inr ⟨hop, .inl ⟨h.live, h.settle hb⟩⟩)

theorem wants (hs : c.state = .active ∨ c.state = .paced) : c.wants = true := by
  have hwork : (c.state == .active || c.state == .paced) = true := by
    rcases hs with hs | hs
    · rw [hs]; rfl
    · rw [hs]; rfl
  unfold Chan.wants
  rw [h.cur, h.ended, h.stopAs]
  dsimp only
  rw [hwork, h.aborting, h.issued, h.live]
  split
  · rfl
  · next hb =>
    rw [decide_eq_true (h.next.resolve_left hb)]
    split
    · rfl
    · rfl

theorem empty : c.Empty := ⟨h.flight, by unfold Chan.blockOut; rw [h.issued, h.orphan]; rfl⟩

theorem hold (st : ChState) (n : Nat) : { c with state := st, heldAt := n }.Fresh d :=
  ⟨h.cur, h.ended, h.stopAs, h.fault, h.flight, h.aborting, h.issued, h.orphan, h.done, h.next⟩

theorem since (st : ChState) (n : Nat) : { c with state := st, since := n }.Fresh d :=
  ⟨h.cur, h.ended, h.stopAs, h.fault, h.flight, h.aborting, h.issued, h.orphan, h.done, h.next⟩

/-- A timer without a request holds it back. -/
theorem paced {v : Mover} (now : Nat) (hs : c.state = .active) (hv : v.mayStart d = false) : v.paceChan now c = { c with state := .paced, heldAt := now } := by
  unfold Mover.paceChan
  rw [h.cur]
  dsimp only
  rw [hv, if_neg (by rw [hs]; decide), if_pos ⟨hs, h.wants (.inl hs), rfl⟩]

/-- It goes on when its timer asserts a request. -/
theorem unpaced {v : Mover} (now : Nat) (hs : c.state = .paced) (hv : v.mayStart d = true) :
    v.paceChan now c = { c with state := .active, since := c.since + (now - c.heldAt) } := by
  have hflight : c.flight.map (fun b => { b with since := b.since + (now - c.heldAt) }) = c.flight := by rw [h.flight]; rfl
  unfold Mover.paceChan
  rw [h.cur]
  dsimp only
  rw [hv, if_pos hs, if_pos rfl, hflight]

theorem unheld {v : Mover} (now : Nat) (hs : c.state = .active) (hv : v.mayStart d = true) : v.paceChan now c = c := by
  unfold Mover.paceChan
  rw [h.cur]
  dsimp only
  rw [hv, if_neg (by rw [hs]; decide), if_neg]
  rintro ⟨-, -, hno⟩
  exact absurd hno (by decide)

end Chan.Fresh

section
variable {s t w : State} {m : MovId} {ch : ChId} {d : Desc} {c c2 : Chan}

theorem aloneAt_emptied (h : s.aloneAt m ch) (hc : (s.chan m ch).Empty) : s.Emptied m := by
  intro kc hk
  rcases h kc hk with rfl | ⟨-, hcur, hfl, horph⟩
  · exact hc
  · refine ⟨hfl, ?_⟩
    unfold Chan.blockOut
    rw [hcur, horph]
    simp

theorem setChan_emptied (h : s.Emptied m) (hc : c.Empty) : (s.setChan m ch c).Emptied m := fun kc hk => by
  rw [setChan_mover] at hk
  rcases mem_tset hk with rfl | hk
  · exact hc
  · exact h kc hk

theorem modMover_emptied (h : s.Emptied m) {f : Mover → Mover} (hf : ∀ v, (f v).chans = v.chans) : (s.modMover m f).Emptied m := fun kc hk => by
  rw [modMover_mover, hf] at hk
  exact h kc hk

theorem setChan_lone (h : s.aloneAt m ch) (c : Chan) : Lone (s.setChan m ch c) m ch c :=
  ⟨State.setChan_chan_same .., fun n hn => by rw [setChan_chan_ne _ _ _ _ hn]; exact aloneAt_cur s m h hn⟩

theorem stageMoves_congr (he : t.engines = s.engines) (hc : ∀ k n, (t.chan k n).stages = (s.chan k n).stages) : t.stageMoves m = s.stageMoves m := by
  have heng : t.eng = s.eng := funext fun e => by unfold State.eng; rw [he]
  have hhead : t.stageHead = s.stageHead := funext fun e => by
    unfold State.stageHead
    rw [hc, heng]
  unfold State.stageMoves
  rw [hhead, heng]

/-- The read engine may serve the channel at once. -/
structure Serves (s : State) (m : MovId) (ch : ChId) (c : Chan) (d : Desc) : Prop where
  errhalt : (s.mover m).errhalt = false
  lone : Lone s m ch c
  emptied : s.Emptied m
  fresh : c.Fresh d
  maxb : 1 ≤ c.maxb.toNat
  stage : c.prio = 3 ∨ s.stageMoves m = false

/-- A channel whose descriptor's timer asserts no request is PACED. -/
theorem Serves.paced (h : Serves s m ch c d) (hs : c.state = .active) (hv : (s.mover m).mayStart d = false) :
    PacedAs m ch s (s.moverGo m) { c with state := .paced, heldAt := s.aoTick.toNat } :=
  moverGo_unserved h.errhalt h.lone h.fresh.cur h.fresh.waits (h.fresh.paced _ hs hv) (.inr (nomatch ·)) (h.fresh.hold _ _).waits

/-- The channel is served next, as its timers leave it. -/
theorem Serves.next (h : Serves s m ch c d) (h2 : (s.mover m).paceChan s.aoTick.toNat c = c2) (hf : c2.Fresh d) (ha : c2.state = .active)
    (hm : c2.maxb = c.maxb) (hp : c2.prio = c.prio) (hdrain : d.block = true → s.drainsFirst (maPort d.blockAddr) = false)
    (hroom : d.block = true ∨ (s.nextBurst c2 d).2.2.1 ≤ 4096) : ((s.writeAll m).pace m).nextServed m = some (ch, d) := by
  have k := writePace_as h.lone h.fresh.cur h.fresh.waits
  have hem := pace_emptied (h.emptied.alike (writeAll_alike h.lone h.fresh.cur h.fresh.waits))
  rw [h2] at k
  generalize (s.writeAll m).pace m = w at k hem ⊢
  have herr : (w.mover m).errhalt = false := (congrArg Mover.errhalt k.plain : (w.mover m).plain.errhalt = _).trans h.errhalt
  have hstage : w.stageMoves m = s.stageMoves m := stageMoves_congr (by rw [k.rest]; rfl) k.stages
  have hdr : w.drainsFirst (maPort d.blockAddr) = s.drainsFirst (maPort d.blockAddr) := by rw [k.rest]; rfl
  have hnb : w.nextBurst c2 d = s.nextBurst c2 d := by rw [k.rest]; rfl
  refine nextServed_one herr k.lone hem hf.cur ?_ (hnb.symm ▸ hroom)
  have hgo : (c2.prio == 3 || !w.stageMoves m) = true := by
    rw [hp, hstage]
    rcases h.stage with hprio | hno
    · rw [hprio]; rfl
    · rw [hno]; exact Bool.or_true _
  have hone : decide (0 < c2.maxb.toNat) = true := decide_eq_true (by rw [hm]; exact h.maxb)
  unfold State.servable
  rw [hf.wants (.inl ha), ha, hf.fault, hf.empty.infl, hone, hgo, hf.cur]
  dsimp only
  rw [hdr]
  by_cases hb : d.block = true
  · rw [hdrain hb]
    exact Bool.or_true _
  · rw [Bool.not_eq_true] at hb
    rw [hb]
    rfl

theorem countBurst_pts {v x : Mover} (h : v.pts = x.pts) : (v.countBurst d).pts = (x.countBurst d).pts := by
  unfold Mover.countBurst Mover.setPt Mover.pt
  rw [h]
  split
  · rfl
  · exact h

/-- One service of the read engine: `o` goes out, the channel is `c`, and nothing but it, the timers and the turns changes. -/
structure Starts (s t : State) (m : MovId) (ch : ChId) (c : Chan) (d : Desc) (o : List Out) : Prop where
  lone : Lone t m ch c
  out : t.out = s.out ++ o
  rest : t = { s with movers := t.movers, out := t.out }
  pts : (t.mover m).pts = ((s.mover m).countBurst d).pts

/-- The NVMe command of a block transfer. -/
def Desc.nvmeOut (d : Desc) : Out := .nvme (maPort d.blockAddr) d.nvmeOp (bits d.blockAddr 39 0) d.len d.fua

/-- The channel, its mover and what is sent once a burst has been counted and begun: `o` goes out. -/
theorem begun (h : Lone w m ch c2) (x : Nat) (f : Chan → Chan) (o : List Out) :
    let w1 := w.modMover m fun v => { v with turns := tset 63 v.turns x ch.val }
    let u := (w1.modMover m fun v => v.countBurst d).modChan m ch f
    Starts w { u with out := u.out ++ o } m ch (f c2) d o := by
  intro w1 u
  have hu : Lone u m ch (f c2) := modChan_lone (modMover_lone (turned_lone h x) fun v => countBurst_chans v d) f
  have hrest : u = w.withMovers u.movers := rfl
  have hplain : (u.mover m).pts = ((w1.modMover m fun v => v.countBurst d).mover m).pts :=
    (congrArg Mover.pts (setChan_plain _ m ch _) : (u.mover m).plain.pts = _)
  have hpts : (u.mover m).pts = ((w.mover m).countBurst d).pts := by
    refine hplain.trans ((congrArg Mover.pts (modMover_mover w1 m _)).trans (countBurst_pts ?_))
    show (State.mover (w.modMover m _) m).pts = _
    rw [modMover_mover]
  clear_value u
  exact ⟨movers_lone hu rfl, by rw [hrest]; rfl, by rw [hrest]; rfl, hpts⟩

theorem servedOnce_block (h : Lone w m ch c2) (hb : d.block = true) :
    Starts w (w.servedOnce m ch d) m ch { c2 with issued := true, since := w.aoTick.toNat } d [d.nvmeOut] := by
  unfold State.servedOnce
  dsimp only
  rw [if_pos hb]
  exact begun h _ (fun c => { c with issued := true, since := w.aoTick.toNat }) [d.nvmeOut]

/-- The HOST read of a burst, where it is one. -/
def Desc.readOut (d : Desc) : List Out :=
  if d.op ≠ 1 ∧ maSpace d.src = 4 then [.read (maFn d.src) (BitVec.ofNat 64 (bits d.src 51 0)) d.len] else []

theorem hostReadOut_eq (u : State) (d : Desc) :
    u.hostReadOut (if d.op = 1 then 0 else d.src) 0 d.len = { u with out := u.out ++ d.readOut } := by
  unfold State.hostReadOut Desc.readOut
  by_cases h1 : d.op = 1
  · rw [if_pos h1, if_neg (by decide), if_neg fun h => h.1 h1, List.append_nil]
  · rw [if_neg h1]
    by_cases h4 : maSpace d.src = 4
    · rw [if_pos h4, if_pos ⟨h1, h4⟩]
      rfl
    · rw [if_neg h4, if_neg fun h => h4 h.2, List.append_nil]

theorem servedOnce_burst (h : Lone w m ch c2) (hf : c2.Fresh d) (hnext : c2.next = 0) (hb : d.block = false) (hop : d.op ≠ 2)
    (hsrc : d.op = 1 ∨ maSpace d.src ≠ 3) (hlen : d.len ≤ if d.op = 1 then w.writeRoom d.dst 0 else w.readRoom d.src 0) :
    Starts w (w.servedOnce m ch d) m ch { c2 with
      next := d.len, flight := [⟨if d.op = 1 then 0 else d.src, 0, d.len, false, w.aoTick.toNat, false, none⟩] } d d.readOut := by
  have hturn := turned_lone h (w.chan m ch).prio.toNat
  have hst := begun (d := d) h (w.chan m ch).prio.toNat (fun c => { c with
    flight := c.flight ++ [⟨if d.op = 1 then 0 else d.src, 0, d.len, false, w.aoTick.toNat, false, none⟩], next := c.next + d.len }) d.readOut
  dsimp only at hst
  rw [hf.flight, hnext, Nat.zero_add, List.nil_append] at hst
  unfold State.servedOnce
  dsimp only
  rw [if_neg (by rw [hb]; exact Bool.false_ne_true), startBurst_plain hturn.chan hop hsrc hnext hlen]
  rw [hostReadOut_eq]
  exact hst

/-- A mover that has gone on: `o` has gone out, the channel is `c`, and nothing but it, the timers and the turns has changed. -/
theorem Serves.starts (h : Serves s m ch c d) (hn : w.nextServed m = some (ch, d)) (hw : PacedAs m ch s w c2) (hwe : (s.writeAll m).pace m = w)
    {c3 : Chan} {o : List Out} (k : Starts w (w.servedOnce m ch d) m ch c3 d o) (hc : c3.cur = some d) (ha : c3.state = .active)
    (hwant : c3.wants = false) (hwait : c3.Waits d) : Starts s (s.moverGo m) m ch c3 d o := by
  have g := moverGo_serves hwe h.errhalt hn k.lone hc (by rw [ha]; exact nofun) (.inl hwant) hwait
  generalize w.servedOnce m ch d = u at g k
  generalize s.moverGo m = t at g ⊢
  refine ⟨g.lone, ?_, ?_, ?_⟩
  · have hout : t.out = u.out := by rw [g.rest]; rfl
    have hwout : w.out = s.out := by rw [hw.rest]; rfl
    rw [hout, k.out, hwout]
  · rw [g.rest, k.rest, hw.rest]
    rfl
  · have hpts : (t.mover m).pts = (u.mover m).pts := (congrArg Mover.pts g.plain : (t.mover m).plain.pts = _)
    rw [hpts, k.pts]
    exact countBurst_pts (congrArg Mover.pts hw.plain : (w.mover m).plain.pts = _)

/-- A block transfer's command is issued (12 R393). -/
theorem Serves.block (h : Serves s m ch c d) (h2 : (s.mover m).paceChan s.aoTick.toNat c = c2) (hf : c2.Fresh d) (ha : c2.state = .active)
    (hm : c2.maxb = c.maxb) (hp : c2.prio = c.prio) (hb : d.block = true) (hdrain : s.drainsFirst (maPort d.blockAddr) = false) :
    Starts s (s.moverGo m) m ch { c2 with issued := true, since := s.aoTick.toNat } d [d.nvmeOut] := by
  have k := writePace_as h.lone h.fresh.cur h.fresh.waits
  rw [h2] at k
  have hn := h.next h2 hf ha hm hp (fun _ => hdrain) (.inl hb)
  have hs := servedOnce_block k.lone hb
  have htick : ((s.writeAll m).pace m).aoTick = s.aoTick := by rw [k.rest]; rfl
  rw [htick] at hs
  refine h.starts hn k rfl hs hf.cur ha ?_ (.inl hb)
  unfold Chan.wants
  dsimp only
  rw [hf.cur, hf.ended, hf.stopAs]
  dsimp only
  rw [if_pos hb]
  exact Bool.and_false _

/-- The one burst of a descriptor that fits into one starts (12 R387, R403). -/
theorem Serves.burst (h : Serves s m ch c d) (ha : c.state = .active) (hmay : (s.mover m).mayStart d = true) (hnext : c.next = 0) (hb : d.block = false)
    (hop : d.op ≠ 2) (hsrc : d.op = 1 ∨ maSpace d.src ≠ 3) (hlen : d.len ≤ if d.op = 1 then s.writeRoom d.dst 0 else s.readRoom d.src 0) :
    Starts s (s.moverGo m) m ch { c with
      next := d.len, flight := [⟨if d.op = 1 then 0 else d.src, 0, d.len, false, s.aoTick.toNat, false, none⟩] } d d.readOut := by
  have hf := h.fresh
  have h2 := hf.unheld (v := s.mover m) s.aoTick.toNat ha hmay
  have k := writePace_as h.lone hf.cur hf.waits
  rw [h2] at k
  have hroom : (s.nextBurst c d).2.2.1 ≤ 4096 := by
    rw [oneBurst hop hnext hlen]
    split at hlen
    · exact hlen.trans (rooms_le s _ _).2
    · exact hlen.trans (rooms_le s _ _).1
  have hn := h.next h2 hf ha rfl rfl (fun hb' => absurd hb' (by rw [hb]; exact Bool.false_ne_true)) (.inr hroom)
  have hlen' : d.len ≤ if d.op = 1 then ((s.writeAll m).pace m).writeRoom d.dst 0 else ((s.writeAll m).pace m).readRoom d.src 0 := by
    rw [k.rest]
    exact hlen
  have hs := servedOnce_burst k.lone hf hnext hb hop hsrc hlen'
  have htick : ((s.writeAll m).pace m).aoTick = s.aoTick := by rw [k.rest]; rfl
  rw [htick] at hs
  refine h.starts hn k rfl hs hf.cur ha ?_ (.inr (.inr ⟨hop, .inr ⟨_, [], rfl, rfl⟩⟩))
  unfold Chan.wants
  dsimp only
  rw [hf.cur, hf.ended, hf.stopAs]
  dsimp only
  rw [if_neg (by rw [hb]; exact Bool.false_ne_true), if_neg hop, decide_eq_false (Nat.lt_irrefl _)]
  exact Bool.and_false _

/-- A channel whose record page is not resident is PAGED (12 R386). -/
theorem Serves.faults {v : Nat} (h : Serves s m ch c d) (ha : c.state = .active) (hmay : (s.mover m).mayStart d = true) (hnext : c.next = 0)
    (hb : d.block = false) (hop : d.op = 0)
    (hv : ((s.maPrefetch m d.src 0).maTrans m d.src 0 (min d.len (s.readRoom d.src 0)) false).2 = .fault v) :
    (s.moverGo m).chan m ch = { c with state := .paged, fault := some (maHedge d.src, v, false) } := by
  have hf := h.fresh
  have h2 := hf.unheld (v := s.mover m) s.aoTick.toNat ha hmay
  have k := writePace_as h.lone hf.cur hf.waits
  rw [h2] at k
  have hburst : ∀ u : State, u.nextBurst c d = (d.src, 0, min d.len (u.readRoom d.src 0), false) := fun u => by
    unfold State.nextBurst
    dsimp only
    rw [if_neg (by rw [hop]; decide), if_neg (by rw [hop]; decide), hnext]
    rfl
  have hn := h.next h2 hf ha rfl rfl (fun hb' => absurd hb' (by rw [hb]; exact Bool.false_ne_true))
    (.inr (by rw [hburst]; exact (Nat.min_le_right _ _).trans (rooms_le s _ _).1))
  generalize hwe : (s.writeAll m).pace m = w at k hn
  have hturn := turned_lone k.lone (w.chan m ch).prio.toNat
  have hserve : Lone (w.servedOnce m ch d) m ch { c with state := .paged, fault := some (maHedge d.src, v, false) } := by
    have hw1 : (w.modMover m fun v => { v with turns := tset 63 v.turns (w.chan m ch).prio.toNat ch.val }) =
        s.withMovers (w.modMover m fun v => { v with turns := tset 63 v.turns (w.chan m ch).prio.toNat ch.val }).movers := by
      rw [k.rest]
      rfl
    unfold State.servedOnce
    rw [if_neg (by rw [hb]; exact Bool.false_ne_true)]
    generalize (w.modMover m fun v => { v with turns := tset 63 v.turns (w.chan m ch).prio.toNat ch.val }) = w1 at hturn hw1 ⊢
    have hroom : w1.readRoom d.src 0 = s.readRoom d.src 0 := by rw [hw1]; rfl
    have htrans : (w1.maPrefetch m d.src 0).maTrans m d.src 0 (min d.len (w1.readRoom d.src 0)) false =
        (((s.maPrefetch m d.src 0).maTrans m d.src 0 (min d.len (s.readRoom d.src 0)) false).1.withMovers w1.movers, .fault v) := by
      rw [hroom, hw1, maPrefetch_withMovers, maTrans_withMovers, ← hv]
      rfl
    have hpaged := modChan_lone (movers_lone hturn (t := (((s.maPrefetch m d.src 0).maTrans m d.src 0 (min d.len (s.readRoom d.src 0)) false).1.withMovers
      w1.movers).modClu ⟨m.val % 32, Nat.mod_lt _ (by decide)⟩ fun k => { k with rfault := satInc k.rfault }) rfl)
      fun c => { c with state := .paged, fault := some (maHedge d.src, v, false) }
    unfold State.startBurst
    dsimp only
    rw [hturn.chan, hburst]
    dsimp only
    rw [if_neg (by rw [hop]; decide), if_neg (by rw [hop]; decide), htrans]
    exact hpaged
  exact (moverGo_serves hwe h.errhalt hn hserve hf.cur nofun (.inr nofun)
    (.inr (.inr ⟨by rw [hop]; decide, .inl ⟨hf.live, settle_held hf.cur hf.stopAs (hf.done.resolve_left (by rw [hb]; exact Bool.false_ne_true))⟩⟩))).lone.chan

end

end Sys2Proof.Machine
end

section
/-! O41: DESCRIPTOR_TAKE and the pacing timers (12 R388, R389, R398, R400). -/

namespace Sys2Proof.Machine

/-! ### The work on one channel leaves the others -/

section
variable {s : State} {m : MovId} {n k : ChId} (hk : k ≠ n)
include hk

theorem pagedOn_apart (s : State) (h : HedgeId) (va : Nat) (dst : Bool) : (s.pagedOn m n h va dst).chan m k = s.chan m k := modChan_chan_ne _ m n _ hk

theorem pump_apart (f : Nat) (s : State) : (State.pump m n f s).chan m k = s.chan m k := by
  induction f generalizing s with
  | zero => rfl
  | succ f ih =>
    unfold State.pump
    dsimp only
    split
    · next d _ _ =>
      split
      · rfl
      · split
        · exact setChan_chan_ne s m n _ hk
        · split
          · next b _ _ =>
            split
            · next bs _ =>
              have h1 : ((State.writeRun m d bs.length s b.off bs).1.modChan m n fun c => c.wrote b bs (State.writeRun m d bs.length s b.off bs).2.1).chan m k =
                  s.chan m k := (modChan_chan_ne _ m n _ hk).trans (chan_congr (writeRun_movers m d _ s _ _) m k)
              split
              · exact (pagedOn_apart hk _ _ _ _).trans h1
              · exact (modChan_chan_ne _ m n _ hk).trans h1
              · exact (ih _).trans h1
            · rfl
          · exact setChan_chan_ne s m n _ hk
    · rfl

theorem issueBlock_apart (s : State) (d : Desc) : (s.issueBlock m n d).chan m k = s.chan m k := by
  have hmod : ((s.modMover m fun v => v.countBurst d).modChan m n fun c => { c with issued := true, since := s.aoTick.toNat }).chan m k = s.chan m k :=
    (modChan_chan_ne _ m n _ hk).trans (modMover_chan s m (fun v => countBurst_chans v d) k)
  exact hmod

theorem startBurst_apart (s : State) (d : Desc) : (s.startBurst m n d).chan m k = s.chan m k := by
  unfold State.startBurst
  extract_lets c q out s0 t b
  have h0 : s0.movers = s.movers := by
    simp only [s0]
    split
    · rfl
    · exact maPrefetch_movers s m _ _
  have ht : t.1.chan m k = s.chan m k := by
    refine chan_congr ?_ m k
    simp only [t]
    split
    · exact h0
    · exact (maTrans_movers s0 m _ _ _ _).trans h0
  clear_value t
  split
  · exact (pagedOn_apart hk _ _ _ _).trans ht
  · exact (modChan_chan_ne _ m n _ hk).trans ht
  · refine Eq.trans ?_ ht
    refine (chan_congr (hostReadOut_movers _ _ _ _) m k).trans ?_
    exact (modChan_chan_ne _ m n _ hk).trans (modMover_chan t.1 m (fun v => countBurst_chans v d) k)
end

section
variable {s : State} {m : MovId} {ch : ChId}

/-- A channel whose descriptor has ended stays as it is while its mover goes on. -/
theorem ended_step (he : (s.chan m ch).ended.isSome = true) (n : ChId) (f : Nat) : (State.pump m n f s).chan m ch = s.chan m ch := by
  by_cases hn : ch = n
  · rw [← hn, pump_idle s m f (.inr he)]
  · exact pump_apart hn f s

theorem ended_writeAll (he : (s.chan m ch).ended.isSome = true) : (s.writeAll m).chan m ch = s.chan m ch := by
  unfold State.writeAll
  generalize (s.mover m).inUse = l
  induction l generalizing s with
  | nil => rfl
  | cons n l ih =>
    have h1 := ended_step he n 65
    exact (ih (h1.symm ▸ he)).trans h1

theorem ended_pace (he : (s.chan m ch).ended.isSome = true) (hp : (s.chan m ch).state ≠ .paced) : (s.pace m).chan m ch = s.chan m ch := by
  rw [pace_chan]
  exact paceChan_same _ _ hp (.inl (wants_still (.inr he)))

theorem ended_serve (f : Nat) (he : (s.chan m ch).ended.isSome = true) (hp : (s.chan m ch).state ≠ .paced) :
    (State.serve m f s).chan m ch = s.chan m ch := by
  induction f generalizing s with
  | zero => rfl
  | succ f ih =>
    unfold State.serve
    split
    · next n d hn =>
      have hne : ch ≠ n := by
        rintro rfl
        have hw := (servable_wants (nextServed_servable hn).1).1
        rw [wants_still (.inr he)] at hw
        exact Bool.false_ne_true hw
      dsimp only
      have hturn : (s.modMover m fun v => { v with turns := tset 63 v.turns (s.chan m n).prio.toNat n.val }).chan m ch = s.chan m ch :=
        modMover_chan s m (f := fun v => { v with turns := tset 63 v.turns (s.chan m n).prio.toNat n.val }) (fun _ => rfl) ch
      generalize (s.modMover m fun v => { v with turns := tset 63 v.turns (s.chan m n).prio.toNat n.val }) = w at hturn ⊢
      have hstart : (if d.block then w.issueBlock m n d else w.startBurst m n d).chan m ch = s.chan m ch := by
        split
        · exact (issueBlock_apart hne w d).trans hturn
        · exact (startBurst_apart hne w d).trans hturn
      generalize (if d.block then w.issueBlock m n d else w.startBurst m n d) = u at hstart ⊢
      have hpace : (u.pace m).chan m ch = s.chan m ch := (ended_pace (hstart.symm ▸ he) (hstart.symm ▸ hp)).trans hstart
      exact (ih (hpace.symm ▸ he) (hpace.symm ▸ hp)).trans hpace
    · rfl

theorem ended_moverGo (he : (s.chan m ch).ended.isSome = true) (hp : (s.chan m ch).state ≠ .paced) : (s.moverGo m).chan m ch = s.chan m ch := by
  unfold State.moverGo
  split
  · rfl
  · have h1 := ended_writeAll he
    have h2 := (ended_pace (h1.symm ▸ he) (h1.symm ▸ hp)).trans h1
    have h3 := (ended_serve 130 (h2.symm ▸ he) (h2.symm ▸ hp)).trans h2
    exact (ended_writeAll (h3.symm ▸ he)).trans h3
end

/-! ### DESCRIPTOR_TAKE -/

section
variable {s : State} {m : MovId} {ch : ChId}

theorem setChan_stageMoves {c : Chan} (hc : c.stages = (s.chan m ch).stages) : (s.setChan m ch c).stageMoves m = s.stageMoves m := by
  refine stageMoves_congr rfl fun k n => ?_
  by_cases hk : k = m
  · subst hk
    by_cases hn : n = ch
    · rw [hn, State.setChan_chan_same, hc]
    · rw [setChan_chan_ne _ _ _ _ hn]
  · unfold State.chan State.setChan
    rw [State.setMover_mover_ne _ _ _ _ hk]

/-- A channel that is ready to read the descriptor at HEAD. -/
structure ReadsHead (s : State) (m : MovId) (ch : ChId) : Prop where
  firmware : hwChan m ch = false
  active : (s.chan m ch).state = .active
  cur : (s.chan m ch).cur = none
  errhalt : (s.mover m).errhalt = false

theorem descOk_len {c : Chan} {d : Desc} (h : s.descOk m c d = true) : d.len ≠ 0 := by
  unfold State.descOk at h
  simp only [Bool.and_eq_true, bne_iff_ne] at h
  obtain ⟨⟨⟨⟨⟨⟨⟨⟨⟨⟨⟨-, hlen⟩, -⟩, -⟩, -⟩, -⟩, -⟩, -⟩, -⟩, -⟩, -⟩, -⟩ := h
  exact hlen

variable (h : ReadsHead s m ch)
include h

theorem ReadsHead.answers : exec (.descriptorTake m ch) s = .next (if !(bit (s.readDesc (s.chan m ch)).ctrl 0) then
      s.setChan m ch (if (s.chan m ch).kpend then { s.chan m ch with kpend := false } else { s.chan m ch with state := .idle })
    else (s.setChan m ch ((s.chan m ch).begin_ (s.readDesc (s.chan m ch)) (!s.descOk m (s.chan m ch) (s.readDesc (s.chan m ch))))).moverGo m) := by
  obtain ⟨hw, ha, hc, he⟩ := h
  refine congrArg Host.Outcome.next (if_neg ?_)
  rw [hw, ha, hc, he]
  decide

theorem ReadsHead.unowned (hown : bit (s.readDesc (s.chan m ch)).ctrl 0 = false) : exec (.descriptorTake m ch) s =
    .next (s.setChan m ch (if (s.chan m ch).kpend then { s.chan m ch with kpend := false } else { s.chan m ch with state := .idle })) := by
  rw [h.answers, hown]
  rfl

variable (hown : bit (s.readDesc (s.chan m ch)).ctrl 0 = true)
include hown

theorem ReadsHead.fails (hbad : s.descOk m (s.chan m ch) (s.readDesc (s.chan m ch)) = false) : Answers (.descriptorTake m ch) s fun t =>
    t.chan m ch = { (s.chan m ch).starts (s.readDesc (s.chan m ch)) with ended := some (0x07, 0) } ∧ (s.aloneAt m ch → t = { s with movers := t.movers }) := by
  have hex := h.answers
  rw [hown, hbad] at hex
  generalize hc' : (s.chan m ch).begin_ (s.readDesc (s.chan m ch)) (!false) = c' at hex
  have hend : c'.ended.isSome = true := by rw [← hc']; rfl
  have hact : c'.state ≠ .paced := by
    rw [← hc']
    exact (show (s.chan m ch).state ≠ .paced by rw [h.active]; exact nofun)
  have hch : (s.setChan m ch c').chan m ch = c' := State.setChan_chan_same ..
  refine ⟨_, hex, ?_, fun hal => ?_⟩
  · refine (ended_moverGo (hch.symm ▸ hend) (hch.symm ▸ hact)).trans (hch.trans hc'.symm)
  · have hstill : (s.setChan m ch c').Still m := fun n => by
      by_cases hn : n = ch
      · rw [hn, hch]
        exact .inr hend
      · exact .inl ((setChan_lone hal c').others n hn)
    have herr : ((s.setChan m ch c').mover m).errhalt = false :=
      (congrArg Mover.errhalt (setChan_plain s m ch c') : ((s.setChan m ch c').mover m).plain.errhalt = _).trans h.errhalt
    rw [if_neg (by decide), moverGo_still _ m herr hstill]
    rfl

variable (hok : s.descOk m (s.chan m ch) (s.readDesc (s.chan m ch)) = true)
include hok

theorem ReadsHead.goes : exec (.descriptorTake m ch) s =
    .next ((s.setChan m ch ((s.chan m ch).starts (s.readDesc (s.chan m ch)))).moverGo m) := by
  have hex := h.answers
  rw [hown, hok] at hex
  exact hex

theorem ReadsHead.keeps : Answers (.descriptorTake m ch) s fun t =>
    (t.chan m ch).cur = some (s.readDesc (s.chan m ch)) ∧ (t.chan m ch).head = (s.chan m ch).head := by
  have hgo := moverGo_goesBy (m := m) (tm := none) (s.setChan m ch ((s.chan m ch).starts (s.readDesc (s.chan m ch)))) fun _ => nofun
  refine ⟨_, h.goes hown hok, ?_, ?_⟩
  · rw [hgo.cur, State.setChan_chan_same]
  · rw [hgo.head, State.setChan_chan_same]

end

/-- The channel with the descriptor that it has read may be served at once (12 R403, R404). -/
theorem ReadsHead.serves {s : State} {m : MovId} {ch : ChId} (h : ReadsHead s m ch) (hs : s.servedNow m ch)
    (hok : s.descOk m (s.chan m ch) (s.readDesc (s.chan m ch)) = true) : Serves (s.setChan m ch ((s.chan m ch).starts (s.readDesc (s.chan m ch)))) m ch
    ((s.chan m ch).starts (s.readDesc (s.chan m ch))) (s.readDesc (s.chan m ch)) := by
  obtain ⟨hal, he, hfl, horph, hab, hmax, hstage⟩ := hs
  have hlen := descOk_len hok
  have hfresh : ((s.chan m ch).starts (s.readDesc (s.chan m ch))).Fresh (s.readDesc (s.chan m ch)) :=
    ⟨rfl, rfl, rfl, rfl, hfl, hab, rfl, horph, .inr fun h0 => hlen h0.symm, .inr (Nat.pos_of_ne_zero hlen)⟩
  have hempty : (s.chan m ch).Empty := ⟨hfl, by unfold Chan.blockOut; rw [h.cur, horph]; simp⟩
  refine ⟨?_, setChan_lone hal _, setChan_emptied (aloneAt_emptied hal hempty) hfresh.empty, hfresh, hmax, ?_⟩
  · exact (congrArg Mover.errhalt (setChan_plain s m ch _) : ((State.setChan s m ch _).mover m).plain.errhalt = _).trans he
  · rcases hstage with hp | hno
    · exact .inl hp
    · exact .inr ((setChan_stageMoves (c := (s.chan m ch).starts (s.readDesc (s.chan m ch))) rfl).trans hno)

section
variable {s : State} {m : MovId} {ch : ChId} {c : Chan} {d : Desc}

theorem mayStart_setChan (s : State) (m : MovId) (ch : ChId) (c : Chan) (d : Desc) :
    ((s.setChan m ch c).mover m).mayStart d = (s.mover m).mayStart d :=
  (congrArg (Mover.mayStart · d) (setChan_plain s m ch c) : ((s.setChan m ch c).mover m).plain.mayStart d = _)

theorem mayStart_of (c : Chan) (hmay : d.pace = false ∨ ((s.mover m).pt d.ptmr).req = true) : ((s.setChan m ch c).mover m).mayStart d = true := by
  rw [mayStart_setChan]
  unfold Mover.mayStart
  rcases hmay with hp | hr
  · rw [hp]; rfl
  · rw [hr]; exact Bool.or_true _

variable (h : ReadsHead s m ch) (hown : bit (s.readDesc (s.chan m ch)).ctrl 0 = true)
  (hok : s.descOk m (s.chan m ch) (s.readDesc (s.chan m ch)) = true) (hs : s.servedNow m ch)
include h hown hok hs

theorem ReadsHead.paced (hp : (s.readDesc (s.chan m ch)).pace = true) (hr : ((s.mover m).pt (s.readDesc (s.chan m ch)).ptmr).req = false) :
    Answers (.descriptorTake m ch) s fun t =>
      t.chan m ch = { (s.chan m ch).starts (s.readDesc (s.chan m ch)) with state := .paced, heldAt := s.aoTick.toNat } ∧ t = { s with movers := t.movers } := by
  have hmay : (s.mover m).mayStart (s.readDesc (s.chan m ch)) = false := by
    unfold Mover.mayStart
    rw [hp, hr]
    rfl
  have k := (h.serves hs hok).paced h.active ((mayStart_setChan ..).trans hmay)
  refine ⟨_, h.goes hown hok, k.lone.chan, ?_⟩
  rw [k.rest]
  rfl

variable (hmay : (s.readDesc (s.chan m ch)).pace = false ∨ ((s.mover m).pt (s.readDesc (s.chan m ch)).ptmr).req = true)
include hmay

theorem ReadsHead.burst (hb : (s.readDesc (s.chan m ch)).block = false) (hop : (s.readDesc (s.chan m ch)).op ≠ 2)
    (hlen : (s.readDesc (s.chan m ch)).len ≤ if (s.readDesc (s.chan m ch)).op = 1 then s.writeRoom (s.readDesc (s.chan m ch)).dst 0
      else s.readRoom (s.readDesc (s.chan m ch)).src 0)
    (hsrc : (s.readDesc (s.chan m ch)).op = 1 ∨ maSpace (s.readDesc (s.chan m ch)).src ≠ 3) : Answers (.descriptorTake m ch) s fun t =>
      t.chan m ch = { (s.chan m ch).starts (s.readDesc (s.chan m ch)) with
        next := (s.readDesc (s.chan m ch)).len
        flight := [⟨if (s.readDesc (s.chan m ch)).op = 1 then 0 else (s.readDesc (s.chan m ch)).src, 0, (s.readDesc (s.chan m ch)).len, false,
          s.aoTick.toNat, false, none⟩] } ∧
      t.out = s.out ++ (s.readDesc (s.chan m ch)).readOut ∧ t = { s with movers := t.movers, out := t.out } := by
  have k := (h.serves hs hok).burst h.active (mayStart_of _ hmay) rfl hb hop hsrc hlen
  refine ⟨_, h.goes hown hok, k.lone.chan, k.out, ?_⟩
  rw [k.rest]
  rfl

theorem ReadsHead.faults {v : Nat} (hb : (s.readDesc (s.chan m ch)).block = false) (hop : (s.readDesc (s.chan m ch)).op = 0)
    (hv : ((s.maPrefetch m (s.readDesc (s.chan m ch)).src 0).maTrans m (s.readDesc (s.chan m ch)).src 0
      (min (s.readDesc (s.chan m ch)).len (s.readRoom (s.readDesc (s.chan m ch)).src 0)) false).2 = .fault v) :
    Answers (.descriptorTake m ch) s fun t =>
      t.chan m ch = { (s.chan m ch).starts (s.readDesc (s.chan m ch)) with state := .paged, fault := some (maHedge (s.readDesc (s.chan m ch)).src, v, false) } := by
  refine ⟨_, h.goes hown hok, (h.serves hs hok).faults h.active (mayStart_of _ hmay) rfl hb hop ?_⟩
  have hu : s.setChan m ch ((s.chan m ch).starts (s.readDesc (s.chan m ch))) =
      s.withMovers (s.setChan m ch ((s.chan m ch).starts (s.readDesc (s.chan m ch)))).movers := rfl
  rw [hu, maPrefetch_withMovers, maTrans_withMovers]
  exact hv

theorem ReadsHead.block (hb : (s.readDesc (s.chan m ch)).block = true) (hdr : s.drainsFirst (maPort (s.readDesc (s.chan m ch)).blockAddr) = false) :
    Answers (.descriptorTake m ch) s fun t =>
      t.chan m ch = { (s.chan m ch).starts (s.readDesc (s.chan m ch)) with issued := true, since := s.aoTick.toNat } ∧
      t.out = s.out ++ [(s.readDesc (s.chan m ch)).nvmeOut] ∧ t = { s with movers := t.movers, out := t.out } := by
  have hser := h.serves hs hok
  have k := hser.block (hser.fresh.unheld _ h.active (mayStart_of _ hmay)) hser.fresh h.active rfl rfl hb hdr
  refine ⟨_, h.goes hown hok, k.lone.chan, k.out, ?_⟩
  rw [k.rest]
  rfl

end

/-! ### WDRAW and the pacing period -/

section
variable {s : State} {m : MovId} {ch : ChId} {tm : TimerId} {x : Desc}

/-- The state in which a pacing timer of a mover has been written. -/
def State.timed (s : State) (m : MovId) (tm : TimerId) (p : Pacer) : State := s.modMover m fun v => v.setPt tm p

theorem timed_pt (s : State) (m : MovId) (tm : TimerId) (p : Pacer) : ((s.timed m tm p).mover m).pt tm = p := by
  unfold State.timed
  rw [modMover_mover]
  exact tget_tset_same _ _ _ _

theorem timed_chan (s : State) (m : MovId) (tm : TimerId) (p : Pacer) (n : ChId) : (s.timed m tm p).chan m n = s.chan m n :=
  modMover_chan s m (f := fun v => v.setPt tm p) (fun _ => rfl) n

theorem timed_stageMoves (s : State) (m : MovId) (tm : TimerId) (p : Pacer) : (s.timed m tm p).stageMoves m = s.stageMoves m := by
  refine stageMoves_congr rfl fun k n => ?_
  by_cases hk : k = m
  · rw [hk, timed_chan]
  · unfold State.chan State.timed State.modMover
    rw [State.setMover_mover_ne _ _ _ _ hk]

/-- A channel with descriptor `x` that waits for timer `tm`, or may. -/
structure WaitsFor (s : State) (m : MovId) (ch : ChId) (tm : TimerId) (x : Desc) : Prop where
  cur : (s.chan m ch).cur = some x
  pace : x.pace = true
  ptmr : x.ptmr = tm
  ended : (s.chan m ch).ended = none
  stopAs : (s.chan m ch).stopAs = none
  fault : (s.chan m ch).fault = none

/-- A burst of a descriptor that the timer paces is counted (12 R400). -/
theorem countBurst_own {v : Mover} {p : Pacer} (hv : v.pt tm = p) (hp : x.pace = true) (ht : x.ptmr = tm) :
    (v.countBurst x).pt tm = { p with left := p.left - 1, req := p.req && p.left != 1 } := by
  unfold Mover.countBurst
  rw [if_pos hp, ht, hv]
  exact tget_tset_same _ _ _ _

theorem WaitsFor.serves (h : WaitsFor s m ch tm x) (hs : s.servedNow m ch) (hi : (s.chan m ch).issued = false)
    (hd : x.block = true ∨ (s.chan m ch).done ≠ x.len) (hn : x.block = true ∨ (s.chan m ch).next < x.len) (p : Pacer) (q : Tab Clu) :
    Serves { s.timed m tm p with clus := q } m ch (s.chan m ch) x := by
  obtain ⟨hal, he, hfl, horph, hab, hmax, hstage⟩ := hs
  have hfresh : (s.chan m ch).Fresh x := ⟨h.cur, h.ended, h.stopAs, h.fault, hfl, hab, hi, horph, hd, hn⟩
  have herr : ((s.timed m tm p).mover m).errhalt = false := by
    unfold State.timed
    rw [modMover_mover]
    exact he
  have hem : (s.timed m tm p).Emptied m := modMover_emptied (f := fun v => v.setPt tm p) (aloneAt_emptied hal hfresh.empty) fun _ => rfl
  have hstg : (s.chan m ch).prio = 3 ∨ (s.timed m tm p).stageMoves m = false := by
    rcases hstage with hp | hno
    · exact .inl hp
    · exact .inr ((timed_stageMoves s m tm p).trans hno)
  exact ⟨herr, ⟨timed_chan .., fun n hn => (congrArg Chan.cur (timed_chan ..)).trans (aloneAt_cur s m hal hn)⟩,
    hem, hfresh, hmax, hstg⟩

/-- WDRAW withdraws the timer's request, and a channel that would draw on it is PACED. -/
theorem wdraw_withdraws : Answers (.wdraw m tm) s fun t => (t.mover m).pt tm = { (s.mover m).pt tm with left := 0, req := false } ∧
    ∀ x, s.servedNow m ch → WaitsFor s m ch tm x → (s.chan m ch).state = .active → (s.chan m ch).next < x.len → (s.chan m ch).done ≠ x.len →
      (s.chan m ch).issued = false → t.chan m ch = { s.chan m ch with state := .paced, heldAt := s.aoTick.toNat } := by
  have hpt := timed_pt s m tm { (s.mover m).pt tm with left := 0, req := false }
  refine ⟨(s.timed m tm { (s.mover m).pt tm with left := 0, req := false }).moverGo m, rfl, ?_, fun x hs h ha hn hd hi => ?_⟩
  · have hspare : (s.timed m tm { (s.mover m).pt tm with left := 0, req := false }).Spares m (some tm) := fun y hy => by
      obtain rfl := Option.some.inj hy
      rw [hpt]
      exact .inl rfl
    rw [(moverGo_goesBy _ hspare).pt tm rfl, hpt]
  · refine ((h.serves hs hi (.inr hd) (.inr hn) _ s.clus).paced ha ?_).lone.chan
    show ((s.timed m tm { (s.mover m).pt tm with left := 0, req := false }).mover m).mayStart x = false
    unfold Mover.mayStart
    rw [h.pace, h.ptmr, hpt]
    rfl

/-- Between the multiples of its period a timer does nothing. -/
theorem pacingPeriod_waits (h : ((s.mover m).pt tm).period = 0 ∨ s.aoTick.toNat % ((s.mover m).pt tm).period.toNat ≠ 0) :
    exec (.pacingPeriod m tm) s = .next s := congrArg Host.Outcome.next (if_pos h)

theorem pacingPeriod_asserts (h0 : ((s.mover m).pt tm).period ≠ 0) (hmul : s.aoTick.toNat % ((s.mover m).pt tm).period.toNat = 0) :
    Answers (.pacingPeriod m tm) s fun t =>
      ((∀ kc ∈ (s.mover m).chans, ∀ x, kc.2.cur = some x → x.pace = false ∨ x.ptmr ≠ tm) →
        (t.mover m).pt tm = { (s.mover m).pt tm with left := ((s.mover m).pt tm).quota, req := true }) ∧
      ∀ x, s.servedNow m ch → WaitsFor s m ch tm x → (s.chan m ch).state = .paced → x.block = true → (s.chan m ch).issued = false →
        s.drainsFirst (maPort x.blockAddr) = false → t.chan m ch = { s.chan m ch with state := .active, issued := true, since := s.aoTick.toNat } ∧
        (t.mover m).pt tm = { (s.mover m).pt tm with left := ((s.mover m).pt tm).quota - 1, req := ((s.mover m).pt tm).quota != 1 } := by
  have hpt := timed_pt s m tm { (s.mover m).pt tm with left := ((s.mover m).pt tm).quota, req := true }
  have hex : ∃ q, exec (.pacingPeriod m tm) s =
      .next (State.moverGo { s.timed m tm { (s.mover m).pt tm with left := ((s.mover m).pt tm).quota, req := true } with clus := q } m) := by
    obtain ⟨q, hq⟩ := wakeFor_rest (s.timed m tm { (s.mover m).pt tm with left := ((s.mover m).pt tm).quota, req := true }) m
    have hbody : exec (.pacingPeriod m tm) s = .next (State.moverGo (if ((s.mover m).chans.any fun kc => kc.2.state == .paced && kc.2.cur.any fun d => d.ptmr == tm)
        then (s.timed m tm { (s.mover m).pt tm with left := ((s.mover m).pt tm).quota, req := true }).wakeFor m
        else s.timed m tm { (s.mover m).pt tm with left := ((s.mover m).pt tm).quota, req := true }) m) :=
      congrArg Host.Outcome.next (if_neg (by rw [not_or, not_not]; exact ⟨h0, hmul⟩))
    split at hbody
    · exact ⟨q, hq ▸ hbody⟩
    · exact ⟨s.clus, hbody⟩
  obtain ⟨q, hex⟩ := hex
  refine ⟨_, hex, fun hnone => ?_, fun x hs h hp hb hi hdr => ?_⟩
  · have hspare : State.Spares { s.timed m tm { (s.mover m).pt tm with left := ((s.mover m).pt tm).quota, req := true } with clus := q } m (some tm) := by
      intro y hy
      obtain rfl := Option.some.inj hy
      refine .inr fun n d hc hpace => ?_
      have hcn : (s.chan m n).cur = some d := (congrArg Chan.cur (timed_chan s m tm _ n)).symm.trans hc
      rcases tget_mem (chanReset m n) (s.mover m).chans n.val with hd | hin
      · have hno := (congrArg Chan.cur hd).trans (chanReset_cur m n)
        exact absurd (hcn.symm.trans hno) nofun
      · exact (hnone _ hin d hcn).resolve_left (by rw [hpace]; exact nofun)
    rw [(moverGo_goesBy _ hspare).pt tm rfl]
    exact hpt
  · have hser := h.serves hs hi (.inl hb) (.inl hb) { (s.mover m).pt tm with left := ((s.mover m).pt tm).quota, req := true } q
    have hmay : ((s.timed m tm { (s.mover m).pt tm with left := ((s.mover m).pt tm).quota, req := true }).mover m).mayStart x = true := by
      unfold Mover.mayStart
      rw [h.ptmr, hpt]
      exact Bool.or_true _
    have k := hser.block (hser.fresh.unpaced _ hp hmay) (hser.fresh.since _ _) rfl rfl rfl hb hdr
    refine ⟨k.lone.chan, ?_⟩
    exact (congrArg (fun l => tget Pacer.reset l tm.val) k.pts).trans (countBurst_own hpt h.pace h.ptmr)

end

end Sys2Proof.Machine
end

section
/-! O41: DESCRIPTOR_COMPLETE (12 R395 to R402). -/

namespace Sys2Proof.Machine

section
variable {s t : State} {m : MovId} {ch n : ChId} {d : Desc} {st : Byte} {nv : BitVec 11}

/-! ### A chain kick -/

theorem kick_cur (c : Chan) : c.kick.cur = c.cur := by
  unfold Chan.kick
  split
  · rfl
  · rfl
  · rfl
  · rfl
  · rfl

/-- What a chain kick of channel `n` leaves (12 R396). -/
structure ChainKicked (s t : State) (m : MovId) (n : ChId) : Prop where
  chan : t.chan m n = (s.chan m n).kick
  other : ∀ k, k ≠ n → t.chan m k = s.chan m k
  hbm : t.hbm = s.hbm
  ccm : t.ccm = s.ccm
  movSigs : t.movSigs = s.movSigs
  intstat : (t.mover m).intstat = (s.mover m).intstat
  errhalt : (t.mover m).errhalt = (s.mover m).errhalt

/-- A channel that takes no kick: the kick is dropped and noted. -/
theorem chainKick_dropped (hk : (s.chan m n).kick = s.chan m n) : ChainKicked s (s.modMover m fun v => { v with evstat := v.evstat ||| 4 }) m n := by
  have hc : ∀ k, (s.modMover m fun v => { v with evstat := v.evstat ||| 4 }).chan m k = s.chan m k := fun k =>
    modMover_chan s m (f := fun v => { v with evstat := v.evstat ||| 4 }) (fun _ => rfl) k
  have hv := modMover_mover s m fun v => { v with evstat := v.evstat ||| 4 }
  refine ⟨(hc n).trans hk.symm, fun k _ => hc k, rfl, rfl, rfl, ?_, ?_⟩
  · rw [hv]
  · rw [hv]

theorem chainKick_taken : ChainKicked s (s.kicked m n) m n := by
  obtain ⟨q, hq⟩ := kicked_rest s m n
  have hplain : ((s.kicked m n).mover m).plain = (s.mover m).plain := by
    rw [hq]
    exact setChan_plain s m n _
  refine ⟨kicked_chan s m n, fun k hk => kicked_chan_ne s m n hk, ?_, ?_, ?_, plain_intstat hplain, ?_⟩
  · rw [hq]; rfl
  · rw [hq]; rfl
  · rw [hq]; rfl
  · exact (congrArg Mover.errhalt hplain : ((s.kicked m n).mover m).plain.errhalt = _)

theorem chainKick_kicks (s : State) (m : MovId) (n : ChId) : ChainKicked s (s.chainKick m n) m n := by
  have hkick : (s.chan m n).state = .disabled ∨ (s.chan m n).state = .stopped ∨ (s.chan m n).state = .errHalt → (s.chan m n).kick = s.chan m n := fun h =>
    Chan.Kicks.eq (.inr (.inr ⟨h, rfl⟩))
  unfold State.chainKick
  split
  · next h => exact chainKick_dropped (hkick (.inl h))
  · next h => exact chainKick_dropped (hkick (.inr (.inl h)))
  · next h => exact chainKick_dropped (hkick (.inr (.inr h)))
  · exact chainKick_taken

/-! ### The completion in its order -/

/-- The channel after its descriptor's status (12 R398, R402). -/
def Chan.completed (c : Chan) (d : Desc) (st : Byte) : Chan :=
  { c.ended_ st with
    state := if st ≠ 0 ∨ c.aborting = true then .stopped else if d.last = true ∧ c.kpend = false then .idle else .active
    kpend := if st = 0 ∧ c.aborting = false ∧ d.last = true then false else c.kpend }

/-- How a channel goes on, in one expression. -/
theorem after_eq (c : Chan) (d : Desc) (st : Byte) : c.after d st = { c with
    aborting := false
    state := if st ≠ 0 ∨ c.aborting = true then .stopped else if d.last = true ∧ c.kpend = false then .idle else .active
    kpend := if st = 0 ∧ c.aborting = false ∧ d.last = true then false else c.kpend } := by
  obtain ⟨log2, addr, spc, prio, maxb, hedge, sigv, ept, state, kpend, head, last, done, cur, issued, ended, poison, diff, aborting⟩ := c
  unfold Chan.after
  cases aborting with
  | true => simp
  | false =>
    by_cases h0 : st = 0
    · cases hl : d.last with
      | false => simp [h0]
      | true =>
        cases kpend with
        | true => simp [h0]
        | false => simp [h0]
    · simp only [ne_eq, h0, not_false_eq_true, true_or, if_true, false_and, if_false]

theorem statused_after (c : Chan) (d : Desc) (st : Byte) : (c.statused st true).after d st = c.completed d st := after_eq (c.statused st true) d st

theorem writeStatus_movSigs (s : State) (m : MovId) (ch : ChId) (d : Desc) (st : Byte) (nv : BitVec 11) (halt : Bool) :
    (s.writeStatus m ch d st nv halt).movSigs = s.movSigs ++
      (if d.sig = true ∧ (s.chan m ch).sigv = true then [((m, ch), (s.chan m ch).hedge, (s.chan m ch).ept.toNat)] else []) := by
  have hmem : ∀ (spc : Bool) (at_ : Nat) (bs : List (Byte × Bool)), (s.memWrite spc at_ bs).movSigs = s.movSigs := fun spc at_ bs => by
    obtain ⟨h, p, l, c, hw⟩ := memWrite_rest s spc at_ bs
    rw [hw]
  unfold State.writeStatus
  show (State.putStatus s m ch d st _ _ true _).movSigs = _
  unfold State.putStatus
  dsimp only
  by_cases hs : d.sig = true ∧ (s.chan m ch).sigv = true
  · rw [if_pos (show (s.chan m ch).signals d = true by unfold Chan.signals; rw [hs.1, hs.2]; rfl), if_pos hs]
    exact congrArg (· ++ _) (hmem _ _ _)
  · rw [if_neg (show ¬(s.chan m ch).signals d = true from fun h => hs (Bool.and_eq_true_iff.1 h)), if_neg hs, List.append_nil]
    exact hmem _ _ _

/-- What an interrupt of the channel leaves, if one is due (12 R395). -/
structure Interrupted (s t : State) (m : MovId) (ch : ChId) (due : Bool) : Prop where
  chan : ∀ k, t.chan m k = s.chan m k
  hbm : t.hbm = s.hbm
  ccm : t.ccm = s.ccm
  movSigs : t.movSigs = s.movSigs
  errhalt : (t.mover m).errhalt = (s.mover m).errhalt
  intstat : (t.mover m).intstat = if due then (s.mover m).intstat ||| BitVec.ofNat 64 (2 ^ ch.val) else (s.mover m).intstat

theorem interrupt_interrupted (s : State) (m : MovId) (ch : ChId) (due : Bool) :
    Interrupted s (if due = true then s.modMover m fun v => v.interrupt ch else s) m ch due := by
  cases due with
  | false => exact ⟨fun _ => rfl, rfl, rfl, rfl, rfl, rfl⟩
  | true =>
    have hv := modMover_mover s m fun v => v.interrupt ch
    rw [if_pos rfl]
    refine ⟨fun k => modMover_chan s m (f := fun v => v.interrupt ch) (fun _ => rfl) k, rfl, rfl, rfl, ?_, ?_⟩
    · rw [hv]; rfl
    · rw [hv]; rfl

/-- What a completion leaves, as the statement has it (12 R395 to R402). -/
structure Completed (s t : State) (m : MovId) (ch : ChId) (d : Desc) (st : Byte) (nv : BitVec 11) : Prop where
  read : (t.memBytes (s.chan m ch).spc ((s.chan m ch).descAt (s.chan m ch).head.toNat) 32).map (·.1) =
    statusBytes d st nv false (s.chan m ch).poison (s.chan m ch).done (s.chan m ch).diff
  chan : d.chain = false ∨ d.chn ≠ ch → t.chan m ch = (s.chan m ch).completed d st
  movSigs : t.movSigs = s.movSigs ++
    (if d.sig = true ∧ (s.chan m ch).sigv = true then [((m, ch), (s.chan m ch).hedge, (s.chan m ch).ept.toNat)] else [])
  interrupts : d.int = true ∨ st ≠ 0 ∨ (s.chan m ch).aborting = true → (t.mover m).intstat = (s.mover m).intstat ||| BitVec.ofNat 64 (2 ^ ch.val)
  silent : d.int = false → st = 0 → (s.chan m ch).aborting = false → (t.mover m).intstat = (s.mover m).intstat
  kicks : d.chain = true → st = 0 → d.chn ≠ ch → t.chan m d.chn = (s.chan m d.chn).kick
  idle : (t.chan m ch).cur = none
  others : ∀ k, k ≠ ch → (t.chan m k).cur = (s.chan m k).cur
  errhalt : (t.mover m).errhalt = (s.mover m).errhalt

/-- The status, the signal, and the channel's next state. -/
theorem statused_completed (s : State) (m : MovId) (ch : ChId) (d : Desc) (st : Byte) (nv : BitVec 11) :
    Statused s ((s.writeStatus m ch d st nv false).modChan m ch fun c => c.after d st) m ch ((s.chan m ch).completed d st) (s.chan m ch).spc
      ((s.chan m ch).descAt (s.chan m ch).head.toNat) (statusBytes d st nv false (s.chan m ch).poison (s.chan m ch).done (s.chan m ch).diff) := by
  rw [← statused_after]
  exact (writeStatus_statused s m ch d st nv false).modChan fun c => c.after d st

theorem finish_completed (s : State) (m : MovId) (ch : ChId) (d : Desc) (st : Byte) (nv : BitVec 11) : Completed s (s.finish m ch d st nv) m ch d st nv := by
  have h1 := statused_completed s m ch d st nv
  have hsig1 : ((s.writeStatus m ch d st nv false).modChan m ch fun c => c.after d st).movSigs = _ := writeStatus_movSigs s m ch d st nv false
  unfold State.finish
  dsimp only
  generalize (s.writeStatus m ch d st nv false).modChan m ch (fun c => c.after d st) = s1 at h1 hsig1 ⊢
  have hread1 := h1.read
  rw [statusBytes_length] at hread1
  have hint1 : (s1.mover m).intstat = (s.mover m).intstat := plain_intstat h1.plain
  have herr1 : (s1.mover m).errhalt = (s.mover m).errhalt := (congrArg Mover.errhalt h1.plain : (s1.mover m).plain.errhalt = _)
  have hcur1 : ((s.chan m ch).completed d st).cur = none := rfl
  have h2 := interrupt_interrupted s1 m ch (d.int || decide (st ≠ 0) || (s.chan m ch).aborting)
  generalize (if (d.int || decide (st ≠ 0) || (s.chan m ch).aborting) = true then s1.modMover m fun v => v.interrupt ch else s1) = s2 at h2 ⊢
  have hread2 := (memBytes_congr h2.hbm h2.ccm (s.chan m ch).spc ((s.chan m ch).descAt (s.chan m ch).head.toNat) 32).trans hread1
  have hsig2 := h2.movSigs.trans hsig1
  have herr2 := h2.errhalt.trans herr1
  have hloud : d.int = true ∨ st ≠ 0 ∨ (s.chan m ch).aborting = true →
      (s2.mover m).intstat = (s.mover m).intstat ||| BitVec.ofNat 64 (2 ^ ch.val) := fun hdue => by
    have hyes : (d.int || decide (st ≠ 0) || (s.chan m ch).aborting) = true := by
      simpa only [Bool.or_eq_true, decide_eq_true_eq, or_assoc] using hdue
    rw [h2.intstat, hyes, hint1]
    rfl
  have hsilent : d.int = false → st = 0 → (s.chan m ch).aborting = false → (s2.mover m).intstat = (s.mover m).intstat := fun hi h0 ha => by
    rw [h2.intstat, hi, h0, ha, hint1]
    rfl
  by_cases hc : (d.chain && decide (st = 0)) = true
  · rw [if_pos hc]
    obtain ⟨hchain, -⟩ := Bool.and_eq_true_iff.1 hc
    have k := chainKick_kicks s2 m d.chn
    refine ⟨(memBytes_congr k.hbm k.ccm _ _ _).trans hread2, fun hne => ?_, k.movSigs.trans hsig2, fun h => k.intstat.trans (hloud h),
      fun h h0 ha => k.intstat.trans (hsilent h h0 ha), fun _ _ hne => ?_, ?_, fun n hn => ?_, k.errhalt.trans herr2⟩
    · have hch : ch ≠ d.chn := fun he => hne.elim (fun h => by rw [hchain] at h; cases h) fun h => h he.symm
      rw [k.other ch hch, h2.chan, h1.chan]
    · rw [k.chan, h2.chan, h1.other _ hne]
    · by_cases he : ch = d.chn
      · rw [he, k.chan, kick_cur, ← he, h2.chan, h1.chan, hcur1]
      · rw [k.other ch he, h2.chan, h1.chan, hcur1]
    · by_cases he : n = d.chn
      · rw [he, k.chan, kick_cur, ← he, h2.chan, h1.other n hn]
      · rw [k.other n he, h2.chan, h1.other n hn]
  · rw [if_neg hc]
    refine ⟨hread2, fun _ => (h2.chan ch).trans h1.chan, hsig2, hloud, hsilent, fun h h0 _ => absurd (by rw [h, h0]; rfl) hc, ?_, fun k hk => ?_, herr2⟩
    · rw [h2.chan, h1.chan, hcur1]
    · rw [h2.chan, h1.other k hk]

variable (hc : (s.chan m ch).cur = some d) (he : (s.mover m).errhalt = false) (hal : s.aloneAt m ch) (hend : (s.chan m ch).ended = some (st, nv))
include hc he hend

/-- The zero-length read of a BARRIER to a host goes out first (12 R395). -/
theorem complete_flushes (hf : (s.chan m ch).mustFlush d = true) : exec (.descriptorComplete m ch) s =
    .next ((s.setChan m ch { s.chan m ch with flushing := true }).emit
      (.read (maFn d.dst) (BitVec.ofNat 64 (bits d.dst 51 0 + (s.chan m ch).done - 1)) 0)) := by
  show execDescriptorComplete m ch s = _
  unfold execDescriptorComplete
  dsimp only
  rw [hc, hend]
  dsimp only
  rw [he, if_neg Bool.false_ne_true, if_pos hf]

include hal

/-- The descriptor completes, and its mover has nothing more to do. -/
theorem complete_completes (hf : (s.chan m ch).mustFlush d = false) : Answers (.descriptorComplete m ch) s fun t => Completed s t m ch d st nv := by
  have hex : exec (.descriptorComplete m ch) s = .next ((s.finish m ch d st nv).moverGo m) := by
    show execDescriptorComplete m ch s = _
    unfold execDescriptorComplete
    dsimp only
    rw [hc, hend]
    dsimp only
    rw [he, if_neg Bool.false_ne_true, if_neg (by rw [hf]; exact Bool.false_ne_true)]
  have k := finish_completed s m ch d st nv
  generalize s.finish m ch d st nv = u at hex k
  have hcur : ∀ n, (u.chan m n).cur = none := fun n => by
    by_cases hn : n = ch
    · rw [hn]
      exact k.idle
    · rw [k.others n hn]
      exact aloneAt_cur s m hal hn
  rw [moverGo_still u m (k.errhalt.trans he) fun n => .inl (hcur n)] at hex
  have hchan : ∀ n, (u.pace m).chan m n = u.chan m n := fun n => (pace_chan u m n).trans (paceChan_idle _ _ (hcur n))
  have hint : ((u.pace m).mover m).intstat = (u.mover m).intstat := plain_intstat (pace_plain u m)
  refine ⟨_, hex, k.read, fun h => (hchan ch).trans (k.chan h), k.movSigs, fun h => hint.trans (k.interrupts h),
    fun h h0 ha => hint.trans (k.silent h h0 ha), fun h h0 hn => (hchan _).trans (k.kicks h h0 hn), (congrArg Chan.cur (hchan ch)).trans k.idle,
    fun n hn => (congrArg Chan.cur (hchan n)).trans (k.others n hn), ?_⟩
  exact (congrArg Mover.errhalt (pace_plain u m) : ((u.pace m).mover m).plain.errhalt = _).trans k.errhalt

end

end Sys2Proof.Machine
end

section
/-! O41: MOVER_TIMEOUT (12 R408), and the obligation. -/

namespace Sys2Proof.Machine

section
variable {s t u : State} {m : MovId} {ch : ChId} {d : Desc}

theorem unknownBlocks_keeps (s : State) (d : Desc) : (s.unknownBlocks d).movers = s.movers ∧ (s.unknownBlocks d).out = s.out ∧
    (s.unknownBlocks d).errq = s.errq := by
  unfold State.unknownBlocks
  split
  · exact ⟨rfl, rfl, rfl⟩
  · exact ⟨rfl, rfl, rfl⟩

theorem mover_congr (h : t.movers = s.movers) (m : MovId) : t.mover m = s.mover m := by
  unfold State.mover
  rw [h]

/-- A mover whose one channel's descriptor has ended has nothing to do. -/
theorem lone_still {c : Chan} (h : Lone s m ch c) (he : c.ended.isSome = true) : s.Still m := fun n => by
  by_cases hn : n = ch
  · rw [hn, h.chan]
    exact .inr he
  · exact .inl (h.others n hn)

/-- The NVMe command of a block transfer is late (12 R408). -/
theorem timeout_block (hc : (s.chan m ch).cur = some d) (he : (s.mover m).errhalt = false) (hal : s.aloneAt m ch) (hend : (s.chan m ch).ended = none)
    (horph : (s.chan m ch).orphan = none) (data : List Byte) (hb : d.block = true) (hi : (s.chan m ch).issued = true) :
    (s.expired m (s.chan m ch).since = true → Answers (.moverTimeout m ch data) s fun t => (t.chan m ch).ended = some (0x03, 0) ∧
      t.out = s.out ++ [.nvmeAbort (maPort d.blockAddr)] ∧ ∃ r, t.errq = s.errq ++ [r] ∧ r.cls = 0x0F ∧ r.status = 0x03) ∧
    (s.expired m (s.chan m ch).since = false → exec (.moverTimeout m ch data) s = .next s) := by
  have hex : exec (.moverTimeout m ch data) s = .next (if s.expired m (s.chan m ch).since = true then
      (((s.unknownBlocks d).endBlock m ch 0x03 0 false 0).blockLate d).moverGo m else s) := by
    show execMoverTimeout m ch data s = _
    unfold execMoverTimeout
    dsimp only
    rw [horph, hc]
    dsimp only
    rw [hb, if_pos rfl, hi, hend]
    rfl
  refine ⟨fun hx => ?_, fun hx => ?_⟩
  · rw [hx, if_pos rfl] at hex
    obtain ⟨hmov, hout, herr⟩ := unknownBlocks_keeps s d
    have hlone : Lone (((s.unknownBlocks d).endBlock m ch 0x03 0 false 0).blockLate d) m ch
        { s.chan m ch with ended := some (0x03, 0), poison := false, done := 0 } :=
      movers_lone (modChan_lone (movers_lone ⟨rfl, fun n hn => aloneAt_cur s m hal hn⟩ hmov)
        fun c => { c with ended := some (0x03, 0), poison := false, done := 0 }) rfl
    have hplain : (((s.unknownBlocks d).endBlock m ch 0x03 0 false 0).mover m).plain = (s.mover m).plain :=
      (setChan_plain _ m ch _).trans (congrArg Mover.plain (mover_congr hmov m))
    have herrh : ((((s.unknownBlocks d).endBlock m ch 0x03 0 false 0).blockLate d).mover m).errhalt = false :=
      (congrArg Mover.errhalt hplain : (((s.unknownBlocks d).endBlock m ch 0x03 0 false 0).mover m).plain.errhalt = _).trans he
    rw [moverGo_still _ m herrh (lone_still hlone rfl)] at hex
    refine ⟨_, hex, ?_, ?_, ?_⟩
    · rw [pace_chan, (paceChan_still _ _ _).2, hlone.chan]
    · exact congrArg (· ++ _) hout
    · exact ⟨_, congrArg (· ++ _) herr, rfl, rfl⟩
  · rw [hex, hx]
    rfl

/-! ### A HOST read that is late -/

theorem writeRoom_pos {a : Word64} (h : maSpace a = 2) (off : Nat) : 1 ≤ s.writeRoom a off := by
  unfold State.writeRoom room256
  rw [if_neg (by rw [h]; decide)]
  have := Nat.mod_lt ((if maSpace a = 1 then bits a 17 0 else bits a 47 0) + off) (show 0 < 256 by decide)
  omega

theorem tsetRun_append {α : Type} [DecidableEq α] (e : α) (xs ys : List α) (l : Tab α) (i : Nat) :
    tsetRun e (tsetRun e l i xs) (i + xs.length) ys = tsetRun e l i (xs ++ ys) := by
  induction xs generalizing l i with
  | nil => rfl
  | cons x xs ih =>
    have hnext : i + (x :: xs).length = i + 1 + xs.length := by rw [List.length_cons]; omega
    rw [hnext]
    exact ih _ _

/-- `t` is `s` with bytes `bs` at `a` of HBM. -/
def WritesHbm (s t : State) (a : Nat) (bs : List Byte) : Prop := ∃ p l, t = { s with hbm := tsetRun 0 s.hbm a bs, poison := p, hbmLatent := l }

/-- The write engine writes a run to HBM (12 R403). -/
theorem writeRun_hbm (hd : maSpace d.dst = 2) (f : Nat) (s : State) (off : Nat) (bs : List (Byte × Bool)) (hf : bs.length ≤ f) :
    ∃ t, State.writeRun m d f s off bs = (t, bs.length, .ok) ∧ WritesHbm s t (bits d.dst 37 0 + off) (bs.map (·.1)) := by
  induction f generalizing s off bs with
  | zero =>
    obtain rfl := List.length_eq_zero_iff.1 (Nat.le_zero.1 hf)
    exact ⟨s, rfl, s.poison, s.hbmLatent, rfl⟩
  | succ f ih =>
    rw [State.writeRun]
    split
    · next hnil =>
      obtain rfl := List.isEmpty_iff.1 hnil
      exact ⟨s, rfl, s.poison, s.hbmLatent, rfl⟩
    · next hne =>
      have hpos : 0 < bs.length := List.length_pos_iff.2 fun h0 => hne (List.isEmpty_iff.2 h0)
      have hroom := writeRoom_pos (s := s) hd off
      have htrans : ∀ n, s.maTrans m d.dst off n true = (s, .ok) := fun n => if_neg (by rw [hd]; decide)
      dsimp only
      rw [htrans]
      dsimp only
      generalize hn : min bs.length (s.writeRoom d.dst off) = n
      have hwrite : ∃ v, s.maWrite m d.dst off (bs.take n) = v ∧ WritesHbm s v (bits d.dst 37 0 + off) ((bs.take n).map (·.1)) := by
        unfold State.maWrite
        rw [hd]
        exact ⟨_, rfl, _, _, rfl⟩
      obtain ⟨v, hv, p, l, hvs⟩ := hwrite
      obtain ⟨t, ht, q, k, hts⟩ := ih v (off + n) (bs.drop n) (by rw [List.length_drop]; omega)
      rw [hv, ht]
      refine ⟨t, ?_, q, k, ?_⟩
      · rw [List.length_drop]
        dsimp only
        rw [Nat.add_sub_cancel' (by omega)]
      · have hlen : ((bs.take n).map (·.1)).length = n := by rw [List.length_map, List.length_take]; omega
        have happ := tsetRun_append 0 ((bs.take n).map (·.1)) ((bs.drop n).map (·.1)) s.hbm (bits d.dst 37 0 + off)
        rw [hlen, ← List.map_append, List.take_append_drop] at happ
        rw [hts, hvs, ← happ, ← Nat.add_assoc]

theorem upTo64_le (a : Word64) (off n : Nat) : upTo64 a off n ≤ n := by
  unfold upTo64
  omega

/-- Of the bytes received those before the last boundary of 64 are written, and counted (12 R408). -/
theorem keepLate_keeps {c : Chan} {b : Burst} (hl : Lone s m ch c) (hop : d.op = 0) (hoff : b.off = c.done) (hdst : maSpace d.dst = 2)
    (hmeets : d.meets = false) (data : List Byte) : ∃ t n, s.keepLate m ch d b data = t ∧ n = upTo64 b.a c.done (min data.length b.n) ∧
      Lone t m ch { c with done := c.done + n } ∧ t.hbm = tsetRun 0 s.hbm (bits d.dst 37 0 + c.done) (data.take n) ∧ t.errq = s.errq ∧
      (t.mover m).plain = (s.mover m).plain := by
  generalize hn : upTo64 b.a c.done (min data.length b.n) = n
  have hle : n ≤ data.length := by
    have := upTo64_le b.a c.done (min data.length b.n)
    omega
  have hlen : ((data.take n).map fun x => (x, false)).length = n := by rw [List.length_map, List.length_take]; omega
  obtain ⟨v, hv, p, l, hvs⟩ := writeRun_hbm (m := m) hdst n s c.done ((data.take n).map fun x => (x, false)) hlen.le
  have hfst : (((data.take n).map fun x => (x, false)).map (·.1) : List Byte) = data.take n := by
    rw [List.map_map]
    exact List.map_id _
  have hcond : ¬(decide (d.op = 2) || b.off != (s.chan m ch).done) = true := by
    rw [hl.chan, hoff, hop, bne_self_eq_false]
    decide
  have hkeep : s.keepLate m ch d b data = v.modChan m ch fun c => { c with done := c.done + n } := by
    unfold State.keepLate
    dsimp only
    rw [if_neg hcond, hoff, hn, hmeets, if_neg Bool.false_ne_true]
    dsimp only
    rw [hv, hlen]
  have hvm : v.movers = s.movers := by rw [hvs]
  refine ⟨_, n, hkeep, rfl, modChan_lone (movers_lone hl hvm) fun c => { c with done := c.done + n }, ?_, ?_, ?_⟩
  · rw [← hfst]
    exact congrArg State.hbm hvs
  · exact (congrArg State.errq hvs : v.errq = _)
  · exact (setChan_plain v m ch _).trans (congrArg Mover.plain (mover_congr hvm m))

/-- A HOST read of a COPY to HBM is late: what was received up to the last boundary of 64 bytes is kept (12 R408). -/
theorem timeout_host (hc : (s.chan m ch).cur = some d) (he : (s.mover m).errhalt = false) (hal : s.aloneAt m ch)
    (horph : (s.chan m ch).orphan = none) (data : List Byte) {b : Burst} (hb : d.block = false) (ha : (s.chan m ch).state = .active) (hop : d.op = 0)
    (hfl : (s.chan m ch).flight = [b]) (hdata : b.data = none) (hst : b.stale = false) (hoff : b.off = (s.chan m ch).done) (hsp : maSpace b.a = 4)
    (hdst : maSpace d.dst = 2) (hmeets : d.meets = false) :
    (s.expired m b.since = true → Answers (.moverTimeout m ch data) s fun t =>
      let n := upTo64 b.a (s.chan m ch).done (min data.length b.n)
      t.chan m ch = { s.chan m ch with done := (s.chan m ch).done + n, flight := [], ended := some (0x03, 0) } ∧
        tgetRun 0 t.hbm (bits d.dst 37 0 + (s.chan m ch).done) n = data.take n ∧ ∃ r, t.errq = s.errq ++ [r] ∧ r.cls = 0x0E) ∧
    (s.expired m b.since = false → exec (.moverTimeout m ch data) s = .next s) := by
  have hout : (s.chan m ch).hostOut = some (0, b) := by
    have hpred : (b.out && maSpace b.a == 4) = true := by
      unfold Burst.out
      rw [hdata, hsp]
      rfl
    unfold Chan.hostOut
    rw [hfl]
    show Option.map _ (List.find? _ [(b, 0)]) = _
    rw [List.find?_cons_of_pos (p := fun q : Burst × Nat => q.1.out && maSpace q.1.a == 4) hpred]
    rfl
  have hex : exec (.moverTimeout m ch data) s = .next (s.lateRead m ch (s.chan m ch) data) := by
    show execMoverTimeout m ch data s = _
    unfold execMoverTimeout
    dsimp only
    rw [horph, hc]
    dsimp only
    rw [hb, if_neg Bool.false_ne_true]
  unfold State.lateRead at hex
  rw [hout] at hex
  dsimp only at hex
  rw [ha] at hex
  refine ⟨fun hx => ?_, fun hx => ?_⟩
  · rw [if_neg (by rw [hx]; decide), hst, hc] at hex
    dsimp only at hex
    generalize hs1 : s.aer (portOf (maFn b.a)) ((maFn b.a).val % 65) aerTimeout = s1 at hex
    have hs1m : s1.movers = s.movers := by rw [← hs1]; rfl
    have hs1e : s1.errq = s.errq ++ [portRecord s (portOf (maFn b.a)) aerTimeout] := by rw [← hs1]; rfl
    have hl1 : Lone s1 m ch (s.chan m ch) := movers_lone ⟨rfl, fun n hn => aloneAt_cur s m hal hn⟩ hs1m
    obtain ⟨v, n, hv, hn, hlv, hhbm, herr, hplain⟩ := keepLate_keeps hl1 hop hoff hdst hmeets data
    have hle : n ≤ data.length := by
      have := upTo64_le b.a (s.chan m ch).done (min data.length b.n)
      omega
    have hlw := modChan_lone hlv fun c => { c with flight := c.flight.filter (·.stale), ended := some (0x03, 0) }
    have hflw : (s.chan m ch).flight.filter (·.stale) = [] := by
      rw [hfl, List.filter_cons_of_neg (by rw [hst]; exact Bool.false_ne_true)]
      rfl
    dsimp only at hlw
    rw [hflw] at hlw
    have herrh : ((v.modChan m ch fun c => { c with flight := c.flight.filter (·.stale), ended := some (0x03, 0) }).mover m).errhalt = false := by
      have hp : ((v.modChan m ch fun c => { c with flight := c.flight.filter (·.stale), ended := some (0x03, 0) }).mover m).plain = (s.mover m).plain :=
        ((setChan_plain v m ch _).trans hplain).trans (congrArg Mover.plain (mover_congr hs1m m))
      exact (congrArg Mover.errhalt hp : Mover.errhalt (Mover.plain _) = _).trans he
    rw [hv, moverGo_still _ m herrh (lone_still hlw rfl)] at hex
    refine ⟨_, hex, ?_⟩
    dsimp only
    rw [← hn]
    refine ⟨?_, ?_, portRecord s (portOf (maFn b.a)) aerTimeout, ?_, rfl⟩
    · rw [pace_chan, hlw.chan]
      exact paceChan_same _ _ (by rw [show (_ : ChState) = (s.chan m ch).state from rfl, ha]; exact nofun) (.inl (wants_still (.inr rfl)))
    · show tgetRun 0 v.hbm _ n = _
      rw [hhbm]
      have hs1h : s1.hbm = s.hbm := by rw [← hs1]; rfl
      exact tgetRun_tsetRun_same _ _ (by rw [List.length_take]; omega)
    · exact herr.trans hs1e
  · rw [if_pos (by rw [hx]; decide)] at hex
    exact hex

end

/-- Settles O41: a mover that goes on keeps every channel's descriptor; of one that is served alone, each service is a step of the read engine
after which it has nothing more to start; and a descriptor that has ended leaves its mover still. -/
theorem descriptorsAreTakenAndCompleted : Obligations.DescriptorsAreTakenAndCompleted := by
  refine ⟨fun s m ch => ⟨fun hw ha hc he => ?_, fun tm => ?_⟩, fun s m ch d hc he hal => ⟨fun st nv hend => ⟨fun hf => ?_, fun hf => ?_⟩,
    fun hend horph data => ⟨fun hb hi => timeout_block hc he hal hend horph data hb hi, fun b hb ha hop hfl hdata hst hoff hsp hdst hmeets =>
      timeout_host hc he hal horph data hb ha hop hfl hdata hst hoff hsp hdst hmeets⟩⟩⟩
  · have h : ReadsHead s m ch := ⟨hw, ha, hc, he⟩
    refine ⟨h.unowned, fun hown hbad => h.fails hown hbad, fun hown hok => ⟨h.keeps hown hok, fun hs => ⟨fun hp hr => h.paced hown hok hs hp hr,
      fun hmay => ⟨fun hb hop hlen hsrc => h.burst hown hok hs hmay hb hop ?_ hsrc, fun v hb hop hsp hv => h.faults hown hok hs hmay hb hop ?_,
        fun hb hdr => h.block hown hok hs hmay hb hdr⟩⟩⟩⟩
    · exact hlen
    · rw [if_neg (by rw [hop]; decide)] at hv
      exact hv
  · obtain ⟨t, ht, hpt, hwait⟩ := wdraw_withdraws (s := s) (m := m) (ch := ch) (tm := tm)
    refine ⟨⟨t, ht, hpt, fun x hs ⟨hcur, hp, htm, hend, hstop, hfault⟩ => hwait x hs ⟨hcur, hp, htm, hend, hstop, hfault⟩⟩, fun h => pacingPeriod_waits h,
      fun h0 hmul => ?_⟩
    obtain ⟨u, hu, hnone, hgo⟩ := pacingPeriod_asserts (ch := ch) h0 hmul
    exact ⟨u, hu, hnone, fun x hs ⟨hcur, hp, htm, hend, hstop, hfault⟩ => hgo x hs ⟨hcur, hp, htm, hend, hstop, hfault⟩⟩
  · exact complete_flushes hc he hend hf
  · obtain ⟨t, ht, k⟩ := complete_completes hc he hal hend hf
    exact ⟨t, ht, k.read, k.chan, k.movSigs, k.interrupts, k.silent, k.kicks⟩

end Sys2Proof.Machine
end
